-- ==== Sys2Proof/Word.lean ====
section
/-! DEFINITION. The word types: a byte, and the 16, 32 and 64-bit fields of R14. -/

namespace Sys2Proof

/-- Eight bits. -/
abbrev Byte := BitVec 8

/-- A string of bytes, the one at the lowest address first. -/
abbrev Bytes := List Byte

/-- A 16-bit field. -/
abbrev W16 := BitVec 16

/-- A 32-bit field or register, R501. -/
abbrev W32 := BitVec 32

/-- A 64-bit field or counter. -/
abbrev W64 := BitVec 64

end Sys2Proof
end

