-- ==== Sys2Proof/Machine/OperandTypes.lean ====
section
/-! DEFINITION. What the rows of the table bring with them where it is more than a number: the device's own reads of host memory, the sample of a management tick. -/

namespace Sys2Proof

/-- A read of host memory the device made, R494: ring slots, the Tier 3 region at a device address for a command, a transfer image. -/
inductive HostRead where
  | slots (ring : Nat)
  | tier3 (h addr : Nat)
  | image (h : Nat)
  deriving DecidableEq, Repr

/-- What the array work of a layer's item comes to: its cell-cycles, or a parity mismatch of an accumulator row of a cell, R141, R390. -/
inductive ItemEnd where
  | worked (cycles : Nat)
  | parity (cell row : Nat)
  deriving DecidableEq, Repr

/-- How an access to a memory tier returned, R233, R234. -/
inductive TierOutcome where
  | good
  | corrected
  | poisoned
  | badTag
  | failed
  deriving DecidableEq, Repr

/-- What the ECC of a cell's memories found in an access: nothing, a corrected error or a poisoned word at a scratchpad offset or core address, R154. -/
inductive EccEvent where
  | none
  | corrected (addr : Nat)
  | poisoned (addr : Nat)
  deriving DecidableEq, Repr

/-- What a management tick measures and finds, R506, R515, R527, R599. -/
structure TickSample where
  /-- front time of the tick -/
  now : Nat
  /-- input voltage in 0.1 V -/
  vin : Nat
  /-- input current in mA -/
  iin : Nat
  /-- input power in W, average and peak of the last tick -/
  pinAvg : Nat
  pinPeak : Nat
  /-- highest junction temperature in °C, and its die -/
  tj : Nat
  tjDie : Nat
  /-- the 24 junction sensors in °C × 8 as two's complement u16, R587 -/
  junctions : List Nat
  /-- REFCLK100 lock, crystal -/
  refclk : Bool
  /-- isobar cores that report at this tick, R599 -/
  reporting : List Nat
  /-- configuration registers (BAR, offset) whose stored bits have been upset since the last tick, with the bits that have flipped, R506 -/
  upset : List (Nat × Nat × Nat)
  deriving DecidableEq, Repr

end Sys2Proof
end

