-- ==== Sys2Proof/Syntax.lean ====
section
/-! DEFINITION. The commands of the block: one constructor for each row of spec/opcode_table.json, in the table's order.
A host command carries the name of the command in flight that holds its header and parameters (log entry 2); every other row carries what the event brings with it. -/

namespace Sys2Proof

/-- The commands, the rows of the table. -/
inductive Instr where
  /-- SESSION_OPEN, R470: Opens an encrypted tenant or operator session by hybrid ECDH and ML-KEM exchange and returns keys material and a report. -/
  | sessionOpen (h : Nat)
  /-- SESSION_CLOSE, R472: Closes the issuing session, ending its requests and transactions and zeroising its keys after its last record. -/
  | sessionClose (h : Nat)
  /-- ATTEST_REPORT, R466: KIND 0 returns a signed attestation report of the named module. -/
  | attestReport (h : Nat)
  /-- ATTEST_CERTIFICATES, R466: KIND 1 returns a window of the DER certificate chains. -/
  | attestCertificates (h : Nat)
  /-- KEY_INSTALL_SET, R479: Installs an AES-256 transfer key in a slot and resets its export counter. -/
  | keyInstallSet (h : Nat)
  /-- KEY_INSTALL_IMPORT, R479: Reads a transfer image from host memory, verifies every chunk and writes the plaintext into the tenant's allocation. -/
  | keyInstallImport (h : Nat) (image : Bytes)
  /-- KEY_INSTALL_EXPORT, R479: Encrypts tenant bytes into a transfer image written to host memory under the slot's export counter. -/
  | keyInstallExport (h : Nat)
  /-- KEY_RETIRE, R480: Zeroises a transfer-key slot at its commit point. -/
  | keyRetire (h : Nat)
  /-- TENANT_CREATE, R469: Registers a tenant's public keys, draws its root key and gives it default quotas and shares. -/
  | tenantCreate (h : Nat)
  /-- TENANT_DESTROY, R481: Cancels a tenant's work, closes its sessions, releases all its objects and zeroises its root key. -/
  | tenantDestroy (h : Nat)
  /-- DEBUG_AUTHORIZE, R473: Verifies a signed debug token and unlocks debug, destroying tenants and extending MR4. -/
  | debugAuthorize (h : Nat)
  /-- TXN_BEGIN, R62: Opens a transaction with a timeout and returns its TXN_ID. -/
  | txnBegin (h : Nat)
  /-- TXN_SET, R65: Stages configuration items into an open transaction. -/
  | txnSet (h : Nat)
  /-- TXN_COMMIT, R66: Closes a transaction and validates and applies its staged parts at one commit point, or aborts it. -/
  | txnCommit (h : Nat)
  /-- TXN_ROLLBACK, R69: Discards an open transaction and posts final records for its staged commands. -/
  | txnRollback (h : Nat)
  /-- CONFIG_GET, R603: Reads one configuration item from exactly one module. -/
  | configGet (h : Nat)
  /-- ROLE_SET, R348: Stages a new serving role that takes effect when its transaction commits. -/
  | roleSet (h : Nat)
  /-- MEM_ALLOC, R214: Allocates a logical range in a tier to the tenant and returns its first address. -/
  | memAlloc (h : Nat)
  /-- MEM_FREE, R215: Frees an allocation after every command naming it ends, dropping resident pages and releasing sectors. -/
  | memFree (h : Nat)
  /-- MEM_COPY, R230: Copies or transposes a 2-D block between device addresses, visible at its commit point. -/
  | memCopy (h : Nat)
  /-- RESIDE, R222: Binds home pages to resident frames, filling them and reserving sectors for write-back. -/
  | reside (h : Nat)
  /-- DEMOTE, R223: Writes dirty pages home, drops their frames and reservations and unpins them. -/
  | demote (h : Nat)
  /-- FLUSH, R223: Writes dirty resident pages home and leaves them resident and clean. -/
  | flush (h : Nat)
  /-- MEM_FILL, R231: Writes an 8-byte pattern repeatedly over a range. -/
  | memFill (h : Nat)
  /-- TIER_STATS, R238: Returns per-tenant or module tier statistics taken at one step boundary. -/
  | tierStats (h : Nat)
  /-- MODEL_LOAD, R350: Copies a model header and program into the model store and returns its handle and digest. -/
  | modelLoad (h : Nat)
  /-- MODEL_UNLOAD, R347: Unloads a model, kernel, chain, text object or imported key/value image by handle. -/
  | modelUnload (h : Nat)
  /-- STEER_SET_LOAD, R377: Copies a steering set into Tier 1 and returns its lowest free index. -/
  | steerSetLoad (h : Nat)
  /-- STEER_SET_DROP, R377: Drops a steering set, freeing its index when its last user ends. -/
  | steerSetDrop (h : Nat)
  /-- KERNEL_LOAD, R174: Copies a kernel image into the kernel store and returns its handle. -/
  | kernelLoad (h : Nat)
  /-- LAYER_RUN, R180: Runs a sequence of heavy operations with fused chains on cells as one command. -/
  | layerRun (h : Nat)
  /-- KERNEL_RUN, R177: Starts a loaded kernel on CELLS cells with the given cores, arguments and numeric control word. -/
  | kernelRun (h : Nat)
  /-- CHAIN_DEFINE, R188: Defines a prologue and epilogue chain and returns its handle. -/
  | chainDefine (h : Nat)
  /-- TABLE_CREATE, R240: Creates a sharded embedding table across the scope's modules. -/
  | tableCreate (h : Nat)
  /-- TABLE_DROP, R246: Drops a table after its commands end and releases its storage on every member. -/
  | tableDrop (h : Nat)
  /-- ROWS_WRITE, R250: Replaces table rows at their owners' step boundaries, on all owners or none. -/
  | rowsWrite (h : Nat)
  /-- BAG_LOOKUP, R254: Pools bags of table rows into output rows with exact, order-free arithmetic. -/
  | bagLookup (h : Nat) (fetched : List (Nat × Nat × Bytes))
  /-- HOT_POLICY_SET, R260: Sets a table's hot-row replication policy and reserves replica areas. -/
  | hotPolicySet (h : Nat)
  /-- ROWS_READ, R251: Reads slot images and versions of named rows. -/
  | rowsRead (h : Nat) (fetched : List (Nat × Nat × Bytes))
  /-- INDEX_CREATE, R265: Creates a sharded vector index with fixed centroids. -/
  | indexCreate (h : Nat)
  /-- INDEX_DROP, R271: Drops an index after its commands end and releases its storage. -/
  | indexDrop (h : Nat)
  /-- INDEX_LOAD, R269: Fills one empty shard from an image and builds its scan structures. -/
  | indexLoad (h : Nat)
  /-- VEC_INSERT, R292: Inserts or replaces vectors as side entries at their owners. -/
  | vecInsert (h : Nat)
  /-- VEC_DELETE, R293: Appends tombstones for live vector IDs at their owners. -/
  | vecDelete (h : Nat)
  /-- SEARCH, R278: Returns the exact top-k of each query over the index by certified scan and merge. -/
  | search (h : Nat) (payloads : List (Nat × Bytes))
  /-- INDEX_MERGE, R295: Folds side entries and tombstones into rebuilt main lists on every shard. -/
  | indexMerge (h : Nat)
  /-- INDEX_STATS, R300: Returns index statistics for one shard or the sum. -/
  | indexStats (h : Nat)
  /-- SELECT_TOPK, R308: Selects the exact top-k of each row of keys by radix histogram passes. -/
  | selectTopk (h : Nat)
  /-- SELECT_MERGE, R314: Merges partial result lists with duplicate collapse into one exact top-k. -/
  | selectMerge (h : Nat)
  /-- TOKENIZER_LOAD, R324: Checks and loads a tokeniser image and returns its handle and digest. -/
  | tokenizerLoad (h : Nat)
  /-- TOKENIZE, R330: Tokenises UTF-8 segments whole and writes token IDs and offsets. -/
  | tokenize (h : Nat)
  /-- DETOK_STREAM_OPEN, R338: Opens a detokenisation stream, optionally feeding its first tokens. -/
  | detokStreamOpen (h : Nat)
  /-- DETOK_STREAM_FEED, R340: Feeds tokens to an open stream, emitting text and matching stops. -/
  | detokStreamFeed (h : Nat)
  /-- PACK_PROMPT, R335: Packs segments into a prompt within a token budget. -/
  | packPrompt (h : Nat)
  /-- GRAMMAR_LOAD, R342: Loads a grammar mask automaton for a tokeniser. -/
  | grammarLoad (h : Nat)
  /-- STOP_SET, R337: Defines a set of stop strings and stop tokens. -/
  | stopSet (h : Nat)
  /-- REQUEST_SUBMIT, R359: Checks and admits a serving request into the request table. -/
  | requestSubmit (h : Nat)
  /-- REQUEST_CANCEL, R381: Ends a request with CANCELLED at the entry member's next step boundary. -/
  | requestCancel (h : Nat)
  /-- REQUEST_STATUS, R382: Returns a request's state and counts. -/
  | requestStatus (h : Nat)
  /-- KV_EXPORT, R369: Writes a HELD request's key/value image and ends it EXPORTED. -/
  | kvExport (h : Nat)
  /-- KV_IMPORT, R370: Checks a key/value image and copies it into frames under a new handle. -/
  | kvImport (h : Nat)
  /-- PIPELINE_DEFINE, R354: Defines or replaces a tenant pipeline on one module. -/
  | pipelineDefine (h : Nat)
  /-- PIPELINE_DELETE, R354: With the DELETE flag, removes a pipeline. -/
  | pipelineDelete (h : Nat)
  /-- SHARES_SET, R391: Sets tenant weights and priority floors at commit. -/
  | sharesSet (h : Nat)
  /-- BUDGET_SET, R401: Sets or changes a tenant's token budget. -/
  | budgetSet (h : Nat)
  /-- BUDGET_REMOVE, R401: With NONE set, removes a tenant's budget. -/
  | budgetRemove (h : Nat)
  /-- CONTRACT_SET, R406: Sets or replaces a latency contract, refusing added demand beyond capacity. -/
  | contractSet (h : Nat)
  /-- CONTRACT_DELETE, R405: With CLASS 0xFF, deletes a tenant's contract. -/
  | contractDelete (h : Nat)
  /-- ACCOUNT_READ, R414: Returns a tenant's charges, budget and contract state on one module. -/
  | accountRead (h : Nat)
  /-- FRONT_FORM, R441: Forms a new top front from candidate modules and fronts at epoch 1. -/
  | frontForm (h : Nat)
  /-- FRONT_JOIN_CANDIDATE, R442: Records a candidacy naming the sponsor module. -/
  | frontJoinCandidate (h : Nat)
  /-- FRONT_JOIN_ADMIT, R442: Admits a candidate into a front and advances the epoch. -/
  | frontJoinAdmit (h : Nat)
  /-- FRONT_LEAVE, R443: Removes a member from the front and makes it a lone top front. -/
  | frontLeave (h : Nat)
  /-- FRONT_VIEW, R445: Returns the module's view of the front. -/
  | frontView (h : Nat)
  /-- LINK_CONFIG, R438: Sets port modes and Ethernet settings; ports retrain at commit. -/
  | linkConfig (h : Nat)
  /-- LINK_STATUS, R439: Returns port states and counters of one module. -/
  | linkStatus (h : Nat)
  /-- ANCHOR_SET, R444: Moves the anchor of a front and advances the epoch. -/
  | anchorSet (h : Nat)
  /-- BREAK_SET, R566: Sets a kernel or isobar breakpoint. -/
  | breakSet (h : Nat)
  /-- BREAK_CLEAR, R567: Clears one or all of the session's breakpoints. -/
  | breakClear (h : Nat)
  /-- HALT, R572: Halts a kernel run or isobar cores and waits for the drain. -/
  | halt (h : Nat)
  /-- RESUME, R573: Resumes a halted run or isobar cores. -/
  | resume (h : Nat)
  /-- STEP, R574: Lets one halted core retire one instruction. -/
  | step (h : Nat)
  /-- STATE_READ, R575: Reads core, vector, accumulator or memory state of a halted target. -/
  | stateRead (h : Nat)
  /-- TRACK_READ, R580: Returns track-ring records after a sequence number. -/
  | trackRead (h : Nat)
  /-- GAUGE_ARM, R586: Clears a gauge slot and arms it. -/
  | gaugeArm (h : Nat)
  /-- GAUGE_READ, R586: Returns a gauge slot. -/
  | gaugeRead (h : Nat)
  /-- GAUGE_READ_CLEAR, R586: Returns a gauge slot, then clears it. -/
  | gaugeReadClear (h : Nat)
  /-- GAUGE_DISARM, R586: Stops intake into a gauge slot. -/
  | gaugeDisarm (h : Nat)
  /-- COUNTERS_READ, R581: Returns a counter set, optionally clearing queue high marks. -/
  | countersRead (h : Nat)
  /-- HISTOGRAM_READ, R589: Returns a latency histogram copy and a reported percentile. -/
  | histogramRead (h : Nat)
  /-- FAULT_LOG_READ, R590: Returns fault-log records after a sequence number. -/
  | faultLogRead (h : Nat)
  /-- SENSORS_READ, R587: Returns the management-tick sensor sample of one module. -/
  | sensorsRead (h : Nat)
  /-- POWER_CAP_SET, R526: Sets the continuous input power cap at commit. -/
  | powerCapSet (h : Nat)
  /-- STATE_POLICY_SET, R533: Sets the quadrant power-state policy at commit. -/
  | statePolicySet (h : Nat)
  /-- FW_STAGE, R461: Writes part of a bundle into the slot that is not running. -/
  | fwStage (h : Nat)
  /-- FW_ACTIVATE, R462: OP 0 validates the other slot's bundle and requests a trial boot. -/
  | fwActivate (h : Nat)
  /-- FW_COMMIT_SVN, R462: OP 1 raises each SVN floor to the running bundle's SVN. -/
  | fwCommitSvn (h : Nat)
  /-- MEMBER_RESET_MODULE, R538: Schedules an internal reset of one module after a delay. -/
  | memberResetModule (h : Nat)
  /-- MEMBER_RESET_POWER_CYCLE, R538: Schedules a power cycle of one module after a delay. -/
  | memberResetPowerCycle (h : Nat)
  /-- RESET_DELAY_EXPIRY, R538: DELAY_MS after MEMBER_RESET commits, the requested reset begins. -/
  | resetDelayExpiry (now : Nat)
  /-- PACKET_TAKEN, R55: The device takes a packet wholly below the tail with reservations free and runs the acceptance checks. -/
  | packetTaken (ring : Nat) (bytes : Bytes) (now : Nat)
  /-- FENCED_COMMAND_BEGIN, R57: A fenced command begins once every earlier command of its ring has posted its final or staging record. -/
  | fencedCommandBegin (h : Nat)
  /-- TXN_TIMEOUT, R69: TIMEOUT_MS without staging, TXN_SET or commit ends the transaction as by rollback. -/
  | txnTimeout (session : Nat) (txn : Nat) (now : Nat)
  /-- SQ_TAIL_WRITE, R488: A submission doorbell write advances the tail or puts the ring into ERROR. -/
  | sqTailWrite (ring : Nat) (value : W32)
  /-- CQ_HEAD_WRITE, R488: A completion doorbell write frees slots or puts the ring into ERROR. -/
  | cqHeadWrite (ring : Nat) (value : W32)
  /-- SQ_ENABLE, R490: A write of 1 to SQ_ENABLE validates the page and enables the submission ring. -/
  | sqEnable (ring : Nat)
  /-- SQ_DISABLE, R490: A write of 0 to SQ_ENABLE disables the submission ring at once. -/
  | sqDisable (ring : Nat)
  /-- CQ_ENABLE, R490: A write of 1 to CQ_ENABLE validates the page, enables the ring and advances CQ_GEN on reinitialisation. -/
  | cqEnable (ring : Nat) (irqEn : Bool)
  /-- CQ_DISABLE, R490: A write of 0 to CQ_ENABLE disables the completion ring and releases its reservations. -/
  | cqDisable (ring : Nat) (irqEn : Bool)
  /-- MOD_PARITY_CLEAR, R501: A W1C write clears MOD_PARITY.VALID. -/
  | modParityClear
  /-- IRQ_EVENT_CLEAR, R513: A W1C write clears latched IRQ_EVENT bits. -/
  | irqEventClear (value : W32)
  /-- IRQ_SQ_ERR_CLEAR, R514: A W1C write clears submission-ring error bits without changing ring state. -/
  | irqSqErrClear (word : Nat) (value : W32)
  /-- IRQ_CQ_ERR_CLEAR, R514: A W1C write clears completion-ring error bits without changing ring state. -/
  | irqCqErrClear (word : Nat) (value : W32)
  /-- IRQ_EVENT_EN_WRITE, R514: A masked write changes event enables and may send vector 0 at once. -/
  | irqEventEnWrite (value : W32)
  /-- DBG_PEEK_READ, R519: A read of DBG_PEEK_DATA reads a device word directly when debug is unlocked. -/
  | dbgPeekRead
  /-- DBG_PEEK_WRITE, R519: A write of DBG_PEEK_DATA writes a device word directly when debug is unlocked. -/
  | dbgPeekWrite (value : W32)
  /-- CLK_TIME_LO_READ, R517: A read of CLK_TIME_LO returns the low half of front time and latches the high half. -/
  | clkTimeLoRead
  /-- TEL_SNAP, R520: A write of GO requests a telemetry snapshot. -/
  | telSnap
  /-- TEL_SNAPSHOT_TAKEN, R520: At the next step boundary the snapshot is latched and TEL_SNAP_SEQ advances. -/
  | telSnapshotTaken (now : Nat)
  /-- REGISTER_WRITE, R501: A write to a register with no behaviour of its own updates its RW fields and parity. -/
  | registerWrite (bar : Nat) (offset : Nat) (size : Nat) (value : W32)
  /-- MSIX_VECTOR_UNMASK, R496: Unmasking a vector with its pending bit set sends it. -/
  | msixVectorUnmask (vector : Nat)
  /-- PME_STATUS_CLEAR, R553: Software clearing PME_Status or PME_En releases WAKE_N. -/
  | pmeStatusClear (status : Bool) (enable : Bool)
  /-- CQ_COAL_EXPIRY, R496: CQ_COAL_US after the first unsignalled record, the ring's vector is raised. -/
  | cqCoalExpiry (ring : Nat) (now : Nat)
  /-- HOST_READ_COMPLETION, R494: A host-memory read completes, and failures end the ring fetch, Tier 3 access or import. -/
  | hostReadCompletion (what : HostRead) (good : Bool)
  /-- HOST_COMPLETION_TIMEOUT, R498: A device read of host memory times out and is treated as a failed read. -/
  | hostCompletionTimeout (what : HostRead)
  /-- FUNCTION_LEVEL_RESET, R499: An FLR resets configuration space, disables every ring and clears interrupt state without restarting Akent. -/
  | functionLevelReset
  /-- HOT_RESET, R499: A Hot Reset has the effects of an FLR. -/
  | hotReset
  /-- D3HOT_ENTRY, R499: Entry into D3hot has the effects of an FLR. -/
  | d3hotEntry
  /-- D0_RETURN, R499: Return to D0 keeps BAR values. -/
  | d0Return
  /-- HOST_LINK_DOWN, R499: The host link going down has the effects of an FLR. -/
  | hostLinkDown
  /-- HOST_LINK_RETRAIN, R483: The host link retrains; traffic waits as a HOST_LINK stall. -/
  | hostLinkRetrain
  /-- HOST_LINK_TRAINED, R483: The host link comes up at the highest common rate and width and HIF_LINK reports it. -/
  | hostLinkTrained (rate : Nat) (width : Nat) (flit : Bool)
  /-- REFCLK_LOSS, R555: Loss of REFCLK100 clears CLK_REF.REFCLK and takes the host link down. -/
  | refclkLoss
  /-- PERST_ASSERT, R536: PERST_N assertion causes a module reset that restarts Akent. -/
  | perstAssert
  /-- PERST_RELEASE, R540: PERST_N release starts configuration and boot from power-up. -/
  | perstRelease
  /-- COLD_RESET, R536: The input rising through 300 V powers and restarts the calm island and the module. -/
  | coldReset (vin : Nat)
  /-- CALM_ISLAND_START, R549: The calm island leaves its reset, samples SLOT_ID and MFG_MODE and enters STANDBY. -/
  | calmIslandStart (slotId : Nat) (mfgMode : Bool)
  /-- POWER_OFF, R521: The input falling below 300 V leaves the module OFF. -/
  | powerOff
  /-- INPUT_IN_RANGE, R521: After 100 ms in the rated range with HV_EN asserted, main conversion starts. -/
  | inputInRange (vin : Nat)
  /-- HV_EN_ASSERT, R540: HV_EN assertion, stable for 1 ms, starts main conversion when the input is in range. -/
  | hvEnAssert (tj : Nat)
  /-- HV_EN_DEASSERT, R541: HV_EN deassertion, stable for 1 ms, runs the shutdown sequence as a power cycle. -/
  | hvEnDeassert
  /-- RAILS_IN_REGULATION, R540: Point-of-load rails reach regulation and PWRGD is asserted. -/
  | railsInRegulation
  /-- RAIL_FAILURE, R540: A rail fails to regulate; the module returns to STANDBY and asserts FAULT_N. -/
  | railFailure (rail : Nat)
  /-- BROWN_OUT, R541: Input below 640 V or above 900 V for 50 µs stops clocks, writes the log and turns rails off. -/
  | brownOut (vin : Nat) (now : Nat)
  /-- THERMAL_TRIP, R542: A junction at 115 °C turns the rails off and asserts THERMTRIP_N. -/
  | thermalTrip (tj : Nat) (die : Nat) (now : Nat)
  /-- OSCILLATOR_LOSS, R591: Loss of the 156.25 MHz oscillator or a PLL lock causes a power cycle. -/
  | oscillatorLoss (domain : Nat)
  /-- ENTROPY_FAIL, R455: A failed entropy health test halts key generation. -/
  | entropyFail
  /-- BOOT, R458: The ROM chooses a valid slot, measures and starts each image in order. -/
  | boot (passed : List Nat) (countersValid : Bool)
  /-- FW_READY, R540: Memory training and clearing finish and Akent sets FW_READY, completing any trial boot. -/
  | fwReady (now : Nat)
  /-- BOOT_TIMEOUT, R540: FW_READY not set within 4 s sets FAULT and makes one internal reset. -/
  | bootTimeout
  /-- RECOVERY_BUNDLE_CHUNK, R460: In recovery the ROM takes a bundle chunk from the DOE mailbox and writes slot A. -/
  | recoveryBundleChunk (offset : Nat) (bytes : Bytes)
  /-- WATCHDOG_EXPIRY, R599: An isobar core silent for 100 ms makes the management controller log and reset. -/
  | watchdogExpiry (core : Nat) (now : Nat)
  /-- MANAGEMENT_TICK, R527: Each 1 ms tick updates clock limits, sensors, policy, shedding, heartbeats and the fault log. -/
  | managementTick (sample : TickSample)
  /-- FAST_CLAMP, R525: The fast limiter clamps every cell clock to 900 MHz within 20 µs. -/
  | fastClamp (now : Nat)
  /-- FAST_CLAMP_END, R525: After 1 ms the clamp ends and the cap limit is set to at most 900 MHz. -/
  | fastClampEnd (now : Nat)
  /-- SCHEDULING_TIMER, R384: 100 µs after the last scheduling point a new scheduling point occurs. -/
  | schedulingTimer (now : Nat)
  /-- ITEM_RELEASE, R390: A scheduled item finishes, is charged, advances virtual time and makes a scheduling point. -/
  | itemRelease (item : Nat) (work : ItemEnd) (now : Nat)
  /-- THAW_COMPLETE, R532: A quadrant becomes ACTIVE after a thaw, making a scheduling point. -/
  | thawComplete (quadrant : Nat) (now : Nat)
  /-- FROST, R534: An ACTIVE quadrant idle for FROST_AFTER_US above target is frosted. -/
  | frost (quadrant : Nat) (now : Nat)
  /-- DEEP_FROST, R534: A quadrant FROST for DEEP_AFTER_MS is power gated. -/
  | deepFrost (quadrant : Nat) (now : Nat)
  /-- MEM_SELF_REFRESH, R535: Memories enter self-refresh after DEEP_AFTER_MS of IDLE. -/
  | memSelfRefresh (now : Nat)
  /-- HUB_DOMAIN_GATE, R529: A hub domain with no item for 100 µs stops its clock. -/
  | hubDomainGate (domain : Nat) (now : Nat)
  /-- PATROL_SCRUB, R234: Patrol scrub reads memory, correcting or poisoning what it finds. -/
  | patrolScrub (addr : Nat) (outcome : TierOutcome)
  /-- PPS_EDGE, R556: A PPS_IN rising edge disciplines the front clock frequency. -/
  | ppsEdge (now : Nat)
  /-- PPS_LOSS, R556: 3 s without a valid PPS edge clears CLK_REF.PPS. -/
  | ppsLoss (now : Nat)
  /-- MMA, R127: The array streams GROUPS K-groups into the current tile. -/
  | mma (cell : Nat) (parity : Option Nat) (ecc : EccEvent)
  /-- MLD, R126: The array starts a new tile by loading or zeroing accumulators. -/
  | mld (cell : Nat) (ecc : EccEvent)
  /-- MDR, R128: The array drains the tile, narrowing to DFMT, optionally clearing it. -/
  | mdr (cell : Nat) (parity : Option Nat)
  /-- MRS, R130: The array rescales each accumulator row by a factor. -/
  | mrs (cell : Nat) (parity : Option Nat) (ecc : EccEvent)
  /-- MFENCE, R131: Stalls the core until its earlier array instructions finish. -/
  | mfence (hart : Nat)
  /-- ARRAY_ISSUE, R118: A vane core issues an array instruction into the queue, stalling while it is full. -/
  | arrayIssue (hart : Nat)
  /-- VECTOR_ISSUE, R156: A vane core issues a vector instruction into the vector queue. -/
  | vectorIssue (hart : Nat)
  /-- VADD, R158: Lane-wise FP32 addition. -/
  | vadd (cell : Nat)
  /-- VSUB, R158: Lane-wise FP32 subtraction. -/
  | vsub (cell : Nat)
  /-- VMUL, R158: Lane-wise FP32 multiplication. -/
  | vmul (cell : Nat)
  /-- VFMA, R158: Lane-wise fused multiply-add with one rounding. -/
  | vfma (cell : Nat)
  /-- VMAX, R158: Lane-wise maximum. -/
  | vmax (cell : Nat)
  /-- VMIN, R158: Lane-wise minimum. -/
  | vmin (cell : Nat)
  /-- VDIV, R158: Lane-wise division. -/
  | vdiv (cell : Nat)
  /-- VSQRT, R158: Lane-wise square root. -/
  | vsqrt (cell : Nat)
  /-- VRSQ, R158: Lane-wise reciprocal square root. -/
  | vrsq (cell : Nat)
  /-- VRCP, R158: Lane-wise reciprocal. -/
  | vrcp (cell : Nat)
  /-- VEXP2, R158: Lane-wise power of two. -/
  | vexp2 (cell : Nat)
  /-- VLOG2, R158: Lane-wise base-2 logarithm. -/
  | vlog2 (cell : Nat)
  /-- VAND, R158: Lane-wise bitwise AND. -/
  | vand (cell : Nat)
  /-- VOR, R158: Lane-wise bitwise OR. -/
  | vor (cell : Nat)
  /-- VXOR, R158: Lane-wise bitwise XOR. -/
  | vxor (cell : Nat)
  /-- VCMPLT, R158: Lane-wise less-than comparison to a mask. -/
  | vcmplt (cell : Nat)
  /-- VSEL, R158: Lane-wise select by the old destination lane. -/
  | vsel (cell : Nat)
  /-- VSCAL, R157: A binary vector operation with a scalar register broadcast as second operand. -/
  | vscal (cell : Nat)
  /-- VLD, R159: Loads scratchpad bytes into a vector register. -/
  | vld (cell : Nat) (ecc : EccEvent)
  /-- VST, R159: Stores a vector register's low bytes to scratchpad. -/
  | vst (cell : Nat)
  /-- VREDSUM, R159: Pairwise tree sum of the lanes into every lane. -/
  | vredsum (cell : Nat)
  /-- VREDMAX, R159: Pairwise tree maximum of the lanes into every lane. -/
  | vredmax (cell : Nat)
  /-- VEXTR, R159: Extracts one lane into a scalar register. -/
  | vextr (cell : Nat)
  /-- VINS, R159: Inserts a scalar into one lane. -/
  | vins (cell : Nat)
  /-- VCVT, R96: Converts a vector register between formats, optionally block-scaled. -/
  | vcvt (cell : Nat)
  /-- VSEED, R161: Seeds every lane's stochastic generator. -/
  | vseed (cell : Nat)
  /-- VFENCE, R161: Stalls the core until its earlier vector instructions finish. -/
  | vfence (hart : Nat)
  /-- DSUB, R164: Submits a DMA descriptor and returns a tag. -/
  | dsub (hart : Nat)
  /-- DWAIT, R165: Stalls until a DMA tag completes. -/
  | dwait (hart : Nat)
  /-- DPOLL, R165: Returns the mask of the core's free DMA tags. -/
  | dpoll (hart : Nat)
  /-- DMA_COMPLETE, R165: A DMA transfer completes and its bytes become visible. -/
  | dmaComplete (hart : Nat) (tag : Nat) (outcome : TierOutcome) (addr : Nat)
  /-- REMOTE_WRITE_ARRIVAL, R169: A remote write arrives at a target cell and lands or faults. -/
  | remoteWriteArrival (hart : Nat) (tag : Nat)
  /-- BAR, R171: A core waits at a barrier until every participant arrives. -/
  | bar (hart : Nat)
  /-- BARRIER_DEADLOCK, R172: When no core can progress, the run ends with a barrier fault. -/
  | barrierDeadlock (h : Nat)
  /-- WOPEN, R168: Opens a remote-write window. -/
  | wopen (hart : Nat)
  /-- WCLOSE, R170: Closes a window after its accepted writes are visible. -/
  | wclose (hart : Nat)
  /-- SCALAR_INSTRUCTION, R143: A vane core executes an RV64IMAC or CSR instruction. -/
  | scalarInstruction (hart : Nat) (ecc : EccEvent)
  /-- ECALL, R178: A core ends its part of the run. -/
  | ecall (hart : Nat)
  /-- EBREAK, R566: EBREAK halts an armed run or faults with CAUSE 8. -/
  | ebreak (hart : Nat)
  /-- KERNEL_RUN_COMMIT, R178: When every core has ended and every DMA completed, the run commits. -/
  | kernelRunCommit (h : Nat) (cycles : Nat)
  /-- LAYER_RUN_COMMIT, R185: When every tile of every layer is written, the LAYER_RUN commits. -/
  | layerRunCommit (h : Nat)
  /-- COMMAND_DEADLINE, R178: A command's deadline passes before its commit point and it ends DEADLINE_MISSED. -/
  | commandDeadline (h : Nat) (now : Nat)
  /-- HALT_DRAIN_COMPLETE, R568: The drain of a stopped run ends and the run becomes HALTED. -/
  | haltDrainComplete (h : Nat)
  /-- STEP_STALL_TIMEOUT, R574: A stepped instruction not retired within 1 ms returns STALLED. -/
  | stepStallTimeout (h : Nat)
  /-- TIER_ACCESS_COMPLETE, R235: A tier access returns, ending and recording any stall. -/
  | tierAccessComplete (h : Nat) (addr : Nat) (cause : Nat) (stallNs : Nat) (outcome : TierOutcome)
  /-- STALL_LIMIT_EXPIRY, R236: A stall beyond its tier limit ends the command with TIER_LATE. -/
  | stallLimitExpiry (h : Nat) (addr : Nat) (cause : Nat) (stallNs : Nat) (now : Nat)
  /-- PAGE_FILL_COMPLETE, R220: A FILLING page's frame is filled from home. -/
  | pageFillComplete (page : Nat) (outcome : TierOutcome)
  /-- WRITE_BACK_COMPLETE, R220: A WRITING page finishes writing home and becomes CLEAN or HOME. -/
  | writeBackComplete (page : Nat) (good : Bool)
  /-- ROW_UPDATE_APPLY, R248: Updates take effect at the owner's step boundary, inverting CUR and advancing VERSION. -/
  | rowUpdateApply
  /-- HOT_WINDOW_END, R261: At each window end an owner chooses its hot set and replicates it. -/
  | hotWindowEnd (table : Nat) (counts : List (Nat × Nat)) (now : Nat)
  /-- RETRIEVAL_STAGE, R364: A request runs tokenise, encode, search, rerank and pack on the entry member. -/
  | retrievalStage (r : Nat) (fetched : List (Nat × Nat × Nat × Bytes)) (payloads : List (Nat × Bytes)) (now : Nat)
  /-- PREFILL_STAGE, R367: A request's prompt positions 0 to P − 2 are processed. -/
  | prefillStage (r : Nat) (fetched : List (Nat × Nat × Nat × Bytes)) (now : Nat)
  /-- DECODE_STEP, R373: A decode step samples tokens, with speculation, and commits them. -/
  | decodeStep (r : Nat) (fetched : List (Nat × Nat × Nat × Bytes)) (now : Nat)
  /-- REQUEST_FREE, R363: At the next step boundary a member frees the request's pages and entry. -/
  | requestFree (r : Nat)
  /-- PAGE_RESERVATION, R366: A queued request's key/value page reservation is met and it leaves QUEUED. -/
  | pageReservation (r : Nat) (now : Nat)
  /-- CHUNK_RESERVATION, R380: Room for the next chunk is reserved and the request resumes consuming tokens. -/
  | chunkReservation (r : Nat) (now : Nat)
  /-- CHUNK_TIMER, R379: CHUNK_US after a chunk's first token, the chunk closes. -/
  | chunkTimer (r : Nat) (now : Nat)
  /-- REQUEST_DEADLINE, R362: A request's deadline passes at a step boundary and it ends DEADLINE_MISSED. -/
  | requestDeadline (r : Nat) (now : Nat)
  /-- BUDGET_REFILL, R402: At each budget window start the level is refilled and waiting steps may resume. -/
  | budgetRefill (tenant : Nat) (now : Nat)
  /-- CONTRACT_WINDOW_JUDGED, R410: Once every covered request of a window has ended, the window is judged for breach. -/
  | contractWindowJudged (tenant : Nat) (n : Nat)
  /-- HISTOGRAM_WINDOW, R588: At each window start PREVIOUS takes CURRENT and CURRENT is emptied. -/
  | histogramWindow (now : Nat)
  /-- CANDIDACY_EXPIRY, R442: A candidacy lapses after 600 s. -/
  | candidacyExpiry (now : Nat)
  /-- CANDIDACY_WAIT_TIMEOUT, R604: A form or admit whose candidacies are missing at TIMEOUT_MS fails MEMBER_UNREACHABLE. -/
  | candidacyWaitTimeout (h : Nat) (now : Nat)
  /-- VOTE_TIMEOUT, R73: 100 ms after PREPARE without all votes, the coordinator aborts. -/
  | voteTimeout (h : Nat) (now : Nat)
  /-- VIEW_INSTALL_DECISION, R448: One tick after PROPOSE the leader installs the new epoch or READONLY. -/
  | viewInstallDecision (now : Nat)
  /-- PEER_UNREACHABLE, R446: LOSS_MS without a message from a peer declares it unreachable. -/
  | peerUnreachable (peer : Nat) (now : Nat)
  /-- OFFSET_STALE, R436: An offset above 1 ms for 1 s makes the member STALE. -/
  | offsetStale (now : Nat)
  /-- PORT_TRAINING_COMPLETE, R419: A port comes up at its trained width. -/
  | portTrainingComplete (port : Nat) (width : Nat)
  /-- LANE_LOSS, R419: A port loses a lane and retrains narrower or goes DOWN. -/
  | laneLoss (port : Nat) (lane : Nat)
  /-- PORT_SIGNAL_LOSS, R419: Signal is lost on all four lanes. -/
  | portSignalLoss (port : Nat)
  /-- PORT_SIGNAL_DETECT, R419: Signal returns and training starts at width 4. -/
  | portSignalDetect (port : Nat)
  /-- RETRAIN_TIMEOUT, R419: A port not up within 10 ms is DOWN. -/
  | retrainTimeout (port : Nat)
  /-- DAD_COMPLETE, R433: Duplicate address detection completes and the port passes data or enters ADDR_CONFLICT. -/
  | dadComplete (port : Nat) (inUse : Bool)
  /-- NEIGHBOR_SOLICITATION, R433: A solicitation or probe for the port's address is answered or causes conflict. -/
  | neighborSolicitation (port : Nat) (target : Bytes) (probe : Bool)
  /-- NEIGHBOR_ADVERTISEMENT, R433: An advertisement resolves a neighbour address. -/
  | neighborAdvertisement (port : Nat) (target : Bytes) (link : Bytes)
  /-- ICMPV6_ECHO_REQUEST, R433: An Echo Request is answered. -/
  | icmpv6EchoRequest (port : Nat) (data : Bytes)
  /-- PACKET_TOO_BIG, R433: A Packet Too Big message is counted. -/
  | packetTooBig (port : Nat)
  /-- FLIT_NAK, R422: A NAK makes the sender replay flits from ACK + 1. -/
  | flitNak (port : Nat) (ack : Nat)
  /-- FLIT_DAMAGED, R422: A damaged flit is dropped and NAKed. -/
  | flitDamaged (port : Nat) (fec : Bool)
  /-- FLIT_HELLO, R420: A HELLO flit reports the neighbour's UID and port. -/
  | flitHello (port : Nat) (uid : Nat) (nport : Nat) (seq : Nat) (ack : Nat)
  /-- FLIT_TIME, R435: A TIME flit carries PHY timestamps. -/
  | flitTime (port : Nat) (sent : Nat) (arrived : Nat) (ack : Nat)
  /-- HELLO_SEND, R420: Every 1 ms an up port sends HELLO. -/
  | helloSend (port : Nat)
  /-- ACK_STALL, R422: ACK making no progress for 100 µs retrains the port. -/
  | ackStall (port : Nat)
  /-- SEGMENT_DATA, R427: A transport DATA segment is received, ordered and reassembled into a message. -/
  | segmentData (port : Nat) (seq : Nat) (ack : Nat) (bytes : Bytes)
  /-- SEGMENT_ACK, R427: A transport ACK releases acknowledged data and returns credit. -/
  | segmentAck (port : Nat) (seq : Nat) (ack : Nat) (bytes : Bytes)
  /-- RETRANSMIT_TIMEOUT, R427: A segment unacknowledged within the RTO is resent; 16 resends close the channel. -/
  | retransmitTimeout (peer : Nat) (channel : Nat)
  /-- TILE, R207: A partial tile arrives and enters the reduction in slice order. -/
  | tile (peer : Nat) (plain : Bytes)
  /-- KV_SHIP_OPEN, R368: The target checks and reserves pages for a handover. -/
  | kvShipOpen (peer : Nat) (plain : Bytes)
  /-- KV_SHIP_ACCEPT, R368: The source learns the target accepted and starts shipping pages. -/
  | kvShipAccept (peer : Nat) (plain : Bytes)
  /-- KV_SHIP_PAGE, R368: The target holds a shipped page in shadow frames. -/
  | kvShipPage (peer : Nat) (plain : Bytes)
  /-- KV_SHIP_ABORT, R368: The target drops the pages of an attempt. -/
  | kvShipAbort (peer : Nat) (plain : Bytes)
  /-- KV_SHIP_REFUSE, R368: The target refuses a handover and the request fails. -/
  | kvShipRefuse (peer : Nat) (plain : Bytes)
  /-- ROW_UPD, R250: An owner receives new row content for a write. -/
  | rowUpd (peer : Nat) (plain : Bytes)
  /-- ROW_REPL_INSTALL, R252: A holder installs a replica at its next step boundary. -/
  | rowReplInstall (peer : Nat) (plain : Bytes)
  /-- ROW_REPL_DROP, R261: A holder drops replicas of rows leaving the hot set. -/
  | rowReplDrop (peer : Nat) (plain : Bytes)
  /-- ROW_REPL_ACK, R252: An owner records a holder's acknowledgement. -/
  | rowReplAck (peer : Nat) (plain : Bytes)
  /-- SEARCH_REQ, R296: A shard member computes its part of a search. -/
  | searchReq (peer : Nat) (plain : Bytes)
  /-- SEARCH_RESP, R296: The entry member merges a shard's part. -/
  | searchResp (peer : Nat) (plain : Bytes)
  /-- SELECT_MERGE_MSG, R430: A member receives lists to merge. -/
  | selectMergeMsg (peer : Nat) (plain : Bytes)
  /-- CMD_FWD_FORWARD, R36: A member executes a forwarded command part. -/
  | cmdFwdForward (peer : Nat) (plain : Bytes)
  /-- CMD_FWD_REPLY, R39: The entry member gathers a member's reply and combines replies. -/
  | cmdFwdReply (peer : Nat) (plain : Bytes)
  /-- CMD_FWD_PREPARE, R72: A participant validates, locks and votes. -/
  | cmdFwdPrepare (peer : Nat) (plain : Bytes)
  /-- CMD_FWD_VOTE, R73: The coordinator records a vote and aborts on NO. -/
  | cmdFwdVote (peer : Nat) (plain : Bytes)
  /-- CMD_FWD_COMMIT, R74: A participant applies the parts and replies. -/
  | cmdFwdCommit (peer : Nat) (plain : Bytes) (now : Nat)
  /-- CMD_FWD_ABORT, R73: A participant unlocks and drops its prepared entry. -/
  | cmdFwdAbort (peer : Nat) (plain : Bytes)
  /-- CMD_FWD_DECISION, R74: A module stores a commit decision record for its epoch. -/
  | cmdFwdDecision (peer : Nat) (plain : Bytes)
  /-- CMD_FWD_DECISION_ACK, R74: The coordinator counts acknowledgements until the decision is final. -/
  | cmdFwdDecisionAck (peer : Nat) (plain : Bytes)
  /-- TIME_SYNC_SEND, R435: Every 1 ms parents send SYNC and FOLLOW_UP and children DELAY_REQ. -/
  | timeSyncSend (now : Nat)
  /-- TIME_SYNC_SYNC, R435: A child takes a SYNC timestamp. -/
  | timeSyncSync (peer : Nat) (plain : Bytes) (now : Nat)
  /-- TIME_SYNC_FOLLOW_UP, R435: A child takes the precise SYNC time. -/
  | timeSyncFollowUp (peer : Nat) (plain : Bytes) (now : Nat)
  /-- TIME_SYNC_DELAY_REQ, R435: A parent answers with DELAY_RESP. -/
  | timeSyncDelayReq (peer : Nat) (plain : Bytes) (now : Nat)
  /-- TIME_SYNC_DELAY_RESP, R435: A child computes its offset and slews its clock. -/
  | timeSyncDelayResp (peer : Nat) (plain : Bytes) (now : Nat)
  /-- PTP_SYNC, R435: An IEEE 1588 Sync is taken over Ethernet. -/
  | ptpSync (ptpDomain : Nat) (now : Nat)
  /-- PTP_FOLLOW_UP, R435: An IEEE 1588 Follow_Up is taken. -/
  | ptpFollowUp (ptpDomain : Nat) (sent : Nat)
  /-- PTP_DELAY_REQ, R435: The time source answers a Delay_Req. -/
  | ptpDelayReq (port : Nat) (ptpDomain : Nat) (now : Nat)
  /-- PTP_DELAY_RESP, R435: A slave corrects its offset. -/
  | ptpDelayResp (ptpDomain : Nat) (stamp : Nat) (now : Nat)
  /-- HEARTBEAT, R446: A HEARTBEAT refreshes reachability, role and accepted epoch of its sender. -/
  | heartbeat (peer : Nat) (plain : Bytes) (now : Nat)
  /-- FRONT_VIEW_PROPOSE, R448: A module accepts or ignores a proposed epoch. -/
  | frontViewPropose (peer : Nat) (plain : Bytes)
  /-- FRONT_VIEW_ACCEPT, R448: The leader records an acceptance and its commit records. -/
  | frontViewAccept (peer : Nat) (plain : Bytes)
  /-- FRONT_VIEW_INSTALL, R448: A member installs the new view and resolves prepared transactions. -/
  | frontViewInstall (peer : Nat) (plain : Bytes) (now : Nat)
  /-- FRONT_VIEW_CATCH_UP, R450: A STALE module fetches a current view. -/
  | frontViewCatchUp (peer : Nat) (plain : Bytes)
  /-- FRONT_VIEW_ADJ, R423: A member's port adjacencies are recorded for routing. -/
  | frontViewAdj (peer : Nat) (plain : Bytes)
  /-- CLEAR_FAULTS, R552: PMBus command clearing ended status causes. -/
  | clearFaults
  /-- STATUS_BYTE, R552: PMBus status byte read. -/
  | statusByte
  /-- STATUS_WORD, R552: PMBus status word read. -/
  | statusWord
  /-- STATUS_INPUT, R552: PMBus input status read. -/
  | statusInput
  /-- STATUS_TEMPERATURE, R552: PMBus temperature status read. -/
  | statusTemperature
  /-- READ_VIN, R552: PMBus input voltage read in LINEAR11. -/
  | readVin
  /-- READ_IIN, R552: PMBus input current read. -/
  | readIin
  /-- READ_TEMPERATURE_1, R552: PMBus highest junction temperature read. -/
  | readTemperature1
  /-- READ_PIN, R552: PMBus input power read. -/
  | readPin
  /-- PMBUS_REVISION, R552: Returns 0x33. -/
  | pmbusRevision
  /-- MFR_ID, R552: Returns SITHIRE. -/
  | mfrId
  /-- MFR_MODEL, R552: Returns SXP1536-HV8-LQ. -/
  | mfrModel
  /-- PMBUS_UNSUPPORTED, R552: An unsupported command code is NACKed and sets CML. -/
  | pmbusUnsupported (code : Nat)
  /-- ALERT_RESPONSE, R552: The target answers the Alert Response Address and releases ALERT_N. -/
  | alertResponse
  /-- SMBUS_CLOCK_TIMEOUT, R551: Clock held low 25 to 35 ms releases the bus. -/
  | smbusClockTimeout
  /-- MCTP_CONTROL, R530: The calm island answers an MCTP base control message. -/
  | mctpControl (request : Bytes)
  /-- GET_VERSION, R468: SPDM version request answered. -/
  | getVersion (request : Bytes)
  /-- GET_CAPABILITIES, R468: SPDM capabilities request answered. -/
  | getCapabilities (request : Bytes)
  /-- NEGOTIATE_ALGORITHMS, R468: SPDM algorithm negotiation to P-384 and SHA-384. -/
  | negotiateAlgorithms (request : Bytes)
  /-- GET_DIGESTS, R468: SPDM certificate digests returned. -/
  | getDigests (request : Bytes)
  /-- GET_CERTIFICATE, R468: SPDM certificate chain of slot 0 returned. -/
  | getCertificate (request : Bytes)
  /-- CHALLENGE, R468: SPDM challenge signed by the alias key. -/
  | challenge (request : Bytes)
  /-- GET_MEASUREMENTS, R468: SPDM measurements MR0 to MR4 and SVNs returned. -/
  | getMeasurements (request : Bytes)
  /-- SPDM_UNSUPPORTED_REQUEST, R468: Any other SPDM request returns ERROR UnsupportedRequest. -/
  | spdmUnsupportedRequest (request : Bytes)
  /-- DOE_DISCOVERY, R482: A DOE Discovery request lists the supported objects. -/
  | doeDiscovery (idx : Nat)
  /-- TAP_RESET, R554: TRST_N low holds the TAP in Test-Logic-Reset. -/
  | tapReset
  /-- BYPASS, R473: JTAG BYPASS instruction. -/
  | bypass
  /-- IDCODE, R554: JTAG IDCODE reads 0x4153_6A5D. -/
  | idcode
  /-- SAMPLE_PRELOAD, R473: JTAG SAMPLE/PRELOAD instruction. -/
  | samplePreload (pins : Nat)
  /-- EXTEST, R554: JTAG EXTEST on boundary cells while PWRGD is high. -/
  | extest (pins : Nat)
  /-- EXTEST_PULSE, R554: IEEE 1149.6 EXTEST_PULSE on AC-coupled lanes. -/
  | extestPulse (pins : Nat)
  /-- EXTEST_TRAIN, R554: IEEE 1149.6 EXTEST_TRAIN on AC-coupled lanes. -/
  | extestTrain (pins : Nat)
  /-- JTAG_PRIVATE, R473: A private JTAG instruction acts only with debug unlocked, else as BYPASS. -/
  | jtagPrivate (code : Nat)
  /-- PLUGGABLE_INSERTION, R560: A pluggable inserted into a cage has its power class read by the management controller, and one above 12 W is held in low-power mode with its ports DOWN. -/
  | pluggableInsertion (cage : Nat) (milliwatts : Nat)
  /-- QUADRANT_DOMAIN_FAILURE, R532: A quadrant's clock or power domain fails, the quadrant becomes DISABLED and its cells are disabled at the first fault. -/
  | quadrantDomainFailure (quadrant : Nat)
  /-- BUS_MASTER_ENABLE_WRITE, R494: A configuration write that changes Bus Master Enable makes every host-memory access wait, or lets waiting accesses proceed. -/
  | busMasterEnableWrite (enable : Bool)
  /-- CONFIG_REGISTER_READ, R506: A host read of a configuration register checks its parity and, on a mismatch, records it and halts the owning block under R507. -/
  | configRegisterRead (bar : Nat) (offset : Nat) (flipped : Nat)
  /-- PAIR_SECRET_MESSAGE, R476: A module receives a peer's pair-secret exchange message, checks the peer's report under R477 and answers to establish the link keys. -/
  | pairSecretMessage (uid : Nat) (response : Bool) (body : Bytes)
  /-- CANDIDACY_CHECK_MESSAGE, R604: The entry member of a FRONT_FORM or ADMIT receives a named module's candidacy answer, ending its wait for that entry. -/
  | candidacyCheckMessage (uid : Nat) (matching : Bool) (prepared : Bool) (view : Bytes)
  deriving DecidableEq, Repr

end Sys2Proof
end

