-- ==== Sys2Proof/Decode.lean ====
section
/-! DEFINITION. Reading a table word. The table of this block gives no row any bits, so no word spells a command. -/

namespace Sys2Proof

/-- The command that a word spells by the table's bits: no row of spec/opcode_table.json carries bits, so none. -/
def decodeTableWord (_nbits _w : Nat) : Option Instr := none

end Sys2Proof
end

