-- ==== Sys2Proof/Config.lean ====
section
/-! DEFINITION. What an implementation fixes, what the secrets and the random draws of the device give, and the free values the spec leaves open: constants without a body, so that nothing can be proved of a value of theirs. -/

namespace Sys2Proof

/-- How the device identifies itself on PCIe: vendor, device, revision (stepping A0), subsystem vendor and subsystem, class code, R12, R482. -/
def Config.pciVendor : Nat := 0x2A5C
def Config.pciDevice : Nat := 0x1536
def Config.pciRevision : Nat := 0x00
def Config.pciSubVendor : Nat := 0x2A5C
def Config.pciSubDevice : Nat := 0x1536
def Config.pciClass : Nat := 0x120000

/-- JTAG IDCODE, R12. -/
def Config.jtagIdcode : Nat := 0x41536A5D

/-- DEVICE_UID, from OTP, R454. -/
opaque Config.deviceUid : W64

/-- The n-th free value of a run: a number the spec does not fix (log entry 5). -/
opaque Config.freeNat : Nat → Nat

/-- Output `n` of the deterministic random bit generator, R455. -/
opaque Config.drbg : Nat → BitVec 256

/-- ML-DSA-87 verification, R470. -/
opaque Config.mldsaVerify : (key msg sig : Bytes) → Bool

/-- The device's ephemeral P-384 point for draw `n`, 97 bytes, R470. -/
opaque Config.ecdhPublic : Nat → Bytes

/-- The P-384 shared secret of draw `n` with a peer's point, R470. -/
opaque Config.ecdhShared : Nat → Bytes → Bytes

/-- The ML-KEM-1024 ciphertext of draw `n` for a peer's key, R470. -/
opaque Config.mlkemCipher : Nat → Bytes → Bytes

/-- The ML-KEM-1024 shared secret of draw `n` for a peer's key, R470. -/
opaque Config.mlkemShared : Nat → Bytes → Bytes

/-- Public parts of the device's ephemeral ML-KEM-1024 key for draw `n`, and the secret it opens from a ciphertext, R470, R476. -/
opaque Config.mlkemPublic : Nat → Bytes
opaque Config.mlkemOpen : Nat → Bytes → Bytes

/-- Whether both certificate chains that name a DEVICE_UID and alias keys verify to the Sithire roots, R477. -/
opaque Config.chainValid : (uid : Nat) → (keys : Bytes) → Bool

/-- A signature by a key of the device (0 DeviceID, 1 alias; ECDSA and ML-DSA joined), R465, R466. -/
opaque Config.deviceSign : (key : Nat) → Bytes → Bytes

/-- The public keys of the device (0 DeviceID, 1 alias) as bytes, R465. -/
opaque Config.devicePublic : Nat → Bytes

/-- The DER certificate chains, R466. -/
opaque Config.certChains : Bytes

/-- The two Sithire firmware public keys whose hashes equal FW_KEY_HASH (0 ECDSA, 1 ML-DSA), R454, R458. -/
opaque Config.firmwareKey : Nat → Bytes

/-- The two Sithire debug public keys whose hashes equal DBG_KEY_HASH (0 ECDSA, 1 ML-DSA), R454, R473. -/
opaque Config.debugKey : Nat → Bytes

/-- The boot ROM's SHA-384 digest, R459. -/
opaque Config.romDigest : Bytes

/-- The answer to an MCTP base control message, whose content DSP0237 gives and the spec does not, R530. -/
opaque Config.mctpAnswer : Bytes → Bytes

/-- The fields of an SPDM response that DSP0274 gives and the spec does not, R468. -/
opaque Config.spdmAnswer : (code : Nat) → Bytes → Bytes

/-- What the device's lossless compressor makes of a block of 4,096 bytes that it stores in a number of sectors, R226 (log entry 6). -/
opaque Config.compress : Bytes → Nat → Bytes

/-- Which list's structures lie at an address of an index's storage, R268, R288 (log entry 82). -/
opaque Config.indexPlace : Nat → Nat

end Sys2Proof
end

