-- ==== Sys2Proof/Machine/Bytes.lean ====
section
/-! DEFINITION. Little-endian fields of byte strings (R14), and the helpers on byte strings that every chapter uses. -/

namespace Sys2Proof.Machine

open Sys2Proof

/-- The number a byte string spells, least significant byte first, R14. -/
def leNat : Bytes → Nat
  | [] => 0
  | b :: bs => b.toNat + 256 * leNat bs

/-- The `n` low bytes of a number, least significant first, R14. -/
def toLe : Nat → Nat → Bytes
  | 0, _ => []
  | n + 1, v => BitVec.ofNat 8 v :: toLe n (v / 256)

/-- `len` bytes of `b` from offset `off`. -/
def slice (b : Bytes) (off len : Nat) : Bytes := (b.drop off).take len

/-- The little-endian field of `len` bytes at offset `off`. -/
def fld (b : Bytes) (off len : Nat) : Nat := leNat (slice b off len)

/-- The bytes of `b` from `off`, `len` of them, are all zero: a reserved field holds zero, R15. -/
def zeroAt (b : Bytes) (off len : Nat) : Bool := (slice b off len).all (· == 0)

/-- `n` zero bytes. -/
def zeros (n : Nat) : Bytes := List.replicate n 0

/-- Pad with zero bytes to a multiple of `k`. -/
def padTo (k : Nat) (b : Bytes) : Bytes :=
  if k = 0 then b else b ++ zeros ((k - b.length % k) % k)

/-- Ceiling division. -/
def ceilDiv (a b : Nat) : Nat := if b = 0 then 0 else (a + b - 1) / b

/-- Bits `[hi:lo]` of a number. -/
def bits (v hi lo : Nat) : Nat := (v / 2 ^ lo) % 2 ^ (hi + 1 - lo)

/-- Bit `i` of a number. -/
def bitOf (v i : Nat) : Bool := (v / 2 ^ i) % 2 == 1

/-- The two's complement reading of a `w`-bit number. -/
def signedOf (w v : Nat) : Int :=
  let u := v % 2 ^ w
  if u < 2 ^ (w - 1) then (u : Int) else (u : Int) - (2 ^ w : Nat)

/-- The `w`-bit two's complement code of an integer. -/
def unsignedOf (w : Nat) (v : Int) : Nat := (v % ((2 ^ w : Nat) : Int)).toNat

/-- The bytes of an ASCII string. -/
def ascii (s : String) : Bytes := s.toList.map (fun c => BitVec.ofNat 8 c.toNat)

/-- A number from a Bool. -/
def b2n (b : Bool) : Nat := if b then 1 else 0

/-- The least member of a list of numbers. -/
def listMin? : List Nat → Option Nat
  | [] => none
  | x :: xs => some (xs.foldl min x)

/-- The sum of a list of numbers. -/
def listSum (l : List Nat) : Nat := l.foldl (· + ·) 0

/-- The largest member of a list of numbers, 0 for none. -/
def listMax (l : List Nat) : Nat := l.foldl max 0

/-- The `i`-th member of a list of numbers, 0 beyond its end. -/
def nth (l : List Nat) (i : Nat) : Nat := l.getD i 0

/-- The pieces of `k` bytes, `n` of them. -/
def pieces (k : Nat) : Nat → Bytes → List Bytes
  | 0, _ => []
  | n + 1, b => b.take k :: pieces k n (b.drop k)

/-- Whether a list holds no value twice. -/
def distinct : List Nat → Bool
  | [] => true
  | x :: xs => !(xs.contains x) && distinct xs

/-- Insertion of a value into a list kept in the order of `le`. -/
def insertBy {α : Type} (le : α → α → Bool) (x : α) : List α → List α
  | [] => [x]
  | y :: ys => if le x y then x :: y :: ys else y :: insertBy le x ys

/-- Insertion sort in the order of `le`; equal members keep their order. -/
def sortBy {α : Type} (le : α → α → Bool) (l : List α) : List α :=
  l.foldr (insertBy le) []

/-- The list with member `i` replaced. -/
def setAt {α : Type} (l : List α) (i : Nat) (x : α) : List α := l.set i x

/-- The least number from `start` that is not in `used`, among the next `fuel` ones. -/
def firstFree (used : List Nat) : Nat → Nat → Option Nat
  | _, 0 => none
  | start, fuel + 1 => if used.contains start then firstFree used (start + 1) fuel else some start

end Sys2Proof.Machine
end

