-- ==== Sys2Proof/Machine/Crc.lean ====
section
/-! DEFINITION. The two cyclic redundancy codes of the spec: CRC-64 of R421 and CRC-32 of R456 and R594. -/

namespace Sys2Proof.Machine

open Sys2Proof

/-- `n` shifts of a 64-bit register, most significant bit first, polynomial of ECMA-182. -/
def crc64Shift : Nat → W64 → W64
  | 0, r => r
  | n + 1, r => crc64Shift n (if r.msb then (r <<< 1) ^^^ 0x42F0E1EBA9EA3693#64 else r <<< 1)

/-- The register after a byte string. -/
def crc64Feed : Bytes → W64 → W64
  | [], r => r
  | b :: bs, r => crc64Feed bs (crc64Shift 8 (r ^^^ ((b.setWidth 64) <<< 56)))

/-- CRC-64 of R421: starts at all ones, not reflected, result XORed with all ones. -/
def crc64 (b : Bytes) : W64 := ~~~ (crc64Feed b (BitVec.allOnes 64))

/-- `n` shifts of a 32-bit register, least significant bit first, IEEE 802.3 polynomial. -/
def crc32Shift : Nat → W32 → W32
  | 0, r => r
  | n + 1, r => crc32Shift n (if r.getLsbD 0 then (r >>> 1) ^^^ 0xEDB88320#32 else r >>> 1)

/-- The register after a byte string. -/
def crc32Feed : Bytes → W32 → W32
  | [], r => r
  | b :: bs, r => crc32Feed bs (crc32Shift 8 (r ^^^ b.setWidth 32))

/-- CRC-32 of IEEE 802.3, R594. -/
def crc32 (b : Bytes) : W32 := ~~~ (crc32Feed b (BitVec.allOnes 32))

end Sys2Proof.Machine
end

