-- ==== Sys2Proof/Machine/Crypto.lean ====
section
/-! DEFINITION. The cryptography whose results follow from its inputs alone, as the standards that the spec names define it: SHA-256 and SHA-384 (FIPS 180-4), HMAC and HKDF (RFC 2104, RFC 5869), AES-256 (FIPS 197), GCM (SP 800-38D), P-384 points and ECDSA verification (FIPS 186-5), the modulus check of an ML-KEM-1024 key (FIPS 203); log entry 11. -/

namespace Sys2Proof.Machine

open Sys2Proof

/-- The number a byte string spells, most significant byte first. -/
def beNat (b : Bytes) : Nat := b.foldl (fun a x => a * 256 + x.toNat) 0

/-- The `n` low bytes of a number, most significant first. -/
def toBe (n v : Nat) : Bytes := (toLe n v).reverse

/-- A `w`-bit word rotated right. -/
def rotr (w x n : Nat) : Nat := (x / 2 ^ n ||| x * 2 ^ (w - n)) % 2 ^ w

/-- The largest number of at most `n` bits above `a`, whose power `e` is at most `v`: one bit a step, the highest first. -/
def rootBits (e v : Nat) : Nat → Nat → Nat
  | 0, a => a
  | n + 1, a => rootBits e v n (if (a + 2 ^ n) ^ e ≤ v then a + 2 ^ n else a)

/-- The first `w` bits of the fraction of the root of order `e` of a number below 512. -/
def rootFraction (w e p : Nat) : Nat := rootBits e (p * 2 ^ (e * w)) (w + 5) 0 % 2 ^ w

/-- The primes below `n`, ascending. -/
def primesBelow (n : Nat) : List Nat :=
  (List.range n).foldl (fun ps k => if k < 2 || ps.any (fun p => k % p == 0) then ps else ps ++ [k]) []

/-- The round constants of SHA-384, FIPS 180-4 section 4.2: the fractions of the cube roots of the first 80 primes; their high halves are those of SHA-256. -/
def roundWords : List Nat := (primesBelow 410).map (rootFraction 64 3)

/-- The initial hash value of SHA-256, FIPS 180-4 section 5.3: the fractions of the square roots of the first eight primes. -/
def shaInit256 : List Nat := (primesBelow 20).map (rootFraction 32 2)

/-- The initial hash value of SHA-384: those of the ninth to the sixteenth prime. -/
def shaInit384 : List Nat := ((primesBelow 54).drop 8).map (rootFraction 64 2)

/-- What differs between the two hash functions: word width, rounds, rotations. -/
structure ShaKind where
  width : Nat
  rounds : Nat
  big0 : Nat × Nat × Nat
  big1 : Nat × Nat × Nat
  small0 : Nat × Nat × Nat
  small1 : Nat × Nat × Nat
  deriving DecidableEq, Repr

/-- SHA-256. -/
def sha256Kind : ShaKind := ⟨32, 64, (2, 13, 22), (6, 11, 25), (7, 18, 3), (17, 19, 10)⟩

/-- SHA-384. -/
def sha384Kind : ShaKind := ⟨64, 80, (28, 34, 39), (14, 18, 41), (1, 8, 7), (19, 61, 6)⟩

/-- Three rotations joined. -/
def shaBig (k : ShaKind) (r : Nat × Nat × Nat) (x : Nat) : Nat := rotr k.width x r.1 ^^^ rotr k.width x r.2.1 ^^^ rotr k.width x r.2.2

/-- Two rotations and a shift joined. -/
def shaSmall (k : ShaKind) (r : Nat × Nat × Nat) (x : Nat) : Nat := rotr k.width x r.1 ^^^ rotr k.width x r.2.1 ^^^ x / 2 ^ r.2.2

/-- The message schedule, newest word first, `n` more words. -/
def shaSchedule (k : ShaKind) : Nat → List Nat → List Nat
  | 0, l => l
  | n + 1, l =>
    shaSchedule k n ((shaSmall k k.small1 (nth l 1) + nth l 6 + shaSmall k k.small0 (nth l 14) + nth l 15) % 2 ^ k.width :: l)

/-- One round on the eight working words. -/
def shaRound (k : ShaKind) (v : List Nat) (kw : Nat × Nat) : List Nat :=
  match v with
  | [a, b, c, d, e, f, g, h] =>
    let ones := 2 ^ k.width - 1
    let t1 := h + shaBig k k.big1 e + ((e &&& f) ^^^ ((ones ^^^ e) &&& g)) + kw.1 + kw.2
    let t2 := shaBig k k.big0 a + ((a &&& b) ^^^ (a &&& c) ^^^ (b &&& c))
    [(t1 + t2) % 2 ^ k.width, a, b, c, (d + t1) % 2 ^ k.width, e, f, g]
  | _ => v

/-- The compression of one block. -/
def shaBlock (k : ShaKind) (h : List Nat) (block : Bytes) : List Nat :=
  let first := (pieces (k.width / 8) 16 block).map beNat
  let ws := (shaSchedule k (k.rounds - 16) first.reverse).reverse
  let ks := (roundWords.take k.rounds).map (fun c => c / 2 ^ (64 - k.width))
  let v := (List.zip ks ws).foldl (shaRound k) h
  (List.zip h v).map (fun p => (p.1 + p.2) % 2 ^ k.width)

/-- A message padded to whole blocks. -/
def shaPad (k : ShaKind) (b : Bytes) : Bytes :=
  let blk := 2 * k.width
  let len := k.width / 4
  b ++ [0x80] ++ zeros ((2 * blk - 1 - len - b.length % blk) % blk) ++ toBe len (8 * b.length)

/-- A hash of a message. -/
def shaHash (k : ShaKind) (init : List Nat) (b : Bytes) : Bytes :=
  let m := shaPad k b
  ((pieces (2 * k.width) (m.length / (2 * k.width)) m).foldl (shaBlock k) init).flatMap (toBe (k.width / 8))

/-- SHA-256, 32 bytes, R326, R351. -/
def sha256 (b : Bytes) : Bytes := shaHash sha256Kind shaInit256 b

/-- SHA-384, 48 bytes, R454 to R470. -/
def sha384 (b : Bytes) : Bytes := (shaHash sha384Kind shaInit384 b).take 48

/-- HMAC-SHA-384. -/
def hmacSha384 (key msg : Bytes) : Bytes :=
  let k0 := if 128 < key.length then sha384 key else key
  let k := k0 ++ zeros (128 - k0.length)
  sha384 (k.map (fun x => x ^^^ 0x5C) ++ sha384 (k.map (fun x => x ^^^ 0x36) ++ msg))

/-- HKDF-Extract with SHA-384, R475: the 48 bytes, as a number. -/
def hkdfExtract (salt ikm : Bytes) : BitVec 384 := BitVec.ofNat 384 (leNat (hmacSha384 salt ikm))

/-- The output blocks of HKDF-Expand from block `i` on, `n` of them. -/
def expandBlocks (prk info : Bytes) : Nat → Nat → Bytes → Bytes
  | 0, _, _ => []
  | n + 1, i, last =>
    let t := hmacSha384 prk (last ++ info ++ toBe 1 i)
    t ++ expandBlocks prk info n (i + 1) t

/-- HKDF-Expand with SHA-384, R474: `n` bytes. -/
def hkdfExpand (prk : BitVec 384) (info : Bytes) (n : Nat) : Bytes := (expandBlocks (toLe 48 prk.toNat) info (ceilDiv n 48) 1 []).take n

/-- The substitution box of AES, part 0. -/
def aesBox0 : List Nat := [
  0x63, 0x7c, 0x77, 0x7b, 0xf2, 0x6b, 0x6f, 0xc5, 0x30, 0x01, 0x67, 0x2b, 0xfe, 0xd7, 0xab, 0x76,
  0xca, 0x82, 0xc9, 0x7d, 0xfa, 0x59, 0x47, 0xf0, 0xad, 0xd4, 0xa2, 0xaf, 0x9c, 0xa4, 0x72, 0xc0,
  0xb7, 0xfd, 0x93, 0x26, 0x36, 0x3f, 0xf7, 0xcc, 0x34, 0xa5, 0xe5, 0xf1, 0x71, 0xd8, 0x31, 0x15,
  0x04, 0xc7, 0x23, 0xc3, 0x18, 0x96, 0x05, 0x9a, 0x07, 0x12, 0x80, 0xe2, 0xeb, 0x27, 0xb2, 0x75]

/-- The substitution box of AES, part 1. -/
def aesBox1 : List Nat := [
  0x09, 0x83, 0x2c, 0x1a, 0x1b, 0x6e, 0x5a, 0xa0, 0x52, 0x3b, 0xd6, 0xb3, 0x29, 0xe3, 0x2f, 0x84,
  0x53, 0xd1, 0x00, 0xed, 0x20, 0xfc, 0xb1, 0x5b, 0x6a, 0xcb, 0xbe, 0x39, 0x4a, 0x4c, 0x58, 0xcf,
  0xd0, 0xef, 0xaa, 0xfb, 0x43, 0x4d, 0x33, 0x85, 0x45, 0xf9, 0x02, 0x7f, 0x50, 0x3c, 0x9f, 0xa8,
  0x51, 0xa3, 0x40, 0x8f, 0x92, 0x9d, 0x38, 0xf5, 0xbc, 0xb6, 0xda, 0x21, 0x10, 0xff, 0xf3, 0xd2]

/-- The substitution box of AES, part 2. -/
def aesBox2 : List Nat := [
  0xcd, 0x0c, 0x13, 0xec, 0x5f, 0x97, 0x44, 0x17, 0xc4, 0xa7, 0x7e, 0x3d, 0x64, 0x5d, 0x19, 0x73,
  0x60, 0x81, 0x4f, 0xdc, 0x22, 0x2a, 0x90, 0x88, 0x46, 0xee, 0xb8, 0x14, 0xde, 0x5e, 0x0b, 0xdb,
  0xe0, 0x32, 0x3a, 0x0a, 0x49, 0x06, 0x24, 0x5c, 0xc2, 0xd3, 0xac, 0x62, 0x91, 0x95, 0xe4, 0x79,
  0xe7, 0xc8, 0x37, 0x6d, 0x8d, 0xd5, 0x4e, 0xa9, 0x6c, 0x56, 0xf4, 0xea, 0x65, 0x7a, 0xae, 0x08]

/-- The substitution box of AES, part 3. -/
def aesBox3 : List Nat := [
  0xba, 0x78, 0x25, 0x2e, 0x1c, 0xa6, 0xb4, 0xc6, 0xe8, 0xdd, 0x74, 0x1f, 0x4b, 0xbd, 0x8b, 0x8a,
  0x70, 0x3e, 0xb5, 0x66, 0x48, 0x03, 0xf6, 0x0e, 0x61, 0x35, 0x57, 0xb9, 0x86, 0xc1, 0x1d, 0x9e,
  0xe1, 0xf8, 0x98, 0x11, 0x69, 0xd9, 0x8e, 0x94, 0x9b, 0x1e, 0x87, 0xe9, 0xce, 0x55, 0x28, 0xdf,
  0x8c, 0xa1, 0x89, 0x0d, 0xbf, 0xe6, 0x42, 0x68, 0x41, 0x99, 0x2d, 0x0f, 0xb0, 0x54, 0xbb, 0x16]

/-- The substitution box of AES -/
def aesBox : List Nat := aesBox0 ++ aesBox1 ++ aesBox2 ++ aesBox3

/-- A byte substituted. -/
def aesSub (x : Nat) : Nat := nth aesBox x

/-- Twice a byte in the field of AES. -/
def aesDouble (x : Nat) : Nat := if x < 128 then 2 * x else (2 * x) ^^^ 0x11B

/-- A byte string and another joined by exclusive or. -/
def xorNats (a b : List Nat) : List Nat := List.zipWith (· ^^^ ·) a b

/-- The words of the key schedule, newest first, from word `i` on. -/
def aesSchedule : Nat → Nat → Nat → List (List Nat) → List (List Nat)
  | 0, _, _, l => l
  | n + 1, i, rcon, l =>
    let t := l.getD 0 []
    let u := if i % 8 = 0 then xorNats ((t.drop 1 ++ t.take 1).map aesSub) [rcon, 0, 0, 0] else if i % 8 = 4 then t.map aesSub else t
    aesSchedule n (i + 1) (if i % 8 = 0 then aesDouble rcon else rcon) (xorNats (l.getD 7 []) u :: l)

/-- `n` pieces of `k` numbers. -/
def natPieces (k : Nat) : Nat → List Nat → List (List Nat)
  | 0, _ => []
  | n + 1, l => l.take k :: natPieces k n (l.drop k)

/-- The fifteen round keys of AES-256, 16 bytes each. -/
def aesKeys (key : List Nat) : List (List Nat) :=
  natPieces 16 15 ((aesSchedule 52 8 1 (natPieces 4 8 key).reverse).reverse).flatten

/-- The rows of the state shifted: byte `i` comes from byte 5 i. -/
def aesShift (s : List Nat) : List Nat := (List.range 16).map (fun i => nth s (5 * i % 16))

/-- One column mixed. -/
def aesMixColumn (c : List Nat) : List Nat :=
  (List.range 4).map (fun i =>
    let a := nth c i
    let b := nth c ((i + 1) % 4)
    aesDouble a ^^^ aesDouble b ^^^ b ^^^ nth c ((i + 2) % 4) ^^^ nth c ((i + 3) % 4))

/-- One round under its key; the last does not mix. -/
def aesRound (last : Bool) (s key : List Nat) : List Nat :=
  let t := aesShift (s.map aesSub)
  xorNats (if last then t else (natPieces 4 4 t).flatMap aesMixColumn) key

/-- AES-256 of one block of 16 bytes. -/
def aesBlock (key : BitVec 256) (block : Bytes) : Bytes :=
  let ks := aesKeys ((toLe 32 key.toNat).map (·.toNat))
  let s0 := xorNats (block.map (·.toNat)) (ks.getD 0 [])
  let s1 := ((ks.drop 1).take 13).foldl (aesRound false) s0
  (aesRound true s1 (ks.getD 14 [])).map (BitVec.ofNat 8)

/-- Byte `i` of the AES-256-GCM key stream under a key and a 12-byte nonce, R45, R48. -/
def gcmStream (key : BitVec 256) (nonce : Bytes) (i : Nat) : Byte := (aesBlock key (nonce ++ toBe 4 (i / 16 + 2))).getD (i % 16) 0

/-- The product of two blocks in the field of GCM, first bit most significant: `n` bits of `x` are left. -/
def ghashMul (x : Nat) : Nat → Nat → Nat → Nat
  | 0, _, z => z
  | n + 1, v, z =>
    ghashMul x n (if v % 2 = 1 then v / 2 ^^^ 0xE1 * 2 ^ 120 else v / 2) (if bitOf x n then z ^^^ v else z)

/-- GHASH of whole blocks. -/
def ghash (h : Nat) (b : Bytes) : Nat :=
  (pieces 16 (b.length / 16) b).foldl (fun y x => ghashMul (y ^^^ beNat x) 128 h 0) 0

/-- The AES-256-GCM tag over additional data and ciphertext, R45, R48: the 16 bytes, as a number. -/
def gcmTag (key : BitVec 256) (nonce aad cipher : Bytes) : BitVec 128 :=
  let h := beNat (aesBlock key (zeros 16))
  let g := ghash h (padTo 16 aad ++ padTo 16 cipher ++ toBe 8 (8 * aad.length) ++ toBe 8 (8 * cipher.length))
  BitVec.ofNat 128 (leNat (toBe 16 (g ^^^ beNat (aesBlock key (nonce ++ toBe 4 1)))))

/-- The prime of P-384. -/
def p384Prime : Nat := 2 ^ 384 - 2 ^ 128 - 2 ^ 96 + 2 ^ 32 - 1

/-- The order of P-384. -/
def p384Order : Nat := 0xFFFFFFFFFFFFFFFFFFFFFFFFFFFFFFFFFFFFFFFFFFFFFFFFC7634D81F4372DDF581A0DB248B0A77AECEC196ACCC52973

/-- The coefficient b of P-384. -/
def p384B : Nat := 0xB3312FA7E23EE7E4988E056BE3F82D19181D9C6EFE8141120314088F5013875AC656398D8A2ED19D2A85C8EDD3EC2AEF

/-- The base point of P-384. -/
def p384Base : Nat × Nat :=
  (0xAA87CA22BE8B05378EB1C71EF320AD746E1D3B628BA79B9859F741E082542A385502F25DBF55296C3A545E3872760AB7,
   0x3617DE4A96262C6F5D9E98BF9292DC29F8F41DBD289A147CE9DA3113B5F0B8C00A60B1CE1D7E819D7A431D7C90EA0E5F)

/-- The affine point that 97 bytes spell, R470: 0x04 and two coordinates of 48 bytes, on the curve. -/
def p384Point (b : Bytes) : Option (Nat × Nat) :=
  let x := beNat (slice b 1 48)
  let y := beNat (slice b 49 48)
  if b.length = 97 ∧ fld b 0 1 = 4 ∧ x < p384Prime ∧ y < p384Prime ∧ (y * y + 3 * x) % p384Prime = (x * x * x + p384B) % p384Prime then some (x, y) else none

/-- Whether a byte string decodes as a P-384 point, R471. -/
def p384Valid (b : Bytes) : Bool := (p384Point b).isSome

/-- `a − b` modulo the prime. -/
def p384Sub (a b : Nat) : Nat := (a + p384Prime - b) % p384Prime

/-- Twice a point in Jacobian coordinates; `Z` 0 is the point at infinity. -/
def p384Double (p : Nat × Nat × Nat) : Nat × Nat × Nat :=
  let q := p384Prime
  let (x, y, z) := p
  let d := z * z % q
  let g := y * y % q
  let b := x * g % q
  let a := 3 * (p384Sub x d * ((x + d) % q)) % q
  let x3 := p384Sub (a * a % q) (8 * b % q)
  (x3, p384Sub (a * p384Sub (4 * b % q) x3 % q) (8 * g * g % q), 2 * y * z % q)

/-- The sum of two points in Jacobian coordinates. -/
def p384Add (p r : Nat × Nat × Nat) : Nat × Nat × Nat :=
  let q := p384Prime
  let (x1, y1, z1) := p
  let (x2, y2, z2) := r
  if z1 = 0 then r else if z2 = 0 then p
  else
    let u1 := x1 * z2 * z2 % q
    let u2 := x2 * z1 * z1 % q
    let s1 := y1 * z2 * z2 * z2 % q
    let s2 := y2 * z1 * z1 * z1 % q
    let h := p384Sub u2 u1
    let d := p384Sub s2 s1
    if h = 0 then (if d = 0 then p384Double p else (1, 1, 0))
    else
      let h2 := h * h % q
      let h3 := h2 * h % q
      let v := u1 * h2 % q
      let x3 := p384Sub (p384Sub (d * d % q) h3) (2 * v % q)
      (x3, p384Sub (d * p384Sub v x3 % q) (s1 * h3 % q), h * z1 * z2 % q)

/-- A multiple of a point, over the low `n` bits of the factor, the most significant first. -/
def p384Mul (k : Nat) (p : Nat × Nat × Nat) : Nat → Nat × Nat × Nat → Nat × Nat × Nat
  | 0, acc => acc
  | n + 1, acc =>
    let d := p384Double acc
    p384Mul k p n (if bitOf k n then p384Add d p else d)

/-- A power modulo `m`, over the low `n` bits of the exponent. -/
def powMod (a e m : Nat) : Nat → Nat → Nat
  | 0, acc => acc
  | n + 1, acc =>
    let d := acc * acc % m
    powMod a e m n (if bitOf e n then d * a % m else d)

/-- ECDSA P-384 verification over a SHA-384 digest, R457, R470: public key, digest, r and s. -/
def ecdsaVerify (key digest sig : Bytes) : Bool :=
  let r := beNat (slice sig 0 48)
  let s := beNat (slice sig 48 48)
  match p384Point key with
  | none => false
  | some (x, y) =>
    if r = 0 ∨ p384Order ≤ r ∨ s = 0 ∨ p384Order ≤ s then false
    else
      let w := powMod s (p384Order - 2) p384Order 384 1
      let inf := ((1, 1, 0) : Nat × Nat × Nat)
      let a := p384Mul (beNat digest * w % p384Order) (p384Base.1, p384Base.2, 1) 384 inf
      let t := p384Add a (p384Mul (r * w % p384Order) (x, y, 1) 384 inf)
      if t.2.2 = 0 then false
      else
        let zi := powMod t.2.2 (p384Prime - 2) p384Prime 384 1
        t.1 * zi * zi % p384Prime % p384Order == r

/-- Whether a byte string passes the modulus check of an ML-KEM-1024 encapsulation key, R471: 1,024 coefficients of 12 bits below 3,329, and a seed. -/
def mlkemValid (b : Bytes) : Bool :=
  decide (b.length = 1568) && (pieces 3 512 b).all (fun p => decide (leNat p % 4096 < 3329) && decide (leNat p / 4096 < 3329))

end Sys2Proof.Machine
end

