-- ==== Sys2Proof/Machine/Maps.lean ====
section
/-! DEFINITION. Sparse maps from numbers to values, sorted by key with no key twice, and the byte memory in its canonical form. -/

namespace Sys2Proof.Machine

open Sys2Proof

/-- A sparse map: key and value pairs, keys rising. -/
abbrev KMap (α : Type) := List (Nat × α)

/-- The value at a key. -/
def kget {α : Type} : KMap α → Nat → Option α
  | [], _ => none
  | (k, v) :: m, i => if k = i then some v else kget m i

/-- The value at a key, or what an unlisted key holds. -/
def kgetD {α : Type} (m : KMap α) (i : Nat) (d : α) : α := (kget m i).getD d

/-- The map with a key set, in its place. -/
def kset {α : Type} : KMap α → Nat → α → KMap α
  | [], i, x => [(i, x)]
  | (k, v) :: m, i, x =>
    if i < k then (i, x) :: (k, v) :: m
    else if i = k then (i, x) :: m
    else (k, v) :: kset m i x

/-- The map without a key. -/
def kdel {α : Type} (m : KMap α) (i : Nat) : KMap α := m.filter (fun p => p.1 != i)

/-- The map with the value at a key changed, starting from `d` where the key is not listed. -/
def kmod {α : Type} (m : KMap α) (i : Nat) (d : α) (f : α → α) : KMap α := kset m i (f (kgetD m i d))

/-- Whether a key is listed. -/
def khas {α : Type} (m : KMap α) (i : Nat) : Bool := (kget m i).isSome

/-- The keys. -/
def kkeys {α : Type} (m : KMap α) : List Nat := m.map (·.1)

/-- The values. -/
def kvals {α : Type} (m : KMap α) : List α := m.map (·.2)

/-- A byte memory: address and byte pairs, addresses rising, no byte equal to what an unlisted address reads as. -/
abbrev Memory := List Host.Cell

/-- What an unlisted address reads as: R19, R214 and R537 clear memory to zero. -/
def Memory.unlisted : Byte := 0

/-- The byte at an address. -/
def Memory.read : Memory → Nat → Byte
  | [], _ => Memory.unlisted
  | (k, v) :: m, a => if k = a then v else Memory.read m a

/-- The memory with one byte written, in canonical form: writing what an unlisted address reads as removes the entry. -/
def Memory.write : Memory → Nat → Byte → Memory
  | [], a, b => if b = Memory.unlisted then [] else [(a, b)]
  | (k, v) :: m, a, b =>
    if a < k then (if b = Memory.unlisted then (k, v) :: m else (a, b) :: (k, v) :: m)
    else if a = k then (if b = Memory.unlisted then m else (a, b) :: m)
    else (k, v) :: Memory.write m a b

/-- Every address of the memory lies above `lo`, addresses rise, and no entry holds the unlisted value. -/
def Memory.wfFrom : Nat → Memory → Bool
  | _, [] => true
  | lo, (k, v) :: m => decide (lo ≤ k) && (v != Memory.unlisted) && Memory.wfFrom (k + 1) m

/-- The canonical form of a memory. -/
def Memory.wf (m : Memory) : Bool := Memory.wfFrom 0 m

/-- `n` bytes from an address. -/
def Memory.readN (m : Memory) : Nat → Nat → Bytes
  | _, 0 => []
  | a, n + 1 => Memory.read m a :: Memory.readN m (a + 1) n

/-- A byte string written from an address. -/
def Memory.writeN (m : Memory) : Nat → Bytes → Memory
  | _, [] => m
  | a, b :: bs => Memory.writeN (Memory.write m a b) (a + 1) bs

/-- `n` bytes from an address set to zero: the entries there are removed. -/
def Memory.clear (m : Memory) (a n : Nat) : Memory := m.filter (fun c => decide (c.1 < a) || decide (a + n ≤ c.1))

end Sys2Proof.Machine
end

