-- ==== Sys2Proof/Machine/Numbers.lean ====
section
/-! DEFINITION. Number formats and rounding, chapter 03: exact values, the decoding of every format, the one rounding of R89, block scaling (R85, R86), packed elements (R84), and the FP32 operations. -/

namespace Sys2Proof.Machine

open Sys2Proof

/-- An exact value: NaN, an infinity, or (−1)^neg × m × 2^e; zero keeps its sign. -/
inductive Num where
  | nan
  | inf (neg : Bool)
  | fin (neg : Bool) (m : Nat) (e : Int)
  deriving DecidableEq, Repr

/-- Width of a format in bits, R78, R80; 0 for the reserved codes. -/
def fmtBits : Nat → Nat
  | 0 => 32 | 1 => 16 | 2 => 16 | 3 => 8 | 4 => 8 | 5 => 6 | 6 => 6 | 7 => 4
  | 8 => 8 | 9 => 4 | 10 => 2 | 11 => 2 | 12 => 1 | _ => 0

/-- Exponent width, mantissa width and bias of a floating-point format, R78. -/
def fmtShape : Nat → Nat × Nat × Nat
  | 0 => (8, 23, 127) | 1 => (8, 7, 127) | 2 => (5, 10, 15) | 3 => (4, 3, 7)
  | 4 => (5, 2, 15) | 5 => (3, 2, 3) | 6 => (2, 3, 1) | 7 => (2, 1, 1) | _ => (0, 0, 0)

/-- Codes 0 to 7 are floating-point formats. -/
def fmtIsFloat (f : Nat) : Bool := decide (f < 8)

/-- The formats with infinity, R89. -/
def fmtHasInf (f : Nat) : Bool := f == 0 || f == 1 || f == 2 || f == 4

/-- The formats with NaN, R78. -/
def fmtHasNan (f : Nat) : Bool := decide (f < 5)

/-- The canonical NaN of a format, R83. -/
def fmtNan : Nat → Nat
  | 0 => 0x7FC00000 | 1 => 0x7FC0 | 2 => 0x7E00 | 3 => 0x7F | 4 => 0x7E | _ => 0

/-- Largest magnitude of a format and sign as m × 2^e, R78, R80, R89. -/
def fmtMax (f : Nat) (neg : Bool) : Nat × Int :=
  match f with
  | 0 => (2 ^ 24 - 1, 104) | 1 => (255, 120) | 2 => (2047, 5) | 3 => (7, 6) | 4 => (7, 13)
  | 5 => (7, 2) | 6 => (15, -1) | 7 => (3, 1)
  | 8 => (if neg then 128 else 127, 0)
  | 9 => (if neg then 8 else 7, 0)
  | 11 => (if neg then 2 else 1, 0)
  | _ => (1, 0)

/-- The exponent of an exact non-zero magnitude: floor(log2(m × 2^e)). -/
def numLog2 (m : Nat) (e : Int) : Int := e + (Nat.log2 m : Int)

/-- m × 2^e < m' × 2^e'. -/
def magLt (m : Nat) (e : Int) (m' : Nat) (e' : Int) : Bool :=
  if e' ≤ e then decide (m * 2 ^ (e - e').toNat < m') else decide (m < m' * 2 ^ (e' - e).toNat)

/-- The exact value of a code of a format, R78 to R82; a TERN code 10 is 0 (R81). -/
def decodeNum (f c : Nat) : Num :=
  if fmtIsFloat f then
    let (eb, mb, bias) := fmtShape f
    let man := c % 2 ^ mb
    let ex := (c / 2 ^ mb) % 2 ^ eb
    let neg := (c / 2 ^ (mb + eb)) % 2 == 1
    if fmtHasInf f && ex == 2 ^ eb - 1 then (if man = 0 then .inf neg else .nan)
    else if f = 3 ∧ ex = 15 ∧ man = 7 then .nan
    else if ex = 0 then .fin neg man (1 - (bias : Int) - mb)
    else .fin neg (2 ^ mb + man) ((ex : Int) - bias - mb)
  else if f = 10 then (if c % 4 = 1 then .fin false 1 0 else if c % 4 = 3 then .fin true 1 0 else .fin false 0 0)
  else if f = 12 then .fin false (c % 2) 0
  else
    let v := signedOf (fmtBits f) c
    .fin (decide (v < 0)) v.natAbs 0

/-- The code of a value that a format represents exactly. -/
def encodeNum (f : Nat) : Num → Nat
  | .nan => fmtNan f
  | .inf neg =>
    let (eb, mb, _) := fmtShape f
    (2 ^ eb - 1) * 2 ^ mb + (if neg then 2 ^ (eb + mb) else 0)
  | .fin neg m e =>
    if fmtIsFloat f then
      let (eb, mb, bias) := fmtShape f
      let sgn := if neg then 2 ^ (eb + mb) else 0
      if m = 0 then sgn
      else
        let emin := 1 - (bias : Int)
        let lg := numLog2 m e
        let q := (max lg emin) - mb
        let n := if q ≤ e then m * 2 ^ (e - q).toNat else m / 2 ^ (q - e).toNat
        let body := if lg < emin then n else n - 2 ^ mb + (lg + bias).toNat * 2 ^ mb
        sgn + body
    else
      let v := if 0 ≤ e then m * 2 ^ e.toNat else m / 2 ^ (-e).toNat
      if f = 12 then (if neg ∨ v = 0 then 0 else 1)
      else unsignedOf (fmtBits f) (if neg then -(v : Int) else v)

/-- Rounding modes, R88. -/
inductive RoundMode where
  | rne
  | rtz
  | sr
  deriving DecidableEq, Repr

/-- The mode that a 2-bit field names; 3 is reserved. -/
def roundModeOf (n : Nat) : RoundMode := if n = 1 then .rtz else if n = 2 then .sr else .rne

/-- What one rounding or conversion counts, R107. -/
structure NumCounts where
  sat : Nat
  clamp : Nat
  flush : Nat
  nanConv : Nat
  tern : Nat
  deriving DecidableEq, Repr

/-- Nothing counted. -/
def NumCounts.zero : NumCounts := ⟨0, 0, 0, 0, 0⟩

/-- Counts of work done several times over. -/
def NumCounts.times (k : Nat) (a : NumCounts) : NumCounts := ⟨k * a.sat, k * a.clamp, k * a.flush, k * a.nanConv, k * a.tern⟩

/-- Counts of two pieces of work together. -/
def NumCounts.add (a b : NumCounts) : NumCounts :=
  ⟨a.sat + b.sat, a.clamp + b.clamp, a.flush + b.flush, a.nanConv + b.nanConv, a.tern + b.tern⟩

/-- One saturation, one block clamp, one flush, one converted NaN. -/
def countSat : NumCounts := ⟨1, 0, 0, 0, 0⟩
def countClamp : NumCounts := ⟨0, 1, 0, 0, 0⟩
def countFlush : NumCounts := ⟨0, 0, 1, 0, 0⟩
def countNanConv : NumCounts := ⟨0, 0, 0, 1, 0⟩

/-- What an overflow becomes, R87, R89. -/
def overflowTo (f : Nat) (neg sat : Bool) (mode : RoundMode) (blockClamp : Bool) : Num × NumCounts :=
  let big := fmtMax f neg
  if blockClamp then (.fin neg big.1 big.2, countClamp)
  else if fmtHasInf f && !sat && decide (mode ≠ .rtz) then (.inf neg, NumCounts.zero)
  else (.fin neg big.1 big.2, countSat)

/-- Whether a discarded part `rem` of `2^sh` rounds the kept part `lo` up; `draw` is the 12-bit draw of SR, R89, R90. -/
def roundsUp (mode : RoundMode) (draw lo rem sh : Nat) : Bool :=
  match mode with
  | .rne => decide (2 ^ sh < 2 * rem) || (decide (2 * rem = 2 ^ sh) && lo % 2 == 1)
  | .rtz => false
  | .sr => decide (draw < rem * 4096 / 2 ^ sh)

/-- Conversion of an exact value to a format, R89, R82, R111: the value it takes and what is counted. -/
def roundTo (f : Nat) (mode : RoundMode) (sat blockClamp : Bool) (draw : Nat) (x : Num) : Num × NumCounts :=
  match x with
  | .nan => if fmtHasNan f then (.nan, NumCounts.zero) else (.fin false 0 0, countNanConv)
  | .inf neg =>
    if f = 12 then (.fin false (b2n (!neg)) 0, NumCounts.zero) else overflowTo f neg sat mode false
  | .fin neg m e =>
    if f = 12 then (.fin false (b2n (!neg && m != 0)) 0, NumCounts.zero)
    else if m = 0 then (.fin neg 0 0, NumCounts.zero)
    else
      let q : Int :=
        if fmtIsFloat f then (max (numLog2 m e) (1 - ((fmtShape f).2.2 : Int))) - ((fmtShape f).2.1 : Int) else 0
      let sh := (q - e).toNat
      let lo := if q ≤ e then m * 2 ^ (e - q).toNat else m / 2 ^ sh
      let rem := if q ≤ e then 0 else m % 2 ^ sh
      let n := lo + b2n (rem != 0 && roundsUp mode draw lo rem sh)
      let big := fmtMax f neg
      if magLt big.1 big.2 n q then overflowTo f neg sat mode blockClamp
      else if f = 0 ∧ magLt n q 1 (-126) = true then (.fin neg 0 0, countFlush)
      else (.fin neg n q, NumCounts.zero)

/-- An FP32 subnormal is taken as zero of its sign, R93. -/
def flushIn (x : Num) : Num :=
  match x with
  | .fin neg m e => if m ≠ 0 ∧ magLt m e 1 (-126) = true then .fin neg 0 0 else x
  | _ => x

/-- The exact value of an FP32 code as an input, R92. -/
def fp32In (c : Nat) : Num := flushIn (decodeNum 0 c)

/-- An exact result as an FP32 code with one rounding to nearest even, R88. -/
def fp32Out (x : Num) : Nat × NumCounts :=
  let r := roundTo 0 .rne false false 0 x
  (encodeNum 0 r.1, r.2)

/-- Negation. -/
def numNeg : Num → Num
  | .nan => .nan
  | .inf n => .inf (!n)
  | .fin n m e => .fin (!n) m e

/-- A signed integer times a power of two as a value; zero is +0. -/
def numOfInt (v e : Int) : Num := .fin (decide (v < 0)) v.natAbs e

/-- The signed mantissa of a finite value at exponent `e0`, which does not lie above its own. -/
def mantissaAt (neg : Bool) (m : Nat) (e e0 : Int) : Int :=
  let v := (m * 2 ^ (e - e0).toNat : Nat)
  if neg then -(v : Int) else v

/-- Exact sum under IEEE 754: an exact zero of unlike signs is +0. -/
def numAdd : Num → Num → Num
  | .nan, _ => .nan
  | _, .nan => .nan
  | .inf a, .inf b => if a = b then .inf a else .nan
  | .inf a, .fin _ _ _ => .inf a
  | .fin _ _ _, .inf b => .inf b
  | .fin n1 m1 e1, .fin n2 m2 e2 =>
    if m1 = 0 ∧ m2 = 0 then .fin (n1 && n2) 0 0
    else
      let e0 := min e1 e2
      numOfInt (mantissaAt n1 m1 e1 e0 + mantissaAt n2 m2 e2 e0) e0

/-- Exact product. -/
def numMul : Num → Num → Num
  | .nan, _ => .nan
  | _, .nan => .nan
  | .inf a, .inf b => .inf (a != b)
  | .inf a, .fin b m _ => if m = 0 then .nan else .inf (a != b)
  | .fin a m _, .inf b => if m = 0 then .nan else .inf (a != b)
  | .fin a m e, .fin b n k => .fin (a != b) (m * n) (e + k)

/-- A value times a power of two. -/
def numScale (k : Int) : Num → Num
  | .fin n m e => .fin n m (e + k)
  | x => x

/-- Quotient cut off 64 bits below its top with a sticky last bit: rounds once as the exact quotient does. -/
def numDiv : Num → Num → Num
  | .nan, _ => .nan
  | _, .nan => .nan
  | .inf _, .inf _ => .nan
  | .inf a, .fin b _ _ => .inf (a != b)
  | .fin a _ _, .inf b => .fin (a != b) 0 0
  | .fin a m e, .fin b n k =>
    if n = 0 then (if m = 0 then .nan else .inf (a != b))
    else
      let sh := 64 + Nat.log2 n
      let q := m * 2 ^ sh / n
      let sticky := b2n (m * 2 ^ sh % n != 0)
      .fin (a != b) (2 * q + sticky) (e - k - sh - 1)

/-- Integer square root: the bits of the root from `fuel` − 1 down, added while the square fits. -/
def isqrtFrom (n : Nat) : Nat → Nat → Nat
  | 0, r => r
  | fuel + 1, r =>
    let t := r + 2 ^ fuel
    isqrtFrom n fuel (if t * t ≤ n then t else r)

/-- Integer square root. -/
def isqrt (n : Nat) : Nat := isqrtFrom n (Nat.log2 n / 2 + 1) 0

/-- Square root with a sticky last bit; of a negative non-zero value NaN, of −0 itself −0. -/
def numSqrt : Num → Num
  | .nan => .nan
  | .inf a => if a then .nan else .inf false
  | .fin a m e =>
    if m = 0 then .fin a 0 0
    else if a then .nan
    else
      let odd := b2n (decide (e % 2 ≠ 0))
      let n := m * 2 ^ (128 + odd)
      let r := isqrt n
      .fin false (2 * r + b2n (r * r != n)) ((e - odd - 128) / 2 - 1)

/-- Comparison a < b of ordered values. -/
def numLt : Num → Num → Bool
  | .nan, _ => false
  | _, .nan => false
  | .inf a, .inf b => a && !b
  | .inf a, .fin _ _ _ => a
  | .fin _ _ _, .inf b => !b
  | .fin n1 m1 e1, .fin n2 m2 e2 =>
    let e0 := min e1 e2
    decide (mantissaAt n1 m1 e1 e0 < mantissaAt n2 m2 e2 e0)

/-- Whether a value is NaN. -/
def numIsNan : Num → Bool
  | .nan => true
  | _ => false

/-- Whether a value is finite. -/
def numIsFin : Num → Bool
  | .fin _ _ _ => true
  | _ => false

/-- Magnitude of a value. -/
def numAbs : Num → Num
  | .nan => .nan
  | .inf _ => .inf false
  | .fin _ m e => .fin false m e

/-- floor of a finite value as an integer. -/
def numFloor (neg : Bool) (m : Nat) (e : Int) : Int :=
  if 0 ≤ e then mantissaAt neg m e 0
  else (if neg then -(m : Int) else m) / ((2 ^ (-e).toNat : Nat) : Int)

/-- The factors 2^(2^−i), i from 1, in 192-bit fixed point: each the root of the one before. -/
def exp2Roots : Nat → Nat → List Nat
  | 0, _ => []
  | k + 1, prev => let r := isqrt (prev * 2 ^ 192); r :: exp2Roots k r

/-- 2^f for the fraction f = n / 2^sh in 192-bit fixed point: the product of the roots its bits select. -/
def exp2Frac (n sh : Nat) (roots : List Nat) : Nat :=
  (roots.zipIdx).foldl (fun acc p =>
    if p.2 + 1 ≤ sh ∧ bitOf n (sh - (p.2 + 1)) = true then acc * p.1 / 2 ^ 192 else acc) (2 ^ 192)

/-- 2^x to 150 good bits with a sticky last bit; it is exact for an integer x. -/
def numExp2 : Num → Num
  | .nan => .nan
  | .inf a => if a then .fin false 0 0 else .inf false
  | .fin neg m e =>
    if m = 0 then .fin false 1 0
    else if magLt m e 1 9 = false then (if neg then .fin false 1 (-600) else .fin false 1 600)
    else
      let i := numFloor neg m e
      if 0 ≤ e then .fin false 1 i
      else
        let sh := (-e).toNat
        let fr := ((if neg then -(m : Int) else m) - i * ((2 ^ sh : Nat) : Int)).toNat
        if fr = 0 then .fin false 1 i
        else .fin false (2 * exp2Frac fr sh (exp2Roots (min sh 150) (2 ^ 193)) + 1) (i - 193)

/-- `k` bits of log2 of y / 2^192, y in [1, 2): square, take a bit, halve. -/
def log2Bits : Nat → Nat → Nat → Nat
  | 0, _, acc => acc
  | k + 1, y, acc =>
    let y2 := y * y / 2 ^ 192
    if 2 ^ 193 ≤ y2 then log2Bits k (y2 / 2) (2 * acc + 1) else log2Bits k y2 (2 * acc)

/-- log2 of a value to 150 fraction bits with a sticky last bit; exact for a power of two. -/
def numLog2Of : Num → Num
  | .nan => .nan
  | .inf a => if a then .nan else .inf false
  | .fin neg m e =>
    if m = 0 then .inf true
    else if neg then .nan
    else
      let l := Nat.log2 m
      if m = 2 ^ l then numOfInt (e + l) 0
      else
        let y := m * 2 ^ 192 / 2 ^ l
        let fr := log2Bits 150 y 0
        numOfInt ((e + l) * ((2 ^ 151 : Nat) : Int) + 2 * fr + 1) (-151)

/-- One xorshift step of a lane's generator, R90. -/
def xorshift (x : W32) : W32 :=
  let a := x ^^^ (x <<< 13)
  let b := a ^^^ (a >>> 17)
  b ^^^ (b <<< 5)

/-- The seeded state of a lane, R90. -/
def laneSeed (seed lane : Nat) : W32 :=
  let x := BitVec.ofNat 32 seed ^^^ BitVec.ofNat 32 lane
  if x = 0 then 0x6D2B79F5 else x

/-- The 12-bit draw of an advanced state, R89, R90. -/
def drawOf (x : W32) : Nat := x.toNat / 2 ^ 20

/-- Element `i` of a packed run of width `w`, R84. -/
def elemAt (b : Bytes) (w i : Nat) : Nat :=
  bits (leNat (slice b (i * w / 8) (w / 8 + 2))) (i * w % 8 + w - 1) (i * w % 8)

/-- The first `n` elements of a packed run, R84. -/
def unpack (w n : Nat) (b : Bytes) : List Nat := (List.range n).map (elemAt b w)

/-- The number a list of elements of width `w` packs to. -/
def packNat (w : Nat) : List Nat → Nat
  | [] => 0
  | x :: xs => x % 2 ^ w + 2 ^ w * packNat w xs

/-- Elements packed densely, unused high bits zero, R84. -/
def packElems (w : Nat) (l : List Nat) : Bytes := toLe (ceilDiv (l.length * w) 8) (packNat w l)

/-- Block-scaling schemes, R85. -/
inductive Scheme where
  | none
  | mx
  | twoLevel
  deriving DecidableEq, Repr

/-- Header bytes of a block under a scheme, R85. -/
def schemeBytes : Scheme → Nat
  | .none => 0
  | .mx => 1
  | .twoLevel => 2

/-- Element formats that block scaling applies to, R85. -/
def scalable (f : Nat) : Bool := decide (3 ≤ f) && decide (f ≤ 9)

/-- The exponent a block header gives element `i` of its block; none for the NaN scale, R85. -/
def blockExp (sch : Scheme) (hdr i : Nat) : Option Int :=
  match sch with
  | .none => some 0
  | .mx => if hdr % 256 = 255 then none else some ((hdr % 256 : Nat) - 127)
  | .twoLevel =>
    if hdr % 256 = 255 then none
    else some ((hdr % 256 : Nat) - 127 - (bits (hdr / 256) (2 * (i / 8 % 4) + 1) (2 * (i / 8 % 4)) : Nat))

/-- An element with its block's scale applied, R85. -/
def scaledNum (sch : Scheme) (f hdr i c : Nat) : Num :=
  match blockExp sch hdr i with
  | none => .nan
  | some k => numScale k (decodeNum f c)

/-- emax of R86. -/
def fmtEmax : Nat → Nat
  | 3 => 8 | 4 => 15 | 5 => 4 | 6 => 2 | 7 => 2 | 8 => 6 | 9 => 2 | _ => 0

/-- A block quantised: E8M0 code, sub-block shifts, element codes, counts. -/
structure QuantBlock where
  scale : Nat
  shifts : List Nat
  codes : List Nat
  counts : NumCounts
  deriving DecidableEq, Repr

/-- The larger of two finite magnitudes. -/
def magMax (a b : Nat × Int) : Nat × Int := if magLt a.1 a.2 b.1 b.2 then b else a

/-- The magnitude that counts for the scale: an infinity counts as FP32_MAX, R86. -/
def scaleMag : Num → Nat × Int
  | .nan => (0, 0)
  | .inf _ => fmtMax 0 false
  | .fin _ m e => (m, e)

/-- Round the elements of a block, one draw each. -/
def quantElems (f : Nat) (mode : RoundMode) (sat : Bool) (c : Nat) (shifts draws : List Nat) (xs : List Num) : List (Num × NumCounts) :=
  (xs.zipIdx).map (fun p =>
    roundTo f mode sat true (nth draws p.2) (numScale (-((c : Int) - 127 - (nth shifts (p.2 / 8) : Nat))) p.1))

/-- Quantise a block of 32 FP32 values, R86, R87; one holding a NaN gets scale 0xFF and zeros, R111, and shifts 0 under the two-level scheme (log entry 67). -/
def quantiseBlock (f : Nat) (sch : Scheme) (mode : RoundMode) (sat : Bool) (draws : List Nat) (xs0 : List Num) : QuantBlock :=
  let xs := xs0.map flushIn
  if xs.any numIsNan then
    ⟨255, [0, 0, 0, 0], xs.map (fun _ => 0), ⟨0, 0, 0, (xs.filter numIsNan).length, 0⟩⟩
  else
    let amax := (xs.map scaleMag).foldl magMax (0, 0)
    let top := numLog2 amax.1 amax.2
    let c := if amax.1 = 0 then 127 else (max 0 (min 254 (top - (fmtEmax f : Int) + 127))).toNat
    let shifts := (List.range 4).map (fun j =>
      if amax.1 = 0 ∨ sch ≠ .twoLevel then 0
      else
        let sub := ((slice' xs (8 * j) 8).map scaleMag).foldl magMax (0, 0)
        if sub.1 = 0 then 3 else (min 3 (top - numLog2 sub.1 sub.2)).toNat)
    let rs := quantElems f mode sat c shifts draws xs
    ⟨c, shifts, rs.map (fun r => encodeNum f r.1), (rs.map (·.2)).foldl NumCounts.add NumCounts.zero⟩
where
  slice' (l : List Num) (off len : Nat) : List Num := (l.drop off).take len

/-- The header bytes of a quantised block, R85. -/
def blockHeader (sch : Scheme) (q : QuantBlock) : Bytes :=
  match sch with
  | .none => []
  | .mx => toLe 1 q.scale
  | .twoLevel => toLe 1 q.scale ++ toLe 1 (nth q.shifts 0 + 4 * nth q.shifts 1 + 16 * nth q.shifts 2 + 64 * nth q.shifts 3)

/-- A K-group sum S_g: exact, an exact zero is +0, R99, R100. -/
def groupSum (ps : List Num) : Num :=
  match ps.foldl numAdd (.fin false 0 0) with
  | .fin n m e => if m = 0 then .fin false 0 0 else .fin n m e
  | x => x

/-- The accumulation of one group sum into an FP32 accumulator, R99. -/
def accumulate (c : Nat) (sg : Num) : Nat × NumCounts := fp32Out (numAdd (fp32In c) sg)

/-- FP32 operations on codes, each one rounding with flushed inputs and result, R88, R93. -/
def f32Add (a b : Nat) : Nat × NumCounts := fp32Out (numAdd (fp32In a) (fp32In b))
def f32Sub (a b : Nat) : Nat × NumCounts := fp32Out (numAdd (fp32In a) (numNeg (fp32In b)))
def f32Mul (a b : Nat) : Nat × NumCounts := fp32Out (numMul (fp32In a) (fp32In b))
def f32Fma (a b c : Nat) : Nat × NumCounts := fp32Out (numAdd (numMul (fp32In a) (fp32In b)) (fp32In c))
def f32Div (a b : Nat) : Nat × NumCounts := fp32Out (numDiv (fp32In a) (fp32In b))
def f32Sqrt (a : Nat) : Nat × NumCounts := fp32Out (numSqrt (fp32In a))

/-- The canonical FP32 NaN, one, and the sign bit. -/
def f32Nan : Nat := 0x7FC00000
def f32One : Nat := 0x3F800000
def f32SignBit : Nat := 0x80000000

/-- Whether an FP32 code is a NaN. -/
def f32IsNan (c : Nat) : Bool := numIsNan (decodeNum 0 c)

end Sys2Proof.Machine
end

