-- ==== Sys2Proof/Machine/ComputeTypes.lean ====
section
/-! DEFINITION. Cells, vane cores, kernels, chains and runs as data: chapters 04, 05 and 06. -/

namespace Sys2Proof.Machine

open Sys2Proof

/-- Why a vane core is stalled, with the codes of R575. -/
inductive Stall where
  | none
  | queueFull
  | bar (scopeRun : Bool) (id : Nat) (mask : Nat)
  | dwait (tag : Nat)
  | fence
  | wclose (window : Nat)
  | extract
  /-- stopped at a BAR that every participant has reached; it goes on when the core may run again -/
  | released
  deriving DecidableEq, Repr

/-- Life of a vane core. -/
inductive CoreLife where
  | idle
  | running
  | ended
  deriving DecidableEq, Repr

/-- A vane core, R143 to R149, R165, R568. -/
structure Core where
  life : CoreLife
  pc : W64
  /-- x1 to x31; an unlisted one holds zero -/
  regs : KMap W64
  /-- the reservation of LR: address and width in bytes -/
  reserved : Option (Nat × Nat)
  cycle : W64
  instret : W64
  /-- CSRs 0x8C0 to 0x8C6 written since the kernel's start; unlisted: their reset values -/
  csrs : KMap W32
  /-- `vkrank` and `vkmask`, R148 -/
  vkrank : W32
  vkmask : W32
  im : Memory
  dm : Memory
  stall : Stall
  /-- DMA tags in use, R165 -/
  tags : List Nat
  /-- stopped by a halt, and the REASON of R575 -/
  stopped : Bool
  reason : Nat
  /-- the instruction at the pc was stopped at by a breakpoint and runs without hitting it again, R573 -/
  passBreak : Bool
  deriving DecidableEq, Repr

/-- A core no run has started. -/
def Core.idle : Core :=
  ⟨.idle, 0, [], none, 0, 0, [], 0, 0, [], [], .none, [], false, 0, false⟩

/-- An array instruction in the queue with what it took at issue, R119. -/
structure ArrayEntry where
  insn : W32
  rs1 : Nat
  rs2 : Nat
  /-- sqfmt, sqk, sqdim, sqascl, sqbscl, sqout -/
  csrs : List W32
  hart : Nat
  pc : W64
  deriving DecidableEq, Repr

/-- A vector instruction in the queue with what it took at issue, R156. -/
structure VectorEntry where
  insn : W32
  rs1 : Nat
  rs2 : Nat
  vcvtcfg : W32
  hart : Nat
  pc : W64
  deriving DecidableEq, Repr

/-- An open remote-write window, R168. -/
structure Window where
  base : Nat
  len : Nat
  deriving DecidableEq, Repr

/-- A cell: array, vector unit, windows, owner. -/
structure Cell where
  /-- accumulators that are not +0, by row × 128 + column; in skinny mode row 16 s + r is row r of partial s -/
  acc : KMap Nat
  skinny : Bool
  group : Nat
  /-- the last instruction the array ran was an MMA: its tail is due before an MLD, MDR or MRS, R116 -/
  tail : Bool
  arrayQ : List ArrayEntry
  vectorQ : List VectorEntry
  /-- vector registers: lanes that are not +0, by register × 128 + lane -/
  vregs : KMap Nat
  /-- lane generators that differ from VSEED 0, R161 -/
  lanes : KMap W32
  windows : KMap Window
  /-- tenant whose data the scratchpad may hold, R19; 0x10000 once that tenant has been destroyed -/
  tenant : Nat
  deriving DecidableEq, Repr

/-- A cell after any reset that restarts it, R126, R140, R161. -/
def Cell.reset : Cell := ⟨[], false, 0, false, [], [], [], [], [], 0⟩

/-- A kernel image, R174. -/
structure Kernel where
  tenant : Nat
  text : Bytes
  data : Bytes
  entry : Nat
  deriving DecidableEq, Repr

/-- A stage entry of a chain, R190. -/
structure ChainStage where
  code : Nat
  mode : Nat
  opndA : Nat
  opndB : Nat
  fmt : Nat
  scheme : Nat
  rnd : Nat
  param0 : Nat
  param1 : Nat
  deriving DecidableEq, Repr

/-- A chain, R188, R189. -/
structure Chain where
  tenant : Nat
  proSide : Nat
  prologue : List ChainStage
  epilogue : List ChainStage
  deriving DecidableEq, Repr

/-- A DMA transfer under way, R164, R165. -/
structure Transfer where
  hart : Nat
  tag : Nat
  pc : W64
  insn : Nat
  src : Nat
  dst : Nat
  srcKind : Nat
  dstKind : Nat
  rows : Nat
  rowBytes : Nat
  srcStride : Nat
  dstStride : Nat
  xpose : Nat
  deriving DecidableEq, Repr

/-- Debug state of a run, R568. -/
inductive HaltState where
  | none
  /-- stopping and draining: the breakpoint that was hit, none for HALT -/
  | draining (brk : Option Nat)
  | halted
  /-- one core is stepping for a STEP command in flight, R574 -/
  | stepping (hart : Nat) (serial : Nat)
  deriving DecidableEq, Repr

/-- A KERNEL_RUN that holds its cells, R177, R178. -/
structure Run where
  serial : Nat
  tenant : Nat
  session : Nat
  commandId : Nat
  handle : Nat
  /-- physical cells by logical rank -/
  cells : List Nat
  coreMask : Nat
  numeric : Nat
  /-- uncommitted writes to the tiers, by address, R218 -/
  writes : KMap Byte
  /-- uncommitted poison marks carried by DMA, R592 -/
  marks : List (Nat × Nat)
  counts : NumCounts
  transfers : List Transfer
  halt : HaltState
  /-- as this module's part of a front-wide command it has voted YES; cell-cycles of its charge -/
  voted : Option Nat
  /-- the breakpoint that halted it, R567 -/
  brk : Option Nat := none
  /-- pages of the tiers that its DMA has read, R224 -/
  readPages : List Nat := []
  deriving DecidableEq, Repr

/-- A steering set, R376, R377: the tag of its model, its gain, its coefficients layer by layer; dropped: it serves only the requests that hold it. -/
structure SteerSet where
  tenant : Nat
  tag : Nat
  layers : Nat
  gain : Nat
  coeffs : Bytes
  /-- first address of its storage in Tier 1 -/
  base : Nat
  dropped : Bool
  deriving DecidableEq, Repr

/-- What a LAYER_RUN has computed and not yet made visible: bytes by address, counts, shadow outcomes (sampled, exceeding, skipped), exceeding tiles with their metrics, elements for gauges (slot, row, column, bits). -/
structure LayerResult where
  runs : List (Nat × Bytes)
  counts : NumCounts
  sampled : Nat
  skipped : Nat
  exceeds : List (Nat × Nat)
  gauges : List (Nat × Nat × Nat × Nat)
  deriving DecidableEq, Repr

/-- A partial tile on its way or waiting for it: layer, tile, slice, rows, columns, FP32 codes row by row, R207, R430. -/
structure Partial where
  layer : Nat
  tile : Nat
  slice : Nat
  rows : Nat
  cols : Nat
  data : List Nat
  /-- which half of the heavy tile: 1 for the columns that a SIBLING gate behind the SEND joins to the output columns, R194 (log entry 75) -/
  half : Nat := 0
  /-- it has entered the reduction, and its slot credit is returned, R208, R426 -/
  entered : Bool := false
  deriving DecidableEq, Repr

/-- A TILE that has come before its LAYER_RUN has begun here (log entry 75). -/
structure EarlyTile where
  peer : Nat
  tenant : Nat
  corr : Nat
  part : Partial
  deriving DecidableEq, Repr

/-- A LAYER_RUN that has been admitted, R180 to R185. -/
structure LayerJob where
  serial : Nat
  tenant : Nat
  /-- the layer whose item waits or runs; the number of layers when all have run -/
  layer : Nat
  charged : Nat
  /-- the chains its layers name, as they were at admission, R188 -/
  chains : KMap Chain
  /-- partials received for the reduction, R208 -/
  partials : List Partial
  /-- partials to be sent: destination and partial, oldest first -/
  outbox : List (Nat × Partial)
  /-- TILE channels it holds: destination and channel, R425 -/
  channels : List (Nat × Nat)
  /-- as this module's part of a front-wide command it has voted YES with this result -/
  held : Option LayerResult
  /-- the pages of its outputs, whose shadow frames it holds since its validation, R219 -/
  shadowPages : List Nat := []
  deriving DecidableEq, Repr

/-- The compute side of the module. -/
structure Compute where
  kernels : KMap Kernel
  /-- images of admitted runs by the run's command: an unloaded kernel's admitted runs complete, R175 -/
  images : KMap Kernel
  chains : KMap Chain
  steers : KMap SteerSet
  cores : KMap Core
  cells : KMap Cell
  runs : List Run
  jobs : List LayerJob
  /-- partials for layers that have not begun here, R208 -/
  tiles : List EarlyTile := []
  deriving DecidableEq, Repr

/-- Nothing loaded, every core idle, every cell in its reset state, R537. -/
def Compute.reset : Compute := ⟨[], [], [], [], [], [], [], [], []⟩

end Sys2Proof.Machine
end

