-- ==== Sys2Proof/Machine/CounterTypes.lean ====
section
/-! DEFINITION. The 64-bit counters of the machine by name: each chapter's list, kept by owner (tenant, cell, table or port). -/

namespace Sys2Proof.Machine

open Sys2Proof

/-- The counters. The doc line gives the rule and what the key is. -/
inductive Ctr where
  /-- R23, per tenant -/
  | remotePlacement
  /-- R107, per tenant -/
  | satCount | blockClamp | flushFp32 | nanConverted | nanExcluded | ternReserved
  | shadowSampled | shadowExceed | shadowSkipped | nanTraps
  /-- R142, per cell -/
  | arrStream | arrTail | arrLoad | arrDrain | arrRescale | arrIdle | arrMac | arrSkinny
  /-- R584, key 0 -/
  | fastClamps | frostEntries | deepEntries | thawsFrost | thawsDeep | thawWaitNs | hubRestarts
  /-- R238, per tenant and under 0x10000 for the module -/
  | evictions
  /-- R238, per (tenant × 3 + tier − 1) × 8 + cause -/
  | stalls | stallNs
  /-- R238, per tenant × 3 + tier − 1 -/
  | integrityFails | tierLates
  /-- R395, R414, per tenant -/
  | cellCycles | hubCycles | preempted | preemptWaste | tokensDebited | budgetRefusals | budgetEnds
  | budgetWaits | covered | excess | breaches | breachUnposted
  /-- R263, per table -/
  | lookups | fetchLocal | fetchReplica | fetchRemote | dedupSaved | padding | oorSkipped | emptyBags
  | rowUpdates | rowSuperseded | rowWaits | replPushes | hotRows
  /-- R322, per tenant -/
  | selKeys | selPasses | selEarlyExit | selDuplicates | selDupMismatch | selSentinels
  /-- R345, per tenant -/
  | txtInBytes | txtTokens | utf8Replaced | truncTokens | packDropped | detokTokens | detokBytes | stopMatches
  | grammarSteps | grammarEnds
  /-- R383, per tenant; reqEnds per tenant × 8 + END_REASON -/
  | reqAdmitted | reqEnded | reqEnds | kvPagesShipped | kvAttemptsAborted | draftsProposed | draftsAccepted
  | pageWaits | ringWaits | tokensDiscarded
  deriving DecidableEq, Repr

/-- The counters that are not zero: name, key, value. -/
abbrev Counters := List (Ctr × Nat × W64)

/-- The tenant that a counter under a key counts for; of the counters per cell, per table and of the module there is none. -/
def Ctr.tenant (c : Ctr) (k : Nat) : Option Nat :=
  if ([.arrStream, .arrTail, .arrLoad, .arrDrain, .arrRescale, .arrIdle, .arrMac, .arrSkinny, .fastClamps, .frostEntries, .deepEntries, .thawsFrost,
      .thawsDeep, .thawWaitNs, .hubRestarts, .lookups, .fetchLocal, .fetchReplica, .fetchRemote, .dedupSaved, .padding, .oorSkipped, .emptyBags,
      .rowUpdates, .rowSuperseded, .rowWaits, .replPushes, .hotRows] : List Ctr).any (fun d => decide (d = c)) then none
  else if c = .stalls ∨ c = .stallNs then some (k / 24)
  else if c = .integrityFails ∨ c = .tierLates then some (k / 3)
  else if c = .reqEnds then some (k / 8)
  else some k

/-- The key under which the module's totals of R238 stand: no tenant has it. -/
def moduleKey : Nat := 0x10000

/-- The value of a counter; an unlisted one holds zero. -/
def ctrGet : Counters → Ctr → Nat → W64
  | [], _, _ => 0
  | (c', k', v) :: l, c, k => if c' = c ∧ k' = k then v else ctrGet l c k

/-- A counter set. -/
def ctrSet : Counters → Ctr → Nat → W64 → Counters
  | [], c, k, x => [(c, k, x)]
  | (c', k', v) :: l, c, k, x =>
    if c' = c ∧ k' = k then (c, k, x) :: l else (c', k', v) :: ctrSet l c k x

/-- A counter advanced by `n`, wrapping modulo 2^64. -/
def ctrAdd (l : Counters) (c : Ctr) (k n : Nat) : Counters :=
  if n = 0 then l else ctrSet l c k (ctrGet l c k + BitVec.ofNat 64 n)

end Sys2Proof.Machine
end

