-- ==== Sys2Proof/Machine/DebugTypes.lean ====
section
/-! DEFINITION. Debug and telemetry as data: track rings, breakpoints, gauges, queue marks (chapter 20). -/

namespace Sys2Proof.Machine

open Sys2Proof

/-- A track record, R577. -/
structure TrackRec where
  time : Nat
  seq : Nat
  code : Nat
  redacted : Bool
  unit : Nat
  tenant : Nat
  body : Bytes
  deriving DecidableEq, Repr

/-- A track ring: the SEQ of its next record and its newest 256 records, oldest first, R576. -/
structure Track where
  next : Nat
  recs : List TrackRec
  deriving DecidableEq, Repr

/-- A breakpoint, R566. -/
structure Breakpoint where
  id : Nat
  kind : Nat
  core : Nat
  rank : Nat
  handle : Nat
  addr : Nat
  ring : Nat
  session : Nat
  deriving DecidableEq, Repr

/-- A gauge slot, R585: exact sums in units of 2^−149 and 2^−298. -/
structure Gauge where
  armed : Bool
  elements : W64
  nans : W64
  infs : W64
  min : Nat
  max : Nat
  sum : Int
  sumSq : Nat
  digest : W64
  tiles : W32
  deriving DecidableEq, Repr

/-- A cleared slot, R586. -/
def Gauge.cleared : Gauge := ⟨false, 0, 0, 0, 0x7F800000, 0xFF800000, 0, 0, 0, 0⟩

/-- Debug and telemetry. -/
structure Debug where
  /-- track rings by unit ID; a cell's four classes share the ring of its array -/
  tracks : KMap Track
  breaks : List Breakpoint
  /-- isobar cores halted -/
  isobarHalted : List Nat
  /-- HALT commands in flight waiting for the drain of a run: the two serials -/
  haltWaits : List (Nat × Nat)
  /-- gauge slots by tenant × 64 + slot -/
  gauges : KMap Gauge
  /-- HIGH and FULL of a queue by unit ID × 8 + queue, R582 -/
  marks : KMap (Nat × Nat)
  deriving DecidableEq, Repr

/-- Nothing recorded, set or armed. -/
def Debug.reset : Debug := ⟨[], [], [], [], [], []⟩

end Sys2Proof.Machine
end

