-- ==== Sys2Proof/Machine/ProtocolTypes.lean ====
section
/-! DEFINITION. The command protocol of chapter 02 and the ring state of chapter 16 as data: status codes, opcodes, headers, rings, sessions, transactions, commands in flight. -/

namespace Sys2Proof.Machine

open Sys2Proof

/-- The status codes of R77. -/
inductive Status where
  /-- 0x0000: Completed in full -/
  | ok
  /-- 0x0001: Completed with fewer results than asked; counts as the command's chapter states -/
  | okPartial
  /-- 0x0100: Opcode not in the index -/
  | badOpcode
  /-- 0x0101: Field value invalid, or reserved field non-zero -/
  | badParam
  /-- 0x0102: Length field inconsistent or beyond its limit -/
  | badLength
  /-- 0x0103: Format code reserved or not accepted here -/
  | badFormat
  /-- 0x0104: Address, identifier or value outside its range -/
  | outOfRange
  /-- 0x0200: Unit disabled or resource exhausted -/
  | noResource
  /-- 0x0201: Named completion ring too small for the command's records -/
  | ringFull
  /-- 0x0202: Fixed table or membership limit reached -/
  | tableFull
  /-- 0x0203: No physical backing for a compressed-tier write -/
  | tierFull
  /-- 0x0204: Chain hold area exceeded, found at validation -/
  | holdOverflow
  /-- 0x0300: Tag or credential did not verify -/
  | authFail
  /-- 0x0301: Session not open, or command not allowed in session 0 -/
  | noSession
  /-- 0x0302: Session kind, tenant, role or transaction rule forbids the command -/
  | notPermitted
  /-- 0x0303: Sequence already used or below the window -/
  | replay
  /-- 0x0304: Object or facility locked by security state -/
  | locked
  /-- 0x0400: Transaction neither open nor remembered, or already committed -/
  | txnUnknown
  /-- 0x0401: Version conflict or R6 condition (DETAIL 0); transaction closing (DETAIL 1, R70); prepared transaction aborted by an epoch change while every participant remained reachable (DETAIL 2, R75) -/
  | txnConflict
  /-- 0x0402: Transaction did not commit -/
  | txnAborted
  /-- 0x0403: Transaction limit exceeded -/
  | txnLimit
  /-- 0x0500: First NaN trapped -/
  | nanTrap
  /-- 0x0501: Input carries poison -/
  | dataPoisoned
  /-- 0x0502: Integrity tag failed on a tier or link -/
  | integrityFail
  /-- 0x0503: Saturation count beyond its limit -/
  | saturationLimit
  /-- 0x0600: A needed member did not answer -/
  | memberUnreachable
  /-- 0x0601: Shared state cannot change on this side -/
  | partitionedReadonly
  /-- 0x0602: Sender or member holds a stale epoch -/
  | epochStale
  /-- 0x0700: Tier stall exceeded its limit -/
  | tierLate
  /-- 0x0701: Tier access failed -/
  | tierError
  /-- 0x0800: Request cancelled -/
  | cancelled
  /-- 0x0801: Tenant budget spent in the window -/
  | budgetExhausted
  /-- 0x0802: Guarantee cannot be admitted -/
  | admissionRefused
  /-- 0x0804: Request deadline passed -/
  | deadlineMissed
  /-- 0x0F00: Device fault; see "Faults and Recovery" -/
  | internalFault
  /-- 0x0F01: Configuration parity mismatch -/
  | configParity
  deriving DecidableEq, Repr

/-- The 16-bit code of a status, R77. -/
def Status.code : Status → Nat
  | .ok => 0x0000
  | .okPartial => 0x0001
  | .badOpcode => 0x0100
  | .badParam => 0x0101
  | .badLength => 0x0102
  | .badFormat => 0x0103
  | .outOfRange => 0x0104
  | .noResource => 0x0200
  | .ringFull => 0x0201
  | .tableFull => 0x0202
  | .tierFull => 0x0203
  | .holdOverflow => 0x0204
  | .authFail => 0x0300
  | .noSession => 0x0301
  | .notPermitted => 0x0302
  | .replay => 0x0303
  | .locked => 0x0304
  | .txnUnknown => 0x0400
  | .txnConflict => 0x0401
  | .txnAborted => 0x0402
  | .txnLimit => 0x0403
  | .nanTrap => 0x0500
  | .dataPoisoned => 0x0501
  | .integrityFail => 0x0502
  | .saturationLimit => 0x0503
  | .memberUnreachable => 0x0600
  | .partitionedReadonly => 0x0601
  | .epochStale => 0x0602
  | .tierLate => 0x0700
  | .tierError => 0x0701
  | .cancelled => 0x0800
  | .budgetExhausted => 0x0801
  | .admissionRefused => 0x0802
  | .deadlineMissed => 0x0804
  | .internalFault => 0x0F00
  | .configParity => 0x0F01

/-- The opcodes of the index of R60. -/
inductive Opcode where
  /-- 0x0001 -/
  | sessionOpen
  /-- 0x0002 -/
  | sessionClose
  /-- 0x0003 -/
  | attestReport
  /-- 0x0004 -/
  | keyInstall
  /-- 0x0005 -/
  | keyRetire
  /-- 0x0006 -/
  | tenantCreate
  /-- 0x0007 -/
  | tenantDestroy
  /-- 0x0008 -/
  | debugAuthorize
  /-- 0x0101 -/
  | txnBegin
  /-- 0x0102 -/
  | txnSet
  /-- 0x0103 -/
  | txnCommit
  /-- 0x0104 -/
  | txnRollback
  /-- 0x0105 -/
  | configGet
  /-- 0x0106 -/
  | roleSet
  /-- 0x0201 -/
  | memAlloc
  /-- 0x0202 -/
  | memFree
  /-- 0x0203 -/
  | memCopy
  /-- 0x0204 -/
  | reside
  /-- 0x0205 -/
  | demote
  /-- 0x0206 -/
  | flush
  /-- 0x0207 -/
  | memFill
  /-- 0x0208 -/
  | tierStats
  /-- 0x0301 -/
  | modelLoad
  /-- 0x0302 -/
  | modelUnload
  /-- 0x0303 -/
  | steerSetLoad
  /-- 0x0304 -/
  | steerSetDrop
  /-- 0x0305 -/
  | kernelLoad
  /-- 0x0401 -/
  | layerRun
  /-- 0x0402 -/
  | kernelRun
  /-- 0x0403 -/
  | chainDefine
  /-- 0x0501 -/
  | tableCreate
  /-- 0x0502 -/
  | tableDrop
  /-- 0x0503 -/
  | rowsWrite
  /-- 0x0504 -/
  | bagLookup
  /-- 0x0505 -/
  | hotPolicySet
  /-- 0x0506 -/
  | rowsRead
  /-- 0x0601 -/
  | indexCreate
  /-- 0x0602 -/
  | indexDrop
  /-- 0x0603 -/
  | indexLoad
  /-- 0x0604 -/
  | vecInsert
  /-- 0x0605 -/
  | vecDelete
  /-- 0x0606 -/
  | search
  /-- 0x0607 -/
  | indexMerge
  /-- 0x0608 -/
  | indexStats
  /-- 0x0701 -/
  | selectTopk
  /-- 0x0702 -/
  | selectMerge
  /-- 0x0801 -/
  | tokenizerLoad
  /-- 0x0802 -/
  | tokenize
  /-- 0x0803 -/
  | detokStreamOpen
  /-- 0x0804 -/
  | packPrompt
  /-- 0x0805 -/
  | grammarLoad
  /-- 0x0806 -/
  | stopSet
  /-- 0x0901 -/
  | requestSubmit
  /-- 0x0902 -/
  | requestCancel
  /-- 0x0903 -/
  | requestStatus
  /-- 0x0905 -/
  | kvExport
  /-- 0x0906 -/
  | kvImport
  /-- 0x0907 -/
  | pipelineDefine
  /-- 0x0A01 -/
  | sharesSet
  /-- 0x0A02 -/
  | budgetSet
  /-- 0x0A03 -/
  | contractSet
  /-- 0x0A04 -/
  | accountRead
  /-- 0x0B01 -/
  | frontForm
  /-- 0x0B02 -/
  | frontJoin
  /-- 0x0B03 -/
  | frontLeave
  /-- 0x0B04 -/
  | frontView
  /-- 0x0B05 -/
  | linkConfig
  /-- 0x0B06 -/
  | linkStatus
  /-- 0x0B07 -/
  | anchorSet
  /-- 0x0C01 -/
  | breakSet
  /-- 0x0C02 -/
  | breakClear
  /-- 0x0C03 -/
  | halt
  /-- 0x0C04 -/
  | resume
  /-- 0x0C05 -/
  | step
  /-- 0x0C06 -/
  | stateRead
  /-- 0x0C07 -/
  | trackRead
  /-- 0x0C08 -/
  | gaugeSet
  /-- 0x0D01 -/
  | countersRead
  /-- 0x0D02 -/
  | histogramRead
  /-- 0x0D03 -/
  | faultLogRead
  /-- 0x0D04 -/
  | sensorsRead
  /-- 0x0E01 -/
  | powerCapSet
  /-- 0x0E02 -/
  | statePolicySet
  /-- 0x0E03 -/
  | fwStage
  /-- 0x0E04 -/
  | fwActivate
  /-- 0x0E05 -/
  | memberReset
  deriving DecidableEq, Repr

/-- Transaction rule of an opcode, R60. -/
inductive TxnRule where
  | no
  | allowed
  | required
  | names
  deriving DecidableEq, Repr

/-- One row of the opcode index, R60: who may issue it (bootstrap, operator, tenant) and its transaction rule. -/
structure OpcodeRow where
  op : Opcode
  code : Nat
  session0 : Bool
  operator : Bool
  tenant : Bool
  rule : TxnRule
  deriving DecidableEq, Repr

/-- Part 0 of the opcode index, R60. -/
def opcodeIndex0 : List OpcodeRow := [
  ⟨.sessionOpen, 0x0001, true, false, false, .no⟩,
  ⟨.sessionClose, 0x0002, false, true, true, .no⟩,
  ⟨.attestReport, 0x0003, true, true, true, .no⟩,
  ⟨.keyInstall, 0x0004, false, true, true, .allowed⟩,
  ⟨.keyRetire, 0x0005, false, true, true, .allowed⟩,
  ⟨.tenantCreate, 0x0006, false, true, false, .allowed⟩,
  ⟨.tenantDestroy, 0x0007, false, true, false, .allowed⟩,
  ⟨.debugAuthorize, 0x0008, false, true, false, .no⟩,
  ⟨.txnBegin, 0x0101, false, true, true, .no⟩,
  ⟨.txnSet, 0x0102, false, true, true, .names⟩,
  ⟨.txnCommit, 0x0103, false, true, true, .names⟩,
  ⟨.txnRollback, 0x0104, false, true, true, .names⟩,
  ⟨.configGet, 0x0105, true, true, true, .no⟩,
  ⟨.roleSet, 0x0106, false, true, false, .required⟩,
  ⟨.memAlloc, 0x0201, false, true, true, .allowed⟩,
  ⟨.memFree, 0x0202, false, true, true, .allowed⟩,
  ⟨.memCopy, 0x0203, false, true, true, .no⟩,
  ⟨.reside, 0x0204, false, true, true, .no⟩,
  ⟨.demote, 0x0205, false, true, true, .no⟩,
  ⟨.flush, 0x0206, false, true, true, .no⟩,
  ⟨.memFill, 0x0207, false, true, true, .no⟩,
  ⟨.tierStats, 0x0208, false, true, true, .no⟩,
  ⟨.modelLoad, 0x0301, false, true, true, .no⟩,
  ⟨.modelUnload, 0x0302, false, true, true, .allowed⟩]

/-- Part 1 of the opcode index, R60. -/
def opcodeIndex1 : List OpcodeRow := [
  ⟨.steerSetLoad, 0x0303, false, true, true, .allowed⟩,
  ⟨.steerSetDrop, 0x0304, false, true, true, .allowed⟩,
  ⟨.kernelLoad, 0x0305, false, true, true, .no⟩,
  ⟨.layerRun, 0x0401, false, true, true, .no⟩,
  ⟨.kernelRun, 0x0402, false, true, true, .no⟩,
  ⟨.chainDefine, 0x0403, false, true, true, .allowed⟩,
  ⟨.tableCreate, 0x0501, false, true, true, .allowed⟩,
  ⟨.tableDrop, 0x0502, false, true, true, .allowed⟩,
  ⟨.rowsWrite, 0x0503, false, true, true, .no⟩,
  ⟨.bagLookup, 0x0504, false, true, true, .no⟩,
  ⟨.hotPolicySet, 0x0505, false, true, false, .allowed⟩,
  ⟨.rowsRead, 0x0506, false, true, true, .no⟩,
  ⟨.indexCreate, 0x0601, false, true, true, .allowed⟩,
  ⟨.indexDrop, 0x0602, false, true, true, .allowed⟩,
  ⟨.indexLoad, 0x0603, false, true, true, .no⟩,
  ⟨.vecInsert, 0x0604, false, true, true, .no⟩,
  ⟨.vecDelete, 0x0605, false, true, true, .no⟩,
  ⟨.search, 0x0606, false, true, true, .no⟩,
  ⟨.indexMerge, 0x0607, false, true, true, .no⟩,
  ⟨.indexStats, 0x0608, false, true, true, .no⟩,
  ⟨.selectTopk, 0x0701, false, true, true, .no⟩,
  ⟨.selectMerge, 0x0702, false, true, true, .no⟩,
  ⟨.tokenizerLoad, 0x0801, false, true, true, .no⟩,
  ⟨.tokenize, 0x0802, false, true, true, .no⟩]

/-- Part 2 of the opcode index, R60. -/
def opcodeIndex2 : List OpcodeRow := [
  ⟨.detokStreamOpen, 0x0803, false, true, true, .no⟩,
  ⟨.packPrompt, 0x0804, false, true, true, .no⟩,
  ⟨.grammarLoad, 0x0805, false, true, true, .no⟩,
  ⟨.stopSet, 0x0806, false, true, true, .allowed⟩,
  ⟨.requestSubmit, 0x0901, false, false, true, .no⟩,
  ⟨.requestCancel, 0x0902, false, true, true, .no⟩,
  ⟨.requestStatus, 0x0903, false, true, true, .no⟩,
  ⟨.kvExport, 0x0905, false, true, true, .no⟩,
  ⟨.kvImport, 0x0906, false, true, true, .no⟩,
  ⟨.pipelineDefine, 0x0907, false, true, false, .allowed⟩,
  ⟨.sharesSet, 0x0A01, false, true, false, .required⟩,
  ⟨.budgetSet, 0x0A02, false, true, false, .allowed⟩,
  ⟨.contractSet, 0x0A03, false, true, false, .allowed⟩,
  ⟨.accountRead, 0x0A04, false, true, true, .no⟩,
  ⟨.frontForm, 0x0B01, false, true, false, .required⟩,
  ⟨.frontJoin, 0x0B02, false, true, false, .required⟩,
  ⟨.frontLeave, 0x0B03, false, true, false, .required⟩,
  ⟨.frontView, 0x0B04, false, true, false, .no⟩,
  ⟨.linkConfig, 0x0B05, false, true, false, .required⟩,
  ⟨.linkStatus, 0x0B06, false, true, false, .no⟩,
  ⟨.anchorSet, 0x0B07, false, true, false, .required⟩,
  ⟨.breakSet, 0x0C01, false, true, false, .no⟩,
  ⟨.breakClear, 0x0C02, false, true, false, .no⟩,
  ⟨.halt, 0x0C03, false, true, false, .no⟩]

/-- Part 3 of the opcode index, R60. -/
def opcodeIndex3 : List OpcodeRow := [
  ⟨.resume, 0x0C04, false, true, false, .no⟩,
  ⟨.step, 0x0C05, false, true, false, .no⟩,
  ⟨.stateRead, 0x0C06, false, true, false, .no⟩,
  ⟨.trackRead, 0x0C07, false, true, false, .no⟩,
  ⟨.gaugeSet, 0x0C08, false, true, true, .no⟩,
  ⟨.countersRead, 0x0D01, false, true, true, .no⟩,
  ⟨.histogramRead, 0x0D02, false, true, true, .no⟩,
  ⟨.faultLogRead, 0x0D03, false, true, false, .no⟩,
  ⟨.sensorsRead, 0x0D04, false, true, false, .no⟩,
  ⟨.powerCapSet, 0x0E01, false, true, false, .required⟩,
  ⟨.statePolicySet, 0x0E02, false, true, false, .required⟩,
  ⟨.fwStage, 0x0E03, false, true, false, .no⟩,
  ⟨.fwActivate, 0x0E04, false, true, false, .no⟩,
  ⟨.memberReset, 0x0E05, false, true, false, .no⟩]

/-- The complete opcode index, R60. -/
def opcodeIndex : List OpcodeRow :=
  opcodeIndex0 ++ opcodeIndex1 ++ opcodeIndex2 ++ opcodeIndex3
/-- The fields of the command header, R43 and R44. -/
structure Header where
  version : Nat
  hdrLen : Nat
  opcode : Nat
  paramEnc : Bool
  inTxn : Bool
  fence : Bool
  /-- FLAGS[15:3], reserved -/
  flagsRsv : Nat
  paramLen : Nat
  commandId : Nat
  seq : Nat
  /-- the eight entries of the scope path, entry 0 first, R33 -/
  scope : List Nat
  sessionId : Nat
  txnId : Nat
  replyRing : Nat
  prio : Nat
  scopeDepth : Nat
  deriving DecidableEq, Repr

/-- Where a command came from: a submission ring of the host, or a peer that forwarded it (R36). -/
inductive Origin where
  | host (ring : Nat)
  | peer (moduleId : Nat) (key : Nat)
  deriving DecidableEq, Repr

/-- Name of a front-wide transaction or command, R75: coordinator, session, transaction (or COMMAND_ID for a command run alone). -/
structure TxnKey where
  coord : Nat
  session : Nat
  txn : Nat
  deriving DecidableEq, Repr

/-- A command taken and not yet posted, R56. -/
structure Flight where
  /-- the model's name for it: the rows of a command carry it -/
  serial : Nat
  origin : Origin
  op : Opcode
  hdr : Header
  /-- the parameters in clear -/
  params : Bytes
  tenant : Nat
  /-- front time at which it was taken -/
  taken : Nat
  /-- it waits behind a fence, R57 -/
  waiting : Bool
  /-- it has begun and its own later event ends it -/
  running : Bool
  /-- slots reserved for it in its reply ring, R53 -/
  reserved : Nat
  /-- it is this module's part of a front-wide command: its end is a vote, R72 -/
  prep : Option TxnKey
  /-- what the entry member carried here with it, or copied of it at validation: data its parameters name by address -/
  content : Option Bytes := none
  /-- it has begun, though it waits: commands of one ring begin in ring order, R57 -/
  begun : Bool := false
  deriving DecidableEq, Repr

/-- State of a ring, R487. -/
inductive RingState where
  | disabled
  | enabled
  | error
  deriving DecidableEq, Repr

/-- A submission ring: doorbell page (R487), configuration page (R489) and the halt of R507. -/
structure SubRing where
  tail : W32
  head : W32
  state : RingState
  base : W64
  log2 : Nat
  defCq : Nat
  shadow : W64
  enable : Bool
  err : Nat
  halted : Bool
  /-- page offsets (doorbell offsets from 0x1000) written since the halt, R597 -/
  rewritten : List Nat
  deriving DecidableEq, Repr

/-- A completion ring: doorbell page, configuration page, reservations (R53), coalescing (R496), generation (R475). -/
structure CplRing where
  head : W32
  tail : W32
  state : RingState
  gen : Nat
  base : W64
  log2 : Nat
  vector : Nat
  coalCount : Nat
  coalUs : Nat
  enable : Bool
  irqEn : Bool
  err : Nat
  dropped : Nat
  /-- an enable has been accepted since the reset that last restarted Akent, R490 -/
  onceEnabled : Bool
  reserved : Nat
  /-- records posted since the last interrupt -/
  unsignalled : Nat
  /-- front time of the first of them -/
  firstUnsignalled : Nat
  halted : Bool
  rewritten : List Nat
  deriving DecidableEq, Repr

/-- The reset value of a submission ring, R487 and R489. -/
def SubRing.reset : SubRing := ⟨0, 0, .disabled, 0, 0, 0, 0, false, 0, false, []⟩

/-- The reset value of a completion ring, R487 and R489. -/
def CplRing.reset : CplRing :=
  ⟨0, 0, .disabled, 0, 0, 0, 0, 0, 0, false, false, 0, 0, false, 0, 0, 0, false, []⟩

/-- An open session: R46, R47, R62, R70, R470 to R475. -/
structure Session where
  id : Nat
  tenant : Nat
  /-- H of R47 -/
  high : Nat
  /-- sequences accepted within the window of R47 -/
  accepted : List Nat
  nextTxn : Nat
  /-- the last 16 ended transactions, newest first, and whether each committed, R70 -/
  ended : List (Nat × Bool)
  keyCmd : BitVec 256
  keyRep : BitVec 256
  /-- SESSION_CLOSE has been taken, R472 -/
  closing : Bool
  deriving DecidableEq, Repr

/-- Kinds of configuration object, R67. -/
inductive ObjKind where
  | item | role | tenant | slot | alloc | model | steer | chain | stopSet | table | index
  | pipeline | shares | budget | contract | view | port | cap | policy | tierQuota | handle
  /-- stored content, which is locked but has no version: a tenant's memory, a table's rows, an index's vectors, R58, R72 -/
  | memory | rows | vectors
  deriving DecidableEq, Repr

/-- A configuration object (or stored content): its kind and its number, R67. -/
structure Obj where
  kind : ObjKind
  id : Nat
  deriving DecidableEq, Repr

/-- One configuration item of a TXN_SET, R65. -/
structure Item where
  id : Nat
  value : Bytes
  deriving DecidableEq, Repr

/-- One staged part of a transaction, R64 to R67, with the object versions recorded when it was staged. -/
inductive Part where
  | command (f : Flight) (versions : List (Obj × Nat))
  | items (f : Flight) (l : List Item) (versions : List (Obj × Nat))
  deriving DecidableEq, Repr

/-- States of a transaction, R71; an ended one is no longer listed but among its session's remembered outcomes. -/
inductive TxnState where
  | open
  | committing
  deriving DecidableEq, Repr

/-- A transaction, R62 to R71. -/
structure Txn where
  id : Nat
  session : Nat
  tenant : Nat
  scope : List Nat
  scopeDepth : Nat
  timeoutMs : Nat
  /-- front time of the last staging, TXN_SET or begin, R69 -/
  touched : Nat
  state : TxnState
  parts : List Part
  deriving DecidableEq, Repr

/-- A status reply as a command decides it, R48 and R49. -/
structure Reply where
  status : Status
  detail : Nat := 0
  result : Bytes := []
  deriving DecidableEq, Repr

/-- A record as posted, R48: what stands in the ring, and the result in clear, which only the holder of the keys sees. -/
structure Record where
  ring : Nat
  pos : W32
  phase : Bool
  commandId : Nat
  status : Status
  event : Bool
  staged : Bool
  time : Nat
  detail : Nat
  result : Bytes
  /-- the result bytes as written from byte 32 -/
  body : Bytes
  tag : BitVec 128
  deriving DecidableEq, Repr

/-- How a command's own chapter ends it when it runs. -/
inductive Reject where
  | mk (status : Status) (detail : Nat)
  deriving DecidableEq, Repr

end Sys2Proof.Machine
end

