-- ==== Sys2Proof/Machine/FabricTypes.lean ====
section
/-! DEFINITION. Ports, channels, views, two-phase commit and front time as data: chapter 14, R36 to R40, R72 to R76. -/

namespace Sys2Proof.Machine

open Sys2Proof

/-- Modes of a port, R416, R438. -/
inductive PortMode where
  | off
  | jet
  | eth
  deriving DecidableEq, Repr

/-- States of a port, R439. -/
inductive PortState where
  | down
  | training
  | up
  | degraded
  | addrConflict
  deriving DecidableEq, Repr

/-- One port: its configuration (R438), status and counters (R439), flit state (R420 to R422), IPv6 state (R433). -/
structure Port where
  mode : PortMode
  dscp : Nat
  maskLen : Nat
  mtu : Nat
  udpPort : Nat
  addr : Bytes
  gateway : Bytes
  state : PortState
  width : Nat
  /-- lanes lost since the last full training, by lane within the port -/
  lostLanes : List Nat
  /-- signal is present -/
  signal : Bool
  /-- the next training tries width 4 first, R419 -/
  fullTraining : Bool
  /-- a lane or the signal has been lost and the port has not come up since, R419 -/
  lossDue : Bool
  retrains : Nat
  neighbourUid : Nat
  neighbourPort : Nat
  fecCorrected : W64
  fecUncorrected : W64
  crcFails : W64
  replays : W64
  tagFails : W64
  dropped : W64
  /-- SEQ of the last flit sent, SEQ of the last flit received intact and in order -/
  txSeq : Nat
  rxSeq : Nat
  /-- SEQ of the last flit the other side has acknowledged, R420 -/
  ackSeq : Nat
  /-- the DATA flits kept for replay, newest first, at most 1,024, R422: SEQ, FFLAGS and payload -/
  kept : List (Nat × Nat × Bytes)
  /-- the SEQ the last NAKs named and how many in succession -/
  nakSeq : Nat
  nakRun : Nat
  /-- duplicate address detection is under way -/
  detecting : Bool
  /-- resolved neighbours: address and link address, R433 -/
  neighbours : List (Bytes × Bytes)
  tooBig : Nat
  deriving DecidableEq, Repr

/-- A port after reset: OFF, R537. -/
def Port.reset : Port where
  mode := .off
  dscp := 0
  maskLen := 0
  mtu := 0
  udpPort := 0
  addr := []
  gateway := []
  state := .down
  width := 0
  lostLanes := []
  signal := false
  fullTraining := true
  lossDue := false
  retrains := 0
  neighbourUid := 0
  neighbourPort := 0
  fecCorrected := 0
  fecUncorrected := 0
  crcFails := 0
  replays := 0
  tagFails := 0
  dropped := 0
  txSeq := 0
  rxSeq := 0
  ackSeq := 0
  kept := []
  nakSeq := 0
  nakRun := 0
  detecting := false
  neighbours := []
  tooBig := 0

/-- A message sent and not yet acknowledged, R427: its sequence, its encrypted bytes, how far acknowledged, resends of the first open segment. -/
structure Outgoing where
  seq : Nat
  bytes : Bytes
  /-- bytes handed to the ports so far -/
  sent : Nat
  acked : Nat
  resends : Nat
  deriving DecidableEq, Repr

/-- One channel to a peer, both directions, R424 to R428. -/
structure Channel where
  /-- MSG_SEQ of the next message sent -/
  txSeq : Nat
  unacked : List Outgoing
  /-- credit units in hand, R426 -/
  credit : Nat
  slotCredit : Bool
  /-- next message and offset expected -/
  rxSeq : Nat
  rxOffset : Nat
  rxBytes : Bytes
  duplicates : Nat
  /-- tag failures in succession -/
  tagRun : Nat
  closed : Bool
  /-- as the receiver of a TILE whose slot is taken: tenant and CORR of its command, R426 -/
  slotOf : Option (Nat × Nat) := none
  deriving DecidableEq, Repr

/-- A channel as it opens, R424, R426. -/
def Channel.reset : Channel := ⟨1, [], 64, true, 1, 0, [], 0, 0, false, none⟩

/-- A direct member of a front: a module by its ID, or a sub-front by its node in the view. -/
inductive MemberRef where
  | module (id : Nat)
  | front (node : Nat)
  deriving DecidableEq, Repr

/-- A front of the view: node 0 is the top front; a sub-front names its parent node and its front index. -/
structure FrontNode where
  parent : Nat
  index : Nat
  anchor : MemberRef
  deriving DecidableEq, Repr

/-- A module of the view, R445: the node it is a direct member of, its UID (0 for this module itself, whose UID is Config.deviceUid), and the address by which it is reached. -/
structure ModuleEntry where
  node : Nat
  uid : Nat
  addr : Bytes
  deriving DecidableEq, Repr

/-- Rights, R440. -/
inductive Rights where
  | full
  | readonly
  | stale
  deriving DecidableEq, Repr

/-- The installed view, R440, R445. -/
structure View where
  nodes : KMap FrontNode
  modules : KMap ModuleEntry
  self : Nat
  epoch : Nat
  rights : Rights
  installed : Nat
  /-- the reachable set of the installed view -/
  reach : List Nat
  deriving DecidableEq, Repr

/-- What is known of a peer by its messages, R446, R430. -/
structure Peer where
  lastMessage : Nat
  role : Nat
  epoch : Nat
  accepted : Nat
  /-- declared unreachable at once, R428 -/
  cut : Bool
  deriving DecidableEq, Repr

/-- A prepared entry at a participant, R72: the parts it will apply, the objects it locks. -/
structure Prepared where
  key : TxnKey
  parts : List Part
  locks : List Obj
  vote : Reply
  /-- CORR of the messages about it -/
  corr : Nat
  /-- the counter of free values at which it was judged: what the device chose then it keeps at the commit (log entry 69) -/
  judged : Nat := 0
  deriving DecidableEq, Repr

/-- Stages of a coordinator, R72 to R74. -/
inductive CoordStage where
  | preparing
  /-- a NO vote or the 100 ms have aborted it; the votes still awaited decide its status, R73 -/
  | aborting
  | deciding
  | committing
  deriving DecidableEq, Repr

/-- A coordinator's record of a front-wide commit. -/
structure Coord where
  key : TxnKey
  /-- the command in flight that started it: TXN_COMMIT or the command itself -/
  serial : Nat
  parts : List Part
  participants : List Nat
  /-- votes received: module, status, detail -/
  votes : List (Nat × Reply)
  /-- front time of PREPARE -/
  prepared : Nat
  stage : CoordStage
  acks : List Nat
  /-- front time at which the decision became final -/
  decided : Nat
  /-- replies to COMMIT: module, COMMAND_ID of the part, reply -/
  replies : List (Nat × Nat × Reply)
  deriving DecidableEq, Repr

/-- A command whose members' replies the entry member gathers, R36, R39. -/
structure Gather where
  serial : Nat
  awaited : List Nat
  replies : List (Nat × Reply)
  deriving DecidableEq, Repr

/-- A commit decision record, R74, R75. -/
structure Decision where
  key : TxnKey
  epoch : Nat
  deriving DecidableEq, Repr

/-- A proposal the leader waits on, R448. -/
structure Proposal where
  epoch : Nat
  set : List Nat
  acceptors : List Nat
  records : List TxnKey
  /-- management tick at which it was sent -/
  sent : Nat
  deriving DecidableEq, Repr

/-- One entry of a FRONT_FORM or FRONT_JOIN, R441, R442, and what its candidacy answer brought: the view of its top front, and whether a transaction is prepared there. -/
structure FormEntry where
  kind : Nat
  id : Nat
  uid : Nat
  addr : Bytes
  answer : Option (View × Bool)
  deriving DecidableEq, Repr

/-- A TXN_COMMIT whose FRONT_FORM or ADMIT waits for candidacies, R604: its command in flight, the part, front time at which it was taken. -/
structure CandidacyWait where
  serial : Nat
  part : Nat
  since : Nat
  entries : List FormEntry
  deriving DecidableEq, Repr

/-- Links, fronts and front time. -/
structure Fabric where
  ports : KMap Port
  /-- adjacencies reported by members: module, its port, neighbour UID, R423 -/
  adjacencies : List (Nat × Nat × Nat)
  /-- routes: destination module, next hop module, port, hops -/
  routes : List (Nat × Nat × Nat × Nat)
  /-- channels by peer × 4,096 + channel -/
  channels : KMap Channel
  channelWaits : W64
  malformed : W64
  view : View
  peers : KMap Peer
  /-- highest epoch this module has accepted a proposal for -/
  accepted : Nat
  /-- while STALE: a current view has been fetched and the next proposal may be accepted, R450 -/
  caughtUp : Bool
  /-- a PROPOSE that arrived while this module was STALE and catching up: its sender, epoch and body, R448 -/
  held : Option (Nat × Nat × Bytes)
  proposal : Option Proposal
  /-- the leader of the proposal last accepted, while its install is awaited -/
  acceptedLeader : Option Nat
  /-- own candidacy: sponsor UID and front time, R442 -/
  candidacy : Option (Nat × Nat)
  waits : List CandidacyWait
  gathers : List Gather
  coords : List Coord
  prepared : List Prepared
  /-- ABORTs received before their PREPARE, R73: coordinator, TXN_ID, CORR -/
  aborted : List (Nat × Nat × Nat)
  /-- PREPAREs answered NO whose ABORT is still to come, likewise named -/
  refused : List (Nat × Nat × Nat)
  /-- commits that take this module out of its front, from their PREPARE on, R443 -/
  leaving : List TxnKey
  /-- the views under formation that this module takes part in, by commit, R441, R442 -/
  forming : List (TxnKey × View)
  decisions : List Decision
  /-- offset from the time source in ns, and since when it exceeds 1 ms, R436 -/
  offsetNs : Int
  offsetSince : Option Nat
  /-- stamps of the exchange under way: SYNC sent, SYNC received, DELAY_REQ sent, R435 -/
  t1 : Nat
  t2 : Nat
  t3 : Nat
  /-- module items of R437 -/
  lossMs : Nat
  ethRtoUs : Nat
  ptpDomain : Nat
  ppsEnable : Nat
  deriving DecidableEq, Repr

/-- A lone module: the sole member of its own top front, module ID 0, epoch 1, full rights (R26, R440). -/
def View.lone : View where
  nodes := [(0, ⟨0, 0, .module 0⟩)]
  modules := [(0, ⟨0, 0, []⟩)]
  self := 0
  epoch := 1
  rights := .full
  installed := 0
  reach := [0]

/-- The fabric after reset: every port OFF, a lone top front, items at their defaults (R437, R537). -/
def Fabric.reset : Fabric where
  ports := []
  adjacencies := []
  routes := []
  channels := []
  channelWaits := 0
  malformed := 0
  view := View.lone
  peers := []
  accepted := 1
  caughtUp := false
  held := none
  proposal := none
  acceptedLeader := none
  candidacy := none
  waits := []
  gathers := []
  coords := []
  prepared := []
  aborted := []
  refused := []
  leaving := []
  forming := []
  decisions := []
  offsetNs := 0
  offsetSince := none
  t1 := 0
  t2 := 0
  t3 := 0
  lossMs := 5
  ethRtoUs := 500
  ptpDomain := 0
  ppsEnable := 0

end Sys2Proof.Machine
end

