-- ==== Sys2Proof/Machine/HostTypes.lean ====
section
/-! DEFINITION. What the host port holds (chapters 16 and 17), the fault log (chapter 21), and what the device sends, as data. -/

namespace Sys2Proof.Machine

open Sys2Proof

/-- One MSI-X table entry, R496: message address, message data, mask bit of the vector control word. -/
structure MsixEntry where
  addr : W64
  data : W32
  masked : Bool
  deriving DecidableEq, Repr

/-- An MSI-X entry after reset: masked, as PCI Express resets it (PRESUMED: R496 refers to PCIe). -/
def MsixEntry.reset : MsixEntry := ⟨0, 0, true⟩

/-- The snapshot the TEL registers read, R520. -/
structure TelSnapshot where
  time : W64
  step : W64
  reqActive : Nat
  cellsBusy : Nat
  cellsDisabled : Nat
  ce : W64
  ue : W64
  faultSeq : W32
  breaches : W32
  deriving DecidableEq, Repr

/-- The TEL registers before the first snapshot: zero, R520. -/
def TelSnapshot.zero : TelSnapshot := ⟨0, 0, 0, 0, 0, 0, 0, 0, 0⟩

/-- The host port: rings, interrupts, registers, PCI Express state. -/
structure HostPort where
  sq : KMap SubRing
  cq : KMap CplRing
  /-- next ring of the round robin, R52 -/
  robin : Nat
  /-- values of BAR0/1 and BAR2/3, R484 -/
  bar0 : W64
  bar2 : W64
  busMaster : Bool
  d3hot : Bool
  /-- `HIF_LINK`, R512: rate code (0 down), width, flit mode -/
  linkRate : Nat
  linkWidth : Nat
  linkFlit : Bool
  badAccess : W32
  retrains : W32
  cto : W32
  readFails : W32
  msix : KMap MsixEntry
  /-- vectors whose pending bit is set, R496 -/
  pba : List Nat
  /-- latched W1C bits of `IRQ_EVENT` by bit number, 2 to 8, R513 -/
  events : List Nat
  /-- `IRQ_EVENT_EN` bits [8:0] -/
  eventEn : Nat
  /-- rings whose bit is set in `IRQ_SQ_ERR` and `IRQ_CQ_ERR` -/
  sqErr : List Nat
  cqErr : List Nat
  irqHalted : Bool
  /-- `MOD_PARITY` and its count, R507, R511 -/
  parityValid : Bool
  parityBar : Nat
  parityOffset : Nat
  parityCount : W32
  /-- registers (BAR, offset) whose stored bits mismatch their hidden parity: each is recorded once, until it is rewritten, R506 to R508 -/
  parityBad : List (Nat × Nat)
  scratch : W32
  /-- `DBG_PEEK_ADDR`, the 48-bit device address with bits [1:0] zero -/
  peekAddr : Nat
  autoInc : Bool
  peekHalted : Bool
  peekRewritten : List Nat
  peekResult : Nat
  /-- high half latched by the last read of `CLK_TIME_LO`, R517 -/
  timeHi : W32
  /-- a telemetry snapshot has been requested, R520 -/
  snapPending : Bool
  snapSeq : W32
  snap : TelSnapshot
  /-- PME_Status and PME_En, R553 -/
  pmeStatus : Bool
  pmeEn : Bool
  /-- configuration requests complete (else Configuration Request Retry Status), R497 -/
  cfgCycles : Bool
  /-- a function-level reset arrived during a boot and is held until FW_READY, R539 -/
  flrHeld : Bool
  deriving DecidableEq, Repr

/-- The host port after reset, R487, R489, R511 to R520. -/
def HostPort.reset : HostPort where
  sq := []
  cq := []
  robin := 0
  bar0 := 0
  bar2 := 0
  busMaster := false
  d3hot := false
  linkRate := 0
  linkWidth := 0
  linkFlit := false
  badAccess := 0
  retrains := 0
  cto := 0
  readFails := 0
  msix := []
  pba := []
  events := []
  eventEn := 0x1FF
  sqErr := []
  cqErr := []
  irqHalted := false
  parityValid := false
  parityBar := 0
  parityOffset := 0
  parityCount := 0
  parityBad := []
  scratch := 0
  peekAddr := 0
  autoInc := false
  peekHalted := false
  peekRewritten := []
  peekResult := 0
  timeHi := 0
  snapPending := false
  snapSeq := 0
  snap := TelSnapshot.zero
  pmeStatus := false
  pmeEn := false
  cfgCycles := false
  flrHeld := false

/-- A fault-log record, R594 (its CRC is computed when it is read out). -/
structure FaultRec where
  seq : Nat
  code : Nat
  sev : Nat
  action : Nat
  time : Nat
  boot : Nat
  unit : Nat
  tenant : Nat
  command : Nat
  arg0 : Nat
  arg1 : Nat
  deriving DecidableEq, Repr

/-- The fault log, the fault latch and the disable table, R593 to R599. -/
structure Faults where
  /-- the flash ring, oldest first -/
  flash : List FaultRec
  /-- the RAM queue, oldest first, at most 64 -/
  queue : List FaultRec
  nextSeq : Nat
  dropped : Nat
  droppedSev : Nat
  latch : Bool
  /-- SEQ of the newest record that set the latch, 0 where none -/
  latchSeq : Nat
  /-- per unit: tick of its last CE_MEM record, and corrected errors left unlogged since, R595 -/
  ceLast : KMap (Nat × Nat)
  /-- unit, fault kind and tick of each counted fault, R596 -/
  history : List (Nat × Nat × Nat)
  /-- units disabled now -/
  disabled : List Nat
  /-- disablements per unit in the disable table of the flash -/
  table : KMap Nat
  corrected : W64
  uncorrected : W64
  /-- tick of the last report of each isobar core, R599 -/
  isobarReport : KMap Nat
  /-- times in ns of the watchdog resets of the last 600 s -/
  watchdogResets : List Nat
  /-- three watchdog resets within 600 s: no further reset until a power cycle -/
  watchdogStopped : Bool
  deriving DecidableEq, Repr

/-- The fault log at manufacture: empty, SEQ 1, R594. -/
def Faults.reset : Faults :=
  ⟨[], [], 1, 0, 0, false, 0, [], [], [], [], 0, 0, [], [], false⟩

/-- What the device sends: the model's own log of it, newest last. -/
inductive Output where
  /-- a status record or event written into a completion ring, R48 -/
  | record (r : Record)
  /-- an MSI-X message, R496 -/
  | msix (vector : Nat) (addr : W64) (data : W32)
  /-- the head shadow of a submission ring, R51 -/
  | shadow (addr : W64) (head : W32)
  /-- bytes written to host memory: the sealed sectors of a Tier 3 block, R233 -/
  | hostWrite (addr : Nat) (bytes : Bytes)
  /-- sealed sectors of a Tier 2 block and their tag, written to a bulk package on the carrier, R212, R233 -/
  | bulkWrite (package : Nat) (bytes : Bytes) (tag : BitVec 128)
  /-- a register read returned, R486 -/
  | regRead (bar offset : Nat) (value : W32)
  /-- a fabric message to a peer: type, subtype and body, R430 -/
  | message (dst type sub : Nat) (body : Bytes)
  /-- a flit or control flit sent on a port: kind and content, R420 -/
  | flit (port kind : Nat) (content : Bytes)
  /-- a transport segment to a peer: channel, header and bytes, R424 -/
  | segment (dst channel : Nat) (content : Bytes)
  /-- a packet of Ethernet mode sent on a port -/
  | ethernet (port kind : Nat) (content : Bytes)
  /-- an answer on the SMBus, R552; the empty answer is a NACK -/
  | smbus (bytes : Bytes)
  /-- an MCTP control response, R530 -/
  | mctp (bytes : Bytes)
  /-- a DOE data object or an SPDM response, R468, R482 -/
  | doe (bytes : Bytes)
  /-- bits shifted out of the TAP, R554 -/
  | tdo (bits : Nat)
  deriving DecidableEq, Repr

end Sys2Proof.Machine
end

