-- ==== Sys2Proof/Machine/IndexTypes.lean ====
section
/-! DEFINITION. Vector indexes as data: shards, main lists, side lists, tombstones, searches under way (chapter 09). -/

namespace Sys2Proof.Machine

open Sys2Proof

/-- A stored vector: its ID, its list, its elements as packed bytes, its payload; `seq` is the mutation sequence of a side entry, 0 in the main lists. -/
structure StoredVec where
  id : Nat
  seq : Nat
  list : Nat
  vec : Bytes
  pay : Bytes
  deriving DecidableEq, Repr

/-- The work counts of INDEX_STATS, R300. -/
structure IndexCounts where
  queries : W64
  lists : W64
  codes : W64
  rescored : W64
  side : W64
  spec : W64
  wasted : W64
  nonfinite : W64
  merges : W64
  deriving DecidableEq, Repr

/-- The scan record of a main-list vector, R284: its codes packed under R84 (none in a BIN index, where the stored bits are the code), its error bound as an FP32
code, and whether it is a zero vector of a COSINE index. -/
structure ScanVec where
  id : Nat
  codes : Bytes
  eps : Nat
  zero : Bool
  deriving DecidableEq, Repr

/-- The scan structures of a list, R284: the exponent of its step, its radius (an FP32 code, or a Hamming distance), its records. -/
structure ScanList where
  step : Int
  radius : Nat
  vecs : List ScanVec
  deriving DecidableEq, Repr

/-- A shard of an index on this module, R264 to R268, R284, R289. -/
structure VecIndex where
  tenant : Nat
  dim : Nat
  vfmt : Nat
  metric : Nat
  lists : Nat
  vecTier : Nat
  codeDie : Nat
  payLen : Nat
  scope : List Nat
  depth : Nat
  shard : List Nat
  /-- the centroid rows, contiguous -/
  centroids : Bytes
  main : List StoredVec
  /-- scan structures by list; a list that is not listed holds no vector -/
  scan : KMap ScanList
  side : List StoredVec
  /-- tombstones: ID and sequence -/
  tombs : List (Nat × Nat)
  mseq : Nat
  /-- first addresses of the ranges it holds in Tier 1 and in VEC_TIER -/
  t1 : List Nat
  vt : List Nat
  counts : IndexCounts
  /-- snapshot of a merge that has been prepared and not yet committed -/
  merging : Option Nat
  deriving DecidableEq, Repr

/-- One entry of a search result before it is written: ID, score bits, INFO. -/
structure SearchHit where
  id : Nat
  score : Nat
  info : Nat
  /-- the payload, of a vector of this shard, R283 -/
  pay : Bytes
  deriving DecidableEq, Repr

/-- One shard's part of one query, R296: its entries best first and its ties. -/
structure SearchPart where
  module : Nat
  query : Nat
  ties : Nat
  hits : List SearchHit
  deriving DecidableEq, Repr

/-- What a shard has done for queries: the lists that the stop test needed, query by query, the scan records read in them, main and side vectors scored, scores
flushed to zero, R273, R300. -/
structure SearchWork where
  scanned : List (List Nat)
  codes : Nat
  rescored : Nat
  side : Nat
  flushed : Nat
  deriving DecidableEq, Repr

/-- No work. -/
def SearchWork.none : SearchWork := ⟨[], 0, 0, 0, 0⟩

/-- The work of two runs of queries. -/
def SearchWork.add (a b : SearchWork) : SearchWork :=
  ⟨a.scanned ++ b.scanned, a.codes + b.codes, a.rescored + b.rescored, a.side + b.side, a.flushed + b.flushed⟩

/-- A search whose shards have been asked: the modules whose parts are owed, the parts received, the failures. -/
structure SearchJob where
  serial : Nat
  commandId : Nat
  index : Nat
  awaited : List Nat
  parts : List SearchPart
  failures : List (Nat × Nat)
  /-- the work of this member's own shard -/
  work : SearchWork
  /-- payloads that other owners have sent (ID, payload), and the IDs asked for, R296 -/
  payloads : List (Nat × Bytes)
  asked : List Nat
  /-- counts of the request's bag lookup, owed until the stage commits, R263 -/
  owed : List (Ctr × Nat × Nat)
  deriving DecidableEq, Repr

/-- What a shard member keeps of a SEARCH of another entry member until it has ended: the shard as its snapshot sees it, and the counts it will add, R291, R300. -/
structure ServedSearch where
  peer : Nat
  corr : Nat
  tenant : Nat
  index : Nat
  shard : VecIndex
  runahead : Nat
  queries : Nat
  nonfinite : Nat
  work : SearchWork
  deriving DecidableEq, Repr

/-- Lists merged for a peer, R430: sender, CORR, tenant, the entries (ID, key, INFO), the counts of R319, the event of R317. -/
structure MergedLists where
  peer : Nat
  corr : Nat
  tenant : Nat
  entries : List (Nat × Nat × Nat)
  counts : Bytes
  event : Option Reply
  deriving DecidableEq, Repr

/-- The indexes of the top front that this module knows, and its searches. -/
structure IndexSpace where
  indexes : KMap VecIndex
  jobs : List SearchJob
  /-- results of SELECT_MERGE messages -/
  merged : List MergedLists
  served : List ServedSearch
  deriving DecidableEq, Repr

/-- No index. -/
def IndexSpace.reset : IndexSpace := ⟨[], [], [], []⟩

end Sys2Proof.Machine
end

