-- ==== Sys2Proof/Machine/PowerTypes.lean ====
section
/-! DEFINITION. Power, clocks, reset and board state as data: chapters 18 and 19, the PWR and CLK registers of chapter 17. -/

namespace Sys2Proof.Machine

open Sys2Proof

/-- State of a quadrant, R532, coded as `PWR_QSTATE` codes it (R515). -/
inductive QState where
  | active
  | frost
  | deepFrost
  | disabled
  deriving DecidableEq, Repr

/-- The code of a quadrant state in `PWR_QSTATE`, R515. -/
def QState.code : QState → Nat
  | .active => 0
  | .frost => 1
  | .deepFrost => 2
  | .disabled => 3

/-- One quadrant: its state, whether a thaw is under way, its last grant, since when it is FROST, and the management tick of its last thaw demand, R21. -/
structure Quadrant where
  state : QState
  thawing : Bool
  lastGrant : Nat
  since : Nat
  demandTick : Option Nat
  deriving DecidableEq, Repr

/-- A quadrant after reset: `PWR_QSTATE` resets to 0x5555_5555, every quadrant FROST (R515, R537). -/
def Quadrant.reset : Quadrant := ⟨.frost, false, 0, 0, none⟩

/-- The power-state policy, R533. -/
structure Policy where
  frostAfterUs : Nat
  deepAfterMs : Nat
  lookbackMs : Nat
  minActive : Nat
  headroom : Nat
  memSr : Nat
  deriving DecidableEq, Repr

/-- The default power-state policy, R533. -/
def Policy.default : Policy := ⟨200, 20, 50, 4, 2, 1⟩

/-- A clock limit in MHz and its count of successive ticks, R527. -/
structure ClockLimit where
  mhz : Nat
  count : Nat
  deriving DecidableEq, Repr

/-- A limit that does not bind, R527. -/
def ClockLimit.full : ClockLimit := ⟨1800, 0⟩

/-- A reset requested by MEMBER_RESET, R538. -/
structure PendingReset where
  powerCycle : Bool
  due : Nat
  deriving DecidableEq, Repr

/-- Instructions of the TAP, R473, R554. -/
inductive TapInstr where
  | idcode
  | bypass
  | samplePreload
  | extest
  | extestPulse
  | extestTrain
  | privateInstr
  deriving DecidableEq, Repr

/-- Boot stages as `DBG_STATE.STAGE` codes them, R518. -/
inductive BootStage where
  | rom
  | security
  | akent
  | management
  | running
  | recovery
  deriving DecidableEq, Repr

/-- Power, clocks, resets, pins and board interfaces. -/
structure Power where
  /-- the input is at 300 V or more, R521 -/
  inputUp : Bool
  /-- the calm island runs, R530, R543 -/
  calm : Bool
  /-- input voltage of the last sample, 0.1 V -/
  vin : Nat
  /-- the input has been in its rated range for 100 ms, R521 -/
  inRange : Bool
  hvEn : Bool
  /-- PERST_N is asserted -/
  perst : Bool
  /-- main conversion runs -/
  conversion : Bool
  /-- every point-of-load rail is in regulation: PWRGD, R547 -/
  pwrgd : Bool
  /-- `CLK_REF.REFCLK` and `CLK_REF.XTAL`, R516 -/
  refclk : Bool
  xtal : Bool
  /-- `MOD_STATUS` CFG_READY, FW_READY, SECURE_BOOT_OK, THERMAL_WARN, R511 -/
  cfgReady : Bool
  fwReady : Bool
  secureBootOk : Bool
  thermalWarn : Bool
  stage : BootStage
  /-- internal resets made because FW_READY was late, R540 -/
  bootRetries : Nat
  /-- CAP_W of POWER_CAP_SET, 2,600 without a cap, R526 -/
  capW : Nat
  policy : Policy
  capLimit : ClockLimit
  thermalLimit : ClockLimit
  inputLimit : ClockLimit
  /-- the fast clamp of R525 holds -/
  fastClamp : Bool
  /-- `PWR_THROTTLE` bits, R515 -/
  throttleCap : Bool
  throttleThermal : Bool
  throttleInput : Bool
  pinAvg : Nat
  pinPeak : Nat
  iin : Nat
  tj : Nat
  tjDie : Nat
  /-- a junction has been measured since cold reset, R552 -/
  tjKnown : Bool
  junctions : List Nat
  /-- cell clocks of the last 100 ticks, newest first, R527 -/
  mhzHistory : List Nat
  quadrants : KMap Quadrant
  /-- front time and cells granted at each scheduling point of the look-back window, newest first, R534 -/
  grants : List (Nat × Nat)
  /-- front time of the last FW_READY, R534 -/
  readyAt : Nat
  /-- hub clock domains gated, R529 -/
  gated : List Nat
  /-- front time at which a unit of a hub clock domain last held an item, R529 -/
  hubLast : KMap Nat
  selfRefresh : Bool
  /-- front time since which the module is IDLE -/
  idleSince : Nat
  pendingReset : Option PendingReset
  /-- THERMTRIP_N is asserted (latched), R542 -/
  thermtrip : Bool
  slotId : Nat
  mfgMode : Bool
  /-- STATUS_INPUT, STATUS_TEMPERATURE and the CML bit of PMBus, R552 -/
  statusInput : Nat
  statusTemp : Nat
  cml : Bool
  /-- ALERT_N was released by an answer to the Alert Response Address, R552 -/
  alertAnswered : Bool
  tap : TapInstr
  /-- last valid PPS edge (front time), and ignored edges, R556 -/
  ppsLast : Option Nat
  ppsLocked : Bool
  ppsBad : Nat
  /-- power class in mW of the pluggable in each cage, R560 -/
  cages : KMap Nat
  /-- front time of the last management-tick sample, R587 -/
  sampleTime : Nat
  deriving DecidableEq, Repr

/-- Right after the calm island's own reset with the input at 300 V or more: STANDBY, nothing booted (R505, R511, R516, R530, R540). -/
def Power.reset : Power where
  inputUp := true
  calm := true
  vin := 0
  inRange := false
  hvEn := false
  perst := false
  conversion := false
  pwrgd := false
  refclk := false
  xtal := false
  cfgReady := false
  fwReady := false
  secureBootOk := false
  thermalWarn := false
  stage := .rom
  bootRetries := 0
  capW := 2600
  policy := Policy.default
  capLimit := ClockLimit.full
  thermalLimit := ClockLimit.full
  inputLimit := ClockLimit.full
  fastClamp := false
  throttleCap := false
  throttleThermal := false
  throttleInput := false
  pinAvg := 0
  pinPeak := 0
  iin := 0
  tj := 0
  tjDie := 0
  tjKnown := false
  junctions := []
  mhzHistory := []
  quadrants := []
  grants := []
  hubLast := []
  readyAt := 0
  gated := []
  selfRefresh := false
  idleSince := 0
  pendingReset := none
  thermtrip := false
  slotId := 0
  mfgMode := false
  statusInput := 0
  statusTemp := 0
  cml := false
  alertAnswered := false
  tap := .idcode
  ppsLast := none
  ppsLocked := false
  ppsBad := 0
  cages := []
  sampleTime := 0

end Sys2Proof.Machine
end

