-- ==== Sys2Proof/Machine/SchedTypes.lean ====
section
/-! DEFINITION. Scheduling, shares, budgets, contracts and histograms as data: chapter 13, R588. -/

namespace Sys2Proof.Machine

open Sys2Proof

/-- WEIGHT and PRIO_FLOOR of a tenant, R391. -/
structure Share where
  weight : Nat
  floor : Nat
  deriving DecidableEq, Repr

/-- A virtual time and the remainder carried to the next release, R390. -/
structure VTime where
  v : Nat
  rest : Nat
  deriving DecidableEq, Repr

/-- A cell item, R385, R387, R392. -/
structure WorkItem where
  id : Nat
  /-- the command in flight it works for -/
  serial : Nat
  tenant : Nat
  roleRank : Nat
  prio : Nat
  protect : Nat
  arrival : Nat
  commandId : Nat
  /-- placement word, R31 -/
  placement : Nat
  /-- compute die whose Tier 1 holds the largest share of its operands, R23 -/
  prefer : Option Nat
  /-- tiles not yet started; for a kernel CELLS -/
  tiles : Nat
  /-- the tiles of its command's first layer, for a re-run, R394 -/
  tiles0 : Nat
  /-- a kernel: granted whole or not at all -/
  whole : Bool
  layer : Nat
  /-- cells granted; none while it waits -/
  cells : List Nat
  /-- ordinal of the grant, for the latest start of R392 -/
  started : Nat
  /-- times its command has been run and discarded, R393 -/
  attempts : Nat
  /-- it may not be a victim any more: a TILE has been sent, or its command is prepared, R393 -/
  fixed : Bool
  /-- operand bytes of an item that is no command in flight: a step of a request, R23 -/
  operands : List (Nat × Nat)
  deriving DecidableEq, Repr

/-- A token budget, R401 to R404. -/
structure Budget where
  wait : Bool
  windowMs : Nat
  refill : Nat
  capacity : Nat
  reqLimit : Nat
  level : Int
  /-- the present window's index, and requests admitted in it -/
  window : Nat
  admitted : Nat
  deriving DecidableEq, Repr

/-- One contract window: covered admissions, ended ones, histogram of the covered samples, R407, R410. -/
structure ContractWindow where
  index : Nat
  admitted : Nat
  ended : Nat
  samples : KMap Nat
  deriving DecidableEq, Repr

/-- A latency contract, R405 to R411. -/
structure Contract where
  cls : Nat
  refuse : Bool
  metric : Nat
  ppm : Nat
  windowMs : Nat
  target : Nat
  rate : Nat
  ring : Nat
  cost : Nat
  /-- the reporting member and the operator session there -/
  member : Nat
  session : Nat
  /-- allowed rate A, R409 -/
  allowed : Nat
  atRisk : Bool
  windows : List ContractWindow
  lastBreach : Nat
  deriving DecidableEq, Repr

/-- The three copies of a histogram: bucket counts, and the index of the present window, R588. -/
structure Histogram where
  lifetime : KMap Nat
  current : KMap Nat
  previous : KMap Nat
  window : Nat
  late : W64
  deriving DecidableEq, Repr

/-- No sample. -/
def Histogram.empty : Histogram := ⟨[], [], [], 0, 0⟩

/-- The scheduler. -/
structure Sched where
  /-- waiting and running cell items in order of arrival -/
  items : List WorkItem
  nextItem : Nat
  /-- grants made so far -/
  grants : Nat
  cellV : KMap VTime
  hubV : KMap VTime
  shares : KMap Share
  budgets : KMap Budget
  contracts : KMap Contract
  /-- by tenant × 16 + metric -/
  histograms : KMap Histogram
  admitPpm : Nat
  preemptLimit : Nat
  /-- front time of the last scheduling point -/
  lastPoint : Nat
  deriving DecidableEq, Repr

/-- Nothing scheduled; items at their defaults, R412. -/
def Sched.reset : Sched := ⟨[], 0, 0, [], [], [], [], [], [], 700000, 3, 0⟩

end Sys2Proof.Machine
end

