-- ==== Sys2Proof/Machine/SecurityTypes.lean ====
section
/-! DEFINITION. Identity, boot, attestation, tenants and keys as data: chapter 15. -/

namespace Sys2Proof.Machine

open Sys2Proof

/-- A registered pair of public keys and their hash, R469, R471. -/
structure PublicKeys where
  ecdsa : Bytes
  mldsa : Bytes
  deriving DecidableEq, Repr

/-- A tenant: its keys and its root key, R469. -/
structure Tenant where
  keys : PublicKeys
  root : BitVec 256
  deriving DecidableEq, Repr

/-- A transfer-key slot, R479. -/
structure KeySlot where
  key : BitVec 256
  counter : Nat
  deriving DecidableEq, Repr

/-- One valid copy of the slot directory, R456. -/
structure SlotDir where
  generation : Nat
  active : Nat
  pending : Bool
  deriving DecidableEq, Repr

/-- The link keys shared with a peer, R476. -/
structure PairSecret where
  prk : BitVec 384
  deriving DecidableEq, Repr

/-- What the negotiation of SPDM has reached, R468. -/
inductive SpdmStage where
  | start
  | version
  | capabilities
  | negotiated
  deriving DecidableEq, Repr

/-- The security processor. -/
structure Security where
  lifecycle : Nat
  /-- SVN_FLOOR of security firmware, Akent and management controller firmware, R454 -/
  floors : List Nat
  /-- the two copies of the slot directory; none: not valid, R456 -/
  dir0 : Option SlotDir
  dir1 : Option SlotDir
  /-- contents of slots A and B -/
  slotA : Memory
  slotB : Memory
  /-- the slot that runs, and whether this is a trial boot, R458 -/
  running : Option Nat
  trial : Bool
  fallback : Bool
  /-- SVNs and BUILD of the running bundle -/
  svn : List Nat
  build : Nat
  /-- MR0 to MR7, R459 -/
  mr : List (BitVec 384)
  bootCount : Nat
  sessionCount : Nat
  countersInvalid : Bool
  /-- report flag DEBUG: debug is unlocked, R473 -/
  debug : Bool
  /-- tenant 0's keys, none until registered, R471 -/
  operatorKeys : Option PublicKeys
  tenants : KMap Tenant
  /-- transfer-key slots by tenant × 16 + slot -/
  keySlots : KMap KeySlot
  /-- pair secrets by DEVICE_UID of the peer -/
  pairs : KMap PairSecret
  /-- the draw of the ephemeral keys with which this module has asked a peer for a pair secret, by its DEVICE_UID, R476 -/
  pairAsks : KMap Nat
  /-- DEBUG_CONSENT by tenant; unlisted: 0 -/
  consent : KMap Nat
  /-- a health test of the entropy source has failed, R455 -/
  entropyFailed : Bool
  /-- draws made from the generator -/
  draws : Nat
  spdm : SpdmStage
  deriving DecidableEq, Repr

/-- A production module with nothing in its flash, not booted (R454, R459; log entry 3). -/
def Security.reset : Security where
  lifecycle := 1
  floors := [0, 0, 0]
  dir0 := some ⟨0, 0, false⟩
  dir1 := none
  slotA := []
  slotB := []
  running := none
  trial := false
  fallback := false
  svn := [0, 0, 0]
  build := 0
  mr := List.replicate 8 0
  bootCount := 0
  sessionCount := 0
  countersInvalid := false
  debug := false
  operatorKeys := none
  tenants := []
  keySlots := []
  pairs := []
  pairAsks := []
  consent := []
  entropyFailed := false
  draws := 0
  spdm := .start

end Sys2Proof.Machine
end

