-- ==== Sys2Proof/Machine/ServeTypes.lean ====
section
/-! DEFINITION. Serving as data: models, pipelines, requests, key/value pages, imported images, handovers (chapter 12). -/

namespace Sys2Proof.Machine

open Sys2Proof

/-- A model, R350, R351: its header and its program; dropped: unloaded, kept for the requests that name it. -/
structure Model where
  tenant : Nat
  tag : Nat
  header : Bytes
  program : Bytes
  dropped : Bool
  deriving DecidableEq, Repr

/-- A pipeline, R354: its descriptor and its template as copied at validation. -/
structure Pipeline where
  tenant : Nat
  desc : Bytes
  template : Bytes
  deriving DecidableEq, Repr

/-- Key/value pages of one model, R365: the frames reserved, by die, and the bytes by layer × 2^40 + page × 2^16 + offset. -/
structure KvPages where
  frames : List Nat
  cells : Memory
  deriving DecidableEq, Repr

/-- An imported key/value image, R369, R370: the fields of its header. -/
structure KvImage where
  tenant : Nat
  tag : Nat
  layers : Nat
  positions : Nat
  last : Nat
  heads : Nat
  headDim : Nat
  fmt : Nat
  pages : KvPages
  deriving DecidableEq, Repr

/-- States of a request, R360. -/
inductive ReqState where
  | queued
  | retrieving
  | prefilling
  | shipping
  | held
  | decoding
  | ending
  deriving DecidableEq, Repr

/-- How a request ends: END_REASON (R361), status, DETAIL, STOP_INDEX. -/
structure ReqEnd where
  reason : Nat
  status : Status
  detail : Nat
  stop : Nat
  deriving DecidableEq, Repr

/-- A request, R358 to R363: an entry of the request table of its entry member, or of a member that holds a stage of it. -/
structure Request where
  /-- the model's name for it here: at its entry member, and where a prompt has been handed over, the serial of its REQUEST_SUBMIT in flight -/
  serial : Nat
  tenant : Nat
  entry : Nat
  id : Nat
  session : Nat
  params : Bytes
  pipe : Pipeline
  state : ReqState
  arrival : Nat
  /-- DEADLINE_NS and MAX_NEW in force -/
  deadline : Nat
  maxNew : Nat
  prio : Nat
  covered : Bool
  /-- the query's tokens, passages packed, valid search entries, fewer than SEARCH_K -/
  query : List Nat
  passages : Nat
  searchN : Nat
  short : Bool
  /-- the prompt's tokens that this member holds, and PROMPT_TOKENS as it knows them -/
  prompt : List Nat
  promptTokens : Nat
  /-- a retrieval has been asked of other shards: the result entries when they are known come by the search job -/
  searching : Bool
  firstStage : Option Nat
  rtp : Option Nat
  /-- it waits for pages, R366, for tokens of its budget, R404, for ring slots, R380 -/
  pageWait : Bool
  budgetWait : Bool
  ringWait : Bool
  kv : Option KvPages
  draftKv : Option KvPages
  /-- position at which the next decode step processes the last accepted token, and that token -/
  position : Nat
  last : Nat
  gram : Nat
  /-- tokens of the decode steps not yet consumed, oldest first; at most two steps, R375 -/
  backlog : List (List Nat)
  /-- END_REASON with which the decode member ends it once the backlog is consumed: grammar end or full context -/
  tailEnd : Option Nat
  /-- steps whose tokens the entry member has not yet reported consumed, on a decode member that is not the entry -/
  ahead : Nat
  consumed : Nat
  proposed : Nat
  accepted : Nat
  /-- the open chunk, R378, R379 -/
  chunkTokens : List Nat
  chunkText : Bytes
  chunkSeq : Nat
  chunkSince : Nat
  chunkHeld : Bool
  ttft : Option Nat
  lastStep : Option Nat
  stream : Nat
  steer : Nat
  ended : Option ReqEnd
  /-- module that runs the present stage, and pages reserved there -/
  holder : Nat
  holderPages : Nat
  /-- handover under way: ATTEMPT, channel, whether the target has accepted -/
  attempt : Nat
  channel : Nat
  shipTo : Option Nat
  /-- every page has been sent -/
  shipped : Bool
  /-- outcome of the handover's commit, not yet acted upon -/
  decided : Option Reply
  /-- tokens of the present step consumed so far -/
  stepTokens : Nat
  deriving DecidableEq, Repr

/-- A key/value handover that arrives, R368: its request key, the pipeline and model it names, the pages held unseen. -/
structure Inbound2 where
  peer : Nat
  tenant : Nat
  entry : Nat
  id : Nat
  attempt : Nat
  channel : Nat
  nextPipe : Nat
  tag : Nat
  prompt : Nat
  /-- it has been answered ACCEPT -/
  accepted : Bool
  pages : KvPages
  /-- (layer, page) received -/
  got : List (Nat × Nat)
  deriving DecidableEq, Repr

/-- Serving on a module. -/
structure ServeSpace where
  models : KMap Model
  pipelines : KMap Pipeline
  images : KMap KvImage
  requests : List Request
  inbound : List Inbound2
  deriving DecidableEq, Repr

/-- Nothing served. -/
def ServeSpace.reset : ServeSpace := ⟨[], [], [], [], []⟩

end Sys2Proof.Machine
end

