-- ==== Sys2Proof/Machine/TableTypes.lean ====
section
/-! DEFINITION. Embedding tables as data: shards, row storage, hot rows, updates on their way (chapter 08). -/

namespace Sys2Proof.Machine

open Sys2Proof

/-- A table, R239 to R244, R260. Slots and row headers stand in device memory; replicas are kept by row. -/
structure Table where
  tenant : Nat
  rows : Nat
  width : Nat
  fmt : Nat
  tier : Nat
  die : Nat
  /-- the TABLE_CREATE scope and its depth -/
  scope : List Nat
  depth : Nat
  /-- the shard set, ascending -/
  shard : List Nat
  /-- first addresses of this member's slots, row headers and replica area; 0 where it has none -/
  slots : Nat
  headers : Nat
  area : Nat
  hmode : Nat
  windowMs : Nat
  threshold : Nat
  maxHot : Nat
  pins : List Nat
  /-- front time at which the policy committed -/
  policyAt : Nat
  /-- own rows now hot, ascending -/
  hot : List Nat
  /-- occurrences: front time of arrival (in a report, the start of its window), row, count, R261 -/
  occurrences : List (Nat × Nat × Nat)
  /-- replicas held: version and slot image by row -/
  replicas : KMap (Nat × Bytes)
  deriving DecidableEq, Repr

/-- One entry of a ROWS_WRITE at the row's owner, R248. -/
structure RowUpdate where
  table : Nat
  row : Nat
  pos : Nat
  image : Bytes
  entry : Nat
  session : Nat
  seq : Nat
  commandId : Nat
  /-- its command has committed: it takes effect at the next step boundary -/
  queued : Bool
  deriving DecidableEq, Repr

/-- A ROWS_WRITE whose rows have taken effect here and whose replies wait for holders, R252: counts, and the installs not yet acknowledged (module, table, row, version). -/
structure ReplWait where
  entry : Nat
  session : Nat
  seq : Nat
  commandId : Nat
  applied : Nat
  superseded : Nat
  awaited : List (Nat × Nat × Nat × Nat)
  deriving DecidableEq, Repr

/-- The rows of a table that a command, or a stage of a request, has asked their owners for, R249, R256. -/
structure RowFetching where
  /-- the command in flight; for a request its serial and 2^64 -/
  serial : Nat
  corr : Nat
  tenant : Nat
  table : Nat
  /-- rows asked for -/
  asked : List Nat
  /-- rows that have come: row, version, slot image -/
  rows : List (Nat × Nat × Bytes)
  /-- an owner's failure, which ends the command -/
  failed : Option (Nat × Nat)
  deriving DecidableEq, Repr

/-- The rows that one command of a peer has named so far of those it fetches here; all are served in one step, R249. -/
structure RowServing where
  peer : Nat
  corr : Nat
  tenant : Nat
  table : Nat
  total : Nat
  rows : List Nat
  deriving DecidableEq, Repr

/-- The tables of the top front, their updates, and the rows on their way between members. -/
structure TableSpace where
  tables : KMap Table
  updates : List RowUpdate
  waits : List ReplWait
  fetching : List RowFetching
  serving : List RowServing
  deriving DecidableEq, Repr

/-- No table. -/
def TableSpace.reset : TableSpace := ⟨[], [], [], [], []⟩

end Sys2Proof.Machine
end

