-- ==== Sys2Proof/Machine/TextTypes.lean ====
section
/-! DEFINITION. Text objects as data: tokenisers, stop sets, grammars, detokenisation streams (chapter 11). -/

namespace Sys2Proof.Machine

open Sys2Proof

/-- A tokeniser, R323 to R326: its image, its tag, the range of Tier 1 that holds its tables; dropped: unloaded, kept for what still uses it. -/
structure Tokeniser where
  tenant : Nat
  image : Bytes
  tag : Nat
  base : Nat
  dropped : Bool
  deriving DecidableEq, Repr

/-- A stop set, R337: its tokeniser, its strings and its tokens by index. -/
structure StopSet where
  tenant : Nat
  tok : Nat
  strings : List Bytes
  tokens : List Nat
  base : Nat
  dropped : Bool
  deriving DecidableEq, Repr

/-- A grammar, R342. -/
structure Grammar where
  tenant : Nat
  image : Bytes
  tok : Nat
  base : Nat
  dropped : Bool
  deriving DecidableEq, Repr

/-- A detokenisation stream, R338, R339. -/
structure Stream where
  tenant : Nat
  tok : Nat
  stop : Option Nat
  skipSpecial : Bool
  includeStop : Bool
  pending : Bytes
  held : Bytes
  /-- tokens have been fed -/
  fed : Bool
  /-- the request that names it, by its command in flight -/
  request : Option Nat
  deriving DecidableEq, Repr

/-- The text objects of a module, by handle. -/
structure TextSpace where
  tokenisers : KMap Tokeniser
  stops : KMap StopSet
  grammars : KMap Grammar
  streams : KMap Stream
  deriving DecidableEq, Repr

/-- No text object. -/
def TextSpace.reset : TextSpace := ⟨[], [], [], []⟩

end Sys2Proof.Machine
end

