-- ==== Sys2Proof/Machine/TierTypes.lean ====
section
/-! DEFINITION. Memory tiers as data: allocations, quotas, resident pages, sectors, poison (chapter 07, R592). -/

namespace Sys2Proof.Machine

open Sys2Proof

/-- An allocation, R214; its key is its first address. -/
structure Alloc where
  len : Nat
  tenant : Nat
  tier : Nat
  raw : Bool
  /-- storage of a table, index or model, which no command names by address, R239 -/
  hidden : Bool := false
  deriving DecidableEq, Repr

/-- A tenant's quotas: frames, bytes of Tier 1, sectors of Tiers 2 and 3, R217. -/
structure Quota where
  frames : Nat
  t1 : Nat
  t2 : Nat
  t3 : Nat
  deriving DecidableEq, Repr

/-- States of a home page other than HOME, R220. -/
inductive PageState where
  | filling
  | clean
  | dirty
  | writing
  deriving DecidableEq, Repr

/-- A home page that is not in state HOME, R220 to R224. The memory holds the content that reads are served from. -/
structure HomePage where
  state : PageState
  /-- compute die of its frame -/
  die : Nat
  tenant : Nat
  pinned : Bool
  /-- it holds a resident frame (else the shadow of a committed write) -/
  resident : Bool
  /-- what ends WRITING: CLEAN after FLUSH, HOME otherwise -/
  toClean : Bool
  /-- step of the last access, R224 -/
  access : Nat
  /-- content at home while the frame is newer, by address -/
  home : Memory
  /-- the command moving it, R221; none for a write-back after a commit -/
  mover : Option Nat
  /-- the command's own part of the page has been done and awaits its other pages, R223 -/
  moved : Bool
  /-- marks of the blocks at home while the frame serves reads: poison, and failed tags, R592 -/
  homePoison : List Nat := []
  homeTags : List Nat := []
  /-- it is being evicted for this command, R224 -/
  evictor : Option Nat := none
  deriving DecidableEq, Repr

/-- What a YES vote keeps for its tenant until the decision, so that the commit cannot fail for want of it, R72, R74: frames, sectors, ranges to be allocated. -/
structure Pledge where
  coord : Nat
  session : Nat
  txn : Nat
  tenant : Nat
  frames : Nat
  t2 : Nat
  t3 : Nat
  ranges : List (Nat × Alloc)
  deriving DecidableEq, Repr

/-- The memory tiers of the module. -/
structure Tiers where
  /-- FRAMES_0 to FRAMES_3, R216 -/
  pool : List Nat
  quotas : KMap Quota
  /-- HOST_ADDR, REGION_LEN, LOGICAL_LEN of TIER3_REGION -/
  hostAddr : Nat
  regionLen : Nat
  logicalLen : Nat
  /-- STALL_LIMITS in µs for Tiers 1, 2, 3 -/
  stallUs : List Nat
  allocs : KMap Alloc
  /-- by page number: address / 65,536 -/
  pages : KMap HomePage
  /-- sectors held by a block at home, by block number: address / 4,096 -/
  sectors : KMap Nat
  /-- first addresses of poisoned units: 8 bytes in scratchpad, 64 bytes in Tier 1, a block in Tiers 2 and 3, R592 -/
  poisoned : List Nat
  /-- first addresses of blocks whose tag fails, R233 -/
  badTags : List Nat
  /-- blocks whose sectors are to be retired at their next write, and sectors retired so far, R592 -/
  retire : List Nat
  retired : Nat
  /-- frames of the pool that hold key/value pages, by tenant × 4 + die, R366 -/
  kv : KMap Nat
  /-- kept for prepared entries, R72 -/
  pledges : List Pledge
  /-- write version of a block of Tiers 2 and 3, by block number, R233 -/
  versions : KMap Nat
  deriving DecidableEq, Repr

/-- Usable sectors of Tier 2, R213. -/
def tier2Sectors : Nat := 3170893824

/-- The tiers after reset: items at their defaults (R217), nothing allocated, R537. -/
def Tiers.reset : Tiers where
  pool := [65536, 65536, 65536, 65536]
  quotas := []
  hostAddr := 0
  regionLen := 0
  logicalLen := 0
  stallUs := [1000, 2000, 20000]
  allocs := []
  pages := []
  sectors := []
  poisoned := []
  badTags := []
  retire := []
  retired := 0
  kv := []
  pledges := []
  versions := []

end Sys2Proof.Machine
end

