-- ==== Sys2Proof/Machine/State.lean ====
section
/-! DEFINITION. The state of the block as plain data, its faults and refusals, and the state right after reset. -/

namespace Sys2Proof.Machine

open Sys2Proof

/-- The command protocol: sessions, transactions, object versions, commands in flight, the step counter. -/
structure Proto where
  sessions : KMap Session
  txns : List Txn
  versions : List (Obj × Nat)
  /-- front time of each object's last change, by which a member judges parts staged elsewhere, R67 -/
  changedAt : List (Obj × Nat)
  /-- in the order they were taken -/
  flights : List Flight
  nextSerial : Nat
  /-- the module's step counter, R40, R56 -/
  stepCount : W64
  deriving DecidableEq, Repr

/-- No session, nothing in flight, R537. -/
def Proto.reset : Proto := ⟨[], [], [], [], [], 0, 0⟩

/-- The state of one module and the queue of its waiting commands. -/
structure State where
  /-- the commands waiting, first in, first out -/
  pending : List Instr
  /-- what the device has sent, newest last (the model's own field) -/
  outputs : List Output
  /-- index of the next free value (the model's own field) -/
  freeCtr : Nat
  /-- front time in ns; 0 before the first FW_READY after a cold reset, R434 -/
  frontTime : Nat
  /-- the front clock runs, R434 -/
  timeRuns : Bool
  /-- management ticks of the calm island since it started -/
  ticks : Nat
  /-- the role of the module as ROLE_SET codes it, none before the first, R4, R5 -/
  role : Option Nat
  proto : Proto
  host : HostPort
  power : Power
  sec : Security
  fabric : Fabric
  faults : Faults
  counters : Counters
  tiers : Tiers
  tables : TableSpace
  indexes : IndexSpace
  text : TextSpace
  serve : ServeSpace
  compute : Compute
  sched : Sched
  dbg : Debug
  /-- the device memory: scratchpads, Tier 1, Tier 2 and Tier 3, by device address, R211 -/
  mem : Memory
  deriving DecidableEq, Repr

/-- Why the machine stops. -/
inductive Fault where
  /-- Raised by no command: every fault of the spec is an effect on State. Safe. -/
  | none
  deriving DecidableEq, Repr

/-- Why a command has no meaning. -/
inductive Refusal where
  /-- Raised by the dispatch of a command whose meaning is not written. Safe: no claim can be proved of it. -/
  | notModelled (mnemonic : String)
  deriving DecidableEq, Repr

/-- The machine right after reset: the calm island runs, the module is in STANDBY, nothing is booted (log entry 4). -/
def State.reset : State where
  pending := []
  outputs := []
  freeCtr := 0
  frontTime := 0
  timeRuns := false
  ticks := 0
  role := none
  proto := Proto.reset
  host := HostPort.reset
  power := Power.reset
  sec := Security.reset
  fabric := Fabric.reset
  faults := Faults.reset
  counters := []
  tiers := Tiers.reset
  tables := TableSpace.reset
  indexes := IndexSpace.reset
  text := TextSpace.reset
  serve := ServeSpace.reset
  compute := Compute.reset
  sched := Sched.reset
  dbg := Debug.reset
  mem := []

end Sys2Proof.Machine
end

