-- ==== Sys2Proof/Machine/Flags.lean ====
section
/-! DEFINITION. Status bits and interrupts: `MOD_STATUS` (R511), the event vector (R496, R513, R514), ring errors (R491). -/

namespace Sys2Proof.Machine

open Sys2Proof

/-- The quadrant record of quadrant `q`. -/
def quadrantOf (p : Power) (q : Nat) : Quadrant := kgetD p.quadrants q Quadrant.reset

/-- The quadrants 0 to 15 in a given state. -/
def quadrantsIn (p : Power) (st : QState) : List Nat :=
  (List.range 16).filter (fun q => decide ((quadrantOf p q).state = st))

/-- `MOD_STATUS.POWER_STATE`, R531: 0 OFF, 1 STANDBY, 2 IDLE, 3 ACTIVE. -/
def powerState (p : Power) : Nat :=
  if !p.calm then 0
  else if !(p.conversion && p.pwrgd) then 1
  else if (quadrantsIn p .active).isEmpty then 2 else 3

/-- The ceiling of R527: the lowest of the three limits. -/
def clockCeiling (p : Power) : Nat := min p.capLimit.mhz (min p.thermalLimit.mhz p.inputLimit.mhz)

/-- The cell clock of ACTIVE quadrants, R525 and R527. -/
def cellMhz (p : Power) : Nat := if p.fastClamp then min 900 (clockCeiling p) else clockCeiling p

/-- `MOD_STATUS.POWER_CAPPED`, R527. -/
def powerCapped (p : Power) : Bool := decide (p.capW < 2600) || decide (clockCeiling p < 1800)

/-- `MOD_STATUS.DEGRADED`: some unit is disabled, R28. -/
def degraded (s : State) : Bool := !s.faults.disabled.isEmpty

/-- `MOD_STATUS.PARTITIONED`: rights are READONLY or STALE, R449. -/
def partitioned (s : State) : Bool := decide (s.fabric.view.rights ≠ .full)

/-- `MOD_STATUS` as a number, R511. -/
def modStatus (s : State) : Nat :=
  b2n s.power.cfgReady + 2 * b2n s.power.fwReady + 4 * b2n s.power.secureBootOk
    + 8 * b2n (degraded s) + 16 * b2n s.faults.latch + 32 * b2n s.power.thermalWarn
    + 64 * b2n (powerCapped s.power) + 128 * b2n (partitioned s) + 256 * powerState s.power

/-- The entry of an MSI-X vector. -/
def msixEntry (h : HostPort) (v : Nat) : MsixEntry := kgetD h.msix v MsixEntry.reset

/-- Raise a vector, R496: a masked one sets its pending bit, another is sent. -/
def raiseVector (v : Nat) (s : State) : State :=
  let e := msixEntry s.host v
  if e.masked then
    if s.host.pba.contains v then s
    else { s with host := { s.host with pba := v :: s.host.pba } }
  else { s with outputs := s.outputs ++ [.msix v e.addr e.data] }

/-- Raise vector 0 unless the IRQ block is halted by parity, R507. -/
def raiseEvent (s : State) : State := if s.host.irqHalted then s else raiseVector 0 s

/-- Whether the function is in D0, R553. -/
def inD0 (s : State) : Bool := !s.host.d3hot && !s.power.perst

/-- The bits of `IRQ_EVENT` that a change of `MOD_STATUS` from `m` to `n` latches, R513. -/
def changedEvents (m n : Nat) : List Nat :=
  (if bitOf m 1 != bitOf n 1 then [2] else [])
    ++ ([3, 4, 5, 6, 7].filter (fun i => bitOf m i != bitOf n i))
    ++ (if bits m 11 8 != bits n 11 8 then [8] else [])

/-- Latch bits of `IRQ_EVENT`; a newly latched and enabled one sends vector 0, once (R514), and outside D0 sets PME_Status (R553). -/
def latchEvents (bs : List Nat) (s : State) : State :=
  let fresh := bs.filter (fun b => !s.host.events.contains b)
  if fresh.isEmpty then s
  else
    let s1 := { s with host := { s.host with
      events := sortBy Nat.ble (s.host.events ++ fresh)
      pmeStatus := s.host.pmeStatus || !(inD0 s) } }
    if fresh.any (fun b => bitOf s.host.eventEn b) then raiseEvent s1 else s1

/-- After a command: latch the events of whatever `MOD_STATUS` changed since `old`, R513. -/
def settle (old s : State) : State := latchEvents (changedEvents (modStatus old) (modStatus s)) s

/-- The submission ring `n`. -/
def sqOf (h : HostPort) (n : Nat) : SubRing := kgetD h.sq n SubRing.reset

/-- The completion ring `n`. -/
def cqOf (h : HostPort) (n : Nat) : CplRing := kgetD h.cq n CplRing.reset

/-- Store a submission ring. -/
def setSq (n : Nat) (r : SubRing) (s : State) : State :=
  { s with host := { s.host with sq := kset s.host.sq n r } }

/-- Store a completion ring. -/
def setCq (n : Nat) (r : CplRing) (s : State) : State :=
  { s with host := { s.host with cq := kset s.host.cq n r } }

/-- The unit whose track ring a unit writes: the array of its cell for classes 0x0 to 0x3, R576. -/
def trackRing (unit : Nat) : Nat :=
  if unit / 4096 = 1 then unit % 4096 / 8 else if unit / 4096 < 4 then unit % 4096 else unit

/-- A track ring; one never written starts its SEQ at 1, R577. -/
def trackOf (s : State) (unit : Nat) : Track := kgetD s.dbg.tracks (trackRing unit) ⟨1, []⟩

/-- Write a track record, R576, R577: the newest 256 records are kept. -/
def trackBody (code unit tenant : Nat) (body : Bytes) (s : State) : State :=
  let t := trackOf s unit
  let r : TrackRec := ⟨if s.timeRuns then s.frontTime else 0, t.next, code, false, unit, tenant, body⟩
  let t1 : Track := ⟨if t.next = 0xFFFFFFFF then 1 else t.next + 1, (t.recs ++ [r]).drop (t.recs.length - 255)⟩
  { s with dbg := { s.dbg with tracks := kset s.dbg.tracks (trackRing unit) t1 } }

/-- A track record of the common body, R577. -/
def track (code unit tenant command arg0 arg1 : Nat) (s : State) : State :=
  trackBody code unit tenant
    (toLe 8 command ++ toLe 2 tenant ++ zeros 6 ++ toLe 8 arg0 ++ toLe 8 arg1 ++ zeros 32) s

/-- A submission ring enters ERROR with a cause, R491, R514. -/
def sqError (n cause : Nat) (s : State) : State :=
  let s1 := track 0x11 0xB000 0 0 n cause (setSq n { sqOf s.host n with state := .error, err := cause } s)
  let s2 := { s1 with host := { s1.host with
    sqErr := if s1.host.sqErr.contains n then s1.host.sqErr else n :: s1.host.sqErr
    pmeStatus := s1.host.pmeStatus || !(inD0 s1) } }
  if bitOf s2.host.eventEn 0 then raiseEvent s2 else s2

/-- A completion ring enters ERROR with a cause, R491, R514. -/
def cqError (n cause : Nat) (s : State) : State :=
  let s1 := track 0x11 0xB000 0 0 (n + 65536) cause (setCq n { cqOf s.host n with state := .error, err := cause } s)
  let s2 := { s1 with host := { s1.host with
    cqErr := if s1.host.cqErr.contains n then s1.host.cqErr else n :: s1.host.cqErr
    pmeStatus := s1.host.pmeStatus || !(inD0 s1) } }
  if bitOf s2.host.eventEn 1 then raiseEvent s2 else s2

/-- `IRQ_EVENT` as read, R513. -/
def irqEvent (h : HostPort) : Nat :=
  b2n (!h.sqErr.isEmpty) + 2 * b2n (!h.cqErr.isEmpty)
    + listSum (h.events.map (fun b => 2 ^ b))

/-- PARITY halt, MOD_PARITY and so on are in Registers; FAULT_N, WAKE_N and ALERT_N follow from State, R547. -/
def faultN (s : State) : Bool := !(s.power.calm && s.faults.latch)

/-- WAKE_N is low while PME_Status and PME_En are both set and the calm island runs, R553. -/
def wakeN (s : State) : Bool := !(s.power.calm && s.host.pmeStatus && s.host.pmeEn)

/-- ALERT_N is low while a status bit is set and has not been answered, R552. -/
def alertN (p : Power) : Bool :=
  !(p.calm && !p.alertAnswered && (p.statusInput != 0 || p.statusTemp != 0 || p.cml))

end Sys2Proof.Machine
end

