-- ==== Sys2Proof/Machine/Ops.lean ====
section
/-! DEFINITION. The named operations that every chapter shares: time, counters, free values, the fault log, ring slots and status records. -/

namespace Sys2Proof.Machine

open Sys2Proof

/-- The outcome of a command that the spec lets go on. -/
abbrev Result := Host.Outcome State Fault Refusal

/-- Front time reaches `now`; it never runs backwards here (steps are `stepClock`). -/
def advance (now : Nat) (s : State) : State :=
  if s.timeRuns then { s with frontTime := max s.frontTime now } else s

/-- A counter advanced. -/
def bump (c : Ctr) (k n : Nat) (s : State) : State := { s with counters := ctrAdd s.counters c k n }

/-- Something sent. -/
def emit (o : Output) (s : State) : State := { s with outputs := s.outputs ++ [o] }

/-- Queue marks of a unit: an arrival left `now` entries, R582. -/
def noteHigh (unit q now : Nat) (s : State) : State :=
  let m := kgetD s.dbg.marks (unit * 8 + q) (0, 0)
  if m.1 < now then { s with dbg := { s.dbg with marks := kset s.dbg.marks (unit * 8 + q) (now, m.2) } } else s

/-- An arrival found the queue full and waits, R582. -/
def noteFull (unit q : Nat) (s : State) : State :=
  let m := kgetD s.dbg.marks (unit * 8 + q) (0, 0)
  { s with dbg := { s.dbg with marks := kset s.dbg.marks (unit * 8 + q) (m.1, m.2 + 1) } }

/-- The next free value: a number nothing constrains, and the state past it (log entry 5). -/
def drawFree (s : State) : Nat × State := (Config.freeNat s.freeCtr, { s with freeCtr := s.freeCtr + 1 })

/-- A fresh 256-bit value of the generator, R455. -/
def drawKey (s : State) : BitVec 256 × State :=
  (Config.drbg s.sec.draws, { s with sec := { s.sec with draws := s.sec.draws + 1 } })

/-- Add a record to the fault log's queue, or count it as dropped where the queue is full, R593, R594.
Severity 2 and 3 set the latch either way. -/
def logFault (code sev action unit tenant command arg0 arg1 : Nat) (s : State) : State :=
  let fl := s.faults
  let latch := fl.latch || decide (2 ≤ sev)
  if fl.queue.length < 64 then
    let r : FaultRec := ⟨fl.nextSeq, code, sev, action, if s.timeRuns then s.frontTime else 0,
      s.sec.bootCount, unit, tenant, command, arg0, arg1⟩
    { s with faults := { fl with
        queue := fl.queue ++ [r]
        nextSeq := if fl.nextSeq = 0xFFFFFFFF then 1 else fl.nextSeq + 1
        latch := latch
        latchSeq := if 2 ≤ sev then fl.nextSeq else fl.latchSeq } }
  else
    { s with faults := { fl with
        dropped := fl.dropped + 1
        droppedSev := max fl.droppedSev sev
        latch := latch } }

/-- Write the queue to flash: the ring holds 126,976 records and a full one gives up its oldest 64, R594. -/
def flushFlash : List FaultRec → List FaultRec → List FaultRec
  | flash, [] => flash
  | flash, r :: rs => flushFlash ((if flash.length < 126976 then flash else flash.drop 64) ++ [r]) rs

/-- The queue is written to flash and a LOG_LOST record stands for the dropped ones, R594. -/
def flushFaults (s : State) : State :=
  let fl := s.faults
  let s1 := { s with faults := { fl with flash := flushFlash fl.flash fl.queue, queue := [] } }
  if fl.dropped = 0 then s1
  else
    let s2 := { s1 with faults := { s1.faults with dropped := 0, droppedSev := 0 } }
    logFault 0x0012 fl.droppedSev 0 0xD000 0 0 fl.dropped fl.droppedSev s2

/-- A unit is disabled now and listed in the disable table, R596. -/
def disableUnit (unit : Nat) (s : State) : State :=
  if s.faults.disabled.contains unit then s
  else
    let s1 := { s with faults := { s.faults with
      disabled := sortBy Nat.ble (unit :: s.faults.disabled)
      table := kset s.faults.table unit (kgetD s.faults.table unit 0 + 1) } }
    logFault 0x0011 2 3 unit 0 0 0 0 s1

/-- Count a fault of one kind at a unit; the second within 24 h of ticks disables it, R596. -/
def countUnitFault (unit kind : Nat) (s : State) : State :=
  let recent := s.faults.history.filter (fun h => h.1 == unit && h.2.1 == kind && decide (s.ticks < h.2.2 + 86400000))
  let s1 := { s with faults := { s.faults with history := (unit, kind, s.ticks) :: s.faults.history } }
  if recent.isEmpty then s1 else disableUnit unit s1

/-- Slots of a record with `len` result bytes, R48. -/
def recordSlots (len : Nat) : Nat := ceilDiv (48 + len) 64

/-- Slots of a packet with `len` parameter bytes, R42. -/
def packetSlots (len : Nat) : Nat := ceilDiv (64 + len) 64

/-- Slots of a chunk of a request, R380. -/
def chunkSlots (ids : Bool) (tokens : Nat) : Nat := ceilDiv (4160 + 4 * tokens * b2n ids) 64

/-- Slots in use of a completion ring. -/
def cqUsed (r : CplRing) : Nat := (r.tail - r.head).toNat

/-- Slots neither in use nor reserved. -/
def cqFree (r : CplRing) : Nat := 2 ^ r.log2 - cqUsed r - r.reserved

/-- The PHASE of a position: 1 on even passes through the ring, R54. -/
def phaseOf (log2 : Nat) (pos : W32) : Bool := (pos.toNat / 2 ^ log2) % 2 == 0

/-- The 32-byte status reply, R48. -/
def replyBytes (commandId : Nat) (st : Status) (event phase staged : Bool) (len time detail : Nat) : Bytes :=
  toLe 8 commandId ++ toLe 2 st.code ++ toLe 1 (b2n event) ++ toLe 1 (b2n phase + 2 * b2n staged)
    ++ toLe 4 len ++ toLe 8 time ++ toLe 8 detail

/-- XOR a byte string with the key stream of R45, from position `i`. -/
def gcmXor (key : BitVec 256) (nonce : Bytes) : Nat → Bytes → Bytes
  | _, [] => []
  | i, b :: bs => (b ^^^ gcmStream key nonce i) :: gcmXor key nonce (i + 1) bs

/-- The nonce of a record, R475. -/
def replyNonce (ring gen : Nat) (pos : W32) (session : Nat) : Bytes :=
  toLe 2 ring ++ toLe 2 gen ++ toLe 4 pos.toNat ++ toLe 4 session

/-- The position of a ring moves past a record; the generation advances when it wraps, R475. -/
def cqAdvance (n slots : Nat) (s : State) : State :=
  let r := cqOf s.host n
  let wraps := decide (2 ^ 32 ≤ r.tail.toNat + slots)
  let r1 := { r with tail := r.tail + BitVec.ofNat 32 slots, gen := if wraps && decide (r.gen < 0xFFFF) then r.gen + 1 else r.gen }
  let s1 := setCq n r1 s
  if wraps && decide (0xFFFF ≤ r.gen) then cqError n 5 s1 else s1

/-- Signal a record of ring `n` under its coalescing rule, R496. -/
def cqSignal (n : Nat) (s : State) : State :=
  let r := cqOf s.host n
  let count := r.unsignalled + 1
  if r.irqEn && decide (max 1 r.coalCount ≤ count) then
    raiseVector r.vector (setCq n { r with unsignalled := 0 } s)
  else
    setCq n { r with unsignalled := count, firstUnsignalled := if r.unsignalled = 0 then s.frontTime else r.firstUnsignalled } s

/-- A record due to a ring that cannot take it is dropped and counted, R492. -/
def cqDrop (n : Nat) (s : State) : State :=
  let r := cqOf s.host n
  setCq n { r with dropped := min 0xFFFFFFFF (r.dropped + 1) } s

/-- The key under which a session's records are sealed, R475; none for session 0 and for a closed one. -/
def replyKey (s : State) (session : Nat) : Option (BitVec 256) :=
  if session = 0 then none else (kget s.proto.sessions session).map (·.keyRep)

/-- Post a record, R48, R54, R492: `clear` where it carries no tag, `reserved` where slots were reserved for it. -/
def postRecord (n session commandId : Nat) (event staged clear reserved : Bool) (time : Nat) (r : Reply) (s : State) : State :=
  let cq := cqOf s.host n
  let slots := recordSlots r.result.length
  let room := if reserved then decide (slots + cqUsed cq ≤ 2 ^ cq.log2) else decide (slots ≤ cqFree cq)
  if cq.state = .enabled ∧ room = true then
    let phase := phaseOf cq.log2 cq.tail
    let nonce := replyNonce n cq.gen cq.tail session
    let plain := replyBytes commandId r.status event false staged r.result.length time r.detail
    let key := if clear then none else replyKey s session
    let body := match key with
      | none => r.result
      | some k => gcmXor k nonce 0 r.result
    let tag := match key with
      | none => 0
      | some k => gcmTag k nonce plain body
    let rec' : Record := ⟨n, cq.tail, phase, commandId, r.status, event, staged, time, r.detail, r.result, body, tag⟩
    cqSignal n (cqAdvance n slots (emit (.record rec') s))
  else cqDrop n s

/-- Give back `k` reserved slots of ring `n`, R53. -/
def cqRelease (n k : Nat) (s : State) : State :=
  let r := cqOf s.host n
  setCq n { r with reserved := r.reserved - k } s

/-- Reserve `k` slots of ring `n`, R53. -/
def cqReserve (n k : Nat) (s : State) : State :=
  let r := cqOf s.host n
  let s1 := setCq n { r with reserved := r.reserved + k } s
  noteHigh 0xB000 0 (listSum ((kvals s1.host.cq).map (·.reserved))) s1

/-- Version of a configuration object, R67. -/
def versionOf (l : List (Obj × Nat)) (o : Obj) : Nat := ((l.find? (fun p => decide (p.1 = o))).map (·.2)).getD 0

/-- The versions with one object's advanced, R67. -/
def bumpVersion (l : List (Obj × Nat)) (o : Obj) : List (Obj × Nat) :=
  (o, versionOf l o + 1) :: l.filter (fun p => decide (p.1 ≠ o))

/-- A commit changed these objects: their versions and the step counter advance, R40, R56, R67. -/
def commitObjects (os : List Obj) (s : State) : State :=
  { s with proto := { s.proto with
      versions := os.foldl bumpVersion s.proto.versions
      changedAt := os.map (fun o => (o, s.frontTime)) ++ s.proto.changedAt.filter (fun p => !(os.any (fun o => decide (o = p.1))))
      stepCount := s.proto.stepCount + 1 } }

/-- Read bytes of device memory. -/
def memRead (s : State) (a n : Nat) : Bytes := Memory.readN s.mem a n

/-- Write bytes of device memory. -/
def memWrite (a : Nat) (b : Bytes) (s : State) : State := { s with mem := Memory.writeN s.mem a b }

/-- Clear bytes of device memory. -/
def memClear (a n : Nat) (s : State) : State := { s with mem := Memory.clear s.mem a n }

end Sys2Proof.Machine
end

