-- ==== Sys2Proof/Machine/Views.lean ====
section
/-! DEFINITION. Fronts: members, reachability, the rule that decides which side holds a front (R447), and scope paths (R33, R34). -/

namespace Sys2Proof.Machine

open Sys2Proof

/-- The modules of the view that are direct members of a node. -/
def directModules (v : View) (node : Nat) : List Nat :=
  (v.modules.filter (fun p => p.2.node == node)).map (·.1)

/-- The sub-fronts of the view that are direct members of a node. -/
def directFronts (v : View) (node : Nat) : List Nat :=
  (v.nodes.filter (fun p => p.1 != 0 && p.2.parent == node)).map (·.1)

/-- The direct members of a node. -/
def directMembers (v : View) (node : Nat) : List MemberRef :=
  (directModules v node).map .module ++ (directFronts v node).map .front

/-- The anchor of a node. -/
def anchorOf (v : View) (node : Nat) : Option MemberRef := (kget v.nodes node).map (fun f => f.anchor)

/-- All modules at any depth below a node, the depth bounded by `fuel` (at most nine levels, R35). -/
def modulesUnder (v : View) : Nat → Nat → List Nat
  | 0, _ => []
  | fuel + 1, node => directModules v node ++ ((directFronts v node).map (modulesUnder v fuel)).flatten

/-- The modules a member stands for, in ascending ID. -/
def modulesOf (v : View) : MemberRef → List Nat
  | .module m => [m]
  | .front n => sortBy Nat.ble (modulesUnder v 9 n)

/-- Whether module `m` is reachable here, R446: this module always is, a peer until it is declared unreachable. A module under formation is named by 0x10000 plus its ID in the result. -/
def reaches (s : State) (m : Nat) : Bool :=
  m == s.fabric.view.self || !((kget s.fabric.peers (m % 0x10000)).any (·.cut))

/-- The reachable set R of R446, ascending. -/
def reachSet (s : State) : List Nat := (kkeys s.fabric.view.modules).filter (reaches s)

/-- Whether a set of modules holds a front, R447. -/
def holdsFront (v : View) (side : List Nat) : Nat → Nat → Bool
  | 0, _ => false
  | fuel + 1, node =>
    let ms := directModules v node
    let fs := directFronts v node
    let n := ms.length + fs.length
    let h := (ms.filter side.contains).length + (fs.filter (holdsFront v side fuel)).length
    if n < 2 * h then true
    else if 2 * h = n then
      match anchorOf v node with
      | some (.module a) => side.contains a
      | some (.front f) => holdsFront v side fuel f
      | none => false
    else false

/-- Whether a set of modules holds the top front. -/
def holdsTop (v : View) (side : List Nat) : Bool := holdsFront v side 9 0

/-- The time source of a node, R435: its anchor module, taken recursively. -/
def timeSource (v : View) : Nat → Nat → Nat
  | 0, _ => v.self
  | fuel + 1, node =>
    match anchorOf v node with
    | some (.module a) => a
    | some (.front f) => timeSource v fuel f
    | none => v.self

/-- The direct member of a node that an entry of a scope path names, R33. -/
def memberNamed (v : View) (node entry : Nat) : Option MemberRef :=
  if (directModules v node).contains entry then some (.module entry)
  else ((directFronts v node).find? (fun f => ((kget v.nodes f).map (·.index)) == some entry)).map .front

/-- Why a scope path does not name a member, R34. -/
inductive ScopeError where
  | malformed
  | outOfRange
  deriving DecidableEq, Repr

/-- Follow the used entries of a scope path from a member, R33, R34. -/
def followScope (v : View) : MemberRef → List Nat → Except ScopeError MemberRef
  | r, [] => .ok r
  | .module _, _ :: _ => .error .malformed
  | .front n, e :: es =>
    match memberNamed v n e with
    | none => .error .outOfRange
    | some r => followScope v r es

/-- The member a scope path names in the present view, R33, R34. -/
def resolveScope (v : View) (scope : List Nat) (depth : Nat) : Except ScopeError MemberRef :=
  if 8 < depth ∨ (scope.drop depth).any (· != 0xFFF) then .error .malformed
  else if depth ≠ 0 ∧ v.modules.length = 1 then .error .outOfRange
  else followScope v (.front 0) (scope.take depth)

/-- Whether the named member is reachable, R34: a module by R446, a sub-front when its reached modules hold it. -/
def memberReachable (s : State) : MemberRef → Bool
  | .module m => reaches s m
  | .front n => n == 0 || holdsFront s.fabric.view (reachSet s) 9 n

/-- The lowest module within a member that this module does not reach. -/
def lowestUnreached (s : State) (r : MemberRef) : Nat :=
  ((modulesOf s.fabric.view r).find? (fun m => !reaches s m)).getD 0

/-- The members that the used entries of a scope path name, from the top down. -/
def scopeSteps (v : View) (scope : List Nat) (depth : Nat) : List MemberRef :=
  (List.range depth).filterMap (fun i => (followScope v (.front 0) (scope.take (i + 1))).toOption)

/-- The first member on a scope path that is unreachable, R34. -/
def scopeUnreached (s : State) (hdr : Header) : Option MemberRef :=
  (scopeSteps s.fabric.view hdr.scope hdr.scopeDepth).find? (fun r => !memberReachable s r)

/-- The modules a command's scope names; empty where the path names none. -/
def scopeModules (s : State) (hdr : Header) : List Nat :=
  match resolveScope s.fabric.view hdr.scope hdr.scopeDepth with
  | .ok r => modulesOf s.fabric.view r
  | .error _ => []

/-- The member a command's scope names. -/
def scopeMember (s : State) (hdr : Header) : Option MemberRef :=
  (resolveScope s.fabric.view hdr.scope hdr.scopeDepth).toOption

/-- Whether a scope lies within another: the outer path starts the inner one, R62. -/
def scopeWithin (inner outer : List Nat) (innerDepth outerDepth : Nat) : Bool :=
  decide (outerDepth ≤ innerDepth) && (inner.take outerDepth == outer.take outerDepth)

/-- DEVICE_UID of a module: this module's own from OTP, another's from the view, that of a module under formation from the view it is to enter. -/
def uidOf (s : State) (m : Nat) : Nat :=
  if m = s.fabric.view.self then Config.deviceUid.toNat
  else if m < 0x10000 then ((kget s.fabric.view.modules m).map (·.uid)).getD 0
  else (s.fabric.forming.findSome? (fun p => (kget p.2.modules (m % 0x10000)).map (·.uid))).getD 0

/-- The scope path of a node below the top front: the front indexes from the top down. -/
def nodePath (v : View) : Nat → Nat → List Nat
  | 0, _ => []
  | fuel + 1, node =>
    if node = 0 then []
    else match kget v.nodes node with
      | none => []
      | some f => nodePath v fuel f.parent ++ [f.index]

/-- The scope path that names a module, R445. -/
def modulePath (v : View) (m : Nat) : List Nat :=
  match kget v.modules m with
  | none => []
  | some e => nodePath v 9 e.node ++ [m]

/-- The 12 bytes of a scope path, R33. -/
def pathBytes (path : List Nat) : Bytes :=
  let es := (path ++ List.replicate 8 0xFFF).take 8
  toLe 12 ((es.zipIdx).foldl (fun acc p => acc + p.1 * 2 ^ (12 * p.2)) 0)

/-- The eight entries of a scope path from its 12 bytes, R33. -/
def pathEntries (b : Bytes) : List Nat :=
  let v := leNat b
  (List.range 8).map (fun i => bits v (12 * i + 11) (12 * i))

end Sys2Proof.Machine
end

