-- ==== Sys2Proof/Machine/Messages.lean ====
section
/-! DEFINITION. Sending a message to a peer: the common header (R429), encryption under the link key (R428), segments under credit (R424 to R426), flits (R420) and datagrams (R432). -/

namespace Sys2Proof.Machine

open Sys2Proof

/-- The link key for messages from one module to another, R476. -/
def linkKey (s : State) (src dst : Nat) : BitVec 256 :=
  let peer := if src = s.fabric.view.self then dst else src
  let prk := ((kget s.sec.pairs (uidOf s peer)).map (·.prk)).getD 0
  BitVec.ofNat 256 (leNat (hkdfExpand prk
    (ascii "LINK" ++ toLe 8 (uidOf s src) ++ toLe 8 (uidOf s dst)) 32))

/-- Nonce of a message, R428. -/
def messageNonce (seq channel src : Nat) : Bytes := toLe 8 seq ++ toLe 2 channel ++ toLe 2 src

/-- Additional data of a message, R428. -/
def messageAad (src dst channel seq len : Nat) : Bytes :=
  toLe 2 src ++ toLe 2 dst ++ toLe 2 channel ++ toLe 8 seq ++ toLe 4 len

/-- The common header of a message, R429. -/
def commonHeader (type tenant epoch corr : Nat) : Bytes :=
  toLe 1 type ++ [0] ++ toLe 2 tenant ++ zeros 4 ++ toLe 8 epoch ++ toLe 8 corr

/-- SRC of what this module sends to another: its module ID, 0xFFFF towards a module that is not yet in its view, R424. -/
def srcOf (s : State) (dst : Nat) : Nat := if dst < 0x10000 then s.fabric.view.self else 0xFFFF

/-- DST likewise. -/
def dstOf (dst : Nat) : Nat := if dst < 0x10000 then dst else 0xFFFF

/-- The transport header, R424. -/
def transportHeader (kind channel src dst seq offset len segLen credit : Nat) : Bytes :=
  toLe 1 1 ++ toLe 1 kind ++ toLe 2 channel ++ toLe 2 src ++ toLe 2 dst ++ toLe 8 seq ++ toLe 4 offset
    ++ toLe 4 len ++ toLe 2 segLen ++ toLe 2 credit ++ zeros 4

/-- A channel to a peer. -/
def channelOf (s : State) (peer ch : Nat) : Channel := kgetD s.fabric.channels (peer * 4096 + ch) Channel.reset

/-- Store a channel. -/
def setChannel (peer ch : Nat) (c : Channel) (s : State) : State :=
  { s with fabric := { s.fabric with channels := kset s.fabric.channels (peer * 4096 + ch) c } }

/-- A port. -/
def portOf (s : State) (p : Nat) : Port := kgetD s.fabric.ports p Port.reset

/-- Store a port. -/
def setPort (p : Nat) (x : Port) (s : State) : State :=
  { s with fabric := { s.fabric with ports := kset s.fabric.ports p x } }

/-- The port on which segments to a module leave, R423. -/
def routePort (s : State) (dst : Nat) : Option Nat :=
  (s.fabric.routes.find? (fun r => r.1 == dst)).map (·.2.2.1)

/-- Channels open through a port, R582. -/
def channelsOn (s : State) (p : Nat) : Nat :=
  (s.fabric.channels.filter (fun c => !c.2.closed && routePort s (c.1 / 4096) == some p)).length

/-- A 256-byte flit, R420. -/
def flitBytes (ftype flags seq ack : Nat) (payload : Bytes) : Bytes :=
  let b := toLe 1 ftype ++ toLe 1 flags ++ toLe 2 seq ++ toLe 2 ack ++ toLe 1 payload.length ++ [0]
    ++ (payload ++ zeros (240 - payload.length))
  b ++ toLe 8 (crc64 b).toNat

/-- Send the pieces of a segment as DATA flits on a JET port, keeping the last 1,024, R420, R422. -/
def sendFlits (p : Nat) : Bool → List Bytes → State → State
  | _, [], s => s
  | first, b :: bs, s =>
    let x := portOf s p
    let seq := (x.txSeq + 1) % 65536
    let flags := b2n first + 2 * b2n bs.isEmpty
    let s1 := noteHigh (0xA000 + p) 0 (min 1024 (x.kept.length + 1)) (setPort p { x with txSeq := seq, kept := ((seq, flags, b) :: x.kept).take 1024 } s)
    sendFlits p false bs (emit (.flit p 1 (flitBytes 1 flags seq x.rxSeq b)) s1)

/-- The largest segment on a port in ETH mode, R432. -/
def segmentBound (x : Port) : Nat :=
  if x.mode = .eth then min 4096 ((x.mtu - 96) / 64 * 64) else 4096

/-- A segment leaves by its route: as flits on a JET port, as a datagram with its CRC-64 on an ETH port. -/
def sendSegment (dst : Nat) (ch : Nat) (seg : Bytes) (s : State) : State :=
  let s1 := emit (.segment dst ch seg) s
  match routePort s dst with
  | none => s1
  | some p =>
    if (portOf s p).mode = .eth then emit (.ethernet p 0 (seg ++ toLe 8 (crc64 seg).toNat)) s1
    else sendFlits p true (pieces 240 (ceilDiv seg.length 240) seg) s1

/-- Send as much of the first unsent message of a channel as its credit allows, one segment a round. -/
def pump (dst ch : Nat) : Nat → State → State
  | 0, s => s
  | fuel + 1, s =>
    let c := channelOf s dst ch
    match c.unacked.find? (fun o => decide (o.sent < o.bytes.length)) with
    | none => s
    | some o =>
      if c.credit = 0 ∨ c.closed then s
      else
        let bound := match routePort s dst with
          | none => 4096
          | some p => segmentBound (portOf s p)
        let seg := slice o.bytes o.sent bound
        let hdr := transportHeader 0 ch (srcOf s dst) (dstOf dst) o.seq o.sent o.bytes.length seg.length 0
        let c1 := { c with
          credit := c.credit - 1
          unacked := c.unacked.map (fun x => if x.seq = o.seq then { x with sent := x.sent + seg.length } else x) }
        pump dst ch fuel (sendSegment dst ch (hdr ++ seg) (setChannel dst ch c1 s))

/-- Send an ACK: the position expected next and the credit returned, R424, R426. -/
def sendAck (dst ch credit : Nat) (s : State) : State :=
  let c := channelOf s dst ch
  sendSegment dst ch (transportHeader 1 ch (srcOf s dst) (dstOf dst) c.rxSeq c.rxOffset 0 0 credit) s

/-- The slot of a TILE's command is free: its credit goes back to the source, R426. -/
def returnSlot (peer tenant corr : Nat) (s : State) : State :=
  match s.fabric.channels.find? (fun p => p.1 / 4096 == peer && p.2.slotOf == some (tenant, corr)) with
  | none => s
  | some p => sendAck peer (p.1 % 4096) 1 (setChannel peer (p.1 % 4096) { p.2 with slotOf := none } s)

/-- The channel a message type uses, R425; TILE and KV_SHIP name their own. -/
def channelOfType (type own : Nat) : Nat :=
  if type = 0x08 then 1
  else if type = 0x03 ∨ type = 0x04 then 2
  else if type = 0x05 ∨ type = 0x06 ∨ type = 0x07 then 3
  else if type = 0x01 ∨ type = 0x02 then own
  else 0

/-- Send a message to a module: plaintext, encryption, queueing on its channel, segments. -/
def sendMessage (dst type sub tenant corr own : Nat) (body : Bytes) (s : State) : State :=
  let ch := channelOfType type own
  let c := channelOf s dst ch
  let self := s.fabric.view.self
  let plain := commonHeader type tenant s.fabric.view.epoch corr ++ body
  let key := linkKey s self dst
  let nonce := messageNonce c.txSeq ch (srcOf s dst)
  let cipher := gcmXor key nonce 0 plain
  let len := plain.length + 16
  let tag := gcmTag key nonce (messageAad (srcOf s dst) (dstOf dst) ch c.txSeq len) cipher
  let out : Outgoing := ⟨c.txSeq, cipher ++ toLe 16 tag.toNat, 0, 0, 0⟩
  let s1 := setChannel dst ch { c with txSeq := c.txSeq + 1, unacked := c.unacked ++ [out] } s
  let s2 := match routePort s1 dst with
    | none => s1
    | some p => noteHigh (0xA000 + p) 1 (channelsOn s1 p) s1
  pump dst ch 64 (emit (.message dst type sub body) s2)

/-- Send one message to each of several modules. -/
def sendAll (type sub tenant corr : Nat) (body : Bytes) : List Nat → State → State
  | [], s => s
  | d :: ds, s => sendAll type sub tenant corr body ds (sendMessage d type sub tenant corr 0 body s)

/-- The 48 bytes of a command header, R43. -/
def headerBytes (h : Header) : Bytes :=
  toLe 1 h.version ++ toLe 1 h.hdrLen ++ toLe 2 h.opcode
    ++ toLe 2 (b2n h.paramEnc + 2 * b2n h.inTxn + 4 * b2n h.fence + 8 * h.flagsRsv) ++ toLe 2 h.paramLen
    ++ toLe 8 h.commandId ++ toLe 8 h.seq ++ pathBytes h.scope ++ toLe 4 h.sessionId ++ toLe 4 h.txnId
    ++ toLe 2 h.replyRing ++ toLe 1 h.prio ++ toLe 1 h.scopeDepth

/-- The header that 48 bytes spell, R43, R44. -/
def parseHeader (b : Bytes) : Header :=
  let fl := fld b 4 2
  { version := fld b 0 1, hdrLen := fld b 1 1, opcode := fld b 2 2
    paramEnc := bitOf fl 0, inTxn := bitOf fl 1, fence := bitOf fl 2, flagsRsv := fl / 8
    paramLen := fld b 6 2, commandId := fld b 8 8, seq := fld b 16 8
    scope := pathEntries (slice b 24 12), sessionId := fld b 36 4, txnId := fld b 40 4
    replyRing := fld b 44 2, prio := fld b 46 1, scopeDepth := fld b 47 1 }

/-- The body of a CMD_FWD message, R430. -/
def cmdFwdBody (op vote entry txn : Nat) (body : Bytes) : Bytes :=
  toLe 1 op ++ toLe 1 vote ++ toLe 2 entry ++ toLe 4 txn ++ body

/-- A status reply and its result, as CMD_FWD REPLY and VOTE carry them. -/
def replyBody (commandId time : Nat) (r : Reply) : Bytes :=
  replyBytes commandId r.status false false false r.result.length time r.detail ++ r.result

end Sys2Proof.Machine
end

