-- ==== Sys2Proof/Machine/Flights.lean ====
section
/-! DEFINITION. What a chapter says of a command: its checks (R49, R55), its effect; the commands in flight and the final record of one (R48). -/

namespace Sys2Proof.Machine

open Sys2Proof

/-- The status with a code. -/
def statusOf (code : Nat) : Status :=
  ([.ok, .okPartial, .badOpcode, .badParam, .badLength, .badFormat, .outOfRange, .noResource, .ringFull, .tableFull, .tierFull,
    .holdOverflow, .authFail, .noSession, .notPermitted, .replay, .locked, .txnUnknown, .txnConflict, .txnAborted, .txnLimit,
    .nanTrap, .dataPoisoned, .integrityFail, .saturationLimit, .memberUnreachable, .partitionedReadonly, .epochStale, .tierLate,
    .tierError, .cancelled, .budgetExhausted, .admissionRefused, .deadlineMissed, .configParity] : List Status).find?
      (fun st => st.code == code) |>.getD .internalFault

/-- OK or OK_PARTIAL: the statuses of a committed command, R77. -/
def goodStatus (st : Status) : Bool := decide (st = .ok) || decide (st = .okPartial)

/-- How a command's chapter ends it when it runs. -/
inductive Verdict where
  /-- it fails with a status and a DETAIL, without effect -/
  | reject (status : Status) (detail : Nat)
  /-- it fails likewise; what the device has evicted to find room stays evicted, R219, R222 -/
  | rejectIn (s : State) (status : Status) (detail : Nat)
  /-- it commits -/
  | done (s : State) (r : Reply)
  /-- it has begun; a later command of the queue ends it -/
  | begun (s : State)
  /-- it cannot begin yet -/
  | wait
  /-- it waits for what it has set going: a victim's write-back, R224, or an object another command moves -/
  | waitIn (s : State)

/-- What a chapter says of one opcode. -/
structure Command where
  op : Opcode
  /-- it changes state that other commands read (R38, R72) -/
  changes : Bool
  /-- the configuration objects it reads or changes: their versions are recorded when it is staged, R67 -/
  objects : State → Flight → List Obj
  /-- those of them that it changes: their versions advance at its commit, R67 -/
  changed : State → Flight → List Obj := objects
  /-- the stored content it changes, which has no version: locked while a front-wide commit is undecided, R72 -/
  held : State → Flight → List Obj := fun _ _ => []
  /-- the checks of its parameters, R64 -/
  check : State → Flight → Option (Status × Nat)
  /-- those of its checks that its parameters alone decide, made when it is staged, R64; the state is judged at the commit, R66: where it is not said, those of class 0x01 -/
  staged : State → Flight → Option (Status × Nat) := fun s f => (check s f).filter (fun e => e.1.code / 256 == 1)
  /-- its commit point stands behind admitted commands that have not ended -/
  waits : State → Flight → Bool := fun _ _ => false
  /-- its effect against the present state -/
  run : State → Flight → Verdict
  /-- what the entry member carries to a module besides the parameters: data they name by address (log entry 20) -/
  carried : State → Flight → Nat → Bytes := fun _ _ _ => []
  /-- how many such bytes follow the parameters in a PREPARE of several parts -/
  carriedLen : Flight → Nat := fun _ => 0
  /-- what the entry member checks of the data it carries, where the scope names other modules -/
  entry : State → Flight → Option (Status × Nat) := fun _ _ => none
  /-- what a participant notes when it votes YES -/
  prepare : State → Flight → State := fun s _ => s

/-- The objects whose locks a command waits for: those it would change, R72. -/
def Command.writes (c : Command) (s : State) (f : Flight) : List Obj := c.changed s f ++ c.held s f

/-- The objects that a command locks from its vote to the decision, R72. -/
def Command.touches (c : Command) (s : State) (f : Flight) : List Obj := c.objects s f ++ c.held s f

/-- The first check of a list that fails: whether it fails, its status, its DETAIL. -/
def firstFail : List (Bool × Status × Nat) → Option (Status × Nat)
  | [] => none
  | (fails, st, d) :: l => if fails then some (st, d) else firstFail l

/-- Checks before an effect. -/
def checked (l : List (Bool × Status × Nat)) (k : Verdict) : Verdict :=
  match firstFail l with
  | some (st, d) => .reject st d
  | none => k

/-- PARAM_LEN is not `n`: BAD_LENGTH with the offset of PARAM_LEN, R602. -/
def lengthIs (f : Flight) (n : Nat) : Bool × Status × Nat := (f.params.length != n, .badLength, 6)

/-- A reserved stretch of the parameters is not zero: BAD_PARAM with its packet offset, R15, R49. -/
def reservedZero (f : Flight) (off len : Nat) : Bool × Status × Nat := (!zeroAt f.params off len, .badParam, 48 + off)

/-- A check has failed at the length of the parameters, the first check of step 11, R602. -/
def lengthFault : Option (Status × Nat) → Bool
  | some (st, d) => decide (st = .badLength) && d == 6
  | none => false

/-- A condition on the parameter at an offset that must not hold: BAD_PARAM. -/
def badParamIf (c : Bool) (off : Nat) : Bool × Status × Nat := (c, .badParam, 48 + off)

/-- A condition on the parameter at an offset that must not hold: OUT_OF_RANGE. -/
def rangeIf (c : Bool) (off : Nat) : Bool × Status × Nat := (c, .outOfRange, 48 + off)

/-- A condition on the parameter at an offset that must not hold: BAD_FORMAT. -/
def formatIf (c : Bool) (off : Nat) : Bool × Status × Nat := (c, .badFormat, 48 + off)

/-- A condition on the parameter at an offset that must not hold: BAD_LENGTH. -/
def lengthIf (c : Bool) (off : Nat) : Bool × Status × Nat := (c, .badLength, 48 + off)

/-- A condition that must not hold, with its status and DETAIL. -/
def failIf (c : Bool) (st : Status) (d : Nat) : Bool × Status × Nat := (c, st, d)

/-- An identifier that names nothing: NOT_PERMITTED in a tenant session (R61), else OUT_OF_RANGE at its offset. -/
def unnamedIf (f : Flight) (c : Bool) (off : Nat) : Bool × Status × Nat :=
  (c, if f.tenant = 0 then .outOfRange else .notPermitted, if f.tenant = 0 then 48 + off else 0)

/-- A parameter field. -/
def par (f : Flight) (off len : Nat) : Nat := fld f.params off len

/-- The command in flight that a row names. -/
def flightOf (s : State) (h : Nat) : Option Flight := s.proto.flights.find? (fun f => f.serial == h)

/-- The flights without one. -/
def dropFlight (h : Nat) (s : State) : State :=
  { s with proto := { s.proto with flights := s.proto.flights.filter (fun f => f.serial != h) } }

/-- A flight changed in place. -/
def setFlight (f : Flight) (s : State) : State :=
  { s with proto := { s.proto with flights := s.proto.flights.map (fun g => if g.serial = f.serial then f else g) } }

/-- A command has begun and waits: a later row of it goes on, R57. -/
def beginFlight (f : Flight) (s : State) : State :=
  match flightOf s f.serial with
  | some g => setFlight { g with begun := true } s
  | none => s

/-- A status reply with nothing more. -/
def plainReply (st : Status) (d : Nat := 0) : Reply := { status := st, detail := d }

/-- A reply OK with a result. -/
def okReply (b : Bytes := []) : Reply := { status := .ok, result := b }

/-- Whether the record of a reply is sent in clear: session 0 and AUTH_FAIL, R48. -/
def clearRecord (session : Nat) (st : Status) : Bool := decide (session = 0) || decide (st = .authFail)

/-- The final record of a command, to its reply ring or, forwarded, to its entry member; the command leaves the list (R36, R48, R53). -/
def finishAt (time : Nat) (f : Flight) (r : Reply) (s : State) : State :=
  let s1 := track 2 0x9100 f.tenant f.hdr.commandId f.hdr.opcode r.status.code (dropFlight f.serial s)
  match f.origin with
  | .host _ =>
    postRecord f.hdr.replyRing f.hdr.sessionId f.hdr.commandId false false (clearRecord f.hdr.sessionId r.status)
      (decide (0 < f.reserved)) time r (cqRelease f.hdr.replyRing f.reserved s1)
  | .peer m _ =>
    sendMessage m 0x08 1 f.tenant f.hdr.commandId 0
      (cmdFwdBody 1 0 m f.hdr.txnId (replyBody f.hdr.commandId time r)) s1

/-- The final record of a command that is no part of a front-wide commit, at the present time. -/
def finishPlain (f : Flight) (r : Reply) (s : State) : State := finishAt s.frontTime f r s

/-- An object of the list is locked by a prepared entry, R72. -/
def lockedAny (s : State) (os : List Obj) : Bool :=
  s.fabric.prepared.any (fun p => p.locks.any (fun o => os.any (fun x => decide (x = o))))

/-- The transaction a header names. -/
def txnOf (s : State) (session id : Nat) : Option Txn :=
  s.proto.txns.find? (fun t => t.session == session && t.id == id)

/-- A transaction changed in place. -/
def setTxn (t : Txn) (s : State) : State :=
  { s with proto := { s.proto with
      txns := s.proto.txns.map (fun u => if u.session = t.session ∧ u.id = t.id then t else u) } }

/-- A TXN_COMMIT or TXN_ROLLBACK of the transaction has been taken and its record is not posted, R70, R71. -/
def txnClosing (s : State) (session id : Nat) : Bool :=
  s.proto.flights.any (fun g => (decide (g.op = .txnCommit) || decide (g.op = .txnRollback)) && g.hdr.sessionId == session && g.hdr.txnId == id
    && g.params.isEmpty)

/-- The command was forwarded here by its entry member, which has checked what only it can check. -/
def fromPeer (f : Flight) : Bool :=
  match f.origin with
  | .peer _ _ => true
  | .host _ => false

/-- The data a command names at an address: as carried or copied with it, else read from memory. -/
def dataOf (f : Flight) (read : Unit → Bytes) : Bytes :=
  match f.content with
  | some b => b
  | none => read ()

/-- The scope of a command names exactly one module: else BAD_PARAM at the scope's offset. -/
def oneModule (s : State) (f : Flight) : Bool × Status × Nat :=
  match f.origin with
  | .peer _ _ => (false, .badParam, 24)
  | .host _ => ((scopeModules s f.hdr).length != 1, .badParam, 24)

/-- The deadline of a run in front time, R176, R180: measured from its arrival. -/
def deadlineOf (f : Flight) (off : Nat) : Nat :=
  let d := par f off 8
  f.taken + (if d = 0 then 1000000000 else d)

/-- Offset of DEADLINE_NS in the parameters of a command that has one, R177, R180, R278, R308, R314, R330. -/
def deadlineAt (f : Flight) : Option Nat :=
  match f.op with
  | .kernelRun => some 32
  | .layerRun => some 16
  | .search => some 56
  | .selectTopk => some 80
  | .selectMerge => some 48
  | .tokenize => some 8
  | _ => none

/-- The deadline of a command has passed: it ends without effect, R278, R311, R319, R332. -/
def pastDeadline (s : State) (f : Flight) : Bool := (deadlineAt f).any (fun off => decide (deadlineOf f off ≤ s.frontTime))

end Sys2Proof.Machine
end

