-- ==== Sys2Proof/Machine/Operands.lean ====
section
/-! DEFINITION. Operand forms that commands of several chapters share: unit IDs (R30), one-member scopes, handles (R346), sequence windows (R580). -/

namespace Sys2Proof.Machine

open Sys2Proof

/-- The valid unit IDs, R30. -/
def unitValid (unit : Nat) : Bool :=
  let c := unit / 4096
  let i := unit % 4096
  if c = 0 ∨ c = 2 ∨ c = 3 then decide (i < 0xC0)
  else if c = 1 then decide (i < 0x600)
  else if c = 4 then decide (i < 0x0C) || (decide (0x10 ≤ i) && decide (i < 0x28))
  else if c = 5 then decide (i < 0x10)
  else if c = 6 then decide (i < 0x18)
  else if c = 7 then decide (i < 8)
  else if c = 8 then decide (i < 4)
  else if c = 9 then decide (i < 8) || i == 0x100
  else if c = 0xA then decide (i < 0x10) || (decide (0x100 ≤ i) && decide (i < 0x140))
  else if c = 0xB ∨ c = 0xC ∨ c = 0xE then i == 0
  else if c = 0xD then i == 0 || (decide (0x100 ≤ i) && decide (i < 0x128))
  else false

/-- The cell of a unit of classes 0x0 to 0x3. -/
def unitCell (unit : Nat) : Option Nat :=
  let c := unit / 4096
  if c = 1 then some (unit % 4096 / 8) else if c < 4 then some (unit % 4096) else none

/-- The scope of a command contains the entry member, R33: else BAD_PARAM at the scope's offset. -/
def scopeHasEntry (s : State) (f : Flight) : Bool × Status × Nat :=
  (!(scopeModules s f.hdr).contains s.fabric.view.self, .badParam, 24)

/-- A sequence follows `after` within a window of 2^31, R580; 0 stands for every record. -/
def seqAfter (after seq : Nat) : Bool :=
  after == 0 || (seq != after && decide ((seq + 2 ^ 32 - after % 2 ^ 32) % 2 ^ 32 < 2 ^ 31))

/-- Records after `after` that are no longer held: those before the oldest, R580. -/
def seqLost (after oldest : Nat) : Nat :=
  if oldest = 0 then 0
  else
    let d := (oldest + 2 ^ 32 - after % 2 ^ 32 - 1) % 2 ^ 32
    if d < 2 ^ 31 then d else 0

/-- A command executed by the entry member alone: its scope contains that member, and it runs there (R76, R589). -/
def entryCommand (c : Command) : Command :=
  { c with check := fun s f => if lengthFault (c.check s f) then c.check s f else (firstFail [scopeHasEntry s f]).orElse (fun _ => c.check s f) }

/-- A command that removes an object has been taken before this one and names it, R246. -/
def dropTaken (s : State) (f : Flight) (op : Opcode) (id : Nat) : Bool :=
  s.proto.flights.any (fun g => decide (g.op = op) && decide (g.serial < f.serial) && !g.hdr.inTxn && par g 0 4 == id && g.tenant == f.tenant)

/-- An admitted command of these opcodes, taken before this one, names an object in its first parameter. -/
def namedBefore (s : State) (f : Flight) (ops : List Opcode) (id : Nat) : Bool :=
  s.proto.flights.any (fun g => decide (g.serial < f.serial) && ops.any (fun o => decide (g.op = o)) && par g 0 4 == id)

/-- The tenant of some work lets the operator examine it: tenant 0, DEBUG_CONSENT 1, or debug unlocked, R473, R478, R563. -/
def consents (s : State) (tenant : Nat) : Bool :=
  tenant == 0 || s.sec.debug || kgetD s.sec.consent tenant 0 == 1

end Sys2Proof.Machine
end

