-- ==== Sys2Proof/Machine/LayerShapes.lean ====
section
/-! DEFINITION. The layer descriptor (R181), the shapes of its tensors (R182, R186) and the extents that a layer reads and writes (R184, R194 to R199): what chapter 06 and the tiers share. -/

namespace Sys2Proof.Machine

open Sys2Proof

/-- A scheme by its code of R122. -/
def schemeOf (n : Nat) : Scheme := if n = 1 then .mx else if n = 2 then .twoLevel else .none

/-- A layer, R181. -/
structure Layer where
  chain : Nat
  m : Nat
  n : Nat
  k : Nat
  aAddr : Nat
  bAddr : Nat
  outAddr : Nat
  aScl : Nat
  bScl : Nat
  outScl : Nat
  outlier : Nat
  aStride : Nat
  bStride : Nat
  outStride : Nat
  afmt : Nat
  abs : Nat
  bfmt : Nat
  bbs : Nat
  outFmt : Nat
  paired : Bool
  opnds : List Nat
  group : List Nat

/-- The layer descriptor at an offset, R181. -/
def layerAt (b : Bytes) (o : Nat) : Layer where
  chain := fld b o 4
  m := fld b (o + 4) 4
  n := fld b (o + 8) 4
  k := fld b (o + 12) 4
  aAddr := fld b (o + 16) 8
  bAddr := fld b (o + 24) 8
  outAddr := fld b (o + 32) 8
  aScl := fld b (o + 40) 8
  bScl := fld b (o + 48) 8
  outScl := fld b (o + 56) 8
  outlier := fld b (o + 64) 8
  aStride := fld b (o + 72) 4
  bStride := fld b (o + 76) 4
  outStride := fld b (o + 80) 4
  afmt := fld b (o + 84) 1 % 16
  abs := fld b (o + 84) 1 / 16 % 4
  bfmt := fld b (o + 85) 1 % 16
  bbs := fld b (o + 85) 1 / 16 % 4
  outFmt := fld b (o + 86) 1 % 16
  paired := bitOf (fld b (o + 87) 1) 0
  opnds := (List.range 8).map (fun i => fld b (o + 96 + 8 * i) 8)
  group := (List.range (fld b (o + 88) 1)).map (fun i => fld b (o + 160 + 2 * i) 2)

/-- A chain without stages. -/
def Chain.empty : Chain := ⟨0, 0, [], []⟩

/-- The chain of a layer: none for 0xFFFF_FFFF. -/
def chainOf (chains : KMap Chain) (l : Layer) : Option Chain :=
  if l.chain = 0xFFFFFFFF then some Chain.empty else kget chains l.chain

/-- A stage of an epilogue by its code. -/
def epiStage (c : Chain) (code : Nat) : Option ChainStage := c.epilogue.find? (fun st => st.code == code)

/-- The epilogue has GATE in SIBLING mode. -/
def sibling (c : Chain) : Bool := c.epilogue.any (fun st => st.code == 4 && st.mode == 1)

/-- N′ of R182. -/
def outWidth (c : Chain) (l : Layer) : Nat := if sibling c then l.n / 2 else l.n

/-- The format and scheme in which a layer's output is stored: QUANT's, else OUT_FMT. -/
def outFormat (c : Chain) (l : Layer) : Nat × Nat :=
  match epiStage c 8 with
  | some q => (q.fmt, q.scheme)
  | none => (l.outFmt, 0)

/-- The format and scheme of the stored operand on one side: DEQUANT's where a prologue applies to it, R196. -/
def storedFormat (c : Chain) (side : Nat) (l : Layer) : Nat × Nat :=
  match (if c.proSide = side then c.prologue.head? else none) with
  | some d => (d.fmt, d.scheme)
  | none => if side = 0 then (l.afmt, l.abs) else (l.bfmt, l.bbs)

/-- Bytes of a packed row, R84. -/
def rowBytesOf (width fmt : Nat) : Nat := ceilDiv (width * fmtBits fmt) 8

/-- Bytes of a row of block headers, R182. -/
def headerRow (width scheme : Nat) : Nat := ceilDiv width 32 * schemeBytes (schemeOf scheme)

/-- Bytes of a tensor of `rows` rows. -/
def tensorLen (rows stride rowLen : Nat) : Nat := (rows - 1) * stride + rowLen

/-- The length of an outlier section of `n` channels over `cols` columns. -/
def outlierLen (n cols : Nat) : Nat := 8 + 4 * n + ceilDiv n 8 * 8 + n * cols

/-- An extent a layer names: address, bytes, whether it is written. -/
abbrev Extent := Nat × Nat × Bool

/-- The layers of a LAYER_RUN. -/
def layersOf (f : Flight) : List Layer := (List.range (par f 0 2)).map (fun i => layerAt f.params (32 + 192 * i))

/-- The extents of a stage's operands, R194, R196, R197, R199; `rows` and `width` are those of the tensor it works on. -/
def stageExtents (l : Layer) (rows width : Nat) (st : ChainStage) : List Extent :=
  let a := nth l.opnds st.opndA
  let b := nth l.opnds st.opndB
  let vec := fun n => ceilDiv (n * fmtBits st.fmt) 8
  match st.code with
  | 0x01 | 0x02 | 0x12 => if st.mode = 0 then [] else [(a, vec (if st.mode = 1 then width else rows), false)]
  | 0x04 => if st.mode = 0 then [(a, tensorLen rows st.param0 (rowBytesOf width st.fmt), false)] else []
  | 0x05 => [(a, tensorLen rows st.param0 (rowBytesOf width st.fmt), false)]
  | 0x06 | 0x13 => [(a, 4 * rows, false), (b, 64 * width * 2, false)]
  | 0x07 => if st.mode = 0 then [] else if st.mode = 1 then [(a, 4 * rows, true)]
    else (if st.opndA = 0xFF then [] else [(a, vec width, false)]) ++ (if st.mode = 3 ∨ st.opndB = 0xFF then [] else [(b, vec width, false)])
  | 0x0B => if st.mode = 0 then [] else [(a, tensorLen rows st.param1 (rowBytesOf width 12), false)]
  | 0x11 => if st.scheme = 0 then [] else [(a, rows * headerRow width st.scheme, false)]
  | 0x14 => [(a, st.param1 * (st.param0 / 65536 / 2) * 8, false), (b, 4 * rows, false)]
  | 0x15 => [(a, tensorLen rows st.param0 (rowBytesOf width 12), false)]
  | _ => []

/-- The stages before a SIBLING gate, whose tensor is N wide, and those behind it, N / 2 wide. -/
def aroundSibling (c : Chain) : List ChainStage × List ChainStage :=
  let sib := fun (st : ChainStage) => st.code == 4 && st.mode == 1
  (c.epilogue.takeWhile (fun st => !sib st), (c.epilogue.dropWhile (fun st => !sib st)).drop 1)

/-- The extents of an epilogue; STEER's basis is N′ wide on either side of the gate, R197. -/
def epiExtents (l : Layer) (c : Chain) : List Extent :=
  let (before, after) := aroundSibling c
  before.flatMap (fun st => stageExtents l l.m (if st.code = 6 then outWidth c l else l.n) st) ++ after.flatMap (stageExtents l l.m (outWidth c l))

/-- The extents of a prologue. -/
def proExtents (l : Layer) (c : Chain) : List Extent :=
  c.prologue.flatMap (stageExtents l (if c.proSide = 0 then l.m else l.n) l.k)

/-- Whether a prologue replaces the operand of a side. -/
def hasPrologue (c : Chain) (side : Nat) : Bool := c.proSide == side && !c.prologue.isEmpty

/-- What a layer reads and writes; the first half of a paired operation writes no output and the second reads no A, R203. -/
def layerExtents (l : Layer) (c : Chain) (first second : Bool) : List Extent :=
  let sa := storedFormat c 0 l
  let sb := storedFormat c 1 l
  let out := outFormat c l
  (if second then [] else [(l.aAddr, tensorLen l.m l.aStride (rowBytesOf l.k sa.1), false)])
    ++ (if second || l.abs == 0 || hasPrologue c 0 then [] else [(l.aScl, l.m * headerRow l.k l.abs, false)])
    ++ [(l.bAddr, tensorLen l.n l.bStride (rowBytesOf l.k sb.1), false)]
    ++ (if l.bbs == 0 || hasPrologue c 1 then [] else [(l.bScl, l.n * headerRow l.k l.bbs, false)])
    ++ proExtents l c ++ epiExtents l c
    ++ (if first then [] else [(l.outAddr, tensorLen l.m l.outStride (rowBytesOf (outWidth c l) out.1), true)])
    ++ (if first || out.2 == 0 then [] else [(l.outScl, l.m * headerRow (outWidth c l) out.2, true)])

/-- What a LAYER_RUN writes: address and bytes of each extent. -/
def layerOutputs (chains : KMap Chain) (ls : List Layer) : List (Nat × Nat) :=
  (ls.zipIdx).flatMap (fun p =>
    let pos := (p.1.paired, decide (0 < p.2) && (ls.getD (p.2 - 1) p.1).paired)
    ((layerExtents p.1 ((chainOf chains p.1).getD Chain.empty) pos.1 pos.2).filter (fun e => e.2.2)).map (fun e => (e.1, e.2.1)))

/-- The pages that extents touch. -/
def pagesOfExtents (es : List (Nat × Nat)) : List Nat :=
  ((es.filter (fun e => decide (0 < e.2))).flatMap (fun e =>
    (List.range ((e.1 + e.2 - 1) / 65536 + 1 - e.1 / 65536)).map (fun i => e.1 / 65536 + i))).eraseDups

/-- A member runs a layer: it is one of its group, for a paired operation that of its second layer, R206 (log entry 73). -/
def runsHere (self : Nat) (ls : List Layer) (i : Nat) : Bool :=
  let l := ls.getD i (layerAt [] 0)
  (if l.paired then ls.getD (i + 1) l else l).group.contains self

/-- The first layer from `i` on that a member runs; the number of layers where there is none. -/
def nextHere (self : Nat) (ls : List Layer) : Nat → Nat → Nat
  | 0, _ => ls.length
  | fuel + 1, i =>
    if ls.length ≤ i then ls.length
    else if runsHere self ls i then i
    else nextHere self ls fuel (if (ls.getD i (layerAt [] 0)).paired then i + 2 else i + 1)

/-- Pairs of each layer: itself, the layer before it, the layer after it. -/
def layerPos (ls : List Layer) (i : Nat) : Bool × Bool :=
  let first := ((ls.getD i (layerAt [] 0)).paired)
  let second := decide (0 < i) && (ls.getD (i - 1) (layerAt [] 0)).paired
  (first, second)

/-- The binding of an address field, R352. -/
def bindingOf (a : Nat) : Nat := a / 2 ^ 60

/-- The ranges that a layer of a model's program names by absolute address, R350, R352: what the layer reads and writes there, with one row and one visible position where the step gives the number. -/
def absoluteExtents (chains : KMap Chain) (ls : List Layer) (p : Layer × Nat) : List (Nat × Nat) :=
  let (first, second) := layerPos ls p.2
  let l := { p.1 with
    m := max 1 p.1.m
    n := if first then max 1 p.1.n else p.1.n
    k := if second then max 1 p.1.k else p.1.k }
  let c := (chainOf chains l).getD Chain.empty
  ((layerExtents l c first second).map (fun e => (e.1, e.2.1))
    ++ (if l.outlier = 0 then [] else [(l.outlier, outlierLen 0 l.n)])).filter (fun e => bindingOf e.1 == 0 && decide (0 < e.2))

/-- Reserved bytes and bits of a layer descriptor, R181. -/
def descReservedBad (b : Bytes) (o : Nat) : Bool :=
  decide (63 < fld b (o + 84) 1) || decide (63 < fld b (o + 85) 1) || decide (15 < fld b (o + 86) 1) || decide (1 < fld b (o + 87) 1)
    || !zeroAt b (o + 89) 7

end Sys2Proof.Machine
end

