-- ==== Sys2Proof/Machine/TierSeal.lean ====
section
/-! DEFINITION. How a block of Tiers 2 and 3 leaves the package, R24, R226, R233: compressed, encrypted with AES-256-XTS under its tenant's tier key, tagged with GMAC. -/

namespace Sys2Proof.Machine

open Sys2Proof

/-- A tweak multiplied by α in the field of XTS, as a little-endian number. -/
def xtsDouble (t : Nat) : Nat := if t < 2 ^ 127 then 2 * t else (2 * t - 2 ^ 128) ^^^ 0x87

/-- Two byte strings joined by exclusive or. -/
def xorBytes (a b : Bytes) : Bytes := List.zipWith (· ^^^ ·) a b

/-- The blocks of a data unit under their tweaks, from a tweak on. -/
def xtsBlocks (key : BitVec 256) : List Bytes → Nat → Bytes
  | [], _ => []
  | b :: l, t => xorBytes (aesBlock key (xorBytes b (toLe 16 t))) (toLe 16 t) ++ xtsBlocks key l (xtsDouble t)

/-- AES-256-XTS of whole blocks of 16 bytes under a key of 64 bytes and a tweak number, R233. -/
def xtsEncrypt (key : Bytes) (tweak : Nat) (b : Bytes) : Bytes :=
  let half := fun o => BitVec.ofNat 256 (leNat (slice key o 32))
  xtsBlocks (half 0) (pieces 16 (b.length / 16) b) (leNat (aesBlock (half 32) (toLe 16 tweak)))

/-- The root key of a tenant, R474; tenant 0's, whose drawing the spec does not place, is the generator's first value (log entry 71). -/
def tenantRoot (s : State) (tenant : Nat) : BitVec 256 :=
  ((kget s.sec.tenants tenant).map (·.root)).getD (Config.drbg 0)

/-- A tier key of a tenant, R474. -/
def tierKey (s : State) (tenant : Nat) (label : String) (n : Nat) : Bytes :=
  (expandBlocks (toLe 32 (tenantRoot s tenant).toNat) (ascii label ++ toLe 2 tenant) (ceilDiv n 48) 1 []).take n

/-- The labels of a tier's keys, R474. -/
def xtsLabel (tier : Nat) : String := if tier = 2 then "T2-XTS" else "T3-XTS"
def gmacLabel (tier : Nat) : String := if tier = 2 then "T2-GMAC" else "T3-GMAC"

/-- What is encrypted of a block: its 4,096 bytes where they are stored uncompressed, else what the device's compressor makes of them, R226. -/
def packedBlock (content : Bytes) (raw : Bool) (sectors : Nat) : Bytes :=
  if raw then content else (Config.compress content sectors ++ zeros (1024 * sectors)).take (1024 * sectors)

/-- A block as it is stored: the ciphertext of its sectors and its tag over ciphertext, block address and write version; tweak and nonce are formed of block number
and version (log entry 71), R233. -/
def sealedBlock (s : State) (tenant tier block version : Nat) (content : Bytes) (raw : Bool) (sectors : Nat) : Bytes × BitVec 128 :=
  let cipher := xtsEncrypt (tierKey s tenant (xtsLabel tier) 64) (block * 4096) (packedBlock content raw sectors)
  let key := BitVec.ofNat 256 (leNat (tierKey s tenant (gmacLabel tier) 32))
  (cipher, gcmTag key (toLe 5 block ++ toLe 7 version) (cipher ++ toLe 8 (block * 4096) ++ toLe 8 version) [])

end Sys2Proof.Machine
end

