-- ==== Sys2Proof/Machine/TierOps.lean ====
section
/-! DEFINITION. The operations of the memory tiers that every chapter shares: the address map (R211), ownership (R61, R214), poison (R592), frames and eviction (R218, R219, R224), the sector check and committed writes (R226, R227). -/

namespace Sys2Proof.Machine

open Sys2Proof

/-- The tier a device address lies in, R211; Tier 3 is as long as LOGICAL_LEN. -/
def tierAt (t : Tiers) (a : Nat) : Option Nat :=
  if 0x010000000000 ≤ a ∧ a < 0x022000000000 then some 1
  else if 0x040000000000 ≤ a ∧ a < 0x0A0000000000 then some 2
  else if 0x100000000000 ≤ a ∧ a < 0x100000000000 + t.logicalLen then some 3
  else none

/-- First address of a tier. -/
def tierBase : Nat → Nat
  | 1 => 0x010000000000
  | 2 => 0x040000000000
  | _ => 0x100000000000

/-- Logical capacity of a tier, R213. -/
def tierLogical (t : Tiers) : Nat → Nat
  | 1 => 0x012000000000
  | 2 => 0x060000000000
  | _ => t.logicalLen

/-- Usable sectors of Tier 3, R229. -/
def tier3Sectors (t : Tiers) : Nat :=
  (t.regionLen - ceilDiv (ceilDiv t.logicalLen 4096 * 48) 65536 * 65536) / 1024

/-- Usable sectors of a tier. -/
def tierSectors (t : Tiers) (tier : Nat) : Nat := if tier = 2 then tier2Sectors else tier3Sectors t

/-- Tenant 0 holds the whole pool and every tier by default, another tenant nothing, R217. -/
def quotaOf (t : Tiers) (tenant : Nat) : Quota :=
  kgetD t.quotas tenant
    (if tenant = 0 then ⟨listSum t.pool, tierLogical t 1, tier2Sectors, tier3Sectors t⟩ else ⟨0, 0, 0, 0⟩)

/-- A byte range lies wholly in one tier, R211. -/
def inTiers (t : Tiers) (a len : Nat) : Bool :=
  match tierAt t a with
  | none => false
  | some k => len == 0 || tierAt t (a + len - 1) == some k

/-- An address of a scratchpad window's reserved bytes, R153. -/
def reservedScratch (a : Nat) : Bool :=
  decide (0x40000000 ≤ a) && decide (a < 0x100000000) && decide (0xC00000 ≤ a % 0x1000000)

/-- A byte range touches the register or scratchpad windows, R153, R211. -/
def touchesWindows (a len : Nat) : Bool := decide (a ≤ 0xFFBFFFFF) && decide (0 < len)

/-- A MEM_FREE taken before a command names the allocation, R215. -/
def freeing (s : State) (f : Flight) (base : Nat) (al : Alloc) : Bool :=
  s.proto.flights.any (fun g => decide (g.op = .memFree) && decide (g.serial < f.serial) && g.tenant == al.tenant
    && !g.hdr.inTxn && par g 0 8 == base)

/-- The end of the stretch from `cur` that a list of allocations, in order of address, covers. -/
def coverEnd : List (Nat × Alloc) → Nat → Nat
  | [], cur => cur
  | (b, al) :: l, cur => coverEnd l (if b ≤ cur ∧ cur < b + al.len then b + al.len else cur)

/-- Every byte of a range lies in allocations of a command's tenant, R61, R167, R215. -/
def covered (s : State) (f : Flight) (a len : Nat) : Bool :=
  decide (a + len ≤ coverEnd (s.tiers.allocs.filter (fun p => p.2.tenant == f.tenant && !p.2.hidden && !freeing s f p.1 p.2)) a)

/-- The checks of a range that a command names in the tiers, R153, R167, R211, R214; `off` is the parameter's offset. -/
def extentChecks (s : State) (f : Flight) (a len off : Nat) : List (Bool × Status × Nat) :=
  [rangeIf (reservedScratch a) off,
   failIf (touchesWindows a len) .notPermitted 0,
   rangeIf (!inTiers s.tiers a len) off,
   failIf (!covered s f a len) .notPermitted 0]

/-- The allocation an address lies in. -/
def allocAt (t : Tiers) (a : Nat) : Option (Nat × Alloc) :=
  t.allocs.find? (fun p => decide (p.1 ≤ a) && decide (a < p.1 + p.2.len))

/-- DETAIL of a tier status: the tier and bits [47:16] of the address, R234. -/
def tierDetail (tier a : Nat) : Nat := tier + a / 65536 % 2 ^ 32 * 65536

/-- The resident page whose frame serves an address, R220. -/
def residentAt (t : Tiers) (a : Nat) : Option HomePage := (kget t.pages (a / 65536)).filter (fun x => x.resident && decide (x.state ≠ .filling))

/-- Size of the unit of poison at an address, R592: a resident frame lies in Tier 1. -/
def poisonUnit (t : Tiers) (a : Nat) : Nat :=
  match tierAt t a with
  | none => 8
  | some k => if k = 1 ∨ (residentAt t a).isSome = true then 64 else 4096

/-- Bytes of a die's Tier 1 range, R22. -/
def dieRange : Nat := 0x4800000000

/-- The HBM stack that holds a Tier 1 address, and the offset there, R212: 4 KiB granules alternate over the three stacks of the die. -/
def tier1Place (a : Nat) : Nat × Nat :=
  let die := (a - tierBase 1) / dieRange
  let o := (a - tierBase 1) % dieRange
  let u := o / 4096
  (die * 3 + u % 3, u / 3 * 4096 + o % 4096)

/-- The unit that reports an error at an address, R29, R30, R212: the HBM controller of its stack, the controller of a bulk package, the host port. Where the
sectors of a Tier 2 block lie, and in which stack of its die a resident frame, the device chooses: the package and the stack are free values (log entry 72). -/
def errorUnit (addr : Nat) (s : State) : Nat × State :=
  match residentAt s.tiers addr, tierAt s.tiers addr with
  | some x, _ =>
    let (d, s1) := drawFree s
    (0x4000 + x.die * 3 + d % 3, s1)
  | none, some 1 => (0x4000 + (tier1Place addr).1, s)
  | none, some 2 =>
    let (d, s1) := drawFree s
    (0x4010 + d % 24, s1)
  | none, _ => (0xB000, s)

/-- The first address of a range that lies in a marked unit. -/
def firstMarked (t : Tiers) (marks : List Nat) (a len : Nat) : Option Nat :=
  listMin? ((marks.filter (fun u => decide (u < a + len) && decide (a < u + poisonUnit t u))).map (max a))

/-- A read of a range meets poison or a failed tag: status and DETAIL of the first failing address, R233, R234. -/
def readFails (s : State) (a len : Nat) : Option (Status × Nat) :=
  let t := s.tiers
  match firstMarked t t.poisoned a len, firstMarked t t.badTags a len with
  | none, none => none
  | some p, none => some (.dataPoisoned, tierDetail ((tierAt t p).getD 0) p)
  | none, some q => some (.integrityFail, tierDetail ((tierAt t q).getD 0) q)
  | some p, some q =>
    if p ≤ q then some (.dataPoisoned, tierDetail ((tierAt t p).getD 0) p)
    else some (.integrityFail, tierDetail ((tierAt t q).getD 0) q)

/-- The first of several reads that fails. -/
def readsFail (s : State) : List (Nat × Nat) → Option (Status × Nat)
  | [] => none
  | (a, n) :: l => match readFails s a n with
    | some r => some r
    | none => readsFail s l

/-- A read of a tenant's command ended by a failed tag is counted and logged, R233, R238, R591. -/
def noteTagFail (tenant command : Nat) (st : Status) (d : Nat) (s : State) : State :=
  if st = .integrityFail then
    let tier := d % 256
    let (unit, s1) := errorUnit (d / 65536 * 65536) s
    logFault 0x0003 1 1 unit tenant command (d / 65536 * 65536) tier
      (bump .integrityFails (tenant * 3 + tier - 1) 1 (bump .integrityFails (moduleKey * 3 + tier - 1) 1 s1))
  else s

/-- That of a command in flight. -/
def noteReadFail (f : Flight) (st : Status) (d : Nat) (s : State) : State := noteTagFail f.tenant f.hdr.commandId st d s

/-- A run of bytes to be written at an address. -/
abbrev WriteRun := Nat × Bytes

/-- The pages, in units of `k` bytes, that runs touch, ascending without repeats. -/
def unitsTouched (k : Nat) (runs : List WriteRun) : List Nat :=
  let us := (runs.map (fun r =>
    if r.2.isEmpty then []
    else (List.range ((r.1 + r.2.length - 1) / k + 1 - r.1 / k)).map (fun i => r.1 / k + i))).flatten
  sortBy Nat.ble us.eraseDups

/-- Whether runs write every byte of a range, R234. -/
def runsCover (runs : List WriteRun) (a len : Nat) : Bool :=
  (List.range len).all (fun i => runs.any (fun r => decide (r.1 ≤ a + i) && decide (a + i < r.1 + r.2.length)))

/-- Write the runs into memory in their order. -/
def applyRuns (m : Memory) (runs : List WriteRun) : Memory := runs.foldl (fun m r => Memory.writeN m r.1 r.2) m

/-- The content of a range is all zero. -/
def rangeZero (m : Memory) (a len : Nat) : Bool := !m.any (fun c => decide (a ≤ c.1) && decide (c.1 < a + len))

/-- The part of a memory within a range. -/
def memoryPart (m : Memory) (a len : Nat) : Memory := m.filter (fun c => decide (a ≤ c.1) && decide (c.1 < a + len))

/-- The memory with a range replaced by another memory's content there. -/
def memoryRestore (m part : Memory) (a len : Nat) : Memory :=
  part.foldl (fun m c => Memory.write m c.1 c.2) (Memory.clear m a len)

/-- Sectors of a block as stored, R226: none for zeros, four for RAW, else a free number from 1 to 4 (log entry 6). -/
def blockSectors (m : Memory) (raw : Bool) (block draw : Nat) : Nat :=
  if raw then 4 else if rangeZero m (block * 4096) 4096 then 0 else draw % 4 + 1

/-- Whether a block lies in a RAW allocation. -/
def blockRaw (t : Tiers) (block : Nat) : Bool := ((allocAt t (block * 4096)).map (·.2.raw)).getD false

/-- A sparse map with a number set, zero not listed. -/
def ksetNz (m : KMap Nat) (k v : Nat) : KMap Nat := if v = 0 then kdel m k else kset m k v

/-- The sealed sectors of a block leave the package: to a bulk package that the device chooses, or to the host region behind its metadata, where the device places
them (free values, log entry 72), R24, R212, R229, R233. -/
def sendSealed (block sectors : Nat) (s : State) : State :=
  let t := s.tiers
  let tenant := ((allocAt t (block * 4096)).map (·.2.tenant)).getD 0
  let (d, s1) := drawFree s
  let out := fun tier => sealedBlock s tenant tier block (kgetD t.versions block 0) (memRead s (block * 4096) 4096) (blockRaw t block) sectors
  if sectors = 0 then s
  else match tierAt t (block * 4096) with
    | some 2 => emit (.bulkWrite (d % 24) (out 2).1 (out 2).2) s1
    | some 3 => emit (.hostWrite (t.hostAddr + (t.regionLen - tier3Sectors t * 1024) + d % max 1 (tier3Sectors t) * 1024) (out 3).1) s1
    | _ => s

/-- Store blocks at home: their sector counts and write versions anew, sectors due for retirement replaced from the spare reserve, R226, R233, R592. -/
def storeBlocks : List Nat → State → State
  | [], s => s
  | b :: bs, s =>
    let (d, s1) := drawFree s
    let t := s1.tiers
    let n := blockSectors s1.mem (blockRaw t b) b d
    let old := kgetD t.sectors b 0
    let gone := if t.retire.contains b then min old (1048576 - t.retired) else 0
    storeBlocks bs (sendSealed b n { s1 with tiers := { t with
      sectors := ksetNz t.sectors b n
      versions := kset t.versions b ((kgetD t.versions b 0 + 1) % 2 ^ 56)
      retire := t.retire.filter (· != b)
      retired := t.retired + gone } })

/-- Sectors held by a tenant in a tier: held_t of R226. -/
def heldSectors (t : Tiers) (tenant tier : Nat) : Nat :=
  listSum (t.sectors.map (fun p =>
    match allocAt t (p.1 * 4096) with
    | some (_, al) => if al.tenant = tenant ∧ al.tier = tier then p.2 else 0
    | none => 0))

/-- Sectors held in a tier by all tenants. -/
def heldAll (t : Tiers) (tier : Nat) : Nat :=
  listSum (t.sectors.map (fun p => if tierAt t (p.1 * 4096) = some tier then p.2 else 0))

/-- Resident pages of a tenant in a tier. -/
def residentPages (t : Tiers) (tenant tier : Nat) : List (Nat × HomePage) :=
  t.pages.filter (fun p => p.2.resident && p.2.tenant == tenant && tierAt t (p.1 * 65536) == some tier)

/-- Sectors that a pledge keeps in a tier. -/
def Pledge.sectors (p : Pledge) (tier : Nat) : Nat := if tier = 2 then p.t2 else if tier = 3 then p.t3 else 0

/-- Sectors reserved by a tenant in a tier: 64 a resident page, R222, and what its prepared commits keep. -/
def reservedSectors (t : Tiers) (tenant tier : Nat) : Nat :=
  64 * (residentPages t tenant tier).length + listSum ((t.pledges.filter (fun p => p.tenant == tenant)).map (fun p => p.sectors tier))

/-- Sectors reserved in a tier by all tenants. -/
def reservedAll (t : Tiers) (tier : Nat) : Nat :=
  64 * (t.pages.filter (fun p => p.2.resident && tierAt t (p.1 * 65536) == some tier)).length + listSum (t.pledges.map (fun p => p.sectors tier))

/-- Frames that a tenant's prepared commits keep. -/
def pledgedFrames (t : Tiers) (tenant : Nat) : Nat := listSum ((t.pledges.filter (fun p => p.tenant == tenant)).map (·.frames))

/-- The allocations of a tier's map with those that prepared commits will make. -/
def allocsAndPledged (t : Tiers) : List (Nat × Alloc) := t.allocs ++ t.pledges.flatMap (·.ranges)

/-- Free sectors of a tier. -/
def freeSectors (t : Tiers) (tier : Nat) : Nat := tierSectors t tier - heldAll t tier - reservedAll t tier

/-- Sector quota of a tenant in a tier. -/
def sectorQuota (t : Tiers) (tenant tier : Nat) : Nat :=
  let q := quotaOf t tenant
  if tier = 2 then q.t2 else q.t3

/-- TIER_FULL's DETAIL for a need of `delta` sectors, R228; none where quota and tier allow it. -/
def tierFull (t : Tiers) (tenant tier : Nat) (delta : Int) : Option Nat :=
  let overQuota : Int := (heldSectors t tenant tier + reservedSectors t tenant tier : Nat) + delta - (sectorQuota t tenant tier : Nat)
  let overTier : Int := delta - (freeSectors t tier : Nat)
  if overQuota ≤ 0 ∧ overTier ≤ 0 then none
  else if overTier ≤ overQuota then some (tier + overQuota.toNat * 65536)
  else some (tier + 256 + overTier.toNat * 65536)

/-- Shadow pages held by the kernel runs of a tenant, R218. -/
def runShadows (s : State) (tenant : Nat) : Nat :=
  listSum ((s.compute.runs.filter (fun r => r.tenant == tenant)).map (fun r =>
    (unitsTouched 65536 (r.writes.map (fun w => (w.1, [w.2])))).length))

/-- Shadow frames that the LAYER_RUNs of a tenant hold since their validation, R219. -/
def jobShadows (s : State) (tenant : Nat) : Nat :=
  listSum ((s.compute.jobs.filter (fun j => j.tenant == tenant)).map (fun j => j.shadowPages.length))

/-- Shadow frames a tenant holds: running kernels and layers, and committed pages being written home. -/
def shadowFrames (s : State) (tenant : Nat) : Nat :=
  runShadows s tenant + jobShadows s tenant + (s.tiers.pages.filter (fun p => !p.2.resident && p.2.tenant == tenant)).length

/-- Resident frames a tenant holds. -/
def residentFrames (t : Tiers) (tenant : Nat) : Nat := (t.pages.filter (fun p => p.2.resident && p.2.tenant == tenant)).length

/-- Bytes of a row of a table, R242; 0 where the table does not exist. -/
def tableRowBytes (s : State) (id : Nat) : Nat :=
  match kget s.tables.tables id with
  | none => 0
  | some t => ceilDiv (t.width * fmtBits t.fmt) 8 + (if t.fmt = 8 ∨ t.fmt = 9 then 4 else 0)

/-- Bytes of a stored vector and of a payload of an index, R268; 0 where it does not exist. -/
def indexSizes (s : State) (id : Nat) : Nat × Nat :=
  match kget s.indexes.indexes id with
  | none => (0, 0)
  | some x => (x.dim * fmtBits x.vfmt / 8, x.payLen)

/-- Element width in bits of an XPOSE code, R230, R232. -/
def xposeBits (x : Nat) : Nat := if x = 1 then 4 else if x = 2 then 8 else if x = 3 then 16 else 32

/-- Elements of a source row, and bytes of a destination row, of a transposition, R232. -/
def xposeElems (x rowBytes : Nat) : Nat := rowBytes * 8 / xposeBits x
def xposeRow (x rows : Nat) : Nat := ceilDiv (rows * xposeBits x) 8

/-- The conditions of R230 and R232 on a block move that fail; `elems` and `row` bound E and D. -/
def moveInvalid (xpose rows rowBytes dstStride elems row : Nat) : Bool :=
  if xpose = 0 then decide (dstStride < rowBytes) && decide (1 < rows)
  else
    let e := xposeElems xpose rowBytes
    let d := xposeRow xpose rows
    rowBytes * 8 % xposeBits xpose != 0 || decide (elems < e) || (decide (dstStride < d) && decide (1 < e)) || decide (row < d)

/-- Extents of the source and of the destination of a block move, R167, R230, R232. -/
def srcExtent (rows rowBytes stride : Nat) : Nat := (rows - 1) * stride + rowBytes
def dstExtent (xpose rows rowBytes stride : Nat) : Nat :=
  if xpose = 0 then srcExtent rows rowBytes stride else (xposeElems xpose rowBytes - 1) * stride + xposeRow xpose rows

/-- Extents that a command names in the tiers, for eviction (R224) and MEM_FREE (R215). -/
def namedExtents (s : State) (f : Flight) : List (Nat × Nat) :=
  match f.op with
  | .memCopy => [(par f 0 8, srcExtent (par f 16 4) (par f 20 4) (par f 24 4)),
      (par f 8 8, dstExtent (par f 32 1) (par f 16 4) (par f 20 4) (par f 28 4))]
  | .memFill => [(par f 0 8, par f 8 8)]
  | .reside => [(par f 0 8, par f 8 4 * 65536)]
  | .demote => [(par f 0 8, par f 8 4 * 65536)]
  | .flush => [(par f 0 8, par f 8 4 * 65536)]
  | .kernelLoad => [(par f 0 8, par f 8 4)]
  | .kernelRun => [(par f 24 8, par f 20 4)]
  | .layerRun =>
    let ls := layersOf f
    (ls.zipIdx).flatMap (fun p =>
      let c := (chainOf (((s.compute.jobs.find? (fun j => j.serial == f.serial)).map (·.chains)).getD s.compute.chains) p.1).getD Chain.empty
      (layerExtents p.1 c (layerPos ls p.2).1 (layerPos ls p.2).2).map (fun e => (e.1, e.2.1))
        ++ (if p.1.outlier = 0 then [] else [(p.1.outlier, outlierLen (min 256 (fld (memRead s p.1.outlier 8) 0 2)) p.1.n)]))
  | .rowsWrite => [(par f 8 8, par f 4 4 * 8), (par f 16 8, (par f 4 4 - 1) * par f 24 4 + tableRowBytes s (par f 0 4))]
  | .rowsRead => [(par f 8 8, par f 4 4 * 8), (par f 16 8, (par f 4 4 - 1) * par f 24 4 + tableRowBytes s (par f 0 4))]
  | .bagLookup =>
    let w := if bitOf (par f 13 1) 0 then 8 else 4
    let out := ceilDiv (((kget s.tables.tables (par f 0 4)).map (·.width)).getD 0 * fmtBits (par f 14 1)) 8
    [(par f 16 8, par f 8 4 * w), (par f 24 8, (par f 4 4 + 1) * 4), (par f 32 8, if par f 12 1 = 2 then par f 8 4 * 4 else 0),
     (par f 40 8, (par f 4 4 - 1) * par f 48 4 + out)]
  | .indexCreate => [(par f 16 8, par f 4 4 * (if par f 2 1 = 12 then par f 0 2 / 8 else par f 0 2 * 4))]
  | .indexLoad =>
    let n := par f 8 8
    let (v, p) := indexSizes s (par f 0 4)
    [(par f 16 8, (((kget s.indexes.indexes (par f 0 4)).map (·.lists)).getD 0 + 1) * 8), (par f 24 8, n * 8),
     (par f 32 8, if n = 0 then 0 else (n - 1) * par f 40 4 + v), (par f 48 8, n * p)]
  | .vecInsert =>
    let n := par f 4 4
    let (v, p) := indexSizes s (par f 0 4)
    [(par f 8 8, n * 8), (par f 16 8, (n - 1) * par f 24 4 + v), (par f 32 8, if p = 0 then 0 else (n - 1) * par f 28 4 + p),
     (par f 40 8, if par f 40 8 = 0 then 0 else n * 4)]
  | .vecDelete => [(par f 8 8, par f 4 4 * 8)]
  | .search =>
    let n := par f 4 4
    let q := ceilDiv (((kget s.indexes.indexes (par f 0 4)).map (·.dim)).getD 0 * fmtBits (par f 12 1)) 8
    [(par f 16 8, (n - 1) * par f 24 4 + q), (par f 32 8, n * par f 8 4 * 16),
     (par f 40 8, if bitOf (par f 13 1) 0 then n * par f 8 4 * (indexSizes s (par f 0 4)).2 else 0)]
  | .hotPolicySet => [(par f 24 8, par f 20 4 * 8)]
  | .selectTopk =>
    let rows := par f 0 4
    let n := par f 8 8
    let k := par f 4 4
    let w := if par f 70 1 = 1 ∨ par f 70 1 = 2 then 2 else 4
    [(par f 16 8, (if rows ≤ 1 then 0 else (rows - 1) * par f 24 8) + n * w), (par f 32 8, rows * k * 16),
     (par f 40 8, if par f 40 8 = 0 then 0 else rows * 8)]
      ++ (if bitOf (par f 71 1) 2 then [(par f 48 8, (rows * n - 1) * par f 64 4 + par f 68 2), (par f 56 8, rows * k * par f 68 2)] else [])
  | .selectMerge =>
    let pay := bitOf (par f 35 1) 2
    let lists := (List.range (min 4096 (par f 0 4))).map (fun i => memRead s (par f 8 8 + 32 * i) 32)
    [(par f 8 8, par f 0 4 * 32), (par f 16 8, par f 4 4 * 16)] ++ (if pay then [(par f 24 8, par f 4 4 * par f 32 2)] else [])
      ++ lists.flatMap (fun b => [(fld b 0 8, fld b 8 4 * 16)] ++ (if pay then [(fld b 16 8, fld b 8 4 * par f 32 2)] else []))
  | .tokenizerLoad => [(par f 0 8, par f 8 4)]
  | .grammarLoad => [(par f 0 8, par f 8 4)]
  | .tokenize => (List.range (min 1024 (par f 4 2))).flatMap (fun j =>
      let o := 24 + 32 * j
      let bufs := (List.range (min 64 (par f (o + 28) 1))).map (fun i => let b := memRead s (par f o 8 + 16 * i) 16; (fld b 0 8, fld b 8 4))
      [(par f o 8, 16 * par f (o + 28) 1), (par f (o + 8) 8, 4 * par f (o + 24) 4), (par f (o + 16) 8, if par f (o + 16) 8 = 0 then 0 else 4 * par f (o + 24) 4)]
        ++ bufs)
  | .packPrompt => [(par f 16 8, 4 * par f 4 4), (par f 24 8, if par f 24 8 = 0 then 0 else 16 * par f 8 2)]
      ++ (List.range (min 256 (par f 8 2))).map (fun i => (par f (32 + 32 * i) 8, if par f (44 + 32 * i) 1 = 0 then 4 * par f (40 + 32 * i) 4 else par f (40 + 32 * i) 4))
  | .detokStreamOpen => [(par f 24 8, 4 * par f 16 4), (par f 32 8, par f 20 4)]
  | .modelLoad => [(par f 0 8, par f 8 4)]
  | .steerSetLoad => [(par f 0 8, par f 8 4)]
  | .kvImport => [(par f 0 8, par f 8 4)]
  | .kvExport => [(par f 8 8, par f 16 8)]
  | .requestSubmit => (if bitOf (par f 2 1) 2 then [] else [(par f 8 8, if bitOf (par f 2 1) 0 then 4 * par f 16 4 else par f 16 4)])
      ++ [(par f 56 8, par f 52 4)]
  | .pipelineDefine => [(par f 72 8, 32 * par f 58 2)]
  | .keyInstall => if par f 0 1 = 1 ∨ par f 0 1 = 2 then [(par f 16 8, par f 24 8)] else []
  | _ => []

/-- Bytes of a range that lie in a compute die's Tier 1 range, R22. -/
def dieBytes (d : Nat) (e : Nat × Nat) : Nat :=
  let lo := tierBase 1 + d * 0x4800000000
  min (e.1 + e.2) (lo + 0x4800000000) - max e.1 lo

/-- Bytes of ranges in the Tier 1 range of each compute die, R22. -/
def dieShares (exs : List (Nat × Nat)) : List Nat := [0, 1, 2, 3].map (fun d => listSum (exs.map (dieBytes d)))

/-- The dies that hold a share, the largest share first, R23; equal shares in ascending die ID (log entry 84). -/
def dieOrder (shares : List Nat) : List Nat :=
  sortBy (fun a b => decide (nth shares b ≤ nth shares a)) ([0, 1, 2, 3].filter (fun d => decide (0 < nth shares d)))

/-- The part of a row-major tensor that a block of rows and columns reads: a stretch a row. -/
def blockRows (a stride fmt r0 rows c0 cols : Nat) : List (Nat × Nat) :=
  (List.range rows).map (fun r => (a + (r0 + r) * stride + c0 * fmtBits fmt / 8, rowBytesOf cols fmt))

/-- What a stage reads for a block of rows and columns of the tensor it works on, R194, R196, R197, R199. -/
def stageBlock (l : Layer) (width r0 rows c0 cols : Nat) (st : ChainStage) : List (Nat × Nat) :=
  let a := nth l.opnds st.opndA
  let b := nth l.opnds st.opndB
  let along := fun (x off n : Nat) => (x + off * fmtBits st.fmt / 8, rowBytesOf n st.fmt)
  match st.code with
  | 0x01 | 0x02 | 0x12 => if st.mode = 0 then [] else [if st.mode = 1 then along a c0 cols else along a r0 rows]
  | 0x04 => if st.mode = 0 then blockRows a st.param0 st.fmt r0 rows c0 cols else []
  | 0x05 => blockRows a st.param0 st.fmt r0 rows c0 cols
  | 0x06 | 0x13 => (a + 4 * r0, 4 * rows) :: (List.range 64).map (fun k => (b + 2 * (k * width + c0), 2 * cols))
  | 0x07 => if st.mode ≤ 1 then []
    else (if st.opndA = 0xFF then [] else [along a c0 cols]) ++ (if st.mode = 3 ∨ st.opndB = 0xFF then [] else [along b c0 cols])
  | 0x0B => if st.mode = 0 then [] else blockRows a st.param1 12 r0 rows c0 cols
  | 0x11 => if st.scheme = 0 then [] else [(a + r0 * headerRow width st.scheme, rows * headerRow width st.scheme)]
  | 0x14 => [(a, st.param1 * (st.param0 / 65536 / 2) * 8), (b + 4 * r0, 4 * rows)]
  | 0x15 => blockRows a st.param0 12 r0 rows c0 cols
  | _ => []

/-- Rows of a stored operand with their block headers. -/
def operandRows (addr stride scl scheme fmt width r0 rows : Nat) : List (Nat × Nat) :=
  [(addr + r0 * stride, tensorLen rows stride (rowBytesOf width fmt))]
    ++ (if scheme = 0 then [] else [(scl + r0 * headerRow width scheme, rows * headerRow width scheme)])

/-- The operand bytes of tile `t` of a layer: its rows of A, its rows of B, and what its stages read, R23, R182; the second layer of a pair reads no A. -/
def tileOperands (l : Layer) (c : Chain) (second : Bool) (t : Nat) : List (Nat × Nat) :=
  let w := outWidth c l
  let r0 := t / ceilDiv w 128 * 128
  let c0 := t % ceilDiv w 128 * 128
  let rows := min 128 (l.m - r0)
  let cols := min 128 (w - c0)
  let sa := storedFormat c 0 l
  let sb := storedFormat c 1 l
  (if second then [] else operandRows l.aAddr l.aStride l.aScl (if hasPrologue c 0 then 0 else l.abs) sa.1 l.k r0 rows)
    ++ (c0 :: (if sibling c then [c0 + w] else [])).flatMap (fun b0 =>
      operandRows l.bAddr l.bStride l.bScl (if hasPrologue c 1 then 0 else l.bbs) sb.1 l.k b0 cols)
    ++ c.prologue.flatMap (if c.proSide = 0 then stageBlock l l.k r0 rows 0 l.k else stageBlock l l.k c0 cols 0 l.k)
    ++ c.epilogue.flatMap (stageBlock l w r0 rows c0 cols)

/-- Two stretches share a byte. -/
def overlaps (a b : Nat × Nat) : Bool := decide (0 < a.2) && decide (0 < b.2) && decide (a.1 < b.1 + b.2) && decide (b.1 < a.1 + a.2)

/-- The ranges that a model's program names by absolute address, R350. -/
def programExtents (s : State) (m : Model) : List (Nat × Nat) :=
  let ls := (List.range (m.program.length / 192)).map (fun i => layerAt m.program (192 * i))
  (ls.zipIdx).flatMap (absoluteExtents s.compute.chains ls)

/-- A loaded model's program names bytes of a range, R350: by a range that one of its layers reads or writes, or by a field of a layer descriptor whose binding is 0, R352. -/
def modelNames (s : State) (base len : Nat) : Bool :=
  s.serve.models.any (fun m => (programExtents s m.2).any (fun e => overlaps e (base, len)) || (List.range (m.2.program.length / 192)).any (fun i =>
    ([16, 24, 32, 40, 48, 56, 64] ++ (List.range 8).map (fun k => 96 + 8 * k)).any (fun o =>
      let a := fld m.2.program (192 * i + o) 8
      a != 0 && decide (base ≤ a) && decide (a < base + len))))

/-- A command names some byte of a range. -/
def namesRange (s : State) (f : Flight) (a len : Nat) : Bool :=
  (namedExtents s f).any (fun e => decide (0 < e.2) && decide (e.1 < a + len) && decide (a < e.1 + e.2))

/-- The resident pages of a tenant that extents touch have been accessed at this step, R224. -/
def touchPages (tenant : Nat) (es : List (Nat × Nat)) (s : State) : State :=
  { s with tiers := { s.tiers with pages := s.tiers.pages.map (fun p =>
      if p.2.tenant = tenant ∧ p.2.resident = true
          ∧ es.any (fun e => decide (0 < e.2) && decide (e.1 < (p.1 + 1) * 65536) && decide (p.1 * 65536 < e.1 + e.2)) = true then
        (p.1, { p.2 with access := s.proto.stepCount.toNat })
      else p) } }

/-- Every byte of a range lies in allocations of a tenant, R356. -/
def ownedBy (s : State) (tenant a len : Nat) : Bool :=
  decide (a + len ≤ coverEnd (s.tiers.allocs.filter (fun p => p.2.tenant == tenant && !p.2.hidden)) a)

/-- A command has read or written what it names. -/
def touchNamed (f : Flight) (s : State) : State := if s.tiers.pages.isEmpty then s else touchPages f.tenant (namedExtents s f) s

/-- A transfer of a run names a page of the tiers. -/
def Transfer.namesPage (t : Transfer) (p : Nat) : Bool :=
  let meets := fun a n => decide (a < (p + 1) * 65536) && decide (p * 65536 < a + n)
  (t.srcKind == 0 && meets t.src (srcExtent t.rows t.rowBytes t.srcStride))
    || (t.dstKind == 0 && meets t.dst (dstExtent t.xpose t.rows t.rowBytes t.dstStride))

/-- A page that may be evicted for its tenant, R224. -/
def evictable (s : State) (tenant : Nat) (p : Nat × HomePage) : Bool :=
  p.2.tenant == tenant && p.2.resident && !p.2.pinned && (decide (p.2.state = .clean) || decide (p.2.state = .dirty))
    && !(s.proto.flights.any (fun f => f.tenant == tenant && namesRange s f (p.1 * 65536) 65536))
    && !(s.compute.runs.any (fun r => r.tenant == tenant && (r.writes.any (fun w => w.1 / 65536 == p.1) || r.readPages.contains p.1
      || r.transfers.any (fun t => t.namesPage p.1))))

/-- The page that eviction takes: oldest access step, then lowest address, R224. -/
def victim (s : State) (tenant : Nat) : Option Nat :=
  let ps := s.tiers.pages.filter (evictable s tenant)
  match listMin? (ps.map (·.2.access)) with
  | none => none
  | some a => (ps.find? (fun p => p.2.access == a)).map (·.1)

/-- The 16 blocks of a page. -/
def pageBlocks (p : Nat) : List Nat := (List.range 16).map (fun i => p * 16 + i)

/-- Marks of a page, and the others. -/
def marksIn (p : Nat) (l : List Nat) : List Nat := l.filter (fun a => a / 65536 == p)
def marksOut (p : Nat) (l : List Nat) : List Nat := l.filter (fun a => a / 65536 != p)

/-- A page's frame begins to serve its reads: the marks in force stay behind at its home, R592. -/
def toFrame (p : Nat) (s : State) : State :=
  let t := s.tiers
  match kget t.pages p with
  | none => s
  | some x => { s with tiers := { t with
      pages := kset t.pages p { x with homePoison := marksIn p t.poisoned, homeTags := marksIn p t.badTags }
      poisoned := marksOut p t.poisoned
      badTags := marksOut p t.badTags } }

/-- A dirty page is stored home; it keeps its entry, R223, R225. All its blocks go to fresh sectors, so the marks of the former ones are gone; those of the frame move
with its content, R234, R592. -/
def storePage (p : Nat) (s : State) : State :=
  let s1 := storeBlocks (pageBlocks p) s
  let t := s1.tiers
  match kget t.pages p with
  | none => s1
  | some x =>
    let blocks := fun l => ((marksIn p l).map (fun a => a / 4096 * 4096)).eraseDups
    { s1 with tiers := { t with pages := kset t.pages p { x with homePoison := blocks t.poisoned, homeTags := blocks t.badTags } } }

/-- Drop a page's entry: state HOME; the marks at home are in force again, R592. -/
def dropPage (p : Nat) (s : State) : State :=
  let t := s.tiers
  match kget t.pages p with
  | none => s
  | some x =>
    if x.resident ∧ x.state ≠ .filling then
      { s with tiers := { t with
          pages := kdel t.pages p
          poisoned := marksOut p t.poisoned ++ x.homePoison
          badTags := marksOut p t.badTags ++ x.homeTags } }
    else { s with tiers := { t with pages := kdel t.pages p } }

/-- A page has been evicted, R238. -/
def countEviction (tenant : Nat) (s : State) : State := bump .evictions tenant 1 (bump .evictions moduleKey 1 s)

/-- Evict one page: a clean one leaves at once, a dirty one is written home first for the command that needs its frame, R220, R224. -/
def evictOne (who : Option Nat) (tenant p : Nat) (s : State) : State :=
  match kget s.tiers.pages p with
  | none => s
  | some x =>
    if x.state = .dirty then
      { s with tiers := { s.tiers with pages := kset s.tiers.pages p { x with state := .writing, toClean := false, evictor := some (who.getD 0) } } }
    else countEviction tenant (dropPage p s)

/-- Frames that hold a tenant's key/value pages, R366. -/
def kvFrames (t : Tiers) (tenant : Nat) : Nat := listSum ([0, 1, 2, 3].map (fun d => kgetD t.kv (tenant * 4 + d) 0))

/-- Frames of a tenant that evictions in progress will free. -/
def leavingFrames (t : Tiers) (tenant : Nat) : Nat := (t.pages.filter (fun p => p.2.tenant == tenant && p.2.evictor.isSome)).length

/-- What the search for frames comes to, with the evictions it has made, R219, R224. -/
inductive Room where
  | found (s : State)
  /-- there will be room once the victims have been written home -/
  | waits (s : State)
  /-- no page is left that may be evicted -/
  | full (s : State)

/-- Evict until the tenant can hold `need` more frames, R219, R224. -/
def makeRoom (who : Option Nat) (tenant need : Nat) : Nat → State → Room
  | fuel, s =>
    let used := residentFrames s.tiers tenant + shadowFrames s tenant + kvFrames s.tiers tenant + pledgedFrames s.tiers tenant + need
    let quota := (quotaOf s.tiers tenant).frames
    if need = 0 ∨ used ≤ quota then .found s
    else if used ≤ quota + leavingFrames s.tiers tenant then .waits s
    else match fuel, victim s tenant with
      | fuel + 1, some p => makeRoom who tenant need fuel (evictOne who tenant p s)
      | _, _ => .full s

/-- `makeRoom` with as many rounds as there are pages, for the work of a command (none: of no command). -/
def findFrames (who : Option Nat) (tenant need : Nat) (s : State) : Room := makeRoom who tenant need s.tiers.pages.length s

/-- Frames of a die in use, R216: resident frames, key/value pages, and one a shadow page, which the model counts on the die of its page. -/
def dieFramesUsed (t : Tiers) (die : Nat) : Nat := (t.pages.filter (fun p => p.2.die == die)).length + listSum ((t.kv.filter (fun p => p.1 % 4 == die)).map (·.2))

/-- Free frames of a die. -/
def dieFree (t : Tiers) (die : Nat) : Nat := nth t.pool die - dieFramesUsed t die

/-- The die with the most free frames, the lower on a tie, R221. -/
def bestDie (t : Tiers) : Nat :=
  let m := listMax ([0, 1, 2, 3].map (dieFree t))
  (([0, 1, 2, 3].find? (fun d => dieFree t d == m))).getD 0

/-- What a commit of writes comes to, with the evictions it has made. -/
inductive CommitOutcome where
  | fails (st : Status) (d : Nat) (s : State)
  /-- a page it writes is FILLING or WRITING, R220, or a victim is being written home, R224 -/
  | waits (s : State)
  | done (s : State)

/-- The home page entry of a page written by a commit, R218, R220. -/
def pageWritten (old : Memory) (tenant : Nat) (p : Nat) (s : State) : State :=
  match kget s.tiers.pages p with
  | some x =>
    let home := if x.state = .clean then memoryPart old (p * 65536) 65536 else x.home
    let y := { x with state := .dirty, home := home, access := s.proto.stepCount.toNat }
    { s with tiers := { s.tiers with pages := kset s.tiers.pages p y } }
  | none =>
    let y : HomePage := ⟨.writing, bestDie s.tiers, tenant, false, false, false, s.proto.stepCount.toNat, [], none, false, [], [], none⟩
    { s with tiers := { s.tiers with pages := kset s.tiers.pages p y } }

/-- Sector change of a commit in one tier: new counts less old ones over the blocks stored. -/
def sectorDelta (old new : Tiers) (tier : Nat) (blocks : List Nat) : Int :=
  blocks.foldl (fun acc b =>
    if tierAt old (b * 4096) = some tier then acc + (kgetD new.sectors b 0 : Nat) - (kgetD old.sectors b 0 : Nat) else acc) 0

/-- Marks that stay after runs have been written: those of units not written in full, R234, R592. -/
def marksAfter (t : Tiers) (runs : List WriteRun) (marks : List Nat) : List Nat :=
  marks.filter (fun u => !runsCover runs u (poisonUnit t u))

/-- Writes of a command become visible at its commit point, R218 to R220, R226, R227; they wait for pages that a front-wide commit holds locked, R72. -/
def commitWrites (who : Option Nat) (tenant : Nat) (runs : List WriteRun) (framesHeld : Nat) (s : State) : CommitOutcome :=
  let pages := unitsTouched 65536 runs
  let home := pages.filter (fun p => tierAt s.tiers (p * 65536) != some 1)
  if lockedAny s (pages.map (⟨.memory, ·⟩)) || home.any (fun p => match kget s.tiers.pages p with
      | some x => decide (x.state = .filling) || decide (x.state = .writing)
      | none => false) then .waits s
  else match findFrames who tenant (pages.length - framesHeld) s with
    | .full s1 => .fails .noResource 0 s1
    | .waits s1 => .waits s1
    | .found s1 =>
      let bare := home.filter (fun p => (kget s1.tiers.pages p).isNone)
      let blocks := (unitsTouched 4096 runs).filter (fun b => bare.contains (b / 16))
      let s2 := { s1 with mem := applyRuns s1.mem runs }
      let s3 := storeBlocks blocks s2
      let lacks := fun tier => if blocks.any (fun b => tierAt s1.tiers (b * 4096) == some tier) then
        tierFull s1.tiers tenant tier (sectorDelta s1.tiers s3.tiers tier blocks) else none
      match (lacks 2).orElse (fun _ => lacks 3) with
      | some d => .fails .tierFull d s1
      | none => done' s1.mem home s3
where
  done' (old : Memory) (home : List Nat) (s : State) : CommitOutcome :=
    .done (home.foldl (fun t p => pageWritten old tenant p t)
      { s with tiers := { s.tiers with
          poisoned := marksAfter s.tiers runs s.tiers.poisoned
          badTags := marksAfter s.tiers runs s.tiers.badTags } })

/-- The pages that runs write, as what a front-wide commit locks of the tiers, R72. -/
def pageObjs (runs : List WriteRun) : List Obj := (unitsTouched 65536 runs).map (⟨.memory, ·⟩)

/-- The pages that a command names, as what a front-wide commit locks of the tiers, R72. -/
def namedObjs (s : State) (f : Flight) : List Obj :=
  (pagesOfExtents (namedExtents s f)).map (⟨.memory, ·⟩)

/-- A command whose written extents are declared finds its shadow frames before it reads, R219. -/
def withFrames (f : Flight) (runs : List WriteRun) (s : State) (k : State → Verdict) : Verdict :=
  match findFrames (some f.serial) f.tenant (unitsTouched 65536 runs).length s with
  | .full s1 => .rejectIn s1 .noResource 0
  | .waits s1 => .waitIn s1
  | .found s1 => k s1

/-- A commit of writes as a verdict. -/
def commitVerdict (f : Flight) (runs : List WriteRun) (s : State) (k : State → Verdict) : Verdict :=
  match commitWrites (some f.serial) f.tenant runs 0 s with
  | .fails st d s1 => .rejectIn s1 st d
  | .waits s1 => .waitIn s1
  | .done s1 => k s1

/-- The writes of a block move, R230, R232: rows copied, or element e of row r made element r of row e. -/
def moveRuns (read : Nat → Nat → Bytes) (src dst rows rowBytes srcStride dstStride xpose : Nat) : List WriteRun :=
  if xpose = 0 then (List.range rows).map (fun r => (dst + r * dstStride, read (src + r * srcStride) rowBytes))
  else
    let w := xposeBits xpose
    let src' := (List.range rows).map (fun r => unpack w (xposeElems xpose rowBytes) (read (src + r * srcStride) rowBytes))
    (List.range (xposeElems xpose rowBytes)).map (fun e => (dst + e * dstStride, packElems w (src'.map (fun l => nth l e))))

/-- Bytes of the destination that take a byte of a marked source unit, R592: start and length for each row and mark. -/
def carriedMarks (unit : Nat → Nat) (marks : List Nat) (src dst rows rowBytes srcStride dstStride : Nat) : List (Nat × Nat) :=
  ((List.range rows).map (fun r =>
    let a := src + r * srcStride
    marks.filterMap (fun u =>
      let lo := max a u
      let hi := min (a + rowBytes) (u + unit u)
      if lo < hi then some (dst + r * dstStride + (lo - a), hi - lo) else none))).flatten

/-- The units of poison that a range touches. -/
def unitsOf (t : Tiers) (a len : Nat) : List Nat :=
  let k := poisonUnit t a
  (List.range ((a + len - 1) / k + 1 - a / k)).map (fun i => (a / k + i) * k)

/-- The handles that a command names, R346. -/
def namedHandles (f : Flight) : List Nat :=
  match f.op with
  | .layerRun => (layersOf f).map (·.chain)
  | .grammarLoad => [par f 12 4]
  | .requestSubmit => [par f 8 4, par f 40 4]
  | .detokStreamOpen => [par f 0 4, par f 4 4, par f 8 4]
  | .pipelineDefine => [par f 12 4, par f 16 4, par f 32 4, par f 48 4, par f 52 4, par f 60 4, par f 64 4]
  | .breakSet => [par f 4 4]
  | _ => [par f 0 4]

/-- The handles that a request names: the key/value image it has taken, its stream, and those of its pipeline, R346, R354. -/
def requestHandles (r : Request) : List Nat :=
  [fld r.params 8 4, fld r.params 40 4, r.stream] ++ ([12, 16, 32, 48, 52, 60, 64].map (fun o => fld r.pipe.desc o 4))

/-- The commands that transactions have staged. -/
def stagedFlights (s : State) : List Flight :=
  s.proto.txns.flatMap (fun t => t.parts.filterMap (fun p => match p with
    | .command f _ => some f
    | .items _ _ _ => none))

/-- A command that has not yet taken what a handle denotes: it names the handle and waits for its turn or for room, R175, R188, R323. -/
def needsHandle (h : Nat) (g : Flight) : Bool :=
  ([.layerRun, .kernelRun, .tokenize, .packPrompt, .stopSet, .grammarLoad, .requestSubmit, .detokStreamOpen, .pipelineDefine] : List Opcode).any
    (fun o => decide (g.op = o)) && !g.running && (namedHandles g).contains h

/-- A handle of a kind that no object holds and no admitted command or request names, R346: its index is a free value (log entry 6). -/
def freshHandle (kind : Nat) (held : List Nat) (s : State) : Nat × State :=
  let (d, s1) := drawFree s
  let used := held ++ (s.proto.flights ++ stagedFlights s).flatMap namedHandles ++ s.serve.requests.flatMap requestHandles
  let k := kind * 2 ^ 28 + d % 2 ^ 27
  ((firstFree used k (used.length + 1)).getD k, s1)

end Sys2Proof.Machine
end

