-- ==== Sys2Proof/Machine/SelectOps.lean ====
section
/-! DEFINITION. Exact selection: mapped keys (R302), NaN keys (R303), the order and the histogram passes (R304 to R307), sentinels (R306), the merge of lists (R315, R316). -/

namespace Sys2Proof.Machine

open Sys2Proof

/-- The key types, R301. -/
def keyTypeValid (kt : Nat) : Bool := decide (kt < 5)

/-- Bytes of a key in memory, R301. -/
def keyWidth (kt : Nat) : Nat := if kt = 1 ∨ kt = 2 then 2 else 4

/-- Histogram passes P of a key type, R301. -/
def keyPasses (kt : Nat) : Nat := if kt = 1 ∨ kt = 2 then 2 else 4

/-- A key that is a NaN, R303. -/
def keyNan (kt c : Nat) : Bool := decide (kt < 3) && numIsNan (decodeNum kt c)

/-- The order-preserving code of a key before DIR, R302. -/
def mappedUp (kt c : Nat) : Nat :=
  if kt = 0 then
    let b := if c % 2 ^ 31 < 0x00800000 then 0 else c
    if b / 2 ^ 31 = 0 then b + 2 ^ 31 else 2 ^ 32 - 1 - b
  else if kt = 1 ∨ kt = 2 then
    let b := if c % 2 ^ 15 = 0 then 0 else c
    (if b / 2 ^ 15 = 0 then b + 2 ^ 15 else 2 ^ 16 - 1 - b) * 2 ^ 16
  else if kt = 3 then c
  else (c + 2 ^ 31) % 2 ^ 32

/-- The mapped key, R302: DIR 1 (MIN) complements it. -/
def mappedKey (kt c : Nat) (least : Bool) : Nat := if least then 2 ^ 32 - 1 - mappedUp kt c else mappedUp kt c

/-- An entry of a selection: its position, its mapped key, and where it stands in the input. -/
structure SelEntry where
  pos : Nat
  code : Nat
  src : Nat
  deriving DecidableEq, Repr

/-- Byte `p` of a mapped key, most significant first, R307. -/
def selByte (p code : Nat) : Nat := code / 2 ^ (24 - 8 * p) % 256

/-- The threshold bucket of a pass: the highest with at least `r` candidates in it and above, R307. -/
def selThreshold (p r : Nat) (cand : List SelEntry) : Nat :=
  (((List.range 256).reverse).find? (fun b => decide (r ≤ (cand.filter (fun e => decide (b ≤ selByte p e.code))).length))).getD 0

/-- What a selection comes to: the entries chosen, TIES_OUT, the passes made. -/
structure Selected where
  chosen : List SelEntry
  ties : Nat
  passes : Nat
  deriving DecidableEq, Repr

/-- The passes from pass `p` on, `left` of them, R307. -/
def selPasses (p r : Nat) (acc cand : List SelEntry) : Nat → Selected
  | 0 => ⟨acc ++ cand.take r, cand.length - r, p⟩
  | left + 1 =>
    let t := selThreshold p r cand
    let above := cand.filter (fun e => decide (t < selByte p e.code))
    let same := cand.filter (fun e => selByte p e.code == t)
    let r1 := r - above.length
    if r1 = same.length then ⟨acc ++ above ++ same, 0, p + 1⟩
    else selPasses (p + 1) r1 (acc ++ above) same left

/-- A select unit's work on valid entries, R307: they are read in ascending position. -/
def selectEntries (passes k : Nat) (valid : List SelEntry) : Selected :=
  let l := sortBy (fun a b => Nat.ble a.pos b.pos) valid
  if l.length ≤ k then ⟨l, 0, 1⟩ else selPasses 0 k [] l passes

/-- Best first: mapped key descending, then position, R304. -/
def selLe (a b : SelEntry) : Bool := decide (b.code < a.code) || (a.code == b.code && decide (a.pos ≤ b.pos))

/-- The entries in the order written: best first, or in ascending position where ORDER is 1, R307. -/
def selOrder (byPos : Bool) (l : List SelEntry) : List SelEntry :=
  if byPos then sortBy (fun a b => Nat.ble a.pos b.pos) l else sortBy selLe l

/-- A selection that ended before its last pass, R307. -/
def selEarly (passes : Nat) (x : Selected) : Bool := decide (x.passes < passes)

/-- The key of a sentinel, R306. -/
def sentinelKey (kt : Nat) (least : Bool) : Nat :=
  if kt = 0 then (if least then 0x7F800000 else 0xFF800000)
  else if kt = 1 then (if least then 0x7F80 else 0xFF80)
  else if kt = 2 then (if least then 0x7C00 else 0xFC00)
  else if kt = 3 then (if least then 0xFFFFFFFF else 0)
  else (if least then 0x7FFFFFFF else 0x80000000)

/-- The 16 bytes of a result entry, R309. -/
def selEntryBytes (id key info : Nat) : Bytes := toLe 8 id ++ toLe 4 key ++ toLe 4 info

/-- A sentinel entry, R306. -/
def selSentinel (kt : Nat) (least : Bool) : Bytes := selEntryBytes 0xFFFFFFFFFFFFFFFF (sentinelKey kt least) 0x80000000

/-- An input entry of a merge, R309, R314: its list, its place in the list, its fields. -/
structure MergeEntry where
  list : Nat
  place : Nat
  id : Nat
  key : Nat
  info : Nat
  deriving DecidableEq, Repr

/-- The entries of a list from its bytes. -/
def mergeEntries (list : Nat) (b : Bytes) : List MergeEntry :=
  (List.range (b.length / 16)).map (fun e => ⟨list, e, fld b (16 * e) 8, fld b (16 * e + 8) 4, fld b (16 * e + 12) 4⟩)

/-- SENTINEL of an entry. -/
def isSentinel (e : MergeEntry) : Bool := bitOf e.info 31

/-- Keep the first entry of each ID, R315: kept, and dropped with the one kept for it. -/
def collapse : List (Nat × MergeEntry) → List (Nat × MergeEntry) → List (MergeEntry × MergeEntry) →
    List (Nat × MergeEntry) × List (MergeEntry × MergeEntry)
  | [], kept, dups => (kept, dups)
  | p :: l, kept, dups =>
    match kept.find? (fun q => q.2.id == p.2.id) with
    | some q => collapse l kept (dups ++ [(q.2, p.2)])
    | none => collapse l (kept ++ [p]) dups

/-- Two keys differ, R316. -/
def keysDiffer (kt a b : Nat) : Bool :=
  if keyNan kt a || keyNan kt b then keyNan kt a != keyNan kt b else mappedUp kt a != mappedUp kt b

/-- Everything a merge computes, R315, R316. -/
structure Merged where
  /-- kept entries by merge position, and the entries of the result in the order written -/
  result : List MergeEntry
  valid : Nat
  sel : Selected
  duplicates : Nat
  /-- kept and dropped entry of each mismatch, in merge position of the dropped one -/
  mismatches : List (MergeEntry × MergeEntry)
  nans : Nat
  skipped : Nat
  deriving DecidableEq, Repr

/-- The merge of lists in merge order, R315, R316. -/
def mergeLists (kt k : Nat) (least byPos tieId : Bool) (lists : List (List MergeEntry)) : Merged :=
  let all := lists.flatten.zipIdx.map (fun p => (p.2, p.1))
  let real := all.filter (fun p => !isSentinel p.2)
  let (kept, dups) := collapse real [] []
  let good := kept.filter (fun p => !keyNan kt p.2.key)
  let valid := good.map (fun p => (⟨if tieId then p.2.id else p.1, mappedKey kt p.2.key least, p.1⟩ : SelEntry))
  let x := selectEntries (keyPasses kt) k valid
  { result := (selOrder byPos x.chosen).filterMap (fun e => (good.find? (fun p => p.1 == e.src)).map (·.2))
    valid := valid.length
    sel := x
    duplicates := dups.length
    mismatches := dups.filter (fun d => keysDiffer kt d.1.key d.2.key)
    nans := kept.length - good.length
    skipped := all.length - real.length }

/-- The counters of selections, R322. -/
def countSelections (tenant passes keys sentinels : Nat) (l : List Selected) (s : State) : State :=
  bump .selKeys tenant keys (bump .selPasses tenant (listSum (l.map (·.passes)))
    (bump .selEarlyExit tenant (l.filter (selEarly passes)).length (bump .selSentinels tenant sentinels s)))

end Sys2Proof.Machine
end

