-- ==== Sys2Proof/Machine/AllocOps.lean ====
section
/-! DEFINITION. Taking and releasing ranges of the tiers, R214 to R216: what MEM_ALLOC and MEM_FREE share with tables, indexes and models. -/

namespace Sys2Proof.Machine

open Sys2Proof

/-- Stretches of a tier that MEM_ALLOC may not take: allocations, and the frame pool at the end of each die's range, R216. -/
def blockedRanges (t : Tiers) (tier : Nat) : List (Nat × Nat) :=
  let as := ((allocsAndPledged t).filter (fun p => p.2.tier == tier)).map (fun p => (p.1, p.2.len))
  let pool := if tier = 1 then [0, 1, 2, 3].map (fun d => (tierBase 1 + (d + 1) * 0x4800000000 - nth t.pool d * 65536, nth t.pool d * 65536)) else []
  sortBy (fun a b => Nat.ble a.1 b.1) ((as ++ pool).filter (fun r => r.2 != 0))

/-- The gaps between blocked stretches from `lo` to `hi`: start and length. -/
def gapsFrom : Nat → Nat → List (Nat × Nat) → List (Nat × Nat)
  | lo, hi, [] => if lo < hi then [(lo, hi - lo)] else []
  | lo, hi, (a, n) :: l =>
    (if lo < min a hi then [(lo, min a hi - lo)] else []) ++ gapsFrom (max lo (a + n)) hi l

/-- Gaps of a tier, or of a die of Tier 1, that hold `len` bytes. -/
def freeGaps (t : Tiers) (tier die len : Nat) : List (Nat × Nat) :=
  let lo := if die < 4 then tierBase 1 + die * 0x4800000000 else tierBase tier
  let hi := if die < 4 then lo + 0x4800000000 else tierBase tier + tierLogical t tier
  (gapsFrom lo hi (blockedRanges t tier)).filter (fun g => decide (len ≤ g.2))

/-- Bytes of a tier allocated to a tenant. -/
def allocBytes (t : Tiers) (tenant tier : Nat) : Nat :=
  listSum ((allocsAndPledged t).map (fun a => if a.2.tenant = tenant ∧ a.2.tier = tier then a.2.len else 0))

/-- Take a range: a free one, whose place the device chooses (a free value, log entry 6); it reads as zero, R214. -/
def takeRange (a : Alloc) (die : Nat) (s : State) : Nat × State :=
  let gaps := freeGaps s.tiers a.tier die a.len
  let (d, s1) := drawFree s
  let (e, s2) := drawFree s1
  let g := gaps.getD (d % gaps.length) (0, 0)
  let base := g.1 + e % ((g.2 - a.len) / 65536 + 1) * 65536
  let s3 := memClear base a.len s2
  (base, { s3 with tiers := { s3.tiers with allocs := kset s3.tiers.allocs base a } })

/-- Take a range for storage that no command names by address, as R214 decides: the range's first address, 0 for no bytes. -/
def takeStorage (tenant tier die len : Nat) (s : State) : Except (Status × Nat) (Nat × State) :=
  if len = 0 then .ok (0, s)
  else if tierLogical s.tiers tier < len then .error (.outOfRange, 48)
  else if (freeGaps s.tiers tier die len).isEmpty ∨ (tier = 1 ∧ (quotaOf s.tiers tenant).t1 < allocBytes s.tiers tenant 1 + len) then
    .error (.noResource, 0)
  else if 1048576 ≤ (allocsAndPledged s.tiers).length then .error (.tableFull, 0)
  else .ok (takeRange ⟨len, tenant, tier, false, true⟩ die s)

/-- Bytes rounded up to pages. -/
def pageBytes (n : Nat) : Nat := ceilDiv n 65536 * 65536

/-- Release everything an allocation holds: resident pages, sectors, marks; the range reads zero, R215. -/
def releaseAlloc (base len : Nat) (s : State) : State :=
  let inside := fun a => decide (base ≤ a) && decide (a < base + len)
  let s1 := memClear base len s
  { s1 with tiers := { s1.tiers with
      allocs := kdel s1.tiers.allocs base
      pages := s1.tiers.pages.filter (fun p => !inside (p.1 * 65536))
      sectors := s1.tiers.sectors.filter (fun p => !inside (p.1 * 4096))
      poisoned := s1.tiers.poisoned.filter (fun a => !inside a)
      badTags := s1.tiers.badTags.filter (fun a => !inside a) } }

end Sys2Proof.Machine
end

