-- ==== Sys2Proof/Machine/TableOps.lean ====
section
/-! DEFINITION. Where the rows of a table stand: owners (R244), slots and headers (R242, R247), reads (R249), and what a module learns of a table created elsewhere. -/

namespace Sys2Proof.Machine

open Sys2Proof

/-- What has been written into Tier 2 lacks sectors, R226, R228: `s1` is the state with it written. -/
def spaceFail (tenant : Nat) (s s1 : State) : Option Nat :=
  let blocks := (kkeys s1.tiers.sectors ++ kkeys s.tiers.sectors).eraseDups
  let delta := sectorDelta s.tiers s1.tiers 2 blocks
  if 0 < delta then tierFull s.tiers tenant 2 delta else none

/-- A table. -/
def tableOf (s : State) (id : Nat) : Option Table := kget s.tables.tables id

/-- Store a table. -/
def setTable (id : Nat) (t : Table) (s : State) : State :=
  { s with tables := { s.tables with tables := kset s.tables.tables id t } }

/-- An element format is an integer one, whose rows carry a scale, R242. -/
def intRow (fmt : Nat) : Bool := fmt == 8 || fmt == 9

/-- B: bytes of a row, R242. -/
def rowBytes (width fmt : Nat) : Nat := ceilDiv (width * fmtBits fmt) 8 + (if intRow fmt then 4 else 0)

/-- PITCH of a slot, R242. -/
def rowPitch (width fmt : Nat) : Nat := ceilDiv (rowBytes width fmt) 64 * 64

/-- Bytes and PITCH of a table's rows. -/
def tableB (t : Table) : Nat := rowBytes t.width t.fmt
def tablePitch (t : Table) : Nat := rowPitch t.width t.fmt

/-- First row of member `j` of `n`, R244. -/
def shardStart (rows n j : Nat) : Nat := j * rows / n

/-- The position of a module in a shard set. -/
def shardPlace (shard : List Nat) (m : Nat) : Option Nat := shard.findIdx? (· == m)

/-- Rows a member owns: the first and how many, R244. -/
def ownedRows (rows : Nat) (shard : List Nat) (m : Nat) : Nat × Nat :=
  match shardPlace shard m with
  | none => (0, 0)
  | some j =>
    let a := shardStart rows shard.length j
    (a, shardStart rows shard.length (j + 1) - a)

/-- The owner of a row, R244. -/
def ownerOf (t : Table) (row : Nat) : Nat :=
  (t.shard.find? (fun m =>
    let o := ownedRows t.rows t.shard m
    decide (o.1 ≤ row) && decide (row < o.1 + o.2))).getD 0

/-- The row header of a row owned here, R247. -/
def rowHeader (s : State) (t : Table) (row : Nat) : Nat :=
  leNat (memRead s (t.headers + (row - (ownedRows t.rows t.shard s.fabric.view.self).1) * 8) 8)

/-- VERSION and CUR of a header. -/
def headerVersion (h : Nat) : Nat := h % 2 ^ 48
def headerCur (h : Nat) : Nat := h / 2 ^ 48 % 2

/-- Address of a slot of a row owned here, R242, R243. -/
def slotAt (s : State) (t : Table) (row cur : Nat) : Nat :=
  t.slots + ((row - (ownedRows t.rows t.shard s.fabric.view.self).1) * 2 + cur) * tablePitch t

/-- How a row is read, R249. -/
inductive RowFetch where
  /-- path (0 local, 1 replica, 2 remote), version, slot image -/
  | got (path version : Nat) (image : Bytes)
  | fails (status : Status) (detail : Nat)
  | unreachable (owner : Nat)
  | missing

/-- Read a row: at its owner, as fetched from its owner (row, version, image), or from a replica held here, R249, R253. -/
def fetchRow (s : State) (t : Table) (fetched : List (Nat × Nat × Bytes)) (row : Nat) : RowFetch :=
  let owner := ownerOf t row
  if owner = s.fabric.view.self then
    let h := rowHeader s t row
    let a := slotAt s t row (headerCur h)
    match readFails s a (tableB t) with
    | some (st, d) => .fails st d
    | none => .got 0 (headerVersion h) (memRead s a (tableB t))
  else match fetched.find? (fun x => x.1 == row) with
    | some (_, v, b) => .got 2 (v % 2 ^ 48) ((b ++ zeros (tableB t)).take (tableB t))
    | none => match kget t.replicas row with
      | some (v, b) => .got 1 v (b.take (tableB t))
      | none => if reaches s owner then .missing else .unreachable owner

/-- Read several rows: all of them, or the first that can never be read, or, where none is so, that rows are still to come. -/
def fetchRows (s : State) (t : Table) (fetched : List (Nat × Nat × Bytes)) : List Nat → Except RowFetch (List (Nat × Nat × Nat × Bytes))
  | [] => .ok []
  | r :: rs =>
    match fetchRow s t fetched r with
    | .got p v b => (fetchRows s t fetched rs).map (fun l => (r, p, v, b) :: l)
    | .missing => match fetchRows s t fetched rs with
      | .ok _ => .error .missing
      | e => e
    | e => .error e

/-- The record of what a command, or a stage of a request, fetches of a table. -/
def fetchingOf (s : State) (serial id : Nat) : Option RowFetching := s.tables.fetching.find? (fun x => x.serial == serial && x.table == id)

/-- The rows that owners have sent for a command. -/
def fetchedRows (s : State) (serial id : Nat) : List (Nat × Nat × Bytes) := ((fetchingOf s serial id).map (·.rows)).getD []

/-- What a command has fetched is no longer needed. -/
def dropFetching (serial : Nat) (s : State) : State :=
  { s with tables := { s.tables with fetching := s.tables.fetching.filter (fun x => x.serial != serial) } }

/-- A list in runs of at most `k`. -/
def runsOf {α : Type} (k : Nat) : Nat → List α → List (List α)
  | 0, _ => []
  | _, [] => []
  | fuel + 1, l => l.take (max 1 k) :: runsOf k fuel (l.drop (max 1 k))

/-- The header and parameters under which members send each other what concerns a table: those of a BAG_LOOKUP of it (log entry 77). -/
def tableHead (corr id : Nat) : Bytes :=
  headerBytes { parseHeader (zeros 48) with
    version := 1
    hdrLen := 48
    opcode := 0x0504
    paramLen := 64
    commandId := corr } ++ toLe 4 id ++ zeros 60

/-- A message about a table to another member: KIND 0 asks for rows, 1 reports occurrences, 2 tells a policy, 3 tells of the table itself (log entry 77). -/
def sendTable (kind dst tenant corr id : Nat) (body : Bytes) (s : State) : State :=
  sendMessage dst 0x08 0 tenant corr 0 (cmdFwdBody 0 0 s.fabric.view.self 0 (tableHead corr id ++ toLe 4 kind ++ body)) s

/-- Ask the owners for rows that have not been asked for, each owner's in messages of one command, R249, R256. -/
def askRows (serial tenant corr id : Nat) (t : Table) (rows : List Nat) (s : State) : State :=
  let old := (fetchingOf s serial id).getD ⟨serial, corr, tenant, id, [], [], none⟩
  let fresh := rows.filter (fun r => ownerOf t r != s.fabric.view.self && !khas t.replicas r && !old.asked.contains r)
  let s1 := { s with tables := { s.tables with
    fetching := s.tables.fetching.filter (fun x => !(x.serial == serial && x.table == id)) ++ [{ old with asked := old.asked ++ fresh }] } }
  if fresh.isEmpty then s
  else ((fresh.map (ownerOf t)).eraseDups).foldl (fun u o =>
    let mine := fresh.filter (fun r => ownerOf t r == o)
    (runsOf 262000 mine.length mine).foldl (fun v l => sendTable 0 o tenant corr id (toLe 4 mine.length ++ l.flatMap (toLe 8)) v) u) s1

/-- What a command does about a row that cannot be read now: it asks for the rows still to come and waits, or it ends, R249, R253. -/
def fetchVerdict (s : State) (f : Flight) (id : Nat) (t : Table) (rows : List Nat) : RowFetch → Verdict
  | .fails st d => .reject st d
  | .unreachable m => .reject .memberUnreachable m
  | _ => .waitIn (askRows f.serial f.tenant f.hdr.commandId id t rows s)

/-- The rows of a command as `fetchRows` gives them, from what its owners have sent and from what the row of the model brings, unless an owner has failed. -/
def fetchAll (s : State) (serial id : Nat) (t : Table) (fetched : List (Nat × Nat × Bytes)) (rows : List Nat) :
    Except RowFetch (List (Nat × Nat × Nat × Bytes)) :=
  match (fetchingOf s serial id).bind (·.failed) with
  | some (st, d) => .error (.fails (statusOf st) d)
  | none => fetchRows s t (fetchedRows s serial id ++ fetched.filter (fun x => !khas t.replicas x.1)) rows

/-- Entries of a row message that fit its 2,097,152 bytes, R430. -/
def rowsPerMessage (pitch : Nat) : Nat := (2097152 - 64) / (16 + pitch)

/-- The result under which an owner sends rows: TABLE_ID, a count, index and version of each, then the slot images (log entry 77). -/
def servedBytes (id : Nat) (t : Table) (got : List (Nat × Nat × Nat × Bytes)) : Bytes :=
  toLe 4 id ++ toLe 4 got.length ++ got.flatMap (fun g => toLe 8 g.1 ++ toLe 8 g.2.2.1)
    ++ got.flatMap (fun g => g.2.2.2 ++ zeros (tablePitch t - g.2.2.2.length))

/-- An owner serves all the rows that one command fetches from it, in this step, R249: one REPLY, or as many as their size asks for. -/
def serveRows (a : RowServing) (s : State) : State :=
  let answer := fun (r : Reply) (u : State) =>
    sendMessage a.peer 0x08 1 a.tenant a.corr 0 (cmdFwdBody 1 0 a.peer 0 (replyBody a.corr u.frontTime r)) u
  match tableOf s a.table with
  | none => answer (plainReply .outOfRange) s
  | some t =>
    if t.tenant ≠ a.tenant then answer (plainReply .notPermitted) s
    else match fetchRows s t [] a.rows with
      | .error (.fails st d) => answer (plainReply st d) s
      | .error _ => answer (plainReply .outOfRange) s
      | .ok got => (runsOf (rowsPerMessage (tablePitch t)) got.length got).foldl (fun u l => answer (okReply (servedBytes a.table t l)) u) s

/-- A peer's command names rows that it fetches here; with the last of them they are served. -/
def takeAsk (peer tenant corr id : Nat) (b : Bytes) (s : State) : State :=
  let same := fun (x : RowServing) => x.peer == peer && x.corr == corr && x.tenant == tenant && x.table == id
  let old := ((s.tables.serving.find? same).map (·.rows)).getD []
  let x : RowServing := ⟨peer, corr, tenant, id, fld b 0 4, old ++ (List.range ((b.length - 4) / 8)).map (fun i => fld b (4 + 8 * i) 8)⟩
  let rest := s.tables.serving.filter (fun y => !same y)
  if x.total ≤ x.rows.length then serveRows x { s with tables := { s.tables with serving := rest } }
  else { s with tables := { s.tables with serving := rest ++ [x] } }

/-- Rows, or a failure, arrive from an owner for a command that waits for them here, R249; none where no command does. -/
def takeServed (peer tenant corr : Nat) (r : Reply) (s : State) : Option State :=
  let b := r.result
  let n := fld b 4 4
  let owes := fun (x : RowFetching) => (tableOf s x.table).any (fun t =>
    x.asked.any (fun k => ownerOf t k == peer && !x.rows.any (fun y => y.1 == k)))
  match s.tables.fetching.find? (fun x => x.corr == corr && x.tenant == tenant && x.failed.isNone && owes x
      && (!goodStatus r.status || fld b 0 4 == x.table)) with
  | none => none
  | some x =>
    let pitch := ((tableOf s x.table).map tablePitch).getD 0
    let rows := (List.range n).map (fun i => (fld b (8 + 16 * i) 8, fld b (16 + 16 * i) 8, slice b (8 + 16 * n + pitch * i) pitch))
    let y : RowFetching := if goodStatus r.status then { x with rows := x.rows ++ rows.filter (fun g => x.asked.contains g.1) }
      else { x with failed := some (r.status.code, peer) }
    some { s with tables := { s.tables with fetching := s.tables.fetching.map (fun z => if z.serial = x.serial ∧ z.table = x.table then y else z) } }

/-- The window of a table's policy that a front time lies in, R261. -/
def windowOf (t : Table) (time : Nat) : Nat := (time - t.policyAt) / (max 1 t.windowMs * 1000000)

/-- Occurrences of one row at one time are added to a table's, under its policy in force, R260, R261. -/
def addOccurrences (stamp row n : Nat) (t : Table) : Table :=
  if t.hmode ≠ 1 ∨ stamp < t.policyAt then t
  else if t.occurrences.any (fun x => x.1 == stamp && x.2.1 == row) then
    { t with occurrences := t.occurrences.map (fun x => if x.1 = stamp ∧ x.2.1 = row then (stamp, row, x.2.2 + n) else x) }
  else { t with occurrences := t.occurrences ++ [(stamp, row, n)] }

/-- A member's report of occurrences arrives at an owner, R261. -/
def takeReport (id : Nat) (b : Bytes) (s : State) : State :=
  match tableOf s id with
  | none => s
  | some t => setTable id ((List.range (fld b 0 4)).foldl (fun u i =>
      addOccurrences (fld b (4 + 24 * i) 8) (fld b (12 + 24 * i) 8) (fld b (20 + 24 * i) 8) u) t) s

/-- What a member that does not hold a table's rows knows of its policy, and the time from which every member counts its windows, R261. -/
def policyBytes (t : Table) (time : Nat) : Bytes := toLe 4 t.hmode ++ toLe 4 t.windowMs ++ toLe 8 time

/-- A policy in force as the command's coordinator tells it. -/
def takePolicy (b : Bytes) (self : Nat) (t : Table) : Table :=
  if t.shard.contains self then { t with policyAt := fld b 8 8 }
  else { t with
    hmode := fld b 0 4
    windowMs := fld b 4 4
    policyAt := fld b 8 8
    occurrences := [] }

/-- A table as a member tells it to one that does not know it (log entry 64): its shape, its scope, its shard set, its policy. -/
def tableBytes (t : Table) : Bytes :=
  policyBytes t t.policyAt ++ toLe 8 t.rows ++ toLe 2 t.width ++ toLe 1 t.fmt ++ toLe 1 t.tier ++ toLe 1 t.die ++ toLe 1 t.depth
    ++ toLe 2 t.shard.length ++ pathBytes t.scope ++ zeros 4 ++ t.shard.flatMap (toLe 2)

/-- The table that such a message describes. -/
def toldTable (tenant : Nat) (b : Bytes) : Table where
  tenant := tenant
  rows := fld b 16 8
  width := fld b 24 2
  fmt := fld b 26 1
  tier := fld b 27 1
  die := fld b 28 1
  scope := pathEntries (slice b 32 12)
  depth := fld b 29 1
  shard := unpack 16 (fld b 30 2) (b.drop 48)
  slots := 0
  headers := 0
  area := 0
  hmode := fld b 0 4
  windowMs := fld b 4 4
  threshold := 0
  maxHot := 0
  pins := []
  policyAt := fld b 8 8
  hot := []
  occurrences := []
  replicas := []

/-- A message about a table arrives, R245, R249, R261 (log entries 64, 77). -/
def takeTableMessage (peer tenant corr : Nat) (params content : Bytes) (s : State) : State :=
  let id := fld params 0 4
  let b := content.drop 4
  match fld content 0 4 with
  | 0 => takeAsk peer tenant corr id b s
  | 1 => takeReport id b s
  | 2 => match tableOf s id with
    | none => s
    | some t => setTable id (takePolicy b s.fabric.view.self t) s
  | 3 => if (tableOf s id).isSome then s else setTable id (toldTable tenant b) s
  | _ => s

/-- A table is told to modules that do not know it. -/
def tellTable (id : Nat) (dsts : List Nat) (s : State) : State :=
  match tableOf s id with
  | none => s
  | some t => dsts.foldl (fun u m => sendTable 3 m t.tenant 0 id (tableBytes t) u) s

/-- The member that tells newcomers of an object: the first of its shard set that is reached. -/
def tells (s : State) (shard : List Nat) : Bool :=
  (shard.find? (fun m => m == s.fabric.view.self || reaches s m)) == some s.fabric.view.self

/-- A module that has joined is told of every table of the top front that this member is the one to tell, R239, R245. -/
def tellTables (m : Nat) (s : State) : State :=
  (s.tables.tables.filter (fun p => tells s p.2.shard && !p.2.shard.contains m)).foldl (fun u p => tellTable p.1 [m] u) s

/-- A table as TABLE_CREATE makes it on a module, R240, R243, R244. -/
def newTable (f : Flight) (shard : List Nat) (slots headers : Nat) : Table where
  tenant := f.tenant
  rows := par f 0 8
  width := par f 8 2
  fmt := par f 10 1 % 16
  tier := par f 11 1
  die := par f 12 1
  scope := f.hdr.scope
  depth := f.hdr.scopeDepth
  shard := shard
  slots := slots
  headers := headers
  area := 0
  hmode := 0
  windowMs := 0
  threshold := 0
  maxHot := 0
  pins := []
  policyAt := 0
  hot := []
  occurrences := []
  replicas := []

/-- The members that hold a table or can name it: its shard set and every other module that is reached, R245, R246. -/
def tableMembers (s : State) (f : Flight) : List Nat :=
  sortBy Nat.ble ((((tableOf s (par f 0 4)).map (·.shard)).getD [] ++ reachSet s).eraseDups)

/-- A free one of 4,096 IDs, which one a free value decides (log entry 6). -/
def freeId (used : List Nat) (d : Nat) : Nat :=
  match firstFree used (d % 4096) 4096 with
  | some id => if id < 4096 then id else (firstFree used 0 4096).getD 0
  | none => (firstFree used 0 4096).getD 0

/-- The ID that a creation takes on a module: the one carried with it, which every member gives the object, else a free one. -/
def takeId (used : List Nat) (f : Flight) (s : State) : Nat × State :=
  let (d, s1) := drawFree s
  (match f.content with
    | some b => fld b 0 4
    | none => freeId used d, s1)

/-- The entry member of a TABLE_CREATE or TABLE_DROP on other modules learns of it, R245. -/
def learnTable (f : Flight) (r : Reply) (s : State) : State :=
  let shard := sortBy Nat.ble (scopeModules s f.hdr)
  if r.status ≠ .ok then s
  else if f.op = .tableCreate ∧ shard.contains s.fabric.view.self = false then setTable (fld r.result 0 4) (newTable f shard 0 0) s
  else if f.op = .tableDrop ∧ (((tableOf s (par f 0 4)).map (·.shard)).getD []).contains s.fabric.view.self = false then { s with tables := { s.tables with tables := kdel s.tables.tables (par f 0 4) } }
  else s

end Sys2Proof.Machine
end

