-- ==== Sys2Proof/Machine/SearchOps.lean ====
section
/-! DEFINITION. Exact search: scores (R273), the order of results (R276), a shard's part of a query (R286, R290), the merge of parts (R297), index storage (R268). -/

namespace Sys2Proof.Machine

open Sys2Proof

/-- An index. -/
def indexOf (s : State) (id : Nat) : Option VecIndex := kget s.indexes.indexes id

/-- Store an index. -/
def setIndex (id : Nat) (x : VecIndex) (s : State) : State :=
  { s with indexes := { s.indexes with indexes := kset s.indexes.indexes id x } }

/-- The owner of a vector ID, R267. -/
def vecOwner (shard : List Nat) (v : Nat) : Nat := nth shard (v % max 1 shard.length)

/-- An exact sum of products. -/
def dotNum : List Num → List Num → Num
  | a :: as, b :: bs => numAdd (numMul a b) (dotNum as bs)
  | _, _ => .fin false 0 0

/-- An exact sum of squared differences. -/
def distNum : List Num → List Num → Num
  | a :: as, b :: bs =>
    let d := numAdd a (numNeg b)
    numAdd (numMul d d) (distNum as bs)
  | _, _ => .fin false 0 0

/-- `d / sqrt p` for a positive `p`, cut off so many bits below its top, with a sticky last bit, so that it rounds once. -/
def overSqrtAt (bits : Nat) : Num → Num → Num
  | .fin n m e, .fin _ mp ep =>
    if m = 0 ∨ mp = 0 then .fin n 0 0
    else
      let ex := 2 * e - ep
      let odd := b2n (decide (ex % 2 ≠ 0))
      let sh := Nat.log2 mp + bits
      let num := m * m * 2 ^ odd * 2 ^ (2 * sh)
      let q := num / mp
      let t := isqrt q
      .fin n (2 * t + b2n (t * t != q || num % mp != 0)) ((ex - odd) / 2 - sh - 1)
  | x, _ => x

/-- `d / sqrt p` as a COSINE score needs it, R273. -/
def overSqrt (d p : Num) : Num := overSqrtAt 140 d p

/-- rne32 of R273: an exact zero is +0. -/
def rne32 (x : Num) : Nat × NumCounts :=
  match x with
  | .fin _ 0 _ => (0, NumCounts.zero)
  | _ => fp32Out x

/-- Bits that differ between two byte strings. -/
def hamming : Bytes → Bytes → Nat
  | a :: as, b :: bs => ((List.range 8).filter (fun i => (a ^^^ b).getLsbD i)).length + hamming as bs
  | _, _ => 0

/-- A vector in both readings: its values, its bytes. -/
structure VecData where
  nums : List Num
  bytes : Bytes

/-- A packed vector of a format; FP32 subnormals are read as zero, R273. -/
def vecData (fmt dim : Nat) (b : Bytes) : VecData :=
  ⟨if fmt = 12 then [] else (unpack (fmtBits fmt) dim b).map (fun c => if fmt = 0 then fp32In c else decodeNum fmt c), b⟩

/-- The score of two vectors under a metric, R273. -/
def scoreOf (metric : Nat) (q x : VecData) : Nat × NumCounts :=
  match metric with
  | 0 => rne32 (dotNum q.nums x.nums)
  | 1 =>
    let p := numMul (dotNum q.nums q.nums) (dotNum x.nums x.nums)
    match p with
    | .fin _ 0 _ => (0, NumCounts.zero)
    | _ => rne32 (overSqrt (dotNum q.nums x.nums) p)
  | 2 => rne32 (distNum q.nums x.nums)
  | _ => rne32 (.fin false (hamming q.bytes x.bytes) 0)

/-- The goodness of score `a` is below that of `b`, R272, R274. -/
def gBelow (metric a b : Nat) : Bool :=
  if metric ≤ 1 then numLt (decodeNum 0 a) (decodeNum 0 b) else numLt (decodeNum 0 b) (decodeNum 0 a)

/-- Equal goodness. -/
def gEqual (metric a b : Nat) : Bool := !gBelow metric a b && !gBelow metric b a

/-- The order of results: goodness descending, then ID ascending, R276. -/
def hitLe (metric : Nat) (a b : SearchHit) : Bool :=
  gBelow metric b.score a.score || (!gBelow metric a.score b.score && decide (a.id ≤ b.id))

/-- A main-list vector is live at a snapshot, R290. -/
def mainLive (x : VecIndex) (snap : Nat) (v : StoredVec) : Bool := !x.tombs.any (fun t => t.1 == v.id && decide (t.2 ≤ snap))

/-- A side entry is live at a snapshot, R290. -/
def sideLive (x : VecIndex) (snap : Nat) (v : StoredVec) : Bool :=
  decide (v.seq ≤ snap) && !x.tombs.any (fun t => t.1 == v.id && decide (v.seq < t.2) && decide (t.2 ≤ snap))

/-- The best `k` hits in order, and the ties outside, R276. -/
def topHits (metric k : Nat) (l : List SearchHit) : List SearchHit × Nat :=
  let all := sortBy (hitLe metric) l
  let best := all.take k
  let ties := match best.getLast? with
    | none => 0
    | some w => if best.length = k then ((all.drop k).filter (fun h => gEqual metric h.score w.score)).length else 0
  (best, ties)

/-- A vector of a shard as a result of a query: its ID, its score, its list, its payload. -/
def hitOf (x : VecIndex) (q : VecData) (isSide : Bool) (v : StoredVec) : SearchHit × NumCounts :=
  let r := scoreOf x.metric q (vecData x.vfmt x.dim v.vec)
  (⟨v.id, r.1, if isSide then 0xFFFFF + 2 ^ 30 else v.list, v.pay⟩, r.2)

/-- A shard's part of a query at a snapshot, R276, R286: the best `k` of every live vector and the ties; the certified scan gives the same. -/
def searchShard (x : VecIndex) (snap : Nat) (q : VecData) (k : Nat) : List SearchHit × Nat :=
  topHits x.metric k ((x.side.filter (sideLive x snap)).map (fun v => (hitOf x q true v).1)
    ++ (x.main.filter (mainLive x snap)).map (fun v => (hitOf x q false v).1))

/-- The parts of a query merged, R297: the first `k` in order, and TIES_OUT. -/
def mergeParts (metric k : Nat) (parts : List SearchPart) : List SearchHit × Nat :=
  let all := sortBy (hitLe metric) (parts.flatMap (·.hits))
  let best := all.take k
  let ties := match best.getLast? with
    | none => 0
    | some w =>
      if best.length = k then
        ((all.drop k).filter (fun h => gEqual metric h.score w.score)).length
          + listSum (parts.map (fun p =>
              match p.hits.getLast? with
              | some h => if p.hits.length = k ∧ gEqual metric h.score w.score = true then p.ties else 0
              | none => 0))
      else 0
  (best, ties)

/-- The 16 bytes of an entry, R279. -/
def hitBytes (h : SearchHit) : Bytes := toLe 8 h.id ++ toLe 4 h.score ++ toLe 4 h.info

/-- The selection that merging the parts of a query is: keys FP32, the better score first, equal scores by ID, R276, R297, R307, R321. -/
def mergeSelection (metric k : Nat) (parts : List SearchPart) : Selected :=
  selectEntries 4 k ((parts.flatMap (·.hits)).zipIdx.map (fun p => (⟨p.1.id, mappedKey 0 p.1.score (decide (1 < metric)), p.2⟩ : SelEntry)))

/-- The select counts of merging the parts of queries, R321, R322. -/
def countMerges (metric tenant k sentinels : Nat) (queries : List (List SearchPart)) (s : State) : State :=
  countSelections tenant 4 (listSum (queries.map (fun ps => (ps.flatMap (·.hits)).length))) sentinels (queries.map (mergeSelection metric k)) s

/-- A sentinel, R277. -/
def sentinel (metric : Nat) : SearchHit :=
  ⟨0xFFFFFFFFFFFFFFFF, if metric ≤ 1 then 0xFF800000 else 0x7F800000, 0x800FFFFF, []⟩

/-- The first element of a query that is a NaN or infinite: its position and bits, R281. -/
def nonFinite (fmt dim : Nat) (b : Bytes) : Option (Nat × Nat) :=
  if fmt = 12 then none
  else (((unpack (fmtBits fmt) dim b).zipIdx).find? (fun p => !numIsFin (decodeNum fmt p.1))).map (fun p => (p.2, p.1))

/-- Bytes of a packed vector of a format. -/
def vecLen (fmt dim : Nat) : Nat := dim * fmtBits fmt / 8

/-- P of R268. -/
def vecPitch (vfmt dim payLen : Nat) : Nat :=
  if vfmt = 12 then payLen else ceilDiv (vecLen vfmt dim + payLen) 64 * 64

/-- Tier 1 bytes of a shard with so many main vectors, side entries and tombstones, R268. -/
def indexT1 (vfmt dim lists main side tombs : Nat) : Nat :=
  if vfmt = 12 then lists * (dim / 8 + 64) + main * (dim / 8 + 16) + side * (16 + dim / 8) + tombs * 16
  else lists * (dim * 4 + 64) + main * (dim / 2 + 16) + side * 16 + tombs * 16

/-- Bytes of ranges held. -/
def heldBytes (s : State) (l : List Nat) : Nat := listSum (l.map (fun a => ((kget s.tiers.allocs a).map (·.len)).getD 0))

/-- Give back bytes from the end of the ranges held. -/
def trimRanges : Nat → List Nat → State → List Nat × State
  | _, [], s => ([], s)
  | 0, l, s => (l, s)
  | excess, a :: l, s =>
    match kget s.tiers.allocs a with
    | none => trimRanges excess l s
    | some al =>
      if al.len ≤ excess then trimRanges (excess - al.len) l (releaseAlloc a al.len s)
      else (a :: l, { s with tiers := { s.tiers with allocs := kset s.tiers.allocs a { al with len := al.len - excess } } })

/-- Hold exactly `need` bytes, in pages: more are taken, or the surplus is given back, R268; a Tier 2 that has no room for them is a TIER_FULL whose shortfall is
their sectors (log entry 81). -/
def resizeHold (tenant tier die need : Nat) (l : List Nat) (s : State) : Except (Status × Nat) (List Nat × State) :=
  let held := heldBytes s l
  let want := pageBytes need
  if want ≤ held then .ok (trimRanges (held - want) l s)
  else match takeStorage tenant tier die (want - held) s with
    | .ok (a, s1) => .ok (a :: l, s1)
    | .error _ => .error (if tier = 2 then (.tierFull, 0x102 + ceilDiv (want - held) 1024 * 65536) else (.noResource, 0))

/-- The P bytes that a vector takes in VEC_TIER, R268. -/
def vecImage (x : VecIndex) (v : StoredVec) : Bytes :=
  let b := if x.vfmt = 12 then v.pay else v.vec ++ v.pay
  (b ++ zeros (vecPitch x.vfmt x.dim x.payLen)).take (vecPitch x.vfmt x.dim x.payLen)

/-- Blocks of content are put where they differ from what stands there, and stored at home in Tier 2, R226. -/
def putBlocks (tier : Nat) : Nat → Nat → Bytes → State → State
  | 0, _, _, s => s
  | n + 1, a, b, s =>
    let now := (b ++ zeros 4096).take 4096
    let s1 := if (b.isEmpty && rangeZero s.mem a 4096) || memRead s a 4096 == now then s
      else (fun t => if tier = 2 then storeBlocks [a / 4096] t else t) (memWrite a now s)
    putBlocks tier n (a + 4096) (b.drop 4096) s1

/-- The full vectors and payloads of a shard stand in its ranges of VEC_TIER, one after the other (log entry 81). -/
def placeVectors (x : VecIndex) (s : State) : State :=
  (x.vt.reverse.foldl (fun (p : Bytes × State) a =>
    let n := ((kget p.2.tiers.allocs a).map (·.len)).getD 0
    (p.1.drop n, putBlocks x.vecTier (n / 4096) a (p.1.take n) p.2)) ((x.main ++ x.side).flatMap (vecImage x), s)).2

/-- An index with the storage its contents need, R268. -/
def fitIndex (x : VecIndex) (s : State) : Except (Status × Nat) (VecIndex × State) :=
  match resizeHold x.tenant 1 x.codeDie (indexT1 x.vfmt x.dim x.lists x.main.length x.side.length x.tombs.length) x.t1 s with
  | .error e => .error e
  | .ok (t1, s1) =>
    match resizeHold x.tenant x.vecTier 0xFF (vecPitch x.vfmt x.dim x.payLen * (x.main.length + x.side.length)) x.vt s1 with
    | .error e => .error e
    | .ok (vt, s2) =>
      let y := { x with t1 := t1, vt := vt }
      let s3 := placeVectors y s2
      match spaceFail x.tenant s2 s3 with
      | some d => .error (.tierFull, d)
      | none => .ok (y, s3)

/-- All storage of an index on this module is released. -/
def releaseIndex (id : Nat) (s : State) : State :=
  match indexOf s id with
  | none => s
  | some x =>
    let s1 := (x.t1 ++ x.vt).foldl (fun t a => releaseAlloc a (((kget t.tiers.allocs a).map (·.len)).getD 0) t) s
    { s1 with indexes := { s1.indexes with indexes := kdel s1.indexes.indexes id } }

/-- A centroid of an index, as FP32 values or as bits. -/
def centroidData (x : VecIndex) (l : Nat) : VecData :=
  let row := if x.vfmt = 12 then x.dim / 8 else x.dim * 4
  vecData (if x.vfmt = 12 then 12 else 0) x.dim (slice x.centroids (l * row) row)

/-- The list whose centroid a vector is assigned to, R292: the best score, the lower list on a tie; and the scores flushed, R273. -/
def assignList (x : VecIndex) (v : Bytes) : Nat × Nat :=
  let metric := if x.metric = 0 then 2 else x.metric
  let d := vecData x.vfmt x.dim v
  let hits := (List.range x.lists).map (fun l =>
    let r := scoreOf metric (centroidData x l) d
    ((⟨l, r.1, 0, []⟩ : SearchHit), r.2.flush))
  ((((sortBy (hitLe metric) (hits.map (·.1))).head?).map (·.id)).getD 0, listSum (hits.map (·.2)))

/-- The index a command creates. -/
def newIndex (f : Flight) (shard : List Nat) (centroids : Bytes) : VecIndex where
  tenant := f.tenant
  dim := par f 0 2
  vfmt := par f 2 1
  metric := par f 3 1
  lists := par f 4 4
  vecTier := par f 8 1
  codeDie := par f 9 1
  payLen := par f 10 2
  scope := f.hdr.scope
  depth := f.hdr.scopeDepth
  shard := shard
  centroids := centroids
  main := []
  scan := []
  side := []
  tombs := []
  mseq := 0
  t1 := []
  vt := []
  counts := ⟨0, 0, 0, 0, 0, 0, 0, 0, 0⟩
  merging := none

/-- An index as a member tells it to one that does not know it (log entry 64): its shape, its scope, its shard set, its centroids. -/
def indexBytes (x : VecIndex) : Bytes :=
  toLe 2 x.dim ++ toLe 1 x.vfmt ++ toLe 1 x.metric ++ toLe 4 x.lists ++ toLe 1 x.vecTier ++ toLe 1 x.codeDie ++ toLe 2 x.payLen
    ++ toLe 2 x.shard.length ++ toLe 1 x.depth ++ [0] ++ pathBytes x.scope ++ x.shard.flatMap (toLe 2) ++ x.centroids

/-- The index that such a message describes. -/
def toldIndex (tenant : Nat) (b : Bytes) : VecIndex where
  tenant := tenant
  dim := fld b 0 2
  vfmt := fld b 2 1
  metric := fld b 3 1
  lists := fld b 4 4
  vecTier := fld b 8 1
  codeDie := fld b 9 1
  payLen := fld b 10 2
  scope := pathEntries (slice b 16 12)
  depth := fld b 14 1
  shard := unpack 16 (fld b 12 2) (b.drop 28)
  centroids := b.drop (28 + 2 * fld b 12 2)
  main := []
  scan := []
  side := []
  tombs := []
  mseq := 0
  t1 := []
  vt := []
  counts := ⟨0, 0, 0, 0, 0, 0, 0, 0, 0⟩
  merging := none

/-- An index is told to modules that do not know it. -/
def tellIndex (id : Nat) (dsts : List Nat) (s : State) : State :=
  match indexOf s id with
  | none => s
  | some x => dsts.foldl (fun u m => sendTable 4 m x.tenant 0 id (indexBytes x) u) s

/-- A module that has joined is told of every index of the top front that this member is the one to tell, R267. -/
def tellIndexes (m : Nat) (s : State) : State :=
  (s.indexes.indexes.filter (fun p => tells s p.2.shard && !p.2.shard.contains m)).foldl (fun u p => tellIndex p.1 [m] u) s

/-- The members that hold an index or can name it: its shard set and every other module that is reached, R267, R271. -/
def indexMembers (s : State) (f : Flight) : List Nat :=
  sortBy Nat.ble ((((indexOf s (par f 0 4)).map (·.shard)).getD [] ++ reachSet s).eraseDups)

/-- The bytes that an address range of an index's storage holds. -/
def indexRanges (s : State) (x : VecIndex) : List (Nat × Nat) :=
  (x.t1 ++ x.vt).map (fun a => (a, ((kget s.tiers.allocs a).map (·.len)).getD 0))

/-- The shard as the snapshot of a peer's SEARCH sees it, R291: what is kept of it since its first request, else the present shard. -/
def servedShard (s : State) (peer corr tenant id : Nat) : Option VecIndex :=
  ((s.indexes.served.find? (fun v => v.peer == peer && v.corr == corr && v.tenant == tenant && v.index == id)).map (·.shard)).orElse fun _ => indexOf s id

/-- The shard set of the index that a command names. -/
def indexShard (s : State) (f : Flight) : List Nat := ((indexOf s (par f 0 4)).map (·.shard)).getD []

/-- The entry member of an INDEX_CREATE or INDEX_DROP on other modules learns of it, R267. -/
def learnIndex (f : Flight) (r : Reply) (s : State) : State :=
  let shard := sortBy Nat.ble (scopeModules s f.hdr)
  if r.status ≠ .ok then s
  else if f.op = .indexCreate ∧ shard.contains s.fabric.view.self = false then setIndex (fld r.result 0 4) (newIndex f shard ((f.content.getD []).drop 4)) s
  else if f.op = .indexDrop ∧ (indexShard s f).contains s.fabric.view.self = false then
    { s with indexes := { s.indexes with indexes := kdel s.indexes.indexes (par f 0 4) } }
  else s

end Sys2Proof.Machine
end

