-- ==== Sys2Proof/Machine/RunOps.lean ====
section
/-! DEFINITION. Cells, cores and runs: their places in State, queue marks (R582), charges (R388 to R390), what a command gives back when it ends (R25, R140), corrected and uncorrectable errors (R595). -/

namespace Sys2Proof.Machine

open Sys2Proof

/-- A cell; one never used is in its reset state. -/
def cellOf (s : State) (c : Nat) : Cell := kgetD s.compute.cells c Cell.reset

/-- Store a cell. -/
def setCell (c : Nat) (x : Cell) (s : State) : State := { s with compute := { s.compute with cells := kset s.compute.cells c x } }

/-- A vane core, by its ID of R29. -/
def coreOf (s : State) (hart : Nat) : Core := kgetD s.compute.cores hart Core.idle

/-- Store a vane core. -/
def setCore (hart : Nat) (x : Core) (s : State) : State :=
  { s with compute := { s.compute with cores := kset s.compute.cores hart x } }

/-- The run of a command in flight. -/
def runOf (s : State) (serial : Nat) : Option Run := s.compute.runs.find? (fun r => r.serial == serial)

/-- The run that holds a cell. -/
def runOfCell (s : State) (cell : Nat) : Option Run := s.compute.runs.find? (fun r => r.cells.contains cell)

/-- Store a run in place. -/
def setRun (x : Run) (s : State) : State :=
  { s with compute := { s.compute with runs := s.compute.runs.map (fun r => if r.serial = x.serial then x else r) } }

/-- Device address of a scratchpad offset of a cell, R153. -/
def scratchAddr (cell off : Nat) : Nat := 0x40000000 + cell * 0x1000000 + off

/-- Bytes of a cell's scratchpad. -/
def scratchRead (s : State) (cell off n : Nat) : Bytes := memRead s (scratchAddr cell off) n

/-- A range lies within a scratchpad. -/
def inScratch (off n : Nat) : Bool := decide (off + n ≤ 0xC00000)

/-- Cores of a cell whose reservation a store to scratchpad bytes touches lose it (RISC-V LR/SC). -/
def breakReservations (cell off n : Nat) (except : Nat) (s : State) : State :=
  let cores := s.compute.cores.map (fun p =>
    if p.1 / 8 = cell ∧ p.1 ≠ except then
      match p.2.reserved with
      | some (a, w) => if 0x1000000 + off < a + w ∧ a < 0x1000000 + off + n then (p.1, { p.2 with reserved := none }) else p
      | none => p
    else p)
  { s with compute := { s.compute with cores := cores } }

/-- Write bytes of a cell's scratchpad; a word written in full loses its poison, R592. -/
def scratchWrite (cell off : Nat) (b : Bytes) (except : Nat) (s : State) : State :=
  let a := scratchAddr cell off
  let s1 := breakReservations cell off b.length except (memWrite a b s)
  { s1 with tiers := { s1.tiers with
      poisoned := s1.tiers.poisoned.filter (fun u => !(decide (a ≤ u) && decide (u + 8 ≤ a + b.length))) } }

/-- A poisoned word in a range of a cell's scratchpad: its offset. -/
def scratchPoison (s : State) (cell off n : Nat) : Option Nat :=
  (firstMarked s.tiers s.tiers.poisoned (scratchAddr cell off) n).map (fun a => a - scratchAddr cell 0)

/-- A corrected error of a unit: counted, logged once a second of ticks, R595. -/
def correctedError (unit addr tier : Nat) (s : State) : State :=
  let fl := s.faults
  let s1 := { s with faults := { fl with corrected := fl.corrected + 1 } }
  match kget fl.ceLast unit with
  | some (t, k) =>
    if s.ticks < t + 1000 then { s1 with faults := { s1.faults with ceLast := kset fl.ceLast unit (t, k + 1) } }
    else logFault 0x0001 0 0 unit 0 0 addr (tier + k * 2 ^ 32) { s1 with faults := { s1.faults with ceLast := kset fl.ceLast unit (s.ticks, 0) } }
  | none => logFault 0x0001 0 0 unit 0 0 addr tier { s1 with faults := { s1.faults with ceLast := kset fl.ceLast unit (s.ticks, 0) } }

/-- An uncorrectable error: counted, logged, in the track ring; `action` 1 where it ends a command, R591. -/
def uncorrectedError (unit tenant command addr tier action : Nat) (s : State) : State :=
  let s1 := { s with faults := { s.faults with uncorrected := s.faults.uncorrected + 1 } }
  track 0xC unit tenant command addr 1 (logFault 0x0002 1 action unit tenant command addr tier s1)

/-- What an access of a tier can come to there: Tier 1 has no tag; Tier 3 has no device ECC, and a corruption of it is found by its tag, R233, R234. -/
def tierOutcome (tier : Nat) (o : TierOutcome) : TierOutcome :=
  match o with
  | .badTag => if tier = 1 then .good else .badTag
  | .poisoned => if tier = 3 then .badTag else .poisoned
  | .corrected => if tier = 3 then .good else .corrected
  | o => o

/-- An error found at an address of a tier: the unit of memory is marked, the error counted and logged under the controller that found it, R212, R233, R234, R591,
R592; `ends` where it ends the command. What lies at home behind a resident frame is marked there. -/
def markUnit (f : Option Flight) (ends atHome : Bool) (addr : Nat) (outcome : TierOutcome) (s0 : State) : State :=
  let tier := (tierAt s0.tiers addr).getD 0
  let met := tierOutcome tier outcome
  let behind := atHome && (residentAt s0.tiers addr).isSome
  let (unit, s) := if behind then (fun (p : Nat × State) => (0x4010 + p.1 % 24, p.2)) (drawFree s0) else errorUnit addr s0
  let t := s.tiers
  let size := if behind then 4096 else poisonUnit t addr
  let u := addr / size * size
  let tenant := (f.map (·.tenant)).getD 0
  let cmd := (f.map (·.hdr.commandId)).getD 0
  let markHome := fun (x : HomePage) => if met = .badTag then { x with homeTags := (u :: x.homeTags).eraseDups } else { x with homePoison := (u :: x.homePoison).eraseDups }
  let marked := fun (s1 : State) =>
    if behind then { s1 with tiers := { s1.tiers with pages := s1.tiers.pages.map (fun p => if p.1 = addr / 65536 then (p.1, markHome p.2) else p) } }
    else if met = .badTag then { s1 with tiers := { s1.tiers with badTags := (u :: s1.tiers.badTags).eraseDups } }
    else { s1 with tiers := { s1.tiers with poisoned := (u :: s1.tiers.poisoned).eraseDups } }
  match met with
  | .corrected => correctedError unit u tier s
  | .poisoned =>
    let s1 := marked (uncorrectedError unit tenant cmd u tier (b2n ends) s)
    { s1 with tiers := { s1.tiers with retire := if tier = 2 ∧ size = 4096 then (addr / 4096 :: s1.tiers.retire).eraseDups else s1.tiers.retire } }
  | .badTag => marked s
  | _ => s0

/-- Virtual time after a charge, R390. -/
def chargeV (v : VTime) (charged weight : Nat) : VTime :=
  let t := charged * 65536 + v.rest
  ⟨v.v + t / weight, t % weight⟩

/-- Weight and floor of a tenant, R391. -/
def shareOf (s : State) (tenant : Nat) : Share :=
  if tenant = 0 then ⟨65535, 0⟩ else kgetD s.sched.shares tenant ⟨256, 4⟩

/-- Charge a tenant for cells, R388 to R390. -/
def chargeCells (tenant cycles : Nat) (s : State) : State :=
  let v := chargeV (kgetD s.sched.cellV tenant ⟨0, 0⟩) cycles (shareOf s tenant).weight
  bump .cellCycles tenant cycles { s with sched := { s.sched with cellV := kset s.sched.cellV tenant v } }

/-- A hub unit of a clock domain takes an item: which hub is a free value; a gated domain restarts first, R529. Domain 26 is search and select, 27 gather and text, each six less than the other hub's. -/
def wakeHub (domain : Nat) (s : State) : State :=
  let (d, s1) := drawFree s
  let dom := domain + 6 * (d % 2)
  let p := s1.power
  let s2 := { s1 with power := { p with gated := p.gated.filter (· != dom), hubLast := kset p.hubLast dom s1.frontTime } }
  if p.gated.contains dom then bump .hubRestarts 0 1 s2 else s2

/-- Charge a tenant for a unit of a hub domain, R388, R389: the cycles it took are a free value (log entry 7). -/
def chargeHub (domain tenant : Nat) (s0 : State) : State :=
  let s := wakeHub domain s0
  let (d, s1) := drawFree s
  let v := chargeV (kgetD s1.sched.hubV tenant ⟨0, 0⟩) d (shareOf s1 tenant).weight
  bump .hubCycles tenant d { s1 with sched := { s1.sched with hubV := kset s1.sched.hubV tenant v } }

/-- The cells of a run or layer are free again in the state of R140; their cores are idle; windows are closed, R170. -/
def freeCells (cells : List Nat) (s : State) : State :=
  let keep := s.compute.cells.map (fun p =>
    if cells.contains p.1 then (p.1, { Cell.reset with tenant := p.2.tenant }) else p)
  let cores := s.compute.cores.filter (fun p => !cells.contains (p.1 / 8))
  { s with compute := { s.compute with cells := keep, cores := cores } }

/-- Charge an item that ends with its command: the cycles its cells were held are a free value (log entry 7). -/
def chargeEnded (i : WorkItem) (s : State) : State :=
  if i.cells.isEmpty then s
  else
    let (d, s1) := drawFree s
    chargeCells i.tenant d s1

/-- Items of a command in flight leave the scheduler; their cells are free. -/
def removeItems (serial : Nat) (s : State) : State :=
  let mine := s.sched.items.filter (fun i => i.serial == serial)
  freeCells (mine.map (·.cells)).flatten
    { s with sched := { s.sched with items := s.sched.items.filter (fun i => i.serial != serial) } }

/-- Items of a command that ends without reaching its commit point: charged, then removed, R388. -/
def dropItems (serial : Nat) (s : State) : State :=
  removeItems serial ((s.sched.items.filter (fun i => i.serial == serial)).foldl (fun t i => chargeEnded i t) s)

/-- Numeric counts of a command enter its tenant's counters at its commit point, R107. -/
def addCounts (tenant : Nat) (n : NumCounts) (s : State) : State :=
  bump .satCount tenant n.sat (bump .blockClamp tenant n.clamp (bump .flushFp32 tenant n.flush
    (bump .nanConverted tenant n.nanConv (bump .ternReserved tenant n.tern s))))

/-- SAT_LIMIT of a numeric control word is exceeded, R102, R105. -/
def overSatLimit (numeric sat : Nat) : Bool := bits numeric 31 12 != 0xFFFFF && decide (bits numeric 31 12 < sat)

/-- The end of a HALT that waited for a run that has ended: OUTCOME 2, R572; of a STEP: the given outcome, R574. -/
def endWaiters (r : Run) (stepOutcome newPc : Nat) (s : State) : State :=
  let waits := s.dbg.haltWaits.filter (fun w => w.2 == r.serial)
  let s1 := { s with dbg := { s.dbg with haltWaits := s.dbg.haltWaits.filter (fun w => w.2 != r.serial) } }
  let s2 := waits.foldl (fun t w => match flightOf t w.1 with
    | some f => finishPlain f (okReply (toLe 1 2 ++ zeros 7)) t
    | none => t) s1
  match r.halt with
  | .stepping _ h => match flightOf s2 h with
    | some f => finishPlain f (okReply (toLe 1 stepOutcome ++ zeros 7 ++ toLe 8 newPc)) s2
    | none => s2
  | _ => s2

/-- A search has ended: the other shard members are told whether it has committed, and keep nothing of its snapshot, R291, R300 (log entry 80). -/
def endSearch (serial : Nat) (committed : Bool) (s : State) : State :=
  match s.indexes.jobs.find? (fun j => j.serial == serial) with
  | none => s
  | some j =>
    let s1 := { s with indexes := { s.indexes with jobs := s.indexes.jobs.filter (fun x => x.serial != serial) } }
    match indexOf s j.index with
    | none => s1
    | some x => (x.shard.filter (fun m => m != s.fabric.view.self && reaches s m)).foldl (fun t m =>
        sendTable 5 m x.tenant j.commandId j.index (toLe 4 (b2n committed)) t) s1

/-- Everything a command in flight holds is given back: its run, its layers, its items and cells, the pages it moves. -/
def endWork (serial stepOutcome newPc : Nat) (s : State) : State :=
  let s1 := match runOf s serial with
    | some r => endWaiters r stepOutcome newPc (freeCells r.cells s)
    | none => s
  let s2 := endSearch serial false (dropItems serial s1)
  let pages := s2.tiers.pages.filterMap (fun p =>
    if p.2.mover = some serial then
      (if p.2.state = .filling then none else some (p.1, { p.2 with state := .dirty, mover := none, moved := false }))
    else some p)
  { s2 with
    compute := { s2.compute with
      runs := s2.compute.runs.filter (fun r => r.serial != serial)
      images := kdel s2.compute.images serial
      jobs := s2.compute.jobs.filter (fun j => j.serial != serial) }
    tiers := { s2.tiers with pages := pages } }

end Sys2Proof.Machine
end

