-- ==== Sys2Proof/Machine/CoordOps.lean ====
section
/-! DEFINITION. Front-wide commits at the coordinator (R72 to R75), the combination of replies (R39), the end of a transaction (R68, R70), and the end of a command, which for a part of a front-wide commit is a vote. -/

namespace Sys2Proof.Machine

open Sys2Proof

/-- A field of a result: offset, bytes, whether it counts something, R605. -/
abbrev ResultField := Nat × Nat × Bool

/-- Fields of the same shape from an offset on. -/
def resultFields (off width count : Nat) (sum : Bool) : List ResultField := (List.range count).map (fun i => (off + width * i, width, sum))

/-- The fields of the results that several members may return: counts are summed, other fields are not, R39, R605. -/
def resultShape : Opcode → List ResultField
  | .vecInsert | .vecDelete | .indexMerge => resultFields 0 4 3 true ++ [(12, 4, false)]
  | .indexStats => resultFields 0 8 16 true
  | .rowsWrite => resultFields 0 4 2 true ++ [(8, 8, false)]
  | .reside | .demote | .flush => resultFields 0 4 2 true
  | .layerRun | .kernelRun => [(0, 8, true), (8, 8, false)]
  | .tierStats => [(0, 4, false)] ++ resultFields 4 4 3 true ++ resultFields 16 8 74 true
  | _ => []

/-- The results of several members as one, the entry member's own (else the lowest module's) first in the list, R605. -/
def mergeResults (op : Opcode) (l : List Bytes) : Bytes :=
  let base := (l.find? (fun b => !b.isEmpty)).getD []
  let shape := if op = .countersRead then [(0, 8, false), (8, 8, false)] ++ resultFields 16 8 ((base.length - 16) / 8) true else resultShape op
  match shape with
  | [] => base
  | fs => fs.flatMap (fun f => if f.2.2 then toLe f.2.1 (listSum (l.map (fun b => fld b f.1 f.2.1))) else slice base f.1 f.2.1)

/-- The replies of several members combined at module `self`, R39, R605. -/
def combineReplies (self : Nat) (op : Opcode) (l : List (Nat × Reply)) : Reply :=
  let l' := sortBy (fun a b => Nat.ble (a.1 % 0x10000) (b.1 % 0x10000)) l
  match l'.find? (fun p => !goodStatus p.2.status) with
  | some (m, r) => { status := r.status, detail := m % 0x10000, result := [] }
  | none =>
    let mine := l'.filter (fun p => p.1 == self) ++ l'.filter (fun p => p.1 != self)
    let whole := l'.all (fun p => decide (p.2.status = .ok))
    { status := if whole then .ok else .okPartial
      detail := if whole then 0 else listSum (l'.map (·.2.detail))
      result := mergeResults op (mine.map (·.2.result)) }

/-- The opcodes that create or drop an object which every module of the top front can name, R241, R245, R267. -/
def namesObject (op : Opcode) : Bool :=
  decide (op = .tableCreate) || decide (op = .tableDrop) || decide (op = .indexCreate) || decide (op = .indexDrop)

/-- The commands about tables and indexes of which the other members are told when they have committed. -/
def announced (op : Opcode) : Bool := namesObject op || decide (op = .hotPolicySet)

/-- The modules that took no part in creating or dropping a table or an index are told of it, so that any member can be its entry member, R36, R245; every
member is told when a hot-row policy has committed, R261 (log entry 64). -/
def announceObject (time : Nat) (f : Flight) (r : Reply) (known : List Nat) (s : State) : State :=
  if announced f.op = false ∨ r.status ≠ .ok ∨ fromPeer f then s
  else
    let others := (reachSet s).filter (fun m => m != s.fabric.view.self)
    let untold := others.filter (fun m => !known.contains m)
    let id := fld r.result 0 4
    match f.op with
    | .tableCreate => tellTable id untold s
    | .indexCreate => tellIndex id untold s
    | .hotPolicySet => match tableOf s (par f 0 4) with
      | none => s
      | some t =>
        let b := policyBytes { t with hmode := par f 4 1, windowMs := par f 8 4 } time
        others.foldl (fun u m => sendTable 2 m t.tenant 0 (par f 0 4) b u) (setTable (par f 0 4) (takePolicy b s.fabric.view.self t) s)
    | _ => sendAll 0x08 0 f.tenant f.hdr.commandId (cmdFwdBody 0 0 s.fabric.view.self 0 (headerBytes f.hdr ++ f.params)) untold s

/-- What an entry member learns, and tells, of an object created or dropped on other modules. -/
def learnObject (time : Nat) (f : Flight) (r : Reply) (known : List Nat) (s : State) : State :=
  announceObject time f r known (learnIndex f r (learnTable f r s))

/-- In the key of a command run alone its COMMAND_ID stands in place of a TXN_ID, told from one by 2^64, R75. -/
def aloneTxn (commandId : Nat) : Nat := 2 ^ 64 + commandId

/-- TXN_ID of a CMD_FWD message about a front-wide commit: 0 for a command run alone, which CORR names. -/
def keyTxnField (key : TxnKey) : Nat := if 2 ^ 64 ≤ key.txn then 0 else key.txn

/-- A coordinator's record. -/
def coordOf (s : State) (key : TxnKey) : Option Coord := s.fabric.coords.find? (fun c => decide (c.key = key))

/-- A coordinator's record changed in place. -/
def setCoord (c : Coord) (s : State) : State :=
  { s with fabric := { s.fabric with coords := s.fabric.coords.map (fun d => if d.key = c.key then c else d) } }

/-- A coordinator's record dropped. -/
def dropCoord (key : TxnKey) (s : State) : State :=
  { s with fabric := { s.fabric with coords := s.fabric.coords.filter (fun c => decide (c.key ≠ key)) } }

/-- Frames that a tenant's work holds in the pool. -/
def framesHeld (s : State) (tenant : Nat) : Nat := residentFrames s.tiers tenant + shadowFrames s tenant + kvFrames s.tiers tenant

/-- What the parts of a commit take of the tiers: from the state they were judged in and the one they would leave (log entry 69). -/
def pledgeOf (key : TxnKey) (tenant : Nat) (old new : State) : Pledge where
  coord := key.coord
  session := key.session
  txn := key.txn
  tenant := tenant
  frames := framesHeld new tenant - framesHeld old tenant
  t2 := heldSectors new.tiers tenant 2 + reservedSectors new.tiers tenant 2 - (heldSectors old.tiers tenant 2 + reservedSectors old.tiers tenant 2)
  t3 := heldSectors new.tiers tenant 3 + reservedSectors new.tiers tenant 3 - (heldSectors old.tiers tenant 3 + reservedSectors old.tiers tenant 3)
  ranges := new.tiers.allocs.filter (fun p => !khas old.tiers.allocs p.1)

/-- A pledge is a prepared entry's. -/
def Pledge.isOf (p : Pledge) (key : TxnKey) : Bool := p.coord == key.coord && p.session == key.session && p.txn == key.txn

/-- The pages of writes that a vote holds back are locked until the decision, R72. -/
def lockPages (key : TxnKey) (pages : List Nat) (s : State) : State :=
  { s with fabric := { s.fabric with prepared := s.fabric.prepared.map (fun p =>
      if p.key = key then { p with locks := p.locks ++ pages.map (⟨.memory, ·⟩) } else p) } }

/-- A prepared entry is carried out: what it locked does not hold itself up. -/
def unlockOwn (key : TxnKey) (s : State) : State :=
  { s with fabric := { s.fabric with prepared := s.fabric.prepared.map (fun p => if p.key = key then { p with locks := [] } else p) } }

/-- What a prepared entry kept is free again. -/
def releasePledge (key : TxnKey) (s : State) : State :=
  { s with tiers := { s.tiers with pledges := s.tiers.pledges.filter (fun p => !p.isOf key) } }

/-- What a YES vote keeps: `after` is the state that the parts judged in `s` would leave, R72. -/
def addPledge (key : TxnKey) (tenant : Nat) (after s : State) : State :=
  let p := pledgeOf key tenant s after
  let keeps := decide (0 < p.frames) || decide (0 < p.t2) || decide (0 < p.t3) || !p.ranges.isEmpty
  if keeps then { s with tiers := { s.tiers with pledges := s.tiers.pledges ++ [p] } } else s

/-- A prepared entry is recorded with what it locks and what its YES vote keeps: `after` is the state its parts would leave, R72. -/
def addPrepared (key : TxnKey) (parts : List Part) (locks : List Obj) (vote : Reply) (corr tenant : Nat) (after s : State) : State :=
  addPledge key tenant after { s with
    freeCtr := max s.freeCtr after.freeCtr
    fabric := { s.fabric with prepared := s.fabric.prepared ++ [⟨key, parts, locks, vote, corr, s.freeCtr⟩] } }

/-- A participant unlocks and drops its prepared entry with the work it has done for it, R73. -/
def dropPrepared (key : TxnKey) (s : State) : State :=
  let workers := s.proto.flights.filter (fun f => decide (f.prep = some key))
  let s1 := workers.foldl (fun t f => dropFlight f.serial (endWork f.serial 3 0 t)) s
  { s1 with
    fabric := { s1.fabric with
      prepared := s1.fabric.prepared.filter (fun p => decide (p.key ≠ key))
      leaving := s1.fabric.leaving.filter (fun k => decide (k ≠ key))
      forming := s1.fabric.forming.filter (fun p => decide (p.1 ≠ key)) }
    tiers := { s1.tiers with pledges := s1.tiers.pledges.filter (fun p => !p.isOf key) }
    tables := { s1.tables with updates := s1.tables.updates.filter (fun u =>
      u.queued || u.entry != key.coord || u.session != key.session || aloneTxn u.commandId != key.txn) } }

/-- The commands of a list of parts, in staging order. -/
def partCommands (l : List Part) : List Flight :=
  l.filterMap (fun p => match p with
    | .command f _ => some f
    | .items _ _ _ => none)

/-- The final records of the staged commands of a transaction that did not commit: TXN_ABORTED, the failing part (its index, status and DETAIL) its own, R68. -/
def abortRecords (parts : List Part) (failing : Option (Nat × Status × Nat)) (s : State) : State :=
  (parts.zipIdx).foldl (fun t p =>
    match p.1 with
    | .items _ _ _ => t
    | .command f _ =>
      finishPlain f (match failing with
        | some (i, st, d) => if i = p.2 then plainReply st d else plainReply .txnAborted
        | none => plainReply .txnAborted) t) s

/-- The transaction leaves the open ones and its outcome is remembered, R70. -/
def forgetTxn (session id : Nat) (committed : Bool) (s : State) : State :=
  let sessions := match kget s.proto.sessions session with
    | none => s.proto.sessions
    | some x => kset s.proto.sessions session { x with ended := ((id, committed) :: x.ended).take 16 }
  { s with proto := { s.proto with
      txns := s.proto.txns.filter (fun t => !(t.session == session && t.id == id))
      sessions := sessions } }

/-- A transaction ends without committing, R68 to R70. -/
def abortTxn (session id : Nat) (parts : List Part) (failing : Option (Nat × Status × Nat)) (s : State) : State :=
  forgetTxn session id false (abortRecords parts failing s)

/-- A coordinator's record of a key/value handover names a request, not a command in flight: its serial and 2^64, R368. -/
def handoverSerial (serial : Nat) : Nat := 2 ^ 64 + serial

/-- The request whose handover a coordinator's record decides. -/
def handoverOf (s : State) (c : Coord) : Option Request := s.serve.requests.find? (fun r => handoverSerial r.serial == c.serial)

/-- A request changed in place. -/
def setRequest (r : Request) (s : State) : State :=
  { s with serve := { s.serve with requests := s.serve.requests.map (fun x => if x.serial = r.serial then r else x) } }

/-- A handover has been decided: the request decodes at its target, or has failed; its next event at this member carries on from there, R368. -/
def handoverEnds (c : Coord) (r : Reply) (s : State) : State :=
  match handoverOf s c with
  | none => s
  | some q => setRequest { q with decided := some r } s

/-- What a participant's vote TXN_ABORTED says of the failing part: its index, its status, and its own DETAIL in the result (log entry 61). -/
def votedFailure (c : Coord) (m : Nat) : Option (Nat × Status × Nat) :=
  (c.votes.find? (fun v => v.1 % 0x10000 == m)).map (fun v => (v.2.detail / 65536, statusOf (v.2.detail % 65536), fld v.2.result 0 8))

/-- The command in flight that started a coordinator's commit ends without effect: its reply, after the records of R68. -/
def coordFails (c : Coord) (r : Reply) (s : State) : State :=
  let s1 := dropCoord c.key s
  match flightOf s1 c.serial with
  | none => handoverEnds c r s1
  | some f =>
    if f.op = .txnCommit then
      let failing := if r.status = .txnAborted then votedFailure c r.detail else none
      finishPlain f r (abortTxn f.hdr.sessionId f.hdr.txnId c.parts failing s1)
    else finishPlain f r s1

/-- DETAIL of a record that lacks the results of an unreachable participant, R74. -/
def missingDetail (missing : List Nat) : Nat :=
  match listMin? (missing.map (· % 0x10000)) with
  | none => 0
  | some m => 2 ^ 63 + m * 2 ^ 48

/-- CORR of the messages about a front-wide commit: the COMMAND_ID of what started it, R430. -/
def coordCorr (s : State) (c : Coord) : Nat :=
  match flightOf s c.serial with
  | some f => f.hdr.commandId
  | none => ((handoverOf s c).map (·.id)).getD 0

/-- The replies of one part from all participants. -/
def partReply (c : Coord) (f : Flight) : Reply :=
  combineReplies c.key.coord f.op ((c.replies.filter (fun r => r.2.1 == f.hdr.commandId)).map (fun r => (r.1, r.2.2)))

/-- Participants that still owe a reply to COMMIT; one that the commit itself has taken out of the view owes none. -/
def owing (s : State) (c : Coord) : List Nat :=
  c.participants.filter (fun m => decide ((c.replies.filter (fun r => r.1 == m)).length < c.parts.length)
    && (decide (0x10000 ≤ m) || m == c.key.coord || khas s.fabric.view.modules m))

/-- A commit record is dropped, R75. -/
def dropDecision (key : TxnKey) (s : State) : State :=
  { s with fabric := { s.fabric with decisions := s.fabric.decisions.filter (fun x => decide (x.key ≠ key)) } }

/-- A commit record is dropped once every participant has replied to COMMIT, R75; the modules that stored it are told by an ABORT about a decided commit, which
can mean nothing else (log entry 70). -/
def forgetDecision (key : TxnKey) (corr : Nat) (s : State) : State :=
  dropDecision key (sendAll 0x08 5 0 corr (cmdFwdBody 5 0 s.fabric.view.self (keyTxnField key) []) ((reachSet s).filter (· != s.fabric.view.self)) s)

/-- Once no reply to COMMIT is awaited any more, the record is posted with the time the decision became final, R74; `late` at a coordinator that has learnt the outcome on rejoining, where the replies of those it was cut off from are lost, R75. -/
def coordEnds (late : Bool) (key : TxnKey) (s : State) : State :=
  match coordOf s key with
  | none => s
  | some c =>
    if c.stage = .committing ∧ (late || ((owing s c).filter (reaches s)).isEmpty) = true then
      let d := missingDetail (owing s c)
      let s1 := dropCoord key (if d = 0 then forgetDecision key (coordCorr s c) s else s)
      match flightOf s1 c.serial with
      | none => handoverEnds c (okReply []) s1
      | some f =>
        if f.op = .txnCommit then
          let s2 := (partCommands c.parts).foldl (fun t g => learnObject c.decided g (partReply c g) c.participants (finishAt c.decided g (partReply c g) t)) s1
          finishAt c.decided f (plainReply .ok d) (forgetTxn f.hdr.sessionId f.hdr.txnId true s2)
        else
          let r := combineReplies c.key.coord f.op (c.replies.map (fun r => (r.1, r.2.2)))
          finishAt c.decided f { r with detail := if d = 0 then r.detail else d } (learnObject c.decided f r c.participants s1)
    else s

/-- Every reachable participant has replied to COMMIT, R74. -/
def coordReplied (key : TxnKey) (s : State) : State := coordEnds false key s

/-- The decision is final once its acknowledgers would hold the top front: COMMIT goes to every participant, R74. -/
def coordAcked (key : TxnKey) (s : State) : State :=
  match coordOf s key with
  | none => s
  | some c =>
    if c.stage = .deciding ∧ holdsTop s.fabric.view c.acks = true then
      let s1 := setCoord { c with stage := .committing, decided := s.frontTime } s
      let corr := coordCorr s c
      coordReplied key (sendAll 0x08 4 0 corr (cmdFwdBody 4 0 s.fabric.view.self (keyTxnField key) [])
        (c.participants.filter (· != s.fabric.view.self)) s1)
    else s

/-- A vote has been recorded, or the time for votes has passed: abort at once on a NO, decide when all have voted, R73, R74. -/
def coordVoted (key : TxnKey) (expired : Bool) (s : State) : State :=
  match coordOf s key with
  | none => s
  | some c =>
    let self := s.fabric.view.self
    let others := c.participants.filter (· != self)
    let corr := coordCorr s c
    let txn := keyTxnField key
    let all := c.participants.all (fun m => c.votes.any (fun v => v.1 == m))
    let no := c.votes.any (fun v => !goodStatus v.2.status)
    if c.stage = .preparing ∧ no = false ∧ expired = false then
      if all then
        let s1 := setCoord { c with stage := .deciding, acks := [self] }
          { s with fabric := { s.fabric with decisions := s.fabric.decisions ++ [⟨key, s.fabric.view.epoch⟩] } }
        coordAcked key (sendAll 0x08 6 0 corr (cmdFwdBody 6 0 self txn []) ((reachSet s).filter (· != self)) s1)
      else s
    else if c.stage = .preparing ∨ c.stage = .aborting then
      let s1 := if c.stage = .preparing then
          dropPrepared key (sendAll 0x08 5 0 corr (cmdFwdBody 5 0 self txn []) others (setCoord { c with stage := .aborting } s))
        else s
      if all || expired then
        let lost := c.participants.filter (fun m => !(c.votes.any (fun v => v.1 == m)))
        let fails := c.votes.filter (fun v => !goodStatus v.2.status) ++ lost.map (fun m => (m, plainReply .memberUnreachable))
        coordFails c (combineReplies c.key.coord .txnCommit fails) s1
      else s1
    else s

/-- A participant's vote reaches the coordinator, R73. -/
def recordVote (key : TxnKey) (m : Nat) (r : Reply) (s : State) : State :=
  match coordOf s key with
  | none => s
  | some c => if c.votes.any (fun v => v.1 == m) then s
    else coordVoted key false (setCoord { c with votes := c.votes ++ [(m, r)] } s)

/-- This module votes: to itself where it coordinates, else in a VOTE message; after a NO it holds nothing of the commit, R72, R73. -/
def castVote (key : TxnKey) (tenant commandId : Nat) (r : Reply) (s0 : State) : State :=
  let s := { s0 with fabric := { s0.fabric with prepared := s0.fabric.prepared.map (fun p => if p.key = key then { p with vote := r } else p) } }
  if key.coord = s.fabric.view.self then recordVote key s.fabric.view.self r s
  else
    let good := goodStatus r.status
    let s1 := sendMessage key.coord 0x08 3 tenant commandId 0
      (cmdFwdBody 3 (b2n (!good)) key.coord (keyTxnField key) (replyBody commandId s.frontTime r)) s
    if good then s1
    else dropPrepared key { s1 with fabric := { s1.fabric with
      refused := s1.fabric.refused ++ [(key.coord, keyTxnField key, commandId)] } }

/-- The end of a command: its final record, or, for this module's part of a front-wide command, its vote, R48, R72. -/
def finish (f : Flight) (r : Reply) (s0 : State) : State :=
  let s := if goodStatus r.status then touchNamed f s0 else s0
  match f.prep with
  | none => finishPlain f r s
  | some key => castVote key f.tenant f.hdr.commandId r (dropFlight f.serial s)

end Sys2Proof.Machine
end

