-- ==== Sys2Proof/Machine/Commands.lean ====
section
/-! DEFINITION. How a command in flight runs: staging into a transaction (R64), gathering from members (R36), the start of a front-wide commit (R72). -/

namespace Sys2Proof.Machine

open Sys2Proof

/-- Commands staged in a transaction. -/
def stagedCommands (t : Txn) : Nat :=
  (t.parts.filter (fun p => match p with | .command _ _ => true | .items _ _ _ => false)).length

/-- Parameter bytes staged in a transaction, R63. -/
def stagedBytes (t : Txn) : Nat :=
  listSum (t.parts.map (fun p => match p with | .command f _ => f.params.length | .items f _ _ => f.params.length))

/-- Items set in a transaction, R63. -/
def stagedItems (t : Txn) : Nat :=
  listSum (t.parts.map (fun p => match p with | .command _ _ => 0 | .items _ l _ => l.length))

/-- The staging reply of a command: OK with STAGED set, one reserved slot used, R53, R64. -/
def stagedRecord (f : Flight) (s : State) : State :=
  postRecord f.hdr.replyRing f.hdr.sessionId f.hdr.commandId false true (clearRecord f.hdr.sessionId .ok) true s.frontTime
    (okReply []) (cqRelease f.hdr.replyRing 1 s)

/-- The checks of a command's parameters at staging, R64: what depends on the state is judged at the commit, R66. -/
def stagingCheck (c : Command) (s : State) (f : Flight) : Option (Status × Nat) := c.staged s f

/-- Stage a command into its transaction, R62 to R64, R67, R70. -/
def stage (c : Command) (f : Flight) (s : State) : State :=
  match txnOf s f.hdr.sessionId f.hdr.txnId with
  | none => finish f (plainReply .txnUnknown) s
  | some t =>
    if t.state = .committing then finish f (plainReply .txnConflict 1) s
    else if !scopeWithin f.hdr.scope t.scope f.hdr.scopeDepth t.scopeDepth then finish f (plainReply .badParam 24) s
    else match stagingCheck c s f with
      | some (st, d) => finish f (plainReply st d) s
      | none =>
        if 256 ≤ stagedCommands t ∨ 1048576 < stagedBytes t + f.params.length then finish f (plainReply .txnLimit) s
        else
          let vs := (c.objects s f).map (fun o => (o, versionOf s.proto.versions o))
          let f1 := { f with reserved := f.reserved - 1, taken := s.frontTime }
          dropFlight f.serial (stagedRecord f
            (setTxn { t with parts := t.parts ++ [.command f1 vs], touched := s.frontTime } s))

/-- The entry member gathers: forward to other members and wait for their replies, R36. -/
def startGather (f : Flight) (others : List Nat) (own : List (Nat × Reply)) (extra : Nat → Bytes) (s : State) : State :=
  let s1 := { s with fabric := { s.fabric with gathers := s.fabric.gathers ++ [⟨f.serial, others, own⟩] } }
  others.foldl (fun t m =>
    sendMessage m 0x08 0 f.tenant f.hdr.commandId 0
      (cmdFwdBody 0 0 s.fabric.view.self f.hdr.txnId (headerBytes f.hdr ++ f.params ++ extra m)) t) (setFlight { f with running := true } s1)

/-- The key of a command run alone on several members, R75. -/
def commandKey (s : State) (f : Flight) : TxnKey := ⟨s.fabric.view.self, f.hdr.sessionId, aloneTxn f.hdr.commandId⟩

/-- The coordinator opens its record and sends PREPARE to the other participants, R72; its own vote, where it takes part and has decided it, stands in `own`
with the state its parts would leave. -/
def startCoord (key : TxnKey) (f : Flight) (parts : List Part) (locks : List Obj) (participants : List Nat) (own : Option (Reply × State))
    (prepare : Nat → Bytes) (s : State) : State :=
  let self := s.fabric.view.self
  let c : Coord := ⟨key, f.serial, parts, participants, [], s.frontTime, .preparing, [], 0, []⟩
  let takes := participants.contains self
  let s0 := { s with fabric := { s.fabric with coords := s.fabric.coords ++ [c] } }
  let s1 := if takes then
      addPrepared key parts locks ((own.map (·.1)).getD (okReply [])) f.hdr.commandId f.tenant ((own.map (·.2)).getD s0) s0
    else s0
  let s2 := (participants.filter (· != self)).foldl (fun t m =>
    sendMessage m 0x08 2 f.tenant f.hdr.commandId 0 (cmdFwdBody 2 0 self (keyTxnField key) (prepare m)) t)
    (setFlight { f with running := true } s1)
  match takes, own with
  | true, some r => castVote key f.tenant f.hdr.commandId r.1 s2
  | _, _ => s2

/-- A command runs on this module alone. -/
def runLocal (c : Command) (f : Flight) (s : State) : State :=
  match c.check s f with
  | some (st, d) => finish f (plainReply st d) s
  | none =>
    if (c.changes && lockedAny s (c.writes s f)) || c.waits s f then beginFlight f s
    else match c.run s f with
      | .reject st d => finish f (plainReply st d) s
      | .rejectIn s1 st d => finish f (plainReply st d) s1
      | .done s1 r =>
        if f.prep.isSome then finish f r s
        else finish f r (announceObject s1.frontTime f r [] (if c.changes then commitObjects (c.changed s f) s1 else s1))
      | .begun s1 => setFlight { f with running := true } s1
      | .wait => beginFlight f s
      | .waitIn s1 => beginFlight f s1

/-- A dry run: what a participant votes, R72, and the state its part would leave. -/
def dryRun (c : Command) (f : Flight) (s : State) : Reply × State :=
  match c.check s f with
  | some (st, d) => (plainReply st d, s)
  | none => match c.run s f with
    | .reject st d => (plainReply st d, s)
    | .rejectIn _ st d => (plainReply st d, s)
    | .done s1 r => (r, s1)
    | .begun s1 => (okReply [], s1)
    | .wait => (okReply [], s)
    | .waitIn s1 => (okReply [], s1)

/-- This module's own part of a front-wide command: a flight whose end is its vote, R72. -/
def workerOf (key : TxnKey) (f : Flight) (s : State) : Flight × State :=
  let w := { f with serial := s.proto.nextSerial, origin := .peer s.fabric.view.self f.serial, running := true, reserved := 0, prep := some key }
  (w, { s with proto := { s.proto with flights := s.proto.flights ++ [w], nextSerial := s.proto.nextSerial + 1 } })

/-- A part of a front-wide command that runs on cells begins here; it votes when it reaches its commit point or fails. -/
def startWorker (c : Command) (key : TxnKey) (f : Flight) (s : State) : State :=
  let (w, s1) := workerOf key f s
  match c.check s1 w with
  | some (st, d) => finish w (plainReply st d) s1
  | none => match c.run s1 w with
    | .reject st d => finish w (plainReply st d) s1
    | .rejectIn s2 st d => finish w (plainReply st d) s2
    | .done _ r => finish w r s1
    | .begun s2 => s2
    | .wait => setFlight { w with running := false, begun := true } s1
    | .waitIn s2 => setFlight { w with running := false, begun := true } s2

/-- A command that begins and reaches its commit point at a later event of its own. -/
def beginsWork (c : Command) (f : Flight) (s : State) : Bool :=
  match c.check s f with
  | some _ => false
  | none => match c.run s f with
    | .begun _ => true
    | _ => false

/-- The commands whose scope must name exactly one module: their checks, which say so, are made at the entry member. -/
def namesOne (f : Flight) : Bool :=
  ([.breakSet, .breakClear, .halt, .resume, .step, .stateRead, .trackRead, .gaugeSet, .faultLogRead, .sensorsRead, .linkStatus, .memberReset,
    .pipelineDefine, .accountRead, .attestReport, .configGet] : List Opcode).any (fun o => decide (o = f.op))
  || (decide (f.op = .countersRead) && decide (5 ≤ par f 0 1))

/-- This module's own part of a front-wide command cannot be judged yet: what it touches is locked, or it waits, R72; and what it has set going. -/
def ownWaits (c : Command) (f : Flight) (s : State) : Option State :=
  if c.changes && lockedAny s (c.writes s f) then some s
  else match c.check s f with
    | some _ => none
    | none => match c.run s f with
      | .wait => some s
      | .waitIn s1 => some s1
      | _ => none

/-- Commands about tables and indexes: what they change is shared state wherever it lies, R253, R298. -/
def aboutShards (f : Flight) : Bool := f.hdr.opcode / 256 == 5 || f.hdr.opcode / 256 == 6

/-- A command whose scope names more than this module, R36 to R39, R72, R449, R450; its length is checked first, R602. -/
def runFront (c : Command) (f0 : Flight) (mods : List Nat) (s0 : State) : State :=
  let f := if namesObject f0.op then { f0 with content := some (c.carried s0 f0 s0.fabric.view.self) } else f0
  let s := if namesObject f0.op then (drawFree s0).2 else s0
  let self := s.fabric.view.self
  if let some (st, d) := (if (namesOne f0 && mods.length != 1) || lengthFault (c.check s0 f0) then c.check s0 f0 else none) then
    finish f0 (plainReply st d) s0
  else if s.fabric.view.rights = .stale then finish f0 (plainReply .epochStale) s0
  else if s.fabric.view.rights = .readonly ∧ c.changes ∧ (mods.length ≠ 1 ∨ aboutShards f0 = true) then finish f0 (plainReply .partitionedReadonly) s0
  else match mods.find? (fun m => !reaches s m), c.entry s0 f0 with
    | some m, _ => finish f0 (plainReply .memberUnreachable m) s0
    | none, some (st, d) => finish f0 (plainReply st d) s0
    | none, none =>
      if mods.length = 1 then startGather f mods [] (c.carried s0 f0) s
      else if c.changes then
        let key := commandKey s f
        let objs := c.touches s f
        let g := { f with content := some (c.carried s0 f0 self) }
        let part := [Part.command g ((c.objects s f).map (fun o => (o, versionOf s.proto.versions o)))]
        let prepare := fun m => headerBytes f.hdr ++ f.params ++ c.carried s0 f0 m
        if let some w := (if mods.contains self then ownWaits c g s else none) then beginFlight f0 w
        else if beginsWork c f s then
          let s1 := startCoord key f part objs mods none prepare s
          if mods.contains self then startWorker c key f s1 else s1
        else
          let own := dryRun c g s
          startCoord key f part objs mods (some own) prepare
            (if goodStatus own.1.status && mods.contains self then c.prepare s g else s)
      else if mods.contains self then startGather f (mods.filter (· != self)) [(self, (dryRun c f s).1)] (c.carried s0 f0) s
      else startGather f mods [] (c.carried s0 f0) s

/-- A command in flight may run: every earlier command of its ring has begun, no fence holds it back, and no later event of its own is awaited, R57. -/
def mayRun (s : State) (f : Flight) : Bool :=
  !f.running && !f.waiting && !(s.proto.flights.any (fun g => decide (g.serial < f.serial) && decide (g.origin = f.origin) && !g.running && !g.begun))

/-- The meaning of a command row: the command in flight it names, of its opcode, runs; where none is, nothing happens (log entry 2). -/
def runCommand (c : Command) (h : Nat) (s : State) : State :=
  match flightOf s h with
  | none => s
  | some f =>
    if f.op = c.op ∧ mayRun s f = true then
      if f.hdr.inTxn then stage c f s
      else
        let mods := scopeModules s f.hdr
        match f.origin with
        | .peer _ _ => runLocal c f s
        | .host _ => if mods = [s.fabric.view.self] then runLocal c f s else runFront c f mods s
    else s

/-- A command that changes or reads an object held by some modules: its entry member checks it and runs it on those. -/
def runAt (c : Command) (mods : State → Flight → List Nat) (h : Nat) (s : State) : State :=
  match flightOf s h with
  | none => s
  | some f =>
    if f.op = c.op ∧ mayRun s f = true then
      if f.hdr.inTxn then stage c f s
      else if fromPeer f then runLocal c f s
      else match c.check s f with
        | some (st, d) => finish f (plainReply st d) s
        | none =>
          let ms := mods s f
          if ms = [s.fabric.view.self] then runLocal c f s else runFront c f ms s
    else s

/-- A command row on the modules that hold its object, as an outcome. -/
def execAt (c : Command) (mods : State → Flight → List Nat) (h : Nat) (s : State) : Result := .next (settle s (runAt c mods h s))

/-- A command row as an outcome: its state change with the events of `MOD_STATUS` it caused, R513. -/
def execCommand (c : Command) (h : Nat) (s : State) : Result := .next (settle s (runCommand c h s))

/-- A command that its entry member executes alone, whatever else its scope names. -/
def runEntry (c : Command) (h : Nat) (s : State) : State :=
  match flightOf s h with
  | none => s
  | some f => if f.op = c.op ∧ mayRun s f = true then (if f.hdr.inTxn then stage c f s else runLocal c f s) else s

/-- A command row of the entry member alone as an outcome. -/
def execEntry (c : Command) (h : Nat) (s : State) : Result := .next (settle s (runEntry c h s))

/-- An outcome of an event: its state change with the events of `MOD_STATUS` it caused, R513. -/
def nextOf (old s : State) : Result := .next (settle old s)

end Sys2Proof.Machine
end

