-- ==== Sys2Proof/Machine/VectorOps.lean ====
section
/-! DEFINITION. The vector unit, R156 to R162: its registers, the lane operations of R158, the reductions of R159, the convert instruction of R95 to R98, and what a custom-1 instruction is. -/

namespace Sys2Proof.Machine

open Sys2Proof

/-- The 32-bit word of a lane of a vector register. -/
def vget (c : Cell) (v l : Nat) : Nat := kgetD c.vregs (v * 128 + l) 0

/-- The 128 lanes of a vector register. -/
def vlanes (c : Cell) (v : Nat) : List Nat := (List.range 128).map (vget c v)

/-- Write the 128 lanes of a vector register. -/
def vsetLanes (c : Cell) (v : Nat) (l : List Nat) : Cell :=
  let mid := ((l.take 128).zipIdx.map (fun p => (v * 128 + p.2, p.1))).filter (fun p => p.2 != 0)
  { c with vregs := c.vregs.filter (fun p => decide (p.1 < v * 128)) ++ mid ++ c.vregs.filter (fun p => decide (v * 128 + 128 ≤ p.1)) }

/-- The 512 bytes of a vector register. -/
def vbytes (c : Cell) (v : Nat) : Bytes := (vlanes c v).flatMap (toLe 4)

/-- Lanes from bytes; bytes beyond the end are zero. -/
def lanesOf (b : Bytes) : List Nat := (List.range 128).map (fun l => fld b (4 * l) 4)

/-- The generator of a lane, seeded as by VSEED 0 until a VSEED, R161. -/
def laneState (c : Cell) (l : Nat) : W32 := kgetD c.lanes l (laneSeed 0 l)

/-- One draw of a lane: the cell after it and the 12 bits, R90. -/
def laneDraw (c : Cell) (l : Nat) : Cell × Nat :=
  let x := xorshift (laneState c l)
  ({ c with lanes := kset c.lanes l x }, drawOf x)

/-- One draw of each lane of a list, in order. -/
def laneDraws (c : Cell) : List Nat → Cell × List Nat
  | [] => (c, [])
  | l :: ls =>
    let (c1, d) := laneDraw c l
    let (c2, ds) := laneDraws c1 ls
    (c2, d :: ds)

/-- 1 / √a, exact up to a sticky last bit. -/
def numRsq : Num → Num
  | .nan => .nan
  | .inf a => if a then .nan else .fin false 0 0
  | .fin a m e =>
    if m = 0 then .inf a
    else if a then .nan
    else
      let odd := b2n (decide (e % 2 ≠ 0))
      let m1 := m * 2 ^ odd
      let r := isqrt (2 ^ 280 / m1)
      .fin false (2 * r + b2n (r * r * m1 != 2 ^ 280)) (-((e - odd) / 2) - 141)

/-- The larger of two FP32 codes by the VMAX rule, R158. -/
def f32Max (a b : Nat) : Nat :=
  let x := fp32In a
  let y := fp32In b
  if numIsNan x || numIsNan y then f32Nan
  else if numLt x y then encodeNum 0 y
  else if numLt y x then encodeNum 0 x
  else if a / f32SignBit % 2 = 1 then encodeNum 0 y else encodeNum 0 x

/-- The smaller of two FP32 codes by the VMIN rule, R158. -/
def f32Min (a b : Nat) : Nat :=
  let x := fp32In a
  let y := fp32In b
  if numIsNan x || numIsNan y then f32Nan
  else if numLt x y then encodeNum 0 x
  else if numLt y x then encodeNum 0 y
  else if a / f32SignBit % 2 = 1 then encodeNum 0 x else encodeNum 0 y

/-- The comparison of VCMPLT, on unflushed values, R158. -/
def f32Lt (a b : Nat) : Bool := numLt (decodeNum 0 a) (decodeNum 0 b)

/-- FP32 functions of one operand with one rounding, R158. -/
def f32Rsq (a : Nat) : Nat × NumCounts := fp32Out (numRsq (fp32In a))
def f32Rcp (a : Nat) : Nat × NumCounts := f32Div f32One a
def f32Exp2 (a : Nat) : Nat × NumCounts := fp32Out (numExp2 (fp32In a))
def f32Log2 (a : Nat) : Nat × NumCounts := fp32Out (numLog2Of (fp32In a))

/-- Which operations of R158 are unary, binary arithmetic, or bitwise and selecting. -/
def unaryOp (f7 : Nat) : Bool := decide (0x08 ≤ f7) && decide (f7 ≤ 0x0C)
def arithOp (f7 : Nat) : Bool := decide (f7 ≤ 0x06) || unaryOp f7
def rawOp (f7 : Nat) : Bool := decide (0x10 ≤ f7) && decide (f7 ≤ 0x14)

/-- One lane of a VARITH or VSCAL operation: a, b and the old destination, R158. -/
def laneOp (f7 a b d : Nat) : Nat × NumCounts :=
  match f7 with
  | 0x00 => f32Add a b
  | 0x01 => f32Sub a b
  | 0x02 => f32Mul a b
  | 0x03 => f32Fma a b d
  | 0x04 => (f32Max a b, NumCounts.zero)
  | 0x05 => (f32Min a b, NumCounts.zero)
  | 0x06 => f32Div a b
  | 0x08 => f32Sqrt a
  | 0x09 => f32Rsq a
  | 0x0A => f32Rcp a
  | 0x0B => f32Exp2 a
  | 0x0C => f32Log2 a
  | 0x10 => (a &&& b, NumCounts.zero)
  | 0x11 => (a ||| b, NumCounts.zero)
  | 0x12 => (a ^^^ b, NumCounts.zero)
  | 0x13 => (if f32Lt a b then 0xFFFFFFFF else 0, NumCounts.zero)
  | _ => (if d ≠ 0 then a else b, NumCounts.zero)

/-- A NaN met or made: OPERAND of R109, format, lane, bits, bits of the other operand. -/
structure NanHit where
  operand : Nat
  fmt : Nat
  lane : Nat
  bits : Nat
  other : Nat

/-- The NaNs of one lane of an arithmetic operation, R162. -/
def laneNans (f7 lane a b d r : Nat) : List NanHit :=
  if !arithOp f7 then []
  else
    let ins := (if f32IsNan a then [⟨0, 0, lane, a, if unaryOp f7 then 0 else b⟩] else [])
      ++ (if !unaryOp f7 && f32IsNan b then [⟨1, 0, lane, b, a⟩] else [])
      ++ (if f7 == 3 && f32IsNan d then [⟨2, 0, lane, d, 0⟩] else [])
    if ins.isEmpty && f32IsNan r then [⟨5, 0, lane, r, 0⟩] else ins

/-- A pairwise tree over a list whose length is a power of two, `fuel` levels, R159. -/
def pairTree (op : Nat → Nat → Nat × NumCounts) : Nat → List Nat → Nat × NumCounts
  | 0, l => (l.headD 0, NumCounts.zero)
  | fuel + 1, l =>
    let r := pairs op l
    let t := pairTree op fuel (r.map (·.1))
    (t.1, (r.map (·.2)).foldl NumCounts.add t.2)
where
  pairs (op : Nat → Nat → Nat × NumCounts) : List Nat → List (Nat × NumCounts)
    | a :: b :: l => op a b :: pairs op l
    | _ => []

/-- The seven-level tree of 128 lanes, R159. -/
def reduceLanes (op : Nat → Nat → Nat × NumCounts) (l : List Nat) : Nat × NumCounts := pairTree op 7 l

/-- VMAX as an operation of the tree. -/
def maxCounted (a b : Nat) : Nat × NumCounts := (f32Max a b, NumCounts.zero)

/-- Scheme of `vcvtcfg`, R97. -/
def vcvtScheme (cfg : Nat) : Scheme := if cfg % 4 = 1 then .mx else if cfg % 4 = 2 then .twoLevel else .none

/-- A VCVT encoding that R98 makes illegal. -/
def vcvtIllegal (w cfg : Nat) : Bool :=
  let vd := bits w 11 7
  let vs := bits w 19 15
  let sf := bits w 23 20
  let df := bits w 27 24
  let bs := bitOf w 31
  decide (12 < sf) || decide (12 < df) || bits w 29 28 == 3
    || (bs && (cfg % 4 == 0 || cfg % 4 == 3))
    || (bs && (vd % 2 == 1 || vs % 2 == 1 || vd == 31 || vs == 31))
    || (bs && sf != 0 && df != 0) || (bs && sf == 0 && df == 0)
    || (bs && sf == 0 && !scalable df) || (bs && df == 0 && !scalable sf)

/-- What a vector instruction does to its cell. -/
structure VecOut where
  cell : Cell
  counts : NumCounts
  nans : List NanHit

/-- The header of block `j` among packed headers. -/
def headerAt (sch : Scheme) (b : Bytes) (j : Nat) : Nat := fld b (j * schemeBytes sch) (schemeBytes sch)

/-- VCVT, R95, R96. -/
def vcvtExec (c : Cell) (w cfg : Nat) : VecOut :=
  let vd := bits w 11 7
  let vs := bits w 19 15
  let sf := bits w 23 20
  let df := bits w 27 24
  let mode := roundModeOf (bits w 29 28)
  let sat := bitOf w 30
  let bs := bitOf w 31
  let sch := if bs then vcvtScheme cfg else .none
  let src := unpack (fmtBits sf) 128 (vbytes c vs)
  let (c1, draws) := if mode = .sr then laneDraws c (List.range 128) else (c, List.replicate 128 0)
  let tern : NumCounts := ⟨0, 0, 0, 0, if sf = 10 then (src.filter (· == 2)).length else 0⟩
  let heads := vbytes c (vs + 1)
  let xs := (src.zipIdx).map (fun p =>
    let x := if bs && df == 0 then scaledNum sch sf (headerAt sch heads (p.2 / 32)) p.2 p.1 else decodeNum sf p.1
    if sf = 0 then flushIn x else x)
  let srcNans := ((src.zip xs).zipIdx).filterMap (fun p =>
    if numIsNan p.1.2 then
      some (⟨if fmtHasNan sf && numIsNan (decodeNum sf p.1.1) then 0 else 4, sf, p.2, p.1.1, 0⟩ : NanHit)
    else none)
  if !bs && sf == df then ⟨vsetLanes c1 vd (vlanes c vs), tern, srcNans⟩
  else if bs && sf == 0 then
    let qs := (List.range 4).map (fun j =>
      quantiseBlock df sch mode sat ((draws.drop (32 * j)).take 32) ((xs.drop (32 * j)).take 32))
    let codes := (qs.map (·.codes)).flatten
    let hdr := (qs.map (blockHeader sch)).flatten
    let c2 := vsetLanes c1 vd (lanesOf (packElems (fmtBits df) codes))
    ⟨vsetLanes c2 (vd + 1) (lanesOf hdr), (qs.map (·.counts)).foldl NumCounts.add tern, srcNans⟩
  else
    let rs := (xs.zip draws).map (fun p => roundTo df mode sat false p.2 p.1)
    let codes := rs.map (fun r => encodeNum df r.1)
    ⟨vsetLanes c1 vd (lanesOf (packElems (fmtBits df) codes)), (rs.map (·.2)).foldl NumCounts.add tern, srcNans⟩

/-- A VARITH or VSCAL instruction on a cell, R158: `b` gives the second operand of a lane. -/
def arithExec (c : Cell) (f7 vd vs1 : Nat) (b : Nat → Nat) : VecOut :=
  let rs := (List.range 128).map (fun l => (l, vget c vs1 l, b l, vget c vd l, laneOp f7 (vget c vs1 l) (b l) (vget c vd l)))
  ⟨vsetLanes c vd (rs.map (fun r => r.2.2.2.2.1)),
   (rs.map (fun r => r.2.2.2.2.2)).foldl NumCounts.add NumCounts.zero,
   (rs.map (fun r => laneNans f7 r.1 r.2.1 r.2.2.1 r.2.2.2.1 r.2.2.2.2.1)).flatten⟩

/-- Groups of custom-1, R157. -/
def vecGroup (w : Nat) : Nat := bits w 14 12

/-- Whether a custom-1 word is an instruction that enters the vector queue, and legal: none where it is another group's or illegal. -/
def vectorLegal (w cfg : Nat) : Bool :=
  let f7 := bits w 31 25
  match vecGroup w with
  | 0 => arithOp f7 && (!unaryOp f7 || bits w 24 20 == 0) || rawOp f7
  | 1 => decide (f7 ≤ 6) || rawOp f7
  | 2 => bits w 24 20 == 0 && f7 / 8 == 0
  | 3 => decide (f7 ≤ 3)
  | 5 => f7 == 3 && bits w 11 7 == 0 && bits w 24 20 == 0
  | 6 => !vcvtIllegal w cfg
  | _ => false

/-- A custom-1 word of the DMA and SYNC groups that has a row of its own: DSUB, DWAIT, DPOLL, BAR, WOPEN, WCLOSE, VFENCE. -/
def coreCustom (w : Nat) : Bool :=
  let f7 := bits w 31 25
  (vecGroup w == 4 && decide (f7 ≤ 2) && bits w 24 20 == 0)
    || (vecGroup w == 5 && bits w 11 7 == 0 && (f7 == 1 || (bits w 24 20 == 0 && (f7 == 0 || f7 == 2 || f7 == 4))))

/-- Bytes of SIZE in a VMEM instruction, R159. -/
def vmemBytes (w : Nat) : Nat := 512 / 2 ^ bits w 27 26

end Sys2Proof.Machine
end

