-- ==== Sys2Proof/Machine/ArrayOps.lean ====
section
/-! DEFINITION. The squall array: legality and faults of its instructions (R120 to R125), operand streams (R123), outlier sections (R103, R104), MMA, MLD, MDR and MRS (R126 to R134), cycle counts (R133 to R137). -/

namespace Sys2Proof.Machine

open Sys2Proof

/-- K rate of a format pair in half elements a cycle, R113; 0 where the pair is not admitted, R114. -/
def kRate2 (a b : Nat) : Nat :=
  let ca := fmtClass a
  let cb := fmtClass b
  if ca = 0 ∨ cb = 0 ∨ ca = 5 then 0
  else if ca = 1 ∨ cb = 1 then 1
  else if ca = 2 then (if cb = 5 then 8 else 2)
  else if cb = 2 then 2
  else if ca = 3 then 4
  else if cb = 5 then 8 else 4
where
  /-- 1: 16-bit; 2: 8-bit; 3: 6-bit; 4: 4-bit; 5: 2-bit; 0: not admitted -/
  fmtClass (f : Nat) : Nat :=
    if f = 1 ∨ f = 2 then 1 else if f = 3 ∨ f = 4 ∨ f = 8 then 2 else if f = 5 ∨ f = 6 then 3
    else if f = 7 ∨ f = 9 then 4 else if f = 10 ∨ f = 11 then 5 else 0

/-- A format pair and its schemes are admitted, R113, R114. -/
def pairAdmitted (a b absC bbs : Nat) : Bool :=
  kRate2 a b != 0 && (absC == 0 || scalable a) && (bbs == 0 || scalable b)

/-- Drain formats, R121. -/
def drainFmt (n : Nat) : Nat := if n = 5 then 8 else n

/-- What an array instruction reads from the CSRs it took. -/
structure ArrayCfg where
  afmt : Nat
  bfmt : Nat
  absC : Nat
  bbs : Nat
  dsat : Bool
  groups : Nat
  mv : Nat
  nv : Nat
  ascl : Nat
  bscl : Nat
  out : Nat

/-- The six CSRs decoded, R122. MV and NV of 129 to 255, of which the spec says nothing, are used as they stand (log entry 66). -/
def arrayCfg (l : List W32) : ArrayCfg :=
  let v := fun i => (l.getD i 0).toNat
  let or128 := fun n => if n = 0 then 128 else n
  { afmt := bits (v 0) 3 0, bfmt := bits (v 0) 7 4, absC := bits (v 0) 9 8, bbs := bits (v 0) 11 10, dsat := bitOf (v 0) 12
    groups := bits (v 1) 16 0, mv := or128 (bits (v 2) 7 0), nv := or128 (bits (v 2) 15 8)
    ascl := bits (v 3) 23 0, bscl := bits (v 4) 23 0, out := bits (v 5) 23 0 }

/-- FUNCT3 of an array word: 0 MMA, 1 MLD, 2 MDR, 3 MRS, 4 MFENCE. -/
def arrayOp (w : Nat) : Nat := bits w 14 12

/-- Whether the tile that an array instruction issued now will meet is a skinny one: the newest MLD of the queue starts it, else it is the present tile, R121, R126. -/
def issueSkinny (x : Cell) : Bool :=
  match (x.arrayQ.filter (fun e => arrayOp e.insn.toNat == 1)).getLast? with
  | some e => bitOf e.insn.toNat 25
  | none => x.skinny

/-- A fault at issue: its CAUSE and status, R125, R179: encodings are CAUSE 0, the rest CAUSE 3 (log entry 9). The faults of GROUPS, ABS, BBS and of the operand formats
are those of MMA, which alone reads them, and an MFENCE whose rs1 is not x0 is refused as one whose rs2 is not (log entry 66). -/
def arrayIssueFault (w : Nat) (g : ArrayCfg) (skinny : Bool) : Option (Nat × Status) :=
  let f7 := bits w 31 25
  let rs2 := bits w 24 20
  let op := arrayOp w
  let rsvF7 : Bool := match op with
    | 0 => decide (1 < f7)
    | 1 => decide (3 < f7)
    | 2 => bits f7 6 5 == 3
    | _ => f7 != 0
  let needX0 : Bool := op == 3 || op == 4 || (op == 1 && bitOf f7 1)
  if decide (4 < op) || bits w 11 7 != 0 || rsvF7 || (needX0 && rs2 != 0) || (op == 4 && bits w 19 15 != 0) then some (0, .badParam)
  else if op = 2 ∧ 5 < bits f7 4 2 then some (0, .badFormat)
  else if op = 0 then
    if g.groups = 0 ∨ 65536 < g.groups ∨ g.absC = 3 ∨ g.bbs = 3 ∨ (skinny = true ∧ 16 < g.mv) then some (3, .badParam)
    else if !pairAdmitted g.afmt g.bfmt g.absC g.bbs then some (3, .badFormat)
    else none
  else none

/-- An accumulator, R112; the key is row × 128 + column (row 16 s + r in skinny mode). -/
def accGet (c : Cell) (m n : Nat) : Nat := kgetD c.acc (m * 128 + n) 0

/-- Accumulators from a list of keys and codes; +0 is not listed. -/
def accSet (c : Cell) (l : List (Nat × Nat)) : Cell :=
  { c with acc := l.foldl (fun m p => if p.2 = 0 then kdel m p.1 else kset m p.1 p.2) c.acc }

/-- A fault at execution: status, the offset that failed. -/
abbrev ArrayFault := Status × Nat

/-- An outlier section read from scratchpad, R103: K index, scale code, data codes by column; its format. -/
structure Outliers where
  fmt : Nat
  rows : List (Nat × Nat × List Nat)

/-- No outlier channel. -/
def Outliers.none : Outliers := ⟨3, []⟩

/-- Read and check an outlier section, R103; reserved bits and the padding of OUT_SCALE are zero, R15. -/
def readOutliers (read : Nat → Nat → Bytes) (at' cols kLimit : Nat) : Except Status Outliers :=
  let h := read at' 8
  let n := fld h 0 2
  let fm := fld h 2 1 % 16
  let pad := ceilDiv n 8 * 8 - n
  if 256 < n then .error .outOfRange
  else if fm ≠ 3 ∧ fm ≠ 4 then .error .badFormat
  else if 16 ≤ fld h 2 1 ∨ fld h 3 1 ≠ 0 ∨ zeroAt (read (at' + 8 + 4 * n + n) pad) 0 pad = false then .error .badParam
  else if fld h 4 4 ≠ cols then .error .badLength
  else
    let ks := (List.range n).map (fun i => leNat (read (at' + 8 + 4 * i) 4))
    if !(rising ks && ks.all (fun k => decide (k < kLimit))) then .error .badParam
    else
      let sc := at' + 8 + 4 * n
      let da := sc + ceilDiv n 8 * 8
      .ok ⟨fm, (ks.zipIdx).map (fun p =>
        (p.1, leNat (read (sc + p.2) 1), unpack 8 cols (read (da + p.2 * cols) cols)))⟩
where
  rising : List Nat → Bool
    | a :: b :: l => decide (a < b) && rising (b :: l)
    | _ => true

/-- An element of a stream: its code, its exact value with its scale, its format. -/
structure StreamElem where
  code : Nat
  val : Num
  fmt : Nat

/-- The 32 elements of row `m` of group `g` in a stream of `rows` rows, with its block header, R123. -/
def streamRow (read : Nat → Nat → Bytes) (base scl f rows g m : Nat) (sch : Scheme) : List StreamElem :=
  let w := fmtBits f
  let h := schemeBytes sch
  let hdr := leNat (read (scl + (g * rows + m) * h) h)
  ((unpack w 32 (read (base + (g * rows + m) * 4 * w) (4 * w))).zipIdx).map (fun p => ⟨p.1, scaledNum sch f hdr p.2 p.1, f⟩)

/-- Column `n` of group `g` of B with the outlier channels in place, R104. -/
def columnOf (o : Outliers) (g n : Nat) (col : List StreamElem) : List StreamElem :=
  (col.zipIdx).map (fun p =>
    match o.rows.find? (fun r => r.1 == 32 * g + p.2) with
    | some r => ⟨nth r.2.2 n, scaledNum .mx o.fmt r.2.1 0 (nth r.2.2 n), o.fmt⟩
    | none => p.1)

/-- Dot product of a row and a column: the exact group sum S_g, R99, R100. -/
def dotGroup (a b : List StreamElem) : Num := groupSum ((a.zip b).map (fun p => numMul p.1.val p.2.val))

/-- What the array met or did in one instruction. -/
structure ArrayOut where
  cell : Cell
  counts : NumCounts
  /-- SITE, OPERAND, format, row, column, K-group, bits, other: every NaN of the first cycle in which one was met -/
  nans : List (Nat × Nat × Nat × Nat × Nat × Nat × Nat × Nat)
  fault : Option ArrayFault
  /-- bytes drained: offset and content -/
  stores : List WriteRun

/-- Nothing happened. -/
def ArrayOut.idle (c : Cell) : ArrayOut := ⟨c, NumCounts.zero, [], none, []⟩

/-- A fault at execution. -/
def ArrayOut.failed (c : Cell) (st : Status) (a : Nat) : ArrayOut := ⟨c, NumCounts.zero, [], some (st, a), []⟩

/-- NaNs among the elements of one operand of a group: those of the earliest slice. Where the NaN is a block's scale, which has no format code, the record carries the element's own format and code (log entry 67). -/
def streamNans (operand m : Nat) (row : Bool) (g p2 : Nat) (l : List StreamElem) : List (Nat × (Nat × Nat × Nat × Nat × Nat × Nat × Nat × Nat)) :=
  (l.zipIdx).filterMap (fun p =>
    if numIsNan p.1.val then
      let own := fmtHasNan p.1.fmt && numIsNan (decodeNum p.1.fmt p.1.code)
      some (p.2 * 2 / p2, (0, if own then operand else 4, p.1.fmt, if row then m else 0, if row then 0 else m, g, p.1.code, 0))
    else none)

/-- The NaNs of the lowest cycle. -/
def earliest (l : List (Nat × (Nat × Nat × Nat × Nat × Nat × Nat × Nat × Nat))) : List (Nat × Nat × Nat × Nat × Nat × Nat × Nat × Nat) :=
  match listMin? (l.map (·.1)) with
  | none => []
  | some t => (l.filter (fun p => p.1 == t)).map (·.2)

/-- TERN code 10 read in a stream, R81. -/
def ternReads (l : List StreamElem) : Nat := (l.filter (fun e => e.fmt == 10 && e.code == 2)).length

/-- One K-group streamed into the tile, R99, R127, R133: the sub-array of a skinny tile is the group's index modulo 8. -/
def streamGroup (read : Nat → Nat → Bytes) (g : ArrayCfg) (o : Outliers) (aBase bBase : Nat) (i : Nat) (out : ArrayOut) : ArrayOut :=
  let c := out.cell
  let gi := c.group + i
  let base := if c.skinny then gi % 8 * 16 else 0
  let rows := if c.skinny then 16 else 128
  let as := (List.range g.mv).map (fun m => streamRow read aBase g.ascl g.afmt g.mv i m (schemeOf g.absC))
  let bs := (List.range g.nv).map (fun n => columnOf o i n (streamRow read bBase g.bscl g.bfmt g.nv i n (schemeOf g.bbs)))
  let p2 := kRate2 g.afmt g.bfmt
  let loads := earliest (((as.zipIdx).map (fun p => streamNans 0 p.2 true gi p2 p.1)).flatten
    ++ ((bs.zipIdx).map (fun p => streamNans 1 p.2 false gi p2 p.1)).flatten)
  let sums := ((as.zipIdx).map (fun a => (bs.zipIdx).map (fun b => (a.2, b.2, dotGroup a.1 b.1)))).flatten
  let sumNans := if loads.isEmpty then (sums.filter (fun x => numIsNan x.2.2)).map (fun x => (1, 5, 0, x.1, x.2.1, gi, f32Nan, 0)) else []
  let ups := sums.map (fun x => (x.1, x.2.1, accumulate (accGet c (base + x.1) x.2.1) x.2.2))
  let accNans := if loads.isEmpty ∧ sumNans.isEmpty then
      (ups.filter (fun x => f32IsNan x.2.2.1)).map (fun x => (2, 5, 0, x.1, x.2.1, gi, f32Nan, accGet c (base + x.1) x.2.1))
    else []
  let rest := c.acc.filterMap (fun p =>
    let r := p.1 / 128
    let n := p.1 % 128
    if base ≤ r ∧ r < base + rows ∧ (g.mv ≤ r - base ∨ g.nv ≤ n) then some (p.1, (accumulate p.2 (.fin false 0 0)).1) else none)
  let tern := listSum (as.map (ternReads)) + listSum (bs.map (ternReads))
  let cnt := (ups.map (fun x => x.2.2.2)).foldl NumCounts.add (NumCounts.add out.counts ⟨0, 0, 0, 0, tern⟩)
  { out with
    cell := accSet (accSet c rest) (ups.map (fun x => ((base + x.1) * 128 + x.2.1, x.2.2.1)))
    counts := cnt
    nans := if out.nans.isEmpty then (if !loads.isEmpty then loads else if !sumNans.isEmpty then sumNans else accNans) else out.nans }

/-- Offsets of MMA that must be multiples of 64 and within the scratchpad, R125. -/
def mmaExtents (g : ArrayCfg) (aBase bBase : Nat) : List (Nat × Nat) :=
  [(aBase, g.groups * g.mv * 4 * fmtBits g.afmt), (bBase, g.groups * g.nv * 4 * fmtBits g.bfmt)]
    ++ (if g.absC = 0 then [] else [(g.ascl, g.groups * g.mv * schemeBytes (schemeOf g.absC))])
    ++ (if g.bbs = 0 then [] else [(g.bscl, g.groups * g.nv * schemeBytes (schemeOf g.bbs))])

/-- The first extent that reaches beyond the scratchpad or is not aligned, R125. -/
def badExtent (l : List (Nat × Nat)) : Option Nat :=
  (l.find? (fun e => !inScratch e.1 e.2 || e.1 % 64 != 0)).map (·.1)

/-- Streaming of groups `i` to `i + fuel − 1`; it stops at the first NaN when NaNs are trapped. -/
def streamGroups (read : Nat → Nat → Bytes) (g : ArrayCfg) (o : Outliers) (trap : Bool) (aBase bBase : Nat) : Nat → Nat → ArrayOut → ArrayOut
  | 0, _, out => out
  | fuel + 1, i, out =>
    let r := streamGroup read g o aBase bBase i out
    if trap && !r.nans.isEmpty then r else streamGroups read g o trap aBase bBase fuel (i + 1) r

/-- MMA, R127. -/
def mmaExec (read : Nat → Nat → Bytes) (trap : Bool) (c : Cell) (e : ArrayEntry) : ArrayOut :=
  let g := arrayCfg e.csrs
  let outl := bitOf e.insn.toNat 25
  if c.skinny ∧ 16 < g.mv then ArrayOut.failed c .badParam 0
  else match badExtent (mmaExtents g e.rs1 e.rs2) with
    | some a => ArrayOut.failed c .outOfRange a
    | none =>
      if outl && (g.out % 8 != 0 || !inScratch g.out 8 || !inScratch g.out (outlierLen (min 256 (leNat (read g.out 2))) 128)) then
        ArrayOut.failed c .outOfRange g.out
      else match (if outl then readOutliers read g.out 128 (32 * g.groups) else .ok Outliers.none) with
        | .error st => ArrayOut.failed c st g.out
        | .ok o =>
          let r := streamGroups read g o trap e.rs1 e.rs2 g.groups 0 (ArrayOut.idle c)
          { r with cell := { r.cell with group := c.group + g.groups, tail := true } }

/-- MLD, R126: a new tile. Of several faults of R125 the stride's BAD_PARAM is taken first (log entry 66). -/
def mldExec (read : Nat → Nat → Bytes) (c : Cell) (e : ArrayEntry) : ArrayOut :=
  let g := arrayCfg e.csrs
  let skinny := bitOf e.insn.toNat 25
  let zero := bitOf e.insn.toNat 26
  let c0 := { c with acc := [], skinny := skinny, group := 0, tail := false }
  if zero then ArrayOut.idle c0
  else
    let rows := if skinny then min 16 g.mv else g.mv
    if 1 < rows ∧ e.rs2 < 4 * g.nv then ArrayOut.failed c .badParam e.rs1
    else if e.rs1 % 64 ≠ 0 ∨ e.rs2 % 64 ≠ 0 ∨ !inScratch e.rs1 ((rows - 1) * e.rs2 + 4 * g.nv) then ArrayOut.failed c .outOfRange e.rs1
    else
      let vals := ((List.range rows).map (fun m =>
        ((unpack 32 g.nv (read (e.rs1 + m * e.rs2) (4 * g.nv))).zipIdx).map (fun p => (m, p.2, p.1)))).flatten
      let nans := (vals.filter (fun v => f32IsNan v.2.2)).map (fun v => (0, 2, 0, v.1, v.2.1, 0xFFFFFFFF, v.2.2, 0))
      ⟨accSet c0 (vals.map (fun v => (v.1 * 128 + v.2.1, encodeNum 0 (fp32In v.2.2)))), NumCounts.zero, nans, none, []⟩

/-- The combined value of a skinny element and what its additions count, R101, R134. -/
def skinnyCombine (c : Cell) (m n : Nat) : Nat × NumCounts := pairTree f32Add 3 ((List.range 8).map (fun s => accGet c (16 * s + m) n))

/-- MDR, R128, R129, R134; its faults in MLD's order. -/
def mdrExec (c : Cell) (e : ArrayEntry) : ArrayOut :=
  let g := arrayCfg e.csrs
  let f7 := bits e.insn.toNat 31 25
  let axis := bitOf f7 0
  let clr := bitOf f7 1
  let f := drainFmt (bits f7 4 2)
  let mode := roundModeOf (bits f7 6 5)
  let rows := if c.skinny then min 16 g.mv else g.mv
  let dstRows := if axis then g.nv else rows
  let dstElems := if axis then rows else g.nv
  let rowLen := ceilDiv (dstElems * fmtBits f) 8
  if 1 < dstRows ∧ e.rs2 < rowLen then ArrayOut.failed c .badParam e.rs1
  else if e.rs1 % 64 ≠ 0 ∨ e.rs2 % 64 ≠ 0 ∨ !inScratch e.rs1 ((dstRows - 1) * e.rs2 + rowLen) then ArrayOut.failed c .outOfRange e.rs1
  else
    let vals := (List.range rows).map (fun m => (List.range g.nv).map (fun n =>
      if c.skinny then skinnyCombine c m n else (accGet c m n, NumCounts.zero)))
    let nans := if c.skinny then ((vals.zipIdx).map (fun r => (r.1.zipIdx).filterMap (fun v =>
        if f32IsNan v.1.1 then some (2, 5, 0, r.2, v.2, 0xFFFFFFFF, v.1.1, 0) else none))).flatten else []
    let (c1, draws) := if f ≠ 0 ∧ mode = .sr then drawRows c g.nv rows else (c, [])
    let outs := (vals.zipIdx).map (fun r => (r.1.zipIdx).map (fun v =>
      if f = 0 then (v.1.1, v.1.2)
      else
        let x := roundTo f mode g.dsat false (nth (draws.getD r.2 []) v.2) (decodeNum 0 v.1.1)
        (encodeNum f x.1, NumCounts.add v.1.2 x.2)))
    let codes := outs.map (fun r => r.map (·.1))
    let byCol := (List.range g.nv).map (fun n => codes.map (fun r => nth r n))
    let stores := (((if axis then byCol else codes).zipIdx)).map (fun r => (e.rs1 + r.2 * e.rs2, packElems (fmtBits f) r.1))
    let c2 := if clr then { c1 with acc := [], group := 0 } else c1
    ⟨{ c2 with tail := false }, (outs.flatten.map (·.2)).foldl NumCounts.add NumCounts.zero, nans, none, stores⟩
where
  /-- one draw of lanes 0 to `nv` − 1 for each row, R129 -/
  drawRows (c : Cell) (nv : Nat) : Nat → Cell × List (List Nat)
    | 0 => (c, [])
    | k + 1 =>
      let (c1, ds) := drawRows c nv k
      let (c2, d) := laneDraws c1 (List.range nv)
      (c2, ds ++ [d])

/-- MRS, R130, R134. -/
def mrsExec (read : Nat → Nat → Bytes) (c : Cell) (e : ArrayEntry) : ArrayOut :=
  if e.rs1 % 64 ≠ 0 ∨ !inScratch e.rs1 512 then ArrayOut.failed c .outOfRange e.rs1
  else
    let f := unpack 32 128 (read e.rs1 512)
    let rows := if c.skinny then 16 else 128
    let fNans := ((f.zipIdx).filter (fun p => f32IsNan p.1 && decide (p.2 < rows))).map (fun p => (2, 4, 0, p.2, 0, 0xFFFFFFFF, p.1, 0))
    let rowOf := fun k => if c.skinny then k / 128 % 16 else k / 128
    let special := (List.range rows).filter (fun m => nth f m ≥ f32SignBit || !numIsFin (decodeNum 0 (nth f m)))
    let extra : List Nat := ((List.range 128).filter (fun r => special.contains (if c.skinny then r % 16 else r))).flatMap (fun r =>
      (List.range 128).map (fun n => r * 128 + n))
    let keys : List Nat := (c.acc.map (fun p => p.1) ++ extra).eraseDups
    let ups := keys.map (fun k => (k, f32Mul (kgetD c.acc k 0) (nth f (rowOf k))))
    let accNans := if fNans.isEmpty then
        (ups.filter (fun u => f32IsNan u.2.1)).map (fun u => (2, 5, 0, rowOf u.1, u.1 % 128, 0xFFFFFFFF, f32Nan, kgetD c.acc u.1 0))
      else []
    ⟨{ accSet c (ups.map (fun u => (u.1, u.2.1))) with tail := false },
     (ups.map (fun u => u.2.2)).foldl NumCounts.add NumCounts.zero, if fNans.isEmpty then accNans else fNans, none, []⟩

/-- Outlier cycles of the groups of an MMA, R136. -/
def outlierCycles (g : ArrayCfg) (o : Outliers) (i : Nat) : Nat :=
  let per := 2 / kRate2 g.afmt o.fmt
  per * (o.rows.filter (fun r => r.1 / 32 == i)).length

/-- `mma_cycles` of R133: `per` cycles a group and what its outliers add. -/
def streamCycles (per : Nat) (extra : Nat → Nat) (skinny : Bool) (g0 groups : Nat) : Nat :=
  let cost := fun i => per + extra i
  if skinny then
    listMax ((List.range 8).map (fun s => listSum (((List.range groups).filter (fun i => (g0 + i) % 8 == s)).map cost)))
  else listSum ((List.range groups).map cost)

/-- The cycles that an MMA streams, R133. -/
def mmaCycles (g : ArrayCfg) (o : Outliers) (skinny : Bool) (g0 : Nat) : Nat :=
  streamCycles (64 / kRate2 g.afmt g.bfmt) (outlierCycles g o) skinny g0 g.groups

end Sys2Proof.Machine
end

