-- ==== Sys2Proof/Machine/RunEnds.lean ====
section
/-! DEFINITION. How a run ends before its commit point: R25, R178, R179, the NaN record (R109), errors of a cell met by a core (R154). -/

namespace Sys2Proof.Machine

open Sys2Proof

/-- A command in flight ends without effect, R25. -/
def abortFlight (f : Flight) (st : Status) (d : Nat) (result : Bytes) (s : State) : State :=
  finish f { status := st, detail := d, result := result } (endWork f.serial 3 0 s)

/-- Logical rank of a cell in a run. -/
def rankOf (r : Run) (cell : Nat) : Nat := (r.cells.findIdx? (· == cell)).getD 0

/-- The fault record of R179. -/
def kernelFaultRecord (r : Run) (hart cause pc addr insn : Nat) : Bytes :=
  toLe 8 pc ++ toLe 8 addr ++ toLe 4 insn ++ toLe 2 (0x1000 + hart) ++ toLe 1 (rankOf r (hart / 8)) ++ toLe 1 (hart % 8)
    ++ toLe 1 cause ++ zeros 7

/-- Whether a status is of class 0x01xx. -/
def classOne (st : Status) : Bool := decide (st.code / 256 = 1)

/-- A fault ends the whole run without effect, R179. -/
def faultRun (r : Run) (hart cause : Nat) (st : Status) (d pc addr insn : Nat) (s : State) : State :=
  let b := kernelFaultRecord r hart cause pc addr insn
  let s1 := trackBody 8 (0x1000 + hart) r.tenant (b ++ toLe 8 r.commandId ++ toLe 2 r.tenant ++ zeros 22) s
  match flightOf s1 r.serial with
  | some f => abortFlight f st (if classOne st then 48 else d) b s1
  | none => endWork r.serial 3 0 s1

/-- The identity record of R109. -/
def nanRecord (s : State) (commandId unit tenant site stage operand fmt layer tile row col kgroup bits other pc : Nat) : Bytes :=
  toLe 8 commandId ++ toLe 8 s.frontTime ++ toLe 2 unit ++ toLe 2 tenant ++ toLe 1 site ++ toLe 1 stage ++ toLe 1 operand
    ++ toLe 1 fmt ++ toLe 4 layer ++ toLe 4 tile ++ toLe 2 row ++ toLe 2 col ++ toLe 4 kgroup ++ toLe 4 bits ++ toLe 4 other
    ++ toLe 8 pc ++ zeros 8

/-- The first NaN ends a command, R108, R109: its record is the result and a track record of the detecting unit. -/
def nanTrap (serial unit tenant : Nat) (rec' : Bytes) (s : State) : State :=
  let s1 := bump .nanTraps tenant 1 (trackBody 6 unit tenant rec' s)
  match flightOf s1 serial with
  | some f => abortFlight f .nanTrap 0 rec' s1
  | none => endWork serial 3 0 s1

/-- Whether a run traps NaNs, R102. -/
def trapsNan (numeric : Nat) : Bool := bitOf numeric 0

/-- What the ECC of a cell found in an access by a core: whether the run ended by it, and the state, R154. -/
def eccOutcome (r : Run) (hart pc insn : Nat) (e : EccEvent) (s : State) : Option State :=
  match e with
  | .none => none
  | .corrected _ => none
  | .poisoned a =>
    let unit := 0x3000 + hart / 8
    let s1 := countUnitFault (hart / 8) 2 (uncorrectedError unit r.tenant r.commandId a 0 1 s)
    let s2 := if 0x1000000 ≤ a ∧ a < 0x1C00000 then
        { s1 with tiers := { s1.tiers with poisoned := (scratchAddr (hart / 8) ((a - 0x1000000) / 8 * 8)) :: s1.tiers.poisoned } }
      else s1
    some (faultRun r hart 9 .dataPoisoned 0 pc a insn s2)

/-- A corrected error noted before an access goes on. -/
def eccNote (cell : Nat) (e : EccEvent) (s : State) : State :=
  match e with
  | .corrected a => correctedError (0x3000 + cell) a 0 s
  | _ => s

end Sys2Proof.Machine
end

