-- ==== Sys2Proof/Machine/Rv64.lean ====
section
/-! DEFINITION. The scalar instructions of a vane core, R143 to R148: RV64IMAC with Zicsr and Zifencei as RISC-V International ratifies them, on the core's registers. -/

namespace Sys2Proof.Machine

open Sys2Proof

/-- A register; x0 reads zero. -/
def xget (c : Core) (r : Nat) : W64 := if r = 0 then 0 else kgetD c.regs r 0

/-- Write a register; x0 discards it. -/
def xset (c : Core) (r : Nat) (v : W64) : Core :=
  if r = 0 then c else { c with regs := if v = 0 then kdel c.regs r else kset c.regs r v }

/-- A `w`-bit number sign-extended to 64 bits. -/
def sext (w v : Nat) : W64 := BitVec.ofInt 64 (signedOf w v)

/-- The low 32 bits of a value sign-extended, as the W instructions give. -/
def sext32 (v : W64) : W64 := sext 32 (v.toNat % 2 ^ 32)

/-- Instruction words by format, for the expansion of compressed ones. -/
def encI (opc f3 rd rs1 imm : Nat) : Nat := imm % 4096 * 2 ^ 20 + rs1 * 2 ^ 15 + f3 * 2 ^ 12 + rd * 2 ^ 7 + opc
def encR (opc f3 f7 rd rs1 rs2 : Nat) : Nat := f7 * 2 ^ 25 + rs2 * 2 ^ 20 + rs1 * 2 ^ 15 + f3 * 2 ^ 12 + rd * 2 ^ 7 + opc
def encS (f3 rs1 rs2 imm : Nat) : Nat :=
  bits imm 11 5 * 2 ^ 25 + rs2 * 2 ^ 20 + rs1 * 2 ^ 15 + f3 * 2 ^ 12 + bits imm 4 0 * 2 ^ 7 + 0x23
def encB (f3 rs1 imm : Nat) : Nat :=
  bits imm 12 12 * 2 ^ 31 + bits imm 10 5 * 2 ^ 25 + rs1 * 2 ^ 15 + f3 * 2 ^ 12 + bits imm 4 1 * 2 ^ 8 + bits imm 11 11 * 2 ^ 7 + 0x63
def encJ (rd imm : Nat) : Nat :=
  bits imm 20 20 * 2 ^ 31 + bits imm 10 1 * 2 ^ 21 + bits imm 11 11 * 2 ^ 20 + bits imm 19 12 * 2 ^ 12 + rd * 2 ^ 7 + 0x6F

/-- A `w`-bit number sign-extended to `n` bits. -/
def widen (w n v : Nat) : Nat := unsignedOf n (signedOf w v)

/-- Quadrant 0 of the compressed instructions. -/
def expandC0 (h : Nat) : Option Nat :=
  let rd := 8 + bits h 4 2
  let rs := 8 + bits h 9 7
  let wImm := bits h 12 10 * 8 + bits h 6 6 * 4 + bits h 5 5 * 64
  let dImm := bits h 12 10 * 8 + bits h 6 5 * 64
  match bits h 15 13 with
  | 0 =>
    let imm := bits h 12 11 * 16 + bits h 10 7 * 64 + bits h 6 6 * 4 + bits h 5 5 * 8
    if imm = 0 then none else some (encI 0x13 0 rd 2 imm)
  | 2 => some (encI 0x03 2 rd rs wImm)
  | 3 => some (encI 0x03 3 rd rs dImm)
  | 6 => some (encS 2 rs rd wImm)
  | 7 => some (encS 3 rs rd dImm)
  | _ => none

/-- Quadrant 1 of the compressed instructions. -/
def expandC1 (h : Nat) : Option Nat :=
  let rd := bits h 11 7
  let imm6 := bits h 12 12 * 32 + bits h 6 2
  let rp := 8 + bits h 9 7
  let rq := 8 + bits h 4 2
  match bits h 15 13 with
  | 0 => some (encI 0x13 0 rd rd (widen 6 12 imm6))
  | 1 => if rd = 0 then none else some (encI 0x1B 0 rd rd (widen 6 12 imm6))
  | 2 => some (encI 0x13 0 rd 0 (widen 6 12 imm6))
  | 3 =>
    if rd = 2 then
      let imm := bits h 12 12 * 512 + bits h 6 6 * 16 + bits h 5 5 * 64 + bits h 4 3 * 128 + bits h 2 2 * 32
      if imm = 0 then none else some (encI 0x13 0 2 2 (widen 10 12 imm))
    else if imm6 = 0 then none
    else some (widen 6 20 imm6 * 2 ^ 12 + rd * 2 ^ 7 + 0x37)
  | 4 =>
    match bits h 11 10 with
    | 0 => some (encI 0x13 5 rp rp imm6)
    | 1 => some (encI 0x13 5 rp rp (0x400 + imm6))
    | 2 => some (encI 0x13 7 rp rp (widen 6 12 imm6))
    | _ =>
      if bits h 12 12 = 0 then
        match bits h 6 5 with
        | 0 => some (encR 0x33 0 0x20 rp rp rq)
        | 1 => some (encR 0x33 4 0 rp rp rq)
        | 2 => some (encR 0x33 6 0 rp rp rq)
        | _ => some (encR 0x33 7 0 rp rp rq)
      else
        match bits h 6 5 with
        | 0 => some (encR 0x3B 0 0x20 rp rp rq)
        | 1 => some (encR 0x3B 0 0 rp rp rq)
        | _ => none
  | 5 =>
    let imm := bits h 12 12 * 2048 + bits h 11 11 * 16 + bits h 10 9 * 256 + bits h 8 8 * 1024 + bits h 7 7 * 64
      + bits h 6 6 * 128 + bits h 5 3 * 2 + bits h 2 2 * 32
    some (encJ 0 (widen 12 21 imm))
  | f =>
    let imm := bits h 12 12 * 256 + bits h 11 10 * 8 + bits h 6 5 * 64 + bits h 4 3 * 2 + bits h 2 2 * 32
    some (encB (if f = 6 then 0 else 1) rp (widen 9 13 imm))

/-- Quadrant 2 of the compressed instructions. -/
def expandC2 (h : Nat) : Option Nat :=
  let rd := bits h 11 7
  let rs2 := bits h 6 2
  match bits h 15 13 with
  | 0 => some (encI 0x13 1 rd rd (bits h 12 12 * 32 + rs2))
  | 2 => if rd = 0 then none else some (encI 0x03 2 rd 2 (bits h 12 12 * 32 + bits h 6 4 * 4 + bits h 3 2 * 64))
  | 3 => if rd = 0 then none else some (encI 0x03 3 rd 2 (bits h 12 12 * 32 + bits h 6 5 * 8 + bits h 4 2 * 64))
  | 4 =>
    if bits h 12 12 = 0 then
      if rs2 = 0 then (if rd = 0 then none else some (encI 0x67 0 0 rd 0)) else some (encR 0x33 0 0 rd 0 rs2)
    else if rs2 = 0 then (if rd = 0 then some 0x00100073 else some (encI 0x67 0 1 rd 0))
    else some (encR 0x33 0 0 rd rd rs2)
  | 6 => some (encS 2 2 rs2 (bits h 12 9 * 4 + bits h 8 7 * 64))
  | 7 => some (encS 3 2 rs2 (bits h 12 10 * 8 + bits h 9 7 * 64))
  | _ => none

/-- The 32-bit instruction a compressed one stands for; none where it is reserved or of an absent extension. -/
def expandC (h : Nat) : Option Nat :=
  match h % 4 with
  | 0 => expandC0 h
  | 1 => expandC1 h
  | _ => expandC2 h

/-- An instruction at the pc: its bits as stored, its 32-bit form (none: reserved), its length. -/
structure Fetched where
  raw : Nat
  insn : Option Nat
  len : Nat
  deriving DecidableEq, Repr

/-- Fetch from instruction memory, R145; none is an access fault. -/
def fetchAt (c : Core) : Option Fetched :=
  let pc := c.pc.toNat
  if 0x10000 < pc + 2 then none
  else
    let h := leNat (Memory.readN c.im pc 2)
    if h % 4 ≠ 3 then some ⟨h, expandC h, 2⟩
    else if 0x10000 < pc + 4 then none
    else
      let w := leNat (Memory.readN c.im pc 4)
      some ⟨w, some w, 4⟩

/-- What a scalar instruction comes to. -/
inductive ScalarOut where
  /-- it retires: the new core with its pc, the cycles of R147, a store -/
  | retire (c : Core) (cost : Nat) (store : Option (Nat × Bytes))
  /-- a fault of R179: 0 illegal instruction, 1 misaligned, 2 access fault; the address -/
  | trap (cause addr : Nat)
  /-- a custom instruction, ECALL or EBREAK: a row of its own -/
  | other

/-- Quotient and remainder as RISC-V defines them for a zero divisor and for overflow. -/
def divS {w : Nat} (a b : BitVec w) : BitVec w := if b = 0 then BitVec.allOnes w else BitVec.sdiv a b
def divU {w : Nat} (a b : BitVec w) : BitVec w := if b = 0 then BitVec.allOnes w else a / b
def remS {w : Nat} (a b : BitVec w) : BitVec w := if b = 0 then a else BitVec.srem a b
def remU {w : Nat} (a b : BitVec w) : BitVec w := if b = 0 then a else a % b

/-- A value from a truth value. -/
def w64OfBool (b : Bool) : W64 := if b then 1 else 0

/-- OP: the result and its cycles, R147; none is illegal. -/
def aluOp (f7 f3 : Nat) (a b : W64) : Option (W64 × Nat) :=
  let sh := b.toNat % 64
  match f7, f3 with
  | 0, 0 => some (a + b, 1)
  | 0, 1 => some (a <<< sh, 1)
  | 0, 2 => some (w64OfBool (BitVec.slt a b), 1)
  | 0, 3 => some (w64OfBool (BitVec.ult a b), 1)
  | 0, 4 => some (a ^^^ b, 1)
  | 0, 5 => some (a >>> sh, 1)
  | 0, 6 => some (a ||| b, 1)
  | 0, 7 => some (a &&& b, 1)
  | 0x20, 0 => some (a - b, 1)
  | 0x20, 5 => some (BitVec.sshiftRight a sh, 1)
  | 1, 0 => some (a * b, 3)
  | 1, 1 => some (BitVec.ofInt 64 (a.toInt * b.toInt / (2 ^ 64 : Nat)), 3)
  | 1, 2 => some (BitVec.ofInt 64 (a.toInt * (b.toNat : Int) / (2 ^ 64 : Nat)), 3)
  | 1, 3 => some (BitVec.ofNat 64 (a.toNat * b.toNat / 2 ^ 64), 3)
  | 1, 4 => some (divS a b, 34)
  | 1, 5 => some (divU a b, 34)
  | 1, 6 => some (remS a b, 34)
  | 1, 7 => some (remU a b, 34)
  | _, _ => none

/-- OP-32: on the low 32 bits, sign-extended; none is illegal. -/
def aluOp32 (f7 f3 : Nat) (a64 b64 : W64) : Option (W64 × Nat) :=
  let a := a64.truncate 32
  let b := b64.truncate 32
  let sh := b64.toNat % 32
  let r : Option (W32 × Nat) := match f7, f3 with
    | 0, 0 => some (a + b, 1)
    | 0, 1 => some (a <<< sh, 1)
    | 0, 5 => some (a >>> sh, 1)
    | 0x20, 0 => some (a - b, 1)
    | 0x20, 5 => some (BitVec.sshiftRight a sh, 1)
    | 1, 0 => some (a * b, 3)
    | 1, 4 => some (divS a b, 18)
    | 1, 5 => some (divU a b, 18)
    | 1, 6 => some (remS a b, 18)
    | 1, 7 => some (remU a b, 18)
    | _, _ => none
  r.map (fun x => (x.1.signExtend 64, x.2))

/-- OP-IMM; none is illegal. -/
def aluImm (f3 imm : Nat) (a : W64) : Option W64 :=
  let i := sext 12 imm
  let sh := imm % 64
  match f3 with
  | 0 => some (a + i)
  | 1 => if imm / 64 = 0 then some (a <<< sh) else none
  | 2 => some (w64OfBool (BitVec.slt a i))
  | 3 => some (w64OfBool (BitVec.ult a i))
  | 4 => some (a ^^^ i)
  | 5 => if imm / 64 = 0 then some (a >>> sh) else if imm / 64 = 0x10 then some (BitVec.sshiftRight a sh) else none
  | 6 => some (a ||| i)
  | _ => some (a &&& i)

/-- OP-IMM-32; none is illegal. -/
def aluImm32 (f3 imm : Nat) (a64 : W64) : Option W64 :=
  let a := a64.truncate 32
  let sh := imm % 32
  match f3 with
  | 0 => some ((a + (sext 12 imm).truncate 32).signExtend 64)
  | 1 => if imm / 32 = 0 then some ((a <<< sh).signExtend 64) else none
  | 5 => if imm / 32 = 0 then some ((a >>> sh).signExtend 64)
    else if imm / 32 = 0x20 then some ((BitVec.sshiftRight a sh).signExtend 64) else none
  | _ => none

/-- Whether a branch is taken; none is illegal. -/
def branchTaken (f3 : Nat) (a b : W64) : Option Bool :=
  match f3 with
  | 0 => some (a == b)
  | 1 => some (a != b)
  | 4 => some (BitVec.slt a b)
  | 5 => some (!BitVec.slt a b)
  | 6 => some (BitVec.ult a b)
  | 7 => some (!BitVec.ult a b)
  | _ => none

/-- The value an AMO stores, on operands of width `w`. -/
def amoOp {w : Nat} (f5 : Nat) (m b : BitVec w) : Option (BitVec w) :=
  match f5 with
  | 0x01 => some b
  | 0x00 => some (m + b)
  | 0x04 => some (m ^^^ b)
  | 0x0C => some (m &&& b)
  | 0x08 => some (m ||| b)
  | 0x10 => some (if BitVec.slt m b then m else b)
  | 0x14 => some (if BitVec.slt m b then b else m)
  | 0x18 => some (if BitVec.ult m b then m else b)
  | 0x1C => some (if BitVec.ult m b then b else m)
  | _ => none

/-- Reset value of a CSR of R97 and R122. -/
def csrReset (a : Nat) : W32 := if a = 0x8C0 then 1 else if a = 0x8C1 then 0x33 else if a = 0x8C2 then 1 else 0

/-- Bits of a CSR that a write stores, R97, R122. -/
def csrMask (a : Nat) : Nat :=
  if a = 0x8C0 then 0x3 else if a = 0x8C1 then 0x1FFF else if a = 0x8C2 then 0x1FFFF
  else if a = 0x8C3 then 0xFFFF else if a ≤ 0x8C6 then 0xFFFFFF else 0

/-- A writable CSR of the core. -/
def csrOf (c : Core) (a : Nat) : W32 := kgetD c.csrs a (csrReset a)

/-- A CSR as read, R148; none does not exist. -/
def csrRead (c : Core) (time : Nat) (a : Nat) : Option W64 :=
  if a = 0xC00 then some c.cycle
  else if a = 0xC01 then some (BitVec.ofNat 64 time)
  else if a = 0xC02 then some c.instret
  else if 0x8C0 ≤ a ∧ a ≤ 0x8C6 then some ((csrOf c a).zeroExtend 64)
  else if a = 0x8C7 then some (c.vkrank.zeroExtend 64)
  else if a = 0x8C8 then some (c.vkmask.zeroExtend 64)
  else none

/-- A CSR written; reserved and read-only bits ignore it. -/
def csrWrite (c : Core) (a : Nat) (v : W64) : Core :=
  if 0x8C0 ≤ a ∧ a ≤ 0x8C6 then
    { c with csrs := kset c.csrs a (BitVec.ofNat 32 (v.toNat % 2 ^ 32) &&& BitVec.ofNat 32 (csrMask a)) }
  else c

/-- A Zicsr instruction; none is illegal. -/
def csrOp (c : Core) (time f3 rd rs1 a : Nat) : Option Core :=
  let src : W64 := if f3 < 4 then xget c rs1 else BitVec.ofNat 64 rs1
  let writes := f3 % 4 == 1 || rs1 != 0
  match csrRead c time a with
  | none => none
  | some old =>
    if writes && decide (0xC00 ≤ a) then none
    else
      let v := if f3 % 4 = 1 then src else if f3 % 4 = 2 then old ||| src else old &&& ~~~src
      some (xset (if writes then csrWrite c a v else c) rd old)

/-- Which memory a core address names, R145: data memory 0, scratchpad 1; none faults. -/
def coreSpace (a n : Nat) : Option Nat :=
  if 0x10000 ≤ a ∧ a + n ≤ 0x20000 then some 0
  else if 0x1000000 ≤ a ∧ a + n ≤ 0x1C00000 then some 1
  else none

/-- Advance past an instruction that retires. -/
def retired (c : Core) (len cost : Nat) (store : Option (Nat × Bytes)) : ScalarOut :=
  .retire { c with pc := c.pc + BitVec.ofNat 64 len, cycle := c.cycle + BitVec.ofNat 64 cost, instret := c.instret + 1 } cost store

/-- A control transfer that retires. -/
def jumped (c : Core) (target : W64) : ScalarOut :=
  .retire { c with pc := target, cycle := c.cycle + 2, instret := c.instret + 1 } 2 none

/-- Bytes of data memory or scratchpad; `scratch` reads the latter by offset. -/
def coreLoad (c : Core) (scratch : Nat → Nat → Bytes) (space a n : Nat) : Bytes :=
  if space = 0 then Memory.readN c.dm a n else scratch (a - 0x1000000) n

/-- LR, SC and AMO, R145 to R147. -/
def amoExec (c : Core) (scratch : Nat → Nat → Bytes) (w len : Nat) : ScalarOut :=
  let f3 := bits w 14 12
  let rd := bits w 11 7
  let rs2 := bits w 24 20
  let f5 := bits w 31 27
  let n := if f3 = 2 then 4 else 8
  let a := (xget c (bits w 19 15)).toNat
  if f3 ≠ 2 ∧ f3 ≠ 3 then .trap 0 0
  else if f5 = 2 ∧ rs2 ≠ 0 then .trap 0 0
  else if f5 ≠ 2 ∧ f5 ≠ 3 ∧ (amoOp f5 (0 : W64) 0).isNone then .trap 0 0
  else if a % n ≠ 0 then .trap 1 a
  else match coreSpace a n with
    | none => .trap 2 a
    | some sp =>
      let cost := if sp = 0 then 3 else 11
      let old := leNat (coreLoad c scratch sp a n)
      let oldV := sext (8 * n) old
      if f5 = 2 then retired { xset c rd oldV with reserved := some (a, n) } len cost none
      else if f5 = 3 then
        if c.reserved = some (a, n) then
          retired { xset c rd 0 with reserved := none } len cost (some (a, toLe n (xget c rs2).toNat))
        else retired { xset c rd 1 with reserved := none } len cost none
      else
        let b := (xget c rs2).toNat
        let r : Nat := if n = 4 then ((amoOp f5 (BitVec.ofNat 32 old) (BitVec.ofNat 32 b)).getD 0).toNat
          else ((amoOp f5 (BitVec.ofNat 64 old) (BitVec.ofNat 64 b)).getD 0).toNat
        retired (xset c rd oldV) len cost (some (a, toLe n r))

/-- Loads, R145 to R147. -/
def loadExec (c : Core) (scratch : Nat → Nat → Bytes) (w len : Nat) : ScalarOut :=
  let f3 := bits w 14 12
  let n := 2 ^ (f3 % 4)
  let a := (xget c (bits w 19 15) + sext 12 (bits w 31 20)).toNat
  if f3 = 7 then .trap 0 0
  else if a % n ≠ 0 then .trap 1 a
  else match coreSpace a n with
    | none => .trap 2 a
    | some sp =>
      let v := leNat (coreLoad c scratch sp a n)
      retired (xset c (bits w 11 7) (if f3 < 4 then sext (8 * n) v else BitVec.ofNat 64 v)) len (if sp = 0 then 2 else 9) none

/-- Stores, R145 to R147. -/
def storeExec (c : Core) (w len : Nat) : ScalarOut :=
  let f3 := bits w 14 12
  let n := 2 ^ f3
  let a := (xget c (bits w 19 15) + sext 12 (bits w 31 25 * 32 + bits w 11 7)).toNat
  if 3 < f3 then .trap 0 0
  else if a % n ≠ 0 then .trap 1 a
  else match coreSpace a n with
    | none => .trap 2 a
    | some _ => retired c len 1 (some (a, toLe n (xget c (bits w 24 20)).toNat))

/-- The offset of a branch and of JAL. -/
def branchOffset (w : Nat) : W64 := sext 13 (bits w 31 31 * 4096 + bits w 7 7 * 2048 + bits w 30 25 * 32 + bits w 11 8 * 2)
def jalOffset (w : Nat) : W64 := sext 21 (bits w 31 31 * 2 ^ 20 + bits w 19 12 * 4096 + bits w 20 20 * 2048 + bits w 30 21 * 2)

/-- One scalar instruction, R143; `len` is its length as stored. -/
def scalarExec (c : Core) (scratch : Nat → Nat → Bytes) (time w len : Nat) : ScalarOut :=
  let rd := bits w 11 7
  let f3 := bits w 14 12
  let rs1 := bits w 19 15
  let a := xget c rs1
  let b := xget c (bits w 24 20)
  let done := fun (r : Option (W64 × Nat)) => match r with
    | some (v, cost) => retired (xset c rd v) len cost none
    | none => ScalarOut.trap 0 0
  match w % 128 with
  | 0x37 => retired (xset c rd (sext 32 (bits w 31 12 * 4096))) len 1 none
  | 0x17 => retired (xset c rd (c.pc + sext 32 (bits w 31 12 * 4096))) len 1 none
  | 0x6F => jumped (xset c rd (c.pc + BitVec.ofNat 64 len)) (c.pc + jalOffset w)
  | 0x67 =>
    if f3 = 0 then jumped (xset c rd (c.pc + BitVec.ofNat 64 len)) ((a + sext 12 (bits w 31 20)) &&& ~~~1) else .trap 0 0
  | 0x63 => match branchTaken f3 a b with
    | none => .trap 0 0
    | some true => jumped c (c.pc + branchOffset w)
    | some false => retired c len 1 none
  | 0x03 => loadExec c scratch w len
  | 0x23 => storeExec c w len
  | 0x13 => done ((aluImm f3 (bits w 31 20) a).map (fun v => (v, 1)))
  | 0x1B => done ((aluImm32 f3 (bits w 31 20) a).map (fun v => (v, 1)))
  | 0x33 => done (aluOp (bits w 31 25) f3 a b)
  | 0x3B => done (aluOp32 (bits w 31 25) f3 a b)
  | 0x0F => if f3 = 0 ∨ f3 = 1 then retired c len 1 none else .trap 0 0
  | 0x2F => amoExec c scratch w len
  | 0x73 =>
    if w = 0x73 ∨ w = 0x100073 then .other
    else if f3 = 0 ∨ f3 = 4 then .trap 0 0
    else match csrOp c time f3 rd rs1 (bits w 31 20) with
      | some c1 => retired c1 len 1 none
      | none => .trap 0 0
  | 0x0B => .other
  | 0x2B => .other
  | _ => .trap 0 0

end Sys2Proof.Machine
end

