-- ==== Sys2Proof/Machine/CoreOps.lean ====
section
/-! DEFINITION. How a vane core runs one instruction: when it may, breakpoints (R566, R568), retiring, stalling, faults (R179), and the end of a step (R574). -/

namespace Sys2Proof.Machine

open Sys2Proof

/-- Cells of a run whose queues still hold an instruction. -/
def runBusy (s : State) (r : Run) : Bool :=
  !r.transfers.isEmpty || r.cells.any (fun c => !(cellOf s c).arrayQ.isEmpty || !(cellOf s c).vectorQ.isEmpty)

/-- A STEP whose instruction has retired and drained ends with OUTCOME 0, R574. -/
def settleStep (serial : Nat) (s : State) : State :=
  match runOf s serial with
  | none => s
  | some r =>
    match r.halt with
    | .stepping hart h =>
      let c := coreOf s hart
      if c.stopped && !runBusy s r then
        let s1 := setRun { r with halt := .halted } s
        match flightOf s1 h with
        | some f => finish f (okReply (toLe 1 0 ++ zeros 7 ++ toLe 8 c.pc.toNat)) s1
        | none => s1
      else s
    | _ => s

/-- A halt of a run begins: every running core stops at its instruction boundary or in its stall, R568. -/
def startHalt (r : Run) (brk : Option Nat) (hart reason : Nat) (s : State) : State :=
  let cores := s.compute.cores.map (fun p =>
    if r.cells.contains (p.1 / 8) ∧ p.2.life = .running then
      (p.1, { p.2 with stopped := true, reason := if p.1 = hart then reason else if brk.isNone then 0 else 4 })
    else p)
  setRun { r with halt := .draining brk, brk := brk } { s with compute := { s.compute with cores := cores } }

/-- The breakpoint of kind VANE_PC that a fetch at the pc hits, R566. -/
def breakAt (s : State) (r : Run) (hart pc : Nat) : Option Breakpoint :=
  s.dbg.breaks.find? (fun b => b.kind == 0 && b.handle == r.handle && b.addr == pc
    && (b.core == 0xFF || b.core == hart % 8) && (b.rank == 0xFF || b.rank == rankOf r (hart / 8)))

/-- A core of a run that may execute: running, and not stopped by a halt. -/
def mayExecute (s : State) (hart : Nat) : Option (Run × Core) :=
  match runOfCell s (hart / 8) with
  | none => none
  | some r =>
    let c := coreOf s hart
    let quad := (quadrantOf s.power (hart / 96)).state
    if c.life = .running ∧ c.stopped = false ∧ quad = .active then some (r, c) else none

/-- A breakpoint is hit: BREAK_HIT is recorded and the halt begins, R568, R578. -/
def hitBreak (r : Run) (b : Breakpoint) (hart pc reason : Nat) (s : State) : State :=
  startHalt r (some b.id) hart reason
    (track 9 (0x1000 + hart) r.tenant r.commandId (b.id + rankOf r (hart / 8) * 2 ^ 32 + hart % 8 * 2 ^ 40) pc s)

/-- The frame of every core row: the core fetches; a breakpoint is hit first (R566); a wanted instruction runs, else nothing happens. -/
def coreRow (hart : Nat) (want : Nat → Bool) (k : Run → Core → Fetched → Nat → State → State) (s : State) : State :=
  match mayExecute s hart with
  | none => s
  | some (r, c) =>
    match fetchAt c with
    | none => s
    | some f =>
      match f.insn with
      | none => s
      | some w =>
        if want w then
          match (if c.passBreak then none else breakAt s r hart c.pc.toNat) with
          | some b => hitBreak r b hart c.pc.toNat 1 s
          | none => settleStep r.serial (k r c f w s)
        else s

/-- Whether a run steps this core. -/
def steps (r : Run) (hart : Nat) : Bool :=
  match r.halt with
  | .stepping h _ => h == hart
  | _ => false

/-- A core after an instruction has retired: its stall is over; a stepped core stops again, R574. -/
def afterRetire (r : Run) (hart : Nat) (c : Core) : Core :=
  { c with
    stall := .none
    passBreak := false
    stopped := steps r hart
    reason := if steps r hart then 3 else c.reason }

/-- A custom instruction retires: the pc, one cycle, one instruction, R147. -/
def retireCustom (r : Run) (hart : Nat) (c : Core) (s : State) : State :=
  setCore hart (afterRetire r hart { c with pc := c.pc + 4, cycle := c.cycle + 1, instret := c.instret + 1 }) s

/-- A core waits at its instruction. -/
def stallCore (hart : Nat) (c : Core) (st : Stall) (s : State) : State := setCore hart { c with stall := st } s

/-- The instruction at a core's pc as a fault record gives it: a compressed one zero-extended, R179. -/
def insnAt (c : Core) : Nat := ((fetchAt c).map (·.raw)).getD 0

/-- A fault of a core at its instruction, R179. -/
def faultCore (r : Run) (hart : Nat) (c : Core) (f : Fetched) (cause : Nat) (st : Status) (d addr : Nat) (s : State) : State :=
  faultRun r hart cause st d c.pc.toNat addr f.raw s

/-- Scalar stores reach data memory or the scratchpad, R145. -/
def coreStore (hart : Nat) (st : Option (Nat × Bytes)) (c : Core) (s : State) : State :=
  match st with
  | none => setCore hart c s
  | some (a, b) =>
    if a < 0x1000000 then setCore hart { c with dm := Memory.writeN c.dm a b } s
    else scratchWrite (hart / 8) (a - 0x1000000) b hart (setCore hart c s)

/-- One entry of a cell's array queue leaves it; cores stalled on a full queue may issue again. -/
def popArray (cell : Nat) (s : State) : State :=
  let c := cellOf s cell
  setCell cell { c with arrayQ := c.arrayQ.drop 1 } s

/-- One entry of a cell's vector queue leaves it. -/
def popVector (cell : Nat) (s : State) : State :=
  let c := cellOf s cell
  setCell cell { c with vectorQ := c.vectorQ.drop 1 } s

/-- What a run has counted so far, R107: added at its commit point. -/
def countRun (serial : Nat) (n : NumCounts) (s : State) : State :=
  match runOf s serial with
  | some r => setRun { r with counts := NumCounts.add r.counts n } s
  | none => s

/-- Read the scratchpad of a cell at an offset. -/
def scratchReader (s : State) (cell : Nat) : Nat → Nat → Bytes := fun off n => scratchRead s cell off n

end Sys2Proof.Machine
end

