-- ==== Sys2Proof/Machine/ArrayRows.lean ====
section
/-! DEFINITION. The rows of chapter 04: ARRAY_ISSUE, MMA, MLD, MDR, MRS, MFENCE. -/

namespace Sys2Proof.Machine

open Sys2Proof

/-- The six array CSRs of a core, R122. -/
def arrayCsrs (c : Core) : List W32 := (List.range 6).map (fun i => csrOf c (0x8C1 + i))

/-- ARRAY_ISSUE: a core issues an array instruction; a fault at issue is precise, a full queue stalls it, R118, R119, R125. MFENCE has a row of its own. -/
def arrayIssue (hart : Nat) (s : State) : State :=
  coreRow hart (fun w => w % 128 == 0x0B && !(arrayOp w == 4 && (arrayIssueFault w (arrayCfg []) false).isNone)) (fun r c f w s =>
    let cell := hart / 8
    let x := cellOf s cell
    let csrs := arrayCsrs c
    let g := arrayCfg csrs
    match arrayIssueFault w g (issueSkinny x) with
    | some (cause, st) => faultCore r hart c f cause st 0 0 s
    | none =>
      if 16 ≤ x.arrayQ.length then stallCore hart c .queueFull (if c.stall = .queueFull then s else noteFull cell 0 s)
      else
        let e : ArrayEntry := ⟨BitVec.ofNat 32 w, (xget c (bits w 19 15)).toNat, (xget c (bits w 24 20)).toNat, csrs, hart, c.pc⟩
        retireCustom r hart c (noteHigh cell 0 (x.arrayQ.length + 1) (setCell cell { x with arrayQ := x.arrayQ ++ [e] } s))) s

/-- ARRAY_ISSUE. -/
def execArrayIssue (hart : Nat) (s : State) : Result := nextOf s (arrayIssue hart s)

/-- The entry at the head of a cell's array queue, if it is of an operation, with the run of the cell. -/
def arrayHead (s : State) (cell op : Nat) : Option (Run × ArrayEntry) :=
  match runOfCell s cell, (cellOf s cell).arrayQ with
  | some r, e :: _ => if arrayOp e.insn.toNat = op ∧ (quadrantOf s.power (cell / 12)).state = .active then some (r, e) else none
  | _, _ => none

/-- An accumulator parity mismatch ends a command, R141, R591, R596. -/
def parityEnds (f : Flight) (cell row : Nat) (s : State) : State :=
  abortFlight f .internalFault 0 []
    (countUnitFault cell 1 (track 0xD cell f.tenant f.hdr.commandId row 0 (logFault 0x0005 2 1 cell f.tenant f.hdr.commandId row 0 s)))

/-- An accumulator parity mismatch ends the command of a run. -/
def accumulatorParity (r : Run) (cell row : Nat) (s : State) : State :=
  match flightOf s r.serial with
  | some f => parityEnds f cell row s
  | none => s

/-- A poisoned word among what an array or vector instruction reads ends the run, R154. -/
def poisonedRead (s : State) (cell : Nat) : List (Nat × Nat) → Option Nat
  | [] => none
  | (a, n) :: l => match scratchPoison s cell a n with
    | some x => some x
    | none => poisonedRead s cell l

/-- A run of the array as its outcome says: a fault, a trapped NaN (which of several is free, R108), or its results. What races with it (R132) is decided by the order of the rows: it reads every byte at its own step, and an MDR's bytes all show at once (log entry 68). -/
def applyArray (r : Run) (e : ArrayEntry) (cell : Nat) (o : ArrayOut) (s : State) : State :=
  match o.fault with
  | some (st, a) => faultRun r e.hart 3 st 0 e.pc.toNat a e.insn.toNat s
  | none =>
    if trapsNan r.numeric && !o.nans.isEmpty then
      let (d, s1) := drawFree s
      let n := o.nans.getD (d % o.nans.length) (0, 0, 0, 0, 0, 0, 0, 0)
      nanTrap r.serial cell r.tenant
        (nanRecord s1 r.commandId cell r.tenant n.1 0 n.2.1 n.2.2.1 0xFFFFFFFF 0 n.2.2.2.1 n.2.2.2.2.1 n.2.2.2.2.2.1 n.2.2.2.2.2.2.1 n.2.2.2.2.2.2.2 0) s1
    else
      let s1 := countRun r.serial o.counts (setCell cell o.cell s)
      let s2 := o.stores.foldl (fun t w => scratchWrite cell w.1 w.2 0xFFFF t) s1
      settleStep r.serial (popArray cell s2)

/-- The frame of the array rows: the head of the queue, its parity check, its poison check, its run and its cycle counts. -/
def arrayRow (cell op : Nat) (parity : Option Nat) (ecc : EccEvent) (reads : ArrayEntry → List (Nat × Nat))
    (run : Run → Cell → ArrayEntry → State → ArrayOut) (count : Cell → ArrayEntry → State → State) (s : State) : State :=
  match arrayHead s cell op with
  | none => s
  | some (r, e) =>
    match parity with
    | some row => accumulatorParity r cell row s
    | none =>
      match eccOutcome r e.hart e.pc.toNat e.insn.toNat ecc s with
      | some t => t
      | none =>
        match poisonedRead s cell (reads e) with
        | some a => faultRun r e.hart 9 .dataPoisoned 0 e.pc.toNat a e.insn.toNat s
        | none =>
          let c := cellOf s cell
          let o := run r c e s
          let s1 := if o.fault.isNone && (o.nans.isEmpty || !trapsNan r.numeric) then count c e s else s
          applyArray r e cell o (eccNote cell ecc s1)

/-- Tail cycles due before an instruction that reads or replaces accumulators, R116, R142. -/
def countTail (cell : Nat) (c : Cell) (s : State) : State := bump .arrTail cell (if c.tail then 6 else 0) s

/-- The outlier section an MMA uses. -/
def mmaOutliers (s : State) (cell : Nat) (e : ArrayEntry) : Outliers :=
  let g := arrayCfg e.csrs
  if bitOf e.insn.toNat 25 then
    match readOutliers (scratchReader s cell) g.out 128 (32 * g.groups) with
    | .ok o => o
    | .error _ => Outliers.none
  else Outliers.none

/-- What an MMA reads: its streams and its outlier section, R103, R123, R154. -/
def mmaReads (s : State) (cell : Nat) (e : ArrayEntry) : List (Nat × Nat) :=
  let g := arrayCfg e.csrs
  mmaExtents g e.rs1 e.rs2
    ++ (if bitOf e.insn.toNat 25 then [(g.out, 8), (g.out, outlierLen (min 256 (leNat (scratchReader s cell g.out 2))) 128)] else [])

/-- MMA, R127. -/
def mma (cell : Nat) (parity : Option Nat) (ecc : EccEvent) (s : State) : State :=
  arrayRow cell 0 parity ecc (mmaReads s cell)
    (fun r c e s => mmaExec (scratchReader s cell) (trapsNan r.numeric) c e)
    (fun c e s =>
      let g := arrayCfg e.csrs
      bump .arrStream cell (mmaCycles g (mmaOutliers s cell e) c.skinny c.group)
        (bump .arrMac cell (g.mv * g.nv * 32 * g.groups) s)) s

/-- MMA. -/
def execMma (cell : Nat) (parity : Option Nat) (ecc : EccEvent) (s : State) : Result := nextOf s (mma cell parity ecc s)

/-- MLD, R126. -/
def mld (cell : Nat) (ecc : EccEvent) (s : State) : State :=
  arrayRow cell 1 none ecc
    (fun e =>
      let g := arrayCfg e.csrs
      if bitOf e.insn.toNat 26 then [] else [(e.rs1, ((if bitOf e.insn.toNat 25 then min 16 g.mv else g.mv) - 1) * e.rs2 + 4 * g.nv)])
    (fun _ c e s => mldExec (scratchReader s cell) c e)
    (fun c e s =>
      let skinny := bitOf e.insn.toNat 25
      bump .arrLoad cell (if bitOf e.insn.toNat 26 then 1 else if skinny then 16 else 128)
        (bump .arrSkinny cell (b2n skinny) (countTail cell c s))) s

/-- MLD. -/
def execMld (cell : Nat) (ecc : EccEvent) (s : State) : Result := nextOf s (mld cell ecc s)

/-- MDR, R128. -/
def mdr (cell : Nat) (parity : Option Nat) (s : State) : State :=
  arrayRow cell 2 parity .none (fun _ => [])
    (fun _ c e _ => mdrExec c e)
    (fun c _ s => bump .arrDrain cell (if c.skinny then 20 else 128) (countTail cell c s)) s

/-- MDR. -/
def execMdr (cell : Nat) (parity : Option Nat) (s : State) : Result := nextOf s (mdr cell parity s)

/-- MRS, R130. -/
def mrs (cell : Nat) (parity : Option Nat) (ecc : EccEvent) (s : State) : State :=
  arrayRow cell 3 parity ecc (fun e => [(e.rs1, 512)])
    (fun _ c e s => mrsExec (scratchReader s cell) c e)
    (fun c _ s => bump .arrRescale cell 4 (countTail cell c s)) s

/-- MRS. -/
def execMrs (cell : Nat) (parity : Option Nat) (ecc : EccEvent) (s : State) : Result := nextOf s (mrs cell parity ecc s)

/-- MFENCE: the core waits until its own earlier array instructions have finished, R131. -/
def mfence (hart : Nat) (s : State) : State :=
  coreRow hart (fun w => w % 128 == 0x0B && arrayOp w == 4 && (arrayIssueFault w (arrayCfg []) false).isNone) (fun r c _ _ s =>
    if (cellOf s (hart / 8)).arrayQ.any (fun e => e.hart == hart) then stallCore hart c .fence s
    else retireCustom r hart c s) s

/-- MFENCE. -/
def execMfence (hart : Nat) (s : State) : Result := nextOf s (mfence hart s)

end Sys2Proof.Machine
end

