-- ==== Sys2Proof/Machine/HostRows.lean ====
section
/-! DEFINITION. The host port's events: doorbells, ring enables, interrupt registers, failed reads, link and function resets (chapters 16 and 17). -/

namespace Sys2Proof.Machine

open Sys2Proof

/-- `HIF_BAD_ACCESS` advances, R486, R488. -/
def badAccess (s : State) : State := { s with host := { s.host with badAccess := s.host.badAccess + 1 } }

/-- A register's stored bits and parity have been written: it no longer mismatches, R508. -/
def parityRewritten (bar off : Nat) (s : State) : State :=
  { s with host := { s.host with parityBad := s.host.parityBad.filter (fun p => decide (p ≠ (bar, off))) } }

/-- Note a page offset as written since a halt, R597. -/
def noteWrite (off : Nat) (l : List Nat) : List Nat := if l.contains off then l else off :: l

/-- A submission doorbell write, R488, R51. -/
def sqTailWrite (ring : Nat) (value : W32) (s : State) : State :=
  let r := sqOf s.host ring
  let s0 := parityRewritten 2 (ring * 0x1000) s
  if r.halted then
    badAccess (setSq ring { r with tail := value, rewritten := noteWrite 0x1000 r.rewritten } s0)
  else if r.state ≠ .enabled then badAccess s
  else if value = r.tail then s
  else if 2 ^ r.log2 < (value - r.head).toNat ∨ (value - r.head).toNat < (r.tail - r.head).toNat then sqError ring 2 s
  else setSq ring { r with tail := value } s0

/-- SQ_TAIL_WRITE: before CFG_READY the page ignores writes, R504. -/
def execSqTailWrite (ring : Nat) (value : W32) (s : State) : Result :=
  if s.power.cfgReady then nextOf s (sqTailWrite ring value s) else .next s

/-- A completion doorbell write, R488. -/
def cqHeadWrite (ring : Nat) (value : W32) (s : State) : State :=
  let r := cqOf s.host ring
  let s0 := parityRewritten 2 (0x1000000 + ring * 0x1000) s
  if r.halted then
    badAccess (setCq ring { r with head := value, rewritten := noteWrite 0x1000 r.rewritten } s0)
  else if r.state ≠ .enabled then badAccess s
  else if value = r.head then s
  else if 2 ^ r.log2 < (r.tail - value).toNat ∨ (r.tail - r.head).toNat < (r.tail - value).toNat then cqError ring 2 s
  else setCq ring { r with head := value } s0

/-- CQ_HEAD_WRITE. -/
def execCqHeadWrite (ring : Nat) (value : W32) (s : State) : Result :=
  if s.power.cfgReady then nextOf s (cqHeadWrite ring value s) else .next s

/-- A submission configuration page that an enable refuses, R490. -/
def sqPageInvalid (r : SubRing) : Bool :=
  r.base.toNat % 4096 != 0 || decide (r.log2 < 6) || decide (16 < r.log2) || r.shadow == 0 || r.shadow.toNat % 64 != 0

/-- A completion configuration page that an enable refuses, R490. -/
def cqPageInvalid (r : CplRing) : Bool :=
  r.base.toNat % 4096 != 0 || decide (r.log2 < 6) || decide (16 < r.log2) || r.vector == 0
    || (decide (1 < r.coalCount) && r.coalUs == 0)

/-- Every RW register of a halted submission ring's pages has been written, R597. -/
def sqRewritten (r : SubRing) : Bool := [0x1000, 0x0, 0x4, 0x8, 0xC, 0x10, 0x14].all r.rewritten.contains

/-- Every RW register of a halted completion ring's pages has been written, R597. -/
def cqRewritten (r : CplRing) : Bool := [0x1000, 0x0, 0x4, 0x8, 0xC, 0x10].all r.rewritten.contains

/-- A write of 1 to SQ_ENABLE, R490. -/
def sqEnable (ring : Nat) (s : State) : State :=
  let r := sqOf s.host ring
  if r.state = .enabled then s
  else if sqPageInvalid r then setSq ring { r with enable := false, err := 1 } s
  else if !s.power.fwReady then setSq ring { r with err := 6 } s
  else if r.halted && !sqRewritten r then setSq ring { r with enable := false, err := 7 } s
  else setSq ring { r with state := .enabled, enable := true, head := 0, tail := 0, err := 0, halted := false, rewritten := [] }
    (parityRewritten 2 (0x2000000 + ring * 0x1000 + 0x18) s)

/-- SQ_ENABLE. -/
def execSqEnable (ring : Nat) (s : State) : Result :=
  if s.power.cfgReady then nextOf s (sqEnable ring s) else .next s

/-- A write of 0 to SQ_ENABLE, R490. -/
def sqDisable (ring : Nat) (s : State) : State :=
  setSq ring { sqOf s.host ring with state := .disabled, enable := false } s

/-- SQ_DISABLE. -/
def execSqDisable (ring : Nat) (s : State) : Result :=
  if s.power.cfgReady then nextOf s (sqDisable ring s) else .next s

/-- The reservations held in a completion ring are void, R490. -/
def voidReservations (ring : Nat) (s : State) : State :=
  { s with proto := { s.proto with
      flights := s.proto.flights.map (fun f => if f.hdr.replyRing = ring then { f with reserved := 0 } else f) } }

/-- A write of 1 to CQ_ENABLE with its CQ_IRQ_EN bit, R490: a later enable is a reinitialisation and advances CQ_GEN (R475). -/
def cqEnable (ring : Nat) (irqEn : Bool) (s : State) : State :=
  let r0 := cqOf s.host ring
  let r := if r0.enable then r0 else { r0 with irqEn := irqEn }
  if r0.state = .enabled then s
  else if cqPageInvalid r then setCq ring { r with enable := false, err := 1 } s
  else if !s.power.fwReady then setCq ring { r with err := 6 } s
  else if r.halted && !cqRewritten r then setCq ring { r with enable := false, err := 7 } s
  else if r.onceEnabled && decide (0xFFFF ≤ r.gen) then cqError ring 5 (setCq ring r s)
  else
    let r1 : CplRing := { r with
      state := .enabled
      enable := true
      irqEn := irqEn
      head := 0
      tail := 0
      err := 0
      dropped := 0
      gen := if r.onceEnabled then r.gen + 1 else r.gen
      onceEnabled := true
      reserved := 0
      unsignalled := 0
      firstUnsignalled := 0
      halted := false
      rewritten := [] }
    setCq ring r1 (voidReservations ring (parityRewritten 2 (0x3000000 + ring * 0x1000 + 0x18) s))

/-- CQ_ENABLE. -/
def execCqEnable (ring : Nat) (irqEn : Bool) (s : State) : Result :=
  if s.power.cfgReady then nextOf s (cqEnable ring irqEn s) else .next s

/-- A write of 0 to CQ_ENABLE: the ring is disabled and its reservations released, R490. -/
def cqDisable (ring : Nat) (irqEn : Bool) (s : State) : State :=
  let r := cqOf s.host ring
  setCq ring { r with state := .disabled, enable := false, reserved := 0, irqEn := if r.enable then r.irqEn else irqEn }
    (voidReservations ring s)

/-- CQ_DISABLE. -/
def execCqDisable (ring : Nat) (irqEn : Bool) (s : State) : Result :=
  if s.power.cfgReady then nextOf s (cqDisable ring irqEn s) else .next s

/-- MOD_PARITY_CLEAR: a write of 1 to VALID clears it, R501, R511. -/
def execModParityClear (s : State) : Result := .next { s with host := { s.host with parityValid := false } }

/-- IRQ_EVENT_CLEAR: each W1C bit written as 1 is cleared, R501, R513. -/
def execIrqEventClear (value : W32) (s : State) : Result :=
  if s.power.cfgReady then
    .next { s with host := { s.host with events := s.host.events.filter (fun b => !value.getLsbD b) } }
  else .next s

/-- The rings of one cause register whose bit is not written as 1. -/
def clearRings (word : Nat) (value : W32) (l : List Nat) : List Nat :=
  l.filter (fun n => !(n / 32 == word && value.getLsbD (n % 32)))

/-- IRQ_SQ_ERR_CLEAR, R514: the rings' states stay. -/
def execIrqSqErrClear (word : Nat) (value : W32) (s : State) : Result :=
  if s.power.cfgReady then .next { s with host := { s.host with sqErr := clearRings word value s.host.sqErr } } else .next s

/-- IRQ_CQ_ERR_CLEAR, R514. -/
def execIrqCqErrClear (word : Nat) (value : W32) (s : State) : Result :=
  if s.power.cfgReady then .next { s with host := { s.host with cqErr := clearRings word value s.host.cqErr } } else .next s

/-- A masked write of the low half of a register, R502. -/
def maskedWrite (low w valid : Nat) : Nat :=
  let mask := bits w 31 16 &&& valid
  (low &&& (0xFFFF ^^^ mask)) ||| (bits w 15 0 &&& mask)

/-- IRQ_EVENT_EN_WRITE, R502, R514, R597: a newly set enable of a bit that reads 1 sends vector 0; a full mask resumes a halted block. -/
def irqEventEnWrite (value : W32) (s : State) : State :=
  let old := s.host.eventEn
  let new := maskedWrite old value.toNat 0x1FF
  let full := bits value.toNat 31 16 &&& 0x1FF == 0x1FF
  let s1 := parityRewritten 0 0x30004 { s with host := { s.host with eventEn := new, irqHalted := s.host.irqHalted && !full } }
  let ev := irqEvent s.host
  if (List.range 9).any (fun b => !bitOf old b && bitOf new b && bitOf ev b) then raiseEvent s1 else s1

/-- IRQ_EVENT_EN_WRITE. -/
def execIrqEventEnWrite (value : W32) (s : State) : Result :=
  if s.power.cfgReady then .next (irqEventEnWrite value s) else .next s

/-- CLK_TIME_LO_READ, R517: returns the low half of front time and latches the high half. -/
def execClkTimeLoRead (s : State) : Result :=
  if s.power.cfgReady then
    .next (emit (.regRead 0 0x41010 (BitVec.ofNat 32 s.frontTime))
      { s with host := { s.host with timeHi := BitVec.ofNat 32 (s.frontTime / 2 ^ 32) } })
  else .next (emit (.regRead 0 0x41010 0) s)

/-- TEL_SNAP: a write of GO requests a snapshot; requests before the boundary share it, R520. -/
def execTelSnap (s : State) : Result :=
  if s.power.cfgReady then .next { s with host := { s.host with snapPending := true } } else .next s

/-- A vector is unmasked: a pending one is sent, R496. -/
def unmaskVector (v : Nat) (s : State) : State :=
  let e := msixEntry s.host v
  let s1 := { s with host := { s.host with msix := kset s.host.msix v { e with masked := false } } }
  if s1.host.pba.contains v then
    emit (.msix v e.addr e.data) { s1 with host := { s1.host with pba := s1.host.pba.filter (· != v) } }
  else s1

/-- MSIX_VECTOR_UNMASK. -/
def execMsixVectorUnmask (vector : Nat) (s : State) : Result :=
  if s.power.cfgReady then .next (unmaskVector vector s) else .next s

/-- PME_STATUS_CLEAR: software clears PME_Status, PME_En or both; WAKE_N follows, R553. -/
def execPmeStatusClear (status enable : Bool) (s : State) : Result :=
  .next { s with host := { s.host with
    pmeStatus := s.host.pmeStatus && !status, pmeEn := s.host.pmeEn && !enable } }

/-- CQ_COAL_EXPIRY, R496: CQ_COAL_US after the first record not yet signalled the vector is raised. -/
def cqCoalExpiry (ring now : Nat) (s0 : State) : State :=
  let s := advance now s0
  let r := cqOf s.host ring
  if r.irqEn ∧ r.coalUs ≠ 0 ∧ r.unsignalled ≠ 0 ∧ r.firstUnsignalled + r.coalUs * 1000 ≤ now then
    raiseVector r.vector (setCq ring { r with unsignalled := 0 } s)
  else s

/-- CQ_COAL_EXPIRY. -/
def execCqCoalExpiry (ring now : Nat) (s : State) : Result := .next (cqCoalExpiry ring now s)

/-- What a failed read of host memory ends, R494, logged as HOST_READ (R591). -/
def hostReadFails (what : HostRead) (s : State) : State :=
  match what with
  | .slots ring => sqError ring 4 (logFault 0x0004 1 2 0xB000 0 0 ring 0 s)
  | .tier3 h addr =>
    match flightOf s h with
    | none => s
    | some f => abortFlight f .tierError (tierDetail 3 addr) [] (logFault 0x0004 1 1 0xB000 f.tenant f.hdr.commandId addr 3 s)
  | .image h =>
    match flightOf s h with
    | none => s
    | some f => abortFlight f .tierError 0 [] (logFault 0x0004 1 1 0xB000 f.tenant f.hdr.commandId 0 0 s)

/-- HOST_READ_COMPLETION: a good one brings its bytes to the command that asked; a failed one counts and ends its user, R494. -/
def execHostReadCompletion (what : HostRead) (good : Bool) (s : State) : Result :=
  if good then .next s
  else nextOf s (hostReadFails what { s with host := { s.host with readFails := s.host.readFails + 1 } })

/-- HOST_COMPLETION_TIMEOUT: counted in `HIF_CTO` and treated as a failed read, R494, R498. -/
def execHostCompletionTimeout (what : HostRead) (s : State) : Result :=
  nextOf s (hostReadFails what { s with host := { s.host with cto := s.host.cto + 1 } })

/-- Every ring disabled and its pages at reset, but for CQ_GEN and what the generation rule remembers, R499. -/
def resetRings (h : HostPort) : HostPort :=
  { h with
    sq := []
    cq := h.cq.map (fun p => (p.1, { CplRing.reset with gen := p.2.gen, onceEnabled := p.2.onceEnabled }))
    msix := []
    pba := []
    events := []
    sqErr := []
    cqErr := [] }

/-- Every reservation is void: every ring is disabled. -/
def voidAll (s : State) : State :=
  { s with proto := { s.proto with flights := s.proto.flights.map (fun f => { f with reserved := 0 }) } }

/-- The effects R499 gives a function-level reset; configuration space is reset where `config`. -/
def functionReset (config : Bool) (s : State) : State :=
  let s1 := voidAll { s with host := resetRings s.host }
  if config then
    { s1 with host := { s1.host with
        bar0 := 0, bar2 := 0, busMaster := false, d3hot := false, pmeStatus := false, pmeEn := false } }
  else s1

/-- A function-level reset during a boot is held until FW_READY, R539. -/
def flrOrHold (config : Bool) (s : State) : State :=
  if s.power.fwReady || !s.power.pwrgd then functionReset config s
  else { s with host := { s.host with flrHeld := true } }

/-- FUNCTION_LEVEL_RESET, R499. -/
def execFunctionLevelReset (s : State) : Result := nextOf s (flrOrHold true s)

/-- HOT_RESET: the effects of an FLR, R499. -/
def execHotReset (s : State) : Result := nextOf s (flrOrHold true s)

/-- D3HOT_ENTRY: the effects of an FLR on rings and interrupts; configuration space is kept (No_Soft_Reset 1), R499. -/
def execD3hotEntry (s : State) : Result :=
  let s1 := flrOrHold false s
  nextOf s { s1 with host := { s1.host with d3hot := true } }

/-- D0_RETURN: BAR values are kept, R499. -/
def execD0Return (s : State) : Result := .next { s with host := { s.host with d3hot := false } }

/-- The host link is down: `HIF_LINK` reads so, R512. -/
def linkDown (s : State) : State :=
  { s with host := { s.host with linkRate := 0, linkWidth := 0, linkFlit := false } }

/-- HOST_LINK_DOWN: the effects of an FLR, R499. -/
def execHostLinkDown (s : State) : Result := nextOf s (linkDown (flrOrHold true s))

/-- HOST_LINK_RETRAIN: counted; nothing else of the device changes, R483, R512. -/
def execHostLinkRetrain (s : State) : Result :=
  .next { s with host := { s.host with retrains := s.host.retrains + 1 } }

/-- HOST_LINK_TRAINED: `HIF_LINK` reports the trained rate and width; 64 and 128 GT/s are always in Flit Mode, R483, R512. -/
def execHostLinkTrained (rate width : Nat) (flit : Bool) (s : State) : Result :=
  .next { s with host := { s.host with linkRate := rate, linkWidth := width, linkFlit := flit || decide (6 ≤ rate) } }

/-- REFCLK_LOSS: `CLK_REF.REFCLK` clears and the host link goes down, R555. -/
def execRefclkLoss (s : State) : Result :=
  let s1 := linkDown (flrOrHold true s)
  nextOf s { s1 with power := { s1.power with refclk := false } }

/-- BUS_MASTER_ENABLE_WRITE: while clear every host-memory access waits, R494. -/
def execBusMasterEnableWrite (enable : Bool) (s : State) : Result :=
  .next { s with host := { s.host with busMaster := enable } }

/-- What a write to a submission configuration page stores, R489: nothing while SQ_ENABLE is 1. -/
def sqConfigWrite (ring reg : Nat) (v : Nat) (s : State) : State :=
  let r := sqOf s.host ring
  if r.enable then s
  else
    let r1 : Option SubRing :=
      if reg = 0x0 then some { r with base := BitVec.ofNat 64 (r.base.toNat / 2 ^ 32 * 2 ^ 32 + v) }
      else if reg = 0x4 then some { r with base := BitVec.ofNat 64 (r.base.toNat % 2 ^ 32 + v * 2 ^ 32) }
      else if reg = 0x8 then some { r with log2 := v % 32 }
      else if reg = 0xC then some { r with defCq := v % 4096 }
      else if reg = 0x10 then some { r with shadow := BitVec.ofNat 64 (r.shadow.toNat / 2 ^ 32 * 2 ^ 32 + v) }
      else if reg = 0x14 then some { r with shadow := BitVec.ofNat 64 (r.shadow.toNat % 2 ^ 32 + v * 2 ^ 32) }
      else none
    match r1 with
    | none => s
    | some x => setSq ring { x with rewritten := if r.halted then noteWrite reg r.rewritten else r.rewritten } s

/-- What a write to a completion configuration page stores, R489: nothing while CQ_ENABLE is 1. -/
def cqConfigWrite (ring reg : Nat) (v : Nat) (s : State) : State :=
  let r := cqOf s.host ring
  if r.enable then s
  else
    let r1 : Option CplRing :=
      if reg = 0x0 then some { r with base := BitVec.ofNat 64 (r.base.toNat / 2 ^ 32 * 2 ^ 32 + v) }
      else if reg = 0x4 then some { r with base := BitVec.ofNat 64 (r.base.toNat % 2 ^ 32 + v * 2 ^ 32) }
      else if reg = 0x8 then some { r with log2 := v % 32 }
      else if reg = 0xC then some { r with vector := v % 2048 }
      else if reg = 0x10 then some { r with coalCount := v % 65536, coalUs := v / 65536 }
      else none
    match r1 with
    | none => s
    | some x => setCq ring { x with rewritten := if r.halted then noteWrite reg r.rewritten else r.rewritten } s

/-- A write into the MSI-X table, R496: 16 bytes an entry; clearing the mask bit sends a pending vector. -/
def msixWrite (off v : Nat) (s : State) : State :=
  let n := off / 16
  let e := msixEntry s.host n
  let put := fun (x : MsixEntry) => { s with host := { s.host with msix := kset s.host.msix n x } }
  if off % 16 = 0 then put { e with addr := BitVec.ofNat 64 (e.addr.toNat / 2 ^ 32 * 2 ^ 32 + v) }
  else if off % 16 = 4 then put { e with addr := BitVec.ofNat 64 (e.addr.toNat % 2 ^ 32 + v * 2 ^ 32) }
  else if off % 16 = 8 then put { e with data := BitVec.ofNat 32 v }
  else if v % 2 = 0 then unmaskVector n s
  else put { e with masked := true }

/-- A write to a DBG peek register, R518; the three written since a halt resume the block, R597. -/
def peekRegWrite (off v : Nat) (s : State) : State :=
  let h := s.host
  let h1 :=
    if off = 0x80010 then { h with peekAddr := h.peekAddr / 2 ^ 32 * 2 ^ 32 + v / 4 * 4 }
    else if off = 0x80014 then { h with peekAddr := h.peekAddr % 2 ^ 32 + v % 65536 * 2 ^ 32 }
    else { h with autoInc := maskedWrite (b2n h.autoInc) v 1 == 1 }
  let counts := off != 0x80018 || bitOf v 16
  let done := if h.peekHalted && counts then noteWrite off h.peekRewritten else h.peekRewritten
  let all := [0x80010, 0x80014, 0x80018].all done.contains
  { s with host := { h1 with
      peekHalted := h.peekHalted && !all, peekRewritten := if h.peekHalted && !all then done else [] } }

/-- A write to a register that has no behaviour of its own, R501, R504. -/
def registerWrite (bar off : Nat) (v : Nat) (s : State) : State :=
  let s1 := parityRewritten bar off s
  if bar = 2 then
    let ring := off % 0x1000000 / 0x1000
    if off / 0x1000000 = 2 then sqConfigWrite ring (off % 0x1000) v s1
    else if off / 0x1000000 = 3 then cqConfigWrite ring (off % 0x1000) v s1
    else s
  else if off = 0x2C then { s1 with host := { s1.host with scratch := BitVec.ofNat 32 v } }
  else if 0x20000 ≤ off ∧ off < 0x28000 then msixWrite (off - 0x20000) v s
  else if off = 0x80010 ∨ off = 0x80014 ∨ off = 0x80018 then peekRegWrite off v s1
  else s

/-- REGISTER_WRITE: 4 bytes wide and aligned (R486), else ignored and counted; before CFG_READY only the MOD block answers (R504). -/
def execRegisterWrite (bar offset size : Nat) (value : W32) (s : State) : Result :=
  if size ≠ 4 ∨ offset % 4 ≠ 0 then .next (badAccess s)
  else if s.power.cfgReady ∨ (bar = 0 ∧ offset < 0x10000) then nextOf s (registerWrite bar offset value.toNat s)
  else .next s

end Sys2Proof.Machine
end

