-- ==== Sys2Proof/Machine/PowerRows.lean ====
section
/-! DEFINITION. Input, conversion, resets, boot and clamps: the events of chapter 18 and the boot of chapter 15. -/

namespace Sys2Proof.Machine

open Sys2Proof

/-- What a restart of the Akent firmware keeps of the security processor, R537: what OTP, flash and the counters hold. -/
def keepSecurity (x : Security) : Security :=
  { Security.reset with
    lifecycle := x.lifecycle
    floors := x.floors
    dir0 := x.dir0
    dir1 := x.dir1
    slotA := x.slotA
    slotB := x.slotB
    trial := x.trial
    bootCount := x.bootCount
    sessionCount := x.sessionCount
    countersInvalid := x.countersInvalid
    draws := x.draws }

/-- What a restart keeps of power and board state: the calm island's own state, R536; clocks, cap and policy return to their defaults (R537). -/
def keepPower (p : Power) : Power :=
  { p with
    cfgReady := false
    fwReady := false
    secureBootOk := false
    stage := .rom
    capW := 2600
    policy := Policy.default
    capLimit := ClockLimit.full
    thermalLimit := ClockLimit.full
    inputLimit := ClockLimit.full
    fastClamp := false
    throttleCap := false
    mhzHistory := []
    quadrants := p.quadrants.filterMap (fun q => if q.2.state = .disabled then some (q.1, q.2) else none)
    grants := []
    gated := []
    selfRefresh := false
    pendingReset := none }

/-- What an internal reset keeps of the host port: configuration space, BAR values and the link, R536. -/
def keepHostPort (h : HostPort) : HostPort :=
  { HostPort.reset with
    bar0 := h.bar0
    bar2 := h.bar2
    busMaster := h.busMaster
    d3hot := h.d3hot
    linkRate := h.linkRate
    linkWidth := h.linkWidth
    linkFlit := h.linkFlit
    pmeStatus := h.pmeStatus
    pmeEn := h.pmeEn
    cfgCycles := h.cfgCycles }

/-- The fault log across a restart: records survive, the latch is cleared where the reset starts (R593). -/
def keepFaults (clearLatch : Bool) (f : Faults) : Faults :=
  { f with
    latch := f.latch && !clearLatch
    latchSeq := if clearLatch then 0 else f.latchSeq
    isobarReport := [] }

/-- A reset that restarts the Akent firmware, R536, R537: everything the spec does not keep is as State.reset has it. -/
def restartAkent (keepConfig clearLatch : Bool) (s : State) : State :=
  { State.reset with
    pending := s.pending
    outputs := s.outputs
    freeCtr := s.freeCtr
    frontTime := s.frontTime
    timeRuns := s.timeRuns
    ticks := s.ticks
    host := if keepConfig then keepHostPort s.host else HostPort.reset
    power := keepPower s.power
    sec := keepSecurity s.sec
    faults := keepFaults clearLatch s.faults }

/-- An internal reset, R536. -/
def internalReset (s : State) : State := restartAkent true true s

/-- The shutdown of R541: the fault log and the attestation counters are written, the rails go off, the module is in STANDBY. -/
def shutdown (s : State) : State :=
  let s1 := restartAkent false false (flushFaults s)
  { s1 with power := { s1.power with conversion := false, pwrgd := false, refclk := false, inRange := false } }

/-- Main conversion starts as a power-cycle reset once its conditions hold, R521, R540: the latch and the watchdog's stop are cleared (R593, R599). -/
def startConversion (s : State) : State :=
  if s.power.calm && s.power.inRange && s.power.hvEn && !s.power.thermtrip && !s.power.conversion then
    let s1 := restartAkent false true s
    { s1 with
      power := { s1.power with conversion := true, bootRetries := 0 }
      faults := { s1.faults with watchdogResets := [], watchdogStopped := false } }
  else s

/-- RESET_DELAY_EXPIRY: DELAY_MS after MEMBER_RESET committed the reset begins, R538. -/
def resetDelayExpiry (now : Nat) (s0 : State) : State :=
  let s := advance now s0
  match s.power.pendingReset with
  | none => s0
  | some p =>
    if p.due ≤ s.frontTime then (if p.powerCycle then shutdown s else internalReset s) else s0

/-- RESET_DELAY_EXPIRY. -/
def execResetDelayExpiry (now : Nat) (s : State) : Result := nextOf s (resetDelayExpiry now s)

/-- PERST_ASSERT: a module reset, the host link down while it is asserted, R536, R539. -/
def execPerstAssert (s : State) : Result :=
  let s1 := restartAkent false true s
  nextOf s { s1 with power := { s1.power with perst := true, refclk := false } }

/-- PERST_RELEASE: configuration and boot start from power-up, R540; the host-port PLL runs while its domain does (R516, R529). -/
def execPerstRelease (s : State) : Result :=
  nextOf s { s with
    power := { s.power with perst := false, refclk := s.power.pwrgd }
    host := { s.host with cfgCycles := s.power.pwrgd } }

/-- POWER_OFF: the input falls below 300 V; the calm island is unpowered and everything volatile is lost, R521. -/
def powerOff (s : State) : State :=
  let s1 := restartAkent false true s
  { s1 with
    power := { Power.reset with
      inputUp := false
      calm := false
      hvEn := s.power.hvEn
      perst := s.power.perst
      cages := s.power.cages }
    faults := { s1.faults with queue := [], dropped := 0, droppedSev := 0, ceLast := [], history := [], watchdogResets := [], watchdogStopped := false }
    frontTime := 0
    timeRuns := false
    ticks := 0 }

/-- POWER_OFF. -/
def execPowerOff (s : State) : Result := .next (powerOff s)

/-- COLD_RESET: the input rises through 300 V; the calm island is in its own reset, R536, R543. -/
def execColdReset (vin : Nat) (s : State) : Result :=
  let s1 := powerOff s
  .next { s1 with power := { s1.power with inputUp := decide (3000 ≤ vin), vin := 0 } }

/-- CALM_ISLAND_START: the calm island leaves its reset, samples the straps once and enters STANDBY, R540, R549, R550. -/
def execCalmIslandStart (slotId : Nat) (mfgMode : Bool) (s : State) : Result :=
  if s.power.inputUp ∧ s.power.calm = false then
    nextOf s { s with power := { s.power with calm := true, xtal := true, slotId := slotId, mfgMode := mfgMode } }
  else .next s

/-- INPUT_IN_RANGE: 100 ms from 700 V to 880 V without a break; with HV_EN asserted main conversion starts, R521. -/
def execInputInRange (vin : Nat) (s : State) : Result :=
  if s.power.calm ∧ 7000 ≤ vin ∧ vin ≤ 8800 then
    nextOf s (startConversion { s with power := { s.power with inRange := true, vin := vin } })
  else .next s

/-- HV_EN_ASSERT: ignored while a junction is above 90 °C; releases a latched thermal trip, R540, R542. -/
def execHvEnAssert (tj : Nat) (s : State) : Result :=
  if s.power.hvEn ∨ 90 < tj then .next s
  else nextOf s (startConversion { s with power := { s.power with hvEn := true, thermtrip := false } })

/-- HV_EN_DEASSERT: the shutdown sequence as a power cycle, R541. -/
def execHvEnDeassert (s : State) : Result :=
  let s1 := { s with power := { s.power with hvEn := false } }
  nextOf s (if s.power.conversion then
    (let s2 := shutdown s1; { s2 with power := { s2.power with inRange := s.power.inRange } }) else s1)

/-- RAILS_IN_REGULATION: PWRGD is asserted, R540. -/
def execRailsInRegulation (s : State) : Result :=
  if s.power.conversion then
    nextOf s { s with
      power := { s.power with pwrgd := true, refclk := !s.power.perst }
      host := { s.host with cfgCycles := !s.power.perst } }
  else .next s

/-- RAIL_FAILURE: STANDBY, FAULT_N and a RAIL record, R540, R591. -/
def execRailFailure (rail : Nat) (s : State) : Result :=
  nextOf s (if s.power.conversion then shutdown (logFault 0x000D 3 6 0xD000 0 0 rail 0 s) else s)

/-- BROWN_OUT: below 640 V or above 900 V for 50 µs while main conversion runs, R541. -/
def execBrownOut (vin now : Nat) (s : State) : Result :=
  if s.power.conversion ∧ (vin < 6400 ∨ 9000 < vin) then
    nextOf s (shutdown (logFault 0x000C 3 6 0xD000 0 0 vin 0
      { advance now s with power := { s.power with vin := vin } }))
  else .next { advance now s with power := { s.power with vin := vin } }

/-- THERMAL_TRIP: rails off, THERMTRIP_N asserted and latched, a record written, R542, R544. -/
def execThermalTrip (tj _die now : Nat) (s : State) : Result :=
  if s.power.pwrgd ∧ 115 ≤ tj then
    let s1 := logFault 0x000B 3 6 0xD000 0 0 (tj * 8) 0 (advance now s)
    let s2 := shutdown { s1 with power := { s1.power with statusTemp := s1.power.statusTemp ||| 0xC0, alertAnswered := false } }
    nextOf s { s2 with power := { s2.power with thermtrip := true } }
  else .next s

/-- OSCILLATOR_LOSS: an OSC record and a power cycle, R591. -/
def execOscillatorLoss (domain : Nat) (s : State) : Result :=
  nextOf s (if s.power.conversion then shutdown (logFault 0x000E 3 6 (0xD100 + domain) 0 0 domain 0 s) else s)

/-- ENTROPY_FAIL: key generation halts until the next reset, R455. -/
def execEntropyFail (s : State) : Result :=
  nextOf s (logFault 0x0013 3 0 0xC000 0 0 0 0 { s with sec := { s.sec with entropyFailed := true } })

/-- The contents of a slot: 0 slot A, 1 slot B. -/
def slotOf (x : Security) (slot : Nat) : Memory := if slot = 0 then x.slotA else x.slotB

/-- The directory in force: the valid copy of higher GENERATION; with none, slot A first and PENDING 0, R456. -/
def dirOf (x : Security) : SlotDir :=
  match x.dir0, x.dir1 with
  | some a, some b => if b.generation ≤ a.generation then a else b
  | some a, none => a
  | none, some b => b
  | none, none => ⟨0, 0, false⟩

/-- An update of the directory rewrites the copy of lower GENERATION or an invalid one, R456. -/
def writeDir (active : Nat) (pend : Bool) (x : Security) : Security :=
  match x.dir0, x.dir1 with
  | some a, some b =>
    if b.generation ≤ a.generation then { x with dir1 := some ⟨a.generation + 1, active, pend⟩ }
    else { x with dir0 := some ⟨b.generation + 1, active, pend⟩ }
  | some a, none => { x with dir1 := some ⟨a.generation + 1, active, pend⟩ }
  | none, some b => { x with dir0 := some ⟨b.generation + 1, active, pend⟩ }
  | none, none => { x with dir0 := some ⟨1, active, pend⟩ }

/-- The bytes of image `i` of a bundle, R457. -/
def bundleImage (m : Memory) (i : Nat) : Bytes :=
  let hdr := Memory.readN m 8 24
  Memory.readN m (fld hdr (8 * i) 4) (fld hdr (8 * i + 4) 4)

/-- SVN `i` of a bundle. -/
def bundleSvn (m : Memory) (i : Nat) : Nat := leNat (Memory.readN m (32 + 2 * i) 2)

/-- BUILD of a bundle. -/
def bundleBuild (m : Memory) : Nat := leNat (Memory.readN m 40 8)

/-- The stored digest of image `i`. -/
def bundleDigest (m : Memory) (i : Nat) : Bytes := Memory.readN m (48 + 48 * i) 48

/-- A digest as 48 bytes. -/
def sha384Bytes (b : Bytes) : Bytes := sha384 b

/-- A bundle is valid, R458. -/
def bundleValid (floors : List Nat) (m : Memory) : Bool :=
  let signed := Memory.readN m 0 192
  (leNat (Memory.readN m 0 4) == 0x4C444E42)
    && (leNat (Memory.readN m 4 2) == 1)
    && ecdsaVerify (Config.firmwareKey 0) (sha384Bytes signed) (Memory.readN m 192 96)
    && Config.mldsaVerify (Config.firmwareKey 1) signed (Memory.readN m 288 4627)
    && [0, 1, 2].all (fun i => bundleDigest m i == sha384Bytes (bundleImage m i))
    && [0, 1, 2].all (fun i => decide (nth floors i ≤ bundleSvn m i))

/-- A measurement register extended with a value, R459. -/
def extendMr (mr : List (BitVec 384)) (i : Nat) (value : Bytes) : List (BitVec 384) :=
  setAt mr i (BitVec.ofNat 384 (leNat (sha384 (toLe 48 (mr.getD i 0).toNat ++ value))))

/-- The slot the ROM chooses and whether it is a trial boot, R458. -/
def chooseSlot (x : Security) (d : SlotDir) : Option (Nat × Bool) :=
  let first := if d.pending then 1 - d.active else d.active
  let try' := fun slot => if bundleValid x.floors (slotOf x slot) then some (slot, d.pending && slot != d.active) else none
  match try' first with
  | some r => some r
  | none => try' (1 - first)

/-- The measurements of a boot from a slot, R459. -/
def measureBoot (x : Security) (slot : Nat) (mfg fallback : Bool) (d : SlotDir) : List (BitVec 384) :=
  let m := slotOf x slot
  let mr0 := extendMr (List.replicate 8 0) 0 Config.romDigest
  let mr1 := extendMr mr0 1 (bundleDigest m 0)
  let mr2 := extendMr mr1 2 (bundleDigest m 1)
  let mr3 := extendMr mr2 3 (bundleDigest m 2)
  extendMr mr3 4 (toLe 1 x.lifecycle ++ toLe 1 (b2n mfg) ++ toLe 1 d.active ++ toLe 1 (b2n fallback) ++ zeros 4)

/-- Units of the disable table retested at a boot: one that passes and has fewer than three disablements is enabled again, R596. -/
def retestUnits (passed : List Nat) (s : State) : State :=
  let back := s.faults.disabled.filter (fun u => passed.contains u && decide (kgetD s.faults.table u 0 < 3))
  let s1 := { s with faults := { s.faults with disabled := s.faults.disabled.filter (fun u => !back.contains u) } }
  back.foldl (fun t u => logFault 0x0011 2 4 u 0 0 0 0 t) s1

/-- BOOT: the attestation counters advance, the ROM chooses a valid slot, measures and starts each image, or enters recovery (R458 to R460, R464). -/
def boot (passed : List Nat) (countersValid : Bool) (s : State) : State :=
  if s.power.pwrgd = false ∨ s.power.perst ∨ s.power.stage ≠ .rom ∨ s.faults.watchdogStopped then s
  else
    let x0 := s.sec
    let x1 := if countersValid then { x0 with bootCount := x0.bootCount + 1 }
      else { x0 with bootCount := 1, sessionCount := 1, countersInvalid := true }
    let fellBack := x1.trial
    let x2 := if fellBack then writeDir (dirOf x1).active false { x1 with trial := false } else x1
    let d := dirOf x2
    let s1 := retestUnits passed { s with sec := x2, power := { s.power with cfgReady := true } }
    match (if x2.lifecycle = 1 then chooseSlot x2 d else none) with
    | none =>
      logFault 0x0010 3 0 0xC000 0 0 0 0
        { s1 with
          power := { s1.power with stage := .recovery }
          sec := { s1.sec with
            running := none, fallback := fellBack
            mr := extendMr (List.replicate 8 0) 0 Config.romDigest } }
    | some (slot, trial) =>
      let m := slotOf x2 slot
      let s2 := { s1 with
        power := { s1.power with stage := .running, secureBootOk := true }
        sec := { s1.sec with
          running := some slot, trial := trial, fallback := fellBack
          svn := [bundleSvn m 0, bundleSvn m 1, bundleSvn m 2]
          build := bundleBuild m
          mr := measureBoot x2 slot s.power.mfgMode fellBack d } }
      if fellBack then logFault 0x0010 3 0 0xC000 0 0 0 0 s2 else s2

/-- BOOT. -/
def execBoot (passed : List Nat) (countersValid : Bool) (s : State) : Result := nextOf s (boot passed countersValid s)

/-- FW_READY: the front clock starts at the first one after a cold reset (R434), a trial boot completes (R458), a held FLR takes effect (R539). -/
def fwReady (now : Nat) (s0 : State) : State :=
  if s0.power.stage ≠ .running ∨ s0.power.fwReady ∨ s0.power.secureBootOk = false then s0
  else
    let s := if s0.timeRuns then advance now s0 else { s0 with timeRuns := true, frontTime := 0 }
    let x := s.sec
    let sec1 := if x.trial then writeDir (x.running.getD 0) false { x with trial := false } else x
    let s1 := { s with
      power := { s.power with fwReady := true, bootRetries := 0, readyAt := s.frontTime, idleSince := s.frontTime }
      sec := sec1
      faults := { s.faults with isobarReport := (List.range 8).map (fun c => (c, s.ticks)) } }
    if s1.host.flrHeld then
      (let s2 := functionReset true s1; { s2 with host := { s2.host with flrHeld := false } })
    else s1

/-- FW_READY. -/
def execFwReady (now : Nat) (s : State) : Result := nextOf s (fwReady now s)

/-- BOOT_TIMEOUT: FW_READY not set within 4 s; FAULT and one internal reset, a second failure stays (R540). -/
def execBootTimeout (s : State) : Result :=
  if s.power.fwReady ∨ s.power.pwrgd = false then .next s
  else if s.power.bootRetries = 0 then
    let s1 := internalReset (logFault 0x0010 3 5 0xD000 0 0 0 0 s)
    nextOf s { s1 with power := { s1.power with bootRetries := 1 } }
  else nextOf s (logFault 0x0010 3 0 0xD000 0 0 0 0 s)

/-- RECOVERY_BUNDLE_CHUNK: the ROM writes a chunk of at most 4 KiB to slot A; a valid bundle becomes ACTIVE and the module restarts, R460. -/
def execRecoveryBundleChunk (offset : Nat) (bytes : Bytes) (s : State) : Result :=
  if s.power.stage = .recovery ∧ bytes.length ≤ 4096 ∧ offset + bytes.length ≤ 0x1F80000 then
    let x := { s.sec with slotA := Memory.writeN s.sec.slotA offset bytes }
    if x.lifecycle = 1 ∧ bundleValid x.floors x.slotA = true then
      nextOf s (internalReset { s with sec := writeDir 0 false x })
    else .next { s with sec := x }
  else .next s

/-- WATCHDOG_EXPIRY: a core silent for 100 ticks; a record and an internal reset, at most three within 600 s (R599). -/
def execWatchdogExpiry (core now : Nat) (s0 : State) : Result :=
  let s := advance now s0
  if s.power.fwReady = false ∨ s.ticks < kgetD s.faults.isobarReport core 0 + 100 then .next s0
  else
    let recent := s.faults.watchdogResets.filter (fun t => decide (s.ticks < t + 600000))
    let s1 := logFault 0x000F 3 5 (0x9000 + core) 0 0 0 0 s
    if 3 ≤ recent.length then
      let s2 := restartAkent true false s1
      nextOf s0 { s2 with faults := { s2.faults with watchdogStopped := true } }
    else
      let s2 := internalReset s1
      nextOf s0 { s2 with faults := { s2.faults with watchdogResets := s.ticks :: recent } }

/-- FAST_CLAMP: every cell clock at 900 MHz, R525. -/
def execFastClamp (now : Nat) (s : State) : Result :=
  nextOf s (track 0xF 0xD000 0 0 s.power.pinPeak 0 <| bump .fastClamps 0 1
    { advance now s with power := { s.power with fastClamp := true, throttleCap := true } })

/-- FAST_CLAMP_END: the cap limit becomes the lower of its value and 900 MHz, R525. -/
def execFastClampEnd (now : Nat) (s : State) : Result :=
  let p := s.power
  nextOf s { advance now s with power := { p with
    fastClamp := false
    capLimit := if p.fastClamp then { p.capLimit with mhz := min 900 p.capLimit.mhz } else p.capLimit } }

/-- MEM_SELF_REFRESH: IDLE for DEEP_AFTER_MS with MEM_SR 1, R535. -/
def execMemSelfRefresh (now : Nat) (s0 : State) : Result :=
  let s := advance now s0
  let p := s.power
  if powerState p = 2 ∧ p.policy.memSr = 1 ∧ p.policy.deepAfterMs ≠ 0
      ∧ p.idleSince + p.policy.deepAfterMs * 1000000 ≤ s.frontTime then
    .next { s with power := { p with selfRefresh := true } }
  else .next s0

/-- PPS_EDGE: effective while PPS_ENABLE is 1; an edge not 1 s ± 1 ms after the last is ignored and counted, R556. -/
def execPpsEdge (now : Nat) (s : State) : Result :=
  if s.fabric.ppsEnable ≠ 1 then .next s
  else
    let p := s.power
    let good := match p.ppsLast with
      | none => true
      | some t => decide (t + 999000000 ≤ now) && decide (now ≤ t + 1001000000)
    if good then .next { s with power := { p with ppsLast := some now, ppsLocked := true } }
    else .next { s with power := { p with ppsBad := p.ppsBad + 1 } }

/-- PPS_LOSS: 3 s without a valid edge clears `CLK_REF.PPS`, R556. -/
def execPpsLoss (now : Nat) (s : State) : Result :=
  match s.power.ppsLast with
  | none => .next s
  | some t =>
    if t + 3000000000 ≤ now then .next { s with power := { s.power with ppsLast := none, ppsLocked := false } }
    else .next s

/-- QUADRANT_DOMAIN_FAILURE: the quadrant is DISABLED and its twelve cells are disabled at the first fault, R532, R596. -/
def execQuadrantDomainFailure (quadrant : Nat) (s : State) : Result :=
  let q := { quadrantOf s.power quadrant with state := .disabled, thawing := false }
  let s1 := track 0xE 0xD000 0 0 quadrant ((quadrantOf s.power quadrant).state.code * 256 + 3)
    { s with power := { s.power with quadrants := kset s.power.quadrants quadrant q } }
  nextOf s ((List.range 12).foldl (fun t i => disableUnit (quadrant * 12 + i) t) s1)

end Sys2Proof.Machine
end

