-- ==== Sys2Proof/Machine/BoardRows.lean ====
section
/-! DEFINITION. The board's interfaces: PMBus and SMBus (R551, R552), MCTP and SPDM (R468, R530), DOE (R482), the TAP (R473, R554), pluggables (R560). -/

namespace Sys2Proof.Machine

open Sys2Proof

/-- Round-to-nearest-even of a quotient of naturals. -/
def rneDiv (n d : Nat) : Nat :=
  let q := n / d
  let r := n % d
  if 2 * r < d then q else if d < 2 * r then q + 1 else if q % 2 = 0 then q else q + 1

/-- Y of LINEAR11 for a value `n / d` and the exponent `e − 16`, R552. -/
def linear11Y (n d e : Nat) : Nat := if e ≤ 16 then rneDiv (n * 2 ^ (16 - e)) d else rneDiv n (d * 2 ^ (e - 16))

/-- LINEAR11 of `n / d`, a value not below 0: the smallest exponent from −16 to 15 whose mantissa fits, R552. -/
def linear11 (n d : Nat) : Nat :=
  match (List.range 32).find? (fun e => decide (linear11Y n d e ≤ 1023)) with
  | some e => unsignedOf 5 ((e : Int) - 16) * 2048 + linear11Y n d e
  | none => 15 * 2048 + 1023

/-- An SMBus answer; the calm island answers whenever it runs, R530. -/
def smbusAnswer (b : Bytes) (s : State) : Result := if s.power.calm then .next (emit (.smbus b) s) else .next s

/-- STATUS_INPUT bits whose cause is present, R552: VIN_OV_FAULT 7, VIN_OV_WARN 6, VIN_UV_WARN 5, VIN_UV_FAULT 4. -/
def inputCauses (vin : Nat) : Nat :=
  128 * b2n (decide (9000 < vin)) + 64 * b2n (decide (8800 < vin)) + 32 * b2n (decide (vin < 7000)) + 16 * b2n (decide (vin < 6400))

/-- STATUS_TEMPERATURE bits whose cause is present, R552: OT_FAULT 7, OT_WARN 6. -/
def tempCauses (tj : Nat) : Nat := 128 * b2n (decide (115 ≤ tj)) + 64 * b2n (decide (100 ≤ tj))

/-- CLEAR_FAULTS: the bits whose causes have ended are cleared; ALERT_N follows, R552. -/
def execClearFaults (s : State) : Result :=
  if s.power.calm then
    let p := s.power
    .next { s with power := { p with
      statusInput := p.statusInput &&& inputCauses p.vin
      statusTemp := p.statusTemp &&& tempCauses p.tj
      cml := false } }
  else .next s

/-- STATUS_BYTE: OFF while PWRGD is low, TEMPERATURE, CML, R552. -/
def statusByte (p : Power) : Nat := 64 * b2n (!p.pwrgd) + 4 * b2n (p.statusTemp != 0) + 2 * b2n p.cml

/-- STATUS_BYTE read. -/
def execStatusByte (s : State) : Result := smbusAnswer (toLe 1 (statusByte s.power)) s

/-- STATUS_WORD read: the byte, and INPUT in bit 13, R552. -/
def execStatusWord (s : State) : Result :=
  smbusAnswer (toLe 2 (statusByte s.power + 8192 * b2n (s.power.statusInput != 0))) s

/-- STATUS_INPUT read. -/
def execStatusInput (s : State) : Result := smbusAnswer (toLe 1 s.power.statusInput) s

/-- STATUS_TEMPERATURE read. -/
def execStatusTemperature (s : State) : Result := smbusAnswer (toLe 1 s.power.statusTemp) s

/-- READ_VIN: volts in LINEAR11, from the tick's sample, R552. -/
def execReadVin (s : State) : Result := smbusAnswer (toLe 2 (linear11 s.power.vin 10)) s

/-- READ_IIN: amperes in LINEAR11. -/
def execReadIin (s : State) : Result := smbusAnswer (toLe 2 (linear11 s.power.iin 1000)) s

/-- READ_TEMPERATURE_1: the highest junction, 0x0000 if none has been measured since cold reset, R552. -/
def execReadTemperature1 (s : State) : Result :=
  smbusAnswer (toLe 2 (if s.power.tjKnown then linear11 s.power.tj 1 else 0)) s

/-- READ_PIN: `PWR_PIN.AVG` in LINEAR11. -/
def execReadPin (s : State) : Result := smbusAnswer (toLe 2 (linear11 s.power.pinAvg 1)) s

/-- PMBUS_REVISION: 0x33. -/
def execPmbusRevision (s : State) : Result := smbusAnswer [0x33] s

/-- A block read: the byte count and the bytes. -/
def smbusBlock (t : String) : Bytes := toLe 1 (ascii t).length ++ ascii t

/-- MFR_ID: "SITHIRE". -/
def execMfrId (s : State) : Result := smbusAnswer (smbusBlock "SITHIRE") s

/-- MFR_MODEL: "SXP1536-HV8-LQ". -/
def execMfrModel (s : State) : Result := smbusAnswer (smbusBlock "SXP1536-HV8-LQ") s

/-- The command codes the device answers, R552. -/
def pmbusCodes : List Nat := [0x03, 0x78, 0x79, 0x7C, 0x7D, 0x88, 0x89, 0x8D, 0x97, 0x98, 0x99, 0x9A]

/-- PMBUS_UNSUPPORTED: a NACK, and the CML bit is set, R552. -/
def execPmbusUnsupported (code : Nat) (s : State) : Result :=
  if s.power.calm ∧ pmbusCodes.contains code = false then
    .next (emit (.smbus []) { s with power := { s.power with cml := true, alertAnswered := false } })
  else .next s

/-- ALERT_RESPONSE: answered with the target's address while ALERT_N is low, which is then released, R551, R552. -/
def execAlertResponse (s : State) : Result :=
  if alertN s.power then .next s
  else .next (emit (.smbus (toLe 1 ((0x40 + s.power.slotId) * 2))) { s with power := { s.power with alertAnswered := true } })

/-- SMBUS_CLOCK_TIMEOUT: the bus is released; nothing of the device's state changes, R551. -/
def execSmbusClockTimeout (s : State) : Result := .next s

/-- MCTP_CONTROL: the calm island answers in every state in which it runs, R530. -/
def execMctpControl (request : Bytes) (s : State) : Result :=
  if s.power.calm then .next (emit (.mctp (Config.mctpAnswer request)) s) else .next s

/-- The security processor is clocked, so SPDM is answered, R468, R530. -/
def spdmUp (s : State) : Bool := s.power.pwrgd && decide (s.power.stage ≠ .rom)

/-- An SPDM response: version, response code, then its content (DSP0274). -/
def spdmReply (code : Nat) (content : Bytes) (s : State) : State := emit (.doe (toLe 1 0x12 ++ toLe 1 code ++ content)) s

/-- An SPDM ERROR response with an error code. -/
def spdmError (err : Nat) (s : State) : State := spdmReply 0x7F (toLe 1 err ++ [0]) s

/-- The stages in their order. -/
def spdmRank : SpdmStage → Nat
  | .start => 0
  | .version => 1
  | .capabilities => 2
  | .negotiated => 3

/-- An SPDM request that needs a stage: UnexpectedRequest before it, else the answer and the stage it leaves. -/
def spdmStep (need : Nat) (after : SpdmStage) (code : Nat) (content : Bytes) (s : State) : Result :=
  if !spdmUp s then .next s
  else if spdmRank s.sec.spdm < need then .next (spdmError 0x04 s)
  else .next (spdmReply code content { s with sec := { s.sec with spdm := after } })

/-- GET_VERSION: versions 1.2 and 1.3, R468; it starts the negotiation again. -/
def execGetVersion (_request : Bytes) (s : State) : Result :=
  spdmStep 0 .version 0x04 ([0, 0, 0, 2] ++ [0x00, 0x12] ++ [0x00, 0x13]) s

/-- GET_CAPABILITIES. -/
def execGetCapabilities (request : Bytes) (s : State) : Result :=
  spdmStep 1 .capabilities 0x61 (Config.spdmAnswer 0x61 request) s

/-- NEGOTIATE_ALGORITHMS: P-384 with SHA-384 only, R468. -/
def execNegotiateAlgorithms (request : Bytes) (s : State) : Result :=
  spdmStep 2 .negotiated 0x63 (Config.spdmAnswer 0x63 request) s

/-- GET_DIGESTS: slot 0 alone, the SHA-384 of its chain, R468. -/
def execGetDigests (_request : Bytes) (s : State) : Result :=
  spdmStep 3 s.sec.spdm 0x01 ([0, 1] ++ sha384Bytes Config.certChains) s

/-- GET_CERTIFICATE: the chain of slot 0 from the offset and length of the request, R468. -/
def execGetCertificate (request : Bytes) (s : State) : Result :=
  let part := slice Config.certChains (fld request 4 2) (fld request 6 2)
  spdmStep 3 s.sec.spdm 0x02
    ([0, 0] ++ toLe 2 part.length ++ toLe 2 (Config.certChains.length - (fld request 4 2) - part.length) ++ part) s

/-- CHALLENGE: signed by the alias key, R465, R468. -/
def execChallenge (request : Bytes) (s : State) : Result :=
  spdmStep 3 s.sec.spdm 0x03
    (Config.spdmAnswer 0x03 request ++ Config.deviceSign 1 (request ++ Config.spdmAnswer 0x03 request)) s

/-- One SPDM measurement block: index, specification, size, then a digest or bit stream of that type. -/
def measurementBlock (index type : Nat) (v : Bytes) : Bytes :=
  toLe 1 index ++ [1] ++ toLe 2 (v.length + 3) ++ toLe 1 type ++ toLe 2 v.length ++ v

/-- GET_MEASUREMENTS: indices 1 to 5 are MR0 to MR4, index 0xFD the three SVNs, R468; parameter 2 of the request names one or 0xFF all. -/
def execGetMeasurements (request : Bytes) (s : State) : Result :=
  let mrs := (List.range 5).map (fun i => (i + 1, measurementBlock (i + 1) 0x80 (toLe 48 (s.sec.mr.getD i 0).toNat)))
  let all := mrs ++ [(0xFD, measurementBlock 0xFD 0x87 ((s.sec.svn.map (toLe 2)).flatten))]
  let want := fld request 3 1
  let sel := if want = 0xFF then all else all.filter (fun p => p.1 == want)
  let body := (sel.map (·.2)).flatten
  let head := (if want = 0 then toLe 1 all.length else [0]) ++ [0] ++ toLe 1 sel.length ++ toLe 3 body.length
  spdmStep 3 s.sec.spdm 0x60 (head ++ body) s

/-- SPDM_UNSUPPORTED_REQUEST: ERROR UnsupportedRequest, R468. -/
def execSpdmUnsupportedRequest (request : Bytes) (s : State) : Result :=
  if spdmUp s then .next (spdmReply 0x7F ([0x07] ++ slice request 1 1) s) else .next s

/-- DOE_DISCOVERY: vendor and type at an index, and the next index: Discovery, SPDM (both of the PCI-SIG), the recovery object, R482. -/
def execDoeDiscovery (idx : Nat) (s : State) : Result :=
  if s.host.cfgCycles then
    let objs : List (Nat × Nat) := [(0x0001, 0x00), (0x0001, 0x01), (0x2A5C, 0x01)]
    match objs[idx]? with
    | some (v, t) => .next (emit (.doe (toLe 2 v ++ toLe 1 t ++ toLe 1 (if idx + 1 < 3 then idx + 1 else 0))) s)
    | none => .next (emit (.doe (toLe 2 0xFFFF ++ toLe 1 0 ++ toLe 1 0)) s)
  else .next s

/-- Load a TAP instruction and shift out what it captures; the TAP answers whenever the calm island runs, R554. -/
def tapLoad (i : TapInstr) (out : Nat) (s : State) : Result :=
  if s.power.calm then .next (emit (.tdo out) { s with power := { s.power with tap := i } }) else .next s

/-- TAP_RESET: TRST_N low holds the TAP in Test-Logic-Reset, where IDCODE is selected, R554. -/
def execTapReset (s : State) : Result :=
  if s.power.calm then .next { s with power := { s.power with tap := .idcode } } else .next s

/-- BYPASS: one bit, captured as 0; in every lifecycle and debug state, R473. -/
def execBypass (s : State) : Result := tapLoad .bypass 0 s

/-- IDCODE: 0x4153_6A5D, R12, R554. -/
def execIdcode (s : State) : Result := tapLoad .idcode Config.jtagIdcode s

/-- What boundary cells capture: the pins while PWRGD is high, 0 while it is low, R554. -/
def boundaryCapture (s : State) (pins : Nat) : Nat := if s.power.pwrgd then pins else 0

/-- SAMPLE_PRELOAD. -/
def execSamplePreload (pins : Nat) (s : State) : Result := tapLoad .samplePreload (boundaryCapture s pins) s

/-- EXTEST. -/
def execExtest (pins : Nat) (s : State) : Result := tapLoad .extest (boundaryCapture s pins) s

/-- EXTEST_PULSE, for the AC-coupled lanes. -/
def execExtestPulse (pins : Nat) (s : State) : Result := tapLoad .extestPulse (boundaryCapture s pins) s

/-- EXTEST_TRAIN, for the AC-coupled lanes. -/
def execExtestTrain (pins : Nat) (s : State) : Result := tapLoad .extestTrain (boundaryCapture s pins) s

/-- JTAG_PRIVATE: as BYPASS while debug is locked; opened by an unlock (R473), where the spec names no register or effect of one:
the instruction is loaded and what it shifts out is a free value. -/
def execJtagPrivate (code : Nat) (s : State) : Result :=
  if s.sec.debug then
    (let d := drawFree s; tapLoad .privateInstr (d.1 + code) d.2)
  else tapLoad .bypass 0 s

/-- The ports of a cage with a pluggable above 12 W stay DOWN, R560. -/
def holdDown (n : Nat) (s : State) : State :=
  setPort n { portOf s n with state := .down, width := 0 } s

/-- PLUGGABLE_INSERTION: its power class is read; above 12 W it is held in low-power mode with its ports DOWN, R560. -/
def execPluggableInsertion (cage milliwatts : Nat) (s : State) : Result :=
  let s1 := { s with power := { s.power with cages := kset s.power.cages cage milliwatts } }
  if 12000 < milliwatts then .next (holdDown (2 * cage) (holdDown (2 * cage + 1) s1)) else .next s1

end Sys2Proof.Machine
end

