-- ==== Sys2Proof/Machine/ChainOps.lean ====
section
/-! DEFINITION. Layers and fused chains, chapter 06: the layer descriptor (R181), heavy products (R99, R139, R186, R187), stage arithmetic (R193 to R200), paired operations (R204), reductions of split layers (R207), the shadow check (R106). -/

namespace Sys2Proof.Machine

open Sys2Proof

/-- Tiles of an output, R186. -/
def tileCount (m width : Nat) : Nat := ceilDiv m 128 * ceilDiv width 128

/-- The tile index of an element, R186. -/
def tileIndex (base width row col : Nat) : Nat := base + row / 128 * ceilDiv width 128 + col / 128

/-- Where a NaN was met, for the record of R109. -/
structure ChainNan where
  layer : Nat
  tile : Nat
  row : Nat
  col : Nat
  site : Nat
  stage : Nat
  operand : Nat
  fmt : Nat
  kgroup : Nat
  bits : Nat
  other : Nat

/-- What ends the computation of a layer. -/
inductive ChainStop where
  | fails (st : Status) (d : Nat)
  | nan (n : ChainNan)
  /-- a partial of another slice has not arrived -/
  | waits

/-- What a layer is computed against. -/
structure ChainEnv where
  read : Nat → Nat → Bytes
  tenant : Nat
  steers : KMap SteerSet
  numeric : Nat
  layer : Nat
  /-- B_L of R186 -/
  base : Nat
  desc : Layer
  chain : Chain
  /-- slice of this member, and the partials it has received -/
  slice : Nat
  partials : List Partial
  /-- free values for what the spec does not give, by element -/
  free : Nat → Nat
  /-- the elements, by row and column, that this member works on: in a prologue those of its slice, behind a ROOT those of its tiles, R206, R207 -/
  mine : Nat → Nat → Bool

/-- A computation over layers: results so far, or what ended it. -/
abbrev Comp := StateT LayerResult (Except ChainStop)

/-- The counts of one rounding. -/
def counted (r : Nat × NumCounts) : Comp Nat := do
  modify (fun x => { x with counts := NumCounts.add x.counts r.2 })
  pure r.1

/-- A computation of which only the value counts: it counts nothing, traps nothing and writes nothing. -/
def quietly {α : Type} (e : ChainEnv) (k : ChainEnv → Comp α) : Comp α := do
  let st ← get
  let r ← k { e with numeric := e.numeric / 2 * 2 }
  set st
  pure r

/-- Work on one element: in silence where it is not this member's. -/
def atElem {α : Type} (e : ChainEnv) (row col : Nat) (k : ChainEnv → Comp α) : Comp α := if e.mine row col then k e else quietly e k

/-- Work that is done several times over, with the same bits each time: it counts each time, R205. -/
def repeated {α : Type} (times : Nat) (k : Comp α) : Comp α := do
  let st ← get
  set { st with counts := NumCounts.zero }
  let r ← k
  modify (fun x => { x with counts := NumCounts.add st.counts (NumCounts.times times x.counts) })
  pure r

/-- The tile index of an element of the heavy product: columns of both halves belong to one tile under a SIBLING gate, R194. -/
def heavyTile (e : ChainEnv) (row col : Nat) : Nat :=
  tileIndex e.base (outWidth e.chain e.desc) row (col % outWidth e.chain e.desc)

/-- A condition that ends the command. -/
def failWhen (c : Bool) (st : Status) (d : Nat) : Comp Unit :=
  if c then throw (.fails st d) else pure ()

/-- A NaN ends the command when NaNs are trapped, R108. -/
def trapWhen (e : ChainEnv) (c : Bool) (row col site stage operand fmt kgroup bits other : Nat) : Comp Unit :=
  if c && trapsNan e.numeric then
    throw (.nan ⟨e.layer, if site = 3 then tileIndex e.base (outWidth e.chain e.desc) row col else heavyTile e row col, row % 128, col % 128, site, stage, operand, fmt, kgroup, bits, other⟩)
  else pure ()

/-- An FP32 operand widened from a format and flushed, R193. -/
def widenTo (f c : Nat) : Nat := encodeNum 0 (flushIn (decodeNum f c))

/-- Element `i` of a packed run at an address. -/
def elemIn (read : Nat → Nat → Bytes) (addr fmt i : Nat) : Nat :=
  bits (leNat (read (addr + i * fmtBits fmt / 8) (fmtBits fmt / 8 + 2))) (i * fmtBits fmt % 8 + fmtBits fmt - 1) (i * fmtBits fmt % 8)

/-- Address of an operand slot. -/
def slotAddr (e : ChainEnv) (slot : Nat) : Nat := nth e.desc.opnds slot

/-- Negation of an FP32 code. -/
def f32Neg (c : Nat) : Nat := c ^^^ f32SignBit

/-- LOG2E, K0, K1, LN2, one half, two, −∞ of R195, R200. -/
def cLog2e : Nat := 0x3FB8AA3B
def cK0 : Nat := 0x3F4C422A
def cK1 : Nat := 0x3D372713
def cLn2 : Nat := 0x3F317218
def cHalf : Nat := 0x3F000000
def cTwo : Nat := 0x40000000
def cNegInf : Nat := 0xFF800000

/-- SIGMOID of R195. -/
def sigmoidOp (x : Nat) : Comp Nat := do
  let a ← counted (f32Mul (f32Neg x) cLog2e)
  let b ← counted (f32Exp2 a)
  let c ← counted (f32Add f32One b)
  counted (f32Rcp c)

/-- TANH of R195. -/
def tanhOp (x : Nat) : Comp Nat := do
  let a ← counted (f32Mul cTwo x)
  let b ← counted (f32Mul a cLog2e)
  let c ← counted (f32Exp2 b)
  let d ← counted (f32Add c f32One)
  let r ← counted (f32Rcp d)
  let t ← counted (f32Mul cTwo r)
  counted (f32Sub f32One t)

/-- The activations of R195. -/
def actOp (mode x : Nat) : Comp Nat :=
  match mode with
  | 0 => pure (f32Max x 0)
  | 1 => do
    let x2 ← counted (f32Mul x x)
    let kx ← counted (f32Mul cK1 x)
    let p ← counted (f32Fma kx x2 x)
    let u ← counted (f32Mul cK0 p)
    let t ← tanhOp u
    let o ← counted (f32Add f32One t)
    let h ← counted (f32Mul cHalf x)
    counted (f32Mul h o)
  | 2 => do
    let g ← sigmoidOp x
    counted (f32Mul x g)
  | 3 => sigmoidOp x
  | 4 => tanhOp x
  | _ => do
    let a ← counted (f32Mul x cLog2e)
    counted (f32Exp2 a)

/-- The elements of a stored row of one operand as streamed into the array, R123, R182: padded to whole groups. -/
def plainRow (read : Nat → Nat → Bytes) (addr scl stride fmt scheme k r : Nat) : List StreamElem :=
  let sch := schemeOf scheme
  let h := schemeBytes sch
  ((List.range (ceilDiv k 32 * 32)).map (fun i =>
    if k ≤ i then ⟨0, .fin false 0 0, fmt⟩
    else
      let c := elemIn read (addr + r * stride) fmt i
      let hdr := leNat (read (scl + r * headerRow k scheme + i / 32 * h) h)
      ⟨c, scaledNum sch fmt hdr (i % 32) c, fmt⟩))

/-- One block of 32 FP32 codes quantised to a format and scheme: element codes and header, R86; rounded alone for scheme 0, R89. -/
def quantBlock32 (fmt scheme : Nat) (mode : RoundMode) (sat : Bool) (draws : List Nat) (xs : List Nat) : Comp (List Nat × Nat) := do
  if scheme = 0 then
    let cs ← (xs.zipIdx).mapM (fun p =>
      let r := roundTo fmt mode sat false (nth draws p.2) (fp32In p.1)
      counted (encodeNum fmt r.1, r.2))
    pure (cs, 0)
  else
    let pad := xs ++ List.replicate (32 - xs.length) 0
    let q := quantiseBlock fmt (schemeOf scheme) mode sat draws (pad.map (decodeNum 0))
    let _ ← counted (0, q.counts)
    pure (q.codes.take xs.length, leNat (blockHeader (schemeOf scheme) q))

/-- The blocks of 32 of a list. -/
def blocks32 : Nat → List Nat → List (List Nat)
  | 0, _ => []
  | fuel + 1, l => if l.isEmpty then [] else l.take 32 :: blocks32 fuel (l.drop 32)

/-- A row of FP32 codes quantised to an array operand, R196, R204: RNE, SAT 0; only the blocks that are this member's count. -/
def quantRow (fmt scheme : Nat) (counts : Nat → Bool) (xs : List Nat) : Comp (List StreamElem) := do
  let bs ← ((blocks32 xs.length xs).zipIdx).mapM (fun b => do
    let st ← get
    let r ← quantBlock32 fmt scheme .rne false [] b.1
    if counts b.2 then pure r
    else
      set st
      pure r)
  let l := bs.flatMap (fun b => (b.1.zipIdx).map (fun p => (⟨p.1, scaledNum (schemeOf scheme) fmt b.2 p.2 p.1, fmt⟩ : StreamElem)))
  pure (l ++ List.replicate ((32 - l.length % 32) % 32) ⟨0, .fin false 0 0, fmt⟩)

/-- A second operand of a stage: its format, its bits as stored, its FP32 value. -/
structure StageOperand where
  fmt : Nat
  raw : Nat
  val : Nat

/-- A stored element as a stage's operand. -/
def storedOperand (fmt raw : Nat) : StageOperand := ⟨fmt, raw, widenTo fmt raw⟩

/-- The scalar or vector operand of SCALE and BIAS at an element, R194. -/
def vecOperand (e : ChainEnv) (st : ChainStage) (row col : Nat) : StageOperand :=
  if st.mode = 0 then ⟨0, st.param0, encodeNum 0 (fp32In st.param0)⟩
  else storedOperand st.fmt (elemIn e.read (slotAddr e st.opndA) st.fmt (if st.mode = 1 then col else row))

/-- The element of a tensor operand of GATE and RESID, R194. -/
def tensorOperand (e : ChainEnv) (st : ChainStage) (row col : Nat) : StageOperand :=
  storedOperand st.fmt (elemIn e.read (slotAddr e st.opndA + row * st.param0) st.fmt col)

/-- A binary operation of a stage at an element with its NaN checks: the second operand under its code and format with its own bits, then the result, R109, R193. -/
def binStage (e0 : ChainEnv) (site : Nat) (st : ChainStage) (operand row col : Nat) (op : Nat → Nat → Nat × NumCounts) (x : Nat) (y : StageOperand) :
    Comp Nat :=
  atElem e0 row col (fun e => do
    trapWhen e (f32IsNan y.val) row col site st.code operand y.fmt 0xFFFFFFFF y.raw x
    let r ← counted (op x y.val)
    trapWhen e (f32IsNan r) row col site st.code 5 0 0xFFFFFFFF r y.raw
    pure r)

/-- W of R197: the width of the steering basis. -/
def steerWidth (e : ChainEnv) (site : Nat) : Nat := if site = 3 then e.desc.k else outWidth e.chain e.desc

/-- The steering vector of one column, R197; the basis has none for the columns beyond its width that a stage before a SIBLING gate sees (a free value, log entry 73). -/
def steerDelta (e : ChainEnv) (st : ChainStage) (width : Nat) (x : SteerSet) (col : Nat) : Comp Nat := do
  if width ≤ col then pure (e.free ((1 + st.opndB) * 2 ^ 40 + col) % 2 ^ 32)
  else
    let c := (List.range 64).map (fun i => fp32In (widenTo 1 (fld x.coeffs (st.param0 * 128 + 2 * i) 2)))
    let u := (List.range 64).map (fun i => fp32In (widenTo 1 (leNat (e.read (slotAddr e st.opndB + (i * width + col) * 2) 2))))
    let d ← counted (fp32Out (groupSum ((c.zip u).map (fun p => numMul p.1 p.2))))
    counted (f32Mul x.gain d)

/-- The steering-set index of a row. -/
def steerIndex (e : ChainEnv) (st : ChainStage) (row : Nat) : Nat := leNat (e.read (slotAddr e st.opndA + 4 * row) 4)

/-- STEER over a row, R197; the vector of a set is computed, and counts, once, at the first row that names it. An index that names no set is an identifier of R61. -/
def steerRow (e : ChainEnv) (site : Nat) (st : ChainStage) (row : Nat) (xs : List Nat) : Comp (List Nat) := do
  let idx := steerIndex e st row
  if idx = 0xFFFFFFFF then pure xs
  else match kget e.steers idx with
    | none => throw (.fails (if e.tenant = 0 then .outOfRange else .notPermitted) 0)
    | some x => do
      failWhen (x.tenant != e.tenant) .notPermitted 0
      failWhen (decide (x.layers ≤ st.param0)) .outOfRange 0
      let fresh := (List.range row).all (fun r => steerIndex e st r != idx)
      (xs.zipIdx).mapM (fun p => do
        let d ← if fresh && e.mine row p.2 then steerDelta e st (steerWidth e site) x p.2
          else quietly e (fun q => steerDelta q st (steerWidth e site) x p.2)
        binStage e site st 3 row p.2 f32Add p.1 ⟨0, d, d⟩)

/-- A bit of a BIN tensor. -/
def binBit (e : ChainEnv) (slot stride row col : Nat) : Bool :=
  bitOf (leNat (e.read (slotAddr e slot + row * stride + col / 8) 1)) (col % 8)

/-- The pairs of one row for ROPE, R196: the column of the partner and whether it is the first of the pair, and the pair index. -/
def ropeRow (e : ChainEnv) (st : ChainStage) (row : Nat) (xs : List Nat) : Comp (List Nat) := do
  let h := st.param0 % 65536
  let rot := st.param0 / 65536
  let pos := leNat (e.read (slotAddr e st.opndB + 4 * row) 4)
  failWhen (decide (st.param1 ≤ pos)) .outOfRange 0
  let cs := fun (i j : Nat) => widenTo 0 (leNat (e.read (slotAddr e st.opndA + ((pos * (rot / 2) + i) * 2 + j) * 4) 4))
  (xs.zipIdx).mapM (fun p => do
    let head := p.2 / h * h
    let c := p.2 % h
    let first := if st.mode = 0 then c % 2 == 0 else decide (c < h / 2)
    let i := if st.mode = 0 then c / 2 else c % (h / 2)
    if rot / 2 ≤ i then pure p.1
    else
      let other := nth xs (head + (if st.mode = 0 then (if first then c + 1 else c - 1) else (if first then i + h / 2 else i)))
      let co := cs i 0
      let si := cs i 1
      atElem e row p.2 (fun e => do
        trapWhen e (f32IsNan co || f32IsNan si) row p.2 3 st.code 3 0 0xFFFFFFFF (if f32IsNan co then co else si) p.1
        let t ← counted (f32Mul other si)
        let r ← counted (f32Fma p.1 co (if first then f32Neg t else t))
        trapWhen e (f32IsNan r) row p.2 3 st.code 5 0 0xFFFFFFFF r p.1
        pure r))

/-- One prologue stage over a stored row, R196. A NaN's record carries the stored row and the K position as its indices, and a scaled value that DEQUANT brings below 2^−126 is flushed as an input, uncounted (log entry 67). -/
def proStage (e : ChainEnv) (side : Nat) (st : ChainStage) (row : Nat) (xs : List Nat) : Comp (List Nat) :=
  match st.code with
  | 0x11 =>
    let sch := schemeOf st.scheme
    let hb := schemeBytes sch
    let (addr, stride) := if side = 0 then (e.desc.aAddr, e.desc.aStride) else (e.desc.bAddr, e.desc.bStride)
    (List.range e.desc.k).mapM (fun i => atElem e row i (fun e => do
      let c := elemIn e.read (addr + row * stride) st.fmt i
      let hdr := leNat (e.read (slotAddr e st.opndA + row * headerRow e.desc.k st.scheme + i / 32 * hb) hb)
      let v := scaledNum sch st.fmt hdr (i % 32) c
      let own := numIsNan (decodeNum st.fmt c)
      trapWhen e (numIsNan v) row i 3 st.code (if own then side else 4) st.fmt 0xFFFFFFFF c (if own then 0 else hdr)
      let o := fp32Out (flushIn v)
      pure o.1))
  | 0x12 => (xs.zipIdx).mapM (fun p => binStage e 3 st 4 row p.2 f32Mul p.1 (vecOperand e st row p.2))
  | 0x13 => steerRow e 3 st row xs
  | 0x14 => ropeRow e st row xs
  | _ => pure ((xs.zipIdx).map (fun p => if binBit e st.opndA st.param0 row p.2 then p.1 else 0))

/-- The K-groups of a slice: first and one past the last, R206. -/
def sliceGroups (k count j : Nat) : Nat × Nat :=
  let ng := ceilDiv k 32
  (j * ng / count, (j + 1) * ng / count)

/-- A K-group belongs to this member's slice. -/
def groupHere (e : ChainEnv) (g : Nat) : Bool :=
  let (g0, g1) := sliceGroups e.desc.k (max 1 e.desc.group.length) e.slice
  decide (g0 ≤ g) && decide (g < g1)

/-- A stored row of an operand as the array takes it, through the prologue where one applies, to this member's slice of it, R196, R206. -/
def operandRow (e : ChainEnv) (side r : Nat) : Comp (List StreamElem) := do
  let d := e.desc
  if e.chain.proSide = side ∧ !e.chain.prologue.isEmpty then
    let p := { e with mine := fun _ col => groupHere e (col / 32) }
    let xs ← e.chain.prologue.foldlM (fun xs st => proStage p side st r xs) []
    if side = 0 then quantRow d.afmt d.abs (groupHere e) xs else quantRow d.bfmt d.bbs (groupHere e) xs
  else if side = 0 then pure (plainRow e.read d.aAddr d.aScl d.aStride d.afmt d.abs d.k r)
  else pure (plainRow e.read d.bAddr d.bScl d.bStride d.bfmt d.bbs d.k r)

/-- Group `g` of a row. -/
def rowGroup (l : List StreamElem) (g : Nat) : List StreamElem := (l.drop (32 * g)).take 32

/-- NaNs among the elements of an operand as it is loaded: SITE 0. -/
def loadNans (e : ChainEnv) (operand row col g : Nat) (l : List StreamElem) : Comp Unit :=
  match l.find? (fun x => numIsNan x.val) with
  | none => pure ()
  | some x =>
    let own := fmtHasNan x.fmt && numIsNan (decodeNum x.fmt x.code)
    trapWhen e true row col 0 0 (if own then operand else 4) x.fmt g x.code 0

/-- One group sum enters an element's accumulators (one, or eight in skinny mode by group index), R99, R127. -/
def accumGroup (e : ChainEnv) (row col i g : Nat) (a b : List StreamElem) (parts : List Nat) : Comp (List Nat) := do
  loadNans e 0 row col g a
  loadNans e 1 row col g b
  let sg := dotGroup a b
  trapWhen e (numIsNan sg) row col 1 0 5 0 g f32Nan 0
  let at' := i % parts.length
  let r ← counted (accumulate (nth parts at') sg)
  trapWhen e (f32IsNan r) row col 2 0 5 0 g r (nth parts at')
  pure (setAt parts at' r)

/-- An output tile runs in skinny mode, R139: by its row count and K alone. -/
def skinnyTile (m k row : Nat) : Bool := decide (min 128 (m - row / 128 * 128) ≤ 16) && decide (32 < k)

/-- The accumulators of an element before its first group. -/
def freshParts (skinny : Bool) : List Nat := if skinny then List.replicate 8 0 else [0]

/-- The value of an element's accumulators, R101. -/
def joinParts (e : ChainEnv) (row col : Nat) (parts : List Nat) : Comp Nat := do
  if parts.length = 8 then
    let r ← counted (pairTree f32Add 3 parts)
    trapWhen e (f32IsNan r) row col 2 0 5 0 0xFFFFFFFF r 0
    pure r
  else pure (nth parts 0)

/-- Column `n` of B with its outlier channels, R104. -/
def outlierRow (o : Outliers) (n : Nat) (col : List StreamElem) : List StreamElem :=
  (col.zipIdx).map (fun p =>
    match o.rows.find? (fun r => r.1 == p.2) with
    | some r => ⟨nth r.2.2 n, scaledNum .mx o.fmt r.2.1 0 (nth r.2.2 n), o.fmt⟩
    | none => p.1)

/-- The outlier section of a layer. -/
def layerOutliers (e : ChainEnv) : Outliers :=
  if e.desc.outlier = 0 then Outliers.none
  else match readOutliers e.read e.desc.outlier e.desc.n e.desc.k with
    | .ok o => o
    | .error _ => Outliers.none

/-- One element of the heavy product over the groups of a slice, R187, R207. -/
def heavyElem (e : ChainEnv) (a b : List StreamElem) (row col : Nat) : Comp Nat := do
  let (g0, g1) := sliceGroups e.desc.k (max 1 e.desc.group.length) e.slice
  let parts ← (List.range (g1 - g0)).foldlM
    (fun ps i => accumGroup e row col i (g0 + i) (rowGroup a (g0 + i)) (rowGroup b (g0 + i)) ps)
    (freshParts (skinnyTile e.desc.m e.desc.k row))
  joinParts e row col parts

/-- Codes of TERN 10 that the tiles of a layer read in a slice: rows of A once a tile column, rows of B once a tile row, R81. -/
def ternCount (e : ChainEnv) (as bs : List (List StreamElem)) : Comp Unit := do
  let (g0, g1) := sliceGroups e.desc.k (max 1 e.desc.group.length) e.slice
  let part := fun (l : List StreamElem) => (l.drop (32 * g0)).take (32 * (g1 - g0))
  let n := listSum (as.map (fun l => ternReads (part l))) * ceilDiv e.desc.n 128
    + listSum (bs.map (fun l => ternReads (part l))) * ceilDiv e.desc.m 128
  let _ ← counted (0, ⟨0, 0, 0, 0, n⟩)

/-- The heavy product of a layer: rows of FP32 codes. -/
def heavyRows (e : ChainEnv) (as bs : List (List StreamElem)) : Comp (List (List Nat)) :=
  (as.zipIdx).mapM (fun a => (bs.zipIdx).mapM (fun b => heavyElem e a.1 b.1 a.2 b.2))

/-- The pieces of 128 of a row. -/
def tilesOf : Nat → List Nat → List (List Nat)
  | 0, _ => []
  | fuel + 1, l => if l.isEmpty then [] else l.take 128 :: tilesOf fuel (l.drop 128)

/-- A tile row reduced by the seven-level tree, padded, R198. -/
def tileTree (op : Nat → Nat → Nat × NumCounts) (pad : Nat) (l : List Nat) : Comp Nat :=
  counted (reduceLanes op (l ++ List.replicate (128 - l.length) pad))

/-- rowsum of R198. -/
def rowSum (l : List Nat) : Comp Nat :=
  (tilesOf l.length l).foldlM (fun acc t => do
    let v ← tileTree f32Add 0 t
    counted (f32Add acc v)) 0

/-- rowmax of R198. -/
def rowMax (l : List Nat) : Comp Nat :=
  (tilesOf l.length l).foldlM (fun acc t => do
    let v ← tileTree maxCounted cNegInf t
    pure (f32Max acc v)) cNegInf

/-- e2 of R200: exp2((t − m) × LOG2E). -/
def e2Op (m t : Nat) : Comp Nat := do
  let d ← counted (f32Sub t m)
  let p ← counted (f32Mul d cLog2e)
  counted (f32Exp2 p)

/-- SOFTMAX over a row, R200. -/
def softmaxRow (l : List Nat) : Comp (List Nat) := do
  let m ← rowMax l
  if m = cNegInf then pure (l.map (fun _ => 0))
  else
    let es ← l.mapM (e2Op m)
    let t ← rowSum es
    es.mapM (fun v => counted (f32Div v t))

/-- LOGSUMEXP over the tiles of a row in ascending order, R200. -/
def logsumexpRow (l : List Nat) : Comp Nat := do
  let (m, t) ← (tilesOf l.length l).foldlM (fun (acc : Nat × Nat) tile => do
    let r ← tileTree maxCounted cNegInf tile
    let mn := f32Max acc.1 r
    if mn = cNegInf then pure acc
    else
      let f ← e2Op mn acc.1
      let es ← tile.mapM (e2Op mn)
      let sm ← tileTree f32Add 0 es
      let a ← counted (f32Mul acc.2 f)
      let n ← counted (f32Add a sm)
      pure (mn, n)) (cNegInf, 0)
  if m = cNegInf then pure cNegInf
  else
    let g ← counted (f32Log2 t)
    let p ← counted (f32Mul g cLn2)
    counted (f32Add m p)

/-- A width as FP32. -/
def widthF32 (n : Nat) : Nat := encodeNum 0 (.fin false n 0)

/-- A vector operand of ROWFN at a column, if it has one. -/
def rowVec (e : ChainEnv) (st : ChainStage) (slot col : Nat) : Option Nat :=
  if slot = 0xFF then none else some (widenTo st.fmt (elemIn e.read (slotAddr e slot) st.fmt col))

/-- An optional product or sum. -/
def optOp (op : Nat → Nat → Nat × NumCounts) (x : Nat) : Option Nat → Comp Nat
  | none => pure x
  | some y => counted (op x y)

/-- LAYERNORM and RMSNORM over a row, R200. -/
def normRow (e : ChainEnv) (st : ChainStage) (l : List Nat) : Comp (List Nat) := do
  let n := widthF32 l.length
  let eps := encodeNum 0 (fp32In st.param0)
  let ds ← if st.mode = 2 then do
      let t ← rowSum l
      let mu ← counted (f32Div t n)
      l.mapM (fun v => counted (f32Sub v mu))
    else pure l
  let sq ← ds.mapM (fun v => counted (f32Mul v v))
  let t ← rowSum sq
  let q ← counted (f32Div t n)
  let q' ← counted (f32Add q eps)
  let r ← counted (f32Rsq q')
  (ds.zipIdx).mapM (fun p => do
    let a ← counted (f32Mul p.1 r)
    let b ← optOp f32Mul a (rowVec e st st.opndA p.2)
    if st.mode = 2 then optOp f32Add b (rowVec e st st.opndB p.2) else pure b)

/-- A NaN that a row function has made. -/
def rowNans (e : ChainEnv) (st : ChainStage) (row : Nat) (l : List Nat) : Comp Unit :=
  (l.zipIdx).forM (fun p => trapWhen e (f32IsNan p.1 && e.mine row p.2) row p.2 4 st.code 5 0 0xFFFFFFFF p.1 0)

/-- The draws of SR of one row: lane of each column in its tile, reseeded at the tile's start, one draw a row, R90, R91. -/
def rowDraws (e : ChainEnv) (width row n : Nat) : List Nat :=
  let seed := e.numeric / 2 ^ 32
  (List.range n).map (fun c =>
    let lane := tileIndex e.base width row c % 2 ^ 25 * 128 + c % 128
    drawOf (stepsFrom (laneSeed seed lane) (row % 128 + 1)))
where
  stepsFrom (x : W32) : Nat → W32
    | 0 => x
    | k + 1 => stepsFrom (xorshift x) k

/-- The rounding mode of QUANT, R190: 3 takes the numeric control word's. -/
def quantMode (e : ChainEnv) (rnd : Nat) : RoundMode := roundModeOf (if rnd = 3 then bits e.numeric 3 2 else rnd)

/-- Draws of a rounding mode: none but for SR. -/
def modeDraws (e : ChainEnv) (mode : RoundMode) (width row n : Nat) : List Nat :=
  if mode = .sr then rowDraws e width row n else []

/-- The bytes of a row as written, its block headers, and its values behind that rounding: QUANT's, or OUT_FMT rounded once, R193, R194. -/
def outputRow (e : ChainEnv) (quant : Option ChainStage) (row : Nat) (xs : List Nat) : Comp (Bytes × Bytes × List Nat) := do
  let width := outWidth e.chain e.desc
  match quant with
  | none =>
    let mode := quantMode e 3
    let ds := modeDraws e mode width row xs.length
    if e.desc.outFmt = 0 then pure (packElems 32 xs, [], xs)
    else
      let cs ← (xs.zipIdx).mapM (fun p => atElem e row p.2 (fun e => do
        let r := roundTo e.desc.outFmt mode false false (nth ds p.2) (fp32In p.1)
        trapWhen e (f32IsNan p.1) row p.2 5 0 5 0 0xFFFFFFFF p.1 0
        counted (encodeNum e.desc.outFmt r.1, r.2)))
      pure (packElems (fmtBits e.desc.outFmt) cs, [], cs.map (widenTo e.desc.outFmt))
  | some q =>
    let mode := quantMode e q.rnd
    let ds := modeDraws e mode width row xs.length
    (xs.zipIdx).forM (fun p => trapWhen e (f32IsNan p.1 && e.mine row p.2) row p.2 5 0 5 0 0xFFFFFFFF p.1 0)
    let bs ← ((blocks32 xs.length xs).zipIdx).mapM (fun b => atElem e row (32 * b.2) (fun _ =>
      quantBlock32 q.fmt q.scheme mode (bitOf q.mode 0) ((ds.drop (32 * b.2)).take 32) b.1))
    let sch := schemeOf q.scheme
    pure (packElems (fmtBits q.fmt) (bs.flatMap (·.1)), bs.flatMap (fun b => toLe (schemeBytes sch) b.2),
      bs.flatMap (fun b => (b.1.zipIdx).map (fun p => encodeNum 0 (flushIn (scaledNum sch q.fmt b.2 p.2 p.1)))))

/-- One epilogue stage over a row of FP32 codes, R194; QUANT and SEND are placed by the caller. -/
def epiRow (e : ChainEnv) (st : ChainStage) (row : Nat) (xs : List Nat) : Comp (List Nat) :=
  match st.code with
  | 0x01 => (xs.zipIdx).mapM (fun p => binStage e 4 st 4 row p.2 f32Mul p.1 (vecOperand e st row p.2))
  | 0x02 => (xs.zipIdx).mapM (fun p => binStage e 4 st 3 row p.2 f32Add p.1 (vecOperand e st row p.2))
  | 0x03 => (xs.zipIdx).mapM (fun p => atElem e row p.2 (fun e => do
      if bitOf st.mode 7 ∧ e.desc.n / 2 ≤ p.2 then pure p.1
      else
        let r ← actOp (st.mode % 128) p.1
        trapWhen e (f32IsNan r) row p.2 4 st.code 5 0 0xFFFFFFFF r p.1
        pure r))
  | 0x04 =>
    if st.mode = 0 then
      (xs.zipIdx).mapM (fun p => binStage e 4 st 3 row p.2 f32Mul p.1 (tensorOperand e st row p.2))
    else
      ((xs.take (xs.length / 2)).zipIdx).mapM (fun p =>
        let g := nth xs (p.2 + xs.length / 2)
        binStage e 4 st 3 row p.2 f32Mul p.1 ⟨0, g, g⟩)
  | 0x05 => (xs.zipIdx).mapM (fun p => binStage e 4 st 3 row p.2 f32Add p.1 (tensorOperand e st row p.2))
  | 0x06 => steerRow e 4 st row xs
  | 0x07 => (if (List.range xs.length).any (e.mine row) then id else fun k => quietly e (fun _ => k)) do
    if st.mode = 1 then
      let v ← logsumexpRow xs
      rowNans e st row [v]
      modify (fun x => { x with runs := x.runs ++ [(slotAddr e st.opndA + 4 * row, toLe 4 v)] })
      pure xs
    else
      let ys ← if st.mode = 0 then softmaxRow xs else normRow e st xs
      rowNans e st row ys
      pure ys
  | 0x0A => do
    modify (fun x => { x with gauges := x.gauges ++ ((xs.zipIdx).filter (fun p => e.mine row p.2)).map (fun p => (st.param0, row, p.2, p.1)) })
    pure xs
  | 0x0B => pure ((xs.zipIdx).map (fun p =>
      let causal := st.mode != 1 && decide ((row : Int) + signedOf 32 st.param0 < (p.2 : Int))
      let masked := st.mode != 0 && !binBit e st.opndA st.param1 row p.2
      if causal || masked then cNegInf else p.1))
  | 0x0C => pure (xs.map (fun x => f32Min (f32Max x st.param0) st.param1))
  | _ => pure xs

/-- The stages of an epilogue before and after a code. -/
def stagesBefore (code : Nat) (l : List ChainStage) : List ChainStage := l.takeWhile (fun st => st.code != code)
def stagesAfter (code : Nat) (l : List ChainStage) : List ChainStage := (l.dropWhile (fun st => st.code != code)).drop 1

/-- A row through a list of stages, and written: the FP32 row that entered QUANT or the final rounding is returned. GAUGE behind QUANT sees the quantised values. -/
def finishRow (e : ChainEnv) (stages : List ChainStage) (row : Nat) (keep : Nat → Bool) (xs : List Nat) : Comp (List Nat) := do
  let ys ← (stagesBefore 8 stages).foldlM (fun xs st => epiRow e st row xs) xs
  let (b, h, vs) ← outputRow e (stages.find? (fun st => st.code == 8)) row ys
  let _ ← (stagesAfter 8 stages).foldlM (fun xs st => epiRow e st row xs) vs
  let d := e.desc
  let (f, sch) := outFormat e.chain d
  let out := (tilesOf ys.length ys).zipIdx
  let whole := out.all (fun t => keep t.2)
  let pieces := if whole then [(d.outAddr + row * d.outStride, b)]
    else out.filterMap (fun t => if keep t.2 then some (d.outAddr + row * d.outStride + t.2 * 16 * fmtBits f, slice b (t.2 * 16 * fmtBits f) (rowBytesOf t.1.length f)) else none)
  let hb := schemeBytes (schemeOf sch)
  let heads := if hb = 0 then []
    else if whole then [(d.outScl + row * headerRow ys.length sch, h)]
    else out.filterMap (fun t => if keep t.2 then some (d.outScl + row * headerRow ys.length sch + t.2 * 4 * hb, slice h (t.2 * 4 * hb) (ceilDiv t.1.length 32 * hb)) else none)
  modify (fun x => { x with runs := x.runs ++ pieces ++ heads })
  pure ys

/-- The partial of a slice at an element: this member's own, or one received, R207. -/
def partialAt (e : ChainEnv) (own : List (List Nat)) (slice row col : Nat) : Option Nat :=
  if slice = e.slice then some (nth (own.getD row []) col)
  else
    let w := outWidth e.chain e.desc
    (e.partials.find? (fun p => p.layer == e.layer && p.tile == heavyTile e row col && p.half == col / w && p.slice == slice)).map
      (fun p => nth p.data (row % 128 * p.cols + col % w % 128))

/-- An element reduced over the slices in their order, R207. -/
def reduceElem (e : ChainEnv) (own : List (List Nat)) (row col : Nat) : Comp Nat := do
  let ps ← (List.range e.desc.group.length).mapM (fun j =>
    match partialAt e own j row col with
    | some v => pure v
    | none => throw .waits)
  (ps.drop 1).foldlM (fun acc v => do
    let r ← counted (f32Add acc v)
    trapWhen e (f32IsNan r) row col 4 9 5 0 0xFFFFFFFF r acc
    pure r) (nth ps 0)

/-- The root of a tile in ROOT mode is this member, R207. -/
def rootHere (e : ChainEnv) (tile : Nat) : Bool := tile % (max 1 e.desc.group.length) == e.slice

/-- A split layer behind its SEND: with ROOT this member works on the tiles it is the root of, R207. -/
def afterSend (e : ChainEnv) (send : ChainStage) : ChainEnv :=
  { e with mine := fun row col => send.mode == 0 || rootHere e (heavyTile e row col) }

/-- The rows of a split layer after SEND: reduced where this member reduces; the others are no part of what it works on, and what a row function over a whole row would
take of them is a free value (log entry 73). -/
def reducedRows (e : ChainEnv) (own : List (List Nat)) : Comp (List (List Nat)) :=
  (own.zipIdx).mapM (fun r => (r.1.zipIdx).mapM (fun c =>
    if e.mine r.2 c.2 then reduceElem e own r.2 c.2 else pure (e.free (r.2 * 2 ^ 20 + c.2) % 2 ^ 32)))

/-- The elements of both operands of a layer: A by row, B by stored row with its outliers. -/
def layerOperands (e : ChainEnv) : Comp (List (List StreamElem) × List (List StreamElem)) := do
  let as ← (List.range e.desc.m).mapM (operandRow e 0)
  let bs ← (List.range e.desc.n).mapM (operandRow e 1)
  let o := layerOutliers e
  let bs' := (bs.zipIdx).map (fun p => outlierRow o p.2 p.1)
  ternCount e as bs'
  pure (as, bs')

/-- This member's own partial, or the whole heavy product, of a layer; stages before SEND are GAUGE alone, R206. -/
def ownHeavy (e : ChainEnv) : Comp (List (List Nat)) := do
  let (as, bs) ← layerOperands e
  heavyRows e as bs

/-- A layer alone: the FP32 rows that entered its final rounding. -/
def runLayer (e : ChainEnv) : Comp (List (List Nat)) := do
  let own ← ownHeavy e
  match e.chain.epilogue.find? (fun st => st.code == 9) with
  | none => (own.zipIdx).mapM (fun r => finishRow e e.chain.epilogue r.2 (fun _ => true) r.1)
  | some send =>
    let _ ← (own.zipIdx).mapM (fun r => (stagesBefore 9 e.chain.epilogue).foldlM (fun xs st => epiRow e st r.2 xs) r.1)
    let b := afterSend e send
    let rows ← reducedRows b own
    (rows.zipIdx).mapM (fun r => finishRow b (stagesAfter 9 e.chain.epilogue) r.2 (fun j => b.mine r.2 (128 * j)) r.1)

/-- What the softmax of a paired operation makes of one key block of a row. -/
structure KeyBlock where
  max : Nat
  factor : Nat
  sum : Nat
  probs : List StreamElem

/-- The softmax over one key block of a row, R204, with its NaN checks: SITE 4 and the code of ROWFN, R193. -/
def softmaxBlock (e0 e1 : ChainEnv) (row b : Nat) (s : List Nat) (m l : Nat) : Comp KeyBlock := do
  let nan := fun c v => trapWhen e0 (f32IsNan v) row (128 * b + c) 4 7 5 0 0xFFFFFFFF v 0
  let r ← tileTree maxCounted cNegInf s
  let mn := f32Max m r
  let f ← if mn = cNegInf then pure f32One else e2Op mn m
  nan 0 f
  let ps ← s.mapM (fun v => if mn = cNegInf then pure 0 else e2Op mn v)
  (ps.zipIdx).forM (fun p => nan p.2 p.1)
  let sm ← tileTree f32Add 0 ps
  let a ← counted (f32Mul l f)
  let l1 ← counted (f32Add a sm)
  nan 0 l1
  modify (fun x => { x with gauges := x.gauges ++ (stagesAfter 7 e0.chain.epilogue).flatMap (fun st =>
    (ps.zipIdx).map (fun p => (st.param0, row, 128 * b + p.2, p.1))) })
  let q ← quantRow e1.desc.afmt e1.desc.abs (fun _ => true) ps
  pure ⟨mn, f, l1, q⟩

/-- How often the work of layer L of a paired operation is done: once for each column tile of layer L + 1, R205. -/
def pairRepeats (e1 : ChainEnv) : Nat := ceilDiv e1.desc.n 128

/-- One key block of a paired operation for one row, R204: running maximum, running sum, the accumulators of each output column. -/
def pairedBlock (e0 e1 : ChainEnv) (row b : Nat) (s : List Nat) (bcols : List (List StreamElem)) (acc : Nat × Nat × List (List Nat)) :
    Comp (Nat × Nat × List (List Nat)) := do
  let k ← repeated (pairRepeats e1) (softmaxBlock e0 e1 row b s acc.1 acc.2.1)
  let os ← if b = 0 then pure acc.2.2 else acc.2.2.mapM (fun parts => parts.mapM (fun v => counted (f32Mul v k.factor)))
  let os' ← ((os.zip bcols).zipIdx).mapM (fun p =>
    (List.range (k.probs.length / 32)).foldlM (fun parts i =>
      accumGroup e1 row p.2 (4 * b + i) (4 * b + i) (rowGroup k.probs i) (rowGroup p.1.2 (4 * b + i)) parts) p.1.1)
  pure (k.max, k.sum, os')

/-- A paired operation, R203 to R205: its first layer's environment and its second's. -/
def runPaired (e0 e1 : ChainEnv) : Comp (List (List Nat)) := do
  let (as, bs) ← repeated (pairRepeats e1) (layerOperands e0)
  let vs ← (List.range e1.desc.n).mapM (operandRow e1 1)
  let o := layerOutliers e1
  let cols := (vs.zipIdx).map (fun p => outlierRow o p.2 p.1)
  ternCount e1 [] cols
  (as.zipIdx).mapM (fun a => do
    let ss ← repeated (pairRepeats e1) (do
      let heavy ← (bs.zipIdx).mapM (fun b => heavyElem e0 a.1 b.1 a.2 b.2)
      (stagesBefore 7 e0.chain.epilogue).foldlM (fun xs st => epiRow e0 st a.2 xs) heavy)
    let start := cols.map (fun _ => freshParts (skinnyTile e1.desc.m e1.desc.k a.2))
    let (_, l, os) ← ((tilesOf ss.length ss).zipIdx).foldlM
      (fun acc t => pairedBlock e0 e1 a.2 t.2 t.1 cols acc) (cNegInf, 0, start)
    let vals ← (os.zipIdx).mapM (fun p => joinParts e1 a.2 p.2 p.1)
    let ys ← (vals.zipIdx).mapM (fun p => do
      let y ← if l % f32SignBit = 0 then pure 0 else counted (f32Div p.1 l)
      trapWhen e1 (f32IsNan y) a.2 p.2 4 7 5 0 0xFFFFFFFF y p.1
      pure y)
    finishRow e1 e1.chain.epilogue a.2 (fun _ => true) ys)

/-- A packed row whose last byte has bits beyond its elements that are not zero, R84, R15. -/
def padsSet (read : Nat → Nat → Bytes) (addr stride rows width w : Nat) : Bool :=
  let used := width * w % 8
  used != 0 && (List.range rows).any (fun r => decide (2 ^ used ≤ leNat (read (addr + r * stride + width * w / 8) 1)))

/-- The packed rows that a layer reads hold bits beyond their elements, R84, R15 (log entry 74). -/
def layerPads (e : ChainEnv) (second : Bool) : Bool :=
  let d := e.desc
  let c := e.chain
  let stage := fun (rows width : Nat) (st : ChainStage) =>
    if (st.code = 0x04 ∧ st.mode = 0) ∨ st.code = 0x05 then padsSet e.read (slotAddr e st.opndA) st.param0 rows width (fmtBits st.fmt)
    else if st.code = 0x0B ∧ st.mode ≠ 0 then padsSet e.read (slotAddr e st.opndA) st.param1 rows width 1
    else st.code == 0x15 && padsSet e.read (slotAddr e st.opndA) st.param0 rows width 1
  let (before, after) := aroundSibling c
  (!second && padsSet e.read d.aAddr d.aStride d.m d.k (fmtBits (storedFormat c 0 d).1))
    || padsSet e.read d.bAddr d.bStride d.n d.k (fmtBits (storedFormat c 1 d).1)
    || c.prologue.any (stage (if c.proSide = 0 then d.m else d.n) d.k) || before.any (stage d.m d.n) || after.any (stage d.m (outWidth c d))

/-- What an array does for one tile of a layer: cycles streaming, in tails, draining, rescaling; useful products; whether the tile is a skinny one, R135 to R138. -/
structure TileWork where
  stream : Nat
  tail : Nat
  drain : Nat
  rescale : Nat
  mac : Nat
  skinny : Bool

/-- The work of one tile of a heavy product, `rows` by `cols`, that follows others, R133, R136, R137. -/
def heavyWork (e : ChainEnv) (rows cols : Nat) : TileWork :=
  let d := e.desc
  let (g0, g1) := sliceGroups d.k (max 1 d.group.length) e.slice
  let o := layerOutliers e
  let skinny := decide (rows ≤ 16) && decide (32 < d.k)
  let extra := fun i => 2 / kRate2 d.afmt o.fmt * (o.rows.filter (fun r => r.1 / 32 == g0 + i)).length
  ⟨streamCycles (64 / kRate2 d.afmt d.bfmt) extra skinny 0 (g1 - g0), 6, if skinny then 20 else 128, 0, rows * cols * (min d.k (32 * g1) - 32 * g0), skinny⟩

/-- The tiles of a heavy product: rows and columns of each, one entry for each tile of its N columns. -/
def heavyTiles (l : Layer) : List (Nat × Nat) :=
  (List.range (ceilDiv l.m 128)).flatMap (fun i => (List.range (ceilDiv l.n 128)).map (fun j => (min 128 (l.m - 128 * i), min 128 (l.n - 128 * j))))

/-- The work of the arrays for a layer, tile by tile. -/
def layerWork (e : ChainEnv) : List TileWork := (heavyTiles e.desc).map (fun t => heavyWork e t.1 t.2)

/-- The work of the arrays for a paired operation: each tile of layer L + 1 streams every block of layer L and drains it, then its own groups, with a rescale between
blocks, R204, R205 (log entry 73). -/
def pairedWork (e0 e1 : ChainEnv) : List TileWork :=
  (heavyTiles e1.desc).map (fun t =>
    let blocks := (List.range (ceilDiv e0.desc.n 128)).map (fun b => heavyWork e0 t.1 (min 128 (e0.desc.n - 128 * b)))
    let own := heavyWork e1 t.1 t.2
    let n := blocks.length
    ⟨own.stream + listSum (blocks.map (·.stream)), own.tail + listSum (blocks.map (·.tail)) + 6 * (n - 1),
      own.drain + listSum (blocks.map (·.drain)), 4 * (n - 1), own.mac + listSum (blocks.map (·.mac)), own.skinny⟩)

end Sys2Proof.Machine
end

