-- ==== Sys2Proof/Machine/Inbound.lean ====
section
/-! DEFINITION. A message from a peer as it is delivered: the common header (R429), the epoch check (R431), what counts as heard from (R446). -/

namespace Sys2Proof.Machine

open Sys2Proof

/-- A message taken apart: tenant, epoch, CORR, and what follows the common header. -/
structure Msg where
  tenant : Nat
  epoch : Nat
  corr : Nat
  body : Bytes
  deriving DecidableEq, Repr

/-- What becomes of a message. -/
inductive Inbound where
  /-- it is of another type: the row does not apply -/
  | ignored
  /-- it is dropped -/
  | dropped (s : State)
  | accepted (m : Msg) (s : State)

/-- A peer's record. -/
def peerOf (s : State) (m : Nat) : Peer := kgetD s.fabric.peers m ⟨s.fabric.view.installed, 0xFF, 0, 0, false⟩

/-- Store a peer's record. -/
def setPeer (m : Nat) (p : Peer) (s : State) : State := { s with fabric := { s.fabric with peers := kset s.fabric.peers m p } }

/-- A byte string at exactly `n` bytes: what a cryptographic function without a body returns is taken at the length the spec gives it. -/
def fitBytes (n : Nat) (b : Bytes) : Bytes := (b ++ zeros n).take n

/-- The first 1,712 bytes of a request for a pair secret, in the layout of R470, R476. -/
def pairPrefix (draw : Nat) : Bytes :=
  zeros 8 ++ toLe 32 (Config.drbg draw).toNat ++ fitBytes 97 (Config.ecdhPublic draw) ++ zeros 7 ++ fitBytes 1568 (Config.mlkemPublic draw)

/-- What both sides sign of a request: the label, the answerer's DEVICE_UID, the first 1,712 bytes (log entry 63). -/
def pairSigned (uid : Nat) (first : Bytes) : Bytes := ascii "PRIELAEC-OPEN-1" ++ toLe 8 uid ++ first

/-- A module asks a peer for a new pair secret, R476: the message of R470 signed by its alias keys, with its report and alias keys to follow (log entry 63). -/
def askPair (dst uid : Nat) (s : State) : State :=
  let n := s.sec.draws
  let first := pairPrefix n
  emit (.message dst 0 0 (first ++ fitBytes 4723 (Config.deviceSign 1 (pairSigned uid first)) ++ zeros 5))
    { s with sec := { s.sec with draws := n + 1, pairAsks := kset s.sec.pairAsks uid n } }

/-- The replicas that this member holds of the tables of some owners are dropped, R252, R253. -/
def dropReplicasOf (from' : Table → Bool) (s : State) : State :=
  { s with tables := { s.tables with tables := s.tables.tables.map (fun p => (p.1, if from' p.2 then { p.2 with replicas := [] } else p.2)) } }

/-- A peer has been heard from, R446; with one that was unreachable this member rejoins as a holder without replicas of the tables they share (R252, log entry 78),
and it is asked for a new pair secret, R476. -/
def heardFrom (m : Nat) (s : State) : State :=
  let p := peerOf s m
  let s1 := setPeer m { p with lastMessage := s.frontTime, cut := false } s
  if p.cut then askPair m (uidOf s m) (dropReplicasOf (fun t => t.shard.contains m) s1) else s1

/-- A message is dropped and counted under MSG_MALFORMED, R429. -/
def malformed (s : State) : State := { s with fabric := { s.fabric with malformed := s.fabric.malformed + 1 } }

/-- This module becomes STALE, R431, R450. -/
def becomeStale (s : State) : State :=
  { s with fabric := { s.fabric with view := { s.fabric.view with rights := .stale }, caughtUp := false } }

/-- A peer shows a higher epoch than this module's own, R431, R450. -/
def staleBy (peer epoch : Nat) (s : State) : State :=
  becomeStale (setPeer peer { peerOf s peer with epoch := epoch } s)

/-- A message of a type arrives from a module of the view, R429 to R431; types of channel 0 are not judged by epoch. -/
def inbound (type peer : Nat) (plain : Bytes) (s : State) : Inbound :=
  if fld plain 0 1 ≠ type ∨ plain.length < 24 then .ignored
  else if !zeroAt plain 1 1 || !zeroAt plain 4 4 then .dropped (malformed s)
  else if !khas s.fabric.view.modules peer then .dropped (malformed s)
  else
    let m : Msg := ⟨fld plain 2 2, fld plain 8 8, fld plain 16 8, plain.drop 24⟩
    let e := s.fabric.view.epoch
    let free := decide (9 ≤ type)
    if free || m.epoch == e then .accepted m (heardFrom peer s)
    else if e < m.epoch then .dropped (staleBy peer m.epoch s)
    else if s.fabric.view.reach.contains peer && reaches s peer then .accepted m (heardFrom peer s)
    else .dropped s

/-- A message row without an answer to a dropped one. -/
def onMessage (type peer : Nat) (plain : Bytes) (s : State) (k : Msg → State → State) : State :=
  match inbound type peer plain s with
  | .ignored => s
  | .dropped s1 => s1
  | .accepted m s1 => k m s1

end Sys2Proof.Machine
end

