-- ==== Sys2Proof/Machine/SchedOps.lean ====
section
/-! DEFINITION. Scheduling points: placements (R31), the order of service (R387), grants (R386, R396), pre-emption (R392 to R395), the start of a kernel on its cells (R177), thaw demands. -/

namespace Sys2Proof.Machine

open Sys2Proof

/-- The checks of a placement word at a parameter offset, R31. -/
def placementChecks (w off : Nat) : List (Bool × Status × Nat) :=
  let level := w / 8192
  let index := w % 256
  [badParamIf (decide (4 < level) || bits w 12 8 != 0) off,
   badParamIf ((level == 0 || level == 4) && index != 0) off,
   rangeIf ((level == 1 && decide (192 ≤ index)) || (level == 2 && decide (16 ≤ index)) || (level == 3 && decide (4 ≤ index))) off]

/-- The cells of a placement, R31. -/
def placementCells (w : Nat) : List Nat :=
  let level := w / 8192
  let index := w % 256
  if level = 1 then [index]
  else if level = 2 then (List.range 12).map (fun i => index * 12 + i)
  else if level = 3 then (List.range 48).map (fun i => index * 48 + i)
  else List.range 192

/-- A cell is neither disabled nor in a DISABLED quadrant, R28, R532. -/
def cellEnabled (s : State) (c : Nat) : Bool :=
  !s.faults.disabled.contains c && decide ((quadrantOf s.power (c / 12)).state ≠ .disabled)

/-- A cell holds no item. -/
def cellFree (s : State) (c : Nat) : Bool :=
  cellEnabled s c && !(s.sched.items.any (fun i => i.cells.contains c))

/-- A unit that is disabled: one of a disabled cell, or one listed itself, R28, R596. -/
def unitOff (s : State) (unit : Nat) : Bool :=
  match unitCell unit with
  | some c => !cellEnabled s c
  | none => s.faults.disabled.contains unit

/-- An isobar core of a mask is disabled, R28. -/
def isobarOff (s : State) (mask : Nat) : Bool := (List.range 8).any (fun c => bitOf mask c && unitOff s (0x9000 + c))

/-- Free cells of a placement in ACTIVE quadrants. -/
def freeActive (s : State) (w : Nat) : List Nat :=
  (placementCells w).filter (fun c => cellFree s c && decide ((quadrantOf s.power (c / 12)).state = .active))

/-- A list turned by `n` places. -/
def turned {α : Type} (l : List α) (n : Nat) : List α :=
  let k := if l.length = 0 then 0 else n % l.length
  l.drop k ++ l.take k

/-- The operand bytes of a tile of an item: of the tile of its layer, and for a paired operation the first layer's rows of A and its B as well; of a kernel's arguments; of a
model's weights for a step of a request, whose layers the item stands for together (log entry 84). -/
def itemOperands (s : State) (i : WorkItem) (t : Nat) : List (Nat × Nat) :=
  match flightOf s i.serial with
  | none => i.operands
  | some f =>
    if i.whole then [(par f 24 8, par f 20 4)]
    else
      let chains := ((s.compute.jobs.find? (fun j => j.serial == i.serial)).map (·.chains)).getD s.compute.chains
      let of := fun (l : Layer) => (chainOf chains l).getD Chain.empty
      let l0 := (layersOf f).getD i.layer (layerAt [] 0)
      if l0.paired then
        let l := (layersOf f).getD (i.layer + 1) l0
        let r0 := t / ceilDiv (outWidth (of l) l) 128 * 128
        tileOperands l (of l) true t ++ operandRows l0.aAddr l0.aStride l0.aScl l0.abs l0.afmt l0.k r0 (min 128 (l0.m - r0))
          ++ operandRows l0.bAddr l0.bStride l0.bScl l0.bbs l0.bfmt l0.k 0 l0.n
      else tileOperands l0 (of l0) false t

/-- The dies that a tile of an item prefers, in order, R23. -/
def tileDies (s : State) (i : WorkItem) (t : Nat) : List Nat := dieOrder (dieShares (itemOperands s i t))

/-- A tile's cell among the free ones: on the die that it prefers most, else on any, R23. -/
def placeTile (dies cs : List Nat) : Option Nat := (dies.findSome? (fun d => cs.find? (fun c => c / 48 == d))).orElse (fun _ => cs.head?)

/-- Tiles placed in order on free cells: each one's cell, and whether it lies off the die it prefers, R23. -/
def placeTiles : List (List Nat) → List Nat → List (Nat × Bool)
  | [], _ => []
  | dies :: l, cs =>
    match placeTile dies cs with
    | none => []
    | some c => (c, dies.head?.any (· != c / 48)) :: placeTiles l (cs.filter (· != c))

/-- The part of the key of R387 that decides pre-emption, R392. -/
def rankKey (i : WorkItem) : Nat := (i.roleRank * 256 + i.prio) * 256 + i.protect

/-- The virtual time of an item's tenant. -/
def vOf (s : State) (i : WorkItem) : Nat := (kgetD s.sched.cellV i.tenant ⟨0, 0⟩).v

/-- Order of service, R387. -/
def servedBefore (s : State) (a b : WorkItem) : Bool :=
  let ka := [rankKey a, vOf s a, a.tenant, a.arrival, a.commandId]
  let kb := [rankKey b, vOf s b, b.tenant, b.arrival, b.commandId]
  lexLe ka kb
where
  lexLe : List Nat → List Nat → Bool
    | [], _ => true
    | _ :: _, [] => false
    | x :: xs, y :: ys => if x < y then true else if y < x then false else lexLe xs ys

/-- Tiles an item still waits for cells for. -/
def wanted (i : WorkItem) : Nat := i.tiles - i.cells.length

/-- Store an item in place. -/
def setItem (i : WorkItem) (s : State) : State :=
  { s with sched := { s.sched with items := s.sched.items.map (fun j => if j.id = i.id then i else j) } }

/-- The scratchpad of a cell is cleared before it passes from one tenant to another, R19, with its marks, R592. -/
def passCell (tenant : Nat) (s : State) (c : Nat) : State :=
  let x := cellOf s c
  if x.tenant = tenant then s
  else
    let a := scratchAddr c 0
    let s1 := memClear a 0xC00000 s
    setCell c { Cell.reset with tenant := tenant }
      { s1 with tiers := { s1.tiers with poisoned := s1.tiers.poisoned.filter (fun u => decide (u < a) || decide (a + 0xC00000 ≤ u)) } }

/-- A core as a kernel starts it, R177. -/
def startedCore (k : Kernel) (args : Bytes) (rank cells hartK mask : Nat) : Core :=
  let argBase := 0x20000 - ceilDiv args.length 8 * 8
  { Core.idle with
    life := .running
    pc := BitVec.ofNat 64 k.entry
    regs := [(2, BitVec.ofNat 64 argBase), (10, BitVec.ofNat 64 argBase)]
      ++ (if rank = 0 then [] else [(11, BitVec.ofNat 64 rank)]) ++ [(12, BitVec.ofNat 64 cells)]
      ++ (if hartK = 0 then [] else [(13, BitVec.ofNat 64 hartK)])
    vkrank := BitVec.ofNat 32 (rank + (cells - 1) * 256 + hartK * 65536)
    vkmask := BitVec.ofNat 32 mask
    im := Memory.writeN [] 0 k.text
    dm := Memory.writeN (Memory.writeN [] 0x10000 k.data) argBase args }

/-- The cores of a mask. -/
def maskCores (mask : Nat) : List Nat := (List.range 8).filter (bitOf mask)

/-- A kernel starts on its cells, R177; a poisoned argument ends it, R234. A HALT that waits stops every core before its first instruction, R572. -/
def startKernel (i : WorkItem) (cells : List Nat) (s : State) : State :=
  match flightOf s i.serial with
  | none => s
  | some f =>
    let len := par f 20 4
    let args := if len = 0 then [] else memRead s (par f 24 8) len
    match kget s.compute.images f.serial, (if len = 0 then none else readFails s (par f 24 8) len) with
    | none, _ => s
    | some _, some (st, d) => abortFlight f st d [] (noteReadFail f st d s)
    | some k, none =>
      let mask := par f 6 1
      let halts := s.dbg.haltWaits.any (fun w => w.2 == f.serial)
      let harts := ((cells.zipIdx).map (fun c => (maskCores mask).map (fun h => (c.1, c.2, h)))).flatten
      let s1 := harts.foldl (fun t x =>
        setCore (x.1 * 8 + x.2.2) { startedCore k args x.2.1 cells.length x.2.2 mask with stopped := halts } t) s
      let s2 := cells.foldl (fun t c => setCell c { Cell.reset with tenant := f.tenant } t) s1
      let r : Run := ⟨f.serial, f.tenant, f.hdr.sessionId, f.hdr.commandId, par f 0 4, cells, mask, par f 8 8, [], [],
        NumCounts.zero, [], if halts then .draining none else .none, none, none, []⟩
      { s2 with compute := { s2.compute with runs := s2.compute.runs ++ [r] } }

/-- Give cells to an item, R386: their scratchpads pass to its tenant, its grant is recorded, and so are placements off the preferred die, R23. -/
def grantCells (i : WorkItem) (places : List (Nat × Bool)) (s : State) : State :=
  let cells := places.map (·.1)
  let s1 := cells.foldl (passCell i.tenant) s
  let s2 := bump .remotePlacement i.tenant (places.filter (·.2)).length s1
  let s3 := setItem { i with cells := i.cells ++ cells, started := if i.cells.isEmpty then s2.sched.grants else i.started } s2
  let s4 := cells.foldl (fun t c => track 4 c i.tenant i.commandId cells.length i.layer t) s3
  let quads := (cells.map (· / 12)).eraseDups
  let p := quads.foldl (fun p q =>
    { p with quadrants := kset p.quadrants q { quadrantOf p q with lastGrant := s.frontTime } }) s4.power
  { s4 with power := p, sched := { s4.sched with grants := s4.sched.grants + 1 } }

/-- Serve one waiting item, R386: a kernel whole or not at all, others as many cells as are free, a tile each; which of a die's free cells is a free value (log entry 8). -/
def serveItem (i : WorkItem) (s : State) : State :=
  if wanted i = 0 then s
  else
    let (d, s1) := drawFree s
    let cs := turned (freeActive s i.placement) d
    let places := placeTiles ((List.range (min (wanted i) cs.length)).map (fun k => tileDies s i (i.cells.length + k))) cs
    if i.whole then
      if cs.length < i.tiles then s
      else startKernel i (places.map (·.1)) (grantCells i places s1)
    else if cs.isEmpty then s
    else grantCells i places s1

/-- Serve the waiting items in order. -/
def serveAll : List WorkItem → State → State
  | [], s => s
  | i :: is, s => serveAll is (serveItem i s)

/-- An item that may be pre-empted for another, R392, R393. -/
def mayPreempt (s : State) (x v : WorkItem) : Bool :=
  !v.cells.isEmpty && decide (rankKey x < rankKey v) && v.tenant != 0 && decide (v.attempts < s.sched.preemptLimit) && !v.fixed
    && !(s.proto.flights.any (fun f => f.serial == v.serial && f.prep.isSome))
    && v.cells.any (fun c => (placementCells x.placement).contains c)

/-- The next victim, R392: greatest key, latest start, greatest tenant, greatest COMMAND_ID. -/
def nextVictim (s : State) (x : WorkItem) : Option WorkItem :=
  (s.sched.items.filter (mayPreempt s x)).foldl (fun best v =>
    match best with
    | none => some v
    | some b =>
      let kv := [rankKey v, v.started, v.tenant, v.commandId]
      let kb := [rankKey b, b.started, b.tenant, b.commandId]
      if servedBefore.lexLe kv kb then some b else some v) none

/-- Pre-empt an item: its whole command is discarded and waits again with its key, R394, R395; the discarded cycles are free (log entry 7). -/
def preempt (v : WorkItem) (s : State) : State :=
  let (waste, s1) := drawFree s
  let s2 := freeCells v.cells s1
  let s3 := match runOf s2 v.serial with
    | some r => { s2 with compute := { s2.compute with runs := s2.compute.runs.filter (fun q => q.serial != r.serial) } }
    | none => s2
  let jobs := s3.compute.jobs.map (fun j => if j.serial = v.serial then { j with layer := 0, charged := 0, partials := [], outbox := [] } else j)
  let s4 := { s3 with compute := { s3.compute with jobs := jobs } }
  let s5 := setItem { v with cells := [], attempts := v.attempts + 1, layer := 0, tiles := v.tiles0 } s4
  track 3 0x9100 v.tenant v.commandId waste 0
    (bump .preempted v.tenant 1 (bump .preemptWaste v.tenant waste (bump .cellCycles 0 waste s5)))

/-- Make room for one item by pre-emption as far as victims go, then serve it, R392. -/
def serveByForce : Nat → WorkItem → State → State
  | 0, i, s => serveItem i s
  | fuel + 1, i, s =>
    let need := min (wanted i) (placementCells i.placement).length
    if need ≤ (freeActive s i.placement).length ∨ need = 0 then serveItem i s
    else match nextVictim s i with
      | none => serveItem i s
      | some v => serveByForce fuel i (preempt v s)

/-- Items that still want cells, in the order of service. -/
def waitingItems (s : State) : List WorkItem :=
  sortBy (servedBefore s) (s.sched.items.filter (fun i => decide (0 < wanted i)))

/-- Thaw a quadrant: it stays in its state until THAW_COMPLETE, R20, R396, R532. -/
def demandThaw (s : State) (q : Nat) : State :=
  let x := quadrantOf s.power q
  if x.thawing || decide (x.state = .active) || decide (x.state = .disabled) then s
  else { s with power := { s.power with quadrants := kset s.power.quadrants q { x with thawing := true, since := s.frontTime, demandTick := some (s.frontTime / 1000000) } } }

/-- Quadrants of a list in a state. -/
def quadsIn (s : State) (qs : List Nat) (st : QState) : List Nat :=
  qs.filter (fun q => decide ((quadrantOf s.power q).state = st))

/-- Quadrants of a placement that could be thawed: those of the preferred die first, FROST before DEEP FROST, ascending, R396, R534. -/
def thawable (s : State) (w : Nat) (prefer : Option Nat) : List Nat :=
  let qs := ((placementCells w).map (· / 12)).eraseDups
  let near := qs.filter (fun q => some (q / 4) == prefer)
  let far := qs.filter (fun q => some (q / 4) != prefer)
  quadsIn s near .frost ++ quadsIn s near .deepFrost ++ quadsIn s far .frost ++ quadsIn s far .deepFrost

/-- Thaw demands of the waiting items in order: enough quadrants for the tiles that exceed the free ACTIVE cells; `coming` is what thawing quadrants and earlier demands will bring, R396. -/
def thawFor (coming : Nat) : List WorkItem → State → State
  | [], s => s
  | i :: is, s =>
    let excess := wanted i - (freeActive s i.placement).length
    let qs := ((thawable s i.placement i.prefer).filter (fun q => !(quadrantOf s.power q).thawing)).take (ceilDiv (excess - coming) 12)
    thawFor (coming + 12 * qs.length - excess) is (qs.foldl demandThaw s)

/-- The pre-thaw policy, R534: quadrants ACTIVE or thawing are brought up to MIN_ACTIVE, and to HEADROOM above the most that the look-back window used. -/
def thawTarget (s : State) : Nat :=
  let p := s.power
  let used := listMax ((p.grants.filter (fun g => decide (s.frontTime ≤ g.1 + p.policy.lookbackMs * 1000000))).map (fun g => ceilDiv g.2 12))
  min (16 - (quadrantsIn p .disabled).length) (max p.policy.minActive (used + p.policy.headroom))

/-- Thaw up to the target. -/
def preThaw (s : State) : State :=
  let up := (List.range 16).filter (fun q =>
    decide ((quadrantOf s.power q).state = .active) || (quadrantOf s.power q).thawing)
  ((thawable s 0 none).filter (fun q => !(quadrantOf s.power q).thawing)).take (thawTarget s - up.length)
    |>.foldl demandThaw s

/-- A scheduling point, R384, R386, R392, R396. -/
def schedPoint (s : State) : State :=
  if s.power.fwReady = false then s
  else
    let s1 := { s with
      proto := { s.proto with stepCount := s.proto.stepCount + 1 }
      sched := { s.sched with lastPoint := s.frontTime } }
    let s2 := serveAll (waitingItems s1) s1
    let s3 := (waitingItems s2).foldl (fun t i =>
      match t.sched.items.find? (fun j => j.id == i.id) with
      | none => t
      | some j => serveByForce t.sched.items.length j t) s2
    let busy := listSum (s3.sched.items.map (fun i => i.cells.length))
    let s4 := { s3 with power := { s3.power with
      grants := ((s3.frontTime, busy) :: s3.power.grants).filter (fun g =>
        decide (s3.frontTime ≤ g.1 + s3.power.policy.lookbackMs * 1000000)) } }
    preThaw (thawFor (12 * ((List.range 16).filter (fun q => (quadrantOf s4.power q).thawing)).length) (waitingItems s4) s4)

/-- Virtual time of a tenant that becomes active again, R390. -/
def wakeTenant (tenant : Nat) (s : State) : State :=
  if s.sched.items.any (fun i => i.tenant == tenant) then s
  else match listMin? (s.sched.items.map (vOf s)) with
    | none => s
    | some m =>
      let v := kgetD s.sched.cellV tenant ⟨0, 0⟩
      { s with sched := { s.sched with cellV := kset s.sched.cellV tenant { v with v := max v.v m } } }

/-- A cell item waits from now on under the next item number, with its tenant's floor over its PRIO, R387, R391. -/
def enterItem (i : WorkItem) (s : State) : State :=
  let s1 := wakeTenant i.tenant s
  let j := { i with id := s1.sched.nextItem, prio := max i.prio (shareOf s1 i.tenant).floor }
  let s2 := { s1 with sched := { s1.sched with items := s1.sched.items ++ [j], nextItem := s1.sched.nextItem + 1 } }
  noteHigh 0x9100 1 (s2.sched.items.filter (fun x => x.cells.isEmpty)).length s2

/-- A new cell item of a command becomes runnable, R384, R385: it waits, and a scheduling point follows. -/
def submitItem (f : Flight) (placement tiles tiles0 : Nat) (whole : Bool) (layer : Nat) (prefer : Option Nat) (s : State) : State :=
  schedPoint (enterItem ⟨0, f.serial, f.tenant, 1, f.hdr.prio, 4, f.taken, f.hdr.commandId, placement, prefer, tiles, tiles0, whole, layer,
    [], 0, 0, false, []⟩ s)

end Sys2Proof.Machine
end

