-- ==== Sys2Proof/Machine/VectorRows.lean ====
section
/-! DEFINITION. The vector rows of chapter 05: VECTOR_ISSUE, one row for each operation, VFENCE. -/

namespace Sys2Proof.Machine

open Sys2Proof

/-- VECTOR_ISSUE: a core issues a vector instruction; an illegal encoding faults (R98, R158, R179), a full queue stalls. A VEXTR keeps the core until its register is written, R159. -/
def vectorIssue (hart : Nat) (s : State) : State :=
  coreRow hart (fun w => w % 128 == 0x2B && !coreCustom w) (fun r c f w s =>
    let cell := hart / 8
    let x := cellOf s cell
    let cfg := (csrOf c 0x8C0).toNat
    if !vectorLegal w cfg then faultCore r hart c f 0 (if vecGroup w = 6 then .badFormat else .badParam) 0 0 s
    else if c.stall = .extract then s
    else if 16 ≤ x.vectorQ.length then stallCore hart c .queueFull (if c.stall = .queueFull then s else noteFull cell 1 s)
    else
      let e : VectorEntry := ⟨BitVec.ofNat 32 w, (xget c (bits w 19 15)).toNat, (xget c (bits w 24 20)).toNat, csrOf c 0x8C0, hart, c.pc⟩
      let s1 := noteHigh cell 1 (x.vectorQ.length + 1) (setCell cell { x with vectorQ := x.vectorQ ++ [e] } s)
      if vecGroup w = 3 ∧ bits w 31 25 = 2 then stallCore hart c .extract s1
      else retireCustom r hart c s1) s

/-- VECTOR_ISSUE. -/
def execVectorIssue (hart : Nat) (s : State) : Result := nextOf s (vectorIssue hart s)

/-- The entry at the head of a cell's vector queue, if it is wanted, with the run of the cell. -/
def vectorHead (s : State) (cell : Nat) (want : Nat → Bool) : Option (Run × VectorEntry) :=
  match runOfCell s cell, (cellOf s cell).vectorQ with
  | some r, e :: _ => if want e.insn.toNat && decide ((quadrantOf s.power (cell / 12)).state = .active) then some (r, e) else none
  | _, _ => none

/-- The results of a vector instruction take effect, or its NaN ends the command, R162. -/
def applyVector (r : Run) (e : VectorEntry) (cell : Nat) (o : VecOut) (s : State) : State :=
  if trapsNan r.numeric && !o.nans.isEmpty then
    let (d, s1) := drawFree s
    let n := o.nans.getD (d % o.nans.length) ⟨0, 0, 0, 0, 0⟩
    nanTrap r.serial (0x2000 + cell) r.tenant
      (nanRecord s1 r.commandId (0x2000 + cell) r.tenant 9 0 n.operand n.fmt 0xFFFFFFFF 0 0 n.lane 0xFFFFFFFF n.bits n.other e.pc.toNat) s1
  else settleStep r.serial (popVector cell (countRun r.serial o.counts (setCell cell o.cell s)))

/-- The frame of the vector rows. -/
def vectorRow (cell : Nat) (want : Nat → Bool) (k : Run → VectorEntry → Cell → State → State) (s : State) : State :=
  match vectorHead s cell want with
  | none => s
  | some (r, e) => k r e (cellOf s cell) s

/-- One operation of VARITH, R158. -/
def varith (cell f7 : Nat) (s : State) : State :=
  vectorRow cell (fun w => vecGroup w == 0 && bits w 31 25 == f7) (fun r e c s =>
    let w := e.insn.toNat
    applyVector r e cell (arithExec c f7 (bits w 11 7) (bits w 19 15) (vget c (bits w 24 20))) s) s

/-- VADD, R158. -/
def execVadd (cell : Nat) (s : State) : Result := nextOf s (varith cell 0x00 s)
/-- VSUB, R158. -/
def execVsub (cell : Nat) (s : State) : Result := nextOf s (varith cell 0x01 s)
/-- VMUL, R158. -/
def execVmul (cell : Nat) (s : State) : Result := nextOf s (varith cell 0x02 s)
/-- VFMA, R158. -/
def execVfma (cell : Nat) (s : State) : Result := nextOf s (varith cell 0x03 s)
/-- VMAX, R158. -/
def execVmax (cell : Nat) (s : State) : Result := nextOf s (varith cell 0x04 s)
/-- VMIN, R158. -/
def execVmin (cell : Nat) (s : State) : Result := nextOf s (varith cell 0x05 s)
/-- VDIV, R158. -/
def execVdiv (cell : Nat) (s : State) : Result := nextOf s (varith cell 0x06 s)
/-- VSQRT, R158. -/
def execVsqrt (cell : Nat) (s : State) : Result := nextOf s (varith cell 0x08 s)
/-- VRSQ, R158. -/
def execVrsq (cell : Nat) (s : State) : Result := nextOf s (varith cell 0x09 s)
/-- VRCP, R158. -/
def execVrcp (cell : Nat) (s : State) : Result := nextOf s (varith cell 0x0A s)
/-- VEXP2, R158. -/
def execVexp2 (cell : Nat) (s : State) : Result := nextOf s (varith cell 0x0B s)
/-- VLOG2, R158. -/
def execVlog2 (cell : Nat) (s : State) : Result := nextOf s (varith cell 0x0C s)
/-- VAND, R158. -/
def execVand (cell : Nat) (s : State) : Result := nextOf s (varith cell 0x10 s)
/-- VOR, R158. -/
def execVor (cell : Nat) (s : State) : Result := nextOf s (varith cell 0x11 s)
/-- VXOR, R158. -/
def execVxor (cell : Nat) (s : State) : Result := nextOf s (varith cell 0x12 s)
/-- VCMPLT, R158. -/
def execVcmplt (cell : Nat) (s : State) : Result := nextOf s (varith cell 0x13 s)
/-- VSEL, R158. -/
def execVsel (cell : Nat) (s : State) : Result := nextOf s (varith cell 0x14 s)

/-- VSCAL: a binary operation with x[rs2][31:0] in every lane, R157, R158. -/
def vscal (cell : Nat) (s : State) : State :=
  vectorRow cell (fun w => vecGroup w == 1) (fun r e c s =>
    let w := e.insn.toNat
    applyVector r e cell (arithExec c (bits w 31 25) (bits w 11 7) (bits w 19 15) (fun _ => e.rs2 % 2 ^ 32)) s) s

/-- VSCAL. -/
def execVscal (cell : Nat) (s : State) : Result := nextOf s (vscal cell s)

/-- A VMEM address that faults when the instruction starts, R162. -/
def vmemFault (off n : Nat) : Bool := off % 64 != 0 || !inScratch off n

/-- VLD, R159: the low SIZE bytes of a register are loaded, the rest are zero. -/
def vld (cell : Nat) (ecc : EccEvent) (s : State) : State :=
  vectorRow cell (fun w => vecGroup w == 2 && !bitOf w 25) (fun r e c s =>
    let w := e.insn.toNat
    let n := vmemBytes w
    if vmemFault e.rs1 n then faultRun r e.hart 2 .outOfRange 0 e.pc.toNat e.rs1 w s
    else match eccOutcome r e.hart e.pc.toNat w ecc s, scratchPoison s cell e.rs1 n with
      | some t, _ => t
      | none, some a => faultRun r e.hart 9 .dataPoisoned 0 e.pc.toNat a w s
      | none, none =>
        let c1 := vsetLanes c (bits w 11 7) (lanesOf (scratchRead s cell e.rs1 n))
        settleStep r.serial (popVector cell (setCell cell c1 (eccNote cell ecc s)))) s

/-- VLD. -/
def execVld (cell : Nat) (ecc : EccEvent) (s : State) : Result := nextOf s (vld cell ecc s)

/-- VST, R159: the low SIZE bytes of a register are stored. -/
def vst (cell : Nat) (s : State) : State :=
  vectorRow cell (fun w => vecGroup w == 2 && bitOf w 25) (fun r e c s =>
    let w := e.insn.toNat
    let n := vmemBytes w
    if vmemFault e.rs1 n then faultRun r e.hart 2 .outOfRange 0 e.pc.toNat e.rs1 w s
    else settleStep r.serial (popVector cell (scratchWrite cell e.rs1 ((vbytes c (bits w 11 7)).take n) 0xFFFF s))) s

/-- VST. -/
def execVst (cell : Nat) (s : State) : Result := nextOf s (vst cell s)

/-- A reduction over the 128 lanes into every lane, R159. -/
def vreduce (cell f7 : Nat) (op : Nat → Nat → Nat × NumCounts) (s : State) : State :=
  vectorRow cell (fun w => vecGroup w == 3 && bits w 31 25 == f7) (fun r e c s =>
    let w := e.insn.toNat
    let ls := vlanes c (bits w 19 15)
    let v := reduceLanes op ls
    let ins := (ls.zipIdx).filterMap (fun p => if f32IsNan p.1 then some (⟨0, 0, p.2, p.1, 0⟩ : NanHit) else none)
    let nans := if ins.isEmpty && f32IsNan v.1 then [⟨5, 0, 0, v.1, 0⟩] else ins
    applyVector r e cell ⟨vsetLanes c (bits w 11 7) (List.replicate 128 v.1), v.2, nans⟩ s) s

/-- VREDSUM, R159. -/
def execVredsum (cell : Nat) (s : State) : Result := nextOf s (vreduce cell 0 f32Add s)
/-- VREDMAX, R159. -/
def execVredmax (cell : Nat) (s : State) : Result := nextOf s (vreduce cell 1 maxCounted s)

/-- VEXTR: the issuing core's x[rd] takes a lane, and the core goes on, R159. -/
def vextr (cell : Nat) (s : State) : State :=
  vectorRow cell (fun w => vecGroup w == 3 && bits w 31 25 == 2) (fun r e c s =>
    let w := e.insn.toNat
    let v := vget c (bits w 19 15) (e.rs2 % 128)
    let k := coreOf s e.hart
    let k1 := { xset k (bits w 11 7) (BitVec.ofNat 64 v) with
      pc := k.pc + 4
      cycle := k.cycle + 1
      instret := k.instret + 1
      stall := .none
      passBreak := false
      stopped := k.stopped || steps r e.hart
      reason := if steps r e.hart then 3 else k.reason }
    settleStep r.serial (setCore e.hart k1 (popVector cell s))) s

/-- VEXTR. -/
def execVextr (cell : Nat) (s : State) : Result := nextOf s (vextr cell s)

/-- VINS: one lane takes x[rs1][31:0], R159. -/
def vins (cell : Nat) (s : State) : State :=
  vectorRow cell (fun w => vecGroup w == 3 && bits w 31 25 == 3) (fun r e c s =>
    let vd := bits e.insn.toNat 11 7
    let ls := setAt (vlanes c vd) (e.rs2 % 128) (e.rs1 % 2 ^ 32)
    settleStep r.serial (popVector cell (setCell cell (vsetLanes c vd ls) s))) s

/-- VINS. -/
def execVins (cell : Nat) (s : State) : Result := nextOf s (vins cell s)

/-- VCVT, R96. -/
def vcvt (cell : Nat) (s : State) : State :=
  vectorRow cell (fun w => vecGroup w == 6) (fun r e c s =>
    applyVector r e cell (vcvtExec c e.insn.toNat e.vcvtcfg.toNat) s) s

/-- VCVT. -/
def execVcvt (cell : Nat) (s : State) : Result := nextOf s (vcvt cell s)

/-- VSEED: every lane's generator is seeded, R90, R161. -/
def vseed (cell : Nat) (s : State) : State :=
  vectorRow cell (fun w => vecGroup w == 5) (fun r e c s =>
    let seeds := (List.range 128).map (fun l => (l, laneSeed (e.rs1 % 2 ^ 32) l))
    settleStep r.serial (popVector cell (setCell cell { c with lanes := seeds } s))) s

/-- VSEED. -/
def execVseed (cell : Nat) (s : State) : Result := nextOf s (vseed cell s)

/-- VFENCE: the core waits until its own earlier vector instructions have finished, R161. -/
def vfence (hart : Nat) (s : State) : State :=
  coreRow hart (fun w => w % 128 == 0x2B && coreCustom w && vecGroup w == 5 && bits w 31 25 == 4) (fun r c _ _ s =>
    if (cellOf s (hart / 8)).vectorQ.any (fun e => e.hart == hart) then stallCore hart c .fence s
    else retireCustom r hart c s) s

/-- VFENCE. -/
def execVfence (hart : Nat) (s : State) : Result := nextOf s (vfence hart s)

end Sys2Proof.Machine
end

