-- ==== Sys2Proof/Machine/CoreRows.lean ====
section
/-! DEFINITION. The rows of a vane core in chapter 05: SCALAR_INSTRUCTION, ECALL, EBREAK, DMA, barriers, windows. -/

namespace Sys2Proof.Machine

open Sys2Proof

/-- Status of a fault of causes 0, 1 and 2, R179. -/
def causeStatus (cause : Nat) : Status := if cause = 2 then .outOfRange else .badParam

/-- What a scalar load, LR or AMO reads of the scratchpad: offset and length. -/
def scalarReads (c : Core) (w : Nat) : Option (Nat × Nat) :=
  let a := if w % 128 = 0x03 then (xget c (bits w 19 15) + sext 12 (bits w 31 20)).toNat else (xget c (bits w 19 15)).toNat
  let n := if w % 128 = 0x03 then 2 ^ (bits w 14 12 % 4) else if bits w 14 12 = 2 then 4 else 8
  if (w % 128 = 0x03 ∨ (w % 128 = 0x2F ∧ bits w 31 27 ≠ 3)) ∧ coreSpace a n = some 1 then some (a - 0x1000000, n) else none

/-- A read of `cycle` adds the cycles the core has waited, a free value (log entry 7). -/
def waitCycles (hart w : Nat) (c : Core) (s : State) : Core × State :=
  if w % 128 = 0x73 ∧ bits w 31 20 = 0xC00 then
    let (d, s1) := drawFree s
    let c1 := { c with cycle := c.cycle + BitVec.ofNat 64 (d % 2 ^ 32) }
    (c1, setCore hart c1 s1)
  else (c, s)

/-- One scalar instruction of a core, R143 to R148: a trap of its own first, R146, then what it would read of the scratchpad, R154. -/
def scalarRun (r : Run) (hart : Nat) (c0 : Core) (f : Fetched) (w : Nat) (s0 : State) : State :=
  let (c, s) := waitCycles hart w c0 s0
  match scalarExec c (scratchReader s (hart / 8)) s.frontTime w f.len with
  | .other => s0
  | .trap cause addr => faultCore r hart c f cause (causeStatus cause) 0 addr s
  | .retire c1 _ st =>
    match (scalarReads c w).bind (fun x => scratchPoison s (hart / 8) x.1 x.2) with
    | some a => faultCore r hart c f 9 .dataPoisoned 0 a s
    | none => coreStore hart st (afterRetire r hart c1) s

/-- SCALAR_INSTRUCTION: the core at its pc; a fetch outside instruction memory and a reserved encoding fault, R145, R179. -/
def scalarInstruction (hart : Nat) (ecc : EccEvent) (s : State) : State :=
  match mayExecute s hart with
  | none => s
  | some (r, c) =>
    match (if c.passBreak then none else breakAt s r hart c.pc.toNat) with
    | some b => hitBreak r b hart c.pc.toNat 1 s
    | none =>
      match fetchAt c with
      | none => faultRun r hart 2 .outOfRange 0 c.pc.toNat c.pc.toNat 0 s
      | some f =>
        match f.insn with
        | none => faultCore r hart c f 0 .badParam 0 0 s
        | some w =>
          match eccOutcome r hart c.pc.toNat f.raw ecc s with
          | some t => t
          | none => settleStep r.serial (scalarRun r hart c f w (eccNote (hart / 8) ecc s))

/-- SCALAR_INSTRUCTION. -/
def execScalarInstruction (hart : Nat) (ecc : EccEvent) (s : State) : Result := nextOf s (scalarInstruction hart ecc s)

/-- A STEP of this core ends with an outcome, R574. -/
def endStep (r : Run) (outcome pc : Nat) (s : State) : State :=
  match r.halt with
  | .stepping _ h =>
    let s1 := setRun { r with halt := .halted } s
    match flightOf s1 h with
    | some f => finish f (okReply (toLe 1 outcome ++ zeros 7 ++ toLe 8 pc)) s1
    | none => s1
  | _ => s

/-- ECALL: the core ends its part of the run, R178. -/
def ecall (hart : Nat) (s : State) : State :=
  coreRow hart (fun w => w == 0x73) (fun r c _ _ s =>
    let c1 := { c with life := .ended, stall := .none, passBreak := false, instret := c.instret + 1, cycle := c.cycle + 1 }
    let s1 := setCore hart c1 s
    if steps r hart then endStep r 2 c.pc.toNat s1 else s1) s

/-- ECALL. -/
def execEcall (hart : Nat) (s : State) : Result := nextOf s (ecall hart s)

/-- EBREAK: halts the run of an armed kernel at the EBREAK, else CAUSE 8, R179, R566. -/
def ebreak (hart : Nat) (s : State) : State :=
  coreRow hart (fun w => w == 0x100073) (fun r c f _ s =>
    match s.dbg.breaks.find? (fun b => b.kind == 1 && b.handle == r.handle) with
    | none => faultCore r hart c f 8 .badParam 0 0 s
    | some b =>
      if steps r hart then
        setCore hart (afterRetire r hart { c with pc := c.pc + BitVec.ofNat 64 f.len, instret := c.instret + 1 }) s
      else hitBreak r b hart c.pc.toNat 2 s) s

/-- EBREAK. -/
def execEbreak (hart : Nat) (s : State) : Result := nextOf s (ebreak hart s)

/-- Bytes of the tiers as a run reads them: its own writes first, R218. -/
def runRead (s : State) (r : Run) (a n : Nat) : Bytes :=
  (List.range n).map (fun i => (kget r.writes (a + i)).getD (Memory.read s.mem (a + i)))

/-- A descriptor as a transfer, R164. -/
def transferOf (b : Bytes) (hart tag : Nat) (pc : W64) (insn : Nat) : Transfer :=
  let k := fld b 18 1
  ⟨hart, tag, pc, insn, fld b 0 8, fld b 8 8, bits k 1 0, bits k 3 2, fld b 16 2, fld b 20 4, fld b 24 4, fld b 28 4, bits k 6 4⟩

/-- The checks of R167 on a descriptor: status and the address that failed. -/
def dmaFault (s : State) (r : Run) (b : Bytes) (t : Transfer) : Option (Status × Nat) :=
  let remote := t.dstKind == 2
  let own := b2n (t.srcKind == 1) + b2n (t.dstKind == 1)
  let srcLen := srcExtent t.rows t.rowBytes t.srcStride
  let dstLen := dstExtent t.xpose t.rows t.rowBytes t.dstStride
  let bad := bitOf (fld b 18 1) 7 || fld b 19 1 != 0 || decide (1 < t.srcKind) || t.dstKind == 3 || decide (4 < t.xpose)
    || t.rows == 0 || t.rowBytes == 0 || decide (0xC00000 < t.rowBytes) || own != 1
    || (remote && (bits t.dst 31 26 != 0 || bits t.dst 63 40 != 0))
    || moveInvalid t.xpose t.rows t.rowBytes t.dstStride 65535 0xC00000
  let scratch := if t.srcKind = 1 then (t.src, srcLen) else (t.dst, dstLen)
  let dev := if t.srcKind = 0 then some (t.src, srcLen) else if t.dstKind = 0 then some (t.dst, dstLen) else none
  if bad then some (.badParam, 0)
  else if !inScratch scratch.1 scratch.2 then some (.outOfRange, scratch.1)
  else if remote && decide (r.cells.length ≤ bits t.dst 39 32) then some (.outOfRange, t.dst)
  else match dev, flightOf s r.serial with
    | some (a, n), some f =>
      if !inTiers s.tiers a n then some (.outOfRange, a)
      else if !covered s f a n then some (.notPermitted, a)
      else none
    | _, _ => none

/-- DSUB: a descriptor is checked and a transfer begins under a tag, R164, R165, R167; which free tag is a free value. -/
def dsub (hart : Nat) (s : State) : State :=
  coreRow hart (fun w => w % 128 == 0x2B && coreCustom w && vecGroup w == 4 && bits w 31 25 == 0) (fun r c f w s =>
    let a := (xget c (bits w 19 15)).toNat
    if 8 ≤ c.tags.length then stallCore hart c .queueFull s
    else if a % 8 ≠ 0 then faultCore r hart c f 1 .badParam 0 a s
    else if coreSpace a 32 ≠ some 0 then faultCore r hart c f 2 .outOfRange 0 a s
    else
      let b := Memory.readN c.dm a 32
      match dmaFault s r b (transferOf b hart 0 c.pc w) with
      | some (st, x) => faultCore r hart c f 4 st 0 x s
      | none =>
        let (d, s1) := drawFree s
        let free := (List.range 8).filter (fun t => !c.tags.contains t)
        let tag := nth free (d % free.length)
        let s2 := setRun { r with transfers := r.transfers ++ [transferOf b hart tag c.pc w] } s1
        let inUse := (r.transfers.filter (fun t => t.hart / 8 == hart / 8)).length + 1
        retireCustom r hart { xset c (bits w 11 7) (BitVec.ofNat 64 tag) with tags := tag :: c.tags } (noteHigh (hart / 8) 2 inUse s2)) s

/-- DSUB. -/
def execDsub (hart : Nat) (s : State) : Result := nextOf s (dsub hart s)

/-- DWAIT: waits until a tag is not in use, R165. -/
def dwait (hart : Nat) (s : State) : State :=
  coreRow hart (fun w => w % 128 == 0x2B && coreCustom w && vecGroup w == 4 && bits w 31 25 == 1) (fun r c _ w s =>
    let t := (xget c (bits w 19 15)).toNat % 8
    if c.tags.contains t then stallCore hart c (.dwait t) s else retireCustom r hart c s) s

/-- DWAIT. -/
def execDwait (hart : Nat) (s : State) : Result := nextOf s (dwait hart s)

/-- DPOLL: the mask of tags not in use, R165. -/
def dpoll (hart : Nat) (s : State) : State :=
  coreRow hart (fun w => w % 128 == 0x2B && coreCustom w && vecGroup w == 4 && bits w 31 25 == 2) (fun r c _ w s =>
    let m := listSum (((List.range 8).filter (fun t => !c.tags.contains t)).map (fun t => 2 ^ t))
    retireCustom r hart (xset c (bits w 11 7) (BitVec.ofNat 64 m)) s) s

/-- DPOLL. -/
def execDpoll (hart : Nat) (s : State) : Result := nextOf s (dpoll hart s)

/-- The cores of a run: cell by cell, the cores of CORE_MASK. -/
def runHarts (r : Run) : List Nat := (r.cells.map (fun c => (maskCores r.coreMask).map (fun k => c * 8 + k))).flatten

/-- A core waits at a barrier. -/
def atBar (s : State) (runScope : Bool) (id : Nat) (hart : Nat) : Bool :=
  match (coreOf s hart).stall with
  | .bar sc i _ => sc == runScope && i == id
  | _ => false

/-- Release the participants of a barrier: each retires its BAR; a stopped one when it may run again, R171. -/
def releaseBar (r : Run) (harts : List Nat) (s : State) : State :=
  harts.foldl (fun t h =>
    let c := coreOf t h
    if c.stopped then setCore h { c with stall := .released } t else retireCustom r h c t) s

/-- Release every barrier that its participants have reached; a run barrier also waits for the run's transfers, R171. -/
def tryBarriers (serial : Nat) (s : State) : State :=
  match runOf s serial with
  | none => s
  | some r =>
    let s1 := [0, 1, 2, 3].foldl (fun t id =>
      if (runHarts r).all (atBar t true id) && r.transfers.isEmpty then releaseBar r (runHarts r) t else t) s
    r.cells.foldl (fun t cell =>
      [0, 1, 2, 3].foldl (fun u id =>
        let here := ((List.range 8).map (fun k => cell * 8 + k)).filter (atBar u false id)
        match here with
        | [] => u
        | h :: _ =>
          match (coreOf u h).stall with
          | .bar _ _ mask =>
            let parts := (maskCores mask).map (fun k => cell * 8 + k)
            if parts.all (atBar u false id) then releaseBar r parts u else u
          | _ => u) t) s1

/-- BAR: the core waits until every participant has arrived, R171. -/
def bar (hart : Nat) (s : State) : State :=
  coreRow hart (fun w => w % 128 == 0x2B && coreCustom w && vecGroup w == 5 && bits w 31 25 == 0) (fun r c f w s =>
    let v := (xget c (bits w 19 15)).toNat
    let mask := bits v 7 0
    let id := bits v 9 8
    let runScope := bitOf v 10
    if c.stall = .released then retireCustom r hart c s
    else if atBar s runScope id hart then tryBarriers r.serial s
    else
      let waiting := ((List.range 8).map (fun k => hart / 8 * 8 + k)).filter (atBar s false id)
      let differs := waiting.any (fun h => match (coreOf s h).stall with
        | .bar _ _ m => m != mask
        | _ => false)
      if 2048 ≤ v ∨ (runScope = false ∧ (bitOf mask (hart % 8) = false ∨ (maskCores mask).any (fun k => !bitOf r.coreMask k) = true ∨ differs = true)) then
        faultCore r hart c f 6 .badParam 0 0 s
      else tryBarriers r.serial (stallCore hart c (.bar runScope id mask) s)) s

/-- BAR. -/
def execBar (hart : Nat) (s : State) : Result := nextOf s (bar hart s)

/-- BARRIER_DEADLOCK: every core of the run has ended or waits at a barrier that cannot complete, R172; not while it is halted, R569. Which waiting core is reported is free. -/
def barrierDeadlock (h : Nat) (s : State) : State :=
  match runOf s h with
  | none => s
  | some r =>
    let stuck := (runHarts r).filter (fun x => match (coreOf s x).stall with
      | .bar _ _ _ => decide ((coreOf s x).life = .running)
      | _ => false)
    if r.halt = .none ∧ r.transfers = [] ∧ stuck ≠ []
        ∧ (runHarts r).all (fun x => decide ((coreOf s x).life = .ended) || stuck.contains x) = true then
      let (d, s1) := drawFree s
      let hart := nth stuck (d % stuck.length)
      let c := coreOf s1 hart
      faultRun r hart 6 .badParam 0 c.pc.toNat 0 (insnAt c) s1
    else s

/-- BARRIER_DEADLOCK. -/
def execBarrierDeadlock (h : Nat) (s : State) : Result := nextOf s (barrierDeadlock h s)

/-- WOPEN: opens a window, or a window fault, R168. -/
def wopen (hart : Nat) (s : State) : State :=
  coreRow hart (fun w => w % 128 == 0x2B && coreCustom w && vecGroup w == 5 && bits w 31 25 == 1) (fun r c f w s =>
    let base := (xget c (bits w 19 15)).toNat
    let v := (xget c (bits w 24 20)).toNat
    let len := bits v 31 0
    let n := bits v 33 32
    let cell := hart / 8
    let x := cellOf s cell
    if base % 64 ≠ 0 ∨ len % 64 ≠ 0 ∨ len = 0 ∨ 0xC00000 < len ∨ inScratch base len = false ∨ khas x.windows n = true
        ∨ 2 ^ 34 ≤ v ∨ x.windows.any (fun p => decide (p.2.base < base + len) && decide (base < p.2.base + p.2.len)) = true then
      faultCore r hart c f 5 .outOfRange 0 base s
    else
      retireCustom r hart c (noteHigh cell 3 (x.windows.length + 1) (setCell cell { x with windows := kset x.windows n ⟨base, len⟩ } s))) s

/-- WOPEN. -/
def execWopen (hart : Nat) (s : State) : Result := nextOf s (wopen hart s)

/-- WCLOSE: closes a window; accepted writes have landed whole (log entry 10), R170. -/
def wclose (hart : Nat) (s : State) : State :=
  coreRow hart (fun w => w % 128 == 0x2B && coreCustom w && vecGroup w == 5 && bits w 31 25 == 2) (fun r c _ w s =>
    let cell := hart / 8
    let x := cellOf s cell
    retireCustom r hart c (setCell cell { x with windows := kdel x.windows ((xget c (bits w 19 15)).toNat % 4) } s)) s

/-- WCLOSE. -/
def execWclose (hart : Nat) (s : State) : Result := nextOf s (wclose hart s)

/-- A transfer ends: its tag is free, barriers and a step may go on, R165. -/
def endTransfer (r : Run) (t : Transfer) (s : State) : State :=
  let s1 := match runOf s r.serial with
    | some q => setRun { q with transfers := q.transfers.filter (fun x => !(x.hart == t.hart && x.tag == t.tag)) } s
    | none => s
  let c := coreOf s1 t.hart
  settleStep r.serial (tryBarriers r.serial (setCore t.hart { c with tags := c.tags.filter (· != t.tag) } s1))

/-- The transfer a hart and tag name. -/
def transferAt (s : State) (hart tag : Nat) : Option (Run × Transfer) :=
  match runOfCell s (hart / 8) with
  | none => none
  | some r => (r.transfers.find? (fun t => t.hart == hart && t.tag == tag)).map (fun t => (r, t))

/-- The marks of the tiers as a run meets them: units its own writes cover are whole again, those that its writes carry marks into are poisoned, R218, R592. -/
def runTiers (r : Run) (t : Tiers) : Tiers :=
  let bad := fun u => !((List.range (poisonUnit t u)).all (fun i => khas r.writes (u + i)))
  { t with
    poisoned := t.poisoned.filter bad ++ (r.marks.map (fun m => m.1 / poisonUnit t m.1 * poisonUnit t m.1)).eraseDups
    badTags := t.badTags.filter bad }

/-- The rows of the tiers that a transfer reads. -/
def dmaRows (t : Transfer) : List (Nat × Nat) := (List.range t.rows).map (fun i => (t.src + i * t.srcStride, t.rowBytes))

/-- A transfer from the tiers into the cell's scratchpad: with XPOSE 0 marks move with the data, R592. -/
def dmaIn (r : Run) (t : Transfer) (s : State) : State :=
  let cell := t.hart / 8
  let runs := moveRuns (runRead s r) t.src t.dst t.rows t.rowBytes t.srcStride t.dstStride t.xpose
  let s1 := runs.foldl (fun u w => scratchWrite cell w.1 w.2 0xFFFF u)
    (touchPages r.tenant (dmaRows t) (noteReads r t s))
  let seen := runTiers r s.tiers
  let marks := if t.xpose = 0 then
      carriedMarks (poisonUnit s.tiers) (seen.poisoned ++ seen.badTags) t.src (scratchAddr cell t.dst) t.rows t.rowBytes t.srcStride t.dstStride
    else []
  let units := (marks.map (fun m => unitsOf s.tiers m.1 m.2)).flatten
  { s1 with tiers := { s1.tiers with poisoned := (s1.tiers.poisoned ++ units).eraseDups } }
where
  /-- its run has read the pages, which stay while it runs, R224 -/
  noteReads (r : Run) (t : Transfer) (s : State) : State :=
    match runOf s r.serial with
    | some q => setRun { q with readPages := (q.readPages ++ unitsTouched 65536 ((dmaRows t).map (fun e => (e.1, List.replicate e.2 0)))).eraseDups } s
    | none => s

/-- Pages of the tiers that runs of bytes touch and a run's writes do not yet. -/
def newPages (r : Run) (runs : List WriteRun) : Nat :=
  ((unitsTouched 65536 runs).filter (fun p => !r.writes.any (fun w => w.1 / 65536 == p))).length

/-- A transfer from the cell's scratchpad to the tiers: held until the commit, R166, R218; it waits while a victim of its shadow frames is written home, and without
frames it does nothing, R219, R224. -/
def dmaOut (r : Run) (t : Transfer) (s : State) : Room :=
  let cell := t.hart / 8
  let runs := moveRuns (scratchReader s cell) t.src t.dst t.rows t.rowBytes t.srcStride t.dstStride t.xpose
  match findFrames (some r.serial) r.tenant (newPages r runs) s with
  | .full s1 => .full s1
  | .waits s1 => .waits s1
  | .found s1 =>
    let bytes := (runs.map (fun w => (w.2.zipIdx).map (fun p => (w.1 + p.2, p.1)))).flatten
    let marks := if t.xpose = 0 then
        carriedMarks (poisonUnit s.tiers) s.tiers.poisoned (scratchAddr cell t.src) t.dst t.rows t.rowBytes t.srcStride t.dstStride
      else []
    match runOf s1 r.serial with
    | none => .found s1
    | some q =>
      let kept := q.marks.filter (fun m => !bytes.any (fun b => b.1 == m.1))
      .found (setRun { q with
        writes := bytes.foldl (fun m b => kset m b.1 b.2) q.writes
        marks := kept ++ (marks.map (fun m => (List.range m.2).map (fun i => (m.1 + i, 0)))).flatten } s1)

/-- A failure of a tier while a transfer runs, R167, R234. -/
def dmaTierFault (r : Run) (t : Transfer) (st : Status) (addr : Nat) (s : State) : State :=
  let tier := (tierAt s.tiers addr).getD 0
  faultRun r t.hart 4 st (tierDetail tier addr) t.pc.toNat addr t.insn s

/-- DMA_COMPLETE: a transfer between the scratchpad and the tiers ends, R165; `addr` is where in the tiers the outcome was met. A transposition that reads the tiers
ends with its marks, R232. -/
def dmaComplete (hart tag : Nat) (outcome : TierOutcome) (addr : Nat) (s0 : State) : State :=
  match transferAt s0 hart tag with
  | none => s0
  | some (r, t) =>
    if t.dstKind = 2 then s0
    else
      let reads := t.srcKind == 0
      let extent := if reads then (t.src, srcExtent t.rows t.rowBytes t.srcStride) else (t.dst, dstExtent t.xpose t.rows t.rowBytes t.dstStride)
      let met := if extent.1 ≤ addr ∧ addr < extent.1 + extent.2 then outcome else .good
      let s := markUnit (flightOf s0 r.serial) (reads && t.xpose != 0) false addr met s0
      if met = .failed then dmaTierFault r t .tierError addr s
      else if reads then
        match (if t.xpose = 0 then none else readsFail { s with tiers := runTiers r s.tiers } (dmaRows t)) with
        | some (st, d) => faultRun r hart 4 st d t.pc.toNat (d / 65536 * 65536) t.insn (match flightOf s r.serial with | some g => noteReadFail g st d s | none => s)
        | none => endTransfer r t (dmaIn r t s)
      else
        match (if t.xpose = 0 then none else scratchPoison s (hart / 8) t.src (srcExtent t.rows t.rowBytes t.srcStride)) with
        | some a => faultRun r hart 9 .dataPoisoned 0 t.pc.toNat a t.insn s
        | none =>
          match dmaOut r t s with
          | .found s1 => endTransfer r t s1
          | .waits s1 => s1
          | .full s1 => faultRun r hart 4 .noResource 0 t.pc.toNat t.dst t.insn s1

/-- DMA_COMPLETE. -/
def execDmaComplete (hart tag : Nat) (outcome : TierOutcome) (addr : Nat) (s : State) : Result :=
  nextOf s (dmaComplete hart tag outcome addr s)

/-- REMOTE_WRITE_ARRIVAL: a remote write lands in an open window that holds its extent, else a window fault of the writer, R169. -/
def remoteWriteArrival (hart tag : Nat) (s : State) : State :=
  match transferAt s hart tag with
  | none => s
  | some (r, t) =>
    if t.dstKind ≠ 2 then s
    else
      let target := nth r.cells (bits t.dst 39 32)
      let off := bits t.dst 23 0
      let fault := faultRun r hart 5 .outOfRange 0 t.pc.toNat off t.insn s
      match kget (cellOf s target).windows (bits t.dst 25 24) with
      | none => fault
      | some w =>
        if w.len < off + dstExtent t.xpose t.rows t.rowBytes t.dstStride then fault
        else match (if t.xpose = 0 then none else scratchPoison s (hart / 8) t.src (srcExtent t.rows t.rowBytes t.srcStride)) with
        | some a => faultRun r hart 9 .dataPoisoned 0 t.pc.toNat a t.insn s
        | none =>
          let runs := moveRuns (scratchReader s (hart / 8)) t.src (w.base + off) t.rows t.rowBytes t.srcStride t.dstStride t.xpose
          let marks := if t.xpose = 0 then
              carriedMarks (poisonUnit s.tiers) s.tiers.poisoned (scratchAddr (hart / 8) t.src) (scratchAddr target (w.base + off)) t.rows t.rowBytes t.srcStride t.dstStride
            else []
          let s1 := runs.foldl (fun u x => scratchWrite target x.1 x.2 0xFFFF u) s
          let units := (marks.map (fun m => unitsOf s.tiers m.1 m.2)).flatten
          endTransfer r t { s1 with tiers := { s1.tiers with poisoned := (s1.tiers.poisoned ++ units).eraseDups } }

/-- REMOTE_WRITE_ARRIVAL. -/
def execRemoteWriteArrival (hart tag : Nat) (s : State) : Result := nextOf s (remoteWriteArrival hart tag s)

end Sys2Proof.Machine
end

