-- ==== Sys2Proof/Machine/KernelRows.lean ====
section
/-! DEFINITION. KERNEL_LOAD, KERNEL_RUN, its commit and the deadline of a run, R174 to R179. -/

namespace Sys2Proof.Machine

open Sys2Proof

/-- The checks of KERNEL_LOAD's parameters, R174, R175. -/
def kernelLoadCheck (s : State) (f : Flight) : Option (Status × Nat) :=
  let len := par f 8 4
  let img := memRead s (par f 0 8) len
  let text := fld img 8 4
  let data := fld img 12 4
  match firstFail ([lengthIs f 16, reservedZero f 12 4] ++ extentChecks s f (par f 0 8) len 0 ++ [lengthIf (decide (len < 32)) 8]) with
  | some r => some r
  | none =>
    match readFails s (par f 0 8) len with
    | some r => some r
    | none => firstFail [
        badParamIf (fld img 0 4 != 0x4B4E4156 || fld img 4 2 != 1 || !zeroAt img 6 2 || !zeroAt img 20 12) 0,
        lengthIf (decide (text < 4) || decide (65536 < text) || text % 4 != 0 || decide (65536 < data) || data % 8 != 0
          || len != 32 + text + data) 8,
        rangeIf (decide (text ≤ fld img 16 4) || fld img 16 4 % 2 == 1) 0,
        failIf (decide (4096 ≤ s.compute.kernels.length)) .tableFull 0]

/-- KERNEL_LOAD, R174. -/
def kernelLoadCommand : Command where
  op := .kernelLoad
  changes := true
  objects := fun _ _ => []
  check := kernelLoadCheck
  run := fun s f =>
    let img := memRead s (par f 0 8) (par f 8 4)
    let text := fld img 8 4
    let (h, s1) := freshHandle 2 (kkeys s.compute.kernels) s
    let k : Kernel := ⟨f.tenant, slice img 32 text, slice img (32 + text) (fld img 12 4), fld img 16 4⟩
    .done { s1 with compute := { s1.compute with kernels := kset s1.compute.kernels h k } } (okReply (toLe 4 h ++ zeros 4))

/-- KERNEL_LOAD. -/
def execKernelLoad (h : Nat) (s : State) : Result := execCommand kernelLoadCommand h s

/-- The reserved rounding mode of a numeric control word, R102. -/
def numericBad (f : Flight) (off : Nat) : Bool × Status × Nat := badParamIf (bits (par f off 8) 3 2 == 3) off

/-- A DEADLINE_NS above its limit, R176, R180. -/
def deadlineBad (f : Flight) (off : Nat) : Bool × Status × Nat := rangeIf (decide (60000000000 < par f off 8)) off

/-- The placement names one cell and it is disabled: NO_RESOURCE, R28. -/
def placementDisabled (s : State) (w : Nat) : Bool := !(placementCells w).any (cellEnabled s)

/-- The checks of KERNEL_RUN, R176. -/
def kernelRunCheck (s : State) (f : Flight) : Option (Status × Nat) :=
  let w := par f 4 2
  let cells := par f 16 4
  let arg := par f 20 4
  let k := kget s.compute.kernels (par f 0 4)
  firstFail ([lengthIs f 40, badParamIf (par f 6 1 == 0) 6, badParamIf (cells == 0) 16, reservedZero f 7 1, numericBad f 8]
    ++ placementChecks w 4
    ++ [rangeIf (decide (192 < cells) || decide ((placementCells w).length < cells)) 16, deadlineBad f 32,
        unnamedIf f k.isNone 0,
        failIf (k.any (fun x => x.tenant != f.tenant)) .notPermitted 0]
    ++ (if arg = 0 ∨ 4096 < arg then [] else extentChecks s f (par f 24 8) arg 24)
    ++ [lengthIf (decide (4096 < arg)) 20,
        lengthIf (k.any (fun x => decide (65536 < x.data.length + ceilDiv arg 8 * 8))) 20,
        failIf (placementDisabled s w) .noResource 0])

/-- KERNEL_RUN: an item of CELLS cells waits for its grant, R177, R385; the operands that place it are its argument bytes, R23. -/
def kernelRunCommand : Command where
  op := .kernelRun
  changes := true
  objects := fun _ _ => []
  check := kernelRunCheck
  run := fun s f =>
    match kget s.compute.kernels (par f 0 4) with
    | none => .reject .outOfRange 48
    | some k => .begun (submitItem f (par f 4 2) (par f 16 4) (par f 16 4) true 0 (dieOrder (dieShares [(par f 24 8, par f 20 4)])).head?
        { s with compute := { s.compute with images := kset s.compute.images f.serial k } })

/-- KERNEL_RUN. -/
def execKernelRun (h : Nat) (s : State) : Result := execCommand kernelRunCommand h s

/-- Marks that a committed run leaves on the units its transfers carried them to, R592. -/
def runMarks (t : Tiers) (r : Run) : List Nat := (r.marks.map (fun m => unitsOf t m.1 1)).flatten.eraseDups

/-- A run whose cores have all ended and whose transfers are complete, R178. -/
def runComplete (s : State) (r : Run) : Bool :=
  (runHarts r).all (fun h => decide ((coreOf s h).life = .ended)) && r.transfers.isEmpty

/-- The cells of an item are released: RELEASE is recorded, R578. -/
def trackRelease (i : WorkItem) (cycles : Nat) (s : State) : State :=
  i.cells.foldl (fun t c => track 5 c i.tenant i.commandId cycles 0 t) s

/-- The commit of a run whose cores have ended, in the frames its transfers hold: writes become visible, counters, charge and record follow, R178, R219, R227, R388. -/
def kernelApply (f : Flight) (r : Run) (cycles : Nat) (s : State) : CommitOutcome :=
  let runs := r.writes.map (fun w => (w.1, [w.2]))
  match commitWrites (some f.serial) f.tenant runs (unitsTouched 65536 runs).length s with
  | .waits s1 => .waits s1
  | .fails st d s1 => .fails st d s1
  | .done s0 =>
    let s1 := { s0 with compute := { s0.compute with
      runs := s0.compute.runs.filter (fun q => q.serial != r.serial), images := kdel s0.compute.images r.serial } }
    let s2 := { s1 with tiers := { s1.tiers with poisoned := (s1.tiers.poisoned ++ runMarks s1.tiers r).eraseDups } }
    let s3 := (s2.sched.items.filter (fun i => i.serial == r.serial)).foldl (fun t i => trackRelease i cycles t) s2
    let s4 := addCounts f.tenant r.counts (chargeCells f.tenant cycles s3)
    .done (commitObjects [] (endWaiters r 2 0 (removeItems r.serial (freeCells r.cells s4))))

/-- The result of a run, R178. -/
def kernelResult (cycles : Nat) : Reply := okReply (toLe 8 cycles ++ zeros 8)

/-- KERNEL_RUN_COMMIT: saturations are checked (R105), then the run commits, or votes where it is part of a front-wide command (R72). -/
def kernelRunCommit (h cycles : Nat) (s : State) : State :=
  match runOf s h, flightOf s h with
  | some r, some f =>
    if !runComplete s r || r.voted.isSome then s
    else if overSatLimit r.numeric r.counts.sat then schedPoint (abortFlight f .saturationLimit r.counts.sat [] s)
    else match kernelApply f r cycles s with
      | .waits s1 => s1
      | .fails st d s1 => schedPoint (abortFlight f st d [] s1)
      | .done s1 =>
        match f.prep with
        | none => schedPoint (finish f (kernelResult cycles) s1)
        | some key => castVote key f.tenant f.hdr.commandId (kernelResult cycles) (addPledge key f.tenant s1
            (lockPages key (unitsTouched 65536 (r.writes.map (fun w => (w.1, [w.2])))) (setRun { r with voted := some cycles } s)))
  | _, _ => s

/-- KERNEL_RUN_COMMIT. -/
def execKernelRunCommit (h cycles : Nat) (s : State) : Result := nextOf s (kernelRunCommit h cycles s)

/-- COMMAND_DEADLINE: a run, LAYER_RUN or SEARCH whose deadline passes before its commit point ends without effect, R178, R185, R278; which core of a run its record names is free. -/
def commandDeadline (h now : Nat) (s0 : State) : State :=
  let s := advance now s0
  match flightOf s h with
  | none => s0
  | some f =>
    if f.op = .kernelRun then
      if s.frontTime < deadlineOf f 32 ∨ f.running = false then s0
      else match runOf s h with
        | some r =>
          let (d, s1) := drawFree s
          let hart := nth (runHarts r) (d % (runHarts r).length)
          let c := coreOf s1 hart
          schedPoint (faultRun r hart 7 .deadlineMissed 0 c.pc.toNat 0 (insnAt c) s1)
        | none => schedPoint (abortFlight f .deadlineMissed 0 (zeros 24 ++ [7] ++ zeros 7) s)
    else if f.op = .layerRun then
      if s.frontTime < deadlineOf f 16 ∨ f.running = false then s0 else schedPoint (abortFlight f .deadlineMissed 0 [] s)
    else match deadlineAt f with
      | some off => if s.frontTime < deadlineOf f off then s0 else abortFlight f .deadlineMissed 0 [] s
      | none => s0

/-- COMMAND_DEADLINE. -/
def execCommandDeadline (h now : Nat) (s : State) : Result := nextOf s (commandDeadline h now s)

end Sys2Proof.Machine
end

