-- ==== Sys2Proof/Machine/ChainRows.lean ====
section
/-! DEFINITION. CHAIN_DEFINE, LAYER_RUN, its commit, TILE: chapter 06. -/

namespace Sys2Proof.Machine

open Sys2Proof

/-- The stage entry at an offset, R190. -/
def stageAt (b : Bytes) (o : Nat) : ChainStage where
  code := fld b o 1
  mode := fld b (o + 1) 1
  opndA := fld b (o + 2) 1
  opndB := fld b (o + 3) 1
  fmt := fld b (o + 4) 1 % 16
  scheme := fld b (o + 4) 1 / 16 % 4
  rnd := fld b (o + 5) 1
  param0 := fld b (o + 8) 4
  param1 := fld b (o + 12) 4

/-- The chain that CHAIN_DEFINE's parameters spell, R189, R190. -/
def chainFrom (tenant : Nat) (b : Bytes) : Chain :=
  let p := fld b 0 1
  ⟨tenant, fld b 2 1 % 2, (List.range p).map (fun i => stageAt b (16 + 16 * i)),
    (List.range (fld b 1 1)).map (fun i => stageAt b (16 + 16 * (p + i)))⟩

/-- Which operand slots a stage needs: none, one or both of A and B; a normalisation's may be left out, R194, R196, R199. -/
def stageSlots (st : ChainStage) : Option Bool × Option Bool :=
  let need := some true
  let none' := some false
  match st.code with
  | 0x01 | 0x02 | 0x12 => (if st.mode = 0 then none' else need, none')
  | 0x04 => (if st.mode = 0 then need else none', none')
  | 0x05 | 0x15 => (need, none')
  | 0x06 | 0x13 | 0x14 => (need, need)
  | 0x07 => if st.mode = 0 then (none', none') else if st.mode = 1 then (need, none') else if st.mode = 2 then (none, none) else (none, none')
  | 0x0B => (if st.mode = 0 then none' else need, none')
  | 0x11 => (if st.scheme = 0 then none' else need, none')
  | _ => (none', none')

/-- A slot byte breaks its rule: missing, present where none is taken, or above 7. -/
def slotBad (want : Option Bool) (slot : Nat) : Bool :=
  match want with
  | some true => decide (7 < slot)
  | some false => slot != 0xFF
  | none => slot != 0xFF && decide (7 < slot)

/-- MODE values that a stage admits, R194 to R199. -/
def modeBad (st : ChainStage) : Bool :=
  match st.code with
  | 0x01 | 0x02 | 0x12 | 0x0B => decide (2 < st.mode)
  | 0x03 => decide (5 < st.mode % 128)
  | 0x04 | 0x08 | 0x09 | 0x14 => decide (1 < st.mode)
  | 0x07 => decide (3 < st.mode)
  | _ => st.mode != 0

/-- Parameters of ROPE and CLAMP that break their rules, and the reserved block scheme of QUANT and DEQUANT, R15, R192, R196. -/
def paramBad (st : ChainStage) : Bool :=
  match st.code with
  | 0x0C => f32IsNan st.param0 || f32IsNan st.param1 || numLt (decodeNum 0 st.param1) (decodeNum 0 st.param0)
  | 0x14 =>
    let h := st.param0 % 65536
    let r := st.param0 / 65536
    h == 0 || r % 2 == 1 || decide (r < 2) || decide (h < r)
  | 0x08 | 0x11 => st.scheme == 3
  | _ => false

/-- A format outside the list of its stage, R194, R196; a stage whose operand has no format has no list, but a code that is no format stands in none, R15. -/
def stageFmtBad (st : ChainStage) : Bool :=
  decide (12 < st.fmt) || match st.code with
  | 0x01 | 0x02 | 0x12 => st.mode != 0 && decide (2 < st.fmt)
  | 0x04 => st.mode == 0 && !(decide (st.fmt ≤ 4) || st.fmt == 8)
  | 0x05 => !(decide (st.fmt ≤ 4) || st.fmt == 8)
  | 0x07 => decide (1 < st.mode) && decide (2 < st.fmt)
  | 0x08 => st.fmt == 0 || decide (9 < st.fmt) || (st.scheme != 0 && !scalable st.fmt)
  | 0x11 => decide (9 < st.fmt) || (st.scheme != 0 && !scalable st.fmt)
  | _ => false

/-- A code admitted in an epilogue, in a prologue, R190. -/
def epiCode (c : Nat) : Bool := decide (1 ≤ c) && decide (c ≤ 0x0C)
def proCode (c : Nat) : Bool := decide (0x11 ≤ c) && decide (c ≤ 0x15)

/-- How many stages have a code. -/
def countCode (l : List ChainStage) (code : Nat) : Nat := (l.filter (fun st => st.code == code)).length

/-- The placement rules of R191 that a chain breaks. -/
def chainRulesBad (c : Chain) : Bool :=
  (!c.prologue.isEmpty && ((c.prologue.head?.map (·.code)) != some 0x11 || countCode c.prologue 0x11 != 1))
    || (c.proSide == 1 && decide (0 < countCode c.prologue 0x13))
    || decide (1 < countCode c.epilogue 7) || decide (1 < countCode c.epilogue 8) || decide (1 < countCode c.epilogue 9)
    || (stagesAfter 8 c.epilogue).any (fun st => st.code != 9 && st.code != 0x0A)
    || ((stagesAfter 7 c.epilogue).any (fun st => st.code == 4 && st.mode == 1))

/-- The checks of CHAIN_DEFINE, R192. -/
def chainDefineCheck (s : State) (f : Flight) : Option (Status × Nat) :=
  let p := par f 0 1
  let n := par f 1 1
  let c := chainFrom f.tenant f.params
  let all := c.prologue ++ c.epilogue
  firstFail [lengthIs f (16 + 16 * (p + n)), rangeIf (decide (4 < p)) 0, rangeIf (decide (8 < n)) 1,
    badParamIf (decide (1 < par f 2 1)) 2, reservedZero f 3 13,
    badParamIf (c.prologue.any (fun st => !proCode st.code) || c.epilogue.any (fun st => !epiCode st.code)) 16,
    badParamIf ((List.range (p + n)).any (fun i => !zeroAt f.params (22 + 16 * i) 2 || decide (63 < par f (20 + 16 * i) 1))) 16,
    badParamIf (all.any (fun st => modeBad st || paramBad st || decide (3 < st.rnd) || (st.code != 8 && st.rnd != 0))) 16,
    badParamIf (all.any (fun st => slotBad (stageSlots st).1 st.opndA || slotBad (stageSlots st).2 st.opndB)) 16,
    badParamIf (chainRulesBad c) 16,
    formatIf (all.any stageFmtBad) 16,
    failIf (decide (4096 ≤ s.compute.chains.length)) .tableFull 0]

/-- CHAIN_DEFINE, R188. -/
def chainDefineCommand : Command where
  op := .chainDefine
  changes := true
  objects := fun _ _ => []
  check := chainDefineCheck
  run := fun s f =>
    let (h, s1) := freshHandle 3 (kkeys s.compute.chains) s
    .done { s1 with compute := { s1.compute with chains := kset s1.compute.chains h (chainFrom f.tenant f.params) } }
      (okReply (toLe 4 h ++ zeros 4))

/-- CHAIN_DEFINE. -/
def execChainDefine (h : Nat) (s : State) : Result := execCommand chainDefineCommand h s

/-- The rules of a paired operation that a layer and its successor break, R203. -/
def pairBad (l : Layer) (c : Chain) (next : Option (Layer × Chain)) : Bool :=
  match next with
  | none => true
  | some (l1, c1) =>
    l1.paired || l1.m != l.m || l1.k != l.n
      || (((stagesAfter 7 c.epilogue).any (fun st => st.code != 0x0A)) || !(c.epilogue.any (fun st => st.code == 7 && st.mode == 0)))
      || c.epilogue.any (fun st => st.code == 8 || st.code == 9 || st.code == 5 || (st.code == 4 && st.mode == 1))
      || !c1.prologue.isEmpty || l.group.length != 1 || l1.group.length != 1
      || l.outAddr != 0 || l.outScl != 0 || l.outFmt != 0 || l1.aAddr != 0 || l1.aScl != 0

/-- Whether the entries of a group ascend strictly. -/
def ascending : List Nat → Bool
  | a :: b :: l => decide (a < b) && ascending (b :: l)
  | _ => true

/-- The rules of a reduction group that a layer breaks, R206; that its modules lie within the scope is checked apart. -/
def groupBad (f : Flight) (i : Nat) (l : Layer) (c : Chain) : Bool :=
  let b := 32 + 192 * i
  let g := par f (b + 88) 1
  let sends := c.epilogue.any (fun st => st.code == 9)
  g == 0 || decide (16 < g)
    || !ascending l.group
    || (List.range 16).any (fun j => decide (g ≤ j) && par f (b + 160 + 2 * j) 2 != 0xFFFF)
    || decide (ceilDiv l.k 32 < g)
    || (decide (1 < g) && (!sends || (stagesBefore 9 c.epilogue).any (fun st => st.code != 0x0A)))
    || (g == 1 && sends)

/-- Reserved fields of a layer descriptor and fields that must be zero where unused, R181. -/
def layerReservedBad (f : Flight) (i : Nat) (l : Layer) (c : Chain) : Bool :=
  let b := 32 + 192 * i
  let used := (c.prologue ++ c.epilogue).flatMap (fun st => [st.opndA, st.opndB])
  descReservedBad f.params b || l.abs == 3 || l.bbs == 3
    || (l.abs == 0 && l.aScl != 0) || (l.bbs == 0 && l.bScl != 0) || ((outFormat c l).2 == 0 && l.outScl != 0)
    || (List.range 8).any (fun j => !used.contains j && nth l.opnds j != 0)

/-- A hold area is needed, R199, R201. -/
def holdNeed (l : Layer) (c : Chain) (first : Bool) : Nat :=
  let w := outWidth c l
  if 128 < w ∧ first = false ∧ c.epilogue.any (fun st => st.code == 7 && st.mode != 1) = true then 65536 * ceilDiv w 128 else 0

/-- A GATE in SIBLING mode needs N a multiple of 256; a ROPE needs K a multiple of its head, R194, R196. -/
def shapeBad (l : Layer) (c : Chain) : Bool :=
  (sibling c && l.n % 256 != 0)
    || c.prologue.any (fun st => st.code == 0x14 && l.k % (st.param0 % 65536) != 0)

/-- Strides below their rows, R184. -/
def strideBad (l : Layer) (c : Chain) (first second : Bool) : Bool :=
  let out := outFormat c l
  let short := fun rows stride len => decide (1 < rows) && decide (stride < len)
  (!second && short l.m l.aStride (rowBytesOf l.k (storedFormat c 0 l).1)) || short l.n l.bStride (rowBytesOf l.k (storedFormat c 1 l).1)
    || (!first && short l.m l.outStride (rowBytesOf (outWidth c l) out.1))
    || (c.prologue ++ c.epilogue).any (fun st =>
        (st.code == 4 && st.mode == 0 && short l.m st.param0 (rowBytesOf l.n st.fmt)) || (st.code == 5 && short l.m st.param0 (rowBytesOf (outWidth c l) st.fmt))
        || (st.code == 0x0B && st.mode != 0 && short l.m st.param1 (rowBytesOf l.n 12))
        || (st.code == 0x15 && short (if c.proSide = 0 then l.m else l.n) st.param0 (rowBytesOf l.k 12)))

/-- Strides of stage operands, R194, R196. -/
def stageStrides (c : Chain) : List Nat :=
  (c.prologue ++ c.epilogue).flatMap (fun st =>
    if (st.code = 4 ∧ st.mode = 0) ∨ st.code = 5 ∨ st.code = 0x15 then [st.param0] else if st.code = 0x0B ∧ st.mode ≠ 0 then [st.param1] else [])

/-- An output of a layer meets what the layer reads, its outlier section among it, or its own other outputs: the block headers, and the results of LOGSUMEXP, which
are an operand of their stage, R184 (log entry 76). -/
def outputsMeet (s : State) (l : Layer) (ex : List Extent) : Bool :=
  let at' := fun (e : Extent) => (e.1, e.2.1)
  let outs := ((ex.filter (fun e => e.2.2)).map at')
  let ins := ((ex.filter (fun e => !e.2.2)).map at')
    ++ (if l.outlier = 0 then [] else [(l.outlier, outlierLen (min 256 (fld (memRead s l.outlier 8) 0 2)) l.n)])
  outs.any (fun o => ins.any (overlaps o))
    || (outs.zipIdx).any (fun p => (outs.drop (p.2 + 1)).any (overlaps p.1))

/-- The parameter checks of one layer but those of its extents, in the order of R184. -/
def layerFieldChecks (s : State) (f : Flight) (ls : List Layer) (i : Nat) (l : Layer) : List (Bool × Status × Nat) :=
  let b := 32 + 192 * i
  let ch := chainOf s.compute.chains l
  let c := ch.getD Chain.empty
  let (first, second) := layerPos ls i
  let ex := layerExtents l c first second
  let next := match ls[i + 1]? with
    | none => none
    | some l1 => some (l1, (chainOf s.compute.chains l1).getD Chain.empty)
  [unnamedIf f ch.isNone b,
   failIf (ch.any (fun x => l.chain != 0xFFFFFFFF && x.tenant != f.tenant)) .notPermitted 0,
   rangeIf (l.m == 0 || decide (1048576 < l.m)) (b + 4), rangeIf (l.n == 0 || decide (1048576 < l.n)) (b + 8),
   rangeIf (l.k == 0 || decide (1048576 < l.k)) (b + 12),
   badParamIf (layerReservedBad f i l c) (b + 84),
   badParamIf (first && pairBad l c next) (b + 87), badParamIf (groupBad f i l c) (b + 88), badParamIf (shapeBad l c) (b + 8),
   badParamIf (outputsMeet s l ex) (b + 32),
   badParamIf (strideBad l c first second) (b + 72),
   rangeIf ([l.aAddr, l.bAddr, l.outAddr, l.aScl, l.bScl, l.outScl, l.outlier, l.aStride, l.bStride, l.outStride].any (fun x => x % 64 != 0)
     || l.opnds.any (fun x => x % 64 != 0) || (stageStrides c).any (fun x => x % 64 != 0)) (b + 16),
   formatIf (!pairAdmitted l.afmt l.bfmt l.abs l.bbs) (b + 84),
   formatIf (decide (12 < l.outFmt) || (!first && (epiStage c 8).isNone && !(decide (l.outFmt ≤ 4) || l.outFmt == 8))) (b + 86),
   failIf (decide (4194304 < holdNeed l c first)) .holdOverflow 0]

/-- The parameter checks of one layer, R184; a module of its group outside the view is told from one outside the scope, R206. -/
def layerChecks (s : State) (f : Flight) (ls : List Layer) (i : Nat) (l : Layer) : List (Bool × Status × Nat) :=
  let b := 32 + 192 * i
  let c := (chainOf s.compute.chains l).getD Chain.empty
  let ex := layerExtents l c (layerPos ls i).1 (layerPos ls i).2
  [rangeIf (l.group.any (fun m => !khas s.fabric.view.modules m) && !groupBad f i l c) (b + 160),
    badParamIf (l.group.any (fun m => !(scopeModules s f.hdr).contains m)) (b + 160)]
    ++ layerFieldChecks s f ls i l ++ ex.flatMap (fun e => extentChecks s f e.1 e.2.1 (b + 16))

/-- The outlier section of a layer, read and checked as R103 says. -/
def outlierCheck (s : State) (f : Flight) (i : Nat) (l : Layer) : Option (Status × Nat) :=
  if l.outlier = 0 then none
  else
    let d := fun (st : Status) => (st, if st.code / 256 = 1 then 48 + 32 + 192 * i + 64 else 0)
    match firstFail (extentChecks s f l.outlier 8 (32 + 192 * i + 64)) with
    | some r => some r
    | none =>
      let n := fld (memRead s l.outlier 8) 0 2
      match firstFail (extentChecks s f l.outlier (outlierLen (min 256 n) l.n) (32 + 192 * i + 64)) with
      | some r => some r
      | none => match readFails s l.outlier (outlierLen (min 256 n) l.n) with
        | some r => some r
        | none => match readOutliers (memRead s) l.outlier l.n l.k with
          | .error st => some (d st)
          | .ok _ => none

/-- Output tiles of the layers before layer `i`, R186. -/
def tileBase (chains : KMap Chain) (ls : List Layer) (i : Nat) : Nat :=
  listSum ((ls.take i).map (fun l => if l.paired then 0 else tileCount l.m (outWidth ((chainOf chains l).getD Chain.empty) l)))

/-- The first check that fails among lists made layer by layer. -/
def firstLayerFail (k : Nat → Layer → Option (Status × Nat)) : Nat → List Layer → Option (Status × Nat)
  | _, [] => none
  | i, l :: ls => match k i l with
    | some r => some r
    | none => firstLayerFail k (i + 1) ls

/-- The checks of LAYER_RUN, R184. -/
def layerRunCheck (s : State) (f : Flight) : Option (Status × Nat) :=
  let n := par f 0 2
  let w := par f 4 2
  let ls := layersOf f
  match firstFail ([lengthIs f (32 + 192 * n), lengthIf (n == 0 || decide (256 < n)) 0,
      reservedZero f 2 2, reservedZero f 6 2, reservedZero f 24 8, numericBad f 8] ++ placementChecks w 4 ++ [deadlineBad f 16,
      failIf (placementDisabled s w) .noResource 0]) with
  | some r => some r
  | none =>
    match firstLayerFail (fun i l => firstFail (layerChecks s f ls i l)) 0 ls with
    | some r => some r
    | none =>
      if 2 ^ 32 ≤ tileBase s.compute.chains ls n then some (.outOfRange, 48)
      else firstLayerFail (outlierCheck s f) 0 ls

/-- The item of layer `i`: a paired operation is one item, its tiles those of its second layer, R385. -/
def layerItem (chains : KMap Chain) (f : Flight) (i : Nat) (s : State) : State :=
  let ls := layersOf f
  let l0 := ls.getD i (layerAt [] 0)
  let j := if l0.paired then i + 1 else i
  let l := ls.getD j l0
  let c := (chainOf chains l).getD Chain.empty
  let ex := layerExtents l c false l0.paired ++ (if l0.paired then layerExtents l0 ((chainOf chains l0).getD Chain.empty) true false else [])
  let tiles := tileCount l.m (outWidth c l)
  let l00 := ls.getD 0 l0
  let first := if l00.paired then ls.getD 1 l00 else l00
  let tiles0 := tileCount first.m (outWidth ((chainOf chains first).getD Chain.empty) first)
  submitItem f (par f 4 2) tiles tiles0 false i (dieOrder (dieShares ((ex.filter (fun e => !e.2.2)).map (fun e => (e.1, e.2.1))))).head? s

/-- A TILE's place in a run: its sender is the slice of its layer's group that it names, this module is another of it, and its shape is that of the tile, R206, R208. -/
def tileFits (s : State) (f : Flight) (job : LayerJob) (peer : Nat) (p : Partial) : Bool :=
  let ls := layersOf f
  let l := ls.getD p.layer (layerAt [] 0)
  let c := (chainOf job.chains l).getD Chain.empty
  let w := outWidth c l
  let t := p.tile - tileBase job.chains ls p.layer
  decide (p.layer < ls.length) && decide (1 < l.group.length) && l.group[p.slice]? == some peer && l.group.contains s.fabric.view.self
    && decide (tileBase job.chains ls p.layer ≤ p.tile) && decide (t < tileCount l.m w)
    && p.rows == min 128 (l.m - 128 * (t / ceilDiv w 128)) && p.cols == min 128 (w - 128 * (t % ceilDiv w 128))

/-- A partial is kept in its slot; one that is there already, both halves of a pair, is dropped, R207, R208. -/
def keepPartial (f : Flight) (job : LayerJob) (p : Partial) : LayerJob :=
  let l := (layersOf f).getD p.layer (layerAt [] 0)
  let halves := if sibling ((chainOf job.chains l).getD Chain.empty) then 2 else 1
  let n := (job.partials.filter (fun q => q.layer == p.layer && q.tile == p.tile && q.slice == p.slice)).length
  if n < halves then { job with partials := job.partials ++ [{ p with half := n }] } else job

/-- A layer of a run has been computed on this module. -/
def layerDone (job : LayerJob) (i : Nat) : Bool := decide (i < job.layer)

/-- Partials enter the reduction once those of every slice before theirs are there: their slots are free, R208. -/
def enterPartials (serial : Nat) (s : State) : State :=
  match s.compute.jobs.find? (fun j => j.serial == serial), flightOf s serial with
  | some job, some f =>
    let ls := layersOf f
    let self := s.fabric.view.self
    let enters := fun (p : Partial) =>
      let l := ls.getD p.layer (layerAt [] 0)
      !p.entered && (List.range p.slice).all (fun j =>
        (l.group[j]? == some self && layerDone job p.layer)
          || job.partials.any (fun q => q.layer == p.layer && q.tile == p.tile && q.half == p.half && q.slice == j))
    let now := job.partials.filter enters
    let s1 := { s with compute := { s.compute with jobs := s.compute.jobs.map (fun j => if j.serial = serial then
        { j with partials := j.partials.map (fun p => if enters p then { p with entered := true } else p) } else j) } }
    now.foldl (fun t p => match (ls.getD p.layer (layerAt [] 0)).group[p.slice]? with
      | some m => returnSlot m f.tenant f.hdr.commandId t
      | none => t) s1
  | _, _ => s

/-- The partials that have come for a run before it began are its own now, R208. -/
def takeEarly (f : Flight) (s : State) : State :=
  let mine := fun (e : EarlyTile) => e.tenant == f.tenant && e.corr == f.hdr.commandId
  match s.compute.jobs.find? (fun j => j.serial == f.serial) with
  | none => s
  | some job =>
    let fit := (s.compute.tiles.filter mine).filter (fun e => tileFits s f job e.peer e.part)
    let job1 := fit.foldl (fun j e => keepPartial f j e.part) job
    enterPartials f.serial { s with compute := { s.compute with
      tiles := s.compute.tiles.filter (fun e => !mine e)
      jobs := s.compute.jobs.map (fun j => if j.serial = f.serial then job1 else j) } }

/-- The pages of the outputs of the layers that this member runs, R219. -/
def layerShadow (s : State) (f : Flight) : List Nat :=
  let ls := layersOf f
  let self := s.fabric.view.self
  pagesOfExtents (layerOutputs s.compute.chains ((ls.zipIdx).filterMap (fun p =>
    if runsHere self ls (if 0 < p.2 ∧ (ls.getD (p.2 - 1) p.1).paired then p.2 - 1 else p.2) then some p.1 else none)))

/-- A LAYER_RUN begins with the shadow frames of its outputs: the first layer that runs here waits for cells, R183, R385. -/
def startLayers (f : Flight) (s : State) : State :=
  let ls := layersOf f
  let first := nextHere s.fabric.view.self ls (ls.length + 1) 0
  let job : LayerJob := ⟨f.serial, f.tenant, first, 0, s.compute.chains, [], [], [], none, layerShadow s f⟩
  let s1 := takeEarly f { s with compute := { s.compute with jobs := s.compute.jobs ++ [job] } }
  if first < ls.length then layerItem s1.compute.chains f first s1 else s1

/-- LAYER_RUN: it finds the shadow frames of its outputs, R219; its first layer waits for cells, R183, R385. -/
def layerRunCommand : Command where
  op := .layerRun
  changes := true
  objects := fun _ _ => []
  check := layerRunCheck
  run := fun s f =>
    match findFrames (some f.serial) f.tenant (layerShadow s f).length s with
    | .full s1 => .rejectIn s1 .noResource 0
    | .waits s1 => .waitIn s1
    | .found s1 => .begun (startLayers f s1)

/-- LAYER_RUN. -/
def execLayerRun (h : Nat) (s : State) : Result := execCommand layerRunCommand h s

/-- A quantised output of an earlier layer of the same run and the FP32 rows that entered its QUANT, R106. -/
structure QuantSource where
  env : ChainEnv
  stage : ChainStage
  rows : List (List Nat)
  /-- how many of the run's writes there were when it had been written -/
  upto : Nat

/-- A run of layers in progress. -/
structure JobAcc where
  result : LayerResult
  sources : List QuantSource

/-- Nothing computed. -/
def LayerResult.empty : LayerResult := ⟨[], NumCounts.zero, 0, 0, [], []⟩

/-- The environment of layer `i` of a run after the runs of the layers before it, R183. -/
def envOf (s : State) (f : Flight) (job : LayerJob) (ls : List Layer) (runs : List WriteRun) (i : Nat) : ChainEnv :=
  let l := ls.getD i (layerAt [] 0)
  let m := applyRuns s.mem runs
  { read := Memory.readN m, tenant := f.tenant, steers := s.compute.steers, numeric := par f 8 8, layer := i
    base := tileBase job.chains ls i, desc := l, chain := (chainOf job.chains l).getD Chain.empty
    slice := (l.group.findIdx? (· == s.fabric.view.self)).getD 0
    partials := job.partials, free := fun k => Config.freeNat (s.freeCtr + k), mine := fun _ _ => true }

/-- A stored row of activations as a QUANT wrote it: the source, its row, and the column at which the row begins. -/
abbrev RowSource := QuantSource × Nat × Nat

/-- A row of a layer's activations lies in a row of a source, its block headers with it, and nothing has been written over it since, R106. -/
def rowIn (runs : List WriteRun) (l : Layer) (r : Nat) (q : QuantSource) : Option RowSource :=
  let d := q.env.desc
  let w := outWidth q.env.chain d
  let b := fmtBits l.afmt
  let hb := schemeBytes (schemeOf l.abs)
  let a := l.aAddr + r * l.aStride
  let len := rowBytesOf l.k l.afmt
  let hdr := (l.aScl + r * headerRow l.k l.abs, headerRow l.k l.abs)
  let later := runs.drop q.upto
  let fresh := fun (e : Nat × Nat) => !(later.any (fun x => overlaps (x.1, x.2.length) e))
  let inRow := fun (o : Nat) =>
    let start := d.outAddr + o * d.outStride
    let col := (a - start) * 8 / b
    decide (start ≤ a) && decide ((a - start) * 8 % b = 0) && decide (col + l.k ≤ w)
      && (hb == 0 || (col % 32 == 0 && d.outScl + o * headerRow w l.abs + col / 32 * hb == hdr.1))
  if q.stage.fmt = l.afmt ∧ q.stage.scheme = l.abs ∧ fresh (a, len) = true ∧ (hb = 0 ∨ fresh hdr = true) then
    ((List.range d.m).find? inRow).map (fun o => (q, o, (a - (d.outAddr + o * d.outStride)) * 8 / b))
  else none

/-- Where a layer's activations come from, row by row, R106: QUANT stages of earlier layers whose bytes they still are; none for a prologue's, which no QUANT stage makes. -/
def quantSource (acc : JobAcc) (c : Chain) (l : Layer) : Option (List RowSource) :=
  if hasPrologue c 0 then none
  else (List.range l.m).mapM (fun r => acc.sources.reverse.findSome? (rowIn acc.result.runs l r))

/-- Tiles of a layer's output by tile index, R186. -/
def layerTiles (e : ChainEnv) : List Nat := (List.range (tileCount e.desc.m (outWidth e.chain e.desc))).map (e.base + ·)

/-- The shadow metric of a tile as an exact value, R106. -/
def shadowMetric (ys zs : List Nat) : Num :=
  let big := fun (l : List Num) => l.foldl (fun a b => if numLt a b then b else a) (.fin false 0 0)
  let diff := (ys.zip zs).map (fun p => numAbs (numAdd (decodeNum 0 p.1) (numNeg (decodeNum 0 p.2))))
  let den := big (zs.map (fun z => numAbs (decodeNum 0 z)))
  numDiv (big diff) (if numLt den (.fin false 1 (-126)) then .fin false 1 (-126) else den)

/-- The elements of one tile of the heavy product. -/
def tileElems (e : ChainEnv) (rows : List (List Nat)) (t : Nat) : List Nat :=
  ((rows.zipIdx).map (fun r => (r.1.zipIdx).filterMap (fun c => if heavyTile e r.2 c.2 = t then some c.1 else none))).flatten

/-- A row of activations taken again from the FP32 values that entered its QUANT, to FP8 E4M3 under the same scheme and rounding, R106. -/
def shadowRow (x : RowSource) (k : Nat) : Comp (List StreamElem) := do
  let (q, row, col) := x
  let l := q.rows.getD row []
  let mode := quantMode q.env q.stage.rnd
  let ds := modeDraws q.env mode (outWidth q.env.chain q.env.desc) row l.length
  let bs ← ((blocks32 l.length l).zipIdx).mapM (fun b =>
    quantBlock32 3 q.stage.scheme mode (bitOf q.stage.mode 0) ((ds.drop (32 * b.2)).take 32) b.1)
  let es := bs.flatMap (fun b => (b.1.zipIdx).map (fun p => (⟨p.1, scaledNum (schemeOf q.stage.scheme) 3 b.2 p.2 p.1, 3⟩ : StreamElem)))
  let mine := (es.drop col).take k
  pure (mine ++ List.replicate ((32 - mine.length % 32) % 32) ⟨0, .fin false 0 0, 3⟩)

/-- The shadow check of a layer, R106: it changes no result, count or status. -/
def shadowCheck (e : ChainEnv) (src : Option (List RowSource)) : Nat × Nat × List (Nat × Nat) :=
  if bitOf e.numeric 1 = false then (0, 0, [])
  else
    let picked := (layerTiles e).filter (fun t => t % 2 ^ bits e.numeric 7 4 == 0)
    match (if fmtBits e.desc.afmt < 8 then src else none) with
    | none => (0, picked.length, [])
    | some qs =>
      let quiet := { e with numeric := e.numeric / 2 * 2 }
      let main := (ownHeavy quiet).run LayerResult.empty
      let shadow := (do
        let as ← qs.mapM (fun x => shadowRow x e.desc.k)
        let (_, bs) ← layerOperands quiet
        heavyRows quiet as bs : Comp (List (List Nat))).run LayerResult.empty
      match main, shadow with
      | .ok (y, _), .ok (z, _) =>
        let tol : Num := .fin false 1 (-(4 + (bits e.numeric 11 8 : Int)))
        let large := picked.filterMap (fun t =>
          let m := shadowMetric (tileElems e y t) (tileElems e z t)
          if numLt tol m then some (t, (fp32Out m).1) else none)
        (picked.length, 0, large)
      | _, _ => (picked.length, 0, [])

/-- The poison and tags that the reads of a layer meet, R233, R234: marks of units that the run itself has written in full are gone. -/
def layerReadFail (s : State) (runs : List WriteRun) (exs : List Extent) : Option (Status × Nat) :=
  readsFail { s with tiers := { s.tiers with
    poisoned := marksAfter s.tiers runs s.tiers.poisoned
    badTags := marksAfter s.tiers runs s.tiers.badTags } } ((exs.filter (fun e => !e.2.2)).map (fun e => (e.1, e.2.1)))

/-- Layers `i` onwards, at most `fuel` of them, run one after another, R183. -/
def runLayers (s : State) (f : Flight) (job : LayerJob) (ls : List Layer) : Nat → Nat → JobAcc → Except ChainStop JobAcc
  | 0, _, acc => .ok acc
  | fuel + 1, i, acc =>
    match ls[i]? with
    | none => .ok acc
    | some l =>
      if !runsHere s.fabric.view.self ls i then runLayers s f job ls fuel (if l.paired then i + 2 else i + 1) acc
      else
      let e := envOf s f job ls acc.result.runs i
      let pads := fun (x : ChainEnv) (second : Bool) => if layerPads x second then Except.error (ChainStop.fails .badParam (48 + 32 + 192 * x.layer + 16)) else Except.ok ()
      let reads := fun exs => match layerReadFail s acc.result.runs exs with
        | some (st, d) => Except.error (ChainStop.fails st d)
        | none => Except.ok ()
      if l.paired then do
        let e1 := envOf s f job ls acc.result.runs (i + 1)
        reads (layerExtents l e.chain true false ++ layerExtents e1.desc e1.chain false true)
        pads e false
        pads e1 true
        let (rows, r) ← (runPaired e e1).run acc.result
        let sh := shadowCheck e1 none
        let r1 := { r with sampled := r.sampled + sh.1, skipped := r.skipped + sh.2.1, exceeds := r.exceeds ++ sh.2.2 }
        let src := match epiStage e1.chain 8 with
          | some q => [(⟨e1, q, rows, r.runs.length⟩ : QuantSource)]
          | none => []
        runLayers s f job ls fuel (i + 2) ⟨r1, acc.sources ++ src⟩
      else do
        reads (layerExtents l e.chain false false)
        pads e false
        let (rows, r) ← (runLayer e).run acc.result
        let sh := shadowCheck e (quantSource acc e.chain l)
        let r1 := { r with sampled := r.sampled + sh.1, skipped := r.skipped + sh.2.1, exceeds := r.exceeds ++ sh.2.2 }
        let src := match epiStage e.chain 8 with
          | some q => [(⟨e, q, rows, r.runs.length⟩ : QuantSource)]
          | none => []
        runLayers s f job ls fuel (i + 1) ⟨r1, acc.sources ++ src⟩

/-- What the layers of a run come to. -/
def jobResult (s : State) (f : Flight) (job : LayerJob) (count : Nat) : Except ChainStop LayerResult :=
  let ls := (layersOf f).take count
  match runLayers s f job ls (ls.length + 1) 0 ⟨LayerResult.empty, []⟩ with
  | .ok a => .ok a.result
  | .error e => .error e

/-- The record of a NaN met by a layer; the cell that met it is a free value. -/
def layerNanRecord (f : Flight) (n : ChainNan) (s : State) : Nat × Bytes × State :=
  let (d, s1) := drawFree s
  let cells := (placementCells (par f 4 2)).filter (cellEnabled s)
  let unit := (if n.site < 3 then 0 else 0x2000) + nth cells (d % max 1 cells.length)
  (unit, nanRecord s f.hdr.commandId unit f.tenant n.site n.stage n.operand n.fmt n.layer n.tile n.row n.col n.kgroup n.bits n.other 0, s1)

/-- A LAYER_RUN that cannot reach its commit point ends without effect. -/
def layerStops (f : Flight) (e : ChainStop) (s : State) : State :=
  match e with
  | .waits => s
  | .fails st d => schedPoint (abortFlight f st d [] (noteReadFail f st d s))
  | .nan n =>
    let (unit, b, s1) := layerNanRecord f n s
    schedPoint (nanTrap f.serial unit f.tenant b s1)

/-- Round an exact integer multiple of a power of two to FP32 order for MIN and MAX of a gauge, R585. -/
def gaugeTake (g : Gauge) (row col b : Nat) : Gauge :=
  let g1 := { g with elements := g.elements + 1 }
  if f32IsNan b then { g1 with nans := g1.nans + 1 }
  else
    let x := decodeNum 0 b
    let g2 := { g1 with infs := g1.infs + (if numIsFin x then 0 else 1), min := f32Min g1.min b, max := f32Max g1.max b }
    let g3 := match x with
      | .fin neg m e =>
        let v : Int := (if neg then -1 else 1) * ((m * 2 ^ (e + 149).toNat : Nat) : Int)
        { g2 with sum := g2.sum + v, sumSq := g2.sumSq + v.natAbs * v.natAbs }
      | _ => g2
    let z0 : W64 := (BitVec.ofNat 64 (row * 2 ^ 32 + col) * 0x9E3779B97F4A7C15) ^^^ BitVec.ofNat 64 b
    let z1 : W64 := (z0 ^^^ (z0 >>> 30)) * 0xBF58476D1CE4E5B9
    let z2 : W64 := (z1 ^^^ (z1 >>> 27)) * 0x94D049BB133111EB
    { g3 with digest := g3.digest + (z2 ^^^ (z2 >>> 31)) }

/-- Elements that GAUGE stages saw enter the armed slots of the tenant; TILES counts the tiles they came from, R585, R586. -/
def gaugeAll (tenant : Nat) (l : List (Nat × Nat × Nat × Nat)) (s : State) : State :=
  l.foldl (fun t x =>
    if 63 < x.1 then t
    else match kget t.dbg.gauges (tenant * 64 + x.1) with
      | none => t
      | some g =>
        if g.armed = false then t
        else
          let g1 := gaugeTake g x.2.1 x.2.2.1 x.2.2.2
          let g2 := if x.2.1 % 128 = 0 ∧ x.2.2.1 % 128 = 0 then { g1 with tiles := g1.tiles + 1 } else g1
          { t with dbg := { t.dbg with gauges := kset t.dbg.gauges (tenant * 64 + x.1) g2 } }) s

/-- SHADOW_EXCEED records, on the track ring of a cell that the device names (a free value), R106. -/
def trackExceeds (f : Flight) : List (Nat × Nat) → State → State
  | [], s => s
  | (t, m) :: l, s =>
    let (d, s1) := drawFree s
    trackExceeds f l (track 7 (nth (placementCells (par f 4 2)) (d % max 1 (placementCells (par f 4 2)).length)) f.tenant f.hdr.commandId t m s1)

/-- The effect of a LAYER_RUN at its commit point, in the frames it holds: bytes, counters, gauges, R105, R107, R185, R219. -/
def layerApply (f : Flight) (framesHeld : Nat) (r : LayerResult) (s : State) : CommitOutcome :=
  match commitWrites (some f.serial) f.tenant r.runs framesHeld s with
  | .waits s1 => .waits s1
  | .fails st d s1 => .fails st d s1
  | .done s1 =>
    let s2 := addCounts f.tenant r.counts (gaugeAll f.tenant r.gauges s1)
    let s3 := bump .shadowSampled f.tenant r.sampled (bump .shadowSkipped f.tenant r.skipped (bump .shadowExceed f.tenant r.exceeds.length s2))
    .done (commitObjects [] (trackExceeds f r.exceeds { s3 with freeCtr := s3.freeCtr + 2 ^ 44 }))

/-- A job in place. -/
def setJob (j : LayerJob) (s : State) : State :=
  { s with compute := { s.compute with jobs := s.compute.jobs.map (fun x => if x.serial = j.serial then j else x) } }

/-- A job leaves; its TILE channels are free. -/
def dropJob (serial : Nat) (s : State) : State :=
  { s with compute := { s.compute with jobs := s.compute.jobs.filter (fun x => x.serial != serial) } }

/-- The result of a LAYER_RUN, R185. -/
def layerReply (job : LayerJob) : Reply := okReply (toLe 8 job.charged ++ zeros 8)

/-- LAYER_RUN_COMMIT: every layer has run and every partial has arrived: it commits, or votes where it is part of a front-wide command, R72, R185. -/
def layerRunCommit (h : Nat) (s : State) : State :=
  match flightOf s h, s.compute.jobs.find? (fun j => j.serial == h) with
  | some f, some job =>
    if job.layer < par f 0 2 || s.sched.items.any (fun i => i.serial == h) || job.held.isSome then s
    else match jobResult s f job (par f 0 2) with
      | .error e => layerStops f e s
      | .ok r =>
        if overSatLimit (par f 8 8) r.counts.sat then schedPoint (abortFlight f .saturationLimit r.counts.sat [] s)
        else match layerApply f job.shadowPages.length r s with
          | .waits s1 => s1
          | .fails st d s1 => schedPoint (abortFlight f st d [] s1)
          | .done s1 =>
            match f.prep with
            | none => finish f (layerReply job) (dropJob h s1)
            | some key => castVote key f.tenant f.hdr.commandId (layerReply job) (addPledge key f.tenant (dropJob h s1)
                (lockPages key (unitsTouched 65536 r.runs) (setJob { job with held := some r } s)))
  | _, _ => s

/-- LAYER_RUN_COMMIT. -/
def execLayerRunCommit (h : Nat) (s : State) : Result := nextOf s (layerRunCommit h s)

/-- The partials of one split layer that this member owes to others: every other member, or the root of each tile, R207; both halves of a SIBLING pair, one behind the
other (log entry 75). -/
def owedPartials (s : State) (e : ChainEnv) (own : List (List Nat)) : List (Nat × Partial) :=
  match e.chain.epilogue.find? (fun st => st.code == 9) with
  | none => []
  | some send =>
    let w := outWidth e.chain e.desc
    (layerTiles e).flatMap (fun t =>
      let i := (t - e.base) / ceilDiv w 128
      let j := (t - e.base) % ceilDiv w 128
      let rows := min 128 (e.desc.m - 128 * i)
      let cols := min 128 (w - 128 * j)
      let data := fun h => ((List.range rows).map (fun r => ((own.getD (128 * i + r) []).drop (w * h + 128 * j)).take cols)).flatten
      let others := (e.desc.group.zipIdx).filter (fun m => m.1 != s.fabric.view.self && (send.mode == 0 || t % e.desc.group.length == m.2))
      others.flatMap (fun m => (List.range (if sibling e.chain then 2 else 1)).map (fun h => (m.1, ⟨e.layer, t, e.slice, rows, cols, data h, h, false⟩))))

/-- Bytes of a TILE message behind the common header, R430. -/
def tileBody (entry : Nat) (p : Partial) : Bytes :=
  toLe 2 entry ++ toLe 2 p.slice ++ toLe 4 p.layer ++ toLe 4 p.tile ++ toLe 1 (p.rows % 128) ++ toLe 1 (p.cols % 128) ++ zeros 2 ++ p.data.flatMap (toLe 4)

/-- Channels 4 to 4,095 to a peer that something holds, R425. -/
def heldChannels (s : State) (dst : Nat) : List Nat :=
  (s.compute.jobs.flatMap (·.channels)).filterMap (fun c => if c.1 = dst then some c.2 else none)
    ++ s.serve.requests.filterMap (fun r => if r.shipTo = some dst then some r.channel else none)
    ++ s.serve.inbound.filterMap (fun x => if x.peer = dst ∧ x.accepted = true then some x.channel else none)

/-- The channel of a job to a member: its own, or a free one that it takes now; none where all are in use, which counts as a wait, R425. -/
def tileChannel (serial dst : Nat) (s : State) : Option Nat × State :=
  match s.compute.jobs.find? (fun j => j.serial == serial) with
  | none => (none, s)
  | some job =>
    match job.channels.find? (fun c => c.1 == dst) with
    | some c => (some c.2, s)
    | none => match firstFree (heldChannels s dst) 4 4092 with
      | none => (none, { s with fabric := { s.fabric with channelWaits := s.fabric.channelWaits + 1 } })
      | some ch => (some ch, setChannel dst ch Channel.reset (setJob { job with channels := job.channels ++ [(dst, ch)] } s))

/-- Send the partials of a job that have a slot credit, one a destination, R208, R426. -/
def pumpTiles (serial : Nat) : Nat → State → State
  | 0, s => s
  | fuel + 1, s =>
    match s.compute.jobs.find? (fun j => j.serial == serial), flightOf s serial with
    | some job, some f =>
      match job.outbox.find? (fun o => match job.channels.find? (fun c => c.1 == o.1) with
          | some c => (channelOf s o.1 c.2).slotCredit
          | none => true) with
      | none => s
      | some (dst, p) =>
        let (ch, s1) := tileChannel serial dst s
        match ch with
        | none => s1
        | some ch =>
          let entry := match f.prep with
            | some k => k.coord
            | none => s.fabric.view.self
          let s2 := sendMessage dst 0x01 0 f.tenant f.hdr.commandId ch (tileBody entry p) s1
          let s3 := setChannel dst ch { channelOf s2 dst ch with slotCredit := false } s2
          let s4 := match s3.compute.jobs.find? (fun j => j.serial == serial) with
            | none => s3
            | some j => setJob { j with outbox := j.outbox.filter (fun o => !(o.1 == dst && o.2.tile == p.tile && o.2.layer == p.layer && o.2.half == p.half)) } s3
          let s5 := { s4 with sched := { s4.sched with items := s4.sched.items.map (fun i => if i.serial = serial then { i with fixed := true } else i) } }
          pumpTiles serial fuel s5
    | _, _ => s

/-- A split layer's own partial is computed and goes into the outbox, R207; none where an earlier split layer still waits for partials. -/
def sendPartials (f : Flight) (job : LayerJob) (i : Nat) (s : State) : Except ChainStop State :=
  let ls := layersOf f
  let l := ls.getD i (layerAt [] 0)
  if l.group.length ≤ 1 then .ok s
  else
    match jobResult s f job i with
    | .error e => .error e
    | .ok r =>
      let e := envOf s f job ls r.runs i
      match (ownHeavy e).run LayerResult.empty with
      | .error x => .error x
      | .ok (own, _) =>
        let s1 := setJob { job with outbox := job.outbox ++ owedPartials s e own } s
        .ok (pumpTiles f.serial (job.outbox.length + (owedPartials s e own).length) s1)

/-- A run by the COMMAND_ID and tenant that a TILE names and the member that entered it. -/
def jobOfTile (s : State) (m : Msg) : Option (Flight × LayerJob) :=
  match s.proto.flights.find? (fun f => decide (f.op = .layerRun) && f.hdr.commandId == m.corr && f.tenant == m.tenant
      && s.compute.jobs.any (fun j => j.serial == f.serial)) with
  | none => none
  | some f => (s.compute.jobs.find? (fun j => j.serial == f.serial)).map (fun j => (f, j))

/-- TILE: a partial arrives and waits in its slot until the slices before it have entered, R207, R208; one that comes before its command waits for it (log entry 75). -/
def tileMessage (peer : Nat) (plain : Bytes) (s : State) : State :=
  onMessage 0x01 peer plain s (fun m s1 =>
    let b := m.body
    let rows := if fld b 12 1 = 0 then 128 else fld b 12 1
    let cols := if fld b 13 1 = 0 then 128 else fld b 13 1
    if !zeroAt b 14 2 || b.length != 16 + 4 * rows * cols || decide (128 < rows) || decide (128 < cols) then malformed s1
    else
      let p : Partial := ⟨fld b 4 4, fld b 8 4, fld b 2 2, rows, cols, unpack 32 (rows * cols) (b.drop 16), 0, false⟩
      match jobOfTile s1 m with
      | none => { s1 with compute := { s1.compute with tiles := s1.compute.tiles ++ [⟨peer, m.tenant, m.corr, p⟩] } }
      | some (f, job) => if tileFits s1 f job peer p then enterPartials f.serial (setJob (keepPartial f job p) s1) else malformed s1)

/-- TILE. -/
def execTile (peer : Nat) (plain : Bytes) (s : State) : Result := nextOf s (tileMessage peer plain s)

end Sys2Proof.Machine
end

