-- ==== Sys2Proof/Machine/AccountOps.lean ====
section
/-! DEFINITION. Latency histograms (R397 to R400, R588), token budgets (R402, R403), contracts: capacity, shedding, risk, breaches (R405 to R411). -/

namespace Sys2Proof.Machine

open Sys2Proof

/-- A tenant exists: tenant 0, or one created, R469. -/
def tenantExists (s : State) (t : Nat) : Bool := t == 0 || khas s.sec.tenants t

/-- A tenant session names its own tenant, an operator session one that exists: NOT_PERMITTED or OUT_OF_RANGE. -/
def ownTenant (s : State) (f : Flight) (t off : Nat) : List (Bool × Status × Nat) :=
  [failIf (f.tenant != 0 && t != f.tenant) .notPermitted 0, rangeIf (f.tenant == 0 && !tenantExists s t) off]

/-- Edge E_b of a bucket, R398. -/
def bucketEdge : Nat → Nat
  | 0 => 10000
  | b + 1 => ceilDiv (21 * bucketEdge b) 20

/-- The bucket of a value: the first edge above it, from `b`, R398. -/
def bucketFrom (v : Nat) : Nat → Nat → Nat → Nat
  | 0, b, _ => b
  | fuel + 1, b, edge => if v < edge then b else bucketFrom v fuel (b + 1) (ceilDiv (21 * edge) 20)

/-- The bucket of a value, R398. -/
def bucketOf (v : Nat) : Nat := bucketFrom v 255 0 10000

/-- A count added to a bucket. -/
def bucketAdd (h : KMap Nat) (b : Nat) : KMap Nat := kset h b ((kgetD h b 0 + 1) % 2 ^ 64)

/-- Samples of a histogram copy. -/
def sampleCount (h : KMap Nat) : Nat := listSum (kvals h)

/-- The first bucket at which the cumulative count reaches a rank. -/
def rankBucket (rank : Nat) : Nat → KMap Nat → Nat
  | _, [] => 255
  | acc, (b, n) :: l => if rank ≤ acc + n then b else rankBucket rank (acc + n) l

/-- The reported percentile, R400; none without samples. -/
def reported (h : KMap Nat) (ppm : Nat) : Option Nat :=
  let n := sampleCount h
  if n = 0 then none
  else
    let b := rankBucket (ceilDiv (ppm * n) 1000000) 0 h
    some (if b = 255 then 0xFFFFFFFFFFFFFFFF else bucketEdge b)

/-- Length of a tenant's histogram windows in ms, R588. -/
def histWindowMs (s : State) (tenant : Nat) : Nat := ((kget s.sched.contracts tenant).map (·.windowMs)).getD 1000

/-- Index of the window that a front time lies in, R399. -/
def windowIndex (windowMs t : Nat) : Nat := t / (windowMs * 1000000)

/-- A histogram at a window: PREVIOUS takes CURRENT at a window's start, R588. -/
def rollHistogram (h : Histogram) (w : Nat) : Histogram :=
  if w ≤ h.window then h
  else { h with previous := if w = h.window + 1 then h.current else [], current := [], window := w }

/-- A tenant's histogram as it stands in the present window. -/
def histogramOf (s : State) (tenant metric : Nat) : Histogram :=
  rollHistogram (kgetD s.sched.histograms (tenant * 16 + metric) Histogram.empty) (windowIndex (histWindowMs s tenant) s.frontTime)

/-- Store a histogram. -/
def setHistogram (tenant metric : Nat) (h : Histogram) (s : State) : State :=
  { s with sched := { s.sched with histograms := kset s.sched.histograms (tenant * 16 + metric) h } }

/-- A sample by bucket and stamp enters a histogram, R588. -/
def histSample (tenant metric bucket stamp : Nat) (s : State) : State :=
  let h := histogramOf s tenant metric
  let w := windowIndex (histWindowMs s tenant) stamp
  let h1 := { h with lifetime := bucketAdd h.lifetime bucket }
  setHistogram tenant metric
    (if h.window ≤ w then { h1 with current := bucketAdd h1.current bucket }
     else if w + 1 = h.window then { h1 with previous := bucketAdd h1.previous bucket }
     else { h1 with late := h1.late + 1 }) s

/-- A contract's window, kept while its covered requests have not all ended. -/
def contractWindow (c : Contract) (w : Nat) : ContractWindow := (c.windows.find? (fun x => x.index == w)).getD ⟨w, 0, 0, []⟩

/-- Store a contract's window. -/
def setContractWindow (c : Contract) (x : ContractWindow) : Contract :=
  { c with windows := if c.windows.any (fun y => y.index == x.index) then c.windows.map (fun y => if y.index = x.index then x else y) else c.windows ++ [x] }

/-- Store a contract. -/
def setContract (tenant : Nat) (c : Contract) (s : State) : State :=
  { s with sched := { s.sched with contracts := kset s.sched.contracts tenant c } }

/-- A latency sample of a request: codes 0 to 4 always, 8 to 12 and the contract's window where it is covered, R397, R407. -/
def recordSample (tenant metric bucket stamp : Nat) (covered : Bool) (s : State) : State :=
  let s1 := histSample tenant metric bucket stamp s
  if covered = false then s1
  else
    let s2 := histSample tenant (metric + 8) bucket stamp s1
    match kget s2.sched.contracts tenant with
    | none => s2
    | some c =>
      if c.metric ≠ metric then s2
      else
        let x := contractWindow c (windowIndex c.windowMs stamp)
        setContract tenant (setContractWindow c { x with samples := bucketAdd x.samples bucket }) s2

/-- A budget at a window: refilled once for each window start passed, R402. -/
def refillTo (b : Budget) (w : Nat) : Budget :=
  if w ≤ b.window then b
  else { b with
    level := min (b.level + ((w - b.window) * b.refill : Nat)) (b.capacity : Int)
    window := w
    admitted := 0 }

/-- A tenant's budget as it stands at the present front time. -/
def budgetOf (s : State) (tenant : Nat) : Option Budget :=
  (kget s.sched.budgets tenant).map (fun b => refillTo b (windowIndex b.windowMs s.frontTime))

/-- Store a budget. -/
def setBudget (tenant : Nat) (b : Budget) (s : State) : State :=
  { s with sched := { s.sched with budgets := kset s.sched.budgets tenant b } }

/-- Tokens are debited in full, R402. -/
def debit (tenant tokens : Nat) (s : State) : State :=
  let s1 := bump .tokensDebited tenant tokens s
  match budgetOf s1 tenant with
  | none => s1
  | some b => setBudget tenant { b with level := b.level - (tokens : Int) } s1

/-- Why the budget refuses a request: DETAIL of BUDGET_EXHAUSTED, R403. -/
def budgetRefuses (s : State) (tenant : Nat) : Option Nat :=
  match budgetOf s tenant with
  | none => none
  | some b => if b.level ≤ 0 then some 0 else if b.reqLimit ≠ 0 ∧ b.reqLimit ≤ b.admitted then some 1 else none

/-- F of R406 in MHz: the lowest cell clock in force at any of the last 100 ticks, R527. -/
def lowClock (p : Power) : Nat := (listMin? p.mhzHistory).getD (cellMhz p)

/-- Capacity C of a module in millionths of a cell-cycle per second, R406. -/
def capacityPpm (s : State) : Nat :=
  ((List.range 192).filter (cellEnabled s)).length * (lowClock s.power * 1000000) * s.sched.admitPpm

/-- Demand D, R406, but for a tenant's own contract. -/
def demandWithout (s : State) (tenant : Nat) : Nat :=
  listSum ((s.sched.contracts.filter (fun p => p.1 != tenant)).map (fun p => p.2.rate * p.2.cost))

/-- Demand D of all contracts. -/
def demandAll (s : State) : Nat := listSum (s.sched.contracts.map (fun p => p.2.rate * p.2.cost))

/-- One contract's share in a round of shedding: tenant, class, weight, allocation left. -/
structure Alloc2 where
  tenant : Nat
  cls : Nat
  weight : Nat
  alloc : Rat

/-- Rounds of shedding within one class, R409: the shortfall that is left and the allocations. -/
def shedClass (cls : Nat) : Nat → Rat → List Alloc2 → Rat × List Alloc2
  | 0, short, l => (short, l)
  | fuel + 1, short, l =>
    let group := l.filter (fun a => decide (a.cls = cls) && decide (0 < a.alloc))
    if short ≤ 0 ∨ group.isEmpty then (short, l)
    else
      let wsum := listSum (group.map (·.weight))
      let take := fun (a : Alloc2) =>
        let cut : Rat := short * (a.weight : Rat) / (wsum : Rat)
        if cut ≤ a.alloc then cut else a.alloc
      let taken : Rat := group.foldl (fun t a => t + take a) 0
      let l1 := l.map (fun a => if a.cls = cls ∧ 0 < a.alloc then { a with alloc := a.alloc - take a } else a)
      shedClass cls fuel (short - taken) l1

/-- Shedding over the classes 3, 2, 1, 0, R409. -/
def shedAll (short : Rat) (l : List Alloc2) : List Alloc2 :=
  ([3, 2, 1, 0].foldl (fun (p : Rat × List Alloc2) cls => shedClass cls (p.2.length + 1) p.1 p.2) (short, l)).2

/-- The allowed rate of every contract, R409. -/
def allowedRates (s : State) : KMap Nat :=
  let short : Rat := (demandAll s : Rat) - (capacityPpm s : Rat) / 1000000
  let l := s.sched.contracts.map (fun p => (⟨p.1, p.2.cls, (shareOf s p.1).weight, (p.2.rate * p.2.cost : Nat)⟩ : Alloc2))
  (shedAll short l).map (fun a =>
    let cost := ((kget s.sched.contracts a.tenant).map (·.cost)).getD 1
    (a.tenant, (a.alloc / (cost : Rat)).floor.toNat))

/-- The result of a BREACH event, R411. -/
def breachResult (tenant : Nat) (c : Contract) (kind observed start covered : Nat) : Bytes :=
  toLe 2 tenant ++ toLe 1 c.cls ++ toLe 1 kind ++ toLe 1 c.metric ++ zeros 3 ++ toLe 4 c.ppm ++ toLe 4 c.allowed ++ toLe 8 c.target
    ++ toLe 8 observed ++ toLe 8 start ++ toLe 8 covered ++ zeros 16

/-- A BREACH event at its reporting member's own ring: posted, or counted as unposted, R411. -/
def postBreach (ring session tenant commandId detail : Nat) (b : Bytes) (unpostedHere : Bool) (s : State) : State :=
  let cq := cqOf s.host ring
  let open' := khas s.proto.sessions session
  let fits := decide (cq.state = .enabled) && decide (recordSlots 64 ≤ cqFree cq)
  let s1 := if open' then postRecord ring session commandId true false false false s.frontTime { status := .ok, detail := detail, result := b } s else s
  if (open' && fits) || !unpostedHere then s1 else bump .breachUnposted tenant 1 s1

/-- A breach, or the end of a capacity breach, is reported by the contract's reporting member, R411. -/
def reportBreach (tenant : Nat) (c : Contract) (kind commandId observed start covered : Nat) (s : State) : State :=
  let b := breachResult tenant c kind observed start covered
  let self := s.fabric.view.self
  let detail := 0x0A01 + self * 65536
  if c.member = self then postBreach c.ring c.session tenant commandId detail b true s
  else if reaches s c.member then
    sendMessage c.member 0x08 1 tenant commandId 0
      (cmdFwdBody 1 0 c.member 0 (replyBody commandId s.frontTime { status := .ok, detail := detail, result := b })) s
  else bump .breachUnposted tenant 1 s

/-- A window is judged, R410, R411. -/
def judgeWindow (tenant : Nat) (x : ContractWindow) (s : State) : State :=
  match kget s.sched.contracts tenant with
  | none => s
  | some c =>
    let c1 := { c with windows := c.windows.filter (fun y => y.index != x.index) }
    match reported x.samples c.ppm with
    | none => setContract tenant c1 s
    | some e =>
      if e ≤ c.target then setContract tenant c1 s
      else
        let start := x.index * c.windowMs * 1000000
        bump .breaches tenant 1 (reportBreach tenant c 0 x.index e start (sampleCount x.samples)
          (setContract tenant { c1 with lastBreach := start } s))

/-- A covered request is at risk by its present window, R408. -/
def riskOf (s : State) (c : Contract) : Bool :=
  match reported (contractWindow c (windowIndex c.windowMs s.frontTime)).samples c.ppm with
  | none => false
  | some e => decide (7 * c.target < 8 * e)

/-- The management tick's part for contracts: risks (R408), allowed rates and capacity breaches (R409, R410). -/
def contractTick (s : State) : State :=
  let rates := allowedRates s
  s.sched.contracts.foldl (fun t p =>
    let c := p.2
    let a := kgetD rates p.1 c.rate
    let c1 := { c with allowed := a, atRisk := riskOf s c }
    let t1 := setContract p.1 c1 t
    if a < c.rate ∧ c.allowed = c.rate then
      bump .breaches p.1 1 (reportBreach p.1 c1 1 0 0 s.frontTime 0 (setContract p.1 { c1 with lastBreach := s.frontTime } t1))
    else if a = c.rate ∧ c.allowed < c.rate then reportBreach p.1 c1 2 0 0 s.frontTime 0 t1
    else t1) s

/-- Whether a request of a tenant would be covered at a front time, R407; none without a contract. -/
def coverage (s : State) (tenant : Nat) : Option Bool :=
  (kget s.sched.contracts tenant).map (fun c =>
    decide ((contractWindow c (windowIndex c.windowMs s.frontTime)).admitted < max 1 (c.allowed * c.windowMs / 1000)))

/-- A covered admission is counted, R407. -/
def admitCovered (tenant stamp : Nat) (s : State) : State :=
  match kget s.sched.contracts tenant with
  | none => s
  | some c =>
    let x := contractWindow c (windowIndex c.windowMs stamp)
    bump .covered tenant 1 (setContract tenant (setContractWindow c { x with admitted := x.admitted + 1 }) s)

/-- A covered request has ended, R410. -/
def endCovered (tenant stamp : Nat) (s : State) : State :=
  match kget s.sched.contracts tenant with
  | none => s
  | some c =>
    let w := windowIndex c.windowMs stamp
    if c.windows.any (fun y => y.index == w) then
      let x := contractWindow c w
      setContract tenant (setContractWindow c { x with ended := x.ended + 1 }) s
    else s

end Sys2Proof.Machine
end

