-- ==== Sys2Proof/Machine/DebugOps.lean ====
section
/-! DEFINITION. What debug does to a run: naming it (R571), resuming it (R573), clearing breakpoints (R564, R567); redaction of track records (R579). -/

namespace Sys2Proof.Machine

open Sys2Proof

/-- A run goes on after a halt: stopped cores continue, one at an EBREAK behind it, R573, R578. -/
def resumeRun (serial : Nat) (s : State) : State :=
  match runOf s serial with
  | none => s
  | some r =>
    if r.halt = .halted then
      let harts := (runHarts r).filter (fun h => (coreOf s h).stopped)
      let s1 := harts.foldl (fun t h =>
        let c := coreOf t h
        let c1 := if c.reason = 2 then
            { c with pc := c.pc + (if (fetchAt c).any (fun x => x.len == 2) then 2 else 4), instret := c.instret + 1 }
          else c
        track 0xB (0x1000 + h) r.tenant r.commandId 0 0 (setCore h { c1 with stopped := false, passBreak := c.reason == 1 } t)) s
      tryBarriers serial (setRun { r with halt := .none, brk := none } s1)
    else s

/-- The kernel handles of a tenant. -/
def tenantKernels (s : State) (tenant : Nat) : List Nat :=
  (s.compute.kernels.filter (fun k => k.2.tenant == tenant)).map (·.1)

/-- Breakpoints are cleared. -/
def clearBreaks (p : Breakpoint → Bool) (s : State) : State :=
  { s with dbg := { s.dbg with breaks := s.dbg.breaks.filter (fun b => !p b) } }

/-- A session's breakpoints are cleared when it closes, and the runs they halted resume, R567. -/
def closeBreaks (session : Nat) (s : State) : State :=
  let ids := (s.dbg.breaks.filter (fun b => b.session == session)).map (·.id)
  let s1 := clearBreaks (fun b => b.session == session) s
  (s1.compute.runs.filter (fun r => r.brk.any ids.contains)).foldl (fun t r => resumeRun r.serial t) s1

/-- DEBUG_CONSENT 0 commits: the tenant's breakpoints go, its halted runs resume, R564. -/
def withdrawConsent (tenant : Nat) (s : State) : State :=
  let ks := tenantKernels s tenant
  let s1 := clearBreaks (fun b => b.kind != 2 && ks.contains b.handle) s
  (s1.compute.runs.filter (fun r => r.tenant == tenant)).foldl (fun t r => resumeRun r.serial t) s1

/-- Redactable bytes of a record body by its code, R579: first offset and length. -/
def redactable (code : Nat) : Option (Nat × Nat) :=
  if code = 6 then some (40, 8) else if code = 8 then some (16, 4) else if code = 7 then some (24, 8) else none

/-- A record with its redactable fields zero and REDACTED set, R579. -/
def redact (r : TrackRec) : TrackRec :=
  match redactable r.code with
  | none => r
  | some (off, n) => { r with redacted := true, body := r.body.take off ++ zeros n ++ r.body.drop (off + n) }

/-- Every record of a tenant is redacted for good: TENANT_DESTROY, R579. -/
def redactTenant (tenant : Nat) (s : State) : State :=
  { s with dbg := { s.dbg with tracks := s.dbg.tracks.map (fun p =>
      (p.1, { p.2 with recs := p.2.recs.map (fun r => if r.tenant = tenant then redact r else r) })) } }

/-- The 80 bytes of a track record, R577. -/
def trackBytes (r : TrackRec) : Bytes :=
  toLe 8 r.time ++ toLe 4 r.seq ++ toLe 2 (r.code + 32768 * b2n r.redacted) ++ toLe 2 r.unit ++ (r.body ++ zeros 64).take 64

/-- The 64 bytes of a fault-log record, R594. -/
def faultBytes (r : FaultRec) : Bytes :=
  let b := toLe 4 r.seq ++ toLe 2 r.code ++ toLe 1 r.sev ++ toLe 1 r.action ++ toLe 8 r.time ++ toLe 4 r.boot ++ toLe 2 r.unit
    ++ toLe 2 r.tenant ++ toLe 8 r.command ++ toLe 8 r.arg0 ++ toLe 8 r.arg1 ++ zeros 12
  b ++ toLe 4 (crc32 b).toNat

/-- An exact number of `m` units of 2^`e` rounded to FP64, nearest even, R585. -/
def fp64Of (neg : Bool) (m : Nat) (e : Int) : Nat :=
  if m = 0 then 0
  else
    let l := Nat.log2 m
    let q :=
      if l ≤ 52 then m * 2 ^ (52 - l)
      else
        let sh := l - 52
        let lo := m / 2 ^ sh
        let rem := m % 2 ^ sh
        if 2 ^ (sh - 1) < rem ∨ (rem = 2 ^ (sh - 1) ∧ lo % 2 = 1) then lo + 1 else lo
    (if neg then 2 ^ 63 else 0) + ((l : Int) + e + 1023).toNat * 2 ^ 52 + (q - 2 ^ 52)

/-- The 64 bytes of a gauge slot, R586. -/
def gaugeBytes (g : Gauge) : Bytes :=
  toLe 8 g.elements.toNat ++ toLe 8 g.nans.toNat ++ toLe 8 g.infs.toNat ++ toLe 4 g.min ++ toLe 4 g.max
    ++ toLe 8 (fp64Of (decide (g.sum < 0)) g.sum.natAbs (-149)) ++ toLe 8 (fp64Of false g.sumSq (-298))
    ++ toLe 8 g.digest.toNat ++ toLe 4 g.tiles.toNat ++ toLe 1 (b2n g.armed) ++ zeros 3

end Sys2Proof.Machine
end

