-- ==== Sys2Proof/Machine/ItemOps.lean ====
section
/-! DEFINITION. Configuration items (R65, R603): where they stand in a TXN_SET, their lengths and ranges (R217, R348, R412, R437, R467, R478, R549, R600), their values, and what setting one does. -/

namespace Sys2Proof.Machine

open Sys2Proof

/-- VALUE_LEN of an item; none for an item that no chapter defines. -/
def itemLen (id : Nat) : Option Nat :=
  kget [(0x00000001, 1), (0x00000002, 8), (0x00000003, 4), (0x00000005, 4), (0x00000010, 1), (0x02000001, 16), (0x02000002, 32),
    (0x02000003, 24), (0x02000004, 16), (0x09000001, 1), (0x0A000001, 4), (0x0A000002, 4), (0x0B000001, 8), (0x0B000002, 4),
    (0x0B000003, 4), (0x0B000004, 4), (0x0B000005, 4), (0x0D000001, 4)] id

/-- Items that no TXN_SET may set, R348, R437, R467, R549. -/
def itemFixed (id : Nat) : Bool := [0x00000001, 0x00000002, 0x00000003, 0x00000005, 0x09000001, 0x0B000001].contains id

/-- The items that CONFIG_GET returns in session 0, R467. -/
def itemPublic (id : Nat) : Bool := [0x0B000001, 0x00000001, 0x00000002, 0x00000003].contains id

/-- The per-tenant items, R65. -/
def itemPerTenant (id : Nat) : Bool := id == 0x02000002 || id == 0x00000010

/-- Reserved bytes within an item's value: offset and length. -/
def itemReserved (id : Nat) : Nat × Nat :=
  if id = 0x02000002 then (2, 2) else if id = 0x02000004 then (12, 4) else if id = 0x0B000004 ∨ id = 0x0B000005 then (1, 3) else (0, 0)

/-- A number lies outside a range. -/
def outside (lo hi n : Nat) : Bool := decide (n < lo) || decide (hi < n)

/-- A value outside its item's range, R217, R412, R437, R478, R600. -/
def itemRangeBad (id : Nat) (v : Bytes) : Bool :=
  let n4 := fun (i : Nat) => fld v (4 * i) 4
  if id = 0x00000010 then outside 0 1 (fld v 0 1)
  else if id = 0x02000001 then (List.range 4).any (fun d => outside 0 4718592 (n4 d))
  else if id = 0x02000003 then [0, 8, 16].any (fun o => fld v o 8 % 65536 != 0) || outside 0 0x100000000000 (fld v 16 8)
  else if id = 0x02000004 then (List.range 3).any (fun t => outside 10 1000000 (n4 t))
  else if id = 0x0A000001 then outside 100000 1000000 (n4 0)
  else if id = 0x0A000002 then outside 0 16 (n4 0)
  else if id = 0x0B000002 then outside 2 1000 (n4 0)
  else if id = 0x0B000003 then outside 100 100000 (n4 0)
  else if id = 0x0B000004 then outside 0 127 (fld v 0 1)
  else if id = 0x0B000005 then outside 0 1 (fld v 0 1)
  else if id = 0x0D000001 then n4 0 == 0
  else false

/-- The entries of a TXN_SET from an offset of its parameters: offset, ITEM_ID, VALUE_LEN, R65. -/
def itemEntries (b : Bytes) : Nat → Nat → List (Nat × Nat × Nat)
  | 0, _ => []
  | n + 1, off => (off, fld b off 4, fld b (off + 4) 2) :: itemEntries b n (off + 8 + ceilDiv (fld b (off + 4) 2) 8 * 8)

/-- Length of the parameters of a TXN_SET. -/
def itemsLen (l : List (Nat × Nat × Nat)) : Nat := 4 + listSum (l.map (fun e => 8 + ceilDiv e.2.2 8 * 8))

/-- The entries of a TXN_SET. -/
def setEntries (f : Flight) : List (Nat × Nat × Nat) := itemEntries f.params (min 64 (par f 0 2)) 4

/-- The items a TXN_SET sets, in order. -/
def setItems (f : Flight) : List Item := (setEntries f).map (fun e => ⟨e.2.1, slice f.params (e.1 + 8) e.2.2⟩)

/-- The checks of one entry of a TXN_SET at staging, R65, R217. -/
def itemChecks (f : Flight) (e : Nat × Nat × Nat) : List (Bool × Status × Nat) :=
  let (off, id, len) := e
  let v := slice f.params (off + 8) len
  let r := itemReserved id
  [rangeIf (itemLen id).isNone off,
   failIf (itemFixed id || (f.tenant != 0 && id != 0x00000010)) .notPermitted 0,
   lengthIf (itemLen id != some len) (off + 4),
   reservedZero f (off + 6) 2,
   reservedZero f (off + 8 + r.1) r.2,
   reservedZero f (off + 8 + len) (ceilDiv len 8 * 8 - len),
   rangeIf (itemRangeBad id v) (off + 8)]

/-- The checks of a TXN_SET at staging, R63, R65. -/
def setChecks (f : Flight) : Option (Status × Nat) :=
  let es := setEntries f
  firstFail ([lengthIs f (itemsLen (itemEntries f.params (par f 0 2) 4)), badParamIf (par f 0 2 == 0 || decide (64 < par f 0 2)) 0,
    reservedZero f 2 2] ++ es.flatMap (itemChecks f))

/-- The tenant an item belongs to; 0 for a module item. -/
def itemTenant (tenant : Nat) (i : Item) : Nat :=
  if i.id = 0x02000002 then fld i.value 0 2 else if i.id = 0x00000010 then tenant else 0

/-- The configuration object of an item, R67. -/
def itemObject (tenant : Nat) (i : Item) : Obj :=
  if i.id = 0x02000002 then ⟨.tierQuota, itemTenant tenant i⟩ else ⟨.item, i.id + 2 ^ 32 * itemTenant tenant i⟩

/-- The value of an item on this module, R603. -/
def itemValue (s : State) (id sel : Nat) : Bytes :=
  let q := quotaOf s.tiers sel
  if id = 0x00000001 then toLe 1 s.sec.lifecycle
  else if id = 0x00000002 then toLe 8 s.sec.build
  else if id = 0x00000003 then toLe 4 s.sec.bootCount
  else if id = 0x00000005 then toLe 4 s.power.slotId
  else if id = 0x00000010 then toLe 1 (kgetD s.sec.consent sel 0)
  else if id = 0x02000001 then (List.range 4).flatMap (fun d => toLe 4 (nth s.tiers.pool d))
  else if id = 0x02000002 then toLe 2 sel ++ zeros 2 ++ toLe 4 q.frames ++ toLe 8 q.t1 ++ toLe 8 q.t2 ++ toLe 8 q.t3
  else if id = 0x02000003 then toLe 8 s.tiers.hostAddr ++ toLe 8 s.tiers.regionLen ++ toLe 8 s.tiers.logicalLen
  else if id = 0x02000004 then (List.range 3).flatMap (fun t => toLe 4 (nth s.tiers.stallUs t)) ++ zeros 4
  else if id = 0x09000001 then toLe 1 (s.role.getD 0xFF)
  else if id = 0x0A000001 then toLe 4 s.sched.admitPpm
  else if id = 0x0A000002 then toLe 4 s.sched.preemptLimit
  else if id = 0x0B000001 then toLe 8 Config.deviceUid.toNat
  else if id = 0x0B000002 then toLe 4 s.fabric.lossMs
  else if id = 0x0B000003 then toLe 4 s.fabric.ethRtoUs
  else if id = 0x0B000004 then toLe 4 s.fabric.ptpDomain
  else if id = 0x0B000005 then toLe 4 s.fabric.ppsEnable
  else toLe 4 (if s.faults.latch then s.faults.latchSeq else 0)

/-- The tenants whose quotas are summed, R217. -/
def quotaTenants (s : State) : List Nat := 0 :: kkeys s.sec.tenants

/-- A quota summed over all tenants. -/
def quotaSum (s : State) (k : Quota → Nat) : Nat := listSum ((quotaTenants s).map (fun t => k (quotaOf s.tiers t)))

/-- What a tenant holds exceeds a quota, R217. -/
def holdsMore (s : State) (tenant : Nat) (q : Quota) : Bool :=
  let t := s.tiers
  decide (q.frames < residentFrames t tenant + shadowFrames s tenant + kvFrames t tenant) || decide (q.t1 < allocBytes t tenant 1)
    || decide (q.t2 < heldSectors t tenant 2 + reservedSectors t tenant 2) || decide (q.t3 < heldSectors t tenant 3 + reservedSectors t tenant 3)

/-- The frames of a die in use exceed its pool, or its pool reaches into a range already allocated, R217. -/
def poolTakes (t : Tiers) (die : Nat) : Bool :=
  let hi := tierBase 1 + (die + 1) * 0x4800000000
  let lo := hi - nth t.pool die * 65536
  decide (nth t.pool die < dieFramesUsed t die) || t.allocs.any (fun p => decide (p.1 < hi) && decide (lo < p.1 + p.2.len))

/-- A change of pool, quotas or Tier 3 that R217 refuses with NO_RESOURCE: `old` before it, `s` after it. -/
def quotasRefuse (old s : State) : Bool :=
  decide (listSum s.tiers.pool < quotaSum s (·.frames)) || decide (tierLogical s.tiers 1 < quotaSum s (·.t1))
    || decide (tier2Sectors < quotaSum s (·.t2)) || decide (tier3Sectors s.tiers < quotaSum s (·.t3))
    || (quotaTenants s).any (fun t => decide (quotaOf s.tiers t ≠ quotaOf old.tiers t) && holdsMore s t (quotaOf s.tiers t))
    || (List.range 4).any (fun d => nth s.tiers.pool d != nth old.tiers.pool d && poolTakes s.tiers d)

/-- A block halted under R507 is still halted, R593. -/
def anyHalted (s : State) : Bool :=
  s.host.irqHalted || s.host.peekHalted || (kvals s.host.sq).any (·.halted) || (kvals s.host.cq).any (·.halted)

/-- FAULT_ACK commits: the latch clears where R593 lets it. -/
def acknowledge (seq : Nat) (s : State) : State :=
  if s.faults.latchSeq ≤ seq ∧ ¬(0 < s.faults.dropped ∧ 2 ≤ s.faults.droppedSev) ∧ anyHalted s = false then
    { s with faults := { s.faults with latch := false } }
  else s

/-- The tiers with other contents, where R217 lets them be so. -/
def setTiers (s : State) (t : Tiers) : Except (Status × Nat) State :=
  let s1 := { s with tiers := t }
  if quotasRefuse s s1 then .error (.noResource, 0) else .ok s1

/-- One item takes effect on this module, R65, R217. -/
def applyItem (tenant : Nat) (i : Item) (s : State) : Except (Status × Nat) State :=
  let v := i.value
  let n := fld v 0 4
  if i.id = 0x00000010 then
    let s1 := { s with sec := { s.sec with consent := ksetNz s.sec.consent tenant (fld v 0 1) } }
    .ok (if fld v 0 1 = 0 then withdrawConsent tenant s1 else s1)
  else if i.id = 0x02000001 then setTiers s { s.tiers with pool := (List.range 4).map (fun d => fld v (4 * d) 4) }
  else if i.id = 0x02000002 then
    if !tenantExists s (fld v 0 2) then .error (.outOfRange, 0)
    else setTiers s { s.tiers with quotas := kset s.tiers.quotas (fld v 0 2) ⟨fld v 4 4, fld v 8 8, fld v 16 8, fld v 24 8⟩ }
  else if i.id = 0x02000003 then
    if (kvals s.tiers.allocs).any (fun a => a.tier == 3) then .error (.notPermitted, 0)
    else setTiers s { s.tiers with
      hostAddr := fld v 0 8
      regionLen := fld v 8 8
      logicalLen := fld v 16 8 }
  else if i.id = 0x02000004 then .ok { s with tiers := { s.tiers with stallUs := (List.range 3).map (fun t => fld v (4 * t) 4) } }
  else if i.id = 0x0A000001 then .ok { s with sched := { s.sched with admitPpm := n } }
  else if i.id = 0x0A000002 then .ok { s with sched := { s.sched with preemptLimit := n } }
  else if i.id = 0x0B000002 then .ok { s with fabric := { s.fabric with lossMs := n } }
  else if i.id = 0x0B000003 then .ok { s with fabric := { s.fabric with ethRtoUs := n } }
  else if i.id = 0x0B000004 then .ok { s with fabric := { s.fabric with ptpDomain := fld v 0 1 } }
  else if i.id = 0x0B000005 then .ok { s with fabric := { s.fabric with ppsEnable := fld v 0 1 } }
  else if i.id = 0x0D000001 then .ok (acknowledge n s)
  else .error (.outOfRange, 0)

/-- The items of a TXN_SET take effect in their order. -/
def applyItems (tenant : Nat) : List Item → State → Except (Status × Nat) State
  | [], s => .ok s
  | i :: l, s =>
    match applyItem tenant i s with
    | .ok s1 => applyItems tenant l s1
    | .error e => .error e

end Sys2Proof.Machine
end

