-- ==== Sys2Proof/Machine/SchedRows.lean ====
section
/-! DEFINITION. Scheduling points, quadrant states, shares, budgets, contracts, accounts and windows: chapter 13 and the quadrant events of chapter 18. -/

namespace Sys2Proof.Machine

open Sys2Proof

/-- SCHEDULING_TIMER: 100 µs after the last scheduling point a new one occurs, R384. -/
def schedulingTimer (now : Nat) (s0 : State) : State :=
  let s := advance now s0
  if s.power.fwReady = true ∧ s.sched.lastPoint + 100000 ≤ s.frontTime then schedPoint s else s0

/-- SCHEDULING_TIMER. -/
def execSchedulingTimer (now : Nat) (s : State) : Result := nextOf s (schedulingTimer now s)

/-- What the arrays of an item have done is counted, tile by tile: the first tiles each at the cell it was granted, a later one at a cell of the item that the device
chooses (a free value), R23, R142; `out` gives the output tile that a tile of the arrays belongs to. -/
def countTiles (i : WorkItem) (out : Nat → Nat) : Nat → List TileWork → State → State
  | _, [], s => s
  | k, w :: ws, s =>
    let t := out k
    let (d, s1) := drawFree s
    let later := decide (i.cells.length ≤ t)
    let c := nth i.cells (if later then d % max 1 i.cells.length else t)
    let off := later && (tileDies s i t).head?.any (· != c / 48)
    countTiles i out (k + 1) ws (bump .remotePlacement i.tenant (b2n off) <| bump .arrStream c w.stream (bump .arrTail c w.tail (bump .arrDrain c w.drain (bump .arrRescale c w.rescale
      (bump .arrMac c w.mac (bump .arrSkinny c (b2n w.skinny) s1))))))

/-- The output tile that tile `k` of the arrays of layer `i` belongs to: under a SIBLING gate two of them make one, R182. -/
def outTile (s : State) (f : Flight) (job : LayerJob) (i k : Nat) : Nat :=
  let ls := layersOf f
  let e := envOf s f job ls [] (if (ls.getD i (layerAt [] 0)).paired then i + 1 else i)
  let heavy := max 1 (ceilDiv e.desc.n 128)
  let own := max 1 (ceilDiv (outWidth e.chain e.desc) 128)
  k / heavy * own + k % heavy % own

/-- The work of the arrays for layer `i` of a run. -/
def itemWork (s : State) (f : Flight) (job : LayerJob) (i : Nat) : List TileWork :=
  let ls := layersOf f
  let e := envOf s f job ls [] i
  if e.desc.paired then pairedWork e (envOf s f job ls [] (i + 1)) else layerWork e

/-- ITEM_RELEASE: the last tile of a layer is done: it is charged, its cells are free, the next layer that runs here waits, R383 to R390; or an accumulator row of one of
its cells has failed its parity check, which ends the command, R141. -/
def itemRelease (item : Nat) (work : ItemEnd) (now : Nat) (s0 : State) : State :=
  let s := advance now s0
  match s.sched.items.find? (fun i => i.id == item) with
  | none => s0
  | some i =>
    if i.whole || i.cells.isEmpty then s0
    else match flightOf s i.serial, s.compute.jobs.find? (fun j => j.serial == i.serial) with
      | some f, some job =>
        match work with
        | .parity cell row => if i.cells.contains cell then parityEnds f cell row s else s0
        | .worked cycles => match sendPartials f job i.layer s with
        | .error .waits => s0
        | .error e => layerStops f e s
        | .ok s1 =>
          let ls := layersOf f
          let next := nextHere s.fabric.view.self ls (ls.length + 1) (if (ls.getD i.layer (layerAt [] 0)).paired then i.layer + 2 else i.layer + 1)
          let s2 := removeItems i.serial (trackRelease i cycles (chargeCells i.tenant cycles (countTiles i (outTile s f job i.layer) 0 (itemWork s f job i.layer) s1)))
          match s2.compute.jobs.find? (fun j => j.serial == i.serial) with
          | none => s2
          | some j =>
            let s3 := enterPartials i.serial (setJob { j with layer := next, charged := j.charged + cycles } s2)
            if next < par f 0 2 then layerItem j.chains f next s3 else schedPoint s3
      | _, _ => s0

/-- ITEM_RELEASE. -/
def execItemRelease (item : Nat) (work : ItemEnd) (now : Nat) (s : State) : Result := nextOf s (itemRelease item work now s)

/-- A quadrant's record stored. -/
def setQuadrant (q : Nat) (x : Quadrant) (s : State) : State :=
  { s with power := { s.power with quadrants := kset s.power.quadrants q x } }

/-- A quadrant changes state: its record in the ring of the calm island, R578. -/
def moveQuadrant (q : Nat) (st : QState) (s : State) : State :=
  let x := quadrantOf s.power q
  track 0xE 0xD000 0 0 q (x.state.code * 256 + st.code) (setQuadrant q { x with state := st, thawing := false, since := s.frontTime } s)

/-- THAW_COMPLETE: a demanded quadrant becomes ACTIVE; the time is tenant 0's charge, R20, R388, R532. -/
def thawComplete (q now : Nat) (s0 : State) : State :=
  let s := advance now s0
  let x := quadrantOf s.power q
  if x.thawing = false ∨ 16 ≤ q then s0
  else
    let (d, s1) := drawFree s
    let s2 := bump (if x.state = .deepFrost then .thawsDeep else .thawsFrost) 0 1 (bump .thawWaitNs 0 (s.frontTime - x.since) s1)
    let y := { quadrantOf s2.power q with lastGrant := s2.frontTime }
    schedPoint (chargeCells 0 d (moveQuadrant q .active (setQuadrant q y s2)))

/-- THAW_COMPLETE. -/
def execThawComplete (quadrant now : Nat) (s : State) : Result := nextOf s (thawComplete quadrant now s)

/-- R21 permits frosting: no cell of the quadrant holds uncommitted work or an open window, and no thaw is demanded or has been demanded in this management tick. -/
def frostPermitted (s : State) (q : Nat) : Bool :=
  let mine := fun c => c / 12 == q
  !(s.sched.items.any (fun i => i.cells.any mine)) && !(s.compute.runs.any (fun r => r.cells.any mine))
    && !(s.compute.cells.any (fun p => mine p.1 && !p.2.windows.isEmpty)) && !(quadrantOf s.power q).thawing
    && (quadrantOf s.power q).demandTick != some (s.frontTime / 1000000)

/-- The quadrants that the policy frosts now, in its order: oldest last grant first, the higher ID on a tie, R534. -/
def frostOrder (s : State) : List Nat :=
  let idle := (quadrantsIn s.power .active).filter (fun q =>
    decide ((quadrantOf s.power q).lastGrant + s.power.policy.frostAfterUs * 1000 ≤ s.frontTime) && frostPermitted s q)
  sortBy (fun a b =>
    let x := (quadrantOf s.power a).lastGrant
    let y := (quadrantOf s.power b).lastGrant
    decide (x < y) || (x == y && decide (b ≤ a))) idle

/-- FROST: the policy's next quadrant stops its clock, R534. -/
def frost (q now : Nat) (s0 : State) : State :=
  let s := advance now s0
  if (frostOrder s).head? = some q ∧ thawTarget s < (quadrantsIn s.power .active).length then
    bump .frostEntries 0 1 (moveQuadrant q .frost s)
  else s0

/-- FROST. -/
def execFrost (quadrant now : Nat) (s : State) : Result := nextOf s (frost quadrant now s)

/-- DEEP_FROST: a quadrant FROST for DEEP_AFTER_MS is power gated, R534. -/
def deepFrost (q now : Nat) (s0 : State) : State :=
  let s := advance now s0
  let x := quadrantOf s.power q
  if q < 16 ∧ x.state = .frost ∧ x.thawing = false ∧ s.power.policy.deepAfterMs ≠ 0
      ∧ x.since + s.power.policy.deepAfterMs * 1000000 ≤ s.frontTime then
    bump .deepEntries 0 1 (moveQuadrant q .deepFrost s)
  else s0

/-- DEEP_FROST. -/
def execDeepFrost (quadrant now : Nat) (s : State) : Result := nextOf s (deepFrost quadrant now s)

/-- HUB_DOMAIN_GATE: a search, select, gather or text domain without an item for 100 µs stops its clock, R529. -/
def hubDomainGate (domain now : Nat) (s0 : State) : State :=
  let s := advance now s0
  if ([26, 27, 32, 33].contains domain && s.power.conversion && !s.power.gated.contains domain) = true
      ∧ kgetD s.power.hubLast domain s.power.readyAt + 100000 ≤ s.frontTime then
    { s with power := { s.power with gated := domain :: s.power.gated } }
  else s0

/-- HUB_DOMAIN_GATE. -/
def execHubDomainGate (domain now : Nat) (s : State) : Result := nextOf s (hubDomainGate domain now s)

/-- The entries of SHARES_SET: tenant, weight, floor, R391. -/
def shareEntries (f : Flight) : List (Nat × Nat × Nat) :=
  (List.range (par f 0 2)).map (fun i => (par f (8 + 8 * i) 2, par f (10 + 8 * i) 2, par f (12 + 8 * i) 1))

/-- SHARES_SET, R391. -/
def sharesSetCommand : Command where
  op := .sharesSet
  changes := true
  objects := fun _ f => (shareEntries f).map (fun e => ⟨.shares, e.1⟩) ++ (shareEntries f).map (fun e => ⟨.tenant, e.1⟩)
  changed := fun _ f => (shareEntries f).map (fun e => ⟨.shares, e.1⟩)
  check := fun _ f =>
    let n := par f 0 2
    let es := shareEntries f
    firstFail [lengthIs f (8 + 8 * n), badParamIf (n == 0) 0, reservedZero f 2 6,
      badParamIf (es.any (fun e => e.1 == 0 || e.2.1 == 0 || decide (7 < e.2.2)) || !distinct (es.map (·.1))) 8,
      badParamIf ((List.range n).any (fun i => !zeroAt f.params (13 + 8 * i) 3)) 8,
      rangeIf (decide (1024 < n)) 0]
  run := fun s f =>
    checked [rangeIf ((shareEntries f).any (fun e => !tenantExists s e.1)) 8]
      (.done { s with sched := { s.sched with
        shares := (shareEntries f).foldl (fun m e => kset m e.1 ⟨e.2.1, e.2.2⟩) s.sched.shares } } (okReply []))

/-- SHARES_SET. -/
def execSharesSet (h : Nat) (s : State) : Result := execCommand sharesSetCommand h s

/-- BUDGET_SET names the removal of a budget. -/
def budgetNone (f : Flight) : Bool := bitOf (par f 2 1) 1

/-- The checks of BUDGET_SET that do not depend on the state, R401. -/
def budgetCheck (f : Flight) : Option (Status × Nat) :=
  let none' := budgetNone f
  firstFail ([lengthIs f 32, badParamIf (decide (3 < par f 2 1)) 2, reservedZero f 3 1, reservedZero f 28 4, badParamIf (par f 0 2 == 0) 0]
    ++ (if none' then [badParamIf (par f 2 1 != 2 || !zeroAt f.params 4 24) 4]
      else [badParamIf (decide (par f 16 8 < par f 8 8)) 8,
        rangeIf (par f 4 4 == 0 || decide (60000 < par f 4 4)) 4, rangeIf (par f 8 8 == 0) 8,
        rangeIf (par f 16 8 == 0 || decide (2 ^ 47 < par f 16 8)) 16]))

/-- The effect of BUDGET_SET: a new budget starts at CAPACITY, a changed one keeps its level, clipped, R401. -/
def budgetRun (s : State) (f : Flight) : Verdict :=
  let t := par f 0 2
  checked [rangeIf (!tenantExists s t) 0]
    (if budgetNone f then .done { s with sched := { s.sched with budgets := kdel s.sched.budgets t } } (okReply [])
     else
      let cap := par f 16 8
      let w := par f 4 4
      let (level, admitted) := match budgetOf s t with
        | none => ((cap : Int), 0)
        | some b => (min b.level (cap : Int), if b.windowMs = w then b.admitted else 0)
      .done (setBudget t ⟨bitOf (par f 2 1) 0, w, par f 8 8, cap, par f 24 4, level, windowIndex w s.frontTime, admitted⟩ s) (okReply []))

/-- BUDGET_SET as a command; a row names one of its two forms. -/
def budgetCommand : Command where
  op := .budgetSet
  changes := true
  objects := fun _ f => [⟨.budget, par f 0 2⟩, ⟨.tenant, par f 0 2⟩]
  changed := fun _ f => [⟨.budget, par f 0 2⟩]
  check := fun _ f => budgetCheck f
  run := budgetRun

/-- A row of one form of a command runs only on a flight of that form. -/
def ofForm (form : Flight → Bool) (h : Nat) (s : State) (k : State → Result) : Result :=
  match flightOf s h with
  | none => .next s
  | some f => if form f then k s else .next s

/-- BUDGET_SET. -/
def execBudgetSet (h : Nat) (s : State) : Result :=
  ofForm (fun f => !budgetNone f) h s (execCommand budgetCommand h)

/-- BUDGET_REMOVE: BUDGET_SET with NONE. -/
def execBudgetRemove (h : Nat) (s : State) : Result :=
  ofForm budgetNone h s (execCommand budgetCommand h)

/-- CONTRACT_SET names a deletion. -/
def contractDelete (f : Flight) : Bool := par f 2 1 == 0xFF

/-- The checks of CONTRACT_SET that do not depend on the state, R405, R406. -/
def contractCheck (f : Flight) : Option (Status × Nat) :=
  firstFail ([lengthIs f 48, badParamIf (par f 0 2 == 0) 0]
    ++ (if contractDelete f then [badParamIf (!zeroAt f.params 3 45) 3]
      else [badParamIf (decide (3 < par f 2 1)) 2, badParamIf (decide (1 < par f 3 1)) 3, badParamIf (decide (4 < par f 4 1)) 4,
        reservedZero f 5 3, reservedZero f 30 2, reservedZero f 40 8,
        rangeIf (decide (par f 8 4 < 500000) || decide (999999 < par f 8 4)) 8, rangeIf (par f 12 4 == 0 || decide (60000 < par f 12 4)) 12,
        rangeIf (par f 16 8 == 0 || decide (60000000000 < par f 16 8)) 16, rangeIf (par f 24 4 == 0 || decide (1000000 < par f 24 4)) 24,
        rangeIf (decide (4095 < par f 28 2)) 28, rangeIf (par f 32 8 == 0 || decide (2 ^ 48 < par f 32 8)) 32]))

/-- The module at which a command entered. -/
def entryOf (s : State) (f : Flight) : Nat :=
  match f.origin with
  | .host _ => s.fabric.view.self
  | .peer m _ => m

/-- A contract's commit empties CURRENT and PREVIOUS of the tenant's histograms, R588. -/
def emptyWindows (tenant : Nat) (s : State) : State :=
  { s with sched := { s.sched with histograms := s.sched.histograms.map (fun p =>
      if p.1 / 16 = tenant then
        (p.1, { p.2 with current := [], previous := [], window := windowIndex (histWindowMs s tenant) s.frontTime })
      else p) } }

/-- The effect of CONTRACT_SET: admission by capacity, R406; a deletion is never refused. -/
def contractRun (s : State) (f : Flight) : Verdict :=
  let t := par f 0 2
  let old := kget s.sched.contracts t
  checked [rangeIf (!tenantExists s t) 0, rangeIf (contractDelete f && old.isNone) 0]
    (if contractDelete f then
      .done (emptyWindows t { s with sched := { s.sched with contracts := kdel s.sched.contracts t } }) (okReply [])
     else
      let rate := par f 24 4
      let cost := par f 32 8
      let before := demandAll s
      let after := demandWithout s t + rate * cost
      let short := after * 1000000 - capacityPpm s
      checked [failIf (decide (before < after) && decide (0 < short)) .admissionRefused (ceilDiv short 1000000),
          failIf (old.isNone && decide (4096 ≤ s.sched.contracts.length)) .tableFull 0]
        (let c : Contract := ⟨par f 2 1, bitOf (par f 3 1) 0, par f 4 1, par f 8 4, par f 12 4, par f 16 8, rate, par f 28 2, cost,
            entryOf s f, f.hdr.sessionId, rate, false, [], (old.map (·.lastBreach)).getD 0⟩
         .done (emptyWindows t (setContract t c s)) (okReply [])))

/-- CONTRACT_SET as a command. -/
def contractCommand : Command where
  op := .contractSet
  changes := true
  objects := fun _ f => [⟨.contract, par f 0 2⟩, ⟨.tenant, par f 0 2⟩]
  changed := fun _ f => [⟨.contract, par f 0 2⟩]
  check := fun _ f => contractCheck f
  run := contractRun

/-- CONTRACT_SET. -/
def execContractSet (h : Nat) (s : State) : Result :=
  ofForm (fun f => !contractDelete f) h s (execCommand contractCommand h)

/-- CONTRACT_DELETE: CONTRACT_SET with CLASS 0xFF. -/
def execContractDelete (h : Nat) (s : State) : Result :=
  ofForm contractDelete h s (execCommand contractCommand h)

/-- The 128 bytes of ACCOUNT_READ, R414. -/
def accountBytes (s : State) (t : Nat) : Bytes :=
  let sh := shareOf s t
  let c := kget s.sched.contracts t
  let n := fun (x : Ctr) => toLe 8 (ctrGet s.counters x t).toNat
  let level := ((budgetOf s t).map (·.level)).getD 0
  toLe 2 t ++ toLe 1 sh.floor ++ toLe 1 ((c.map (·.cls)).getD 0xFF) ++ toLe 2 sh.weight ++ toLe 1 (b2n (c.any (·.atRisk))) ++ zeros 1
    ++ n .cellCycles ++ n .hubCycles ++ n .preempted ++ n .preemptWaste ++ toLe 8 (unsignedOf 64 level)
    ++ n .tokensDebited ++ n .budgetRefusals ++ n .budgetEnds ++ n .budgetWaits
    ++ toLe 4 ((c.map (·.allowed)).getD 0) ++ zeros 4 ++ n .covered ++ n .excess ++ n .breaches ++ n .breachUnposted
    ++ toLe 8 ((c.map (·.lastBreach)).getD 0)

/-- ACCOUNT_READ, R414. -/
def accountReadCommand : Command where
  op := .accountRead
  changes := false
  objects := fun _ _ => []
  check := fun s f => firstFail ([lengthIs f 8, oneModule s f, reservedZero f 2 6] ++ ownTenant s f (par f 0 2) 0)
  run := fun s f => .done s (okReply (accountBytes s (par f 0 2)))

/-- ACCOUNT_READ. -/
def execAccountRead (h : Nat) (s : State) : Result := execCommand accountReadCommand h s

/-- BUDGET_REFILL: a window of a tenant's budget starts, R402. -/
def budgetRefill (tenant now : Nat) (s0 : State) : State :=
  let s := advance now s0
  match budgetOf s tenant with
  | none => s0
  | some b => setBudget tenant b s

/-- BUDGET_REFILL. -/
def execBudgetRefill (tenant now : Nat) (s : State) : Result := nextOf s (budgetRefill tenant now s)

/-- CONTRACT_WINDOW_JUDGED: a past window whose covered requests have all ended, R410. -/
def contractWindowJudged (tenant n : Nat) (s : State) : State :=
  match kget s.sched.contracts tenant with
  | none => s
  | some c =>
    match c.windows.find? (fun x => x.index == n) with
    | none => s
    | some x => if n < windowIndex c.windowMs s.frontTime ∧ x.admitted ≤ x.ended then judgeWindow tenant x s else s

/-- CONTRACT_WINDOW_JUDGED. -/
def execContractWindowJudged (tenant n : Nat) (s : State) : Result := nextOf s (contractWindowJudged tenant n s)

/-- HISTOGRAM_WINDOW: the histograms whose windows have started anew, R588. -/
def histogramWindow (now : Nat) (s0 : State) : State :=
  let s := advance now s0
  { s with sched := { s.sched with histograms := s.sched.histograms.map (fun p =>
      (p.1, rollHistogram p.2 (windowIndex (histWindowMs s (p.1 / 16)) s.frontTime))) } }

/-- HISTOGRAM_WINDOW. -/
def execHistogramWindow (now : Nat) (s : State) : Result := nextOf s (histogramWindow now s)

end Sys2Proof.Machine
end

