-- ==== Sys2Proof/Machine/MemberRows.lean ====
section
/-! DEFINITION. POWER_CAP_SET (R526), STATE_POLICY_SET (R533) and MEMBER_RESET (R538). -/

namespace Sys2Proof.Machine

open Sys2Proof

/-- POWER_CAP_SET, R526: 0 removes the cap. -/
def powerCapCommand : Command where
  op := .powerCapSet
  changes := true
  objects := fun _ _ => [⟨.cap, 0⟩]
  check := fun _ f => firstFail [lengthIs f 8, reservedZero f 2 6, rangeIf (par f 0 2 != 0 && outside 800 2600 (par f 0 2)) 0]
  run := fun s f =>
    .done { s with power := { s.power with capW := if par f 0 2 = 0 then 2600 else par f 0 2 } } (okReply [])

/-- POWER_CAP_SET is staged. -/
def execPowerCapSet (h : Nat) (s : State) : Result := execCommand powerCapCommand h s

/-- The policy in the parameters of a STATE_POLICY_SET, R533. -/
def policyOf (f : Flight) : Policy := ⟨par f 0 4, par f 4 4, par f 8 2, par f 10 1, par f 11 1, par f 12 1⟩

/-- STATE_POLICY_SET, R533. -/
def statePolicyCommand : Command where
  op := .statePolicySet
  changes := true
  objects := fun _ _ => [⟨.policy, 0⟩]
  check := fun _ f =>
    let p := policyOf f
    firstFail [lengthIs f 16, reservedZero f 13 3, badParamIf (decide (1 < p.memSr)) 12,
      rangeIf (outside 10 1000000 p.frostAfterUs) 0, rangeIf (decide (60000 < p.deepAfterMs)) 4, rangeIf (outside 1 10000 p.lookbackMs) 8,
      rangeIf (decide (16 < p.minActive)) 10, rangeIf (decide (16 < p.headroom)) 11]
  run := fun s f => .done { s with power := { s.power with policy := policyOf f } } (okReply [])

/-- STATE_POLICY_SET is staged. -/
def execStatePolicySet (h : Nat) (s : State) : Result := execCommand statePolicyCommand h s

/-- The reset that a MEMBER_RESET asks for; where one is due already, the earlier of the two begins, R538, R539. -/
def resetDue (s : State) (f : Flight) : PendingReset :=
  let p : PendingReset := ⟨par f 0 1 == 1, s.frontTime + (if par f 4 4 = 0 then 10 else par f 4 4) * 1000000⟩
  match s.power.pendingReset with
  | none => p
  | some q => if q.due ≤ p.due then q else p

/-- MEMBER_RESET, R538: it commits on its target. -/
def memberResetCommand : Command where
  op := .memberReset
  changes := false
  objects := fun _ _ => []
  check := fun s f => firstFail [lengthIs f 8, badParamIf (decide (1 < par f 0 1)) 0, reservedZero f 1 3, oneModule s f,
    rangeIf (decide (60000 < par f 4 4)) 4]
  run := fun s f => .done { s with power := { s.power with pendingReset := some (resetDue s f) } } (okReply [])

/-- MEMBER_RESET_MODULE. -/
def execMemberResetModule (h : Nat) (s : State) : Result :=
  ofForm (fun f => par f 0 1 != 1) h s (execCommand memberResetCommand h)

/-- MEMBER_RESET_POWER_CYCLE. -/
def execMemberResetPowerCycle (h : Nat) (s : State) : Result :=
  ofForm (fun f => par f 0 1 == 1) h s (execCommand memberResetCommand h)

end Sys2Proof.Machine
end

