-- ==== Sys2Proof/Machine/Packets.lean ====
section
/-! DEFINITION. Taking a packet: reservations (R53), the acceptance checks in their order (R55), the anti-replay window (R47), fences (R57). -/

namespace Sys2Proof.Machine

open Sys2Proof

/-- The longest result of an opcode's records in bytes, R53: from the length each chapter gives. -/
def maxResult : Opcode → Nat
  | .sessionOpen => 7088
  | .attestReport => 65472
  | .txnBegin => 8
  | .configGet => 4104
  | .memAlloc => 8
  | .memCopy => 0
  | .reside => 8
  | .demote => 8
  | .flush => 8
  | .tierStats => 608
  | .modelLoad => 40
  | .steerSetLoad => 8
  | .kernelLoad => 8
  | .layerRun => 64
  | .kernelRun => 64
  | .chainDefine => 8
  | .tableCreate => 8
  | .bagLookup => 64
  | .rowsRead => 65472
  | .indexCreate => 8
  | .indexLoad => 8
  | .vecInsert => 16
  | .indexMerge => 16
  | .rowsWrite => 16
  | .vecDelete => 16
  | .search => 8208
  | .indexStats => 128
  | .selectTopk => 64
  | .selectMerge => 64
  | .tokenizerLoad => 40
  | .tokenize => 8208
  | .detokStreamOpen => 24
  | .packPrompt => 16
  | .grammarLoad => 8
  | .stopSet => 8
  | .requestSubmit => 64
  | .requestCancel => 8
  | .requestStatus => 32
  | .kvImport => 8
  | .contractSet => 64
  | .accountRead => 128
  | .frontView => 65472
  | .linkStatus => 1040
  | .breakSet => 8
  | .halt => 8
  | .step => 16
  | .stateRead => 65408
  | .trackRead => 20496
  | .gaugeSet => 64
  | .countersRead => 65472
  | .histogramRead => 2096
  | .faultLogRead => 4112
  | .sensorsRead => 96
  | .fwActivate => 8
  | _ => 0

/-- The row of the opcode index for a code, R60. -/
def opcodeRow (code : Nat) : Option OpcodeRow := opcodeIndex.find? (fun r => r.code == code)

/-- Slots a packet reserves in its reply ring, R53; SELECT_MERGE's event has its own (R317), and so has a request's first chunk (R380). DESIGN CHOICE (log entry 85): that
chunk's size stands in the parameters, which are decrypted for it before their tag is verified, and CHUNK_TOKENS above 256 counts as 256. -/
def reservationOf (h : Header) (params : Bytes) : Nat :=
  let base := match opcodeRow h.opcode with
    | none => 1
    | some r => recordSlots (maxResult r.op) + b2n (decide (r.op = .selectMerge))
        + (if r.op = .requestSubmit then chunkSlots (bitOf (fld params 2 1) 1) (min 256 (fld params 44 2)) else 0)
  base + b2n h.inTxn

/-- R47: a sequence is accepted above H, or within the 4,096 below it and not accepted before. -/
def seqAccepted (x : Session) (s : Nat) : Bool :=
  decide (s ≠ 0) && (decide (x.high < s) || (decide (x.high < s + 4096) && !x.accepted.contains s))

/-- Note an accepted sequence, R47. -/
def acceptSeq (x : Session) (s : Nat) : Session :=
  let high := max x.high s
  { x with high := high, accepted := (s :: x.accepted).filter (fun t => decide (high < t + 4096)) }

/-- Step 1 of R55. -/
def stepOne (h : Header) (log2 : Nat) : Option (Status × Nat) :=
  firstFail [
    (h.version != 1, .badParam, 0),
    (h.hdrLen != 48, .badParam, 1),
    (decide (65472 < h.paramLen), .badLength, 6),
    (decide (2 ^ log2 < packetSlots h.paramLen), .badLength, 6)]

/-- Nonce of a command's tag, R45. -/
def commandNonce (h : Header) : Bytes := toLe 4 h.sessionId ++ toLe 8 h.seq

/-- Parameters in clear, R45. -/
def clearParams (x : Option Session) (h : Header) (raw : Bytes) : Bytes :=
  match x with
  | some y => if h.paramEnc then gcmXor y.keyCmd (commandNonce h) 0 raw else raw
  | none => raw

/-- Step 3 of R55: the conditions of session 0 (R46), or the tag (R45). -/
def stepThree (x : Option Session) (h : Header) (hdrBytes raw tag : Bytes) : Option (Status × Nat) :=
  match x with
  | none => firstFail [
      (h.seq != 0, .badParam, 16),
      (h.paramEnc, .badParam, 4),
      (!(tag.all (· == 0)), .badParam, 48 + h.paramLen)]
  | some y =>
    let aad := if h.paramEnc then hdrBytes else hdrBytes ++ raw
    let text := if h.paramEnc then raw else []
    if toLe 16 (gcmTag y.keyCmd (commandNonce h) aad text).toNat = tag then none else some (.authFail, 0)

/-- Step 6 of R55: REPLY_RING is enabled and large enough. -/
def stepSix (s : State) (h : Header) (params : Bytes) : Option (Status × Nat) :=
  let cq := cqOf s.host h.replyRing
  firstFail [
    (decide (4096 ≤ h.replyRing) || decide (cq.state ≠ .enabled), .badParam, 44),
    (decide (2 ^ cq.log2 < reservationOf h params), .ringFull, 0)]

/-- Steps 7 and 8 of R55, with the rule of R45 on clear tenant parameters, which names no step. DESIGN CHOICE (log entry 86): it stands last in step 8. -/
def stepSevenEight (x : Option Session) (h : Header) : Option (Status × Nat) :=
  match opcodeRow h.opcode with
  | none => some (.badOpcode, 2)
  | some r =>
    match x with
    | none => if r.session0 then none else some (.noSession, 0)
    | some y =>
      if y.tenant = 0 then (if r.operator then none else some (.notPermitted, 0))
      else if !r.tenant then some (.notPermitted, 0)
      else if !h.paramEnc && h.paramLen != 0 then some (.notPermitted, 0)
      else none

/-- What a reference to a transaction that is not open returns, R70. -/
def txnReference (s : State) (x : Option Session) (h : Header) (op : Opcode) : Option (Status × Nat) :=
  match txnOf s h.sessionId h.txnId with
  | some _ => if txnClosing s h.sessionId h.txnId then some (.txnConflict, 1) else none
  | none =>
    match x.bind (fun y => (y.ended.find? (fun e => e.1 == h.txnId)).map (·.2)) with
    | some true => if op = .txnCommit then none else some (.txnUnknown, 0)
    | some false => some (.txnAborted, 0)
    | none => some (.txnUnknown, 0)

/-- Step 9 of R55. -/
def stepNine (s : State) (x : Option Session) (h : Header) : Option (Status × Nat) :=
  match opcodeRow h.opcode with
  | none => none
  | some r =>
    match r.rule, h.inTxn with
    | .no, true => some (.notPermitted, 0)
    | .names, true => some (.notPermitted, 0)
    | .required, false => some (.notPermitted, 0)
    | .names, false => txnReference s x h r.op
    | .required, true => txnReference s x h r.op
    | .allowed, true => txnReference s x h r.op
    | .no, false => if h.txnId = 0 then none else some (.badParam, 40)
    | .allowed, false => if h.txnId = 0 then none else some (.badParam, 40)

/-- A partition does not affect the command: a SELECT whose scope contains this module, R320. -/
def selectsHere (s : State) (h : Header) (r : MemberRef) : Bool :=
  (h.opcode == 0x0701 || h.opcode == 0x0702) && (modulesOf s.fabric.view r).contains s.fabric.view.self

/-- Step 10 of R55: the scope path under R34, the rights of R450, but for a SELECT of this module's, R320; then the refusal of R538 while a reset is due. -/
def stepTen (s : State) (h : Header) : Option (Status × Nat) :=
  match resolveScope s.fabric.view h.scope h.scopeDepth with
  | .error .malformed => some (.badParam, if 8 < h.scopeDepth then 47 else 24)
  | .error .outOfRange => some (.outOfRange, 24)
  | .ok r =>
    match (if selectsHere s h r then none else scopeUnreached s h) with
    | some u => some (.memberUnreachable, lowestUnreached s u)
    | none =>
    if s.fabric.view.rights = .stale ∧ modulesOf s.fabric.view r ≠ [s.fabric.view.self] ∧ selectsHere s h r = false then some (.epochStale, 0)
    else if s.power.pendingReset.isSome then some (.noResource, 1)
    else none

/-- The device holds the whole packet: SQ_HEAD and the head shadow are written, R51, R493. -/
def sqConsume (ring k : Nat) (s : State) : State :=
  let r := sqOf s.host ring
  let head := r.head + BitVec.ofNat 32 k
  emit (.shadow r.shadow head) (setSq ring { r with head := head }
    { s with host := { s.host with robin := (ring + 1) % 4096 } })

/-- The record of a command that failed a check: to the default ring for steps 1 to 6, else to its reply ring. -/
def refusePacket (ring : Nat) (h : Header) (clear reserved : Bool) (st : Status) (d : Nat) (s : State) : State :=
  postRecord ring h.sessionId h.commandId false false (clear || clearRecord h.sessionId st) reserved s.frontTime
    (plainReply st d) s

/-- Store a session. -/
def setSession (x : Session) (s : State) : State :=
  { s with proto := { s.proto with sessions := kset s.proto.sessions x.id x } }

/-- The session a header names, if it is open and not closing (R55 step 2, R472). -/
def openSession (s : State) (id : Nat) : Option Session :=
  (kget s.proto.sessions id).filter (fun x => !x.closing)

/-- Steps 7 to 10 of R55 in their order. -/
def lateChecks (s : State) (x : Option Session) (h : Header) : Option (Status × Nat) :=
  match stepSevenEight x h with
  | some r => some r
  | none => match stepNine s x h with
    | some r => some r
    | none => stepTen s h

/-- The command is in flight; a fenced one waits while an earlier one of its ring has not posted, R57. -/
def enterFlight (ring : Nat) (h : Header) (op : Opcode) (tenant reserved : Nat) (params : Bytes) (s : State) : State :=
  let waits := h.fence && s.proto.flights.any (fun g => decide (g.origin = .host ring))
  let f : Flight := ⟨s.proto.nextSerial, .host ring, op, h, params, tenant, s.frontTime, waits, false, reserved, none, none, false⟩
  let open' := (s.proto.flights.filter (fun g => !fromPeer g)).length + 1
  noteHigh 0xB000 1 open' <| track 1 0x9100 tenant h.commandId (h.opcode + h.sessionId * 65536) 0
    { s with proto := { s.proto with flights := s.proto.flights ++ [f], nextSerial := s.proto.nextSerial + 1 } }

/-- The checks after the packet is taken, steps 2 to 10, and its fate, R55. `dr` tells whether a default slot is reserved, `k` the slots reserved in the reply ring. -/
def acceptPacket (ring defCq : Nat) (h : Header) (hdrBytes raw tag : Bytes) (dr : Bool) (k : Nat) (s : State) : State :=
  let toDefault := fun (clear : Bool) (st : Status) (d : Nat) (t : State) =>
    let t1 := if k = 0 then t else cqRelease h.replyRing k t
    refusePacket defCq h clear dr st d (if dr then cqRelease defCq 1 t1 else t1)
  match (if h.sessionId = 0 then some none else (openSession s h.sessionId).map some) with
  | none => toDefault true .noSession 0 s
  | some x =>
    match stepThree x h hdrBytes raw tag with
    | some (st, d) => toDefault true st d s
    | none =>
      if (x.map (fun y => seqAccepted y h.seq)) = some false then toDefault false .replay 0 s
      else
        let s1 := match x with
          | some y => setSession (acceptSeq y h.seq) s
          | none => s
        match firstFail [(h.flagsRsv != 0, .badParam, 4), (decide (7 < h.prio), .badParam, 46)] with
        | some (st, d) => toDefault false st d s1
        | none =>
          match stepSix s1 h (clearParams x h raw) with
          | some (st, d) => toDefault false st d s1
          | none =>
            let s2 := if dr then cqRelease defCq 1 s1 else s1
            match lateChecks s2 x h with
            | some (st, d) => refusePacket h.replyRing h false true st d (cqRelease h.replyRing k s2)
            | none =>
              match opcodeRow h.opcode with
              | none => s2
              | some r => enterFlight ring h r.op ((x.map (·.tenant)).getD 0) k (clearParams x h raw) s2

/-- Slots to reserve in the reply ring: none where it is not ENABLED or too small, R53. -/
def replyReservation (s : State) (h : Header) (params : Bytes) : Nat :=
  let cq := cqOf s.host h.replyRing
  if h.replyRing < 4096 ∧ cq.state = .enabled ∧ reservationOf h params ≤ 2 ^ cq.log2 then reservationOf h params else 0

/-- Whether the reservations of a packet are free, R53. -/
def reservationsFree (s : State) (defCq : Nat) (dr : Bool) (h : Header) (k : Nat) : Bool :=
  let d := cqOf s.host defCq
  (!dr || decide (1 ≤ cqFree d))
    && (k == 0 || decide (k + (if dr && defCq == h.replyRing then 1 else 0) ≤ cqFree (cqOf s.host h.replyRing)))

/-- The ring whose turn it is: the first enabled ring with slots below its tail, in round-robin order behind the last ring that had a turn, R52. -/
def ringTurn (h : HostPort) : Option Nat :=
  let after := fun (n : Nat) => (n + 4096 - h.robin) % 4096
  (sortBy (fun a b => Nat.ble (after a) (after b))
    ((h.sq.filter (fun p => decide (p.2.state = .enabled) && decide (0 < (p.2.tail - p.2.head).toNat))).map (·.1))).head?

/-- A ring's turn ends and its packet is left in place, R52. -/
def turnPasses (ring : Nat) (s : State) : State := { s with host := { s.host with robin := (ring + 1) % 4096 } }

/-- PACKET_TAKEN: the device takes the packet at the head of a ring, R51 to R57. It is left in place while it does not lie wholly below the tail,
while a reservation is not free, or while the device cannot read host memory (R494); the rings have their turns in round-robin order, and a ring whose packet is left has had
its turn, R52. -/
def packetTaken (ring : Nat) (bytes : Bytes) (now : Nat) (s0 : State) : State :=
  let s := advance now s0
  let r := sqOf s.host ring
  let h := parseHeader bytes
  let dr := decide ((cqOf s.host r.defCq).state = .enabled)
  let avail := (r.tail - r.head).toNat
  if ringTurn s.host ≠ some ring ∨ s.host.busMaster = false ∨ bytes.length < 48 then s0
  else
    match stepOne h r.log2 with
    | some (st, d) =>
      if reservationsFree s r.defCq dr h 0 then
        sqError ring 3 (refusePacket r.defCq h true false st d (sqConsume ring 1 s))
      else turnPasses ring s
    | none =>
      let k := replyReservation s h (clearParams (openSession s h.sessionId) h (slice bytes 48 h.paramLen))
      let n := packetSlots h.paramLen
      if avail < n ∨ bytes.length < 64 + h.paramLen ∨ reservationsFree s r.defCq dr h k = false then turnPasses ring s
      else
        let s1 := if dr then cqReserve r.defCq 1 s else s
        let s2 := if k = 0 then s1 else cqReserve h.replyRing k s1
        acceptPacket ring r.defCq h (bytes.take 48) (slice bytes 48 h.paramLen) (slice bytes (48 + h.paramLen) 16) dr k
          (sqConsume ring n s2)

/-- PACKET_TAKEN. -/
def execPacketTaken (ring : Nat) (bytes : Bytes) (now : Nat) (s : State) : Result :=
  nextOf s (packetTaken ring bytes now s)

/-- FENCED_COMMAND_BEGIN, R57: it begins once every earlier command of its ring has posted its final or staging record. -/
def fencedCommandBegin (h : Nat) (s : State) : State :=
  match flightOf s h with
  | none => s
  | some f =>
    if f.waiting ∧ s.proto.flights.all (fun g => decide (g.origin ≠ f.origin) || decide (f.serial ≤ g.serial)) = true then
      setFlight { f with waiting := false } s
    else s

/-- FENCED_COMMAND_BEGIN. -/
def execFencedCommandBegin (h : Nat) (s : State) : Result := .next (fencedCommandBegin h s)

end Sys2Proof.Machine
end

