-- ==== Sys2Proof/Machine/ScanOps.lean ====
section
/-! DEFINITION. The scan structures of an index (R284), the bounds of lists and vectors (R285), and the certified scan as a count of work (R286, R287). The precision of the stored bounds and of a bound's rounding is the model's choice (log entry 79). -/

namespace Sys2Proof.Machine

open Sys2Proof

/-- A value rounded to FP32 toward +infinity; what lies between zero and 2^-126 becomes 2^-126, what lies between -2^-126 and zero becomes zero, R285. -/
def up32 : Num → Num
  | .fin neg m e =>
    if m = 0 then .fin false 0 0
    else
      let b := Nat.log2 m
      let top : Int := (b : Int) + e
      let sh := b - 23
      let q := if neg then m / 2 ^ sh else ceilDiv m (2 ^ sh)
      if top < -126 then (if neg then .fin false 0 0 else .fin false 1 (-126))
      else if neg then (if 127 < top then .fin true (2 ^ 24 - 1) 104 else .fin true q (e + (sh : Nat)))
      else if 127 < top ∨ (top = 127 ∧ 2 ^ 24 ≤ q) then .inf false
      else .fin false q (e + (sh : Nat))
  | x => x

/-- The square root of a value that is not negative, cut off below its top; with whether it is exact. -/
def rootOf : Num → Num × Bool
  | .fin _ m e =>
    let odd := b2n (decide (e % 2 ≠ 0))
    let num := m * 2 ^ odd * 2 ^ 120
    let t := isqrt num
    (.fin false t ((e - odd) / 2 - 60), t * t == num)
  | x => (x, true)

/-- A square root rounded upward to FP32. -/
def rootUp (x : Num) : Num :=
  match rootOf x with
  | (.fin _ t e, false) => up32 (.fin false (t + 1) e)
  | (r, _) => up32 r

/-- The larger of two values. -/
def numMax (a b : Num) : Num := if numLt a b then b else a

/-- A value below zero counts as zero. -/
def numPos (x : Num) : Num := numMax (.fin false 0 0) x

/-- The squared length of a vector. -/
def normSq (v : List Num) : Num := dotNum v v

/-- The point u of a vector, R284: itself, or for COSINE itself over its length, which a zero vector has not. -/
def scanPoint (metric : Nat) (v : List Num) : Option (List Num) :=
  if metric = 1 then
    match normSq v with
    | .fin _ 0 _ => none
    | p => some (v.map (fun a => overSqrtAt 1300 a p))
  else some v

/-- The residual of a point against a centroid. -/
def residual (u c : List Num) : List Num := (List.zip u c).map (fun p => numAdd p.1 (numNeg p.2))

/-- The smallest e with 7 × 2^e at least a magnitude; 0 where that is zero, R284. -/
def stepFor : Num → Int
  | .fin _ m e =>
    if m = 0 then 0
    else
      let c := ceilDiv (8 * m) 7
      e - 3 + (if c ≤ 1 then 0 else (Nat.log2 (c - 1) + 1 : Nat))
  | _ => 0

/-- The code of a residual element under a step: rounded to nearest even, clamped to -8 to 7, R284. -/
def scanCode (step : Int) : Num → Int
  | .fin neg m e =>
    let k := e - step
    let q := if 0 ≤ k then m * 2 ^ k.toNat
      else
        let d := 2 ^ (-k).toNat
        let r := 2 * (m % d)
        m / d + b2n (decide (d < r) || (r == d && m / d % 2 == 1))
    if neg then -(min q 8 : Nat) else (min q 7 : Nat)
  | _ => 0

/-- A code times its step. -/
def codeValue (step : Int) (k : Int) : Num := .fin (decide (k < 0)) k.natAbs step

/-- The codes of a record. -/
def codesOf (dim : Nat) (b : Bytes) : List Int := (unpack 4 dim b).map (fun c => if c < 8 then (c : Int) else (c : Int) - 16)

/-- The scan structures of a list as INDEX_LOAD and INDEX_MERGE build them, R284. -/
def buildList (x : VecIndex) (l : Nat) : ScanList :=
  let members := x.main.filter (fun v => v.list == l)
  let c := centroidData x l
  if x.vfmt = 12 then
    ⟨0, ((members.map (fun v => hamming v.vec c.bytes)).foldl max 0), members.map (fun v => ⟨v.id, [], 0, false⟩)⟩
  else
    let pts := members.map (fun v => (v.id, (scanPoint x.metric (vecData x.vfmt x.dim v.vec).nums).map (fun u => residual u c.nums)))
    let all := pts.filterMap (·.2)
    let slack : Num := if x.metric = 1 then .fin false 1 (-600) else .fin false 0 0
    let step := stepFor (all.flatten.foldl (fun m r => numMax m (numAbs r)) (.fin false 0 0))
    let bound := fun (r : List Num) => rootUp (numAdd (normSq r) slack)
    ⟨step, encodeNum 0 (all.foldl (fun m r => numMax m (bound r)) (.fin false 0 0)),
      pts.map (fun p => match p.2 with
        | none => ⟨p.1, packElems 4 (List.replicate x.dim 0), 0, true⟩
        | some r =>
          let ks := r.map (scanCode step)
          ⟨p.1, packElems 4 (ks.map (fun k => (k % 16).toNat)), encodeNum 0 (bound (residual r (ks.map (codeValue step)))), false⟩)⟩

/-- The scan structures of some lists built anew, the others kept, R284, R295. -/
def rebuildLists (ls : List Nat) (x : VecIndex) : VecIndex :=
  { x with scan := ls.foldl (fun m l => if x.main.any (fun v => v.list == l) then kset m l (buildList x l) else kdel m l) x.scan }

/-- The scan structures of a list; an empty one has none. -/
def scanOf (x : VecIndex) (l : Nat) : ScanList := kgetD x.scan l ⟨0, 0, []⟩

/-- The bound of a point's distance form: `-max(0, d - r)^2` for a squared distance, R285. -/
def distBound (sq r : Num) : Num :=
  let d := numPos (numAdd (rootOf sq).1 (numNeg r))
  up32 (numNeg (numMul d d))

/-- The goodness that no vector within `r` of a point exceeds, R285. -/
def pointBound (metric : Nat) (q : List Num) (point : List Num) (r : Num) : Num :=
  match metric with
  | 0 => up32 (numAdd (dotNum q point) (numMul (rootUp (normSq q)) r))
  | 1 => match normSq q with
    | .fin _ 0 _ => .fin false 0 0
    | p => up32 (numAdd (overSqrtAt 1300 (dotNum q point) p) r)
  | _ => distBound (distNum q point) r

/-- A bound where the list holds a zero vector of a COSINE index, R285. -/
def withZero (sl : ScanList) (b : Num) : Num := if sl.vecs.any (·.zero) then numMax b (.fin false 0 0) else b

/-- The list bound B of R285. -/
def listBound (x : VecIndex) (q : VecData) (l : Nat) : Num :=
  let sl := scanOf x l
  let c := centroidData x l
  if x.metric = 3 then numNeg (numPos (.fin false (hamming q.bytes c.bytes - sl.radius) 0))
  else withZero sl (pointBound x.metric q.nums c.nums (decodeNum 0 sl.radius))

/-- The vector bound b of R285. -/
def vectorBound (x : VecIndex) (q : VecData) (v : StoredVec) : Num :=
  let sl := scanOf x v.list
  if x.metric = 3 then numNeg (.fin false (hamming q.bytes v.vec) 0)
  else match sl.vecs.find? (fun r => r.id == v.id) with
    | none => .inf false
    | some r =>
      if r.zero then .fin false 0 0
      else
        let point := (List.zip (centroidData x v.list).nums (codesOf x.dim r.codes)).map (fun p => numAdd p.1 (codeValue sl.step p.2))
        withZero sl (pointBound x.metric q.nums point (decodeNum 0 r.eps))

/-- The goodness of a score, R272. -/
def goodness (metric score : Nat) : Num := if metric ≤ 1 then decodeNum 0 score else numNeg (decodeNum 0 score)

/-- The certified scan under way: the best so far, the lists scanned, the work. -/
structure Scan where
  best : List SearchHit
  lists : List Nat
  work : SearchWork

/-- The goodness of the k-th result, once there are k. -/
def Scan.kth (w : Scan) (metric k : Nat) : Option Num :=
  if w.best.length = k then w.best.getLast?.map (fun h => goodness metric h.score) else none

/-- A vector is scored and offered, R286. -/
def Scan.offer (w : Scan) (x : VecIndex) (k : Nat) (q : VecData) (isSide : Bool) (v : StoredVec) : Scan :=
  let r := hitOf x q isSide v
  { w with
    best := (sortBy (hitLe x.metric) (r.1 :: w.best)).take k
    work := SearchWork.add w.work ⟨[], 0, b2n (!isSide), b2n isSide, r.2.flush⟩ }

/-- A list is scanned, R286: its live vectors that can still reach or tie the k-th result are scored. -/
def Scan.list (x : VecIndex) (snap : Nat) (q : VecData) (k : Nat) (w : Scan) (l : Nat) : Scan :=
  let members := x.main.filter (fun v => v.list == l)
  let w1 := (members.filter (mainLive x snap)).foldl (fun u v =>
    if (u.kth x.metric k).any (fun g => numLt (vectorBound x q v) g) then u else u.offer x k q false v) w
  { w1 with
    lists := w1.lists ++ [l]
    work := SearchWork.add w1.work ⟨[], members.length, 0, 0, 0⟩ }

/-- Lists in the order of their bounds until the stop test, R286. -/
def scanLists (x : VecIndex) (snap : Nat) (q : VecData) (k : Nat) : List (Nat × Num) → Scan → Scan
  | [], w => w
  | (l, b) :: rest, w =>
    if (w.kth x.metric k).any (fun g => numLt b g) then w else scanLists x snap q k rest (w.list x snap q k l)

/-- What a shard does for one query, R286, in the pseudocode's own order of lists and vectors (log entry 79). -/
def searchWork (x : VecIndex) (snap : Nat) (q : VecData) (k : Nat) : SearchWork :=
  let start := (x.side.filter (sideLive x snap)).foldl (fun w v => w.offer x k q true v) (⟨[], [], SearchWork.none⟩ : Scan)
  let bounds := sortBy (fun a b => numLt b.2 a.2 || (!numLt a.2 b.2 && decide (a.1 ≤ b.1))) ((List.range x.lists).map (fun l => (l, listBound x q l)))
  let w := scanLists x snap q k bounds start
  { w.work with scanned := [w.lists] }

/-- Whether the structures at an address of an index's storage are needed by queries that needed some lists: which list's structures lie there is the device's
own choice, and some belong to every search (log entry 82). -/
def indexNeeds (x : VecIndex) (needed : List Nat) (addr : Nat) : Bool :=
  let l := Config.indexPlace addr % (x.lists + 1)
  l == x.lists || needed.contains l

/-- Lists of speculative run-ahead that a RUNAHEAD asks for, R278. -/
def runAhead (ra : Nat) : Nat := if ra = 0xFF then 8 else ra

end Sys2Proof.Machine
end

