-- ==== Sys2Proof/Machine/IndexRows.lean ====
section
/-! DEFINITION. Vector indexes: creation and loading, mutations and merges, searches on one and on several shards, statistics (chapter 09). -/

namespace Sys2Proof.Machine

open Sys2Proof

/-- Bytes of a centroid row, R265. -/
def centroidRow (vfmt dim : Nat) : Nat := if vfmt = 12 then dim / 8 else dim * 4

/-- A centroid element that is a NaN or infinite. -/
def centroidsBad (vfmt : Nat) (b : Bytes) : Bool :=
  vfmt != 12 && (unpack 32 (b.length / 4) b).any (fun c => !numIsFin (decodeNum 0 c))

/-- The centroids a command names: as carried after the ID, or in the entry member's memory. -/
def centroidsOf (s : State) (f : Flight) : Bytes :=
  match f.content with
  | some b => b.drop 4
  | none => memRead s (par f 16 8) (par f 4 4 * centroidRow (par f 2 1) (par f 0 2))

/-- What the parameters of an INDEX_CREATE alone decide, R266. -/
def indexCreateShape (f : Flight) : List (Bool × Status × Nat) :=
  let dim := par f 0 2
  let vfmt := par f 2 1
  let metric := par f 3 1
  let lists := par f 4 4
  let die := par f 9 1
  let pay := par f 10 2
  [lengthIs f 24, badParamIf (dim % 32 != 0) 0, badParamIf (decide (15 < vfmt)) 2, badParamIf (decide (3 < metric)) 3,
      badParamIf (lists == 0) 4, badParamIf (par f 8 1 != 1 && par f 8 1 != 2) 8, badParamIf (decide (3 < die) && die != 0xFF) 9,
      badParamIf (pay % 64 != 0) 10, reservedZero f 12 4,
      rangeIf (decide (dim < 64) || decide (4096 < dim)) 0, rangeIf (decide (1048576 < lists)) 4, rangeIf (decide (4096 < pay)) 10,
      formatIf (!([1, 2, 3, 4, 12].contains vfmt) || (vfmt == 12) != (metric == 3)) 2]

/-- The checks of INDEX_CREATE, R266. -/
def indexCreateCheck (s : State) (f : Flight) : Option (Status × Nat) :=
  let vfmt := par f 2 1
  let len := par f 4 4 * centroidRow vfmt (par f 0 2)
  match firstFail (indexCreateShape f ++ [failIf (decide (4096 ≤ s.indexes.indexes.length)
        || ((scopeModules s f.hdr).contains s.fabric.view.self && decide (64 ≤ (s.indexes.indexes.filter (fun p => p.2.shard.contains s.fabric.view.self)).length))) .tableFull 0]
      ++ (if f.content.isSome then [] else extentChecks s f (par f 16 8) len 16)) with
  | some r => some r
  | none =>
    match (if f.content.isSome then none else readFails s (par f 16 8) len) with
    | some r => some r
    | none => firstFail [badParamIf (centroidsBad vfmt (centroidsOf s f)) 16]

/-- What the entry member checks of the centroids that it carries to other members, R266. -/
def centroidEntry (s : State) (f : Flight) : Option (Status × Nat) :=
  let len := par f 4 4 * centroidRow (par f 2 1) (par f 0 2)
  match firstFail (extentChecks s f (par f 16 8) len 16) with
  | some r => some r
  | none => readFails s (par f 16 8) len

/-- INDEX_CREATE, R265 to R268: its ID is a free value (log entry 6). -/
def indexCreateCommand : Command where
  op := .indexCreate
  changes := true
  objects := fun _ f => [⟨.tierQuota, f.tenant⟩]
  changed := fun _ _ => []
  held := fun _ f => [⟨.tierQuota, f.tenant⟩]
  check := indexCreateCheck
  staged := fun _ f => firstFail (indexCreateShape f)
  run := fun s f =>
    let x := newIndex f (sortBy Nat.ble (scopeModules s f.hdr)) (centroidsOf s f)
    let (id, s0) := takeId (kkeys s.indexes.indexes) f s
    if khas s.indexes.indexes id then .reject .txnConflict 0
    else if x.shard.contains s.fabric.view.self = false then .done (setIndex id x s0) (okReply (toLe 4 id ++ zeros 4))
    else match fitIndex x s0 with
      | .error (st, d) => .reject st d
      | .ok (x1, s1) => .done (setIndex id x1 s1) (okReply (toLe 4 id ++ zeros 4))
  carried := fun s f _ => toLe 4 (freeId (kkeys s.indexes.indexes) (drawFree s).1) ++ centroidsOf s f
  carriedLen := fun f => 4 + par f 4 4 * centroidRow (par f 2 1) (par f 0 2)
  entry := centroidEntry

/-- INDEX_CREATE. -/
def execIndexCreate (h : Nat) (s : State) : Result := execCommand indexCreateCommand h s

/-- The checks that every command naming an index makes of it, R245, R267, R298. -/
def indexChecks (s : State) (f : Flight) : List (Bool × Status × Nat) :=
  let id := par f 0 4
  let x := indexOf s id
  if fromPeer f then [] else
  [rangeIf (decide (4095 < id)) 0,
   unnamedIf f (x.isNone || dropTaken s f .indexDrop id) 0,
   failIf (x.any (fun i => i.tenant != f.tenant)) .notPermitted 0,
   failIf (x.any (fun i => !scopeWithin i.scope f.hdr.scope i.depth f.hdr.scopeDepth)) .notPermitted 0]

/-- A command that changes a non-local index on the read-only side, R298. -/
def indexReadonly (s : State) (f : Flight) : Bool × Status × Nat :=
  failIf (!fromPeer f && decide (s.fabric.view.rights = .readonly)
    && (indexOf s (par f 0 4)).any (fun x => x.shard != [s.fabric.view.self])) .partitionedReadonly 0

/-- The opcodes that name an index first in their parameters. -/
def indexOps : List Opcode := [.indexDrop, .indexLoad, .vecInsert, .vecDelete, .search, .indexMerge, .indexStats]

/-- INDEX_DROP, R271: it waits for every admitted command that names the index, and a change of its vectors that has been voted for holds it back. -/
def indexDropCommand : Command where
  op := .indexDrop
  changes := true
  held := fun _ f => [⟨.vectors, par f 0 4⟩]
  objects := fun _ f => [⟨.index, par f 0 4⟩]
  check := fun s f => firstFail ([lengthIs f 8, reservedZero f 4 4] ++ indexChecks s f ++ [indexReadonly s f])
  staged := fun _ f => firstFail [lengthIs f 8, reservedZero f 4 4, rangeIf (decide (4095 < par f 0 4)) 0]
  waits := fun s f => namedBefore s f indexOps (par f 0 4)
  run := fun s f => .done (releaseIndex (par f 0 4) s) (okReply [])

/-- INDEX_DROP: on every member that can name the index. -/
def execIndexDrop (h : Nat) (s : State) : Result := execAt indexDropCommand indexMembers h s

/-- One vector on its way to its owner: ID, list, elements, payload; its encoding, which the entry member carries (log entry 20). -/
def recordBytes (v : StoredVec) : Bytes := toLe 8 v.id ++ toLe 4 v.list ++ v.vec ++ v.pay

/-- The vectors that carried content spells. -/
def recordsOf (x : VecIndex) (b : Bytes) : List StoredVec :=
  let v := vecLen x.vfmt x.dim
  let n := 12 + v + x.payLen
  (List.range (b.length / n)).map (fun i =>
    ⟨fld b (n * i) 8, 0, fld b (n * i + 8) 4, slice b (n * i + 12) v, slice b (n * i + 12 + v) x.payLen⟩)

/-- A vector element that is a NaN or infinite. -/
def vecBad (x : VecIndex) (b : Bytes) : Bool := (nonFinite x.vfmt x.dim b).isSome

/-- The offsets of an INDEX_LOAD image. -/
def loadOffsets (s : State) (f : Flight) (x : VecIndex) : List Nat :=
  (List.range (x.lists + 1)).map (fun i => leNat (memRead s (par f 16 8 + 8 * i) 8))

/-- The vectors of an INDEX_LOAD image. -/
def loadVectors (s : State) (f : Flight) (x : VecIndex) : List StoredVec :=
  let offs := loadOffsets s f x
  (List.range (par f 8 8)).map (fun i =>
    ⟨leNat (memRead s (par f 24 8 + 8 * i) 8), 0, ((List.range x.lists).find? (fun l => decide (i < nth offs (l + 1)))).getD 0,
      memRead s (par f 32 8 + i * par f 40 4) (vecLen x.vfmt x.dim), memRead s (par f 48 8 + i * x.payLen) x.payLen⟩)

/-- The checks of INDEX_LOAD at its entry member, R269, R270. -/
def indexLoadCheck (s : State) (f : Flight) : Option (Status × Nat) :=
  let n := par f 8 8
  match firstFail ([lengthIs f 64, reservedZero f 44 4, reservedZero f 56 8] ++ indexChecks s f), indexOf s (par f 0 4), f.content with
  | some r, _, _ => some r
  | none, none, _ => some (.outOfRange, 48)
  | none, some _, some _ => none
  | none, some x, none =>
    let v := vecLen x.vfmt x.dim
    match firstFail ([badParamIf (if x.payLen = 0 then par f 48 8 != 0 else par f 48 8 == 0 && n != 0) 48,
        rangeIf (decide (x.shard.length ≤ par f 4 4)) 4, rangeIf (decide (2 ^ 31 < n)) 8, indexReadonly s f,
        rangeIf (par f 40 4 % 8 != 0 || decide (par f 40 4 < v)) 40]
        ++ extentChecks s f (par f 16 8) ((x.lists + 1) * 8) 16
        ++ (if n = 0 then [] else extentChecks s f (par f 24 8) (n * 8) 24 ++ extentChecks s f (par f 32 8) ((n - 1) * par f 40 4 + v) 32
          ++ (if x.payLen = 0 then [] else extentChecks s f (par f 48 8) (n * x.payLen) 48))) with
    | some r => some r
    | none =>
      match readsFail s [(par f 16 8, (x.lists + 1) * 8), (par f 24 8, n * 8), (par f 32 8, if n = 0 then 0 else (n - 1) * par f 40 4 + v),
          (par f 48 8, n * x.payLen)] with
      | some r => some r
      | none =>
        let offs := loadOffsets s f x
        let vs := loadVectors s f x
        firstFail [badParamIf (offs.head? != some 0 || offs.getLast? != some n || decreasingList offs) 16,
          badParamIf (!distinct (vs.map (·.id)) || vs.any (fun y => y.id == 0xFFFFFFFFFFFFFFFF || vecOwner x.shard y.id != nth x.shard (par f 4 4))) 24,
          badParamIf (vs.any (fun y => vecBad x y.vec)) 32]
where
  decreasingList : List Nat → Bool
    | a :: b :: l => decide (b < a) || decreasingList (b :: l)
    | _ => false

/-- The image content carried to the owner of the shard. -/
def loadContent (s : State) (f : Flight) : Bytes :=
  match indexOf s (par f 0 4) with
  | none => []
  | some x => (loadVectors s f x).flatMap recordBytes

/-- INDEX_LOAD, R269: it fills an empty shard and builds its scan structures, R284. -/
def indexLoadCommand : Command where
  op := .indexLoad
  changes := true
  objects := fun _ f => [⟨.index, par f 0 4⟩]
  held := fun _ f => [⟨.vectors, par f 0 4⟩]
  check := indexLoadCheck
  run := fun s f =>
    match indexOf s (par f 0 4) with
    | none => .reject .outOfRange 48
    | some x =>
      let vs := recordsOf x (dataOf f (fun _ => loadContent s f))
      if x.main.isEmpty && x.side.isEmpty && x.tombs.isEmpty then
        match fitIndex (rebuildLists ((vs.map (·.list)).eraseDups) { x with main := vs }) s with
        | .error (st, d) => .reject st d
        | .ok (x1, s1) => .done (setIndex (par f 0 4) x1 s1) (okReply (toLe 8 vs.length))
      else .reject .notPermitted 0
  carried := fun s f _ => loadContent s f

/-- INDEX_LOAD: it commits on the owner of its shard alone. -/
def execIndexLoad (h : Nat) (s : State) : Result :=
  execAt indexLoadCommand (fun s f => [nth (indexShard s f) (par f 4 4)]) h s

/-- The vectors of a VEC_INSERT; those whose list the device assigns carry 0xFFFFFFFF. -/
def insertVectors (s : State) (f : Flight) (x : VecIndex) : List StoredVec :=
  (List.range (par f 4 4)).map (fun i =>
    ⟨leNat (memRead s (par f 8 8 + 8 * i) 8), 0,
      if par f 40 8 = 0 then 0xFFFFFFFF else leNat (memRead s (par f 40 8 + 4 * i) 4),
      memRead s (par f 16 8 + i * par f 24 4) (vecLen x.vfmt x.dim), memRead s (par f 32 8 + i * par f 28 4) x.payLen⟩)

/-- The checks of VEC_INSERT at its entry member, R292, R294. -/
def vecInsertCheck (s : State) (f : Flight) : Option (Status × Nat) :=
  let n := par f 4 4
  match firstFail ([lengthIs f 48, badParamIf (n == 0) 4, rangeIf (decide (65536 < n)) 4] ++ indexChecks s f), indexOf s (par f 0 4), f.content with
  | some r, _, _ => some r
  | none, none, _ => some (.outOfRange, 48)
  | none, some _, some _ => none
  | none, some x, none =>
    let v := vecLen x.vfmt x.dim
    let ps := par f 28 4
    match firstFail ([badParamIf (par f 24 4 % 8 != 0 || decide (par f 24 4 < v)) 24,
        badParamIf (if x.payLen = 0 then ps != 0 else ps % 64 != 0 || decide (ps < x.payLen)) 28,
        badParamIf (x.payLen == 0 && par f 32 8 != 0) 32, indexReadonly s f]
        ++ extentChecks s f (par f 8 8) (n * 8) 8 ++ extentChecks s f (par f 16 8) ((n - 1) * par f 24 4 + v) 16
        ++ (if x.payLen = 0 then [] else extentChecks s f (par f 32 8) ((n - 1) * ps + x.payLen) 32)
        ++ (if par f 40 8 = 0 then [] else extentChecks s f (par f 40 8) (n * 4) 40)) with
    | some r => some r
    | none =>
      match readsFail s [(par f 8 8, n * 8), (par f 16 8, (n - 1) * par f 24 4 + v),
          (par f 32 8, if x.payLen = 0 then 0 else (n - 1) * ps + x.payLen), (par f 40 8, if par f 40 8 = 0 then 0 else n * 4)] with
      | some r => some r
      | none =>
        let vs := insertVectors s f x
        firstFail [badParamIf (vs.any (fun y => y.id == 0xFFFFFFFFFFFFFFFF)) 8, badParamIf (vs.any (fun y => vecBad x y.vec)) 16,
          rangeIf (vs.any (fun y => y.list != 0xFFFFFFFF && decide (x.lists ≤ y.list))) 40]

/-- Whether an ID is live now, R290. -/
def liveNow (x : VecIndex) (id : Nat) : Bool :=
  x.main.any (fun v => v.id == id && mainLive x x.mseq v) || x.side.any (fun v => v.id == id && sideLive x x.mseq v)

/-- One insert takes effect, R289. -/
def applyInsert (x : VecIndex) (v : StoredVec) : VecIndex :=
  let v1 := { v with list := if v.list = 0xFFFFFFFF then (assignList x v.vec).1 else v.list }
  if liveNow x v.id then
    { x with tombs := x.tombs ++ [(v.id, x.mseq + 1)], side := x.side ++ [{ v1 with seq := x.mseq + 2 }], mseq := x.mseq + 2 }
  else { x with side := x.side ++ [{ v1 with seq := x.mseq + 1 }], mseq := x.mseq + 1 }

/-- The last entry of each ID in a list, in order, R289. -/
def lastOfIds : List StoredVec → List StoredVec
  | [] => []
  | v :: l => if l.any (fun w => w.id == v.id) then lastOfIds l else v :: lastOfIds l

/-- The last occurrence of each number in a list, in order, R289. -/
def lastOnes : List Nat → List Nat
  | [] => []
  | v :: l => if l.contains v then lastOnes l else v :: lastOnes l

/-- A shard's limits are exceeded, R299. -/
def overLimits (x : VecIndex) : Bool :=
  decide (2 ^ 31 < x.main.length + x.side.length) || decide (2 ^ 24 < x.side.length) || decide (2 ^ 24 < x.tombs.length)

/-- A mutation of a shard, with its counts, R292 to R294, R299. -/
def mutate (f : Flight) (x : VecIndex) (counts : Bytes) (s : State) : Verdict :=
  if overLimits x then .reject .tableFull 0
  else match fitIndex x s with
    | .error (st, d) => .reject st d
    | .ok (x1, s1) => .done (setIndex (par f 0 4) x1 s1) (okReply counts)

/-- The inserts for one owner, as carried to it. -/
def insertContent (s : State) (f : Flight) (owner : Nat) : Bytes :=
  match indexOf s (par f 0 4) with
  | none => []
  | some x => ((insertVectors s f x).filter (fun v => vecOwner x.shard v.id == owner)).flatMap recordBytes

/-- VEC_INSERT, R289, R292. -/
def vecInsertCommand : Command where
  op := .vecInsert
  changes := true
  objects := fun _ _ => []
  held := fun _ f => [⟨.vectors, par f 0 4⟩]
  check := vecInsertCheck
  run := fun s f =>
    match indexOf s (par f 0 4) with
    | none => .reject .outOfRange 48
    | some x =>
      let vs := recordsOf x (dataOf f (fun _ => insertContent s f s.fabric.view.self))
      let one := lastOfIds vs
      let x1 := one.foldl applyInsert x
      let replaced := (one.filter (fun v => liveNow x v.id)).length
      let flushed := listSum ((one.filter (fun v => v.list == 0xFFFFFFFF)).map (fun v => (assignList x v.vec).2))
      mutate f x1 (toLe 4 (one.length - replaced) ++ toLe 4 replaced ++ toLe 4 (vs.length - one.length) ++ zeros 4)
        (bump .flushFp32 f.tenant flushed s)
  carried := insertContent

/-- The u64 IDs of a VEC_DELETE. -/
def deleteIds (s : State) (f : Flight) : List Nat := (List.range (par f 4 4)).map (fun i => leNat (memRead s (par f 8 8 + 8 * i) 8))

/-- The owners of IDs. -/
def ownersOf (shard ids : List Nat) : List Nat := sortBy Nat.ble ((ids.map (vecOwner shard)).eraseDups)

/-- VEC_INSERT: on every owner it touches, or on none, R294. -/
def execVecInsert (h : Nat) (s : State) : Result :=
  execAt vecInsertCommand (fun s f => ownersOf (indexShard s f)
    ((List.range (par f 4 4)).map (fun i => leNat (memRead s (par f 8 8 + 8 * i) 8)))) h s

/-- The deletes for one owner, as carried to it. -/
def deleteContent (s : State) (f : Flight) (owner : Nat) : Bytes :=
  ((deleteIds s f).filter (fun v => vecOwner (indexShard s f) v == owner)).flatMap (toLe 8)

/-- One delete takes effect, R289. -/
def applyDelete (x : VecIndex) (id : Nat) : VecIndex :=
  if liveNow x id then { x with tombs := x.tombs ++ [(id, x.mseq + 1)], mseq := x.mseq + 1 } else x

/-- The checks of VEC_DELETE at its entry member, R293, R294. -/
def vecDeleteCheck (s : State) (f : Flight) : Option (Status × Nat) :=
  let n := par f 4 4
  match firstFail ([lengthIs f 16, badParamIf (n == 0) 4, rangeIf (decide (65536 < n)) 4] ++ indexChecks s f
      ++ (if fromPeer f then [] else indexReadonly s f :: extentChecks s f (par f 8 8) (n * 8) 8)) with
  | some r => some r
  | none =>
    if fromPeer f then none
    else match readFails s (par f 8 8) (n * 8) with
      | some r => some r
      | none => firstFail [badParamIf ((deleteIds s f).any (· == 0xFFFFFFFFFFFFFFFF)) 8]

/-- VEC_DELETE, R289, R293. -/
def vecDeleteCommand : Command where
  op := .vecDelete
  changes := true
  objects := fun _ _ => []
  held := fun _ f => [⟨.vectors, par f 0 4⟩]
  check := vecDeleteCheck
  run := fun s f =>
    match indexOf s (par f 0 4) with
    | none => .reject .outOfRange 48
    | some x =>
      let b := dataOf f (fun _ => deleteContent s f s.fabric.view.self)
      let ids := (List.range (b.length / 8)).map (fun i => fld b (8 * i) 8)
      let one := lastOnes ids
      let x1 := one.foldl applyDelete x
      let deleted := (one.filter (liveNow x)).length
      mutate f x1 (toLe 4 deleted ++ toLe 4 (one.length - deleted) ++ toLe 4 (ids.length - one.length) ++ zeros 4) s
  carried := deleteContent

/-- VEC_DELETE: on every owner it touches, or on none, R294. -/
def execVecDelete (h : Nat) (s : State) : Result :=
  execAt vecDeleteCommand (fun s f => ownersOf (indexShard s f) (deleteIds s f)) h s

/-- A shard after a merge at snapshot `s0`, R295. -/
def mergedIndex (x : VecIndex) (s0 : Nat) : VecIndex :=
  { x with
    main := x.main.filter (mainLive x s0) ++ (x.side.filter (sideLive x s0)).map (fun v => { v with seq := 0 })
    side := x.side.filter (fun v => decide (s0 < v.seq))
    tombs := x.tombs.filter (fun t => decide (s0 < t.2))
    merging := none
    counts := { x.counts with merges := x.counts.merges + 1 } }

/-- The lists that a merge rebuilds: those that gain or lose a vector, R295. -/
def changedLists (x : VecIndex) (s0 : Nat) : List Nat :=
  ((x.side.filter (sideLive x s0)).map (·.list) ++ (x.main.filter (fun v => !mainLive x s0 v)).map (·.list)).eraseDups

/-- INDEX_MERGE, R295: the new structures are allocated before the old ones are released, and the scan structures of the changed lists are built anew, R284. -/
def indexMergeRun (s : State) (f : Flight) : Verdict :=
  match indexOf s (par f 0 4) with
  | none => .reject .outOfRange 48
  | some x =>
    let s0 := x.merging.getD x.mseq
    let y := mergedIndex x s0
    let ls := changedLists x s0
    let n := (y.main.filter (fun v => ls.contains v.list)).length
    let new1 := pageBytes (indexT1 x.vfmt x.dim 0 n 0 0)
    let new2 := pageBytes (vecPitch x.vfmt x.dim x.payLen * (x.side.filter (sideLive x s0)).length)
    match takeStorage x.tenant 1 x.codeDie new1 s with
    | .error _ => .reject .noResource 0
    | .ok (_, s1) =>
      match resizeHold x.tenant x.vecTier 0xFF new2 [] s1 with
      | .error (st, d) => .reject st d
      | .ok _ =>
        match fitIndex (rebuildLists ls y) s with
        | .error (st, d) => .reject st d
        | .ok (y1, s2) =>
          let merged := (x.side.filter (sideLive x s0)).length
          let removed := (x.main.filter (fun v => !mainLive x s0 v)).length
            + (x.side.filter (fun v => decide (v.seq ≤ s0) && !sideLive x s0 v)).length
          .done (setIndex (par f 0 4) y1 s2)
            (okReply (toLe 4 merged ++ toLe 4 removed ++ toLe 4 (y.side.length + y.tombs.length) ++ zeros 4))

/-- INDEX_MERGE as a command: a participant takes its snapshot when it votes. -/
def indexMergeCommand : Command where
  op := .indexMerge
  changes := true
  objects := fun _ _ => []
  held := fun _ f => [⟨.vectors, par f 0 4⟩]
  check := fun s f => firstFail ([lengthIs f 8, reservedZero f 4 4] ++ indexChecks s f ++ [indexReadonly s f])
  waits := fun s f => namedBefore s f [.indexMerge] (par f 0 4)
  run := indexMergeRun
  prepare := fun s f =>
    match indexOf s (par f 0 4) with
    | none => s
    | some x => setIndex (par f 0 4) { x with merging := some x.mseq } s

/-- INDEX_MERGE. -/
def execIndexMerge (h : Nat) (s : State) : Result := execAt indexMergeCommand indexShard h s

/-- Bytes of a query. -/
def queryLen (x : VecIndex) (qfmt : Nat) : Nat := ceilDiv (x.dim * fmtBits qfmt) 8

/-- The checks of SEARCH, R278, R280. -/
def searchCheck (s : State) (f : Flight) : Option (Status × Nat) :=
  let n := par f 4 4
  let k := par f 8 4
  let qfmt := par f 12 1
  let payload := bitOf (par f 13 1) 0
  let ra := par f 14 1
  match firstFail ([lengthIs f 64, badParamIf (n == 0) 4, badParamIf (k == 0) 8, badParamIf (decide (15 < qfmt)) 12,
      badParamIf (decide (1 < par f 13 1)) 13, badParamIf (decide (64 < ra) && ra != 0xFF) 14, reservedZero f 15 1, reservedZero f 28 4,
      badParamIf (!payload && par f 40 8 != 0) 40, badParamIf (decide (1 < par f 48 8)) 48] ++ indexChecks s f), indexOf s (par f 0 4) with
  | some r, _ => some r
  | none, none => some (.outOfRange, 48)
  | none, some x =>
    let q := queryLen x qfmt
    firstFail ([badParamIf (payload && x.payLen == 0) 13, rangeIf (decide (1024 < n)) 4, rangeIf (decide (65536 < k)) 8,
      rangeIf (decide (60000000000 < par f 56 8)) 56, rangeIf (par f 32 8 % 64 != 0) 32,
      rangeIf (par f 24 4 % 64 != 0 || decide (par f 24 4 < q)) 24,
      formatIf (if x.metric = 3 then qfmt != 12 else decide (4 < qfmt)) 12]
      ++ extentChecks s f (par f 16 8) ((n - 1) * par f 24 4 + q) 16 ++ extentChecks s f (par f 32 8) (n * k * 16) 32
      ++ (if payload then extentChecks s f (par f 40 8) (n * k * x.payLen) 40 else []))

/-- The queries of a SEARCH. -/
def queriesOf (s : State) (f : Flight) (x : VecIndex) : List Bytes :=
  (List.range (par f 4 4)).map (fun j => memRead s (par f 16 8 + j * par f 24 4) (queryLen x (par f 12 1)))

/-- This shard's parts of queries at its snapshot, and the work they take, R286, R291: a non-finite query has none. -/
def ownParts (s : State) (x : VecIndex) (qfmt k first : Nat) (qs : List Bytes) : List SearchPart × SearchWork :=
  let outs := (qs.zipIdx).map (fun p =>
    if (nonFinite qfmt x.dim p.1).isSome then ((⟨s.fabric.view.self, first + p.2, 0, []⟩ : SearchPart), SearchWork.none)
    else
      let q := vecData qfmt x.dim p.1
      let r := searchShard x x.mseq q k
      (⟨s.fabric.view.self, first + p.2, r.2, r.1⟩, searchWork x x.mseq q k))
  (outs.map (·.1), (outs.map (·.2)).foldl SearchWork.add SearchWork.none)

/-- Lists started speculatively for one query, and those of them discarded, R287: free values within what RUNAHEAD and the lists left allow (log entry 7). -/
def specLists (ra lists scanned : Nat) (s : State) : Nat × Nat × State :=
  if ra = 0 then (0, 0, s)
  else
    let (a, s1) := drawFree s
    let (b, s2) := drawFree s1
    let wasted := a % (min ra (lists - scanned) + 1)
    (wasted + b % (scanned + 1), wasted, s2)

/-- The work counts of a search on this shard, at its commit point, R273, R287, R300. -/
def countSearch (id tenant queries nonfinite ra : Nat) (work : SearchWork) (s : State) : State :=
  let lists := ((indexOf s id).map (·.lists)).getD 0
  let (spec, wasted, s1) := work.scanned.foldl (fun (p : Nat × Nat × State) l =>
    let r := specLists (runAhead ra) lists l.length p.2.2
    (p.1 + r.1, p.2.1 + r.2.1, r.2.2)) (0, 0, s)
  match indexOf s1 id with
  | none => s1
  | some x =>
    let w := fun (n : Nat) => BitVec.ofNat 64 n
    let k := x.counts
    bump .flushFp32 tenant work.flushed (setIndex id { x with counts := { k with
      queries := k.queries + w queries
      lists := k.lists + w (listSum (work.scanned.map (·.length)))
      codes := k.codes + w work.codes
      rescored := k.rescored + w work.rescored
      side := k.side + w work.side
      spec := k.spec + w spec
      wasted := k.wasted + w wasted
      nonfinite := k.nonfinite + w nonfinite } } s1)

/-- The owner of each result, R296. -/
def hitPayload (s : State) (x : VecIndex) (payloads : List (Nat × Bytes)) (h : SearchHit) : Option Bytes :=
  if vecOwner x.shard h.id = s.fabric.view.self then some h.pay
  else (payloads.find? (fun p => p.1 == h.id)).map (·.2)

/-- The payloads of final entries are asked of their owners, each ID once, R296 (log entry 80). -/
def askPayloads (tenant : Nat) (x : VecIndex) (job : SearchJob) (owed : List Nat) (s : State) : State :=
  let fresh := owed.filter (fun v => !job.asked.contains v)
  let s1 := { s with indexes := { s.indexes with jobs := s.indexes.jobs.map (fun j => if j.serial = job.serial then { j with asked := j.asked ++ fresh } else j) } }
  (ownersOf x.shard fresh).foldl (fun u m =>
    let mine := fresh.filter (fun v => vecOwner x.shard v == m)
    (runsOf 250000 mine.length mine).foldl (fun t l => sendTable 6 m tenant job.commandId job.index (toLe 4 l.length ++ l.flatMap (toLe 8)) t) u) s1

/-- An owner sends the payloads of vectors that its snapshot for the command can see, R283, R296. -/
def servePayloads (peer tenant corr id : Nat) (b : Bytes) (s : State) : State :=
  match servedShard s peer corr tenant id with
  | none => s
  | some x =>
    let ids := (List.range (fld b 0 4)).map (fun i => fld b (4 + 8 * i) 8)
    let payOf := fun (v : Nat) => ((((x.side.filter (sideLive x x.mseq)) ++ x.main.filter (mainLive x x.mseq)).find? (fun y => y.id == v)).map (·.pay)).getD []
    (runsOf (2000000 / (8 + x.payLen)) ids.length ids).foldl (fun t l =>
      sendMessage peer 0x08 1 tenant corr 0 (cmdFwdBody 1 0 peer 0 (replyBody corr t.frontTime (okReply
        (toLe 4 (id + 6 * 65536) ++ toLe 4 l.length ++ l.flatMap (toLe 8) ++ l.flatMap (fun v => (payOf v ++ zeros x.payLen).take x.payLen))))) t) s

/-- A SEARCH of a peer has ended: the counts of its part here are added if it has committed, and its snapshot is no longer kept, R291, R300. -/
def takeSearchEnd (peer tenant corr id : Nat) (b : Bytes) (s : State) : State :=
  let same := fun (v : ServedSearch) => v.peer == peer && v.corr == corr && v.tenant == tenant && v.index == id
  let s1 := { s with indexes := { s.indexes with served := s.indexes.served.filter (fun v => !same v) } }
  match s.indexes.served.find? same with
  | none => s
  | some v => if fld b 0 4 = 1 then countSearch id tenant v.queries v.nonfinite v.runahead v.work s1 else s1

/-- A SEARCH whose parts are all known: merged, written, counted, answered, R277, R282, R283, R296, R297, R321; past its deadline it has no effect, R278. -/
def searchDone (f : Flight) (x : VecIndex) (job : SearchJob) (payloads : List (Nat × Bytes)) (s : State) : Verdict :=
  let n := par f 4 4
  let k := par f 8 4
  let payload := bitOf (par f 13 1) 0
  let parts := (List.range n).map (fun j => job.parts.filter (fun p => p.query == j))
  let merged := parts.map (mergeParts x.metric k)
  if pastDeadline s f then .reject .deadlineMissed 0
  else match job.failures with
  | _ :: _ =>
    let r := combineReplies s.fabric.view.self .search (job.failures.map (fun p => (p.1, plainReply (statusOf p.2))))
    .reject r.status r.detail
  | [] =>
    let got := job.payloads ++ payloads
    let owed := if payload then merged.flatMap (fun m => (m.1.filter (fun h => (hitPayload s x got h).isNone)).map (·.id)) else []
    if !owed.isEmpty then .waitIn (askPayloads f.tenant x job owed s)
    else
      let entries := fun (m : List SearchHit × Nat) => m.1 ++ List.replicate (k - m.1.length) (sentinel x.metric)
      let outs := (merged.zipIdx).map (fun p => (par f 32 8 + p.2 * k * 16, (entries p.1).flatMap hitBytes))
      let pays := if payload then (merged.zipIdx).map (fun p => (par f 40 8 + p.2 * k * x.payLen,
          (entries p.1).flatMap (fun h => if h.info = 0x800FFFFF then zeros x.payLen else ((hitPayload s x got h).getD [] ++ zeros x.payLen).take x.payLen)))
        else []
      let short := (merged.filter (fun m => decide (m.1.length < k))).length
      let valid := listSum (merged.map (fun m => m.1.length))
      let nonfinite := ((queriesOf s f x).filter (fun q => (nonFinite (par f 12 1) x.dim q).isSome)).length
      let result := toLe 4 n ++ toLe 4 short ++ zeros 8 ++ merged.flatMap (fun m => toLe 4 m.1.length ++ toLe 4 m.2)
      commitVerdict f (outs ++ pays) s (fun s1 =>
        .done (endSearch f.serial true (countMerges x.metric f.tenant k (n * k - valid) parts
            (countSearch (par f 0 4) f.tenant n (if x.shard.contains s.fabric.view.self then nonfinite else 0) (par f 14 1) job.work s1)))
          { status := if short = 0 then .ok else .okPartial, detail := if short = 0 then 0 else valid + short * 2 ^ 32, result := result })

/-- A verdict of a command in flight is carried out. -/
def settleVerdict (f : Flight) (v : Verdict) (s : State) : State :=
  match v with
  | .reject st d => finish f (plainReply st d) (endWork f.serial 3 0 s)
  | .rejectIn s1 st d => finish f (plainReply st d) (endWork f.serial 3 0 s1)
  | .done s1 r => finish f r (endWork f.serial 3 0 s1)
  | .begun s1 => s1
  | .wait => s
  | .waitIn s1 => s1

/-- SEARCH_REQ for a run of queries, R430. -/
def searchReqBody (f : Flight) (first : Nat) (qs : List Bytes) : Bytes :=
  toLe 4 (par f 0 4) ++ toLe 4 first ++ toLe 4 qs.length ++ toLe 4 (par f 8 4) ++ toLe 1 (par f 12 1) ++ toLe 1 (par f 14 1) ++ zeros 6 ++ qs.flatten

/-- Queries are sent to a shard member in runs that fit a message, R430. -/
def sendQueries (f : Flight) (dst per : Nat) : Nat → Nat → List Bytes → State → State
  | 0, _, _, s => s
  | _, _, [], s => s
  | fuel + 1, first, qs, s =>
    sendQueries f dst per fuel (first + (qs.take per).length) (qs.drop per)
      (sendMessage dst 0x05 0 f.tenant f.hdr.commandId 0 (searchReqBody f first (qs.take per)) s)

/-- The identity record of a non-finite query, R281. -/
def searchNan (f : Flight) (query : Nat) (e bits' : Nat) (s : State) : State :=
  let (d, s1) := drawFree s
  let unit := 0x6000 + d % 16
  nanTrap f.serial unit f.tenant
    (nanRecord s1 f.hdr.commandId unit f.tenant 8 0 0 (par f 12 1) 0xFFFFFFFF query (e / 128) (e % 128) 0xFFFFFFFF bits' 0 0) s1

/-- The first marked address of an index's storage whose structures a search needs: those of a list that the stop test needed, or what every search reads, R288. -/
def neededMark (s : State) (x : VecIndex) (needed : List Nat) : Option (Status × Nat) :=
  let t := s.tiers
  let inside := fun (u : Nat) => (indexRanges s x).any (fun r => decide (r.1 ≤ u) && decide (u < r.1 + r.2)) && indexNeeds x needed u
  match listMin? (t.poisoned.filter inside), listMin? (t.badTags.filter inside) with
  | some p, _ => some (.dataPoisoned, tierDetail ((tierAt t p).getD 0) p)
  | none, some q => some (.integrityFail, tierDetail ((tierAt t q).getD 0) q)
  | none, none => none

/-- A SEARCH begins at its entry member: its own part at its snapshot, the other shards asked, R281, R296, R298. -/
def searchBegin (f : Flight) (x : VecIndex) (payloads : List (Nat × Bytes)) (s : State) : State :=
  let qs := queriesOf s f x
  let qfmt := par f 12 1
  let self := s.fabric.view.self
  let others := x.shard.filter (· != self)
  match readsFail s ((List.range (par f 4 4)).map (fun j => (par f 16 8 + j * par f 24 4, queryLen x qfmt))) with
  | some (st, d) => finish f (plainReply st d) (noteReadFail f st d s)
  | none => match neededMark s x ((if x.shard.contains self then (ownParts s x qfmt (par f 8 4) 0 qs).2 else SearchWork.none).scanned.flatten) with
  | some (st, d) => finish f (plainReply st d) (noteReadFail f st d s)
  | none =>
    match (if bitOf (par f 48 8) 0 then (qs.zipIdx).findSome? (fun p => (nonFinite qfmt x.dim p.1).map (fun e => (p.2, e.1, e.2))) else none) with
    | some (j, e, b) => searchNan f j e b s
    | none =>
      match others.find? (fun m => !reaches s m) with
      | some m => finish f (plainReply .memberUnreachable m) s
      | none =>
        if s.fabric.view.rights = .stale ∧ others ≠ [] then finish f (plainReply .epochStale) s
        else
          let own := if x.shard.contains self then ownParts s x qfmt (par f 8 4) 0 qs else ([], SearchWork.none)
          let job : SearchJob := ⟨f.serial, f.hdr.commandId, par f 0 4, others, own.1, [], own.2, [], [], []⟩
          let s1 := chargeHub 26 f.tenant s
          if others.isEmpty then settleVerdict f (searchDone f x job payloads s1) s
          else
            let s2 := setFlight { f with running := true } { s1 with indexes := { s1.indexes with jobs := s1.indexes.jobs ++ [job] } }
            others.foldl (fun t m => sendQueries f m (max 1 (2097000 / max 1 (queryLen x qfmt))) qs.length 0 qs t) s2

/-- SEARCH: it begins, or, with every part received, it ends; `payloads` holds what other owners have sent (ID, payload). -/
def searchRow (h : Nat) (payloads : List (Nat × Bytes)) (s : State) : State :=
  match flightOf s h with
  | none => s
  | some f =>
    if f.op ≠ .search then s
    else match s.indexes.jobs.find? (fun j => j.serial == h), indexOf s (par f 0 4) with
      | some job, some x => if job.awaited.isEmpty then settleVerdict f (searchDone f x job payloads s) s else s
      | some _, none => s
      | none, some x =>
        if mayRun s f = false then s
        else match searchCheck s f with
          | some (st, d) => finish f (plainReply st d) s
          | none => searchBegin f x payloads s
      | none, none =>
        if mayRun s f = false then s
        else match searchCheck s f with
          | some (st, d) => finish f (plainReply st d) s
          | none => s

/-- SEARCH. -/
def execSearch (h : Nat) (payloads : List (Nat × Bytes)) (s : State) : Result := nextOf s (searchRow h payloads s)

/-- The body of a SEARCH_RESP, R430. -/
def searchRespBody (id first status : Nat) (parts : List SearchPart) : Bytes :=
  toLe 4 id ++ toLe 4 first ++ toLe 4 parts.length ++ toLe 2 status ++ zeros 2
    ++ parts.flatMap (fun p => toLe 4 p.hits.length ++ toLe 4 p.ties ++ p.hits.flatMap hitBytes)

/-- Parts are sent back in runs that fit a message. -/
def sendParts (dst tenant corr id per : Nat) : Nat → Nat → List SearchPart → State → State
  | 0, _, _, s => s
  | _, _, [], s => s
  | fuel + 1, first, ps, s =>
    sendParts dst tenant corr id per fuel (first + (ps.take per).length) (ps.drop per)
      (sendMessage dst 0x06 0 tenant corr 0 (searchRespBody id first 0 (ps.take per)) s)

/-- An access of a SEARCH at an address of its index's storage was speculative: the structures of a list that the stop test has ruled out lie there, R287, R288. -/
def specAccess (s : State) (f : Flight) (addr : Nat) : Bool :=
  decide (f.op = .search) && runAhead (par f 14 1) != 0 && (indexOf s (par f 0 4)).any (fun x =>
    (indexRanges s x).any (fun r => decide (r.1 ≤ addr) && decide (addr < r.1 + r.2))
      && !indexNeeds x ((((s.indexes.jobs.find? (fun j => j.serial == f.serial)).map (·.work)).getD
          (ownParts s x (par f 12 1) (par f 8 4) 0 (queriesOf s f x)).2).scanned.flatten) addr)

/-- What a shard member keeps of a peer's SEARCH: with its first request the shard as it stands, with every request the counts it will add, R291, R300. -/
def keepServed (v : ServedSearch) (s : State) : State :=
  let same := fun (w : ServedSearch) => w.peer == v.peer && w.corr == v.corr && w.tenant == v.tenant && w.index == v.index
  let served := match s.indexes.served.find? same with
    | none => s.indexes.served ++ [v]
    | some _ => s.indexes.served.map (fun w => if same w then
        { w with queries := w.queries + v.queries, nonfinite := w.nonfinite + v.nonfinite, work := SearchWork.add w.work v.work } else w)
  { s with indexes := { s.indexes with served := served } }

/-- SEARCH_REQ: a shard member computes its part at its own snapshot, one for all the queries of a command, and answers, R291, R296. -/
def searchReq (peer : Nat) (plain : Bytes) (s : State) : State :=
  onMessage 0x05 peer plain s (fun m s =>
    let b := m.body
    let id := fld b 0 4
    let first := fld b 4 4
    let n := fld b 8 4
    let k := fld b 12 4
    let qfmt := fld b 16 1
    if zeroAt b 18 6 = false ∨ b.length < 24 then malformed s
    else match servedShard s peer m.corr m.tenant id with
      | none => sendMessage peer 0x06 0 m.tenant m.corr 0 (searchRespBody id first Status.outOfRange.code []) s
      | some x =>
        let q := queryLen x qfmt
        if b.length ≠ 24 + n * q then malformed s
        else
          let qs := pieces q n (b.drop 24)
          let own := ownParts s x qfmt k first qs
          let nonfinite := (qs.filter (fun y => (nonFinite qfmt x.dim y).isSome)).length
          match neededMark s x own.2.scanned.flatten with
          | some (st, d) => sendMessage peer 0x06 0 m.tenant m.corr 0 (searchRespBody id first st.code []) (noteTagFail m.tenant m.corr st d s)
          | none =>
          let s1 := keepServed ⟨peer, m.corr, m.tenant, id, x, fld b 17 1, n, nonfinite, own.2⟩ (chargeHub 26 m.tenant s)
          sendParts peer m.tenant m.corr id (max 1 (2097000 / (8 + 16 * k))) n first own.1 s1)

/-- SEARCH_REQ. -/
def execSearchReq (peer : Nat) (plain : Bytes) (s : State) : Result := nextOf s (searchReq peer plain s)

/-- The parts that a SEARCH_RESP carries; none where its length is wrong. -/
def partsIn (module : Nat) : Nat → Nat → Bytes → Option (List SearchPart)
  | 0, _, b => if b.isEmpty then some [] else none
  | n + 1, q, b =>
    let k := fld b 0 4
    if b.length < 8 + 16 * k then none
    else
      let hits := (List.range k).map (fun i => (⟨fld b (8 + 16 * i) 8, fld b (16 + 16 * i) 4, fld b (20 + 16 * i) 4, []⟩ : SearchHit))
      (partsIn module n (q + 1) (b.drop (8 + 16 * k))).map (fun l => ⟨module, q, fld b 4 4, hits⟩ :: l)

/-- SEARCH_RESP: a shard's part arrives; with the last one the SEARCH ends, unless payloads of other owners are still to come, R296, R297; the search of a request goes on at its RETRIEVAL_STAGE. -/
def searchResp (peer : Nat) (plain : Bytes) (s : State) : State :=
  onMessage 0x06 peer plain s (fun m s =>
    let b := m.body
    let n := fld b 8 4
    let st := fld b 12 2
    match s.indexes.jobs.find? (fun j => j.commandId == m.corr && j.index == fld b 0 4 && j.awaited.contains peer) with
    | none => s
    | some job =>
      match flightOf s job.serial, indexOf s job.index, (if st = 0 then partsIn peer n (fld b 4 4) (b.drop 16) else some []) with
      | some f, some x, some ps =>
        let parts := job.parts ++ ps
        let got := (parts.filter (fun p => p.module == peer)).length
        let job1 : SearchJob := { job with
          parts := parts
          failures := if st = 0 then job.failures else job.failures ++ [(peer, st)]
          awaited := if st ≠ 0 ∨ (if f.op = .search then par f 4 4 else 1) ≤ got then job.awaited.filter (· != peer) else job.awaited }
        let s1 := { s with indexes := { s.indexes with jobs := s.indexes.jobs.map (fun j => if j.serial = job.serial then job1 else j) } }
        if job1.awaited.isEmpty ∧ f.op = .search then settleVerdict f (searchDone f x job1 [] s1) s1 else s1
      | _, _, _ => malformed s)

/-- Payloads arrive from an owner for a search that has asked for them; a SEARCH with the last of them ends, R296; none where no search has. -/
def takePayloads (peer tenant corr : Nat) (r : Reply) (s : State) : Option State :=
  let b := r.result
  let n := fld b 4 4
  match s.indexes.jobs.find? (fun j => j.commandId == corr && fld b 0 4 == j.index + 6 * 65536 && goodStatus r.status
      && (indexOf s j.index).any (fun x => x.tenant == tenant && x.shard.contains peer)) with
  | none => none
  | some j => (indexOf s j.index).map (fun x =>
    let pays := (List.range n).map (fun i => (fld b (8 + 8 * i) 8, slice b (8 + 8 * n + x.payLen * i) x.payLen))
    let j1 := { j with payloads := j.payloads ++ pays }
    let s1 := { s with indexes := { s.indexes with jobs := s.indexes.jobs.map (fun y => if y.serial = j.serial then j1 else y) } }
    match flightOf s j.serial with
    | some f => if f.op = .search then settleVerdict f (searchDone f x j1 [] s1) s1 else s1
    | none => s1)

/-- SEARCH_RESP. -/
def execSearchResp (peer : Nat) (plain : Bytes) (s : State) : Result := nextOf s (searchResp peer plain s)

/-- The 128 bytes of INDEX_STATS, R300: the bytes held are the sizes of R268, not the pages they are charged as. -/
def indexStatsBytes (x : VecIndex) (sum : Bool) : Bytes :=
  let w := fun (v : W64) => toLe 8 v.toNat
  let k := x.counts
  toLe 8 x.main.length ++ toLe 8 x.side.length ++ toLe 8 (x.side.filter (sideLive x x.mseq)).length ++ toLe 8 x.tombs.length
    ++ toLe 8 (if sum then 0 else x.mseq) ++ toLe 8 (indexT1 x.vfmt x.dim x.lists x.main.length x.side.length x.tombs.length)
    ++ toLe 8 (vecPitch x.vfmt x.dim x.payLen * (x.main.length + x.side.length))
    ++ w k.queries ++ w k.lists ++ w k.codes ++ w k.rescored ++ w k.side ++ w k.spec ++ w k.wasted ++ w k.nonfinite ++ w k.merges

/-- INDEX_STATS, R300. -/
def indexStatsCommand : Command where
  op := .indexStats
  changes := false
  objects := fun _ _ => []
  check := fun s f => firstFail (lengthIs f 8 :: indexChecks s f
    ++ [rangeIf (!fromPeer f && decide ((indexShard s f).length ≤ par f 4 4) && par f 4 4 != 0xFFFFFFFF) 4])
  run := fun s f =>
    match indexOf s (par f 0 4) with
    | none => .reject .outOfRange 48
    | some x => .done s (okReply (indexStatsBytes x (par f 4 4 == 0xFFFFFFFF)))

/-- INDEX_STATS: on one shard, or on all. -/
def execIndexStats (h : Nat) (s : State) : Result :=
  execAt indexStatsCommand (fun s f => if par f 4 4 = 0xFFFFFFFF then indexShard s f else [nth (indexShard s f) (par f 4 4)]) h s

end Sys2Proof.Machine
end

