-- ==== Sys2Proof/Machine/TableRows.lean ====
section
/-! DEFINITION. Embedding tables: TABLE_CREATE and TABLE_DROP, row writes and reads, bag lookups, hot rows (chapter 08). -/

namespace Sys2Proof.Machine

open Sys2Proof

/-- The checks of TABLE_CREATE, R241. -/
def tableCreateCheck (s : State) (f : Flight) : Option (Status × Nat) :=
  let rows := par f 0 8
  let width := par f 8 2
  let tier := par f 11 1
  let die := par f 12 1
  firstFail [lengthIs f 16, badParamIf (rows == 0) 0, badParamIf (width == 0) 8, badParamIf (tier != 1 && tier != 2) 11,
    badParamIf (die != 0xFF && (tier != 1 || decide (3 < die))) 12, badParamIf (decide (15 < par f 10 1)) 10, reservedZero f 13 3,
    rangeIf (decide (2 ^ 40 < rows)) 0, rangeIf (decide (8192 < width)) 8,
    formatIf (!([0, 1, 2, 3, 4, 8, 9].contains (par f 10 1))) 10,
    failIf (decide (4096 ≤ s.tables.tables.length)) .tableFull 0]

/-- The effect of TABLE_CREATE on this member, R240, R243: storage for the rows it owns, or no more than a record of it; the ID is a free value (log entry 6). -/
def tableCreateRun (s : State) (f : Flight) : Verdict :=
  let shard := sortBy Nat.ble (scopeModules s f.hdr)
  let self := s.fabric.view.self
  let (id, s0) := takeId (kkeys s.tables.tables) f s
  if khas s.tables.tables id then .reject .txnConflict 0
  else if shard.contains self = false then .done (setTable id (newTable f shard 0 0) s0) (okReply (toLe 4 id ++ zeros 4))
  else
  let n := (ownedRows (par f 0 8) shard self).2
  let pitch := rowPitch (par f 8 2) (par f 10 1)
  match takeStorage f.tenant (par f 11 1) (par f 12 1) (pageBytes (n * 2 * pitch)) s0 with
  | .error (st, d) => .reject st d
  | .ok (slots, s1) =>
    match takeStorage f.tenant 1 0xFF (pageBytes (n * 8)) s1 with
    | .error (st, d) => .reject st d
    | .ok (headers, s2) =>
      .done (setTable id (newTable f shard slots headers) s2) (okReply (toLe 4 id ++ zeros 4))

/-- TABLE_CREATE as a command. -/
def tableCreateCommand : Command where
  op := .tableCreate
  changes := true
  objects := fun _ f => [⟨.tierQuota, f.tenant⟩]
  changed := fun _ _ => []
  held := fun _ f => [⟨.tierQuota, f.tenant⟩]
  check := tableCreateCheck
  run := tableCreateRun
  carried := fun s _ _ => toLe 4 (freeId (kkeys s.tables.tables) (drawFree s).1)
  carriedLen := fun _ => 4

/-- TABLE_CREATE. -/
def execTableCreate (h : Nat) (s : State) : Result := execCommand tableCreateCommand h s

/-- The opcodes that name a table first in their parameters. -/
def tableOps : List Opcode := [.rowsWrite, .rowsRead, .bagLookup, .hotPolicySet, .tableDrop]

/-- The checks that every command naming a table makes of it, R245, R246; `own` where it must be the command's tenant's. -/
def tableChecks (s : State) (f : Flight) (own : Bool) : List (Bool × Status × Nat) :=
  let id := par f 0 4
  let t := tableOf s id
  if fromPeer f then [] else
  [rangeIf (decide (4095 < id)) 0,
   unnamedIf f (t.isNone || dropTaken s f .tableDrop id) 0,
   failIf (own && t.any (fun x => x.tenant != f.tenant)) .notPermitted 0,
   failIf (t.any (fun x => !scopeWithin x.scope f.hdr.scope x.depth f.hdr.scopeDepth)) .notPermitted 0]

/-- A table's storage on this member is released, R246. -/
def releaseTable (id : Nat) (s : State) : State :=
  match tableOf s id with
  | none => s
  | some t =>
    let s1 := ([t.slots, t.headers, t.area].filter (· != 0)).foldl (fun u a =>
      releaseAlloc a (((kget u.tiers.allocs a).map (·.len)).getD 0) u) s
    { s1 with tables := { s1.tables with
        tables := kdel s1.tables.tables id
        updates := s1.tables.updates.filter (fun u => u.table != id) } }

/-- TABLE_DROP, R246: it waits for every admitted command that names the table, and a write of its rows that has been voted for holds it back. -/
def tableDropCommand : Command where
  op := .tableDrop
  changes := true
  held := fun _ f => [⟨.rows, par f 0 4⟩]
  objects := fun _ f => [⟨.table, par f 0 4⟩]
  check := fun s f => firstFail ([lengthIs f 8, reservedZero f 4 4] ++ tableChecks s f true)
  staged := fun _ f => firstFail [lengthIs f 8, reservedZero f 4 4, rangeIf (decide (4095 < par f 0 4)) 0]
  waits := fun s f => namedBefore s f tableOps (par f 0 4)
  run := fun s f => .done (releaseTable (par f 0 4) s) (okReply [])

/-- The shard set of the table that a command names. -/
def tableShard (s : State) (f : Flight) : List Nat := ((tableOf s (par f 0 4)).map (·.shard)).getD []

/-- TABLE_DROP: on every member that can name the table. -/
def execTableDrop (h : Nat) (s : State) : Result := execAt tableDropCommand tableMembers h s

/-- The u64 row indices of a list in memory. -/
def rowIndices (s : State) (a n : Nat) : List Nat := (List.range n).map (fun i => leNat (memRead s (a + 8 * i) 8))

/-- A slot image whose unused bits are not zero, R15, R242. -/
def imageBad (t : Table) (b : Bytes) : Bool :=
  let used := t.width * fmtBits t.fmt % 8
  used != 0 && decide (2 ^ used ≤ (b.getLastD 0).toNat)

/-- The checks of ROWS_WRITE at its entry member, R245, R250. -/
def rowsWriteCheck (s : State) (f : Flight) : Option (Status × Nat) :=
  let n := par f 4 4
  let stride := par f 24 4
  match firstFail ([lengthIs f 32, badParamIf (n == 0) 4, reservedZero f 28 4, rangeIf (decide (65536 < n)) 4] ++ tableChecks s f true), tableOf s (par f 0 4) with
  | some r, _ => some r
  | none, none => some (.outOfRange, 48)
  | none, some t =>
    let b := tableB t
    match firstFail ([rangeIf (par f 16 8 % 64 != 0) 16, rangeIf (stride % 64 != 0 || decide (stride < b)) 24]
        ++ extentChecks s f (par f 8 8) (n * 8) 8 ++ extentChecks s f (par f 16 8) ((n - 1) * stride + b) 16) with
    | some r => some r
    | none =>
      match readsFail s ((par f 8 8, n * 8) :: (List.range n).map (fun i => (par f 16 8 + i * stride, b))) with
      | some r => some r
      | none => firstFail [rangeIf ((rowIndices s (par f 8 8) n).any (fun r => decide (t.rows ≤ r))) 8,
          badParamIf ((List.range n).any (fun i => imageBad t (memRead s (par f 16 8 + i * stride) b))) 16]

/-- The updates that a ROWS_WRITE names, not yet committed. -/
def updatesOf (s : State) (f : Flight) (t : Table) : List RowUpdate :=
  ((rowIndices s (par f 8 8) (par f 4 4)).zipIdx).map (fun p =>
    ⟨par f 0 4, p.1, p.2, memRead s (par f 16 8 + p.2 * par f 24 4) (tableB t), s.fabric.view.self, f.hdr.sessionId, f.hdr.seq,
      f.hdr.commandId, false⟩)

/-- An update belongs to a command. -/
def updateOf (u : RowUpdate) (entry session seq : Nat) : Bool := u.entry == entry && u.session == session && u.seq == seq

/-- The body of a ROW_UPD message, R430. -/
def rowUpdBody (f : Flight) (entry pitch : Nat) (us : List RowUpdate) : Bytes :=
  toLe 4 (par f 0 4) ++ toLe 4 us.length ++ toLe 2 entry ++ zeros 2 ++ toLe 4 f.hdr.sessionId ++ toLe 8 f.hdr.seq
    ++ us.flatMap (fun u => toLe 8 u.row ++ toLe 4 u.pos ++ zeros 4)
    ++ us.flatMap (fun u => u.image ++ zeros (pitch - u.image.length))

/-- Write new slot images over the slots that are not current, and store their blocks: the memory and sectors as the updates would leave them, R226, R247. -/
def writeImages (us : List RowUpdate) (s : State) : State :=
  us.foldl (fun t u =>
    match tableOf t u.table with
    | none => t
    | some x =>
      let cur := 1 - headerCur (rowHeader t x u.row)
      let a := slotAt t x u.row cur
      let b := u.image ++ zeros (tablePitch x - u.image.length)
      let t1 := memWrite a b t
      if x.tier = 2 then storeBlocks (unitsTouched 4096 [(a, b)]) t1 else t1) s

/-- ROWS_WRITE at an owner once it may take effect: the new content is written into the slots that are not current, and its updates are queued for the next step
boundary, R247. -/
def rowsWriteRun (s : State) (f : Flight) : Verdict :=
  let entry := match f.origin with
    | .host _ => s.fabric.view.self
    | .peer m _ => m
  let mine := s.tables.updates.filter (fun u => updateOf u entry f.hdr.sessionId f.hdr.seq && !u.queued)
  if mine.isEmpty then .wait
  else
    let s1 := writeImages mine s
    match spaceFail f.tenant s s1 with
    | some d => .reject .tierFull d
    | none => .begun { s1 with tables := { s1.tables with updates := s1.tables.updates.map (fun u =>
        if updateOf u entry f.hdr.sessionId f.hdr.seq then { u with queued := true } else u) } }

/-- ROWS_WRITE as a command of the owners; its parameters were checked at the entry member; a vote locks the table's rows, R58, R72. -/
def rowsWriteCommand : Command where
  op := .rowsWrite
  changes := true
  objects := fun _ _ => []
  held := fun _ f => [⟨.rows, par f 0 4⟩]
  check := fun _ _ => none
  run := rowsWriteRun

/-- The updates for one owner are kept or sent. -/
def sendUpdates (f : Flight) (t : Table) (us : List RowUpdate) (s : State) (owner : Nat) : State :=
  let mine := us.filter (fun u => ownerOf t u.row == owner)
  if owner = s.fabric.view.self then { s with tables := { s.tables with updates := s.tables.updates ++ mine } }
  else (runsOf (rowsPerMessage (tablePitch t)) mine.length mine).foldl (fun u l =>
    sendMessage owner 0x03 0 f.tenant f.hdr.commandId 0 (rowUpdBody f s.fabric.view.self (tablePitch t) l) u) s

/-- ROWS_WRITE at its entry member: content is copied at validation; rows of more than one owner, or of another module, take the front-wide commit, R250, R253. -/
def rowsWrite (h : Nat) (s : State) : State :=
  match flightOf s h with
  | none => s
  | some f =>
    if f.op ≠ .rowsWrite ∨ mayRun s f = false then s
    else match rowsWriteCheck s f, tableOf s (par f 0 4) with
      | some (st, d), _ => finish f (plainReply st d) s
      | none, none => s
      | none, some t =>
        let us := updatesOf s f t
        let owners := sortBy Nat.ble ((us.map (fun u => ownerOf t u.row)).eraseDups)
        let self := s.fabric.view.self
        if s.fabric.view.rights = .readonly then finish f (plainReply .partitionedReadonly) s
        else if s.fabric.view.rights = .stale ∧ owners ≠ [self] then finish f (plainReply .epochStale) s
        else match owners.find? (fun m => !reaches s m) with
          | some m => finish f (plainReply .memberUnreachable m) s
          | none =>
            let s1 := owners.foldl (sendUpdates f t us) s
            if owners.contains self && lockedAny s (rowsWriteCommand.writes s f) then beginFlight f s
            else if owners = [self] then
              match rowsWriteRun s1 f with
              | .begun s2 => setFlight { f with running := true } s2
              | .reject st d => finish f (plainReply st d) s
              | _ => s
            else
              startCoord (commandKey s f) f [.command f []] (rowsWriteCommand.touches s f) owners
                (if owners.contains self then some (dryRun rowsWriteCommand f s1) else none) (fun _ => headerBytes f.hdr ++ f.params) s1

/-- ROWS_WRITE. -/
def execRowsWrite (h : Nat) (s : State) : Result := nextOf s (rowsWrite h s)

/-- ROW_UPD: new content for rows owned here, R250, R430. -/
def rowUpd (peer : Nat) (plain : Bytes) (s : State) : State :=
  onMessage 0x03 peer plain s (fun m s =>
    let b := m.body
    let n := fld b 4 4
    match tableOf s (fld b 0 4) with
    | none => s
    | some t =>
      let pitch := tablePitch t
      if b.length ≠ 24 + n * (16 + pitch) ∨ zeroAt b 10 2 = false ∨ (List.range n).any (fun i => !zeroAt b (36 + 16 * i) 4) = true then malformed s
      else
        let us := (List.range n).map (fun i => (⟨fld b 0 4, fld b (24 + 16 * i) 8, fld b (32 + 16 * i) 4,
          slice b (24 + 16 * n + pitch * i) (tableB t), fld b 8 2, fld b 12 4, fld b 16 8, m.corr, false⟩ : RowUpdate))
        { s with tables := { s.tables with updates := s.tables.updates ++ us.filter (fun u => ownerOf t u.row == s.fabric.view.self) } })

/-- ROW_UPD. -/
def execRowUpd (peer : Nat) (plain : Bytes) (s : State) : Result := nextOf s (rowUpd peer plain s)

/-- The order of updates that take effect at one boundary, R248. -/
def updateLe (a b : RowUpdate) : Bool :=
  let ka := [a.entry, a.seq, a.session, a.pos]
  let kb := [b.entry, b.seq, b.session, b.pos]
  le ka kb
where
  le : List Nat → List Nat → Bool
    | [], _ => true
    | _ :: _, [] => false
    | x :: xs, y :: ys => if x < y then true else if y < x then false else le xs ys

/-- The body of a ROW_REPL message, R430. -/
def rowReplBody (id op : Nat) (pairs : List (Nat × Nat)) (images : Bytes) : Bytes :=
  toLe 4 id ++ toLe 4 pairs.length ++ toLe 1 op ++ zeros 7 ++ pairs.flatMap (fun p => toLe 8 p.1 ++ toLe 8 p.2) ++ images

/-- Holders of a table's replicas: the other members of its shard set that are reached, R252. -/
def holdersOf (s : State) (t : Table) : List Nat := t.shard.filter (fun m => m != s.fabric.view.self && reaches s m)

/-- Send one ROW_REPL to every holder; each is a push, R263. -/
def pushRows (id op : Nat) (t : Table) (rows : List Nat) (s : State) : State :=
  (runsOf (rowsPerMessage (tablePitch t)) rows.length rows).foldl (fun u l =>
    let pairs := l.map (fun r => (r, headerVersion (rowHeader u t r)))
    let images := if op = 0 then l.flatMap (fun r => memRead u (slotAt u t r (headerCur (rowHeader u t r))) (tablePitch t)) else []
    let hs := holdersOf u t
    bump .replPushes id hs.length (sendAll 0x04 op t.tenant 0 (rowReplBody id op pairs images) hs u)) s

/-- The outcome of a ROWS_WRITE at an owner is reported: to its own flight, to its coordinator's record, or in a REPLY, R74, R250. -/
def reportRows (w : ReplWait) (s : State) : State :=
  let self := s.fabric.view.self
  let r := okReply (toLe 4 w.applied ++ toLe 4 w.superseded ++ zeros 8)
  let key : TxnKey := ⟨w.entry, w.session, aloneTxn w.commandId⟩
  if w.entry = self then
    match coordOf s key with
    | some c => coordReplied key (setCoord { c with replies := c.replies ++ [(self, w.commandId, r)] } s)
    | none =>
      match s.proto.flights.find? (fun f => decide (f.op = .rowsWrite) && f.hdr.sessionId == w.session && f.hdr.seq == w.seq) with
      | some f => finish f r s
      | none => s
  else
    sendMessage w.entry 0x08 1 0 w.commandId 0 (cmdFwdBody 1 0 w.entry 0 (replyBody w.commandId s.frontTime r)) s

/-- The waits that no reachable holder keeps open end, R252. -/
def settleRepl (s : State) : State :=
  let live := fun (w : ReplWait) => w.awaited.any (fun a => reaches s a.1)
  let ended := s.tables.waits.filter (fun w => !live w)
  ended.foldl (fun t w => reportRows w t) { s with tables := { s.tables with waits := s.tables.waits.filter live } }

/-- One row takes the last of its updates: the other slot is written, CUR inverts, VERSION advances, R247. -/
def applyRow (u : RowUpdate) (s : State) : State :=
  match tableOf s u.table with
  | none => s
  | some t =>
    let s1 := writeImages [u] s
    let h := rowHeader s t u.row
    let h' := (headerVersion h + 1) % 2 ^ 48 + (1 - headerCur h) * 2 ^ 48
    memWrite (t.headers + (u.row - (ownedRows t.rows t.shard s.fabric.view.self).1) * 8) (toLe 8 h') s1

/-- Whether the write of an update had to wait for a fetch in progress from its slot is a free value, R247 (log entry 7). -/
def rowWait (id : Nat) (s : State) : State :=
  let (d, s1) := drawFree s
  bump .rowWaits id (d % 2) s1

/-- ROW_UPDATE_APPLY: the queued updates take effect at this step boundary; the last of each row by R248 wins. -/
def rowUpdateApply (s : State) : State :=
  let us := sortBy updateLe (s.tables.updates.filter (fun u => u.queued && (tableOf s u.table).isSome))
  if us.isEmpty then s
  else
    let wins := us.filter (fun u =>
      (us.filter (fun v => v.table == u.table && v.row == u.row)).getLast?.any (fun v => decide (v = u)))
    let last := fun (u : RowUpdate) => wins.any (fun v => decide (v = u))
    let s1 := { s with
      proto := { s.proto with stepCount := s.proto.stepCount + 1 }
      tables := { s.tables with updates := s.tables.updates.filter (fun u => !u.queued) } }
    let s2 := wins.foldl (fun t u => applyRow u t) s1
    let s3 := us.foldl (fun t u => rowWait u.table (bump .rowUpdates u.table 1 (if last u then t else bump .rowSuperseded u.table 1 t))) s2
    let hot := wins.filter (fun u => (tableOf s u.table).any (fun t => t.hot.contains u.row))
    let s4 := ((hot.map (·.table)).eraseDups).foldl (fun t id =>
      match tableOf t id with
      | none => t
      | some x => pushRows id 0 x ((hot.filter (fun u => u.table == id)).map (·.row)) t) s3
    let cmds := (us.map (fun u => (u.entry, u.session, u.seq, u.commandId))).eraseDups
    let waits := cmds.map (fun c =>
      let mine := us.filter (fun u => updateOf u c.1 c.2.1 c.2.2.1)
      let awaited := (mine.filter (fun u => last u && hot.any (fun v => decide (v = u)))).flatMap (fun u =>
        match tableOf s4 u.table with
        | none => []
        | some t => (holdersOf s4 t).map (fun m => (m, u.table, u.row, headerVersion (rowHeader s4 t u.row))))
      (⟨c.1, c.2.1, c.2.2.1, c.2.2.2, (mine.filter last).length, (mine.filter (fun u => !last u)).length, awaited⟩ : ReplWait))
    settleRepl { s4 with tables := { s4.tables with waits := s4.tables.waits ++ waits } }

/-- ROW_UPDATE_APPLY. -/
def execRowUpdateApply (s : State) : Result := nextOf s (rowUpdateApply s)

/-- A ROW_REPL message taken apart: table, COUNT, OP; none where its length or a reserved field is wrong. -/
def replPairs (b : Bytes) : List (Nat × Nat) := (List.range (fld b 4 4)).map (fun i => (fld b (16 + 16 * i) 8, fld b (24 + 16 * i) 8))

/-- A ROW_REPL of another OP is another row's. -/
def onRepl (op peer : Nat) (plain : Bytes) (s : State) (k : Nat → Table → Bytes → State → State) : State :=
  if fld plain 32 1 ≠ op then s
  else onMessage 0x04 peer plain s (fun m s =>
    let b := m.body
    if zeroAt b 9 7 = false ∨ b.length < 16 + 16 * fld b 4 4 then malformed s
    else match tableOf s (fld b 0 4) with
      | none => s
      | some t => k (fld b 0 4) t b s)

/-- ROW_REPL INSTALL: a holder installs replicas and acknowledges them, R252. -/
def rowReplInstall (peer : Nat) (plain : Bytes) (s : State) : State :=
  onRepl 0 peer plain s (fun id t b s =>
    let n := fld b 4 4
    let pitch := tablePitch t
    if b.length ≠ 16 + n * (16 + pitch) then malformed s
    else
      let reps := ((replPairs b).zipIdx).foldl (fun m p =>
        kset m p.1.1 (p.1.2 % 2 ^ 48, slice b (16 + 16 * n + pitch * p.2) (tableB t))) t.replicas
      sendMessage peer 0x04 2 t.tenant 0 0 (rowReplBody id 2 (replPairs b) []) (setTable id { t with replicas := reps } s))

/-- ROW_REPL_INSTALL. -/
def execRowReplInstall (peer : Nat) (plain : Bytes) (s : State) : Result := nextOf s (rowReplInstall peer plain s)

/-- ROW_REPL DROP: replicas of rows that leave the hot set go, R261. -/
def rowReplDrop (peer : Nat) (plain : Bytes) (s : State) : State :=
  onRepl 1 peer plain s (fun id t b s =>
    setTable id { t with replicas := (replPairs b).foldl (fun m p => kdel m p.1) t.replicas } s)

/-- ROW_REPL_DROP. -/
def execRowReplDrop (peer : Nat) (plain : Bytes) (s : State) : Result := nextOf s (rowReplDrop peer plain s)

/-- ROW_REPL ACK: a holder has installed rows; the ROWS_WRITEs that no longer wait are answered, R252. -/
def rowReplAck (peer : Nat) (plain : Bytes) (s : State) : State :=
  onRepl 2 peer plain s (fun id _ b s =>
    let ps := replPairs b
    settleRepl { s with tables := { s.tables with waits := s.tables.waits.map (fun w =>
      { w with awaited := w.awaited.filter (fun a => !(a.1 == peer && a.2.1 == id && ps.any (fun p => p.1 == a.2.2.1 && p.2 == a.2.2.2))) }) } })

/-- ROW_REPL_ACK. -/
def execRowReplAck (peer : Nat) (plain : Bytes) (s : State) : Result := nextOf s (rowReplAck peer plain s)

/-- The checks of ROWS_READ, R245, R251. -/
def rowsReadCheck (s : State) (f : Flight) : Option (Status × Nat) :=
  let n := par f 4 4
  let stride := par f 24 4
  match firstFail ([lengthIs f 32, badParamIf (n == 0) 4, reservedZero f 28 4, lengthIf (decide (8184 < n)) 4]
      ++ tableChecks s f true), tableOf s (par f 0 4) with
  | some r, _ => some r
  | none, none => some (.outOfRange, 48)
  | none, some t =>
    let b := tableB t
    match firstFail ([rangeIf (par f 16 8 % 64 != 0) 16, rangeIf (stride % 64 != 0 || decide (stride < b)) 24]
        ++ extentChecks s f (par f 8 8) (n * 8) 8 ++ extentChecks s f (par f 16 8) ((n - 1) * stride + b) 16) with
    | some r => some r
    | none =>
      match readFails s (par f 8 8) (n * 8) with
      | some r => some r
      | none => firstFail [rangeIf ((rowIndices s (par f 8 8) n).any (fun r => decide (t.rows ≤ r))) 8]

/-- ROWS_READ, R249, R251; rows of other members are fetched, `fetched` holds any that come with the row of the model (row, version, slot image; log entry 20). -/
def rowsReadCommand (fetched : List (Nat × Nat × Bytes)) : Command where
  op := .rowsRead
  changes := false
  objects := fun _ _ => []
  check := rowsReadCheck
  run := fun s f =>
    match tableOf s (par f 0 4) with
    | none => .reject .outOfRange 48
    | some t =>
      let idx := rowIndices s (par f 8 8) (par f 4 4)
      match fetchAll s f.serial (par f 0 4) t fetched idx with
      | .error e => fetchVerdict s f (par f 0 4) t idx e
      | .ok got =>
        let runs := (got.zipIdx).map (fun p => (par f 16 8 + p.2 * par f 24 4, p.1.2.2.2))
        commitVerdict f runs (chargeHub 27 f.tenant s) (fun s1 =>
          .done (dropFetching f.serial s1) (okReply (got.flatMap (fun g => toLe 8 g.2.2.1))))

/-- ROWS_READ. -/
def execRowsRead (h : Nat) (fetched : List (Nat × Nat × Bytes)) (s : State) : Result := execEntry (rowsReadCommand fetched) h s

/-- The parameters of a BAG_LOOKUP. -/
structure Bags where
  table : Table
  id : Nat
  bags : Nat
  total : Nat
  mode : Nat
  wide : Bool
  skip : Bool
  fmt : Nat
  idx : Nat
  off : Nat
  wgt : Nat
  out : Nat
  stride : Nat
  trap : Bool

/-- The parameter block of R254. -/
def bagsOf (f : Flight) (t : Table) : Bags where
  table := t
  id := par f 0 4
  bags := par f 4 4
  total := par f 8 4
  mode := par f 12 1
  wide := bitOf (par f 13 1) 0
  skip := bitOf (par f 13 1) 1
  fmt := par f 14 1
  idx := par f 16 8
  off := par f 24 8
  wgt := par f 32 8
  out := par f 40 8
  stride := par f 48 4
  trap := bitOf (par f 56 8) 0

/-- Bytes of an index. -/
def Bags.idxBytes (b : Bags) : Nat := if b.wide then 8 else 4

/-- Bytes of an output row. -/
def Bags.outBytes (b : Bags) : Nat := ceilDiv (b.table.width * fmtBits b.fmt) 8

/-- The index entries, offsets and weights of a BAG_LOOKUP. -/
def bagIndices (s : State) (b : Bags) : List Nat := (List.range b.total).map (fun i => leNat (memRead s (b.idx + i * b.idxBytes) b.idxBytes))
def bagOffsets (s : State) (b : Bags) : List Nat := (List.range (b.bags + 1)).map (fun i => leNat (memRead s (b.off + 4 * i) 4))
def bagWeights (s : State) (b : Bags) : List Nat :=
  if b.mode = 2 then (List.range b.total).map (fun i => leNat (memRead s (b.wgt + 4 * i) 4)) else []

/-- A padding index, R255. -/
def bagPadding (b : Bags) (i : Nat) : Bool := i == 2 ^ (8 * b.idxBytes) - 1

/-- Offsets decrease somewhere. -/
def decreasing : List Nat → Bool
  | a :: b :: l => decide (b < a) || decreasing (b :: l)
  | _ => false

/-- The checks of BAG_LOOKUP, R245, R254, R255. -/
def bagLookupCheck (s : State) (f : Flight) : Option (Status × Nat) :=
  match firstFail ([lengthIs f 64, badParamIf (decide (2 < par f 12 1)) 12, badParamIf (decide (3 < par f 13 1)) 13,
      badParamIf (decide (15 < par f 14 1)) 14, reservedZero f 15 1, reservedZero f 52 4,
      badParamIf (decide (1 < par f 56 8)) 56,
      badParamIf (if par f 12 1 = 2 then par f 32 8 == 0 && par f 8 4 != 0 else par f 32 8 != 0) 32,
      formatIf (decide (2 < par f 14 1)) 14] ++ tableChecks s f true
      ++ [rangeIf (par f 4 4 == 0 || decide (1048576 < par f 4 4)) 4, rangeIf (decide (16777216 < par f 8 4)) 8]), tableOf s (par f 0 4) with
  | some r, _ => some r
  | none, none => some (.outOfRange, 48)
  | none, some t =>
    let b := bagsOf f t
    let exts := (if b.total = 0 then [] else extentChecks s f b.idx (b.total * b.idxBytes) 16)
      ++ extentChecks s f b.off ((b.bags + 1) * 4) 24
      ++ (if b.mode = 2 ∧ b.total ≠ 0 then extentChecks s f b.wgt (b.total * 4) 32 else [])
      ++ extentChecks s f b.out ((b.bags - 1) * b.stride + b.outBytes) 40
    match firstFail ([rangeIf (b.out % 64 != 0) 40, rangeIf (b.stride % 64 != 0 || decide (b.stride < b.outBytes)) 48] ++ exts) with
    | some r => some r
    | none =>
      match readsFail s [(b.idx, b.total * b.idxBytes), (b.off, (b.bags + 1) * 4), (b.wgt, if b.mode = 2 then b.total * 4 else 0)] with
      | some r => some r
      | none =>
        let offs := bagOffsets s b
        firstFail [badParamIf (offs.head? != some 0 || offs.getLast? != some b.total || decreasing offs) 24,
          rangeIf (!b.skip && (bagIndices s b).any (fun i => !bagPadding b i && decide (t.rows ≤ i))) 16]

/-- What pooling has found: the first NaN (operand, format, bits, column, row index) and what it has counted. -/
abbrev PoolNan := Nat × Nat × Nat × Nat × Nat

/-- A row widened to FP32 codes, R256; the scale of an integer row first. -/
def widenRow (t : Table) (image : Bytes) : List Nat × NumCounts :=
  if intRow t.fmt then
    let s := fp32In (fld image 0 4)
    let cs := unpack (fmtBits t.fmt) t.width (image.drop 4)
    let rs := cs.map (fun c => fp32Out (numMul (decodeNum t.fmt c) s))
    (rs.map (·.1), rs.foldl (fun a r => NumCounts.add a r.2) NumCounts.zero)
  else ((unpack (fmtBits t.fmt) t.width image).map (fun c => encodeNum 0 (flushIn (decodeNum t.fmt c))), NumCounts.zero)

/-- The first NaN of a row's storage, R258: its scale, or an element. -/
def rowNan (t : Table) (row : Nat) (image : Bytes) (wide : List Nat) : Option PoolNan :=
  if intRow t.fmt ∧ f32IsNan (fld image 0 4) = true then some (4, 0, fld image 0 4, 0, row)
  else ((wide.zipIdx).find? (fun p => f32IsNan p.1)).map (fun p =>
    (0, if intRow t.fmt then 0 else t.fmt, if intRow t.fmt then p.1 else elemAt image (fmtBits t.fmt) p.2, p.2, row))

/-- The exact weight of each distinct row of a bag, ascending, R256. -/
def bagWeightSums (entries : List (Nat × Num)) : List (Nat × Num) :=
  let rows := sortBy Nat.ble ((entries.map (·.1)).eraseDups)
  rows.map (fun r => (r, (entries.filter (fun e => e.1 == r)).foldl (fun acc e => numAdd acc e.2) (.fin false 0 0)))

/-- A weight rounded once; an exact zero is +0, R256. -/
def roundWeight (w : Num) : Nat × NumCounts :=
  let r := fp32Out w
  match w with
  | .fin _ 0 _ => (0, r.2)
  | _ => r

/-- One bag pooled, R256: the FP32 codes, the counts, the first NaN. -/
def poolBag (width mode : Nat) (entries : List (Nat × Num)) (rowOf : Nat → List Nat × Option PoolNan) : List Nat × NumCounts × Option PoolNan :=
  let sums := bagWeightSums entries
  let start : List Nat × NumCounts × Option PoolNan := (List.replicate width 0, NumCounts.zero, none)
  let pooled := sums.foldl (fun a p =>
    let w := roundWeight p.2
    let row := rowOf p.1
    let nan := if numIsNan p.2 then some (4, 0, w.1, 0, p.1) else row.2
    let step := (List.zip a.1 row.1).map (fun x =>
      let m := f32Mul w.1 x.2
      let r := f32Add x.1 m.1
      (r.1, NumCounts.add m.2 r.2))
    (step.map (·.1), step.foldl (fun c x => NumCounts.add c x.2) (NumCounts.add a.2.1 w.2), a.2.2.or nan)) start
  let final :=
    if mode = 1 ∧ entries.isEmpty = false then
      let n := encodeNum 0 (.fin false entries.length 0)
      let qs := pooled.1.map (fun a => f32Div a n)
      (qs.map (·.1), qs.foldl (fun c x => NumCounts.add c x.2) pooled.2.1)
    else (pooled.1, pooled.2.1)
  let lastRow := (sums.getLast?.map (·.1)).getD 0
  let nan := pooled.2.2.or (((final.1.zipIdx).find? (fun p => f32IsNan p.1)).map (fun p => (5, 0, p.1, p.2, lastRow)))
  (final.1, final.2, nan)

/-- An output row in its format, R257. -/
def bagOutput (fmt : Nat) (acc : List Nat) : Bytes :=
  packElems (fmtBits fmt) (acc.map (fun a => if fmt = 0 then a else encodeNum fmt (roundTo fmt .rne false false 0 (decodeNum 0 a)).1))

/-- Everything a BAG_LOOKUP computes. -/
structure BagWork where
  valid : List (Nat × Nat × Num)
  padding : Nat
  skipped : Nat
  distinct : List Nat

/-- The valid entries (bag, row, weight), and what is dropped, R255. -/
def bagWork (s : State) (b : Bags) : BagWork :=
  let offs := bagOffsets s b
  let idx := bagIndices s b
  let ws := bagWeights s b
  let bagOf := fun (i : Nat) => ((List.range b.bags).find? (fun k => decide (i < nth offs (k + 1)))).getD 0
  let all := (idx.zipIdx).map (fun p => (p.1, p.2))
  let live := all.filter (fun p => !bagPadding b p.1)
  let valid := (live.filter (fun p => decide (p.1 < b.table.rows))).map (fun p =>
    (bagOf p.2, p.1, if b.mode = 2 then fp32In (nth ws p.2) else .fin false 1 0))
  ⟨valid, all.length - live.length, live.length - valid.length, sortBy Nat.ble ((valid.map (fun v => v.2.1)).eraseDups)⟩

/-- Occurrences of a committed lookup, stamped with its arrival, R261. -/
def noteOccurrences (id : Nat) (stamp : Nat) (rows : List Nat) (s : State) : State :=
  match tableOf s id with
  | none => s
  | some t =>
    setTable id (rows.foldl (fun u r => addOccurrences stamp r 1 u) t) s

/-- The identity record of a NaN in pooling, R258; the engine that found it is a free value. -/
def bagNan (f : Flight) (bag : Nat) (n : PoolNan) (s : State) : State :=
  let (d, s1) := drawFree s
  let unit := 0x5000 + d % 16
  nanTrap f.serial unit f.tenant
    (nanRecord s1 f.hdr.commandId unit f.tenant 7 0 n.1 n.2.1 (n.2.2.2.2 % 2 ^ 32) bag (n.2.2.2.1 / 128) (n.2.2.2.1 % 128) 0xFFFFFFFF n.2.2.1 0 0) s1

/-- A BAG_LOOKUP's pooled bags, or the first NaN with its bag. -/
def poolAll (b : Bags) (w : BagWork) (got : List (Nat × Nat × Nat × Bytes)) : List (List Nat × NumCounts × Option PoolNan) :=
  let wide := got.map (fun g => (g.1, (widenRow b.table g.2.2.2).1, rowNan b.table g.1 g.2.2.2 (widenRow b.table g.2.2.2).1))
  (List.range b.bags).map (fun k =>
    poolBag b.table.width b.mode ((w.valid.filter (fun v => v.1 == k)).map (fun v => (v.2.1, v.2.2)))
      (fun r => ((wide.find? (fun x => x.1 == r)).map (fun x => (x.2.1, x.2.2))).getD ([], none)))

/-- The effect of BAG_LOOKUP at its commit point, R257, R259, R263. -/
def bagCommit (f : Flight) (b : Bags) (w : BagWork) (got : List (Nat × Nat × Nat × Bytes)) (s : State) : Verdict :=
  let bags := poolAll b w got
  let runs := (bags.zipIdx).map (fun p => (b.out + p.2 * b.stride, bagOutput b.fmt p.1.1))
  let counts := (got.map (fun g => (widenRow b.table g.2.2.2).2) ++ bags.map (fun x => x.2.1)).foldl NumCounts.add NumCounts.zero
  let path := fun (k : Nat) => (got.filter (fun g => g.2.1 == k)).length
  let empty := ((List.range b.bags).filter (fun k => !w.valid.any (fun v => v.1 == k))).length
  commitVerdict f runs (chargeHub 27 f.tenant s) (fun s1 =>
    let s2 := bump .lookups b.id w.valid.length (bump .fetchLocal b.id (path 0) (bump .fetchReplica b.id (path 1) (bump .fetchRemote b.id (path 2)
      (bump .dedupSaved b.id (w.valid.length - w.distinct.length) (bump .padding b.id w.padding (bump .oorSkipped b.id w.skipped
      (bump .emptyBags b.id empty (addCounts f.tenant counts s1))))))))
    .done (noteOccurrences b.id f.taken (w.valid.map (fun v => v.2.1)) (dropFetching f.serial s2))
      (okReply (toLe 4 w.valid.length ++ toLe 4 w.distinct.length ++ toLe 4 w.skipped ++ toLe 4 empty)))

/-- BAG_LOOKUP as a command of its entry member, R254 to R259. -/
def bagLookupCommand (fetched : List (Nat × Nat × Bytes)) : Command where
  op := .bagLookup
  changes := false
  objects := fun _ _ => []
  check := bagLookupCheck
  run := fun s f =>
    match tableOf s (par f 0 4) with
    | none => .reject .outOfRange 48
    | some t =>
      let b := bagsOf f t
      let w := bagWork s b
      match fetchAll s f.serial b.id t fetched w.distinct with
      | .error e => fetchVerdict s f b.id t w.distinct e
      | .ok got =>
        match (if b.trap then ((poolAll b w got).zipIdx).find? (fun p => p.1.2.2.isSome) else none) with
        | some (p, k) => .begun (bagNan f k (p.2.2.getD (0, 0, 0, 0, 0)) s)
        | none => bagCommit f b w got s

/-- BAG_LOOKUP: rows of other members are fetched; `fetched` holds any that come with the row of the model (log entry 20). -/
def execBagLookup (h : Nat) (fetched : List (Nat × Nat × Bytes)) (s : State) : Result := execEntry (bagLookupCommand fetched) h s

/-- PIN_COUNT row indices of a HOT_POLICY_SET. -/
def pinsOf (s : State) (f : Flight) : List Nat :=
  let b := dataOf f (fun _ => memRead s (par f 24 8) (par f 20 4 * 8))
  (List.range (par f 20 4)).map (fun i => fld b (8 * i) 8)

/-- Strictly ascending. -/
def rising : List Nat → Bool
  | a :: b :: l => decide (a < b) && rising (b :: l)
  | _ => true

/-- What the parameters of a HOT_POLICY_SET alone decide, R260. -/
def hotPolicyShape (f : Flight) : List (Bool × Status × Nat) :=
  let mode := par f 4 1
  let win := par f 8 4
  let thr := par f 12 4
  let hot := par f 16 4
  let n := par f 20 4
  [lengthIs f 40, badParamIf (decide (2 < mode)) 4, reservedZero f 5 3, reservedZero f 32 8,
      badParamIf (if mode = 1 then win == 0 || decide (60000 < win) else win != 0) 8,
      badParamIf (if mode = 1 then thr == 0 else thr != 0) 12,
      badParamIf (decide (65536 < hot) || (mode == 0 && hot != 0)) 16,
      badParamIf (decide (4096 < n) || decide (hot < n)) 20, badParamIf (n == 0 && par f 24 8 != 0) 24]

/-- The checks of HOT_POLICY_SET, R260. -/
def hotPolicyCheck (s : State) (f : Flight) : Option (Status × Nat) :=
  let n := par f 20 4
  match firstFail (hotPolicyShape f ++ tableChecks s f false
      ++ (if n = 0 ∨ f.content.isSome = true then [] else extentChecks s f (par f 24 8) (n * 8) 24)) with
  | some r => some r
  | none =>
    match (if n = 0 ∨ f.content.isSome = true then none else readFails s (par f 24 8) (n * 8)), tableOf s (par f 0 4) with
    | some r, _ => some r
    | none, none => some (.outOfRange, 48)
    | none, some t =>
      let ps := pinsOf s f
      firstFail [badParamIf (!rising ps) 24, rangeIf (ps.any (fun p => decide (t.rows ≤ p))) 24]

/-- The pinned rows in this member's range. -/
def ownPins (s : State) (t : Table) : List Nat := t.pins.filter (fun r => ownerOf t r == s.fabric.view.self)

/-- A new hot set is chosen: rows entering are sent to the holders, rows leaving dropped there, R261. -/
def setHot (id : Nat) (t : Table) (hot : List Nat) (s : State) : State :=
  let enter := hot.filter (fun r => !t.hot.contains r)
  let leave := t.hot.filter (fun r => !hot.contains r)
  let s1 := setTable id { t with hot := hot } s
  let s2 := if enter.isEmpty then s1 else pushRows id 0 t enter s1
  let s3 := if leave.isEmpty then s2 else pushRows id 1 t leave s2
  { s3 with counters := ctrSet s3.counters .hotRows id (BitVec.ofNat 64 hot.length) }

/-- The effect of HOT_POLICY_SET on a member: the replica area, the policy, the pinned rows, R260, R261. -/
def hotPolicyRun (s : State) (f : Flight) : Verdict :=
  let id := par f 0 4
  match tableOf s id with
  | none => .reject .outOfRange 48
  | some t =>
    let s0 := if t.area = 0 then s else releaseAlloc t.area (((kget s.tiers.allocs t.area).map (·.len)).getD 0) s
    let len := pageBytes ((t.shard.length - 1) * par f 16 4 * (2 * tablePitch t + 8))
    let member := t.shard.contains s.fabric.view.self
    match (if member then takeStorage t.tenant 1 0xFF len s0 else .ok (0, s0)) with
    | .error _ => .reject .noResource 0
    | .ok (area, s1) =>
      let mode := par f 4 1
      let t1 : Table := { t with
        area := area
        hmode := mode
        windowMs := par f 8 4
        threshold := par f 12 4
        maxHot := par f 16 4
        pins := pinsOf s f
        policyAt := s.frontTime
        occurrences := []
        replicas := if mode = 0 then [] else t.replicas }
      let hot := if mode = 2 then ownPins s t1 else if mode = 1 then t.hot else []
      .done (setHot id t1 (hot.take t1.maxHot) (setTable id t1 s1)) (okReply [])

/-- HOT_POLICY_SET as a command. -/
def hotPolicyCommand : Command where
  op := .hotPolicySet
  changes := true
  objects := fun _ f => [⟨.table, par f 0 4⟩]
  check := hotPolicyCheck
  staged := fun _ f => firstFail (hotPolicyShape f ++ [rangeIf (decide (4095 < par f 0 4)) 0])
  run := hotPolicyRun
  carried := fun s f _ => if par f 20 4 = 0 then [] else memRead s (par f 24 8) (par f 20 4 * 8)
  carriedLen := fun f => par f 20 4 * 8

/-- HOT_POLICY_SET. -/
def execHotPolicySet (h : Nat) (s : State) : Result := execAt hotPolicyCommand tableShard h s

/-- Occurrence counts of own rows in a window: those counted here, and those members reported (row, count). -/
def hotCounts (s : State) (t : Table) (w : Nat) (reported' : List (Nat × Nat)) : List (Nat × Nat) :=
  let l := (t.occurrences.filter (fun x => windowOf t x.1 == w)).map (fun x => (x.2.1, x.2.2)) ++ reported'
  let rows := ((l.map (·.1)).eraseDups).filter (fun r => decide (r < t.rows) && ownerOf t r == s.fabric.view.self)
  rows.map (fun r => (r, listSum ((l.filter (fun x => x.1 == r)).map (·.2))))

/-- At a window's end a member reports the occurrences it has counted of other owners' rows to those owners, R261 (log entry 77). -/
def reportCounts (id : Nat) (t : Table) (w : Nat) (s : State) : State :=
  let others := t.occurrences.filter (fun x => decide (windowOf t x.1 ≤ w) && ownerOf t x.2.1 != s.fabric.view.self)
  let s1 := setTable id { t with occurrences := t.occurrences.filter (fun x => !others.contains x) } s
  ((others.map (fun x => ownerOf t x.2.1)).eraseDups.filter (reaches s)).foldl (fun u o =>
    let mine := others.filter (fun x => ownerOf t x.2.1 == o)
    (runsOf 87000 mine.length mine).foldl (fun v l =>
      sendTable 1 o t.tenant 0 id (toLe 4 l.length ++ l.flatMap (fun x => toLe 8 x.1 ++ toLe 8 x.2.1 ++ toLe 8 x.2.2)) v) u) s1

/-- HOT_WINDOW_END: at a window's end every member reports what it has counted, and an owner chooses its hot set, R261. -/
def hotWindowEnd (table : Nat) (reported' : List (Nat × Nat)) (now : Nat) (s0 : State) : State :=
  let s := advance now s0
  match tableOf s table with
  | none => s0
  | some t =>
    let len := t.windowMs * 1000000
    if t.hmode ≠ 1 ∨ s.frontTime < t.policyAt + len then s0
    else if t.shard.contains s.fabric.view.self = false then reportCounts table t ((s.frontTime - t.policyAt) / len - 1) s
    else
      let w := (s.frontTime - t.policyAt) / len - 1
      let pins := ownPins s t
      let crossed := (hotCounts s t w reported').filter (fun p => decide (t.threshold ≤ p.2) && !pins.contains p.1)
      let byCount := sortBy (fun a b => decide (b.2 < a.2) || (a.2 == b.2 && decide (a.1 ≤ b.1))) crossed
      let hot := sortBy Nat.ble ((pins ++ byCount.map (·.1)).take t.maxHot)
      setHot table { t with occurrences := t.occurrences.filter (fun x => decide (w < windowOf t x.1)) } hot (reportCounts table t w s)

/-- HOT_WINDOW_END. -/
def execHotWindowEnd (table : Nat) (counts : List (Nat × Nat)) (now : Nat) (s : State) : Result := nextOf s (hotWindowEnd table counts now s)

end Sys2Proof.Machine
end

