-- ==== Sys2Proof/Machine/ModelOps.lean ====
section
/-! DEFINITION. Models: the header (R351), bound addresses (R352), key/value pages (R365), a step of a model as one command (R352). -/

namespace Sys2Proof.Machine

open Sys2Proof

/-- Fields of a model header, R351. -/
def Model.kind (m : Model) : Nat := fld m.header 6 1
def Model.kvFmt (m : Model) : Nat := fld m.header 7 1
def Model.kvLayers (m : Model) : Nat := fld m.header 8 2
def Model.kvHeads (m : Model) : Nat := fld m.header 10 2
def Model.headDim (m : Model) : Nat := fld m.header 12 2
def Model.steerLayers (m : Model) : Nat := fld m.header 14 2
def Model.outWidth (m : Model) : Nat := fld m.header 16 4
def Model.maxCtx (m : Model) : Nat := fld m.header 20 4
def Model.progLen (m : Model) : Nat := fld m.header 24 4
def Model.embedTable (m : Model) : Nat := fld m.header 28 4
def Model.outOff (m : Model) : Nat := fld m.header 36 4
def Model.pool (m : Model) : Nat := fld m.header 40 1
def Model.numeric (m : Model) : Nat := fld m.header 48 8

/-- The layers of a program as loaded. -/
def Model.layers (m : Model) : List Layer := (List.range m.progLen).map (fun i => layerAt m.program (192 * i))

/-- Bytes of an element of the key/value pages. -/
def kvElem (fmt : Nat) : Nat := fmtBits fmt / 8

/-- T: positions of one page, R365. -/
def kvSlots (heads headDim fmt : Nat) : Nat := 524288 / (2 * heads * headDim * fmtBits fmt)

/-- T of a model. -/
def Model.slots (m : Model) : Nat := kvSlots m.kvHeads m.headDim m.kvFmt

/-- Where a key stands: layer, head, position, element, R365. -/
def keyAddr (m : Model) (layer head pos d : Nat) : Nat :=
  let t := m.slots
  layer * 2 ^ 40 + pos / t * 2 ^ 16 + ((head * t + pos % t) * m.headDim + d) * kvElem m.kvFmt

/-- Where a value stands, R365. -/
def valueAddr (m : Model) (layer head pos d : Nat) : Nat :=
  let t := m.slots
  layer * 2 ^ 40 + pos / t * 2 ^ 16 + (m.kvHeads * t * m.headDim + (head * m.headDim + d) * t + pos % t) * kvElem m.kvFmt

/-- Pages that a stage needs, R366. -/
def Model.pagesFor (m : Model) (positions : Nat) : Nat := m.kvLayers * ceilDiv (min positions m.maxCtx) m.slots

/-- A cached row of keys of one head: its elements stand together. -/
def readKey (m : Model) (cells : Memory) (layer head pos : Nat) : Bytes :=
  Memory.readN cells (keyAddr m layer head pos 0) (m.headDim * kvElem m.kvFmt)

/-- A cached row of values of one head and element over positions. -/
def readValues (m : Model) (cells : Memory) (layer head d visible : Nat) : Bytes :=
  (List.range visible).flatMap (fun p => Memory.readN cells (valueAddr m layer head p d) (kvElem m.kvFmt))

/-- Write one element of the cache of a position: a key or a value of column `c`, R352. -/
def writeCache (m : Model) (value : Bool) (layer pos c : Nat) (b : Bytes) (cells : Memory) : Memory :=
  let a := if value then valueAddr m layer (c / m.headDim) pos (c % m.headDim) else keyAddr m layer (c / m.headDim) pos (c % m.headDim)
  Memory.writeN cells a b

/-- The keys and values of positions are written as zero in every layer, R374. -/
def zeroPositions (m : Model) (positions : List Nat) (cells : Memory) : Memory :=
  let cols := List.range (m.kvHeads * m.headDim)
  let z := zeros (kvElem m.kvFmt)
  positions.foldl (fun c p => (List.range m.kvLayers).foldl (fun c l =>
    cols.foldl (fun c k => writeCache m true l p k z (writeCache m false l p k z c)) c) c) cells

/-- Fields of a pipeline descriptor, R354. -/
def Pipeline.kind (p : Pipeline) : Nat := fld p.desc 2 1
def Pipeline.nextMember (p : Pipeline) : Nat := fld p.desc 6 2
def Pipeline.nextPipe (p : Pipeline) : Nat := fld p.desc 8 2
def Pipeline.tokeniser (p : Pipeline) : Nat := fld p.desc 12 4
def Pipeline.encoder (p : Pipeline) : Nat := fld p.desc 16 4
def Pipeline.sparse (p : Pipeline) : Nat := fld p.desc 20 4
def Pipeline.index (p : Pipeline) : Nat := fld p.desc 24 4
def Pipeline.searchK (p : Pipeline) : Nat := fld p.desc 28 4
def Pipeline.scorer (p : Pipeline) : Nat := fld p.desc 32 4
def Pipeline.rerankN (p : Pipeline) : Nat := fld p.desc 36 4
def Pipeline.packN (p : Pipeline) : Nat := fld p.desc 40 4
def Pipeline.budget (p : Pipeline) : Nat := fld p.desc 44 4
def Pipeline.decoder (p : Pipeline) : Nat := fld p.desc 48 4
def Pipeline.draft (p : Pipeline) : Nat := fld p.desc 52 4
def Pipeline.draftN (p : Pipeline) : Nat := fld p.desc 56 1
def Pipeline.stop (p : Pipeline) : Nat := fld p.desc 60 4
def Pipeline.grammar (p : Pipeline) : Nat := fld p.desc 64 4
def Pipeline.maxNew (p : Pipeline) : Nat := fld p.desc 68 4
def Pipeline.deadline (p : Pipeline) : Nat := fld p.desc 80 8

/-- The later stages run on the same member. -/
def Pipeline.local (p : Pipeline) : Bool := p.nextMember == 0xFFFF

/-- Handles that a pipeline names. -/
def Pipeline.handles (p : Pipeline) : List Nat := [p.tokeniser, p.encoder, p.scorer, p.decoder, p.draft, p.stop, p.grammar]

/-- Handles that the running requests name: what they denote stays until they have ended, R323, R347. -/
def servedHandles (s : State) : List Nat := s.serve.requests.flatMap (fun r => r.pipe.handles)

/-- What a step of a model runs on: its rows, the first position, the images of its input rows, its steering set, its cache. -/
structure StepCtx where
  model : Model
  tenant : Nat
  commandId : Nat
  start : Nat
  input : List Bytes
  steer : Nat
  cells : Memory

/-- Rows of a step. -/
def StepCtx.rows (c : StepCtx) : Nat := c.input.length

/-- Visible positions at a step. -/
def StepCtx.visible (c : StepCtx) : Nat := c.start + c.rows

/-- Workspace and the first of the regions that stand for bound fields: addresses that no tier holds. -/
def workspaceBase : Nat := 2 ^ 80
def regionBase (layer field : Nat) : Nat := 2 ^ 96 + (layer * 16 + field) * 2 ^ 64

/-- An address field resolved at a step, R352. -/
def boundAddr (rows layer field a : Nat) : Nat :=
  if bindingOf a = 0 then a else if bindingOf a = 1 then workspaceBase + a % 2 ^ 32 * rows else regionBase layer field

/-- The address fields of a layer with their numbers and the strides of the tensors they name; 0: the rows are packed. -/
def layerFields (l : Layer) : List (Nat × Nat × Nat) :=
  [(0, l.aAddr, l.aStride), (1, l.bAddr, l.bStride), (2, l.outAddr, l.outStride), (3, l.aScl, 0), (4, l.bScl, 0), (5, l.outScl, 0), (6, l.outlier, 0)]
    ++ (l.opnds.zipIdx).map (fun p => (7 + p.2, p.1, 0))

/-- A layer of a program as it runs at a step. -/
def boundLayer (c : StepCtx) (ls : List Layer) (i : Nat) (l : Layer) : Layer :=
  let (first, second) := layerPos ls i
  let at' := boundAddr c.rows i
  { l with
    m := if l.m = 0 then c.rows else l.m
    n := if first && l.n == 0 then c.visible else l.n
    k := if second && l.k == 0 then c.visible else l.k
    aAddr := at' 0 l.aAddr
    bAddr := at' 1 l.bAddr
    outAddr := at' 2 l.outAddr
    aScl := at' 3 l.aScl
    bScl := at' 4 l.bScl
    outScl := at' 5 l.outScl
    outlier := at' 6 l.outlier
    opnds := (l.opnds.zipIdx).map (fun p => at' (7 + p.2) p.1) }

/-- The layers of a step. -/
def stepLayers (c : StepCtx) : List Layer :=
  let ls := c.model.layers
  (ls.zipIdx).map (fun p => boundLayer c ls p.2 p.1)

/-- Rows laid out from an address at a stride; packed where it is 0. -/
def rowRuns (base stride : Nat) (rows : List Bytes) : List WriteRun :=
  if stride = 0 then [(base, rows.flatten)] else (rows.zipIdx).map (fun p => (base + p.2 * stride, p.1))

/-- What a bound field reads at a step, in the operand layout of R182: cache rows, steering indexes, positions, input rows. -/
def fieldRuns (c : StepCtx) (cells : Memory) (layer : Nat) (field : Nat × Nat × Nat) : List WriteRun :=
  let (no, a, stride) := field
  let m := c.model
  let l := bits a 15 8
  let h := bits a 7 0
  let base := regionBase layer no
  match bindingOf a with
  | 2 => rowRuns base stride ((List.range c.visible).map (readKey m cells l h))
  | 3 => rowRuns base stride ((List.range m.headDim).map (fun d => readValues m cells l h d c.visible))
  | 6 => rowRuns base 0 ((List.range c.rows).map (fun _ => toLe 4 c.steer))
  | 7 => rowRuns base 0 ((List.range c.rows).map (fun r => toLe 4 (c.start + r)))
  | 8 => rowRuns base stride c.input
  | _ => []

/-- What the cache writes of a layer's output leave in the pages: output column `c` goes to head ⌊c / HEAD_DIM⌋, R352. -/
def cacheWrites (c : StepCtx) (runs : List WriteRun) (i : Nat) (l : Layer) (cols : Nat) (cells : Memory) : Memory :=
  let b := bindingOf l.outAddr
  if b = 4 ∨ b = 5 then
    let m := c.model
    let base := regionBase i 2
    let out := applyRuns [] (runs.filter (fun r => decide (base ≤ r.1) && decide (r.1 < base + 2 ^ 64)))
    let w := kvElem m.kvFmt
    (List.range c.rows).foldl (fun cells r =>
      (List.range (min cols (m.kvHeads * m.headDim))).foldl (fun cells k =>
        writeCache m (b == 5) (bits l.outAddr 15 8) (c.start + r) k (Memory.readN out (base + r * l.outStride + k * w) w) cells) cells) cells
  else cells

/-- The command that stands for a step: a LAYER_RUN of its program with the model's NUMERIC, on this module. -/
def stepFlight (s : State) (c : StepCtx) : Flight :=
  let lone := decide (s.fabric.view.modules.length = 1)
  let path := modulePath s.fabric.view s.fabric.view.self
  let h : Header := { parseHeader (zeros 48) with
    opcode := 0x0401
    commandId := c.commandId
    scope := if lone then List.replicate 8 0xFFF else (path ++ List.replicate 8 0xFFF).take 8
    scopeDepth := if lone then 0 else path.length }
  let params := toLe 2 c.model.progLen ++ zeros 6 ++ toLe 8 c.model.numeric ++ zeros 16 ++ c.model.program
  ⟨s.proto.nextSerial, .host 0, .layerRun, h, params, c.tenant, s.frontTime, false, true, 0, none, none, false⟩

/-- An address in a tier, not one that stands for a bound field. -/
def realAddr (a : Nat) : Bool := decide (a < 2 ^ 80)

/-- The checks of the layers of a step, R184, which the member that serves the request runs alone; no packet field is at fault, so no DETAIL. -/
def stepChecks (s : State) (f : Flight) (ls : List Layer) : Option (Status × Nat) :=
  let r := match firstLayerFail (fun i l =>
      let ch := (chainOf s.compute.chains l).getD Chain.empty
      let ex := (layerExtents l ch (layerPos ls i).1 (layerPos ls i).2).filter (fun e => realAddr e.1)
      firstFail (badParamIf (decide (1 < l.group.length)) 0 :: layerFieldChecks s f ls i l ++ ex.flatMap (fun e => extentChecks s f e.1 e.2.1 0))) 0 ls with
    | some r => some r
    | none => if 2 ^ 32 ≤ tileBase s.compute.chains ls ls.length then some (.outOfRange, 0)
      else firstLayerFail (fun i l => if realAddr l.outlier then outlierCheck s f i l else none) 0 ls
  r.map (fun p => (p.1, if p.1.code / 256 = 1 then 0 else p.2))

/-- The layers of a step from layer `i` on, with the cache as the layers before have left it, R183, R352. -/
def runStep (s : State) (f : Flight) (job : LayerJob) (c : StepCtx) (ls : List Layer) : Nat → Nat → JobAcc × Memory → Except ChainStop (JobAcc × Memory)
  | 0, _, x => .ok x
  | fuel + 1, i, (acc, cells) =>
    match c.model.layers[i]? with
    | none => .ok (acc, cells)
    | some l =>
      let n := if l.paired then 2 else 1
      let mine := ((c.model.layers.drop i).take n).zipIdx
      let reads := mine.flatMap (fun p => (layerFields p.1).flatMap (fieldRuns c cells (i + p.2)))
      match runLayers s f job ls 1 i { acc with result := { acc.result with runs := acc.result.runs ++ reads } } with
      | .error e => .error e
      | .ok acc1 =>
        let cells1 := mine.foldl (fun m p =>
          let b := ls.getD (i + p.2) p.1
          cacheWrites c acc1.result.runs (i + p.2) p.1 (outWidth ((chainOf job.chains b).getD Chain.empty) b) m) cells
        runStep s f job c ls fuel (i + n) (acc1, cells1)

/-- A step of a model: what it computes and the cache after it, R352. -/
def modelStep (s : State) (c : StepCtx) : Except ChainStop (LayerResult × Memory) :=
  let f := stepFlight s c
  let program := stepLayers c
  match stepChecks s f program with
  | some (st, d) => .error (.fails st d)
  | none =>
    let ls := program.map (fun l => { l with group := [s.fabric.view.self] })
    let job : LayerJob := ⟨f.serial, c.tenant, 0, 0, s.compute.chains, [], [], [], none, []⟩
    match runStep s f job c ls (ls.length + 1) 0 (⟨LayerResult.empty, []⟩, c.cells) with
    | .error (.fails st d) => .error (.fails st (if st.code / 256 = 1 then 0 else d))
    | .error e => .error e
    | .ok (acc, cells) =>
      if overSatLimit c.model.numeric acc.result.counts.sat then .error (.fails .saturationLimit acc.result.counts.sat)
      else .ok (acc.result, cells)

/-- Row `r` of the FP32 output of a step, R352. -/
def stepOutput (c : StepCtx) (r : LayerResult) (row width : Nat) : List Nat :=
  let a := workspaceBase + c.model.outOff * c.rows + row * width * 4
  unpack 32 width (Memory.readN (applyRuns [] (r.runs.filter (fun x => !realAddr x.1))) a (4 * width))

/-- What the commit of a step leaves: its writes to the tiers, its counts and gauges; its cells are charged, R185, R388. -/
def applyStep (c : StepCtx) (r : LayerResult) (s : State) : CommitOutcome :=
  let f := stepFlight s c
  let (d, s1) := drawFree s
  layerApply f 0 { r with runs := r.runs.filter (fun x => realAddr x.1) } (chargeCells c.tenant d s1)

/-- The record of a NaN met by a step, R109. -/
def stepNan (c : StepCtx) (n : ChainNan) (s : State) : State :=
  let (unit, b, s1) := layerNanRecord (stepFlight s c) n s
  bump .nanTraps c.tenant 1 (trackBody 6 unit c.tenant b s1)

/-- Rows of a table for a stage of a request, R249: what owners have sent for it, and what comes with the row of the model (table, row, version, image). -/
def stageRows (s : State) (serial id : Nat) (t : Table) (fetched : List (Nat × Nat × Nat × Bytes)) (rows : List Nat) :
    Except RowFetch (List (Nat × Nat × Nat × Bytes)) :=
  if rows.any (fun k => decide (t.rows ≤ k)) then .error (.fails .outOfRange 0)
  else fetchAll s (handoverSerial serial) id t ((fetched.filter (fun x => x.1 == id)).map (fun x => (x.2.1, x.2.2.1, x.2.2.2))) rows.eraseDups

end Sys2Proof.Machine
end

