-- ==== Sys2Proof/Machine/TextOps.lean ====
section
/-! DEFINITION. Text arithmetic: UTF-8 (R328), tokenisation (R329), packing (R335), streams (R340), grammars (R342, R343). -/

namespace Sys2Proof.Machine

open Sys2Proof

/-- What stands at the head of a byte string: a character of so many bytes, a maximal subpart to be replaced, or the start of one not yet complete. -/
inductive Utf8Head where
  | char (n : Nat)
  | bad (n : Nat)
  | more

/-- Bytes that follow a lead byte, and the range of the second byte, Table 3-7 of the Unicode Standard; none for no lead byte. -/
def utf8Lead (b : Nat) : Option (Nat × Nat × Nat) :=
  if b < 0x80 then some (0, 0, 0)
  else if b < 0xC2 then none
  else if b < 0xE0 then some (1, 0x80, 0xBF)
  else if b = 0xE0 then some (2, 0xA0, 0xBF)
  else if b = 0xED then some (2, 0x80, 0x9F)
  else if b < 0xF0 then some (2, 0x80, 0xBF)
  else if b = 0xF0 then some (3, 0x90, 0xBF)
  else if b < 0xF4 then some (3, 0x80, 0xBF)
  else if b = 0xF4 then some (3, 0x80, 0x8F)
  else none

/-- The continuation bytes of a character: `have_` of `want` are there, the next must lie in a range. -/
def utf8Tail : Nat → Nat → Nat → Nat → Bytes → Utf8Head
  | 0, got, _, _, _ => .char got
  | _ + 1, _, _, _, [] => .more
  | want + 1, got, lo, hi, b :: l =>
    if lo ≤ b.toNat ∧ b.toNat ≤ hi then utf8Tail want (got + 1) 0x80 0xBF l else .bad got

/-- The head of a byte string, R328. -/
def utf8Head : Bytes → Utf8Head
  | [] => .more
  | b :: l => match utf8Lead b.toNat with
    | none => .bad 1
    | some (want, lo, hi) => utf8Tail want 1 lo hi l

/-- A decoded character: its bytes, the source offset of its first byte, whether it replaces an ill-formed subpart. -/
structure TextChar where
  bytes : Bytes
  src : Nat
  bad : Bool
  deriving DecidableEq, Repr

/-- U+FFFD. -/
def replacement (src : Nat) : TextChar := ⟨[0xEF, 0xBF, 0xBD], src, true⟩

/-- Decode bytes that start at a source offset: the characters, and the pending bytes, R328. -/
def utf8Chars : Nat → Nat → Bytes → List TextChar × Bytes
  | 0, _, b => ([], b)
  | _ + 1, _, [] => ([], [])
  | fuel + 1, off, b =>
    match utf8Head b with
    | .char n => let r := utf8Chars fuel (off + n) (b.drop n); (⟨b.take n, off, false⟩ :: r.1, r.2)
    | .bad n => let r := utf8Chars fuel (off + n) (b.drop n); (replacement off :: r.1, r.2)
    | .more => ([], b)

/-- Repair of R340: complete characters and pending bytes; at the end pending bytes become U+FFFD. -/
def utf8Repair (b : Bytes) (final : Bool) : List TextChar × Bytes :=
  let r := utf8Chars (b.length + 1) 0 b
  if final && !r.2.isEmpty then (r.1 ++ [replacement (b.length - r.2.length)], []) else r

/-- Replacements among characters. -/
def badChars (l : List TextChar) : Nat := (l.filter (·.bad)).length

/-- A byte string is well-formed UTF-8. -/
def utf8Valid (b : Bytes) : Bool := badChars (utf8Repair b true).1 == 0

/-- The code point of a character. -/
def codePoint (b : Bytes) : Nat :=
  match b.map BitVec.toNat with
  | [a] => a
  | [a, b] => a % 32 * 64 + b % 64
  | [a, b, c] => a % 16 * 4096 + b % 64 * 64 + c % 64
  | [a, b, c, d] => a % 8 * 262144 + b % 64 * 4096 + c % 64 * 64 + d % 64
  | _ => 0

/-- Counts and sections of a tokeniser image, R325, R326. -/
def tokVocab (img : Bytes) : Nat := fld img 8 4
def tokMergeCount (img : Bytes) : Nat := fld img 12 4
def tokSpecialCount (img : Bytes) : Nat := fld img 16 2
def tokRangeCount (img : Bytes) : Nat := fld img 18 2
def tokPoolLen (img : Bytes) : Nat := fld img 20 4
def tokTokensAt : Nat := 1088
def tokMergesAt (img : Bytes) : Nat := tokTokensAt + 8 * tokVocab img
def tokSpecialsAt (img : Bytes) : Nat := tokMergesAt img + 12 * tokMergeCount img
def tokRangesAt (img : Bytes) : Nat := tokSpecialsAt img + 4 * tokSpecialCount img
def tokPoolAt (img : Bytes) : Nat := tokRangesAt img + 8 * tokRangeCount img

/-- IMAGE_LEN that R326 requires. -/
def tokImageLen (img : Bytes) : Nat := tokPoolAt img + ceilDiv (tokPoolLen img) 8 * 8

/-- The token of a single byte. -/
def tokByte (img : Bytes) (x : Nat) : Nat := fld img (64 + 4 * x) 4

/-- A token's offset into the pool, its length, and whether it is special. -/
def tokOffset (img : Bytes) (t : Nat) : Nat := fld img (tokTokensAt + 8 * t) 4
def tokLength (img : Bytes) (t : Nat) : Nat := fld img (tokTokensAt + 8 * t + 4) 2
def tokSpecial (img : Bytes) (t : Nat) : Bool := bitOf (fld img (tokTokensAt + 8 * t + 6) 1) 0

/-- A token's byte string. -/
def tokBytes (img : Bytes) (t : Nat) : Bytes := slice img (tokPoolAt img + tokOffset img t) (tokLength img t)

/-- Merge of a rank: LEFT, RIGHT, RESULT. -/
def tokMerge (img : Bytes) (r : Nat) : Nat × Nat × Nat :=
  let o := tokMergesAt img + 12 * r
  (fld img o 4, fld img (o + 4) 4, fld img (o + 8) 4)

/-- The special tokens in the order of the image. -/
def tokSpecials (img : Bytes) : List Nat := (List.range (tokSpecialCount img)).map (fun i => fld img (tokSpecialsAt img + 4 * i) 4)

/-- A class range: FIRST, LAST, CLASS, and its reserved bits. -/
def tokRange (img : Bytes) (i : Nat) : Nat × Nat × Nat × Nat :=
  let o := tokRangesAt img + 8 * i
  let w := fld img (o + 4) 4
  (fld img o 4, bits w 20 0, bits w 27 24, bits w 23 21 + bits w 31 28)

/-- The class of a code point: 0 where no range covers it, R327. -/
def tokClass (img : Bytes) (cp : Nat) : Nat :=
  (((List.range (tokRangeCount img)).map (tokRange img)).find? (fun r => decide (r.1 ≤ cp) && decide (cp ≤ r.2.1))).elim 0 (·.2.2.1)

/-- A boundary falls between classes `a` and `b`. -/
def tokBreak (img : Bytes) (a b : Nat) : Bool := bitOf (fld img (24 + 2 * a) 2) b

/-- The longest run of a class in a piece. -/
def tokMaxRun (img : Bytes) (c : Nat) : Nat := bits (fld img 56 8) (4 * c + 3) (4 * c)

/-- The pieces of a stretch, R329: the previous class, the current piece in reverse, its length, its run. -/
def presplit (img : Bytes) : List TextChar → Nat → List TextChar → Nat → List (List TextChar)
  | [], _, cur, _ => if cur.isEmpty then [] else [cur.reverse]
  | ch :: l, prev, cur, run =>
    let b := tokClass img (codePoint ch.bytes)
    if cur.isEmpty then presplit img l b [ch] 1
    else
      let brk := tokBreak img prev b || cur.length == 1024 || (prev == b && tokMaxRun img b != 0 && run == tokMaxRun img b)
      if brk then cur.reverse :: presplit img l b [ch] 1
      else presplit img l b (ch :: cur) (if prev = b then run + 1 else 1)

/-- A token with the source offset of its first byte. -/
abbrev Tok := Nat × Nat

/-- The rank of a pair, if any. -/
def pairRank (img : Bytes) (a b : Nat) : Option Nat :=
  (List.range (tokMergeCount img)).find? (fun r => (tokMerge img r).1 == a && (tokMerge img r).2.1 == b)

/-- The leftmost pair of lowest rank: rank and position, R329. -/
def bestPair (img : Bytes) : Nat → List Tok → Option (Nat × Nat) → Option (Nat × Nat)
  | i, a :: b :: l, best =>
    let here := pairRank img a.1 b.1
    let best' := match here, best with
      | some r, none => some (r, i)
      | some r, some (r0, i0) => if r < r0 then some (r, i) else some (r0, i0)
      | none, x => x
    bestPair img (i + 1) (b :: l) best'
  | _, _, best => best

/-- Merge until no pair has a rank, R329. -/
def mergePiece (img : Bytes) : Nat → List Tok → List Tok
  | 0, t => t
  | fuel + 1, t =>
    match bestPair img 0 t none with
    | none => t
    | some (r, i) => mergePiece img fuel (t.take i ++ [((tokMerge img r).2.2, ((t.drop i).head?.map (·.2)).getD 0)] ++ t.drop (i + 2))

/-- The bytes of characters as single-byte tokens with their source offsets. -/
def byteTokens (img : Bytes) (l : List TextChar) : List Tok :=
  l.flatMap (fun c => (c.bytes.zipIdx).map (fun p => (tokByte img p.1.toNat, if c.bad then c.src else c.src + p.2)))

/-- The tokens of a stretch of ordinary text. -/
def stretchTokens (img : Bytes) (l : List TextChar) : List Tok :=
  (presplit img l 0 [] 0).flatMap (fun p => let b := byteTokens img p; mergePiece img b.length b)

/-- The longest special token whose bytes stand at the head of decoded text, the lowest ID among equals. -/
def specialHere (img : Bytes) (l : List TextChar) : Option Nat :=
  let text := (l.take 256).flatMap (·.bytes)
  (tokSpecials img).foldl (fun best t =>
    let b := tokBytes img t
    if text.take b.length = b then
      match best with
      | none => some t
      | some u => if tokLength img u < b.length then some t else best
    else best) none

/-- Drop the characters of so many bytes. -/
def dropBytes : Nat → List TextChar → List TextChar
  | 0, l => l
  | _, [] => []
  | n, c :: l => dropBytes (n - c.bytes.length) l

/-- Cut text at special occurrences, R329: the stretch so far in reverse. -/
def withSpecials (img : Bytes) : Nat → List TextChar → List TextChar → List Tok
  | 0, cur, _ => stretchTokens img cur.reverse
  | _ + 1, cur, [] => stretchTokens img cur.reverse
  | fuel + 1, cur, c :: l =>
    match specialHere img (c :: l) with
    | some t => stretchTokens img cur.reverse ++ [(t, c.src)] ++ withSpecials img fuel [] (dropBytes (tokLength img t) (c :: l))
    | none => withSpecials img fuel (c :: cur) l

/-- A segment's tokens and the replacements made, R329. -/
def tokenizeText (img : Bytes) (special : Bool) (b : Bytes) : List Tok × Nat :=
  let cs := (utf8Repair b true).1
  (if special then withSpecials img (cs.length + 1) [] cs else stretchTokens img cs, badChars cs)

/-- States of a packed segment, R336. -/
inductive PackState where
  | whole
  | cut
  | dropped
  deriving DecidableEq, Repr

/-- The code of a packed segment's state, R336. -/
def PackState.code : PackState → Nat
  | .whole => 0
  | .cut => 1
  | .dropped => 2

/-- A segment of a prompt with its full tokens, R333. -/
structure PackSeg where
  full : List Nat
  required : Bool
  /-- 0 WHOLE, 1 KEEP_HEAD, 2 KEEP_TAIL -/
  cut : Nat
  rank : Nat
  maxTok : Nat
  minKeep : Nat
  deriving DecidableEq, Repr

/-- Why a prompt cannot be packed, R335. -/
inductive PackFail where
  | maxTok (seg : Nat)
  | budget
  deriving DecidableEq, Repr

/-- Tokens kept and the state of each segment. -/
abbrev Kept := List (Nat × PackState)

/-- `n` tokens of a segment are kept. -/
def packFit (g : PackSeg) (n : Nat) : Nat × PackState := if g.full.length ≤ n then (g.full.length, .whole) else (n, .cut)

/-- The optional segments in their order: room left, whether STRICT has stopped it, R335. -/
def packOptional (strict : Bool) : List (Nat × PackSeg) → Nat → Bool → Kept → Kept
  | [], _, _, kept => kept
  | (i, g) :: l, room, stopped, kept =>
    let want := min g.full.length g.maxTok
    let wholeOk := want == g.full.length || g.cut != 0
    let take := if stopped || !wholeOk then none
      else if want ≤ room then some want
      else if g.cut ≠ 0 ∧ max g.minKeep 1 ≤ room then some room
      else none
    match take with
    | none => packOptional strict l room (stopped || strict) kept
    | some n => let r := packFit g n; packOptional strict l (room - r.1) stopped (setAt kept i r)

/-- Packing, R335. -/
def packSegs (segs : List PackSeg) (budget : Nat) (strict : Bool) : Except PackFail Kept :=
  let idx := segs.zipIdx.map (fun p => (p.2, p.1))
  match idx.find? (fun p => p.2.required && p.2.cut == 0 && decide (p.2.maxTok < p.2.full.length)) with
  | some (i, _) => .error (.maxTok i)
  | none =>
    let req := segs.map (fun g => if g.required then packFit g (min g.full.length g.maxTok) else (0, PackState.dropped))
    let used := listSum (req.map (·.1))
    if budget < used then .error .budget
    else
      let opt := sortBy (fun a b => decide (a.2.rank < b.2.rank) || (a.2.rank == b.2.rank && decide (a.1 ≤ b.1))) (idx.filter (fun p => !p.2.required))
      .ok (packOptional strict opt (budget - used) false req)

/-- The tokens that a segment contributes. -/
def packCut (g : PackSeg) (n : Nat) : List Nat := if g.cut = 2 then g.full.drop (g.full.length - n) else g.full.take n

/-- The longest stop string that ends at the end of held text, the lowest index among equals, R340. -/
def matchEnd (stops : List Bytes) (held : Bytes) : Option (Nat × Nat) :=
  (stops.zipIdx).foldl (fun best p =>
    let n := p.1.length
    if n ≤ held.length ∧ held.drop (held.length - n) = p.1 then
      match best with
      | none => some (p.2, n)
      | some (_, m) => if m < n then some (p.2, n) else best
    else best) none

/-- Length of the longest suffix of held text that is a proper prefix of a stop string, R339. -/
def heldSuffix (stops : List Bytes) (held : Bytes) : Nat :=
  listMax ((List.range (held.length + 1)).filter (fun k =>
    stops.any (fun p => decide (k < p.length) && p.take k == held.drop (held.length - k))))

/-- Push characters onto held text until a stop string ends: held text and the match. -/
def pushChars (stops : List Bytes) : List TextChar → Bytes → Bytes × Option (Nat × Nat)
  | [], held => (held, none)
  | c :: l, held =>
    let h := held ++ c.bytes
    match matchEnd stops h with
    | some m => (h, some m)
    | none => pushChars stops l h

/-- Outcome of a feed. -/
inductive FeedState where
  | open
  | stopped (index : Nat)
  | closed
  deriving DecidableEq, Repr

/-- What a feed has done: text emitted, tokens consumed, outcome, pending and held bytes, replacements. -/
structure Fed where
  out : Bytes
  consumed : Nat
  state : FeedState
  pending : Bytes
  held : Bytes
  replaced : Nat
  deriving DecidableEq, Repr

/-- The text of a match, R340. -/
def matchText (includeStop : Bool) (held : Bytes) (len : Nat) : Bytes := if includeStop then held else held.take (held.length - len)

/-- Tokens fed one after another, R340. -/
def feedTokens (img : Bytes) (stops : List Bytes) (stopToks : List Nat) (skip incl : Bool) : List Nat → Fed → Fed
  | [], x => x
  | t :: l, x =>
    let tb := tokBytes img t
    let special := tokSpecial img t
    match stopToks.findIdx? (· == t) with
    | some j =>
      let tail := if incl && !(special && skip) then tb else []
      let r := (utf8Repair (x.pending ++ tail) true).1
      { out := x.out ++ x.held ++ r.flatMap (·.bytes), consumed := x.consumed + 1, state := .stopped (0x100 + j), pending := [], held := []
        replaced := x.replaced + badChars r }
    | none =>
      let r := if special && skip then utf8Repair x.pending true else utf8Repair (x.pending ++ tb) false
      let y := { x with consumed := x.consumed + 1, pending := r.2, replaced := x.replaced + badChars r.1 }
      match pushChars stops r.1 x.held with
      | (h, some (i, n)) => { y with out := y.out ++ matchText incl h n, state := .stopped i, held := [] }
      | (h, none) =>
        let k := heldSuffix stops h
        feedTokens img stops stopToks skip incl l { y with out := y.out ++ h.take (h.length - k), held := h.drop (h.length - k) }

/-- The end of a stream by FINAL, R340. -/
def feedFinal (stops : List Bytes) (incl : Bool) (x : Fed) : Fed :=
  match x.state with
  | .open =>
    let r := (utf8Repair x.pending true).1
    let y := { x with pending := [], replaced := x.replaced + badChars r }
    match pushChars stops r x.held with
    | (h, some (i, n)) => { y with out := y.out ++ matchText incl h n, state := .stopped i, held := [] }
    | (h, none) => { y with out := y.out ++ h, state := .closed, held := [] }
  | _ => x

/-- Sections of a grammar image, R342. -/
def gramStates (img : Bytes) : Nat := fld img 8 4
def gramMasks (img : Bytes) : Nat := fld img 12 4
def gramVocab (img : Bytes) : Nat := fld img 16 4
def gramExceptions (img : Bytes) : Nat := fld img 20 4
def gramStart (img : Bytes) : Nat := fld img 24 4
def gramMaskLen (img : Bytes) : Nat := ceilDiv (gramVocab img) 64 * 8
def gramMasksAt (img : Bytes) : Nat := 32 + 16 * gramStates img
def gramExcAt (img : Bytes) : Nat := gramMasksAt img + gramMasks img * gramMaskLen img

/-- A state's MASK, DEFAULT, EXC_FIRST, EXC_COUNT. -/
def gramState (img : Bytes) (q : Nat) : Nat × Nat × Nat × Nat :=
  let o := 32 + 16 * q
  (fld img o 4, fld img (o + 4) 4, fld img (o + 8) 4, fld img (o + 12) 4)

/-- Whether a state allows a token, R343. -/
def gramAllows (img : Bytes) (q t : Nat) : Bool :=
  decide (t < gramVocab img) && bitOf (fld img (gramMasksAt img + (gramState img q).1 * gramMaskLen img + t / 8) 1) (t % 8)

/-- A terminal state allows no token. -/
def gramTerminal (img : Bytes) (q : Nat) : Bool := !(List.range (gramVocab img)).any (gramAllows img q)

/-- An exception: token and next state. -/
def gramExc (img : Bytes) (i : Nat) : Nat × Nat := (fld img (gramExcAt img + 8 * i) 4, fld img (gramExcAt img + 8 * i + 4) 4)

/-- The state after a token, R343. -/
def gramAdvance (img : Bytes) (q t : Nat) : Nat :=
  let (_, d, first, count) := gramState img q
  (((List.range count).map (fun i => gramExc img (first + i))).find? (fun e => e.1 == t)).elim d (·.2)

/-- The text objects changed. -/
def setText (t : TextSpace) (s : State) : State := { s with text := t }

/-- A tokeniser that commands may name. -/
def tokeniserOf (s : State) (h : Nat) : Option Tokeniser := (kget s.text.tokenisers h).filter (fun x => !x.dropped)

/-- The image of a tokeniser, unloaded or not. -/
def tokImage (s : State) (h : Nat) : Bytes := ((kget s.text.tokenisers h).map (·.image)).getD []

/-- Naming a handle, R323. -/
def handleChecks (f : Flight) (owner : Option Nat) (off : Nat) : List (Bool × Status × Nat) :=
  [unnamedIf f owner.isNone off, failIf (owner.any (· != f.tenant)) .notPermitted 0]

/-- A text command's scope contains its entry member, R323. -/
def textScope (s : State) (f : Flight) : Bool × Status × Nat :=
  failIf (!(scopeModules s f.hdr).contains s.fabric.view.self) .notPermitted 0

/-- Storage of a text object's tables, in Tier 1, R323. -/
def takeTables (tenant len : Nat) (s : State) : Except (Status × Nat) (Nat × State) :=
  match takeStorage tenant 1 0xFF (pageBytes len) s with
  | .error _ => .error (.noResource, 0)
  | .ok r => .ok r

/-- A tokeniser is used by a stream or by a stop set or grammar that is. -/
def streamUses (s : State) (p : Stream → Bool) : Bool := (kvals s.text.streams).any p

end Sys2Proof.Machine
end

