-- ==== Sys2Proof/Machine/TextRows.lean ====
section
/-! DEFINITION. The commands of the text units: tokenisers, tokenisation, packing, stop sets, streams, grammars (chapter 11). -/

namespace Sys2Proof.Machine

open Sys2Proof

/-- What each token of a tokeniser image must satisfy, R327. -/
def tokenBad (img : Bytes) (t : Nat) : Bool :=
  decide (tokPoolLen img < tokOffset img t + tokLength img t) || decide (1 < fld img (tokTokensAt + 8 * t + 6) 1) || fld img (tokTokensAt + 8 * t + 7) 1 != 0
    || (tokSpecial img t && !utf8Valid (tokBytes img t))

/-- A merge that R327 refuses. -/
def mergeBad (img : Bytes) (r : Nat) : Bool :=
  let (a, b, c) := tokMerge img r
  let v := tokVocab img
  decide (v ≤ a) || decide (v ≤ b) || decide (v ≤ c) || tokSpecial img a || tokSpecial img b || tokSpecial img c
    || tokBytes img c != tokBytes img a ++ tokBytes img b
    || (List.range r).any (fun q => (tokMerge img q).1 == a && (tokMerge img q).2.1 == b)

/-- Ranges that R327 refuses: not ascending and disjoint, FIRST above LAST, LAST too high, reserved bits. -/
def rangesBad (img : Bytes) : Bool :=
  let rs := (List.range (tokRangeCount img)).map (tokRange img)
  rs.any (fun r => decide (r.2.1 < r.1) || decide (0x10FFFF < r.2.1) || r.2.2.2 != 0)
    || (rs.zip (rs.drop 1)).any (fun p => decide (p.2.1 ≤ p.1.2.1))

/-- The checks of a tokeniser image, R326, R327, R344. -/
def tokenizerImageChecks (img : Bytes) : List (Bool × Status × Nat) :=
  let v := tokVocab img
  [lengthIf (decide (img.length < 64)) 8,
   badParamIf (fld img 0 4 != 0x4E4B4F54 || fld img 4 2 != 1 || !zeroAt img 6 2) 0,
   rangeIf (decide (v < 256) || decide (262144 < v) || decide (1048576 < tokMergeCount img) || decide (1024 < tokSpecialCount img)
     || tokRangeCount img == 0 || decide (4096 < tokRangeCount img) || tokPoolLen img == 0 || decide (67108864 < tokPoolLen img)) 0,
   lengthIf (img.length != tokImageLen img) 8,
   badParamIf (!zeroAt img (tokPoolAt img + tokPoolLen img) (tokImageLen img - tokPoolAt img - tokPoolLen img)) 0,
   rangeIf ((List.range v).any (fun t => tokLength img t == 0 || decide (256 < tokLength img t))) 0,
   badParamIf ((List.range v).any (tokenBad img)) 0,
   badParamIf ((List.range 256).any (fun x => decide (v ≤ tokByte img x) || tokSpecial img (tokByte img x) || tokBytes img (tokByte img x) != [BitVec.ofNat 8 x])) 0,
   badParamIf ((List.range (tokMergeCount img)).any (mergeBad img)) 0,
   badParamIf (tokSpecials img != (List.range v).filter (tokSpecial img)) 0,
   badParamIf (rangesBad img) 0]

/-- The checks of TOKENIZER_LOAD, R324, R327. -/
def tokenizerLoadCheck (s : State) (f : Flight) : Option (Status × Nat) :=
  let len := par f 8 4
  match firstFail ([lengthIs f 16, reservedZero f 12 4, textScope s f] ++ extentChecks s f (par f 0 8) len 0) with
  | some r => some r
  | none => match readFails s (par f 0 8) len with
    | some r => some r
    | none => firstFail (tokenizerImageChecks (memRead s (par f 0 8) len)
        ++ [failIf (decide (64 ≤ s.text.tokenisers.length)) .tableFull 0])

/-- TOKENIZER_LOAD, R324. -/
def tokenizerLoadCommand : Command where
  op := .tokenizerLoad
  changes := true
  objects := fun _ _ => []
  check := tokenizerLoadCheck
  run := fun s f =>
    let img := memRead s (par f 0 8) (par f 8 4)
    match takeTables f.tenant img.length s with
    | .error (st, d) => .reject st d
    | .ok (base, s1) =>
      let (h, s2) := freshHandle 4 (kkeys s1.text.tokenisers) s1
      let digest := sha256 img
      .done (setText { s2.text with tokenisers := kset s2.text.tokenisers h ⟨f.tenant, img, fld digest 0 4, base, false⟩ } s2)
        (okReply (toLe 4 h ++ zeros 4 ++ digest))

/-- TOKENIZER_LOAD. -/
def execTokenizerLoad (h : Nat) (s : State) : Result := execEntry tokenizerLoadCommand h s

/-- A segment descriptor of TOKENIZE, R330. -/
structure TextSeg where
  index : Nat
  buf : Nat
  out : Nat
  off : Nat
  maxTokens : Nat
  bufs : Nat
  trunc : Nat

/-- The segment descriptors of a TOKENIZE. -/
def textSegs (f : Flight) : List TextSeg :=
  (List.range (par f 4 2)).map (fun j =>
    let o := 24 + 32 * j
    ⟨j, par f o 8, par f (o + 8) 8, par f (o + 16) 8, par f (o + 24) 4, par f (o + 28) 1, par f (o + 29) 1⟩)

/-- The buffers of a segment: address, length, whether the reserved word is zero. -/
def segBuffers (s : State) (g : TextSeg) : List (Nat × Nat × Bool) :=
  (List.range g.bufs).map (fun i => let b := memRead s (g.buf + 16 * i) 16; (fld b 0 8, fld b 8 4, zeroAt b 12 4))

/-- The bytes of a segment, its buffers joined, R328. -/
def segText (s : State) (g : TextSeg) : Bytes := (segBuffers s g).flatMap (fun b => memRead s b.1 b.2.1)

/-- Whether a TOKENIZE writes offsets. -/
def wantsOffsets (f : Flight) : Bool := bitOf (par f 6 1) 1

/-- Output extents of a TOKENIZE; a fault of either points at its OUT_ADDR field, R332. -/
def tokenizeOutputs (f : Flight) : List (Nat × Nat × Nat) :=
  (textSegs f).flatMap (fun g => [(g.out, 4 * g.maxTokens, 32 + 32 * g.index)]
    ++ (if wantsOffsets f then [(g.off, 4 * g.maxTokens, 32 + 32 * g.index)] else []))

/-- Outputs that overlap one another or an input: BAD_PARAM at the output's field. -/
def outputOverlap (ins : List (Nat × Nat)) (outs : List (Nat × Nat × Nat)) : List (Bool × Status × Nat) :=
  (outs.zipIdx).map (fun o => badParamIf
    (ins.any (overlaps (o.1.1, o.1.2.1)) || (outs.zipIdx).any (fun p => p.2 != o.2 && overlaps (o.1.1, o.1.2.1) (p.1.1, p.1.2.1))) o.1.2.2)

/-- Checks of the fields of a TOKENIZE segment, R332, R344. -/
def segFieldChecks (f : Flight) (g : TextSeg) : List (Bool × Status × Nat) :=
  let o := 24 + 32 * g.index
  [badParamIf (g.bufs == 0) (o + 28), badParamIf (g.maxTokens == 0) (o + 24), badParamIf (decide (2 < g.trunc)) (o + 29), reservedZero f (o + 30) 2,
   badParamIf ((g.off == 0) == wantsOffsets f) (o + 16),
   rangeIf (decide (64 < g.bufs)) (o + 28), rangeIf (decide (1048576 < g.maxTokens)) (o + 24),
   rangeIf (g.buf % 16 != 0) o, rangeIf (g.out % 64 != 0) (o + 8), rangeIf (g.off % 64 != 0) (o + 16)]

/-- The checks of TOKENIZE, R332: its own fields, then its buffer entries, last its deadline. -/
def tokenizeCheck (s : State) (f : Flight) : Option (Status × Nat) :=
  let gs := textSegs f
  match firstFail ([lengthIs f (24 + 32 * par f 4 2), badParamIf (par f 4 2 == 0) 4, badParamIf (decide (3 < par f 6 1)) 6,
      reservedZero f 7 1, reservedZero f 16 8] ++ gs.flatMap (segFieldChecks f)
      ++ [rangeIf (decide (1024 < par f 4 2)) 4, rangeIf (decide (60000000000 < par f 8 8)) 8, textScope s f]
      ++ handleChecks f ((tokeniserOf s (par f 0 4)).map (·.tenant)) 0
      ++ gs.flatMap (fun g => extentChecks s f g.buf (16 * g.bufs) (24 + 32 * g.index))
      ++ (tokenizeOutputs f).flatMap (fun e => extentChecks s f e.1 e.2.1 e.2.2)) with
  | some r => some r
  | none =>
    match readsFail s (gs.map (fun g => (g.buf, 16 * g.bufs))) with
    | some r => some r
    | none =>
      let bufs := gs.flatMap (fun g => (segBuffers s g).map (fun b => (g.index, b)))
      let ins := gs.map (fun g => (g.buf, 16 * g.bufs)) ++ bufs.map (fun b => (b.2.1, b.2.2.1))
      match firstFail (bufs.map (fun b => badParamIf (!b.2.2.2) (24 + 32 * b.1)) ++ outputOverlap ins (tokenizeOutputs f)
          ++ gs.map (fun g => lengthIf (decide (4194304 < listSum ((segBuffers s g).map (·.2.1)))) (24 + 32 * g.index))
          ++ bufs.flatMap (fun b => if b.2.2.1 = 0 then [] else extentChecks s f b.2.1 b.2.2.1 (24 + 32 * b.1))) with
      | some r => some r
      | none => match readsFail s (bufs.map (fun b => (b.2.1, b.2.2.1))) with
        | some r => some r
        | none => firstFail [failIf (pastDeadline s f) .deadlineMissed 0]

/-- The tokens of a segment that are written, R331; none: ERROR. -/
def truncTokens (g : TextSeg) (l : List Tok) : Option (List Tok) :=
  if l.length ≤ g.maxTokens then some l
  else if g.trunc = 1 then some (l.take g.maxTokens)
  else if g.trunc = 2 then some (l.drop (l.length - g.maxTokens))
  else none

/-- The effect of TOKENIZE, R329 to R332. -/
def tokenizeRun (s : State) (f : Flight) : Verdict :=
  let img := tokImage s (par f 0 4)
  let outs := (textSegs f).map (fun g => (g, tokenizeText img (bitOf (par f 6 1) 0) (segText s g)))
  match outs.find? (fun p => (truncTokens p.1 p.2.1).isNone) with
  | some p => .reject .badLength (48 + 24 + 32 * p.1.index + 24)
  | none =>
    let kept := outs.map (fun p => (p.1, (truncTokens p.1 p.2.1).getD []))
    let runs := kept.flatMap (fun p => [(p.1.out, p.2.flatMap (fun t => toLe 4 t.1))]
      ++ (if wantsOffsets f then [(p.1.off, p.2.flatMap (fun t => toLe 4 t.2))] else []))
    let replaced := listSum (outs.map (·.2.2))
    let full := listSum (outs.map (fun p => p.2.1.length))
    let written := listSum (kept.map (fun p => p.2.length))
    let cut := (outs.filter (fun p => decide (p.1.maxTokens < p.2.1.length))).length
    let result := toLe 4 outs.length ++ toLe 4 replaced ++ toLe 4 cut ++ zeros 4
      ++ (outs.zip kept).flatMap (fun p => toLe 4 p.2.2.length ++ toLe 4 p.1.2.1.length)
    let len := listSum ((textSegs f).map (fun g => (segText s g).length))
    commitVerdict f runs (chargeHub 27 f.tenant s) (fun s1 =>
      .done (bump .txtInBytes f.tenant len (bump .txtTokens f.tenant full (bump .utf8Replaced f.tenant replaced
          (bump .truncTokens f.tenant (full - written) s1)))) (okReply result))

/-- TOKENIZE, R330 to R332. -/
def tokenizeCommand : Command where
  op := .tokenize
  changes := false
  objects := fun _ _ => []
  check := tokenizeCheck
  run := tokenizeRun

/-- TOKENIZE. -/
def execTokenize (h : Nat) (s : State) : Result := execEntry tokenizeCommand h s

/-- A segment descriptor of PACK_PROMPT, R333. -/
structure PackDesc where
  src : Nat
  len : Nat
  kind : Nat
  flags : Nat
  rank : Nat
  maxTok : Nat
  minKeep : Nat
  reserved : Bool
  deriving DecidableEq, Repr

/-- The segment descriptor at an offset. -/
def packDescAt (b : Bytes) (o : Nat) : PackDesc :=
  ⟨fld b o 8, fld b (o + 8) 4, fld b (o + 12) 1, fld b (o + 13) 1, fld b (o + 14) 2, fld b (o + 16) 4, fld b (o + 20) 4, zeroAt b (o + 24) 8⟩

/-- The segments of a PACK_PROMPT. -/
def packDescs (f : Flight) : List PackDesc := (List.range (par f 8 2)).map (fun i => packDescAt f.params (32 + 32 * i))

/-- Bytes a segment's source holds. -/
def packSource (d : PackDesc) : Nat := if d.kind = 0 then 4 * d.len else d.len

/-- Fields of a segment descriptor, R333, R336, R344; `b` is its offset among the parameters. -/
def packFieldChecks (d : PackDesc) (b : Nat) : List (Bool × Status × Nat) :=
  [badParamIf (decide (2 < d.kind)) (b + 12), badParamIf (decide (7 < d.flags) || bits d.flags 2 1 == 3) (b + 13),
   badParamIf (d.maxTok == 0) (b + 16), badParamIf (decide (d.maxTok < d.minKeep)) (b + 20), badParamIf (!d.reserved) (b + 24),
   lengthIf (d.kind == 1 && decide (4194304 < d.len)) (b + 8), rangeIf (decide (1048576 < d.maxTok)) (b + 16)]

/-- The full tokens of a segment, R334: tokens, bytes decoded, replacements, or the failure with its offset in the descriptor. -/
def collectSeg (s : State) (tok : Tokeniser) (special : Bool) (d : PackDesc) : Except (Status × Nat) (List Nat × Nat × Nat) :=
  let v := tokVocab tok.image
  if d.kind = 1 then
    let r := tokenizeText tok.image special (memRead s d.src d.len)
    .ok (r.1.map (·.1), d.len, r.2)
  else if d.kind = 0 then
    let l := unpack 32 d.len (memRead s d.src (4 * d.len))
    if l.any (fun t => decide (v ≤ t)) then .error (.outOfRange, 0) else .ok (l, 0, 0)
  else
    let b := memRead s d.src d.len
    let n := fld b 0 4
    if d.len < 8 ∨ d.len < 8 + 4 * n then .error (.badLength, 8)
    else if fld b 4 4 ≠ tok.tag then .error (.badParam, 0)
    else
      let l := unpack 32 n (b.drop 8)
      if l.any (fun t => decide (v ≤ t)) then .error (.outOfRange, 0) else .ok (l, 0, 0)

/-- A segment with its full tokens. -/
def packSegOf (d : PackDesc) (full : List Nat) : PackSeg :=
  ⟨full, bitOf d.flags 0, bits d.flags 2 1, d.rank, d.maxTok, d.minKeep⟩

/-- The checks of PACK_PROMPT, R333, R334, R336. -/
def packCheck (s : State) (f : Flight) : Option (Status × Nat) :=
  let ds := packDescs f
  let outs := [(par f 16 8, 4 * par f 4 4, 16)] ++ (if par f 24 8 = 0 then [] else [(par f 24 8, 16 * par f 8 2, 24)])
  let ins := ds.map (fun d => (d.src, packSource d))
  match firstFail ([lengthIs f (32 + 32 * par f 8 2), badParamIf (par f 4 4 == 0) 4, badParamIf (par f 8 2 == 0) 8, badParamIf (decide (3 < par f 10 1)) 10,
      reservedZero f 11 5] ++ (ds.zipIdx).flatMap (fun p => packFieldChecks p.1 (32 + 32 * p.2)) ++ outputOverlap ins outs
      ++ [rangeIf (decide (1048576 < par f 4 4)) 4, rangeIf (decide (256 < par f 8 2)) 8, rangeIf (par f 16 8 % 64 != 0) 16,
        rangeIf (par f 24 8 % 64 != 0) 24, textScope s f]
      ++ handleChecks f ((tokeniserOf s (par f 0 4)).map (·.tenant)) 0
      ++ outs.flatMap (fun e => extentChecks s f e.1 e.2.1 e.2.2)
      ++ (ds.zipIdx).flatMap (fun p => if packSource p.1 = 0 then [] else extentChecks s f p.1.src (packSource p.1) (32 + 32 * p.2))) with
  | some r => some r
  | none => readsFail s ins

/-- Collect every segment, or the first failure with its segment. -/
def collectAll (s : State) (tok : Tokeniser) (special : Bool) : Nat → List PackDesc → Except (Nat × Status × Nat) (List (List Nat × Nat × Nat))
  | _, [] => .ok []
  | i, d :: l =>
    match collectSeg s tok special d with
    | .error (st, o) => .error (i, st, o)
    | .ok x => match collectAll s tok special (i + 1) l with
      | .error e => .error e
      | .ok xs => .ok (x :: xs)

/-- The segment records of R336, from a start position on. -/
def packRecords : Nat → List (PackSeg × Nat × PackState) → Bytes
  | _, [] => []
  | start, (g, n, st) :: l =>
    toLe 4 start ++ toLe 4 n ++ toLe 4 g.full.length ++ toLe 1 st.code ++ zeros 3 ++ packRecords (start + n) l

/-- What packing counts, R345. -/
def countPack (tenant : Nat) (got : List (List Nat × Nat × Nat)) (texts : Nat) (kept : List (PackSeg × Nat × PackState)) (s : State) : State :=
  let left := listSum (kept.map (fun k => if k.2.2 = .dropped then 0 else k.1.full.length - k.2.1))
  bump .txtInBytes tenant (listSum (got.map (·.2.1))) (bump .txtTokens tenant texts (bump .utf8Replaced tenant (listSum (got.map (·.2.2)))
    (bump .truncTokens tenant left (bump .packDropped tenant (kept.filter (fun k => decide (k.2.2 = .dropped))).length s))))

/-- The effect of PACK_PROMPT, R335, R336. -/
def packRun (s : State) (f : Flight) : Verdict :=
  match tokeniserOf s (par f 0 4) with
  | none => .reject .outOfRange 48
  | some tok =>
    let ds := packDescs f
    match collectAll s tok (bitOf (par f 10 1) 1) 0 ds with
    | .error (i, st, o) => .reject st (48 + 32 + 32 * i + o)
    | .ok got =>
      let segs := (ds.zip got).map (fun p => packSegOf p.1 p.2.1)
      match packSegs segs (par f 4 4) (bitOf (par f 10 1) 0) with
      | .error (.maxTok i) => .reject .badLength (48 + 32 + 32 * i + 16)
      | .error .budget => .reject .badLength (48 + 4)
      | .ok kept =>
        let all := segs.zip kept
        let toks := all.flatMap (fun p => packCut p.1 p.2.1)
        let runs := [(par f 16 8, toks.flatMap (toLe 4))] ++ (if par f 24 8 = 0 then [] else [(par f 24 8, packRecords 0 all)])
        let texts := listSum ((ds.zip got).map (fun p => if p.1.kind = 1 then p.2.1.length else 0))
        let count := fun st => (kept.filter (fun k => decide (k.2 = st))).length
        commitVerdict f runs (chargeHub 27 f.tenant s) (fun s1 =>
          .done (countPack f.tenant got texts all s1)
            (okReply (toLe 4 toks.length ++ toLe 4 (count .cut) ++ toLe 4 (count .dropped) ++ toLe 4 (listSum (got.map (·.2.2))))))

/-- PACK_PROMPT, R333 to R336. -/
def packPromptCommand : Command where
  op := .packPrompt
  changes := false
  objects := fun _ _ => []
  check := packCheck
  run := packRun

/-- PACK_PROMPT. -/
def execPackPrompt (h : Nat) (s : State) : Result := execEntry packPromptCommand h s

/-- The string entries of a STOP_SET from an offset: strings, whether the padding is zero, the offset past them; none where they do not fit. -/
def stopStrings (b : Bytes) : Nat → Nat → Option (List Bytes × Bool × Nat)
  | 0, o => some ([], true, o)
  | n + 1, o =>
    if b.length < o + 2 then none
    else
      let len := fld b o 2
      let next := o + ceilDiv (2 + len) 8 * 8
      if b.length < next then none
      else match stopStrings b n next with
        | none => none
        | some (l, z, e) => some (slice b (o + 2) len :: l, z && zeroAt b (o + 2 + len) (next - (o + 2 + len)), e)

/-- Offset of the string entries of a STOP_SET. -/
def stopStringsAt (f : Flight) : Nat := 16 + ceilDiv (4 * par f 6 2) 8 * 8

/-- The stop tokens of a STOP_SET. -/
def stopTokens (f : Flight) : List Nat := (List.range (par f 6 2)).map (fun i => par f (16 + 4 * i) 4)

/-- What the parameters of a STOP_SET alone decide, R337, R344. -/
def stopSetShape (f : Flight) : Option (Status × Nat) :=
  let n := par f 4 2
  let k := par f 6 2
  let at' := stopStringsAt f
  match stopStrings f.params n at' with
  | none => some (.badLength, 6)
  | some (l, z, e) =>
    firstFail ([lengthIs f e, badParamIf (n + k == 0) 4, reservedZero f 8 8, reservedZero f (16 + 4 * k) (at' - 16 - 4 * k),
      badParamIf (!z || l.any (fun b => b.isEmpty || !utf8Valid b)) at',
      rangeIf (decide (64 < n)) 4, rangeIf (decide (16 < k)) 6, rangeIf (l.any (fun b => decide (256 < b.length))) at'])

/-- The checks of STOP_SET, R337, R344. -/
def stopSetCheck (s : State) (f : Flight) : Option (Status × Nat) :=
  let v := ((tokeniserOf s (par f 0 4)).map (fun t => tokVocab t.image)).getD 0
  match stopSetShape f with
  | some r => some r
  | none =>
    firstFail ([textScope s f] ++ handleChecks f ((tokeniserOf s (par f 0 4)).map (·.tenant)) 0
      ++ [rangeIf ((stopTokens f).any (fun t => decide (v ≤ t))) 16, failIf (decide (65536 ≤ s.text.stops.length)) .tableFull 0])

/-- STOP_SET, R337. -/
def stopSetCommand : Command where
  op := .stopSet
  changes := true
  objects := fun _ f => [⟨.handle, par f 0 4⟩]
  changed := fun _ _ => []
  check := stopSetCheck
  staged := fun _ f => stopSetShape f
  run := fun s f =>
    match stopStrings f.params (par f 4 2) (stopStringsAt f), takeTables f.tenant f.params.length s with
    | none, _ => .reject .badLength 6
    | _, .error (st, d) => .reject st d
    | some (l, _, _), .ok (base, s1) =>
      let (h, s2) := freshHandle 5 (kkeys s1.text.stops) s1
      .done (setText { s2.text with stops := kset s2.text.stops h ⟨f.tenant, par f 0 4, l, stopTokens f, base, false⟩ } s2)
        (okReply (toLe 4 h ++ zeros 4))

/-- STOP_SET. -/
def execStopSet (h : Nat) (s : State) : Result := execEntry stopSetCommand h s

/-- A dropped text object is released when nothing uses it any more, R323; `live` tells which handles running requests name. -/
def reapText (live : List Nat) (s : State) : State :=
  let t := s.text
  let ss := kvals t.streams
  let stopUsed := fun h => live.contains h || ss.any (fun x => x.stop == some h)
  let tokUsed := fun h => live.contains h || ss.any (fun x => x.tok == h)
  let goneStops := t.stops.filter (fun p => p.2.dropped && !stopUsed p.1)
  let goneGrams := t.grammars.filter (fun p => p.2.dropped && !live.contains p.1)
  let goneToks := t.tokenisers.filter (fun p => p.2.dropped && !tokUsed p.1)
  let bases := goneStops.map (·.2.base) ++ goneGrams.map (·.2.base) ++ goneToks.map (·.2.base)
  let s1 := bases.foldl (fun u a => releaseAlloc a (((kget u.tiers.allocs a).map (·.len)).getD 0) u) s
  setText { s1.text with
    stops := s1.text.stops.filter (fun p => !goneStops.any (fun g => g.1 == p.1))
    grammars := s1.text.grammars.filter (fun p => !goneGrams.any (fun g => g.1 == p.1))
    tokenisers := s1.text.tokenisers.filter (fun p => !goneToks.any (fun g => g.1 == p.1)) } s1

/-- The stop strings and stop tokens of a stream. -/
def streamStops (s : State) (x : Stream) : List Bytes × List Nat :=
  match x.stop.bind (fun h => kget s.text.stops h) with
  | none => ([], [])
  | some p => (p.strings, p.tokens)

/-- A feed of a stream, R340. -/
def feedStream (s : State) (x : Stream) (toks : List Nat) (final : Bool) : Fed :=
  let st := streamStops s x
  let y := feedTokens (tokImage s x.tok) st.1 st.2 x.skipSpecial x.includeStop toks ⟨[], 0, .open, x.pending, x.held, 0⟩
  if final then feedFinal st.1 x.includeStop y else y

/-- The code of a feed's outcome, R341. -/
def feedCode : FeedState → Nat
  | .open => 0
  | .stopped _ => 1
  | .closed => 2

/-- STOP_INDEX of a feed. -/
def feedIndex : FeedState → Nat
  | .stopped i => i
  | _ => 0xFFFF

/-- What a feed counts, R345. -/
def countFeed (tenant : Nat) (y : Fed) (s : State) : State :=
  let stops := match y.state with
    | .stopped _ => 1
    | _ => 0
  bump .detokTokens tenant y.consumed (bump .detokBytes tenant y.out.length (bump .utf8Replaced tenant y.replaced (bump .stopMatches tenant stops s)))

/-- A stream after a feed: freed where it has ended, R339. -/
def streamAfter (h : Nat) (x : Stream) (y : Fed) (s : State) : State :=
  match y.state with
  | .open => setText { s.text with streams := kset s.text.streams h { x with pending := y.pending, held := y.held, fed := x.fed || decide (0 < y.consumed) } } s
  | _ => setText { s.text with streams := kdel s.text.streams h } s

/-- A DETOK_STREAM_OPEN opens a new stream. -/
def opensStream (f : Flight) : Bool := par f 0 4 == 0xFFFFFFFF

/-- The stream that a command feeds: a new one, or an open one. -/
def streamFor (s : State) (f : Flight) : Option Stream :=
  if opensStream f then
    some ⟨f.tenant, par f 4 4, if par f 8 4 = 0xFFFFFFFF then none else some (par f 8 4), bitOf (par f 12 1) 0, bitOf (par f 12 1) 1, [], [], false, none⟩
  else kget s.text.streams (par f 0 4)

/-- The checks of DETOK_STREAM_OPEN, R338, R339, R344. -/
def detokCheck (s : State) (f : Flight) : Option (Status × Nat) :=
  let opens := opensStream f
  let n := par f 16 4
  let cap := par f 20 4
  let x := if opens then none else kget s.text.streams (par f 0 4)
  let stop := if par f 8 4 = 0xFFFFFFFF then none else (kget s.text.stops (par f 8 4)).filter (fun p => !p.dropped)
  match firstFail ([lengthIs f 48, badParamIf (!opens && par f 4 4 != 0xFFFFFFFF) 4, badParamIf (!opens && par f 8 4 != 0xFFFFFFFF) 8,
      badParamIf (decide (7 < par f 12 1) || (!opens && par f 12 1 % 4 != 0)) 12, reservedZero f 13 3,
      badParamIf (n == 0 && par f 24 8 != 0) 24, reservedZero f 40 8, rangeIf (decide (65536 < n)) 16, textScope s f]
      ++ (if opens then handleChecks f ((tokeniserOf s (par f 4 4)).map (·.tenant)) 4
            ++ (if par f 8 4 = 0xFFFFFFFF then [] else handleChecks f (stop.map (·.tenant)) 8 ++ [badParamIf (stop.any (fun p => p.tok != par f 4 4)) 8])
            ++ [failIf (decide (65536 ≤ s.text.streams.length)) .tableFull 0]
          else handleChecks f (x.map (·.tenant)) 0 ++ [failIf (x.any (fun y => y.request.isSome)) .notPermitted 0])
      ++ (if n = 0 then [] else extentChecks s f (par f 24 8) (4 * n) 24)
      ++ (if cap = 0 then [] else extentChecks s f (par f 32 8) cap 32)) with
  | some r => some r
  | none =>
    match readFails s (par f 24 8) (4 * n), streamFor s f with
    | some r, _ => some r
    | none, none => none
    | none, some y =>
      let v := tokVocab (tokImage s y.tok)
      firstFail [rangeIf ((unpack 32 n (memRead s (par f 24 8) (4 * n))).any (fun t => decide (v ≤ t))) 24]

/-- The effect of a feed, R339 to R341. -/
def detokRun (live : State → List Nat) (s : State) (f : Flight) : Verdict :=
  match streamFor s f with
  | none => .reject .outOfRange 48
  | some x =>
    let n := par f 16 4
    let y := feedStream s x (unpack 32 n (memRead s (par f 24 8) (4 * n))) (bitOf (par f 12 1) 2)
    if par f 20 4 < y.out.length then .reject .badLength (48 + 20)
    else
      commitVerdict f [(par f 32 8, y.out)] (chargeHub 27 f.tenant s) (fun s1 =>
        let (h, s2) := if opensStream f then freshHandle 7 (kkeys s1.text.streams) s1 else (par f 0 4, s1)
        let s3 := streamAfter h x y s2
        .done (countFeed f.tenant y (if y.state = .open then s3 else reapText (live s3) s3))
          (okReply (toLe 4 h ++ toLe 1 (feedCode y.state) ++ toLe 1 y.pending.length ++ toLe 2 y.held.length ++ toLe 4 y.consumed
            ++ toLe 4 y.out.length ++ toLe 4 y.replaced ++ toLe 2 (feedIndex y.state) ++ zeros 2)))

/-- DETOK_STREAM_OPEN and feeds, R338 to R341. -/
def detokCommand : Command where
  op := .detokStreamOpen
  changes := false
  objects := fun _ _ => []
  check := detokCheck
  run := detokRun servedHandles

/-- DETOK_STREAM_OPEN. -/
def execDetokStreamOpen (h : Nat) (s : State) : Result := ofForm opensStream h s (execEntry detokCommand h)

/-- DETOK_STREAM_FEED: the same opcode with an open stream. -/
def execDetokStreamFeed (h : Nat) (s : State) : Result := ofForm (fun f => !opensStream f) h s (execEntry detokCommand h)

/-- The checks of a grammar image, R342, R344. -/
def grammarImageChecks (img : Bytes) (tok : Tokeniser) : List (Bool × Status × Nat) :=
  let n := gramStates img
  let v := gramVocab img
  let st := (List.range n).map (gramState img)
  let rises := fun (first count : Nat) => (List.range (count - 1)).all (fun i => decide ((gramExc img (first + i)).1 < (gramExc img (first + i + 1)).1))
  [lengthIf (decide (img.length < 32)) 8,
   badParamIf (fld img 0 4 != 0x524D5247 || fld img 4 2 != 1 || !zeroAt img 6 2 || v != tokVocab tok.image || fld img 28 4 != tok.tag) 0,
   rangeIf (n == 0 || decide (1048576 < n) || gramMasks img == 0 || decide (65536 < gramMasks img) || decide (67108864 < gramExceptions img)) 0,
   lengthIf (img.length != gramExcAt img + 8 * gramExceptions img) 8,
   badParamIf (decide (n ≤ gramStart img) || st.any (fun q => decide (gramMasks img ≤ q.1) || decide (n ≤ q.2.1)
     || decide (gramExceptions img < q.2.2.1 + q.2.2.2) || !rises q.2.2.1 q.2.2.2)) 0,
   badParamIf ((List.range (gramMasks img)).any (fun m => (List.range (8 * gramMaskLen img - v)).any (fun i =>
     bitOf (fld img (gramMasksAt img + m * gramMaskLen img + (v + i) / 8) 1) ((v + i) % 8)))) 0,
   badParamIf ((List.range (gramExceptions img)).any (fun i => decide (v ≤ (gramExc img i).1) || decide (n ≤ (gramExc img i).2))) 0]

/-- The checks of GRAMMAR_LOAD, R342. -/
def grammarLoadCheck (s : State) (f : Flight) : Option (Status × Nat) :=
  let len := par f 8 4
  match firstFail ([lengthIs f 16, textScope s f] ++ handleChecks f ((tokeniserOf s (par f 12 4)).map (·.tenant)) 12 ++ extentChecks s f (par f 0 8) len 0),
      tokeniserOf s (par f 12 4) with
  | some r, _ => some r
  | none, none => some (.outOfRange, 60)
  | none, some tok => match readFails s (par f 0 8) len with
    | some r => some r
    | none => firstFail (grammarImageChecks (memRead s (par f 0 8) len) tok ++ [failIf (decide (256 ≤ s.text.grammars.length)) .tableFull 0])

/-- GRAMMAR_LOAD, R342. -/
def grammarLoadCommand : Command where
  op := .grammarLoad
  changes := true
  objects := fun _ _ => []
  check := grammarLoadCheck
  run := fun s f =>
    let img := memRead s (par f 0 8) (par f 8 4)
    match takeTables f.tenant img.length s with
    | .error (st, d) => .reject st d
    | .ok (base, s1) =>
      let (h, s2) := freshHandle 6 (kkeys s1.text.grammars) s1
      .done (setText { s2.text with grammars := kset s2.text.grammars h ⟨f.tenant, img, par f 12 4, base, false⟩ } s2) (okReply (toLe 4 h ++ zeros 4))

/-- GRAMMAR_LOAD. -/
def execGrammarLoad (h : Nat) (s : State) : Result := execEntry grammarLoadCommand h s

end Sys2Proof.Machine
end

