-- ==== Sys2Proof/Machine/ServeOps.lean ====
section
/-! DEFINITION. Requests: their entries, page reservations (R366), samples (R397), streaming output (R378 to R380), how they consume tokens (R375) and how they end (R361 to R363). -/

namespace Sys2Proof.Machine

open Sys2Proof

/-- Why a stage of a request does not commit now. -/
inductive StageStop where
  /-- something it needs has not arrived or is moving -/
  | wait
  /-- it needs rows of a table that their owners have still to send, R249 -/
  | waitRows (table : Nat) (rows : List Nat)
  /-- it needs this many shadow frames of its tenant, R219 -/
  | waitRoom (tenant frames : Nat)
  | fails (st : Status) (d : Nat)

/-- A stage of a request as it is computed. -/
abbrev StageM := ExceptT StageStop (StateM State)

/-- The request with a serial. -/
def requestOf (s : State) (serial : Nat) : Option Request := s.serve.requests.find? (fun r => r.serial == serial)

/-- The request with a key, R359. -/
def requestKeyed (s : State) (tenant entry id : Nat) : Option Request :=
  s.serve.requests.find? (fun r => r.tenant == tenant && r.entry == entry && r.id == id)

/-- A request's table entry is freed. -/
def dropRequest (serial : Nat) (s : State) : State :=
  { s with serve := { s.serve with requests := s.serve.requests.filter (fun r => r.serial != serial) } }

/-- A request is entered. -/
def addRequest (r : Request) (s : State) : State :=
  noteHigh 0x9100 0 (s.serve.requests.length + 1) { s with serve := { s.serve with requests := s.serve.requests ++ [r] } }

/-- This module is a request's entry member. -/
def isEntry (s : State) (r : Request) : Bool := r.entry == s.fabric.view.self

/-- A model that commands may name. -/
def modelOf (s : State) (h : Nat) : Option Model := (kget s.serve.models h).filter (fun m => !m.dropped)

/-- A model by its handle, unloaded or not: what a request names. -/
def servedModel (s : State) (h : Nat) : Option Model := kget s.serve.models h

/-- Store the models. -/
def setModels (m : KMap Model) (s : State) : State := { s with serve := { s.serve with models := m } }

/-- Frames given to key/value pages, one at a time on the die with the most free frames, R221, R366; none where the pool is exhausted. -/
def giveFrames (tenant : Nat) : Nat → List Nat → State → Option (List Nat × State)
  | 0, l, s => some (l, s)
  | n + 1, l, s =>
    let d := bestDie s.tiers
    if dieFree s.tiers d = 0 then none
    else giveFrames tenant n (setAt l d (nth l d + 1))
      { s with tiers := { s.tiers with kv := kset s.tiers.kv (tenant * 4 + d) (kgetD s.tiers.kv (tenant * 4 + d) 0 + 1) } }

/-- Reserve frames for key/value pages under the tenant's quota, after its own evictions, which stay made where there is still no room, R366. -/
def takeFrames (tenant n : Nat) (s : State) : Option (List Nat) × State :=
  match findFrames none tenant n s with
  | .found s1 => match giveFrames tenant n [0, 0, 0, 0] s1 with
    | some (l, s2) => (some l, s2)
    | none => (none, s1)
  | .waits s1 => (none, s1)
  | .full s1 => (none, s1)

/-- Frames of key/value pages return to the pool and the quota. -/
def releaseFrames (tenant : Nat) (l : List Nat) (s : State) : State :=
  (l.zipIdx).foldl (fun t p =>
    { t with tiers := { t.tiers with kv := ksetNz t.tiers.kv (tenant * 4 + p.2) (kgetD t.tiers.kv (tenant * 4 + p.2) 0 - p.1) } }) s

/-- Frames that pages hold. -/
def framesOf : Option KvPages → Nat
  | none => 0
  | some p => listSum p.frames

/-- Positions that a stage may come to hold, R366. -/
def stagePositions (prompt maxNew draftN : Nat) : Nat := prompt + maxNew + draftN

/-- Pages for a request's decoder and for its draft model, R366. -/
def pagesNeeded (s : State) (p : Pipeline) (prompt maxNew : Nat) : Nat × Nat :=
  let n := stagePositions prompt maxNew p.draftN
  let of := fun h => ((servedModel s h).map (fun m => m.pagesFor n)).getD 0
  (of p.decoder, if p.draftN = 0 then 0 else of p.draft)

/-- Reserve pages for a decoder and a draft model: both or none. -/
def reservePages (tenant : Nat) (n : Nat × Nat) (s : State) : Option (KvPages × Option KvPages) × State :=
  match takeFrames tenant n.1 s with
  | (none, s1) => (none, s1)
  | (some a, s1) => match takeFrames tenant n.2 s1 with
    | (none, s2) => (none, releaseFrames tenant a s2)
    | (some b, s2) => (some (⟨a, []⟩, if n.2 = 0 then none else some ⟨b, []⟩), s2)

/-- A number of pages more than a tenant's FRAMES can never be reserved, R359. -/
def overFrames (s : State) (tenant : Nat) (n : Nat × Nat) : Bool := decide ((quotaOf s.tiers tenant).frames < n.1 + n.2)

/-- The histogram sample of a value in nanoseconds. -/
def sampleNs (r : Request) (metric ns : Nat) (s : State) : State := recordSample r.tenant metric (bucketOf ns) r.arrival r.covered s

/-- A stage begins: the first one ends the time in QUEUE, R397. -/
def startStage (r : Request) (s : State) : Request × State :=
  match r.firstStage with
  | some _ => (r, s)
  | none => ({ r with firstStage := some s.frontTime }, if isEntry s r then sampleNs r 4 (s.frontTime - r.arrival) s else s)

/-- Fields of a request's parameters, R358. -/
def Request.ids (r : Request) : Bool := bitOf (fld r.params 2 1) 1
def Request.temp (r : Request) : Nat := fld r.params 24 4
def Request.topP (r : Request) : Nat := fld r.params 28 4
def Request.topK (r : Request) : Nat := fld r.params 32 4
def Request.seed (r : Request) : Nat := fld r.params 36 4
def Request.chunkMax (r : Request) : Nat := fld r.params 44 2
def Request.chunkUs (r : Request) : Nat := fld r.params 48 4

/-- Slots of a chunk of a request, R380. -/
def Request.slots (r : Request) : Nat := chunkSlots r.ids r.chunkMax

/-- The ring of a request's records. -/
def requestRing (s : State) (r : Request) : Nat := ((flightOf s r.serial).map (·.hdr.replyRing)).getD 0

/-- A request's slots change: reserved in its ring, or given back. -/
def requestSlots (r : Request) (take : Bool) (s : State) : State :=
  match flightOf s r.serial with
  | none => s
  | some f =>
    if take then setFlight { f with reserved := f.reserved + r.slots } (cqReserve f.hdr.replyRing r.slots s)
    else setFlight { f with reserved := f.reserved - r.slots } (cqRelease f.hdr.replyRing r.slots s)

/-- The result of a TOKEN_CHUNK, R378. -/
def chunkResult (r : Request) (last : Bool) : Bytes :=
  toLe 8 (r.consumed - r.chunkTokens.length) ++ toLe 2 r.chunkTokens.length ++ toLe 2 r.chunkText.length
    ++ toLe 1 (b2n last + 2 * b2n r.ids) ++ zeros 3 ++ (if r.ids then r.chunkTokens.flatMap (toLe 4) else []) ++ r.chunkText

/-- The open chunk is posted, R379; the first one is the TTFT sample, R397. -/
def postChunk (r : Request) (last : Bool) (s : State) : Request × State :=
  let held := r.chunkHeld
  let s1 := if held then requestSlots r false s else s
  let reply : Reply := { status := .ok, detail := 0x0901 + r.chunkSeq % 65536 * 65536, result := chunkResult r last }
  let s2 := postRecord (requestRing s r) r.session r.id true false (clearRecord r.session .ok) held s.frontTime reply s1
  let r1 := { r with chunkTokens := [], chunkText := [], chunkSeq := r.chunkSeq + 1, chunkHeld := false }
  match r.ttft with
  | some _ => (r1, s2)
  | none => ({ r1 with ttft := some (s.frontTime - r.arrival) }, sampleNs r 1 (s.frontTime - r.arrival) s2)

/-- Reserve the next chunk's slots, or begin to wait for them, R380. -/
def holdChunk (r : Request) (s : State) : Request × State :=
  if r.chunkHeld then (r, s)
  else if r.slots ≤ cqFree (cqOf s.host (requestRing s r)) then ({ r with chunkHeld := true, ringWait := false }, requestSlots r true s)
  else if r.ringWait then (r, s)
  else ({ r with ringWait := true }, bump .ringWaits r.tenant 1 s)

/-- A request's chunk is posted and the next one reserved. -/
def rollChunk (r : Request) (s : State) : Request × State :=
  let x := postChunk r false s
  holdChunk x.1 x.2

/-- Why a request stops consuming: the end it has reached, or no room for a chunk. -/
inductive Consumed where
  | more
  | waits
  | ends (reason stop : Nat)

/-- One token is consumed by the stream, R340, R375, R379, R402. -/
def consumeOne (t : Nat) (r : Request) (s : State) : Consumed × Request × State :=
  match kget s.text.streams r.stream with
  | none => (.ends 7 0xFFFF, r, s)
  | some x =>
    let y := feedStream s x [t] false
    let x0 := if 4096 < r.chunkText.length + y.out.length then rollChunk r s else (r, s)
    if x0.1.chunkHeld = false then (.waits, x0)
    else
      let r1 := { x0.1 with
        chunkTokens := x0.1.chunkTokens ++ [t]
        chunkText := x0.1.chunkText ++ y.out
        chunkSince := if x0.1.chunkTokens.isEmpty then s.frontTime else x0.1.chunkSince
        consumed := x0.1.consumed + 1
        stepTokens := x0.1.stepTokens + 1 }
      let streams := kset x0.2.text.streams r.stream { x with pending := y.pending, held := y.held, fed := true }
      let s1 := debit r.tenant 1 (countFeed r.tenant y (setText { x0.2.text with streams := streams } x0.2))
      match y.state with
      | .stopped i => (.ends (if i < 0x100 then 1 else 2) i, r1, s1)
      | _ =>
        if r1.maxNew ≤ r1.consumed then (.ends 3 0xFFFF, r1, s1)
        else if r1.chunkMax ≤ r1.chunkTokens.length then
          let z := rollChunk r1 s1
          (if z.1.chunkHeld then .more else .waits, z)
        else (.more, r1, s1)

/-- Tokens of a step are consumed one after another: those left over, and why it stopped. -/
def consumeStep : List Nat → Request → State → Consumed × List Nat × Request × State
  | [], r, s => (.more, [], r, s)
  | t :: l, r, s =>
    if r.chunkHeld = false then (.waits, t :: l, r, s)
    else match consumeOne t r s with
      | (.more, r1, s1) => consumeStep l r1 s1
      | (.waits, r1, s1) => (.waits, if r.consumed < r1.consumed then l else t :: l, r1, s1)
      | (.ends a b, r1, s1) => (.ends a b, l, r1, s1)

/-- The sample of a consuming step, R397: its time per token since the step before. -/
def sampleStep (r : Request) (s : State) : Request × State :=
  if r.stepTokens = 0 then (r, s)
  else
    let s1 := match r.lastStep with
      | none => s
      | some t => sampleNs r 2 ((s.frontTime - t) / r.stepTokens) s
    ({ r with lastStep := some s.frontTime, stepTokens := 0 }, s1)

/-- Steering sets and models that nothing uses any more leave the module, R347, R377. -/
def reapServed (s : State) : State :=
  let live := servedHandles s
  let steered := s.serve.requests.map (·.steer)
  let gone := s.compute.steers.filter (fun p => p.2.dropped && !steered.contains p.1)
  let s1 := gone.foldl (fun u p => releaseAlloc p.2.base (((kget u.tiers.allocs p.2.base).map (·.len)).getD 0) u) s
  let s2 := { s1 with
    compute := { s1.compute with steers := s1.compute.steers.filter (fun p => !gone.any (fun g => g.1 == p.1)) }
    serve := { s1.serve with models := s1.serve.models.filter (fun p => !p.2.dropped || live.contains p.1) } }
  reapText (servedHandles s2) s2

/-- Requests end with the status of an end, R361: OK becomes OK_PARTIAL where the search was short. -/
def endStatus (r : Request) (e : ReqEnd) : Status := if e.status = .ok ∧ r.short = true then .okPartial else e.status

/-- The 64 bytes of a request's final record, R363. -/
def requestResult (r : Request) (e : ReqEnd) : Bytes :=
  toLe 1 e.reason ++ zeros 1 ++ toLe 2 e.stop ++ toLe 4 r.promptTokens ++ toLe 4 r.consumed ++ toLe 4 r.passages ++ toLe 4 r.searchN
    ++ toLe 4 r.accepted ++ toLe 4 r.proposed ++ zeros 4 ++ toLe 8 (r.rtp.getD 0) ++ toLe 8 (r.ttft.getD 0) ++ toLe 8 r.arrival ++ zeros 8

/-- Whether a pipeline has a retrieval stage at its entry member, R355. -/
def retrieves (p : Pipeline) : Bool := decide (p.kind ≤ 1)

/-- Whether a pipeline posts text, R355. -/
def generates (p : Pipeline) : Bool := p.kind == 1 || p.kind == 2 || p.kind == 4

/-- Samples that a failed request owes and never reached go to bucket 255, R397. -/
def owedSamples (r : Request) (s : State) : State :=
  let owe := fun (m : Nat) (c : Bool) (t : State) => if c then recordSample r.tenant m 255 r.arrival r.covered t else t
  owe 0 (retrieves r.pipe && r.rtp.isNone) (owe 1 (generates r.pipe && r.ttft.isNone) (owe 4 r.firstStage.isNone s))

/-- CMD_FWD to another member about a request, R368; the kind stands in DETAIL beside the event code (log entry 60). -/
def requestReply (dst kind : Nat) (r : Request) (st : Status) (result : Bytes) (s : State) : State :=
  sendMessage dst 0x08 1 r.tenant r.id 0
    (cmdFwdBody 1 0 r.entry 0 (replyBody r.id s.frontTime { status := st, detail := 0x0901 + kind * 65536, result := result })) s

/-- A key/value handover under way is given up: ABORT of its attempt, and of the request at the target, R368 (log entry 60). -/
def tellShip (r : Request) (s : State) : State :=
  match r.shipTo with
  | none => s
  | some d =>
    if !reaches s d then s
    else
      bump .kvAttemptsAborted r.tenant 1 (sendMessage d 0x08 5 r.tenant r.id 0 (cmdFwdBody 5 0 s.fabric.view.self 0 [])
        (sendMessage d 0x02 3 r.tenant r.id r.channel
          (toLe 1 3 ++ [0] ++ toLe 2 r.entry ++ toLe 2 r.attempt ++ toLe 2 r.pipe.nextPipe ++ zeros 4 ++ toLe 4 r.promptTokens ++ zeros 8) s))

/-- The member that holds the present stage is told that a request has ended: ABORT of its request ID (log entry 60). -/
def tellEnd (r : Request) (s : State) : State :=
  let self := s.fabric.view.self
  let s1 := tellShip r s
  if r.holder ≠ self ∧ reaches s r.holder then sendMessage r.holder 0x08 5 r.tenant r.id 0 (cmdFwdBody 5 0 self 0 []) s1 else s1

/-- Tokens computed and not consumed are discarded, R375. -/
def discardBacklog (r : Request) (s : State) : Request × State :=
  ({ r with backlog := [] }, bump .tokensDiscarded r.tenant (listSum (r.backlog.map (·.length))) s)

/-- The stream of a request that ends of itself releases its held text, R340, R363. -/
def flushStream (r : Request) (e : ReqEnd) (s : State) : Request × State :=
  match kget s.text.streams r.stream with
  | none => (r, s)
  | some x =>
    if e.reason = 1 ∨ e.reason = 2 ∨ e.reason = 7 ∨ generates r.pipe = false then (r, s)
    else
      let y := feedStream s x [] true
      let z := if 4096 < r.chunkText.length + y.out.length then rollChunk r s else (r, s)
      ({ z.1 with chunkText := z.1.chunkText ++ y.out }, countFeed r.tenant y z.2)

/-- The end of a request is decided at its entry member and its records are posted, R362, R363, R397. -/
def endRequest (r0 : Request) (e : ReqEnd) (s0 : State) : State :=
  let x1 := sampleStep r0 s0
  let x2 := discardBacklog x1.1 x1.2
  let x3 := flushStream x2.1 e x2.2
  let x4 := if x3.1.chunkTokens.isEmpty && x3.1.chunkText.isEmpty then x3 else postChunk x3.1 true x3.2
  let st := endStatus r0 e
  let r := { x4.1 with state := ReqState.ending, ended := some { e with status := st }, shipTo := none, chunkHeld := false }
  let s := dropItems (handoverSerial r0.serial) (tellEnd x4.1 x4.2)
  let s1 := match flightOf s r.serial with
    | none => s
    | some f => finishPlain f { status := st, detail := e.detail, result := requestResult r e } s
  let s2 := sampleNs r 3 (s.frontTime - r.arrival) s1
  let s3 := if goodStatus st then s2 else owedSamples r s2
  let s4 := bump .reqEnded r.tenant 1 (bump .reqEnds (r.tenant * 8 + e.reason) 1 s3)
  let s5 := if e.reason = 4 then bump .grammarEnds r.tenant 1 s4 else s4
  setRequest r (if r.covered then endCovered r.tenant r.arrival s5 else s5)

/-- A stage of a request fails: at its entry member it ends; elsewhere the entry member is told and the stage is dropped. -/
def failRequest (r : Request) (st : Status) (d : Nat) (s : State) : State :=
  if isEntry s r then endRequest r ⟨7, st, d, 0xFFFF⟩ s
  else
    let s1 := tellShip r (setRequest { r with state := .ending, shipTo := none } s)
    if reaches s r.entry then
      sendMessage r.entry 0x08 1 r.tenant r.id 0 (cmdFwdBody 1 0 r.entry 0 (replyBody r.id s.frontTime { status := st, detail := d })) s1
    else s1

/-- Everything a member holds for a request is freed, R363. -/
def freeRequest (r : Request) (s : State) : State :=
  let s1 := releaseFrames r.tenant ((r.kv.map (·.frames)).getD []) (releaseFrames r.tenant ((r.draftKv.map (·.frames)).getD []) s)
  let s2 := setText { s1.text with streams := kdel s1.text.streams r.stream } s1
  let mine := !isEntry s r && r.steer != 0xFFFFFFFF
  let s3 := if mine then
      { s2 with compute := { s2.compute with steers := s2.compute.steers.map (fun p => if p.1 = r.steer then (p.1, { p.2 with dropped := true }) else p) } }
    else s2
  reapServed (dropRequest r.serial (endSearch r.serial false (dropItems (handoverSerial r.serial) s3)))

/-- The counters that a command adds to at its commit point only, R107, R263, R322, R345. -/
def countsAtCommit (c : Ctr) : Bool :=
  ([.satCount, .blockClamp, .flushFp32, .nanConverted, .nanExcluded, .ternReserved, .shadowSampled, .shadowExceed, .shadowSkipped,
    .lookups, .fetchLocal, .fetchReplica, .fetchRemote, .dedupSaved, .padding, .oorSkipped, .emptyBags,
    .selKeys, .selPasses, .selEarlyExit, .selDuplicates, .selDupMismatch, .selSentinels,
    .txtInBytes, .txtTokens, .utf8Replaced, .truncTokens, .packDropped, .detokTokens, .detokBytes, .stopMatches, .grammarSteps, .grammarEnds] : List Ctr).any
      (fun d => decide (d = c))

/-- The counters after work that has ended without effect: those of `old`, but for what counts whatever becomes of a command. -/
def uncount (old new : Counters) : Counters :=
  new.filter (fun x => !countsAtCommit x.1) ++ old.filter (fun x => countsAtCommit x.1)

/-- A stage of a request runs, and its cell item leaves the cells with it: it commits, it waits with nothing changed but what it has set going, or the request fails and the stage counts nothing. -/
def runStage (r : Request) (m : StageM Unit) (s : State) : State :=
  match (m.run) (removeItems (handoverSerial r.serial) s) with
  | (.ok _, s1) => dropFetching (handoverSerial r.serial) s1
  | (.error .wait, _) => s
  | (.error (.waitRows id rows), _) => match tableOf s id with
    | none => s
    | some t => askRows (handoverSerial r.serial) r.tenant r.id id t rows s
  | (.error (.waitRoom tenant n), _) => match findFrames none tenant n s with
    | .waits s1 => s1
    | _ => s
  | (.error (.fails st d), s1) =>
    let s2 := dropFetching (handoverSerial r.serial) { s1 with counters := uncount s.counters s1.counters }
    failRequest ((requestOf s2 r.serial).getD r) st d s2

/-- A condition of a stage: it fails where the condition holds. -/
def stageFailIf (c : Bool) (st : Status) (d : Nat) : StageM Unit := if c then throw (.fails st d) else pure ()

/-- A step of a model runs as one command, R352. -/
def runModel (c : StepCtx) : StageM (LayerResult × Memory) := do
  let s ← get
  match modelStep s c with
  | .error (.fails st d) => throw (.fails st d)
  | .error (.nan n) => do
    set (stepNan c n s)
    throw (.fails .nanTrap 0)
  | .error .waits => throw .wait
  | .ok (r, cells) =>
    match applyStep c r s with
    | .waits _ => throw (.waitRoom c.tenant (unitsTouched 65536 (r.runs.filter (fun x => realAddr x.1))).length)
    | .fails st d s1 => do
      set s1
      throw (.fails st d)
    | .done s1 => do
      set s1
      pure (r, cells)

/-- The rows of a table that a stage of a request reads: row, path, version, image. -/
def tableRowsFor (r : Request) (id : Nat) (fetched : List (Nat × Nat × Nat × Bytes)) (rows : List Nat) : StageM (List (Nat × Nat × Nat × Bytes)) := do
  let s ← get
  match tableOf s id with
  | none => throw (.fails .outOfRange 0)
  | some t => match stageRows s r.serial id t fetched rows with
    | .ok got => pure got
    | .error (.fails st d) => throw (.fails st d)
    | .error (.unreachable o) => throw (.fails .memberUnreachable o)
    | .error _ => throw (.waitRows id rows.eraseDups)

/-- The rows of a model's embedding table for tokens. -/
def rowsFor (r : Request) (m : Model) (fetched : List (Nat × Nat × Nat × Bytes)) (toks : List Nat) : StageM (List Bytes) := do
  let got ← tableRowsFor r m.embedTable fetched toks
  pure (toks.map (fun k => ((got.find? (fun g => g.1 == k)).map (fun g => g.2.2.2)).getD []))

/-- The first NaN of a stage of a request ends it: its record goes to the track ring of the unit that met it, and is counted, R107, R109. -/
def stageNan {α : Type} (r : Request) (unit site operand fmt layer tile row col bits : Nat) : StageM α := do
  modify (fun s => bump .nanTraps r.tenant 1 (trackBody 6 unit r.tenant
    (nanRecord s r.id unit r.tenant site 0 operand fmt layer tile row col 0xFFFFFFFF bits 0 0) s))
  throw (.fails .nanTrap 0)

/-- A unit of a group of `n`, which one a free value: the gather engines from 0x5000, the search units from 0x6000, the select units from 0x7000. -/
def stageUnit (base n : Nat) : StageM Nat := do
  let s ← get
  let (d, s1) := drawFree s
  set s1
  pure (base + d % n)

/-- A model that a stage needs. -/
def needModel (h : Nat) : StageM Model := do
  let s ← get
  match servedModel s h with
  | none => throw (.fails .outOfRange 0)
  | some m => pure m

end Sys2Proof.Machine
end

