-- ==== Sys2Proof/Machine/ModelRows.lean ====
section
/-! DEFINITION. MODEL_LOAD, MODEL_UNLOAD, STEER_SET_LOAD, STEER_SET_DROP, PIPELINE_DEFINE: chapter 12. -/

namespace Sys2Proof.Machine

open Sys2Proof

/-- Offsets of the address fields within a layer descriptor, R181. -/
def addrOffsets : List Nat := (List.range 7).map (fun k => 16 + 8 * k) ++ (List.range 8).map (fun k => 96 + 8 * k)

/-- The address fields of a program. -/
def programAddrs (b : Bytes) : List Nat :=
  (List.range (b.length / 192)).flatMap (fun i => addrOffsets.map (fun o => fld b (192 * i + o) 8))

/-- A bound address that R352 and R353 refuse. -/
def bindingBad (layers heads a : Nat) : Bool :=
  let low := a % 2 ^ 60
  let cache := decide (layers ≤ bits a 15 8) || decide (heads ≤ bits a 7 0)
  match bindingOf a with
  | 0 => decide (2 ^ 48 ≤ low)
  | 1 => decide (2 ^ 32 ≤ low)
  | 2 | 3 => decide (2 ^ 16 ≤ low) || cache
  | 4 | 5 => decide (2 ^ 16 ≤ low) || low % 256 != 0 || decide (layers ≤ bits a 15 8)
  | 6 | 7 | 8 => low != 0
  | _ => true

/-- A chain of a program steers beyond the model's STEER_LAYERS, R353. -/
def steerBad (s : State) (m : Model) : Bool :=
  m.layers.any (fun l => ((chainOf s.compute.chains l).map (fun c => c.prologue ++ c.epilogue)).any (fun st =>
    st.any (fun x => (x.code == 0x06 || x.code == 0x13) && decide (m.steerLayers ≤ x.param0))))

/-- The checks of a model image, R351 to R353. -/
def modelImageChecks (s : State) (f : Flight) (m : Model) (len : Nat) : List (Bool × Status × Nat) :=
  let h := m.header
  let dec := m.kind == 2
  let enc := m.kind == 0
  let unused := (!dec && (m.kvFmt != 0 || m.kvLayers != 0 || m.kvHeads != 0 || m.headDim != 0)) || (!enc && m.pool != 0)
  [lengthIf (len != 64 + 192 * m.progLen) 8,
   badParamIf (fld h 0 4 != 0x4C444F4D || fld h 4 2 != 1 || decide (2 < m.kind) || unused) 0,
   badParamIf (decide (15 < m.kvFmt) || !zeroAt h 41 7 || !zeroAt h 56 8 || bits m.numeric 3 2 == 3) 0,
   badParamIf ((programAddrs m.program).any (bindingBad m.kvLayers m.kvHeads)) 0,
   badParamIf ((List.range m.progLen).any (fun i => descReservedBad m.program (192 * i))) 0,
   badParamIf (dec && decide (524288 < 2 * m.kvHeads * m.headDim * fmtBits (m.kvFmt % 16))) 0,
   badParamIf (steerBad s m) 0,
   rangeIf (dec && (m.kvLayers == 0 || decide (256 < m.kvLayers) || m.kvHeads == 0 || decide (256 < m.kvHeads)
     || decide (m.headDim < 32) || decide (512 < m.headDim) || m.headDim % 32 != 0)) 0,
   rangeIf (decide (127 < m.steerLayers)) 0,
   rangeIf (if enc then decide (m.outWidth < 64) || decide (4096 < m.outWidth) || m.outWidth % 32 != 0
     else if dec then decide (m.outWidth < 256) || decide (262144 < m.outWidth) else m.outWidth != 1) 0,
   rangeIf (m.maxCtx == 0 || decide (1048576 < m.maxCtx) || m.progLen == 0 || decide (4096 < m.progLen)) 0,
   rangeIf (decide (fld h 32 4 < 64) || decide (1048576 < fld h 32 4) || fld h 32 4 % 64 != 0 || decide (2 < m.pool)) 0,
   formatIf (dec && (m.kvFmt == 0 || decide (4 < m.kvFmt))) 0,
   failIf ((programAddrs m.program).any (fun a => bindingOf a == 0 && a != 0 && !covered s f a 1)) .notPermitted 0,
   failIf ((programExtents s m).any (fun e => !covered s f e.1 e.2)) .notPermitted 0,
   unnamedIf f (tableOf s m.embedTable).isNone 0,
   failIf ((tableOf s m.embedTable).any (fun t => t.tenant != f.tenant)) .notPermitted 0,
   failIf (decide (1024 ≤ s.serve.models.length)) .tableFull 0]

/-- The model that an image spells. -/
def modelFrom (tenant : Nat) (img : Bytes) : Model := ⟨tenant, fld (sha256 img) 0 4, img.take 64, img.drop 64, false⟩

/-- The checks of MODEL_LOAD, R350, R353. -/
def modelLoadCheck (s : State) (f : Flight) : Option (Status × Nat) :=
  let len := par f 8 4
  match firstFail ([lengthIs f 16, reservedZero f 12 4] ++ extentChecks s f (par f 0 8) len 0 ++ [lengthIf (decide (len < 64)) 8]) with
  | some r => some r
  | none => match readFails s (par f 0 8) len with
    | some r => some r
    | none => firstFail (modelImageChecks s f (modelFrom f.tenant (memRead s (par f 0 8) len)) len)

/-- MODEL_LOAD, R350. -/
def modelLoadCommand : Command where
  op := .modelLoad
  changes := true
  objects := fun _ _ => []
  check := modelLoadCheck
  run := fun s f =>
    let img := memRead s (par f 0 8) (par f 8 4)
    let (h, s1) := freshHandle 1 (kkeys s.serve.models) s
    .done (setModels (kset s1.serve.models h (modelFrom f.tenant img)) s1) (okReply (toLe 4 h ++ zeros 4 ++ sha256 img))

/-- MODEL_LOAD. -/
def execModelLoad (h : Nat) (s : State) : Result := execCommand modelLoadCommand h s

/-- The tenant of the object that a handle names, by its kind, R346, R347. -/
def handleOwner (s : State) (h : Nat) : Option Nat :=
  match h / 2 ^ 28 with
  | 1 => (modelOf s h).map (·.tenant)
  | 2 => (kget s.compute.kernels h).map (·.tenant)
  | 3 => (kget s.compute.chains h).map (·.tenant)
  | 4 => (tokeniserOf s h).map (·.tenant)
  | 5 => ((kget s.text.stops h).filter (fun x => !x.dropped)).map (·.tenant)
  | 6 => ((kget s.text.grammars h).filter (fun x => !x.dropped)).map (·.tenant)
  | 8 => (kget s.serve.images h).map (·.tenant)
  | _ => none

/-- A handle is unloaded, R347. -/
def unloadHandle (h : Nat) (s : State) : State :=
  match h / 2 ^ 28 with
  | 1 => setModels (s.serve.models.map (fun p => if p.1 = h then (p.1, { p.2 with dropped := true }) else p)) s
  | 2 => { s with compute := { s.compute with kernels := kdel s.compute.kernels h } }
  | 3 => { s with compute := { s.compute with chains := kdel s.compute.chains h } }
  | 4 => setText { s.text with tokenisers := s.text.tokenisers.map (fun p => if p.1 = h then (p.1, { p.2 with dropped := true }) else p) } s
  | 5 => setText { s.text with stops := s.text.stops.map (fun p => if p.1 = h then (p.1, { p.2 with dropped := true }) else p) } s
  | 6 => setText { s.text with grammars := s.text.grammars.map (fun p => if p.1 = h then (p.1, { p.2 with dropped := true }) else p) } s
  | 8 => match kget s.serve.images h with
    | none => s
    | some x => releaseFrames x.tenant x.pages.frames { s with serve := { s.serve with images := kdel s.serve.images h } }
  | _ => s

/-- MODEL_UNLOAD, R347: admitted commands that name the handle complete, R175, R188, R323; those that were taken earlier or have begun are waited for. -/
def modelUnloadCommand : Command where
  op := .modelUnload
  changes := true
  objects := fun _ f => [⟨.handle, par f 0 4⟩]
  check := fun s f => firstFail ([lengthIs f 8, badParamIf (par f 0 4 / 2 ^ 28 == 7) 0, reservedZero f 4 4]
    ++ handleChecks f (handleOwner s (par f 0 4)) 0)
  staged := fun _ f => firstFail [lengthIs f 8, badParamIf (par f 0 4 / 2 ^ 28 == 7) 0, reservedZero f 4 4]
  waits := fun s f => s.proto.flights.any (fun g => (decide (g.serial < f.serial) || g.begun) && needsHandle (par f 0 4) g)
  run := fun s f => .done (reapServed (unloadHandle (par f 0 4) s)) (okReply [])

/-- MODEL_UNLOAD. -/
def execModelUnload (h : Nat) (s : State) : Result := execCommand modelUnloadCommand h s

/-- FP32 bits that are a NaN or infinite. -/
def f32Bad (c : Nat) : Bool := !numIsFin (decodeNum 0 c)

/-- The checks of a steering set, R376, R377. -/
def steerImageChecks (s : State) (img : Bytes) : List (Bool × Status × Nat) :=
  let layers := fld img 4 2
  [lengthIf (img.length != 16 + 128 * layers) 8,
   badParamIf (!zeroAt img 6 2 || !zeroAt img 12 4 || f32Bad (fld img 8 4)
     || (unpack 16 (64 * layers) (img.drop 16)).any (fun c => !numIsFin (decodeNum 1 c))) 0,
   rangeIf (layers == 0 || decide (127 < layers)) 0,
   failIf (decide (65536 ≤ s.compute.steers.length)) .tableFull 0]

/-- The checks of STEER_SET_LOAD, R377. -/
def steerLoadCheck (s : State) (f : Flight) : Option (Status × Nat) :=
  let len := par f 8 4
  match firstFail ([lengthIs f 16, reservedZero f 12 4] ++ extentChecks s f (par f 0 8) len 0 ++ [lengthIf (decide (len < 16)) 8]) with
  | some r => some r
  | none => match readFails s (par f 0 8) len with
    | some r => some r
    | none => firstFail (steerImageChecks s (memRead s (par f 0 8) len))

/-- A steering set takes the lowest free index and storage in Tier 1, R377: its index; none where the quota or the indexes are exhausted. -/
def addSteer (tenant : Nat) (img : Bytes) (s : State) : Option (Nat × State) :=
  match takeTables tenant img.length s, firstFree (kkeys s.compute.steers) 0 65536 with
  | .ok (base, s1), some i =>
    let x : SteerSet := ⟨tenant, fld img 0 4, fld img 4 2, fld img 8 4, img.drop 16, base, false⟩
    some (i, { s1 with compute := { s1.compute with steers := kset s1.compute.steers i x } })
  | _, _ => none

/-- STEER_SET_LOAD, R377. -/
def steerSetLoadCommand : Command where
  op := .steerSetLoad
  changes := true
  objects := fun _ f => [⟨.tierQuota, f.tenant⟩]
  changed := fun _ _ => []
  held := fun _ f => [⟨.tierQuota, f.tenant⟩]
  check := steerLoadCheck
  staged := fun _ f => firstFail [lengthIs f 16, reservedZero f 12 4, lengthIf (decide (par f 8 4 < 16)) 8]
  run := fun s f =>
    match addSteer f.tenant (memRead s (par f 0 8) (par f 8 4)) s with
    | none => .reject .noResource 0
    | some (i, s1) => .done s1 (okReply (toLe 4 i ++ zeros 4))

/-- STEER_SET_LOAD. -/
def execSteerSetLoad (h : Nat) (s : State) : Result := execCommand steerSetLoadCommand h s

/-- A steering set that commands may name. -/
def steerOf (s : State) (i : Nat) : Option SteerSet := (kget s.compute.steers i).filter (fun x => !x.dropped)

/-- STEER_SET_DROP, R377. -/
def steerSetDropCommand : Command where
  op := .steerSetDrop
  changes := true
  objects := fun _ f => [⟨.steer, par f 0 4⟩]
  check := fun s f => firstFail ([lengthIs f 8, reservedZero f 4 4, rangeIf (decide (65535 < par f 0 4)) 0]
    ++ handleChecks f ((steerOf s (par f 0 4)).map (·.tenant)) 0)
  staged := fun _ f => firstFail [lengthIs f 8, reservedZero f 4 4, rangeIf (decide (65535 < par f 0 4)) 0]
  run := fun s f =>
    .done (reapServed { s with compute := { s.compute with steers := s.compute.steers.map (fun p =>
      if p.1 = par f 0 4 then (p.1, { p.2 with dropped := true }) else p) } }) (okReply [])

/-- STEER_SET_DROP. -/
def execSteerSetDrop (h : Nat) (s : State) : Result := execCommand steerSetDropCommand h s

/-- The pipeline that a descriptor spells. -/
def pipelineOf (f : Flight) (template : Bytes) : Pipeline := ⟨par f 4 2, f.params, template⟩

/-- Stages of a pipeline that run under it, R355. -/
def hasRetrieval (p : Pipeline) : Bool := decide (p.kind ≤ 1)
def hasPrefill (p : Pipeline) : Bool := (p.kind == 1 && p.local) || p.kind == 2 || p.kind == 3
def hasDecode (p : Pipeline) : Bool := ((p.kind == 1 || p.kind == 2) && p.local) || p.kind == 4

/-- A field that no stage of a pipeline uses is not as R355 says. -/
def unusedBad (f : Flight) (p : Pipeline) : Bool :=
  let none' := fun o => par f o 4 != 0xFFFFFFFF
  let zero := fun o n => par f o n != 0
  (!hasRetrieval p && (none' 16 || none' 20 || none' 24 || zero 28 4 || none' 32 || zero 36 4 || zero 40 4 || zero 44 4 || zero 58 2 || zero 72 8))
    || (!(hasPrefill p || hasDecode p) && none' 48)
    || (!hasDecode p && (none' 52 || zero 56 1 || none' 64 || bitOf (par f 3 1) 0))

/-- A count of a pipeline outside its range, R354. -/
def pipelineRangeBad (f : Flight) (p : Pipeline) : Bool :=
  let out := fun v lo hi => decide (v < lo) || decide (hi < v)
  (hasRetrieval p && (out p.searchK 1 65536 || out p.rerankN 1 p.searchK || out p.packN 1 (min p.rerankN 256) || out p.budget 1 1048576
      || out (par f 58 2) 1 256))
    || (hasDecode p && (decide (8 < p.draftN) || (p.draft == 0xFFFFFFFF && p.draftN != 0)))
    || out p.maxNew 1 1048576 || out p.deadline 1 60000000000

/-- The template of a pipeline as it stands in memory. -/
def templateOf (s : State) (f : Flight) : Bytes := memRead s (par f 72 8) (32 * par f 58 2)

/-- The segments of a template. -/
def templateSegs (b : Bytes) : List PackDesc := (List.range (b.length / 32)).map (fun i => packDescAt b (32 * i))

/-- A template that breaks R333 or R356. -/
def templateBad (s : State) (g : Flight) (b : Bytes) : Bool :=
  let ds := templateSegs b
  let kinds := fun k => (ds.filter (fun d => d.kind == k)).length
  decide (1 < kinds 0x80) || decide (1 < kinds 0x81) || ds.any (fun d =>
    let plain := decide (d.kind ≤ 2)
    (!plain && d.kind != 0x80 && d.kind != 0x81) || decide (7 < d.flags) || bits d.flags 2 1 == 3 || d.maxTok == 0 || decide (1048576 < d.maxTok)
      || decide (d.maxTok < d.minKeep) || !d.reserved || (d.kind == 1 && decide (4194304 < d.len))
      || (plain && packSource d != 0 && (firstFail (extentChecks s g d.src (packSource d) 0)).isSome))

/-- A model of a pipeline: it exists, is of its tenant and of a kind. -/
def pipeModelChecks (s : State) (f : Flight) (tenant kind off : Nat) : List (Bool × Status × Nat) :=
  let m := modelOf s (par f off 4)
  [rangeIf m.isNone off, failIf (m.any (fun x => x.tenant != tenant)) .notPermitted 0, badParamIf (m.any (fun x => x.kind != kind)) off]

/-- An object of a pipeline: it exists and is of its tenant. -/
def pipeOwnerChecks (tenant : Nat) (owner : Option Nat) (off : Nat) : List (Bool × Status × Nat) :=
  [rangeIf owner.isNone off, failIf (owner.any (· != tenant)) .notPermitted 0]

/-- TOK_TAG of a tokeniser. -/
def tokTag (s : State) (h : Nat) : Option Nat := (kget s.text.tokenisers h).map (·.tag)

/-- The checks of the objects a pipeline names, R355, R357. -/
def pipelineObjectChecks (s : State) (f : Flight) (p : Pipeline) : List (Bool × Status × Nat) :=
  let t := p.tenant
  let optional := fun (o : Nat) (l : List (Bool × Status × Nat)) => if par f o 4 = 0xFFFFFFFF then [] else l
  let stop := kget s.text.stops p.stop
  let gram := kget s.text.grammars p.grammar
  pipeOwnerChecks t (handleOwner s (if p.tokeniser / 2 ^ 28 = 4 then p.tokeniser else 0)) 12
    ++ (if hasRetrieval p then pipeModelChecks s f t 0 16 ++ optional 20 (pipeOwnerChecks t ((tableOf s p.sparse).map (·.tenant)) 20)
          ++ pipeOwnerChecks t ((indexOf s p.index).map (·.tenant)) 24 ++ pipeModelChecks s f t 1 32 else [])
    ++ (if hasPrefill p || hasDecode p then pipeModelChecks s f t 2 48 else [])
    ++ (if hasDecode p then optional 52 (pipeModelChecks s f t 2 52
          ++ [badParamIf (((modelOf s p.draft).map (·.outWidth)) != ((modelOf s p.decoder).map (·.outWidth))) 52])
          ++ optional 64 (pipeOwnerChecks t (handleOwner s (if p.grammar / 2 ^ 28 = 6 then p.grammar else 0)) 64
          ++ [badParamIf ((gram.map (fun x => fld x.image 28 4)) != tokTag s p.tokeniser) 64]) else [])
    ++ optional 60 (pipeOwnerChecks t (handleOwner s (if p.stop / 2 ^ 28 = 5 then p.stop else 0)) 60
          ++ [badParamIf ((stop.bind (fun x => tokTag s x.tok)) != tokTag s p.tokeniser) 60])

/-- DELETE of a PIPELINE_DEFINE, R354. -/
def pipeDeletes (f : Flight) : Bool := bitOf (par f 3 1) 1

/-- The length and the reserved bytes of a PIPELINE_DEFINE, R354. -/
def pipelineShape (f : Flight) : List (Bool × Status × Nat) :=
  [lengthIs f 96, badParamIf (decide (4095 < par f 0 2)) 0, badParamIf (decide (3 < par f 3 1)) 3, reservedZero f 10 2,
    reservedZero f 57 1, reservedZero f 88 8]

/-- The fields of a pipeline, R354, R355, R357. -/
def pipelineFields (f : Flight) : List (Bool × Status × Nat) :=
  let p := pipelineOf f []
  [failIf (par f 4 2 == 0) .notPermitted 0, badParamIf (decide (4 < p.kind)) 2,
    badParamIf (p.kind != 1 && p.kind != 2 && !p.local) 6, badParamIf ((p.local && p.nextPipe != 0) || decide (4095 < p.nextPipe)) 8,
    badParamIf (unusedBad f p) 12, badParamIf (pipelineRangeBad f p) 28]

/-- The configuration objects that a pipeline names and does not change, R67. -/
def pipelineReads (f : Flight) : List Obj :=
  ((namedHandles f).filter (· != 0xFFFFFFFF)).map (⟨.handle, ·⟩)
    ++ (if par f 20 4 = 0xFFFFFFFF then [] else [⟨.table, par f 20 4⟩]) ++ (if par f 24 4 = 0xFFFFFFFF then [] else [⟨.index, par f 24 4⟩])

/-- The checks of PIPELINE_DEFINE, R354 to R357; with DELETE the fields must still be as R354 and R355 say, and the objects they name are not looked at. -/
def pipelineCheck (s : State) (f : Flight) : Option (Status × Nat) :=
  let p := pipelineOf f []
  let next := p.nextMember
  match lengthFault (firstFail (pipelineShape f)), firstFail (oneModule s f :: pipelineShape f) with
  | true, _ => firstFail (pipelineShape f)
  | false, some r => some r
  | false, none =>
    let fields := pipelineFields f
    if pipeDeletes f then firstFail (fields ++ [rangeIf (!khas s.serve.pipelines (par f 0 2)) 0])
    else match firstFail (fields ++ [rangeIf (!p.local && !khas s.fabric.view.modules next) 6]
        ++ pipelineObjectChecks s f p
        ++ (if hasRetrieval p then
              [rangeIf (!inTiers s.tiers (par f 72 8) (32 * par f 58 2)) 72,
               failIf (!covered s f (par f 72 8) (32 * par f 58 2) && !covered s { f with tenant := p.tenant } (par f 72 8) (32 * par f 58 2)) .notPermitted 0]
            else [])) with
      | some r => some r
      | none =>
        if hasRetrieval p then
          match readFails s (par f 72 8) (32 * par f 58 2) with
          | some r => some r
          | none => firstFail [badParamIf (templateBad s { f with tenant := p.tenant } (templateOf s f)) 72]
        else none

/-- PIPELINE_DEFINE, R354. -/
def pipelineCommand : Command where
  op := .pipelineDefine
  changes := true
  objects := fun _ f => ⟨.pipeline, par f 0 2⟩ :: (if pipeDeletes f then [] else pipelineReads f)
  changed := fun _ f => [⟨.pipeline, par f 0 2⟩]
  check := pipelineCheck
  staged := fun _ f => firstFail (pipelineShape f ++ pipelineFields f)
  run := fun s f =>
    let id := par f 0 2
    let pipes := if pipeDeletes f then kdel s.serve.pipelines id
      else kset s.serve.pipelines id (pipelineOf f (if hasRetrieval (pipelineOf f []) then templateOf s f else []))
    .done { s with serve := { s.serve with pipelines := pipes } } (okReply [])

/-- PIPELINE_DEFINE that defines. -/
def execPipelineDefine (h : Nat) (s : State) : Result := ofForm (fun f => !pipeDeletes f) h s (execCommand pipelineCommand h)

/-- PIPELINE_DEFINE that deletes. -/
def execPipelineDelete (h : Nat) (s : State) : Result := ofForm pipeDeletes h s (execCommand pipelineCommand h)

end Sys2Proof.Machine
end

