-- ==== Sys2Proof/Machine/RequestRows.lean ====
section
/-! DEFINITION. REQUEST_SUBMIT, REQUEST_CANCEL, REQUEST_STATUS, KV_EXPORT, KV_IMPORT: R358 to R363, R369, R370, R381, R382. -/

namespace Sys2Proof.Machine

open Sys2Proof

/-- Roles as ROLE_SET codes them that admit a pipeline of a kind, R349: RETRIEVE 0, PREFILL 1, DECODE 2, COMBINED 3. -/
def roleAdmits (role : Option Nat) (kind : Nat) (local' : Bool) : Bool :=
  match role with
  | some 3 => true
  | some 0 => kind == 0 || (kind == 1 && !local')
  | some 1 => (kind == 2 && !local') || kind == 3
  | some 2 => kind == 4
  | _ => false

/-- The role that a peer last reported, R446; this module's own. -/
def roleOf (s : State) (m : Nat) : Option Nat := if m = s.fabric.view.self then s.role else ((kget s.fabric.peers m).map (·.role)).filter (· != 0xFF)

/-- A role admits an inbound prompt, or an inbound key/value handover, R349. -/
def admitsPrompt (role : Option Nat) : Bool := role == some 1 || role == some 3
def admitsKv (role : Option Nat) : Bool := role == some 2 || role == some 3

/-- The role of this module and of the pipeline's NEXT_MEMBER admit a request, R349; a next member of unknown role is judged at the handover. -/
def submitAdmits (s : State) (p : Pipeline) : Bool :=
  roleAdmits s.role p.kind p.local &&
    (s.role == some 3 || p.local || (match roleOf s p.nextMember with
      | none => true
      | some q => if p.kind = 1 then admitsPrompt (some q) else admitsKv (some q)))

/-- RFLAGS of a REQUEST_SUBMIT. -/
def submitTokens (f : Flight) : Bool := bitOf (par f 2 1) 0
def submitKv (f : Flight) : Bool := bitOf (par f 2 1) 2

/-- The pipeline that a REQUEST_SUBMIT names. -/
def submitPipe (s : State) (f : Flight) : Option Pipeline := kget s.serve.pipelines (par f 0 2)

/-- The key/value image that a REQUEST_SUBMIT names. -/
def submitImage (s : State) (f : Flight) : Option KvImage := if submitKv f then kget s.serve.images (par f 8 4) else none

/-- Bytes of the input of a REQUEST_SUBMIT. -/
def inputBytes (f : Flight) : Nat := if submitKv f then 0 else if submitTokens f then 4 * par f 16 4 else par f 16 4

/-- What decoding a request's text counts: its bytes and the replacements made, R328, R345. -/
def inputCounts (tenant : Nat) (b : Bytes) : List (Ctr × Nat × Nat) :=
  [(.txtInBytes, tenant, b.length), (.utf8Replaced, tenant, badChars (utf8Repair b true).1)]

/-- The tokens of an input, R329: given, or those of its text. -/
def inputTokens (s : State) (p : Pipeline) (tokens : Bool) (addr len : Nat) : List Nat :=
  if tokens then unpack 32 len (memRead s addr (4 * len))
  else (tokenizeText (tokImage s p.tokeniser) false (memRead s addr len)).1.map (·.1)

/-- P of a request as far as its submission tells, and MAX_NEW in force. -/
def submitPrompt (s : State) (f : Flight) (p : Pipeline) : Option Nat :=
  match submitImage s f with
  | some x => some (x.positions + 1)
  | none => if p.kind = 2 ∨ p.kind = 3 then some (inputTokens s p (submitTokens f) (par f 8 8) (par f 16 4)).length else none

/-- MAX_NEW and DEADLINE_NS in force, R358. -/
def submitMaxNew (f : Flight) (p : Pipeline) : Nat := if par f 20 4 = 0 then p.maxNew else par f 20 4
def submitDeadline (f : Flight) (p : Pipeline) : Nat := if par f 64 8 = 0 then p.deadline else par f 64 8

/-- A pipeline names an object that has been unloaded, R347. -/
def pipelineGone (s : State) (p : Pipeline) : Bool :=
  let gone := fun (h : Nat) => h != 0xFFFFFFFF && (handleOwner s h).isNone
  gone p.tokeniser || gone p.stop || gone p.encoder || gone p.scorer || gone p.decoder || gone p.draft || gone p.grammar
    || (hasRetrieval p && ((indexOf s p.index).isNone || (p.sparse != 0xFFFFFFFF && (tableOf s p.sparse).isNone)))

/-- A steering set does not fit the model it is to steer, R359, R376: judged where the model is on this module. -/
def steerMismatch (s : State) (p : Pipeline) (i : Nat) : Bool :=
  match steerOf s i, modelOf s p.decoder with
  | some x, some m => x.tag != m.tag || x.layers != m.steerLayers
  | _, _ => false

/-- A stream cannot be taken by a request, R359. -/
def streamTaken (s : State) (f : Flight) : Bool :=
  par f 40 4 != 0xFFFFFFFF && (kget s.text.streams (par f 40 4)).any (fun x => x.tenant == f.tenant && (x.fed || x.request.isSome))

/-- A temperature or TOP_P outside its range, R359. -/
def samplingBad (temp topP : Nat) : Bool := decide (2 ^ 31 ≤ temp) || f32Bad temp || topP == 0 || decide (0x3F800000 < topP)

/-- OUT_CAP that RETRIEVE needs, R359. -/
def outNeed (p : Pipeline) : Nat := ceilDiv (4 * p.budget) 64 * 64 + 16 * p.packN

/-- The checks of REQUEST_SUBMIT before budget and contract, R359, in the order of its table. -/
def submitChecks (s : State) (f : Flight) : Option (Status × Nat) :=
  let kv := submitKv f
  let p := (submitPipe s f).filter (fun x => x.tenant == f.tenant)
  let kindIs := fun (k : Nat) => p.any (fun x => x.kind == k)
  let img := (submitImage s f).filter (fun x => x.tenant == f.tenant)
  match firstFail [lengthIs f 80, badParamIf (decide (7 < par f 2 1)) 2, reservedZero f 3 1, reservedZero f 46 2, reservedZero f 72 8,
      failIf (s.serve.requests.any (fun r => r.tenant == f.tenant && isEntry s r && r.id == f.hdr.commandId)) .badParam 8,
      badParamIf (samplingBad (par f 24 4) 0x3F800000) 24, badParamIf (samplingBad 0 (par f 28 4)) 28, badParamIf (par f 32 4 == 0) 32,
      badParamIf (par f 44 2 == 0) 44, badParamIf (p.isSome && (kv != kindIs 4)) 2, badParamIf (kv && par f 12 4 != 0) 8,
      badParamIf (kv && par f 16 4 != 0) 16, badParamIf (p.isSome && !kindIs 0 && par f 52 4 != 0) 52,
      badParamIf (p.isSome && !kindIs 0 && par f 56 8 != 0) 56, badParamIf (streamTaken s f) 40,
      lengthIf (kindIs 0 && p.any (fun x => decide (par f 52 4 < outNeed x))) 52, lengthIf (!kv && par f 16 4 == 0) 16,
      lengthIf (!kv && !submitTokens f && decide (4194304 < par f 16 4)) 16,
      rangeIf (decide (4095 < par f 0 2)) 0, rangeIf (decide (1048576 < par f 20 4)) 20, rangeIf (decide (65536 < par f 32 4)) 32,
      rangeIf (decide (256 < par f 44 2)) 44, rangeIf (decide (1000000 < par f 48 4)) 48, rangeIf (decide (60000000000 < par f 64 8)) 64] with
  | some r => some r
  | none =>
    let steer := par f 4 4
    let stream := par f 40 4
    match firstFail (handleChecks f ((submitPipe s f).map (·.tenant)) 0
      ++ (if stream = 0xFFFFFFFF then [] else handleChecks f ((kget s.text.streams stream).map (·.tenant)) 40)
      ++ (if steer = 0xFFFFFFFF then [] else rangeIf (decide (65535 < steer)) 4 :: handleChecks f ((steerOf s steer).map (·.tenant)) 4)
      ++ (if kv then handleChecks f ((submitImage s f).map (·.tenant)) 8 else [])), p with
    | some r, _ => some r
    | none, none => some (.notPermitted, 0)
    | none, some x =>
      let need := (submitPrompt s f x).map (fun n => pagesNeeded s x n (submitMaxNew f x))
      firstFail ([rangeIf (pipelineGone s x) 0]
        ++ (if kv then [] else extentChecks s f (par f 8 8) (inputBytes f) 8)
        ++ (if x.kind = 0 then extentChecks s f (par f 56 8) (par f 52 4) 56 else [])
        ++ [failIf (!submitAdmits s x) .notPermitted 0,
            failIf (need.any (overFrames s f.tenant)) .notPermitted 0,
            failIf (decide (65536 ≤ s.serve.requests.length)) .tableFull 0,
            failIf (stream == 0xFFFFFFFF && decide (65536 ≤ s.text.streams.length)) .tableFull 0,
            badParamIf (img.any (fun i => (modelOf s x.decoder).any (fun m => m.tag != i.tag || m.kvLayers != i.layers || m.kvHeads != i.heads
              || m.headDim != i.headDim || m.kvFmt != i.fmt))) 8,
            badParamIf (steer != 0xFFFFFFFF && steerMismatch s x steer) 4])

/-- The contract refuses a request as excess: the allowed rate, R407. -/
def contractRefuses (s : State) (f : Flight) : Option Nat :=
  match kget s.sched.contracts f.tenant, coverage s f.tenant with
  | some c, some false => if c.refuse then some c.allowed else none
  | _, _ => none

/-- The checks of REQUEST_SUBMIT, R359, R403, R407. -/
def submitCheck (s : State) (f : Flight) : Option (Status × Nat) :=
  match submitChecks s f with
  | some r => some r
  | none => match budgetRefuses s f.tenant with
    | some d => some (.budgetExhausted, d)
    | none => (contractRefuses s f).map (fun a => (.admissionRefused, a))

/-- The entry of an admitted request. -/
def submittedRequest (s : State) (f : Flight) (p : Pipeline) (stream : Nat) : Request where
  serial := f.serial
  tenant := f.tenant
  entry := s.fabric.view.self
  id := f.hdr.commandId
  session := f.hdr.sessionId
  params := f.params
  pipe := p
  state := .queued
  arrival := f.taken
  deadline := submitDeadline f p
  maxNew := submitMaxNew f p
  prio := f.hdr.prio
  covered := (coverage s f.tenant).getD false
  query := []
  passages := 0
  searchN := 0
  short := false
  prompt := []
  promptTokens := ((submitImage s f).map (fun x => x.positions + 1)).getD 0
  searching := false
  firstStage := none
  rtp := none
  pageWait := false
  budgetWait := false
  ringWait := false
  kv := (submitImage s f).map (·.pages)
  draftKv := none
  position := ((submitImage s f).map (·.positions)).getD 0
  last := ((submitImage s f).map (·.last)).getD 0
  gram := gramStart ((((kget s.text.grammars p.grammar).map (·.image)).getD []))
  backlog := []
  tailEnd := none
  ahead := 0
  consumed := 0
  proposed := 0
  accepted := 0
  chunkTokens := []
  chunkText := []
  chunkSeq := 0
  chunkSince := 0
  chunkHeld := true
  ttft := none
  lastStep := none
  stream := stream
  steer := par f 4 4
  ended := none
  holder := s.fabric.view.self
  holderPages := 0
  attempt := 0
  channel := 0
  shipTo := none
  shipped := false
  decided := none
  stepTokens := 0

/-- The stream of a request: the one it names, or one opened from its pipeline, R358. -/
def submitStream (s : State) (f : Flight) (p : Pipeline) : Nat × State :=
  let given := par f 40 4
  let (h, s1) := if given = 0xFFFFFFFF then freshHandle 7 (kkeys s.text.streams) s else (given, s)
  let fresh : Stream := ⟨f.tenant, p.tokeniser, if p.stop = 0xFFFFFFFF then none else some p.stop, false, false, [], [], false, none⟩
  let x := (kget s.text.streams given).getD fresh
  (h, setText { s1.text with streams := kset s1.text.streams h { x with request := some f.serial } } s1)

/-- A request is admitted, R359, R403, R407. -/
def submitRun (s : State) (f : Flight) : Verdict :=
  match submitPipe s f with
  | none => .reject .outOfRange 48
  | some p =>
    let (h, s1) := submitStream s f p
    let r := submittedRequest s f p h
    let images := if submitKv f then kdel s1.serve.images (par f 8 4) else s1.serve.images
    let s2 := addRequest r { s1 with serve := { s1.serve with images := images } }
    let s3 := match budgetOf s2 f.tenant with
      | none => s2
      | some b => setBudget f.tenant { b with admitted := b.admitted + 1 } s2
    .begun (bump .reqAdmitted f.tenant 1 (if r.covered then admitCovered f.tenant f.taken s3 else s3))

/-- REQUEST_SUBMIT, R358, R359. -/
def requestSubmitCommand : Command where
  op := .requestSubmit
  changes := false
  objects := fun _ _ => []
  check := submitCheck
  run := submitRun

/-- REQUEST_SUBMIT. -/
def execRequestSubmit (h : Nat) (s : State) : Result := execEntry requestSubmitCommand h s

/-- The request that a REQUEST_CANCEL or REQUEST_STATUS names, R381. -/
def namedRequest (s : State) (f : Flight) : Option Request := requestKeyed s (par f 8 2) s.fabric.view.self (par f 0 8)

/-- The checks of REQUEST_CANCEL and REQUEST_STATUS, R381, R382. -/
def namedRequestCheck (s : State) (f : Flight) : Option (Status × Nat) :=
  firstFail [lengthIs f 16, reservedZero f 10 6, failIf (f.tenant != 0 && par f 8 2 != f.tenant) .notPermitted 0,
    unnamedIf f (namedRequest s f).isNone 0]

/-- REQUEST_CANCEL: the end is decided at once, this step boundary being the next one, R381. -/
def requestCancelCommand : Command where
  op := .requestCancel
  changes := false
  objects := fun _ _ => []
  check := namedRequestCheck
  run := fun s f =>
    match namedRequest s f with
    | none => .reject .outOfRange 48
    | some r =>
      if r.state = .ending then .done s (okReply (toLe 1 1 ++ zeros 7))
      else .done (endRequest r ⟨7, .cancelled, 0, 0xFFFF⟩ s) (okReply (zeros 8))

/-- REQUEST_CANCEL. -/
def execRequestCancel (h : Nat) (s : State) : Result := execEntry requestCancelCommand h s

/-- The code of a request's state, R360. -/
def ReqState.code : ReqState → Nat
  | .queued => 0
  | .retrieving => 1
  | .prefilling => 2
  | .shipping => 3
  | .held => 4
  | .decoding => 5
  | .ending => 6

/-- Pages reserved for a request on the member that runs its stage. -/
def requestPages (s : State) (r : Request) : Nat :=
  if r.holder = s.fabric.view.self then framesOf r.kv + framesOf r.draftKv else r.holderPages

/-- REQUEST_STATUS, R382. -/
def requestStatusCommand : Command where
  op := .requestStatus
  changes := false
  objects := fun _ _ => []
  check := namedRequestCheck
  run := fun s f =>
    match namedRequest s f with
    | none => .reject .outOfRange 48
    | some r => .done s (okReply (toLe 1 r.state.code ++ toLe 1 ((r.ended.map (·.reason)).getD 0xFF) ++ zeros 2 ++ toLe 2 r.holder ++ zeros 2
        ++ toLe 4 r.promptTokens ++ toLe 4 r.consumed ++ toLe 4 (requestPages s r) ++ zeros 4 ++ toLe 8 r.arrival))

/-- REQUEST_STATUS. -/
def execRequestStatus (h : Nat) (s : State) : Result := execEntry requestStatusCommand h s

/-- Pages of a layer that an image of so many positions holds, R369. -/
def imagePages (positions slots : Nat) : Nat := ceilDiv positions slots

/-- A key/value image, R369. -/
def kvImageBytes (m : Model) (r : Request) (cells : Memory) : Bytes :=
  let n := r.promptTokens - 1
  let pages := imagePages n m.slots
  toLe 4 0x4D49564B ++ toLe 2 1 ++ toLe 2 m.kvLayers ++ toLe 4 m.tag ++ toLe 4 n ++ toLe 4 r.last ++ toLe 2 m.kvHeads ++ toLe 2 m.headDim
    ++ toLe 1 m.kvFmt ++ zeros 3 ++ toLe 4 pages ++ zeros 32
    ++ (List.range m.kvLayers).flatMap (fun l => (List.range pages).flatMap (fun p => Memory.readN cells (l * 2 ^ 40 + p * 2 ^ 16) 65536))

/-- Bytes of a request's key/value image. -/
def exportLen (m : Model) (r : Request) : Nat := 64 + m.kvLayers * imagePages (r.promptTokens - 1) m.slots * 65536

/-- The request of a KV_EXPORT with its model. -/
def exported (s : State) (f : Flight) : Option (Request × Model) :=
  (requestKeyed s f.tenant s.fabric.view.self (par f 0 8)).bind (fun r => (servedModel s r.pipe.decoder).map (fun m => (r, m)))

/-- KV_EXPORT, R369. -/
def kvExportCommand : Command where
  op := .kvExport
  changes := false
  objects := fun _ _ => []
  check := fun s f =>
    match firstFail [lengthIs f 24, rangeIf (par f 8 8 % 64 != 0) 8, failIf (s.role != some 1 && s.role != some 3) .notPermitted 0,
        unnamedIf f (exported s f).isNone 0], exported s f with
    | some r, _ => some r
    | none, none => none
    | none, some (r, m) => firstFail ([failIf (decide (r.state ≠ .held)) .notPermitted 0, lengthIf (decide (par f 16 8 < exportLen m r)) 16]
        ++ extentChecks s f (par f 8 8) (exportLen m r) 8)
  run := fun s f =>
    match exported s f with
    | none => .reject .outOfRange 48
    | some (r, m) =>
      commitVerdict f [(par f 8 8, kvImageBytes m r ((r.kv.map (·.cells)).getD []))] s (fun s1 =>
        .done (endRequest r ⟨6, .ok, 0, 0xFFFF⟩ s1) (okReply []))

/-- KV_EXPORT. -/
def execKvExport (h : Nat) (s : State) : Result := execEntry kvExportCommand h s

/-- A byte of a page that R365 and R370 require to be zero is not: a slot at or beyond the positions, or past the values. -/
def pageDirty (heads headDim w slots left : Nat) (page : Bytes) : Bool :=
  let half := heads * slots * headDim
  (page.zipIdx).any (fun p =>
    let e := p.2 / w
    let used := if e < half then decide (e / headDim % slots < left) else decide (e < 2 * half) && decide ((e - half) % slots < left)
    p.1 != 0 && !used)

/-- The checks of a key/value image, R370. -/
def kvImageChecks (img : Bytes) : List (Bool × Status × Nat) :=
  let layers := fld img 6 2
  let n := fld img 12 4
  let heads := fld img 20 2
  let dim := fld img 22 2
  let fmt := fld img 24 1
  let w := kvElem fmt
  let slots := kvSlots heads dim fmt
  let pages := fld img 28 4
  [badParamIf (fld img 0 4 != 0x4D49564B || fld img 4 2 != 1 || !zeroAt img 25 3 || !zeroAt img 32 32) 0,
   badParamIf (layers == 0 || decide (256 < layers) || heads == 0 || decide (256 < heads) || decide (dim < 32) || decide (512 < dim) || dim % 32 != 0
     || fmt == 0 || decide (4 < fmt) || decide (524288 < 2 * heads * dim * fmtBits fmt) || decide (1048575 < n)) 0,
   badParamIf (pages != imagePages n slots) 0,
   lengthIf (img.length != 64 + layers * pages * 65536) 8,
   badParamIf ((List.range (layers * pages)).any (fun i => pageDirty heads dim w slots (n - i % pages * slots) (slice img (64 + 65536 * i) 65536))) 0]

/-- The pages of a key/value image as cells. -/
def imageCells (img : Bytes) : Memory :=
  let pages := fld img 28 4
  (List.range (fld img 6 2 * pages)).foldl (fun m i => Memory.writeN m (i / pages * 2 ^ 40 + i % pages * 2 ^ 16) (slice img (64 + 65536 * i) 65536)) []

/-- KV_IMPORT, R370. -/
def kvImportCommand : Command where
  op := .kvImport
  changes := false
  objects := fun _ _ => []
  check := fun s f =>
    let len := par f 8 4
    match firstFail ([lengthIs f 16, reservedZero f 12 4, failIf (s.role != some 2 && s.role != some 3) .notPermitted 0]
        ++ extentChecks s f (par f 0 8) len 0 ++ [lengthIf (decide (len < 64)) 8]) with
    | some r => some r
    | none => match readFails s (par f 0 8) len with
      | some r => some r
      | none => firstFail (kvImageChecks (memRead s (par f 0 8) len))
  run := fun s f =>
    let img := memRead s (par f 0 8) (par f 8 4)
    match findFrames (some f.serial) f.tenant (fld img 6 2 * fld img 28 4) s with
    | .waits s0 => .waitIn s0
    | .full s0 => .rejectIn s0 .noResource 0
    | .found s0 => match giveFrames f.tenant (fld img 6 2 * fld img 28 4) [0, 0, 0, 0] s0 with
    | none => .rejectIn s0 .noResource 0
    | some (frames, s1) =>
      let (h, s2) := freshHandle 8 (kkeys s1.serve.images) s1
      let x : KvImage := ⟨f.tenant, fld img 8 4, fld img 6 2, fld img 12 4, fld img 16 4, fld img 20 2, fld img 22 2, fld img 24 1, ⟨frames, imageCells img⟩⟩
      .done { s2 with serve := { s2.serve with images := kset s2.serve.images h x } } (okReply (toLe 4 h ++ zeros 4))

/-- KV_IMPORT. -/
def execKvImport (h : Nat) (s : State) : Result := execEntry kvImportCommand h s

end Sys2Proof.Machine
end

