-- ==== Sys2Proof/Machine/SelectRows.lean ====
section
/-! DEFINITION. Selection and merging as commands: SELECT_TOPK, SELECT_MERGE, and lists that a member sends to be merged (chapter 10). -/

namespace Sys2Proof.Machine

open Sys2Proof

/-- Extents of a SELECT_TOPK: keys, payloads; entries, statistics, payload output (R308). -/
def topkInputs (f : Flight) : List (Nat × Nat × Nat) :=
  let rows := par f 0 4
  let n := par f 8 8
  let w := keyWidth (par f 70 1)
  [(par f 16 8, (if rows ≤ 1 then 0 else (rows - 1) * par f 24 8) + n * w, 16)]
    ++ (if bitOf (par f 71 1) 2 then [(par f 48 8, (rows * n - 1) * par f 64 4 + par f 68 2, 48)] else [])

/-- Output extents of a SELECT_TOPK with their parameter offsets. -/
def topkOutputs (f : Flight) : List (Nat × Nat × Nat) :=
  let rows := par f 0 4
  let k := par f 4 4
  [(par f 32 8, rows * k * 16, 32)] ++ (if par f 40 8 = 0 then [] else [(par f 40 8, rows * 8, 40)])
    ++ (if bitOf (par f 71 1) 2 then [(par f 56 8, rows * k * par f 68 2, 56)] else [])

/-- Extent checks of outputs against inputs and, where `cross`, against one another: BAD_PARAM. -/
def overlapChecks (cross : Bool) (ins outs : List (Nat × Nat × Nat)) : List (Bool × Status × Nat) :=
  outs.map (fun o => badParamIf
    ((ins ++ (if cross then outs.filter (fun x => x.2.2 != o.2.2) else [])).any (fun x => overlaps (o.1, o.2.1) (x.1, x.2.1))) o.2.2)

/-- The checks of SELECT_TOPK, R310, R320, and its deadline, R311. -/
def topkCheck (s : State) (f : Flight) : Option (Status × Nat) :=
  let rows := par f 0 4
  let k := par f 4 4
  let n := par f 8 8
  let kt := par f 70 1
  let fl := par f 71 1
  let pay := bitOf fl 2
  let len := par f 68 2
  let ins := topkInputs f
  let outs := topkOutputs f
  firstFail ([lengthIs f 88, badParamIf (rows == 0) 0, badParamIf (k == 0) 4, badParamIf (n == 0) 8,
      badParamIf (!pay && par f 48 8 != 0) 48, badParamIf (!pay && par f 56 8 != 0) 56, badParamIf (!pay && par f 64 4 != 0) 64,
      badParamIf (if pay then decide (len < 64) || decide (4096 < len) || len % 64 != 0 else len != 0) 68,
      badParamIf (!keyTypeValid kt) 70, badParamIf (decide (8 ≤ fl)) 71, badParamIf (decide (1 < par f 72 8)) 72]
    ++ overlapChecks true ins outs
    ++ [rangeIf (decide (65536 < rows)) 0, rangeIf (decide (65536 < k)) 4, rangeIf (decide (2 ^ 32 < n) || decide (2 ^ 32 < rows * n)) 8,
      rangeIf (par f 16 8 % 64 != 0) 16,
      rangeIf (decide (1 < rows) && (par f 24 8 % 64 != 0 || decide (par f 24 8 < n * keyWidth kt))) 24,
      rangeIf (par f 32 8 % 64 != 0) 32, rangeIf (pay && (par f 64 4 % 64 != 0 || decide (par f 64 4 < len))) 64,
      rangeIf (decide (60000000000 < par f 80 8)) 80,
      failIf (!(scopeModules s f.hdr).contains s.fabric.view.self) .notPermitted 0]
    ++ (ins ++ outs).flatMap (fun e => extentChecks s f e.1 e.2.1 e.2.2)
    ++ [failIf (pastDeadline s f) .deadlineMissed 0])

/-- The keys of row `j` of a SELECT_TOPK. -/
def topkKeys (s : State) (f : Flight) (j : Nat) : List Nat :=
  let w := keyWidth (par f 70 1)
  unpack (8 * w) (par f 8 8) (memRead s (par f 16 8 + j * par f 24 8) (par f 8 8 * w))

/-- A row's selection: its keys, its valid entries' number, what was chosen. -/
structure TopkRow where
  keys : List Nat
  valid : Nat
  sel : Selected
  written : List SelEntry

/-- Select one row, R303 to R307. -/
def topkRow (s : State) (f : Flight) (j : Nat) : TopkRow :=
  let kt := par f 70 1
  let fl := par f 71 1
  let keys := topkKeys s f j
  let valid := ((keys.zipIdx).filter (fun p => !keyNan kt p.1)).map (fun p => (⟨p.2, mappedKey kt p.1 (bitOf fl 0), p.2⟩ : SelEntry))
  let x := selectEntries (keyPasses kt) (par f 4 4) valid
  ⟨keys, valid.length, x, selOrder (bitOf fl 1) x.chosen⟩

/-- A NAN_TRAP of a select command, R313; which of the select units met it is a free value. -/
def selectNan (f : Flight) (fmt tile layer key : Nat) (s : State) : State :=
  let (d, s1) := drawFree s
  let unit := 0x7000 + d % 8
  nanTrap f.serial unit f.tenant
    (nanRecord s1 f.hdr.commandId unit f.tenant 6 0 0 fmt (layer % 2 ^ 32) tile 0 0 0xFFFFFFFF key 0 0) s1

/-- The status of a selection, R311: valid entries written, and the rows with fewer than K. -/
def selectReply (written short : Nat) (result : Bytes) : Reply :=
  { status := if short = 0 then .ok else .okPartial, detail := if short = 0 then 0 else written + short * 2 ^ 32, result := result }

/-- The effect of SELECT_TOPK, R311, R312. -/
def topkRun (s : State) (f : Flight) : Verdict :=
  let rows := par f 0 4
  let k := par f 4 4
  let n := par f 8 8
  let kt := par f 70 1
  let fl := par f 71 1
  let len := par f 68 2
  match readsFail s ((List.range rows).map (fun j => (par f 16 8 + j * par f 24 8, n * keyWidth kt))) with
  | some (st, d) => .begun (finish f (plainReply st d) (noteReadFail f st d s))
  | none =>
    let out := (List.range rows).map (fun j => (j, topkRow s f j))
    match (if bitOf (par f 72 8) 0 then out.findSome? (fun r =>
        ((r.2.keys.zipIdx).find? (fun p => keyNan kt p.1)).map (fun p => (r.1, p.2, p.1))) else none) with
    | some (j, i, c) => .begun (selectNan f kt j i c s)
    | none =>
      let payAt := fun (j i : Nat) => par f 48 8 + (j * n + i) * par f 64 4
      let pays := if bitOf fl 2 then out.flatMap (fun r => r.2.written.map (fun e => (payAt r.1 e.src, len))) else []
      match readsFail s pays with
      | some (st, d) => .begun (finish f (plainReply st d) (noteReadFail f st d s))
      | none =>
        let entries := fun (r : TopkRow) => r.written.flatMap (fun e => selEntryBytes e.src (nth r.keys e.src) 0)
          ++ (List.replicate (k - r.written.length) (selSentinel kt (bitOf fl 0))).flatten
        let runs := out.map (fun r => (par f 32 8 + r.1 * k * 16, entries r.2))
          ++ (if par f 40 8 = 0 then [] else out.map (fun r => (par f 40 8 + 8 * r.1, toLe 4 r.2.valid ++ toLe 4 r.2.sel.ties)))
          ++ (if bitOf fl 2 then out.map (fun r => (par f 56 8 + r.1 * k * len,
              r.2.written.flatMap (fun e => memRead s (payAt r.1 e.src) len) ++ zeros ((k - r.2.written.length) * len))) else [])
        let written := listSum (out.map (fun r => r.2.written.length))
        let nans := rows * n - listSum (out.map (fun r => r.2.valid))
        let short := (out.filter (fun r => decide (r.2.valid < k))).length
        let tied := (out.filter (fun r => decide (0 < r.2.sel.ties))).length
        commitVerdict f runs (chargeHub 26 f.tenant s) (fun s1 =>
          .done (bump .nanExcluded f.tenant nans
              (countSelections f.tenant (keyPasses kt) (rows * n) (rows * k - written) (out.map (fun r => r.2.sel)) s1))
            (selectReply written short (toLe 8 written ++ toLe 8 nans ++ toLe 4 short ++ toLe 4 tied)))

/-- SELECT_TOPK, R308 to R313, R320: its entry member runs it. -/
def selectTopkCommand : Command where
  op := .selectTopk
  changes := false
  objects := fun _ _ => []
  check := topkCheck
  run := topkRun

/-- SELECT_TOPK. -/
def execSelectTopk (h : Nat) (s : State) : Result := execEntry selectTopkCommand h s

/-- The list descriptors of a SELECT_MERGE: address, count, payload address, reserved bytes zero. -/
def mergeDescs (s : State) (f : Flight) : List (Nat × Nat × Nat × Bool) :=
  (List.range (par f 0 4)).map (fun i =>
    let b := memRead s (par f 8 8 + 32 * i) 32
    (fld b 0 8, fld b 8 4, fld b 16 8, zeroAt b 12 4 && zeroAt b 24 8))

/-- Input extents of a SELECT_MERGE: its descriptors, its lists, their payloads. -/
def mergeInputs (s : State) (f : Flight) : List (Nat × Nat × Nat) :=
  [(par f 8 8, par f 0 4 * 32, 8)] ++ (mergeDescs s f).flatMap (fun d =>
    [(d.1, d.2.1 * 16, 8)] ++ (if bitOf (par f 35 1) 2 then [(d.2.2.1, d.2.1 * par f 32 2, 8)] else []))

/-- Output extents of a SELECT_MERGE. -/
def mergeOutputs (f : Flight) : List (Nat × Nat × Nat) :=
  [(par f 16 8, par f 4 4 * 16, 16)] ++ (if bitOf (par f 35 1) 2 then [(par f 24 8, par f 4 4 * par f 32 2, 24)] else [])

/-- The lists of a SELECT_MERGE. -/
def mergeInput (s : State) (f : Flight) : List (List MergeEntry) :=
  ((mergeDescs s f).zipIdx).map (fun d => mergeEntries d.2 (memRead s d.1.1 (d.1.2.1 * 16)))

/-- An entry that no list may hold, R318. -/
def badEntry (kt : Nat) (e : MergeEntry) : Bool :=
  !isSentinel e && (e.id == 0xFFFFFFFFFFFFFFFF || (keyWidth kt == 2 && e.key / 65536 != 0))

/-- The checks of SELECT_MERGE, R318, R320: first its own fields, then its descriptors, then its entries, last its deadline, R319. Of its NUMERIC word only NAN_TRAP is used, and the one value that R102 refuses, RND 3, is refused. -/
def mergeCheck (s : State) (f : Flight) : Option (Status × Nat) :=
  let lists := par f 0 4
  let k := par f 4 4
  let kt := par f 34 1
  let fl := par f 35 1
  let pay := bitOf fl 2
  let len := par f 32 2
  match firstFail ([lengthIs f 64, badParamIf (lists == 0) 0, badParamIf (k == 0) 4, badParamIf (!pay && par f 24 8 != 0) 24,
      badParamIf (if pay then decide (len < 64) || decide (4096 < len) || len % 64 != 0 else len != 0) 32,
      badParamIf (!keyTypeValid kt) 34, badParamIf (decide (16 ≤ fl)) 35, reservedZero f 36 4, badParamIf (par f 40 8 / 4 % 4 == 3) 40,
      reservedZero f 56 8, rangeIf (decide (4096 < lists)) 0, rangeIf (decide (65536 < k)) 4, rangeIf (par f 8 8 % 64 != 0) 8,
      rangeIf (par f 16 8 % 64 != 0) 16, rangeIf (decide (60000000000 < par f 48 8)) 48,
      failIf (!(scopeModules s f.hdr).contains s.fabric.view.self) .notPermitted 0]
      ++ extentChecks s f (par f 8 8) (lists * 32) 8
      ++ (mergeOutputs f).flatMap (fun e => extentChecks s f e.1 e.2.1 e.2.2)) with
  | some r => some r
  | none =>
    match readFails s (par f 8 8) (lists * 32) with
    | some r => some r
    | none =>
      let ds := mergeDescs s f
      match firstFail ([badParamIf (ds.any (fun d => !d.2.2.2 || (!pay && d.2.2.1 != 0))) 8]
          ++ overlapChecks false (mergeInputs s f) (mergeOutputs f)
          ++ [rangeIf (ds.any (fun d => decide (65536 < d.2.1) || d.1 % 16 != 0)) 8]
          ++ ((mergeInputs s f).drop 1).flatMap (fun e => if e.2.1 = 0 then [] else extentChecks s f e.1 e.2.1 e.2.2)) with
      | some r => some r
      | none =>
        match readsFail s (ds.map (fun d => (d.1, d.2.1 * 16))) with
        | some r => some r
        | none => firstFail [badParamIf ((mergeInput s f).any (fun l => l.any (badEntry kt))) 8, failIf (pastDeadline s f) .deadlineMissed 0]

/-- The DUPLICATE_MISMATCH event of a merge with mismatches, R317. -/
def mismatchReply (m : Merged) : Option Reply :=
  (m.mismatches.head?).map (fun d =>
    { status := .ok
      detail := 0x0701 + m.mismatches.length % 2 ^ 32 * 2 ^ 16 + d.2.list % 2 ^ 16 * 2 ^ 48
      result := toLe 8 d.2.id ++ toLe 4 d.1.key ++ toLe 4 d.2.key })

/-- The one event of a merge with mismatches is posted, R317. -/
def mismatchEvent (f : Flight) (m : Merged) (s : State) : State :=
  match mismatchReply m with
  | none => s
  | some r => postRecord f.hdr.replyRing f.hdr.sessionId f.hdr.commandId true false (clearRecord f.hdr.sessionId .ok) (decide (0 < f.reserved)) s.frontTime r s

/-- The counters of a merge, R107, R322. -/
def countMerge (tenant kt entries sentinels : Nat) (m : Merged) (s : State) : State :=
  bump .nanExcluded tenant m.nans (bump .selDuplicates tenant m.duplicates (bump .selDupMismatch tenant m.mismatches.length
    (countSelections tenant (keyPasses kt) entries sentinels [m.sel] s)))

/-- The counts that a merge answers with, R319. -/
def mergeCounts (m : Merged) : Bytes :=
  toLe 4 m.valid ++ toLe 4 m.sel.ties ++ toLe 4 m.duplicates ++ toLe 4 m.mismatches.length ++ toLe 4 m.nans ++ toLe 4 m.skipped

/-- The effect of SELECT_MERGE, R315 to R319. -/
def mergeRun (s : State) (f : Flight) : Verdict :=
  let k := par f 4 4
  let kt := par f 34 1
  let fl := par f 35 1
  let len := par f 32 2
  let lists := mergeInput s f
  match (if bitOf (par f 40 8) 0 then lists.flatten.find? (fun e => !isSentinel e && keyNan kt e.key) else none) with
  | some e => .begun (selectNan f kt e.list e.place e.key s)
  | none =>
    let m := mergeLists kt k (bitOf fl 0) (bitOf fl 1) (bitOf fl 3) lists
    let payAt := fun (e : MergeEntry) => (((mergeDescs s f)[e.list]?).map (·.2.2.1)).getD 0 + e.place * len
    match (if bitOf fl 2 then readsFail s (m.result.map (fun e => (payAt e, len))) else none) with
    | some (st, d) => .begun (finish f (plainReply st d) (noteReadFail f st d s))
    | none =>
      let w := m.result.length
      let runs := [(par f 16 8, m.result.flatMap (fun e => selEntryBytes e.id e.key (e.info % 2 ^ 31))
            ++ (List.replicate (k - w) (selSentinel kt (bitOf fl 0))).flatten)]
          ++ (if bitOf fl 2 then [(par f 24 8, m.result.flatMap (fun e => memRead s (payAt e) len) ++ zeros ((k - w) * len))] else [])
      commitVerdict f runs (chargeHub 26 f.tenant s) (fun s1 =>
        .done (mismatchEvent f m (countMerge f.tenant kt lists.flatten.length (k - w) m s1))
          (selectReply w (b2n (decide (m.valid < k))) (mergeCounts m)))

/-- SELECT_MERGE, R314 to R320: its entry member runs it. -/
def selectMergeCommand : Command where
  op := .selectMerge
  changes := false
  objects := fun _ _ => []
  check := mergeCheck
  run := mergeRun

/-- SELECT_MERGE. -/
def execSelectMerge (h : Nat) (s : State) : Result := execEntry selectMergeCommand h s

/-- The lists of a SELECT_MERGE message, R430: the counts, then the entries. -/
def messageLists (b : Bytes) : Nat → Nat → Nat → List (List MergeEntry)
  | 0, _, _ => []
  | left + 1, i, off =>
    let n := fld b (16 + 8 * i) 4
    mergeEntries i (slice b off (16 * n)) :: messageLists b left (i + 1) (off + 16 * n)

/-- SELECT_MERGE message: a member receives lists to merge, R430; it merges and counts them; the spec names no reply, so the merged entries, the counts and the event stay here under CORR (log entry 31). -/
def selectMergeMsg (peer : Nat) (plain : Bytes) (s : State) : State :=
  onMessage 0x07 peer plain s (fun m s =>
    let b := m.body
    let n := fld b 0 4
    let kt := fld b 8 1
    let fl := fld b 9 1
    let lists := messageLists b n 0 (16 + 8 * n)
    if zeroAt b 10 6 = false ∨ n = 0 ∨ 4096 < n ∨ keyTypeValid kt = false ∨ 16 ≤ fl ∨ b.length ≠ 16 + 8 * n + 16 * lists.flatten.length
        ∨ ((List.range n).any (fun i => !zeroAt b (20 + 8 * i) 4)) = true then malformed s
    else
      let x := mergeLists kt (fld b 4 4) (bitOf fl 0) (bitOf fl 1) (bitOf fl 3) lists
      let s1 := countMerge m.tenant kt lists.flatten.length (fld b 4 4 - x.result.length) x (chargeHub 26 m.tenant s)
      { s1 with indexes := { s1.indexes with
          merged := s1.indexes.merged ++ [⟨peer, m.corr, m.tenant, x.result.map (fun e => (e.id, e.key, e.info % 2 ^ 31)), mergeCounts x, mismatchReply x⟩] } })

/-- SELECT_MERGE_MSG. -/
def execSelectMergeMsg (peer : Nat) (plain : Bytes) (s : State) : Result := nextOf s (selectMergeMsg peer plain s)

end Sys2Proof.Machine
end

