-- ==== Sys2Proof/Machine/RetrievalOps.lean ====
section
/-! DEFINITION. Waiting for pages (R366), handing a prompt over (R368), the retrieval stage (R364). -/

namespace Sys2Proof.Machine

open Sys2Proof

/-- An earlier request of the tenant waits for pages on this member, R366. -/
def pagesAhead (s : State) (r : Request) : Bool :=
  (s.serve.requests.takeWhile (fun x => x.serial != r.serial)).any (fun x => x.tenant == r.tenant && x.pageWait && decide (x.state = .queued))

/-- A request waits for pages in QUEUED; the wait is counted once, R366, R383. -/
def waitPages (r : Request) (s : State) : State :=
  let s1 := setRequest { r with state := .queued, pageWait := true } (if r.pageWait then s else bump .pageWaits r.tenant 1 s)
  noteHigh 0x9100 3 (s1.serve.requests.filter (·.pageWait)).length s1

/-- A request whose prompt is known takes its pages and goes on, or waits, R366. -/
def tryPages (r : Request) (s : State) : State :=
  match servedModel s r.pipe.decoder with
  | none => failRequest r .outOfRange 0 s
  | some m =>
    let p := r.promptTokens
    let need := pagesNeeded s r.pipe p r.maxNew
    if p = 0 ∨ m.maxCtx < p then failRequest r .badLength 64 s
    else if overFrames s r.tenant need then failRequest r .notPermitted 0 s
    else if pagesAhead s r then waitPages r s
    else match reservePages r.tenant (need.1 - framesOf r.kv, need.2) s with
      | (none, s1) => waitPages r s1
      | (some (k, d), s1) =>
        let held := (r.kv.map (·.frames)).getD [0, 0, 0, 0]
        let cells := (r.kv.map (·.cells)).getD []
        let frames := (held.zip k.frames).map (fun x => x.1 + x.2)
        let x := startStage r s1
        setRequest { x.1 with
          kv := some ⟨frames, cells⟩
          draftKv := d
          pageWait := false
          state := if r.prompt.isEmpty then .decoding else .prefilling } x.2

/-- The steering set that a request carries to another member, R368; empty where it has none. -/
def steerImage (s : State) (r : Request) : Bytes :=
  match kget s.compute.steers r.steer with
  | none => []
  | some x => toLe 4 x.tag ++ toLe 2 x.layers ++ zeros 2 ++ toLe 4 x.gain ++ zeros 4 ++ x.coeffs

/-- What a handover carries beside the parameters of the request (log entry 60): pipeline, coverage, lengths, arrival, deadline, MAX_NEW, last token, steering set, prompt. -/
def handoverContent (s : State) (r : Request) (prompt : List Nat) : Bytes :=
  let st := steerImage s r
  toLe 2 r.pipe.nextPipe ++ toLe 1 r.prio ++ toLe 1 (b2n r.covered) ++ toLe 4 st.length ++ toLe 4 prompt.length ++ toLe 4 r.maxNew
    ++ toLe 8 r.arrival ++ toLe 8 r.deadline ++ toLe 4 r.promptTokens ++ toLe 4 r.last ++ st ++ prompt.flatMap (toLe 4)

/-- The header under which a handover travels. -/
def handoverHeader (r : Request) : Header :=
  { parseHeader (zeros 48) with
    version := 1
    hdrLen := 48
    opcode := 0x0901
    paramLen := 80
    commandId := r.id
    sessionId := r.session
    prio := r.prio }

/-- The next pipeline, where it is on this module too, R355. -/
def nextPipeline (s : State) (r : Request) (kind : Nat) : Option Pipeline :=
  (kget s.serve.pipelines r.pipe.nextPipe).filter (fun p => p.tenant == r.tenant && p.kind == kind)

/-- A packed prompt moves to the member that prefills it: to another one in a FORWARD of its REQUEST_SUBMIT, R368. -/
def handPrompt (r : Request) (s : State) : State :=
  let dst := r.pipe.nextMember
  if dst = s.fabric.view.self then
    match nextPipeline s r 2 with
    | none => failRequest r .badFormat 48 s
    | some p => tryPages { r with pipe := p } s
  else if !reaches s dst then failRequest r .memberUnreachable dst s
  else if s.fabric.view.rights = .stale then failRequest r .epochStale 0 s
  else
    setRequest { r with state := .prefilling, holder := dst }
      (sendMessage dst 0x08 0 r.tenant r.id 0
        (cmdFwdBody 0 0 r.entry 0 (headerBytes (handoverHeader r) ++ r.params ++ handoverContent s r r.prompt)) s)

/-- A request as a handover makes it on another member. -/
def arrivedRequest (s : State) (tenant entry id : Nat) (hdr : Header) (params content : Bytes) (p : Pipeline) : Request where
  serial := s.proto.nextSerial
  tenant := tenant
  entry := entry
  id := id
  session := hdr.sessionId
  params := params
  pipe := p
  state := .queued
  arrival := fld content 16 8
  deadline := fld content 24 8
  maxNew := fld content 12 4
  prio := fld content 2 1
  covered := fld content 3 1 == 1
  query := []
  passages := 0
  searchN := 0
  short := false
  prompt := unpack 32 (fld content 8 4) (content.drop (40 + fld content 4 4))
  promptTokens := fld content 32 4
  searching := false
  firstStage := some s.frontTime
  rtp := none
  pageWait := false
  budgetWait := false
  ringWait := false
  kv := none
  draftKv := none
  position := fld content 32 4 - 1
  last := fld content 36 4
  gram := gramStart (((kget s.text.grammars p.grammar).map (·.image)).getD [])
  backlog := []
  tailEnd := none
  ahead := 0
  consumed := 0
  proposed := 0
  accepted := 0
  chunkTokens := []
  chunkText := []
  chunkSeq := 0
  chunkSince := 0
  chunkHeld := false
  ttft := none
  lastStep := none
  stream := 0xFFFFFFFF
  steer := 0xFFFFFFFF
  ended := none
  holder := s.fabric.view.self
  holderPages := 0
  attempt := 0
  channel := 0
  shipTo := none
  shipped := false
  decided := none
  stepTokens := 0

/-- A copy of the steering set of a request that arrives, held for its life, R368; none where it cannot be held. -/
def copySteer (tenant : Nat) (content : Bytes) (s : State) : Option (Nat × State) :=
  let n := fld content 4 4
  if n = 0 then some (0xFFFFFFFF, s) else addSteer tenant (slice content 40 n) s

/-- The tag of a steering set that a handover carries is not that of the model it is to steer. -/
def carriedMismatch (s : State) (p : Pipeline) (content : Bytes) : Bool :=
  fld content 4 4 != 0 && (servedModel s p.decoder).any (fun m => m.tag != fld content 40 4 || m.steerLayers != fld content 44 2)

/-- A prompt arrives from its entry member, R349, R368. -/
def promptArrives (peer : Nat) (tenant corr : Nat) (hdr : Header) (params content : Bytes) (s : State) : State :=
  let refuse := fun (st : Status) (d : Nat) =>
    sendMessage peer 0x08 1 tenant corr 0 (cmdFwdBody 1 0 peer 0 (replyBody corr s.frontTime { status := st, detail := d })) s
  match (kget s.serve.pipelines (fld content 0 2)).filter (fun p => p.tenant == tenant && p.kind == 2) with
  | none => refuse .badFormat 48
  | some p =>
    if !s.fabric.leaving.isEmpty then refuse .memberUnreachable s.fabric.view.self
    else if !admitsPrompt s.role then refuse .notPermitted 0
    else if carriedMismatch s p content then refuse .badFormat 48
    else match copySteer tenant content s with
      | none => refuse .noResource 0
      | some (i, s1) =>
        let r := { arrivedRequest s1 tenant peer corr hdr params content p with steer := i }
        tryPages r (addRequest r { s1 with proto := { s1.proto with nextSerial := s1.proto.nextSerial + 1 } })

/-- A bag of the sparse table's rows for a query, R256, R364: one more input row in the layout of the embedding table, and the counts owed for the lookup. -/
def sparseRow (r : Request) (enc : Model) (fetched : List (Nat × Nat × Nat × Bytes)) (q : List Nat) : StageM (List Bytes × List (Ctr × Nat × Nat)) := do
  let s ← get
  let id := r.pipe.sparse
  if id = 0xFFFFFFFF then pure ([], [])
  else match tableOf s id, tableOf s enc.embedTable with
    | some t, some e => do
      stageFailIf (t.width != e.width) .badParam 0
      let got ← tableRowsFor r id fetched q
      let rowOf := fun k => ((got.find? (fun g => g.1 == k)).map (fun g =>
        let w := (widenRow t g.2.2.2).1
        (w, rowNan t k g.2.2.2 w))).getD ([], none)
      let bag := poolBag t.width 0 (q.map (fun k => (k, .fin false 1 0))) rowOf
      match (if trapsNan enc.numeric then bag.2.2 else none) with
      | some n => do
        let unit ← stageUnit 0x5000 16
        stageNan r unit 7 n.1 n.2.1 (n.2.2.2.2 % 2 ^ 32) 0 (n.2.2.2.1 / 128) (n.2.2.2.1 % 128) n.2.2.1
      | none => pure ()
      let path := fun (k : Nat) => (got.filter (fun g => g.2.1 == k)).length
      modify (addCounts r.tenant bag.2.1)
      let (d, s1) := drawFree (← get)
      set s1
      pure ([if intRow e.fmt then toLe (rowBytes e.width e.fmt) d else bagOutput e.fmt bag.1],
        [(.lookups, id, q.length), (.fetchLocal, id, path 0), (.fetchReplica, id, path 1), (.fetchRemote, id, path 2), (.dedupSaved, id, q.length - got.length)])
    | _, _ => throw (.fails .outOfRange 0)

/-- The mean of rows of FP32 codes: added row by row, then divided, as R256 has a mean. -/
def meanRows (width : Nat) (rows : List (List Nat)) : List Nat × NumCounts :=
  let sum := rows.foldl (fun (a : List Nat × NumCounts) row =>
    let x := (List.zip a.1 row).map (fun p => f32Add p.1 p.2)
    (x.map (·.1), x.foldl (fun c y => NumCounts.add c y.2) a.2)) (List.replicate width 0, NumCounts.zero)
  let q := sum.1.map (fun a => f32Div a (encodeNum 0 (.fin false rows.length 0)))
  (q.map (·.1), q.foldl (fun c y => NumCounts.add c y.2) sum.2)

/-- The vector of a query from the encoder's output rows, R351, R364; the order of a mean's additions is that of R256 (log entry 83). -/
def pooledVector (r : Request) (m : Model) (c : StepCtx) (res : LayerResult) (n : Nat) : StageM (List Nat) := do
  if m.pool = 1 ∨ n = 1 then pure (stepOutput c res 0 m.outWidth)
  else if m.pool = 2 then pure (stepOutput c res (n - 1) m.outWidth)
  else do
    let v := meanRows m.outWidth ((List.range n).map (fun i => stepOutput c res i m.outWidth))
    modify (addCounts r.tenant v.2)
    pure v.1

/-- The query of a request as the search unit takes it, R278: the fields of a SEARCH for one query. -/
def retrievalSearch (r : Request) : Flight :=
  ⟨r.serial, .host 0, .search, { handoverHeader r with opcode := 0x0606 },
    toLe 4 r.pipe.index ++ toLe 4 1 ++ toLe 4 r.pipe.searchK ++ toLe 1 0 ++ toLe 1 1 ++ toLe 1 0xFF ++ zeros 49, r.tenant, r.arrival, false, true, 0, none, none, false⟩

/-- The first half of the retrieval stage, R364: tokenise, encode, search here and ask the other shards. -/
def retrievalBegin (r : Request) (fetched : List (Nat × Nat × Nat × Bytes)) : StageM Unit := do
  let s ← get
  let tokens := bitOf (fld r.params 2 1) 0
  let addr := fld r.params 8 8
  let len := fld r.params 16 4
  match readFails s addr (if tokens then 4 * len else len) with
  | some (st, d) => throw (.fails st d)
  | none => pure ()
  let q := inputTokens s r.pipe tokens addr len
  let read := if tokens then [] else inputCounts r.tenant (memRead s addr len)
  let enc ← needModel r.pipe.encoder
  stageFailIf (decide (enc.maxCtx < q.length)) .badLength 64
  let rows ← rowsFor r enc fetched q
  let extra ← sparseRow r enc fetched q
  let ctx : StepCtx := ⟨enc, r.tenant, r.id, 0, rows ++ extra.1, 0xFFFFFFFF, []⟩
  let (res, _) ← runModel ctx
  let v ← pooledVector r enc ctx res q.length
  let bytes := v.flatMap (toLe 4)
  let s1 ← get
  match indexOf s1 r.pipe.index with
  | none => throw (.fails .outOfRange 0)
  | some x => do
    stageFailIf (x.dim != v.length || x.payLen == 0) .badParam 0
    stageFailIf (x.metric == 3) .badFormat 0
    match (if trapsNan enc.numeric then nonFinite 0 x.dim bytes else none) with
    | some (e, bits') => do
      let unit ← stageUnit 0x6000 16
      stageNan r unit 8 0 0 0xFFFFFFFF 0 (e / 128) (e % 128) bits'
    | none => pure ()
    let self := s1.fabric.view.self
    let others := x.shard.filter (· != self)
    match others.find? (fun m => !reaches s1 m) with
    | some m => throw (.fails .memberUnreachable m)
    | none => do
      stageFailIf (decide (s1.fabric.view.rights = .stale) && !others.isEmpty) .epochStale 0
      let own := if x.shard.contains self then ownParts s1 x 0 r.pipe.searchK 0 [bytes] else ([], SearchWork.none)
      let job : SearchJob := ⟨r.serial, r.id, r.pipe.index, others, own.1, [], own.2, [], [], read ++ extra.2⟩
      let begun := startStage { r with state := .retrieving, searching := true, query := q } (chargeHub 26 r.tenant s1)
      let s2 := setRequest begun.1 begun.2
      let s3 := { s2 with indexes := { s2.indexes with jobs := s2.indexes.jobs ++ [job] } }
      set (others.foldl (fun t m => sendQueries (retrievalSearch r) m 1 1 0 [bytes] t) s3)

/-- The tokens of a span record, R334. -/
def spanTokens (tok : Tokeniser) (b : Bytes) : Except (Status × Nat) (List Nat) :=
  let n := fld b 0 4
  if b.length < 8 ∨ b.length < 8 + 4 * n then .error (.badLength, 0)
  else if fld b 4 4 ≠ tok.tag then .error (.badParam, 0)
  else
    let l := unpack 32 n (b.drop 8)
    if l.any (fun t => decide (tokVocab tok.image ≤ t)) then .error (.outOfRange, 0) else .ok l

/-- The scorer's score of a pair, cut to its MAX_CTX, R364. -/
def scorePair (r : Request) (m : Model) (fetched : List (Nat × Nat × Nat × Bytes)) (q span : List Nat) : StageM Nat := do
  let rows ← rowsFor r m fetched ((q ++ span).take m.maxCtx)
  let ctx : StepCtx := ⟨m, r.tenant, r.id, 0, rows, 0xFFFFFFFF, []⟩
  let (res, _) ← runModel ctx
  pure (nth (stepOutput ctx res 0 1) 0)

/-- Scores chosen, best first, R304: the ranks in the candidates. -/
def rerank (r : Request) (m : Model) (scores : List Nat) : StageM (List Nat) := do
  match (if trapsNan m.numeric then (scores.zipIdx).find? (fun p => f32IsNan p.1) else none) with
  | some (k, i) => do
    let unit ← stageUnit 0x7000 8
    stageNan r unit 6 0 0 i 0 0 0 k
  | none => pure ()
  let valid := ((scores.zipIdx).filter (fun p => !f32IsNan p.1)).map (fun p => (⟨p.2, mappedKey 0 p.1 false, p.2⟩ : SelEntry))
  let x := selectEntries 4 (min scores.length r.pipe.packN) valid
  modify (countSelections r.tenant 4 scores.length 0 [x])
  modify (bump .nanExcluded r.tenant (scores.length - valid.length))
  pure ((selOrder false x.chosen).map (·.pos))

/-- A template's segments for a request, R356: each with its full tokens, the bytes decoded and the replacements; whether it is TEXT; a source that no longer lies in the tenant's allocations is refused. -/
def expandSegment (s : State) (tok : Tokeniser) (q : List Nat) (spans : List (List Nat)) (d : PackDesc) :
    Except (Status × Nat) (List (PackSeg × (List Nat × Nat × Nat) × Bool)) :=
  if d.kind = 0x80 then .ok ((spans.zipIdx).map (fun p => ({ packSegOf d p.1 with rank := d.rank + p.2 }, (p.1, 0, 0), false)))
  else if d.kind = 0x81 then .ok [(packSegOf d q, (q, 0, 0), false)]
  else if packSource d != 0 && !ownedBy s tok.tenant d.src (packSource d) then .error (.notPermitted, 0)
  else match readFails s d.src (packSource d) with
    | some e => .error e
    | none => match collectSeg s tok false d with
      | .error e => .error (e.1, 0)
      | .ok g => .ok [(packSegOf d g.1, g, d.kind == 1)]

/-- All segments of a template expanded, or the first failure. -/
def expandTemplate (s : State) (tok : Tokeniser) (q : List Nat) (spans : List (List Nat)) :
    List PackDesc → Except (Status × Nat) (List (PackSeg × (List Nat × Nat × Nat) × Bool))
  | [] => .ok []
  | d :: l => match expandSegment s tok q spans d, expandTemplate s tok q spans l with
    | .error e, _ => .error e
    | _, .error e => .error e
    | .ok a, .ok b => .ok (a ++ b)

/-- The prompt is packed, R335, R364. -/
def packPromptFor (r : Request) (tok : Tokeniser) (q : List Nat) (spans : List (List Nat)) : StageM (List Nat) := do
  let s ← get
  match expandTemplate s tok q spans (templateSegs r.pipe.template) with
  | .error (st, d) => throw (.fails st d)
  | .ok segs =>
    match packSegs (segs.map (·.1)) r.pipe.budget false with
    | .error _ => throw (.fails .badLength 0)
    | .ok kept => do
      let all := (segs.map (·.1)).zip kept
      let texts := listSum (segs.map (fun g => if g.2.2 then g.2.1.1.length else 0))
      set (countPack r.tenant (segs.map (·.2.1)) texts all (chargeHub 27 r.tenant s))
      pure (all.flatMap (fun p => packCut p.1 p.2.1))

/-- Spans of candidates, in their order; `wait` while a payload of another owner has not arrived. -/
def spansOf (s : State) (x : VecIndex) (tok : Tokeniser) (payloads : List (Nat × Bytes)) : List SearchHit → Except StageStop (List (List Nat))
  | [] => .ok []
  | h :: l => match hitPayload s x payloads h with
    | none => .error .wait
    | some b => match spanTokens tok b, spansOf s x tok payloads l with
      | .error (st, d), _ => .error (.fails st d)
      | _, .error e => .error e
      | .ok a, .ok as => .ok (a :: as)

/-- The bytes that RETRIEVE writes at OUT_ADDR, R364. -/
def retrieveRuns (r : Request) (prompt : List Nat) (chosen : List (SearchHit × Nat)) : List WriteRun :=
  let a := fld r.params 56 8
  [(a, prompt.flatMap (toLe 4)),
   (a + ceilDiv (4 * prompt.length) 64 * 64, chosen.flatMap (fun p => toLe 8 p.1.id ++ toLe 4 p.2 ++ toLe 4 p.1.info))]

/-- The counts of a request's lookup and search are added, and the search ends, R261, R263, R300; its NONFINITE count is of a query that holds no finite vector. -/
def searchCommits (r : Request) (s : State) : State :=
  match s.indexes.jobs.find? (fun j => j.serial == r.serial) with
  | none => s
  | some j =>
    let s1 := j.owed.foldl (fun t c => bump c.1 c.2.1 c.2.2 t) s
    let s2 := if r.pipe.sparse = 0xFFFFFFFF then s1 else noteOccurrences r.pipe.sparse r.arrival r.query s1
    let own := (indexOf s2 j.index).any (fun x => x.shard.contains s2.fabric.view.self)
    endSearch r.serial true (if own then countSearch j.index r.tenant 1 (b2n j.work.scanned.isEmpty) 0xFF j.work s2 else s2)

/-- The packing commit, R7, R364, R402: RETRIEVE writes its output and ends; RAG goes on to prefill. -/
def packingCommit (r : Request) (prompt : List Nat) (chosen : List (SearchHit × Nat)) : StageM Unit := do
  let s ← get
  let rtp := s.frontTime - r.arrival
  let r1 := { r with rtp := some rtp, promptTokens := prompt.length }
  let s1 := debit r.tenant r.query.length (sampleNs r 0 rtp s)
  let s2 := searchCommits r s1
  if r.pipe.kind = 0 then
    let runs := retrieveRuns r prompt chosen
    match commitWrites none r.tenant runs 0 s2 with
    | .waits _ => throw (.waitRoom r.tenant (unitsTouched 65536 runs).length)
    | .fails st d s3 => do
      set s3
      throw (.fails st d)
    | .done s3 => set (endRequest r1 ⟨0, .ok, 0, 0xFFFF⟩ s3)
  else
    let r2 := { r1 with prompt := prompt }
    set (if r.pipe.local then tryPages r2 (setRequest r2 s2) else handPrompt r2 (setRequest r2 s2))

/-- The second half of the retrieval stage, R364: every shard's part is here. -/
def retrievalEnd (r : Request) (job : SearchJob) (fetched : List (Nat × Nat × Nat × Bytes)) (payloads : List (Nat × Bytes)) : StageM Unit := do
  let s ← get
  match indexOf s r.pipe.index, kget s.text.tokenisers r.pipe.tokeniser with
  | some x, some tok => do
    match job.failures with
    | _ :: _ =>
      let f := combineReplies s.fabric.view.self .search (job.failures.map (fun p => (p.1, plainReply (statusOf p.2))))
      throw (.fails f.status f.detail)
    | [] => pure ()
    let hits := (mergeParts x.metric r.pipe.searchK job.parts).1
    let top := hits.take r.pipe.rerankN
    let got := job.payloads ++ payloads
    let owed := (top.filter (fun h => (hitPayload s x got h).isNone)).map (·.id)
    if !owed.isEmpty then set (askPayloads r.tenant x job owed s)
    else match spansOf s x tok got top with
    | .error e => throw e
    | .ok spans => do
      modify (countMerges x.metric r.tenant r.pipe.searchK 0 [job.parts])
      let m ← needModel r.pipe.scorer
      let scores ← spans.mapM (scorePair r m fetched r.query)
      let order ← rerank r m scores
      let prompt ← packPromptFor r tok r.query (order.map (fun i => spans.getD i []))
      let chosen := order.filterMap (fun i => (top[i]?).map (fun h => (h, nth scores i)))
      packingCommit { r with passages := order.length, searchN := hits.length, short := decide (hits.length < r.pipe.searchK) } prompt chosen
  | _, _ => throw (.fails .outOfRange 0)

end Sys2Proof.Machine
end

