-- ==== Sys2Proof/Machine/DecodeOps.lean ====
section
/-! DEFINITION. Prefill (R367), key/value handovers (R368), sampling (R371, R372), decode steps (R373 to R375). -/

namespace Sys2Proof.Machine

open Sys2Proof

/-- Body of a KV_SHIP message about a request, R430. -/
def shipBody (op : Nat) (r : Request) (tag layer page : Nat) (b : Bytes) : Bytes :=
  toLe 1 op ++ [0] ++ toLe 2 r.entry ++ toLe 2 r.attempt ++ toLe 2 r.pipe.nextPipe ++ toLe 4 tag ++ toLe 4 r.promptTokens ++ toLe 2 layer ++ zeros 2
    ++ toLe 4 page ++ b

/-- The source opens a key/value handover on a free channel, R368; while none is free it waits, R425. -/
def openShip (r : Request) (s : State) : State :=
  let dst := r.pipe.nextMember
  match servedModel s r.pipe.decoder with
  | none => failRequest r .outOfRange 0 s
  | some m =>
    if dst = s.fabric.view.self then
      match nextPipeline s r 4 with
      | none => failRequest r .badFormat 48 s
      | some p =>
        if (servedModel s p.decoder).map (·.tag) ≠ some m.tag then failRequest r .badFormat 48 s
        else tryPages { r with pipe := p, prompt := [], state := .queued } (setRequest { r with pipe := p, prompt := [], state := .queued } s)
    else if !reaches s dst then failRequest r .memberUnreachable dst s
    else if s.fabric.view.rights = .stale then failRequest r .epochStale 0 s
    else match firstFree (heldChannels s dst) 4 4092 with
      | none => setRequest { r with state := .shipping } { s with fabric := { s.fabric with channelWaits := s.fabric.channelWaits + 1 } }
      | some ch =>
        let r1 := { r with state := ReqState.shipping, shipTo := some dst, channel := ch }
        sendMessage dst 0x02 0 r.tenant r.id ch (shipBody 0 r1 m.tag 0 0 []) (setRequest r1 (setChannel dst ch Channel.reset s))

/-- Pages of a layer that a handover ships: those of positions 0 to P − 2. -/
def shippedPages (m : Model) (r : Request) : Nat := imagePages (r.promptTokens - 1) m.slots

/-- The source ships its pages, layers ascending, pages ascending, R368. -/
def shipPages (r : Request) (m : Model) (dst : Nat) (s : State) : State :=
  let cells := (r.kv.map (·.cells)).getD []
  let n := shippedPages m r
  bump .kvPagesShipped r.tenant (m.kvLayers * n) ((List.range (m.kvLayers * n)).foldl (fun t i =>
    sendMessage dst 0x02 2 r.tenant r.id r.channel
      (shipBody 2 r m.tag (i / n) (i % n) (Memory.readN cells (i / n * 2 ^ 40 + i % n * 2 ^ 16) 65536)) t) s)

/-- The name of a handover's commit, R75: coordinator, session, request ID. -/
def handoverKey (s : State) (r : Request) : TxnKey := ⟨s.fabric.view.self, r.session, aloneTxn r.id⟩

/-- The source coordinates the commit once every page has been acknowledged, R368. -/
def coordinateShip (r : Request) (dst : Nat) (s : State) : State :=
  let key := handoverKey s r
  if (coordOf s key).isSome ∨ r.decided.isSome ∨ (channelOf s dst r.channel).unacked ≠ [] then s
  else
    let content := handoverContent s r []
    let f : Flight := ⟨handoverSerial r.serial, .host 0, .requestSubmit, handoverHeader r, r.params, r.tenant, r.arrival, false, true, 0, none, some content, false⟩
    startCoord key f [.command f []] [] [dst] none (fun _ => headerBytes f.hdr ++ f.params ++ content) s

/-- Handovers whose pages have all been acknowledged on a channel go on to their commit. -/
def shipSettled (dst : Nat) (s : State) : State :=
  (s.serve.requests.filter (fun r => decide (r.state = .shipping) && r.shipTo == some dst && r.shipped)).foldl (fun t r => coordinateShip r dst t) s

/-- What the entry member is told of a request's stage elsewhere (log entry 60): state, whether a prompt has been prefilled, holder, P, pages. -/
def stageNotice (r : Request) (prefilled : Bool) (pages : Nat) : Bytes :=
  toLe 1 r.state.code ++ toLe 1 (b2n prefilled) ++ toLe 2 r.holder ++ toLe 4 r.promptTokens ++ toLe 4 pages

/-- The prefill has committed: the request decodes here, is held, or is handed over, R360, R367, R402. -/
def afterPrefill (r : Request) (s : State) : State :=
  let here := isEntry s r
  let s1 := if here then debit r.tenant r.promptTokens s else s
  if r.pipe.kind = 3 then setRequest { r with state := .held } s1
  else if r.pipe.local then
    let r1 := { r with state := ReqState.decoding }
    let s2 := setRequest r1 s1
    if here then s2 else requestReply r.entry 1 r1 .ok (stageNotice r1 true (framesOf r.kv + framesOf r.draftKv)) s2
  else openShip r s1

/-- The prefill stage as one step of the model, and of the draft model where it decodes here, R367. -/
def prefillStage (r : Request) (fetched : List (Nat × Nat × Nat × Bytes)) : StageM Unit := do
  let m ← needModel r.pipe.decoder
  let toks := r.prompt.take (r.prompt.length - 1)
  let step := fun (m : Model) (steer : Nat) (kv : Option KvPages) => do
    if toks.isEmpty then pure kv
    else do
      let rows ← rowsFor r m fetched toks
      let (_, cells) ← runModel ⟨m, r.tenant, r.id, 0, rows, steer, (kv.map (·.cells)).getD []⟩
      pure (kv.map (fun p => { p with cells := cells }))
  let kv ← step m r.steer r.kv
  let draftKv ← match r.draftKv, servedModel (← get) r.pipe.draft with
    | some d, some dm => if toks.length ≤ dm.maxCtx then step dm 0xFFFFFFFF (some d) else pure (some d)
    | d, _ => pure d
  let r1 := { r with kv := kv, draftKv := draftKv, position := r.prompt.length - 1, last := nth r.prompt (r.prompt.length - 1) }
  modify (fun s => afterPrefill r1 (setRequest r1 s))

/-- draw(pos) of R372 as an FP32 code. -/
def drawAt (seed pos : Nat) : Nat :=
  let s0 := (seed ^^^ (pos * 0x9E3779B9 % 2 ^ 32)) % 2 ^ 32
  let x0 : W32 := BitVec.ofNat 32 (if s0 = 0 then 0x6D2B79F5 else s0)
  let x := xorshift (xorshift (xorshift (xorshift x0)))
  encodeNum 0 (.fin false (x.toNat / 256) (-24))

/-- Running sums of the exponentials of the chosen logits, R371. -/
def softSums (it z0 : Nat) : List Nat → Nat → NumCounts → List Nat × NumCounts
  | [], _, n => ([], n)
  | k :: l, acc, n =>
    let a := f32Mul k it
    let b := f32Sub a.1 z0
    let c := f32Mul b.1 cLog2e
    let d := f32Exp2 c.1
    let e := f32Add acc d.1
    let r := softSums it z0 l e.1 (NumCounts.add (NumCounts.add (NumCounts.add (NumCounts.add (NumCounts.add n a.2) b.2) c.2) d.2) e.2)
    (e.1 :: r.1, r.2)

/-- How a token is chosen: the token, or that no choice of R371 exists among these (its arithmetic overflowed). -/
inductive Choice where
  | token (t : Nat)
  | unstated (among : List Nat)

/-- The choice of R371 among masked logits: the choice, the arithmetic's counts, the selection. -/
def chooseToken (temp topP topK seed pos lowest : Nat) (z : List Nat) : Choice × NumCounts × Selected :=
  let valid := ((z.zipIdx).filter (fun p => !f32IsNan p.1)).map (fun p => (⟨p.2, mappedKey 0 p.1 false, p.2⟩ : SelEntry))
  let x := selectEntries 4 (if temp = 0 then 1 else topK) valid
  let top := selOrder false x.chosen
  match top with
  | [] => (.token lowest, NumCounts.zero, x)
  | b :: _ =>
    let key := fun (e : SelEntry) => nth z e.pos
    if key b = 0xFF800000 then (.token lowest, NumCounts.zero, x)
    else if temp = 0 then (.token b.pos, NumCounts.zero, x)
    else
      let it := f32Rcp temp
      let z0 := f32Mul (key b) it.1
      let c := softSums it.1 z0.1 (top.map key) 0 (NumCounts.add it.2 z0.2)
      let cut := f32Mul topP (c.1.getLast?.getD 0)
      match c.1.findIdx? (fun v => !f32IsNan v && !f32IsNan cut.1 && !f32Lt v cut.1) with
      | none => (.unstated (top.map (·.pos)), NumCounts.add c.2 cut.2, x)
      | some j =>
        let thr := f32Mul (drawAt seed pos) (nth c.1 j)
        let n := NumCounts.add (NumCounts.add c.2 cut.2) thr.2
        match (c.1.take (j + 1)).findIdx? (fun v => f32Lt thr.1 v) with
        | none => (.unstated (top.map (·.pos)), n, x)
        | some i => (.token ((top[i]?.map (·.pos)).getD 0), n, x)

/-- The mask of a grammar state over logits, R343. -/
def maskLogits (gram : Option Bytes) (q : Nat) (z : List Nat) : List Nat :=
  match gram with
  | none => z
  | some img => (z.zipIdx).map (fun p => if gramAllows img q p.2 then p.1 else 0xFF800000)

/-- The lowest-numbered token that a grammar state allows, R343. -/
def lowestAllowed (gram : Option Bytes) (q : Nat) : Nat :=
  match gram with
  | none => 0
  | some img => ((List.range (gramVocab img)).find? (gramAllows img q)).getD 0

/-- Choose one token from a row of logits, R303, R371. -/
def chooseFrom (r : Request) (m : Model) (greedy : Bool) (gram : Option Bytes) (q pos : Nat) (logits : List Nat) : StageM Nat := do
  let z := maskLogits gram q logits
  let nans := (z.filter f32IsNan).length
  match (if trapsNan m.numeric then (z.zipIdx).find? (fun p => f32IsNan p.1) else none) with
  | some (k, i) => do
    let unit ← stageUnit 0x7000 8
    stageNan r unit 6 0 0 i 0 0 0 k
  | none => pure ()
  let (c, n, x) := chooseToken (if greedy then 0 else r.temp) r.topP r.topK r.seed pos (lowestAllowed gram q) z
  modify (fun s => bump .nanExcluded r.tenant nans (addCounts r.tenant n (countSelections r.tenant 4 z.length 0 [x] s)))
  match c with
  | .token t => pure t
  | .unstated l => do
    let s ← get
    let (d, s1) := drawFree s
    set s1
    pure (nth l (d % l.length))

/-- The draft model proposes tokens one row at a time, and its last row enters its cache too, R373, R374. -/
def draftTokens (r : Request) (m : Model) (fetched : List (Nat × Nat × Nat × Bytes)) : Nat → Nat → Nat → Memory → StageM (List Nat × Memory)
  | left, pos, tok, cells => do
    let rows ← rowsFor r m fetched [tok]
    let ctx : StepCtx := ⟨m, r.tenant, r.id, pos, rows, 0xFFFFFFFF, cells⟩
    let (res, cells1) ← runModel ctx
    match left with
    | 0 => pure ([], cells1)
    | n + 1 => do
      let d ← chooseFrom r m true none 0 (pos + 1) (stepOutput ctx res 0 m.outWidth)
      let (l, cells2) ← draftTokens r m fetched n (pos + 1) d cells1
      pure (d :: l, cells2)

/-- The drafts of a step: the draft model's, or free values where it has no history of the request, R373 (log entry 60). -/
def proposeDrafts (r : Request) (dec : Model) (n : Nat) (fetched : List (Nat × Nat × Nat × Bytes)) : StageM (List Nat × Option KvPages) := do
  if r.pipe.draftN = 0 then pure ([], r.draftKv)
  else do
    let dm ← needModel r.pipe.draft
    match r.draftKv with
    | some kv =>
      if dm.maxCtx ≤ r.position then pure ([], some kv)
      else do
        let (l, cells) ← draftTokens r dm fetched (min n (dm.maxCtx - 1 - r.position)) r.position r.last kv.cells
        pure (l, some { kv with cells := cells })
    | none => do
      let s ← get
      set { s with freeCtr := s.freeCtr + n }
      pure ((List.range n).map (fun i => Config.freeNat (s.freeCtr + i) % dec.outWidth), none)

/-- The tokens a step yields, with the grammar state after them, R373: choices are made until one differs from its draft. -/
def acceptTokens (r : Request) (m : Model) (gram : Option Bytes) (logits : Nat → List Nat) : List Nat → Nat → Nat → StageM (List Nat × Nat)
  | drafts, i, q => do
    let t ← chooseFrom r m false gram q (r.position + 1 + i) (logits i)
    let q1 := match gram with
      | none => q
      | some img => gramAdvance img q t
    match drafts with
    | [] => pure ([t], q1)
    | d :: l =>
      let full := match gram with
        | none => false
        | some img => gramTerminal img q1
      if d = t ∧ full = false then do
        let (ts, q2) ← acceptTokens r m gram logits l (i + 1) q1
        pure (t :: ts, q2)
      else pure ([t], q1)

/-- The grammar of a request's decode pipeline. -/
def requestGrammar (s : State) (r : Request) : Option Bytes := (kget s.text.grammars r.pipe.grammar).map (·.image)

/-- One decode step, R371 to R374: the request after it, with the tokens at the end of its backlog. -/
def decodeStep (r : Request) (fetched : List (Nat × Nat × Nat × Bytes)) : StageM Request := do
  let m ← needModel r.pipe.decoder
  let gram := requestGrammar (← get) r
  let p := r.position
  let (drafts, draftKv) ← proposeDrafts r m (min r.pipe.draftN (m.maxCtx - 1 - p)) fetched
  let rows ← rowsFor r m fetched (r.last :: drafts)
  let ctx : StepCtx := ⟨m, r.tenant, r.id, p, rows, r.steer, (r.kv.map (·.cells)).getD []⟩
  let (res, cells) ← runModel ctx
  let (toks, q) ← acceptTokens r m gram (fun i => stepOutput ctx res i m.outWidth) drafts 0 r.gram
  let j := toks.length - 1
  let rejected := (List.range (drafts.length - j)).map (fun i => p + j + 1 + i)
  let s ← get
  let wipe := fun (dm : Model) (kv : KvPages) => { kv with cells := zeroPositions dm rejected kv.cells }
  let full := match gram with
    | none => false
    | some img => gramTerminal img q
  modify (fun s => bump .draftsProposed r.tenant drafts.length (bump .draftsAccepted r.tenant j
    (if gram.isSome then bump .grammarSteps r.tenant toks.length s else s)))
  pure { r with
    kv := r.kv.map (fun kv => wipe m { kv with cells := cells })
    draftKv := match draftKv, servedModel s r.pipe.draft with
      | some kv, some dm => some (wipe dm kv)
      | kv, _ => kv
    position := p + j + 1
    last := toks.getLast?.getD r.last
    gram := q
    backlog := r.backlog ++ [toks]
    proposed := r.proposed + drafts.length
    accepted := r.accepted + j
    tailEnd := if full then some 4 else if m.maxCtx ≤ p + j + 1 then some 5 else none }

/-- The budget holds the next step of a request, R404: it ends, or waits with the wait counted. -/
inductive BudgetStop where
  | go
  | stop (s : State)

/-- A decode step that would begin while the level is 0 or below does not begin, R404. -/
def budgetGate (r : Request) (s : State) : BudgetStop :=
  match budgetOf s r.tenant with
  | none => .go
  | some b =>
    if 0 < b.level then .go
    else if b.wait then .stop (setRequest { r with budgetWait := true } (if r.budgetWait then s else bump .budgetWaits r.tenant 1 s))
    else .stop (endRequest r ⟨7, .budgetExhausted, 0, 0xFFFF⟩ s)

/-- The end that a decode member has found takes effect once every token before it has been consumed, R375. -/
def tailEnds (r : Request) (s : State) : State :=
  match r.tailEnd with
  | some 4 => endRequest r ⟨4, .ok, 0, 0xFFFF⟩ s
  | some _ => endRequest r ⟨5, .okPartial, 0, 0xFFFF⟩ s
  | none => setRequest r s

/-- The entry member consumes the tokens it holds, step by step, until none is left, an end is reached or a chunk waits for room, R375, R380. -/
def consumeLoop : Nat → Request → State → State
  | 0, r, s => setRequest r s
  | fuel + 1, r, s =>
    match r.backlog with
    | [] => tailEnds r s
    | step :: rest =>
      match consumeStep step r s with
      | (.ends a b, left, r1, s1) => endRequest { r1 with backlog := left :: rest } ⟨a, if a = 7 then .internalFault else .ok, 0, b⟩ s1
      | (.waits, left, r1, s1) =>
        if left.isEmpty then
          let x := sampleStep { r1 with backlog := rest } s1
          consumeLoop fuel { x.1 with ahead := x.1.ahead + b2n (x.1.holder != s.fabric.view.self) } x.2
        else setRequest { r1 with backlog := left :: rest } s1
      | (.more, _, r1, s1) =>
        let x := sampleStep { r1 with backlog := rest } s1
        consumeLoop fuel { x.1 with ahead := x.1.ahead + b2n (x.1.holder != s.fabric.view.self) } x.2

/-- Steps consumed are reported to the member that decodes elsewhere, R375, unless the budget holds its next step, R404 (log entry 60). -/
def returnCredit (r : Request) (s : State) : State :=
  if r.ahead = 0 ∨ r.holder = s.fabric.view.self ∨ r.state ≠ .decoding then s
  else match budgetGate r s with
    | .stop s1 => s1
    | .go => requestReply r.holder 3 r .ok (toLe 4 r.ahead) (setRequest { r with ahead := 0, budgetWait := false } s)

/-- The entry member's tokens of a request are consumed. -/
def consumeAll (r : Request) (s : State) : State :=
  let s1 := consumeLoop (r.backlog.length + 1) r s
  match requestOf s1 r.serial with
  | none => s1
  | some q => returnCredit q s1

/-- Tokens of a step go from the member that decodes to the entry member, R368. -/
def reportTokens (r : Request) (s : State) : State :=
  let toks := r.backlog.flatten
  requestReply r.entry 2 r .ok (toLe 1 (r.tailEnd.getD 0xFF) ++ zeros 3 ++ toLe 4 r.proposed ++ toLe 4 r.accepted ++ toLe 4 toks.length ++ toks.flatMap (toLe 4))
    (setRequest { r with backlog := [], ahead := r.ahead + 1 } s)

/-- The entry member's tokens of a request decoded here come before its next step, R375, R380. -/
def consumesFirst (s : State) (r : Request) : Bool :=
  isEntry s r && !r.backlog.isEmpty && (r.chunkHeld || decide (2 ≤ r.backlog.length))

/-- Nothing keeps a request that decodes here from its next step but its budget: no token waits to be consumed first, it has not ended, and its grammar goes on. -/
def stepsNext (s : State) (r : Request) : Bool :=
  !consumesFirst s r && r.tailEnd.isNone && (isEntry s r || decide (r.ahead < 2)) && !(requestGrammar s r).any (fun img => gramTerminal img r.gram)

/-- A decode step of a request here, R371 to R375, R404. -/
def decodeRow (r : Request) (fetched : List (Nat × Nat × Nat × Bytes)) (s : State) : State :=
  let here := isEntry s r
  let terminal := (requestGrammar s r).any (fun img => gramTerminal img r.gram)
  if consumesFirst s r then consumeAll r s
  else if r.tailEnd.isSome ∨ (!here && decide (2 ≤ r.ahead)) = true then s
  else if terminal then
    if here then tailEnds { r with tailEnd := some 4 } s
    else reportTokens { r with tailEnd := some 4 } s
  else
    let step := fun (t : State) => runStage r (do
      let r1 ← decodeStep { r with budgetWait := false } fetched
      modify (fun u => if here then consumeAll r1 (setRequest r1 u) else reportTokens r1 (setRequest r1 u))) t
    if here then
      match budgetGate r s with
      | .stop s1 => s1
      | .go => step s
    else step s

end Sys2Proof.Machine
end

