-- ==== Sys2Proof/Machine/StageOps.lean ====
section
/-! DEFINITION. The steps of a request's stages as cell items: what waits, in which order it is served (R3, R385, R387), when its cells are free (R386). -/

namespace Sys2Proof.Machine

open Sys2Proof

/-- An event of the request with a serial at a front time. -/
def onRequest (serial now : Nat) (s : State) (k : Request → State → State) : State :=
  let s1 := advance now s
  match requestOf s1 serial with
  | none => s1
  | some r => if r.state = .ending then s1 else k r s1

/-- A request's budget lets its next step begin, R404. -/
def budgetOpen (s : State) (r : Request) : Bool :=
  match budgetOf s r.tenant with
  | none => true
  | some b => decide (0 < b.level)

/-- The model whose step a request would run next on this module, with the rows of that step at most, R352, R364, R367, R373; none where it has none to run now. -/
def stageModel (s : State) (r : Request) : Option (Nat × Nat) :=
  let here := decide (r.holder = s.fabric.view.self)
  if retrieves r.pipe && decide (r.state = .queued) && r.prompt.isEmpty && r.rtp.isNone then some (r.pipe.encoder, fld r.params 16 4)
  else if r.state = .retrieving then
    if s.indexes.jobs.any (fun j => j.serial == r.serial && j.awaited.isEmpty) then
      some (r.pipe.scorer, ((servedModel s r.pipe.scorer).map (·.maxCtx)).getD 1)
    else none
  else if r.state = .prefilling ∧ here then some (r.pipe.decoder, r.prompt.length - 1)
  else if r.state = .decoding ∧ here && stepsNext s r && (!isEntry s r || budgetOpen s r) then some (r.pipe.decoder, 1 + r.pipe.draftN)
  else none

/-- PROTECT of an item of a request, R387: the class of its tenant's contract where it is covered and the tenant is at risk. -/
def protectOf (s : State) (r : Request) : Nat :=
  match kget s.sched.contracts r.tenant with
  | some c => if r.covered && c.atRisk then c.cls else 4
  | none => 4

/-- Tiles of the widest layer of a model for a number of rows. -/
def stepTiles (s : State) (m : Model) (rows : Nat) : Nat :=
  max 1 (listMax ((List.range (m.program.length / 192)).map (fun i =>
    let l := layerAt m.program (192 * i)
    tileCount rows (outWidth ((chainOf s.compute.chains l).getD Chain.empty) l))))

/-- The cell item of the next step of a request, R385, R387: generation steps rank first in COMBINED role; one item stands for the layers of the step (log entry 84). -/
def stageItem (s : State) (r : Request) (h rows : Nat) : WorkItem :=
  let m := servedModel s h
  let exs := (m.map (programExtents s)).getD []
  let tiles := (m.map (fun m => stepTiles s m rows)).getD 1
  ⟨0, handoverSerial r.serial, r.tenant, b2n !(s.role == some 3 && decide (r.state = .decoding)), r.prio, protectOf s r, r.arrival, r.id, 0,
    (dieOrder (dieShares exs)).head?, tiles, tiles, false, 0, [], 0, 0, false, exs⟩

/-- The items of all steps that requests would run next on this module. -/
def dueItems (s : State) : List WorkItem := s.serve.requests.filterMap (fun r => (stageModel s r).map (fun h => stageItem s r h.1 h.2))

/-- Steps of requests that have become runnable wait from now on, those of requests that no longer run one leave, and a scheduling point follows, R384. PROTECT follows
the tenant's risk, R387. -/
def syncStages (s : State) : State :=
  let due := dueItems s
  let gone := s.sched.items.filter (fun i => decide (2 ^ 64 ≤ i.serial) && !due.any (fun d => d.serial == i.serial))
  let new := due.filter (fun d => !s.sched.items.any (fun i => i.serial == d.serial))
  let keep := fun (i : WorkItem) => match due.find? (fun d => d.serial == i.serial) with
    | some d => { i with protect := d.protect }
    | none => i
  let s1 := gone.foldl (fun t i => dropItems i.serial t) { s with sched := { s.sched with items := s.sched.items.map keep } }
  if gone.isEmpty && new.isEmpty then s1 else schedPoint (new.foldl (fun t i => enterItem i t) s1)

/-- A step of a request holds cells. -/
def holdsCells (s : State) (serial : Nat) : Bool := s.sched.items.any (fun i => i.serial == handoverSerial serial && !i.cells.isEmpty)

/-- After a row of a stage: where its item has left its cells a scheduling point follows, R384, and the steps that are runnable next wait. -/
def stageOver (serial : Nat) (s : State) : State := if holdsCells s serial then s else syncStages (schedPoint s)

/-- A row of a stage: where the stage's next part is a step of a model, it runs once its item has been granted cells in the order of R387 (log entry 84). -/
def onStage (serial now : Nat) (s : State) (k : Request → State → State) : State :=
  onRequest serial now s (fun _ t =>
    let s1 := syncStages t
    match requestOf s1 serial with
    | none => s1
    | some r =>
      if (stageModel s1 r).isNone then k r s1
      else if holdsCells s1 serial then stageOver serial (k r s1)
      else s1)

end Sys2Proof.Machine
end

