-- ==== Sys2Proof/Machine/StageRows.lean ====
section
/-! DEFINITION. The stages of requests as events, and KV_SHIP messages: chapter 12. -/

namespace Sys2Proof.Machine

open Sys2Proof

/-- RETRIEVAL_STAGE, R364: it begins, or it ends once every shard has answered. -/
def retrievalStage (serial : Nat) (fetched : List (Nat × Nat × Nat × Bytes)) (payloads : List (Nat × Bytes)) (now : Nat) (s : State) : State :=
  onStage serial now s (fun r s =>
    let job := fun (t : State) => t.indexes.jobs.find? (fun j => j.serial == serial)
    let finishIt := fun (q : Request) => do
      match job (← get) with
      | some j => if j.awaited.isEmpty then retrievalEnd q j fetched payloads else pure ()
      | none => pure ()
    if retrieves r.pipe && decide (r.state = .queued) && r.prompt.isEmpty && r.rtp.isNone then
      runStage r (do
        retrievalBegin r fetched
        match requestOf (← get) serial with
        | some q => finishIt q
        | none => pure ()) s
    else if r.state = .retrieving then runStage r (finishIt r) s
    else s)

/-- RETRIEVAL_STAGE. -/
def execRetrievalStage (r : Nat) (fetched : List (Nat × Nat × Nat × Bytes)) (payloads : List (Nat × Bytes)) (now : Nat) (s : State) : Result :=
  nextOf s (retrievalStage r fetched payloads now s)

/-- The prompt of a request that has none yet: its input, tokenised where it is text, R329, which is counted, R345. -/
def takePrompt (r : Request) (s : State) : State :=
  let tokens := bitOf (fld r.params 2 1) 0
  let addr := fld r.params 8 8
  let len := fld r.params 16 4
  match readFails s addr (if tokens then 4 * len else len) with
  | some (st, d) => failRequest r st d s
  | none =>
    let p := inputTokens s r.pipe tokens addr len
    let r1 := { r with prompt := p, promptTokens := p.length }
    let read := if tokens then [] else inputCounts r.tenant (memRead s addr len)
    tryPages r1 (setRequest r1 (read.foldl (fun t c => bump c.1 c.2.1 c.2.2 t) s))

/-- An OPEN that waits takes its pages and a channel and is answered ACCEPT, R368. -/
def tryAccept (x : Inbound2) (s : State) : State :=
  let put := fun (y : Inbound2) (t : State) =>
    { t with serve := { t.serve with inbound := t.serve.inbound.filter (fun z => !(z.peer == x.peer && z.tenant == x.tenant && z.id == x.id)) ++ [y] } }
  match kget s.serve.pipelines x.nextPipe with
  | none => s
  | some p =>
    let need := pagesNeeded s p x.prompt p.maxNew
    match firstFree (heldChannels s x.peer) 4 4092, takeFrames x.tenant (need.1 + need.2) s with
    | some ch, (some frames, s1) =>
      sendMessage x.peer 0x02 1 x.tenant x.id ch
        (toLe 1 1 ++ [0] ++ toLe 2 x.entry ++ toLe 2 x.attempt ++ toLe 2 x.nextPipe ++ toLe 4 x.tag ++ toLe 4 x.prompt ++ zeros 8)
        (setChannel x.peer ch Channel.reset (put { x with accepted := true, channel := ch, pages := ⟨frames, []⟩ } s1))
    | some _, (none, s1) => put x s1
    | none, _ => put x s

/-- PAGE_RESERVATION: a queued request's pages are reserved, or an OPEN that waits is; a handover under way is named by its place in the list and 2^64 (log entry 60), R366. -/
def pageReservation (serial now : Nat) (s : State) : State :=
  if 2 ^ 64 ≤ serial then
    let s1 := advance now s
    match s1.serve.inbound[serial - 2 ^ 64]? with
    | none => s1
    | some x => if x.accepted then s1 else tryAccept x s1
  else onRequest serial now s (fun r s =>
    if r.state ≠ .queued then s
    else if r.pipe.kind = 4 ∨ r.prompt.isEmpty = false then tryPages r s
    else if r.pipe.kind = 2 ∨ r.pipe.kind = 3 then takePrompt r s
    else s)

/-- PAGE_RESERVATION. -/
def execPageReservation (r now : Nat) (s : State) : Result := nextOf s (pageReservation r now s)

/-- PREFILL_STAGE, R367; a handover that waits for a channel is opened. -/
def execPrefillStage (r : Nat) (fetched : List (Nat × Nat × Nat × Bytes)) (now : Nat) (s : State) : Result :=
  nextOf s (onStage r now s (fun q s =>
    if q.state = .prefilling ∧ q.holder = s.fabric.view.self then runStage q (prefillStage q fetched) s
    else if q.state = .shipping ∧ q.shipTo = none then openShip q s
    else s))

/-- DECODE_STEP, R373: a decode step here, or at the entry member the consumption of tokens decoded elsewhere. -/
def execDecodeStep (r : Nat) (fetched : List (Nat × Nat × Nat × Bytes)) (now : Nat) (s : State) : Result :=
  nextOf s (onStage r now s (fun q s =>
    if q.state ≠ .decoding then s
    else if q.holder = s.fabric.view.self then decodeRow q fetched s
    else consumeAll q s))

/-- A member frees what it holds for a request at the step boundary after its end, R363; the source of a handover frees its pages, R368. -/
def execRequestFree (r : Nat) (s : State) : Result :=
  nextOf s (match requestOf s r with
    | none => s
    | some q =>
      if q.state = .ending then freeRequest q s
      else if q.state = .decoding ∧ q.holder ≠ s.fabric.view.self then
        setRequest { q with kv := none, draftKv := none, prompt := [] }
          (releaseFrames q.tenant ((q.kv.map (·.frames)).getD []) (releaseFrames q.tenant ((q.draftKv.map (·.frames)).getD []) s))
      else s)

/-- CHUNK_RESERVATION: room for the next chunk is reserved and the request consumes again, R380. -/
def execChunkReservation (r now : Nat) (s : State) : Result :=
  nextOf s (onRequest r now s (fun q s =>
    if q.chunkHeld || !isEntry s q then s
    else
      let x := holdChunk q s
      if x.1.chunkHeld then consumeAll x.1 (setRequest x.1 x.2) else setRequest x.1 x.2))

/-- CHUNK_TIMER: CHUNK_US after its first token the open chunk closes, R379. -/
def execChunkTimer (r now : Nat) (s : State) : Result :=
  nextOf s (onRequest r now s (fun q s =>
    if q.chunkUs = 0 ∨ q.chunkTokens.isEmpty ∨ s.frontTime < q.chunkSince + q.chunkUs * 1000 then s
    else
      let x := rollChunk q s
      setRequest x.1 x.2))

/-- REQUEST_DEADLINE: arrival plus DEADLINE_NS has passed, R362. -/
def execRequestDeadline (r now : Nat) (s : State) : Result :=
  nextOf s (onRequest r now s (fun q s =>
    if !isEntry s q || decide (s.frontTime < q.arrival + q.deadline) then s
    else endRequest q ⟨7, .deadlineMissed, 0, 0xFFFF⟩ s))

/-- A KV_SHIP message of one operation arrives, R368, R430. -/
def onShip (op peer : Nat) (plain : Bytes) (s : State) (k : Msg → State → State) : State :=
  if fld plain 24 1 ≠ op then s
  else onMessage 0x02 peer plain s (fun m s =>
    if !zeroAt m.body 1 1 || !zeroAt m.body 18 2 || m.body.length != 24 + (if op = 2 then 65536 else 0) then malformed s else k m s)

/-- The handover that a KV_SHIP message is about, at its target. -/
def inboundOf (s : State) (peer tenant id : Nat) : Option Inbound2 :=
  s.serve.inbound.find? (fun x => x.peer == peer && x.tenant == tenant && x.id == id)

/-- A handover at its target changed in place. -/
def setInbound (x : Inbound2) (s : State) : State :=
  { s with serve := { s.serve with inbound := s.serve.inbound.map (fun y =>
    if y.peer = x.peer ∧ y.tenant = x.tenant ∧ y.id = x.id then x else y) } }

/-- A handover at its target is dropped with its pages. -/
def dropInbound (x : Inbound2) (s : State) : State :=
  releaseFrames x.tenant x.pages.frames
    { s with serve := { s.serve with inbound := s.serve.inbound.filter (fun y => !(y.peer == x.peer && y.tenant == x.tenant && y.id == x.id)) } }

/-- KV_SHIP OPEN: the target checks pipeline, role and tag, reserves pages and accepts, R349, R366, R368. -/
def shipOpen (peer : Nat) (m : Msg) (s : State) : State :=
  let b := m.body
  let p := (kget s.serve.pipelines (fld b 6 2)).filter (fun p => p.tenant == m.tenant && p.kind == 4)
  let dec := p.bind (fun p => modelOf s p.decoder)
  let refuse := fun (st : Status) =>
    sendMessage peer 0x02 4 m.tenant m.corr ((firstFree (heldChannels s peer) 4 4092).getD 4) (toLe 1 4 ++ [0] ++ slice b 2 14 ++ zeros 4 ++ toLe 4 st.code) s
  match p, dec with
  | some p, some d =>
    if !s.fabric.leaving.isEmpty then refuse .memberUnreachable
    else if !admitsKv s.role then refuse .notPermitted
    else if d.tag ≠ fld b 8 4 then refuse .badFormat
    else if overFrames s m.tenant (pagesNeeded s p (fld b 12 4) p.maxNew) then refuse .notPermitted
    else tryAccept ⟨peer, m.tenant, fld b 2 2, m.corr, fld b 4 2, 0, fld b 6 2, fld b 8 4, fld b 12 4, false, ⟨[], []⟩, []⟩ s
  | _, _ => refuse .badFormat

/-- KV_SHIP OPEN. -/
def execKvShipOpen (peer : Nat) (plain : Bytes) (s : State) : Result := nextOf s (onShip 0 peer plain s (shipOpen peer))

/-- The request that a KV_SHIP answer is about, at its source. -/
def shipping (s : State) (peer : Nat) (m : Msg) : Option Request :=
  (requestKeyed s m.tenant (fld m.body 2 2) m.corr).filter (fun r => r.shipTo == some peer && r.attempt == fld m.body 4 2 && decide (r.state = .shipping))

/-- KV_SHIP ACCEPT: the source ships every page, R368. -/
def execKvShipAccept (peer : Nat) (plain : Bytes) (s : State) : Result :=
  nextOf s (onShip 1 peer plain s (fun m s =>
    match shipping s peer m with
    | none => s
    | some r =>
      match servedModel s r.pipe.decoder with
      | none => failRequest r .outOfRange 0 s
      | some d =>
        if r.shipped then s
        else
          let r1 := { r with shipped := true }
          coordinateShip r1 peer (setRequest r1 (shipPages r1 d peer s))))

/-- KV_SHIP PAGE: a page of the present attempt is held unseen; others are discarded, R368. -/
def execKvShipPage (peer : Nat) (plain : Bytes) (s : State) : Result :=
  nextOf s (onShip 2 peer plain s (fun m s =>
    let b := m.body
    match inboundOf s peer m.tenant m.corr with
    | none => s
    | some x =>
      if x.accepted = false ∨ x.attempt ≠ fld b 4 2 then s
      else
        let cells := Memory.writeN x.pages.cells (fld b 16 2 * 2 ^ 40 + fld b 20 4 * 2 ^ 16) (b.drop 24)
        setInbound { x with pages := { x.pages with cells := cells }, got := (fld b 16 2, fld b 20 4) :: x.got } s))

/-- KV_SHIP ABORT: the pages of an attempt are dropped and the next attempt is awaited, R368. -/
def execKvShipAbort (peer : Nat) (plain : Bytes) (s : State) : Result :=
  nextOf s (onShip 3 peer plain s (fun m s =>
    match inboundOf s peer m.tenant m.corr with
    | none => s
    | some x =>
      if x.attempt ≠ fld m.body 4 2 then s
      else setInbound { x with attempt := x.attempt + 1, pages := { x.pages with cells := [] }, got := [] } s))

/-- KV_SHIP REFUSE: the request fails, R368; the status stands in PAGE, 0 for BAD_FORMAT (log entry 60). -/
def execKvShipRefuse (peer : Nat) (plain : Bytes) (s : State) : Result :=
  nextOf s (onShip 4 peer plain s (fun m s =>
    match shipping s peer m with
    | none => s
    | some r =>
      let code := fld m.body 20 4
      let st := if code = 0 then Status.badFormat else statusOf code
      failRequest { r with shipTo := none } st (if st = .badFormat then 48 else 0) s))

/-- Pages of an arriving handover that must have been received. -/
def pagesOwed (s : State) (p : Pipeline) (x : Inbound2) : Nat :=
  ((modelOf s p.decoder).map (fun m => m.kvLayers * imagePages (x.prompt - 1) m.slots)).getD 0

/-- The target's vote on a handover, R72, R368: every page is here, and pages for the request's own MAX_NEW are reserved. -/
def handoverVote (peer tenant id : Nat) (content : Bytes) (s : State) : Reply × State :=
  match inboundOf s peer tenant id with
  | none => (plainReply .badFormat 48, s)
  | some x =>
    match kget s.serve.pipelines x.nextPipe with
    | none => (plainReply .badFormat 48, s)
    | some p =>
      let need := pagesNeeded s p x.prompt (fld content 12 4)
      if x.accepted = false ∨ x.got.eraseDups.length < pagesOwed s p x then (plainReply .badFormat 48, s)
      else if carriedMismatch s p content then (plainReply .badFormat 48, s)
      else if (copySteer tenant content s).isNone then (plainReply .noResource, s)
      else match takeFrames tenant (need.1 + need.2 - listSum x.pages.frames) s with
        | (none, s1) => (plainReply .noResource, s1)
        | (some more, s1) =>
          let frames := ((x.pages.frames.zip more).map (fun q => q.1 + q.2))
          (okReply [], setInbound { x with pages := { x.pages with frames := frames } } s1)

/-- The commit of a handover at its target: the pages are installed and the request decodes, R368. -/
def handoverCommit (peer tenant id : Nat) (hdr : Header) (params content : Bytes) (s : State) : State :=
  match inboundOf s peer tenant id with
  | none => s
  | some x =>
    match kget s.serve.pipelines x.nextPipe, copySteer tenant content s with
    | some p, some (i, s1) =>
      let r := { arrivedRequest s1 tenant x.entry id hdr params content p with steer := i, kv := some x.pages, state := ReqState.decoding, prompt := [] }
      addRequest r { s1 with
        proto := { s1.proto with nextSerial := s1.proto.nextSerial + 1 }
        serve := { s1.serve with inbound := s1.serve.inbound.filter (fun y => !(y.peer == peer && y.tenant == tenant && y.id == id)) } }
    | _, _ => s

/-- A handover whose commit has been decided: the request decodes at its target, or fails, R368, R402. -/
def settleHandover (r : Request) (s : State) : State :=
  match r.decided, r.shipTo with
  | some d, some dst =>
    if goodStatus d.status then
      let r1 := { r with state := if isEntry s r then ReqState.decoding else .ending, holder := dst, shipTo := none, shipped := false, decided := none }
      let s1 := setRequest r1 s
      if isEntry s r then s1 else requestReply r.entry 1 r1 .ok (stageNotice { r1 with state := .decoding } true 0) s1
    else failRequest { r with shipTo := none, decided := none } d.status d.detail s
  | _, _ => s

/-- Every decided handover. -/
def settleHandovers (s : State) : State := (s.serve.requests.filter (fun r => r.decided.isSome)).foldl (fun t r => settleHandover r t) s

/-- The entry member hears of a request from the member that holds a stage of it, R368 (log entry 60); none where the reply is about no request of this member. -/
def requestNotice (peer : Nat) (m : Msg) (st : Status) (detail : Nat) (b : Bytes) (s : State) : Option State :=
  match s.serve.requests.find? (fun r => r.tenant == m.tenant && r.id == m.corr && (if isEntry s r then r.holder == peer else r.entry == peer)) with
  | none => none
  | some r =>
    if r.state = .ending then some s
    else if !goodStatus st then some (failRequest { r with holder := s.fabric.view.self } st detail s)
    else if detail % 65536 ≠ 0x0901 then none
    else match detail / 65536 with
      | 1 =>
        let p := fld b 4 4
        let r1 := { r with state := if fld b 0 1 = 5 then ReqState.decoding else r.state, holder := fld b 2 2, promptTokens := p, holderPages := fld b 8 4 }
        some (setRequest r1 (if fld b 1 1 = 1 then debit r.tenant p s else s))
      | 2 =>
        let n := fld b 12 4
        let toks := unpack 32 n (b.drop 16)
        let r1 := { r with
          state := .decoding
          proposed := fld b 4 4
          accepted := fld b 8 4
          tailEnd := if fld b 0 1 = 0xFF then none else some (fld b 0 1)
          backlog := if n = 0 then r.backlog else r.backlog ++ [toks] }
        some (consumeAll r1 (setRequest r1 s))
      | 3 => some (setRequest { r with ahead := r.ahead - fld b 0 4 } s)
      | _ => none

/-- A member tells that a request has ended, or a handover of it is given up: ABORT with the request's ID, R363, R368. -/
def requestAborted (peer : Nat) (m : Msg) (s : State) : State :=
  let s1 := match inboundOf s peer m.tenant m.corr with
    | none => s
    | some x => dropInbound x s
  match s1.serve.requests.find? (fun r => r.tenant == m.tenant && r.id == m.corr && r.entry == peer && !isEntry s1 r) with
  | none => s1
  | some r => tellShip r (setRequest { r with state := .ending, shipTo := none } s1)

/-- What becomes of requests when a peer is unreachable, R361, R368. -/
def requestsLose (peer : Nat) (s : State) : State :=
  let s1 := (s.serve.inbound.filter (fun x => x.peer == peer)).foldl (fun t x => dropInbound x t) s
  s1.serve.requests.foldl (fun t r =>
    if r.state = .ending then t
    else if r.entry = peer then setRequest { r with state := .ending } t
    else if r.shipTo = some peer then (if (coordOf t (handoverKey t r)).isSome then t else failRequest { r with shipTo := none } .memberUnreachable peer t)
    else if isEntry t r && r.holder == peer then failRequest { r with holder := t.fabric.view.self } .memberUnreachable peer t
    else t) s1

end Sys2Proof.Machine
end

