-- ==== Sys2Proof/Machine/FabricOps.lean ====
section
/-! DEFINITION. Ports, routes (R423), FRONT_VIEW messages (R430, R445), views as they are edited and installed (R440 to R445), the loss of a peer (R446, R598). -/

namespace Sys2Proof.Machine

open Sys2Proof

/-- A port state as LINK_STATUS codes it, R439. -/
def PortState.code : PortState → Nat
  | .down => 0
  | .training => 1
  | .up => 2
  | .degraded => 3
  | .addrConflict => 4

/-- A port mode as LINK_CONFIG codes it, R438. -/
def PortMode.code : PortMode → Nat
  | .off => 0
  | .jet => 1
  | .eth => 2

/-- A port carries data: up at full width or degraded. -/
def portCarries (x : Port) : Bool := decide (x.mode ≠ .off) && (decide (x.state = .up) || decide (x.state = .degraded))

/-- A port changes its state or width: a PORT_STATE record, R578. -/
def portTo (p : Nat) (st : PortState) (width : Nat) (x : Port) (s : State) : State :=
  let s1 := setPort p { x with state := st, width := width } s
  if x.state = st ∧ x.width = width then s1
  else track 0x10 (0xA000 + p) 0 0 p (x.state.code + st.code * 256 + width * 65536) s1

/-- The module of the view that has a DEVICE_UID. -/
def moduleOfUid (s : State) (uid : Nat) : Option Nat := (kkeys s.fabric.view.modules).find? (fun m => uidOf s m == uid)

/-- The ports of this module with a JET neighbour, and the neighbour's UID. -/
def ownAdjacencies (s : State) : List (Nat × Nat) :=
  (s.fabric.ports.filter (fun p => decide (p.2.mode = .jet) && decide (p.2.state ≠ .down) && p.2.neighbourUid != 0)).map
    (fun p => (p.1, p.2.neighbourUid))

/-- JET hops of the front as reported: from module, its port, to module. -/
def jetEdges (s : State) : List (Nat × Nat × Nat) :=
  let self := s.fabric.view.self
  let all := (ownAdjacencies s).map (fun a => (self, a.1, a.2)) ++ s.fabric.adjacencies.filter (fun a => a.1 != self)
  all.filterMap (fun a => (moduleOfUid s a.2.2).map (fun n => (a.1, a.2.1, n)))

/-- Modules by their JET hops to a destination, at most `fuel` rounds beyond those found. -/
def hopsFrom (edges : List (Nat × Nat × Nat)) : Nat → Nat → List Nat → List (Nat × Nat) → List (Nat × Nat)
  | 0, _, _, seen => seen
  | fuel + 1, k, front, seen =>
    let next := ((edges.filter (fun e => front.contains e.2.2 && !seen.any (fun p => p.1 == e.1))).map (·.1)).eraseDups
    if next.isEmpty then seen else hopsFrom edges fuel (k + 1) next (seen ++ next.map (fun m => (m, k)))

/-- JET hops from each module that can reach a destination, R423. -/
def hopsTo (edges : List (Nat × Nat × Nat)) (dst : Nat) : List (Nat × Nat) := hopsFrom edges 15 1 [dst] [(dst, 0)]

/-- The better of two routes: cost, next hop, port, R423. -/
def routeLe (a b : Nat × Nat × Nat) : Bool :=
  decide (a.1 < b.1) || (a.1 == b.1 && (decide (a.2.1 < b.2.1) || (a.2.1 == b.2.1 && decide (a.2.2 ≤ b.2.2))))

/-- The route of a module to a destination over JET hops: cost, next hop, port. -/
def jetRoute (edges : List (Nat × Nat × Nat)) (src dst : Nat) : Option (Nat × Nat × Nat) :=
  let d := hopsTo edges dst
  let l := edges.filterMap (fun e => if e.1 = src then (d.find? (fun p => p.1 == e.2.2)).map (fun p => (p.2 + 1, e.2.2, e.2.1)) else none)
  (sortBy routeLe l).head?

/-- The address of a module over Ethernet is known. -/
def etherKnown (s : State) (m : Nat) : Bool := (kget s.fabric.view.modules m).any (fun e => !e.addr.all (· == 0))

/-- The lowest Ethernet port that is up. -/
def etherPort (s : State) : Option Nat :=
  (s.fabric.ports.find? (fun p => decide (p.2.mode = .eth) && decide (p.2.state = .up) && !p.2.detecting)).map (·.1)

/-- The route of this module to another: cost, next hop, port; an Ethernet path costs 4, R423. -/
def routeTo (s : State) (edges : List (Nat × Nat × Nat)) (dst : Nat) : Option (Nat × Nat × Nat) :=
  let jet := (jetRoute edges s.fabric.view.self dst).toList
  let eth := match etherPort s with
    | some p => if etherKnown s dst then [(4, dst, p)] else []
    | none => []
  (sortBy routeLe (jet ++ eth)).head?

/-- Routes are computed anew, R423. -/
def recomputeRoutes (s : State) : State :=
  let edges := jetEdges s
  let ms := (kkeys s.fabric.view.modules).filter (· != s.fabric.view.self)
  { s with fabric := { s.fabric with
    routes := ms.filterMap (fun m => (routeTo s edges m).map (fun r => (m, r.2.1, r.2.2, r.1))) } }

/-- The type header of FRONT_VIEW, R430. -/
def frontViewHdr (op leader entries epoch : Nat) : Bytes := toLe 1 op ++ [0] ++ toLe 2 leader ++ toLe 4 entries ++ toLe 8 epoch

/-- The modules of the view that messages reach, without this one. -/
def reachedPeers (s : State) : List Nat := (reachSet s).filter (· != s.fabric.view.self)

/-- Adjacencies are reported to every member in FRONT_VIEW ADJ, R423. -/
def reportAdjacencies (s : State) : State :=
  let adj := ownAdjacencies s
  sendAll 0x0B 4 0 0 (frontViewHdr 4 s.fabric.view.self adj.length s.fabric.view.epoch ++ adj.flatMap (fun a => toLe 1 a.1 ++ toLe 8 a.2))
    (reachedPeers s) s

/-- A port has come up or gone down: routes and reports follow. -/
def linksChanged (s : State) : State := reportAdjacencies (recomputeRoutes s)

/-- A port goes DOWN: nothing of its training is kept, R419. -/
def portDown (p : Nat) (x : Port) (s : State) : State :=
  linksChanged (portTo p .down 0 { x with lostLanes := [], fullTraining := true, neighbourUid := 0, neighbourPort := 0, detecting := false, neighbours := [], kept := [], nakRun := 0 } s)

/-- A port retrains, R419: what the retraining cuts off is sent again by the transport, R422. -/
def portRetrain (p : Nat) (full : Bool) (x : Port) (s : State) : State :=
  portTo p .training 0 { x with fullTraining := full, retrains := (x.retrains + 1) % 2 ^ 32, kept := [], ackSeq := x.txSeq, nakRun := 0, detecting := false } s

/-- The scope path of a module of a view is as long as its depth, R445. -/
def moduleDepth (v : View) (m : Nat) : Nat := (modulePath v m).length

/-- One view entry, R445. -/
def viewEntry (s : State) (v : View) (reach : List Nat) (m : Nat) : Bytes :=
  toLe 2 m ++ toLe 1 (moduleDepth v m) ++ toLe 1 (b2n (!reach.contains m)) ++ pathBytes (modulePath v m) ++ toLe 8 (uidOf s m)
    ++ toLe 1 ((roleOf s m).getD 0xFF) ++ zeros 7

/-- The entries of the view for a set of modules reached. -/
def viewEntries (s : State) (reach : List Nat) : Bytes := (kkeys s.fabric.view.modules).flatMap (viewEntry s s.fabric.view reach)

/-- The modules that view entries show as reached. -/
def entriesReached (n : Nat) (b : Bytes) : List Nat :=
  ((List.range n).filter (fun i => fld b (32 * i + 3) 1 == 0)).map (fun i => fld b (32 * i) 2)

/-- A commit-record name, R430. -/
def keyName (k : TxnKey) : Bytes := toLe 2 k.coord ++ zeros 2 ++ toLe 4 k.session ++ toLe 4 k.txn

/-- A count and a list of commit-record names, R430. -/
def keyNames (l : List TxnKey) : Bytes := toLe 4 l.length ++ l.flatMap keyName

/-- The commit-record names from an offset. -/
def keysAt (b : Bytes) (off : Nat) : List TxnKey :=
  (List.range (fld b off 4)).map (fun i => ⟨fld b (off + 4 + 12 * i) 2, fld b (off + 8 + 12 * i) 4, fld b (off + 12 + 12 * i) 4⟩)

/-- Sixteen bytes of an address. -/
def addrBytes (b : Bytes) : Bytes := (b ++ zeros 16).take 16

/-- The UID of a module of a view as this module knows it. -/
def uidIn (s : State) (v : View) (m : Nat) : Nat :=
  if v.self = m then Config.deviceUid.toNat else ((kget v.modules m).map (·.uid)).getD (uidOf s m)

/-- A whole view as bytes: what the spec's messages do not lay out, in the model's own layout (log entry 61). -/
def encodeView (s : State) (v : View) : Bytes :=
  toLe 8 v.epoch ++ toLe 2 v.nodes.length ++ toLe 2 v.modules.length
    ++ v.nodes.flatMap (fun p =>
      toLe 2 p.1 ++ toLe 2 p.2.parent ++ toLe 2 p.2.index ++ (match p.2.anchor with
        | .module m => toLe 2 0 ++ toLe 2 m
        | .front n => toLe 2 1 ++ toLe 2 n))
    ++ v.modules.flatMap (fun p => toLe 2 p.1 ++ toLe 2 p.2.node ++ toLe 8 (uidIn s v p.1) ++ addrBytes p.2.addr)

/-- The view that bytes spell, before this module takes its place in it. -/
def decodeView (b : Bytes) : View :=
  let n := fld b 8 2
  let m := fld b 10 2
  let at' := 12 + 10 * n
  { nodes := (List.range n).map (fun i =>
      let o := 12 + 10 * i
      (fld b o 2, ⟨fld b (o + 2) 2, fld b (o + 4) 2, if fld b (o + 6) 2 = 0 then .module (fld b (o + 8) 2) else .front (fld b (o + 8) 2)⟩))
    modules := (List.range m).map (fun i =>
      let o := at' + 28 * i
      (fld b o 2, ⟨fld b (o + 2) 2, fld b (o + 4) 8, slice b (o + 12) 16⟩))
    self := 0
    epoch := fld b 0 8
    rights := .full
    installed := 0
    reach := [] }

/-- Length of an encoded view. -/
def viewLen (b : Bytes) : Nat := 12 + 10 * fld b 8 2 + 28 * fld b 10 2

/-- This module's place in a view: the module that has its UID. -/
def placeIn (v : View) : Option Nat := ((v.modules.find? (fun p => p.2.uid == Config.deviceUid.toNat)).map (·.1))

/-- A module ID in what this module holds, renamed when its own ID changes, R27. -/
def renamed (old new m : Nat) : Nat := if m = old then new else m

/-- This module's own ID changes: everything it holds that names itself. -/
def renameSelf (old new : Nat) (s : State) : State :=
  if old = new then s
  else
    let r := renamed old new
    { s with
      tables := { s.tables with tables := s.tables.tables.map (fun p => (p.1, { p.2 with shard := p.2.shard.map r })) }
      indexes := { s.indexes with indexes := s.indexes.indexes.map (fun p => (p.1, { p.2 with shard := p.2.shard.map r })) }
      serve := { s.serve with
        requests := s.serve.requests.map (fun q => { q with entry := r q.entry, holder := r q.holder })
        pipelines := s.serve.pipelines }
      sched := { s.sched with contracts := s.sched.contracts.map (fun p => (p.1, { p.2 with member := r p.2.member })) } }

/-- Objects that others hold leave this module's knowledge: it keeps what is wholly its own, R443. -/
def dropShared (s : State) : State :=
  let self := s.fabric.view.self
  { s with
    tables := { s.tables with tables := s.tables.tables.filter (fun p => p.2.shard == [self]) }
    indexes := { s.indexes with indexes := s.indexes.indexes.filter (fun p => p.2.shard == [self]) } }

/-- The front clock is stepped, R434: a step backwards is written to the fault log, R591. -/
def stepClock (now : Nat) (s : State) : State :=
  let old := s.frontTime
  let s1 := { s with frontTime := now }
  if now < old then logFault 0x000A 0 0 0xD000 0 0 0 (old - now) s1 else s1

/-- A view is installed: peers count as heard from now, channels to modules that are no longer the same are gone, pair secrets of those who left are zeroised (R476), newcomers are told of tables and indexes (R239, R264; log entry 64), routes follow. -/
def installView (v : View) (now : Nat) (s : State) : State :=
  let old := s.fabric.view
  let self := v.self
  let same := fun (m : Nat) => khas old.modules m && m != self && uidOf s m == ((kget v.modules m).map (·.uid)).getD 0 && old.modules.length != 1
  let left := (kkeys old.modules).filter (fun m => m != old.self && !(v.modules.any (fun p => p.2.uid == uidOf s m)))
  let leftUids := left.map (uidOf s)
  let s1 := renameSelf old.self self s
  let s2 := { s1 with
    sec := { s1.sec with pairs := s1.sec.pairs.filter (fun p => !leftUids.contains p.1) }
    fabric := { s1.fabric with
      view := { v with installed := now }
      channels := s1.fabric.channels.filter (fun c => same (c.1 / 4096))
      adjacencies := s1.fabric.adjacencies.filter (fun a => same a.1)
      peers := (v.modules.filter (fun p => p.1 != self)).map (fun p =>
        let x := kgetD s1.fabric.peers p.1 ⟨now, 0xFF, v.epoch, v.epoch, false⟩
        (p.1, if same p.1 then { x with role := if x.cut then x.role else 0xFF } else ⟨now, 0xFF, v.epoch, v.epoch, false⟩))
      accepted := if old.epoch < v.epoch then max s1.fabric.accepted v.epoch else v.epoch
      caughtUp := false
      proposal := none } }
  let fresh := (v.modules.filter (fun p => p.1 != self && !khas s2.sec.pairs p.2.uid)).map (fun p => (p.1, p.2.uid))
  let joined := (kkeys v.modules).filter (fun m => m != self && !same m && !fresh.any (fun p => p.1 == m))
  linksChanged (joined.foldl (fun t m => tellIndexes m (tellTables m t)) (fresh.foldl (fun t p => askPair p.1 p.2 t) s2))

/-- The node a member stands in, and its place: a module by its ID, a sub-front by its node. -/
def memberNode (v : View) : MemberRef → Option Nat
  | .module m => (kget v.modules m).map (·.node)
  | .front n => if n = 0 then none else (kget v.nodes n).map (·.parent)

/-- The anchor that a node takes when its own has left: the lowest direct module, else the sub-front of lowest index, R443. -/
def nextAnchor (v : View) (node : Nat) : Option MemberRef :=
  match listMin? (directModules v node) with
  | some m => some (.module m)
  | none =>
    let fs := sortBy (fun a b => Nat.ble a.1 b.1) ((directFronts v node).map (fun f => (((kget v.nodes f).map (·.index)).getD 0, f)))
    fs.head?.map (fun p => .front p.2)

/-- Whether a member still stands in a view. -/
def memberStands (v : View) : MemberRef → Bool
  | .module m => khas v.modules m
  | .front n => khas v.nodes n

/-- Sub-fronts left without members cease to exist; anchors that have left pass on, R443. One round for each level. -/
def tidyView : Nat → View → View
  | 0, v => v
  | fuel + 1, v =>
    let empty := fun (n : Nat) => n != 0 && (directModules v n).isEmpty && (directFronts v n).isEmpty
    let v1 := { v with nodes := v.nodes.filter (fun p => !empty p.1) }
    let v2 := { v1 with nodes := v1.nodes.map (fun p =>
      let stands := memberStands v1 p.2.anchor && (memberNode v1 p.2.anchor == some p.1)
      (p.1, if stands then p.2 else { p.2 with anchor := (nextAnchor v1 p.1).getD p.2.anchor })) }
    tidyView fuel v2

/-- A view without some modules and the nodes below one that leaves. -/
def viewWithout (v : View) (gone : List Nat) : View :=
  tidyView 9 { v with modules := v.modules.filter (fun p => !gone.contains p.1), reach := v.reach.filter (fun m => !gone.contains m) }

/-- A commit that this module coordinates waits for none of the front that it has left. -/
def aloneCoord (c : Coord) : Coord :=
  { c with participants := c.participants.filter (· == c.key.coord), acks := if c.acks.contains c.key.coord then [0] else [] }

/-- This module becomes a lone top front, R26, R443: ID 0, epoch 1, full rights; it keeps its front time; of the commits it coordinates, those decided go on without the others. -/
def becomeLone (s : State) : State :=
  let t := installView View.lone s.frontTime (dropShared { s with fabric := { s.fabric with
    leaving := []
    coords := s.fabric.coords.map aloneCoord } })
  s.fabric.coords.foldl (fun u c =>
    match c.stage, listMin? (c.participants.filter (· != c.key.coord)) with
    | .preparing, some m => dropPrepared c.key (coordFails c (plainReply .memberUnreachable m) u)
    | .preparing, none => coordVoted c.key false u
    | _, _ => coordReplied c.key (coordAcked c.key u)) t

/-- A search that waits for no shard any more ends, R297. -/
def settleSearches (s : State) : State :=
  (s.indexes.jobs.filter (fun j => j.awaited.isEmpty)).foldl (fun t j =>
    match flightOf t j.serial, indexOf t j.index with
    | some f, some x => if f.op = .search then settleVerdict f (searchDone f x j [] t) t else t
    | _, _ => t) s

/-- The searches that wait for a peer take it as a failure, R297, and nothing is kept any more of a search of its own, R291. -/
def searchesLose (peer : Nat) (s0 : State) : State :=
  let s := { s0 with indexes := { s0.indexes with served := s0.indexes.served.filter (fun v => v.peer != peer) } }
  if s.indexes.jobs.any (fun j => j.awaited.contains peer) then
    settleSearches { s with indexes := { s.indexes with jobs := s.indexes.jobs.map (fun j =>
      if j.awaited.contains peer then
        { j with awaited := j.awaited.filter (· != peer), failures := j.failures ++ [(peer, Status.memberUnreachable.code)] }
      else j) } }
  else s

/-- A member's reply to a gathered command; with the last one the command ends, R36, R39, R605. -/
def gatherReply (serial m : Nat) (r : Reply) (s : State) : State :=
  match s.fabric.gathers.find? (fun g => g.serial == serial && g.awaited.contains m), flightOf s serial with
  | some g, some f =>
    let g1 : Gather := { g with awaited := g.awaited.filter (· != m), replies := g.replies ++ [(m, r)] }
    if g1.awaited.isEmpty then
      let s1 := { s with fabric := { s.fabric with gathers := s.fabric.gathers.filter (fun x => x.serial != serial) } }
      let c := if g1.replies.length = 1 then r else combineReplies s.fabric.view.self f.op g1.replies
      finishPlain f c (learnObject s.frontTime f c (g1.replies.map (·.1)) s1)
    else { s with fabric := { s.fabric with gathers := s.fabric.gathers.map (fun x => if x.serial = serial then g1 else x) } }
  | _, _ => s

/-- The gathered commands that wait for a peer take it as unreachable, R449. -/
def gathersLose (peer : Nat) (s : State) : State :=
  (s.fabric.gathers.filter (fun g => g.awaited.contains peer)).foldl (fun t g => gatherReply g.serial peer (plainReply .memberUnreachable peer) t) s

/-- The epoch a proposal takes, R448: one above the highest installed or accepted that any reached module has reported. -/
def nextEpoch (s : State) : Nat :=
  1 + listMax (s.fabric.view.epoch :: s.fabric.accepted :: (reachedPeers s).flatMap (fun m =>
    match kget s.fabric.peers m with
    | some p => [p.epoch, p.accepted]
    | none => []))

/-- A peer is declared unreachable: MEMBER_LOST (R591), and what waited for it ends (R74, R252, R297, R368, R449). -/
def losePeer (peer : Nat) (s : State) : State :=
  if !khas s.fabric.view.modules peer || peer == s.fabric.view.self || !reaches s peer then s
  else
    let s1 := setPeer peer { peerOf s peer with cut := true } s
    let s2 := logFault 0x0009 1 7 0x9100 0 0 peer (nextEpoch s1) s1
    let s3 := requestsLose peer (gathersLose peer (searchesLose peer (settleRepl s2)))
    settleHandovers (s3.fabric.coords.foldl (fun t c => coordReplied c.key t) s3)

/-- A link is closed for good: its channels to a peer carry no more and the peer is unreachable at once, R428, R473, R477. -/
def closeLinks (peer : Nat) (s : State) : State :=
  losePeer peer { s with fabric := { s.fabric with channels := s.fabric.channels.map (fun c =>
    if c.1 / 4096 = peer then (c.1, { c.2 with closed := true }) else c) } }

end Sys2Proof.Machine
end

