-- ==== Sys2Proof/Machine/LinkRows.lean ====
section
/-! DEFINITION. Ports, flits, segments, Neighbor Discovery and clock messages: the link events of chapter 14, LINK_CONFIG and LINK_STATUS. -/

namespace Sys2Proof.Machine

open Sys2Proof

/-- Entry `i` of a LINK_CONFIG, R438. -/
def linkEntry (f : Flight) (i off len : Nat) : Nat := par f (8 + 48 * i + off) len

/-- The checks of one LINK_CONFIG entry, R438. -/
def linkEntryChecks (f : Flight) (i : Nat) : List (Bool × Status × Nat) :=
  let at' := 8 + 48 * i
  let e := linkEntry f i
  let eth := e 1 1 == 2
  let off := !eth
  [ rangeIf (decide (15 < e 0 1)) at',
    badParamIf ((List.range i).any (fun j => linkEntry f j 0 1 == e 0 1)) at',
    badParamIf (decide (2 < e 1 1)) (at' + 1),
    badParamIf (off && e 2 1 != 0) (at' + 2), rangeIf (decide (63 < e 2 1)) (at' + 2),
    badParamIf (off && e 3 1 != 0) (at' + 3), rangeIf (eth && (e 3 1 == 0 || decide (128 < e 3 1))) (at' + 3),
    badParamIf (off && e 4 2 != 0) (at' + 4), rangeIf (eth && (decide (e 4 2 < 1280) || decide (9000 < e 4 2))) (at' + 4),
    badParamIf (off && e 6 2 != 0) (at' + 6), rangeIf (eth && e 6 2 != 0 && decide (e 6 2 < 1024)) (at' + 6),
    badParamIf (off && e 8 16 != 0) (at' + 8), badParamIf (off && e 24 16 != 0) (at' + 24),
    reservedZero f (at' + 40) 8 ]

/-- A named port takes its new configuration and retrains in its new mode; an ETH port without a partner is DOWN, R416, R419, R438. -/
def configurePort (f : Flight) (i : Nat) (s : State) : State :=
  let e := linkEntry f i
  let p := e 0 1
  let x := portOf s p
  let mode := if e 1 1 = 1 then PortMode.jet else if e 1 1 = 2 then PortMode.eth else PortMode.off
  let y : Port := { x with
    mode := mode
    dscp := e 2 1
    maskLen := e 3 1
    mtu := e 4 2
    udpPort := if mode = .eth ∧ e 6 2 = 0 then 47800 else e 6 2
    addr := slice f.params (8 + 48 * i + 8) 16
    gateway := slice f.params (8 + 48 * i + 24) 16
    lostLanes := []
    lossDue := false
    neighbourUid := 0
    neighbourPort := 0
    neighbours := [] }
  let z := { y with signal := x.signal && decide (x.mode = mode) }
  if mode = .off then portTo p .down 0 { y with kept := [], detecting := false } s
  else if mode = .eth ∧ z.signal = false then
    portTo p .down 0 { z with
      fullTraining := true
      retrains := (x.retrains + 1) % 2 ^ 32
      kept := []
      ackSeq := x.txSeq
      nakRun := 0
      detecting := false } s
  else portRetrain p true z s

/-- The commands of class 0x0B that change something end with PARTITIONED_READONLY on a READONLY module, R449. -/
def readonlyIf (s : State) : Bool × Status × Nat := failIf (decide (s.fabric.view.rights = .readonly)) .partitionedReadonly 0

/-- LINK_CONFIG, R438. -/
def linkConfigCommand : Command where
  op := .linkConfig
  changes := true
  objects := fun _ f => (List.range (par f 0 1)).map (fun i => ⟨.port, linkEntry f i 0 1⟩)
  check := fun s f => firstFail ([
    lengthIs f (8 + 48 * par f 0 1),
    rangeIf (par f 0 1 == 0 || decide (16 < par f 0 1)) 0,
    reservedZero f 1 7 ] ++ (List.range (par f 0 1)).flatMap (linkEntryChecks f)
    ++ [failIf ((List.range (par f 0 1)).any (fun i => unitOff s (0xA000 + linkEntry f i 0 1))) .noResource 0, readonlyIf s])
  run := fun s f => .done (linksChanged ((List.range (par f 0 1)).foldl (fun t i => configurePort f i t) s)) (okReply [])

/-- LINK_CONFIG. -/
def execLinkConfig (h : Nat) (s : State) : Result := execCommand linkConfigCommand h s

/-- One port record, R439. -/
def portRecord (x : Port) : Bytes :=
  toLe 1 x.mode.code ++ toLe 1 x.state.code ++ toLe 1 x.width ++ [0] ++ toLe 4 x.retrains
    ++ toLe 8 (if x.mode = .jet then x.neighbourUid else 0) ++ toLe 8 x.fecCorrected.toNat ++ toLe 8 x.fecUncorrected.toNat
    ++ toLe 8 x.crcFails.toNat ++ toLe 8 x.replays.toNat ++ toLe 8 x.tagFails.toNat ++ toLe 8 x.dropped.toNat

/-- LINK_STATUS, R439: DROPPED of every port counts the malformed messages of the module with its own datagrams. -/
def linkStatusCommand : Command where
  op := .linkStatus
  changes := false
  objects := fun _ _ => []
  check := fun s f => firstFail [lengthIs f 8, oneModule s f, reservedZero f 0 8]
  run := fun s _ => .done s (okReply (toLe 8 (unsignedOf 64 s.fabric.offsetNs) ++ zeros 8
    ++ (List.range 16).flatMap (fun p => portRecord { portOf s p with dropped := (portOf s p).dropped + s.fabric.malformed })))

/-- LINK_STATUS. -/
def execLinkStatus (h : Nat) (s : State) : Result := execCommand linkStatusCommand h s

/-- The widest width that the lanes a port has not lost allow, R419. -/
def widthLeft (lost : List Nat) : Nat :=
  if lost.isEmpty then 4
  else if !(lost.contains 0 || lost.contains 1) || !(lost.contains 2 || lost.contains 3) then 2
  else if [0, 1, 2, 3].any (fun l => !lost.contains l) then 1 else 0

/-- A pluggable above 12 W keeps the two ports of its cage DOWN, R560. -/
def cageHeldDown (s : State) (p : Nat) : Bool := decide (12000 < kgetD s.power.cages (p / 2) 0)

/-- The widths at which a training may bring a port up, R419. -/
def trainable (x : Port) (width : Nat) : Bool :=
  if x.mode = .eth then width == 4
  else if x.fullTraining then width == 4 || width == 2 || width == 1
  else (width == 4 || width == 2 || width == 1) && decide (width ≤ widthLeft x.lostLanes)

/-- The lanes that a port counts as lost once it has come up at a width. -/
def lanesAt (lost : List Nat) (width : Nat) : List Nat :=
  if widthLeft lost ≤ width then lost else if width = 2 then [3] else [1, 3]

/-- PORT_TRAINING_COMPLETE: a port comes up at its trained width, R419; an Ethernet port starts duplicate address detection, R433. -/
def portTrainingComplete (p width : Nat) (s : State) : State :=
  let x := portOf s p
  if x.mode = .off ∨ cageHeldDown s p ∨ (x.state ≠ .training ∧ x.state ≠ .down) ∨ trainable x width = false then s
  else
    let y := { x with signal := true, lostLanes := lanesAt x.lostLanes width, lossDue := false, fullTraining := false, detecting := decide (x.mode = .eth) }
    let s1 := portTo p (if width = 4 then .up else .degraded) width y s
    linksChanged (if x.mode = .eth then emit (.ethernet p 1 (slice x.addr 0 16)) s1 else s1)

/-- PORT_TRAINING_COMPLETE. -/
def execPortTrainingComplete (p width : Nat) (s : State) : Result := nextOf s (portTrainingComplete p width s)

/-- LANE_LOSS: a JET port retrains narrower and stays up, an ETH port goes DOWN until it retrains at full width, R419. -/
def laneLoss (p lane : Nat) (s : State) : State :=
  let x := portOf s p
  if 4 ≤ lane ∨ portCarries x = false ∨ x.lostLanes.contains lane then s
  else if x.mode = .eth then portDown p { x with lossDue := true } s
  else portRetrain p false { x with lostLanes := sortBy Nat.ble (lane :: x.lostLanes), lossDue := true } s

/-- LANE_LOSS. -/
def execLaneLoss (p lane : Nat) (s : State) : Result := nextOf s (laneLoss p lane s)

/-- PORT_SIGNAL_LOSS: the next training tries width 4 first, R419. -/
def execPortSignalLoss (p : Nat) (s : State) : Result :=
  let x := portOf s p
  nextOf s (if x.mode = .off then s else portDown p { x with signal := false, lossDue := portCarries x || x.lossDue } s)

/-- PORT_SIGNAL_DETECT: training starts, width 4 first, R419. -/
def execPortSignalDetect (p : Nat) (s : State) : Result :=
  let x := portOf s p
  nextOf s (if x.mode = .off ∨ cageHeldDown s p ∨ x.signal then s
    else portTo p .training 0 { x with signal := true, fullTraining := true, lostLanes := [] } s)

/-- RETRAIN_TIMEOUT: 10 ms after a lane or the signal was lost the port is not up; LINK_DOWN is written, R419, R591. -/
def retrainTimeout (p : Nat) (s : State) : State :=
  let x := portOf s p
  if x.lossDue = false ∨ portCarries x then s
  else logFault 0x0008 1 0 (0xA000 + p) 0 0 p 0 (portDown p { x with lossDue := false } s)

/-- RETRAIN_TIMEOUT. -/
def execRetrainTimeout (p : Nat) (s : State) : Result := nextOf s (retrainTimeout p s)

/-- DAD_COMPLETE: the port passes data, or its address is in use, R433. -/
def execDadComplete (p : Nat) (inUse : Bool) (s : State) : Result :=
  let x := portOf s p
  nextOf s (if x.detecting = false then s
    else linksChanged (if inUse then portTo p .addrConflict x.width { x with detecting := false } s else setPort p { x with detecting := false } s))

/-- The port passes data on its IPv6 side. -/
def ipv6Up (x : Port) : Bool := decide (x.mode = .eth) && decide (x.state = .up)

/-- NEIGHBOR_SOLICITATION: for the port's own address it is answered; a probe seen during the port's own detection is a conflict, R433. -/
def execNeighborSolicitation (p : Nat) (target : Bytes) (probe : Bool) (s : State) : Result :=
  let x := portOf s p
  nextOf s (if ipv6Up x = false ∨ target ≠ x.addr then s
    else if x.detecting then
      (if probe then linksChanged (portTo p .addrConflict x.width { x with detecting := false } s) else s)
    else emit (.ethernet p 2 x.addr) s)

/-- NEIGHBOR_ADVERTISEMENT: an address is resolved; for the port's own address during its detection it is a conflict, R433. -/
def execNeighborAdvertisement (p : Nat) (target link : Bytes) (s : State) : Result :=
  let x := portOf s p
  nextOf s (if ipv6Up x = false then s
    else if target = x.addr then
      (if x.detecting then linksChanged (portTo p .addrConflict x.width { x with detecting := false } s) else s)
    else setPort p { x with neighbours := (target, link) :: x.neighbours.filter (fun n => n.1 != target) } s)

/-- ICMPV6_ECHO_REQUEST: answered within the MTU, R433. -/
def execIcmpv6EchoRequest (p : Nat) (data : Bytes) (s : State) : Result :=
  let x := portOf s p
  nextOf s (if ipv6Up x = false ∨ x.detecting ∨ x.mtu < 48 + data.length then s else emit (.ethernet p 3 data) s)

/-- PACKET_TOO_BIG: counted, R433. -/
def execPacketTooBig (p : Nat) (s : State) : Result :=
  let x := portOf s p
  nextOf s (if x.mode = .eth then setPort p { x with tooBig := x.tooBig + 1 } s else s)

/-- A JET port that carries flits. -/
def flitsRun (x : Port) : Bool := decide (x.mode = .jet) && portCarries x

/-- FLIT_DAMAGED: the flit is dropped and NAKed with the last good SEQ, R421, R422. -/
def execFlitDamaged (p : Nat) (fec : Bool) (s : State) : Result :=
  let x := portOf s p
  nextOf s (if flitsRun x = false then s
    else emit (.flit p 2 (flitBytes 2 0 x.txSeq x.rxSeq []))
      (setPort p (if fec then { x with fecUncorrected := x.fecUncorrected + 1 } else { x with crcFails := x.crcFails + 1 }) s))

/-- Replay kept flits, oldest first, R422. -/
def replayFlits (p : Nat) : List (Nat × Nat × Bytes) → State → State
  | [], s => s
  | k :: ks, s => replayFlits p ks (emit (.flit p 1 (flitBytes 1 k.2.1 k.1 (portOf s p).rxSeq k.2.2)) s)

/-- FLIT_NAK: the flits from ACK + 1 are replayed; eight NAKs in succession that name one SEQ retrain the port, R422. -/
def flitNak (p ack : Nat) (s : State) : State :=
  let x := portOf s p
  if flitsRun x = false then s
  else
    let run := if x.nakRun ≠ 0 ∧ x.nakSeq = ack then x.nakRun + 1 else 1
    let y := { x with nakSeq := ack, nakRun := run, ackSeq := ack }
    if 8 ≤ run then portRetrain p false { y with lossDue := true } s
    else
      let again := (x.kept.filter (fun k => decide (0 < (k.1 + 65536 - ack) % 65536) && decide ((k.1 + 65536 - ack) % 65536 ≤ 1024))).reverse
      replayFlits p again (setPort p { y with replays := x.replays + BitVec.ofNat 64 again.length } s)

/-- FLIT_NAK. -/
def execFlitNak (p ack : Nat) (s : State) : Result := nextOf s (flitNak p (ack % 65536) s)

/-- A flit received intact and in order: its SEQ and its ACK are noted, R420. -/
def flitSeen (p seq ack : Nat) (s : State) : State :=
  let x := portOf s p
  setPort p { x with rxSeq := seq % 65536, ackSeq := ack % 65536, nakRun := if ack % 65536 = x.ackSeq then x.nakRun else 0 } s

/-- FLIT_HELLO: the neighbour's UID and port, R420; the adjacency is reported where it is new, R423. -/
def execFlitHello (p uid port seq ack : Nat) (s : State) : Result :=
  let x := portOf s p
  nextOf s (if flitsRun x = false then s
    else
      let s1 := flitSeen p seq ack s
      let s2 := setPort p { portOf s1 p with neighbourUid := uid, neighbourPort := port } s1
      if x.neighbourUid = uid then s2 else linksChanged s2)

/-- HELLO_SEND: once per millisecond while the port is up, R420. -/
def execHelloSend (p : Nat) (s : State) : Result :=
  let x := portOf s p
  nextOf s (if flitsRun x = false then s
    else
      let seq := (x.txSeq + 1) % 65536
      emit (.flit p 3 (flitBytes 3 0 seq x.rxSeq (toLe 8 Config.deviceUid.toNat ++ toLe 1 p))) (setPort p { x with txSeq := seq } s))

/-- ACK_STALL: 100 µs without progress of the ACK while DATA is outstanding, R422. -/
def execAckStall (p : Nat) (s : State) : Result :=
  let x := portOf s p
  nextOf s (if flitsRun x = false ∨ x.kept.isEmpty ∨ x.ackSeq = x.txSeq then s else portRetrain p false { x with lossDue := true } s)

/-- Segments of a message still open between what is acknowledged and what has been sent: their credit is due again when they are resent, R426. -/
def openSegments (s : State) (dst : Nat) (o : Outgoing) : Nat :=
  let bound := match routePort s dst with
    | none => 4096
    | some p => segmentBound (portOf s p)
  ceilDiv (o.sent - o.acked) bound

/-- Resend a channel from its first unacknowledged position, R427. -/
def resend (dst ch : Nat) (s : State) : State :=
  let c := channelOf s dst ch
  match c.unacked.head? with
  | none => s
  | some o =>
    let c1 := { c with
      credit := c.credit + openSegments s dst o
      unacked := c.unacked.map (fun x => if x.seq = o.seq then { x with sent := x.acked } else x) }
    let s1 := setChannel dst ch c1 s
    let s2 := match routePort s dst with
      | none => s1
      | some p =>
        let x := portOf s1 p
        if x.mode = .eth then setPort p { x with replays := x.replays + BitVec.ofNat 64 (openSegments s dst o) } s1 else s1
    pump dst ch 64 s2

/-- Sender of a segment: SRC where the view knows it; 0xFFFF is a module under formation. -/
def segmentPeer (s : State) (src : Nat) : Option Nat :=
  if khas s.fabric.view.modules src && src != s.fabric.view.self then some src
  else if src = 0xFFFF then ((s.fabric.forming.flatMap (fun f => kkeys f.2.modules)).head?).map (· + 0x10000) else none

/-- A datagram or segment that cannot be taken, R432. -/
def dropDatagram (p : Nat) (s : State) : State :=
  let x := portOf s p
  setPort p { x with dropped := x.dropped + 1 } s

/-- The command of a TILE that a channel has brought in whole: the credit of its last unit waits until it enters the reduction, R426 (log entry 75). -/
def tileSlot (s : State) (peer ch src : Nat) (c : Channel) (cipher : Bytes) : Option (Nat × Nat) :=
  let key := linkKey s peer s.fabric.view.self
  let plain := ((cipher.take 24).zipIdx).map (fun p => p.1 ^^^ gcmStream key (messageNonce c.rxSeq ch src) p.2)
  if 4 ≤ ch ∧ fld plain 0 1 = 1 then some (fld plain 2 2, fld plain 16 8) else none

/-- A message is complete: delivered when its tag verifies, else dropped and requested again; four failures in succession make the peer unreachable, R427, R428. -/
def messageComplete (p peer ch : Nat) (bytes : Bytes) (c : Channel) (s : State) : State :=
  let n := bytes.length - 16
  let key := linkKey s peer s.fabric.view.self
  let src := if peer < 0x10000 then peer else 0xFFFF
  let tag := gcmTag key (messageNonce c.rxSeq ch src) (messageAad src (if peer < 0x10000 then s.fabric.view.self else 0xFFFF) ch c.rxSeq bytes.length) (bytes.take n)
  if toLe 16 tag.toNat = bytes.drop n then
    let slot := tileSlot s peer ch src c (bytes.take n)
    sendAck peer ch (if slot.isSome then 0 else 1)
      (setChannel peer ch { c with rxSeq := c.rxSeq + 1, rxOffset := 0, rxBytes := [], tagRun := 0, slotOf := slot } s)
  else
    let s1 := setChannel peer ch { c with rxOffset := 0, rxBytes := [], tagRun := c.tagRun + 1 } s
    let x := portOf s1 p
    let s2 := setPort p { x with tagFails := x.tagFails + 1 } s1
    if 4 ≤ c.tagRun + 1 then closeLinks peer (logFault 0x0007 1 0 (0xA000 + p) 0 0 (peer % 0x10000) 0 s2)
    else sendAck peer ch 1 s2

/-- A DATA segment for this module, R424, R427. -/
def segmentIn (p peer : Nat) (seg : Bytes) (s : State) : State :=
  let ch := fld seg 2 2
  let c0 := channelOf s peer ch
  let c := { c0 with credit := c0.credit + fld seg 26 2 }
  let seq := fld seg 8 8
  let off := fld seg 16 4
  let len := fld seg 24 2
  if c.closed then s
  else if seq < c.rxSeq ∨ (seq = c.rxSeq ∧ off < c.rxOffset) then
    sendAck peer ch 0 (setChannel peer ch { c with duplicates := c.duplicates + 1 } s)
  else if seq ≠ c.rxSeq ∨ off ≠ c.rxOffset then sendAck peer ch 0 (setChannel peer ch c s)
  else
    let bytes := c.rxBytes ++ slice seg 32 len
    if bytes.length < fld seg 20 4 then sendAck peer ch 1 (setChannel peer ch { c with rxOffset := off + len, rxBytes := bytes } s)
    else messageComplete p peer ch bytes c s

/-- The fields of a segment that its header must hold, R424. -/
def segmentFormed (seg : Bytes) : Bool :=
  fld seg 0 1 == 1 && decide (fld seg 0 2 / 256 ≤ 1) && decide (fld seg 2 2 < 4096) && zeroAt seg 28 4 && decide (32 ≤ seg.length)
    && (if fld seg 1 1 = 0 then decide (0 < fld seg 24 2) && decide (fld seg 24 2 ≤ 4096) && seg.length == 32 + fld seg 24 2
          && decide (40 ≤ fld seg 20 4) && decide (fld seg 20 4 ≤ 2097152) && decide (fld seg 16 4 + fld seg 24 2 ≤ fld seg 20 4)
        else fld seg 24 2 == 0)

/-- A segment as it arrives: over Ethernet its CRC-64 is checked and taken off, R432; none where it is dropped. -/
def segmentArrives (p : Nat) (bytes : Bytes) (s : State) : Option Bytes × State :=
  let x := portOf s p
  if x.mode = .eth then
    let n := bytes.length - 8
    if x.state ≠ .up ∨ x.detecting then (none, s)
    else if toLe 8 (crc64 (bytes.take n)).toNat ≠ bytes.drop n then (none, dropDatagram p (setPort p { x with crcFails := x.crcFails + 1 } s))
    else if segmentFormed (bytes.take n) then (some (bytes.take n), s) else (none, dropDatagram p s)
  else if flitsRun x = false then (none, s)
  else if segmentFormed bytes then (some bytes, s) else (none, malformed s)

/-- A segment for another module is forwarded whole from JET to JET, R423. -/
def forwardSegment (p dst : Nat) (seg : Bytes) (s : State) : State :=
  match routePort s dst with
  | none => s
  | some q =>
    if (portOf s p).mode = .jet ∧ (portOf s q).mode = .jet then sendFlits q true (pieces 240 (ceilDiv seg.length 240) seg) s else s

/-- What arrives for this module goes on; what is for another is forwarded. -/
def onSegment (p kind : Nat) (bytes : Bytes) (s : State) (k : Nat → Bytes → State → State) : State :=
  match segmentArrives p bytes s with
  | (none, s1) => s1
  | (some seg, s1) =>
    if fld seg 1 1 ≠ kind then s1
    else if fld seg 6 2 ≠ dstOf s1.fabric.view.self ∧ fld seg 6 2 ≠ 0xFFFF then
      (if (portOf s1 p).mode = .eth then dropDatagram p s1 else forwardSegment p (fld seg 6 2) seg s1)
    else match segmentPeer s1 (fld seg 4 2) with
      | none => if (portOf s1 p).mode = .eth then dropDatagram p s1 else malformed s1
      | some peer => k peer seg s1

/-- SEGMENT_DATA: a DATA segment is received, ordered and reassembled; the message it completes is delivered as a command of its own (log entry 62). -/
def execSegmentData (p seq ack : Nat) (bytes : Bytes) (s : State) : Result :=
  nextOf s (onSegment p 0 bytes (if flitsRun (portOf s p) then flitSeen p seq ack s else s) (segmentIn p))

/-- Messages that an ACK covers leave; a position that did not advance asks for what follows it again, R427. Credit for a message that is through returns its slot,
R426 (log entry 75). -/
def segmentAck (peer : Nat) (seg : Bytes) (s : State) : State :=
  let ch := fld seg 2 2
  let c := channelOf s peer ch
  let seq := fld seg 8 8
  let off := fld seg 16 4
  if c.closed then s
  else
    let heard := c.unacked.filter (fun o => decide (o.seq < seq))
    let left := (c.unacked.filter (fun o => decide (seq ≤ o.seq))).map (fun o =>
      if o.seq = seq ∧ o.acked < off ∧ off ≤ o.sent then { o with acked := off, resends := 0 } else o)
    let moved := !heard.isEmpty || decide (left ≠ c.unacked)
    let freed := decide (4 ≤ ch) && left.isEmpty && fld seg 26 2 != 0
    let s1 := setChannel peer ch { c with
      unacked := left
      credit := c.credit + fld seg 26 2
      slotCredit := c.slotCredit || freed } s
    let again := !moved && fld seg 26 2 == 0 && (left.head?.any (fun o => o.seq == seq && decide (o.acked < o.sent)))
    let s2 := pump peer ch 64 (if again then resend peer ch s1 else s1)
    if heard.isEmpty && !freed then s2
    else
      let jobs := s2.compute.jobs.filter (fun j => j.channels.contains (peer, ch))
      shipSettled peer (jobs.foldl (fun t j => pumpTiles j.serial (j.outbox.length + 1) t) s2)

/-- SEGMENT_ACK. -/
def execSegmentAck (p seq ack : Nat) (bytes : Bytes) (s : State) : Result :=
  nextOf s (onSegment p 1 bytes (if flitsRun (portOf s p) then flitSeen p seq ack s else s) segmentAck)

/-- RETRANSMIT_TIMEOUT: the first open segment is sent again; after 16 resends the channel closes, R427. -/
def execRetransmitTimeout (peer ch : Nat) (s : State) : Result :=
  let c := channelOf s peer ch
  nextOf s (match c.unacked.head? with
    | none => s
    | some o =>
      if c.closed ∨ o.sent ≤ o.acked then s
      else if 16 ≤ o.resends then setChannel peer ch { c with closed := true } s
      else resend peer ch (setChannel peer ch { c with unacked := c.unacked.map (fun x => if x.seq = o.seq then { x with resends := x.resends + 1 } else x) } s))

/-- The parent of a module on the least-cost tree to the time source, R435: the next hop and whether it is a JET hop. -/
def parentOf (s : State) (m : Nat) : Option (Nat × Bool) :=
  let src := timeSource s.fabric.view 9 0
  if m = src then none
  else
    let edges := jetEdges s
    let r := if m = s.fabric.view.self then routeTo s edges src else jetRoute edges m src
    r.map (fun q => (q.2.1, decide ((portOf s q.2.2).mode = .jet) || decide (m ≠ s.fabric.view.self)))

/-- Hops of a module to the time source. -/
def sourceHops (s : State) : Nat :=
  match routeTo s (jetEdges s) (timeSource s.fabric.view 9 0) with
  | some r => r.1
  | none => 0

/-- The type header of TIME_SYNC, R430. -/
def timeSyncHdr (op hops t : Nat) : Bytes := toLe 1 op ++ [0] ++ toLe 2 hops ++ zeros 4 ++ toLe 8 t

/-- TIME_SYNC_SEND: every millisecond parents send SYNC and FOLLOW_UP, a child its DELAY_REQ, over JET or as PTP over Ethernet, R435. -/
def timeSyncSend (now : Nat) (s0 : State) : State :=
  let s := advance now s0
  let self := s.fabric.view.self
  let children := (reachedPeers s).filter (fun m => (parentOf s m) == some (self, true))
  let hops := sourceHops s
  let s1 := sendAll 0x09 1 0 0 (timeSyncHdr 1 hops now) children (sendAll 0x09 0 0 0 (timeSyncHdr 0 hops 0) children s)
  let s2 := match parentOf s self with
    | some (m, true) => sendMessage m 0x09 2 0 0 0 (timeSyncHdr 2 hops 0) { s1 with fabric := { s1.fabric with t3 := now } }
    | some (_, false) =>
      let s3 := { s1 with fabric := { s1.fabric with t3 := now } }
      (match etherPort s3 with
        | some p => emit (.ethernet p 6 [BitVec.ofNat 8 s3.fabric.ptpDomain]) s3
        | none => s3)
    | none => s1
  if timeSource s.fabric.view 9 0 = self then
    match etherPort s2 with
    | some p => emit (.ethernet p 5 (toLe 1 s2.fabric.ptpDomain ++ toLe 8 now)) (emit (.ethernet p 4 (toLe 1 s2.fabric.ptpDomain)) s2)
    | none => s2
  else s2

/-- TIME_SYNC_SEND. -/
def execTimeSyncSend (now : Nat) (s : State) : Result := nextOf s (timeSyncSend now s)

/-- The exchange is complete: the offset from the time source, R435, R436, and since when it exceeds 1 ms; the correction is a slew, which the times of later commands show (log entry 1). -/
def takeOffset (t4 : Nat) (s : State) : State :=
  let x := s.fabric
  let off : Int := (((x.t2 : Int) - (x.t1 : Int)) - ((t4 : Int) - (x.t3 : Int))) / 2
  { s with fabric := { x with
    offsetNs := off
    offsetSince := if off.natAbs ≤ 1000000 then none else some (x.offsetSince.getD s.frontTime) } }

/-- A TIME_SYNC message of one OP. -/
def onTimeSync (op peer : Nat) (plain : Bytes) (now : Nat) (s0 : State) (k : Msg → State → State) : State :=
  if fld plain 24 1 ≠ op then s0
  else
    let s := advance now s0
    onMessage 0x09 peer plain s (fun m s1 => if !zeroAt m.body 1 1 || !zeroAt m.body 4 4 || m.body.length != 16 then malformed s1 else k m s1)

/-- Whether a peer is the parent of this module. -/
def fromParent (s : State) (peer : Nat) : Bool := ((parentOf s s.fabric.view.self).map (·.1)) == some peer

/-- TIME_SYNC SYNC: the child stamps its arrival. -/
def execTimeSyncSync (peer : Nat) (plain : Bytes) (now : Nat) (s : State) : Result :=
  nextOf s (onTimeSync 0 peer plain now s (fun _ s1 => if fromParent s1 peer then { s1 with fabric := { s1.fabric with t2 := now } } else s1))

/-- TIME_SYNC FOLLOW_UP: the child takes the precise time of the SYNC. -/
def execTimeSyncFollowUp (peer : Nat) (plain : Bytes) (now : Nat) (s : State) : Result :=
  nextOf s (onTimeSync 1 peer plain now s (fun m s1 => if fromParent s1 peer then { s1 with fabric := { s1.fabric with t1 := fld m.body 8 8 } } else s1))

/-- TIME_SYNC DELAY_REQ: the parent answers with the stamp of its arrival. -/
def execTimeSyncDelayReq (peer : Nat) (plain : Bytes) (now : Nat) (s : State) : Result :=
  nextOf s (onTimeSync 2 peer plain now s (fun _ s1 => sendMessage peer 0x09 3 0 0 0 (timeSyncHdr 3 (sourceHops s1) now) s1))

/-- TIME_SYNC DELAY_RESP: the child computes its offset. -/
def execTimeSyncDelayResp (peer : Nat) (plain : Bytes) (now : Nat) (s : State) : Result :=
  nextOf s (onTimeSync 3 peer plain now s (fun m s1 => if fromParent s1 peer then takeOffset (fld m.body 8 8) s1 else s1))

/-- FLIT_TIME: a TIME flit from the parent's port carries the PHY stamps of a SYNC, R420, R435. -/
def execFlitTime (p sent arrived ack : Nat) (s : State) : Result :=
  let x := portOf s p
  nextOf s (if flitsRun x = false then s
    else
      let s1 := flitSeen p x.rxSeq ack s
      match moduleOfUid s1 x.neighbourUid with
      | some m => if fromParent s1 m then { s1 with fabric := { s1.fabric with t1 := sent, t2 := arrived } } else s1
      | none => s1)

/-- This module is a slave over Ethernet in a PTP domain. -/
def ptpSlave (s : State) (domain : Nat) : Bool :=
  domain == s.fabric.ptpDomain && ((parentOf s s.fabric.view.self).map (·.2)) == some false

/-- PTP_SYNC, R435. -/
def execPtpSync (domain now : Nat) (s : State) : Result :=
  nextOf s (if ptpSlave s domain then (let s1 := advance now s; { s1 with fabric := { s1.fabric with t2 := now } }) else s)

/-- PTP_FOLLOW_UP. -/
def execPtpFollowUp (domain sent : Nat) (s : State) : Result :=
  nextOf s (if ptpSlave s domain then { s with fabric := { s.fabric with t1 := sent } } else s)

/-- PTP_DELAY_REQ: the time source, the only master, answers. -/
def execPtpDelayReq (p domain now : Nat) (s : State) : Result :=
  nextOf s (if domain = s.fabric.ptpDomain ∧ timeSource s.fabric.view 9 0 = s.fabric.view.self ∧ ipv6Up (portOf s p) = true then
    emit (.ethernet p 7 (toLe 1 domain ++ toLe 8 now)) (advance now s) else s)

/-- PTP_DELAY_RESP: the slave corrects its offset. -/
def execPtpDelayResp (domain stamp now : Nat) (s : State) : Result :=
  nextOf s (if ptpSlave s domain then takeOffset stamp (advance now s) else s)

/-- OFFSET_STALE: an offset above 1 ms for 1 s, R436, R591. -/
def execOffsetStale (now : Nat) (s0 : State) : Result :=
  let s := advance now s0
  match s.fabric.offsetSince with
  | none => .next s0
  | some t =>
    if t + 1000000000 ≤ s.frontTime ∧ s.fabric.view.rights ≠ .stale then
      nextOf s0 (logFault 0x000A 0 0 0xD000 0 0 0 s.fabric.offsetNs.natAbs (becomeStale s))
    else .next s0

end Sys2Proof.Machine
end

