-- ==== Sys2Proof/Machine/FrontRows.lean ====
section
/-! DEFINITION. Commands about fronts (R440 to R445), candidacies (R442, R604), heartbeats and the loss of peers (R446). -/

namespace Sys2Proof.Machine

open Sys2Proof

/-- The node that a command's scope names; none where it names a module. -/
def scopeNode (s : State) (f : Flight) : Option Nat :=
  match scopeMember s f.hdr with
  | some (.front n) => some n
  | _ => none

/-- Rights that a change of the view needs, R442, R443, R444. -/
def rightsChecks (s : State) : List (Bool × Status × Nat) :=
  [failIf (decide (s.fabric.view.rights = .readonly)) .partitionedReadonly 0, failIf (decide (s.fabric.view.rights = .stale)) .epochStale 0]

/-- An entry at an offset of the parameters: KIND, ID, UID, ADDR, R441, R442. -/
def formEntryAt (f : Flight) (kindOff idOff uidOff addrOff : Nat) : FormEntry :=
  ⟨par f kindOff 1, par f idOff 2, par f uidOff 8, slice f.params addrOff 16, none⟩

/-- The entries of a FRONT_FORM, or the one of an ADMIT. -/
def formEntries (f : Flight) : List FormEntry :=
  if f.op = .frontForm then (List.range (par f 0 2)).map (fun i => formEntryAt f (16 + 32 * i) (18 + 32 * i) (24 + 32 * i) (32 + 32 * i))
  else [formEntryAt f 1 2 8 16]

/-- The UID by which a top front is named: its one module's, or its time source's, R441. -/
def frontUid (s : State) : Nat := uidOf s (timeSource s.fabric.view 9 0)

/-- An ID beyond its kind's range, R27. -/
def idBeyond (e : FormEntry) : Bool := decide (4095 < e.id) || (e.kind == 1 && decide (4094 < e.id))

/-- FRONT_FORM's checks at staging, R441, R604: what an entry's own view decides is checked when the entry has answered. -/
def frontFormCheck (s : State) (f : Flight) : Option (Status × Nat) :=
  let n := par f 0 2
  let es := formEntries f
  let ids := es.map (·.id)
  let own := fun (e : FormEntry) => e.uid == frontUid s && e.kind == b2n (decide (1 < s.fabric.view.modules.length))
  firstFail ([
    lengthIs f (16 + 32 * n),
    rangeIf (decide (n < 2) || decide (4096 < n)) 0,
    rangeIf (decide (n ≤ par f 2 2)) 2,
    reservedZero f 4 12,
    failIf (!fromPeer f && f.hdr.scopeDepth != 0) .badParam 24 ] ++
    (es.zipIdx).flatMap (fun p =>
      let at' := 16 + 32 * p.2
      [ badParamIf (decide (1 < p.1.kind)) at', reservedZero f (at' + 1) 1, rangeIf (idBeyond p.1) (at' + 2), reservedZero f (at' + 4) 4,
        badParamIf ((ids.take p.2).contains p.1.id) (at' + 2), badParamIf (((es.take p.2).map (·.uid)).contains p.1.uid) (at' + 8) ]) ++
    [ badParamIf (!fromPeer f && !es.any own) 16 ])

/-- The view that joining or forming brings to a module stands in what the entry member carried with the part; its place there is found by its UID. -/
def formedView (f : Flight) : Option View :=
  match f.content with
  | none => none
  | some b =>
    let v := decodeView (b.drop 4)
    (placeIn v).map (fun m => { v with self := m, reach := kkeys v.modules })

/-- A formed view is installed: the candidacy is consumed and the records of the formation are dropped, R441, R442. -/
def installFormed (f : Flight) (s : State) : Verdict :=
  match formedView f with
  | none => .reject .badParam 64
  | some v => .done (installView v s.frontTime { s with fabric := { s.fabric with candidacy := none } }) (okReply [])

/-- What is carried with a part that brings a view: its length and the view (log entry 61). -/
def carriedView (f : Flight) : Bytes := f.content.getD (zeros 4)

/-- Length of a carried view. -/
def carriedViewLen (f : Flight) : Nat := 4 + fld (f.content.getD []) 0 4

/-- FRONT_FORM, R441: its effect on one module. -/
def frontFormCommand : Command where
  op := .frontForm
  changes := true
  objects := fun _ _ => [⟨.view, 0⟩]
  check := frontFormCheck
  run := fun s f => installFormed f s
  carried := fun _ f _ => carriedView f
  carriedLen := carriedViewLen

/-- FRONT_FORM is staged. -/
def execFrontForm (h : Nat) (s : State) : Result := execCommand frontFormCommand h s

/-- FRONT_JOIN's fields, R442. -/
def frontJoinShape (f : Flight) : List (Bool × Status × Nat) :=
  [lengthIs f 32, badParamIf (decide (1 < par f 0 1)) 0, reservedZero f 4 4]

/-- FRONT_JOIN CANDIDATE records a candidacy, at a lone module or at the anchor of its top front, R442. -/
def candidateRun (s : State) (f : Flight) : Verdict :=
  checked [
    failIf (!fromPeer f && f.hdr.scopeDepth != 0) .badParam 24,
    failIf (timeSource s.fabric.view 9 0 != s.fabric.view.self) .notPermitted 0,
    reservedZero f 1 3, reservedZero f 16 16, readonlyIf s ]
    (.done { s with fabric := { s.fabric with candidacy := some (par f 8 8, s.frontTime) } } (okReply []))

/-- The direct IDs of a node: its modules and its sub-fronts' indexes. -/
def directIds (v : View) (node : Nat) : List Nat :=
  directModules v node ++ (directFronts v node).map (fun n => ((kget v.nodes n).map (·.index)).getD 0)

/-- What ADMIT's parameters alone decide of the entry, R442. -/
def joinEntryShape (f : Flight) : List (Bool × Status × Nat) :=
  let e := (formEntries f).headD ⟨0, 0, 0, [], none⟩
  [badParamIf (decide (1 < e.kind)) 1, rangeIf (idBeyond e) 2]

/-- ADMIT's checks, R442: the ID must be free in the front that is joined. -/
def admitChecks (s : State) (f : Flight) : List (Bool × Status × Nat) :=
  let e := (formEntries f).headD ⟨0, 0, 0, [], none⟩
  let v := s.fabric.view
  rightsChecks s ++ (if fromPeer f then [] else
    [ failIf (scopeNode s f).isNone .badParam 24,
      badParamIf (decide (1 < e.kind)) 1,
      rangeIf (idBeyond e) 2,
      badParamIf ((directIds v ((scopeNode s f).getD 0)).contains e.id || (e.kind == 0 && khas v.modules e.id)) 2,
      badParamIf ((kkeys v.modules).any (fun m => uidOf s m == e.uid)) 8 ])

/-- FRONT_JOIN with SIDE CANDIDATE or ADMIT, R442. -/
def frontJoinCommand : Command where
  op := .frontJoin
  changes := true
  objects := fun _ f => if par f 0 1 = 1 then [⟨.view, 0⟩] else []
  check := fun s f => firstFail (frontJoinShape f ++ (if par f 0 1 = 1 then admitChecks s f else []))
  staged := fun _ f => firstFail (frontJoinShape f ++ (if par f 0 1 = 1 then joinEntryShape f else []))
  run := fun s f => if par f 0 1 = 0 then candidateRun s f else installFormed f s
  carried := fun _ f _ => if par f 0 1 = 1 then carriedView f else []
  carriedLen := fun f => if par f 0 1 = 1 then carriedViewLen f else 0

/-- FRONT_JOIN rows of one SIDE. -/
def frontJoinRow (side h : Nat) (s : State) : State :=
  match flightOf s h with
  | none => s
  | some f => if f.op = .frontJoin ∧ (par f 0 1 = side ∨ (side = 1 ∧ par f 0 1 ≠ 0)) then runCommand frontJoinCommand h s else s

/-- FRONT_JOIN CANDIDATE is staged. -/
def execFrontJoinCandidate (h : Nat) (s : State) : Result := nextOf s (frontJoinRow 0 h s)

/-- FRONT_JOIN ADMIT is staged. -/
def execFrontJoinAdmit (h : Nat) (s : State) : Result := nextOf s (frontJoinRow 1 h s)

/-- The member that a FRONT_LEAVE names: 0xFFFF is the entry member itself, a module stands anywhere below the scope, a sub-front directly in it, R443. -/
def leaveTarget (s : State) (f : Flight) : Option MemberRef :=
  let v := s.fabric.view
  match scopeNode s f with
  | none => none
  | some n =>
    let t := par f 0 2
    let under := modulesUnder v 9 n
    if t = 0xFFFF then (if under.contains (entryOf s f) then some (.module (entryOf s f)) else none)
    else if par f 2 1 = 0 then (if under.contains t then some (.module t) else none)
    else ((directFronts v n).find? (fun x => ((kget v.nodes x).map (·.index)) == some t)).map .front

/-- A module holds a shard of a table or an index that this module knows, R244, R267. -/
def inShardSet (s : State) (m : Nat) : Bool :=
  (kvals s.tables.tables).any (fun t => t.shard.contains m) || (kvals s.indexes.indexes).any (fun x => x.shard.contains m)

/-- FRONT_LEAVE's checks, R443. -/
def frontLeaveCheck (s : State) (f : Flight) : Option (Status × Nat) :=
  let r := leaveTarget s f
  let gone := (r.map (modulesOf s.fabric.view)).getD []
  firstFail ([lengthIs f 8, badParamIf (decide (1 < par f 2 1)) 2, reservedZero f 3 5, failIf (scopeNode s f).isNone .badParam 24,
    rangeIf r.isNone 0] ++ rightsChecks s ++ [
    failIf (gone.any (inShardSet s)) .notPermitted 0,
    failIf (decide (r = (scopeNode s f).bind (anchorOf s.fabric.view))) .notPermitted 0])

/-- This module holds a stage of a request entered at another member. -/
def holdsStage (s : State) : Bool :=
  !s.serve.inbound.isEmpty || s.serve.requests.any (fun r => !isEntry s r && decide (r.state ≠ .ending))

/-- FRONT_LEAVE, R443: the view advances one epoch; who leaves becomes a lone top front. -/
def frontLeaveRun (s : State) (f : Flight) : Verdict :=
  match leaveTarget s f with
  | none => .reject .outOfRange 48
  | some r =>
    let v := s.fabric.view
    let gone := modulesOf v r
    if gone.contains v.self then (if holdsStage s then .wait else .done (becomeLone s) (okReply []))
    else .done (installView { viewWithout v gone with epoch := v.epoch + 1, reach := (reachSet s).filter (fun m => !gone.contains m) } s.frontTime s) (okReply [])

/-- FRONT_LEAVE. -/
def frontLeaveCommand : Command where
  op := .frontLeave
  changes := true
  objects := fun _ _ => [⟨.view, 0⟩]
  check := frontLeaveCheck
  staged := fun _ f => firstFail [lengthIs f 8, badParamIf (decide (1 < par f 2 1)) 2, reservedZero f 3 5]
  run := frontLeaveRun

/-- FRONT_LEAVE is staged. -/
def execFrontLeave (h : Nat) (s : State) : Result := execCommand frontLeaveCommand h s

/-- The direct member of the scope that ANCHOR_SET names, R444. -/
def anchorTarget (s : State) (f : Flight) : Option MemberRef :=
  let v := s.fabric.view
  match scopeNode s f with
  | none => none
  | some n =>
    if par f 0 1 = 0 then (if (directModules v n).contains (par f 2 2) then some (.module (par f 2 2)) else none)
    else ((directFronts v n).find? (fun x => ((kget v.nodes x).map (·.index)) == some (par f 2 2))).map .front

/-- ANCHOR_SET, R444: the anchor moves, the view advances one epoch, no clock steps. -/
def anchorSetCommand : Command where
  op := .anchorSet
  changes := true
  objects := fun _ _ => [⟨.view, 0⟩]
  check := fun s f => firstFail ([lengthIs f 8, badParamIf (decide (1 < par f 0 1)) 0, reservedZero f 1 1, reservedZero f 4 4,
    failIf (scopeNode s f).isNone .badParam 24, rangeIf (anchorTarget s f).isNone 2] ++ rightsChecks s ++
    [failIf ((anchorTarget s f).any (fun r => !memberReachable s r)) .memberUnreachable (par f 2 2)])
  staged := fun _ f => firstFail [lengthIs f 8, badParamIf (decide (1 < par f 0 1)) 0, reservedZero f 1 1, reservedZero f 4 4]
  run := fun s f =>
    match scopeNode s f, anchorTarget s f with
    | some n, some r =>
      let v := s.fabric.view
      let nodes := v.nodes.map (fun p => if p.1 = n then (p.1, { p.2 with anchor := r }) else p)
      .done (installView { v with nodes := nodes, epoch := v.epoch + 1, reach := reachSet s } s.frontTime s) (okReply [])
    | _, _ => .reject .outOfRange 50

/-- ANCHOR_SET is staged. -/
def execAnchorSet (h : Nat) (s : State) : Result := execCommand anchorSetCommand h s

/-- The ID that FRONT_VIEW shows for the anchor of the top front: a module ID or a front index, R445. -/
def anchorId (v : View) : Nat :=
  match anchorOf v 0 with
  | some (.module m) => m
  | some (.front n) => ((kget v.nodes n).map (·.index)).getD 0
  | none => 0

/-- The result of FRONT_VIEW from a first entry on, R445. -/
def frontViewResult (s : State) (first : Nat) : Bytes :=
  let v := s.fabric.view
  let ms := ((kkeys v.modules).drop first).take 2045
  toLe 8 v.epoch ++ toLe 2 (anchorId v) ++ toLe 1 (match v.rights with
      | .full => 0
      | .readonly => 1
      | .stale => 2)
    ++ [0] ++ toLe 2 (directIds v 0).length ++ toLe 2 v.modules.length ++ toLe 2 v.self ++ toLe 2 ms.length ++ zeros 4 ++ toLe 8 v.installed
    ++ ms.flatMap (viewEntry s v (reachSet s))

/-- FRONT_VIEW, R445. -/
def frontViewCommand : Command where
  op := .frontView
  changes := false
  objects := fun _ _ => []
  check := fun s f => firstFail [lengthIs f 8, reservedZero f 2 6, rangeIf (decide (s.fabric.view.modules.length ≤ par f 0 2)) 0]
  run := fun s f => .done s (okReply (frontViewResult s (par f 0 2)))

/-- A command that one module answers: the one its scope names, or the entry member where it names several. -/
def answerer (s : State) (f : Flight) : List Nat :=
  let ms := scopeModules s f.hdr
  if ms.length = 1 then ms else [s.fabric.view.self]

/-- FRONT_VIEW. -/
def execFrontView (h : Nat) (s : State) : Result := execAt frontViewCommand answerer h s

/-- CANDIDACY_EXPIRY: 600 s have passed, R442. -/
def execCandidacyExpiry (now : Nat) (s0 : State) : Result :=
  let s := advance now s0
  match s.fabric.candidacy with
  | some (_, t) => if t + 600000000000 ≤ s.frontTime then nextOf s0 { s with fabric := { s.fabric with candidacy := none } } else .next s0
  | none => .next s0

/-- The body of a HEARTBEAT, R430. -/
def heartbeatBody (s : State) : Bytes :=
  toLe 1 (match s.fabric.view.rights with
      | .full => 0
      | .readonly => 1
      | .stale => 2)
    ++ toLe 1 (s.role.getD 0xFF) ++ zeros 2 ++ toLe 4 (reachSet s).length ++ toLe 8 s.proto.stepCount.toNat
    ++ toLe 8 (max s.fabric.accepted s.fabric.view.epoch)

/-- HEARTBEAT_SEND: to every module of the top front, at each management tick, R446. -/
def sendHeartbeats (s : State) : State :=
  sendAll 0x0A 0 0 0 (heartbeatBody s) ((kkeys s.fabric.view.modules).filter (· != s.fabric.view.self)) s

/-- A message of channel 0 shows a higher epoch than this module's: it becomes STALE, R450. -/
def hearEpoch (peer epoch : Nat) (s : State) : State := if s.fabric.view.epoch < epoch then staleBy peer epoch s else s

/-- HEARTBEAT: reachability, role and accepted epoch of its sender, R430, R446, R450. -/
def heartbeat (peer : Nat) (plain : Bytes) (now : Nat) (s0 : State) : State :=
  onMessage 0x0A peer plain (advance now s0) (fun m s =>
    let b := m.body
    if !zeroAt b 2 2 || b.length != 24 || decide (2 < fld b 0 1) then malformed s
    else
      hearEpoch peer m.epoch (setPeer peer { peerOf s peer with
        role := fld b 1 1
        epoch := m.epoch
        accepted := fld b 16 8 } s))

/-- HEARTBEAT. -/
def execHeartbeat (peer : Nat) (plain : Bytes) (now : Nat) (s : State) : Result := nextOf s (heartbeat peer plain now s)

/-- PEER_UNREACHABLE: LOSS_MS without a message from a peer, R446. -/
def execPeerUnreachable (peer now : Nat) (s0 : State) : Result :=
  let s := advance now s0
  if (peerOf s peer).lastMessage + s.fabric.lossMs * 1000000 ≤ s.frontTime then nextOf s0 (losePeer peer s) else .next s0

/-- FRONT_VIEW ADJ: a member's adjacencies are recorded and routes follow, R423. -/
def frontViewAdj (peer : Nat) (plain : Bytes) (s0 : State) : State :=
  if fld plain 24 1 ≠ 4 then s0
  else onMessage 0x0B peer plain s0 (fun m s =>
    let b := m.body
    let n := fld b 4 4
    if b.length ≠ 16 + 9 * n ∨ zeroAt b 1 1 = false then malformed s
    else
      let adj := (List.range n).map (fun i => (peer, fld b (16 + 9 * i) 1, fld b (17 + 9 * i) 8))
      hearEpoch peer m.epoch (recomputeRoutes { s with fabric := { s.fabric with adjacencies := s.fabric.adjacencies.filter (fun a => a.1 != peer) ++ adj } }))

/-- FRONT_VIEW ADJ. -/
def execFrontViewAdj (peer : Nat) (plain : Bytes) (s : State) : Result := nextOf s (frontViewAdj peer plain s)

end Sys2Proof.Machine
end

