-- ==== Sys2Proof/Machine/SecurityRows.lean ====
section
/-! DEFINITION. Sessions, tenants, keys, attestation, debug authorisation and firmware: the commands of chapter 15. -/

namespace Sys2Proof.Machine

open Sys2Proof

/-- The registered keys of a tenant; tenant 0's are the operator's. -/
def keysOf (s : State) (t : Nat) : Option PublicKeys := if t = 0 then s.sec.operatorKeys else (kget s.sec.tenants t).map (·.keys)

/-- SHA-384 of a tenant's two public keys, R463. -/
def keyHash (k : PublicKeys) : Bytes := sha384Bytes (k.ecdsa ++ k.mldsa)

/-- The hash of keys that may not be registered: zero then. -/
def keyHashOf (k : Option PublicKeys) : Bytes := (k.map keyHash).getD (zeros 48)

/-- Bytes 0 to 679 of an attestation report, R463. -/
def reportBody (s : State) (session tenant : Nat) (hash transcript nonce data : Bytes) : Bytes :=
  let x := s.sec
  toLe 4 0x54505241 ++ toLe 2 1 ++ toLe 2 5403 ++ toLe 8 Config.deviceUid.toNat ++ toLe 1 x.lifecycle ++ toLe 1 (b2n x.debug)
    ++ toLe 1 (b2n s.power.secureBootOk + 2 * b2n x.fallback + 4 * b2n x.countersInvalid + 8 * b2n s.power.mfgMode) ++ [0]
    ++ x.svn.flatMap (toLe 2) ++ x.floors.flatMap (toLe 2) ++ toLe 4 x.bootCount ++ toLe 4 session ++ toLe 2 tenant ++ zeros 6
    ++ toLe 8 s.frontTime ++ hash ++ keyHashOf x.operatorKeys ++ transcript ++ x.mr.flatMap (fun m => toLe 48 m.toNat) ++ nonce ++ data

/-- An attestation report: its body and the alias key's two signatures, R463, R465. -/
def report (s : State) (session tenant : Nat) (hash transcript nonce data : Bytes) : Bytes :=
  let b := reportBody s session tenant hash transcript nonce data
  b ++ fitBytes 4723 (Config.deviceSign 1 b)

/-- Both halves of a hybrid signature verify, R465, R470. -/
def hybridVerify (k : PublicKeys) (msg sigEc sigMl : Bytes) : Bool :=
  ecdsaVerify k.ecdsa (sha384Bytes msg) sigEc && Config.mldsaVerify k.mldsa msg sigMl

/-- The keys in a TENANT_CREATE block at an offset, R469. -/
def blockKeys (b : Bytes) (off : Nat) : PublicKeys := ⟨slice b (off + 8) 97, slice b (off + 112) 2592⟩

/-- The checks of a TENANT_CREATE block but for its TENANT_ID, R469. -/
def blockChecks (f : Flight) (off : Nat) : List (Bool × Status × Nat) :=
  [reservedZero f (off + 2) 6, badParamIf (!p384Valid (slice f.params (off + 8) 97)) (off + 8), reservedZero f (off + 105) 7]

/-- A SESSION_OPEN that registers the operator's keys, R471. -/
def opensOperator (s : State) (f : Flight) : Bool := par f 0 2 == 0 && s.sec.operatorKeys.isNone

/-- M_open, R470, R471. -/
def mOpen (s : State) (f : Flight) : Bytes :=
  ascii "PRIELAEC-OPEN-1" ++ toLe 8 Config.deviceUid.toNat ++ toLe 4 s.sec.bootCount ++ f.params.take 1712
    ++ (if opensOperator s f then slice f.params 6440 2704 else [])

/-- The keys that verify a SESSION_OPEN. -/
def openKeys (s : State) (f : Flight) : Option PublicKeys :=
  if opensOperator s f then some (blockKeys f.params 6440) else keysOf s (par f 0 2)

/-- The checks of SESSION_OPEN, R471; a failed entropy source ends it as R455 says. -/
def sessionOpenCheck (s : State) (f : Flight) : Option (Status × Nat) :=
  let t := par f 0 2
  let signed := match openKeys s f with
    | none => false
    | some k => hybridVerify k (mOpen s f) (slice f.params 1712 96) (slice f.params 1808 4627)
  firstFail ([
    lengthIs f (if opensOperator s f then 9144 else 6440),
    reservedZero f 2 6, badParamIf (!p384Valid (slice f.params 40 97)) 40, reservedZero f 137 7,
    badParamIf (!mlkemValid (slice f.params 144 1568)) 144, reservedZero f 6435 5 ] ++
    (if opensOperator s f then badParamIf (par f 6440 2 != 0) 6440 :: blockChecks f 6440 else []) ++ [
    failIf (!signed) .authFail 0,
    failIf (decide (4096 ≤ s.proto.sessions.length)) .tableFull 0,
    failIf (t != 0 && s.sec.debug) .locked 0,
    failIf s.sec.entropyFailed .internalFault 0 ])

/-- PRK of a session or a pair, R475. -/
def sessionPrk (transcript ecdh kem : Bytes) : BitVec 384 := hkdfExtract transcript (ecdh ++ kem)

/-- A 32-byte key expanded from a PRK. -/
def expandKey (prk : BitVec 384) (label : String) : BitVec 256 := BitVec.ofNat 256 (leNat (hkdfExpand prk (ascii label) 32))

/-- SESSION_OPEN, R470, R471: keys, the lowest unused SESSION_ID, the report. -/
def sessionOpenRun (s : State) (f : Flight) : Verdict :=
  let t := par f 0 2
  let n := s.sec.draws
  let point := fitBytes 97 (Config.ecdhPublic n)
  let cipher := fitBytes 1568 (Config.mlkemCipher n (slice f.params 144 1568))
  match firstFree (kkeys s.proto.sessions) 1 4097 with
  | none => .reject .tableFull 0
  | some id =>
    let transcript := sha384Bytes (mOpen s f ++ point ++ cipher ++ toLe 4 id)
    let prk := sessionPrk transcript (Config.ecdhShared n (slice f.params 40 97)) (Config.mlkemShared n (slice f.params 144 1568))
    let x : Session := ⟨id, t, 0, [], 1, [], expandKey prk "CMD", expandKey prk "REP", false⟩
    let s1 := { s with
      proto := { s.proto with sessions := kset s.proto.sessions id x }
      sec := { s.sec with
        draws := n + 1
        sessionCount := s.sec.sessionCount + 1
        operatorKeys := if opensOperator s f then openKeys s f else s.sec.operatorKeys } }
    .done s1 (okReply (toLe 4 id ++ zeros 4 ++ point ++ zeros 7 ++ cipher
      ++ report s1 id t (keyHashOf (keysOf s1 t)) transcript (slice f.params 8 32) (zeros 64) ++ zeros 5))

/-- SESSION_OPEN. -/
def sessionOpenCommand : Command where
  op := .sessionOpen
  changes := true
  objects := fun _ _ => []
  check := sessionOpenCheck
  run := sessionOpenRun

/-- SESSION_OPEN. -/
def execSessionOpen (h : Nat) (s : State) : Result := execEntry (entryCommand sessionOpenCommand) h s

/-- The requests of a set end with CANCELLED, R472, R481; a stage held for another member is given up. -/
def cancelRequests (p : Request → Bool) (s : State) : State :=
  (s.serve.requests.filter (fun r => p r && decide (r.state ≠ .ending))).foldl (fun t r => failRequest r .cancelled 0 t) s

/-- The open transactions of a set are rolled back, with the records of R68. -/
def rollBackAll (p : Txn → Bool) (s : State) : State :=
  (s.proto.txns.filter (fun t => p t && decide (t.state = .open))).foldl (fun u t => abortTxn t.session t.id t.parts none u) s

/-- A session is gone: its keys are zeroised, its breakpoints cleared, R472, R567. -/
def dropSession (id : Nat) (s : State) : State :=
  let s1 := closeBreaks id s
  { s1 with proto := { s1.proto with sessions := kdel s1.proto.sessions id, txns := s1.proto.txns.filter (fun t => t.session != id) } }

/-- Steps 1 to 3 of R472. -/
def beginClose (id : Nat) (s : State) : State :=
  match kget s.proto.sessions id with
  | none => s
  | some x => rollBackAll (fun t => t.session == id) (cancelRequests (fun r => r.session == id && isEntry s r)
      { s with proto := { s.proto with sessions := kset s.proto.sessions id { x with closing := true } } })

/-- SESSION_CLOSE: steps 1 to 3 at once; it commits when no other admitted command of the session is left, and the row is due again until then, R472. -/
def sessionClose (h : Nat) (s : State) : State :=
  match flightOf s h with
  | none => s
  | some f =>
    if f.op ≠ .sessionClose ∨ mayRun s f = false then s
    else match firstFail [lengthIs f 8, reservedZero f 0 8, scopeHasEntry s f] with
      | some (st, d) => finish f (plainReply st d) s
      | none =>
        let id := f.hdr.sessionId
        let s1 := beginClose id s
        if s1.proto.flights.any (fun g => !fromPeer g && g.hdr.sessionId == id && g.serial != h) then beginFlight f s1
        else dropSession id (finish f (okReply []) (commitObjects [] s1))

/-- SESSION_CLOSE. -/
def execSessionClose (h : Nat) (s : State) : Result := nextOf s (sessionClose h s)

/-- TENANT_ID and TENANT_KEY_HASH of a report, from this module's own tenant table, R463, R466. -/
def reportTenant (s : State) (f : Flight) : Nat × Bytes :=
  if f.hdr.sessionId = 0 then (0, zeros 48)
  else if tenantExists s f.tenant then (f.tenant, keyHashOf (keysOf s f.tenant)) else (0, zeros 48)

/-- ATTEST_REPORT, both kinds, R466. -/
def attestCommand : Command where
  op := .attestReport
  changes := false
  objects := fun _ _ => []
  check := fun s f => firstFail [
    lengthIs f 104, oneModule s f, badParamIf (decide (1 < par f 0 1)) 0, reservedZero f 1 3,
    badParamIf (par f 0 1 == 1 && !zeroAt f.params 8 96) 8,
    rangeIf (par f 0 1 == 1 && decide (Config.certChains.length ≤ par f 4 4)) 4]
  run := fun s f =>
    if par f 0 1 = 0 then
      let t := reportTenant s f
      .done s (okReply (report s f.hdr.sessionId t.1 t.2 (zeros 48) (slice f.params 8 32) (slice f.params 40 64)))
    else .done s (okReply (toLe 4 Config.certChains.length ++ zeros 4 ++ (Config.certChains.drop (par f 4 4)).take 65464))

/-- ATTEST_REPORT KIND 0; other KINDs than 0 and 1 are refused here. -/
def execAttestReport (h : Nat) (s : State) : Result := ofForm (fun f => par f 0 1 != 1) h s (execCommand attestCommand h)

/-- ATTEST_REPORT KIND 1. -/
def execAttestCertificates (h : Nat) (s : State) : Result := ofForm (fun f => par f 0 1 == 1) h s (execCommand attestCommand h)

/-- TENANT_CREATE, R469: keys, a root key from the generator, the defaults of R217 and R391, which are what an unlisted tenant has. -/
def tenantCreateCommand : Command where
  op := .tenantCreate
  changes := true
  objects := fun _ f => [⟨.tenant, par f 0 2⟩]
  check := fun s f => firstFail ([
    lengthIs f 2704, badParamIf (par f 0 2 == 0 || khas s.sec.tenants (par f 0 2)) 0 ] ++ blockChecks f 0 ++ [
    failIf (decide (4096 ≤ s.sec.tenants.length)) .tableFull 0,
    failIf s.sec.debug .locked 0,
    failIf s.sec.entropyFailed .internalFault 0])
  staged := fun _ f => firstFail ([lengthIs f 2704, badParamIf (par f 0 2 == 0) 0] ++ blockChecks f 0)
  run := fun s f =>
    let (k, s1) := drawKey s
    .done { s1 with sec := { s1.sec with tenants := kset s1.sec.tenants (par f 0 2) ⟨blockKeys f.params 0, k⟩ } } (okReply [])

/-- TENANT_CREATE. -/
def execTenantCreate (h : Nat) (s : State) : Result := execCommand tenantCreateCommand h s

/-- A front-wide commit under way touches a tenant's commands: the tenant cannot end before it has. -/
def commitsFor (s : State) (t : Nat) : Bool :=
  let mine := fun (l : List Part) => l.any (fun p => match p with
    | .command f _ => f.tenant == t
    | .items f _ _ => f.tenant == t)
  s.fabric.coords.any (fun c => mine c.parts || (flightOf s c.serial).any (fun f => f.tenant == t)) || s.fabric.prepared.any (fun p => mine p.parts)

/-- Every object of a tenant is released, R415, R481: allocations with all that lies in them, and everything that names the tenant, its counters and histograms with it; its cells are cleared before anyone has them again, R19. -/
def releaseTenant (t : Nat) (s : State) : State :=
  let s1 := (s.serve.requests.filter (fun r => r.tenant == t)).foldl (fun u r => freeRequest r u) s
  let s2 := (s1.serve.inbound.filter (fun x => x.tenant == t)).foldl (fun u x => dropInbound x u) s1
  let s3 := (s2.tiers.allocs.filter (fun a => a.2.tenant == t)).foldl (fun u a => releaseAlloc a.1 a.2.len u) s2
  let kernels := tenantKernels s3 t
  let s4 := clearBreaks (fun b => b.kind != 2 && kernels.contains b.handle) s3
  let gone := (s4.tables.tables.filter (fun p => p.2.tenant == t)).map (·.1)
  { s4 with
    tiers := { s4.tiers with
      quotas := kdel s4.tiers.quotas t
      kv := s4.tiers.kv.filter (fun p => p.1 / 4 != t) }
    tables := { s4.tables with
      tables := s4.tables.tables.filter (fun p => p.2.tenant != t)
      updates := s4.tables.updates.filter (fun u => !gone.contains u.table) }
    indexes := { s4.indexes with
      indexes := s4.indexes.indexes.filter (fun p => p.2.tenant != t)
      merged := s4.indexes.merged.filter (fun m => m.tenant != t) }
    text := {
      tokenisers := s4.text.tokenisers.filter (fun p => p.2.tenant != t)
      stops := s4.text.stops.filter (fun p => p.2.tenant != t)
      grammars := s4.text.grammars.filter (fun p => p.2.tenant != t)
      streams := s4.text.streams.filter (fun p => p.2.tenant != t) }
    serve := { s4.serve with
      models := s4.serve.models.filter (fun p => p.2.tenant != t)
      pipelines := s4.serve.pipelines.filter (fun p => p.2.tenant != t)
      images := s4.serve.images.filter (fun p => p.2.tenant != t) }
    compute := { s4.compute with
      kernels := s4.compute.kernels.filter (fun p => p.2.tenant != t)
      chains := s4.compute.chains.filter (fun p => p.2.tenant != t)
      steers := s4.compute.steers.filter (fun p => p.2.tenant != t)
      cells := s4.compute.cells.map (fun p => if p.2.tenant = t then (p.1, { p.2 with tenant := 0x10000 }) else p) }
    sched := { s4.sched with
      shares := kdel s4.sched.shares t
      budgets := kdel s4.sched.budgets t
      contracts := kdel s4.sched.contracts t
      cellV := kdel s4.sched.cellV t
      hubV := kdel s4.sched.hubV t
      histograms := s4.sched.histograms.filter (fun p => p.1 / 16 != t) }
    counters := s4.counters.filter (fun x => x.1.tenant x.2.1 != some t)
    dbg := { s4.dbg with gauges := s4.dbg.gauges.filter (fun p => p.1 / 64 != t) }
    sec := { s4.sec with
      tenants := kdel s4.sec.tenants t
      keySlots := s4.sec.keySlots.filter (fun p => p.1 / 16 != t)
      consent := kdel s4.sec.consent t } }

/-- A tenant ends, R481: its requests and admitted commands end with CANCELLED, its sessions close, its objects are released, TRK is zeroised;
its track records are redacted (R579), and a TENANT_CREATE of its ID taken before now fails. -/
def endTenant (t serial : Nat) (s : State) : State :=
  let s1 := cancelRequests (fun r => r.tenant == t) s
  let s2 := (s1.proto.flights.filter (fun g => g.tenant == t && g.serial != serial)).foldl (fun u g =>
    if (flightOf u g.serial).isSome then abortFlight g .cancelled 0 [] u else u) s1
  let s3 := rollBackAll (fun x => x.tenant == t) s2
  let s4 := (s3.proto.sessions.filter (fun x => x.2.tenant == t)).foldl (fun u x => dropSession x.1 u) s3
  let s5 := redactTenant t (releaseTenant t s4)
  (s5.proto.flights.filter (fun g => decide (g.op = .tenantCreate) && !g.hdr.inTxn && !g.running && par g 0 2 == t)).foldl (fun u g =>
    finish g (plainReply .badParam 48) u) s5

/-- TENANT_DESTROY, R481: it waits for front-wide commits that touch the tenant. -/
def tenantDestroyCommand : Command where
  op := .tenantDestroy
  changes := true
  objects := fun _ f => [⟨.tenant, par f 0 2⟩]
  check := fun s f => firstFail [lengthIs f 8, reservedZero f 2 6, failIf (par f 0 2 == 0) .notPermitted 0, rangeIf (!khas s.sec.tenants (par f 0 2)) 0]
  staged := fun _ f => firstFail [lengthIs f 8, reservedZero f 2 6, failIf (par f 0 2 == 0) .notPermitted 0]
  run := fun s f => if commitsFor s (par f 0 2) then .wait else .done (endTenant (par f 0 2) f.serial s) (okReply [])

/-- TENANT_DESTROY. -/
def execTenantDestroy (h : Nat) (s : State) : Result := execCommand tenantDestroyCommand h s

/-- The debug token is accepted, R473. -/
def tokenGood (s : State) (f : Flight) : Bool :=
  let b := f.params
  let signed := b.take 64
  fld b 0 4 == 0x4E4B5444 && fld b 8 8 == Config.deviceUid.toNat && fld b 16 4 == s.sec.bootCount && fld b 20 4 == 1
    && ecdsaVerify (Config.debugKey 0) (sha384Bytes signed) (slice b 64 96) && Config.mldsaVerify (Config.debugKey 1) signed (slice b 160 4627)

/-- DEBUG_AUTHORIZE, R473: the five effects of its commit point in their order. -/
def debugAuthorizeRun (s : State) (f : Flight) : Verdict :=
  let ts := kkeys s.sec.tenants
  if ts.any (commitsFor s) then .wait
  else
    let s1 := ts.foldl (fun u t => endTenant t f.serial u) s
    let s2 := { s1 with sec := { s1.sec with
      keySlots := []
      pairs := []
      pairAsks := []
      mr := extendMr s1.sec.mr 4 (sha384Bytes f.params)
      debug := true } }
    .done ((reachedPeers s2).foldl (fun u m => closeLinks m u) s2) (okReply [])

/-- DEBUG_AUTHORIZE. -/
def debugAuthorizeCommand : Command where
  op := .debugAuthorize
  changes := true
  objects := fun _ _ => []
  check := fun s f => firstFail [lengthIs f 4792, reservedZero f 4 4, reservedZero f 24 40, reservedZero f 4787 5,
    failIf (!tokenGood s f) .authFail 0]
  run := debugAuthorizeRun

/-- DEBUG_AUTHORIZE. -/
def execDebugAuthorize (h : Nat) (s : State) : Result := execCommand debugAuthorizeCommand h s

/-- The key of a transfer slot in the issuing tenant's sixteen. -/
def slotKey (f : Flight) : Nat := f.tenant * 16 + par f 1 1

/-- What the parameters of a KEY_INSTALL alone decide, R479, R480. -/
def keyInstallShape (f : Flight) : List (Bool × Status × Nat) :=
  let op := par f 0 1
  let len := par f 24 8
  [ lengthIs f (if op = 0 then 40 else if op = 1 ∨ op = 2 then 32 else f.params.length),
    badParamIf (decide (2 < op)) 0, badParamIf (decide (15 < par f 1 1)) 1, reservedZero f 2 6 ] ++
    (if op = 0 then [] else [badParamIf (len % 65536 != 0) 24, rangeIf (len == 0 || decide (2 ^ 40 < len)) 24])

/-- Checks shared by the operations of KEY_INSTALL, R479, R480. -/
def keyInstallCheck (s : State) (f : Flight) : Option (Status × Nat) :=
  firstFail (keyInstallShape f ++ (if par f 0 1 = 0 then [] else
    [unnamedIf f (!khas s.sec.keySlots (slotKey f)) 1] ++ extentChecks s f (par f 16 8) (par f 24 8) 16))

/-- Nonce of a chunk of a transfer image, R479. -/
def chunkNonce (first : Bytes) (i : Nat) : Bytes := first ++ toLe 8 i

/-- A transfer image, R479. -/
def exportImage (key : BitVec 256) (count : Nat) (plain : Bytes) : Bytes :=
  let hdr := toLe 4 0x46525854 ++ zeros 4 ++ toLe 8 plain.length ++ toLe 4 count ++ zeros 44
  hdr ++ ((pieces 65536 (plain.length / 65536) plain).zipIdx).flatMap (fun p =>
    let n := chunkNonce (toLe 4 count) p.2
    let c := gcmXor key n 0 p.1
    c ++ toLe 16 (gcmTag key n hdr c).toNat)

/-- A transfer image is opened: its plaintext, or 0 for a header fault, i + 1 for the first chunk whose tag fails, R479. -/
def importImage (key : BitVec 256) (len : Nat) (image : Bytes) : Except Nat Bytes :=
  let hdr := image.take 64
  if fld hdr 0 4 ≠ 0x46525854 ∨ zeroAt hdr 4 4 = false ∨ zeroAt hdr 20 44 = false ∨ fld hdr 8 8 ≠ len then .error 0
  else
    let chunks := (pieces 65552 (len / 65536) (image.drop 64)).zipIdx
    let nonce := fun (i : Nat) => chunkNonce (slice hdr 16 4) i
    match chunks.find? (fun p => toLe 16 (gcmTag key (nonce p.2) hdr (p.1.take 65536)).toNat != p.1.drop 65536) with
    | some p => .error (p.2 + 1)
    | none => .ok (chunks.flatMap (fun p => gcmXor key (nonce p.2) 0 (p.1.take 65536)))

/-- KEY_INSTALL, R479; `content` holds the image read from host memory for IMPORT. -/
def keyInstallRun (s : State) (f : Flight) : Verdict :=
  let k := slotKey f
  let len := par f 24 8
  if par f 0 1 = 0 then
    .done { s with sec := { s.sec with keySlots := kset s.sec.keySlots k ⟨BitVec.ofNat 256 (par f 8 32), 0⟩ } } (okReply [])
  else match kget s.sec.keySlots k with
    | none => .reject .outOfRange 49
    | some x =>
      if s.host.busMaster = false then .wait
      else if par f 0 1 = 1 then
        match importImage x.key len (f.content.getD []) with
        | .error d => .reject .integrityFail d
        | .ok b => commitVerdict f [(par f 16 8, b)] s (fun s1 => .done s1 (okReply []))
      else if 0xFFFFFFFF ≤ x.counter then .reject .noResource 0
      else match readFails s (par f 16 8) len with
        | some (st, d) => .reject st d
        | none =>
          let s1 := emit (.hostWrite (par f 8 8) (exportImage x.key x.counter (memRead s (par f 16 8) len))) s
          .done { s1 with sec := { s1.sec with keySlots := kset s1.sec.keySlots k { x with counter := x.counter + 1 } } } (okReply [])

/-- KEY_INSTALL. -/
def keyInstallCommand : Command where
  op := .keyInstall
  changes := true
  objects := fun _ f => [⟨.slot, slotKey f⟩]
  check := keyInstallCheck
  staged := fun _ f => firstFail (keyInstallShape f)
  run := keyInstallRun

/-- KEY_INSTALL SET; a reserved OP is refused here. -/
def execKeyInstallSet (h : Nat) (s : State) : Result := ofForm (fun f => par f 0 1 != 1 && par f 0 1 != 2) h s (execCommand keyInstallCommand h)

/-- KEY_INSTALL IMPORT: `image` is what stands in host memory at HOST_ADDR. -/
def execKeyInstallImport (h : Nat) (image : Bytes) (s : State) : Result :=
  ofForm (fun f => par f 0 1 == 1) h s (fun s1 =>
    match flightOf s1 h with
    | none => .next s1
    | some f =>
      let s2 := runCommand keyInstallCommand h (setFlight { f with content := some image } s1)
      .next (settle s1 s2))

/-- KEY_INSTALL EXPORT. -/
def execKeyInstallExport (h : Nat) (s : State) : Result := ofForm (fun f => par f 0 1 == 2) h s (execCommand keyInstallCommand h)

/-- KEY_RETIRE, R480. -/
def keyRetireCommand : Command where
  op := .keyRetire
  changes := true
  objects := fun _ f => [⟨.slot, f.tenant * 16 + par f 0 1⟩]
  check := fun s f => firstFail [lengthIs f 8, badParamIf (decide (15 < par f 0 1)) 0, reservedZero f 1 7,
    unnamedIf f (!khas s.sec.keySlots (f.tenant * 16 + par f 0 1)) 0]
  staged := fun _ f => firstFail [lengthIs f 8, badParamIf (decide (15 < par f 0 1)) 0, reservedZero f 1 7]
  run := fun s f => .done { s with sec := { s.sec with keySlots := kdel s.sec.keySlots (f.tenant * 16 + par f 0 1) } } (okReply [])

/-- KEY_RETIRE. -/
def execKeyRetire (h : Nat) (s : State) : Result := execCommand keyRetireCommand h s

/-- The slot that is not running. -/
def otherSlot (s : State) : Nat := 1 - s.sec.running.getD 0

/-- FW_STAGE, R461. -/
def fwStageCommand : Command where
  op := .fwStage
  changes := true
  objects := fun _ _ => []
  check := fun s f => firstFail [
    lengthIs f 16,
    lengthIf (par f 8 4 % 4096 != 0) 8, lengthIf (par f 12 4 == 0 || par f 12 4 % 4096 != 0) 12,
    rangeIf (decide (0x1F80000 < par f 8 4 + par f 12 4)) 8,
    failIf (!covered s f (par f 0 8) (par f 12 4)) .notPermitted 0,
    failIf s.sec.trial .notPermitted 0]
  run := fun s f =>
    match readFails s (par f 0 8) (par f 12 4) with
    | some (st, d) => .reject st d
    | none =>
      let b := memRead s (par f 0 8) (par f 12 4)
      let x := s.sec
      let y := if otherSlot s = 0 then { x with slotA := Memory.writeN (Memory.clear x.slotA (par f 8 4) (par f 12 4)) (par f 8 4) b }
        else { x with slotB := Memory.writeN (Memory.clear x.slotB (par f 8 4) (par f 12 4)) (par f 8 4) b }
      .done { s with sec := if (dirOf y).pending then writeDir (dirOf y).active false y else y } (okReply [])

/-- FW_STAGE. -/
def execFwStage (h : Nat) (s : State) : Result := execCommand fwStageCommand h s

/-- FW_ACTIVATE, both OPs, R462. -/
def fwActivateCommand : Command where
  op := .fwActivate
  changes := true
  objects := fun _ _ => []
  check := fun s f => firstFail [lengthIs f 8, badParamIf (decide (1 < par f 0 1)) 0, reservedZero f 1 7,
    failIf (par f 0 1 == 1 && s.sec.trial) .notPermitted 0,
    failIf (par f 0 1 == 0 && !bundleValid s.sec.floors (slotOf s.sec (otherSlot s))) .authFail 0]
  run := fun s f =>
    if par f 0 1 = 0 then
      .done { s with sec := writeDir (dirOf s.sec).active true s.sec } (okReply (toLe 8 (bundleBuild (slotOf s.sec (otherSlot s)))))
    else .done { s with sec := { s.sec with floors := (List.range 3).map (fun i => max (nth s.sec.floors i) (nth s.sec.svn i)) } } (okReply [])

/-- FW_ACTIVATE OP 0; a reserved OP is refused here. -/
def execFwActivate (h : Nat) (s : State) : Result := ofForm (fun f => par f 0 1 != 1) h s (execCommand fwActivateCommand h)

/-- FW_ACTIVATE OP 1, COMMIT_SVN. -/
def execFwCommitSvn (h : Nat) (s : State) : Result := ofForm (fun f => par f 0 1 == 1) h s (execCommand fwActivateCommand h)

/-- A peer's report and alias keys pass the checks of R477. -/
def peerReportGood (s : State) (uid : Nat) (keys rep : Bytes) : Bool :=
  let k : PublicKeys := ⟨keys.take 97, slice keys 97 2592⟩
  Config.chainValid uid keys && fld rep 0 4 == 0x54505241 && fld rep 8 8 == uid && fld rep 16 1 == 1 && fld rep 17 1 == 0
    && bitOf (fld rep 18 1) 0 && (List.range 3).all (fun i => decide (nth s.sec.floors i ≤ fld rep (20 + 2 * i) 2))
    && hybridVerify k (rep.take 680) (slice rep 680 96) (slice rep 776 4627)

/-- A pair secret is set: MSG_SEQ restarts at 1 on every channel to the peer, R476. -/
def setPair (uid : Nat) (prk : BitVec 384) (s : State) : State :=
  let s1 := { s with sec := { s.sec with pairs := kset s.sec.pairs uid ⟨prk⟩ } }
  match moduleOfUid s1 uid with
  | none => s1
  | some m => { s1 with fabric := { s1.fabric with channels := s1.fabric.channels.filter (fun c => c.1 / 4096 != m) } }

/-- A pair-secret message fails its checks: the links to that peer close, R477. -/
def pairFails (uid : Nat) (s : State) : State :=
  match moduleOfUid s uid with
  | none => s
  | some m => closeLinks m s

/-- This module answers a peer's request for a pair secret: the result of R470 and its alias keys; of the two exchanges the one asked by the lower DEVICE_UID gives the secret (log entry 63). -/
def answerPair (uid : Nat) (body : Bytes) (s : State) : Bool × State :=
  let own := Config.deviceUid.toNat
  let keys := slice body 11843 2689
  let k : PublicKeys := ⟨keys.take 97, slice keys 97 2592⟩
  if !peerReportGood s uid keys (slice body 6440 5403) || s.sec.entropyFailed
      || !hybridVerify k (pairSigned own (body.take 1712)) (slice body 1712 96) (slice body 1808 4627) then (false, pairFails uid s)
  else
    let n := s.sec.draws
    let point := fitBytes 97 (Config.ecdhPublic n)
    let cipher := fitBytes 1568 (Config.mlkemCipher n (slice body 144 1568))
    let transcript := sha384Bytes (pairSigned own (body.take 1712) ++ point ++ cipher ++ zeros 4)
    let prk := sessionPrk transcript (Config.ecdhShared n (slice body 40 97)) (Config.mlkemShared n (slice body 144 1568))
    let s1 := { s with sec := { s.sec with draws := n + 1 } }
    let s2 := if uid < own then setPair uid prk s1 else s1
    (true, emit (.message ((moduleOfUid s uid).getD 0xFFFF) 0 1 (zeros 8 ++ point ++ zeros 7 ++ cipher
      ++ report s2 0 0 (zeros 48) transcript (slice body 8 32) (zeros 64) ++ zeros 5 ++ fitBytes 2689 (Config.devicePublic 1))) s2)

/-- A peer's answer to this module's own request. -/
def takePair (uid : Nat) (body : Bytes) (s : State) : Bool × State :=
  match kget s.sec.pairAsks uid with
  | none => (true, s)
  | some n =>
    let keys := slice body 7088 2689
    let rep := slice body 1680 5403
    let transcript := sha384Bytes (pairSigned uid (pairPrefix n) ++ slice body 8 97 ++ slice body 112 1568 ++ zeros 4)
    if !peerReportGood s uid keys rep || slice rep 152 48 != transcript then (false, pairFails uid s)
    else
      let prk := sessionPrk transcript (Config.ecdhShared n (slice body 8 97)) (Config.mlkemOpen n (slice body 112 1568))
      let s1 := { s with sec := { s.sec with pairAsks := kdel s.sec.pairAsks uid } }
      (true, if Config.deviceUid.toNat < uid then setPair uid prk s1 else s1)

end Sys2Proof.Machine
end

