-- ==== Sys2Proof/Machine/TierRows.lean ====
section
/-! DEFINITION. The commands and events of the memory tiers, chapter 07: allocation, copy, fill, residency, stalls, scrub, statistics. -/

namespace Sys2Proof.Machine

open Sys2Proof

/-- What the parameters of a MEM_ALLOC alone decide, R214. -/
def memAllocShape (f : Flight) : List (Bool × Status × Nat) :=
  let tier := par f 0 1
  let flags := par f 1 1
  let die := par f 2 1
  let len := par f 8 8
  [lengthIs f 16,
    badParamIf (tier == 0 || decide (3 < tier)) 0, badParamIf (decide (1 < flags) || (flags == 1 && tier == 1)) 1,
    badParamIf (die != 0xFF && (tier != 1 || decide (3 < die))) 2, reservedZero f 3 5,
    badParamIf (len == 0 || len % 65536 != 0) 8]

/-- The checks of MEM_ALLOC, R214. -/
def memAllocCheck (s : State) (f : Flight) : Option (Status × Nat) :=
  let t := s.tiers
  let tier := par f 0 1
  let die := par f 2 1
  let len := par f 8 8
  firstFail (memAllocShape f ++ [rangeIf (tier == 3 && t.logicalLen == 0) 0, rangeIf (decide (tierLogical t tier < len)) 8,
    failIf ((freeGaps t tier die len).isEmpty || (tier == 1 && decide ((quotaOf t f.tenant).t1 < allocBytes t f.tenant 1 + len))) .noResource 0,
    failIf (decide (1048576 ≤ t.allocs.length)) .tableFull 0])

/-- MEM_ALLOC: a free range, whose place the device chooses (a free value, log entry 6); it reads as zero, R214. -/
def memAllocCommand : Command where
  op := .memAlloc
  changes := true
  objects := fun _ f => [⟨.tierQuota, f.tenant⟩]
  changed := fun _ _ => []
  held := fun _ f => [⟨.tierQuota, f.tenant⟩]
  check := memAllocCheck
  staged := fun _ f => firstFail (memAllocShape f)
  run := fun s f =>
    let tier := par f 0 1
    let len := par f 8 8
    let (base, s1) := takeRange ⟨len, f.tenant, tier, par f 1 1 == 1, false⟩ (par f 2 1) s
    .done s1 (okReply (toLe 8 base))

/-- MEM_ALLOC. -/
def execMemAlloc (h : Nat) (s : State) : Result := execCommand memAllocCommand h s

/-- The allocation that MEM_FREE names. -/
def freedAlloc (s : State) (f : Flight) : Option Alloc := (kget s.tiers.allocs (par f 0 8)).filter (fun x => !x.hidden)

/-- MEM_FREE: commits after every admitted command that names the allocation, R215; a kernel run admitted before it may still name any of its tenant's. Commands taken
after it that name the range, a second MEM_FREE among them, are refused. -/
def memFreeCommand : Command where
  op := .memFree
  changes := true
  objects := fun _ f => [⟨.alloc, par f 0 8⟩]
  held := fun s f => (List.range (((freedAlloc s f).map (·.len)).getD 0 / 65536)).map (fun i => ⟨.memory, par f 0 8 / 65536 + i⟩)
  check := fun s f =>
    let a := freedAlloc s f
    firstFail [lengthIs f 8, rangeIf ((tierAt s.tiers (par f 0 8)).isNone) 0, unnamedIf f a.isNone 0,
      failIf (a.any (fun x => x.tenant != f.tenant)) .notPermitted 0,
      failIf (a.any (fun x => modelNames s (par f 0 8) x.len)) .notPermitted 0,
      failIf (a.any (freeing s f (par f 0 8))) .notPermitted 0]
  staged := fun _ f => firstFail [lengthIs f 8]
  waits := fun s f =>
    let len := ((freedAlloc s f).map (·.len)).getD 0
    s.proto.flights.any (fun g => decide (g.serial < f.serial) && namesRange s g (par f 0 8) len)
      || s.compute.runs.any (fun r => r.tenant == f.tenant && decide (r.serial < f.serial))
  run := fun s f => .done (releaseAlloc (par f 0 8) (((freedAlloc s f).map (·.len)).getD 0) s) (okReply [])

/-- MEM_FREE. -/
def execMemFree (h : Nat) (s : State) : Result := execCommand memFreeCommand h s

/-- The checks of MEM_COPY, R230, R232. -/
def memCopyCheck (s : State) (f : Flight) : Option (Status × Nat) :=
  let rows := par f 16 4
  let rb := par f 20 4
  let x := par f 32 1
  firstFail ([lengthIs f 40, badParamIf (rows == 0 || decide (16777216 < rows)) 16,
      badParamIf (rb == 0 || decide (0x10000000 < rb)) 20, badParamIf (decide (4 < x)) 32, reservedZero f 33 7,
      badParamIf (moveInvalid x rows rb (par f 28 4) 16777216 (2 ^ 64)) 28]
    ++ extentChecks s f (par f 0 8) (srcExtent rows rb (par f 24 4)) 0
    ++ extentChecks s f (par f 8 8) (dstExtent x rows rb (par f 28 4)) 8)

/-- Marks carried by a copy to their destination units, R592. -/
def addMarks (poison tags : List (Nat × Nat)) (s : State) : State :=
  { s with tiers := { s.tiers with
      poisoned := (s.tiers.poisoned ++ (poison.map (fun m => unitsOf s.tiers m.1 m.2)).flatten).eraseDups
      badTags := (s.tiers.badTags ++ (tags.map (fun m => unitsOf s.tiers m.1 m.2)).flatten).eraseDups } }

/-- MEM_COPY: reads the state before it, its writes appear at its commit point, R230 to R232; a want of frames is found before a read fails, R219. -/
def memCopyCommand : Command where
  op := .memCopy
  changes := true
  objects := fun _ _ => []
  held := namedObjs
  check := memCopyCheck
  run := fun s f =>
    let rows := par f 16 4
    let rb := par f 20 4
    let x := par f 32 1
    let src := par f 0 8
    let dst := par f 8 8
    let ss := par f 24 4
    let ds := par f 28 4
    let runs := moveRuns (memRead s) src dst rows rb ss ds x
    withFrames f runs s (fun t =>
      match (if x = 0 then none else readsFail t ((List.range rows).map (fun r => (src + r * ss, rb)))) with
      | some (st, d) => .rejectIn (noteReadFail f st d t) st d
      | none =>
        let carry := fun marks => if x = 0 then carriedMarks (poisonUnit t.tiers) marks src dst rows rb ss ds else []
        commitVerdict f runs t (fun s1 => .done (addMarks (carry t.tiers.poisoned) (carry t.tiers.badTags) s1) (okReply [])))

/-- MEM_COPY. -/
def execMemCopy (h : Nat) (s : State) : Result := execCommand memCopyCommand h s

/-- MEM_FILL, R231. -/
def memFillCommand : Command where
  op := .memFill
  changes := true
  objects := fun _ _ => []
  held := namedObjs
  check := fun s f =>
    let a := par f 0 8
    let len := par f 8 8
    let tier := tierAt s.tiers a
    firstFail ([lengthIs f 24, badParamIf (a % 64 != 0) 0,
        badParamIf (len == 0 || len % 64 != 0 || tier.any (fun k => decide (tierLogical s.tiers k < len))) 8,
        badParamIf (tier.isSome && !inTiers s.tiers a len) 8]
      ++ extentChecks s f a len 0)
  run := fun s f =>
    let pat := slice f.params 16 8
    let bytes := (List.range (par f 8 8 / 8)).flatMap (fun _ => pat)
    commitVerdict f [(par f 0 8, bytes)] s (fun s1 => .done s1 (okReply []))

/-- MEM_FILL. -/
def execMemFill (h : Nat) (s : State) : Result := execCommand memFillCommand h s

/-- The checks that RESIDE, DEMOTE and FLUSH share, R221; `flags` is the largest PFLAGS value. -/
def pageCheck (flags : Nat) (dies : Bool) (s : State) (f : Flight) : Option (Status × Nat) :=
  let home := par f 0 8
  let n := par f 8 4
  let die := par f 13 1
  firstFail [lengthIs f 16, badParamIf (home % 65536 != 0) 0, badParamIf (n == 0) 8, badParamIf (decide (flags < par f 12 1)) 12,
    badParamIf (die != 0xFF && !(dies && decide (die < 4))) 13, reservedZero f 14 2,
    rangeIf (reservedScratch home) 0, failIf (touchesWindows home 1) .notPermitted 0,
    rangeIf (tierAt s.tiers home == none || tierAt s.tiers home == some 1) 0,
    rangeIf (decide (65536 < n)) 8, rangeIf (!inTiers s.tiers home (n * 65536)) 0,
    failIf (!covered s f home (n * 65536)) .notPermitted 0]

/-- The pages a residency command names. -/
def namedPages (f : Flight) : List Nat := (List.range (par f 8 4)).map (fun i => par f 0 8 / 65536 + i)

/-- A page is FILLING or WRITING: the command waits, R220. -/
def pageMoving (s : State) (p : Nat) : Bool :=
  match kget s.tiers.pages p with
  | some x => decide (x.state = .filling) || decide (x.state = .writing)
  | none => false

/-- The two counts of a residency command's result, R221. -/
def pageReply (a b : Nat) : Reply := okReply (toLe 4 a ++ toLe 4 b)

/-- Change the entries of some pages. -/
def mapPages (ps : List Nat) (g : HomePage → HomePage) (s : State) : State :=
  { s with tiers := { s.tiers with pages := s.tiers.pages.map (fun p => if ps.contains p.1 then (p.1, g p.2) else p) } }

/-- Bind pages to frames, die by die, R221, R222: FILLING, or DIRTY and zero with NOFILL, the marks of its home staying behind. -/
def bindPages (f : Flight) (noFill pin : Bool) : List Nat → State → State
  | [], s => s
  | p :: ps, s =>
    let die := if par f 13 1 < 4 then par f 13 1 else bestDie s.tiers
    let old := memoryPart s.mem (p * 65536) 65536
    let x : HomePage := ⟨if noFill then .dirty else .filling, die, f.tenant, noFill && pin, true, false, s.proto.stepCount.toNat,
      if noFill then old else [], if noFill then none else some f.serial, false, [], [], none⟩
    let bound := { s with tiers := { s.tiers with pages := kset s.tiers.pages p x } }
    bindPages f noFill pin ps (if noFill then memClear (p * 65536) 65536 (toFrame p bound) else bound)

/-- RESIDE, R222, R224, R227, R228: frames are found first, by eviction, then the reservation is checked; it ends at once where nothing is to be filled, else when its
last page is. -/
def resideRun (s : State) (f : Flight) : Verdict :=
  let pages := namedPages f
  let pin := bitOf (par f 12 1) 0
  let noFill := bitOf (par f 12 1) 1
  let fresh := pages.filter (fun p => (kget s.tiers.pages p).isNone)
  let tier := (tierAt s.tiers (par f 0 8)).getD 2
  if pages.any (pageMoving s) then .wait
  else match findFrames (some f.serial) f.tenant fresh.length s with
    | .full s1 => .rejectIn s1 .noResource 0
    | .waits s1 => .waitIn s1
    | .found s1 =>
      if par f 13 1 < 4 ∧ dieFree s1.tiers (par f 13 1) < fresh.length then .rejectIn s1 .noResource 0
      else match tierFull s1.tiers f.tenant tier (64 * fresh.length : Nat) with
        | some d => if fresh.isEmpty then done' s1 f pages fresh pin noFill else .rejectIn s1 .tierFull d
        | none => done' s1 f pages fresh pin noFill
where
  done' (s : State) (f : Flight) (pages fresh : List Nat) (pin noFill : Bool) : Verdict :=
    let s1 := bindPages f noFill pin fresh s
    let held := pages.filter (fun p => !fresh.contains p)
    if noFill || fresh.isEmpty then
      .done (mapPages held (fun x => { x with pinned := x.pinned || pin, access := s.proto.stepCount.toNat }) s1) (pageReply fresh.length held.length)
    else .begun s1

/-- RESIDE. -/
def resideCommand : Command where
  op := .reside
  changes := true
  objects := fun _ _ => []
  held := namedObjs
  check := pageCheck 3 true
  run := resideRun

/-- RESIDE. -/
def execReside (h : Nat) (s : State) : Result := execCommand resideCommand h s

/-- Drop pages of an allocation's home: dirty content that is not written back returns to the home's former content, R223. -/
def discardPage (p : Nat) (s : State) : State :=
  match kget s.tiers.pages p with
  | some x =>
    let s1 := if x.state = .dirty then { s with mem := memoryRestore s.mem x.home (p * 65536) 65536 } else s
    dropPage p s1
  | none => s

/-- The named pages in a state. -/
def pagesIn (s : State) (f : Flight) (st : PageState) : List Nat :=
  (namedPages f).filter (fun p => (kget s.tiers.pages p).any (fun x => decide (x.state = st)))

/-- The commit of a DEMOTE: written pages and CLEAN ones leave their frames, and with DISCARD the DIRTY ones, R223. -/
def demoteCommit (f : Flight) (written : List Nat) (s : State) : State :=
  let s1 := written.foldl (fun t p => dropPage p (storePage p t)) s
  let drops := pagesIn s1 f .clean ++ (if bitOf (par f 12 1) 0 then pagesIn s1 f .dirty else [])
  drops.foldl (fun t p => discardPage p t) s1

/-- The commit of a FLUSH: written pages stay, CLEAN, R223. -/
def flushCommit (written : List Nat) (s : State) : State :=
  let s1 := written.foldl (fun t p => storePage p t) s
  mapPages written (fun x => { x with state := .clean, home := [], mover := none, moved := false }) s1

/-- Pages begin to be written home for a DEMOTE or a FLUSH, R220, R223. -/
def startWriteBack (f : Flight) (flush : Bool) (dirty : List Nat) (s : State) : State :=
  mapPages dirty (fun x => { x with state := .writing, toClean := flush, mover := some f.serial, moved := false }) s

/-- DEMOTE and FLUSH begin: DIRTY pages are written home, or the command commits at once where there are none, R223. -/
def writeBackRun (flush discard : Bool) (s : State) (f : Flight) : Verdict :=
  let pages := namedPages f
  if pages.any (pageMoving s) then .wait
  else
    let dirty := pagesIn s f .dirty
    if discard || dirty.isEmpty then
      .done (if flush then s else demoteCommit f [] s) (pageReply 0 pages.length)
    else .begun (startWriteBack f flush dirty s)

/-- DEMOTE, R223. -/
def demoteCommand : Command where
  op := .demote
  changes := true
  objects := fun _ _ => []
  held := namedObjs
  check := pageCheck 1 false
  run := fun s f => writeBackRun false (bitOf (par f 12 1) 0) s f

/-- DEMOTE. -/
def execDemote (h : Nat) (s : State) : Result := execCommand demoteCommand h s

/-- FLUSH, R223. -/
def flushCommand : Command where
  op := .flush
  changes := true
  objects := fun _ _ => []
  held := namedObjs
  check := pageCheck 0 false
  run := fun s f => writeBackRun true false s f

/-- FLUSH. -/
def execFlush (h : Nat) (s : State) : Result := execCommand flushCommand h s

/-- The pages a command moves. -/
def movedBy (s : State) (h : Nat) : List (Nat × HomePage) := s.tiers.pages.filter (fun p => p.2.mover == some h)

/-- A stall is recorded when it ends, if it lasted more than 1 µs, R235, R238. -/
def recordStall (tenant tier cause ns : Nat) (s : State) : State :=
  if ns ≤ 1000 ∨ 7 < cause then s
  else
    let k := fun t => (t * 3 + tier - 1) * 8 + cause
    bump .stalls (k tenant) 1 (bump .stalls (k moduleKey) 1 (bump .stallNs (k tenant) ns (bump .stallNs (k moduleKey) ns s)))

/-- The tenants of what waits for a page: commands that have begun and stand still, runs and layers at their commit point, and the work it is evicted for, R220. -/
def pageWaiters (page : Nat) (s : State) : List Nat :=
  (s.proto.flights.filter (fun f => f.begun && !f.running && namesRange s f (page * 65536) 65536)).map (·.tenant)
    ++ (s.compute.runs.filter (fun r => runComplete s r && r.writes.any (fun w => w.1 / 65536 == page))).map (·.tenant)
    ++ (s.compute.jobs.filter (fun j => j.shadowPages.contains page && !s.sched.items.any (fun i => i.serial == j.serial))).map (·.tenant)
    ++ ((kget s.tiers.pages page).filter (·.evictor.isSome)).toList.map (·.tenant)

/-- A page leaves FILLING or WRITING: what waited for it has stalled for cause PAGE_MOVE, R220, R224, R237; how long is a free value (log entry 7). -/
def endPageWait (page : Nat) (s : State) : State :=
  let tier := (tierAt s.tiers (page * 65536)).getD 2
  (pageWaiters page s).foldl (fun t who => let (d, t1) := drawFree t; recordStall who tier 4 d t1) s

/-- A RESIDE whose pages are all filled commits: their frames serve reads from now on, R220, R222. -/
def resideCommit (f : Flight) (s : State) : State :=
  let mine := movedBy s f.serial
  if mine.any (fun p => !p.2.moved) then s
  else
    let ps := mine.map (·.1)
    let pin := bitOf (par f 12 1) 0
    let s0 := ps.foldl (fun t p => toFrame p (endPageWait p t)) s
    let s1 := mapPages ps (fun x => { x with state := .clean, mover := none, moved := false }) s0
    let s2 := if pin then mapPages (namedPages f) (fun x => { x with pinned := true }) s1 else s1
    finish f (pageReply ps.length (par f 8 4 - ps.length)) (commitObjects [] s2)

/-- The status an outcome of a tier access ends a command with, R233, R234. -/
def outcomeStatus : TierOutcome → Option Status
  | .poisoned => some .dataPoisoned
  | .badTag => some .integrityFail
  | .failed => some .tierError
  | _ => none

/-- A running command meets a failed tier access: a kernel run takes a DMA fault's status, every other command ends, R234, R591. -/
def failAccess (f : Flight) (st : Status) (addr : Nat) (s : State) : State :=
  let d := tierDetail ((tierAt s.tiers addr).getD 0) addr
  abortFlight f st d [] (noteReadFail f st d s)

/-- PAGE_FILL_COMPLETE: a page's frame is filled; the last one commits its RESIDE, R220, R222. -/
def pageFillComplete (page : Nat) (outcome : TierOutcome) (s0 : State) : State :=
  match kget s0.tiers.pages page with
  | none => s0
  | some x =>
    match x.mover with
    | none => s0
    | some h =>
      if x.state ≠ .filling then s0
      else match flightOf s0 h with
        | none => s0
        | some f =>
          let s := markUnit (some f) true false (page * 65536) outcome s0
          match outcomeStatus (tierOutcome ((tierAt s.tiers (page * 65536)).getD 2) outcome), readFails s (page * 65536) 65536 with
          | some st, _ => failAccess f st (page * 65536) (endPageWait page s)
          | none, some (st, d) => abortFlight f st d [] (noteReadFail f st d (endPageWait page s))
          | none, none => resideCommit f (mapPages [page] (fun y => { y with moved := true }) s)

/-- PAGE_FILL_COMPLETE. -/
def execPageFillComplete (page : Nat) (outcome : TierOutcome) (s : State) : Result := nextOf s (pageFillComplete page outcome s)

/-- A DEMOTE or FLUSH whose pages are all written commits, R223; a page that another commit has made DIRTY meanwhile is written home before it. -/
def writeBackCommit (f : Flight) (s : State) : State :=
  let mine := movedBy s f.serial
  if mine.any (fun p => !p.2.moved) then s
  else
    let ps := mine.map (·.1)
    let again := pagesIn s f .dirty
    if again ≠ [] then startWriteBack f (decide (f.op = .flush)) again s
    else
      let s0 := ps.foldl (fun t p => endPageWait p t) s
      let s1 := if f.op = .flush then flushCommit ps s0 else demoteCommit f ps s0
      finish f (pageReply ps.length (par f 8 4 - ps.length)) (commitObjects [] s1)

/-- A victim has been written home, and its frame is free; or the write has failed, and what it was evicted for ends with TIER_ERROR, R224, R234. -/
def evictionDone (page : Nat) (x : HomePage) (good : Bool) (s0 : State) : State :=
  let s := endPageWait page s0
  if good then countEviction x.tenant (dropPage page (storePage page s))
  else
    let s1 := mapPages [page] (fun y => { y with state := .dirty, evictor := none }) s
    match flightOf s1 (x.evictor.getD 0) with
    | some f => abortFlight f .tierError (tierDetail ((tierAt s.tiers (page * 65536)).getD 0) (page * 65536)) [] s1
    | none => s1

/-- WRITE_BACK_COMPLETE: a page has been written home, or its write failed, R220, R223, R224. -/
def writeBackComplete (page : Nat) (good : Bool) (s : State) : State :=
  match kget s.tiers.pages page with
  | none => s
  | some x =>
    if x.state ≠ .writing then s
    else if x.evictor.isSome then evictionDone page x good s
    else match x.mover with
      | none => if good then dropPage page (endPageWait page s) else s
      | some h =>
        match flightOf s h with
        | none => s
        | some f =>
          if good then writeBackCommit f (mapPages [page] (fun y => { y with moved := true }) s)
          else abortFlight f .tierError (tierDetail ((tierAt s.tiers (page * 65536)).getD 0) (page * 65536)) [] s

/-- WRITE_BACK_COMPLETE. -/
def execWriteBackComplete (page : Nat) (good : Bool) (s : State) : Result := nextOf s (writeBackComplete page good s)

/-- TIER_LATE ends a command, R236. -/
def tierLate (f : Flight) (addr cause : Nat) (s : State) : State :=
  let tier := (tierAt s.tiers addr).getD 0
  let s1 := bump .tierLates (f.tenant * 3 + tier - 1) 1 (bump .tierLates (moduleKey * 3 + tier - 1) 1 s)
  abortFlight f .tierLate (tierDetail tier addr + cause * 256) [] s1

/-- Whether a stall is beyond its tier's limit; one that equals it passes, R236. -/
def stallTooLong (t : Tiers) (tier ns : Nat) : Bool := decide (nth t.stallUs (tier - 1) * 1000 < ns)

/-- Whether a stall of so many nanoseconds that ends now passed its limit in or before the management tick in which its command's deadline passes: then TIER_LATE
decides, R236. -/
def stallDecides (s : State) (f : Flight) (tier ns : Nat) : Bool :=
  let expiry := s.frontTime - ns + nth s.tiers.stallUs (tier - 1) * 1000
  (deadlineAt f).all (fun off => decide (expiry / 1000000 ≤ deadlineOf f off / 1000000))

/-- A stall beyond its limit ends its command, by TIER_LATE or by the deadline that passed first, R236. -/
def stallEnds (f : Flight) (addr cause tier ns : Nat) (s : State) : State :=
  if stallDecides s f tier ns then tierLate f addr cause s else commandDeadline f.serial s.frontTime s

/-- What a speculative read met is logged and counted, and ends nothing, R288. -/
def noteSpec (f : Flight) (tier : Nat) (outcome : TierOutcome) (addr : Nat) (s : State) : State :=
  match outcomeStatus (tierOutcome tier outcome) with
  | some st => noteReadFail f st (tierDetail tier addr) s
  | none => s

/-- TIER_ACCESS_COMPLETE: an access of a command returns after a stall, well or not, R233 to R236; a speculative one of a SEARCH neither stalls nor ends it, R287,
R288. -/
def tierAccessComplete (h addr cause stallNs : Nat) (outcome : TierOutcome) (s0 : State) : State :=
  match flightOf s0 h, tierAt s0.tiers addr with
  | some f, some tier =>
    if specAccess s0 f addr then
      noteSpec f tier outcome addr (markUnit (some f) false false addr outcome s0)
    else
    let s := markUnit (some f) true false addr outcome (recordStall f.tenant tier cause stallNs s0)
    if stallTooLong s.tiers tier stallNs then stallEnds f addr cause tier stallNs s
    else match outcomeStatus (tierOutcome tier outcome) with
      | some st => failAccess f st addr s
      | none => s
  | _, _ => s0

/-- TIER_ACCESS_COMPLETE. -/
def execTierAccessComplete (h addr cause stallNs : Nat) (outcome : TierOutcome) (s : State) : Result :=
  nextOf s (tierAccessComplete h addr cause stallNs outcome s)

/-- STALL_LIMIT_EXPIRY: a stall passes its limit before the access returns, R236; one of a speculative read of a SEARCH ends nothing, R287. -/
def stallLimitExpiry (h addr cause stallNs now : Nat) (s0 : State) : State :=
  let s := advance now s0
  match flightOf s h, tierAt s.tiers addr with
  | some f, some tier =>
    if !stallTooLong s.tiers tier stallNs || specAccess s f addr then s0 else stallEnds f addr cause tier stallNs (recordStall f.tenant tier cause stallNs s)
  | _, _ => s0

/-- STALL_LIMIT_EXPIRY. -/
def execStallLimitExpiry (h addr cause stallNs now : Nat) (s : State) : Result := nextOf s (stallLimitExpiry h addr cause stallNs now s)

/-- PATROL_SCRUB: a read of Tier 1 or Tier 2 finds nothing, a corrected or an uncorrectable error, R234. -/
def execPatrolScrub (addr : Nat) (outcome : TierOutcome) (s : State) : Result :=
  match tierAt s.tiers addr with
  | some 1 => nextOf s (if outcome = .badTag then s else markUnit none false true addr outcome s)
  | some 2 => nextOf s (if outcome = .badTag then s else markUnit none false true addr outcome s)
  | _ => .next s

/-- A tier section of TIER_STATS, R238. -/
def tierSection (s : State) (all : Bool) (tenant tier : Nat) : Bytes :=
  let t := s.tiers
  let key := if all then moduleKey else tenant
  let q := quotaOf t tenant
  let blocks := (t.sectors.filter (fun p => match allocAt t (p.1 * 4096) with
    | some (_, al) => al.tier == tier && (all || al.tenant == tenant)
    | none => false)).length
  let allocd := if all then listSum ((kvals t.allocs).map (fun a => if a.tier = tier then a.len else 0)) else allocBytes t tenant tier
  let t1Free := tierLogical t 1 - listSum (t.pool.map (· * 65536)) - listSum ((kvals t.allocs).map (fun a => if a.tier = 1 then a.len else 0))
  toLe 8 allocd
    ++ toLe 8 (if tier = 1 then 0 else if all then heldAll t tier else heldSectors t tenant tier)
    ++ toLe 8 (if tier = 1 then 0 else if all then reservedAll t tier else reservedSectors t tenant tier)
    ++ toLe 8 (if tier = 1 then (if all then tierLogical t 1 else q.t1) else if all then tierSectors t tier else sectorQuota t tenant tier)
    ++ toLe 8 (if tier = 1 then t1Free else freeSectors t tier)
    ++ toLe 8 (if tier = 1 then 0 else blocks)
    ++ toLe 8 (ctrGet s.counters .integrityFails (key * 3 + tier - 1)).toNat
    ++ toLe 8 (ctrGet s.counters .tierLates (key * 3 + tier - 1)).toNat

/-- The 608 bytes of TIER_STATS, R238; `all`: the module's totals. -/
def tierStatsBytes (s : State) (all : Bool) (tenant : Nat) : Bytes :=
  let key := if all then moduleKey else tenant
  let pages := s.tiers.pages.filter (fun p => all || p.2.tenant == tenant)
  let shadows := if all then listSum ((s.compute.runs.map (·.tenant) ++ s.compute.jobs.map (·.tenant)).eraseDups.map (fun w => runShadows s w + jobShadows s w)) + (pages.filter (fun p => !p.2.resident)).length
    else shadowFrames s tenant
  toLe 2 tenant ++ zeros 2 ++ toLe 4 (pages.filter (fun p => p.2.resident)).length ++ toLe 4 shadows
    ++ toLe 4 (if all then listSum s.tiers.pool else (quotaOf s.tiers tenant).frames)
    ++ toLe 8 (pages.filter (fun p => p.2.pinned)).length
    ++ toLe 8 (ctrGet s.counters .evictions key).toNat
    ++ tierSection s all tenant 1 ++ tierSection s all tenant 2 ++ tierSection s all tenant 3
    ++ (List.range 24).flatMap (fun i =>
        toLe 8 (ctrGet s.counters .stalls (key * 24 + i)).toNat ++ toLe 8 (ctrGet s.counters .stallNs (key * 24 + i)).toNat)

/-- The operator asks for the module's totals, R238. -/
def wholeModule (f : Flight) : Bool := par f 0 2 == 0xFFFF && f.tenant == 0

/-- TIER_STATS, R238. -/
def tierStatsCommand : Command where
  op := .tierStats
  changes := false
  objects := fun _ _ => []
  check := fun s f =>
    let t := par f 0 2
    firstFail ([lengthIs f 8, reservedZero f 2 6] ++ (if wholeModule f then [] else ownTenant s f t 0))
  run := fun s f => .done s (okReply (tierStatsBytes s (wholeModule f) (par f 0 2)))

/-- TIER_STATS. -/
def execTierStats (h : Nat) (s : State) : Result := execCommand tierStatsCommand h s

end Sys2Proof.Machine
end

