-- ==== Sys2Proof/Machine/TxnRows.lean ====
section
/-! DEFINITION. Transactions: TXN_BEGIN (R62), TXN_SET (R65), TXN_ROLLBACK (R69), their timeout, CONFIG_GET (R603) and ROLE_SET (R348). TXN_COMMIT stands with the front-wide commit. -/

namespace Sys2Proof.Machine

open Sys2Proof

/-- The open transactions of a session: those not closing, R63, R71. -/
def openTxns (s : State) (session : Nat) : List Txn :=
  s.proto.txns.filter (fun t => t.session == session && decide (t.state = .open) && !txnClosing s session t.id)

/-- TXN_BEGIN opens a transaction with the next TXN_ID of its session, R62. -/
def txnBeginRun (s : State) (f : Flight) : Verdict :=
  match kget s.proto.sessions f.hdr.sessionId with
  | none => .reject .noSession 0
  | some x =>
    checked [failIf (decide (4 ≤ (openTxns s x.id).length)) .txnLimit 0]
      (.done (noteHigh 0x9100 2 (s.proto.txns.length + 1) { s with proto := { s.proto with
          sessions := kset s.proto.sessions x.id { x with nextTxn := x.nextTxn + 1 }
          txns := s.proto.txns ++ [⟨x.nextTxn, x.id, f.tenant, f.hdr.scope, f.hdr.scopeDepth,
            if par f 0 4 = 0 then 10000 else par f 0 4, s.frontTime, .open, []⟩] } })
        (okReply (toLe 4 x.nextTxn ++ zeros 4)))

/-- TXN_BEGIN, R62. -/
def txnBeginCommand : Command where
  op := .txnBegin
  changes := false
  objects := fun _ _ => []
  check := fun _ f => firstFail [lengthIs f 8, rangeIf (decide (600000 < par f 0 4)) 0, reservedZero f 4 4]
  run := txnBeginRun

/-- TXN_BEGIN. -/
def execTxnBegin (h : Nat) (s : State) : Result := execEntry txnBeginCommand h s

/-- The items of a TXN_SET are set in its transaction, under its scope, with the versions of what they touch, R63, R65, R67. -/
def txnSetRun (s : State) (f : Flight) : Verdict :=
  match txnOf s f.hdr.sessionId f.hdr.txnId with
  | none => .reject .txnUnknown 0
  | some t =>
    let l := setItems f
    checked [failIf (decide (1024 < stagedItems t + l.length) || decide (1048576 < stagedBytes t + f.params.length)) .txnLimit 0]
      (let vs := (l.map (itemObject f.tenant)).map (fun o => (o, versionOf s.proto.versions o))
       let g := { f with hdr := { f.hdr with scope := t.scope, scopeDepth := t.scopeDepth }, taken := s.frontTime }
       .done (setTxn { t with parts := t.parts ++ [.items g l vs], touched := s.frontTime } s) (okReply []))

/-- TXN_SET, R65. -/
def txnSetCommand : Command where
  op := .txnSet
  changes := false
  objects := fun _ _ => []
  check := fun _ f => setChecks f
  run := txnSetRun

/-- TXN_SET. -/
def execTxnSet (h : Nat) (s : State) : Result := execEntry txnSetCommand h s

/-- An earlier command of the same transaction has been taken and is not staged yet: what closes the transaction comes after it. -/
def stagingBefore (s : State) (f : Flight) : Bool :=
  s.proto.flights.any (fun g => decide (g.serial < f.serial) && g.hdr.sessionId == f.hdr.sessionId && g.hdr.txnId == f.hdr.txnId)

/-- TXN_ROLLBACK, R69: the transaction is discarded, the final records of R68 come first. -/
def txnRollbackCommand : Command where
  op := .txnRollback
  changes := false
  objects := fun _ _ => []
  check := fun _ f => firstFail [lengthIs f 0]
  run := fun s f =>
    match txnOf s f.hdr.sessionId f.hdr.txnId with
    | none => .reject .txnUnknown 0
    | some t => if stagingBefore s f then .wait else .done (abortTxn t.session t.id t.parts none s) (okReply [])

/-- TXN_ROLLBACK. -/
def execTxnRollback (h : Nat) (s : State) : Result := execEntry txnRollbackCommand h s

/-- TXN_TIMEOUT: TIMEOUT_MS without a staging, TXN_SET or TXN_COMMIT, R69. -/
def txnTimeout (session txn now : Nat) (s0 : State) : State :=
  let s := advance now s0
  match txnOf s session txn with
  | some t =>
    if t.state = .open ∧ t.touched + t.timeoutMs * 1000000 ≤ s.frontTime ∧ txnClosing s session txn = false then
      abortTxn session txn t.parts none s
    else s0
  | none => s0

/-- TXN_TIMEOUT. -/
def execTxnTimeout (session txn now : Nat) (s : State) : Result := nextOf s (txnTimeout session txn now s)

/-- CONFIG_GET, R603. -/
def configGetCommand : Command where
  op := .configGet
  changes := false
  objects := fun _ _ => []
  check := fun s f =>
    let id := par f 0 4
    let sel := par f 4 4
    firstFail [lengthIs f 8, oneModule s f,
      failIf (f.hdr.sessionId == 0 && !itemPublic id) .noSession 0,
      rangeIf (itemLen id).isNone 0,
      badParamIf (!itemPerTenant id && sel != 0) 4,
      failIf (itemPerTenant id && f.tenant != 0 && sel != f.tenant) .notPermitted 0,
      rangeIf (itemPerTenant id && f.tenant == 0 && !tenantExists s sel) 4]
  run := fun s f =>
    let id := par f 0 4
    let n := (itemLen id).getD 0
    .done s (okReply (toLe 4 id ++ toLe 2 n ++ zeros 2 ++ itemValue s id (par f 4 4) ++ zeros (ceilDiv n 8 * 8 - n)))

/-- CONFIG_GET. -/
def execConfigGet (h : Nat) (s : State) : Result := execCommand configGetCommand h s

/-- ROLE_SET, R4, R6, R348. -/
def roleSetCommand : Command where
  op := .roleSet
  changes := true
  objects := fun _ _ => [⟨.role, 0⟩]
  check := fun _ f => firstFail [lengthIs f 8, badParamIf (decide (3 < par f 0 1)) 0, reservedZero f 1 7]
  run := fun s f => checked [failIf (!s.serve.requests.isEmpty) .txnConflict 0] (.done { s with role := some (par f 0 1) } (okReply []))

/-- ROLE_SET is staged. -/
def execRoleSet (h : Nat) (s : State) : Result := execCommand roleSetCommand h s

end Sys2Proof.Machine
end

