-- ==== Sys2Proof/Machine/CmdOps.lean ====
section
/-! DEFINITION. What a transaction or a PREPARE does on one module: the commands it may carry, its parts in their order (R66), its votes (R72), and the messages that carry it (R430). -/

namespace Sys2Proof.Machine

open Sys2Proof

/-- The modules that hold the state a command touches: those its scope names. -/
def scopeHolders (s : State) (f : Flight) : List Nat := scopeModules s f.hdr

/-- A command that its entry member executes alone. -/
def entryHolder (s : State) (f : Flight) : List Nat := [entryOf s f]

/-- Every module of the view that is reached: a change of the view. -/
def viewHolders (s : State) (_ : Flight) : List Nat := reachSet s

/-- FRONT_JOIN: a candidacy is the entry member's own; an admission is every member's. -/
def joinHolders (s : State) (f : Flight) : List Nat := if par f 0 1 = 1 then viewHolders s f else entryHolder s f

/-- The commands that a transaction may stage, and the modules that each touches. -/
def stageable : Opcode → Option (Command × (State → Flight → List Nat))
  | .keyInstall => some (keyInstallCommand, scopeHolders)
  | .keyRetire => some (keyRetireCommand, scopeHolders)
  | .tenantCreate => some (tenantCreateCommand, scopeHolders)
  | .tenantDestroy => some (tenantDestroyCommand, scopeHolders)
  | .roleSet => some (roleSetCommand, scopeHolders)
  | .memAlloc => some (memAllocCommand, scopeHolders)
  | .memFree => some (memFreeCommand, scopeHolders)
  | .modelUnload => some (modelUnloadCommand, scopeHolders)
  | .steerSetLoad => some (steerSetLoadCommand, scopeHolders)
  | .steerSetDrop => some (steerSetDropCommand, scopeHolders)
  | .chainDefine => some (chainDefineCommand, scopeHolders)
  | .tableCreate => some (tableCreateCommand, scopeHolders)
  | .tableDrop => some (tableDropCommand, tableMembers)
  | .hotPolicySet => some (hotPolicyCommand, tableShard)
  | .indexCreate => some (indexCreateCommand, scopeHolders)
  | .indexDrop => some (indexDropCommand, indexShard)
  | .stopSet => some (stopSetCommand, entryHolder)
  | .pipelineDefine => some (pipelineCommand, scopeHolders)
  | .sharesSet => some (sharesSetCommand, scopeHolders)
  | .budgetSet => some (budgetCommand, scopeHolders)
  | .contractSet => some (contractCommand, scopeHolders)
  | .frontForm => some (frontFormCommand, viewHolders)
  | .frontJoin => some (frontJoinCommand, joinHolders)
  | .frontLeave => some (frontLeaveCommand, viewHolders)
  | .linkConfig => some (linkConfigCommand, scopeHolders)
  | .anchorSet => some (anchorSetCommand, viewHolders)
  | .powerCapSet => some (powerCapCommand, scopeHolders)
  | .statePolicySet => some (statePolicyCommand, scopeHolders)
  | _ => none

/-- The commands that run alone on several members by the front-wide commit besides those. -/
def runsAlone : Opcode → Option Command
  | .kernelLoad => some kernelLoadCommand
  | .kernelRun => some kernelRunCommand
  | .layerRun => some layerRunCommand
  | .memCopy => some memCopyCommand
  | .memFill => some memFillCommand
  | .reside => some resideCommand
  | .demote => some demoteCommand
  | .flush => some flushCommand
  | .modelLoad => some modelLoadCommand
  | .indexLoad => some indexLoadCommand
  | .vecInsert => some vecInsertCommand
  | .vecDelete => some vecDeleteCommand
  | .indexMerge => some indexMergeCommand
  | .rowsWrite => some rowsWriteCommand
  | .debugAuthorize => some debugAuthorizeCommand
  | .fwStage => some fwStageCommand
  | .fwActivate => some fwActivateCommand
  | _ => none

/-- What a command does on a member that takes part in its commit. -/
def commandOf (op : Opcode) : Option Command :=
  match stageable op with
  | some (c, _) => some c
  | none => runsAlone op

/-- A part brings a new view to the modules it names: FRONT_FORM, and FRONT_JOIN ADMIT. -/
def formsView (f : Flight) : Bool := decide (f.op = .frontForm) || (decide (f.op = .frontJoin) && par f 0 1 == 1)

/-- The command of a part, and the header of a TXN_SET. -/
def partFlight : Part → Flight
  | .command f _ => f
  | .items f _ _ => f

/-- The modules that a part touches. -/
def partHolders (s : State) : Part → List Nat
  | .items f _ _ => scopeModules s f.hdr
  | .command f _ => match stageable f.op with
    | some (_, mods) => mods s f
    | none => []

/-- The objects that a part reads or changes on this module, R67. -/
def partObjects (s : State) : Part → List Obj
  | .items f l _ => l.map (itemObject f.tenant)
  | .command f _ => match commandOf f.op with
    | some c => c.objects s f
    | none => []

/-- The objects that a part locks on this module, R72. -/
def partTouches (s : State) : Part → List Obj
  | .items f l _ => l.map (itemObject f.tenant)
  | .command f _ => match commandOf f.op with
    | some c => c.touches s f
    | none => []

/-- The objects that a part changes on this module, R67. -/
def partChanges (s : State) : Part → List Obj
  | .items f l _ => l.map (itemObject f.tenant)
  | .command f _ => match commandOf f.op with
    | some c => c.changed s f
    | none => []

/-- The objects whose locks a part waits for, R72. -/
def partWrites (s : State) : Part → List Obj
  | .items f l _ => l.map (itemObject f.tenant)
  | .command f _ => match commandOf f.op with
    | some c => c.writes s f
    | none => []

/-- The versions recorded when a part was staged. -/
def partVersions : Part → List (Obj × Nat)
  | .items _ _ vs => vs
  | .command _ vs => vs

/-- A part stands against R6: a change of role while a request is in flight. -/
def roleConflict (s : State) : Part → Bool
  | .command f _ => decide (f.op = .roleSet) && !s.serve.requests.isEmpty
  | .items _ _ _ => false

/-- A recorded version differs from the present one, R67. -/
def versionConflict (s : State) (l : List Part) : Bool :=
  l.any (fun p => (partVersions p).any (fun v => versionOf s.proto.versions v.1 != v.2))

/-- An object that a part of another module's transaction touches here has changed since the part was staged there, R67 (log entry 65). -/
def staleParts (s : State) (l : List (Part × Bool)) : Bool :=
  l.any (fun p => p.2 && (partObjects s p.1).any (fun o => decide ((partFlight p.1).taken < versionOf s.proto.changedAt o)))

/-- What the parts of a commit do on one module. -/
inductive Folded where
  | done (s : State) (replies : List Reply)
  /-- a part fails: its index, status and DETAIL -/
  | fails (index : Nat) (status : Status) (detail : Nat)
  /-- it cannot take effect yet; what it has set going, where it is the first -/
  | waits (s : Option State)

/-- The parts take effect in staging order, each on what those before it left, R66; `mine` tells which of them touch this module. A part that is only judged
does not wait for the commands its commit point stands behind. -/
def foldParts (judged : Bool) : List (Part × Bool) → Nat → State → List Reply → Folded
  | [], _, s, rs => .done s rs
  | (_, false) :: l, i, s, rs => foldParts judged l (i + 1) s (rs ++ [okReply []])
  | (.items f items _, true) :: l, i, s, rs =>
    match applyItems f.tenant items s with
    | .ok s1 => foldParts judged l (i + 1) s1 (rs ++ [okReply []])
    | .error e => .fails i e.1 e.2
  | (.command f _, true) :: l, i, s, rs =>
    match commandOf f.op with
    | none => .fails i .badOpcode 2
    | some c =>
      match c.check s f with
      | some (st, d) => .fails i st d
      | none => if !judged && c.waits s f then .waits none else match c.run s f with
        | .reject st d => .fails i st d
        | .rejectIn _ st d => .fails i st d
        | .done s1 r => foldParts judged l (i + 1) (touchNamed f s1) (rs ++ [r])
        | .begun s1 => foldParts judged l (i + 1) s1 (rs ++ [okReply []])
        | .wait => .waits none
        | .waitIn s1 => .waits (if rs.isEmpty then some s1 else none)

/-- The parts of a commit with whether they touch this module; a command alone touches every participant; one that names nothing any more fails at its entry member. -/
def markParts (s : State) (alone : Bool) (l : List Part) : List (Part × Bool) :=
  l.map (fun p => (p, alone || (partHolders s p).contains s.fabric.view.self || formsView (partFlight p)
    || ((partHolders s p).isEmpty && !fromPeer (partFlight p))))

/-- The objects that the parts of a commit lock on this module. -/
def lockedObjects (s : State) (l : List (Part × Bool)) : List Obj := (l.filter (·.2)).flatMap (fun p => partTouches s p.1)

/-- The objects that the parts of a commit change on this module, R67. -/
def changedObjects (s : State) (l : List (Part × Bool)) : List Obj := (l.filter (·.2)).flatMap (fun p => partChanges s p.1)

/-- The objects whose locks the parts of a commit wait for on this module, R72. -/
def writtenObjects (s : State) (l : List (Part × Bool)) : List Obj := (l.filter (·.2)).flatMap (fun p => partWrites s p.1)

/-- What a participant votes on a transaction whose parts fail, R66, R73: the index and status of the failing part, its own DETAIL in the result (log entry 61). -/
def partsFail (i : Nat) (st : Status) (d : Nat) : Reply :=
  { status := .txnAborted, detail := i * 65536 + st.code, result := toLe 8 d }

/-- A participant's vote on the parts of a commit, R72, and the state they would leave; while it must wait, what it has set going. -/
def voteOn (alone : Bool) (l : List (Part × Bool)) (s : State) : Except State (Reply × State) :=
  if (l.filter (·.2)).any (fun p => roleConflict s p.1) then .ok (plainReply .txnConflict, s)
  else match foldParts true l 0 s [] with
    | .waits t => .error (t.getD s)
    | .fails i st d => .ok (if alone then plainReply st d else partsFail i st d, s)
    | .done t rs => .ok (if alone then rs.headD (okReply []) else okReply [], t)

/-- A part as PREPARE carries it: header, clear parameters, the data it names by address, and the front time of its staging, R430 (log entries 20, 65). -/
def partBytes (s : State) (p : Part) : Bytes :=
  let f := partFlight p
  let more := match p with
    | .items _ _ _ => []
    | .command g _ => match stageable g.op with
      | some (c, _) => c.carried s g s.fabric.view.self
      | none => []
  headerBytes f.hdr ++ f.params ++ more ++ toLe 8 f.taken

/-- A command as it arrives in a message: its header, its parameters, what follows them. -/
def arrivedCommand (s : State) (peer tenant : Nat) (b : Bytes) (op : Opcode) : Flight :=
  let h := parseHeader b
  ⟨s.proto.nextSerial, .peer peer h.commandId, op, h, slice b 48 h.paramLen, tenant, s.frontTime, false, false, 0, none, some (b.drop (48 + h.paramLen)), false⟩

/-- The parts that a PREPARE of a transaction carries. -/
def arrivedParts (s : State) (peer tenant : Nat) : Nat → Bytes → List Part
  | 0, _ => []
  | fuel + 1, b =>
    if b.length < 48 then []
    else match opcodeRow (fld b 2 2) with
      | none => []
      | some r =>
        let f := arrivedCommand s peer tenant b r.op
        let more := match stageable r.op with
          | some (c, _) => c.carriedLen f
          | none => 0
        let g := { f with content := some ((f.content.getD []).take more), taken := fld (f.content.getD []) more 8 }
        (if r.op = .txnSet then Part.items g (setItems g) [] else Part.command g [])
          :: arrivedParts s peer tenant fuel (b.drop (56 + f.hdr.paramLen + more))

/-- A CMD_FWD message taken apart: ENTRY, TXN_ID, VOTE and what follows, R430. -/
structure Fwd where
  vote : Nat
  entry : Nat
  txn : Nat
  body : Bytes

/-- The CMD_FWD fields of a message. -/
def fwdOf (m : Msg) : Fwd := ⟨fld m.body 1 1, fld m.body 2 2, fld m.body 4 4, m.body.drop 8⟩

/-- The reply that a CMD_FWD REPLY or VOTE carries, and its COMMAND_ID. -/
def carriedReply (x : Fwd) : Nat × Reply :=
  (fld x.body 0 8, { status := statusOf (fld x.body 8 2), detail := fld x.body 24 8, result := slice x.body 32 (fld x.body 12 4) })

/-- Whether a module outside the view takes part in a formation that this module takes part in, R431. -/
def formationPeer (s : State) (peer : Nat) : Bool :=
  s.fabric.forming.any (fun p => khas p.2.modules (peer % 0x10000)) || s.fabric.coords.any (fun c => c.participants.contains peer)
    || s.fabric.prepared.any (fun p => p.key.coord == peer)

/-- A PREPARE from outside the view belongs to a formation of this module's front: at the anchor (or a lone module) its sender is the sponsor of the candidacy;
a member that is not its front's anchor holds no candidacy and takes a view that holds its anchor (log entry 62), R431, R442. -/
def sponsorsThis (s : State) (parts : List Part) (peer : Nat) : Bool :=
  match parts.findSome? (fun p => if formsView (partFlight p) then formedView (partFlight p) else none) with
  | none => false
  | some v =>
    if timeSource s.fabric.view 9 0 = s.fabric.view.self then
      s.fabric.candidacy.any (fun c => ((kget v.modules (peer % 0x10000)).map (·.uid)) == some c.1)
    else v.modules.any (fun p => p.2.uid == frontUid s)

/-- A CMD_FWD message of one operation arrives, from a module of the view or, numbered from 0x10000, of a formation, R429 to R431. -/
def onFwd (op peer : Nat) (plain : Bytes) (s : State) (dropped : Msg → State → State) (k : Msg → State → State) : State :=
  if fld plain 0 1 ≠ 8 ∨ fld plain 24 1 ≠ op ∨ plain.length < 32 then s
  else
    let m : Msg := ⟨fld plain 2 2, fld plain 8 8, fld plain 16 8, plain.drop 24⟩
    if peer = s.fabric.view.self then (if op = 4 then k m s else s)
    else if 0x10000 ≤ peer then (if op = 2 || formationPeer s peer then k m s else malformed s)
    else match inbound 0x08 peer plain s with
      | .ignored => s
      | .dropped s1 => if m.epoch < s.fabric.view.epoch ∧ khas s.fabric.view.modules peer then dropped m s1 else s1
      | .accepted n s1 => k n s1

end Sys2Proof.Machine
end

