-- ==== Sys2Proof/Machine/FormOps.lean ====
section
/-! DEFINITION. The start of a front-wide transaction (R72), the wait for candidacies (R604), and the view that a FRONT_FORM or an ADMIT brings (R441, R442). -/

namespace Sys2Proof.Machine

open Sys2Proof

/-- The commits that take this module out of its front refuse handovers to it from their PREPARE on, R443. -/
def noteLeaving (key : TxnKey) (l : List (Part × Bool)) (s : State) : State :=
  let leaves := l.any (fun p => p.2 && (match p.1 with
    | .command f _ => decide (f.op = .frontLeave) && ((leaveTarget s f).map (modulesOf s.fabric.view)).any (fun ms => ms.contains s.fabric.view.self)
    | .items _ _ _ => false))
  if leaves && !s.fabric.leaving.contains key then { s with fabric := { s.fabric with leaving := s.fabric.leaving ++ [key] } } else s

/-- TXN_COMMIT ends a transaction without committing: the records of R68, then its own. -/
def commitFails (f : Flight) (t : Txn) (failing : Option (Nat × Status × Nat)) (r : Reply) (s : State) : State :=
  finishPlain f r (abortTxn t.session t.id t.parts failing s)

/-- The failing part decides a transaction, R66. -/
def partFails (f : Flight) (t : Txn) (i : Nat) (st : Status) (d : Nat) (s : State) : State :=
  commitFails f t (some (i, st, d)) (plainReply .txnAborted (i * 65536 + st.code)) s

/-- The first of the participants that this module does not reach. -/
def unreachedOf (s : State) (mods : List Nat) : Option Nat := mods.find? (fun m => decide (m < 0x10000) && !reaches s m)

/-- A front-wide transaction starts: rights, reachability, conflicts, this module's own vote, PREPARE to the others, R66, R67, R72; nothing while it waits for a lock. -/
def startTxn (f : Flight) (t : Txn) (parts : List Part) (mods : List Nat) (s : State) : State :=
  let key : TxnKey := ⟨s.fabric.view.self, t.session, t.id⟩
  let l := markParts s false parts
  if s.fabric.view.rights = .stale then commitFails f t none (plainReply .epochStale) s
  else if s.fabric.view.rights = .readonly then commitFails f t none (plainReply .partitionedReadonly) s
  else match unreachedOf s mods with
    | some m => commitFails f t none (plainReply .memberUnreachable m) s
    | none =>
      let takes := mods.contains s.fabric.view.self
      if versionConflict s parts then commitFails f t none (plainReply .txnConflict) s
      else if takes && lockedAny s (writtenObjects s l) then beginFlight f s
      else
        match (if takes then voteOn false l s else .ok (okReply [], s)) with
        | .error w => noteLeaving key l (beginFlight f w)
        | .ok r =>
          let s1 := setTxn { t with state := .committing, parts := parts } s
          startCoord key f parts (lockedObjects s l) mods (if takes then some r else none)
            (fun _ => parts.flatMap (partBytes s)) (if takes && goodStatus r.1.status then noteLeaving key l s1 else s1)

/-- A transaction that touches this module alone commits here, R66, R68: records in staging order, then TXN_COMMIT's own. -/
def commitHere (f : Flight) (t : Txn) (s : State) : State :=
  let l := markParts s false t.parts
  if lockedAny s (writtenObjects s l) then beginFlight f s
  else if versionConflict s t.parts || t.parts.any (roleConflict s) then commitFails f t none (plainReply .txnConflict) s
  else match foldParts false l 0 s [] with
    | .waits w => beginFlight f (w.getD s)
    | .fails i st d => partFails f t i st d s
    | .done s1 rs =>
      let s2 := commitObjects (changedObjects s l) s1
      let s3 := (t.parts.zip rs).foldl (fun u p => match p.1 with
        | .command g _ => finishPlain g p.2 (announceObject u.frontTime g p.2 [] u)
        | .items _ _ _ => u) s2
      finishPlain f (okReply []) (forgetTxn t.session t.id true s3)

/-- The part of a transaction that brings a view, and its staging index. -/
def formingPart (parts : List Part) : Option (Nat × Flight) :=
  (parts.zipIdx).findSome? (fun p => match p.1 with
    | .command g _ => if formsView g then some (p.2, g) else none
    | .items _ _ _ => none)

/-- The entries whose candidacies are waited for: not the entry member's own front. -/
def awaitedEntries (s : State) (g : Flight) : List FormEntry :=
  (formEntries g).filter (fun e => !(decide (g.op = .frontForm) && e.uid == frontUid s))

/-- The name of an entry before it is in the view. -/
def entryName (e : FormEntry) : Nat := 0x10000 + e.id

/-- The candidacies of a FRONT_FORM or ADMIT are asked for, R604 (log entry 62). -/
def beginWait (f : Flight) (t : Txn) (i : Nat) (g : Flight) (s : State) : State :=
  let es := awaitedEntries s g
  let s1 := setFlight { f with running := true } (setTxn { t with state := .committing }
    { s with fabric := { s.fabric with waits := s.fabric.waits ++ [⟨f.serial, i, f.taken, es⟩] } })
  es.foldl (fun u e => emit (.message (entryName e) 0 2 (toLe 8 e.uid ++ toLe 8 Config.deviceUid.toNat)) u) s1

/-- A wait for candidacies is over. -/
def dropWait (serial : Nat) (s : State) : State :=
  { s with fabric := { s.fabric with waits := s.fabric.waits.filter (fun w => w.serial != serial) } }

/-- A wait for candidacies ends its transaction with the failure of its part, R66, R604. -/
def waitFails (w : CandidacyWait) (st : Status) (d : Nat) (s : State) : State :=
  let s1 := dropWait w.serial s
  match flightOf s1 w.serial with
  | none => s1
  | some f => match txnOf s1 f.hdr.sessionId f.hdr.txnId with
    | none => s1
    | some t => partFails f t w.part st d s1

/-- A view with every module's UID written out. -/
def withUids (s : State) (v : View) : View := { v with modules := v.modules.map (fun p => (p.1, { p.2 with uid := uidIn s v p.1 })) }

/-- A node of a view that is grafted below another: node 0 becomes the first fresh node. -/
def graftNode (v : View) (base k : Nat) : Nat := base + (((kkeys v.nodes).findIdx? (· == k)).getD 0)

/-- An anchor likewise. -/
def graftRef (v : View) (base : Nat) : MemberRef → MemberRef
  | .module m => .module m
  | .front n => .front (graftNode v base n)

/-- An entry enters a view below a node: a lone module under its new ID, or a whole front as a sub-front that keeps its IDs, structure and anchors, R441. -/
def graft (into : View) (parent : Nat) (e : FormEntry) (v : View) : View :=
  if e.kind = 0 then { into with modules := kset into.modules e.id ⟨parent, e.uid, e.addr⟩ }
  else
    let base := 1 + listMax (kkeys into.nodes)
    let node := graftNode v base
    { into with
      nodes := into.nodes ++ v.nodes.map (fun p => (node p.1,
        { parent := if p.1 = 0 then parent else node p.2.parent
          index := if p.1 = 0 then e.id else p.2.index
          anchor := graftRef v base p.2.anchor }))
      modules := v.modules.foldl (fun l p => kset l p.1 ⟨node p.2.node, p.2.uid, if p.2.uid = e.uid then e.addr else p.2.addr⟩) into.modules }

/-- What an entry becomes as a direct member. -/
def entryRef (into : View) (e : FormEntry) : MemberRef :=
  if e.kind = 0 then .module e.id else .front (1 + listMax (kkeys into.nodes))

/-- The module IDs an entry brings. -/
def entryIds (e : FormEntry) (v : View) : List Nat := if e.kind = 0 then [e.id] else kkeys v.modules

/-- The depth of a view's deepest module. -/
def viewDepth (v : View) : Nat := listMax ((kkeys v.modules).map (moduleDepth v))

/-- The view that a FRONT_FORM makes, with the member that each entry has become, R441. -/
def formView (l : List (FormEntry × View)) (anchor : Nat) : View :=
  let top : View := ⟨[(0, ⟨0, 0, .module 0⟩)], [], 0, 1, .full, 0, []⟩
  let x := l.foldl (fun (p : View × List MemberRef) ev => (graft p.1 0 ev.1 ev.2, p.2 ++ [entryRef p.1 ev.1])) (top, [])
  { x.1 with nodes := kset x.1.nodes 0 ⟨0, 0, x.2.getD anchor (.module 0)⟩ }

/-- The first entry that brings an ID already there, by its place. -/
def clashAt : List (FormEntry × View) → Nat → List Nat → Option Nat
  | [], _, _ => none
  | (e, v) :: l, i, seen => if (entryIds e v).any seen.contains then some i else clashAt l (i + 1) (seen ++ entryIds e v)

/-- Offset of an entry's ID in its command's parameters. -/
def idOffset (g : Flight) (i : Nat) : Nat := if g.op = .frontForm then 66 + 32 * i else 50

/-- The view that a part brings once every entry has answered, or why it fails, R441, R442: with more than 4,096 modules first, R26, since no more than 4,096 IDs are distinct. -/
def builtView (s : State) (g : Flight) (w : CandidacyWait) : Except (Status × Nat) View :=
  let own := withUids s s.fabric.view
  let viewOf := fun (e : FormEntry) => ((w.entries.find? (fun x => x.uid == e.uid)).bind (·.answer)).map (·.1)
  let l := (formEntries g).map (fun e => (e, (viewOf e).getD own))
  let start := if g.op = .frontForm then [] else kkeys own.modules
  if 4096 < start.length + listSum (l.map (fun x => (entryIds x.1 x.2).length)) then .error (.tableFull, 0)
  else match clashAt l 0 start with
  | some i => .error (.badParam, idOffset g i)
  | none =>
    let v := if g.op = .frontForm then formView l (par g 2 2)
      else { (l.foldl (fun u ev => graft u ((scopeNode s g).getD 0) ev.1 ev.2) own) with epoch := own.epoch + 1 }
    if 8 < viewDepth v then .error (.outOfRange, idOffset g 0)
    else .ok { v with self := (placeIn v).getD 0, rights := .full, reach := kkeys v.modules }

/-- The UIDs of the modules that the answered entries bring. -/
def answeredUids (w : CandidacyWait) : List Nat :=
  w.entries.flatMap (fun e => match e.answer with
    | some (v, _) => if e.kind = 0 then [e.uid] else v.modules.map (·.2.uid)
    | none => [])

/-- A wait whose every entry has answered and with whose modules this module shares pair secrets goes on to its commit, R441, R604. -/
def settleWait (w : CandidacyWait) (s : State) : State :=
  if w.entries.any (fun e => e.answer.isNone) || (answeredUids w).any (fun u => !khas s.sec.pairs u) then s
  else if w.entries.any (fun e => e.answer.any (·.2)) || !s.fabric.prepared.isEmpty then waitFails w .txnConflict 0 s
  else match flightOf s w.serial with
    | none => dropWait w.serial s
    | some f => match txnOf s f.hdr.sessionId f.hdr.txnId with
      | none => dropWait w.serial s
      | some t => match t.parts[w.part]? with
        | some (.command g vs) =>
          match builtView s g w with
          | .error e => waitFails w e.1 e.2 s
          | .ok v =>
            let b := encodeView s v
            let parts := t.parts.set w.part (.command { g with content := some (toLe 4 b.length ++ b) } vs)
            let own := (kkeys s.fabric.view.modules).filter (reaches s)
            let uids := (withUids s s.fabric.view).modules.map (·.2.uid)
            let others := (v.modules.filter (fun p => !uids.contains p.2.uid)).map (fun p => 0x10000 + p.1)
            let key : TxnKey := ⟨s.fabric.view.self, t.session, t.id⟩
            let s1 := startTxn f t parts (own ++ others) { s with fabric := { s.fabric with forming := s.fabric.forming ++ [(key, v)] } }
            let taken := (coordOf s1 key).isSome || (flightOf s1 w.serial).isNone
            if taken then
              let s2 := dropWait w.serial s1
              if (coordOf s2 key).isSome then s2
              else { s2 with fabric := { s2.fabric with forming := s2.fabric.forming.filter (fun p => decide (p.1 ≠ key)) } }
            else { s1 with fabric := { s1.fabric with forming := s1.fabric.forming.filter (fun p => decide (p.1 ≠ key)) } }
        | _ => dropWait w.serial s

/-- Every wait for candidacies. -/
def settleWaits (s : State) : State := s.fabric.waits.foldl (fun t w => settleWait w t) s

end Sys2Proof.Machine
end

