-- ==== Sys2Proof/Machine/CmdRows.lean ====
section
/-! DEFINITION. TXN_COMMIT (R66, R70), the messages and the timeout of the front-wide commit (R72 to R76), forwarded commands (R36), candidacies (R604) and pair secrets (R476) as they arrive. -/

namespace Sys2Proof.Machine

open Sys2Proof

/-- The modules that a transaction's parts touch; a part that names none any more is the entry member's. -/
def txnHolders (s : State) (t : Txn) : List Nat :=
  sortBy Nat.ble (t.parts.flatMap (fun p =>
    let ms := partHolders s p
    if ms.isEmpty then [s.fabric.view.self] else ms)).eraseDups

/-- A TXN_COMMIT of a transaction that is not open: a remembered one, or an unknown one, R70. -/
def commitRemembered (s : State) (f : Flight) : Reply :=
  match (kget s.proto.sessions f.hdr.sessionId).bind (fun x => x.ended.find? (fun e => e.1 == f.hdr.txnId)) with
  | some (_, true) => { status := .ok, detail := 1 }
  | some (_, false) => plainReply .txnAborted
  | none => plainReply .txnUnknown

/-- TXN_COMMIT, R66: here, by the wait for candidacies, or by the front-wide commit. -/
def txnCommit (h : Nat) (s : State) : State :=
  match flightOf s h with
  | none => s
  | some f =>
    if f.op ≠ .txnCommit then s
    else match s.fabric.waits.find? (fun w => w.serial == h) with
      | some w => settleWait w s
      | none =>
        if mayRun s f = false then s
        else if !f.params.isEmpty then finish f (plainReply .badLength 6) s
        else match txnOf s f.hdr.sessionId f.hdr.txnId with
          | none => finish f (commitRemembered s f) s
          | some t =>
            if stagingBefore s f then beginFlight f s
            else match formingPart t.parts with
              | some (i, g) =>
                if s.fabric.view.rights = .stale then commitFails f t none (plainReply .epochStale) s
                else if s.fabric.view.rights = .readonly then commitFails f t none (plainReply .partitionedReadonly) s
                else if versionConflict s t.parts then commitFails f t none (plainReply .txnConflict) s
                else beginWait f t i g s
              | none =>
                let mods := txnHolders s t
                if mods.all (· == s.fabric.view.self) then commitHere f t s else startTxn f t t.parts mods s

/-- TXN_COMMIT. -/
def execTxnCommit (h : Nat) (s : State) : Result := nextOf s (txnCommit h s)

/-- VOTE_TIMEOUT: 100 ms after PREPARE, R73. -/
def execVoteTimeout (h now : Nat) (s0 : State) : Result :=
  let s := advance now s0
  match s.fabric.coords.find? (fun c => c.serial == h) with
  | none => .next s0
  | some c =>
    if c.prepared + 100000000 ≤ s.frontTime then nextOf s0 (settleHandovers (coordVoted c.key true s)) else .next s0

/-- A participant has a command's work to do before it can vote. -/
def votesLater (op : Opcode) : Bool :=
  decide (op = .kernelRun) || decide (op = .layerRun) || decide (op = .reside) || decide (op = .demote) || decide (op = .flush)

/-- The view of a formation that this module is asked to take part in is kept while it lasts, R441. -/
def noteForming (key : TxnKey) (parts : List Part) (s : State) : State :=
  match parts.findSome? (fun p => if formsView (partFlight p) then formedView (partFlight p) else none) with
  | none => s
  | some v => { s with fabric := { s.fabric with forming := s.fabric.forming ++ [(key, v)] } }

/-- A participant judges a command that is carried alone, R72. -/
def prepareAlone (key : TxnKey) (peer : Nat) (m : Msg) (op : Opcode) (s : State) : State :=
  let f := arrivedCommand s peer m.tenant (fwdOf m).body op
  let corr := f.hdr.commandId
  if op = .requestSubmit then
    let (v, s1) := handoverVote peer m.tenant m.corr (f.content.getD []) s
    castVote key m.tenant corr v (if goodStatus v.status then addPrepared key [.command f []] [] v m.corr m.tenant s1 s1 else s1)
  else match commandOf op with
    | none => castVote key m.tenant corr (plainReply .badOpcode 2) s
    | some c =>
      let objs := c.touches s f
      if c.changes && lockedAny s (c.writes s f) then s
      else if votesLater op && beginsWork c f s then
        startWorker c key f (addPrepared key [.command f []] objs (okReply []) m.corr m.tenant s s)
      else match voteOn true [(.command f [], true)] s with
        | .error w => w
        | .ok (v, after) =>
          castVote key m.tenant corr v
            (if goodStatus v.status then c.prepare (addPrepared key [.command f []] objs v m.corr m.tenant after s) f else s)

/-- A participant judges its parts of a transaction, R66, R72; a formation finds no other prepared transaction, R441. -/
def prepareParts (key : TxnKey) (peer : Nat) (m : Msg) (s : State) : State :=
  let parts := arrivedParts s peer m.tenant 512 (fwdOf m).body
  if 0x10000 ≤ peer && !sponsorsThis s parts peer then malformed s
  else
    let s1 := noteForming key parts s
    let l := markParts s1 false parts
    let vote := fun (v : Reply) (after t : State) =>
      castVote key m.tenant m.corr v (if goodStatus v.status then addPrepared key parts (lockedObjects s l) v m.corr m.tenant after t else t)
    if (parts.any (fun p => formsView (partFlight p)) && !s.fabric.prepared.isEmpty) || (decide (peer < 0x10000) && staleParts s l) then
      vote (plainReply .txnConflict) s1 s1
    else if lockedAny s (writtenObjects s l) then s
    else match voteOn false l s1 with
      | .error _ => noteLeaving key l s
      | .ok (v, after) => vote v after (noteLeaving key l s1)

/-- PREPARE, R72, R73: one that its ABORT has overtaken is answered NO. -/
def fwdPrepare (peer : Nat) (m : Msg) (s0 : State) : State :=
  let x := fwdOf m
  let name := (peer, x.txn, m.corr)
  let s := { s0 with fabric := { s0.fabric with refused := s0.fabric.refused.filter (· != name) } }
  let key : TxnKey := ⟨peer, (parseHeader x.body).sessionId, if x.txn = 0 then aloneTxn m.corr else x.txn⟩
  if s.fabric.aborted.contains name then
    sendMessage peer 0x08 3 m.tenant m.corr 0 (cmdFwdBody 3 1 peer x.txn (replyBody m.corr s.frontTime (plainReply .txnAborted)))
      { s with fabric := { s.fabric with aborted := s.fabric.aborted.filter (· != name) } }
  else if s.fabric.prepared.any (fun p => decide (p.key = key)) then s
  else match opcodeRow (fld x.body 2 2) with
    | none => castVote key m.tenant m.corr (plainReply .badOpcode 2) s
    | some r =>
      if s.power.pendingReset.isSome then castVote key m.tenant m.corr (plainReply .noResource 1) s
      else if x.txn = 0 then (if 0x10000 ≤ peer then malformed s else prepareAlone key peer m r.op s)
      else prepareParts key peer m s

/-- A FORWARD or PREPARE of a lower epoch that is dropped is answered EPOCH_STALE, R431. -/
def answerStale (peer : Nat) (m : Msg) (s : State) : State :=
  sendMessage peer 0x08 1 m.tenant m.corr 0 (cmdFwdBody 1 0 peer (fwdOf m).txn (replyBody m.corr s.frontTime (plainReply .epochStale))) s

/-- CMD_FWD PREPARE. -/
def execCmdFwdPrepare (peer : Nat) (plain : Bytes) (s : State) : Result :=
  nextOf s (onFwd 2 peer plain s (answerStale peer) (fwdPrepare peer))

/-- A message about a table, or one about an index: it tells of it, or it ends a search or asks for its payloads (log entries 64, 77, 80). -/
def takeObjectMessage (peer tenant corr : Nat) (params content : Bytes) (s : State) : State :=
  if fld content 0 4 = 4 then
    (if (indexOf s (fld params 0 4)).isSome then s else setIndex (fld params 0 4) (toldIndex tenant (content.drop 4)) s)
  else if fld content 0 4 = 5 then takeSearchEnd peer tenant corr (fld params 0 4) (content.drop 4) s
  else if fld content 0 4 = 6 then servePayloads peer tenant corr (fld params 0 4) (content.drop 4) s
  else takeTableMessage peer tenant corr params content s

/-- FORWARD: the command is in flight here, or the prompt of a request arrives; nothing new is taken while a reset is due, R36, R349, R538. -/
def fwdForward (peer : Nat) (m : Msg) (s : State) : State :=
  let x := fwdOf m
  let refuse := fun (st : Status) (d : Nat) =>
    sendMessage peer 0x08 1 m.tenant m.corr 0 (cmdFwdBody 1 0 peer x.txn (replyBody m.corr s.frontTime (plainReply st d))) s
  match opcodeRow (fld x.body 2 2) with
  | none => refuse .badOpcode 2
  | some r =>
    let f := arrivedCommand s peer m.tenant x.body r.op
    if s.power.pendingReset.isSome then refuse .noResource 1
    else if r.op = .requestSubmit then promptArrives peer m.tenant m.corr f.hdr f.params (f.content.getD []) s
    else if r.op = .bagLookup then takeObjectMessage peer m.tenant m.corr f.params (f.content.getD []) s
    else { s with proto := { s.proto with flights := s.proto.flights ++ [f], nextSerial := s.proto.nextSerial + 1 } }

/-- CMD_FWD FORWARD. -/
def execCmdFwdForward (peer : Nat) (plain : Bytes) (s : State) : Result :=
  nextOf s (onFwd 0 peer plain s (answerStale peer) (fwdForward peer))

/-- A coordinator's record that a message is about: CORR, TXN_ID, and its sender among the participants, by its name in the record. -/
def coordNamed (s : State) (peer : Nat) (m : Msg) : Option (Coord × Nat) :=
  let x := fwdOf m
  s.fabric.coords.findSome? (fun c =>
    let who := if c.participants.contains (0x10000 + peer) then 0x10000 + peer else peer
    if coordCorr s c = m.corr ∧ x.txn = keyTxnField c.key ∧ (c.participants.contains who ∨ c.stage = .deciding) then some (c, who) else none)

/-- VOTE; the NO that answers a PREPARE its ABORT has overtaken is ignored: it says no failing part, R73. -/
def fwdVote (peer : Nat) (m : Msg) (s : State) : State :=
  let x := fwdOf m
  let r := (carriedReply x).2
  match coordNamed s peer m with
  | none => s
  | some (c, who) =>
    if (x.vote == 0) ≠ goodStatus r.status then malformed s
    else if r.status = .txnAborted ∧ r.result = [] then s
    else settleHandovers (recordVote c.key who r s)

/-- CMD_FWD VOTE. -/
def execCmdFwdVote (peer : Nat) (plain : Bytes) (s : State) : Result := nextOf s (onFwd 3 peer plain s (fun _ t => t) (fwdVote peer))

/-- A BREACH event that another member's contract reports here, R411: its code in DETAIL. -/
def breachOf (m : Msg) (r : Reply) (id : Nat) (s : State) : Option State :=
  if r.detail % 65536 = 0x0A01 ∧ r.result.length = 64 then
    (kget s.sched.contracts m.tenant).map (fun c => postBreach c.ring c.session m.tenant id r.detail r.result true s)
  else none

/-- REPLY: to a gathered command, to COMMIT, to a stale PREPARE, a breach, or news of a request, R36, R74, R368, R411, R431. -/
def fwdReply (peer : Nat) (m : Msg) (s : State) : State :=
  let (id, r) := carriedReply (fwdOf m)
  let gathered := s.fabric.gathers.find? (fun g => g.awaited.contains peer
    && (flightOf s g.serial).any (fun f => f.hdr.commandId == m.corr && f.tenant == m.tenant))
  match gathered with
  | some g => gatherReply g.serial peer r s
  | none =>
    match coordNamed s peer m with
    | some (c, who) =>
      if c.stage = .committing then
        if c.replies.any (fun x => x.1 == who && x.2.1 == id) then s
        else settleHandovers (coordReplied c.key (setCoord { c with replies := c.replies ++ [(who, id, r)] } s))
      else if r.status = .epochStale then settleHandovers (recordVote c.key who r s)
      else s
    | none => (((takePayloads peer m.tenant m.corr r s).orElse fun _ => takeServed peer m.tenant m.corr r s).orElse fun _ => (breachOf m r id s).orElse (fun _ => requestNotice peer m r.status r.detail r.result s)).getD s

/-- CMD_FWD REPLY. -/
def execCmdFwdReply (peer : Nat) (plain : Bytes) (s : State) : Result := nextOf s (onFwd 1 peer plain s (fun _ t => t) (fwdReply peer))

/-- The prepared entry that a message of its coordinator names. -/
def preparedNamed (s : State) (peer : Nat) (m : Msg) : Option Prepared :=
  let x := fwdOf m
  s.fabric.prepared.find? (fun p => p.key.coord == peer && p.corr == m.corr && p.key.txn == (if x.txn = 0 then aloneTxn m.corr else x.txn))

/-- The work a participant has voted on takes effect: a run, a layer run, or pages that have already moved, R72, R105; none while it must wait. -/
def commitWork (p : Prepared) (f : Flight) (s : State) : Option (State × Reply) :=
  match s.proto.flights.find? (fun w => decide (w.prep = some p.key)) with
  | none => some (s, p.vote)
  | some w =>
    if f.op = .kernelRun then
      match runOf s w.serial with
      | none => some (s, p.vote)
      | some r =>
        let cycles := r.voted.getD 0
        match kernelApply w r cycles s with
        | .waits _ => none
        | .fails st d s1 => some (schedPoint (dropFlight w.serial (endWork w.serial 3 0 s1)), plainReply st d)
        | .done s1 => some (schedPoint (dropFlight w.serial s1), kernelResult cycles)
    else match s.compute.jobs.find? (fun j => j.serial == w.serial) with
      | none => some (s, p.vote)
      | some job =>
        match job.held with
        | none => none
        | some res =>
          match layerApply w job.shadowPages.length res s with
          | .waits _ => none
          | .fails st d s1 => some (schedPoint (dropFlight w.serial (endWork w.serial 3 0 s1)), plainReply st d)
          | .done s1 => some (dropFlight w.serial (dropJob w.serial s1), layerReply job)

/-- A participant applies what it has prepared, R74: the state, and a reply for each part; none while it must wait. What the device chose when it judged the parts
it keeps (log entry 69). -/
def applyPrepared (p : Prepared) (s : State) : Option (State × List Reply) :=
  match p.parts with
  | [.command f vs] =>
    if f.op = .requestSubmit then
      some (handoverCommit p.key.coord f.tenant p.corr f.hdr f.params (f.content.getD []) s, [okReply []])
    else if votesLater f.op then (commitWork p f (releasePledge p.key (unlockOwn p.key s))).map (fun x => (x.1, [x.2]))
    else many [.command f vs]
  | l => many l
where
  many (l : List Part) : Option (State × List Reply) :=
    let marked := markParts s (keyTxnField p.key == 0) l
    match foldParts false marked 0 { releasePledge p.key (unlockOwn p.key s) with freeCtr := p.judged } [] with
    | .waits _ => none
    | .fails _ st d => some (s, l.map (fun _ => plainReply st d))
    | .done s1 rs => some (commitObjects (changedObjects s marked) { s1 with freeCtr := max s.freeCtr s1.freeCtr }, rs)

/-- A module that enters a front whose time source it did not know steps its clock, R434, R441. -/
def enterTime (old : State) (parts : List Part) (now : Nat) (s : State) : State :=
  let source := frontUid s
  if parts.any (fun p => formsView (partFlight p)) && (moduleOfUid old source).isNone then stepClock now s else s

/-- A participant answers COMMIT: one REPLY a part, R74; updates of rows are reported when they have been replicated. -/
def sendReplies (p : Prepared) (dst : Nat) (rs : List Reply) (s : State) : State :=
  (p.parts.zip rs).foldl (fun t x =>
    let f := partFlight x.1
    if f.op = .rowsWrite then t
    else sendMessage dst 0x08 1 f.tenant p.corr 0
      (cmdFwdBody 1 0 dst (keyTxnField p.key) (replyBody f.hdr.commandId t.frontTime x.2)) t) s

/-- COMMIT at a participant, R74; at the coordinator its own replies go into its record. -/
def commitPrepared (p : Prepared) (now : Nat) (s : State) : State :=
  let finishIt := fun (t : State) (u : State) => enterTime t p.parts now (dropPrepared p.key u)
  match applyPrepared p s with
  | none => s
  | some (s1, rs) =>
    match coordOf s p.key with
    | some c =>
      let mine := ((p.parts.zip rs).filter (fun x => decide ((partFlight x.1).op ≠ .rowsWrite))).map
        (fun x => (p.key.coord, (partFlight x.1).hdr.commandId, x.2))
      let t := finishIt s s1
      let d := (coordOf t p.key).getD c
      coordReplied p.key (setCoord { d with replies := d.replies ++ mine } t)
    | none =>
      let there := moduleOfUid s1 (uidOf s p.key.coord)
      match there with
      | some m => sendReplies p m rs (finishIt s s1)
      | none =>
        let s2 := sendReplies p p.key.coord rs s
        match applyPrepared p s2 with
        | none => s2
        | some (s3, _) => finishIt s2 s3

/-- COMMIT, R74: a coordinator takes its own only once its decision is final. -/
def fwdCommit (peer now : Nat) (m : Msg) (s : State) : State :=
  match preparedNamed s peer m with
  | none => s
  | some p =>
    if peer = s.fabric.view.self ∧ (coordOf s p.key).all (fun c => decide (c.stage = .committing)) = false then s
    else settleHandovers (commitPrepared p now s)

/-- CMD_FWD COMMIT; the coordinator's own is a row that names itself. -/
def execCmdFwdCommit (peer : Nat) (plain : Bytes) (now : Nat) (s : State) : Result :=
  nextOf s (onFwd 4 peer plain s (fun _ t => t) (fwdCommit peer now))

/-- Partials that wait for a command that will not begin are dropped, their slots returned, R208. -/
def dropEarly (m : Msg) (s : State) : State :=
  let mine := fun (e : EarlyTile) => e.tenant == m.tenant && e.corr == m.corr
  (s.compute.tiles.filter mine).foldl (fun t e => returnSlot e.peer e.tenant e.corr t)
    { s with compute := { s.compute with tiles := s.compute.tiles.filter (fun e => !mine e) } }

/-- ABORT: the prepared entry is dropped; one whose PREPARE has not been taken is awaited; news that a request has ended, R73, R363; about a decided commit it ends the record of it, R75 (log entry 70). -/
def fwdAbort (peer : Nat) (m : Msg) (s : State) : State :=
  let name := (peer, (fwdOf m).txn, m.corr)
  let about := s.serve.requests.any (fun r => r.tenant == m.tenant && r.id == m.corr && r.entry == peer && !isEntry s r)
    || (inboundOf s peer m.tenant m.corr).isSome
  match preparedNamed s peer m with
  | some p => requestAborted peer m (dropEarly m (dropPrepared p.key s))
  | none =>
    if s.fabric.decisions.any (fun d => d.key.coord == peer && d.key.txn == (if (fwdOf m).txn = 0 then aloneTxn m.corr else (fwdOf m).txn)) then
      { s with fabric := { s.fabric with decisions := s.fabric.decisions.filter (fun d =>
          !(d.key.coord == peer && d.key.txn == (if (fwdOf m).txn = 0 then aloneTxn m.corr else (fwdOf m).txn))) } }
    else if s.fabric.refused.contains name then { s with fabric := { s.fabric with refused := s.fabric.refused.filter (· != name) } }
    else if about then requestAborted peer m s
    else dropEarly m { s with fabric := { s.fabric with
      aborted := s.fabric.aborted ++ [name]
      leaving := s.fabric.leaving.filter (fun k => !(k.coord == peer && k.txn == (fwdOf m).txn)) } }

/-- CMD_FWD ABORT. -/
def execCmdFwdAbort (peer : Nat) (plain : Bytes) (s : State) : Result := nextOf s (onFwd 5 peer plain s (fun _ t => t) (fwdAbort peer))

/-- DECISION: a commit record of this module's own epoch is stored and acknowledged, R74. -/
def fwdDecision (peer : Nat) (m : Msg) (s : State) : State :=
  if m.epoch ≠ s.fabric.view.epoch then s
  else
    let x := fwdOf m
    let key : TxnKey := ⟨peer, ((preparedNamed s peer m).map (·.key.session)).getD 0, if x.txn = 0 then aloneTxn m.corr else x.txn⟩
    sendMessage peer 0x08 7 m.tenant m.corr 0 (cmdFwdBody 7 0 peer x.txn [])
      { s with fabric := { s.fabric with decisions := s.fabric.decisions.filter (fun d => decide (d.key ≠ key)) ++ [⟨key, m.epoch⟩] } }

/-- CMD_FWD DECISION. -/
def execCmdFwdDecision (peer : Nat) (plain : Bytes) (s : State) : Result :=
  nextOf s (onFwd 6 peer plain s (fun _ t => t) (fwdDecision peer))

/-- DECISION_ACK, R74. -/
def fwdDecisionAck (peer : Nat) (m : Msg) (s : State) : State :=
  match coordNamed s peer m with
  | none => s
  | some (c, _) =>
    if c.stage = .deciding ∧ c.acks.contains peer = false then
      settleHandovers (coordAcked c.key (setCoord { c with acks := c.acks ++ [peer] } s))
    else s

/-- CMD_FWD DECISION_ACK. -/
def execCmdFwdDecisionAck (peer : Nat) (plain : Bytes) (s : State) : Result :=
  nextOf s (onFwd 7 peer plain s (fun _ t => t) (fwdDecisionAck peer))

/-- What an entry's own view decides, R441, R604: KIND 0 names a lone module, KIND 1 the time source of a front of two or more. -/
def entryKindBad (e : FormEntry) (v : View) : Bool :=
  if e.kind = 0 then decide (v.modules.length ≠ 1)
  else decide (v.modules.length < 2) || ((kget v.modules (timeSource v 9 0)).map (·.uid)) != some e.uid

/-- Offset of the UID field of a wait's entry in its part's parameters. -/
def uidOffset (s : State) (w : CandidacyWait) (uid : Nat) : Nat :=
  let g := (flightOf s w.serial).bind (fun f => (txnOf s f.hdr.sessionId f.hdr.txnId).bind (fun t => (t.parts[w.part]?).map partFlight))
  match g with
  | none => 56
  | some g => if g.op = .frontForm then 72 + 32 * (((formEntries g).findIdx? (fun e => e.uid == uid)).getD 0) else 56

/-- The entry of a wait that a UID names. -/
def waitEntry (w : CandidacyWait) (uid : Nat) : Option FormEntry := w.entries.find? (fun e => e.uid == uid)

/-- CANDIDACY_CHECK_MESSAGE: an entry's answer with its view, whether its candidacy names this module and whether a transaction is prepared there, R604 (log entry 62); pair secrets with its modules are asked for. -/
def candidacyCheck (uid : Nat) (matching prepared : Bool) (b : Bytes) (s : State) : State :=
  let v := decodeView b
  s.fabric.waits.foldl (fun t w =>
    match waitEntry w uid with
    | none => t
    | some e =>
      if entryKindBad e v then waitFails w .badParam (uidOffset t w uid) t
      else if !matching then t
      else
        let w1 := { w with entries := w.entries.map (fun x => if x.uid = uid then { x with answer := some (v, prepared) } else x) }
        let t1 := { t with fabric := { t.fabric with waits := t.fabric.waits.map (fun x => if x.serial = w.serial then w1 else x) } }
        let fresh := (v.modules.filter (fun p => !khas t1.sec.pairs p.2.uid && !khas t1.sec.pairAsks p.2.uid)).map
          (fun p => (if e.kind = 0 then entryName e else 0x10000 + p.1, p.2.uid))
        settleWait w1 (fresh.foldl (fun u p => askPair p.1 p.2 u) t1)) s

/-- CANDIDACY_CHECK_MESSAGE. -/
def execCandidacyCheckMessage (uid : Nat) (matching prepared : Bool) (view : Bytes) (s : State) : Result :=
  nextOf s (candidacyCheck uid matching prepared view s)

/-- CANDIDACY_WAIT_TIMEOUT: TIMEOUT_MS after the TXN_COMMIT was taken, R604: the lowest entry ID still without a candidacy. -/
def candidacyTimeout (h now : Nat) (s0 : State) : State :=
  let s := advance now s0
  match s.fabric.waits.find? (fun w => w.serial == h) with
  | none => s0
  | some w =>
    let ms := ((flightOf s h).bind (fun f => txnOf s f.hdr.sessionId f.hdr.txnId)).map (·.timeoutMs)
    if s.frontTime < w.since + ms.getD 0 * 1000000 then s0
    else waitFails w .memberUnreachable ((listMin? ((w.entries.filter (fun e => e.answer.isNone)).map (·.id))).getD 0) s

/-- CANDIDACY_WAIT_TIMEOUT. -/
def execCandidacyWaitTimeout (h now : Nat) (s : State) : Result := nextOf s (candidacyTimeout h now s)

/-- A pair-secret message comes from a module of the view, or belongs to a formation, R431. -/
def pairKnown (s : State) (uid : Nat) : Bool :=
  (moduleOfUid s uid).isSome || s.fabric.candidacy.any (fun c => c.1 == uid) || s.fabric.waits.any (fun w => (answeredUids w).contains uid)
    || timeSource s.fabric.view 9 0 != s.fabric.view.self

/-- The formations that need a module whose attestation has failed end with AUTH_FAIL, R441, R477. -/
def waitsRefuse (uid : Nat) (s : State) : State :=
  s.fabric.waits.foldl (fun t w => if (answeredUids w).contains uid then waitFails w .authFail 0 t else t) s

/-- PAIR_SECRET_MESSAGE: a request is answered, an answer gives the secret, over which a newcomer is told of tables and indexes; a failed check closes the links to
that module, R476, R477 (log entries 63, 64). -/
def pairMessage (uid : Nat) (response : Bool) (body : Bytes) (s : State) : State :=
  if body.length ≠ (if response then 9777 else 14532) ∨ pairKnown s uid = false then malformed s
  else
    let (good, s1) := if response then takePair uid body s else answerPair uid body s
    if good then
      settleWaits (match moduleOfUid s1 uid with
        | some m => tellIndexes m (tellTables m s1)
        | none => s1)
    else waitsRefuse uid s1

/-- PAIR_SECRET_MESSAGE. -/
def execPairSecretMessage (uid : Nat) (response : Bool) (body : Bytes) (s : State) : Result := nextOf s (pairMessage uid response body s)

end Sys2Proof.Machine
end

