-- ==== Sys2Proof/Machine/DebugRows.lean ====
section
/-! DEFINITION. Breakpoints, halts, steps and state reads, track rings, gauges, histograms, the fault log and sensors: chapter 20 but for COUNTERS_READ. -/

namespace Sys2Proof.Machine

open Sys2Proof

/-- Breakpoints of a kind on a handle. -/
def breaksOn (s : State) (kind handle : Nat) : Nat := (s.dbg.breaks.filter (fun b => b.kind == kind && b.handle == handle)).length

/-- The checks of BREAK_SET, R563, R565, R566. -/
def breakSetCheck (s : State) (f : Flight) : Option (Status × Nat) :=
  let kind := par f 0 1
  let core := par f 1 1
  let rank := par f 2 1
  let handle := par f 4 4
  let addr := par f 8 8
  let k := kget s.compute.kernels handle
  firstFail ([lengthIs f 24, oneModule s f, badParamIf (decide (2 < kind)) 0, reservedZero f 3 1, reservedZero f 18 6,
      badParamIf (kind == 1 && core != 0 || kind == 2 && (core % 2 == 1 || core == 0)) 1,
      badParamIf (kind != 0 && rank != 0) 2, badParamIf (kind == 2 && handle != 0) 4, badParamIf (kind == 1 && addr != 0) 8,
      rangeIf (kind == 0 && decide (7 < core) && core != 0xFF) 1,
      rangeIf (kind == 0 && decide (191 < rank) && rank != 0xFF) 2,
      rangeIf (decide (4095 < par f 16 2)) 16,
      rangeIf (kind != 2 && k.isNone) 4,
      rangeIf (kind != 1 && addr % 2 == 1) 8,
      rangeIf (kind == 0 && k.any (fun x => decide (x.text.length ≤ addr))) 8,
      failIf (if kind = 2 then !s.sec.debug else k.any (fun x => !consents s x.tenant)) .locked 0,
      failIf (kind == 2 && isobarOff s core) .noResource 0,
      failIf (kind == 0 && (decide (8 ≤ breaksOn s 0 handle) || decide (64 ≤ (s.dbg.breaks.filter (fun b => b.kind == 0)).length))) .tableFull 0,
      failIf (kind == 2 && (List.range 8).any (fun c => bitOf core c
        && decide (4 ≤ (s.dbg.breaks.filter (fun b => b.kind == 2 && bitOf b.core c)).length))) .tableFull 0])

/-- BREAK_SET, R566: its ID is a free value (log entry 6). -/
def breakSetCommand : Command where
  op := .breakSet
  changes := false
  objects := fun _ _ => []
  check := breakSetCheck
  run := fun s f =>
    let (d, s1) := drawFree s
    let used := s1.dbg.breaks.map (·.id)
    let id := (firstFree used (d % 2 ^ 31) (used.length + 1)).getD 0
    let b : Breakpoint := ⟨id, par f 0 1, par f 1 1, par f 2 1, par f 4 4, par f 8 8, par f 16 2, f.hdr.sessionId⟩
    .done { s1 with dbg := { s1.dbg with breaks := s1.dbg.breaks ++ [b] } } (okReply (toLe 4 id ++ zeros 4))

/-- BREAK_SET. -/
def execBreakSet (h : Nat) (s : State) : Result := execCommand breakSetCommand h s

/-- BREAK_CLEAR, R567. -/
def breakClearCommand : Command where
  op := .breakClear
  changes := false
  objects := fun _ _ => []
  check := fun s f =>
    let id := par f 0 4
    let mine := s.dbg.breaks.filter (fun b => b.session == f.hdr.sessionId && b.id == id)
    firstFail [lengthIs f 8, oneModule s f, reservedZero f 4 4, rangeIf (id != 0xFFFFFFFF && mine.isEmpty) 0,
      failIf (mine.any (fun b => (kget s.compute.kernels b.handle).any (fun k => !consents s k.tenant))) .locked 0]
  run := fun s f =>
    let id := par f 0 4
    .done (clearBreaks (fun b => b.session == f.hdr.sessionId && (id == 0xFFFFFFFF || b.id == id)) s) (okReply [])

/-- BREAK_CLEAR. -/
def execBreakClear (h : Nat) (s : State) : Result := execCommand breakClearCommand h s

/-- The admitted KERNEL_RUN that a block of R571 names. -/
def targetFlight (s : State) (f : Flight) : Option Flight :=
  s.proto.flights.find? (fun g => decide (g.op = .kernelRun) && g.running && g.hdr.sessionId == par f 4 4 && g.hdr.commandId == par f 8 8)

/-- The run that a block of R571 names, once it holds its cells. -/
def targetRun (s : State) (f : Flight) : Option Run := (targetFlight s f).bind (fun g => runOf s g.serial)

/-- The vane core that a block of R571 names. -/
def targetHart (r : Run) (f : Flight) : Nat := nth r.cells (par f 3 1) * 8 + par f 1 1

/-- The checks of the block of R571: `one` for STEP and STATE_READ, which name one core. -/
def targetChecks (s : State) (f : Flight) (one : Bool) : List (Bool × Status × Nat) :=
  let iso := par f 0 1 == 1
  let core := par f 1 1
  let mask := par f 2 1
  let g := targetFlight s f
  [oneModule s f, badParamIf (decide (1 < par f 0 1)) 0,
   badParamIf (!one && core != 0 || iso && one && core == 0) 1,
   badParamIf ((one || !iso) && mask != 0 || iso && !one && mask % 2 == 1) 2,
   badParamIf ((iso || !one) && par f 3 1 != 0) 3,
   badParamIf (iso && !zeroAt f.params 4 12) 4,
   rangeIf (iso && decide (7 < core)) 1,
   rangeIf (!iso && g.isNone) 4,
   rangeIf (!iso && one && g.any (fun x => decide (par x 16 4 ≤ par f 3 1))) 3,
   rangeIf (!iso && one && (decide (7 < core) || g.any (fun x => !bitOf (par x 6 1) core))) 1,
   failIf (if iso then !s.sec.debug else g.any (fun x => !consents s x.tenant)) .locked 0,
   failIf (iso && isobarOff s (if one then 2 ^ core else mask)) .noResource 0]

/-- STEP and STATE_READ need a HALTED target, R571. -/
def needHalted (s : State) (f : Flight) : Bool × Status × Nat :=
  failIf (if par f 0 1 = 1 then !s.dbg.isobarHalted.contains (par f 1 1)
    else match targetRun s f with
      | some r => decide (r.halt ≠ .halted)
      | none => true) .notPermitted 0

/-- Isobar cores stop or go on, R568, R578. -/
def isobarCores (f : Flight) : List Nat := (maskCores (par f 2 1))

/-- An outcome byte and seven reserved bytes, R572, R573. -/
def outcomeReply (o : Nat) : Reply := okReply (toLe 1 o ++ zeros 7)

/-- HALT, R572: the reply waits for the drain, and for the start of a run not yet started. -/
def haltRun (s : State) (f : Flight) : Verdict :=
  if par f 0 1 = 1 then
    let cs := (isobarCores f).filter (fun c => !s.dbg.isobarHalted.contains c)
    let s1 := cs.foldl (fun t c => track 0xA (0x9000 + c) 0 0 0 0 t) s
    .done { s1 with dbg := { s1.dbg with isobarHalted := sortBy Nat.ble (s1.dbg.isobarHalted ++ cs) } }
      (outcomeReply (if cs.isEmpty then 1 else 0))
  else match targetFlight s f with
    | none => .reject .outOfRange 52
    | some g =>
      let waits := fun (t : State) => { t with dbg := { t.dbg with haltWaits := t.dbg.haltWaits ++ [(f.serial, g.serial)] } }
      match runOf s g.serial with
      | none => .begun (waits s)
      | some r =>
        match r.halt with
        | .none => .begun (waits (startHalt r none 0 0 s))
        | .draining _ => .begun (waits s)
        | .halted => .done s (outcomeReply 1)
        | .stepping _ _ => .done s (outcomeReply 1)

/-- HALT as a command. -/
def haltCommand : Command where
  op := .halt
  changes := false
  objects := fun _ _ => []
  check := fun s f => firstFail (lengthIs f 16 :: targetChecks s f false)
  run := haltRun

/-- HALT. -/
def execHalt (h : Nat) (s : State) : Result := execCommand haltCommand h s

/-- A HALTED event for the breakpoint that halted a run, R570. -/
def haltedEvent (r : Run) (b : Breakpoint) (s : State) : State :=
  let hart := ((runHarts r).find? (fun h => (coreOf s h).reason == 1 || (coreOf s h).reason == 2)).getD 0
  postRecord b.ring b.session r.commandId true false false false s.frontTime
    { status := .ok, detail := 0x0C01
      result := toLe 4 r.session ++ toLe 4 b.id ++ toLe 1 (rankOf r (hart / 8)) ++ toLe 1 (hart % 8) ++ zeros 6 } s

/-- HALT_DRAIN_COMPLETE: the last queue is empty and the last transfer complete, R568: HALTED is recorded, the event posted, the HALTs that wait end. -/
def haltDrainComplete (h : Nat) (s : State) : State :=
  match runOf s h with
  | none => s
  | some r =>
    match r.halt with
    | .draining brk =>
      if runBusy s r then s
      else
        let s1 := setRun { r with halt := .halted } s
        let s2 := ((runHarts r).filter (fun x => decide ((coreOf s x).life = .running))).foldl
          (fun t x => track 0xA (0x1000 + x) r.tenant r.commandId (coreOf s x).reason 0 t) s1
        let s3 := match brk.bind (fun id => s.dbg.breaks.find? (fun b => b.id == id)) with
          | some b => haltedEvent r b s2
          | none => s2
        let waits := s3.dbg.haltWaits.filter (fun w => w.2 == h)
        waits.foldl (fun t w => match flightOf t w.1 with
          | some f => finish f (outcomeReply 0) t
          | none => t) { s3 with dbg := { s3.dbg with haltWaits := s3.dbg.haltWaits.filter (fun w => w.2 != h) } }
    | _ => s

/-- HALT_DRAIN_COMPLETE. -/
def execHaltDrainComplete (h : Nat) (s : State) : Result := nextOf s (haltDrainComplete h s)

/-- RESUME, R573. -/
def resumeCommand : Command where
  op := .resume
  changes := false
  objects := fun _ _ => []
  check := fun s f => firstFail (lengthIs f 16 :: targetChecks s f false)
  run := fun s f =>
    if par f 0 1 = 1 then
      let cs := (isobarCores f).filter s.dbg.isobarHalted.contains
      let s1 := cs.foldl (fun t c => track 0xB (0x9000 + c) 0 0 0 0 t) s
      .done { s1 with dbg := { s1.dbg with isobarHalted := s1.dbg.isobarHalted.filter (fun c => !cs.contains c) } }
        (outcomeReply (if cs.isEmpty then 1 else 0))
    else match targetRun s f with
      | none => .done s (outcomeReply 1)
      | some r =>
        if r.halt = .halted then .done (resumeRun r.serial s) (outcomeReply 0) else .done s (outcomeReply 1)

/-- RESUME. -/
def execResume (h : Nat) (s : State) : Result := execCommand resumeCommand h s

/-- STEP, R574: one core may retire one instruction; the pc of an isobar core is a free value, its program being Akent's own. -/
def stepCommand : Command where
  op := .step
  changes := false
  objects := fun _ _ => []
  check := fun s f => firstFail (lengthIs f 16 :: targetChecks s f true ++ [needHalted s f])
  run := fun s f =>
    if par f 0 1 = 1 then
      let (d, s1) := drawFree s
      .done s1 (okReply (zeros 8 ++ toLe 8 d))
    else match targetRun s f with
      | none => .reject .notPermitted 0
      | some r =>
        let hart := targetHart r f
        .begun (setRun { r with halt := .stepping hart f.serial } (setCore hart { coreOf s hart with stopped := false, passBreak := true } s))

/-- STEP. -/
def execStep (h : Nat) (s : State) : Result := execCommand stepCommand h s

/-- STEP_STALL_TIMEOUT: the stepped instruction has not retired within 1 ms; the core stays in its wait, R574. -/
def stepStallTimeout (h : Nat) (s : State) : State :=
  match s.compute.runs.find? (fun r => match r.halt with | .stepping _ x => x == h | _ => false) with
  | none => s
  | some r =>
    match r.halt with
    | .stepping hart _ =>
      let c := coreOf s hart
      endStep r 1 c.pc.toNat (setCore hart { c with stopped := true } s)
    | _ => s

/-- STEP_STALL_TIMEOUT. -/
def execStepStallTimeout (h : Nat) (s : State) : Result := nextOf s (stepStallTimeout h s)

/-- The STALL code of R575; a wait for a vector result reads as a fence's (log entry 30). -/
def Stall.code : Stall → Nat
  | .none => 0
  | .queueFull => 1
  | .bar _ _ _ => 2
  | .released => 2
  | .dwait _ => 3
  | .fence => 4
  | .extract => 4
  | .wclose _ => 5

/-- The 320 bytes of a vane core, R575. -/
def coreBytes (c : Core) : Bytes :=
  (List.range 32).flatMap (fun r => toLe 8 (xget c r).toNat) ++ toLe 8 c.pc.toNat ++ toLe 8 c.cycle.toNat ++ toLe 8 c.instret.toNat
    ++ (List.range 7).flatMap (fun i => toLe 4 (csrOf c (0x8C0 + i)).toNat) ++ toLe 4 c.vkrank.toNat ++ toLe 4 c.vkmask.toNat
    ++ toLe 1 c.reason ++ toLe 1 c.stall.code ++ zeros 2

/-- The accumulators of a cell from a row, R575. -/
def accBytes (c : Cell) (row n : Nat) : Bytes :=
  toLe 1 (b2n c.skinny) ++ zeros 3 ++ toLe 4 c.group ++ zeros 8
    ++ (List.range n).flatMap (fun r => (List.range 128).flatMap (fun j => toLe 4 (kgetD c.acc ((row + r) * 128 + j) 0)))

/-- OFFSET and LENGTH of a STATE_READ outside their rule, R575. -/
def stateRangeBad (kind off len : Nat) : Bool :=
  if kind = 2 then len == 0 || decide (127 < len) || decide (128 < off + len)
  else if kind = 3 ∨ kind = 4 then
    off % 64 != 0 || len % 64 != 0 || decide (len < 64) || decide (65408 < len) || decide ((if kind = 3 then 0xC00000 else 65536) < off + len)
  else off != 0 || len != 0

/-- `n` free bytes. -/
def freeBytes : Nat → State → Bytes × State
  | 0, s => ([], s)
  | n + 1, s =>
    let (d, s1) := drawFree s
    let (b, s2) := freeBytes n s1
    (BitVec.ofNat 8 d :: b, s2)

/-- STATE_READ, R575; an isobar core's registers hold Akent's own program, free values here. -/
def stateReadCommand : Command where
  op := .stateRead
  changes := false
  objects := fun _ _ => []
  check := fun s f =>
    let kind := par f 16 1
    firstFail (lengthIs f 32 :: targetChecks s f true
      ++ [badParamIf (decide (5 < kind) || (kind == 5) != (par f 0 1 == 1)) 16, reservedZero f 17 3, reservedZero f 28 4,
        rangeIf (stateRangeBad kind (par f 20 4) (par f 24 4)) 20, needHalted s f])
  run := fun s f =>
    let kind := par f 16 1
    let off := par f 20 4
    let len := par f 24 4
    if kind = 5 then
      let (b, s1) := freeBytes 256 s
      .done s1 (okReply (zeros 8 ++ b))
    else match targetRun s f with
      | none => .reject .notPermitted 0
      | some r =>
        let hart := targetHart r f
        let cell := hart / 8
        let c := coreOf s hart
        .done s (okReply (
          if kind = 0 then coreBytes c
          else if kind = 1 then (List.range 32).flatMap (vbytes (cellOf s cell))
          else if kind = 2 then accBytes (cellOf s cell) off len
          else if kind = 3 then scratchRead s cell off len
          else Memory.readN c.dm (0x10000 + off) len))

/-- STATE_READ. -/
def execStateRead (h : Nat) (s : State) : Result := execCommand stateReadCommand h s

/-- The result of TRACK_READ, R579, R580. -/
def trackReadBytes (s : State) (unit max after : Nat) : Bytes :=
  let rs := (trackOf s unit).recs
  let oldest := (rs.head?.map (·.seq)).getD 0
  let newest := (rs.getLast?.map (·.seq)).getD 0
  let out := (rs.filter (fun r => seqAfter after r.seq)).take max
  toLe 4 out.length ++ toLe 4 oldest ++ toLe 4 newest ++ toLe 4 (seqLost after oldest)
    ++ out.flatMap (fun r => trackBytes (if consents s r.tenant then r else redact r))

/-- TRACK_READ, R580. -/
def trackReadCommand : Command where
  op := .trackRead
  changes := false
  objects := fun _ _ => []
  check := fun s f => firstFail [lengthIs f 8, oneModule s f, badParamIf (par f 2 2 == 0 || decide (256 < par f 2 2)) 2,
    rangeIf (!unitValid (par f 0 2)) 0, failIf (unitOff s (par f 0 2)) .noResource 0]
  run := fun s f => .done s (okReply (trackReadBytes s (par f 0 2) (par f 2 2) (par f 4 4)))

/-- TRACK_READ. -/
def execTrackRead (h : Nat) (s : State) : Result := execCommand trackReadCommand h s

/-- The slot of a GAUGE_SET. -/
def gaugeKey (f : Flight) : Nat := par f 0 2 * 64 + par f 2 1

/-- The effect of GAUGE_SET by OP, R586. -/
def gaugeRun (s : State) (f : Flight) : Verdict :=
  let op := par f 3 1
  let g := kgetD s.dbg.gauges (gaugeKey f) Gauge.cleared
  let put := fun (x : Gauge) => { s with dbg := { s.dbg with gauges := kset s.dbg.gauges (gaugeKey f) x } }
  if op = 0 then .done (put { Gauge.cleared with armed := true }) (okReply [])
  else if op = 1 then .done s (okReply (gaugeBytes g))
  else if op = 2 then .done (put { Gauge.cleared with armed := g.armed }) (okReply (gaugeBytes g))
  else .done (put { g with armed := false }) (okReply [])

/-- GAUGE_SET as a command, R563, R586; each row is one OP. -/
def gaugeCommand : Command where
  op := .gaugeSet
  changes := false
  objects := fun _ _ => []
  check := fun s f => firstFail ([lengthIs f 8, oneModule s f, badParamIf (decide (3 < par f 3 1)) 3, reservedZero f 4 4,
      rangeIf (decide (63 < par f 2 1)) 2] ++ ownTenant s f (par f 0 2) 0
    ++ [failIf (f.tenant == 0 && !consents s (par f 0 2)) .locked 0])
  run := gaugeRun

/-- GAUGE_ARM: GAUGE_SET with OP 0; a reserved OP is refused here. -/
def execGaugeArm (h : Nat) (s : State) : Result :=
  ofForm (fun f => par f 3 1 == 0 || decide (3 < par f 3 1)) h s (execCommand gaugeCommand h)

/-- GAUGE_READ: OP 1. -/
def execGaugeRead (h : Nat) (s : State) : Result := ofForm (fun f => par f 3 1 == 1) h s (execCommand gaugeCommand h)

/-- GAUGE_READ_CLEAR: OP 2. -/
def execGaugeReadClear (h : Nat) (s : State) : Result := ofForm (fun f => par f 3 1 == 2) h s (execCommand gaugeCommand h)

/-- GAUGE_DISARM: OP 3. -/
def execGaugeDisarm (h : Nat) (s : State) : Result := ofForm (fun f => par f 3 1 == 3) h s (execCommand gaugeCommand h)

/-- A metric of R397. -/
def metricValid (m : Nat) : Bool := decide (m ≤ 4) || (decide (8 ≤ m) && decide (m ≤ 12))

/-- The 2,096 bytes of HISTOGRAM_READ, R589. -/
def histogramBytes (s : State) (tenant metric copy ppm : Nat) : Bytes :=
  let h := histogramOf s tenant metric
  let l := if copy = 0 then h.lifetime else if copy = 1 then h.current else h.previous
  let ms := histWindowMs s tenant
  let start := if copy = 0 then 0 else (h.window - (copy - 1)) * ms * 1000000
  toLe 2 tenant ++ toLe 1 metric ++ toLe 1 copy ++ toLe 4 ms ++ toLe 8 start ++ toLe 8 (sampleCount l)
    ++ toLe 8 (if ppm = 0 then 0 else (reported l ppm).getD 0) ++ toLe 8 h.late.toNat ++ zeros 8
    ++ (List.range 256).flatMap (fun b => toLe 8 (kgetD l b 0))

/-- HISTOGRAM_READ, R589: the entry member's histograms. -/
def histogramReadCommand : Command := entryCommand {
  op := .histogramRead
  changes := false
  objects := fun _ _ => []
  check := fun s f => firstFail ([lengthIs f 8, badParamIf (!metricValid (par f 2 1)) 2, badParamIf (decide (2 < par f 3 1)) 3,
    rangeIf (decide (1000000 < par f 4 4)) 4] ++ ownTenant s f (par f 0 2) 0)
  run := fun s f => .done s (okReply (histogramBytes s (par f 0 2) (par f 2 1) (par f 3 1) (par f 4 4))) }

/-- HISTOGRAM_READ. -/
def execHistogramRead (h : Nat) (s : State) : Result := execEntry histogramReadCommand h s

/-- Every fault-log record held, oldest first, R594. -/
def faultLog (s : State) : List FaultRec := s.faults.flash ++ s.faults.queue

/-- FAULT_LOG_READ, R590. -/
def faultLogReadCommand : Command where
  op := .faultLogRead
  changes := false
  objects := fun _ _ => []
  check := fun s f => firstFail [lengthIs f 8, oneModule s f, badParamIf (par f 4 2 == 0 || decide (64 < par f 4 2)) 4, reservedZero f 6 2]
  run := fun s f =>
    let l := faultLog s
    let out := (l.filter (fun r => seqAfter (par f 0 4) r.seq)).take (par f 4 2)
    .done s (okReply (toLe 4 out.length ++ toLe 4 ((l.head?.map (·.seq)).getD 0) ++ toLe 4 ((l.getLast?.map (·.seq)).getD 0) ++ zeros 4
      ++ out.flatMap faultBytes))

/-- FAULT_LOG_READ. -/
def execFaultLogRead (h : Nat) (s : State) : Result := execCommand faultLogReadCommand h s

/-- `PWR_QSTATE` as a number, R515. -/
def qstateNum (p : Power) : Nat :=
  (List.range 16).foldl (fun acc q => acc + (quadrantOf p q).state.code * 4 ^ q) 0

/-- `PWR_THROTTLE` as a number, R515. -/
def throttleNum (p : Power) : Nat := b2n p.throttleCap + 2 * b2n p.throttleThermal + 4 * b2n p.throttleInput

/-- The 96 bytes of SENSORS_READ, R587; `v48` is a measurement no rule gives. -/
def sensorBytes (p : Power) (v48 : Nat) : Bytes :=
  toLe 2 p.vin ++ toLe 2 p.iin ++ toLe 2 p.pinAvg ++ toLe 2 p.pinPeak ++ toLe 2 v48 ++ toLe 2 p.capW ++ toLe 2 (cellMhz p)
    ++ toLe 2 p.capLimit.mhz ++ toLe 2 p.thermalLimit.mhz ++ toLe 2 p.inputLimit.mhz ++ zeros 4 ++ toLe 8 p.sampleTime
    ++ (List.range 24).flatMap (fun i => toLe 2 (if p.conversion then nth p.junctions i else 0x8000))
    ++ toLe 4 (qstateNum p) ++ toLe 1 (throttleNum p) ++ zeros 11

/-- SENSORS_READ, R587. -/
def sensorsReadCommand : Command where
  op := .sensorsRead
  changes := false
  objects := fun _ _ => []
  check := fun s f => firstFail [lengthIs f 8, oneModule s f, reservedZero f 0 8]
  run := fun s _ =>
    let (d, s1) := drawFree s
    .done s1 (okReply (sensorBytes s.power d))

/-- SENSORS_READ. -/
def execSensorsRead (h : Nat) (s : State) : Result := execCommand sensorsReadCommand h s

end Sys2Proof.Machine
end

