-- ==== Sys2Proof/Machine/CounterRows.lean ====
section
/-! DEFINITION. COUNTERS_READ: the counter sets (R581, R584) and queue marks (R582, R583). -/

namespace Sys2Proof.Machine

open Sys2Proof

/-- A list of counters of one owner. -/
def ctrs (s : State) (k : Nat) (l : List Ctr) : List Nat := l.map (fun c => (ctrGet s.counters c k).toNat)

/-- The values of sets 0 to 5 and 7, in the order of their tables: R107, R142, R263, R322, R345, R383, R584. -/
def counterSet (s : State) (set sel : Nat) : List Nat :=
  match set with
  | 0 => ctrs s sel [.satCount, .blockClamp, .flushFp32, .nanConverted, .nanExcluded, .ternReserved, .shadowSampled, .shadowExceed,
      .shadowSkipped, .nanTraps]
  | 1 => ctrs s sel [.selKeys, .selPasses, .selEarlyExit, .selDuplicates, .selDupMismatch, .selSentinels]
  | 2 => ctrs s sel [.txtInBytes, .txtTokens, .utf8Replaced, .truncTokens, .packDropped, .detokTokens, .detokBytes, .stopMatches,
      .grammarSteps, .grammarEnds]
  | 3 => ctrs s sel [.reqAdmitted, .reqEnded] ++ (List.range 8).map (fun r => (ctrGet s.counters .reqEnds (sel * 8 + r)).toNat)
      ++ ctrs s sel [.kvPagesShipped, .kvAttemptsAborted, .draftsProposed, .draftsAccepted, .pageWaits, .ringWaits, .tokensDiscarded]
  | 4 => ctrs s sel [.lookups, .fetchLocal, .fetchReplica, .fetchRemote, .dedupSaved, .padding, .oorSkipped, .emptyBags, .rowUpdates,
      .rowSuperseded, .rowWaits, .replPushes, .hotRows]
  | 5 => ctrs s sel [.arrStream, .arrTail, .arrLoad, .arrDrain, .arrRescale, .arrIdle, .arrMac, .arrSkinny]
  | _ => ctrs s 0 [.fastClamps, .frostEntries, .deepEntries, .thawsFrost, .thawsDeep, .thawWaitNs, .hubRestarts]

/-- The present occupancy of a unit's queues, R582; none for a unit without queues. What the hardware alone holds for a moment is not in State: a memory controller's and a hub unit's queues are `timed`. -/
def queuesNow (s : State) (unit : Nat) : Option (List Nat) :=
  if unit = 0x9100 then some [s.serve.requests.length, (s.sched.items.filter (fun i => i.cells.isEmpty)).length, s.proto.txns.length,
      (s.serve.requests.filter (·.pageWait)).length]
  else if unit / 4096 = 0xA ∧ unit % 4096 < 16 then some [(portOf s (unit % 4096)).kept.length, channelsOn s (unit % 4096)]
  else if unit = 0xB000 then some [listSum ((kvals s.host.cq).map (·.reserved)), (s.proto.flights.filter (fun f => !fromPeer f)).length]
  else match unitCell unit with
    | none => none
    | some c => some [(cellOf s c).arrayQ.length, (cellOf s c).vectorQ.length,
        listSum ((List.range 8).map (fun k => (coreOf s (8 * c + k)).tags.length)), (cellOf s c).windows.length]

/-- Capacities of the queues whose occupancy only timing decides: memory controllers, hub units; none for another unit. -/
def timedQueues (unit : Nat) : Option (List Nat) :=
  let c := unit / 4096
  if unitValid unit = false then none
  else if c = 4 then some [256, 0]
  else if c = 5 ∨ c = 6 ∨ c = 7 ∨ c = 8 then some [0, 1]
  else none

/-- The unit under which a queue's marks are kept. -/
def marksUnit (unit : Nat) : Nat := (unitCell unit).getD unit

/-- NOW, HIGH and FULL of one queue that only timing decides: free values within its capacity (log entry 7). -/
def timedMarks (cap : Nat) (s : State) : List Nat × State :=
  let (a, s1) := drawFree s
  let (b, s2) := drawFree s1
  let (c, s3) := drawFree s2
  if cap = 0 then ([a, a + b, 0], s3)
  else ([a % (cap + 1), max (a % (cap + 1)) (b % (cap + 1)), c], s3)

/-- Several such queues. -/
def timedAll : List Nat → State → List Nat × State
  | [], s => ([], s)
  | q :: qs, s =>
    let (l, s1) := timedMarks q s
    let (m, s2) := timedAll qs s1
    (l ++ m, s2)

/-- HIGH of each queue becomes NOW, R583. -/
def clearHigh (unit : Nat) : Nat → List Nat → State → State
  | _, [], s => s
  | q, n :: ns, s =>
    let k := marksUnit unit * 8 + q
    clearHigh unit (q + 1) ns { s with dbg := { s.dbg with marks := kset s.dbg.marks k (n, (kgetD s.dbg.marks k (0, 0)).2) } }

/-- The values of set 6 and the state after CLEAR_HIGH, R582, R583. -/
def queueSet (unit : Nat) (clear : Bool) (s : State) : List Nat × State :=
  match queuesNow s unit with
  | some ns =>
    (ns.zipIdx.flatMap (fun p =>
      let m := kgetD s.dbg.marks (marksUnit unit * 8 + p.2) (0, 0)
      [p.1, max p.1 m.1, m.2]), if clear then clearHigh unit 0 ns s else s)
  | none => timedAll ((timedQueues unit).getD []) s

/-- A selector names what its set counts, R581, R582. -/
def selectorNames (s : State) (set sel : Nat) : Bool :=
  if set ≤ 3 then decide (sel < 65536) && tenantExists s sel
  else if set = 4 then khas s.tables.tables sel
  else if set = 5 then decide (sel < 0xC0)
  else if set = 6 then unitValid sel && ((queuesNow s sel).isSome || (timedQueues sel).isSome)
  else sel == 0xD000

/-- A tenant session names another's tenant or table, or a set of the operator's, R581. -/
def selectorForeign (s : State) (f : Flight) (set sel : Nat) : Bool :=
  f.tenant != 0 && (if set ≤ 3 then sel != f.tenant
    else if set = 4 then !((kget s.tables.tables sel).any (fun t => t.tenant == f.tenant))
    else true)

/-- The idle cycles of an array since they were last read: the model has no cell clock, so how many is a free value (log entry 7), R142. -/
def idleArrays (cell : Nat) (s : State) : State :=
  let (d, s1) := drawFree s
  bump .arrIdle cell (d % 2 ^ 32) s1

/-- COUNTERS_READ, R581. -/
def countersReadCommand : Command where
  op := .countersRead
  changes := false
  objects := fun _ _ => []
  check := fun s f =>
    let set := par f 0 1
    let clear := bitOf (par f 1 1) 0
    let sel := par f 4 4
    firstFail [lengthIs f 8, badParamIf (decide (7 < set)) 0,
      badParamIf (decide (1 < par f 1 1) || (clear && (set != 6 || f.tenant != 0))) 1,
      reservedZero f 2 2,
      (if set < 5 then (false, .ok, 0) else oneModule s f),
      failIf (!fromPeer f && selectorForeign s f set sel) .notPermitted 0,
      rangeIf ((!fromPeer f || decide (5 ≤ set)) && !selectorNames s set sel) 4,
      failIf ((set == 5 || set == 6) && unitOff s sel) .noResource 0]
  run := fun s f =>
    let set := par f 0 1
    let (vs, s1) := if set = 6 then queueSet (par f 4 4) (bitOf (par f 1 1) 0) s
      else if set = 5 then (let t := idleArrays (par f 4 4) s; (counterSet t set (par f 4 4), t))
      else (counterSet s set (par f 4 4), s)
    .done s1 (okReply (toLe 1 set ++ [0] ++ toLe 2 vs.length ++ zeros 4 ++ toLe 8 s.frontTime ++ vs.flatMap (toLe 8)))

/-- COUNTERS_READ. -/
def execCountersRead (h : Nat) (s : State) : Result := execCommand countersReadCommand h s

end Sys2Proof.Machine
end

