-- ==== Sys2Proof/Machine/RegisterRows.lean ====
section
/-! DEFINITION. The register map as it reads (R487, R489, R511 to R520), parity of configuration registers (R506, R507), the peek path (R519) and the telemetry snapshot (R520). -/

namespace Sys2Proof.Machine

open Sys2Proof

/-- A clock domain is running, R529. -/
def domainOn (s : State) (d : Nat) : Bool :=
  let p := s.power
  let up := p.conversion && p.pwrgd
  if d < 24 ∧ d % 6 < 4 then up && decide ((quadrantOf p (4 * (d / 6) + d % 6)).state = .active)
  else if d = 28 ∨ d = 34 then up && s.fabric.ports.any (fun x => x.1 / 8 == (d - 28) / 6 && decide (x.2.mode ≠ .off))
  else if d = 36 then up && !p.perst
  else if d = 37 ∨ d = 39 then p.calm
  else if d = 38 then false
  else up && !p.gated.contains d

/-- Running domains from `lo` on as bits. -/
def domainBits (s : State) (lo n : Nat) : Nat := (List.range n).foldl (fun acc i => acc + b2n (domainOn s (lo + i)) * 2 ^ i) 0

/-- Bits of a list of numbers that fall in one word of 32. -/
def wordBits (l : List Nat) (w : Nat) : Nat := (List.range 32).foldl (fun acc b => acc + b2n (l.contains (32 * w + b)) * 2 ^ b) 0

/-- A register of the TEL block, R520. -/
def telValue (t : TelSnapshot) (seq : W32) (off : Nat) : Nat :=
  let lo := fun (n : Nat) => n % 2 ^ 32
  let hi := fun (n : Nat) => n / 2 ^ 32 % 2 ^ 32
  match off with
  | 0x04 => seq.toNat
  | 0x08 => lo t.time.toNat
  | 0x0C => hi t.time.toNat
  | 0x10 => lo t.step.toNat
  | 0x14 => hi t.step.toNat
  | 0x18 => t.reqActive
  | 0x1C => t.cellsBusy + 256 * t.cellsDisabled
  | 0x20 => lo t.ce.toNat
  | 0x24 => hi t.ce.toNat
  | 0x28 => lo t.ue.toNat
  | 0x2C => hi t.ue.toNat
  | 0x30 => t.faultSeq.toNat
  | 0x34 => t.breaches.toNat
  | _ => 0

/-- State codes of a ring, R487. -/
def RingState.code : RingState → Nat
  | .disabled => 0
  | .enabled => 1
  | .error => 2

/-- A register of BAR2, R484, R487, R489. -/
def bar2Value (h : HostPort) (off : Nat) : Nat :=
  let n := off % 0x1000000 / 0x1000
  let r := off % 0x1000
  let q := sqOf h n
  let c := cqOf h n
  match off / 0x1000000, r with
  | 0, 0x00 => q.tail.toNat
  | 0, 0x04 => q.head.toNat
  | 0, 0x08 => q.state.code
  | 1, 0x00 => c.head.toNat
  | 1, 0x04 => c.tail.toNat
  | 1, 0x08 => c.state.code
  | 1, 0x0C => c.gen
  | 2, 0x00 => q.base.toNat % 2 ^ 32
  | 2, 0x04 => q.base.toNat / 2 ^ 32
  | 2, 0x08 => q.log2
  | 2, 0x0C => q.defCq
  | 2, 0x10 => q.shadow.toNat % 2 ^ 32
  | 2, 0x14 => q.shadow.toNat / 2 ^ 32
  | 2, 0x18 => b2n q.enable
  | 2, 0x1C => q.err
  | 3, 0x00 => c.base.toNat % 2 ^ 32
  | 3, 0x04 => c.base.toNat / 2 ^ 32
  | 3, 0x08 => c.log2
  | 3, 0x0C => c.vector
  | 3, 0x10 => c.coalCount + 65536 * c.coalUs
  | 3, 0x18 => b2n c.enable + 2 * b2n c.irqEn
  | 3, 0x1C => c.err
  | 3, 0x20 => c.dropped
  | _, _ => 0

/-- The place in BAR2 of an offset of the BAR0 doorbell alias, R485. -/
def aliasOffset (off : Nat) : Nat :=
  let o := off % 0x200000
  (if off < 0x600000 then 0 else 0x1000000) + o / 512 * 0x1000 + o % 512

/-- A register of the MOD block, R511. -/
def modValue (s : State) (off : Nat) : Nat :=
  match off with
  | 0x00 => Config.pciVendor + 2 ^ 16 * Config.pciDevice
  | 0x04 => 0x00000100 + Config.pciRevision
  | 0x08 => Config.deviceUid.toNat % 2 ^ 32
  | 0x0C => Config.deviceUid.toNat / 2 ^ 32
  | 0x10 => modStatus s
  | 0x14 => if s.power.secureBootOk then s.sec.build % 2 ^ 32 else 0
  | 0x18 => if s.power.secureBootOk then s.sec.build / 2 ^ 32 else 0
  | 0x1C => s.sec.bootCount
  | 0x20 => s.role.getD 0xFF
  | 0x24 => s.host.parityOffset + 2 ^ 26 * s.host.parityBar + 2 ^ 31 * b2n s.host.parityValid
  | 0x28 => s.host.parityCount.toNat
  | 0x2C => s.host.scratch.toNat
  | _ => 0

/-- A register of the IRQ block, R496, R513. -/
def irqValue (h : HostPort) (off : Nat) : Nat :=
  let e := msixEntry h (off % 0x10000 / 16)
  if 0x20000 ≤ off ∧ off < 0x28000 then
    (match off % 16 with
     | 0 => e.addr.toNat % 2 ^ 32
     | 4 => e.addr.toNat / 2 ^ 32
     | 8 => e.data.toNat
     | _ => b2n e.masked)
  else if 0x28000 ≤ off ∧ off < 0x28100 then wordBits h.pba ((off - 0x28000) / 4)
  else if off = 0x30000 then irqEvent h
  else if off = 0x30004 then h.eventEn
  else if 0x30100 ≤ off ∧ off < 0x30300 then wordBits h.sqErr ((off - 0x30100) / 4)
  else if 0x30400 ≤ off ∧ off < 0x30600 then wordBits h.cqErr ((off - 0x30400) / 4)
  else 0

/-- A register of the HIF, PWR, CLK and DBG blocks, R512, R515 to R518; DBG_STATE.POST is not decided by the manual (R16): `post`. -/
def blockValue (s : State) (post off : Nat) : Nat :=
  let p := s.power
  let h := s.host
  match off with
  | 0x10000 => h.linkRate + 16 * h.linkWidth + 512 * b2n h.linkFlit
  | 0x10004 => h.badAccess.toNat
  | 0x10008 => h.retrains.toNat
  | 0x1000C => h.cto.toNat
  | 0x10010 => h.readFails.toNat
  | 0x40000 => p.vin
  | 0x40004 => p.pinAvg + 65536 * p.pinPeak
  | 0x40008 => p.capW
  | 0x4000C => qstateNum p
  | 0x40010 => p.tj + 256 * p.tjDie
  | 0x40014 => throttleNum p
  | 0x41000 => cellMhz p
  | 0x41004 => domainBits s 0 32
  | 0x41008 => domainBits s 32 8
  | 0x4100C => b2n p.refclk + 2 * b2n p.xtal + 4 * b2n p.ppsLocked
  | 0x41010 => s.frontTime % 2 ^ 32
  | 0x41014 => h.timeHi.toNat
  | 0x80000 => b2n s.sec.debug + 2 * b2n p.mfgMode + 256 * bootCode p.stage + 65536 * (post % 65536)
  | 0x80004 => s.dbg.isobarHalted.eraseDups.foldl (fun acc c => acc + 2 ^ c) 0
      + 256 * b2n (s.compute.cores.any (fun c => c.2.stopped))
  | 0x80010 => h.peekAddr % 2 ^ 32
  | 0x80014 => h.peekAddr / 2 ^ 32
  | 0x80018 => b2n h.autoInc
  | 0x80020 => h.peekResult
  | _ => 0
where
  bootCode : BootStage → Nat
    | .rom => 0
    | .security => 1
    | .akent => 2
    | .management => 3
    | .running => 4
    | .recovery => 7

/-- The value of a register but for DBG_PEEK_DATA: until CFG_READY only the MOD block answers, R504. -/
def regValue (s : State) (post bar off : Nat) : Nat :=
  if s.power.cfgReady = false ∧ ¬(bar = 0 ∧ off < 0x10000) then 0
  else if bar = 2 then bar2Value s.host off
  else if off < 0x10000 then modValue s off
  else if 0x400000 ≤ off ∧ off < 0x800000 then bar2Value s.host (aliasOffset off)
  else if 0x20000 ≤ off ∧ off < 0x40000 then irqValue s.host off
  else if 0x100000 ≤ off ∧ off < 0x100040 then telValue s.host.snap s.host.snapSeq (off - 0x100000)
  else blockValue s post off

/-- The BAR and offset by which a register is recorded, R507. -/
def homeOffset (bar off : Nat) : Nat × Nat := if bar = 0 ∧ 0x400000 ≤ off ∧ off < 0x800000 then (2, aliasOffset off) else (bar, off)

/-- A configuration register: one with an RW or RWM field, R506. -/
def configRegister (bar off : Nat) : Bool :=
  let r := off % 0x1000
  if bar = 2 then
    (decide (off < 0x2000000) && r == 0) ||
      (decide (0x2000000 ≤ off) && decide (off < 0x3000000) && [0x0, 0x4, 0x8, 0xC, 0x10, 0x14, 0x18].contains r) ||
      (decide (0x3000000 ≤ off) && decide (off < 0x4000000) && [0x0, 0x4, 0x8, 0xC, 0x10, 0x18].contains r)
  else [0x2C, 0x30004, 0x80010, 0x80014, 0x80018].contains off

/-- The block that owns a configuration register halts, R507. -/
def haltBlock (bar off : Nat) (s : State) : State :=
  if bar = 2 then
    let n := off % 0x1000000 / 0x1000
    if off / 0x1000000 % 2 = 0 then
      let s1 := sqDisable n s
      setSq n { sqOf s1.host n with halted := true, rewritten := [] } s1
    else
      let s1 := cqDisable n (cqOf s.host n).irqEn s
      setCq n { cqOf s1.host n with halted := true, rewritten := [] } s1
  else if off = 0x30004 then { s with host := { s.host with irqHalted := true } }
  else if off = 0x2C then s
  else { s with host := { s.host with
    peekHalted := true
    peekRewritten := [] } }

/-- A parity mismatch of a configuration register is found: counted and recorded once, the fault latched, its block halted, R507. -/
def parityMismatch (bar0 off0 : Nat) (s : State) : State :=
  let (bar, off) := homeOffset bar0 off0
  if configRegister bar off = false ∨ s.host.parityBad.contains (bar, off) = true then s
  else
    let h := s.host
    let s1 := { s with host := { h with
      parityBad := (bar, off) :: h.parityBad
      parityCount := h.parityCount + 1
      parityOffset := if h.parityValid then h.parityOffset else off
      parityBar := if h.parityValid then h.parityBar else b2n (bar == 2)
      parityValid := true } }
    let dbg := bar == 0 && decide (0x80000 ≤ off)
    haltBlock bar off (logFault 0x0006 2 (if bar = 0 ∧ off = 0x2C then 0 else 2) (if dbg then 0xE000 else 0xB000) 0 0 off 0 s1)

/-- The bits of a mask in the low half of a 64-bit value, or in the high half. -/
def halfMask (high : Bool) (m : Nat) : W64 := BitVec.ofNat 64 (if high then m % 2 ^ 32 * 2 ^ 32 else m % 2 ^ 32)

/-- Stored bits of a submission configuration page flip. -/
def flipSq (reg m : Nat) (r : SubRing) : SubRing :=
  match reg with
  | 0x0 => { r with base := r.base ^^^ halfMask false m }
  | 0x4 => { r with base := r.base ^^^ halfMask true m }
  | 0x8 => { r with log2 := r.log2 ^^^ (m % 32) }
  | 0xC => { r with defCq := r.defCq ^^^ (m % 4096) }
  | 0x10 => { r with shadow := r.shadow ^^^ halfMask false m }
  | 0x14 => { r with shadow := r.shadow ^^^ halfMask true m }
  | 0x18 => { r with enable := r.enable != bitOf m 0 }
  | _ => r

/-- Stored bits of a completion configuration page flip. -/
def flipCq (reg m : Nat) (r : CplRing) : CplRing :=
  match reg with
  | 0x0 => { r with base := r.base ^^^ halfMask false m }
  | 0x4 => { r with base := r.base ^^^ halfMask true m }
  | 0x8 => { r with log2 := r.log2 ^^^ (m % 32) }
  | 0xC => { r with vector := r.vector ^^^ (m % 2048) }
  | 0x10 => { r with coalCount := r.coalCount ^^^ (m % 65536), coalUs := r.coalUs ^^^ (m / 65536 % 65536) }
  | 0x18 => { r with enable := r.enable != bitOf m 0, irqEn := r.irqEn != bitOf m 1 }
  | _ => r

/-- Stored bits of a configuration register have flipped; nothing else changes, R507. -/
def flipStored (bar off m : Nat) (s : State) : State :=
  let h := s.host
  if bar = 2 then
    let n := off % 0x1000000 / 0x1000
    let reg := off % 0x1000
    match off / 0x1000000 with
    | 0 => setSq n { sqOf h n with tail := (sqOf h n).tail ^^^ BitVec.ofNat 32 m } s
    | 1 => setCq n { cqOf h n with head := (cqOf h n).head ^^^ BitVec.ofNat 32 m } s
    | 2 => setSq n (flipSq reg m (sqOf h n)) s
    | _ => setCq n (flipCq reg m (cqOf h n)) s
  else
    match off with
    | 0x2C => { s with host := { h with scratch := h.scratch ^^^ BitVec.ofNat 32 m } }
    | 0x30004 => { s with host := { h with eventEn := h.eventEn ^^^ (m % 512) } }
    | 0x80010 => { s with host := { h with peekAddr := h.peekAddr ^^^ (m % 2 ^ 32 / 4 * 4) } }
    | 0x80014 => { s with host := { h with peekAddr := h.peekAddr ^^^ (m % 65536 * 2 ^ 32) } }
    | _ => { s with host := { h with autoInc := h.autoInc != bitOf m 0 } }

/-- A configuration register whose stored bits have flipped is checked: the mismatch is found, R506, R507. -/
def upsetRegister (bar off m : Nat) (s : State) : State :=
  let r := homeOffset bar off
  if m = 0 ∨ configRegister r.1 r.2 = false then s else parityMismatch r.1 r.2 (flipStored r.1 r.2 m s)

/-- CONFIG_REGISTER_READ: a host read of a register checks its parity; the stored bits are returned, those that have flipped among them, R506, R507.
A read that is not aligned is refused, R486. -/
def configRegisterRead (bar off flipped : Nat) (s : State) : State :=
  if off % 4 ≠ 0 then badAccess s
  else
    let s1 := if s.power.cfgReady || (bar == 0 && decide (off < 0x10000)) then upsetRegister bar off flipped s else s
    let (post, s2) := drawFree s1
    emit (.regRead bar off (BitVec.ofNat 32 (regValue s2 post bar off))) s2

/-- CONFIG_REGISTER_READ. -/
def execConfigRegisterRead (bar offset flipped : Nat) (s : State) : Result := nextOf s (configRegisterRead bar offset flipped s)

/-- What a peek reaches at an address, R518, R519: a register, a scratchpad, Tier 1, or nothing. -/
inductive PeekTarget where
  | register (off : Nat)
  | scratch (cell : Nat)
  | tier1
  | outOfRange

/-- The target of a peek; frames of the pool are never reachable, R216. -/
def peekTarget (s : State) (a : Nat) : PeekTarget :=
  if a < 0x40000000 then (if 0x80000 ≤ a ∧ a < 0x100000 then .outOfRange else .register a)
  else if a < 0xC0000000 + 0x40000000 then (if a - 0x40000000 < 0xC0000000 ∧ reservedScratch a = false then .scratch ((a - 0x40000000) / 0x1000000) else .outOfRange)
  else if tierAt s.tiers a = some 1 then
    let die := (a - tierBase 1) / 0x4800000000
    if a < tierBase 1 + (die + 1) * 0x4800000000 - nth s.tiers.pool die * 65536 then .tier1 else .outOfRange
  else .outOfRange

/-- RESULT of a peek at the present address, R519. -/
def peekOutcome (s : State) : Nat :=
  if s.host.peekHalted then 5
  else if !s.sec.debug then 1
  else match peekTarget s s.host.peekAddr with
    | .outOfRange => 2
    | .register _ => 0
    | _ => if (firstMarked s.tiers s.tiers.poisoned s.host.peekAddr 4).isSome then 3 else 0

/-- A scratchpad peek in a quadrant that is not ACTIVE raises a thaw demand, R510. -/
def peekThaw (s : State) : State :=
  match peekTarget s s.host.peekAddr with
  | .scratch c => demandThaw s (c / 12)
  | _ => s

/-- A peek has been made: RESULT is noted and the address advances under AUTO_INC, R519. -/
def peekDone (result : Nat) (s : State) : State :=
  let h := s.host
  { s with host := { h with
    peekResult := result
    peekAddr := if h.autoInc && result != 5 then (h.peekAddr + 4) % 2 ^ 48 else h.peekAddr } }

/-- The word a peek reads and the state after its reading, R517, R519. -/
def peekWord (s : State) : Nat × State :=
  match peekTarget s s.host.peekAddr with
  | .register off =>
    let (post, s1) := drawFree s
    let v := regValue s1 post 0 off
    (v, if off = 0x41010 ∧ s1.power.cfgReady then { s1 with host := { s1.host with timeHi := BitVec.ofNat 32 (s1.frontTime / 2 ^ 32) } } else s1)
  | _ => (leNat (memRead s s.host.peekAddr 4), s)

/-- DBG_PEEK_READ: a read of DBG_PEEK_DATA, R519; a failed peek reads zero. -/
def dbgPeekRead (s : State) : State :=
  if s.power.cfgReady then
    let r := peekOutcome s
    if r = 0 then
      let (v, s1) := peekWord (peekThaw s)
      emit (.regRead 0 0x8001C (BitVec.ofNat 32 v)) (peekDone 0 s1)
    else emit (.regRead 0 0x8001C 0) (peekDone r s)
  else emit (.regRead 0 0x8001C 0) s

/-- DBG_PEEK_READ. -/
def execDbgPeekRead (s : State) : Result := nextOf s (dbgPeekRead s)

/-- A word written to any register of BAR0, with the behaviour its own row gives it. -/
def anyRegisterWrite (off : Nat) (v : W32) (s : State) : State :=
  let clear := fun (l : List Nat) (w : Nat) => clearRings w v l
  if off = 0x24 then (if v.getLsbD 31 then { s with host := { s.host with parityValid := false } } else s)
  else if off = 0x30000 then { s with host := { s.host with events := s.host.events.filter (fun b => !v.getLsbD b) } }
  else if off = 0x30004 then irqEventEnWrite v s
  else if 0x30100 ≤ off ∧ off < 0x30300 then { s with host := { s.host with sqErr := clear s.host.sqErr ((off - 0x30100) / 4) } }
  else if 0x30400 ≤ off ∧ off < 0x30600 then { s with host := { s.host with cqErr := clear s.host.cqErr ((off - 0x30400) / 4) } }
  else if off = 0x100000 then { s with host := { s.host with snapPending := s.host.snapPending || v.getLsbD 0 } }
  else if 0x400000 ≤ off ∧ off < 0x800000 then
    let o := aliasOffset off
    if o % 0x1000 ≠ 0 then s
    else if o < 0x1000000 then sqTailWrite (o / 0x1000) v s
    else cqHeadWrite (o % 0x1000000 / 0x1000) v s
  else registerWrite 0 off v.toNat s

/-- DBG_PEEK_WRITE: a write of DBG_PEEK_DATA, R519; a failed peek writes nothing. -/
def dbgPeekWrite (v : W32) (s : State) : State :=
  if s.power.cfgReady then
    let r := peekOutcome s
    if r = 0 then
      let s1 := peekThaw s
      match peekTarget s s.host.peekAddr with
      | .register off => peekDone 0 (anyRegisterWrite off v s1)
      | _ => peekDone 0 (memWrite s.host.peekAddr (toLe 4 v.toNat) s1)
    else peekDone r s
  else s

/-- DBG_PEEK_WRITE. -/
def execDbgPeekWrite (value : W32) (s : State) : Result := nextOf s (dbgPeekWrite value s)

/-- SEQ of the newest fault-log record, 0 before the first. -/
def newestFault (x : Faults) : Nat := (x.queue.getLast?.or x.flash.getLast?).map (·.seq) |>.getD 0

/-- TEL_SNAPSHOT_TAKEN: a requested snapshot is latched at a step boundary, R520. -/
def telSnapshotTaken (now : Nat) (s0 : State) : State :=
  if s0.host.snapPending then
    let s := advance now s0
    let snap : TelSnapshot := {
      time := BitVec.ofNat 64 s.frontTime
      step := s.proto.stepCount
      reqActive := s.serve.requests.length
      cellsBusy := listSum (s.sched.items.map (fun i => i.cells.length))
      cellsDisabled := ((List.range 192).filter (fun c => !cellEnabled s c)).length
      ce := s.faults.corrected
      ue := s.faults.uncorrected
      faultSeq := BitVec.ofNat 32 (newestFault s.faults)
      breaches := BitVec.ofNat 32 (listSum ((s.counters.filter (fun c => decide (c.1 = .breaches))).map (fun c => c.2.2.toNat))) }
    { s with host := { s.host with
      snapPending := false
      snapSeq := s.host.snapSeq + 1
      snap := snap } }
  else s0

/-- TEL_SNAPSHOT_TAKEN. -/
def execTelSnapshotTaken (now : Nat) (s : State) : Result := nextOf s (telSnapshotTaken now s)

end Sys2Proof.Machine
end

