-- ==== Sys2Proof/Machine/ViewRows.lean ====
section
/-! DEFINITION. The change of a view: PROPOSE, ACCEPT, INSTALL (R448), the outcome of prepared transactions (R75, R76), catching up (R450). -/

namespace Sys2Proof.Machine

open Sys2Proof

/-- Two names of one commit: as FRONT_VIEW carries them, 32 bits of each number; a record stored by a module that took no part names no session. -/
def keyMatch (a b : TxnKey) : Bool :=
  a.coord == b.coord && (a.session == b.session || a.session == 0 || b.session == 0) && a.txn % 2 ^ 32 == b.txn % 2 ^ 32

/-- A list of names has a commit. -/
def named (union : List TxnKey) (k : TxnKey) : Bool := union.any (keyMatch k)

/-- Every prepared entry is committed where a commit record names it, and dropped otherwise, R75, R76. -/
def resolvePrepared (union : List TxnKey) (now : Nat) (s : State) : State :=
  s.fabric.prepared.foldl (fun t p => if named union p.key then commitPrepared p now t else dropPrepared p.key t) s

/-- A coordinator learns what the change of view has made of its commit, R75. -/
def resolveCoord (union : List TxnKey) (reach : List Nat) (t : State) (c : Coord) : State :=
  if c.stage = .committing then coordReplied c.key t
  else if named union c.key then coordReplied c.key (setCoord { c with stage := .committing, decided := t.frontTime } t)
  else
    let lost := c.participants.filter (fun m => decide (m < 0x10000) && !reach.contains m)
    coordFails c (match listMin? lost with
      | some m => plainReply .memberUnreachable m
      | none => plainReply .txnConflict 2) t

/-- The commits under way when the epoch changes, R75, R76. -/
def resolveCommits (union : List TxnKey) (reach : List Nat) (now : Nat) (s : State) : State :=
  let keep := { s with fabric := { s.fabric with decisions := s.fabric.decisions
    ++ ((union.filter (fun k => !(s.fabric.decisions.any (fun d => keyMatch d.key k)))).map (fun k => (⟨k, s.fabric.view.epoch⟩ : Decision))) } }
  let s1 := keep.fabric.coords.foldl (resolveCoord union reach) keep
  settleHandovers (resolvePrepared union now s1)

/-- A module that was declared STALE for its clock steps it when it rejoins, R436. -/
def rejoinTime (now : Nat) (s : State) : State :=
  if s.fabric.view.rights = .stale ∧ 1000000 < s.fabric.offsetNs.natAbs then stepClock now s else s

/-- The replicas held here are dropped, R252, R253. -/
def dropReplicas (s : State) : State := dropReplicasOf (fun _ => true) s

/-- INSTALL takes effect: FULL rights at a higher epoch (a member that had them no longer rejoins without replicas, R253), or READONLY at this module's own, R448. -/
def takeInstall (epoch : Nat) (reach : List Nat) (union : List TxnKey) (now : Nat) (s : State) : State :=
  let v := s.fabric.view
  let s1 := { s with fabric := { s.fabric with acceptedLeader := none, proposal := none, held := none } }
  if v.epoch < epoch then
    resolveCommits union reach now
      (installView { v with epoch := epoch, rights := .full, reach := sortBy Nat.ble reach } s.frontTime
        (rejoinTime now (if v.rights = .full then s1 else dropReplicas s1)))
  else { s1 with fabric := { s1.fabric with view := { v with rights := .readonly, reach := sortBy Nat.ble reach } } }

/-- The commit records of this module, by name. -/
def ownRecords (s : State) : List TxnKey := s.fabric.decisions.map (·.key)

/-- This module may take part in a change of the view: it is not STALE, or it has caught up, R448, R450. -/
def mayAccept (s : State) : Bool := decide (s.fabric.view.rights ≠ .stale) || s.fabric.caughtUp

/-- FRONT_VIEW PROPOSE by the leader to every module it reaches; it accepts its own, R448. -/
def propose (s : State) : State :=
  let self := s.fabric.view.self
  let r := reachSet s
  let e := nextEpoch s
  let s1 := { s with fabric := { s.fabric with
    accepted := e
    acceptedLeader := some self
    proposal := some ⟨e, r, [self], ownRecords s, s.ticks⟩ } }
  sendAll 0x0B 0 0 0 (frontViewHdr 0 self s.fabric.view.modules.length e ++ viewEntries s r) (reachedPeers s) s1

/-- The tick's part for views: the leader of the modules that reach one another proposes where its view shows others as reached, R448. -/
def proposeTick (s : State) : State :=
  let r := reachSet s
  if mayAccept s && s.fabric.proposal.isNone && decide (r.head? = some s.fabric.view.self) && r != s.fabric.view.reach then propose s else s

/-- A FRONT_VIEW message of one operation: LEADER, ENTRIES, NEW_EPOCH and what follows; its sender's epoch is heard, R430, R450. -/
def onView (op peer : Nat) (plain : Bytes) (s0 : State) (k : Msg → State → State) : State :=
  if fld plain 24 1 ≠ op then s0
  else onMessage 0x0B peer plain s0 (fun m s => if zeroAt m.body 1 1 = false ∨ m.body.length < 16 then malformed s else k m (hearEpoch peer m.epoch s))

/-- The peer from which a STALE module catches up: of the highest epoch heard, the lowest ID, R450. -/
def catchUpPeer (s : State) : Option Nat :=
  let ps := reachedPeers s
  let top := listMax (ps.map (fun m => (peerOf s m).epoch))
  ps.find? (fun m => (peerOf s m).epoch == top)

/-- The tick's part for a STALE module: it asks for a current view, R450. -/
def catchUpTick (s : State) : State :=
  if s.fabric.view.rights = .stale ∧ s.fabric.caughtUp = false then
    match catchUpPeer s with
    | none => s
    | some m => sendMessage m 0x0B 3 0 0 0 (frontViewHdr 3 s.fabric.view.self 0 s.fabric.view.epoch) s
  else s

/-- PROPOSE at a member that is not STALE or has caught up, R448: the first acceptable proposal of an epoch, or one of a lower leader while the install is awaited. -/
def acceptProposal (peer epoch : Nat) (b : Bytes) (s : State) : State :=
  let n := fld b 4 4
  let e := fld b 8 8
  let self := s.fabric.view.self
  let first := decide (s.fabric.accepted < e)
  let better := s.fabric.accepted == e && s.fabric.acceptedLeader.any (fun l => decide (peer < l))
  if mayAccept s && epoch == s.fabric.view.epoch && (entriesReached n (b.drop 16)).contains self && fld b 2 2 == peer
      && decide ((reachSet s).head? = some peer) && (first || better) then
    sendMessage peer 0x0B 1 0 0 0 (frontViewHdr 1 peer 0 e ++ keyNames (ownRecords s))
      { s with fabric := { s.fabric with
        accepted := e
        acceptedLeader := some peer
        proposal := none } }
  else s

/-- PROPOSE at a member: a STALE one catches up first and then judges it, R448, R450. -/
def viewPropose (peer : Nat) (m : Msg) (s : State) : State :=
  if m.body.length ≠ 16 + 32 * fld m.body 4 4 then malformed s
  else if mayAccept s then acceptProposal peer m.epoch m.body s
  else catchUpTick { s with fabric := { s.fabric with held := some (peer, m.epoch, m.body) } }

/-- The proposal that was held while this module caught up. -/
def judgeHeld (s : State) : State :=
  match s.fabric.held with
  | none => s
  | some (peer, epoch, b) => acceptProposal peer epoch b { s with fabric := { s.fabric with held := none } }

/-- FRONT_VIEW PROPOSE. -/
def execFrontViewPropose (peer : Nat) (plain : Bytes) (s : State) : Result := nextOf s (onView 0 peer plain s (viewPropose peer))

/-- ACCEPT at the leader: the acceptor and its commit records are noted, R75, R448. -/
def viewAccept (peer : Nat) (m : Msg) (s : State) : State :=
  let b := m.body
  if b.length ≠ 20 + 12 * fld b 16 4 then malformed s
  else match s.fabric.proposal with
    | none => s
    | some p =>
      if p.epoch = fld b 8 8 ∧ fld b 2 2 = s.fabric.view.self ∧ p.set.contains peer ∧ p.acceptors.contains peer = false then
        { s with fabric := { s.fabric with proposal := some { p with acceptors := p.acceptors ++ [peer], records := p.records ++ keysAt b 16 } } }
      else s

/-- FRONT_VIEW ACCEPT. -/
def execFrontViewAccept (peer : Nat) (plain : Bytes) (s : State) : Result := nextOf s (onView 1 peer plain s (viewAccept peer))

/-- VIEW_INSTALL_DECISION: one tick after PROPOSE the leader installs the epoch, or READONLY rights, on those that accepted, R448. -/
def viewDecision (now : Nat) (s0 : State) : State :=
  let s := advance now s0
  match s.fabric.proposal with
  | none => s0
  | some p =>
    if s.ticks ≤ p.sent then s0
    else
      let self := s.fabric.view.self
      let e := if holdsTop s.fabric.view p.acceptors then p.epoch else s.fabric.view.epoch
      let union := p.records.eraseDups
      let body := frontViewHdr 2 self s.fabric.view.modules.length e ++ viewEntries s p.acceptors ++ keyNames union
      takeInstall e p.acceptors union now (sendAll 0x0B 2 0 0 body (p.acceptors.filter (· != self)) s)

/-- VIEW_INSTALL_DECISION. -/
def execViewInstallDecision (now : Nat) (s : State) : Result := nextOf s (viewDecision now s)

/-- INSTALL at a member that accepted its leader's proposal, R448. -/
def viewInstall (peer now : Nat) (m : Msg) (s : State) : State :=
  let b := m.body
  let n := fld b 4 4
  let e := fld b 8 8
  if b.length ≠ 20 + 32 * n + 12 * fld b (16 + 32 * n) 4 then malformed s
  else
    let a := entriesReached n (b.drop 16)
    if s.fabric.acceptedLeader = some peer ∧ a.contains s.fabric.view.self ∧ (e = s.fabric.accepted ∨ e = s.fabric.view.epoch) then
      takeInstall e a (keysAt b (16 + 32 * n)) now s
    else s

/-- FRONT_VIEW INSTALL. -/
def execFrontViewInstall (peer : Nat) (plain : Bytes) (now : Nat) (s : State) : Result := nextOf s (onView 2 peer plain s (viewInstall peer now))

/-- A coordinator that rejoins posts the records of its committed transactions without the replies it cannot have received, R74, R75. -/
def endLate (s : State) : State := settleHandovers (s.fabric.coords.foldl (fun t c => coordEnds true c.key t) s)

/-- A fetched view takes the place of a STALE one: prepared commits take the keeping side's outcome, replicas go; a module that is no longer a member becomes a lone top front, R443, R450. -/
def takeView (v : View) (union : List TxnKey) (now : Nat) (s : State) : State :=
  match placeIn v with
  | none => becomeLone (s.fabric.coords.foldl (resolveCoord union []) (s.fabric.prepared.foldl (fun t p => dropPrepared p.key t) s))
  | some me =>
    let s1 := installView { v with self := me, rights := .stale, reach := [] } s.frontTime s
    let s2 := dropReplicas (endLate (resolveCommits union (reachSet s1) now s1))
    { s2 with fabric := { s2.fabric with caughtUp := true } }

/-- CATCH_UP: a request (no entries) is answered with the view and the commit records held here; an answer is taken while STALE, R450 (log entry 61). -/
def viewCatchUp (peer : Nat) (m : Msg) (s : State) : State :=
  let b := m.body
  if fld b 4 4 = 0 then
    sendMessage peer 0x0B 3 0 0 0
      (frontViewHdr 3 s.fabric.view.self s.fabric.view.modules.length s.fabric.view.epoch ++ encodeView s s.fabric.view ++ keyNames (ownRecords s)) s
  else
    let w := b.drop 16
    let n := viewLen w
    if w.length ≠ n + 4 + 12 * fld w n 4 then malformed s
    else
      let v := decodeView w
      if s.fabric.view.rights = .stale ∧ (s.fabric.caughtUp = false ∨ s.fabric.view.epoch < v.epoch) ∧ s.fabric.view.epoch ≤ v.epoch then
        judgeHeld (takeView v (keysAt w n) s.frontTime s)
      else s

/-- FRONT_VIEW CATCH_UP. -/
def execFrontViewCatchUp (peer : Nat) (plain : Bytes) (s : State) : Result := nextOf s (onView 3 peer plain s (viewCatchUp peer))

end Sys2Proof.Machine
end

