-- ==== Sys2Proof/Machine/TickRows.lean ====
section
/-! DEFINITION. The management tick: sensors and status bits (R552, R587), clock limits (R527, R528), the parity scrub (R506), isobar reports (R599), shedding and pre-thaw (R409, R534), the fault log (R594), heartbeats and views (R446, R448, R450). -/

namespace Sys2Proof.Machine

open Sys2Proof

/-- A limit rises one step after ten ticks in succession that let it, R527. -/
def limitRise (l : ClockLimit) : ClockLimit := if 10 ≤ l.count + 1 then ⟨min 1800 (l.mhz + 50), 0⟩ else ⟨l.mhz, l.count + 1⟩

/-- A limit falls by MHz, never below 600, R527. -/
def limitFall (mhz : Nat) (l : ClockLimit) : ClockLimit := ⟨max 600 (l.mhz - mhz), 0⟩

/-- A limit with watts moves by the average power of the last tick, R527. -/
def wattLimit (watts avg : Nat) (l : ClockLimit) : ClockLimit :=
  if watts < avg then limitFall (if 11 * watts < 10 * avg then 100 else 50) l
  else if 100 * avg < 95 * watts then limitRise l
  else ⟨l.mhz, 0⟩

/-- The input stands below its rated range but still carries the module, R521. -/
def inputLow (vin : Nat) : Bool := decide (6400 ≤ vin) && decide (vin < 7000)

/-- The input limit, R527: 2,000 W while the input is low; above that it has no watts and rises; its count restarts as the range changes. -/
def inputStep (before vin avg : Nat) (l : ClockLimit) : ClockLimit :=
  let l1 : ClockLimit := if inputLow before = inputLow vin then l else ⟨l.mhz, 0⟩
  if inputLow vin then wattLimit 2000 avg l1
  else if 7000 ≤ vin then limitRise l1
  else ⟨l.mhz, 0⟩

/-- The thermal limit, R528. -/
def thermalStep (tj : Nat) (l : ClockLimit) : ClockLimit :=
  if 105 ≤ tj then limitFall 50 l else if tj ≤ 103 then limitRise l else ⟨l.mhz, 0⟩

/-- The sensors of a tick are stored and the clock limits move, R527, R528, R552, R587; the junctions are measured while their dies have power. -/
def tickPower (x : TickSample) (p : Power) : Power :=
  let cap := wattLimit p.capW x.pinAvg p.capLimit
  let thermal := if p.pwrgd then thermalStep x.tj p.thermalLimit else p.thermalLimit
  let input := inputStep p.vin x.vin x.pinAvg p.inputLimit
  let ti := inputCauses x.vin
  let tt := if p.pwrgd then tempCauses x.tj else 0
  let q := { p with
    vin := x.vin
    iin := x.iin
    pinAvg := x.pinAvg
    pinPeak := x.pinPeak
    tj := if p.pwrgd then x.tj else p.tj
    tjDie := if p.pwrgd then x.tjDie else p.tjDie
    tjKnown := p.tjKnown || p.pwrgd
    junctions := if p.pwrgd then x.junctions else List.replicate 24 0x8000
    sampleTime := x.now
    refclk := x.refclk && p.pwrgd && !p.perst
    thermalWarn := if p.pwrgd = false then p.thermalWarn else if 100 ≤ x.tj then true else if x.tj ≤ 95 then false else p.thermalWarn
    statusInput := p.statusInput ||| ti
    statusTemp := p.statusTemp ||| tt
    alertAnswered := p.alertAnswered && ti == 0 && tt == 0
    capLimit := cap
    thermalLimit := thermal
    inputLimit := input
    throttleCap := decide (cap.mhz < 1800) || p.fastClamp
    throttleThermal := decide (thermal.mhz < 1800)
    throttleInput := inputLow x.vin || decide (input.mhz < 1800) }
  { q with mhzHistory := (cellMhz q :: p.mhzHistory).take 100 }

/-- The isobar cores that report, R599; a halted core owes no report and counts as having reported. -/
def tickReports (x : TickSample) (s : State) : State :=
  let seen := (List.range 8).filter (fun c => x.reporting.contains c || s.dbg.isobarHalted.contains c)
  { s with faults := { s.faults with isobarReport := seen.foldl (fun l c => kset l c s.ticks) s.faults.isobarReport } }

/-- The tick's part for a module whose firmware is ready. -/
def tickReady (s : State) : State :=
  if s.power.fwReady then proposeTick (catchUpTick (sendHeartbeats (contractTick (preThaw s)))) else s

/-- MANAGEMENT_TICK: nothing happens while the calm island is without power. -/
def managementTick (x : TickSample) (s0 : State) : State :=
  if s0.power.calm = false then s0
  else
    let s := advance x.now s0
    let s1 := { s with ticks := s.ticks + 1, power := tickPower x s.power }
    let s2 := x.upset.foldl (fun t r => upsetRegister r.1 r.2.1 r.2.2 t) (tickReports x s1)
    flushFaults (tickReady s2)

/-- MANAGEMENT_TICK. -/
def execManagementTick (sample : TickSample) (s : State) : Result := nextOf s (managementTick sample s)

end Sys2Proof.Machine
end

