-- ==== Sys2Proof/Machine/Dispatch.lean ====
section
/-! DEFINITION. One arm for each command, each one direct call of its meaning. -/

namespace Sys2Proof.Machine

open Sys2Proof

def exec (i : Instr) (s : State) : Host.Outcome State Fault Refusal :=
  match i with
  | .sessionOpen h => Sys2Proof.Machine.execSessionOpen h s
  | .sessionClose h => Sys2Proof.Machine.execSessionClose h s
  | .attestReport h => Sys2Proof.Machine.execAttestReport h s
  | .attestCertificates h => Sys2Proof.Machine.execAttestCertificates h s
  | .keyInstallSet h => Sys2Proof.Machine.execKeyInstallSet h s
  | .keyInstallImport h image => Sys2Proof.Machine.execKeyInstallImport h image s
  | .keyInstallExport h => Sys2Proof.Machine.execKeyInstallExport h s
  | .keyRetire h => Sys2Proof.Machine.execKeyRetire h s
  | .tenantCreate h => Sys2Proof.Machine.execTenantCreate h s
  | .tenantDestroy h => Sys2Proof.Machine.execTenantDestroy h s
  | .debugAuthorize h => Sys2Proof.Machine.execDebugAuthorize h s
  | .txnBegin h => Sys2Proof.Machine.execTxnBegin h s
  | .txnSet h => Sys2Proof.Machine.execTxnSet h s
  | .txnCommit h => Sys2Proof.Machine.execTxnCommit h s
  | .txnRollback h => Sys2Proof.Machine.execTxnRollback h s
  | .configGet h => Sys2Proof.Machine.execConfigGet h s
  | .roleSet h => Sys2Proof.Machine.execRoleSet h s
  | .memAlloc h => Sys2Proof.Machine.execMemAlloc h s
  | .memFree h => Sys2Proof.Machine.execMemFree h s
  | .memCopy h => Sys2Proof.Machine.execMemCopy h s
  | .reside h => Sys2Proof.Machine.execReside h s
  | .demote h => Sys2Proof.Machine.execDemote h s
  | .flush h => Sys2Proof.Machine.execFlush h s
  | .memFill h => Sys2Proof.Machine.execMemFill h s
  | .tierStats h => Sys2Proof.Machine.execTierStats h s
  | .modelLoad h => Sys2Proof.Machine.execModelLoad h s
  | .modelUnload h => Sys2Proof.Machine.execModelUnload h s
  | .steerSetLoad h => Sys2Proof.Machine.execSteerSetLoad h s
  | .steerSetDrop h => Sys2Proof.Machine.execSteerSetDrop h s
  | .kernelLoad h => Sys2Proof.Machine.execKernelLoad h s
  | .layerRun h => Sys2Proof.Machine.execLayerRun h s
  | .kernelRun h => Sys2Proof.Machine.execKernelRun h s
  | .chainDefine h => Sys2Proof.Machine.execChainDefine h s
  | .tableCreate h => Sys2Proof.Machine.execTableCreate h s
  | .tableDrop h => Sys2Proof.Machine.execTableDrop h s
  | .rowsWrite h => Sys2Proof.Machine.execRowsWrite h s
  | .bagLookup h fetched => Sys2Proof.Machine.execBagLookup h fetched s
  | .hotPolicySet h => Sys2Proof.Machine.execHotPolicySet h s
  | .rowsRead h fetched => Sys2Proof.Machine.execRowsRead h fetched s
  | .indexCreate h => Sys2Proof.Machine.execIndexCreate h s
  | .indexDrop h => Sys2Proof.Machine.execIndexDrop h s
  | .indexLoad h => Sys2Proof.Machine.execIndexLoad h s
  | .vecInsert h => Sys2Proof.Machine.execVecInsert h s
  | .vecDelete h => Sys2Proof.Machine.execVecDelete h s
  | .search h payloads => Sys2Proof.Machine.execSearch h payloads s
  | .indexMerge h => Sys2Proof.Machine.execIndexMerge h s
  | .indexStats h => Sys2Proof.Machine.execIndexStats h s
  | .selectTopk h => Sys2Proof.Machine.execSelectTopk h s
  | .selectMerge h => Sys2Proof.Machine.execSelectMerge h s
  | .tokenizerLoad h => Sys2Proof.Machine.execTokenizerLoad h s
  | .tokenize h => Sys2Proof.Machine.execTokenize h s
  | .detokStreamOpen h => Sys2Proof.Machine.execDetokStreamOpen h s
  | .detokStreamFeed h => Sys2Proof.Machine.execDetokStreamFeed h s
  | .packPrompt h => Sys2Proof.Machine.execPackPrompt h s
  | .grammarLoad h => Sys2Proof.Machine.execGrammarLoad h s
  | .stopSet h => Sys2Proof.Machine.execStopSet h s
  | .requestSubmit h => Sys2Proof.Machine.execRequestSubmit h s
  | .requestCancel h => Sys2Proof.Machine.execRequestCancel h s
  | .requestStatus h => Sys2Proof.Machine.execRequestStatus h s
  | .kvExport h => Sys2Proof.Machine.execKvExport h s
  | .kvImport h => Sys2Proof.Machine.execKvImport h s
  | .pipelineDefine h => Sys2Proof.Machine.execPipelineDefine h s
  | .pipelineDelete h => Sys2Proof.Machine.execPipelineDelete h s
  | .sharesSet h => Sys2Proof.Machine.execSharesSet h s
  | .budgetSet h => Sys2Proof.Machine.execBudgetSet h s
  | .budgetRemove h => Sys2Proof.Machine.execBudgetRemove h s
  | .contractSet h => Sys2Proof.Machine.execContractSet h s
  | .contractDelete h => Sys2Proof.Machine.execContractDelete h s
  | .accountRead h => Sys2Proof.Machine.execAccountRead h s
  | .frontForm h => Sys2Proof.Machine.execFrontForm h s
  | .frontJoinCandidate h => Sys2Proof.Machine.execFrontJoinCandidate h s
  | .frontJoinAdmit h => Sys2Proof.Machine.execFrontJoinAdmit h s
  | .frontLeave h => Sys2Proof.Machine.execFrontLeave h s
  | .frontView h => Sys2Proof.Machine.execFrontView h s
  | .linkConfig h => Sys2Proof.Machine.execLinkConfig h s
  | .linkStatus h => Sys2Proof.Machine.execLinkStatus h s
  | .anchorSet h => Sys2Proof.Machine.execAnchorSet h s
  | .breakSet h => Sys2Proof.Machine.execBreakSet h s
  | .breakClear h => Sys2Proof.Machine.execBreakClear h s
  | .halt h => Sys2Proof.Machine.execHalt h s
  | .resume h => Sys2Proof.Machine.execResume h s
  | .step h => Sys2Proof.Machine.execStep h s
  | .stateRead h => Sys2Proof.Machine.execStateRead h s
  | .trackRead h => Sys2Proof.Machine.execTrackRead h s
  | .gaugeArm h => Sys2Proof.Machine.execGaugeArm h s
  | .gaugeRead h => Sys2Proof.Machine.execGaugeRead h s
  | .gaugeReadClear h => Sys2Proof.Machine.execGaugeReadClear h s
  | .gaugeDisarm h => Sys2Proof.Machine.execGaugeDisarm h s
  | .countersRead h => Sys2Proof.Machine.execCountersRead h s
  | .histogramRead h => Sys2Proof.Machine.execHistogramRead h s
  | .faultLogRead h => Sys2Proof.Machine.execFaultLogRead h s
  | .sensorsRead h => Sys2Proof.Machine.execSensorsRead h s
  | .powerCapSet h => Sys2Proof.Machine.execPowerCapSet h s
  | .statePolicySet h => Sys2Proof.Machine.execStatePolicySet h s
  | .fwStage h => Sys2Proof.Machine.execFwStage h s
  | .fwActivate h => Sys2Proof.Machine.execFwActivate h s
  | .fwCommitSvn h => Sys2Proof.Machine.execFwCommitSvn h s
  | .memberResetModule h => Sys2Proof.Machine.execMemberResetModule h s
  | .memberResetPowerCycle h => Sys2Proof.Machine.execMemberResetPowerCycle h s
  | .resetDelayExpiry now => Sys2Proof.Machine.execResetDelayExpiry now s
  | .packetTaken ring bytes now => Sys2Proof.Machine.execPacketTaken ring bytes now s
  | .fencedCommandBegin h => Sys2Proof.Machine.execFencedCommandBegin h s
  | .txnTimeout session txn now => Sys2Proof.Machine.execTxnTimeout session txn now s
  | .sqTailWrite ring value => Sys2Proof.Machine.execSqTailWrite ring value s
  | .cqHeadWrite ring value => Sys2Proof.Machine.execCqHeadWrite ring value s
  | .sqEnable ring => Sys2Proof.Machine.execSqEnable ring s
  | .sqDisable ring => Sys2Proof.Machine.execSqDisable ring s
  | .cqEnable ring irqEn => Sys2Proof.Machine.execCqEnable ring irqEn s
  | .cqDisable ring irqEn => Sys2Proof.Machine.execCqDisable ring irqEn s
  | .modParityClear => Sys2Proof.Machine.execModParityClear s
  | .irqEventClear value => Sys2Proof.Machine.execIrqEventClear value s
  | .irqSqErrClear word value => Sys2Proof.Machine.execIrqSqErrClear word value s
  | .irqCqErrClear word value => Sys2Proof.Machine.execIrqCqErrClear word value s
  | .irqEventEnWrite value => Sys2Proof.Machine.execIrqEventEnWrite value s
  | .dbgPeekRead => Sys2Proof.Machine.execDbgPeekRead s
  | .dbgPeekWrite value => Sys2Proof.Machine.execDbgPeekWrite value s
  | .clkTimeLoRead => Sys2Proof.Machine.execClkTimeLoRead s
  | .telSnap => Sys2Proof.Machine.execTelSnap s
  | .telSnapshotTaken now => Sys2Proof.Machine.execTelSnapshotTaken now s
  | .registerWrite bar offset size value => Sys2Proof.Machine.execRegisterWrite bar offset size value s
  | .msixVectorUnmask vector => Sys2Proof.Machine.execMsixVectorUnmask vector s
  | .pmeStatusClear status enable => Sys2Proof.Machine.execPmeStatusClear status enable s
  | .cqCoalExpiry ring now => Sys2Proof.Machine.execCqCoalExpiry ring now s
  | .hostReadCompletion what good => Sys2Proof.Machine.execHostReadCompletion what good s
  | .hostCompletionTimeout what => Sys2Proof.Machine.execHostCompletionTimeout what s
  | .functionLevelReset => Sys2Proof.Machine.execFunctionLevelReset s
  | .hotReset => Sys2Proof.Machine.execHotReset s
  | .d3hotEntry => Sys2Proof.Machine.execD3hotEntry s
  | .d0Return => Sys2Proof.Machine.execD0Return s
  | .hostLinkDown => Sys2Proof.Machine.execHostLinkDown s
  | .hostLinkRetrain => Sys2Proof.Machine.execHostLinkRetrain s
  | .hostLinkTrained rate width flit => Sys2Proof.Machine.execHostLinkTrained rate width flit s
  | .refclkLoss => Sys2Proof.Machine.execRefclkLoss s
  | .perstAssert => Sys2Proof.Machine.execPerstAssert s
  | .perstRelease => Sys2Proof.Machine.execPerstRelease s
  | .coldReset vin => Sys2Proof.Machine.execColdReset vin s
  | .calmIslandStart slotId mfgMode => Sys2Proof.Machine.execCalmIslandStart slotId mfgMode s
  | .powerOff => Sys2Proof.Machine.execPowerOff s
  | .inputInRange vin => Sys2Proof.Machine.execInputInRange vin s
  | .hvEnAssert tj => Sys2Proof.Machine.execHvEnAssert tj s
  | .hvEnDeassert => Sys2Proof.Machine.execHvEnDeassert s
  | .railsInRegulation => Sys2Proof.Machine.execRailsInRegulation s
  | .railFailure rail => Sys2Proof.Machine.execRailFailure rail s
  | .brownOut vin now => Sys2Proof.Machine.execBrownOut vin now s
  | .thermalTrip tj die now => Sys2Proof.Machine.execThermalTrip tj die now s
  | .oscillatorLoss domain => Sys2Proof.Machine.execOscillatorLoss domain s
  | .entropyFail => Sys2Proof.Machine.execEntropyFail s
  | .boot passed countersValid => Sys2Proof.Machine.execBoot passed countersValid s
  | .fwReady now => Sys2Proof.Machine.execFwReady now s
  | .bootTimeout => Sys2Proof.Machine.execBootTimeout s
  | .recoveryBundleChunk offset bytes => Sys2Proof.Machine.execRecoveryBundleChunk offset bytes s
  | .watchdogExpiry core now => Sys2Proof.Machine.execWatchdogExpiry core now s
  | .managementTick sample => Sys2Proof.Machine.execManagementTick sample s
  | .fastClamp now => Sys2Proof.Machine.execFastClamp now s
  | .fastClampEnd now => Sys2Proof.Machine.execFastClampEnd now s
  | .schedulingTimer now => Sys2Proof.Machine.execSchedulingTimer now s
  | .itemRelease item work now => Sys2Proof.Machine.execItemRelease item work now s
  | .thawComplete quadrant now => Sys2Proof.Machine.execThawComplete quadrant now s
  | .frost quadrant now => Sys2Proof.Machine.execFrost quadrant now s
  | .deepFrost quadrant now => Sys2Proof.Machine.execDeepFrost quadrant now s
  | .memSelfRefresh now => Sys2Proof.Machine.execMemSelfRefresh now s
  | .hubDomainGate domain now => Sys2Proof.Machine.execHubDomainGate domain now s
  | .patrolScrub addr outcome => Sys2Proof.Machine.execPatrolScrub addr outcome s
  | .ppsEdge now => Sys2Proof.Machine.execPpsEdge now s
  | .ppsLoss now => Sys2Proof.Machine.execPpsLoss now s
  | .mma cell parity ecc => Sys2Proof.Machine.execMma cell parity ecc s
  | .mld cell ecc => Sys2Proof.Machine.execMld cell ecc s
  | .mdr cell parity => Sys2Proof.Machine.execMdr cell parity s
  | .mrs cell parity ecc => Sys2Proof.Machine.execMrs cell parity ecc s
  | .mfence hart => Sys2Proof.Machine.execMfence hart s
  | .arrayIssue hart => Sys2Proof.Machine.execArrayIssue hart s
  | .vectorIssue hart => Sys2Proof.Machine.execVectorIssue hart s
  | .vadd cell => Sys2Proof.Machine.execVadd cell s
  | .vsub cell => Sys2Proof.Machine.execVsub cell s
  | .vmul cell => Sys2Proof.Machine.execVmul cell s
  | .vfma cell => Sys2Proof.Machine.execVfma cell s
  | .vmax cell => Sys2Proof.Machine.execVmax cell s
  | .vmin cell => Sys2Proof.Machine.execVmin cell s
  | .vdiv cell => Sys2Proof.Machine.execVdiv cell s
  | .vsqrt cell => Sys2Proof.Machine.execVsqrt cell s
  | .vrsq cell => Sys2Proof.Machine.execVrsq cell s
  | .vrcp cell => Sys2Proof.Machine.execVrcp cell s
  | .vexp2 cell => Sys2Proof.Machine.execVexp2 cell s
  | .vlog2 cell => Sys2Proof.Machine.execVlog2 cell s
  | .vand cell => Sys2Proof.Machine.execVand cell s
  | .vor cell => Sys2Proof.Machine.execVor cell s
  | .vxor cell => Sys2Proof.Machine.execVxor cell s
  | .vcmplt cell => Sys2Proof.Machine.execVcmplt cell s
  | .vsel cell => Sys2Proof.Machine.execVsel cell s
  | .vscal cell => Sys2Proof.Machine.execVscal cell s
  | .vld cell ecc => Sys2Proof.Machine.execVld cell ecc s
  | .vst cell => Sys2Proof.Machine.execVst cell s
  | .vredsum cell => Sys2Proof.Machine.execVredsum cell s
  | .vredmax cell => Sys2Proof.Machine.execVredmax cell s
  | .vextr cell => Sys2Proof.Machine.execVextr cell s
  | .vins cell => Sys2Proof.Machine.execVins cell s
  | .vcvt cell => Sys2Proof.Machine.execVcvt cell s
  | .vseed cell => Sys2Proof.Machine.execVseed cell s
  | .vfence hart => Sys2Proof.Machine.execVfence hart s
  | .dsub hart => Sys2Proof.Machine.execDsub hart s
  | .dwait hart => Sys2Proof.Machine.execDwait hart s
  | .dpoll hart => Sys2Proof.Machine.execDpoll hart s
  | .dmaComplete hart tag outcome addr => Sys2Proof.Machine.execDmaComplete hart tag outcome addr s
  | .remoteWriteArrival hart tag => Sys2Proof.Machine.execRemoteWriteArrival hart tag s
  | .bar hart => Sys2Proof.Machine.execBar hart s
  | .barrierDeadlock h => Sys2Proof.Machine.execBarrierDeadlock h s
  | .wopen hart => Sys2Proof.Machine.execWopen hart s
  | .wclose hart => Sys2Proof.Machine.execWclose hart s
  | .scalarInstruction hart ecc => Sys2Proof.Machine.execScalarInstruction hart ecc s
  | .ecall hart => Sys2Proof.Machine.execEcall hart s
  | .ebreak hart => Sys2Proof.Machine.execEbreak hart s
  | .kernelRunCommit h cycles => Sys2Proof.Machine.execKernelRunCommit h cycles s
  | .layerRunCommit h => Sys2Proof.Machine.execLayerRunCommit h s
  | .commandDeadline h now => Sys2Proof.Machine.execCommandDeadline h now s
  | .haltDrainComplete h => Sys2Proof.Machine.execHaltDrainComplete h s
  | .stepStallTimeout h => Sys2Proof.Machine.execStepStallTimeout h s
  | .tierAccessComplete h addr cause stallNs outcome => Sys2Proof.Machine.execTierAccessComplete h addr cause stallNs outcome s
  | .stallLimitExpiry h addr cause stallNs now => Sys2Proof.Machine.execStallLimitExpiry h addr cause stallNs now s
  | .pageFillComplete page outcome => Sys2Proof.Machine.execPageFillComplete page outcome s
  | .writeBackComplete page good => Sys2Proof.Machine.execWriteBackComplete page good s
  | .rowUpdateApply => Sys2Proof.Machine.execRowUpdateApply s
  | .hotWindowEnd table counts now => Sys2Proof.Machine.execHotWindowEnd table counts now s
  | .retrievalStage r fetched payloads now => Sys2Proof.Machine.execRetrievalStage r fetched payloads now s
  | .prefillStage r fetched now => Sys2Proof.Machine.execPrefillStage r fetched now s
  | .decodeStep r fetched now => Sys2Proof.Machine.execDecodeStep r fetched now s
  | .requestFree r => Sys2Proof.Machine.execRequestFree r s
  | .pageReservation r now => Sys2Proof.Machine.execPageReservation r now s
  | .chunkReservation r now => Sys2Proof.Machine.execChunkReservation r now s
  | .chunkTimer r now => Sys2Proof.Machine.execChunkTimer r now s
  | .requestDeadline r now => Sys2Proof.Machine.execRequestDeadline r now s
  | .budgetRefill tenant now => Sys2Proof.Machine.execBudgetRefill tenant now s
  | .contractWindowJudged tenant n => Sys2Proof.Machine.execContractWindowJudged tenant n s
  | .histogramWindow now => Sys2Proof.Machine.execHistogramWindow now s
  | .candidacyExpiry now => Sys2Proof.Machine.execCandidacyExpiry now s
  | .candidacyWaitTimeout h now => Sys2Proof.Machine.execCandidacyWaitTimeout h now s
  | .voteTimeout h now => Sys2Proof.Machine.execVoteTimeout h now s
  | .viewInstallDecision now => Sys2Proof.Machine.execViewInstallDecision now s
  | .peerUnreachable peer now => Sys2Proof.Machine.execPeerUnreachable peer now s
  | .offsetStale now => Sys2Proof.Machine.execOffsetStale now s
  | .portTrainingComplete port width => Sys2Proof.Machine.execPortTrainingComplete port width s
  | .laneLoss port lane => Sys2Proof.Machine.execLaneLoss port lane s
  | .portSignalLoss port => Sys2Proof.Machine.execPortSignalLoss port s
  | .portSignalDetect port => Sys2Proof.Machine.execPortSignalDetect port s
  | .retrainTimeout port => Sys2Proof.Machine.execRetrainTimeout port s
  | .dadComplete port inUse => Sys2Proof.Machine.execDadComplete port inUse s
  | .neighborSolicitation port target probe => Sys2Proof.Machine.execNeighborSolicitation port target probe s
  | .neighborAdvertisement port target link => Sys2Proof.Machine.execNeighborAdvertisement port target link s
  | .icmpv6EchoRequest port data => Sys2Proof.Machine.execIcmpv6EchoRequest port data s
  | .packetTooBig port => Sys2Proof.Machine.execPacketTooBig port s
  | .flitNak port ack => Sys2Proof.Machine.execFlitNak port ack s
  | .flitDamaged port fec => Sys2Proof.Machine.execFlitDamaged port fec s
  | .flitHello port uid nport seq ack => Sys2Proof.Machine.execFlitHello port uid nport seq ack s
  | .flitTime port sent arrived ack => Sys2Proof.Machine.execFlitTime port sent arrived ack s
  | .helloSend port => Sys2Proof.Machine.execHelloSend port s
  | .ackStall port => Sys2Proof.Machine.execAckStall port s
  | .segmentData port seq ack bytes => Sys2Proof.Machine.execSegmentData port seq ack bytes s
  | .segmentAck port seq ack bytes => Sys2Proof.Machine.execSegmentAck port seq ack bytes s
  | .retransmitTimeout peer channel => Sys2Proof.Machine.execRetransmitTimeout peer channel s
  | .tile peer plain => Sys2Proof.Machine.execTile peer plain s
  | .kvShipOpen peer plain => Sys2Proof.Machine.execKvShipOpen peer plain s
  | .kvShipAccept peer plain => Sys2Proof.Machine.execKvShipAccept peer plain s
  | .kvShipPage peer plain => Sys2Proof.Machine.execKvShipPage peer plain s
  | .kvShipAbort peer plain => Sys2Proof.Machine.execKvShipAbort peer plain s
  | .kvShipRefuse peer plain => Sys2Proof.Machine.execKvShipRefuse peer plain s
  | .rowUpd peer plain => Sys2Proof.Machine.execRowUpd peer plain s
  | .rowReplInstall peer plain => Sys2Proof.Machine.execRowReplInstall peer plain s
  | .rowReplDrop peer plain => Sys2Proof.Machine.execRowReplDrop peer plain s
  | .rowReplAck peer plain => Sys2Proof.Machine.execRowReplAck peer plain s
  | .searchReq peer plain => Sys2Proof.Machine.execSearchReq peer plain s
  | .searchResp peer plain => Sys2Proof.Machine.execSearchResp peer plain s
  | .selectMergeMsg peer plain => Sys2Proof.Machine.execSelectMergeMsg peer plain s
  | .cmdFwdForward peer plain => Sys2Proof.Machine.execCmdFwdForward peer plain s
  | .cmdFwdReply peer plain => Sys2Proof.Machine.execCmdFwdReply peer plain s
  | .cmdFwdPrepare peer plain => Sys2Proof.Machine.execCmdFwdPrepare peer plain s
  | .cmdFwdVote peer plain => Sys2Proof.Machine.execCmdFwdVote peer plain s
  | .cmdFwdCommit peer plain now => Sys2Proof.Machine.execCmdFwdCommit peer plain now s
  | .cmdFwdAbort peer plain => Sys2Proof.Machine.execCmdFwdAbort peer plain s
  | .cmdFwdDecision peer plain => Sys2Proof.Machine.execCmdFwdDecision peer plain s
  | .cmdFwdDecisionAck peer plain => Sys2Proof.Machine.execCmdFwdDecisionAck peer plain s
  | .timeSyncSend now => Sys2Proof.Machine.execTimeSyncSend now s
  | .timeSyncSync peer plain now => Sys2Proof.Machine.execTimeSyncSync peer plain now s
  | .timeSyncFollowUp peer plain now => Sys2Proof.Machine.execTimeSyncFollowUp peer plain now s
  | .timeSyncDelayReq peer plain now => Sys2Proof.Machine.execTimeSyncDelayReq peer plain now s
  | .timeSyncDelayResp peer plain now => Sys2Proof.Machine.execTimeSyncDelayResp peer plain now s
  | .ptpSync ptpDomain now => Sys2Proof.Machine.execPtpSync ptpDomain now s
  | .ptpFollowUp ptpDomain sent => Sys2Proof.Machine.execPtpFollowUp ptpDomain sent s
  | .ptpDelayReq port ptpDomain now => Sys2Proof.Machine.execPtpDelayReq port ptpDomain now s
  | .ptpDelayResp ptpDomain stamp now => Sys2Proof.Machine.execPtpDelayResp ptpDomain stamp now s
  | .heartbeat peer plain now => Sys2Proof.Machine.execHeartbeat peer plain now s
  | .frontViewPropose peer plain => Sys2Proof.Machine.execFrontViewPropose peer plain s
  | .frontViewAccept peer plain => Sys2Proof.Machine.execFrontViewAccept peer plain s
  | .frontViewInstall peer plain now => Sys2Proof.Machine.execFrontViewInstall peer plain now s
  | .frontViewCatchUp peer plain => Sys2Proof.Machine.execFrontViewCatchUp peer plain s
  | .frontViewAdj peer plain => Sys2Proof.Machine.execFrontViewAdj peer plain s
  | .clearFaults => Sys2Proof.Machine.execClearFaults s
  | .statusByte => Sys2Proof.Machine.execStatusByte s
  | .statusWord => Sys2Proof.Machine.execStatusWord s
  | .statusInput => Sys2Proof.Machine.execStatusInput s
  | .statusTemperature => Sys2Proof.Machine.execStatusTemperature s
  | .readVin => Sys2Proof.Machine.execReadVin s
  | .readIin => Sys2Proof.Machine.execReadIin s
  | .readTemperature1 => Sys2Proof.Machine.execReadTemperature1 s
  | .readPin => Sys2Proof.Machine.execReadPin s
  | .pmbusRevision => Sys2Proof.Machine.execPmbusRevision s
  | .mfrId => Sys2Proof.Machine.execMfrId s
  | .mfrModel => Sys2Proof.Machine.execMfrModel s
  | .pmbusUnsupported code => Sys2Proof.Machine.execPmbusUnsupported code s
  | .alertResponse => Sys2Proof.Machine.execAlertResponse s
  | .smbusClockTimeout => Sys2Proof.Machine.execSmbusClockTimeout s
  | .mctpControl request => Sys2Proof.Machine.execMctpControl request s
  | .getVersion request => Sys2Proof.Machine.execGetVersion request s
  | .getCapabilities request => Sys2Proof.Machine.execGetCapabilities request s
  | .negotiateAlgorithms request => Sys2Proof.Machine.execNegotiateAlgorithms request s
  | .getDigests request => Sys2Proof.Machine.execGetDigests request s
  | .getCertificate request => Sys2Proof.Machine.execGetCertificate request s
  | .challenge request => Sys2Proof.Machine.execChallenge request s
  | .getMeasurements request => Sys2Proof.Machine.execGetMeasurements request s
  | .spdmUnsupportedRequest request => Sys2Proof.Machine.execSpdmUnsupportedRequest request s
  | .doeDiscovery idx => Sys2Proof.Machine.execDoeDiscovery idx s
  | .tapReset => Sys2Proof.Machine.execTapReset s
  | .bypass => Sys2Proof.Machine.execBypass s
  | .idcode => Sys2Proof.Machine.execIdcode s
  | .samplePreload pins => Sys2Proof.Machine.execSamplePreload pins s
  | .extest pins => Sys2Proof.Machine.execExtest pins s
  | .extestPulse pins => Sys2Proof.Machine.execExtestPulse pins s
  | .extestTrain pins => Sys2Proof.Machine.execExtestTrain pins s
  | .jtagPrivate code => Sys2Proof.Machine.execJtagPrivate code s
  | .pluggableInsertion cage milliwatts => Sys2Proof.Machine.execPluggableInsertion cage milliwatts s
  | .quadrantDomainFailure quadrant => Sys2Proof.Machine.execQuadrantDomainFailure quadrant s
  | .busMasterEnableWrite enable => Sys2Proof.Machine.execBusMasterEnableWrite enable s
  | .configRegisterRead bar offset flipped => Sys2Proof.Machine.execConfigRegisterRead bar offset flipped s
  | .pairSecretMessage uid response body => Sys2Proof.Machine.execPairSecretMessage uid response body s
  | .candidacyCheckMessage uid matching prepared view => Sys2Proof.Machine.execCandidacyCheckMessage uid matching prepared view s

end Sys2Proof.Machine
end

