-- ==== Sys2Proof/WellFormed.lean ====
section
/-! DEFINITION. Which commands are well formed: the operands that name a unit name one that exists (R29, R30, R51). -/

namespace Sys2Proof

/-- The operands of a command lie in their ranges. -/
def wellFormed (i : Instr) : Bool :=
  match i with
  | .sessionOpen _ => true
  | .sessionClose _ => true
  | .attestReport _ => true
  | .attestCertificates _ => true
  | .keyInstallSet _ => true
  | .keyInstallImport _ _ => true
  | .keyInstallExport _ => true
  | .keyRetire _ => true
  | .tenantCreate _ => true
  | .tenantDestroy _ => true
  | .debugAuthorize _ => true
  | .txnBegin _ => true
  | .txnSet _ => true
  | .txnCommit _ => true
  | .txnRollback _ => true
  | .configGet _ => true
  | .roleSet _ => true
  | .memAlloc _ => true
  | .memFree _ => true
  | .memCopy _ => true
  | .reside _ => true
  | .demote _ => true
  | .flush _ => true
  | .memFill _ => true
  | .tierStats _ => true
  | .modelLoad _ => true
  | .modelUnload _ => true
  | .steerSetLoad _ => true
  | .steerSetDrop _ => true
  | .kernelLoad _ => true
  | .layerRun _ => true
  | .kernelRun _ => true
  | .chainDefine _ => true
  | .tableCreate _ => true
  | .tableDrop _ => true
  | .rowsWrite _ => true
  | .bagLookup _ _ => true
  | .hotPolicySet _ => true
  | .rowsRead _ _ => true
  | .indexCreate _ => true
  | .indexDrop _ => true
  | .indexLoad _ => true
  | .vecInsert _ => true
  | .vecDelete _ => true
  | .search _ _ => true
  | .indexMerge _ => true
  | .indexStats _ => true
  | .selectTopk _ => true
  | .selectMerge _ => true
  | .tokenizerLoad _ => true
  | .tokenize _ => true
  | .detokStreamOpen _ => true
  | .detokStreamFeed _ => true
  | .packPrompt _ => true
  | .grammarLoad _ => true
  | .stopSet _ => true
  | .requestSubmit _ => true
  | .requestCancel _ => true
  | .requestStatus _ => true
  | .kvExport _ => true
  | .kvImport _ => true
  | .pipelineDefine _ => true
  | .pipelineDelete _ => true
  | .sharesSet _ => true
  | .budgetSet _ => true
  | .budgetRemove _ => true
  | .contractSet _ => true
  | .contractDelete _ => true
  | .accountRead _ => true
  | .frontForm _ => true
  | .frontJoinCandidate _ => true
  | .frontJoinAdmit _ => true
  | .frontLeave _ => true
  | .frontView _ => true
  | .linkConfig _ => true
  | .linkStatus _ => true
  | .anchorSet _ => true
  | .breakSet _ => true
  | .breakClear _ => true
  | .halt _ => true
  | .resume _ => true
  | .step _ => true
  | .stateRead _ => true
  | .trackRead _ => true
  | .gaugeArm _ => true
  | .gaugeRead _ => true
  | .gaugeReadClear _ => true
  | .gaugeDisarm _ => true
  | .countersRead _ => true
  | .histogramRead _ => true
  | .faultLogRead _ => true
  | .sensorsRead _ => true
  | .powerCapSet _ => true
  | .statePolicySet _ => true
  | .fwStage _ => true
  | .fwActivate _ => true
  | .fwCommitSvn _ => true
  | .memberResetModule _ => true
  | .memberResetPowerCycle _ => true
  | .resetDelayExpiry _ => true
  | .packetTaken ring _ _ => decide (ring < 4096)
  | .fencedCommandBegin _ => true
  | .txnTimeout _ _ _ => true
  | .sqTailWrite ring _ => decide (ring < 4096)
  | .cqHeadWrite ring _ => decide (ring < 4096)
  | .sqEnable ring => decide (ring < 4096)
  | .sqDisable ring => decide (ring < 4096)
  | .cqEnable ring _ => decide (ring < 4096)
  | .cqDisable ring _ => decide (ring < 4096)
  | .modParityClear => true
  | .irqEventClear _ => true
  | .irqSqErrClear word _ => decide (word < 128)
  | .irqCqErrClear word _ => decide (word < 128)
  | .irqEventEnWrite _ => true
  | .dbgPeekRead => true
  | .dbgPeekWrite _ => true
  | .clkTimeLoRead => true
  | .telSnap => true
  | .telSnapshotTaken _ => true
  | .registerWrite bar _ _ _ => decide (bar = 0 ∨ bar = 2)
  | .msixVectorUnmask vector => decide (vector < 2048)
  | .pmeStatusClear _ _ => true
  | .cqCoalExpiry ring _ => decide (ring < 4096)
  | .hostReadCompletion _ _ => true
  | .hostCompletionTimeout _ => true
  | .functionLevelReset => true
  | .hotReset => true
  | .d3hotEntry => true
  | .d0Return => true
  | .hostLinkDown => true
  | .hostLinkRetrain => true
  | .hostLinkTrained _ _ _ => true
  | .refclkLoss => true
  | .perstAssert => true
  | .perstRelease => true
  | .coldReset _ => true
  | .calmIslandStart slotId _ => decide (slotId < 16)
  | .powerOff => true
  | .inputInRange _ => true
  | .hvEnAssert _ => true
  | .hvEnDeassert => true
  | .railsInRegulation => true
  | .railFailure rail => decide (rail < 8)
  | .brownOut _ _ => true
  | .thermalTrip _ die _ => decide (die < 6)
  | .oscillatorLoss domain => decide (domain < 40)
  | .entropyFail => true
  | .boot _ _ => true
  | .fwReady _ => true
  | .bootTimeout => true
  | .recoveryBundleChunk _ _ => true
  | .watchdogExpiry core _ => decide (core < 8)
  | .managementTick _ => true
  | .fastClamp _ => true
  | .fastClampEnd _ => true
  | .schedulingTimer _ => true
  | .itemRelease _ _ _ => true
  | .thawComplete quadrant _ => decide (quadrant < 16)
  | .frost quadrant _ => decide (quadrant < 16)
  | .deepFrost quadrant _ => decide (quadrant < 16)
  | .memSelfRefresh _ => true
  | .hubDomainGate domain _ => decide (domain < 40)
  | .patrolScrub _ _ => true
  | .ppsEdge _ => true
  | .ppsLoss _ => true
  | .mma cell _ _ => decide (cell < 192)
  | .mld cell _ => decide (cell < 192)
  | .mdr cell _ => decide (cell < 192)
  | .mrs cell _ _ => decide (cell < 192)
  | .mfence hart => decide (hart < 1536)
  | .arrayIssue hart => decide (hart < 1536)
  | .vectorIssue hart => decide (hart < 1536)
  | .vadd cell => decide (cell < 192)
  | .vsub cell => decide (cell < 192)
  | .vmul cell => decide (cell < 192)
  | .vfma cell => decide (cell < 192)
  | .vmax cell => decide (cell < 192)
  | .vmin cell => decide (cell < 192)
  | .vdiv cell => decide (cell < 192)
  | .vsqrt cell => decide (cell < 192)
  | .vrsq cell => decide (cell < 192)
  | .vrcp cell => decide (cell < 192)
  | .vexp2 cell => decide (cell < 192)
  | .vlog2 cell => decide (cell < 192)
  | .vand cell => decide (cell < 192)
  | .vor cell => decide (cell < 192)
  | .vxor cell => decide (cell < 192)
  | .vcmplt cell => decide (cell < 192)
  | .vsel cell => decide (cell < 192)
  | .vscal cell => decide (cell < 192)
  | .vld cell _ => decide (cell < 192)
  | .vst cell => decide (cell < 192)
  | .vredsum cell => decide (cell < 192)
  | .vredmax cell => decide (cell < 192)
  | .vextr cell => decide (cell < 192)
  | .vins cell => decide (cell < 192)
  | .vcvt cell => decide (cell < 192)
  | .vseed cell => decide (cell < 192)
  | .vfence hart => decide (hart < 1536)
  | .dsub hart => decide (hart < 1536)
  | .dwait hart => decide (hart < 1536)
  | .dpoll hart => decide (hart < 1536)
  | .dmaComplete hart tag _ _ => decide (hart < 1536) && decide (tag < 8)
  | .remoteWriteArrival hart tag => decide (hart < 1536) && decide (tag < 8)
  | .bar hart => decide (hart < 1536)
  | .barrierDeadlock _ => true
  | .wopen hart => decide (hart < 1536)
  | .wclose hart => decide (hart < 1536)
  | .scalarInstruction hart _ => decide (hart < 1536)
  | .ecall hart => decide (hart < 1536)
  | .ebreak hart => decide (hart < 1536)
  | .kernelRunCommit _ _ => true
  | .layerRunCommit _ => true
  | .commandDeadline _ _ => true
  | .haltDrainComplete _ => true
  | .stepStallTimeout _ => true
  | .tierAccessComplete _ _ _ _ _ => true
  | .stallLimitExpiry _ _ _ _ _ => true
  | .pageFillComplete _ _ => true
  | .writeBackComplete _ _ => true
  | .rowUpdateApply => true
  | .hotWindowEnd _ _ _ => true
  | .retrievalStage _ _ _ _ => true
  | .prefillStage _ _ _ => true
  | .decodeStep _ _ _ => true
  | .requestFree _ => true
  | .pageReservation _ _ => true
  | .chunkReservation _ _ => true
  | .chunkTimer _ _ => true
  | .requestDeadline _ _ => true
  | .budgetRefill _ _ => true
  | .contractWindowJudged _ _ => true
  | .histogramWindow _ => true
  | .candidacyExpiry _ => true
  | .candidacyWaitTimeout _ _ => true
  | .voteTimeout _ _ => true
  | .viewInstallDecision _ => true
  | .peerUnreachable peer _ => decide (peer < 69632)
  | .offsetStale _ => true
  | .portTrainingComplete port _ => decide (port < 16)
  | .laneLoss port _ => decide (port < 16)
  | .portSignalLoss port => decide (port < 16)
  | .portSignalDetect port => decide (port < 16)
  | .retrainTimeout port => decide (port < 16)
  | .dadComplete port _ => decide (port < 16)
  | .neighborSolicitation port _ _ => decide (port < 16)
  | .neighborAdvertisement port _ _ => decide (port < 16)
  | .icmpv6EchoRequest port _ => decide (port < 16)
  | .packetTooBig port => decide (port < 16)
  | .flitNak port _ => decide (port < 16)
  | .flitDamaged port _ => decide (port < 16)
  | .flitHello port _ _ _ _ => decide (port < 16)
  | .flitTime port _ _ _ => decide (port < 16)
  | .helloSend port => decide (port < 16)
  | .ackStall port => decide (port < 16)
  | .segmentData port _ _ _ => decide (port < 16)
  | .segmentAck port _ _ _ => decide (port < 16)
  | .retransmitTimeout peer channel => decide (peer < 69632) && decide (channel < 4096)
  | .tile peer _ => decide (peer < 69632)
  | .kvShipOpen peer _ => decide (peer < 69632)
  | .kvShipAccept peer _ => decide (peer < 69632)
  | .kvShipPage peer _ => decide (peer < 69632)
  | .kvShipAbort peer _ => decide (peer < 69632)
  | .kvShipRefuse peer _ => decide (peer < 69632)
  | .rowUpd peer _ => decide (peer < 69632)
  | .rowReplInstall peer _ => decide (peer < 69632)
  | .rowReplDrop peer _ => decide (peer < 69632)
  | .rowReplAck peer _ => decide (peer < 69632)
  | .searchReq peer _ => decide (peer < 69632)
  | .searchResp peer _ => decide (peer < 69632)
  | .selectMergeMsg peer _ => decide (peer < 69632)
  | .cmdFwdForward peer _ => decide (peer < 69632)
  | .cmdFwdReply peer _ => decide (peer < 69632)
  | .cmdFwdPrepare peer _ => decide (peer < 69632)
  | .cmdFwdVote peer _ => decide (peer < 69632)
  | .cmdFwdCommit peer _ _ => decide (peer < 69632)
  | .cmdFwdAbort peer _ => decide (peer < 69632)
  | .cmdFwdDecision peer _ => decide (peer < 69632)
  | .cmdFwdDecisionAck peer _ => decide (peer < 69632)
  | .timeSyncSend _ => true
  | .timeSyncSync peer _ _ => decide (peer < 69632)
  | .timeSyncFollowUp peer _ _ => decide (peer < 69632)
  | .timeSyncDelayReq peer _ _ => decide (peer < 69632)
  | .timeSyncDelayResp peer _ _ => decide (peer < 69632)
  | .ptpSync _ _ => true
  | .ptpFollowUp _ _ => true
  | .ptpDelayReq port _ _ => decide (port < 16)
  | .ptpDelayResp _ _ _ => true
  | .heartbeat peer _ _ => decide (peer < 69632)
  | .frontViewPropose peer _ => decide (peer < 69632)
  | .frontViewAccept peer _ => decide (peer < 69632)
  | .frontViewInstall peer _ _ => decide (peer < 69632)
  | .frontViewCatchUp peer _ => decide (peer < 69632)
  | .frontViewAdj peer _ => decide (peer < 69632)
  | .clearFaults => true
  | .statusByte => true
  | .statusWord => true
  | .statusInput => true
  | .statusTemperature => true
  | .readVin => true
  | .readIin => true
  | .readTemperature1 => true
  | .readPin => true
  | .pmbusRevision => true
  | .mfrId => true
  | .mfrModel => true
  | .pmbusUnsupported _ => true
  | .alertResponse => true
  | .smbusClockTimeout => true
  | .mctpControl _ => true
  | .getVersion _ => true
  | .getCapabilities _ => true
  | .negotiateAlgorithms _ => true
  | .getDigests _ => true
  | .getCertificate _ => true
  | .challenge _ => true
  | .getMeasurements _ => true
  | .spdmUnsupportedRequest _ => true
  | .doeDiscovery _ => true
  | .tapReset => true
  | .bypass => true
  | .idcode => true
  | .samplePreload _ => true
  | .extest _ => true
  | .extestPulse _ => true
  | .extestTrain _ => true
  | .jtagPrivate _ => true
  | .pluggableInsertion cage _ => decide (cage < 8)
  | .quadrantDomainFailure quadrant => decide (quadrant < 16)
  | .busMasterEnableWrite _ => true
  | .configRegisterRead bar _ _ => decide (bar = 0 ∨ bar = 2)
  | .pairSecretMessage _ _ _ => true
  | .candidacyCheckMessage _ _ _ _ => true

end Sys2Proof
end

