-- ==== Sys2Proof/Safety.lean ====
section
/-! DEFINITION. What counts as a safe step and a safe run, and the words the claims use of a command in flight and of an instruction due. -/

namespace Sys2Proof

open Sys2Proof.Machine

/-- A step that answers a next state. -/
def SafeStep (s : State) : Prop := ∃ t, Machine.step s = .next t

/-- Every command waiting is well formed. -/
def QueueWellFormed (s : State) : Prop := ∀ c ∈ s.pending, wellFormed c = true

/-- Command `h` in flight is `f`, of the opcode of `c`, outside a transaction and no part of a front-wide command, and may run (R57): its parameters pass their checks
(R49, R64), no prepared entry locks what it changes (R72), and its commit point stands behind no command in flight. -/
def Ready (c : Command) (s : State) (h : Nat) (f : Flight) : Prop :=
  flightOf s h = some f ∧ f.op = c.op ∧ mayRun s f = true ∧ f.hdr.inTxn = false ∧ f.prep = none
    ∧ c.check s f = none ∧ (c.changes && lockedAny s (c.writes s f)) = false ∧ c.waits s f = false

/-- The command runs on this module alone: its entry member forwarded it here, or its scope names this module and no other, R36. -/
def Here (s : State) (f : Flight) : Prop := fromPeer f = true ∨ scopeModules s f.hdr = [s.fabric.view.self]

/-- The state that a commit of `c` with effect `t` leaves: what it changed advances in version, and the step counter advances (R40, R56, R67). -/
def committed (c : Command) (s : State) (f : Flight) (t : State) : State :=
  if c.changes then commitObjects (c.changed s f) t else t

/-- The outcome of a command that commits with effect `t` and reply `r`: its final record is posted and it leaves the commands in flight (R48, R56). -/
def commits (c : Command) (s : State) (f : Flight) (t : State) (r : Reply) : Result :=
  nextOf s (finish f r (committed c s f t))

/-- The outcome of a command that fails: its final record with the status and DETAIL, and no other effect, R49. -/
def rejects (s : State) (f : Flight) (st : Status) (d : Nat) : Result := nextOf s (finish f (plainReply st d) s)

/-- The outcome of a command that begins with effect `t` and ends at a later event of its own. -/
def begins (s : State) (f : Flight) (t : State) : Result := nextOf s (setFlight { f with running := true } t)

/-- Core `hart` may execute for the run `r` and stands at the instruction `w`, fetched as `f`, where no breakpoint is hit (R145, R566). -/
def Fetches (s : State) (hart : Nat) (r : Run) (c : Core) (f : Fetched) (w : Nat) : Prop :=
  mayExecute s hart = some (r, c) ∧ fetchAt c = some f ∧ f.insn = some w ∧ (c.passBreak = true ∨ breakAt s r hart c.pc.toNat = none)

/-- The word is a custom-1 instruction of a group and FUNCT7 with a row of its own (R157). -/
def IsCustom (w group f7 : Nat) : Prop := w % 128 = 0x2B ∧ coreCustom w = true ∧ vecGroup w = group ∧ bits w 31 25 = f7

/-- The vector instruction `e` of the run `r` is at the head of the cell's queue, in a quadrant that is ACTIVE, and is of a group (R156, R157). -/
def VectorTurn (s : State) (cell : Nat) (r : Run) (e : VectorEntry) (group : Nat) : Prop :=
  runOfCell s cell = some r ∧ (cellOf s cell).vectorQ.head? = some e ∧ (quadrantOf s.power (cell / 12)).state = .active
    ∧ vecGroup e.insn.toNat = group

/-- The array instruction `e` of the run `r` is at the head of the cell's queue, in a quadrant that is ACTIVE, and is of an operation (R119, R120). -/
def ArrayTurn (s : State) (cell : Nat) (r : Run) (e : ArrayEntry) (op : Nat) : Prop :=
  runOfCell s cell = some r ∧ (cellOf s cell).arrayQ.head? = some e ∧ (quadrantOf s.power (cell / 12)).state = .active
    ∧ arrayOp e.insn.toNat = op

/-- As `commits`, where the commit creates or drops an object that other modules are told of (log entry 64). -/
def announces (c : Command) (s : State) (f : Flight) (t : State) (r : Reply) : Result :=
  nextOf s (finish f r (announceObject t.frontTime f r [] (committed c s f t)))

/-- What a function-level reset leaves, R499: every ring and MSI-X entry at reset, every reservation void; sessions, tenants, memory, tiers, fronts and power stay. -/
def FunctionReset (s t : State) : Prop :=
  t.host.sq = [] ∧ t.host.msix = [] ∧ t.host.pba = [] ∧ t.host.events = [] ∧ t.host.sqErr = [] ∧ t.host.cqErr = []
    ∧ (∀ n, (cqOf t.host n).state = .disabled ∧ (cqOf t.host n).gen = (kgetD s.host.cq n CplRing.reset).gen)
    ∧ t.host.bar0 = 0 ∧ t.host.bar2 = 0 ∧ t.host.busMaster = false ∧ (∀ f ∈ t.proto.flights, f.reserved = 0)
    ∧ t.proto.sessions = s.proto.sessions ∧ t.proto.txns = s.proto.txns ∧ t.sec = s.sec ∧ t.mem = s.mem ∧ t.tiers = s.tiers ∧ t.fabric = s.fabric
    ∧ t.role = s.role ∧ t.power = s.power

/-- What a shutdown of main conversion leaves, R541: the module in STANDBY with the latch set; its memory, sessions and fronts are gone. -/
def ShutDown (s t : State) : Prop :=
  t.power.conversion = false ∧ t.power.pwrgd = false ∧ t.power.calm = s.power.calm ∧ t.power.fwReady = false
    ∧ t.mem = [] ∧ t.proto = Proto.reset ∧ t.fabric = Fabric.reset ∧ t.role = none ∧ t.faults.latch = true

/-- A message of a type from a module of the view, its reserved fields zero, of this module's own epoch where its type is judged by it: `m` is what it
says after the common header (R429, R431). -/
def Arrives (type peer : Nat) (plain : Bytes) (s : State) (m : Msg) : Prop :=
  fld plain 0 1 = type ∧ 24 ≤ plain.length ∧ zeroAt plain 1 1 = true ∧ zeroAt plain 4 4 = true ∧ khas s.fabric.view.modules peer = true
    ∧ (9 ≤ type ∨ fld plain 8 8 = s.fabric.view.epoch) ∧ m = ⟨fld plain 2 2, fld plain 8 8, fld plain 16 8, plain.drop 24⟩

/-- A CMD_FWD message of an operation from another module of the view, R430. -/
def ForwardArrives (op peer : Nat) (plain : Bytes) (s : State) (m : Msg) : Prop :=
  Arrives 0x08 peer plain s m ∧ peer ≠ s.fabric.view.self ∧ peer < 0x10000 ∧ 32 ≤ plain.length ∧ fld plain 24 1 = op

end Sys2Proof
end

