-- ==== Sys2Proof/Certificates/Slice0/Obligations.lean ====
section
/-! DEFINITION. The statements about the block. -/

open Sys2Proof Sys2Proof.Machine

/-- A step runs the command at the front of the queue. For every state and every command c: a step of the state whose queue is c followed by rest is exec of c on that state with the queue's rest. With no command waiting the block idles (DESIGN CHOICE of the model, log entry 1). (spec/02_command_protocol.md, R52) -/
def Obligations.StepRunsFrontCommand : Prop :=
  (∀ (s : State) (c : Instr) (rest : List Instr), step { s with pending := c :: rest } = exec c { s with pending := rest })
  ∧ (∀ s : State, s.pending = [] → step s = .next s)

/-- Every command answers a next state and leaves the commands that wait alone. Whatever the state, every command answers a next state, never a fault nor a refusal, and the queue of the commands that wait behind it is as it was: no reset, failure or error of the device stops the block (R56, R77, R537). (spec/02_command_protocol.md, R56, R77; spec/18_power_clocks_startup.md, R537) -/
def Obligations.EveryCommandAnswers : Prop :=
  ∀ (c : Instr) (s : State), ∃ t, exec c s = .next t ∧ t.pending = s.pending

/-- Doorbell writes: accepted, judged against the ring, counted, or ignored. With CFG_READY set, on a ring that no parity mismatch has halted: a tail or head write within the bounds of the doorbell rule stores the value and nothing else (the register's parity is rewritten); a write of the value already held changes nothing; a write outside the bounds puts the ring into ERROR with cause DOORBELL; a write to a ring that is not ENABLED is ignored and counted. A halted ring stores the value and counts the access. Before CFG_READY the page ignores writes. Each of these forms answers exec = next with that effect: sqTailWrite, cqHeadWrite. (spec/02_command_protocol.md, R51; spec/16_host_interface.md, R488; spec/17_registers.md, R504) -/
def Obligations.DoorbellWritesAreJudged : Prop :=
  (∀ (s : State) (n : Nat) (v : W32), s.power.cfgReady = true → (sqOf s.host n).halted = false →
    exec (.sqTailWrite n v) s =
      if (sqOf s.host n).state ≠ .enabled then nextOf s { s with host := { s.host with badAccess := s.host.badAccess + 1 } }
      else if v = (sqOf s.host n).tail then nextOf s s
      else if (v - (sqOf s.host n).head).toNat ≤ 2 ^ (sqOf s.host n).log2
          ∧ ((sqOf s.host n).tail - (sqOf s.host n).head).toNat ≤ (v - (sqOf s.host n).head).toNat
        then nextOf s (setSq n { sqOf s.host n with tail := v } (parityRewritten 2 (n * 0x1000) s))
      else nextOf s (sqError n 2 s))
  ∧ (∀ (s : State) (n : Nat) (v : W32), s.power.cfgReady = true → (cqOf s.host n).halted = false →
    exec (.cqHeadWrite n v) s =
      if (cqOf s.host n).state ≠ .enabled then nextOf s { s with host := { s.host with badAccess := s.host.badAccess + 1 } }
      else if v = (cqOf s.host n).head then nextOf s s
      else if ((cqOf s.host n).tail - v).toNat ≤ 2 ^ (cqOf s.host n).log2
          ∧ ((cqOf s.host n).tail - v).toNat ≤ ((cqOf s.host n).tail - (cqOf s.host n).head).toNat
        then nextOf s (setCq n { cqOf s.host n with head := v } (parityRewritten 2 (0x1000000 + n * 0x1000) s))
      else nextOf s (cqError n 2 s))
  ∧ (∀ (s : State) (n : Nat) (v : W32), s.power.cfgReady = true → (sqOf s.host n).halted = true →
    ∃ t, exec (.sqTailWrite n v) s = .next t ∧ (sqOf t.host n).tail = v ∧ t.host.badAccess = s.host.badAccess + 1
      ∧ (sqOf t.host n).halted = true ∧ t.mem = s.mem ∧ t.proto = s.proto)
  ∧ (∀ (s : State) (n : Nat) (v : W32), s.power.cfgReady = true → (cqOf s.host n).halted = true →
    ∃ t, exec (.cqHeadWrite n v) s = .next t ∧ (cqOf t.host n).head = v ∧ t.host.badAccess = s.host.badAccess + 1
      ∧ (cqOf t.host n).halted = true ∧ t.mem = s.mem ∧ t.proto = s.proto)
  ∧ (∀ (s : State) (n : Nat) (v : W32), s.power.cfgReady = false →
      exec (.sqTailWrite n v) s = .next s ∧ exec (.cqHeadWrite n v) s = .next s)

/-- Ring enables and disables. With CFG_READY set: a write of 1 to the enable of a ring that is not ENABLED, with a valid page, FW_READY set and every register of a halted ring rewritten, makes the ring ENABLED with head and tail 0 and ERR 0; a later enable of a completion ring advances CQ_GEN and voids the reservations held in it. A page that is invalid leaves the ring in its state with ERR PAGE. A write of 0 disables the ring; a completion ring's reservations are released. Registers of other rings, memory and everything outside the host port and the reservations stay. Each of these forms answers exec = next with that effect: sqEnable, sqDisable, cqEnable, cqDisable. (spec/15_security.md, R475; spec/16_host_interface.md, R490) -/
def Obligations.RingEnablesTakeEffect : Prop :=
  (∀ (s : State) (n : Nat), s.power.cfgReady = true → (sqOf s.host n).state ≠ .enabled → sqPageInvalid (sqOf s.host n) = false →
      s.power.fwReady = true → ((sqOf s.host n).halted = true → sqRewritten (sqOf s.host n) = true) →
    exec (.sqEnable n) s = nextOf s (setSq n
      { sqOf s.host n with state := .enabled, enable := true, head := 0, tail := 0, err := 0, halted := false, rewritten := [] }
      (parityRewritten 2 (0x2000000 + n * 0x1000 + 0x18) s)))
  ∧ (∀ (s : State) (n : Nat), s.power.cfgReady = true → (sqOf s.host n).state ≠ .enabled → sqPageInvalid (sqOf s.host n) = true →
    exec (.sqEnable n) s = nextOf s (setSq n { sqOf s.host n with enable := false, err := 1 } s))
  ∧ (∀ (s : State) (n : Nat), s.power.cfgReady = true →
    exec (.sqDisable n) s = nextOf s (setSq n { sqOf s.host n with state := .disabled, enable := false } s))
  ∧ (∀ (s : State) (n : Nat) (irq : Bool), s.power.cfgReady = true → (cqOf s.host n).state ≠ .enabled →
      (cqOf s.host n).enable = false → cqPageInvalid (cqOf s.host n) = false → s.power.fwReady = true →
      ((cqOf s.host n).halted = true → cqRewritten (cqOf s.host n) = true) →
      ((cqOf s.host n).onceEnabled = true → (cqOf s.host n).gen < 0xFFFF) →
    ∃ t, exec (.cqEnable n irq) s = .next t ∧ (cqOf t.host n).state = .enabled ∧ (cqOf t.host n).head = 0 ∧ (cqOf t.host n).tail = 0
      ∧ (cqOf t.host n).err = 0 ∧ (cqOf t.host n).irqEn = irq ∧ (cqOf t.host n).reserved = 0
      ∧ (cqOf t.host n).gen = (if (cqOf s.host n).onceEnabled then (cqOf s.host n).gen + 1 else (cqOf s.host n).gen)
      ∧ (∀ f ∈ t.proto.flights, f.hdr.replyRing = n → f.reserved = 0)
      ∧ (∀ m, m ≠ n → cqOf t.host m = cqOf s.host m) ∧ t.host.sq = s.host.sq ∧ t.mem = s.mem ∧ t.power = s.power ∧ t.fabric = s.fabric)
  ∧ (∀ (s : State) (n : Nat) (irq : Bool), s.power.cfgReady = true →
    ∃ t, exec (.cqDisable n irq) s = .next t ∧ (cqOf t.host n).state = .disabled ∧ (cqOf t.host n).enable = false
      ∧ (cqOf t.host n).reserved = 0 ∧ (∀ f ∈ t.proto.flights, f.hdr.replyRing = n → f.reserved = 0)
      ∧ (∀ m, m ≠ n → cqOf t.host m = cqOf s.host m) ∧ t.host.sq = s.host.sq ∧ t.mem = s.mem ∧ t.power = s.power ∧ t.fabric = s.fabric)

/-- Write-one-to-clear registers, masked enables, unmasking, PME and bus mastering. With CFG_READY set: each bit written as 1 to IRQ_EVENT, IRQ_SQ_ERR or IRQ_CQ_ERR is cleared and every other bit and the rings' states stay; a masked write of IRQ_EVENT_EN changes exactly the bits its mask selects; unmasking a vector whose pending bit is set sends it and clears the bit. A write of 1 to MOD_PARITY.VALID clears it and nothing else. Software clears PME_Status and PME_En; the bus master enable takes the value written. Each of these forms answers exec = next with that effect: modParityClear, irqEventClear, irqSqErrClear, irqCqErrClear, irqEventEnWrite, msixVectorUnmask, pmeStatusClear, busMasterEnableWrite. (spec/16_host_interface.md, R494; spec/17_registers.md, R501, R502, R511, R513, R514; spec/19_pins_board.md, R553; spec/21_faults_recovery.md, R597) -/
def Obligations.InterruptRegistersTakeWrites : Prop :=
  (∀ s : State, exec .modParityClear s = .next { s with host := { s.host with parityValid := false } })
  ∧ (∀ (s : State) (v : W32), s.power.cfgReady = true →
      exec (.irqEventClear v) s = .next { s with host := { s.host with events := s.host.events.filter (fun b => !v.getLsbD b) } })
  ∧ (∀ (s : State) (w : Nat) (v : W32), s.power.cfgReady = true →
      exec (.irqSqErrClear w v) s =
        .next { s with host := { s.host with sqErr := s.host.sqErr.filter (fun n => !(n / 32 == w && v.getLsbD (n % 32))) } })
  ∧ (∀ (s : State) (w : Nat) (v : W32), s.power.cfgReady = true →
      exec (.irqCqErrClear w v) s =
        .next { s with host := { s.host with cqErr := s.host.cqErr.filter (fun n => !(n / 32 == w && v.getLsbD (n % 32))) } })
  ∧ (∀ (s : State) (v : W32), s.power.cfgReady = true →
      ∃ t, exec (.irqEventEnWrite v) s = .next t ∧ t.mem = s.mem ∧ t.power = s.power ∧ t.host.events = s.host.events
        ∧ ∀ b, b < 16 → bitOf t.host.eventEn b =
            (if bitOf v.toNat (16 + b) && decide (b < 9) then bitOf v.toNat b else bitOf s.host.eventEn b))
  ∧ (∀ (s : State) (n : Nat), s.power.cfgReady = true →
      ∃ t, exec (.msixVectorUnmask n) s = .next t ∧ (msixEntry t.host n).masked = false ∧ t.host.pba.contains n = false
        ∧ t.outputs = (if s.host.pba.contains n then s.outputs ++ [.msix n (msixEntry s.host n).addr (msixEntry s.host n).data] else s.outputs)
        ∧ t.mem = s.mem ∧ t.host.sq = s.host.sq ∧ t.host.cq = s.host.cq)
  ∧ (∀ (s : State) (a b : Bool), exec (.pmeStatusClear a b) s =
      .next { s with host := { s.host with pmeStatus := s.host.pmeStatus && !a, pmeEn := s.host.pmeEn && !b } })
  ∧ (∀ (s : State) (b : Bool), exec (.busMasterEnableWrite b) s = .next { s with host := { s.host with busMaster := b } })

/-- Register reads and writes: what they return and what they change. A read of a configuration register returns the register's value (a free value stands in the bits the manual leaves open) and counts an access that is not aligned. A write that is not 4 bytes wide and aligned is ignored and counted; a write to MOD_SCRATCH stores the value. A read of CLK_TIME_LO returns the low half of front time and latches the high half. A write of GO to TEL_SNAP requests a snapshot, and the snapshot taken holds front time, the step counter and the counts of the moment and advances TEL_SNAP_SEQ. A peek while debug is locked reads zero, writes nothing and sets RESULT 1. The coalescing time of a completion ring raises its vector and restarts the count. Each of these forms answers exec = next with that effect: configRegisterRead, registerWrite, clkTimeLoRead, telSnap, telSnapshotTaken, dbgPeekRead, dbgPeekWrite, cqCoalExpiry. (spec/16_host_interface.md, R486, R496; spec/17_registers.md, R501, R504, R506, R507, R513, R517, R519, R520; spec/20_debug_telemetry.md, R574) -/
def Obligations.RegisterAccessesTakeEffect : Prop :=
  (∀ (s : State) (bar off : Nat), off % 4 = 0 →
      exec (.configRegisterRead bar off 0) s = nextOf s (emit (.regRead bar off
        (BitVec.ofNat 32 (regValue { s with freeCtr := s.freeCtr + 1 } (Config.freeNat s.freeCtr) bar off))) { s with freeCtr := s.freeCtr + 1 }))
  ∧ (∀ (s : State) (bar off flips : Nat), off % 4 ≠ 0 →
      exec (.configRegisterRead bar off flips) s = nextOf s { s with host := { s.host with badAccess := s.host.badAccess + 1 } })
  ∧ (∀ (s : State) (bar off size : Nat) (v : W32), size ≠ 4 ∨ off % 4 ≠ 0 →
      exec (.registerWrite bar off size v) s = .next { s with host := { s.host with badAccess := s.host.badAccess + 1 } })
  ∧ (∀ (s : State) (v : W32),
      ∃ t, exec (.registerWrite 0 0x2C 4 v) s = .next t ∧ t.host.scratch = v ∧ t.host.badAccess = s.host.badAccess ∧ t.mem = s.mem
        ∧ t.host.sq = s.host.sq ∧ t.host.cq = s.host.cq ∧ t.power = s.power)
  ∧ (∀ s : State, s.power.cfgReady = true →
      exec .clkTimeLoRead s = .next { s with
        outputs := s.outputs ++ [.regRead 0 0x41010 (BitVec.ofNat 32 s.frontTime)]
        host := { s.host with timeHi := BitVec.ofNat 32 (s.frontTime / 2 ^ 32) } })
  ∧ (∀ s : State, s.power.cfgReady = true → exec .telSnap s = .next { s with host := { s.host with snapPending := true } })
  ∧ (∀ (s : State) (now : Nat), s.host.snapPending = true →
      ∃ t, exec (.telSnapshotTaken now) s = .next t ∧ t.host.snapPending = false ∧ t.host.snapSeq = s.host.snapSeq + 1
        ∧ t.host.snap.time = BitVec.ofNat 64 t.frontTime ∧ t.host.snap.step = s.proto.stepCount
        ∧ t.host.snap.reqActive = s.serve.requests.length ∧ t.host.snap.ce = s.faults.corrected ∧ t.host.snap.ue = s.faults.uncorrected
        ∧ t.mem = s.mem ∧ t.proto = s.proto)
  ∧ (∀ s : State, s.power.cfgReady = true → s.host.peekHalted = false → s.sec.debug = false →
      exec .dbgPeekRead s = nextOf s { s with
        outputs := s.outputs ++ [.regRead 0 0x8001C 0]
        host := { s.host with
          peekResult := 1
          peekAddr := if s.host.autoInc then (s.host.peekAddr + 4) % 2 ^ 48 else s.host.peekAddr } })
  ∧ (∀ (s : State) (v : W32), s.power.cfgReady = true → s.host.peekHalted = false → s.sec.debug = false →
      exec (.dbgPeekWrite v) s = nextOf s { s with host := { s.host with
          peekResult := 1
          peekAddr := if s.host.autoInc then (s.host.peekAddr + 4) % 2 ^ 48 else s.host.peekAddr } })
  ∧ (∀ s : State, s.power.cfgReady = true → s.host.peekHalted = false → s.sec.debug = true →
        s.host.peekAddr = 0x2C → s.host.autoInc = false →
      (∃ t, exec .dbgPeekRead s = .next t ∧ t.outputs = s.outputs ++ [.regRead 0 0x8001C s.host.scratch] ∧ t.host.peekResult = 0 ∧ t.mem = s.mem)
      ∧ ∀ v : W32, ∃ t, exec (.dbgPeekWrite v) s = .next t ∧ t.host.scratch = v ∧ t.host.peekResult = 0 ∧ t.mem = s.mem)
  ∧ (∀ (s : State) (n now : Nat), (cqOf s.host n).irqEn = true → (cqOf s.host n).coalUs ≠ 0 → (cqOf s.host n).unsignalled ≠ 0 →
        (cqOf s.host n).firstUnsignalled + (cqOf s.host n).coalUs * 1000 ≤ now →
      exec (.cqCoalExpiry n now) s =
        .next (raiseVector (cqOf s.host n).vector (setCq n { cqOf s.host n with unsignalled := 0 } (advance now s))))

/-- Link events and function resets of the host port. A function-level reset with FW_READY set (or without power), a hot reset and a lost host link disable every ring, return the ring pages to reset but for CQ_GEN, clear the MSI-X table, the pending bits and the latched events, void every reservation, and leave sessions, tenants, memory, tiers and fronts; entry into D3hot keeps configuration space. A reset during a boot is held. Retraining is only counted; training reports rate and width; a lost reference clock clears CLK_REF.REFCLK; a failed read of submission slots puts that ring into ERROR and is counted; a good completion changes nothing by itself. Each of these forms answers exec = next with that effect: functionLevelReset, hotReset, hostLinkDown, d3hotEntry, d0Return, hostLinkRetrain, hostLinkTrained, refclkLoss, hostReadCompletion, hostCompletionTimeout. (spec/16_host_interface.md, R483, R494, R498, R499; spec/17_registers.md, R512; spec/19_pins_board.md, R555) -/
def Obligations.HostLinkEventsTakeEffect : Prop :=
  (∀ (s : State), (s.power.fwReady || !s.power.pwrgd) = true →
      (∃ t, exec .functionLevelReset s = .next t ∧ FunctionReset s t) ∧ (∃ t, exec .hotReset s = .next t ∧ FunctionReset s t)
      ∧ (∃ t, exec .hostLinkDown s = .next t ∧ FunctionReset s t ∧ t.host.linkRate = 0 ∧ t.host.linkWidth = 0))
  ∧ (∀ (s : State), (s.power.fwReady || !s.power.pwrgd) = false →
      exec .functionLevelReset s = nextOf s { s with host := { s.host with flrHeld := true } }
      ∧ exec .hotReset s = nextOf s { s with host := { s.host with flrHeld := true } }
      ∧ ∃ t, exec .hostLinkDown s = .next t ∧ t.host.flrHeld = true ∧ t.host.sq = s.host.sq ∧ t.host.linkRate = 0 ∧ t.mem = s.mem ∧ t.proto = s.proto)
  ∧ (∀ (s : State), (s.power.fwReady || !s.power.pwrgd) = true →
      ∃ t, exec .d3hotEntry s = .next t ∧ t.host.d3hot = true ∧ t.host.sq = [] ∧ t.host.msix = [] ∧ t.host.bar0 = s.host.bar0
        ∧ t.host.bar2 = s.host.bar2 ∧ t.host.busMaster = s.host.busMaster ∧ t.proto.sessions = s.proto.sessions ∧ t.mem = s.mem ∧ t.power = s.power)
  ∧ (∀ s : State, exec .d0Return s = .next { s with host := { s.host with d3hot := false } })
  ∧ (∀ s : State, exec .hostLinkRetrain s = .next { s with host := { s.host with retrains := s.host.retrains + 1 } })
  ∧ (∀ (s : State) (rate width : Nat) (flit : Bool),
      exec (.hostLinkTrained rate width flit) s = .next { s with host := { s.host with
        linkRate := rate, linkWidth := width, linkFlit := flit || decide (6 ≤ rate) } })
  ∧ (∀ s : State, (s.power.fwReady || !s.power.pwrgd) = true →
      ∃ t, exec .refclkLoss s = .next t ∧ t.power = { s.power with refclk := false } ∧ t.host.linkRate = 0 ∧ t.host.sq = [] ∧ t.mem = s.mem
        ∧ t.proto.sessions = s.proto.sessions)
  ∧ (∀ (s : State) (what : HostRead), exec (.hostReadCompletion what true) s = .next s)
  ∧ (∀ (s : State) (n : Nat),
      exec (.hostReadCompletion (.slots n) false) s = nextOf s (sqError n 4 (logFault 0x0004 1 2 0xB000 0 0 n 0
        { s with host := { s.host with readFails := s.host.readFails + 1 } })))
  ∧ (∀ (s : State) (n : Nat),
      exec (.hostCompletionTimeout (.slots n)) s = nextOf s (sqError n 4 (logFault 0x0004 1 2 0xB000 0 0 n 0
        { s with host := { s.host with cto := s.host.cto + 1 } })))

/-- Input power, the calm island, HV_EN, PERST_N and regulation. Cold reset: the input rises through 300 V, the calm island is in its reset, everything volatile is as after reset. The calm island's start samples SLOT_ID and MFG_MODE once and enters STANDBY. Input in range with HV_EN asserted starts main conversion as a power-cycle reset. HV_EN is ignored above 90 degrees, else it starts conversion and releases a thermal trip; its deassertion shuts a converting module down. PERST_N asserted is a module reset; released, boot may start. Rails in regulation assert PWRGD. The fault log's records and what flash and the counters hold survive. Each of these forms answers exec = next with that effect: coldReset, powerOff, calmIslandStart, inputInRange, hvEnAssert, hvEnDeassert, perstAssert, perstRelease, railsInRegulation. (spec/17_registers.md, R516; spec/18_power_clocks_startup.md, R521, R529, R536, R540, R541, R542; spec/19_pins_board.md, R543, R549, R550) -/
def Obligations.PowerEventsTakeEffect : Prop :=
  (∀ (s : State) (vin : Nat), ∃ t, exec (.coldReset vin) s = .next t
      ∧ t.power.inputUp = decide (3000 ≤ vin) ∧ t.power.calm = false ∧ t.power.conversion = false ∧ t.power.pwrgd = false
      ∧ t.frontTime = 0 ∧ t.timeRuns = false ∧ t.ticks = 0 ∧ t.mem = [] ∧ t.proto = Proto.reset ∧ t.fabric = Fabric.reset
      ∧ t.role = none ∧ t.tiers = Tiers.reset ∧ t.serve = ServeSpace.reset ∧ t.faults.latch = false ∧ t.faults.flash = s.faults.flash
      ∧ t.sec.slotA = s.sec.slotA ∧ t.sec.slotB = s.sec.slotB ∧ t.sec.floors = s.sec.floors ∧ t.sec.bootCount = s.sec.bootCount
      ∧ t.sec.tenants = [] ∧ t.sec.keySlots = [] ∧ t.sec.operatorKeys = none)
  ∧ (∀ s : State, ∃ t, exec .powerOff s = .next t ∧ t.power.inputUp = false ∧ t.power.calm = false ∧ t.mem = []
      ∧ t.proto = Proto.reset ∧ t.frontTime = 0 ∧ t.faults.flash = s.faults.flash ∧ t.faults.queue = [])
  ∧ (∀ (s : State) (slot : Nat) (mfg : Bool), s.power.inputUp = true → s.power.calm = false →
      exec (.calmIslandStart slot mfg) s = nextOf s { s with power := { s.power with
        calm := true, xtal := true, slotId := slot, mfgMode := mfg } })
  ∧ (∀ (s : State) (slot : Nat) (mfg : Bool), s.power.calm = true → exec (.calmIslandStart slot mfg) s = .next s)
  ∧ (∀ (s : State) (vin : Nat), s.power.calm = true → 7000 ≤ vin → vin ≤ 8800 → s.power.hvEn = true → s.power.thermtrip = false →
      s.power.conversion = false →
      ∃ t, exec (.inputInRange vin) s = .next t ∧ t.power.conversion = true ∧ t.power.inRange = true ∧ t.power.vin = vin
        ∧ t.power.fwReady = false ∧ t.mem = [] ∧ t.proto = Proto.reset ∧ t.faults.latch = false ∧ t.faults.watchdogStopped = false
        ∧ t.faults.flash = s.faults.flash ∧ t.sec.tenants = [])
  ∧ (∀ (s : State) (tj : Nat), 90 < tj → exec (.hvEnAssert tj) s = .next s)
  ∧ (∀ (s : State) (tj : Nat), tj ≤ 90 → s.power.hvEn = false → s.power.calm = true → s.power.inRange = true → s.power.conversion = false →
      ∃ t, exec (.hvEnAssert tj) s = .next t ∧ t.power.hvEn = true ∧ t.power.thermtrip = false ∧ t.power.conversion = true ∧ t.mem = [])
  ∧ (∀ s : State, s.power.conversion = true →
      ∃ t, exec .hvEnDeassert s = .next t ∧ t.power.hvEn = false ∧ t.power.conversion = false ∧ t.power.pwrgd = false
        ∧ t.power.inRange = s.power.inRange ∧ t.mem = [] ∧ t.proto = Proto.reset ∧ t.power.calm = s.power.calm)
  ∧ (∀ s : State, s.power.conversion = false → exec .hvEnDeassert s = nextOf s { s with power := { s.power with hvEn := false } })
  ∧ (∀ s : State, ∃ t, exec .perstAssert s = .next t ∧ t.power.perst = true ∧ t.power.refclk = false ∧ t.power.conversion = s.power.conversion
        ∧ t.power.fwReady = false ∧ t.mem = [] ∧ t.proto = Proto.reset ∧ t.host.linkRate = 0 ∧ t.host.bar0 = 0 ∧ t.faults.latch = false
        ∧ t.faults.queue = s.faults.queue ∧ t.frontTime = s.frontTime)
  ∧ (∀ s : State, exec .perstRelease s = nextOf s { s with
        power := { s.power with perst := false, refclk := s.power.pwrgd }
        host := { s.host with cfgCycles := s.power.pwrgd } })
  ∧ (∀ s : State, s.power.conversion = true → exec .railsInRegulation s = nextOf s { s with
        power := { s.power with pwrgd := true, refclk := !s.power.perst }
        host := { s.host with cfgCycles := !s.power.perst } })

/-- Failures that shut the module down or reset it. While main conversion runs, a rail failure, a brown-out, a lost oscillator and a thermal trip each write a severity-3 record with action POWER and shut the module down: conversion and PWRGD go low, the module is in STANDBY, the records stand in flash, memory and sessions are gone. A thermal trip also latches THERMTRIP_N. A failed entropy source is recorded and stops key generation. The delay of a MEMBER_RESET begins the reset it asked for. A silent isobar core causes a watchdog record and an internal reset, the fourth within 600 s stops the watchdog. A boot that is late is reset once and then stays. Each of these forms answers exec = next with that effect: railFailure, brownOut, oscillatorLoss, thermalTrip, entropyFail, resetDelayExpiry, watchdogExpiry, bootTimeout. (spec/15_security.md, R455; spec/18_power_clocks_startup.md, R538, R540, R541, R542; spec/19_pins_board.md, R544; spec/21_faults_recovery.md, R591, R599) -/
def Obligations.FailuresResetTheModule : Prop :=
  (∀ (s : State) (rail : Nat), s.power.conversion = true →
      ∃ t, exec (.railFailure rail) s = .next t ∧ ShutDown s t ∧ t.power.thermtrip = s.power.thermtrip)
  ∧ (∀ (s : State) (vin now : Nat), s.power.conversion = true → (vin < 6400 ∨ 9000 < vin) →
      ∃ t, exec (.brownOut vin now) s = .next t ∧ ShutDown s t ∧ t.power.thermtrip = s.power.thermtrip ∧ t.power.vin = vin)
  ∧ (∀ (s : State) (dom : Nat), s.power.conversion = true →
      ∃ t, exec (.oscillatorLoss dom) s = .next t ∧ ShutDown s t ∧ t.power.thermtrip = s.power.thermtrip)
  ∧ (∀ (s : State) (tj die now : Nat), s.power.pwrgd = true → 115 ≤ tj →
      ∃ t, exec (.thermalTrip tj die now) s = .next t ∧ ShutDown s t ∧ t.power.thermtrip = true)
  ∧ (∀ s : State, exec .entropyFail s = nextOf s (logFault 0x0013 3 0 0xC000 0 0 0 0 { s with sec := { s.sec with entropyFailed := true } }))
  ∧ (∀ (s : State) (now : Nat) (p : PendingReset), s.power.pendingReset = some p → p.due ≤ (advance now s).frontTime →
      ∃ t, exec (.resetDelayExpiry now) s = .next t ∧ t.power.pendingReset = none ∧ t.mem = [] ∧ t.proto = Proto.reset
        ∧ t.power.conversion = (s.power.conversion && !p.powerCycle) ∧ t.host.bar0 = (if p.powerCycle then 0 else s.host.bar0)
        ∧ t.sec.slotA = s.sec.slotA)
  ∧ (∀ (s : State) (core now : Nat), s.power.fwReady = true → kgetD s.faults.isobarReport core 0 + 100 ≤ s.ticks →
      (s.faults.watchdogResets.filter (fun t => decide (s.ticks < t + 600000))).length < 3 → s.faults.queue.length < 64 →
      ∃ t, exec (.watchdogExpiry core now) s = .next t ∧ t.power.fwReady = false ∧ t.mem = [] ∧ t.proto = Proto.reset
        ∧ t.faults.watchdogResets = s.ticks :: s.faults.watchdogResets.filter (fun t => decide (s.ticks < t + 600000))
        ∧ t.faults.watchdogStopped = s.faults.watchdogStopped ∧ (∃ r, t.faults.queue = s.faults.queue ++ [r] ∧ r.code = 0x000F ∧ r.sev = 3 ∧ r.unit = 0x9000 + core))
  ∧ (∀ (s : State) (core now : Nat), s.power.fwReady = true → kgetD s.faults.isobarReport core 0 + 100 ≤ s.ticks →
      3 ≤ (s.faults.watchdogResets.filter (fun t => decide (s.ticks < t + 600000))).length →
      ∃ t, exec (.watchdogExpiry core now) s = .next t ∧ t.power.fwReady = false ∧ t.faults.watchdogStopped = true ∧ t.proto = Proto.reset)
  ∧ (∀ s : State, s.power.fwReady = false → s.power.pwrgd = true → s.power.bootRetries = 0 → s.faults.queue.length < 64 →
      ∃ t, exec .bootTimeout s = .next t ∧ t.power.bootRetries = 1 ∧ t.power.cfgReady = false
        ∧ (∃ r, t.faults.queue = s.faults.queue ++ [r] ∧ r.code = 0x0010 ∧ r.sev = 3 ∧ r.action = 5))
  ∧ (∀ s : State, s.power.fwReady = false → s.power.pwrgd = true → s.power.bootRetries ≠ 0 →
      exec .bootTimeout s = nextOf s (logFault 0x0010 3 0 0xD000 0 0 0 0 s))

/-- Boot, readiness and recovery. A boot that may run advances BOOT_COUNT (or, with counters that do not validate, starts them at 1 and says so), sets CFG_READY, and either runs the chosen valid slot with its SVNs, build and measurements and secure boot set, or enters recovery with a BOOT record. FW_READY of a running module starts front time at 0 the first time and never turns it back, ends a trial boot by making its slot ACTIVE, and lets a held function-level reset take effect. A recovery chunk is written to slot A; while that holds no valid bundle, nothing else happens. Each of these forms answers exec = next with that effect: boot, fwReady, recoveryBundleChunk. (spec/14_fabric_links.md, R434; spec/15_security.md, R458, R459, R460, R464; spec/18_power_clocks_startup.md, R539) -/
def Obligations.BootTakesEffect : Prop :=
  (∀ (s : State) (passed : List Nat) (valid : Bool), s.power.pwrgd = true → s.power.perst = false → s.power.stage = .rom →
      s.faults.watchdogStopped = false → s.sec.lifecycle = 1 → s.sec.trial = false →
      ∃ t, exec (.boot passed valid) s = .next t ∧ t.power.cfgReady = true
        ∧ t.sec.bootCount = (if valid then s.sec.bootCount + 1 else 1)
        ∧ t.sec.countersInvalid = (s.sec.countersInvalid || !valid)
        ∧ t.mem = s.mem ∧ t.proto = s.proto ∧ t.fabric = s.fabric
        ∧ (match chooseSlot s.sec (dirOf s.sec) with
          | some (slot, trial) => t.power.stage = .running ∧ t.power.secureBootOk = true ∧ t.sec.running = some slot ∧ t.sec.trial = trial
              ∧ t.sec.svn = [bundleSvn (slotOf s.sec slot) 0, bundleSvn (slotOf s.sec slot) 1, bundleSvn (slotOf s.sec slot) 2]
              ∧ t.sec.build = bundleBuild (slotOf s.sec slot)
          | none => t.power.stage = .recovery ∧ t.power.secureBootOk = s.power.secureBootOk ∧ t.sec.running = none ∧ t.faults.latch = true))
  ∧ (∀ (s : State) (now : Nat), s.power.stage = .running → s.power.fwReady = false → s.power.secureBootOk = true →
      ∃ t, exec (.fwReady now) s = .next t ∧ t.power.fwReady = true ∧ t.power.bootRetries = 0 ∧ t.timeRuns = true
        ∧ t.frontTime = (if s.timeRuns then max s.frontTime now else 0) ∧ t.sec.trial = false ∧ t.host.flrHeld = false
        ∧ (s.host.flrHeld = true → t.host.sq = [] ∧ t.host.msix = []) ∧ (s.host.flrHeld = false → t.host.sq = s.host.sq ∧ t.host.cq = s.host.cq)
        ∧ (s.sec.trial = true → (dirOf t.sec).pending = false) ∧ t.mem = s.mem ∧ t.fabric = s.fabric)
  ∧ (∀ (s : State) (off : Nat) (b : Bytes), s.power.stage = .recovery → b.length ≤ 4096 → off + b.length ≤ 0x1F80000 →
      (s.sec.lifecycle = 1 → bundleValid s.sec.floors (Memory.writeN s.sec.slotA off b) = false) →
      exec (.recoveryBundleChunk off b) s = .next { s with sec := { s.sec with slotA := Memory.writeN s.sec.slotA off b } })

/-- Clamps, pulses, quadrant failures, pluggables and self-refresh. The fast clamp holds every cell clock at 900 MHz at most, and its end leaves the cap limit at the lower of its value and 900 MHz. Memory enters self-refresh in IDLE under the policy. A PPS edge 1 s plus or minus 1 ms after the last (or the first) locks, another is only counted; 3 s without one clear the lock. A failed quadrant domain disables the quadrant and its twelve cells. A pluggable above 12 W holds its two ports DOWN; another changes no port. Each of these forms answers exec = next with that effect: fastClamp, fastClampEnd, memSelfRefresh, ppsEdge, ppsLoss, quadrantDomainFailure, pluggableInsertion. (spec/18_power_clocks_startup.md, R525, R532, R535; spec/19_pins_board.md, R556, R560; spec/21_faults_recovery.md, R596) -/
def Obligations.ClampsAndPulsesTakeEffect : Prop :=
  (∀ (s : State) (now : Nat), ∃ t, exec (.fastClamp now) s = .next t ∧ t.power = { s.power with fastClamp := true, throttleCap := true }
      ∧ cellMhz t.power ≤ 900 ∧ t.mem = s.mem ∧ t.sec = s.sec ∧ t.proto = s.proto ∧ t.frontTime = (advance now s).frontTime)
  ∧ (∀ (s : State) (now : Nat), s.power.fastClamp = true →
      exec (.fastClampEnd now) s = nextOf s { advance now s with power := { s.power with
        fastClamp := false, capLimit := { s.power.capLimit with mhz := min 900 s.power.capLimit.mhz } } })
  ∧ (∀ (s : State) (now : Nat), powerState s.power = 2 → s.power.policy.memSr = 1 → s.power.policy.deepAfterMs ≠ 0 →
      s.power.idleSince + s.power.policy.deepAfterMs * 1000000 ≤ (advance now s).frontTime →
      exec (.memSelfRefresh now) s = .next { advance now s with power := { s.power with selfRefresh := true } })
  ∧ (∀ (s : State) (now : Nat), s.fabric.ppsEnable = 1 →
      exec (.ppsEdge now) s =
        if (match s.power.ppsLast with
            | none => true
            | some t => decide (t + 999000000 ≤ now) && decide (now ≤ t + 1001000000)) = true
        then .next { s with power := { s.power with ppsLast := some now, ppsLocked := true } }
        else .next { s with power := { s.power with ppsBad := s.power.ppsBad + 1 } })
  ∧ (∀ (s : State) (now : Nat), s.fabric.ppsEnable ≠ 1 → exec (.ppsEdge now) s = .next s)
  ∧ (∀ (s : State) (t now : Nat), s.power.ppsLast = some t → t + 3000000000 ≤ now →
      exec (.ppsLoss now) s = .next { s with power := { s.power with ppsLast := none, ppsLocked := false } })
  ∧ (∀ (s : State) (q : Nat), q < 16 →
      ∃ t, exec (.quadrantDomainFailure q) s = .next t ∧ (quadrantOf t.power q).state = .disabled ∧ (quadrantOf t.power q).thawing = false
        ∧ (∀ p, p ≠ q → quadrantOf t.power p = quadrantOf s.power p) ∧ (∀ i, i < 12 → t.faults.disabled.contains (q * 12 + i) = true)
        ∧ t.mem = s.mem ∧ t.proto = s.proto ∧ t.fabric = s.fabric)
  ∧ (∀ (s : State) (cage mw : Nat), 12000 < mw →
      ∃ t, exec (.pluggableInsertion cage mw) s = .next t ∧ kget t.power.cages cage = some mw
        ∧ (portOf t (2 * cage)).state = .down ∧ (portOf t (2 * cage + 1)).state = .down
        ∧ (∀ p, p ≠ 2 * cage → p ≠ 2 * cage + 1 → portOf t p = portOf s p) ∧ t.mem = s.mem ∧ t.fabric.view = s.fabric.view)
  ∧ (∀ (s : State) (cage mw : Nat), mw ≤ 12000 →
      exec (.pluggableInsertion cage mw) s = .next { s with power := { s.power with cages := kset s.power.cages cage mw } })

/-- A management tick: the sample, the limits, the reports, the fault log. While the calm island runs and FW_READY is not set, a tick advances the tick count, takes the sample's input voltage, current and power, moves the cap and input limits, takes the junctions only while the rails are up, notes which isobar cores reported, writes the fault queue to flash and leaves memory, sessions, fronts and tiers. Without power nothing happens. With FW_READY set the tick goes on, from the sample taken and the reports noted, to pre-thaw, shedding, heartbeats and views, and writes the fault queue last. Each of these forms answers exec = next with that effect: managementTick. (spec/18_power_clocks_startup.md, R521, R527, R528; spec/19_pins_board.md, R552; spec/20_debug_telemetry.md, R587; spec/21_faults_recovery.md, R594) -/
def Obligations.ManagementTickTakesSample : Prop :=
  (∀ (s : State) (x : TickSample), s.power.calm = false → exec (.managementTick x) s = nextOf s s)
  ∧ (∀ (s : State) (x : TickSample), s.power.calm = true → s.power.fwReady = false → x.upset = [] → s.faults.dropped = 0 →
      ∃ t, exec (.managementTick x) s = .next t ∧ t.ticks = s.ticks + 1 ∧ t.power = tickPower x s.power
        ∧ t.power.vin = x.vin ∧ t.power.iin = x.iin ∧ t.power.pinAvg = x.pinAvg
        ∧ t.power.tj = (if s.power.pwrgd then x.tj else s.power.tj)
        ∧ t.power.statusInput = s.power.statusInput ||| inputCauses x.vin
        ∧ t.faults.queue = [] ∧ (s.faults.queue.length + s.faults.flash.length ≤ 126976 → t.faults.flash = s.faults.flash ++ s.faults.queue)
        ∧ t.mem = s.mem ∧ t.proto = s.proto ∧ t.fabric = s.fabric ∧ t.tiers = s.tiers)
  ∧ (∀ (s : State) (x : TickSample), s.power.calm = true → x.upset = [] →
      ∃ u, exec (.managementTick x) s = nextOf s (flushFaults (tickReady u)) ∧ u.ticks = s.ticks + 1 ∧ u.power = tickPower x s.power
        ∧ u.frontTime = (advance x.now s).frontTime ∧ u.mem = s.mem ∧ u.proto = s.proto ∧ u.fabric = s.fabric ∧ u.sched = s.sched
        ∧ (∀ c ∈ x.reporting, c < 8 → kgetD u.faults.isobarReport c 0 = u.ticks))

/-- PMBus commands: what each answers and leaves. While the calm island runs: each PMBus read answers its bytes (status byte and word from the status bits and PWRGD; voltage, current, temperature and power in LINEAR11 from the last sample; the revision 0x33; the manufacturer's ID and model as blocks) and changes nothing else; CLEAR_FAULTS clears exactly the status bits whose causes have ended; an unsupported code is answered by a NACK and sets CML; an alert response answers the target's address while ALERT_N is low and releases it; a clock timeout changes nothing. Without power nothing is answered. Each of these forms answers exec = next with that effect: statusByte, statusWord, statusInput, statusTemperature, readVin, readIin, readTemperature1, readPin, pmbusRevision, mfrId, mfrModel, clearFaults, pmbusUnsupported, alertResponse, smbusClockTimeout. (spec/19_pins_board.md, R551, R552) -/
def Obligations.PmbusCommandsAnswer : Prop :=
  (∀ s : State, s.power.calm = true →
      exec .statusByte s = .next (emit (.smbus (toLe 1 (64 * b2n (!s.power.pwrgd) + 4 * b2n (s.power.statusTemp != 0) + 2 * b2n s.power.cml))) s)
      ∧ exec .statusWord s = .next (emit (.smbus (toLe 2 (64 * b2n (!s.power.pwrgd) + 4 * b2n (s.power.statusTemp != 0)
          + 2 * b2n s.power.cml + 8192 * b2n (s.power.statusInput != 0)))) s)
      ∧ exec .statusInput s = .next (emit (.smbus (toLe 1 s.power.statusInput)) s)
      ∧ exec .statusTemperature s = .next (emit (.smbus (toLe 1 s.power.statusTemp)) s)
      ∧ exec .readVin s = .next (emit (.smbus (toLe 2 (linear11 s.power.vin 10))) s)
      ∧ exec .readIin s = .next (emit (.smbus (toLe 2 (linear11 s.power.iin 1000))) s)
      ∧ exec .readTemperature1 s = .next (emit (.smbus (toLe 2 (if s.power.tjKnown then linear11 s.power.tj 1 else 0))) s)
      ∧ exec .readPin s = .next (emit (.smbus (toLe 2 (linear11 s.power.pinAvg 1))) s)
      ∧ exec .pmbusRevision s = .next (emit (.smbus [0x33]) s)
      ∧ exec .mfrId s = .next (emit (.smbus (7 :: ascii "SITHIRE")) s)
      ∧ exec .mfrModel s = .next (emit (.smbus (14 :: ascii "SXP1536-HV8-LQ")) s)
      ∧ exec .clearFaults s = .next { s with power := { s.power with
          statusInput := s.power.statusInput &&& inputCauses s.power.vin
          statusTemp := s.power.statusTemp &&& tempCauses s.power.tj
          cml := false } })
  ∧ (∀ s : State, s.power.calm = false → ∀ i ∈ [Instr.statusByte, .statusWord, .statusInput, .statusTemperature, .readVin, .readIin,
      .readTemperature1, .readPin, .pmbusRevision, .mfrId, .mfrModel, .clearFaults], exec i s = .next s)
  ∧ (∀ (s : State) (code : Nat), s.power.calm = true →
      code ∉ [0x03, 0x78, 0x79, 0x7C, 0x7D, 0x88, 0x89, 0x8D, 0x97, 0x98, 0x99, 0x9A] →
      exec (.pmbusUnsupported code) s = .next { s with
        outputs := s.outputs ++ [.smbus []], power := { s.power with cml := true, alertAnswered := false } })
  ∧ (∀ s : State, alertN s.power = false →
      exec .alertResponse s = .next { s with
        outputs := s.outputs ++ [.smbus (toLe 1 ((0x40 + s.power.slotId) * 2))], power := { s.power with alertAnswered := true } })
  ∧ (∀ s : State, alertN s.power = true → exec .alertResponse s = .next s)
  ∧ (∀ s : State, exec .smbusClockTimeout s = .next s)

/-- MCTP, SPDM, DOE and the TAP answer. MCTP control is answered while the calm island runs. SPDM is answered while the security processor is clocked: GET_VERSION names versions 1.2 and 1.3 and starts the negotiation again; a request before its stage gets ERROR UnexpectedRequest; at its stage each request gets the response of its code and moves the negotiation on; an unsupported one gets ERROR UnsupportedRequest. DOE discovery lists three objects. The TAP loads each instruction and shifts out 0 for BYPASS, 0x41536A5D for IDCODE and, for the boundary instructions, the pins while PWRGD is high; a private instruction acts as BYPASS while debug is locked; a TAP reset selects IDCODE. Nothing else changes. Each of these forms answers exec = next with that effect: mctpControl, getVersion, spdmUnsupportedRequest, getCapabilities, negotiateAlgorithms, getDigests, getCertificate, challenge, getMeasurements, doeDiscovery, bypass, idcode, tapReset, samplePreload, extest, extestPulse, extestTrain, jtagPrivate. (spec/00_scope.md, R12; spec/15_security.md, R465, R468, R473; spec/16_host_interface.md, R482; spec/18_power_clocks_startup.md, R530; spec/19_pins_board.md, R554) -/
def Obligations.ManagementInterfacesAnswer : Prop :=
  (∀ (s : State) (b : Bytes), s.power.calm = true → exec (.mctpControl b) s = .next (emit (.mctp (Config.mctpAnswer b)) s))
  ∧ (∀ (s : State) (b : Bytes), s.power.pwrgd = true → s.power.stage ≠ .rom →
      exec (.getVersion b) s = .next (emit (.doe ([0x12, 0x04, 0, 0, 0, 2, 0x00, 0x12, 0x00, 0x13])) { s with sec := { s.sec with spdm := .version } })
      ∧ exec (.spdmUnsupportedRequest b) s = .next (emit (.doe ([0x12, 0x7F, 0x07] ++ slice b 1 1)) s))
  ∧ (∀ (s : State) (b : Bytes), s.power.pwrgd = true → s.power.stage ≠ .rom → s.sec.spdm = .start →
      ∀ i ∈ [Instr.getCapabilities b, .negotiateAlgorithms b, .getDigests b, .getCertificate b, .challenge b, .getMeasurements b],
        exec i s = .next (emit (.doe [0x12, 0x7F, 0x04, 0]) s))
  ∧ (∀ (s : State) (b : Bytes), s.power.pwrgd = true → s.power.stage ≠ .rom → s.sec.spdm = .negotiated →
      exec (.getCapabilities b) s = .next (emit (.doe ([0x12, 0x61] ++ Config.spdmAnswer 0x61 b)) { s with sec := { s.sec with spdm := .capabilities } })
      ∧ exec (.negotiateAlgorithms b) s = .next (emit (.doe ([0x12, 0x63] ++ Config.spdmAnswer 0x63 b)) s)
      ∧ exec (.getDigests b) s = .next (emit (.doe ([0x12, 0x01, 0, 1] ++ sha384Bytes Config.certChains)) s)
      ∧ (∃ head : Bytes, exec (.getCertificate b) s =
          .next (emit (.doe ([0x12, 0x02] ++ head ++ slice Config.certChains (fld b 4 2) (fld b 6 2))) s) ∧ head.length = 6)
      ∧ (∃ body : Bytes, exec (.challenge b) s = .next (emit (.doe ([0x12, 0x03] ++ body)) s))
      ∧ (∃ head : Bytes, fld b 3 1 = 1 → exec (.getMeasurements b) s =
          .next (emit (.doe ([0x12, 0x60] ++ head ++ toLe 48 (s.sec.mr.getD 0 0).toNat)) s)))
  ∧ (∀ s : State, s.host.cfgCycles = true →
      exec (.doeDiscovery 0) s = .next (emit (.doe [0x01, 0x00, 0x00, 1]) s) ∧ exec (.doeDiscovery 1) s = .next (emit (.doe [0x01, 0x00, 0x01, 2]) s)
      ∧ exec (.doeDiscovery 2) s = .next (emit (.doe [0x5C, 0x2A, 0x01, 0]) s))
  ∧ (∀ (s : State) (pins : Nat), s.power.calm = true →
      exec .bypass s = .next { s with outputs := s.outputs ++ [.tdo 0], power := { s.power with tap := .bypass } }
      ∧ exec .idcode s = .next { s with outputs := s.outputs ++ [.tdo 0x41536A5D], power := { s.power with tap := .idcode } }
      ∧ exec .tapReset s = .next { s with power := { s.power with tap := .idcode } }
      ∧ exec (.samplePreload pins) s = .next { s with
          outputs := s.outputs ++ [.tdo (if s.power.pwrgd then pins else 0)], power := { s.power with tap := .samplePreload } }
      ∧ exec (.extest pins) s = .next { s with
          outputs := s.outputs ++ [.tdo (if s.power.pwrgd then pins else 0)], power := { s.power with tap := .extest } }
      ∧ exec (.extestPulse pins) s = .next { s with
          outputs := s.outputs ++ [.tdo (if s.power.pwrgd then pins else 0)], power := { s.power with tap := .extestPulse } }
      ∧ exec (.extestTrain pins) s = .next { s with
          outputs := s.outputs ++ [.tdo (if s.power.pwrgd then pins else 0)], power := { s.power with tap := .extestTrain } })
  ∧ (∀ (s : State) (code : Nat), s.power.calm = true → s.sec.debug = false →
      exec (.jtagPrivate code) s = .next { s with outputs := s.outputs ++ [.tdo 0], power := { s.power with tap := .bypass } })
  ∧ (∀ (s : State) (code : Nat), s.power.calm = true → s.sec.debug = true →
      exec (.jtagPrivate code) s = .next { s with
        freeCtr := s.freeCtr + 1
        outputs := s.outputs ++ [.tdo (Config.freeNat s.freeCtr + code)]
        power := { s.power with tap := .privateInstr } })

/-- Array instructions: issue, MMA, MLD, MDR, MRS and MFENCE. A legal array instruction that a core stands at, with room in the queue, enters the cell's queue with the values of its source registers and the array CSRs, and retires (pc + 4, one instruction). At the head of the queue, with no parity or ECC event, no poisoned word among what it reads, no fault and no NaN to trap: MLD ZERO starts a tile of zero accumulators; MLD, MDR, MRS and MMA leave the cell, the counts and the stores their rule gives, and the instruction leaves the queue. MFENCE retires once no earlier array instruction of its core is left and waits until then. A parity mismatch of the accumulators ends the command. Each of these forms answers exec = next with that effect: arrayIssue, mld, mdr, mrs, mma, mfence. (spec/04_squall_arrays.md, R118, R119, R125, R126, R127, R128, R130, R131) -/
def Obligations.ArrayInstructionsComplete : Prop :=
  (∀ (s : State) (hart : Nat) (r : Run) (c : Core) (f : Fetched) (w : Nat), Fetches s hart r c f w → w % 128 = 0x0B → arrayOp w ≠ 4 →
      arrayIssueFault w (arrayCfg (arrayCsrs c)) (issueSkinny (cellOf s (hart / 8))) = none → (cellOf s (hart / 8)).arrayQ.length < 16 →
      exec (.arrayIssue hart) s = nextOf s (settleStep r.serial (retireCustom r hart c (noteHigh (hart / 8) 0 ((cellOf s (hart / 8)).arrayQ.length + 1)
        (setCell (hart / 8) { cellOf s (hart / 8) with arrayQ := (cellOf s (hart / 8)).arrayQ ++
          [⟨BitVec.ofNat 32 w, (xget c (bits w 19 15)).toNat, (xget c (bits w 24 20)).toNat, arrayCsrs c, hart, c.pc⟩] } s)))))
  ∧ (∀ (s : State) (cell : Nat) (r : Run) (e : ArrayEntry), ArrayTurn s cell r e 1 → bitOf e.insn.toNat 26 = true →
      exec (.mld cell .none) s = nextOf s (settleStep r.serial (popArray cell (countRun r.serial NumCounts.zero (setCell cell
        { cellOf s cell with acc := [], skinny := bitOf e.insn.toNat 25, group := 0, tail := false }
        (bump .arrLoad cell 1 (bump .arrSkinny cell (b2n (bitOf e.insn.toNat 25)) (bump .arrTail cell (if (cellOf s cell).tail then 6 else 0) s))))))))
  ∧ (∀ (s : State) (cell : Nat) (r : Run) (e : ArrayEntry), ArrayTurn s cell r e 1 → bitOf e.insn.toNat 26 = false →
      scratchPoison s cell e.rs1 (((if bitOf e.insn.toNat 25 then min 16 (arrayCfg e.csrs).mv else (arrayCfg e.csrs).mv) - 1) * e.rs2 + 4 * (arrayCfg e.csrs).nv) = none →
      (mldExec (scratchReader s cell) (cellOf s cell) e).fault = none →
      (trapsNan r.numeric = false ∨ (mldExec (scratchReader s cell) (cellOf s cell) e).nans = []) →
      ∃ t, exec (.mld cell .none) s = nextOf s (settleStep r.serial (popArray cell t))
        ∧ cellOf t cell = (mldExec (scratchReader s cell) (cellOf s cell) e).cell ∧ t.mem = s.mem ∧ t.tiers = s.tiers)
  ∧ (∀ (s : State) (cell : Nat) (r : Run) (e : ArrayEntry), ArrayTurn s cell r e 2 → (mdrExec (cellOf s cell) e).fault = none →
      (trapsNan r.numeric = false ∨ (mdrExec (cellOf s cell) e).nans = []) →
      exec (.mdr cell none) s = nextOf s (settleStep r.serial (popArray cell ((mdrExec (cellOf s cell) e).stores.foldl
        (fun t x => scratchWrite cell x.1 x.2 0xFFFF t) (countRun r.serial (mdrExec (cellOf s cell) e).counts (setCell cell (mdrExec (cellOf s cell) e).cell
          (bump .arrDrain cell (if (cellOf s cell).skinny then 20 else 128) (bump .arrTail cell (if (cellOf s cell).tail then 6 else 0) s))))))))
  ∧ (∀ (s : State) (cell : Nat) (r : Run) (e : ArrayEntry), ArrayTurn s cell r e 3 → scratchPoison s cell e.rs1 512 = none →
      (mrsExec (scratchReader s cell) (cellOf s cell) e).fault = none →
      (trapsNan r.numeric = false ∨ (mrsExec (scratchReader s cell) (cellOf s cell) e).nans = []) →
      ∃ t, exec (.mrs cell none .none) s = nextOf s (settleStep r.serial (popArray cell t))
        ∧ (∀ m n, accGet (cellOf t cell) m n = accGet (mrsExec (scratchReader s cell) (cellOf s cell) e).cell m n) ∧ t.mem = s.mem ∧ t.tiers = s.tiers)
  ∧ (∀ (s : State) (cell : Nat) (r : Run) (e : ArrayEntry), ArrayTurn s cell r e 0 →
      poisonedRead s cell (mmaReads s cell e) = none →
      (mmaExec (scratchReader s cell) (trapsNan r.numeric) (cellOf s cell) e).fault = none →
      (trapsNan r.numeric = false ∨ (mmaExec (scratchReader s cell) (trapsNan r.numeric) (cellOf s cell) e).nans = []) →
      ∃ t, exec (.mma cell none .none) s = nextOf s (settleStep r.serial (popArray cell t))
        ∧ (cellOf t cell).group = (cellOf s cell).group + (arrayCfg e.csrs).groups ∧ (cellOf t cell).tail = true
        ∧ (∀ m n, accGet (cellOf t cell) m n = accGet (mmaExec (scratchReader s cell) (trapsNan r.numeric) (cellOf s cell) e).cell m n)
        ∧ t.mem = s.mem ∧ t.tiers = s.tiers)
  ∧ (∀ (s : State) (cell row : Nat) (r : Run) (e : ArrayEntry), ArrayTurn s cell r e 2 →
      exec (.mdr cell (some row)) s = nextOf s (accumulatorParity r cell row s))
  ∧ (∀ (s : State) (hart : Nat) (r : Run) (c : Core) (f : Fetched) (w : Nat), Fetches s hart r c f w → w % 128 = 0x0B → arrayOp w = 4 →
      arrayIssueFault w (arrayCfg []) false = none →
      exec (.mfence hart) s = nextOf s (settleStep r.serial
        (if (cellOf s (hart / 8)).arrayQ.any (fun e => e.hart == hart) then stallCore hart c .fence s else retireCustom r hart c s)))

/-- Lane operations of the vector unit. An arithmetic, bitwise, comparing or selecting vector instruction at the head of its queue, with no NaN to trap, writes to each of the 128 lanes of vd the operation of the lanes of vs1 and vs2 (VFMA and VSEL also use the old vd), counts what it met, and leaves the queue. VSCAL does the same with x[rs2][31:0] in every lane. Each of these forms answers exec = next with that effect: vadd, vsub, vmul, vfma, vmax, vmin, vdiv, vsqrt, vrsq, vrcp, vexp2, vlog2, vand, vor, vxor, vcmplt, vsel, vscal. (spec/05_vane_cores_scratchpads.md, R157, R158) -/
def Obligations.VectorLaneOperationsComplete : Prop :=
  (∀ p ∈ ([(Instr.vadd, 0x00, fun a b _ => (f32Add a b).1), (Instr.vsub, 0x01, fun a b _ => (f32Sub a b).1),
        (Instr.vmul, 0x02, fun a b _ => (f32Mul a b).1), (Instr.vfma, 0x03, fun a b d => (f32Fma a b d).1),
        (Instr.vmax, 0x04, fun a b _ => f32Max a b), (Instr.vmin, 0x05, fun a b _ => f32Min a b),
        (Instr.vdiv, 0x06, fun a b _ => (f32Div a b).1), (Instr.vsqrt, 0x08, fun a _ _ => (f32Sqrt a).1),
        (Instr.vrsq, 0x09, fun a _ _ => (f32Rsq a).1), (Instr.vrcp, 0x0A, fun a _ _ => (f32Div f32One a).1),
        (Instr.vexp2, 0x0B, fun a _ _ => (f32Exp2 a).1), (Instr.vlog2, 0x0C, fun a _ _ => (f32Log2 a).1),
        (Instr.vand, 0x10, fun a b _ => a &&& b), (Instr.vor, 0x11, fun a b _ => a ||| b), (Instr.vxor, 0x12, fun a b _ => a ^^^ b),
        (Instr.vcmplt, 0x13, fun a b _ => if f32Lt a b then 0xFFFFFFFF else 0), (Instr.vsel, 0x14, fun a b d => if d ≠ 0 then a else b)]
        : List ((Nat → Instr) × Nat × (Nat → Nat → Nat → Nat))),
    ∀ (s : State) (cell : Nat) (r : Run) (e : VectorEntry), VectorTurn s cell r e 0 → bits e.insn.toNat 31 25 = p.2.1 →
      (trapsNan r.numeric = false ∨ (arithExec (cellOf s cell) p.2.1 (bits e.insn.toNat 11 7) (bits e.insn.toNat 19 15)
        (vget (cellOf s cell) (bits e.insn.toNat 24 20))).nans = []) →
      ∃ n, exec (p.1 cell) s = nextOf s (settleStep r.serial (popVector cell (countRun r.serial n (setCell cell
        (vsetLanes (cellOf s cell) (bits e.insn.toNat 11 7) ((List.range 128).map (fun l =>
          p.2.2 (vget (cellOf s cell) (bits e.insn.toNat 19 15) l) (vget (cellOf s cell) (bits e.insn.toNat 24 20) l)
            (vget (cellOf s cell) (bits e.insn.toNat 11 7) l)))) s)))))
  ∧ (∀ (s : State) (cell : Nat) (r : Run) (e : VectorEntry), VectorTurn s cell r e 1 →
      (trapsNan r.numeric = false ∨ (arithExec (cellOf s cell) (bits e.insn.toNat 31 25) (bits e.insn.toNat 11 7) (bits e.insn.toNat 19 15)
        (fun _ => e.rs2 % 2 ^ 32)).nans = []) →
      ∃ n, exec (.vscal cell) s = nextOf s (settleStep r.serial (popVector cell (countRun r.serial n (setCell cell
        (vsetLanes (cellOf s cell) (bits e.insn.toNat 11 7) ((List.range 128).map (fun l =>
          (laneOp (bits e.insn.toNat 31 25) (vget (cellOf s cell) (bits e.insn.toNat 19 15) l) (e.rs2 % 2 ^ 32)
            (vget (cellOf s cell) (bits e.insn.toNat 11 7) l)).1))) s)))))

/-- Vector registers read back what was written, and no other register changes. After the 128 lanes of a vector register are written, each lane reads what was written to it, and every lane of every other register reads as before. (spec/05_vane_cores_scratchpads.md, R156, R161) -/
def Obligations.VectorRegisterReadsBack : Prop :=
  ∀ (c : Cell) (v : Nat) (x : List Nat), x.length = 128 →
    (∀ l, l < 128 → vget (vsetLanes c v x) v l = x.getD l 0)
    ∧ (∀ u l, u ≠ v → l < 128 → vget (vsetLanes c v x) u l = vget c u l)

/-- Vector memory, reductions, lane moves, conversion, seeding and fences. A legal vector instruction with room in the queue enters it and retires (VEXTR keeps its core waiting). At the head of the queue: VLD loads the low SIZE bytes of a register and zeroes the rest; VST stores the low SIZE bytes; VREDSUM and VREDMAX write the seven-level tree of the 128 lanes into every lane; VEXTR writes a lane to x[rd] and lets the core go on; VINS replaces one lane; VCVT leaves what the conversion rule gives; VSEED seeds every lane's generator. A misaligned VLD or VST faults with CAUSE 2. VFENCE waits until no earlier vector instruction of its core is left. Each of these forms answers exec = next with that effect: vectorIssue, vld, vst, vredsum, vredmax, vextr, vins, vcvt, vseed, vfence. (spec/03_number_formats.md, R90, R96, R98; spec/05_vane_cores_scratchpads.md, R158, R159, R161, R179) -/
def Obligations.VectorMovesComplete : Prop :=
  (∀ (s : State) (hart : Nat) (r : Run) (c : Core) (f : Fetched) (w : Nat), Fetches s hart r c f w → w % 128 = 0x2B → coreCustom w = false →
      vectorLegal w (csrOf c 0x8C0).toNat = true → c.stall ≠ .extract → (cellOf s (hart / 8)).vectorQ.length < 16 →
      ∀ u, u = noteHigh (hart / 8) 1 ((cellOf s (hart / 8)).vectorQ.length + 1)
        (setCell (hart / 8) { cellOf s (hart / 8) with vectorQ := (cellOf s (hart / 8)).vectorQ ++
          [⟨BitVec.ofNat 32 w, (xget c (bits w 19 15)).toNat, (xget c (bits w 24 20)).toNat, csrOf c 0x8C0, hart, c.pc⟩] } s) →
      exec (.vectorIssue hart) s = nextOf s (settleStep r.serial
        (if vecGroup w = 3 ∧ bits w 31 25 = 2 then stallCore hart c .extract u else retireCustom r hart c u)))
  ∧ (∀ (s : State) (cell : Nat) (r : Run) (e : VectorEntry), VectorTurn s cell r e 2 → bitOf e.insn.toNat 25 = false →
      e.rs1 % 64 = 0 → inScratch e.rs1 (vmemBytes e.insn.toNat) = true → scratchPoison s cell e.rs1 (vmemBytes e.insn.toNat) = none →
      exec (.vld cell .none) s = nextOf s (settleStep r.serial (popVector cell (setCell cell
        (vsetLanes (cellOf s cell) (bits e.insn.toNat 11 7) (lanesOf (scratchRead s cell e.rs1 (vmemBytes e.insn.toNat)))) s))))
  ∧ (∀ (s : State) (cell : Nat) (r : Run) (e : VectorEntry), VectorTurn s cell r e 2 → bitOf e.insn.toNat 25 = true →
      e.rs1 % 64 = 0 → inScratch e.rs1 (vmemBytes e.insn.toNat) = true →
      exec (.vst cell) s = nextOf s (settleStep r.serial (popVector cell
        (scratchWrite cell e.rs1 ((vbytes (cellOf s cell) (bits e.insn.toNat 11 7)).take (vmemBytes e.insn.toNat)) 0xFFFF s))))
  ∧ (∀ (s : State) (cell : Nat) (r : Run) (e : VectorEntry), VectorTurn s cell r e 2 → e.rs1 % 64 ≠ 0 →
      ∀ i ∈ (if bitOf e.insn.toNat 25 then [Instr.vst cell] else [Instr.vld cell .none]),
        exec i s = nextOf s (faultRun r e.hart 2 .outOfRange 0 e.pc.toNat e.rs1 e.insn.toNat s))
  ∧ (∀ p ∈ ([(Instr.vredsum, 0, f32Add), (Instr.vredmax, 1, maxCounted)] : List ((Nat → Instr) × Nat × (Nat → Nat → Nat × NumCounts))),
      ∀ (s : State) (cell : Nat) (r : Run) (e : VectorEntry), VectorTurn s cell r e 3 → bits e.insn.toNat 31 25 = p.2.1 →
      (trapsNan r.numeric = false ∨ ((∀ x ∈ vlanes (cellOf s cell) (bits e.insn.toNat 19 15), f32IsNan x = false)
        ∧ f32IsNan (reduceLanes p.2.2 (vlanes (cellOf s cell) (bits e.insn.toNat 19 15))).1 = false)) →
      exec (p.1 cell) s = nextOf s (settleStep r.serial (popVector cell (countRun r.serial
        (reduceLanes p.2.2 (vlanes (cellOf s cell) (bits e.insn.toNat 19 15))).2 (setCell cell
          (vsetLanes (cellOf s cell) (bits e.insn.toNat 11 7)
            (List.replicate 128 (reduceLanes p.2.2 (vlanes (cellOf s cell) (bits e.insn.toNat 19 15))).1)) s)))))
  ∧ (∀ (s : State) (cell : Nat) (r : Run) (e : VectorEntry), VectorTurn s cell r e 3 → bits e.insn.toNat 31 25 = 2 → bits e.insn.toNat 11 7 ≠ 0 →
      ∃ k, exec (.vextr cell) s = nextOf s (settleStep r.serial (setCore e.hart k (popVector cell s)))
        ∧ xget k (bits e.insn.toNat 11 7) = BitVec.ofNat 64 (vget (cellOf s cell) (bits e.insn.toNat 19 15) (e.rs2 % 128))
        ∧ k.pc = (coreOf s e.hart).pc + 4 ∧ k.instret = (coreOf s e.hart).instret + 1 ∧ k.stall = .none
        ∧ (∀ n, n ≠ bits e.insn.toNat 11 7 → n < 32 → xget k n = xget (coreOf s e.hart) n))
  ∧ (∀ (s : State) (cell : Nat) (r : Run) (e : VectorEntry), VectorTurn s cell r e 3 → bits e.insn.toNat 31 25 = 3 →
      exec (.vins cell) s = nextOf s (settleStep r.serial (popVector cell (setCell cell (vsetLanes (cellOf s cell) (bits e.insn.toNat 11 7)
        ((vlanes (cellOf s cell) (bits e.insn.toNat 11 7)).set (e.rs2 % 128) (e.rs1 % 2 ^ 32))) s))))
  ∧ (∀ (s : State) (cell : Nat) (r : Run) (e : VectorEntry), VectorTurn s cell r e 6 →
      (trapsNan r.numeric = false ∨ (vcvtExec (cellOf s cell) e.insn.toNat e.vcvtcfg.toNat).nans = []) →
      exec (.vcvt cell) s = nextOf s (settleStep r.serial (popVector cell (countRun r.serial (vcvtExec (cellOf s cell) e.insn.toNat e.vcvtcfg.toNat).counts
        (setCell cell (vcvtExec (cellOf s cell) e.insn.toNat e.vcvtcfg.toNat).cell s)))))
  ∧ (∀ (s : State) (cell : Nat) (r : Run) (e : VectorEntry), VectorTurn s cell r e 5 →
      exec (.vseed cell) s = nextOf s (settleStep r.serial (popVector cell (setCell cell
        { cellOf s cell with lanes := (List.range 128).map (fun l => (l, laneSeed (e.rs1 % 2 ^ 32) l)) } s))))
  ∧ (∀ (s : State) (hart : Nat) (r : Run) (c : Core) (f : Fetched) (w : Nat), Fetches s hart r c f w → IsCustom w 5 4 →
      exec (.vfence hart) s = nextOf s (settleStep r.serial
        (if (cellOf s (hart / 8)).vectorQ.any (fun e => e.hart == hart) then stallCore hart c .fence s else retireCustom r hart c s)))

/-- Core instructions of the DMA, barrier and window groups, ECALL, EBREAK and scalar instructions. A scalar instruction that retires leaves the core its rule gives, stores through the core's store path, and touches no other core; ECALL ends the core's part of the run; EBREAK without an armed breakpoint faults with CAUSE 8 and with one halts the run; DSUB of a good descriptor takes a free tag, writes it to x[rd] and adds the transfer, a misaligned descriptor address faults with CAUSE 1; DWAIT retires once its tag is free, DPOLL writes the mask of free tags; a read of cycle adds a free value for the cycles waited; a BAR, of the run or of cores of the cell, waits, and lets its participants go on once all have arrived; WOPEN opens a window, WCLOSE closes it. Each of these forms answers exec = next with that effect: scalarInstruction, ecall, ebreak, dsub, dwait, dpoll, bar, wopen, wclose. (spec/05_vane_cores_scratchpads.md, R145, R164, R165, R167, R168, R170, R171, R178, R179; spec/20_debug_telemetry.md, R566) -/
def Obligations.CoreInstructionsComplete : Prop :=
  (∀ (s : State) (hart : Nat) (r : Run) (c c0 c1 : Core) (f : Fetched) (w n : Nat) (st : Option (Nat × Bytes)) (u : State), Fetches s hart r c f w →
      waitCycles hart w c s = (c0, u) → scalarExec c0 (scratchReader u (hart / 8)) u.frontTime w f.len = .retire c1 n st →
      (scalarReads c0 w).bind (fun x => scratchPoison u (hart / 8) x.1 x.2) = none →
      exec (.scalarInstruction hart .none) s = nextOf s (settleStep r.serial (coreStore hart st (afterRetire r hart c1) u)))
  ∧ (∀ (s : State) (hart w : Nat) (c : Core), ¬(w % 128 = 0x73 ∧ bits w 31 20 = 0xC00) → waitCycles hart w c s = (c, s))
  ∧ (∀ (s : State) (hart w : Nat) (c : Core), w % 128 = 0x73 → bits w 31 20 = 0xC00 → (waitCycles hart w c s).1.pc = c.pc
      ∧ (∀ n, xget (waitCycles hart w c s).1 n = xget c n) ∧ (waitCycles hart w c s).2.mem = s.mem ∧ (waitCycles hart w c s).2.frontTime = s.frontTime)
  ∧ (∀ (s : State) (hart : Nat) (r : Run) (c : Core) (f : Fetched), Fetches s hart r c f 0x73 → r.halt = .none →
      exec (.ecall hart) s = nextOf s (settleStep r.serial (setCore hart
        { c with life := .ended, stall := .none, passBreak := false, instret := c.instret + 1, cycle := c.cycle + 1 } s)))
  ∧ (∀ (s : State) (hart : Nat) (r : Run) (c : Core) (f : Fetched), Fetches s hart r c f 0x100073 →
      s.dbg.breaks.find? (fun b => b.kind == 1 && b.handle == r.handle) = none →
      exec (.ebreak hart) s = nextOf s (settleStep r.serial (faultRun r hart 8 .badParam 0 c.pc.toNat 0 f.raw s)))
  ∧ (∀ (s : State) (hart : Nat) (r : Run) (c : Core) (f : Fetched) (b : Breakpoint), Fetches s hart r c f 0x100073 → r.halt = .none →
      s.dbg.breaks.find? (fun b => b.kind == 1 && b.handle == r.handle) = some b →
      exec (.ebreak hart) s = nextOf s (settleStep r.serial (hitBreak r b hart c.pc.toNat 2 s)))
  ∧ (∀ (s : State) (hart : Nat) (r : Run) (c : Core) (f : Fetched) (w : Nat), Fetches s hart r c f w → IsCustom w 4 0 → c.tags.length < 8 →
      (xget c (bits w 19 15)).toNat % 8 = 0 → coreSpace (xget c (bits w 19 15)).toNat 32 = some 0 → bits w 11 7 ≠ 0 → c.tags.Nodup → (∀ t ∈ c.tags, t < 8) →
      dmaFault s r (Memory.readN c.dm (xget c (bits w 19 15)).toNat 32)
        (transferOf (Memory.readN c.dm (xget c (bits w 19 15)).toNat 32) hart 0 c.pc w) = none →
      ∃ tag k, tag < 8 ∧ tag ∉ c.tags ∧ k.tags = tag :: c.tags ∧ xget k (bits w 11 7) = BitVec.ofNat 64 tag ∧
        exec (.dsub hart) s = nextOf s (settleStep r.serial (retireCustom r hart k
          (noteHigh (hart / 8) 2 ((r.transfers.filter (fun t => t.hart / 8 == hart / 8)).length + 1)
            (setRun { r with transfers := r.transfers ++ [transferOf (Memory.readN c.dm (xget c (bits w 19 15)).toNat 32) hart tag c.pc w] }
              { s with freeCtr := s.freeCtr + 1 })))))
  ∧ (∀ (s : State) (hart : Nat) (r : Run) (c : Core) (f : Fetched) (w : Nat), Fetches s hart r c f w → IsCustom w 4 0 → c.tags.length < 8 →
      (xget c (bits w 19 15)).toNat % 8 ≠ 0 →
      exec (.dsub hart) s = nextOf s (settleStep r.serial (faultRun r hart 1 .badParam 0 c.pc.toNat (xget c (bits w 19 15)).toNat f.raw s)))
  ∧ (∀ (s : State) (hart : Nat) (r : Run) (c : Core) (f : Fetched) (w : Nat), Fetches s hart r c f w → IsCustom w 4 1 →
      exec (.dwait hart) s = nextOf s (settleStep r.serial (if c.tags.contains ((xget c (bits w 19 15)).toNat % 8)
        then stallCore hart c (.dwait ((xget c (bits w 19 15)).toNat % 8)) s else retireCustom r hart c s)))
  ∧ (∀ (s : State) (hart : Nat) (r : Run) (c : Core) (f : Fetched) (w : Nat), Fetches s hart r c f w → IsCustom w 4 2 →
      exec (.dpoll hart) s = nextOf s (settleStep r.serial (retireCustom r hart (xset c (bits w 11 7) (BitVec.ofNat 64
        (listSum (((List.range 8).filter (fun t => !c.tags.contains t)).map (fun t => 2 ^ t))))) s)))
  ∧ (∀ (s : State) (hart : Nat) (r : Run) (c : Core) (f : Fetched) (w : Nat), Fetches s hart r c f w → IsCustom w 5 0 → c.stall = .released →
      exec (.bar hart) s = nextOf s (settleStep r.serial (retireCustom r hart c s)))
  ∧ (∀ (s : State) (hart : Nat) (r : Run) (c : Core) (f : Fetched) (w : Nat), Fetches s hart r c f w → IsCustom w 5 0 → c.stall = .none →
      coreOf s hart = c → (xget c (bits w 19 15)).toNat < 2048 → (bitOf (xget c (bits w 19 15)).toNat 10 = true
        ∨ (bitOf (bits (xget c (bits w 19 15)).toNat 7 0) (hart % 8) = true ∧ (∀ k ∈ maskCores (bits (xget c (bits w 19 15)).toNat 7 0), bitOf r.coreMask k = true)
          ∧ ∀ k, k < 8 → atBar s false (bits (xget c (bits w 19 15)).toNat 9 8) (hart / 8 * 8 + k) = false)) →
      exec (.bar hart) s = nextOf s (settleStep r.serial (tryBarriers r.serial (stallCore hart c
        (.bar (bitOf (xget c (bits w 19 15)).toNat 10) (bits (xget c (bits w 19 15)).toNat 9 8) (bits (xget c (bits w 19 15)).toNat 7 0)) s))))
  ∧ (∀ (s : State) (hart : Nat) (r : Run) (c : Core) (f : Fetched) (w : Nat), Fetches s hart r c f w → IsCustom w 5 1 →
      (xget c (bits w 19 15)).toNat % 64 = 0 → bits (xget c (bits w 24 20)).toNat 31 0 % 64 = 0 → bits (xget c (bits w 24 20)).toNat 31 0 ≠ 0 →
      bits (xget c (bits w 24 20)).toNat 31 0 ≤ 0xC00000 → (xget c (bits w 24 20)).toNat < 2 ^ 34 →
      inScratch (xget c (bits w 19 15)).toNat (bits (xget c (bits w 24 20)).toNat 31 0) = true →
      khas (cellOf s (hart / 8)).windows (bits (xget c (bits w 24 20)).toNat 33 32) = false →
      (∀ p ∈ (cellOf s (hart / 8)).windows, (xget c (bits w 19 15)).toNat + bits (xget c (bits w 24 20)).toNat 31 0 ≤ p.2.base
        ∨ p.2.base + p.2.len ≤ (xget c (bits w 19 15)).toNat) →
      exec (.wopen hart) s = nextOf s (settleStep r.serial (retireCustom r hart c (noteHigh (hart / 8) 3 ((cellOf s (hart / 8)).windows.length + 1) (setCell (hart / 8)
        { cellOf s (hart / 8) with windows := (kset (cellOf s (hart / 8)).windows (bits (xget c (bits w 24 20)).toNat 33 32)
            ⟨(xget c (bits w 19 15)).toNat, bits (xget c (bits w 24 20)).toNat 31 0⟩) } s)))))
  ∧ (∀ (s : State) (hart : Nat) (r : Run) (c : Core) (f : Fetched) (w : Nat), Fetches s hart r c f w → IsCustom w 5 2 →
      exec (.wclose hart) s = nextOf s (settleStep r.serial (retireCustom r hart c (setCell (hart / 8)
        { cellOf s (hart / 8) with windows := kdel (cellOf s (hart / 8)).windows ((xget c (bits w 19 15)).toNat % 4) } s))))

/-- Shares, budgets, contracts, accounts, power cap, policy, reset requests, roles and items. A command of these opcodes whose parameters pass its checks, run on this module alone outside a transaction, commits: SHARES_SET sets the weights and floors it names for existing tenants; BUDGET_SET sets a budget (a new one full, a changed one keeps its level, clipped), its NONE form removes it; CONTRACT_SET admits a contract, new or in place of the tenant's own, that capacity allows and restarts its windows, its deletion form removes it; ACCOUNT_READ, CONFIG_GET return their bytes and change nothing; POWER_CAP_SET, STATE_POLICY_SET and ROLE_SET set what they name (ROLE_SET while no request is held); MEMBER_RESET sets the reset due, the earlier where one is due already. Each of these forms answers exec = next with that effect: sharesSet, budgetSet, budgetRemove, contractSet, contractDelete, accountRead, powerCapSet, statePolicySet, memberResetModule, memberResetPowerCycle, roleSet, configGet. (spec/00_scope.md, R4, R6; spec/02_command_protocol.md, R603; spec/13_scheduling_fairness.md, R391, R401, R405, R414; spec/18_power_clocks_startup.md, R526, R533, R538) -/
def Obligations.SchedulingCommandsCommit : Prop :=
  (∀ (s : State) (h : Nat) (f : Flight), Ready sharesSetCommand s h f → Here s f → (∀ e ∈ shareEntries f, tenantExists s e.1 = true) →
      exec (.sharesSet h) s = commits sharesSetCommand s f { s with sched := { s.sched with
        shares := (shareEntries f).foldl (fun m e => kset m e.1 ⟨e.2.1, e.2.2⟩) s.sched.shares } } (okReply []))
  ∧ (∀ (s : State) (h : Nat) (f : Flight), Ready budgetCommand s h f → Here s f → budgetNone f = true → tenantExists s (par f 0 2) = true →
      exec (.budgetRemove h) s = commits budgetCommand s f { s with sched := { s.sched with budgets := kdel s.sched.budgets (par f 0 2) } } (okReply []))
  ∧ (∀ (s : State) (h : Nat) (f : Flight), Ready budgetCommand s h f → Here s f → budgetNone f = false → tenantExists s (par f 0 2) = true →
      budgetOf s (par f 0 2) = none →
      exec (.budgetSet h) s = commits budgetCommand s f (setBudget (par f 0 2) ⟨bitOf (par f 2 1) 0, par f 4 4, par f 8 8, par f 16 8, par f 24 4,
        (par f 16 8 : Int), windowIndex (par f 4 4) s.frontTime, 0⟩ s) (okReply []))
  ∧ (∀ (s : State) (h : Nat) (f : Flight) (b : Budget), Ready budgetCommand s h f → Here s f → budgetNone f = false → tenantExists s (par f 0 2) = true →
      budgetOf s (par f 0 2) = some b →
      exec (.budgetSet h) s = commits budgetCommand s f (setBudget (par f 0 2) ⟨bitOf (par f 2 1) 0, par f 4 4, par f 8 8, par f 16 8, par f 24 4,
        min b.level (par f 16 8 : Int), windowIndex (par f 4 4) s.frontTime, if b.windowMs = par f 4 4 then b.admitted else 0⟩ s) (okReply []))
  ∧ (∀ (s : State) (h : Nat) (f : Flight), Ready contractCommand s h f → Here s f → contractDelete f = true → tenantExists s (par f 0 2) = true →
      (kget s.sched.contracts (par f 0 2)).isSome = true →
      exec (.contractDelete h) s = commits contractCommand s f
        (emptyWindows (par f 0 2) { s with sched := { s.sched with contracts := kdel s.sched.contracts (par f 0 2) } }) (okReply []))
  ∧ (∀ (s : State) (h : Nat) (f : Flight), Ready contractCommand s h f → Here s f → contractDelete f = false → tenantExists s (par f 0 2) = true →
      (kget s.sched.contracts (par f 0 2) = none → s.sched.contracts.length < 4096) →
      (demandAll s < demandWithout s (par f 0 2) + par f 24 4 * par f 32 8 →
        (demandWithout s (par f 0 2) + par f 24 4 * par f 32 8) * 1000000 ≤ capacityPpm s) →
      exec (.contractSet h) s = commits contractCommand s f (emptyWindows (par f 0 2) (setContract (par f 0 2)
        ⟨par f 2 1, bitOf (par f 3 1) 0, par f 4 1, par f 8 4, par f 12 4, par f 16 8, par f 24 4, par f 28 2, par f 32 8,
          entryOf s f, f.hdr.sessionId, par f 24 4, false, [], ((kget s.sched.contracts (par f 0 2)).map (·.lastBreach)).getD 0⟩ s)) (okReply []))
  ∧ (∀ (s : State) (h : Nat) (f : Flight), Ready accountReadCommand s h f → Here s f →
      exec (.accountRead h) s = commits accountReadCommand s f s (okReply (accountBytes s (par f 0 2))))
  ∧ (∀ (s : State) (h : Nat) (f : Flight), Ready powerCapCommand s h f → Here s f →
      exec (.powerCapSet h) s = commits powerCapCommand s f
        { s with power := { s.power with capW := if par f 0 2 = 0 then 2600 else par f 0 2 } } (okReply []))
  ∧ (∀ (s : State) (h : Nat) (f : Flight), Ready statePolicyCommand s h f → Here s f →
      exec (.statePolicySet h) s = commits statePolicyCommand s f { s with power := { s.power with
        policy := ⟨par f 0 4, par f 4 4, par f 8 2, par f 10 1, par f 11 1, par f 12 1⟩ } } (okReply []))
  ∧ (∀ (s : State) (h : Nat) (f : Flight) (p d : PendingReset), Ready memberResetCommand s h f → Here s f →
      p = ⟨par f 0 1 == 1, s.frontTime + (if par f 4 4 = 0 then 10 else par f 4 4) * 1000000⟩ →
      d = (match s.power.pendingReset with
        | none => p
        | some q => if q.due ≤ p.due then q else p) →
      (par f 0 1 = 0 → exec (.memberResetModule h) s = commits memberResetCommand s f { s with power := { s.power with pendingReset := some d } } (okReply []))
      ∧ (par f 0 1 = 1 → exec (.memberResetPowerCycle h) s
          = commits memberResetCommand s f { s with power := { s.power with pendingReset := some d } } (okReply [])))
  ∧ (∀ (s : State) (h : Nat) (f : Flight), Ready roleSetCommand s h f → Here s f → s.serve.requests = [] →
      exec (.roleSet h) s = commits roleSetCommand s f { s with role := some (par f 0 1) } (okReply []))
  ∧ (∀ (s : State) (h : Nat) (f : Flight), Ready configGetCommand s h f → Here s f →
      exec (.configGet h) s = commits configGetCommand s f s (okReply (toLe 4 (par f 0 4) ++ toLe 2 ((itemLen (par f 0 4)).getD 0) ++ zeros 2
        ++ itemValue s (par f 0 4) (par f 4 4) ++ zeros (ceilDiv ((itemLen (par f 0 4)).getD 0) 8 * 8 - (itemLen (par f 0 4)).getD 0))))

/-- Debug and telemetry commands. A command of these opcodes whose parameters pass its checks, run on this module alone, completes: BREAK_SET adds a breakpoint under an unused ID, BREAK_CLEAR removes those it names; HALT of isobar cores halts them, of a kernel run begins the halt or waits for its start, of a halted one says so; RESUME undoes each, of what is not halted says so; STEP lets one core of a halted run retire an instruction, of an isobar core answers its pc; STATE_READ, TRACK_READ, HISTOGRAM_READ, FAULT_LOG_READ, SENSORS_READ and COUNTERS_READ return their bytes; GAUGE_SET arms, reads, reads and clears, or disarms the slot it names. Each of these forms answers exec = next with that effect: breakSet, breakClear, halt, resume, step, stateRead, trackRead, gaugeArm, gaugeRead, gaugeReadClear, gaugeDisarm, histogramRead, faultLogRead, sensorsRead, countersRead. (spec/20_debug_telemetry.md, R563, R566, R567, R573, R574, R575, R580, R581, R586, R587, R589, R590) -/
def Obligations.DebugCommandsComplete : Prop :=
  (∀ (s : State) (h : Nat) (f : Flight), Ready breakSetCommand s h f → Here s f →
      ∃ id t, exec (.breakSet h) s = commits breakSetCommand s f t (okReply (toLe 4 id ++ zeros 4))
        ∧ (∀ b ∈ s.dbg.breaks, b.id ≠ id) ∧ t = { s with
          freeCtr := s.freeCtr + 1
          dbg := { s.dbg with breaks := s.dbg.breaks ++ [⟨id, par f 0 1, par f 1 1, par f 2 1, par f 4 4, par f 8 8, par f 16 2, f.hdr.sessionId⟩] } })
  ∧ (∀ (s : State) (h : Nat) (f : Flight), Ready breakClearCommand s h f → Here s f →
      exec (.breakClear h) s = commits breakClearCommand s f
        (clearBreaks (fun b => b.session == f.hdr.sessionId && (par f 0 4 == 0xFFFFFFFF || b.id == par f 0 4)) s) (okReply []))
  ∧ (∀ (s : State) (h : Nat) (f : Flight) (g : Flight) (r : Run), Ready haltCommand s h f → Here s f → par f 0 1 = 0 →
      targetFlight s f = some g → runOf s g.serial = some r → r.halt = .none →
      exec (.halt h) s = begins s f { startHalt r none 0 0 s with
        dbg := { (startHalt r none 0 0 s).dbg with haltWaits := (startHalt r none 0 0 s).dbg.haltWaits ++ [(f.serial, g.serial)] } })
  ∧ (∀ (s : State) (h : Nat) (f : Flight) (g : Flight), Ready haltCommand s h f → Here s f → par f 0 1 = 0 → targetFlight s f = some g →
      (runOf s g.serial = none ∨ (∃ r b, runOf s g.serial = some r ∧ r.halt = .draining b) →
        exec (.halt h) s = begins s f { s with dbg := { s.dbg with haltWaits := s.dbg.haltWaits ++ [(f.serial, g.serial)] } })
      ∧ ((∃ r, runOf s g.serial = some r ∧ (r.halt = .halted ∨ ∃ a b, r.halt = .stepping a b)) →
        exec (.halt h) s = commits haltCommand s f s (okReply (toLe 1 1 ++ zeros 7))))
  ∧ (∀ (s : State) (h : Nat) (f : Flight), Ready haltCommand s h f → Here s f → par f 0 1 = 1 →
      ∃ t o, exec (.halt h) s = commits haltCommand s f t (okReply (toLe 1 o ++ zeros 7))
        ∧ (∀ c, c < 8 → bitOf (par f 2 1) c = true → t.dbg.isobarHalted.contains c = true)
        ∧ (o = 1 ↔ ∀ c, c < 8 → bitOf (par f 2 1) c = true → s.dbg.isobarHalted.contains c = true) ∧ t.mem = s.mem ∧ t.compute = s.compute)
  ∧ (∀ (s : State) (h : Nat) (f : Flight) (r : Run), Ready resumeCommand s h f → Here s f → par f 0 1 = 0 → targetRun s f = some r → r.halt = .halted →
      exec (.resume h) s = commits resumeCommand s f (resumeRun r.serial s) (okReply (zeros 8)))
  ∧ (∀ (s : State) (h : Nat) (f : Flight), Ready resumeCommand s h f → Here s f → par f 0 1 = 0 → (∀ r, targetRun s f = some r → r.halt ≠ .halted) →
      exec (.resume h) s = commits resumeCommand s f s (okReply (toLe 1 1 ++ zeros 7)))
  ∧ (∀ (s : State) (h : Nat) (f : Flight), Ready resumeCommand s h f → Here s f → par f 0 1 = 1 →
      ∃ t o, exec (.resume h) s = commits resumeCommand s f t (okReply (toLe 1 o ++ zeros 7))
        ∧ (∀ c, c < 8 → t.dbg.isobarHalted.contains c = (s.dbg.isobarHalted.contains c && !bitOf (par f 2 1) c))
        ∧ (o = 1 ↔ ∀ c, c < 8 → bitOf (par f 2 1) c = true → s.dbg.isobarHalted.contains c = false) ∧ t.mem = s.mem ∧ t.compute = s.compute)
  ∧ (∀ (s : State) (h : Nat) (f : Flight), Ready stepCommand s h f → Here s f → par f 0 1 = 1 →
      exec (.step h) s = commits stepCommand s f { s with freeCtr := s.freeCtr + 1 } (okReply (zeros 8 ++ toLe 8 (Config.freeNat s.freeCtr))))
  ∧ (∀ (s : State) (h : Nat) (f : Flight) (r : Run), Ready stepCommand s h f → Here s f → par f 0 1 = 0 → targetRun s f = some r →
      exec (.step h) s = begins s f (setRun { r with halt := .stepping (targetHart r f) f.serial }
        (setCore (targetHart r f) { coreOf s (targetHart r f) with stopped := false, passBreak := true } s)))
  ∧ (∀ (s : State) (h : Nat) (f : Flight) (r : Run), Ready stateReadCommand s h f → Here s f → par f 0 1 = 0 → targetRun s f = some r →
      exec (.stateRead h) s = commits stateReadCommand s f s (okReply (
        if par f 16 1 = 0 then coreBytes (coreOf s (targetHart r f))
        else if par f 16 1 = 1 then (List.range 32).flatMap (vbytes (cellOf s (targetHart r f / 8)))
        else if par f 16 1 = 2 then accBytes (cellOf s (targetHart r f / 8)) (par f 20 4) (par f 24 4)
        else if par f 16 1 = 3 then scratchRead s (targetHart r f / 8) (par f 20 4) (par f 24 4)
        else Memory.readN (coreOf s (targetHart r f)).dm (0x10000 + par f 20 4) (par f 24 4))))
  ∧ (∀ (s : State) (h : Nat) (f : Flight), Ready stateReadCommand s h f → Here s f → par f 0 1 = 1 →
      ∃ b, b.length = 256 ∧ exec (.stateRead h) s
        = commits stateReadCommand s f { s with freeCtr := s.freeCtr + 256 } (okReply (zeros 8 ++ b)))
  ∧ (∀ (s : State) (h : Nat) (f : Flight), Ready trackReadCommand s h f → Here s f →
      exec (.trackRead h) s = commits trackReadCommand s f s (okReply (trackReadBytes s (par f 0 2) (par f 2 2) (par f 4 4))))
  ∧ (∀ (s : State) (h : Nat) (f : Flight) (g : Gauge), Ready gaugeCommand s h f → Here s f →
      g = kgetD s.dbg.gauges (par f 0 2 * 64 + par f 2 1) Gauge.cleared →
      (par f 3 1 = 0 → exec (.gaugeArm h) s = commits gaugeCommand s f { s with dbg := { s.dbg with
        gauges := kset s.dbg.gauges (par f 0 2 * 64 + par f 2 1) { Gauge.cleared with armed := true } } } (okReply []))
      ∧ (par f 3 1 = 1 → exec (.gaugeRead h) s = commits gaugeCommand s f s (okReply (gaugeBytes g)))
      ∧ (par f 3 1 = 2 → exec (.gaugeReadClear h) s = commits gaugeCommand s f { s with dbg := { s.dbg with
        gauges := kset s.dbg.gauges (par f 0 2 * 64 + par f 2 1) { Gauge.cleared with armed := g.armed } } } (okReply (gaugeBytes g)))
      ∧ (par f 3 1 = 3 → exec (.gaugeDisarm h) s = commits gaugeCommand s f { s with dbg := { s.dbg with
        gauges := kset s.dbg.gauges (par f 0 2 * 64 + par f 2 1) { g with armed := false } } } (okReply [])))
  ∧ (∀ (s : State) (h : Nat) (f : Flight), Ready histogramReadCommand s h f →
      exec (.histogramRead h) s = commits histogramReadCommand s f s (okReply (histogramBytes s (par f 0 2) (par f 2 1) (par f 3 1) (par f 4 4))))
  ∧ (∀ (s : State) (h : Nat) (f : Flight), Ready faultLogReadCommand s h f → Here s f →
      exec (.faultLogRead h) s = commits faultLogReadCommand s f s (okReply
        (toLe 4 (((faultLog s).filter (fun r => seqAfter (par f 0 4) r.seq)).take (par f 4 2)).length
          ++ toLe 4 (((faultLog s).head?.map (·.seq)).getD 0) ++ toLe 4 (((faultLog s).getLast?.map (·.seq)).getD 0) ++ zeros 4
          ++ (((faultLog s).filter (fun r => seqAfter (par f 0 4) r.seq)).take (par f 4 2)).flatMap faultBytes)))
  ∧ (∀ (s : State) (h : Nat) (f : Flight), Ready sensorsReadCommand s h f → Here s f →
      exec (.sensorsRead h) s = commits sensorsReadCommand s f { s with freeCtr := s.freeCtr + 1 }
        (okReply (sensorBytes s.power (Config.freeNat s.freeCtr))))
  ∧ (∀ (s : State) (h : Nat) (f : Flight), Ready countersReadCommand s h f → Here s f →
      ∃ t vs, exec (.countersRead h) s = commits countersReadCommand s f t (okReply (toLe 1 (par f 0 1) ++ [0] ++ toLe 2 vs.length ++ zeros 4
          ++ toLe 8 s.frontTime ++ vs.flatMap (toLe 8)))
        ∧ (par f 0 1 ≠ 5 → par f 0 1 ≠ 6 → t = s ∧ vs = counterSet s (par f 0 1) (par f 4 4))
        ∧ (par f 0 1 = 5 → vs = counterSet t 5 (par f 4 4) ∧ t = { s with
          freeCtr := s.freeCtr + 1
          counters := t.counters } ∧ (∀ c k, ¬(c = .arrIdle ∧ k = par f 4 4) → ctrGet t.counters c k = ctrGet s.counters c k))
        ∧ (par f 0 1 = 6 → (vs, t) = queueSet (par f 4 4) (bitOf (par f 1 1) 0) s))

/-- Scheduling points, quadrants, windows and drains. A scheduling point is due 100 microseconds after the last. A demanded quadrant that completes its thaw becomes ACTIVE and a scheduling point follows; the policy's next quadrant frosts, and one FROST for DEEP_AFTER_MS is power gated; a hub domain idle for 100 microseconds gates. A budget window refills; a past contract window whose requests have all ended is judged once; histograms whose windows began anew roll. A draining run whose queues are empty is HALTED; a step that has not retired in its time ends with OUTCOME 1; a barrier no core can complete faults with CAUSE 6. Each of these forms answers exec = next with that effect: schedulingTimer, thawComplete, frost, deepFrost, hubDomainGate, budgetRefill, contractWindowJudged, histogramWindow, haltDrainComplete, stepStallTimeout, barrierDeadlock. (spec/01_module_hierarchy.md, R20; spec/05_vane_cores_scratchpads.md, R171, R172; spec/13_scheduling_fairness.md, R384, R388, R402, R410; spec/18_power_clocks_startup.md, R529, R532, R534; spec/20_debug_telemetry.md, R568, R569, R574, R588) -/
def Obligations.SchedulingEventsTakeEffect : Prop :=
  (∀ (s : State) (now : Nat), s.power.fwReady = true → s.sched.lastPoint + 100000 ≤ (advance now s).frontTime →
      exec (.schedulingTimer now) s = nextOf s (schedPoint (advance now s)))
  ∧ (∀ (s : State) (q now : Nat), q < 16 → (quadrantOf s.power q).thawing = true →
      ∃ d t, exec (.thawComplete q now) s = nextOf s (schedPoint (chargeCells 0 d (moveQuadrant q .active t)))
        ∧ t.frontTime = (advance now s).frontTime ∧ t.mem = s.mem ∧ t.proto = s.proto ∧ (quadrantOf t.power q).lastGrant = t.frontTime)
  ∧ (∀ (s : State) (q now : Nat), (frostOrder (advance now s)).head? = some q →
      thawTarget (advance now s) < (quadrantsIn s.power .active).length →
      exec (.frost q now) s = nextOf s (bump .frostEntries 0 1 (moveQuadrant q .frost (advance now s))))
  ∧ (∀ (s : State) (q now : Nat), q < 16 → (quadrantOf s.power q).state = .frost → (quadrantOf s.power q).thawing = false →
      s.power.policy.deepAfterMs ≠ 0 → (quadrantOf s.power q).since + s.power.policy.deepAfterMs * 1000000 ≤ (advance now s).frontTime →
      exec (.deepFrost q now) s = nextOf s (bump .deepEntries 0 1 (moveQuadrant q .deepFrost (advance now s))))
  ∧ (∀ (s : State) (d now : Nat), d ∈ [26, 27, 32, 33] → s.power.conversion = true → s.power.gated.contains d = false →
      kgetD s.power.hubLast d s.power.readyAt + 100000 ≤ (advance now s).frontTime →
      exec (.hubDomainGate d now) s = nextOf s { advance now s with power := { s.power with gated := d :: s.power.gated } })
  ∧ (∀ (s : State) (tenant now : Nat) (b : Budget), budgetOf (advance now s) tenant = some b →
      exec (.budgetRefill tenant now) s = nextOf s (setBudget tenant b (advance now s)))
  ∧ (∀ (s : State) (tenant n : Nat) (c : Contract) (x : ContractWindow), kget s.sched.contracts tenant = some c →
      c.windows.find? (fun y => y.index == n) = some x → n < windowIndex c.windowMs s.frontTime → x.admitted ≤ x.ended →
      exec (.contractWindowJudged tenant n) s = nextOf s (judgeWindow tenant x s))
  ∧ (∀ (s : State) (now : Nat),
      ∃ t, exec (.histogramWindow now) s = nextOf s t ∧ t.sched = { s.sched with histograms := s.sched.histograms.map (fun p =>
        (p.1, rollHistogram p.2 (windowIndex (histWindowMs s (p.1 / 16)) (advance now s).frontTime))) } ∧ t.mem = s.mem ∧ t.proto = s.proto)
  ∧ (∀ (s : State) (h : Nat) (r : Run), runOf s h = some r → r.halt = .draining none → runBusy s r = false → s.dbg.haltWaits = [] →
      exec (.haltDrainComplete h) s = nextOf s (((runHarts r).filter (fun x => decide ((coreOf s x).life = .running))).foldl
        (fun t x => track 0xA (0x1000 + x) r.tenant r.commandId (coreOf s x).reason 0 t) (setRun { r with halt := .halted } s)))
  ∧ (∀ (s : State) (h hart : Nat) (r : Run),
      s.compute.runs.find? (fun r => match r.halt with | .stepping _ x => x == h | _ => false) = some r → r.halt = .stepping hart h →
      exec (.stepStallTimeout h) s = nextOf s (endStep r 1 (coreOf s hart).pc.toNat (setCore hart { coreOf s hart with stopped := true } s)))
  ∧ (∀ (s : State) (h : Nat) (r : Run), runOf s h = some r → r.halt = .none → r.transfers = [] →
      (∃ x ∈ runHarts r, ∃ a b c, (coreOf s x).stall = .bar a b c ∧ (coreOf s x).life = .running) →
      (∀ x ∈ runHarts r, (coreOf s x).life = .ended ∨ ((coreOf s x).life = .running ∧ ∃ a b c, (coreOf s x).stall = .bar a b c)) →
      ∃ hart, hart ∈ runHarts r ∧ (coreOf s hart).life = .running ∧
        exec (.barrierDeadlock h) s = nextOf s (faultRun r hart 6 .badParam 0 (coreOf s hart).pc.toNat 0 (insnAt (coreOf s hart))
          { s with freeCtr := s.freeCtr + 1 }))

/-- Kernels, layers and chains: loading, running, committing, transfers and deadlines. KERNEL_LOAD of a checked image adds the kernel under a fresh handle; KERNEL_RUN and LAYER_RUN begin with an item that waits for cells; CHAIN_DEFINE adds the chain under a fresh handle. A run whose cores have all ended and whose saturations stay in their limit commits: its writes are visible and its record is posted. A DMA transfer from the tiers lands in the scratchpad and frees its tag; a remote write lands in its open window; a command whose deadline passes before its commit ends with DEADLINE_MISSED. A layer released charges its tenant and frees its cells; a LAYER_RUN whose layers have all run commits. Each of these forms answers exec = next with that effect: kernelLoad, kernelRun, layerRun, chainDefine, kernelRunCommit, layerRunCommit, dmaComplete, remoteWriteArrival, commandDeadline, itemRelease. (spec/05_vane_cores_scratchpads.md, R165, R169, R174, R177, R178; spec/06_fused_chains.md, R183, R185, R188; spec/13_scheduling_fairness.md, R384 to R390) -/
def Obligations.KernelAndLayerCommandsComplete : Prop :=
  (∀ (s : State) (h : Nat) (f : Flight), Ready kernelLoadCommand s h f → Here s f →
      ∃ t hd, exec (.kernelLoad h) s = commits kernelLoadCommand s f t (okReply (toLe 4 hd ++ zeros 4))
        ∧ (∃ k, kget t.compute.kernels hd = some k ∧ k.tenant = f.tenant ∧ k.entry = fld (memRead s (par f 0 8) (par f 8 4)) 16 4
          ∧ k.text = slice (memRead s (par f 0 8) (par f 8 4)) 32 (fld (memRead s (par f 0 8) (par f 8 4)) 8 4))
        ∧ t.mem = s.mem ∧ t.tiers = s.tiers ∧ t.compute.chains = s.compute.chains)
  ∧ (∀ (s : State) (h : Nat) (f : Flight) (k : Kernel), Ready kernelRunCommand s h f → Here s f → kget s.compute.kernels (par f 0 4) = some k →
      exec (.kernelRun h) s = begins s f (submitItem f (par f 4 2) (par f 16 4) (par f 16 4) true 0 (dieOrder (dieShares [(par f 24 8, par f 20 4)])).head?
        { s with compute := { s.compute with images := kset s.compute.images f.serial k } }))
  ∧ (∀ (s s1 : State) (h : Nat) (f : Flight), Ready layerRunCommand s h f → Here s f →
      findFrames (some f.serial) f.tenant (layerShadow s f).length s = .found s1 →
      exec (.layerRun h) s = begins s f (startLayers f s1))
  ∧ (∀ (s : State) (h : Nat) (f : Flight), Ready chainDefineCommand s h f → Here s f →
      ∃ t hd, exec (.chainDefine h) s = commits chainDefineCommand s f t (okReply (toLe 4 hd ++ zeros 4))
        ∧ kget t.compute.chains hd = some (chainFrom f.tenant f.params) ∧ t.mem = s.mem ∧ t.compute.kernels = s.compute.kernels)
  ∧ (∀ (s s1 : State) (h cycles : Nat) (f : Flight) (r : Run), runOf s h = some r → flightOf s h = some f → runComplete s r = true → r.voted = none →
      overSatLimit r.numeric r.counts.sat = false → kernelApply f r cycles s = .done s1 → f.prep = none →
      exec (.kernelRunCommit h cycles) s = nextOf s (schedPoint (finish f (okReply (toLe 8 cycles ++ zeros 8)) s1)))
  ∧ (∀ (s s1 : State) (h : Nat) (f : Flight) (job : LayerJob) (x : LayerResult), flightOf s h = some f →
      s.compute.jobs.find? (fun j => j.serial == h) = some job → par f 0 2 ≤ job.layer → (∀ i ∈ s.sched.items, i.serial ≠ h) → job.held = none →
      jobResult s f job (par f 0 2) = .ok x → overSatLimit (par f 8 8) x.counts.sat = false → layerApply f job.shadowPages.length x s = .done s1 → f.prep = none →
      exec (.layerRunCommit h) s = nextOf s (finish f (okReply (toLe 8 job.charged ++ zeros 8)) (dropJob h s1)))
  ∧ (∀ (s : State) (hart tag addr : Nat) (r : Run) (t : Transfer), transferAt s hart tag = some (r, t) → t.dstKind = 1 → t.srcKind = 0 → t.xpose = 0 →
      exec (.dmaComplete hart tag .good addr) s = nextOf s (endTransfer r t (dmaIn r t s)))
  ∧ (∀ (s : State) (hart tag : Nat) (r : Run) (t : Transfer), transferAt s hart tag = some (r, t) → t.dstKind = 2 →
      kget (cellOf s (nth r.cells (bits t.dst 39 32))).windows (bits t.dst 25 24) = none →
      exec (.remoteWriteArrival hart tag) s = nextOf s (faultRun r hart 5 .outOfRange 0 t.pc.toNat (bits t.dst 23 0) t.insn s))
  ∧ (∀ (s : State) (hart tag : Nat) (r : Run) (t : Transfer) (w : Window), transferAt s hart tag = some (r, t) → t.dstKind = 2 →
      kget (cellOf s (nth r.cells (bits t.dst 39 32))).windows (bits t.dst 25 24) = some w →
      bits t.dst 23 0 + dstExtent t.xpose t.rows t.rowBytes t.dstStride ≤ w.len →
      (t.xpose = 0 ∨ scratchPoison s (hart / 8) t.src (srcExtent t.rows t.rowBytes t.srcStride) = none) →
      ∃ marks, exec (.remoteWriteArrival hart tag) s = nextOf s (endTransfer r t
        (let u := (moveRuns (scratchReader s (hart / 8)) t.src (w.base + bits t.dst 23 0) t.rows t.rowBytes t.srcStride t.dstStride t.xpose).foldl
            (fun u x => scratchWrite (nth r.cells (bits t.dst 39 32)) x.1 x.2 0xFFFF u) s
         { u with tiers := { u.tiers with poisoned := (u.tiers.poisoned ++ marks).eraseDups } })) ∧ (t.xpose ≠ 0 → marks = []))
  ∧ (∀ (s : State) (h now off : Nat) (f : Flight), flightOf s h = some f → f.op ≠ .kernelRun → f.op ≠ .layerRun → deadlineAt f = some off →
      deadlineOf f off ≤ (advance now s).frontTime →
      exec (.commandDeadline h now) s = nextOf s (abortFlight f .deadlineMissed 0 [] (advance now s)))
  ∧ (∀ (s : State) (h now : Nat) (f : Flight), flightOf s h = some f → f.op = .kernelRun → f.running = true → runOf s h = none →
      deadlineOf f 32 ≤ (advance now s).frontTime →
      exec (.commandDeadline h now) s = nextOf s (schedPoint (abortFlight f .deadlineMissed 0 (zeros 24 ++ [7] ++ zeros 7) (advance now s))))
  ∧ (∀ (s : State) (h now : Nat) (f : Flight), flightOf s h = some f → f.op = .layerRun → f.running = true →
      deadlineOf f 16 ≤ (advance now s).frontTime →
      exec (.commandDeadline h now) s = nextOf s (schedPoint (abortFlight f .deadlineMissed 0 [] (advance now s))))
  ∧ (∀ (s : State) (item cycles now : Nat) (i : WorkItem) (f : Flight) (job : LayerJob),
      s.sched.items.find? (fun x => x.id == item) = some i → i.whole = false → i.cells ≠ [] → flightOf s i.serial = some f →
      s.compute.jobs.find? (fun j => j.serial == i.serial) = some job →
      ((layersOf f).getD i.layer (layerAt [] 0)).group.length ≤ 1 → ((layersOf f).getD i.layer (layerAt [] 0)).paired = false →
      par f 0 2 ≤ i.layer + 1 → (layersOf f).length ≤ i.layer + 1 →
      ∃ t, exec (.itemRelease item (.worked cycles) now) s = nextOf s (schedPoint t)
        ∧ (∀ x ∈ t.sched.items, x.serial ≠ i.serial) ∧ t.mem = s.mem ∧ t.tiers = s.tiers
        ∧ (t.compute.jobs.find? (fun j => j.serial == i.serial)).map (fun j => (j.layer, j.charged)) = some ((layersOf f).length, job.charged + cycles))
  ∧ (∀ (s s1 : State) (item cycles now : Nat) (i : WorkItem) (f : Flight) (job job1 : LayerJob),
      s.sched.items.find? (fun x => x.id == item) = some i → i.whole = false → i.cells ≠ [] → flightOf s i.serial = some f →
      s.compute.jobs.find? (fun j => j.serial == i.serial) = some job → sendPartials f job i.layer (advance now s) = .ok s1 →
      s1.compute.jobs.find? (fun j => j.serial == i.serial) = some job1 →
      ∃ t j, exec (.itemRelease item (.worked cycles) now) s = nextOf s (if j.layer < par f 0 2 then layerItem j.chains f j.layer t else schedPoint t)
        ∧ (∀ x ∈ t.sched.items, x.serial ≠ i.serial) ∧ t.mem = s1.mem ∧ t.compute.jobs.find? (fun j => j.serial == i.serial) = some j
        ∧ j.charged = job1.charged + cycles ∧ j.layer = nextHere s.fabric.view.self (layersOf f) ((layersOf f).length + 1)
          (if ((layersOf f).getD i.layer (layerAt [] 0)).paired then i.layer + 2 else i.layer + 1))

/-- Memory commands: allocate, free, copy, fill, reside, demote, flush, statistics. A command of these opcodes whose parameters pass its checks, run on this module alone, completes: MEM_ALLOC takes a range that reads as zero, records the allocation and returns its address, and every other byte and allocation stays; MEM_FREE of an allocation no earlier command names releases it; MEM_COPY and MEM_FILL make their writes visible; RESIDE of pages that are all resident notes them, else begins to fill frames; DEMOTE and FLUSH without dirty pages commit at once, else begin to write them home; TIER_STATS returns its bytes. Each of these forms answers exec = next with that effect: memAlloc, memFree, memCopy, memFill, reside, demote, flush, tierStats. (spec/07_memory_tiers.md, R214, R215, R223, R230, R231, R232, R238) -/
def Obligations.MemoryCommandsComplete : Prop :=
  (∀ (s : State) (h : Nat) (f : Flight), Ready memAllocCommand s h f → Here s f →
      ∃ base t, exec (.memAlloc h) s = commits memAllocCommand s f t (okReply (toLe 8 base))
        ∧ kget t.tiers.allocs base = some ⟨par f 8 8, f.tenant, par f 0 1, par f 1 1 == 1, false⟩
        ∧ (∀ b, b ≠ base → kget t.tiers.allocs b = kget s.tiers.allocs b)
        ∧ (∀ a, base ≤ a → a < base + par f 8 8 → Memory.read t.mem a = 0)
        ∧ (∀ a, a < base ∨ base + par f 8 8 ≤ a → Memory.read t.mem a = Memory.read s.mem a)
        ∧ t.tiers.pages = s.tiers.pages ∧ t.proto = s.proto ∧ t.host = s.host)
  ∧ (∀ (s : State) (h : Nat) (f : Flight) (al : Alloc), Ready memFreeCommand s h f → Here s f → kget s.tiers.allocs (par f 0 8) = some al →
      (∀ g ∈ s.proto.flights, g.serial < f.serial → namesRange s g (par f 0 8) al.len = false) → (∀ r ∈ s.compute.runs, r.tenant ≠ f.tenant) →
      exec (.memFree h) s = commits memFreeCommand s f (releaseAlloc (par f 0 8) al.len s) (okReply []))
  ∧ (∀ (s s0 s1 : State) (h : Nat) (f : Flight) (runs : List WriteRun), Ready memCopyCommand s h f → Here s f → par f 32 1 ≠ 0 →
      runs = moveRuns (memRead s) (par f 0 8) (par f 8 8) (par f 16 4) (par f 20 4) (par f 24 4) (par f 28 4) (par f 32 1) →
      findFrames (some f.serial) f.tenant (unitsTouched 65536 runs).length s = .found s0 →
      readsFail s0 ((List.range (par f 16 4)).map (fun r => (par f 0 8 + r * par f 24 4, par f 20 4))) = none →
      commitWrites (some f.serial) f.tenant runs 0 s0 = .done s1 →
      exec (.memCopy h) s = commits memCopyCommand s f (addMarks [] [] s1) (okReply []))
  ∧ (∀ (s s0 s1 : State) (h : Nat) (f : Flight) (runs : List WriteRun), Ready memCopyCommand s h f → Here s f → par f 32 1 = 0 →
      runs = (List.range (par f 16 4)).map (fun r => (par f 8 8 + r * par f 28 4, memRead s (par f 0 8 + r * par f 24 4) (par f 20 4))) →
      findFrames (some f.serial) f.tenant (unitsTouched 65536 runs).length s = .found s0 → s0.tiers.poisoned = [] → s0.tiers.badTags = [] →
      commitWrites (some f.serial) f.tenant runs 0 s0 = .done s1 →
      exec (.memCopy h) s = commits memCopyCommand s f (addMarks [] [] s1) (okReply []))
  ∧ (∀ (s s1 : State) (h : Nat) (f : Flight), Ready memFillCommand s h f → Here s f →
      commitWrites (some f.serial) f.tenant [(par f 0 8, (List.range (par f 8 8 / 8)).flatMap (fun _ => slice f.params 16 8))] 0 s = .done s1 →
      exec (.memFill h) s = commits memFillCommand s f s1 (okReply []))
  ∧ (∀ (s s1 : State) (h : Nat) (f : Flight), Ready resideCommand s h f → Here s f →
      (∀ p ∈ namedPages f, pageMoving s p = false ∧ (kget s.tiers.pages p).isSome = true) → findFrames (some f.serial) f.tenant 0 s = .found s1 →
      exec (.reside h) s = commits resideCommand s f (mapPages (namedPages f)
        (fun x => { x with pinned := x.pinned || bitOf (par f 12 1) 0, access := s1.proto.stepCount.toNat }) s1)
        (okReply (toLe 4 0 ++ toLe 4 (namedPages f).length)))
  ∧ (∀ (s s1 : State) (h : Nat) (f : Flight), Ready resideCommand s h f → Here s f → bitOf (par f 12 1) 1 = false →
      (∀ p ∈ namedPages f, kget s.tiers.pages p = none) → findFrames (some f.serial) f.tenant (namedPages f).length s = .found s1 → par f 13 1 = 0xFF →
      tierFull s1.tiers f.tenant ((tierAt s.tiers (par f 0 8)).getD 2) (64 * (namedPages f).length : Nat) = none →
      exec (.reside h) s = begins s f (bindPages f false (bitOf (par f 12 1) 0) (namedPages f) s1))
  ∧ (∀ (s : State) (h : Nat) (f : Flight), (∀ p ∈ namedPages f, pageMoving s p = false) →
      (∀ p x, p ∈ namedPages f → kget s.tiers.pages p = some x → x.state ≠ .dirty) →
      (Ready demoteCommand s h f → Here s f →
        exec (.demote h) s = commits demoteCommand s f (demoteCommit f [] s) (okReply (toLe 4 0 ++ toLe 4 (namedPages f).length)))
      ∧ (Ready flushCommand s h f → Here s f →
        exec (.flush h) s = commits flushCommand s f s (okReply (toLe 4 0 ++ toLe 4 (namedPages f).length))))
  ∧ (∀ (s : State) (h p : Nat) (f : Flight) (x : HomePage), (∀ p ∈ namedPages f, pageMoving s p = false) → namedPages f = [p] →
      kget s.tiers.pages p = some x → x.state = .dirty →
      (Ready demoteCommand s h f → Here s f → bitOf (par f 12 1) 0 = false →
        exec (.demote h) s = begins s f (mapPages [p] (fun x => { x with state := .writing, toClean := false, mover := some f.serial, moved := false }) s))
      ∧ (Ready flushCommand s h f → Here s f →
        exec (.flush h) s = begins s f (mapPages [p] (fun x => { x with state := .writing, toClean := true, mover := some f.serial, moved := false }) s)))
  ∧ (∀ (s : State) (h : Nat) (f : Flight), Ready tierStatsCommand s h f → Here s f →
      exec (.tierStats h) s = commits tierStatsCommand s f s (okReply (tierStatsBytes s (wholeModule f) (par f 0 2))))

/-- An allocation lies in its tier and overlaps no other. When MEM_ALLOC commits, the range it returns lies in the tier it names and shares no byte with an allocation already made in that tier. (spec/07_memory_tiers.md, R214) -/
def Obligations.AllocationsDoNotOverlap : Prop :=
  ∀ (s : State) (f : Flight), memAllocCommand.check s f = none →
    ∃ base t, memAllocCommand.run s f = .done t (okReply (toLe 8 base))
      ∧ tierBase (par f 0 1) ≤ base ∧ base + par f 8 8 ≤ tierBase (par f 0 1) + tierLogical s.tiers (par f 0 1)
      ∧ ∀ b al, (b, al) ∈ s.tiers.allocs → al.tier = par f 0 1 → al.len ≠ 0 → b + al.len ≤ base ∨ base + par f 8 8 ≤ b

/-- Tier accesses, page movements, stalls and scrubbing. A stall within its tier's limit that ends well is recorded and changes nothing else; beyond the limit the command ends with TIER_LATE; an access that meets poison ends it with DATA_POISONED and marks the unit; a speculative access of a SEARCH ends nothing. A stall past its limit whose command has no deadline passed ends the command. A page filled is noted and the last one commits its RESIDE; a page written home by no command leaves its frame. A patrol read that finds nothing changes nothing; a corrected error is counted. Each of these forms answers exec = next with that effect: tierAccessComplete, stallLimitExpiry, pageFillComplete, writeBackComplete, patrolScrub. (spec/07_memory_tiers.md, R220, R222, R223, R233, R234, R235, R236; spec/09_vector_search.md, R287, R288; spec/21_faults_recovery.md, R592, R595) -/
def Obligations.TierEventsTakeEffect : Prop :=
  (∀ (s : State) (h addr cause ns tier : Nat) (f : Flight), flightOf s h = some f → tierAt s.tiers addr = some tier → stallTooLong s.tiers tier ns = false →
      exec (.tierAccessComplete h addr cause ns .good) s = nextOf s (if specAccess s f addr then s else recordStall f.tenant tier cause ns s))
  ∧ (∀ (s : State) (h addr cause ns tier : Nat) (f : Flight), flightOf s h = some f → tierAt s.tiers addr = some tier → stallTooLong s.tiers tier ns = true →
      stallDecides s f tier ns = true →
      exec (.tierAccessComplete h addr cause ns .good) s = nextOf s (if specAccess s f addr then s else tierLate f addr cause (recordStall f.tenant tier cause ns s)))
  ∧ (∀ (s : State) (h addr cause ns tier : Nat) (f : Flight), flightOf s h = some f → tierAt s.tiers addr = some tier → tier ≠ 3 → specAccess s f addr = false →
      stallTooLong s.tiers tier ns = false →
      ∃ t, exec (.tierAccessComplete h addr cause ns .poisoned) s = nextOf s (abortFlight f .dataPoisoned (tierDetail tier addr) [] t)
        ∧ (addr / poisonUnit s.tiers addr * poisonUnit s.tiers addr) ∈ t.tiers.poisoned ∧ t.mem = s.mem ∧ t.proto = s.proto
        ∧ t.faults.uncorrected = s.faults.uncorrected + 1)
  ∧ (∀ (s : State) (h addr cause ns now tier : Nat) (f : Flight), flightOf s h = some f → tierAt s.tiers addr = some tier → stallTooLong s.tiers tier ns = true →
      stallDecides (advance now s) f tier ns = true →
      exec (.stallLimitExpiry h addr cause ns now) s = nextOf s
        (if specAccess (advance now s) f addr then s else tierLate f addr cause (recordStall f.tenant tier cause ns (advance now s))))
  ∧ (∀ (s : State) (page h : Nat) (x : HomePage) (f : Flight), kget s.tiers.pages page = some x → x.mover = some h → x.state = .filling → flightOf s h = some f →
      readFails s (page * 65536) 65536 = none →
      exec (.pageFillComplete page .good) s = nextOf s (resideCommit f (mapPages [page] (fun y => { y with moved := true }) s)))
  ∧ (∀ (s : State) (page : Nat) (x : HomePage), kget s.tiers.pages page = some x → x.state = .writing → x.mover = none → x.evictor = none →
      exec (.writeBackComplete page true) s = nextOf s (dropPage page (endPageWait page s)))
  ∧ (∀ (s : State) (page h : Nat) (x : HomePage) (f : Flight), kget s.tiers.pages page = some x → x.state = .writing → x.evictor = none → x.mover = some h → flightOf s h = some f →
      exec (.writeBackComplete page true) s = nextOf s (writeBackCommit f (mapPages [page] (fun y => { y with moved := true }) s)))
  ∧ (∀ (s : State) (addr : Nat), exec (.patrolScrub addr .good) s = .next s ∨ exec (.patrolScrub addr .good) s = nextOf s s)
  ∧ (∀ (s : State) (addr : Nat), tierAt s.tiers addr = some 1 →
      ∃ t, exec (.patrolScrub addr .corrected) s = nextOf s t ∧ t.faults.corrected = s.faults.corrected + 1 ∧ t.mem = s.mem ∧ t.tiers = s.tiers
        ∧ t.proto = s.proto)

/-- Sessions open and close, attestation answers. SESSION_OPEN whose checks pass gives the lowest unused SESSION_ID from 1 on, with the tenant it names, sequence window and transaction numbers at their start, and leaves every other session and all of memory; SESSION_CLOSE, once no other command of the session is in flight, ends with OK and the session is gone; ATTEST_REPORT returns the report of this module and the signatures, or the certificate chains from an offset on. Each of these forms answers exec = next with that effect: sessionOpen, sessionClose, attestReport, attestCertificates. (spec/15_security.md, R466, R470, R472) -/
def Obligations.SessionsOpenAndClose : Prop :=
  (∀ (s : State) (h : Nat) (f : Flight), Ready (entryCommand sessionOpenCommand) s h f →
      ∃ id t r x, exec (.sessionOpen h) s = commits (entryCommand sessionOpenCommand) s f t r
        ∧ 1 ≤ id ∧ id ≤ 4096 ∧ khas s.proto.sessions id = false ∧ (∀ j, 1 ≤ j → j < id → khas s.proto.sessions j = true)
        ∧ kget t.proto.sessions id = some x ∧ x.id = id ∧ x.tenant = par f 0 2 ∧ x.high = 0 ∧ x.accepted = [] ∧ x.nextTxn = 1 ∧ x.closing = false
        ∧ (∀ j, j ≠ id → kget t.proto.sessions j = kget s.proto.sessions j)
        ∧ r.status = .ok ∧ fld r.result 0 4 = id ∧ t.sec.sessionCount = s.sec.sessionCount + 1 ∧ t.mem = s.mem ∧ t.sec.tenants = s.sec.tenants)
  ∧ (∀ (s : State) (h : Nat) (f : Flight), flightOf s h = some f → f.op = .sessionClose → mayRun s f = true →
      firstFail [lengthIs f 8, reservedZero f 0 8, scopeHasEntry s f] = none →
      (∀ g ∈ (beginClose f.hdr.sessionId s).proto.flights, fromPeer g = false → g.hdr.sessionId = f.hdr.sessionId → g.serial = h) →
      ∃ t, exec (.sessionClose h) s = nextOf s t ∧ khas t.proto.sessions f.hdr.sessionId = false ∧ (∀ x ∈ t.proto.txns, x.session ≠ f.hdr.sessionId)
        ∧ t = dropSession f.hdr.sessionId (finish f (okReply []) (commitObjects [] (beginClose f.hdr.sessionId s))))
  ∧ (∀ (s : State) (h : Nat) (f : Flight), Ready attestCommand s h f → Here s f → par f 0 1 = 0 →
      exec (.attestReport h) s = commits attestCommand s f s (okReply (report s f.hdr.sessionId (reportTenant s f).1 (reportTenant s f).2 (zeros 48)
        (slice f.params 8 32) (slice f.params 40 64))))
  ∧ (∀ (s : State) (h : Nat) (f : Flight), Ready attestCommand s h f → Here s f → par f 0 1 = 1 →
      exec (.attestCertificates h) s = commits attestCommand s f s
        (okReply (toLe 4 Config.certChains.length ++ zeros 4 ++ (Config.certChains.drop (par f 4 4)).take 65464)))

/-- Tenants, transfer keys, debug authorisation. TENANT_CREATE stores the tenant's keys and a root key of the generator; TENANT_DESTROY, when no front-wide commit touches the tenant, ends all that is its own; KEY_INSTALL SET stores the key with counter 0, EXPORT writes the image to host memory and advances the counter, IMPORT of an image whose tags verify writes its plaintext, and of one whose tag fails ends with INTEGRITY_FAIL; KEY_RETIRE empties the slot; DEBUG_AUTHORIZE with a good token ends every tenant, drops every transfer key and pair secret and sets DEBUG. Each of these forms answers exec = next with that effect: tenantCreate, tenantDestroy, keyInstallSet, keyInstallImport, keyInstallExport, keyRetire, debugAuthorize. (spec/07_memory_tiers.md, R217; spec/13_scheduling_fairness.md, R391; spec/15_security.md, R469, R480, R481) -/
def Obligations.TenantAndKeyCommandsComplete : Prop :=
  (∀ (s : State) (h : Nat) (f : Flight), Ready tenantCreateCommand s h f → Here s f →
      exec (.tenantCreate h) s = commits tenantCreateCommand s f
        { s with sec := { s.sec with
            draws := s.sec.draws + 1
            tenants := kset s.sec.tenants (par f 0 2) ⟨blockKeys f.params 0, Config.drbg s.sec.draws⟩ } } (okReply []))
  ∧ (∀ (s : State) (h : Nat) (f : Flight), Ready tenantDestroyCommand s h f → Here s f → commitsFor s (par f 0 2) = false →
      exec (.tenantDestroy h) s = commits tenantDestroyCommand s f (endTenant (par f 0 2) f.serial s) (okReply []))
  ∧ (∀ (s : State) (h : Nat) (f : Flight), Ready keyInstallCommand s h f → Here s f → par f 0 1 = 0 →
      exec (.keyInstallSet h) s = commits keyInstallCommand s f
        { s with sec := { s.sec with keySlots := kset s.sec.keySlots (f.tenant * 16 + par f 1 1) ⟨BitVec.ofNat 256 (par f 8 32), 0⟩ } } (okReply []))
  ∧ (∀ (s s1 : State) (h : Nat) (image b : Bytes) (f g : Flight) (x : KeySlot), flightOf s h = some f → g = { f with content := some image } →
      Ready keyInstallCommand (setFlight g s) h g → Here (setFlight g s) g → par f 0 1 = 1 → s.host.busMaster = true →
      kget s.sec.keySlots (f.tenant * 16 + par f 1 1) = some x →
      (importImage x.key (par f 24 8) image = .ok b → commitWrites (some f.serial) f.tenant [(par f 16 8, b)] 0 (setFlight g s) = .done s1 →
        exec (.keyInstallImport h image) s = nextOf s (finish g (okReply []) (committed keyInstallCommand (setFlight g s) g s1)))
      ∧ (∀ d, importImage x.key (par f 24 8) image = .error d →
        exec (.keyInstallImport h image) s = nextOf s (finish g (plainReply .integrityFail d) (setFlight g s))))
  ∧ (∀ (s : State) (h : Nat) (f : Flight) (x : KeySlot), Ready keyInstallCommand s h f → Here s f → par f 0 1 = 2 → s.host.busMaster = true →
      kget s.sec.keySlots (f.tenant * 16 + par f 1 1) = some x → x.counter < 0xFFFFFFFF → readFails s (par f 16 8) (par f 24 8) = none →
      exec (.keyInstallExport h) s = commits keyInstallCommand s f
        { s with
          outputs := s.outputs ++ [.hostWrite (par f 8 8) (exportImage x.key x.counter (memRead s (par f 16 8) (par f 24 8)))]
          sec := { s.sec with keySlots := kset s.sec.keySlots (f.tenant * 16 + par f 1 1) { x with counter := x.counter + 1 } } } (okReply []))
  ∧ (∀ (s : State) (h : Nat) (f : Flight), Ready keyRetireCommand s h f → Here s f →
      exec (.keyRetire h) s = commits keyRetireCommand s f
        { s with sec := { s.sec with keySlots := kdel s.sec.keySlots (f.tenant * 16 + par f 0 1) } } (okReply []))
  ∧ (∀ (s : State) (h : Nat) (f : Flight), Ready debugAuthorizeCommand s h f → Here s f → (kkeys s.sec.tenants).any (commitsFor s) = false →
      ∃ u, u.sec.debug = true ∧ u.sec.keySlots = [] ∧ u.sec.pairs = [] ∧ u.sec.pairAsks = []
        ∧ u = { (kkeys s.sec.tenants).foldl (fun v t => endTenant t f.serial v) s with sec := u.sec }
        ∧ exec (.debugAuthorize h) s = commits debugAuthorizeCommand s f ((reachedPeers u).foldl (fun v m => closeLinks m v) u) (okReply []))

/-- A transfer image that was exported is imported again. For every key, counter below 2^32 and plaintext of whole 65,536-byte chunks of less than 2^40 bytes and a byte: opening the image that EXPORT makes, with the same key and length, gives the plaintext. (spec/15_security.md, R480, R481) -/
def Obligations.TransferImageRoundTrip : Prop :=
  ∀ (key : BitVec 256) (count n : Nat) (plain : Bytes), plain.length = 65536 * n → n ≤ 2 ^ 24 → count < 2 ^ 32 →
    importImage key plain.length (exportImage key count plain) = .ok plain

/-- Firmware is staged, activated and its security versions committed. FW_STAGE of bytes that can be read writes them into the slot that is not running and touches no byte of device memory, the running slot, the floors; a pending activation is withdrawn. FW_ACTIVATE of a valid bundle writes a directory copy that names the other slot as pending and returns its BUILD. COMMIT_SVN raises each floor to the running SVN and lowers none. Each of these forms answers exec = next with that effect: fwStage, fwActivate, fwCommitSvn. (spec/15_security.md, R461, R462) -/
def Obligations.FirmwareCommandsComplete : Prop :=
  (∀ (s : State) (h : Nat) (f : Flight), Ready fwStageCommand s h f → Here s f → readFails s (par f 0 8) (par f 12 4) = none →
      ∃ t, exec (.fwStage h) s = commits fwStageCommand s f t (okReply []) ∧ t.mem = s.mem ∧ t.sec.floors = s.sec.floors ∧ t.sec.running = s.sec.running
        ∧ slotOf t.sec (otherSlot s) = Memory.writeN (Memory.clear (slotOf s.sec (otherSlot s)) (par f 8 4) (par f 12 4)) (par f 8 4)
            (memRead s (par f 0 8) (par f 12 4))
        ∧ (otherSlot s = 0 → t.sec.slotB = s.sec.slotB) ∧ (otherSlot s ≠ 0 → t.sec.slotA = s.sec.slotA)
        ∧ ((dirOf s.sec).pending = false → t.sec.dir0 = s.sec.dir0 ∧ t.sec.dir1 = s.sec.dir1))
  ∧ (∀ (s : State) (h : Nat) (f : Flight), Ready fwActivateCommand s h f → Here s f → par f 0 1 = 0 →
      exec (.fwActivate h) s = commits fwActivateCommand s f { s with sec := writeDir (dirOf s.sec).active true s.sec }
        (okReply (toLe 8 (bundleBuild (slotOf s.sec (otherSlot s))))))
  ∧ (∀ (s : State) (h : Nat) (f : Flight), Ready fwActivateCommand s h f → Here s f → par f 0 1 = 1 →
      ∃ t, exec (.fwCommitSvn h) s = commits fwActivateCommand s f t (okReply []) ∧ (∀ i, i < 3 → nth t.sec.floors i = max (nth s.sec.floors i) (nth s.sec.svn i))
        ∧ t.mem = s.mem ∧ t.sec.svn = s.sec.svn ∧ t.sec.dir0 = s.sec.dir0 ∧ t.sec.dir1 = s.sec.dir1 ∧ t.power = s.power)

/-- A packet that passes every check is in flight. A packet that lies wholly below the tail of an ENABLED ring whose turn it is in round-robin order, on a device that may read host memory, whose reservations are free and which passes the checks of R55 is taken: the ring's head moves past it, exactly one command is added to those in flight, with its opcode, header, clear parameters, ring and reserved slots, and it waits only where FENCE is set and an earlier command of its ring has not posted; nothing of memory changes. Each of these forms answers exec = next with that effect: packetTaken. (spec/02_command_protocol.md, R51 to R57) -/
def Obligations.AcceptedPacketIsInFlight : Prop :=
  ∀ (s : State) (ring now : Nat) (bytes : Bytes) (h : Header) (row : OpcodeRow) (x : Option Session) (k : Nat) (params : Bytes) (s1 s2 : State),
    s1 = advance now s → h = parseHeader bytes →
    ringTurn s.host = some ring → (sqOf s.host ring).state = .enabled → s.host.busMaster = true → 48 ≤ bytes.length → 64 + h.paramLen ≤ bytes.length →
    packetSlots h.paramLen ≤ ((sqOf s.host ring).tail - (sqOf s.host ring).head).toNat →
    stepOne h (sqOf s.host ring).log2 = none →
    params = clearParams (openSession s h.sessionId) h (slice bytes 48 h.paramLen) → k = replyReservation s h params →
    reservationsFree s (sqOf s.host ring).defCq (decide ((cqOf s.host (sqOf s.host ring).defCq).state = .enabled)) h k = true →
    (if h.sessionId = 0 then x = none else openSession s h.sessionId = x ∧ x.isSome = true) →
    stepThree x h (bytes.take 48) (slice bytes 48 h.paramLen) (slice bytes (48 + h.paramLen) 16) = none →
    x.all (fun y => seqAccepted y h.seq) = true → h.flagsRsv = 0 → h.prio ≤ 7 →
    s2 = (match x with | some y => setSession (acceptSeq y h.seq) s1 | none => s1) →
    stepSix s2 h (clearParams x h (slice bytes 48 h.paramLen)) = none → lateChecks s2 x h = none → opcodeRow h.opcode = some row →
    ∃ t f, exec (.packetTaken ring bytes now) s = nextOf s t ∧ t.proto.flights = s.proto.flights ++ [f] ∧ f.serial = s.proto.nextSerial
      ∧ f.origin = .host ring ∧ f.op = row.op ∧ f.hdr = h ∧ f.params = clearParams x h (slice bytes 48 h.paramLen) ∧ f.reserved = k
      ∧ f.tenant = (x.map (·.tenant)).getD 0 ∧ f.taken = s1.frontTime ∧ f.running = false
      ∧ f.waiting = (h.fence && s.proto.flights.any (fun g => decide (g.origin = .host ring)))
      ∧ (sqOf t.host ring).head = (sqOf s.host ring).head + BitVec.ofNat 32 (packetSlots h.paramLen)
      ∧ (sqOf t.host ring).tail = (sqOf s.host ring).tail ∧ t.mem = s.mem ∧ t.sec = s.sec ∧ t.fabric = s.fabric

/-- A sequence is accepted above H or once within the window of 4,096. Whatever sequences a session has accepted since it opened, H is the highest of them, and sequence n is accepted exactly where it is not 0 and is above H, or lies above H - 4,096 and has not been accepted before. A packet that passes its tag but fails this test posts REPLAY to the default ring and changes no session, no command in flight, no memory. (R47) -/
def Obligations.SequencesAreAcceptedOnce : Prop :=
  (∀ (x y : Session) (taken : List Nat) (n : Nat), x.high = 0 → x.accepted = [] → y = taken.foldl acceptSeq x →
      y.high = taken.foldl max 0 ∧ (seqAccepted y n = true ↔ n ≠ 0 ∧ (y.high < n ∨ (y.high < n + 4096 ∧ n ∉ taken))))
  ∧ (∀ (s s1 : State) (ring now k : Nat) (bytes : Bytes) (h : Header) (x : Session), s1 = advance now s → h = parseHeader bytes →
      ringTurn s.host = some ring → (sqOf s.host ring).state = .enabled → s.host.busMaster = true → 48 ≤ bytes.length → 64 + h.paramLen ≤ bytes.length →
      packetSlots h.paramLen ≤ ((sqOf s.host ring).tail - (sqOf s.host ring).head).toNat → stepOne h (sqOf s.host ring).log2 = none →
      k = replyReservation s h (clearParams (openSession s h.sessionId) h (slice bytes 48 h.paramLen)) →
      reservationsFree s (sqOf s.host ring).defCq (decide ((cqOf s.host (sqOf s.host ring).defCq).state = .enabled)) h k = true →
      h.sessionId ≠ 0 → openSession s h.sessionId = some x →
      stepThree (some x) h (bytes.take 48) (slice bytes 48 h.paramLen) (slice bytes (48 + h.paramLen) 16) = none → seqAccepted x h.seq = false →
      ∃ t, exec (.packetTaken ring bytes now) s = nextOf s t ∧ t.proto = s.proto ∧ t.mem = s.mem ∧ t.sec = s.sec
        ∧ ((cqOf s.host (sqOf s.host ring).defCq).state = .enabled →
          ∃ r, Output.record r ∈ t.outputs.drop s.outputs.length ∧ r.ring = (sqOf s.host ring).defCq ∧ r.commandId = h.commandId
            ∧ r.status = .replay ∧ r.detail = 0 ∧ r.result = []))

/-- Transactions begin, take items, roll back, time out and commit on one module. TXN_BEGIN opens a transaction under the session's next TXN_ID; TXN_SET within the limits adds its items as one part and changes nothing else; TXN_ROLLBACK discards the transaction and its session remembers it as not committed; TXN_COMMIT of parts that touch this module alone, with no lock, version or role conflict, applies them in staging order, posts the records and its own; TXN_COMMIT of an unknown transaction is refused; a transaction not touched for its TIMEOUT_MS is discarded; a fenced command begins once no earlier command of its ring is in flight. Each of these forms answers exec = next with that effect: txnBegin, txnSet, txnRollback, txnCommit, txnTimeout, fencedCommandBegin. (spec/02_command_protocol.md, R57, R62, R65, R66, R68, R69) -/
def Obligations.TransactionCommandsComplete : Prop :=
  (∀ (s : State) (h : Nat) (f : Flight) (x : Session), Ready txnBeginCommand s h f → kget s.proto.sessions f.hdr.sessionId = some x →
      (openTxns s x.id).length < 4 →
      ∃ t, exec (.txnBegin h) s = commits txnBeginCommand s f t (okReply (toLe 4 x.nextTxn ++ zeros 4))
        ∧ t.proto.txns = s.proto.txns ++ [⟨x.nextTxn, x.id, f.tenant, f.hdr.scope, f.hdr.scopeDepth,
            if par f 0 4 = 0 then 10000 else par f 0 4, s.frontTime, .open, []⟩]
        ∧ kget t.proto.sessions x.id = some { x with nextTxn := x.nextTxn + 1 } ∧ t.mem = s.mem ∧ t.host = s.host ∧ t.proto.flights = s.proto.flights)
  ∧ (∀ (s : State) (h : Nat) (f : Flight) (t : Txn), Ready txnSetCommand s h f → txnOf s f.hdr.sessionId f.hdr.txnId = some t →
      stagedItems t + (setItems f).length ≤ 1024 → stagedBytes t + f.params.length ≤ 1048576 →
      exec (.txnSet h) s = commits txnSetCommand s f
        (setTxn { t with
          parts := t.parts ++ [.items { f with
              hdr := { f.hdr with
                scope := t.scope
                scopeDepth := t.scopeDepth }
              taken := s.frontTime } (setItems f)
            (((setItems f).map (itemObject f.tenant)).map (fun o => (o, versionOf s.proto.versions o)))]
          touched := s.frontTime } s) (okReply []))
  ∧ (∀ (s : State) (h : Nat) (f : Flight) (t : Txn), Ready txnRollbackCommand s h f → txnOf s f.hdr.sessionId f.hdr.txnId = some t →
      stagingBefore s f = false →
      exec (.txnRollback h) s = commits txnRollbackCommand s f (abortTxn t.session t.id t.parts none s) (okReply []))
  ∧ (∀ (s s1 : State) (h : Nat) (f : Flight) (t : Txn) (rs : List Reply), flightOf s h = some f → f.op = .txnCommit → mayRun s f = true → f.params = [] →
      (∀ w ∈ s.fabric.waits, w.serial ≠ h) → txnOf s f.hdr.sessionId f.hdr.txnId = some t → stagingBefore s f = false → formingPart t.parts = none →
      (∀ m ∈ txnHolders s t, m = s.fabric.view.self) → lockedAny s (writtenObjects s (markParts s false t.parts)) = false →
      versionConflict s t.parts = false → t.parts.any (roleConflict s) = false → foldParts false (markParts s false t.parts) 0 s [] = .done s1 rs →
      exec (.txnCommit h) s = nextOf s (finishPlain f (okReply []) (forgetTxn t.session t.id true
        ((t.parts.zip rs).foldl (fun u p => match p.1 with
          | .command g _ => finishPlain g p.2 (announceObject u.frontTime g p.2 [] u)
          | .items _ _ _ => u) (commitObjects (changedObjects s (markParts s false t.parts)) s1)))))
  ∧ (∀ (s : State) (h : Nat) (f : Flight), flightOf s h = some f → f.op = .txnCommit → mayRun s f = true → f.params = [] →
      (∀ w ∈ s.fabric.waits, w.serial ≠ h) → txnOf s f.hdr.sessionId f.hdr.txnId = none →
      (∀ x, kget s.proto.sessions f.hdr.sessionId = some x → ∀ e ∈ x.ended, e.1 ≠ f.hdr.txnId) →
      exec (.txnCommit h) s = rejects s f .txnUnknown 0)
  ∧ (∀ (s : State) (session txn now : Nat) (t : Txn), txnOf s session txn = some t → t.state = .open →
      t.touched + t.timeoutMs * 1000000 ≤ (advance now s).frontTime → txnClosing s session txn = false →
      exec (.txnTimeout session txn now) s = nextOf s (abortTxn session txn t.parts none (advance now s)))
  ∧ (∀ (s : State) (session id : Nat) (committed : Bool), (∀ t ∈ (forgetTxn session id committed s).proto.txns, ¬ (t.session = session ∧ t.id = id))
      ∧ (∀ x, kget s.proto.sessions session = some x →
          ∃ y, kget (forgetTxn session id committed s).proto.sessions session = some y ∧ y.ended.head? = some (id, committed) ∧ y.ended.length ≤ 16))
  ∧ (∀ (s : State) (h : Nat) (f : Flight), flightOf s h = some f → f.waiting = true → (∀ g ∈ s.proto.flights, g.origin = f.origin → f.serial ≤ g.serial) →
      exec (.fencedCommandBegin h) s = .next (setFlight { f with waiting := false } s))

/-- A command in a transaction is staged without effect. A command with IN_TXN of an open transaction that covers its scope, whose parameters pass the checks of class 0x01 and for which the limits leave room, becomes the transaction's last part with the versions of the objects it touches, its staging record is posted, and nothing it would change has changed. (R62; R63; R64; R67) -/
def Obligations.StagingHasNoEffect : Prop :=
  ∀ (c : Command) (s : State) (f : Flight) (t : Txn), txnOf s f.hdr.sessionId f.hdr.txnId = some t → t.state ≠ .committing →
    scopeWithin f.hdr.scope t.scope f.hdr.scopeDepth t.scopeDepth = true → stagingCheck c s f = none →
    stagedCommands t < 256 → stagedBytes t + f.params.length ≤ 1048576 →
    ∃ g vs, (txnOf (stage c f s) f.hdr.sessionId f.hdr.txnId).map (·.parts) = some (t.parts ++ [.command g vs])
      ∧ g.hdr = f.hdr ∧ g.params = f.params ∧ g.taken = s.frontTime ∧ vs.map (·.1) = c.objects s f
      ∧ (stage c f s).mem = s.mem ∧ (stage c f s).tiers = s.tiers ∧ (stage c f s).sec = s.sec ∧ (stage c f s).power = s.power
      ∧ (stage c f s).sched = s.sched ∧ (stage c f s).tables = s.tables ∧ (stage c f s).indexes = s.indexes ∧ (stage c f s).compute = s.compute
      ∧ (stage c f s).proto.versions = s.proto.versions ∧ (stage c f s).proto.stepCount = s.proto.stepCount

/-- Models, steering sets and pipelines are loaded under unused handles, dropped, defined. MODEL_LOAD of a good image records it under a new handle and returns the handle and the image's digest; MODEL_UNLOAD of a handle ends OK and the handle can be named no more; STEER_SET_LOAD with storage and an index free records the set under the lowest free index, STEER_SET_DROP takes it away; PIPELINE_DEFINE stores the descriptor with its template, its DELETE form removes it, and no other pipeline changes. A fresh handle is one that no object of its kind holds and no admitted command or request names; its kind stands in its top bits while fewer than 2^27 are held or named (R346). Each of these forms answers exec = next with that effect: modelLoad, modelUnload, steerSetLoad, steerSetDrop, pipelineDefine, pipelineDelete. (spec/12_serving_control.md, R347, R350, R354, R377) -/
def Obligations.ModelCommandsComplete : Prop :=
  (∀ (s : State) (h : Nat) (f : Flight), Ready modelLoadCommand s h f → Here s f →
      ∃ k t, exec (.modelLoad h) s = commits modelLoadCommand s f t
          (okReply (toLe 4 k ++ zeros 4 ++ sha256 (memRead s (par f 0 8) (par f 8 4))))
        ∧ k ∉ kkeys s.serve.models ∧ kget t.serve.models k = some (modelFrom f.tenant (memRead s (par f 0 8) (par f 8 4)))
        ∧ (∀ j, j ≠ k → kget t.serve.models j = kget s.serve.models j) ∧ t.mem = s.mem ∧ t.tiers = s.tiers ∧ t.proto = s.proto ∧ t.text = s.text
        ∧ t.tables = s.tables ∧ t.indexes = s.indexes ∧ t.compute = s.compute)
  ∧ (∀ (s : State) (h : Nat) (f : Flight), Ready modelUnloadCommand s h f → Here s f →
      exec (.modelUnload h) s = commits modelUnloadCommand s f (reapServed (unloadHandle (par f 0 4) s)) (okReply []))
  ∧ (∀ (s : State) (k : Nat), k / 2 ^ 28 ∈ [1, 2, 3, 4, 5, 6, 8] → handleOwner (unloadHandle k s) k = none)
  ∧ (∀ (s s1 : State) (h i : Nat) (f : Flight), Ready steerSetLoadCommand s h f → Here s f →
      addSteer f.tenant (memRead s (par f 0 8) (par f 8 4)) s = some (i, s1) →
      exec (.steerSetLoad h) s = commits steerSetLoadCommand s f s1 (okReply (toLe 4 i ++ zeros 4))
        ∧ khas s.compute.steers i = false ∧ (∀ j, j < i → khas s.compute.steers j = true)
        ∧ (∃ x, steerOf s1 i = some x ∧ x.tenant = f.tenant) ∧ (∀ j, j ≠ i → kget s1.compute.steers j = kget s.compute.steers j))
  ∧ (∀ (s : State) (h : Nat) (f : Flight), Ready steerSetDropCommand s h f → Here s f →
      ∃ u, exec (.steerSetDrop h) s = commits steerSetDropCommand s f (reapServed u) (okReply []) ∧ steerOf u (par f 0 4) = none
        ∧ (∀ j, j ≠ par f 0 4 → kget u.compute.steers j = kget s.compute.steers j) ∧ u.mem = s.mem ∧ u.serve = s.serve)
  ∧ (∀ (s : State) (h : Nat) (f : Flight), Ready pipelineCommand s h f → Here s f → bitOf (par f 3 1) 1 = false →
      ∃ t p, exec (.pipelineDefine h) s = commits pipelineCommand s f t (okReply [])
        ∧ kget t.serve.pipelines (par f 0 2) = some p ∧ p.tenant = par f 4 2 ∧ p.desc = f.params
        ∧ p.template = (if p.kind ≤ 1 then memRead s (par f 72 8) (32 * par f 58 2) else [])
        ∧ (∀ j, j ≠ par f 0 2 → kget t.serve.pipelines j = kget s.serve.pipelines j) ∧ t.mem = s.mem ∧ t.serve.requests = s.serve.requests)
  ∧ (∀ (s : State) (h : Nat) (f : Flight), Ready pipelineCommand s h f → Here s f → bitOf (par f 3 1) 1 = true →
      exec (.pipelineDelete h) s = commits pipelineCommand s f
        { s with serve := { s.serve with pipelines := kdel s.serve.pipelines (par f 0 2) } } (okReply []))
  ∧ (∀ (kind : Nat) (held : List Nat) (s : State),
      (freshHandle kind held s).1 ∉ held ∧ (∀ f ∈ s.proto.flights ++ stagedFlights s, (freshHandle kind held s).1 ∉ namedHandles f)
        ∧ (∀ r ∈ s.serve.requests, (freshHandle kind held s).1 ∉ requestHandles r)
        ∧ ((held ++ (s.proto.flights ++ stagedFlights s).flatMap namedHandles ++ s.serve.requests.flatMap requestHandles).length < 2 ^ 27 →
          (freshHandle kind held s).1 / 2 ^ 28 = kind))

/-- The text units load, tokenise, pack, detokenise. Commands of the text units that pass their checks complete: TOKENIZER_LOAD, GRAMMAR_LOAD and STOP_SET record their object under a new handle when Tier 1 has room for its tables; TOKENIZE whose segments fit writes the tokens of each and its offsets; PACK_PROMPT within the budget writes the packed prompt and its records; DETOK_STREAM_OPEN opens a stream and feeds it, a later feed goes on where the last left it. Each of these forms answers exec = next with that effect: tokenizerLoad, grammarLoad, stopSet, tokenize, packPrompt, detokStreamOpen, detokStreamFeed. (spec/11_text_unit.md, R324, R330, R331, R332, R333, R334, R335, R336, R337, R338, R339, R340, R341, R342) -/
def Obligations.TextCommandsComplete : Prop :=
  (∀ (s s1 : State) (h base : Nat) (f : Flight), Ready tokenizerLoadCommand s h f → takeTables f.tenant (memRead s (par f 0 8) (par f 8 4)).length s = .ok (base, s1) →
      ∃ k t x, exec (.tokenizerLoad h) s = commits tokenizerLoadCommand s f t
          (okReply (toLe 4 k ++ zeros 4 ++ sha256 (memRead s (par f 0 8) (par f 8 4))))
        ∧ k ∉ kkeys s1.text.tokenisers ∧ kget t.text.tokenisers k = some x ∧ x.tenant = f.tenant ∧ x.image = memRead s (par f 0 8) (par f 8 4)
        ∧ x.dropped = false ∧ t.mem = s1.mem ∧ t.tiers = s1.tiers)
  ∧ (∀ (s s1 : State) (h base : Nat) (f : Flight), Ready grammarLoadCommand s h f → takeTables f.tenant (memRead s (par f 0 8) (par f 8 4)).length s = .ok (base, s1) →
      ∃ k t x, exec (.grammarLoad h) s = commits grammarLoadCommand s f t (okReply (toLe 4 k ++ zeros 4))
        ∧ k ∉ kkeys s1.text.grammars ∧ kget t.text.grammars k = some x ∧ x.image = memRead s (par f 0 8) (par f 8 4) ∧ t.mem = s1.mem ∧ t.tiers = s1.tiers)
  ∧ (∀ (s s1 : State) (h base e : Nat) (f : Flight) (l : List Bytes) (z : Bool), Ready stopSetCommand s h f →
      stopStrings f.params (par f 4 2) (stopStringsAt f) = some (l, z, e) → takeTables f.tenant f.params.length s = .ok (base, s1) →
      ∃ k t x, exec (.stopSet h) s = commits stopSetCommand s f t (okReply (toLe 4 k ++ zeros 4))
        ∧ k ∉ kkeys s1.text.stops ∧ kget t.text.stops k = some x ∧ x.strings = l ∧ x.tokens = stopTokens f ∧ x.tok = par f 0 4 ∧ t.mem = s1.mem)
  ∧ (∀ (s s1 : State) (h : Nat) (f : Flight) (outs : List (TextSeg × List Tok × Nat)) (kept : List (TextSeg × List Tok)), Ready tokenizeCommand s h f →
      outs = (textSegs f).map (fun g => (g, tokenizeText (tokImage s (par f 0 4)) (bitOf (par f 6 1) 0) (segText s g))) →
      (∀ p ∈ outs, (truncTokens p.1 p.2.1).isSome = true) → kept = outs.map (fun p => (p.1, (truncTokens p.1 p.2.1).getD [])) →
      commitWrites (some f.serial) f.tenant (kept.flatMap (fun p => [(p.1.out, p.2.flatMap (fun t => toLe 4 t.1))]
        ++ (if wantsOffsets f then [(p.1.off, p.2.flatMap (fun t => toLe 4 t.2))] else []))) 0 (chargeHub 27 f.tenant s) = .done s1 →
      ∃ t r, exec (.tokenize h) s = commits tokenizeCommand s f t r ∧ r.status = .ok ∧ r.result.take 4 = toLe 4 outs.length ∧ t.mem = s1.mem
        ∧ t.tiers = s1.tiers ∧ t.text = s1.text ∧ t.proto = s1.proto)
  ∧ (∀ (s s1 : State) (h : Nat) (f : Flight) (tok : Tokeniser) (got : List (List Nat × Nat × Nat)) (kept : List (Nat × PackState)),
      Ready packPromptCommand s h f → tokeniserOf s (par f 0 4) = some tok → collectAll s tok (bitOf (par f 10 1) 1) 0 (packDescs f) = .ok got →
      packSegs (((packDescs f).zip got).map (fun p => packSegOf p.1 p.2.1)) (par f 4 4) (bitOf (par f 10 1) 0) = .ok kept →
      commitWrites (some f.serial) f.tenant ([(par f 16 8,
          (((((packDescs f).zip got).map (fun p => packSegOf p.1 p.2.1)).zip kept).flatMap (fun p => packCut p.1 p.2.1)).flatMap (toLe 4))]
        ++ (if par f 24 8 = 0 then [] else [(par f 24 8, packRecords 0 ((((packDescs f).zip got).map (fun p => packSegOf p.1 p.2.1)).zip kept))]))
        0 (chargeHub 27 f.tenant s) = .done s1 →
      ∃ t r, exec (.packPrompt h) s = commits packPromptCommand s f t r ∧ r.status = .ok ∧ r.result.length = 16 ∧ t.mem = s1.mem ∧ t.tiers = s1.tiers
        ∧ t.text = s1.text)
  ∧ (∀ (s s1 : State) (h : Nat) (f : Flight) (x : Stream) (y : Fed), Ready detokCommand s h f → streamFor s f = some x →
      y = feedStream s x (unpack 32 (par f 16 4) (memRead s (par f 24 8) (4 * par f 16 4))) (bitOf (par f 12 1) 2) → y.out.length ≤ par f 20 4 →
      commitWrites (some f.serial) f.tenant [(par f 32 8, y.out)] 0 (chargeHub 27 f.tenant s) = .done s1 → y.state = .open →
      (par f 0 4 = 0xFFFFFFFF → ∃ k t r z, exec (.detokStreamOpen h) s = commits detokCommand s f t r ∧ r.status = .ok ∧ fld r.result 0 4 = k % 2 ^ 32
        ∧ k ∉ kkeys s1.text.streams ∧ kget t.text.streams k = some z ∧ z.pending = y.pending ∧ z.held = y.held ∧ t.mem = s1.mem)
      ∧ (par f 0 4 ≠ 0xFFFFFFFF → ∃ t r z, exec (.detokStreamFeed h) s = commits detokCommand s f t r ∧ r.status = .ok
        ∧ kget t.text.streams (par f 0 4) = some z ∧ z.pending = y.pending ∧ z.held = y.held ∧ t.mem = s1.mem))

/-- Packing keeps the budget. When packing succeeds, it keeps a count for every segment, no more than the segment's full tokens nor its MAX_TOK, and all together no more than the budget. (spec/11_text_unit.md, R333, R334, R335, R336) -/
def Obligations.PackingKeepsTheBudget : Prop :=
  ∀ (segs : List PackSeg) (budget : Nat) (drop : Bool) (kept : List (Nat × PackState)), packSegs segs budget drop = .ok kept →
    kept.length = segs.length ∧ listSum (kept.map (·.1)) ≤ budget ∧ ∀ p ∈ segs.zip kept, p.2.1 ≤ p.1.full.length ∧ p.2.1 ≤ p.1.maxTok

/-- Tables are created, dropped, read, pooled and given a hot policy. On a module that alone holds the table, commands whose parameters pass their checks complete: TABLE_CREATE with storage for its slots and headers records the table under an unused ID below 4,096; TABLE_DROP that no earlier command stands before removes it; ROWS_READ and BAG_LOOKUP (without a NaN where NAN_TRAP is set) whose rows can be read write their output and reply OK; HOT_POLICY_SET stores the policy and chooses the hot rows, on a member that holds none of the table it is only recorded. ROWS_WRITE writes its images into the slots that are not current and queues its updates for the next step boundary. Each of these forms answers exec = next with that effect: tableCreate, tableDrop, rowsRead, bagLookup, hotPolicySet, rowsWrite. (spec/08_gather_unit.md, R246, R249, R250, R251, R253, R254, R255, R256, R257, R258, R259) -/
def Obligations.TableCommandsComplete : Prop :=
  (∀ (s s1 s2 : State) (h slots headers : Nat) (f : Flight), Ready tableCreateCommand s h f → scopeModules s f.hdr = [s.fabric.view.self] →
      fromPeer f = false → f.content = none →
      takeStorage f.tenant (par f 11 1) (par f 12 1) (pageBytes (par f 0 8 * 2 * rowPitch (par f 8 2) (par f 10 1))) (drawFree s).2 = .ok (slots, s1) →
      takeStorage f.tenant 1 0xFF (pageBytes (par f 0 8 * 8)) s1 = .ok (headers, s2) →
      ∃ id t, id < 4096 ∧ khas s.tables.tables id = false ∧ tableOf t id = some (newTable f [s.fabric.view.self] slots headers)
        ∧ (∀ j, j ≠ id → tableOf t j = tableOf s2 j) ∧ t.mem = s2.mem ∧ t.tiers = s2.tiers ∧ t.indexes = s2.indexes
        ∧ exec (.tableCreate h) s = announces tableCreateCommand s f t (okReply (toLe 4 id ++ zeros 4)))
  ∧ (∀ (s : State) (h : Nat) (f : Flight) (t : Table), Ready tableDropCommand s h f → tableOf s (par f 0 4) = some t →
      (fromPeer f = true ∨ tableMembers s f = [s.fabric.view.self]) →
      ∃ u, exec (.tableDrop h) s = announces tableDropCommand s f u (okReply []) ∧ tableOf u (par f 0 4) = none
        ∧ (∀ v ∈ u.tables.updates, v.table ≠ par f 0 4) ∧ (∀ j, j ≠ par f 0 4 → tableOf u j = tableOf s j))
  ∧ (∀ (s s1 : State) (h : Nat) (f : Flight) (t : Table) (fetched : List (Nat × Nat × Bytes)) (got : List (Nat × Nat × Nat × Bytes)),
      Ready (rowsReadCommand fetched) s h f → tableOf s (par f 0 4) = some t →
      fetchAll s f.serial (par f 0 4) t fetched (rowIndices s (par f 8 8) (par f 4 4)) = .ok got →
      commitWrites (some f.serial) f.tenant ((got.zipIdx).map (fun p => (par f 16 8 + p.2 * par f 24 4, p.1.2.2.2))) 0 (chargeHub 27 f.tenant s) = .done s1 →
      exec (.rowsRead h fetched) s = commits (rowsReadCommand fetched) s f (dropFetching f.serial s1) (okReply (got.flatMap (fun g => toLe 8 g.2.2.1))))
  ∧ (∀ (s s1 : State) (h : Nat) (f : Flight) (t : Table) (fetched : List (Nat × Nat × Bytes)) (got : List (Nat × Nat × Nat × Bytes)),
      Ready (bagLookupCommand fetched) s h f → tableOf s (par f 0 4) = some t →
      fetchAll s f.serial (par f 0 4) t fetched (bagWork s (bagsOf f t)).distinct = .ok got →
      (bitOf (par f 56 8) 0 = true → ∀ p ∈ poolAll (bagsOf f t) (bagWork s (bagsOf f t)) got, p.2.2 = none) →
      commitWrites (some f.serial) f.tenant (((poolAll (bagsOf f t) (bagWork s (bagsOf f t)) got).zipIdx).map (fun p =>
        (par f 40 8 + p.2 * par f 48 4, bagOutput (par f 14 1) p.1.1))) 0 (chargeHub 27 f.tenant s) = .done s1 →
      ∃ u r, exec (.bagLookup h fetched) s = commits (bagLookupCommand fetched) s f u r ∧ r.status = .ok
        ∧ r.result.take 8 = toLe 4 (bagWork s (bagsOf f t)).valid.length ++ toLe 4 (bagWork s (bagsOf f t)).distinct.length
        ∧ u.mem = s1.mem ∧ u.tiers = s1.tiers ∧ u.proto = s1.proto ∧ u.indexes = s1.indexes)
  ∧ (∀ (s s0 s1 : State) (h area : Nat) (f : Flight) (t : Table), Ready hotPolicyCommand s h f → (fromPeer f = true ∨ t.shard = [s.fabric.view.self]) →
      tableOf s (par f 0 4) = some t → (t.area = 0 → s0 = s) →
      (t.area ≠ 0 → s0 = releaseAlloc t.area (((kget s.tiers.allocs t.area).map (·.len)).getD 0) s) →
      (t.shard.contains s.fabric.view.self = true →
        takeStorage t.tenant 1 0xFF (pageBytes ((t.shard.length - 1) * par f 16 4 * (2 * tablePitch t + 8))) s0 = .ok (area, s1)) →
      (t.shard.contains s.fabric.view.self = false → area = 0 ∧ s1 = s0) →
      ∃ y hot u, exec (.hotPolicySet h) s = announces hotPolicyCommand s f u (okReply []) ∧ u = setHot (par f 0 4) y hot (setTable (par f 0 4) y s1)
        ∧ y.hmode = par f 4 1 ∧ y.windowMs = par f 8 4 ∧ y.threshold = par f 12 4 ∧ y.maxHot = par f 16 4 ∧ y.pins = pinsOf s f ∧ y.area = area
        ∧ y.policyAt = s.frontTime ∧ y.occurrences = [] ∧ y.rows = t.rows ∧ y.shard = t.shard ∧ y.slots = t.slots ∧ hot.length ≤ par f 16 4
        ∧ (par f 4 1 = 0 → hot = [] ∧ y.replicas = []))
  ∧ (∀ (s s1 : State) (h : Nat) (f : Flight) (t : Table), flightOf s h = some f → f.op = .rowsWrite → mayRun s f = true → fromPeer f = false →
      rowsWriteCheck s f = none → tableOf s (par f 0 4) = some t → t.shard = [s.fabric.view.self] → s.fabric.view.rights = .full →
      (∀ v ∈ s.tables.updates, updateOf v s.fabric.view.self f.hdr.sessionId f.hdr.seq = false) → lockedAny s (rowsWriteCommand.writes s f) = false →
      s1 = writeImages (updatesOf s f t) { s with tables := { s.tables with updates := s.tables.updates ++ updatesOf s f t } } →
      spaceFail f.tenant { s with tables := { s.tables with updates := s.tables.updates ++ updatesOf s f t } } s1 = none →
      exec (.rowsWrite h) s = begins s f { s1 with tables := { s1.tables with
        updates := s.tables.updates ++ (updatesOf s f t).map (fun u => { u with queued := true }) } })

/-- An update of a row takes effect in its other slot. In a memory in canonical form, where a table of one shard keeps headers and slots in ranges that do not overlap: when an update of a row takes effect, the row's header shows the other slot and the next version, that slot holds the new image, the slot that was current keeps its bytes, and the header of every other row stays. (spec/08_gather_unit.md, R242, R247) -/
def Obligations.RowUpdateSwapsSlots : Prop :=
  ∀ (s : State) (u : RowUpdate) (t : Table), s.mem.wf = true → tableOf s u.table = some t → t.shard = [s.fabric.view.self] → u.row < t.rows →
    t.tier = 1 → u.image.length = tableB t →
    (t.headers + t.rows * 8 ≤ t.slots ∨ t.slots + t.rows * 2 * tablePitch t ≤ t.headers) →
    headerCur (rowHeader (applyRow u s) t u.row) = 1 - headerCur (rowHeader s t u.row)
    ∧ headerVersion (rowHeader (applyRow u s) t u.row) = (headerVersion (rowHeader s t u.row) + 1) % 2 ^ 48
    ∧ memRead (applyRow u s) (slotAt s t u.row (1 - headerCur (rowHeader s t u.row))) (tableB t) = u.image
    ∧ memRead (applyRow u s) (slotAt s t u.row (headerCur (rowHeader s t u.row))) (tableB t)
        = memRead s (slotAt s t u.row (headerCur (rowHeader s t u.row))) (tableB t)
    ∧ (∀ r, r < t.rows → r ≠ u.row → rowHeader (applyRow u s) t r = rowHeader s t r)

/-- Row updates, replicas and hot windows at their events. At a step boundary with queued updates the step counter advances and no update stays queued; at a window's end a member reports what it counted of other owners' rows and an owner chooses at most MAX_HOT rows, each pinned or counted at the threshold or above; ROW_UPD from a member adds the updates of rows owned here; ROW_REPL INSTALL stores the replicas it carries, DROP removes them, ACK takes what it names off the waits. Each of these forms answers exec = next with that effect: rowUpdateApply, hotWindowEnd, rowUpd, rowReplInstall, rowReplDrop, rowReplAck. (spec/08_gather_unit.md, R248, R250, R252, R261; spec/14_fabric_links.md, R430) -/
def Obligations.RowEventsTakeEffect : Prop :=
  (∀ (s : State) (u : RowUpdate), u ∈ s.tables.updates → u.queued = true → (tableOf s u.table).isSome = true →
      ∃ t, exec .rowUpdateApply s = nextOf s (settleRepl t) ∧ t.proto.stepCount = s.proto.stepCount + 1 ∧ (∀ v ∈ t.tables.updates, v.queued = false)
        ∧ (∀ v, v ∈ s.tables.updates → v.queued = false → v ∈ t.tables.updates) ∧ t.indexes = s.indexes ∧ t.serve = s.serve ∧ t.compute = s.compute)
  ∧ (∀ (s s1 : State) (table now : Nat) (t : Table) (counts : List (Nat × Nat)), s1 = advance now s → tableOf s table = some t → t.hmode = 1 →
      t.policyAt + t.windowMs * 1000000 ≤ s1.frontTime → t.shard.contains s.fabric.view.self = true →
      ∃ y hot, exec (.hotWindowEnd table counts now) s
          = nextOf s (setHot table y hot (reportCounts table t ((s1.frontTime - t.policyAt) / (t.windowMs * 1000000) - 1) s1)) ∧ hot.length ≤ t.maxHot
        ∧ y = { t with occurrences := y.occurrences }
        ∧ (∀ r ∈ hot, r ∈ t.pins ∨ ∃ n, (r, n) ∈ hotCounts s1 t ((s1.frontTime - t.policyAt) / (t.windowMs * 1000000) - 1) counts ∧ t.threshold ≤ n))
  ∧ (∀ (s s1 : State) (table now : Nat) (t : Table) (counts : List (Nat × Nat)), s1 = advance now s → tableOf s table = some t → t.hmode = 1 →
      t.policyAt + t.windowMs * 1000000 ≤ s1.frontTime → t.shard.contains s.fabric.view.self = false →
      exec (.hotWindowEnd table counts now) s = nextOf s (reportCounts table t ((s1.frontTime - t.policyAt) / (t.windowMs * 1000000) - 1) s1))
  ∧ (∀ (s : State) (peer : Nat) (plain : Bytes) (m : Msg) (t : Table), Arrives 0x03 peer plain s m → tableOf (heardFrom peer s) (fld m.body 0 4) = some t →
      m.body.length = 24 + fld m.body 4 4 * (16 + tablePitch t) → zeroAt m.body 10 2 = true →
      (∀ i, i < fld m.body 4 4 → zeroAt m.body (36 + 16 * i) 4 = true) →
      ∃ us u, exec (.rowUpd peer plain) s = nextOf s u ∧ u.tables.updates = s.tables.updates ++ us ∧ us.length ≤ fld m.body 4 4
        ∧ (∀ v ∈ us, v.table = fld m.body 0 4 ∧ ownerOf t v.row = s.fabric.view.self ∧ v.queued = false ∧ v.image.length ≤ tableB t) ∧ u.mem = s.mem)
  ∧ (∀ (s : State) (peer : Nat) (plain : Bytes) (m : Msg) (t : Table), Arrives 0x04 peer plain s m → fld m.body 8 1 = 0 → tableOf (heardFrom peer s) (fld m.body 0 4) = some t →
      zeroAt m.body 9 7 = true → m.body.length = 16 + fld m.body 4 4 * (16 + tablePitch t) →
      ∃ y, exec (.rowReplInstall peer plain) s = nextOf s (sendMessage peer 0x04 2 t.tenant 0 0 (rowReplBody (fld m.body 0 4) 2 (replPairs m.body) [])
          (setTable (fld m.body 0 4) y (heardFrom peer s))) ∧ y = { t with replicas := y.replicas }
        ∧ (∀ r, r ∈ (replPairs m.body).map (·.1) → khas y.replicas r = true) ∧ (∀ r, khas t.replicas r = true → khas y.replicas r = true))
  ∧ (∀ (s : State) (peer : Nat) (plain : Bytes) (m : Msg) (t : Table), Arrives 0x04 peer plain s m → fld m.body 8 1 = 1 → tableOf (heardFrom peer s) (fld m.body 0 4) = some t →
      zeroAt m.body 9 7 = true → 16 + 16 * fld m.body 4 4 ≤ m.body.length →
      ∃ y, exec (.rowReplDrop peer plain) s = nextOf s (setTable (fld m.body 0 4) y (heardFrom peer s)) ∧ y = { t with replicas := y.replicas }
        ∧ (∀ r, r ∈ (replPairs m.body).map (·.1) → khas y.replicas r = false))
  ∧ (∀ (s : State) (peer : Nat) (plain : Bytes) (m : Msg) (t : Table), Arrives 0x04 peer plain s m → fld m.body 8 1 = 2 → tableOf (heardFrom peer s) (fld m.body 0 4) = some t →
      zeroAt m.body 9 7 = true → 16 + 16 * fld m.body 4 4 ≤ m.body.length →
      ∃ u, exec (.rowReplAck peer plain) s = nextOf s (settleRepl u) ∧ u.tables.tables = (heardFrom peer s).tables.tables ∧ u.mem = s.mem
        ∧ (∀ w ∈ u.tables.waits, ∀ a ∈ w.awaited, a.1 = peer → a.2.1 = fld m.body 0 4 → (a.2.2.1, a.2.2.2) ∉ replPairs m.body))

/-- An insert makes a vector live, a delete makes it not live, others stay. In a shard whose sequence numbers are at most its MSEQ: after an insert of a vector its ID is live, after a delete of an ID that ID is not, every other ID is live exactly when it was, and the sequence numbers stay at most MSEQ; a merge at the present MSEQ leaves live exactly what was live and leaves no tombstone. (spec/09_vector_search.md, R289, R290, R293, R295) -/
def Obligations.MutationsChangeLiveness : Prop :=
  ∀ (x : VecIndex), (∀ v ∈ x.side, v.seq ≤ x.mseq) → (∀ t ∈ x.tombs, t.2 ≤ x.mseq) →
    (∀ v, liveNow (applyInsert x v) v.id = true ∧ (∀ i, i ≠ v.id → liveNow (applyInsert x v) i = liveNow x i)
      ∧ (∀ w ∈ (applyInsert x v).side, w.seq ≤ (applyInsert x v).mseq) ∧ (∀ t ∈ (applyInsert x v).tombs, t.2 ≤ (applyInsert x v).mseq))
    ∧ (∀ d, liveNow (applyDelete x d) d = false ∧ (∀ i, i ≠ d → liveNow (applyDelete x d) i = liveNow x i)
      ∧ (∀ w ∈ (applyDelete x d).side, w.seq ≤ (applyDelete x d).mseq) ∧ (∀ t ∈ (applyDelete x d).tombs, t.2 ≤ (applyDelete x d).mseq))
    ∧ (∀ i, liveNow (mergedIndex x x.mseq) i = liveNow x i) ∧ (mergedIndex x x.mseq).tombs = [] ∧ (mergedIndex x x.mseq).side = []

/-- The passes of a selection choose the K best. For at most four passes over mapped keys below 2^32 that agree where their leading bytes agree: the entries chosen number the lesser of K and the valid entries, and an entry that is not chosen has a smaller mapped key than every chosen one, or the same key and no lower position. (spec/10_selection.md, R302, R304, R307) -/
def Obligations.SelectionChoosesTheBest : Prop :=
  ∀ (passes k : Nat) (valid : List SelEntry), passes ≤ 4 → (∀ e ∈ valid, e.code < 2 ^ 32) →
    (∀ a ∈ valid, ∀ b ∈ valid, a.code / 2 ^ (32 - 8 * passes) = b.code / 2 ^ (32 - 8 * passes) → a.code = b.code) →
    (selectEntries passes k valid).chosen.length = min k valid.length
    ∧ (∀ e ∈ (selectEntries passes k valid).chosen, e ∈ valid)
    ∧ (∀ a ∈ valid, a ∉ (selectEntries passes k valid).chosen → ∀ b ∈ (selectEntries passes k valid).chosen,
        a.code < b.code ∨ (a.code = b.code ∧ b.pos ≤ a.pos))

/-- Mapped keys order the keys of every type as their values. Of two keys of one type the greater value has the greater mapped key: 32-bit unsigned and two's complement integers; FP32 by sign and magnitude, where magnitudes below 0x0080_0000 count as zero; BF16 and FP16 by sign and magnitude, where -0 counts as +0 and only bits [31:16] of the mapped key differ. DIR MIN turns the order round. (spec/10_selection.md, R301, R302) -/
def Obligations.MappedKeysKeepTheOrder : Prop :=
  (∀ (kt a b : Nat), kt ∈ [0, 3, 4] → a < 2 ^ 32 → b < 2 ^ 32 →
    ∀ v : Nat → Int, v = (fun (c : Nat) => if kt = 3 then (c : Int) else if kt = 4 then signedOf 32 c
        else if c % 2 ^ 31 < 0x00800000 then 0 else if c < 2 ^ 31 then (c : Int) else -((c % 2 ^ 31 : Nat) : Int)) →
    (mappedKey kt a false < mappedKey kt b false ↔ v a < v b) ∧ (mappedKey kt a true < mappedKey kt b true ↔ v b < v a))
  ∧ (∀ (kt a b : Nat), kt ∈ [1, 2] → a < 2 ^ 16 → b < 2 ^ 16 →
    ∀ v : Nat → Int, v = (fun (c : Nat) => if c < 2 ^ 15 then (c : Int) else -((c % 2 ^ 15 : Nat) : Int)) →
    (mappedKey kt a false < mappedKey kt b false ↔ v a < v b) ∧ (mappedKey kt a true < mappedKey kt b true ↔ v b < v a)
      ∧ mappedKey kt a false % 2 ^ 16 = mappedKey kt b false % 2 ^ 16 ∧ mappedKey kt a true % 2 ^ 16 = mappedKey kt b true % 2 ^ 16)

/-- Indexes are created, filled, changed, searched, merged, measured, dropped. On a module that alone holds the index, commands whose parameters pass their checks complete: INDEX_CREATE with storage records an empty index under an unused ID; INDEX_LOAD fills an empty shard; VEC_INSERT, VEC_DELETE and INDEX_MERGE within the limits and the storage leave the shard as R289, R293 and R295 say; SEARCH (without a non-finite query where NAN_TRAP is set, no payload missing) writes the results of its own shard; INDEX_STATS returns the 128 bytes; INDEX_DROP removes the index. Each of these forms answers exec = next with that effect: indexCreate, indexDrop, indexLoad, vecInsert, vecDelete, indexMerge, search, indexStats. (spec/09_vector_search.md, R265, R266, R267, R268, R269, R271, R289, R292, R293, R294, R300) -/
def Obligations.IndexCommandsComplete : Prop :=
  (∀ (s s1 : State) (h : Nat) (f : Flight) (x : VecIndex), Ready indexCreateCommand s h f → scopeModules s f.hdr = [s.fabric.view.self] →
      fromPeer f = false → f.content = none → fitIndex (newIndex f [s.fabric.view.self] (centroidsOf s f)) (drawFree s).2 = .ok (x, s1) →
      ∃ id, id < 4096 ∧ khas s.indexes.indexes id = false
        ∧ exec (.indexCreate h) s = announces indexCreateCommand s f (setIndex id x s1) (okReply (toLe 4 id ++ zeros 4)))
  ∧ (∀ (s : State) (h : Nat) (f : Flight) (x : VecIndex), Ready indexDropCommand s h f → indexOf s (par f 0 4) = some x →
      (fromPeer f = true ∨ indexMembers s f = [s.fabric.view.self]) →
      ∃ u, exec (.indexDrop h) s = announces indexDropCommand s f u (okReply []) ∧ indexOf u (par f 0 4) = none
        ∧ (∀ j, j ≠ par f 0 4 → indexOf u j = indexOf s j) ∧ u.tables = s.tables)
  ∧ (∀ (s s1 : State) (h : Nat) (f : Flight) (x x1 : VecIndex), Ready indexLoadCommand s h f → indexOf s (par f 0 4) = some x → x.shard = [s.fabric.view.self] →
      par f 4 4 = 0 → x.main = [] → x.side = [] → x.tombs = [] →
      fitIndex (rebuildLists (((recordsOf x (dataOf f (fun _ => loadContent s f))).map (·.list)).eraseDups)
        { x with main := recordsOf x (dataOf f (fun _ => loadContent s f)) }) s = .ok (x1, s1) →
      exec (.indexLoad h) s = commits indexLoadCommand s f (setIndex (par f 0 4) x1 s1)
        (okReply (toLe 8 (recordsOf x (dataOf f (fun _ => loadContent s f))).length)))
  ∧ (∀ (s s1 : State) (h : Nat) (f : Flight) (x y y1 : VecIndex) (vs : List StoredVec), Ready vecInsertCommand s h f → indexOf s (par f 0 4) = some x →
      x.shard = [s.fabric.view.self] → vs = recordsOf x (dataOf f (fun _ => insertContent s f s.fabric.view.self)) → y = (lastOfIds vs).foldl applyInsert x →
      overLimits y = false →
      fitIndex y (bump .flushFp32 f.tenant (listSum (((lastOfIds vs).filter (fun v => v.list == 0xFFFFFFFF)).map (fun v => (assignList x v.vec).2))) s) = .ok (y1, s1) →
      ∃ r, exec (.vecInsert h) s = commits vecInsertCommand s f (setIndex (par f 0 4) y1 s1) r ∧ r.status = .ok ∧ r.result.length = 16
        ∧ fld r.result 8 4 = (vs.length - (lastOfIds vs).length) % 2 ^ 32)
  ∧ (∀ (s s1 : State) (h : Nat) (f : Flight) (x y y1 : VecIndex) (ids : List Nat), Ready vecDeleteCommand s h f → indexOf s (par f 0 4) = some x →
      x.shard = [s.fabric.view.self] → fromPeer f = false → f.content = none →
      ids = (List.range ((deleteContent s f s.fabric.view.self).length / 8)).map (fun i => fld (deleteContent s f s.fabric.view.self) (8 * i) 8) →
      y = (lastOnes ids).foldl applyDelete x → overLimits y = false → fitIndex y s = .ok (y1, s1) →
      ∃ r, exec (.vecDelete h) s = commits vecDeleteCommand s f (setIndex (par f 0 4) y1 s1) r ∧ r.status = .ok ∧ r.result.length = 16)
  ∧ (∀ (s s1 s2 s3 : State) (h a : Nat) (b : List Nat) (f : Flight) (x y1 : VecIndex), Ready indexMergeCommand s h f → indexOf s (par f 0 4) = some x →
      x.shard = [s.fabric.view.self] → x.merging = none →
      takeStorage x.tenant 1 x.codeDie (pageBytes (indexT1 x.vfmt x.dim 0
        ((mergedIndex x x.mseq).main.filter (fun v => (changedLists x x.mseq).contains v.list)).length 0 0)) s = .ok (a, s1) →
      resizeHold x.tenant x.vecTier 0xFF (pageBytes (vecPitch x.vfmt x.dim x.payLen * (x.side.filter (sideLive x x.mseq)).length)) [] s1 = .ok (b, s2) →
      fitIndex (rebuildLists (changedLists x x.mseq) (mergedIndex x x.mseq)) s = .ok (y1, s3) →
      ∃ r, exec (.indexMerge h) s = commits indexMergeCommand s f (setIndex (par f 0 4) y1 s3) r ∧ r.status = .ok
        ∧ fld r.result 0 4 = (x.side.filter (sideLive x x.mseq)).length % 2 ^ 32)
  ∧ (∀ (s u : State) (h : Nat) (f : Flight) (x : VecIndex) (own : List SearchPart × SearchWork) (r : Reply) (payloads : List (Nat × Bytes)),
      flightOf s h = some f → f.op = .search → mayRun s f = true → searchCheck s f = none → indexOf s (par f 0 4) = some x →
      x.shard = [s.fabric.view.self] → (∀ j ∈ s.indexes.jobs, j.serial ≠ h) →
      readsFail s ((List.range (par f 4 4)).map (fun j => (par f 16 8 + j * par f 24 4, queryLen x (par f 12 1)))) = none →
      own = ownParts s x (par f 12 1) (par f 8 4) 0 (queriesOf s f x) → neededMark s x own.2.scanned.flatten = none →
      (bitOf (par f 48 8) 0 = true → ∀ q ∈ queriesOf s f x, nonFinite (par f 12 1) x.dim q = none) →
      searchDone f x ⟨f.serial, f.hdr.commandId, par f 0 4, [], own.1, [], own.2, [], [], []⟩ payloads (chargeHub 26 f.tenant s) = .done u r →
      exec (.search h payloads) s = nextOf s (finish f r (endWork f.serial 3 0 u)))
  ∧ (∀ (s : State) (h : Nat) (f : Flight) (x : VecIndex), Ready indexStatsCommand s h f → indexOf s (par f 0 4) = some x → x.shard = [s.fabric.view.self] →
      exec (.indexStats h) s = commits indexStatsCommand s f s (okReply (indexStatsBytes x (par f 4 4 == 0xFFFFFFFF))))

/-- Selections and merges complete; search messages are answered. SELECT_TOPK and SELECT_MERGE whose parameters pass their checks, whose inputs can be read and hold no NaN where NAN_TRAP is set, write their entries, counts and payloads and reply with the status and the counts of R311, R319; a SEARCH_REQ for an index held here is answered with this shard's parts at its snapshot; a SEARCH_RESP adds its parts or its failure to the search it is about, and the last one awaited ends a SEARCH; a well-formed SELECT_MERGE message leaves its merged entries and counts here. Each of these forms answers exec = next with that effect: selectTopk, selectMerge, searchReq, searchResp, selectMergeMsg. (spec/09_vector_search.md, R296, R297; spec/10_selection.md, R308, R309, R310, R311, R312, R313, R314, R315, R316, R317, R318, R319, R320; spec/14_fabric_links.md, R430) -/
def Obligations.SelectionCommandsComplete : Prop :=
  (∀ (s s1 : State) (h : Nat) (f : Flight) (out : List (Nat × TopkRow)) (pay : Nat → Nat → Nat), Ready selectTopkCommand s h f →
      readsFail s ((List.range (par f 0 4)).map (fun j => (par f 16 8 + j * par f 24 8, par f 8 8 * keyWidth (par f 70 1)))) = none →
      out = (List.range (par f 0 4)).map (fun j => (j, topkRow s f j)) →
      (bitOf (par f 72 8) 0 = true → ∀ r ∈ out, ∀ c ∈ r.2.keys, keyNan (par f 70 1) c = false) →
      pay = (fun j i => par f 48 8 + (j * par f 8 8 + i) * par f 64 4) →
      (bitOf (par f 71 1) 2 = true → readsFail s (out.flatMap (fun r => r.2.written.map (fun e => (pay r.1 e.src, par f 68 2)))) = none) →
      commitWrites (some f.serial) f.tenant (out.map (fun r => (par f 32 8 + r.1 * par f 4 4 * 16,
          r.2.written.flatMap (fun e => selEntryBytes e.src (nth r.2.keys e.src) 0)
            ++ (List.replicate (par f 4 4 - r.2.written.length) (selSentinel (par f 70 1) (bitOf (par f 71 1) 0))).flatten))
        ++ (if par f 40 8 = 0 then [] else out.map (fun r => (par f 40 8 + 8 * r.1, toLe 4 r.2.valid ++ toLe 4 r.2.sel.ties)))
        ++ (if bitOf (par f 71 1) 2 then out.map (fun r => (par f 56 8 + r.1 * par f 4 4 * par f 68 2,
            r.2.written.flatMap (fun e => memRead s (pay r.1 e.src) (par f 68 2)) ++ zeros ((par f 4 4 - r.2.written.length) * par f 68 2))) else [])) 0
        (chargeHub 26 f.tenant s) = .done s1 →
      ∃ u r, exec (.selectTopk h) s = commits selectTopkCommand s f u r ∧ u.mem = s1.mem ∧ u.tiers = s1.tiers ∧ u.proto = s1.proto
        ∧ fld r.result 0 8 = listSum (out.map (fun r => r.2.written.length)) % 2 ^ 64
        ∧ r.status = (if out.all (fun r => decide (par f 4 4 ≤ r.2.valid)) then .ok else .okPartial))
  ∧ (∀ (s s1 : State) (h : Nat) (f : Flight) (m : Merged) (pay : MergeEntry → Nat), Ready selectMergeCommand s h f →
      (bitOf (par f 40 8) 0 = true → ∀ e ∈ (mergeInput s f).flatten, isSentinel e = false → keyNan (par f 34 1) e.key = false) →
      m = mergeLists (par f 34 1) (par f 4 4) (bitOf (par f 35 1) 0) (bitOf (par f 35 1) 1) (bitOf (par f 35 1) 3) (mergeInput s f) →
      pay = (fun e => (((mergeDescs s f)[e.list]?).map (·.2.2.1)).getD 0 + e.place * par f 32 2) →
      (bitOf (par f 35 1) 2 = true → readsFail s (m.result.map (fun e => (pay e, par f 32 2))) = none) →
      commitWrites (some f.serial) f.tenant ([(par f 16 8, m.result.flatMap (fun e => selEntryBytes e.id e.key (e.info % 2 ^ 31))
          ++ (List.replicate (par f 4 4 - m.result.length) (selSentinel (par f 34 1) (bitOf (par f 35 1) 0))).flatten)]
        ++ (if bitOf (par f 35 1) 2 then [(par f 24 8, m.result.flatMap (fun e => memRead s (pay e) (par f 32 2))
            ++ zeros ((par f 4 4 - m.result.length) * par f 32 2))] else [])) 0 (chargeHub 26 f.tenant s) = .done s1 →
      ∃ u r, exec (.selectMerge h) s = commits selectMergeCommand s f u r ∧ u.mem = s1.mem ∧ u.tiers = s1.tiers ∧ (m.mismatches = [] → u.host = s1.host)
        ∧ r.result = mergeCounts m ∧ r.status = (if m.valid < par f 4 4 then .okPartial else .ok))
  ∧ (∀ (s : State) (peer : Nat) (plain : Bytes) (m : Msg) (x : VecIndex), Arrives 0x05 peer plain s m → zeroAt m.body 18 6 = true →
      servedShard (heardFrom peer s) peer m.corr m.tenant (fld m.body 0 4) = some x →
      m.body.length = 24 + fld m.body 8 4 * queryLen x (fld m.body 16 1) →
      neededMark (heardFrom peer s) x (ownParts (heardFrom peer s) x (fld m.body 16 1) (fld m.body 12 4) (fld m.body 4 4)
        (pieces (queryLen x (fld m.body 16 1)) (fld m.body 8 4) (m.body.drop 24))).2.scanned.flatten = none →
      ∃ u, exec (.searchReq peer plain) s = nextOf s (sendParts peer m.tenant m.corr (fld m.body 0 4) (max 1 (2097000 / (8 + 16 * fld m.body 12 4)))
          (fld m.body 8 4) (fld m.body 4 4)
          (ownParts (heardFrom peer s) x (fld m.body 16 1) (fld m.body 12 4) (fld m.body 4 4)
            (pieces (queryLen x (fld m.body 16 1)) (fld m.body 8 4) (m.body.drop 24))).1 u)
        ∧ u.mem = s.mem ∧ u.proto = s.proto ∧ u.tables = (heardFrom peer s).tables ∧ u.indexes.indexes = s.indexes.indexes)
  ∧ (∀ (s u : State) (peer : Nat) (plain : Bytes) (m : Msg) (job j : SearchJob) (f : Flight) (x : VecIndex) (ps : List SearchPart),
      Arrives 0x06 peer plain s m →
      s.indexes.jobs.find? (fun j => j.commandId == m.corr && j.index == fld m.body 0 4 && j.awaited.contains peer) = some job →
      flightOf s job.serial = some f → indexOf s job.index = some x →
      (fld m.body 12 2 = 0 → partsIn peer (fld m.body 8 4) (fld m.body 4 4) (m.body.drop 16) = some ps) → (fld m.body 12 2 ≠ 0 → ps = []) →
      j = { job with
        parts := job.parts ++ ps
        failures := if fld m.body 12 2 = 0 then job.failures else job.failures ++ [(peer, fld m.body 12 2)]
        awaited := if fld m.body 12 2 ≠ 0 ∨ (if f.op = .search then par f 4 4 else 1) ≤ ((job.parts ++ ps).filter (fun p => p.module == peer)).length
          then job.awaited.filter (· != peer) else job.awaited } →
      u = { heardFrom peer s with indexes := { s.indexes with jobs := s.indexes.jobs.map (fun k => if k.serial = job.serial then j else k) } } →
      exec (.searchResp peer plain) s = nextOf s (if j.awaited = [] ∧ f.op = .search then settleVerdict f (searchDone f x j [] u) u else u))
  ∧ (∀ (s : State) (peer : Nat) (plain : Bytes) (m : Msg) (lists : List (List MergeEntry)), Arrives 0x07 peer plain s m → zeroAt m.body 10 6 = true →
      1 ≤ fld m.body 0 4 → fld m.body 0 4 ≤ 4096 → keyTypeValid (fld m.body 8 1) = true → fld m.body 9 1 < 16 →
      lists = messageLists m.body (fld m.body 0 4) 0 (16 + 8 * fld m.body 0 4) →
      m.body.length = 16 + 8 * fld m.body 0 4 + 16 * lists.flatten.length → (∀ i, i < fld m.body 0 4 → zeroAt m.body (20 + 8 * i) 4 = true) →
      ∃ u e, exec (.selectMergeMsg peer plain) s = nextOf s u ∧ u.indexes.merged = s.indexes.merged ++ [e] ∧ e.peer = peer ∧ e.corr = m.corr
        ∧ (∀ x, x = mergeLists (fld m.body 8 1) (fld m.body 4 4) (bitOf (fld m.body 9 1) 0) (bitOf (fld m.body 9 1) 1) (bitOf (fld m.body 9 1) 3) lists →
          e.entries = x.result.map (fun y => (y.id, y.key, y.info % 2 ^ 31)) ∧ e.counts = mergeCounts x)
        ∧ e.entries.length ≤ fld m.body 4 4 ∧ u.mem = s.mem ∧ u.indexes.indexes = s.indexes.indexes)

/-- Requests are submitted, cancelled, asked about; key/value images leave and enter. REQUEST_SUBMIT whose checks pass (budget and contract among them) adds exactly one request, QUEUED, with the command's ID and tenant, the pipeline, MAX_NEW and DEADLINE_NS in force and a stream bound to it, and no memory changes; REQUEST_CANCEL ends the named request with CANCELLED, or reports that it is ending; REQUEST_STATUS returns its 32 bytes; KV_EXPORT of a held request writes its image and ends the request; KV_IMPORT with frames free records the image under an unused handle. Each of these forms answers exec = next with that effect: requestSubmit, requestCancel, requestStatus, kvExport, kvImport. (spec/12_serving_control.md, R358, R359, R369, R370, R381, R382) -/
def Obligations.RequestCommandsComplete : Prop :=
  (∀ (s : State) (h : Nat) (f : Flight) (p : Pipeline), Ready requestSubmitCommand s h f → submitPipe s f = some p →
      ∃ r t x, exec (.requestSubmit h) s = begins s f t ∧ t.serve.requests = s.serve.requests ++ [r] ∧ r.serial = f.serial ∧ r.tenant = f.tenant
        ∧ r.entry = s.fabric.view.self ∧ r.id = f.hdr.commandId ∧ r.session = f.hdr.sessionId ∧ r.pipe = p ∧ r.state = .queued ∧ r.arrival = f.taken
        ∧ r.maxNew = (if par f 20 4 = 0 then p.maxNew else par f 20 4) ∧ r.deadline = (if par f 64 8 = 0 then p.deadline else par f 64 8)
        ∧ kget t.text.streams r.stream = some x ∧ x.request = some f.serial ∧ t.mem = s.mem ∧ t.host = s.host ∧ t.tiers = s.tiers)
  ∧ (∀ (s : State) (h : Nat) (f : Flight) (r : Request), Ready requestCancelCommand s h f →
      s.serve.requests.find? (fun r => r.tenant == par f 8 2 && r.entry == s.fabric.view.self && r.id == par f 0 8) = some r →
      (r.state ≠ .ending → exec (.requestCancel h) s = commits requestCancelCommand s f (endRequest r ⟨7, .cancelled, 0, 0xFFFF⟩ s) (okReply (zeros 8)))
      ∧ (r.state = .ending → exec (.requestCancel h) s = commits requestCancelCommand s f s (okReply (toLe 1 1 ++ zeros 7))))
  ∧ (∀ (s : State) (h : Nat) (f : Flight) (r : Request), Ready requestStatusCommand s h f →
      s.serve.requests.find? (fun r => r.tenant == par f 8 2 && r.entry == s.fabric.view.self && r.id == par f 0 8) = some r →
      ∃ b, exec (.requestStatus h) s = commits requestStatusCommand s f s (okReply b) ∧ b.length = 32 ∧ fld b 0 1 = r.state.code
        ∧ fld b 8 4 = r.promptTokens % 2 ^ 32 ∧ fld b 12 4 = r.consumed % 2 ^ 32 ∧ fld b 24 8 = r.arrival % 2 ^ 64)
  ∧ (∀ (s s1 : State) (h : Nat) (f : Flight) (r : Request) (m : Model), Ready kvExportCommand s h f → exported s f = some (r, m) →
      commitWrites (some f.serial) f.tenant [(par f 8 8, kvImageBytes m r ((r.kv.map (·.cells)).getD []))] 0 s = .done s1 →
      exec (.kvExport h) s = commits kvExportCommand s f (endRequest r ⟨6, .ok, 0, 0xFFFF⟩ s1) (okReply []))
  ∧ (∀ (s s0 s1 : State) (h n : Nat) (f : Flight) (frames : List Nat), Ready kvImportCommand s h f →
      n = fld (memRead s (par f 0 8) (par f 8 4)) 6 2 * fld (memRead s (par f 0 8) (par f 8 4)) 28 4 →
      findFrames (some f.serial) f.tenant n s = .found s0 → giveFrames f.tenant n [0, 0, 0, 0] s0 = some (frames, s1) →
      ∃ k t x, exec (.kvImport h) s = commits kvImportCommand s f t (okReply (toLe 4 k ++ zeros 4)) ∧ k ∉ kkeys s1.serve.images
        ∧ kget t.serve.images k = some x ∧ x.tenant = f.tenant ∧ x.positions = fld (memRead s (par f 0 8) (par f 8 4)) 12 4 ∧ x.pages.frames = frames
        ∧ (∀ j, j ≠ k → kget t.serve.images j = kget s1.serve.images j) ∧ t.mem = s1.mem ∧ t.tiers = s1.tiers ∧ t.serve.requests = s1.serve.requests)

/-- Stages, timers and deadlines of requests. Events of a request that is not ending take effect: a stage that is due waits until its cell item has been granted cells in the order of service (R3, R387), then it runs and its cells are free, and the request fails where the stage fails; a decode step runs here, or the entry member consumes the tokens of one run elsewhere; a queued request whose input can be read takes its prompt and reserves its pages; room in the ring lets the next chunk be held; CHUNK_US after its first token an open chunk is posted; a request past its deadline ends with DEADLINE_MISSED; one that is ending frees all that this module holds for it. Each of these forms answers exec = next with that effect: retrievalStage, prefillStage, decodeStep, pageReservation, chunkReservation, chunkTimer, requestDeadline, requestFree. (spec/12_serving_control.md, R362 to R368, R373, R379, R380; spec/00_scope.md, R3; spec/13_scheduling_fairness.md, R384, R385, R387) -/
def Obligations.RequestEventsTakeEffect : Prop :=
  (∀ (s s1 : State) (serial now : Nat) (q : Request) (fetched : List (Nat × Nat × Nat × Bytes)), s1 = syncStages (advance now s) →
      (requestOf (advance now s) serial).any (fun r => r.state ≠ .ending) = true → requestOf s1 serial = some q → q.state = .prefilling →
      q.holder = s1.fabric.view.self → holdsCells s1 serial = true →
      (∀ u, (prefillStage q fetched).run (removeItems (handoverSerial serial) s1) = (.ok (), u) →
        exec (.prefillStage serial fetched now) s = nextOf s (stageOver serial (dropFetching (handoverSerial serial) u)))
      ∧ (∀ st d u, (prefillStage q fetched).run (removeItems (handoverSerial serial) s1) = (.error (.fails st d), u) →
        ∃ v, exec (.prefillStage serial fetched now) s = nextOf s (stageOver serial (failRequest ((requestOf v serial).getD q) st d v))
          ∧ v = dropFetching (handoverSerial serial) { u with counters := v.counters }))
  ∧ (∀ (s s1 : State) (serial now : Nat) (q : Request) (fetched : List (Nat × Nat × Nat × Bytes)), s1 = syncStages (advance now s) →
      (requestOf (advance now s) serial).any (fun r => r.state ≠ .ending) = true → requestOf s1 serial = some q → q.state = .decoding →
      (q.holder ≠ s1.fabric.view.self → exec (.decodeStep serial fetched now) s = nextOf s (consumeAll q s1))
      ∧ (q.holder = s1.fabric.view.self → stepsNext s1 q = false → exec (.decodeStep serial fetched now) s = nextOf s (decodeRow q fetched s1))
      ∧ (q.holder = s1.fabric.view.self → stepsNext s1 q = true → (isEntry s1 q = false ∨ budgetOpen s1 q = true) → holdsCells s1 serial = true →
        exec (.decodeStep serial fetched now) s = nextOf s (stageOver serial (decodeRow q fetched s1)))
      ∧ (q.holder = s1.fabric.view.self → stepsNext s1 q = true → isEntry s1 q = true → budgetOpen s1 q = false →
        ∃ u, budgetGate q s1 = .stop u ∧ exec (.decodeStep serial fetched now) s = nextOf s u))
  ∧ (∀ (s s1 u : State) (serial now : Nat) (q : Request) (j : SearchJob) (fetched : List (Nat × Nat × Nat × Bytes)) (payloads : List (Nat × Bytes)),
      s1 = syncStages (advance now s) → (requestOf (advance now s) serial).any (fun r => r.state ≠ .ending) = true → requestOf s1 serial = some q →
      q.state = .retrieving → s1.indexes.jobs.find? (fun j => j.serial == serial) = some j → j.awaited = [] → holdsCells s1 serial = true →
      (retrievalEnd q j fetched payloads).run (removeItems (handoverSerial serial) s1) = (.ok (), u) →
      exec (.retrievalStage serial fetched payloads now) s = nextOf s (stageOver serial (dropFetching (handoverSerial serial) u)))
  ∧ (∀ (s s1 u : State) (serial now : Nat) (q : Request) (fetched : List (Nat × Nat × Nat × Bytes)) (payloads : List (Nat × Bytes)),
      s1 = syncStages (advance now s) → (requestOf (advance now s) serial).any (fun r => r.state ≠ .ending) = true → requestOf s1 serial = some q →
      retrieves q.pipe = true → q.state = .queued → q.prompt = [] → q.rtp = none → holdsCells s1 serial = true →
      (retrievalBegin q fetched).run (removeItems (handoverSerial serial) s1) = (.ok (), u) →
      (∃ r, requestOf u serial = some r ∧ ∃ j ∈ u.indexes.jobs, j.serial = serial ∧ j.awaited ≠ [] ∧ u.indexes.jobs.find? (fun j => j.serial == serial) = some j) →
      exec (.retrievalStage serial fetched payloads now) s = nextOf s (stageOver serial (dropFetching (handoverSerial serial) u)))
  ∧ (∀ (s : State) (serial now : Nat) (fetched : List (Nat × Nat × Nat × Bytes)) (q : Request), requestOf (syncStages (advance now s)) serial = some q →
      (requestOf (advance now s) serial).any (fun r => r.state ≠ .ending) = true → (stageModel (syncStages (advance now s)) q).isSome = true →
      holdsCells (syncStages (advance now s)) serial = false →
      exec (.prefillStage serial fetched now) s = nextOf s (syncStages (advance now s))
      ∧ exec (.decodeStep serial fetched now) s = nextOf s (syncStages (advance now s))
      ∧ ∀ payloads, exec (.retrievalStage serial fetched payloads now) s = nextOf s (syncStages (advance now s)))
  ∧ (∀ (s s1 : State) (serial now : Nat) (q : Request), s1 = advance now s → serial < 2 ^ 64 → requestOf s serial = some q → q.state = .queued →
      q.pipe.kind = 2 → q.prompt = [] →
      readFails s1 (fld q.params 8 8) (if bitOf (fld q.params 2 1) 0 then 4 * fld q.params 16 4 else fld q.params 16 4) = none →
      ∃ r, r = { q with prompt := r.prompt, promptTokens := r.prompt.length }
        ∧ r.prompt = inputTokens s1 q.pipe (bitOf (fld q.params 2 1) 0) (fld q.params 8 8) (fld q.params 16 4)
        ∧ ∃ cs, exec (.pageReservation serial now) s = nextOf s (tryPages r (setRequest r (cs.foldl (fun (t : State) (c : Ctr × Nat × Nat) => bump c.1 c.2.1 c.2.2 t) s1)))
          ∧ (bitOf (fld q.params 2 1) 0 = true → cs = []))
  ∧ (∀ (s s1 : State) (serial now : Nat) (q : Request), s1 = advance now s → requestOf s serial = some q → q.state ≠ .ending → q.chunkHeld = false →
      isEntry s q = true → q.slots ≤ cqFree (cqOf s1.host (requestRing s1 q)) →
      exec (.chunkReservation serial now) s = nextOf s
        (consumeAll { q with
            chunkHeld := true
            ringWait := false } (setRequest { q with
            chunkHeld := true
            ringWait := false } (requestSlots q true s1))))
  ∧ (∀ (s s1 : State) (serial now : Nat) (q : Request), s1 = advance now s → requestOf s serial = some q → q.state ≠ .ending → q.chunkUs ≠ 0 →
      q.chunkTokens ≠ [] → q.chunkSince + q.chunkUs * 1000 ≤ s1.frontTime →
      exec (.chunkTimer serial now) s = nextOf s (setRequest (rollChunk q s1).1 (rollChunk q s1).2))
  ∧ (∀ (s s1 : State) (serial now : Nat) (q : Request), s1 = advance now s → requestOf s serial = some q → q.state ≠ .ending → isEntry s q = true →
      q.arrival + q.deadline ≤ s1.frontTime →
      exec (.requestDeadline serial now) s = nextOf s (endRequest q ⟨7, .deadlineMissed, 0, 0xFFFF⟩ s1))
  ∧ (∀ (s : State) (serial : Nat) (q : Request), requestOf s serial = some q → q.state = .ending →
      exec (.requestFree serial) s = nextOf s (freeRequest q s))
  ∧ (∀ (s : State) (q : Request), requestOf (freeRequest q s) q.serial = none)

/-- Key/value pages are shipped, held unseen, dropped. KV_SHIP messages that pass their checks take effect: OPEN for a decode pipeline of the tenant, on a module whose role admits it, whose tag agrees and whose quota would hold the pages, is accepted when a channel and frames are free; ACCEPT ships every page once; PAGE of the attempt is held; ABORT drops the attempt's pages and awaits the next attempt; REFUSE fails the request. A TILE partial for a layer run under way waits in its slot, once. Each of these forms answers exec = next with that effect: kvShipOpen, kvShipAccept, kvShipPage, kvShipAbort, kvShipRefuse, tile. (spec/12_serving_control.md, R368; spec/06_fused_chains.md, R207; spec/14_fabric_links.md, R430) -/
def Obligations.HandoverMessagesTakeEffect : Prop :=
  (∀ (s : State) (peer : Nat) (plain : Bytes) (m : Msg) (p : Pipeline) (d : Model), Arrives 0x02 peer plain s m → fld m.body 0 1 = 0 →
      zeroAt m.body 1 1 = true → zeroAt m.body 18 2 = true → m.body.length = 24 → kget s.serve.pipelines (fld m.body 6 2) = some p → p.tenant = m.tenant →
      p.kind = 4 → modelOf s p.decoder = some d → s.fabric.leaving = [] → admitsKv s.role = true → d.tag = fld m.body 8 4 →
      overFrames s m.tenant (pagesNeeded s p (fld m.body 12 4) p.maxNew) = false →
      exec (.kvShipOpen peer plain) s = nextOf s (tryAccept ⟨peer, m.tenant, fld m.body 2 2, m.corr, fld m.body 4 2, 0, fld m.body 6 2, fld m.body 8 4,
        fld m.body 12 4, false, ⟨[], []⟩, []⟩ (heardFrom peer s)))
  ∧ (∀ (s s1 : State) (x : Inbound2) (p : Pipeline) (ch : Nat) (frames : List Nat), kget s.serve.pipelines x.nextPipe = some p →
      firstFree (heldChannels s x.peer) 4 4092 = some ch →
      takeFrames x.tenant ((pagesNeeded s p x.prompt p.maxNew).1 + (pagesNeeded s p x.prompt p.maxNew).2) s = (some frames, s1) →
      { x with accepted := true, channel := ch, pages := ⟨frames, []⟩ } ∈ (tryAccept x s).serve.inbound ∧ 4 ≤ ch ∧ ch ∉ heldChannels s x.peer)
  ∧ (∀ (s : State) (peer : Nat) (plain : Bytes) (m : Msg) (r : Request) (d : Model), Arrives 0x02 peer plain s m → fld m.body 0 1 = 1 →
      zeroAt m.body 1 1 = true → zeroAt m.body 18 2 = true → m.body.length = 24 → shipping s peer m = some r → servedModel s r.pipe.decoder = some d →
      (r.shipped = false → exec (.kvShipAccept peer plain) s = nextOf s (coordinateShip { r with shipped := true } peer
        (setRequest { r with shipped := true } (shipPages { r with shipped := true } d peer (heardFrom peer s)))))
      ∧ (r.shipped = true → exec (.kvShipAccept peer plain) s = nextOf s (heardFrom peer s)))
  ∧ (∀ (s : State) (peer : Nat) (plain : Bytes) (m : Msg) (x : Inbound2), Arrives 0x02 peer plain s m → fld m.body 0 1 = 2 →
      zeroAt m.body 1 1 = true → zeroAt m.body 18 2 = true → m.body.length = 65560 → inboundOf s peer m.tenant m.corr = some x → x.accepted = true →
      x.attempt = fld m.body 4 2 →
      ∃ u y, exec (.kvShipPage peer plain) s = nextOf s u ∧ inboundOf u peer m.tenant m.corr = some y ∧ y.got = (fld m.body 16 2, fld m.body 20 4) :: x.got
        ∧ y.pages.frames = x.pages.frames
        ∧ (x.pages.cells.wf = true → Memory.readN y.pages.cells (fld m.body 16 2 * 2 ^ 40 + fld m.body 20 4 * 2 ^ 16) 65536 = m.body.drop 24)
        ∧ u.mem = s.mem ∧ u.serve.requests = s.serve.requests)
  ∧ (∀ (s : State) (peer : Nat) (plain : Bytes) (m : Msg) (x : Inbound2), Arrives 0x02 peer plain s m → fld m.body 0 1 = 3 →
      zeroAt m.body 1 1 = true → zeroAt m.body 18 2 = true → m.body.length = 24 → inboundOf s peer m.tenant m.corr = some x → x.attempt = fld m.body 4 2 →
      ∃ u y, exec (.kvShipAbort peer plain) s = nextOf s u ∧ inboundOf u peer m.tenant m.corr = some y ∧ y.attempt = x.attempt + 1 ∧ y.got = []
        ∧ y.pages = ⟨x.pages.frames, []⟩)
  ∧ (∀ (s : State) (peer : Nat) (plain : Bytes) (m : Msg) (r : Request), Arrives 0x02 peer plain s m → fld m.body 0 1 = 4 →
      zeroAt m.body 1 1 = true → zeroAt m.body 18 2 = true → m.body.length = 24 → shipping s peer m = some r → fld m.body 20 4 = 0 →
      exec (.kvShipRefuse peer plain) s = nextOf s (failRequest { r with shipTo := none } .badFormat 48 (heardFrom peer s)))
  ∧ (∀ (s : State) (peer : Nat) (plain : Bytes) (m : Msg) (f : Flight) (job : LayerJob), Arrives 0x01 peer plain s m → zeroAt m.body 14 2 = true →
      1 ≤ fld m.body 12 1 → fld m.body 12 1 ≤ 128 → 1 ≤ fld m.body 13 1 → fld m.body 13 1 ≤ 128 →
      m.body.length = 16 + 4 * fld m.body 12 1 * fld m.body 13 1 → jobOfTile s m = some (f, job) →
      ∀ p : Partial, p = ⟨fld m.body 4 4, fld m.body 8 4, fld m.body 2 2, fld m.body 12 1, fld m.body 13 1,
        unpack 32 (fld m.body 12 1 * fld m.body 13 1) (m.body.drop 16), 0, false⟩ → tileFits s f job peer p = true →
      (∀ q ∈ job.partials, ¬ (q.layer = p.layer ∧ q.tile = p.tile ∧ q.slice = p.slice)) →
      exec (.tile peer plain) s = nextOf s (enterPartials f.serial (setJob { job with partials := job.partials ++ [p] } (heardFrom peer s))))

/-- Commands of a transaction are staged, each by its row. Every row of a command that a transaction may carry stages it when the command in flight has IN_TXN set: the outcome is that of staging, whatever the command would do. (spec/02_command_protocol.md, R60, R62, R64) -/
def Obligations.RowsStageTheirCommand : Prop :=
  ∀ (s : State) (h : Nat) (f : Flight), flightOf s h = some f → mayRun s f = true → f.hdr.inTxn = true →
    (f.op = .keyRetire → exec (.keyRetire h) s = nextOf s (stage keyRetireCommand f s))
    ∧ (f.op = .keyInstall → par f 0 1 = 0 → exec (.keyInstallSet h) s = nextOf s (stage keyInstallCommand f s))
    ∧ (f.op = .keyInstall → par f 0 1 = 2 → exec (.keyInstallExport h) s = nextOf s (stage keyInstallCommand f s))
    ∧ (f.op = .tenantCreate → exec (.tenantCreate h) s = nextOf s (stage tenantCreateCommand f s))
    ∧ (f.op = .tenantDestroy → exec (.tenantDestroy h) s = nextOf s (stage tenantDestroyCommand f s))
    ∧ (f.op = .roleSet → exec (.roleSet h) s = nextOf s (stage roleSetCommand f s))
    ∧ (f.op = .memAlloc → exec (.memAlloc h) s = nextOf s (stage memAllocCommand f s))
    ∧ (f.op = .memFree → exec (.memFree h) s = nextOf s (stage memFreeCommand f s))
    ∧ (f.op = .modelUnload → exec (.modelUnload h) s = nextOf s (stage modelUnloadCommand f s))
    ∧ (f.op = .steerSetLoad → exec (.steerSetLoad h) s = nextOf s (stage steerSetLoadCommand f s))
    ∧ (f.op = .steerSetDrop → exec (.steerSetDrop h) s = nextOf s (stage steerSetDropCommand f s))
    ∧ (f.op = .chainDefine → exec (.chainDefine h) s = nextOf s (stage chainDefineCommand f s))
    ∧ (f.op = .tableCreate → exec (.tableCreate h) s = nextOf s (stage tableCreateCommand f s))
    ∧ (f.op = .tableDrop → exec (.tableDrop h) s = nextOf s (stage tableDropCommand f s))
    ∧ (f.op = .hotPolicySet → exec (.hotPolicySet h) s = nextOf s (stage hotPolicyCommand f s))
    ∧ (f.op = .indexCreate → exec (.indexCreate h) s = nextOf s (stage indexCreateCommand f s))
    ∧ (f.op = .indexDrop → exec (.indexDrop h) s = nextOf s (stage indexDropCommand f s))
    ∧ (f.op = .stopSet → exec (.stopSet h) s = nextOf s (stage stopSetCommand f s))
    ∧ (f.op = .pipelineDefine → bitOf (par f 3 1) 1 = false → exec (.pipelineDefine h) s = nextOf s (stage pipelineCommand f s))
    ∧ (f.op = .pipelineDefine → bitOf (par f 3 1) 1 = true → exec (.pipelineDelete h) s = nextOf s (stage pipelineCommand f s))
    ∧ (f.op = .sharesSet → exec (.sharesSet h) s = nextOf s (stage sharesSetCommand f s))
    ∧ (f.op = .budgetSet → budgetNone f = false → exec (.budgetSet h) s = nextOf s (stage budgetCommand f s))
    ∧ (f.op = .budgetSet → budgetNone f = true → exec (.budgetRemove h) s = nextOf s (stage budgetCommand f s))
    ∧ (f.op = .frontForm → exec (.frontForm h) s = nextOf s (stage frontFormCommand f s))
    ∧ (f.op = .frontJoin → par f 0 1 = 0 → exec (.frontJoinCandidate h) s = nextOf s (stage frontJoinCommand f s))
    ∧ (f.op = .frontJoin → par f 0 1 = 1 → exec (.frontJoinAdmit h) s = nextOf s (stage frontJoinCommand f s))
    ∧ (f.op = .frontLeave → exec (.frontLeave h) s = nextOf s (stage frontLeaveCommand f s))
    ∧ (f.op = .linkConfig → exec (.linkConfig h) s = nextOf s (stage linkConfigCommand f s))
    ∧ (f.op = .anchorSet → exec (.anchorSet h) s = nextOf s (stage anchorSetCommand f s))
    ∧ (f.op = .powerCapSet → exec (.powerCapSet h) s = nextOf s (stage powerCapCommand f s))
    ∧ (f.op = .statePolicySet → exec (.statePolicySet h) s = nextOf s (stage statePolicyCommand f s))

/-- A command that fails a check ends with that check's status, without effect. A command outside a transaction, run on this module alone, by its entry member or by the members of its object, whose check fails posts its final record with the status and DETAIL of the check and has no other effect; one of good length whose scope names an unreachable module ends with MEMBER_UNREACHABLE and the module's ID; on a STALE module one of good length whose scope names others ends with EPOCH_STALE. (R49; R55; R449; R450) -/
def Obligations.FailedChecksHaveNoEffect : Prop :=
  ∀ (c : Command) (s : State) (h : Nat) (f : Flight), flightOf s h = some f → f.op = c.op → mayRun s f = true → f.hdr.inTxn = false →
    (∀ st d, c.check s f = some (st, d) → Here s f → execCommand c h s = rejects s f st d)
    ∧ (∀ st d, c.check s f = some (st, d) → execEntry c h s = rejects s f st d)
    ∧ (∀ st d mods, c.check s f = some (st, d) → execAt c mods h s = rejects s f st d)
    ∧ (∀ st d, c.check s f = none → (c.changes && lockedAny s (c.writes s f)) = false → c.waits s f = false → c.run s f = .reject st d → Here s f →
        execCommand c h s = rejects s f st d)
    ∧ (∀ a b l, fromPeer f = false → scopeModules s f.hdr = a :: b :: l → namesOne f = false → lengthFault (c.check s f) = false → s.fabric.view.rights = .stale →
        execCommand c h s = rejects s f .epochStale 0)
    ∧ (∀ a b l m, fromPeer f = false → scopeModules s f.hdr = a :: b :: l → namesOne f = false → lengthFault (c.check s f) = false → namesObject f.op = false →
        s.fabric.view.rights = .full →
        (a :: b :: l).find? (fun m => !reaches s m) = some m → execCommand c h s = rejects s f .memberUnreachable m)

/-- Fronts form, are joined and left; views and links are reported. FRONT_FORM and ADMIT with the view that its commit brings install it and consume the candidacy; a CANDIDATE is recorded with the time at the time source of its top front; FRONT_LEAVE of a member advances the view one epoch without it, of this module makes it a lone top front; ANCHOR_SET moves the anchor and advances the epoch; FRONT_VIEW and LINK_STATUS return the view and the 16 ports; LINK_CONFIG configures each named port; a candidacy ends after 600 s. Each of these forms answers exec = next with that effect: frontForm, frontJoinAdmit, frontJoinCandidate, frontLeave, anchorSet, frontView, linkConfig, linkStatus, candidacyExpiry. (spec/14_fabric_links.md, R438, R439, R441, R442, R444, R445) -/
def Obligations.FrontCommandsComplete : Prop :=
  (∀ (s : State) (h : Nat) (f : Flight) (v : View), Ready frontFormCommand s h f → Here s f → formedView f = some v →
      exec (.frontForm h) s = commits frontFormCommand s f (installView v s.frontTime { s with fabric := { s.fabric with candidacy := none } }) (okReply []))
  ∧ (∀ (s : State) (h : Nat) (f : Flight) (v : View), Ready frontJoinCommand s h f → Here s f → par f 0 1 = 1 → formedView f = some v →
      exec (.frontJoinAdmit h) s = commits frontJoinCommand s f (installView v s.frontTime { s with fabric := { s.fabric with candidacy := none } }) (okReply []))
  ∧ (∀ (s : State) (h : Nat) (f : Flight), Ready frontJoinCommand s h f → Here s f → par f 0 1 = 0 → (fromPeer f = true ∨ f.hdr.scopeDepth = 0) →
      timeSource s.fabric.view 9 0 = s.fabric.view.self → zeroAt f.params 1 3 = true → zeroAt f.params 16 16 = true → s.fabric.view.rights ≠ .readonly →
      exec (.frontJoinCandidate h) s = commits frontJoinCommand s f
        { s with fabric := { s.fabric with candidacy := some (par f 8 8, s.frontTime) } } (okReply []))
  ∧ (∀ (s : State) (h : Nat) (f : Flight) (r : MemberRef), Ready frontLeaveCommand s h f → Here s f → leaveTarget s f = some r →
      ((modulesOf s.fabric.view r).contains s.fabric.view.self = true → holdsStage s = false →
        exec (.frontLeave h) s = commits frontLeaveCommand s f (becomeLone s) (okReply []))
      ∧ ((modulesOf s.fabric.view r).contains s.fabric.view.self = false →
        ∃ v, v.epoch = s.fabric.view.epoch + 1 ∧ (∀ m ∈ modulesOf s.fabric.view r, khas v.modules m = false)
          ∧ exec (.frontLeave h) s = commits frontLeaveCommand s f (installView v s.frontTime s) (okReply [])))
  ∧ (∀ (s : State) (h n : Nat) (f : Flight) (r : MemberRef), Ready anchorSetCommand s h f → Here s f → scopeNode s f = some n → anchorTarget s f = some r →
      ∃ v, v.epoch = s.fabric.view.epoch + 1 ∧ v.modules = s.fabric.view.modules ∧ (∀ p ∈ v.nodes, p.1 = n → p.2.anchor = r)
        ∧ (∀ p, p ∈ v.nodes → p.1 ≠ n → p ∈ s.fabric.view.nodes)
        ∧ exec (.anchorSet h) s = commits anchorSetCommand s f (installView v s.frontTime s) (okReply []))
  ∧ (∀ (s : State) (h : Nat) (f : Flight), Ready frontViewCommand s h f → (fromPeer f = true ∨ answerer s f = [s.fabric.view.self]) →
      exec (.frontView h) s = commits frontViewCommand s f s (okReply (frontViewResult s (par f 0 2))))
  ∧ (∀ (s : State) (h : Nat) (f : Flight), Ready linkConfigCommand s h f → Here s f →
      exec (.linkConfig h) s = commits linkConfigCommand s f (linksChanged ((List.range (par f 0 1)).foldl (fun t i => configurePort f i t) s)) (okReply []))
  ∧ (∀ (s : State) (f : Flight) (i : Nat), (portOf (configurePort f i s) (linkEntry f i 0 1)).mode.code = min 2 (linkEntry f i 1 1) ∨ 2 < linkEntry f i 1 1)
  ∧ (∀ (s : State) (f : Flight) (i p : Nat), p ≠ linkEntry f i 0 1 → portOf (configurePort f i s) p = portOf s p)
  ∧ (∀ (s : State) (h : Nat) (f : Flight), Ready linkStatusCommand s h f → Here s f →
      ∃ b, exec (.linkStatus h) s = commits linkStatusCommand s f s (okReply b) ∧ b.length = 16 + 16 * 64)
  ∧ (∀ (s : State) (uid since now : Nat), s.fabric.candidacy = some (uid, since) → since + 600000000000 ≤ (advance now s).frontTime →
      exec (.candidacyExpiry now) s = nextOf s { advance now s with fabric := { s.fabric with candidacy := none } })

/-- Views are agreed on; peers are lost; clocks go stale. A HEARTBEAT of this module's epoch records its sender's role and accepted epoch and counts as heard; LOSS_MS without a message from a peer loses it; an offset above 1 ms for 1 s makes the module STALE with a fault record; PROPOSE that may be accepted is held as accepted and answered ACCEPT; ACCEPT at the leader is noted once; a tick later the leader installs, at the new epoch where the acceptors hold the top front; INSTALL at an acceptor is taken; a CATCH_UP request is answered with the view; ADJ replaces the sender's adjacencies. Each of these forms answers exec = next with that effect: heartbeat, peerUnreachable, offsetStale, frontViewPropose, frontViewAccept, viewInstallDecision, frontViewInstall, frontViewCatchUp, frontViewAdj. (spec/14_fabric_links.md, R423, R430, R436, R446, R448, R450) -/
def Obligations.ViewEventsTakeEffect : Prop :=
  (∀ (s : State) (peer now : Nat) (plain : Bytes) (m : Msg), Arrives 0x0A peer plain s m → zeroAt m.body 2 2 = true → m.body.length = 24 →
      fld m.body 0 1 ≤ 2 → m.epoch ≤ s.fabric.view.epoch →
      ∃ t, exec (.heartbeat peer plain now) s = nextOf s t ∧ peerOf t peer = ⟨(advance now s).frontTime, fld m.body 1 1, m.epoch, fld m.body 16 8, false⟩
        ∧ t.mem = s.mem ∧ t.fabric.view = s.fabric.view ∧ (∀ p, p ≠ peer → peerOf t p = peerOf s p))
  ∧ (∀ (s : State) (peer now : Nat), (peerOf s peer).lastMessage + s.fabric.lossMs * 1000000 ≤ (advance now s).frontTime →
      exec (.peerUnreachable peer now) s = nextOf s (losePeer peer (advance now s)))
  ∧ (∀ (s : State) (now since : Nat), s.fabric.offsetSince = some since → since + 1000000000 ≤ (advance now s).frontTime → s.fabric.view.rights ≠ .stale →
      ∃ t, exec (.offsetStale now) s = nextOf s t ∧ t.fabric.view.rights = .stale ∧ t.mem = s.mem
        ∧ (s.faults.queue.length < 64 → ∃ r, t.faults.queue = s.faults.queue ++ [r] ∧ r.code = 0x000A ∧ r.sev = 0))
  ∧ (∀ (s : State) (peer : Nat) (plain : Bytes) (m : Msg), Arrives 0x0B peer plain s m → fld m.body 0 1 = 0 → zeroAt m.body 1 1 = true →
      m.body.length = 16 + 32 * fld m.body 4 4 → m.epoch = s.fabric.view.epoch → s.fabric.view.rights ≠ .stale →
      exec (.frontViewPropose peer plain) s = nextOf s (acceptProposal peer m.epoch m.body (heardFrom peer s)))
  ∧ (∀ (s : State) (peer e : Nat) (b : Bytes), mayAccept s = true → s.fabric.accepted < fld b 8 8 → fld b 2 2 = peer → (reachSet s).head? = some peer →
      (entriesReached (fld b 4 4) (b.drop 16)).contains s.fabric.view.self = true → e = s.fabric.view.epoch →
      ∃ u, acceptProposal peer e b s = sendMessage peer 0x0B 1 0 0 0 (frontViewHdr 1 peer 0 (fld b 8 8) ++ keyNames (ownRecords s)) u
        ∧ u.fabric.accepted = fld b 8 8 ∧ u.fabric.acceptedLeader = some peer ∧ u.fabric.view = s.fabric.view ∧ u.mem = s.mem)
  ∧ (∀ (s : State) (peer : Nat) (plain : Bytes) (m : Msg) (p : Proposal), Arrives 0x0B peer plain s m → fld m.body 0 1 = 1 → zeroAt m.body 1 1 = true →
      m.body.length = 20 + 12 * fld m.body 16 4 → m.epoch ≤ s.fabric.view.epoch → s.fabric.proposal = some p → p.epoch = fld m.body 8 8 →
      fld m.body 2 2 = s.fabric.view.self → p.set.contains peer = true → p.acceptors.contains peer = false →
      ∃ t, exec (.frontViewAccept peer plain) s = nextOf s t
        ∧ t.fabric.proposal = some { p with acceptors := p.acceptors ++ [peer], records := p.records ++ keysAt m.body 16 } ∧ t.mem = s.mem)
  ∧ (∀ (s : State) (now : Nat) (p : Proposal), s.fabric.proposal = some p → p.sent < s.ticks →
      ∃ u, exec (.viewInstallDecision now) s = nextOf s (takeInstall (if holdsTop s.fabric.view p.acceptors then p.epoch else s.fabric.view.epoch)
        p.acceptors p.records.eraseDups now u) ∧ u.fabric.view = s.fabric.view ∧ u.mem = s.mem)
  ∧ (∀ (s : State) (peer now : Nat) (plain : Bytes) (m : Msg), Arrives 0x0B peer plain s m → fld m.body 0 1 = 2 → zeroAt m.body 1 1 = true →
      m.body.length = 20 + 32 * fld m.body 4 4 + 12 * fld m.body (16 + 32 * fld m.body 4 4) 4 → m.epoch ≤ s.fabric.view.epoch →
      s.fabric.acceptedLeader = some peer → (entriesReached (fld m.body 4 4) (m.body.drop 16)).contains s.fabric.view.self = true →
      fld m.body 8 8 = s.fabric.accepted →
      exec (.frontViewInstall peer plain now) s = nextOf s (takeInstall (fld m.body 8 8) (entriesReached (fld m.body 4 4) (m.body.drop 16))
        (keysAt m.body (16 + 32 * fld m.body 4 4)) now (heardFrom peer s)))
  ∧ (∀ (s : State) (peer : Nat) (plain : Bytes) (m : Msg), Arrives 0x0B peer plain s m → fld m.body 0 1 = 3 → zeroAt m.body 1 1 = true → 16 ≤ m.body.length →
      m.epoch ≤ s.fabric.view.epoch → fld m.body 4 4 = 0 →
      exec (.frontViewCatchUp peer plain) s = nextOf s (sendMessage peer 0x0B 3 0 0 0 (frontViewHdr 3 s.fabric.view.self s.fabric.view.modules.length
        s.fabric.view.epoch ++ encodeView (heardFrom peer s) s.fabric.view ++ keyNames (ownRecords s)) (heardFrom peer s)))
  ∧ (∀ (s : State) (peer : Nat) (plain : Bytes) (m : Msg), Arrives 0x0B peer plain s m → fld m.body 0 1 = 4 → zeroAt m.body 1 1 = true →
      m.body.length = 16 + 9 * fld m.body 4 4 → m.epoch ≤ s.fabric.view.epoch →
      ∃ t l, exec (.frontViewAdj peer plain) s = nextOf s t ∧ t.fabric.adjacencies = s.fabric.adjacencies.filter (fun a => a.1 != peer) ++ l
        ∧ l.length = fld m.body 4 4 ∧ (∀ a ∈ l, a.1 = peer) ∧ t.fabric.view = s.fabric.view ∧ t.mem = s.mem)

/-- Front-wide commits: forwarding, preparing, voting, deciding, committing, aborting. CMD_FWD messages from a module of the view take effect: FORWARD puts the command in flight here; PREPARE of an unknown opcode is voted NO with BAD_OPCODE; a VOTE of a participant goes into the coordinator's record, but the NO of a PREPARE that its ABORT overtook is ignored; COMMIT at a participant applies what it has prepared; ABORT drops it and its locks; DECISION is stored and acknowledged; DECISION_ACK counts towards holding the top front; a REPLY to COMMIT is recorded; 100 ms after PREPARE missing votes count as NO. Each of these forms answers exec = next with that effect: cmdFwdForward, cmdFwdPrepare, cmdFwdVote, cmdFwdCommit, cmdFwdAbort, cmdFwdDecision, cmdFwdDecisionAck, cmdFwdReply, voteTimeout. (spec/02_command_protocol.md, R72 to R76; spec/14_fabric_links.md, R430, R431) -/
def Obligations.CommitMessagesTakeEffect : Prop :=
  (∀ (s : State) (peer : Nat) (plain : Bytes) (m : Msg) (row : OpcodeRow), ForwardArrives 0 peer plain s m → opcodeRow (fld (m.body.drop 8) 2 2) = some row →
      s.power.pendingReset = none → row.op ≠ .requestSubmit → row.op ≠ .bagLookup →
      ∃ t f, exec (.cmdFwdForward peer plain) s = nextOf s t ∧ t.proto.flights = s.proto.flights ++ [f] ∧ f.op = row.op ∧ f.tenant = m.tenant
        ∧ fromPeer f = true ∧ f.serial = s.proto.nextSerial ∧ f.hdr = parseHeader (m.body.drop 8) ∧ f.running = false ∧ t.mem = s.mem)
  ∧ (∀ (s : State) (peer : Nat) (plain : Bytes) (m : Msg), ForwardArrives 2 peer plain s m → opcodeRow (fld (m.body.drop 8) 2 2) = none →
      (peer, fld m.body 4 4, m.corr) ∉ s.fabric.aborted → (∀ p ∈ s.fabric.prepared, p.key.coord ≠ peer) →
      ∃ key u, exec (.cmdFwdPrepare peer plain) s = nextOf s (castVote key m.tenant m.corr (plainReply .badOpcode 2) u) ∧ key.coord = peer
        ∧ u.fabric.prepared = s.fabric.prepared ∧ u.mem = s.mem)
  ∧ (∀ (s : State) (peer who : Nat) (plain : Bytes) (m : Msg) (c : Coord), ForwardArrives 3 peer plain s m → coordNamed s peer m = some (c, who) →
      ((fld m.body 1 1 == 0) = goodStatus (statusOf (fld m.body 16 2))) →
      exec (.cmdFwdVote peer plain) s = nextOf s (if (carriedReply (fwdOf m)).2.status = .txnAborted ∧ (carriedReply (fwdOf m)).2.result = [] then heardFrom peer s
        else settleHandovers (recordVote c.key who (carriedReply (fwdOf m)).2 (heardFrom peer s))))
  ∧ (∀ (s : State) (peer now : Nat) (plain : Bytes) (m : Msg) (p : Prepared), ForwardArrives 4 peer plain s m → preparedNamed s peer m = some p →
      exec (.cmdFwdCommit peer plain now) s = nextOf s (settleHandovers (commitPrepared p now (heardFrom peer s))))
  ∧ (∀ (s : State) (peer : Nat) (plain : Bytes) (m : Msg) (p : Prepared), ForwardArrives 5 peer plain s m → preparedNamed s peer m = some p →
      exec (.cmdFwdAbort peer plain) s = nextOf s (requestAborted peer m (dropEarly m (dropPrepared p.key (heardFrom peer s))))
        ∧ (∀ q ∈ (dropPrepared p.key s).fabric.prepared, q.key ≠ p.key))
  ∧ (∀ (s : State) (peer : Nat) (plain : Bytes) (m : Msg), ForwardArrives 6 peer plain s m → m.epoch = s.fabric.view.epoch →
      ∃ key u, exec (.cmdFwdDecision peer plain) s = nextOf s (sendMessage peer 0x08 7 m.tenant m.corr 0 (cmdFwdBody 7 0 peer (fld m.body 4 4) []) u)
        ∧ (⟨key, m.epoch⟩ : Decision) ∈ u.fabric.decisions ∧ key.coord = peer ∧ u.mem = s.mem)
  ∧ (∀ (s : State) (peer who : Nat) (plain : Bytes) (m : Msg) (c : Coord), ForwardArrives 7 peer plain s m → coordNamed s peer m = some (c, who) →
      c.stage = .deciding → c.acks.contains peer = false →
      exec (.cmdFwdDecisionAck peer plain) s = nextOf s (settleHandovers (coordAcked c.key (setCoord { c with acks := c.acks ++ [peer] } (heardFrom peer s)))))
  ∧ (∀ (s : State) (peer who : Nat) (plain : Bytes) (m : Msg) (c : Coord), ForwardArrives 1 peer plain s m → s.fabric.gathers = [] →
      coordNamed s peer m = some (c, who) → c.stage = .committing → (∀ x ∈ c.replies, ¬ (x.1 = who ∧ x.2.1 = (carriedReply (fwdOf m)).1)) →
      exec (.cmdFwdReply peer plain) s = nextOf s (settleHandovers (coordReplied c.key
        (setCoord { c with replies := c.replies ++ [(who, carriedReply (fwdOf m))] } (heardFrom peer s)))))
  ∧ (∀ (s : State) (h now : Nat) (c : Coord), s.fabric.coords.find? (fun c => c.serial == h) = some c → c.prepared + 100000000 ≤ (advance now s).frontTime →
      exec (.voteTimeout h now) s = nextOf s (settleHandovers (coordVoted c.key true (advance now s))))

/-- Waits for candidacies and pair secrets. A candidacy's answer whose view its entry's kind forbids fails the part with BAD_PARAM; a matching one is recorded with the view; a wait past the transaction's TIMEOUT_MS fails its part with MEMBER_UNREACHABLE; a pair-secret message of a wrong length is dropped and counted; an answer whose report fails closes the links to that module. Each of these forms answers exec = next with that effect: candidacyCheckMessage, candidacyWaitTimeout, pairSecretMessage. (spec/14_fabric_links.md, R431, R441, R604; spec/15_security.md, R476, R477) -/
def Obligations.FormationEventsTakeEffect : Prop :=
  (∀ (s : State) (uid : Nat) (matching prepared : Bool) (b : Bytes) (w : CandidacyWait) (e : FormEntry), s.fabric.waits = [w] → waitEntry w uid = some e →
      entryKindBad e (decodeView b) = true →
      exec (.candidacyCheckMessage uid matching prepared b) s = nextOf s (waitFails w .badParam (uidOffset s w uid) s))
  ∧ (∀ (s : State) (uid : Nat) (prepared : Bool) (b : Bytes) (w : CandidacyWait) (e : FormEntry), s.fabric.waits = [w] → waitEntry w uid = some e →
      entryKindBad e (decodeView b) = false → (∀ p ∈ (decodeView b).modules, khas s.sec.pairs p.2.uid = true) →
      ∃ w1 u, exec (.candidacyCheckMessage uid true prepared b) s = nextOf s (settleWait w1 u) ∧ u.fabric.waits = [w1] ∧ w1.serial = w.serial
        ∧ (∀ x ∈ w1.entries, x.uid = uid → x.answer = some (decodeView b, prepared)) ∧ u.mem = s.mem ∧ u.sec = s.sec)
  ∧ (∀ (s s1 : State) (h now : Nat) (w : CandidacyWait) (f : Flight) (t : Txn), s1 = advance now s → s.fabric.waits.find? (fun w => w.serial == h) = some w →
      flightOf s h = some f → txnOf s f.hdr.sessionId f.hdr.txnId = some t → w.since + t.timeoutMs * 1000000 ≤ s1.frontTime →
      ∃ id, exec (.candidacyWaitTimeout h now) s = nextOf s (waitFails w .memberUnreachable id s1))
  ∧ (∀ (s : State) (uid : Nat) (response : Bool) (b : Bytes), b.length ≠ (if response then 9777 else 14532) →
      exec (.pairSecretMessage uid response b) s = nextOf s { s with fabric := { s.fabric with malformed := s.fabric.malformed + 1 } })
  ∧ (∀ (s : State) (uid n : Nat) (b : Bytes), b.length = 9777 → pairKnown s uid = true → kget s.sec.pairAsks uid = some n →
      peerReportGood s uid (slice b 7088 2689) (slice b 1680 5403) = false →
      exec (.pairSecretMessage uid true b) s = nextOf s (waitsRefuse uid (pairFails uid s)))
  ∧ (∀ (s : State) (uid n : Nat) (b : Bytes), b.length = 9777 → pairKnown s uid = true → kget s.sec.pairAsks uid = some n →
      peerReportGood s uid (slice b 7088 2689) (slice b 1680 5403) = true →
      slice (slice b 1680 5403) 152 48 = sha384Bytes (pairSigned uid (pairPrefix n) ++ slice b 8 97 ++ slice b 112 1568 ++ zeros 4) →
      ∃ u, exec (.pairSecretMessage uid true b) s = nextOf s (settleWaits u) ∧ kget u.sec.pairAsks uid = none ∧ u.mem = s.mem
        ∧ (Config.deviceUid.toNat < uid → khas u.sec.pairs uid = true))

/-- Ports train, lose lanes and signal, resolve neighbours, carry and retry flits. On a port whose mode and state admit it: training complete brings it UP at full width and DEGRADED below it; the loss of a lane retrains a JET port and takes an ETH port DOWN; the loss of the signal takes it DOWN, its detection starts training; 10 ms without recovery write LINK_DOWN; duplicate address detection ends in UP or ADDR_CONFLICT; solicitations, advertisements, echo requests and Packet Too Big take effect; damaged flits are counted and NAKed; a NAK replays the kept flits from ACK + 1, the eighth for one SEQ retrains; HELLO, TIME flits and stalled ACKs take effect. A port event leaves memory and every other port alone. Each of these forms answers exec = next with that effect: portTrainingComplete, laneLoss, portSignalLoss, portSignalDetect, retrainTimeout, dadComplete, neighborSolicitation, neighborAdvertisement, icmpv6EchoRequest, packetTooBig, flitDamaged, flitNak, flitHello, helloSend, ackStall, flitTime. (spec/14_fabric_links.md, R419, R420, R421, R422, R433; spec/21_faults_recovery.md, R591) -/
def Obligations.PortEventsTakeEffect : Prop :=
  (∀ (s : State) (p width : Nat), (portOf s p).mode ≠ .off → cageHeldDown s p = false → (portOf s p).state = .training ∨ (portOf s p).state = .down →
      trainable (portOf s p) width = true →
      ∃ t, exec (.portTrainingComplete p width) s = nextOf s t ∧ (portOf t p).state = (if width = 4 then .up else .degraded) ∧ (portOf t p).width = width
        ∧ (portOf t p).mode = (portOf s p).mode ∧ (portOf t p).detecting = decide ((portOf s p).mode = .eth) ∧ (portOf t p).lossDue = false ∧ t.mem = s.mem)
  ∧ (∀ (s : State) (p lane : Nat), lane < 4 → portCarries (portOf s p) = true → lane ∉ (portOf s p).lostLanes →
      ((portOf s p).mode = .jet → ∃ t, exec (.laneLoss p lane) s = nextOf s t ∧ (portOf t p).state = .training ∧ lane ∈ (portOf t p).lostLanes
        ∧ (portOf t p).fullTraining = false ∧ (portOf t p).retrains = ((portOf s p).retrains + 1) % 2 ^ 32 ∧ (portOf t p).lossDue = true
        ∧ (∀ q, q ≠ p → portOf t q = portOf s q))
      ∧ ((portOf s p).mode = .eth → ∃ t, exec (.laneLoss p lane) s = nextOf s t ∧ (portOf t p).state = .down ∧ (portOf t p).lossDue = true))
  ∧ (∀ (s : State) (p : Nat), (portOf s p).mode ≠ .off →
      ∃ t, exec (.portSignalLoss p) s = nextOf s t ∧ (portOf t p).state = .down ∧ (portOf t p).signal = false ∧ (portOf t p).width = 0 ∧ t.mem = s.mem)
  ∧ (∀ (s : State) (p : Nat), (portOf s p).mode ≠ .off → cageHeldDown s p = false → (portOf s p).signal = false →
      ∃ t, exec (.portSignalDetect p) s = nextOf s t ∧ (portOf t p).state = .training ∧ (portOf t p).signal = true ∧ (portOf t p).fullTraining = true
        ∧ (∀ q, q ≠ p → portOf t q = portOf s q))
  ∧ (∀ (s : State) (p : Nat), (portOf s p).lossDue = true → portCarries (portOf s p) = false →
      ∃ t, exec (.retrainTimeout p) s = nextOf s t ∧ (portOf t p).state = .down ∧ (portOf t p).lossDue = false
        ∧ (s.faults.queue.length < 64 → ∃ r ∈ t.faults.queue, r.code = 0x0008 ∧ r.sev = 1 ∧ r.unit = 0xA000 + p ∧ r.arg0 = p))
  ∧ (∀ (s : State) (p : Nat) (inUse : Bool), (portOf s p).detecting = true →
      ∃ t, exec (.dadComplete p inUse) s = nextOf s t ∧ (portOf t p).detecting = false
        ∧ (portOf t p).state = (if inUse then .addrConflict else (portOf s p).state))
  ∧ (∀ (s : State) (p : Nat) (target : Bytes) (probe : Bool), ipv6Up (portOf s p) = true → target = (portOf s p).addr →
      ((portOf s p).detecting = false → exec (.neighborSolicitation p target probe) s = .next (emit (.ethernet p 2 target) s))
      ∧ ((portOf s p).detecting = true → probe = true →
        ∃ t, exec (.neighborSolicitation p target probe) s = nextOf s t ∧ (portOf t p).state = .addrConflict))
  ∧ (∀ (s : State) (p : Nat) (target link : Bytes), ipv6Up (portOf s p) = true →
      (target ≠ (portOf s p).addr → ∃ t, exec (.neighborAdvertisement p target link) s = .next t ∧ (target, link) ∈ (portOf t p).neighbours
        ∧ (∀ n ∈ (portOf t p).neighbours, n.1 = target → n.2 = link) ∧ (∀ q, q ≠ p → portOf t q = portOf s q) ∧ t.mem = s.mem)
      ∧ (target = (portOf s p).addr → (portOf s p).detecting = true →
        ∃ t, exec (.neighborAdvertisement p target link) s = nextOf s t ∧ (portOf t p).state = .addrConflict))
  ∧ (∀ (s : State) (p : Nat) (data : Bytes), ipv6Up (portOf s p) = true → (portOf s p).detecting = false → 48 + data.length ≤ (portOf s p).mtu →
      exec (.icmpv6EchoRequest p data) s = .next (emit (.ethernet p 3 data) s))
  ∧ (∀ (s : State) (p : Nat), (portOf s p).mode = .eth →
      ∃ t, exec (.packetTooBig p) s = .next t ∧ (portOf t p).tooBig = (portOf s p).tooBig + 1 ∧ (∀ q, q ≠ p → portOf t q = portOf s q))
  ∧ (∀ (s : State) (p : Nat), flitsRun (portOf s p) = true →
      (∃ t, exec (.flitDamaged p true) s = .next t ∧ (portOf t p).fecUncorrected = (portOf s p).fecUncorrected + 1
        ∧ t.outputs = s.outputs ++ [.flit p 2 (flitBytes 2 0 (portOf s p).txSeq (portOf s p).rxSeq [])])
      ∧ (∃ t, exec (.flitDamaged p false) s = .next t ∧ (portOf t p).crcFails = (portOf s p).crcFails + 1
        ∧ t.outputs = s.outputs ++ [.flit p 2 (flitBytes 2 0 (portOf s p).txSeq (portOf s p).rxSeq [])]))
  ∧ (∀ (s : State) (p ack : Nat), flitsRun (portOf s p) = true → ack < 65536 →
      ((portOf s p).nakRun = 7 → (portOf s p).nakSeq = ack →
        ∃ t, exec (.flitNak p ack) s = nextOf s t ∧ (portOf t p).state = .training ∧ (portOf t p).nakRun = 0 ∧ (portOf t p).kept = [])
      ∧ ((portOf s p).nakRun < 7 → ∃ t, exec (.flitNak p ack) s = nextOf s t ∧ (portOf t p).state = (portOf s p).state ∧ (portOf t p).kept = (portOf s p).kept
        ∧ (portOf t p).nakRun = (if (portOf s p).nakRun ≠ 0 ∧ (portOf s p).nakSeq = ack then (portOf s p).nakRun + 1 else 1)
        ∧ t.outputs = s.outputs ++ (((portOf s p).kept.filter (fun k => decide (0 < (k.1 + 65536 - ack) % 65536)
            && decide ((k.1 + 65536 - ack) % 65536 ≤ 1024))).reverse.map (fun k => .flit p 1 (flitBytes 1 k.2.1 k.1 (portOf s p).rxSeq k.2.2)))))
  ∧ (∀ (s : State) (p uid port seq ack : Nat), flitsRun (portOf s p) = true →
      ∃ t, exec (.flitHello p uid port seq ack) s = nextOf s t ∧ (portOf t p).neighbourUid = uid ∧ (portOf t p).neighbourPort = port
        ∧ (portOf t p).rxSeq = seq % 65536 ∧ (portOf t p).ackSeq = ack % 65536)
  ∧ (∀ (s : State) (p : Nat), flitsRun (portOf s p) = true →
      ∃ t, exec (.helloSend p) s = .next t ∧ (portOf t p).txSeq = ((portOf s p).txSeq + 1) % 65536
        ∧ t.outputs = s.outputs ++ [.flit p 3 (flitBytes 3 0 (((portOf s p).txSeq + 1) % 65536) (portOf s p).rxSeq (toLe 8 Config.deviceUid.toNat ++ toLe 1 p))])
  ∧ (∀ (s : State) (p : Nat), flitsRun (portOf s p) = true → (portOf s p).kept ≠ [] → (portOf s p).ackSeq ≠ (portOf s p).txSeq →
      ∃ t, exec (.ackStall p) s = nextOf s t ∧ (portOf t p).state = .training ∧ (portOf t p).kept = [] ∧ (∀ q, q ≠ p → portOf t q = portOf s q))
  ∧ (∀ (s : State) (p sent arrived ack m : Nat), flitsRun (portOf s p) = true → moduleOfUid (flitSeen p (portOf s p).rxSeq ack s) (portOf s p).neighbourUid = some m →
      fromParent (flitSeen p (portOf s p).rxSeq ack s) m = true →
      ∃ t, exec (.flitTime p sent arrived ack) s = nextOf s t ∧ t.fabric.t1 = sent ∧ t.fabric.t2 = arrived ∧ t.fabric.t3 = s.fabric.t3 ∧ t.mem = s.mem)

/-- Segments are ordered and acknowledged; the clocks of a front follow its time source. A well-formed DATA segment for this module that is expected next joins the message and is acknowledged with its credit; an earlier one is acknowledged and dropped as a duplicate; an ACK takes away the messages it covers and returns credit; a retransmission timer resends the first open message and closes the channel after 16 resends. SYNC, FOLLOW_UP and DELAY_RESP of the parent, over JET or PTP, set the time stamps and the offset ((t2 - t1) - (t4 - t3)) / 2; DELAY_REQ is answered with the stamp of its arrival. Each of these forms answers exec = next with that effect: segmentData, segmentAck, retransmitTimeout, timeSyncSend, timeSyncSync, timeSyncFollowUp, timeSyncDelayReq, timeSyncDelayResp, ptpSync, ptpFollowUp, ptpDelayResp, ptpDelayReq. (spec/14_fabric_links.md, R424, R426, R427, R435, R436) -/
def Obligations.TransportAndClockEventsTakeEffect : Prop :=
  (∀ (s s1 : State) (p seq ack peer : Nat) (seg : Bytes), (portOf s p).mode = .jet → portCarries (portOf s p) = true → segmentFormed seg = true →
      s1 = flitSeen p seq ack s → fld seg 6 2 = dstOf s.fabric.view.self → segmentPeer s1 (fld seg 4 2) = some peer →
      (channelOf s1 peer (fld seg 2 2)).closed = false →
      (fld seg 1 1 = 0 → fld seg 8 8 = (channelOf s1 peer (fld seg 2 2)).rxSeq → fld seg 16 4 = (channelOf s1 peer (fld seg 2 2)).rxOffset →
        (channelOf s1 peer (fld seg 2 2)).rxBytes.length + fld seg 24 2 < fld seg 20 4 →
        ∃ t, exec (.segmentData p seq ack seg) s = nextOf s (sendAck peer (fld seg 2 2) 1 t)
          ∧ channelOf t peer (fld seg 2 2) = { channelOf s1 peer (fld seg 2 2) with
              credit := (channelOf s1 peer (fld seg 2 2)).credit + fld seg 26 2
              rxOffset := fld seg 16 4 + fld seg 24 2
              rxBytes := (channelOf s1 peer (fld seg 2 2)).rxBytes ++ slice seg 32 (fld seg 24 2) } ∧ t.mem = s.mem ∧ t.fabric.ports = s1.fabric.ports)
      ∧ (fld seg 1 1 = 0 → fld seg 8 8 < (channelOf s1 peer (fld seg 2 2)).rxSeq →
        ∃ t, exec (.segmentData p seq ack seg) s = nextOf s (sendAck peer (fld seg 2 2) 0 t)
          ∧ channelOf t peer (fld seg 2 2) = { channelOf s1 peer (fld seg 2 2) with
              credit := (channelOf s1 peer (fld seg 2 2)).credit + fld seg 26 2
              duplicates := (channelOf s1 peer (fld seg 2 2)).duplicates + 1 })
      ∧ (fld seg 1 1 = 1 → exec (.segmentAck p seq ack seg) s = nextOf s (segmentAck peer seg s1)))
  ∧ (∀ (s : State) (peer : Nat) (seg : Bytes), (channelOf s peer (fld seg 2 2)).closed = false →
      (∀ o ∈ (channelOf s peer (fld seg 2 2)).unacked, o.seq < fld seg 8 8) → (∀ j ∈ s.compute.jobs, (peer, fld seg 2 2) ∉ j.channels) →
      ∀ c, c = { channelOf s peer (fld seg 2 2) with
          unacked := []
          credit := (channelOf s peer (fld seg 2 2)).credit + fld seg 26 2
          slotCredit := (channelOf s peer (fld seg 2 2)).slotCredit
            || (decide (4 ≤ fld seg 2 2) && fld seg 26 2 != 0) } →
        segmentAck peer seg s = (if (channelOf s peer (fld seg 2 2)).unacked = [] ∧ (fld seg 2 2 < 4 ∨ fld seg 26 2 = 0) then setChannel peer (fld seg 2 2) c s
            else shipSettled peer (setChannel peer (fld seg 2 2) c s)))
  ∧ (∀ (s : State) (peer ch : Nat) (o : Outgoing), (channelOf s peer ch).unacked.head? = some o → (channelOf s peer ch).closed = false → o.acked < o.sent →
      (16 ≤ o.resends → exec (.retransmitTimeout peer ch) s = .next (setChannel peer ch { channelOf s peer ch with closed := true } s))
      ∧ (o.resends < 16 → exec (.retransmitTimeout peer ch) s = nextOf s (resend peer ch (setChannel peer ch { channelOf s peer ch with
          unacked := (channelOf s peer ch).unacked.map (fun x => if x.seq = o.seq then { x with resends := x.resends + 1 } else x) } s))))
  ∧ (∀ (s : State) (now : Nat), exec (.timeSyncSend now) s = nextOf s (timeSyncSend now s))
  ∧ (∀ (s s1 : State) (peer now : Nat) (plain : Bytes) (m : Msg), s1 = advance now s → Arrives 0x09 peer plain s1 m → zeroAt m.body 1 1 = true →
      zeroAt m.body 4 4 = true → m.body.length = 16 →
      (fld m.body 0 1 = 0 → fromParent (heardFrom peer s1) peer = true →
        exec (.timeSyncSync peer plain now) s = nextOf s { heardFrom peer s1 with fabric := { (heardFrom peer s1).fabric with t2 := now } })
      ∧ (fld m.body 0 1 = 1 → fromParent (heardFrom peer s1) peer = true →
        exec (.timeSyncFollowUp peer plain now) s = nextOf s { heardFrom peer s1 with fabric := { (heardFrom peer s1).fabric with t1 := fld m.body 8 8 } })
      ∧ (fld m.body 0 1 = 2 → exec (.timeSyncDelayReq peer plain now) s
          = nextOf s (sendMessage peer 0x09 3 0 0 0 (timeSyncHdr 3 (sourceHops (heardFrom peer s1)) now) (heardFrom peer s1)))
      ∧ (fld m.body 0 1 = 3 → fromParent (heardFrom peer s1) peer = true →
        exec (.timeSyncDelayResp peer plain now) s = nextOf s (takeOffset (fld m.body 8 8) (heardFrom peer s1))))
  ∧ (∀ (s : State) (domain now : Nat), ptpSlave s domain = true →
      (∃ t, exec (.ptpSync domain now) s = nextOf s t ∧ t.fabric.t2 = now ∧ t.fabric.t1 = s.fabric.t1 ∧ t.mem = s.mem)
      ∧ (∃ t, exec (.ptpFollowUp domain now) s = nextOf s t ∧ t.fabric.t1 = now ∧ t.fabric.t2 = s.fabric.t2 ∧ t.frontTime = s.frontTime)
      ∧ (∀ stamp, exec (.ptpDelayResp domain stamp now) s = nextOf s (takeOffset stamp (advance now s))))
  ∧ (∀ (s : State) (p domain now : Nat), domain = s.fabric.ptpDomain → timeSource s.fabric.view 9 0 = s.fabric.view.self → ipv6Up (portOf s p) = true →
      exec (.ptpDelayReq p domain now) s = nextOf s (emit (.ethernet p 7 (toLe 1 domain ++ toLe 8 now)) (advance now s)))
  ∧ (∀ (s : State) (t4 : Nat), (takeOffset t4 s).fabric.offsetNs
        = (((s.fabric.t2 : Int) - (s.fabric.t1 : Int)) - ((t4 : Int) - (s.fabric.t3 : Int))) / 2
      ∧ ((takeOffset t4 s).fabric.offsetSince = none ↔ (takeOffset t4 s).fabric.offsetNs.natAbs ≤ 1000000) ∧ (takeOffset t4 s).mem = s.mem)

/-- Every step keeps the memory in its canonical form. From every state whose device memory lists its bytes with addresses rising and no byte equal to what an unlisted address reads as, every step answers a state whose memory has that form. (spec/07_memory_tiers.md, R211, R213, R214) -/
def Obligations.StepKeepsMemoryCanonical : Prop :=
  ∀ s t : State, s.mem.wf = true → step s = .next t → t.mem.wf = true

/-- Reset leaves what the spec says it leaves. After reset: no command waits, the memory is canonical and reads zero everywhere, every ring is DISABLED with its positions zero, every MSI-X entry is masked, IRQ_EVENT reads 0 and IRQ_EVENT_EN 0x1FF, CLK_TIME_HI reads 0, no parity mismatch is recorded; the module has no role, is module 0 of a top front of its own at epoch 1 with FULL rights; no session, transaction, command, allocation, request, kernel is open; measurement registers are zero; CAP_W is 2,600 and the clock limits 1,800 MHz; ADMIT_PPM is 700,000 and PREEMPT_LIMIT 3; the fault latch is clear and the log's next SEQ is 1. (That the calm island runs and the module is in STANDBY at reset is the model's choice, log entry 4.) (spec/00_scope.md, R5; spec/01_module_hierarchy.md, R26; spec/13_scheduling_fairness.md, R412; spec/15_security.md, R459; spec/16_host_interface.md, R487, R490, R496; spec/17_registers.md, R513, R517; spec/18_power_clocks_startup.md, R523, R527, R537; spec/21_faults_recovery.md, R593, R594) -/
def Obligations.ResetLeavesTheStatedValues : Prop :=
  State.reset.pending = [] ∧ State.reset.mem.wf = true ∧ (∀ a, Memory.read State.reset.mem a = 0)
  ∧ (∀ n, (sqOf State.reset.host n).state = .disabled ∧ (sqOf State.reset.host n).head = 0 ∧ (sqOf State.reset.host n).tail = 0)
  ∧ (∀ n, (cqOf State.reset.host n).state = .disabled ∧ (cqOf State.reset.host n).head = 0 ∧ (cqOf State.reset.host n).tail = 0)
  ∧ (∀ v, (msixEntry State.reset.host v).masked = true ∧ v ∉ State.reset.host.pba)
  ∧ irqEvent State.reset.host = 0 ∧ State.reset.host.eventEn = 0x1FF ∧ State.reset.host.timeHi = 0 ∧ State.reset.host.parityValid = false
  ∧ State.reset.role = none ∧ State.reset.fabric.view.self = 0 ∧ kkeys State.reset.fabric.view.modules = [0] ∧ State.reset.fabric.view.epoch = 1
  ∧ State.reset.fabric.view.rights = .full ∧ State.reset.proto.sessions = [] ∧ State.reset.proto.txns = [] ∧ State.reset.proto.flights = []
  ∧ State.reset.tiers.allocs = [] ∧ State.reset.serve.requests = [] ∧ State.reset.compute.kernels = []
  ∧ (∀ m ∈ State.reset.sec.mr, m = 0) ∧ State.reset.sec.mr.length = 8 ∧ State.reset.sec.debug = false
  ∧ State.reset.power.capW = 2600 ∧ clockCeiling State.reset.power = 1800 ∧ State.reset.sched.admitPpm = 700000 ∧ State.reset.sched.preemptLimit = 3
  ∧ State.reset.faults.latch = false ∧ State.reset.faults.queue = [] ∧ State.reset.faults.nextSeq = 1 ∧ State.reset.faults.disabled = []

/-- Headers are read as they are written, and written as they are read. The 48 bytes of a header whose fields fit their widths are read back as that header, every field at every value and the eight entries of the scope path among them; and 48 bytes are written back byte for byte from the header they spell, so no bit of the header is dropped. (spec/02_command_protocol.md, R43, R44; spec/01_module_hierarchy.md, R33; spec/00_scope.md, R14) -/
def Obligations.HeaderRoundTrip : Prop :=
  (∀ h : Header, h.version < 2 ^ 8 → h.hdrLen < 2 ^ 8 → h.opcode < 2 ^ 16 → h.flagsRsv < 2 ^ 13 → h.paramLen < 2 ^ 16 → h.commandId < 2 ^ 64 →
      h.seq < 2 ^ 64 → h.scope.length = 8 → (∀ e ∈ h.scope, e < 2 ^ 12) → h.sessionId < 2 ^ 32 → h.txnId < 2 ^ 32 → h.replyRing < 2 ^ 16 →
      h.prio < 2 ^ 8 → h.scopeDepth < 2 ^ 8 →
      (headerBytes h).length = 48 ∧ parseHeader (headerBytes h) = h)
  ∧ (∀ b : Bytes, b.length = 48 → headerBytes (parseHeader b) = b)

/-- Faults of severity 2 and 3 set the latch, logged or dropped. A fault of severity 2 or 3 sets the fault latch, one below leaves it; where the queue has room the record joins it under the next SEQ, which wraps from 0xFFFF_FFFF to 1; where it is full the record is dropped and counted with the highest severity among the dropped. The write of the queue to flash puts one LOG_LOST record in place of the dropped ones, with their count and highest severity, and where that is 2 or more it is the record that set the latch. (R593) -/
def Obligations.FaultsSetTheLatch : Prop :=
  (∀ (s : State) (code sev action unit tenant command a b : Nat),
      (2 ≤ sev → (logFault code sev action unit tenant command a b s).faults.latch = true)
      ∧ (sev < 2 → (logFault code sev action unit tenant command a b s).faults.latch = s.faults.latch)
      ∧ (s.faults.queue.length < 64 →
        ∃ r, (logFault code sev action unit tenant command a b s).faults.queue = s.faults.queue ++ [r] ∧ r.seq = s.faults.nextSeq ∧ r.code = code ∧ r.sev = sev
          ∧ r.action = action ∧ r.unit = unit ∧ r.tenant = tenant ∧ r.command = command ∧ r.arg0 = a ∧ r.arg1 = b
          ∧ (logFault code sev action unit tenant command a b s).faults.nextSeq = (if s.faults.nextSeq = 0xFFFFFFFF then 1 else s.faults.nextSeq + 1)
          ∧ (logFault code sev action unit tenant command a b s).faults.dropped = s.faults.dropped)
      ∧ (64 ≤ s.faults.queue.length →
        (logFault code sev action unit tenant command a b s).faults.queue = s.faults.queue
          ∧ (logFault code sev action unit tenant command a b s).faults.dropped = s.faults.dropped + 1
          ∧ (logFault code sev action unit tenant command a b s).faults.droppedSev = max s.faults.droppedSev sev)
      ∧ (logFault code sev action unit tenant command a b s).mem = s.mem ∧ (logFault code sev action unit tenant command a b s).proto = s.proto)
  ∧ (∀ s : State, (s.faults.dropped = 0 → (flushFaults s).faults.queue = [] ∧ (flushFaults s).faults.latch = s.faults.latch)
      ∧ (s.faults.dropped ≠ 0 → ∃ r, (flushFaults s).faults.queue = [r] ∧ r.code = 0x0012 ∧ r.sev = s.faults.droppedSev ∧ r.arg0 = s.faults.dropped
        ∧ (flushFaults s).faults.dropped = 0 ∧ (flushFaults s).faults.droppedSev = 0
        ∧ (2 ≤ s.faults.droppedSev → (flushFaults s).faults.latch = true ∧ (flushFaults s).faults.latchSeq = r.seq)))
end

