-- ==== Sys2Proof/Laws/Bytes.lean ====
section
/-! SUPPORT. Laws of the helpers on byte strings: fields of joined strings, numbers written and read back. -/

namespace Sys2Proof.Laws

set_option Elab.async false

open Sys2Proof Sys2Proof.Machine

@[simp] theorem length_toLe (n v : Nat) : (toLe n v).length = n := by
  induction n generalizing v with
  | zero => rfl
  | succ n ih => simp [toLe, ih]

@[simp] theorem length_zeros (n : Nat) : (zeros n).length = n := List.length_replicate

/-- A number written in `n` bytes reads back modulo 256^n, R14. -/
@[simp] theorem leNat_toLe (n v : Nat) : leNat (toLe n v) = v % 256 ^ n := by
  induction n generalizing v with
  | zero => simp [toLe, leNat, Nat.mod_one]
  | succ n ih =>
    have h : v / 256 % 256 ^ n * 256 + v % 256 = v % (256 * 256 ^ n) := by
      rw [Nat.mod_mul]; omega
    simp only [toLe, leNat, ih, BitVec.toNat_ofNat, Nat.pow_succ, Nat.mul_comm (256 ^ n)]
    omega

theorem leNat_lt (b : Bytes) : leNat b < 256 ^ b.length := by
  induction b with
  | nil => simp [leNat]
  | cons x b ih =>
    have hx : x.toNat < 256 := x.isLt
    simp only [leNat, List.length_cons, Nat.pow_succ, Nat.mul_comm (256 ^ b.length)]
    omega

/-- A byte string is the number it spells, written in as many bytes. -/
@[simp] theorem toLe_leNat (b : Bytes) : toLe b.length (leNat b) = b := by
  induction b with
  | nil => rfl
  | cons x b ih =>
    have hx : x.toNat < 256 := x.isLt
    have h1 : (x.toNat + 256 * leNat b) / 256 = leNat b := by omega
    have h2 : BitVec.ofNat 8 (x.toNat + 256 * leNat b) = x := by
      apply BitVec.eq_of_toNat_eq
      simp only [BitVec.toNat_ofNat]
      omega
    simp [leNat, toLe, h1, h2, ih]

theorem slice_zero_length (b : Bytes) : slice b 0 b.length = b := by simp [slice]

@[simp] theorem length_slice (b : Bytes) (off len : Nat) : (slice b off len).length = min len (b.length - off) := by simp [slice]

/-- A slice that lies in the first of two joined strings. -/
theorem slice_append_left (a b : Bytes) (off len : Nat) (h : off + len ≤ a.length) : slice (a ++ b) off len = slice a off len := by
  simp only [slice]
  rw [List.drop_append_of_le_length (by omega), List.take_append_of_le_length (by simp; omega)]

/-- A slice that lies in the second of two joined strings. -/
theorem slice_append_right (a b : Bytes) (off len n : Nat) (h : a.length = n) : slice (a ++ b) (n + off) len = slice b off len := by
  subst h
  simp [slice]

theorem fld_append_left (a b : Bytes) (off len : Nat) (h : off + len ≤ a.length) : fld (a ++ b) off len = fld a off len := by
  simp only [fld, slice_append_left a b off len h]

theorem fld_append_right (a b : Bytes) (off len n : Nat) (h : a.length = n) : fld (a ++ b) (n + off) len = fld b off len := by
  simp only [fld, slice_append_right a b off len n h]

/-- The one field of a number written in `n` bytes. -/
@[simp] theorem fld_toLe (n v : Nat) : fld (toLe n v) 0 n = v % 256 ^ n := by
  have h : slice (toLe n v) 0 n = toLe n v := by
    have := slice_zero_length (toLe n v)
    rwa [length_toLe] at this
  rw [fld, h, leNat_toLe]

/-- A slice within entry `i` of a table whose entries all have `w` bytes. -/
theorem slice_flatMap {α : Type} (l : List α) (g : α → Bytes) (w i o len : Nat) (hw : ∀ x ∈ l, (g x).length = w) (hi : i < l.length) (h : o + len ≤ w) :
    slice (l.flatMap g) (w * i + o) len = slice (g (l[i]'hi)) o len := by
  induction l generalizing i with
  | nil => simp at hi
  | cons x l ih =>
    have hx : (g x).length = w := hw x (by simp)
    rw [List.flatMap_cons]
    cases i with
    | zero => rw [Nat.mul_zero, Nat.zero_add, slice_append_left _ _ _ _ (by omega)]; rfl
    | succ i =>
      have e : w * (i + 1) + o = w + (w * i + o) := by rw [Nat.mul_succ]; omega
      rw [e, slice_append_right _ _ _ _ w hx]
      exact ih i (fun y hy => hw y (by simp [hy])) (by simpa using hi)

theorem fld_flatMap {α : Type} (l : List α) (g : α → Bytes) (w i o len : Nat) (hw : ∀ x ∈ l, (g x).length = w) (hi : i < l.length) (h : o + len ≤ w) :
    fld (l.flatMap g) (w * i + o) len = fld (g (l[i]'hi)) o len := by simp only [fld, slice_flatMap l g w i o len hw hi h]

/-- The length of a table whose entries all have `w` bytes. -/
theorem length_flatMap_const {α : Type} (l : List α) (g : α → Bytes) (w : Nat) (hw : ∀ x ∈ l, (g x).length = w) : (l.flatMap g).length = w * l.length := by
  induction l with
  | nil => simp
  | cons x l ih =>
    rw [List.flatMap_cons, List.length_append, ih (fun y hy => hw y (by simp [hy])), hw x (by simp), List.length_cons, Nat.mul_succ]
    omega

end Sys2Proof.Laws
end

