-- ==== Sys2Proof/Laws/Commands.lean ====
section
/-! SUPPORT. What a command row does: the outcomes of a command that is ready on this module, once for all commands. -/

namespace Sys2Proof.Laws

set_option Elab.async false

open Sys2Proof Sys2Proof.Machine

variable {c : Command} {s t : State} {h : Nat} {f : Flight} {r : Reply} {st : Status} {d : Nat}

/-- A command that is ready commits where its run says so, and tells other modules of an object created or dropped. -/
theorem runLocal_announces (hr : Ready c s h f) (e : c.run s f = .done t r) :
    runLocal c f s = finish f r (announceObject t.frontTime f r [] (committed c s f t)) := by
  obtain ⟨_, _, _, _, hp, hc, hl, hw⟩ := hr
  simp only [runLocal, hc, hl, hw, hp, e, committed, Bool.or_false, Option.isSome_none, Bool.false_eq_true, if_false]

/-- As `runLocal_announces`, for commands that create and drop nothing of the kind. -/
theorem runLocal_done (hr : Ready c s h f) (hn : announced c.op = false) (e : c.run s f = .done t r) :
    runLocal c f s = finish f r (committed c s f t) := by
  rw [runLocal_announces hr e]
  have : announced f.op = false := by rw [hr.2.1]; exact hn
  simp [announceObject, this]

/-- A command that is ready fails where its run says so, without effect. -/
theorem runLocal_reject (hr : Ready c s h f) (e : c.run s f = .reject st d) : runLocal c f s = finish f (plainReply st d) s := by
  obtain ⟨_, _, _, _, _, hc, hl, hw⟩ := hr
  simp only [runLocal, hc, hl, hw, e, Bool.or_false, Bool.false_eq_true, if_false]

/-- A command that is ready begins where its run says so. -/
theorem runLocal_begun (hr : Ready c s h f) (e : c.run s f = .begun t) : runLocal c f s = setFlight { f with running := true } t := by
  obtain ⟨_, _, _, _, _, hc, hl, hw⟩ := hr
  simp only [runLocal, hc, hl, hw, e, Bool.or_false, Bool.false_eq_true, if_false]

/-- A command that is ready waits where its run says so. -/
theorem runLocal_wait (hr : Ready c s h f) (e : c.run s f = .wait) : runLocal c f s = beginFlight f s := by
  obtain ⟨_, _, _, _, _, hc, hl, hw⟩ := hr
  simp only [runLocal, hc, hl, hw, e, Bool.or_false, Bool.false_eq_true, if_false]

/-- A command that is ready and concerns this module alone runs here. -/
theorem runCommand_here (hr : Ready c s h f) (hh : Here s f) : runCommand c h s = runLocal c f s := by
  obtain ⟨hf, ho, hm, hx, _, _, _, _⟩ := hr
  simp only [runCommand, hf, ho, hm, hx, and_self, if_true, Bool.false_eq_true, if_false]
  rcases hh with hp | hp
  · unfold fromPeer at hp
    split at hp
    · simp_all
    · simp at hp
  · split
    · rfl
    · rw [if_pos hp]

/-- A command of the entry member alone that is ready runs here. -/
theorem runEntry_ready (hr : Ready c s h f) : runEntry c h s = runLocal c f s := by
  obtain ⟨hf, ho, hm, hx, _, _, _, _⟩ := hr
  simp only [runEntry, hf, ho, hm, hx, and_self, if_true, Bool.false_eq_true, if_false]

/-- A command on the holders of an object runs here where this module alone holds it. -/
theorem runAt_self {mods : State → Flight → List Nat} (hr : Ready c s h f) (hh : fromPeer f = true ∨ mods s f = [s.fabric.view.self]) :
    runAt c mods h s = runLocal c f s := by
  obtain ⟨hf, ho, hm, hx, _, hc, _, _⟩ := hr
  simp only [runAt, hf, ho, hm, hx, and_self, if_true, Bool.false_eq_true, if_false, hc]
  rcases hh with hp | hp
  · simp [hp]
  · rw [if_pos hp]
    split <;> rfl

/-- A row of a command that commits on this module. -/
theorem execCommand_commits (hr : Ready c s h f) (hh : Here s f) (hn : announced c.op = false) (e : c.run s f = .done t r) :
    execCommand c h s = commits c s f t r := by
  rw [execCommand, runCommand_here hr hh, runLocal_done hr hn e]
  rfl

/-- A row of a command that commits on this module and tells others of an object. -/
theorem execCommand_announces (hr : Ready c s h f) (hh : Here s f) (e : c.run s f = .done t r) : execCommand c h s = announces c s f t r := by
  rw [execCommand, runCommand_here hr hh, runLocal_announces hr e]
  rfl

/-- A row of a command that fails on this module. -/
theorem execCommand_rejects (hr : Ready c s h f) (hh : Here s f) (e : c.run s f = .reject st d) : execCommand c h s = rejects s f st d := by
  rw [execCommand, runCommand_here hr hh, runLocal_reject hr e]
  rfl

/-- A row of a command that begins on this module. -/
theorem execCommand_begins (hr : Ready c s h f) (hh : Here s f) (e : c.run s f = .begun t) : execCommand c h s = begins s f t := by
  rw [execCommand, runCommand_here hr hh, runLocal_begun hr e]
  rfl

/-- A row of a command of the entry member that commits. -/
theorem execEntry_commits (hr : Ready c s h f) (hn : announced c.op = false) (e : c.run s f = .done t r) : execEntry c h s = commits c s f t r := by
  rw [execEntry, runEntry_ready hr, runLocal_done hr hn e]
  rfl

/-- A row of a command of the entry member that fails. -/
theorem execEntry_rejects (hr : Ready c s h f) (e : c.run s f = .reject st d) : execEntry c h s = rejects s f st d := by
  rw [execEntry, runEntry_ready hr, runLocal_reject hr e]
  rfl

/-- A row of a command of the entry member that begins. -/
theorem execEntry_begins (hr : Ready c s h f) (e : c.run s f = .begun t) : execEntry c h s = begins s f t := by
  rw [execEntry, runEntry_ready hr, runLocal_begun hr e]
  rfl

/-- A row of a command on the holders of an object that commits where this module alone holds it. -/
theorem execAt_commits {mods : State → Flight → List Nat} (hr : Ready c s h f) (hh : fromPeer f = true ∨ mods s f = [s.fabric.view.self])
    (hn : announced c.op = false) (e : c.run s f = .done t r) : execAt c mods h s = commits c s f t r := by
  rw [execAt, runAt_self hr hh, runLocal_done hr hn e]
  rfl

/-- As `execAt_commits`, where other modules are told. -/
theorem execAt_announces {mods : State → Flight → List Nat} (hr : Ready c s h f) (hh : fromPeer f = true ∨ mods s f = [s.fabric.view.self])
    (e : c.run s f = .done t r) : execAt c mods h s = announces c s f t r := by
  rw [execAt, runAt_self hr hh, runLocal_announces hr e]
  rfl

/-- A row of a command on the holders of an object that begins where this module alone holds it. -/
theorem execAt_begins {mods : State → Flight → List Nat} (hr : Ready c s h f) (hh : fromPeer f = true ∨ mods s f = [s.fabric.view.self])
    (e : c.run s f = .begun t) : execAt c mods h s = begins s f t := by
  rw [execAt, runAt_self hr hh, runLocal_begun hr e]
  rfl

/-- A row that names a form of a command does what the command does where the parameters have that form. -/
theorem ofForm_of {p : Flight → Bool} {k : State → Result} (hf : flightOf s h = some f) (hp : p f = true) : ofForm p h s k = k s := by
  simp [ofForm, hf, hp]

/-- A row that names no command in flight does nothing. -/
theorem execCommand_none (hf : flightOf s h = none) : execCommand c h s = .next (settle s s) := by simp [execCommand, runCommand, hf]

/-- A state that changes none of the status bits settles as it is. -/
theorem settle_of_same (old : State) (e : modStatus old = modStatus s) : settle old s = s := by
  have : changedEvents (modStatus s) (modStatus s) = [] := by
    unfold changedEvents
    simp
  unfold settle latchEvents
  rw [e, this]
  simp

/-- A row that changes none of the status bits answers the state as it is. -/
theorem nextOf_of_same (old : State) (e : modStatus old = modStatus s) : nextOf old s = .next s := by rw [nextOf, settle_of_same old e]

end Sys2Proof.Laws
end

