-- ==== Sys2Proof/Laws/Maps.lean ====
section
/-! SUPPORT. Laws of sparse maps and of the byte memory: read after write, other places unchanged, the canonical form kept. -/

namespace Sys2Proof.Laws

set_option Elab.async false

open Sys2Proof Sys2Proof.Machine

/-- A key set reads back. -/
@[simp] theorem kget_kset_self {α : Type} (m : KMap α) (i : Nat) (x : α) : kget (kset m i x) i = some x := by
  induction m with
  | nil => simp [kset, kget]
  | cons p m ih =>
    obtain ⟨k, v⟩ := p
    unfold kset
    split
    · simp [kget]
    · split
      · simp [kget]
      · rename_i h
        have hk : ¬ k = i := fun e => h e.symm
        simp [kget, hk, ih]

/-- Setting a key leaves every other key alone. -/
@[simp] theorem kget_kset_ne {α : Type} (m : KMap α) {i j : Nat} (x : α) (h : j ≠ i) : kget (kset m i x) j = kget m j := by
  induction m with
  | nil => simp [kset, kget, Ne.symm h]
  | cons p m ih =>
    obtain ⟨k, v⟩ := p
    unfold kset
    split
    · simp [kget, Ne.symm h]
    · split
      · rename_i _ e
        subst e
        simp [kget, Ne.symm h]
      · simp [kget, ih]

/-- Both cases of a read after a key is set. -/
theorem kget_kset {α : Type} (m : KMap α) (i j : Nat) (x : α) : kget (kset m i x) j = if j = i then some x else kget m j := by
  by_cases h : j = i
  · subst h
    simp
  · simp [h]

/-- A key set reads back, whatever unlisted keys hold. -/
@[simp] theorem kgetD_kset_self {α : Type} (m : KMap α) (i : Nat) (x d : α) : kgetD (kset m i x) i d = x := by simp [kgetD]

/-- Setting a key leaves what every other key reads as. -/
@[simp] theorem kgetD_kset_ne {α : Type} (m : KMap α) {i j : Nat} (x d : α) (h : j ≠ i) : kgetD (kset m i x) j d = kgetD m j d := by simp [kgetD, h]

/-- A key removed is not listed. -/
@[simp] theorem kget_kdel_self {α : Type} (m : KMap α) (i : Nat) : kget (kdel m i) i = none := by
  induction m with
  | nil => rfl
  | cons p m ih =>
    obtain ⟨k, v⟩ := p
    by_cases h : k = i
    · simpa [kdel, h] using ih
    · simpa [kdel, h, kget] using ih

/-- Removing a key leaves every other key alone. -/
@[simp] theorem kget_kdel_ne {α : Type} (m : KMap α) {i j : Nat} (h : j ≠ i) : kget (kdel m i) j = kget m j := by
  induction m with
  | nil => rfl
  | cons p m ih =>
    obtain ⟨k, v⟩ := p
    by_cases e : k = i
    · subst e
      simpa [kdel, kget, Ne.symm h] using ih
    · by_cases e' : k = j
      · subst e'
        simp [kdel, e, kget]
      · simpa [kdel, e, kget, e'] using ih

/-- The keys of a map are those at which it holds a value. -/
theorem mem_kkeys {α : Type} (m : KMap α) (i : Nat) : i ∈ kkeys m ↔ (kget m i).isSome = true := by
  induction m with
  | nil => simp [kkeys, kget]
  | cons p m ih =>
    obtain ⟨k, v⟩ := p
    by_cases e : k = i
    · simp [kkeys, kget, e]
    · simp only [kkeys, List.map_cons, List.mem_cons, kget, if_neg e, ← ih]
      simp [Ne.symm e]

/-- A key that no entry has reads nothing. -/
theorem kget_none_of_not_mem {α : Type} (m : KMap α) (i : Nat) (h : i ∉ kkeys m) : kget m i = none := by
  have := mt (mem_kkeys m i).mpr h
  simpa using this

/-- A byte written reads back. -/
@[simp] theorem read_write_self (m : Memory) (a : Nat) (b : Byte) (h : m.wf = true) : (m.write a b).read a = b := by
  suffices ∀ (m : Memory) (lo : Nat), Memory.wfFrom lo m = true → (m.write a b).read a = b from this m 0 h
  intro m
  induction m with
  | nil =>
    intro lo _
    unfold Memory.write
    split <;> simp_all [Memory.read]
  | cons p m ih =>
    intro lo w
    obtain ⟨k, v⟩ := p
    simp only [Memory.wfFrom, Bool.and_eq_true, decide_eq_true_eq] at w
    have low : ∀ (l : Memory) (lo : Nat), Memory.wfFrom lo l = true → a < lo → l.read a = Memory.unlisted := by
      intro l
      induction l with
      | nil => intros; rfl
      | cons q l ih =>
        intro lo w h
        obtain ⟨k, v⟩ := q
        simp only [Memory.wfFrom, Bool.and_eq_true, decide_eq_true_eq] at w
        have : k ≠ a := by omega
        simp only [Memory.read, if_neg this]
        exact ih (k + 1) w.2 (by omega)
    unfold Memory.write
    split
    · split
      · rename_i h e
        have : k ≠ a := by omega
        simp only [Memory.read, if_neg this, e]
        exact low m (k + 1) w.2 (by omega)
      · simp [Memory.read]
    · split
      · split
        · rename_i e e'
          subst e
          rw [e']
          exact low m (a + 1) w.2 (by omega)
        · simp [Memory.read]
      · rename_i h e
        have : k ≠ a := fun x => e x.symm
        simp only [Memory.read, if_neg this]
        exact ih (k + 1) w.2

/-- Writing a byte leaves every other byte alone. -/
@[simp] theorem read_write_ne (m : Memory) {a c : Nat} (b : Byte) (h : c ≠ a) : (m.write a b).read c = m.read c := by
  induction m with
  | nil =>
    unfold Memory.write
    split <;> simp [Memory.read, Ne.symm h]
  | cons p m ih =>
    obtain ⟨k, v⟩ := p
    unfold Memory.write
    split
    · split <;> simp [Memory.read, Ne.symm h]
    · split
      · rename_i _ e
        subst e
        split <;> simp [Memory.read, Ne.symm h]
      · simp [Memory.read, ih]

/-- The canonical form from a bound holds from every lower one. -/
theorem wfFrom_mono (m : Memory) {lo hi : Nat} (h : lo ≤ hi) (w : Memory.wfFrom hi m = true) : Memory.wfFrom lo m = true := by
  cases m with
  | nil => rfl
  | cons p m =>
    obtain ⟨k, v⟩ := p
    simp only [Memory.wfFrom, Bool.and_eq_true, decide_eq_true_eq] at w ⊢
    exact ⟨⟨by omega, w.1.2⟩, w.2⟩

/-- Writing a byte at or above a bound keeps the canonical form from it. -/
theorem wfFrom_write (m : Memory) (lo a : Nat) (b : Byte) (h : lo ≤ a) (w : Memory.wfFrom lo m = true) : Memory.wfFrom lo (m.write a b) = true := by
  induction m generalizing lo with
  | nil =>
    unfold Memory.write
    split
    · rfl
    · simp_all [Memory.wfFrom]
  | cons p m ih =>
    obtain ⟨k, v⟩ := p
    have w0 := w
    simp only [Memory.wfFrom, Bool.and_eq_true, decide_eq_true_eq] at w
    unfold Memory.write
    split
    · split
      · exact w0
      · simp only [Memory.wfFrom, Bool.and_eq_true, decide_eq_true_eq]
        simp_all
    · split
      · rename_i _ e
        subst e
        split
        · exact wfFrom_mono m (by omega) w.2
        · simp_all [Memory.wfFrom]
      · rename_i h1 h2
        simp only [Memory.wfFrom, Bool.and_eq_true, decide_eq_true_eq]
        exact ⟨w.1, ih (k + 1) (by omega) w.2⟩

/-- A write keeps the canonical form. -/
@[simp] theorem wf_write (m : Memory) (a : Nat) (b : Byte) (w : m.wf = true) : (m.write a b).wf = true := wfFrom_write m 0 a b (Nat.zero_le a) w

/-- A write of a byte string keeps the canonical form. -/
@[simp] theorem wf_writeN (m : Memory) (a : Nat) (bs : Bytes) (w : m.wf = true) : (m.writeN a bs).wf = true := by
  induction bs generalizing m a with
  | nil => exact w
  | cons b bs ih => exact ih _ _ (wf_write m a b w)

/-- Taking entries away keeps the canonical form. -/
@[simp] theorem wf_filter (m : Memory) (p : Host.Cell → Bool) (w : m.wf = true) : Memory.wf (m.filter p) = true := by
  suffices ∀ (m : Memory) (lo : Nat), Memory.wfFrom lo m = true → Memory.wfFrom lo (m.filter p) = true from this m 0 w
  intro m
  induction m with
  | nil => intros; rfl
  | cons q m ih =>
    intro lo w
    obtain ⟨k, v⟩ := q
    simp only [Memory.wfFrom, Bool.and_eq_true, decide_eq_true_eq] at w
    by_cases h : p (k, v) = true
    · simp only [List.filter_cons, if_pos h, Memory.wfFrom, Bool.and_eq_true, decide_eq_true_eq]
      exact ⟨w.1, ih _ w.2⟩
    · simp only [List.filter_cons, if_neg h]
      exact wfFrom_mono _ (by omega) (ih _ w.2)

/-- Clearing a range keeps the canonical form. -/
@[simp] theorem wf_clear (m : Memory) (a n : Nat) (w : m.wf = true) : (m.clear a n).wf = true := wf_filter m _ w

/-- A cleared byte reads as an unlisted one. -/
theorem read_clear_in (m : Memory) (a n c : Nat) (h1 : a ≤ c) (h2 : c < a + n) : (m.clear a n).read c = Memory.unlisted := by
  induction m with
  | nil => rfl
  | cons p m ih =>
    obtain ⟨k, v⟩ := p
    unfold Memory.clear
    by_cases h : (decide (k < a) || decide (a + n ≤ k)) = true
    · simp only [List.filter_cons, if_pos h]
      simp only [Bool.or_eq_true, decide_eq_true_eq] at h
      have e : k ≠ c := by omega
      simp only [Memory.read, if_neg e]
      exact ih
    · simp only [List.filter_cons, if_neg h]
      exact ih

/-- Clearing a range leaves every byte outside it alone. -/
theorem read_clear_out (m : Memory) (a n c : Nat) (h : c < a ∨ a + n ≤ c) : (m.clear a n).read c = m.read c := by
  induction m with
  | nil => rfl
  | cons p m ih =>
    obtain ⟨k, v⟩ := p
    unfold Memory.clear
    by_cases e : k = c
    · subst e
      have t : (decide (k < a) || decide (a + n ≤ k)) = true := by simpa using h
      simp [t, Memory.read]
    · by_cases t : (decide (k < a) || decide (a + n ≤ k)) = true
      · simp only [List.filter_cons, if_pos t, Memory.read, if_neg e]
        exact ih
      · simp only [List.filter_cons, if_neg t, Memory.read, if_neg e]
        exact ih

/-- Writing a byte string leaves every byte outside it alone. -/
theorem read_writeN_out (m : Memory) (a : Nat) (bs : Bytes) (c : Nat) (h : c < a ∨ a + bs.length ≤ c) : (m.writeN a bs).read c = m.read c := by
  induction bs generalizing m a with
  | nil => rfl
  | cons b bs ih =>
    simp only [Memory.writeN, List.length_cons] at *
    rw [ih _ _ (by omega), read_write_ne m b (by omega)]

/-- A byte string written reads back. -/
theorem readN_writeN_self (m : Memory) (a : Nat) (bs : Bytes) (w : m.wf = true) : (m.writeN a bs).readN a bs.length = bs := by
  induction bs generalizing m a with
  | nil => rfl
  | cons b bs ih =>
    simp only [Memory.writeN, List.length_cons, Memory.readN]
    rw [ih _ _ (wf_write m a b w), read_writeN_out _ _ _ _ (by omega), read_write_self m a b w]

end Sys2Proof.Laws
end

