-- ==== Sys2Proof/Laws/State.lean ====
section
/-! SUPPORT. What the shared updates of State leave alone: for each, one lemma for every field that it does not write. -/

namespace Sys2Proof.Laws

set_option Elab.async false

open Sys2Proof Sys2Proof.Machine

variable (s : State)

@[simp] theorem emit_pending (o : Output) : (emit o s).pending = s.pending := rfl
@[simp] theorem emit_freeCtr (o : Output) : (emit o s).freeCtr = s.freeCtr := rfl
@[simp] theorem emit_frontTime (o : Output) : (emit o s).frontTime = s.frontTime := rfl
@[simp] theorem emit_timeRuns (o : Output) : (emit o s).timeRuns = s.timeRuns := rfl
@[simp] theorem emit_ticks (o : Output) : (emit o s).ticks = s.ticks := rfl
@[simp] theorem emit_role (o : Output) : (emit o s).role = s.role := rfl
@[simp] theorem emit_proto (o : Output) : (emit o s).proto = s.proto := rfl
@[simp] theorem emit_host (o : Output) : (emit o s).host = s.host := rfl
@[simp] theorem emit_power (o : Output) : (emit o s).power = s.power := rfl
@[simp] theorem emit_sec (o : Output) : (emit o s).sec = s.sec := rfl
@[simp] theorem emit_fabric (o : Output) : (emit o s).fabric = s.fabric := rfl
@[simp] theorem emit_faults (o : Output) : (emit o s).faults = s.faults := rfl
@[simp] theorem emit_counters (o : Output) : (emit o s).counters = s.counters := rfl
@[simp] theorem emit_tiers (o : Output) : (emit o s).tiers = s.tiers := rfl
@[simp] theorem emit_tables (o : Output) : (emit o s).tables = s.tables := rfl
@[simp] theorem emit_indexes (o : Output) : (emit o s).indexes = s.indexes := rfl
@[simp] theorem emit_text (o : Output) : (emit o s).text = s.text := rfl
@[simp] theorem emit_serve (o : Output) : (emit o s).serve = s.serve := rfl
@[simp] theorem emit_compute (o : Output) : (emit o s).compute = s.compute := rfl
@[simp] theorem emit_sched (o : Output) : (emit o s).sched = s.sched := rfl
@[simp] theorem emit_dbg (o : Output) : (emit o s).dbg = s.dbg := rfl
@[simp] theorem emit_mem (o : Output) : (emit o s).mem = s.mem := rfl

@[simp] theorem bump_pending (c : Ctr) (k n : Nat) : (bump c k n s).pending = s.pending := rfl
@[simp] theorem bump_outputs (c : Ctr) (k n : Nat) : (bump c k n s).outputs = s.outputs := rfl
@[simp] theorem bump_freeCtr (c : Ctr) (k n : Nat) : (bump c k n s).freeCtr = s.freeCtr := rfl
@[simp] theorem bump_frontTime (c : Ctr) (k n : Nat) : (bump c k n s).frontTime = s.frontTime := rfl
@[simp] theorem bump_timeRuns (c : Ctr) (k n : Nat) : (bump c k n s).timeRuns = s.timeRuns := rfl
@[simp] theorem bump_ticks (c : Ctr) (k n : Nat) : (bump c k n s).ticks = s.ticks := rfl
@[simp] theorem bump_role (c : Ctr) (k n : Nat) : (bump c k n s).role = s.role := rfl
@[simp] theorem bump_proto (c : Ctr) (k n : Nat) : (bump c k n s).proto = s.proto := rfl
@[simp] theorem bump_host (c : Ctr) (k n : Nat) : (bump c k n s).host = s.host := rfl
@[simp] theorem bump_power (c : Ctr) (k n : Nat) : (bump c k n s).power = s.power := rfl
@[simp] theorem bump_sec (c : Ctr) (k n : Nat) : (bump c k n s).sec = s.sec := rfl
@[simp] theorem bump_fabric (c : Ctr) (k n : Nat) : (bump c k n s).fabric = s.fabric := rfl
@[simp] theorem bump_faults (c : Ctr) (k n : Nat) : (bump c k n s).faults = s.faults := rfl
@[simp] theorem bump_tiers (c : Ctr) (k n : Nat) : (bump c k n s).tiers = s.tiers := rfl
@[simp] theorem bump_tables (c : Ctr) (k n : Nat) : (bump c k n s).tables = s.tables := rfl
@[simp] theorem bump_indexes (c : Ctr) (k n : Nat) : (bump c k n s).indexes = s.indexes := rfl
@[simp] theorem bump_text (c : Ctr) (k n : Nat) : (bump c k n s).text = s.text := rfl
@[simp] theorem bump_serve (c : Ctr) (k n : Nat) : (bump c k n s).serve = s.serve := rfl
@[simp] theorem bump_compute (c : Ctr) (k n : Nat) : (bump c k n s).compute = s.compute := rfl
@[simp] theorem bump_sched (c : Ctr) (k n : Nat) : (bump c k n s).sched = s.sched := rfl
@[simp] theorem bump_dbg (c : Ctr) (k n : Nat) : (bump c k n s).dbg = s.dbg := rfl
@[simp] theorem bump_mem (c : Ctr) (k n : Nat) : (bump c k n s).mem = s.mem := rfl

@[simp] theorem advance_pending (now : Nat) : (advance now s).pending = s.pending := by unfold advance; split <;> rfl
@[simp] theorem advance_outputs (now : Nat) : (advance now s).outputs = s.outputs := by unfold advance; split <;> rfl
@[simp] theorem advance_freeCtr (now : Nat) : (advance now s).freeCtr = s.freeCtr := by unfold advance; split <;> rfl
@[simp] theorem advance_timeRuns (now : Nat) : (advance now s).timeRuns = s.timeRuns := by unfold advance; split <;> rfl
@[simp] theorem advance_ticks (now : Nat) : (advance now s).ticks = s.ticks := by unfold advance; split <;> rfl
@[simp] theorem advance_role (now : Nat) : (advance now s).role = s.role := by unfold advance; split <;> rfl
@[simp] theorem advance_proto (now : Nat) : (advance now s).proto = s.proto := by unfold advance; split <;> rfl
@[simp] theorem advance_host (now : Nat) : (advance now s).host = s.host := by unfold advance; split <;> rfl
@[simp] theorem advance_power (now : Nat) : (advance now s).power = s.power := by unfold advance; split <;> rfl
@[simp] theorem advance_sec (now : Nat) : (advance now s).sec = s.sec := by unfold advance; split <;> rfl
@[simp] theorem advance_fabric (now : Nat) : (advance now s).fabric = s.fabric := by unfold advance; split <;> rfl
@[simp] theorem advance_faults (now : Nat) : (advance now s).faults = s.faults := by unfold advance; split <;> rfl
@[simp] theorem advance_counters (now : Nat) : (advance now s).counters = s.counters := by unfold advance; split <;> rfl
@[simp] theorem advance_tiers (now : Nat) : (advance now s).tiers = s.tiers := by unfold advance; split <;> rfl
@[simp] theorem advance_tables (now : Nat) : (advance now s).tables = s.tables := by unfold advance; split <;> rfl
@[simp] theorem advance_indexes (now : Nat) : (advance now s).indexes = s.indexes := by unfold advance; split <;> rfl
@[simp] theorem advance_text (now : Nat) : (advance now s).text = s.text := by unfold advance; split <;> rfl
@[simp] theorem advance_serve (now : Nat) : (advance now s).serve = s.serve := by unfold advance; split <;> rfl
@[simp] theorem advance_compute (now : Nat) : (advance now s).compute = s.compute := by unfold advance; split <;> rfl
@[simp] theorem advance_sched (now : Nat) : (advance now s).sched = s.sched := by unfold advance; split <;> rfl
@[simp] theorem advance_dbg (now : Nat) : (advance now s).dbg = s.dbg := by unfold advance; split <;> rfl
@[simp] theorem advance_mem (now : Nat) : (advance now s).mem = s.mem := by unfold advance; split <;> rfl

@[simp] theorem noteHigh_pending (unit q now : Nat) : (noteHigh unit q now s).pending = s.pending := by simp only [noteHigh]; split <;> rfl
@[simp] theorem noteHigh_outputs (unit q now : Nat) : (noteHigh unit q now s).outputs = s.outputs := by simp only [noteHigh]; split <;> rfl
@[simp] theorem noteHigh_freeCtr (unit q now : Nat) : (noteHigh unit q now s).freeCtr = s.freeCtr := by simp only [noteHigh]; split <;> rfl
@[simp] theorem noteHigh_frontTime (unit q now : Nat) : (noteHigh unit q now s).frontTime = s.frontTime := by simp only [noteHigh]; split <;> rfl
@[simp] theorem noteHigh_timeRuns (unit q now : Nat) : (noteHigh unit q now s).timeRuns = s.timeRuns := by simp only [noteHigh]; split <;> rfl
@[simp] theorem noteHigh_ticks (unit q now : Nat) : (noteHigh unit q now s).ticks = s.ticks := by simp only [noteHigh]; split <;> rfl
@[simp] theorem noteHigh_role (unit q now : Nat) : (noteHigh unit q now s).role = s.role := by simp only [noteHigh]; split <;> rfl
@[simp] theorem noteHigh_proto (unit q now : Nat) : (noteHigh unit q now s).proto = s.proto := by simp only [noteHigh]; split <;> rfl
@[simp] theorem noteHigh_host (unit q now : Nat) : (noteHigh unit q now s).host = s.host := by simp only [noteHigh]; split <;> rfl
@[simp] theorem noteHigh_power (unit q now : Nat) : (noteHigh unit q now s).power = s.power := by simp only [noteHigh]; split <;> rfl
@[simp] theorem noteHigh_sec (unit q now : Nat) : (noteHigh unit q now s).sec = s.sec := by simp only [noteHigh]; split <;> rfl
@[simp] theorem noteHigh_fabric (unit q now : Nat) : (noteHigh unit q now s).fabric = s.fabric := by simp only [noteHigh]; split <;> rfl
@[simp] theorem noteHigh_faults (unit q now : Nat) : (noteHigh unit q now s).faults = s.faults := by simp only [noteHigh]; split <;> rfl
@[simp] theorem noteHigh_counters (unit q now : Nat) : (noteHigh unit q now s).counters = s.counters := by simp only [noteHigh]; split <;> rfl
@[simp] theorem noteHigh_tiers (unit q now : Nat) : (noteHigh unit q now s).tiers = s.tiers := by simp only [noteHigh]; split <;> rfl
@[simp] theorem noteHigh_tables (unit q now : Nat) : (noteHigh unit q now s).tables = s.tables := by simp only [noteHigh]; split <;> rfl
@[simp] theorem noteHigh_indexes (unit q now : Nat) : (noteHigh unit q now s).indexes = s.indexes := by simp only [noteHigh]; split <;> rfl
@[simp] theorem noteHigh_text (unit q now : Nat) : (noteHigh unit q now s).text = s.text := by simp only [noteHigh]; split <;> rfl
@[simp] theorem noteHigh_serve (unit q now : Nat) : (noteHigh unit q now s).serve = s.serve := by simp only [noteHigh]; split <;> rfl
@[simp] theorem noteHigh_compute (unit q now : Nat) : (noteHigh unit q now s).compute = s.compute := by simp only [noteHigh]; split <;> rfl
@[simp] theorem noteHigh_sched (unit q now : Nat) : (noteHigh unit q now s).sched = s.sched := by simp only [noteHigh]; split <;> rfl
@[simp] theorem noteHigh_mem (unit q now : Nat) : (noteHigh unit q now s).mem = s.mem := by simp only [noteHigh]; split <;> rfl

@[simp] theorem noteFull_pending (unit q : Nat) : (noteFull unit q s).pending = s.pending := rfl
@[simp] theorem noteFull_outputs (unit q : Nat) : (noteFull unit q s).outputs = s.outputs := rfl
@[simp] theorem noteFull_freeCtr (unit q : Nat) : (noteFull unit q s).freeCtr = s.freeCtr := rfl
@[simp] theorem noteFull_frontTime (unit q : Nat) : (noteFull unit q s).frontTime = s.frontTime := rfl
@[simp] theorem noteFull_timeRuns (unit q : Nat) : (noteFull unit q s).timeRuns = s.timeRuns := rfl
@[simp] theorem noteFull_ticks (unit q : Nat) : (noteFull unit q s).ticks = s.ticks := rfl
@[simp] theorem noteFull_role (unit q : Nat) : (noteFull unit q s).role = s.role := rfl
@[simp] theorem noteFull_proto (unit q : Nat) : (noteFull unit q s).proto = s.proto := rfl
@[simp] theorem noteFull_host (unit q : Nat) : (noteFull unit q s).host = s.host := rfl
@[simp] theorem noteFull_power (unit q : Nat) : (noteFull unit q s).power = s.power := rfl
@[simp] theorem noteFull_sec (unit q : Nat) : (noteFull unit q s).sec = s.sec := rfl
@[simp] theorem noteFull_fabric (unit q : Nat) : (noteFull unit q s).fabric = s.fabric := rfl
@[simp] theorem noteFull_faults (unit q : Nat) : (noteFull unit q s).faults = s.faults := rfl
@[simp] theorem noteFull_counters (unit q : Nat) : (noteFull unit q s).counters = s.counters := rfl
@[simp] theorem noteFull_tiers (unit q : Nat) : (noteFull unit q s).tiers = s.tiers := rfl
@[simp] theorem noteFull_tables (unit q : Nat) : (noteFull unit q s).tables = s.tables := rfl
@[simp] theorem noteFull_indexes (unit q : Nat) : (noteFull unit q s).indexes = s.indexes := rfl
@[simp] theorem noteFull_text (unit q : Nat) : (noteFull unit q s).text = s.text := rfl
@[simp] theorem noteFull_serve (unit q : Nat) : (noteFull unit q s).serve = s.serve := rfl
@[simp] theorem noteFull_compute (unit q : Nat) : (noteFull unit q s).compute = s.compute := rfl
@[simp] theorem noteFull_sched (unit q : Nat) : (noteFull unit q s).sched = s.sched := rfl
@[simp] theorem noteFull_mem (unit q : Nat) : (noteFull unit q s).mem = s.mem := rfl

@[simp] theorem logFault_pending (code sev action unit tenant command a b : Nat) : (logFault code sev action unit tenant command a b s).pending = s.pending := by simp only [logFault]; split <;> rfl
@[simp] theorem logFault_outputs (code sev action unit tenant command a b : Nat) : (logFault code sev action unit tenant command a b s).outputs = s.outputs := by simp only [logFault]; split <;> rfl
@[simp] theorem logFault_freeCtr (code sev action unit tenant command a b : Nat) : (logFault code sev action unit tenant command a b s).freeCtr = s.freeCtr := by simp only [logFault]; split <;> rfl
@[simp] theorem logFault_frontTime (code sev action unit tenant command a b : Nat) : (logFault code sev action unit tenant command a b s).frontTime = s.frontTime := by simp only [logFault]; split <;> rfl
@[simp] theorem logFault_timeRuns (code sev action unit tenant command a b : Nat) : (logFault code sev action unit tenant command a b s).timeRuns = s.timeRuns := by simp only [logFault]; split <;> rfl
@[simp] theorem logFault_ticks (code sev action unit tenant command a b : Nat) : (logFault code sev action unit tenant command a b s).ticks = s.ticks := by simp only [logFault]; split <;> rfl
@[simp] theorem logFault_role (code sev action unit tenant command a b : Nat) : (logFault code sev action unit tenant command a b s).role = s.role := by simp only [logFault]; split <;> rfl
@[simp] theorem logFault_proto (code sev action unit tenant command a b : Nat) : (logFault code sev action unit tenant command a b s).proto = s.proto := by simp only [logFault]; split <;> rfl
@[simp] theorem logFault_host (code sev action unit tenant command a b : Nat) : (logFault code sev action unit tenant command a b s).host = s.host := by simp only [logFault]; split <;> rfl
@[simp] theorem logFault_power (code sev action unit tenant command a b : Nat) : (logFault code sev action unit tenant command a b s).power = s.power := by simp only [logFault]; split <;> rfl
@[simp] theorem logFault_sec (code sev action unit tenant command a b : Nat) : (logFault code sev action unit tenant command a b s).sec = s.sec := by simp only [logFault]; split <;> rfl
@[simp] theorem logFault_fabric (code sev action unit tenant command a b : Nat) : (logFault code sev action unit tenant command a b s).fabric = s.fabric := by simp only [logFault]; split <;> rfl
@[simp] theorem logFault_counters (code sev action unit tenant command a b : Nat) : (logFault code sev action unit tenant command a b s).counters = s.counters := by simp only [logFault]; split <;> rfl
@[simp] theorem logFault_tiers (code sev action unit tenant command a b : Nat) : (logFault code sev action unit tenant command a b s).tiers = s.tiers := by simp only [logFault]; split <;> rfl
@[simp] theorem logFault_tables (code sev action unit tenant command a b : Nat) : (logFault code sev action unit tenant command a b s).tables = s.tables := by simp only [logFault]; split <;> rfl
@[simp] theorem logFault_indexes (code sev action unit tenant command a b : Nat) : (logFault code sev action unit tenant command a b s).indexes = s.indexes := by simp only [logFault]; split <;> rfl
@[simp] theorem logFault_text (code sev action unit tenant command a b : Nat) : (logFault code sev action unit tenant command a b s).text = s.text := by simp only [logFault]; split <;> rfl
@[simp] theorem logFault_serve (code sev action unit tenant command a b : Nat) : (logFault code sev action unit tenant command a b s).serve = s.serve := by simp only [logFault]; split <;> rfl
@[simp] theorem logFault_compute (code sev action unit tenant command a b : Nat) : (logFault code sev action unit tenant command a b s).compute = s.compute := by simp only [logFault]; split <;> rfl
@[simp] theorem logFault_sched (code sev action unit tenant command a b : Nat) : (logFault code sev action unit tenant command a b s).sched = s.sched := by simp only [logFault]; split <;> rfl
@[simp] theorem logFault_dbg (code sev action unit tenant command a b : Nat) : (logFault code sev action unit tenant command a b s).dbg = s.dbg := by simp only [logFault]; split <;> rfl
@[simp] theorem logFault_mem (code sev action unit tenant command a b : Nat) : (logFault code sev action unit tenant command a b s).mem = s.mem := by simp only [logFault]; split <;> rfl

@[simp] theorem flushFaults_pending : (flushFaults s).pending = s.pending := by simp only [flushFaults]; split <;> simp
@[simp] theorem flushFaults_outputs : (flushFaults s).outputs = s.outputs := by simp only [flushFaults]; split <;> simp
@[simp] theorem flushFaults_freeCtr : (flushFaults s).freeCtr = s.freeCtr := by simp only [flushFaults]; split <;> simp
@[simp] theorem flushFaults_frontTime : (flushFaults s).frontTime = s.frontTime := by simp only [flushFaults]; split <;> simp
@[simp] theorem flushFaults_timeRuns : (flushFaults s).timeRuns = s.timeRuns := by simp only [flushFaults]; split <;> simp
@[simp] theorem flushFaults_ticks : (flushFaults s).ticks = s.ticks := by simp only [flushFaults]; split <;> simp
@[simp] theorem flushFaults_role : (flushFaults s).role = s.role := by simp only [flushFaults]; split <;> simp
@[simp] theorem flushFaults_proto : (flushFaults s).proto = s.proto := by simp only [flushFaults]; split <;> simp
@[simp] theorem flushFaults_host : (flushFaults s).host = s.host := by simp only [flushFaults]; split <;> simp
@[simp] theorem flushFaults_power : (flushFaults s).power = s.power := by simp only [flushFaults]; split <;> simp
@[simp] theorem flushFaults_sec : (flushFaults s).sec = s.sec := by simp only [flushFaults]; split <;> simp
@[simp] theorem flushFaults_fabric : (flushFaults s).fabric = s.fabric := by simp only [flushFaults]; split <;> simp
@[simp] theorem flushFaults_counters : (flushFaults s).counters = s.counters := by simp only [flushFaults]; split <;> simp
@[simp] theorem flushFaults_tiers : (flushFaults s).tiers = s.tiers := by simp only [flushFaults]; split <;> simp
@[simp] theorem flushFaults_tables : (flushFaults s).tables = s.tables := by simp only [flushFaults]; split <;> simp
@[simp] theorem flushFaults_indexes : (flushFaults s).indexes = s.indexes := by simp only [flushFaults]; split <;> simp
@[simp] theorem flushFaults_text : (flushFaults s).text = s.text := by simp only [flushFaults]; split <;> simp
@[simp] theorem flushFaults_serve : (flushFaults s).serve = s.serve := by simp only [flushFaults]; split <;> simp
@[simp] theorem flushFaults_compute : (flushFaults s).compute = s.compute := by simp only [flushFaults]; split <;> simp
@[simp] theorem flushFaults_sched : (flushFaults s).sched = s.sched := by simp only [flushFaults]; split <;> simp
@[simp] theorem flushFaults_dbg : (flushFaults s).dbg = s.dbg := by simp only [flushFaults]; split <;> simp
@[simp] theorem flushFaults_mem : (flushFaults s).mem = s.mem := by simp only [flushFaults]; split <;> simp

@[simp] theorem disableUnit_pending (unit : Nat) : (disableUnit unit s).pending = s.pending := by simp only [disableUnit]; split <;> simp
@[simp] theorem disableUnit_outputs (unit : Nat) : (disableUnit unit s).outputs = s.outputs := by simp only [disableUnit]; split <;> simp
@[simp] theorem disableUnit_freeCtr (unit : Nat) : (disableUnit unit s).freeCtr = s.freeCtr := by simp only [disableUnit]; split <;> simp
@[simp] theorem disableUnit_frontTime (unit : Nat) : (disableUnit unit s).frontTime = s.frontTime := by simp only [disableUnit]; split <;> simp
@[simp] theorem disableUnit_timeRuns (unit : Nat) : (disableUnit unit s).timeRuns = s.timeRuns := by simp only [disableUnit]; split <;> simp
@[simp] theorem disableUnit_ticks (unit : Nat) : (disableUnit unit s).ticks = s.ticks := by simp only [disableUnit]; split <;> simp
@[simp] theorem disableUnit_role (unit : Nat) : (disableUnit unit s).role = s.role := by simp only [disableUnit]; split <;> simp
@[simp] theorem disableUnit_proto (unit : Nat) : (disableUnit unit s).proto = s.proto := by simp only [disableUnit]; split <;> simp
@[simp] theorem disableUnit_host (unit : Nat) : (disableUnit unit s).host = s.host := by simp only [disableUnit]; split <;> simp
@[simp] theorem disableUnit_power (unit : Nat) : (disableUnit unit s).power = s.power := by simp only [disableUnit]; split <;> simp
@[simp] theorem disableUnit_sec (unit : Nat) : (disableUnit unit s).sec = s.sec := by simp only [disableUnit]; split <;> simp
@[simp] theorem disableUnit_fabric (unit : Nat) : (disableUnit unit s).fabric = s.fabric := by simp only [disableUnit]; split <;> simp
@[simp] theorem disableUnit_counters (unit : Nat) : (disableUnit unit s).counters = s.counters := by simp only [disableUnit]; split <;> simp
@[simp] theorem disableUnit_tiers (unit : Nat) : (disableUnit unit s).tiers = s.tiers := by simp only [disableUnit]; split <;> simp
@[simp] theorem disableUnit_tables (unit : Nat) : (disableUnit unit s).tables = s.tables := by simp only [disableUnit]; split <;> simp
@[simp] theorem disableUnit_indexes (unit : Nat) : (disableUnit unit s).indexes = s.indexes := by simp only [disableUnit]; split <;> simp
@[simp] theorem disableUnit_text (unit : Nat) : (disableUnit unit s).text = s.text := by simp only [disableUnit]; split <;> simp
@[simp] theorem disableUnit_serve (unit : Nat) : (disableUnit unit s).serve = s.serve := by simp only [disableUnit]; split <;> simp
@[simp] theorem disableUnit_compute (unit : Nat) : (disableUnit unit s).compute = s.compute := by simp only [disableUnit]; split <;> simp
@[simp] theorem disableUnit_sched (unit : Nat) : (disableUnit unit s).sched = s.sched := by simp only [disableUnit]; split <;> simp
@[simp] theorem disableUnit_dbg (unit : Nat) : (disableUnit unit s).dbg = s.dbg := by simp only [disableUnit]; split <;> simp
@[simp] theorem disableUnit_mem (unit : Nat) : (disableUnit unit s).mem = s.mem := by simp only [disableUnit]; split <;> simp

@[simp] theorem countUnitFault_pending (unit kind : Nat) : (countUnitFault unit kind s).pending = s.pending := by simp only [countUnitFault]; split <;> simp
@[simp] theorem countUnitFault_outputs (unit kind : Nat) : (countUnitFault unit kind s).outputs = s.outputs := by simp only [countUnitFault]; split <;> simp
@[simp] theorem countUnitFault_freeCtr (unit kind : Nat) : (countUnitFault unit kind s).freeCtr = s.freeCtr := by simp only [countUnitFault]; split <;> simp
@[simp] theorem countUnitFault_frontTime (unit kind : Nat) : (countUnitFault unit kind s).frontTime = s.frontTime := by simp only [countUnitFault]; split <;> simp
@[simp] theorem countUnitFault_timeRuns (unit kind : Nat) : (countUnitFault unit kind s).timeRuns = s.timeRuns := by simp only [countUnitFault]; split <;> simp
@[simp] theorem countUnitFault_ticks (unit kind : Nat) : (countUnitFault unit kind s).ticks = s.ticks := by simp only [countUnitFault]; split <;> simp
@[simp] theorem countUnitFault_role (unit kind : Nat) : (countUnitFault unit kind s).role = s.role := by simp only [countUnitFault]; split <;> simp
@[simp] theorem countUnitFault_proto (unit kind : Nat) : (countUnitFault unit kind s).proto = s.proto := by simp only [countUnitFault]; split <;> simp
@[simp] theorem countUnitFault_host (unit kind : Nat) : (countUnitFault unit kind s).host = s.host := by simp only [countUnitFault]; split <;> simp
@[simp] theorem countUnitFault_power (unit kind : Nat) : (countUnitFault unit kind s).power = s.power := by simp only [countUnitFault]; split <;> simp
@[simp] theorem countUnitFault_sec (unit kind : Nat) : (countUnitFault unit kind s).sec = s.sec := by simp only [countUnitFault]; split <;> simp
@[simp] theorem countUnitFault_fabric (unit kind : Nat) : (countUnitFault unit kind s).fabric = s.fabric := by simp only [countUnitFault]; split <;> simp
@[simp] theorem countUnitFault_counters (unit kind : Nat) : (countUnitFault unit kind s).counters = s.counters := by simp only [countUnitFault]; split <;> simp
@[simp] theorem countUnitFault_tiers (unit kind : Nat) : (countUnitFault unit kind s).tiers = s.tiers := by simp only [countUnitFault]; split <;> simp
@[simp] theorem countUnitFault_tables (unit kind : Nat) : (countUnitFault unit kind s).tables = s.tables := by simp only [countUnitFault]; split <;> simp
@[simp] theorem countUnitFault_indexes (unit kind : Nat) : (countUnitFault unit kind s).indexes = s.indexes := by simp only [countUnitFault]; split <;> simp
@[simp] theorem countUnitFault_text (unit kind : Nat) : (countUnitFault unit kind s).text = s.text := by simp only [countUnitFault]; split <;> simp
@[simp] theorem countUnitFault_serve (unit kind : Nat) : (countUnitFault unit kind s).serve = s.serve := by simp only [countUnitFault]; split <;> simp
@[simp] theorem countUnitFault_compute (unit kind : Nat) : (countUnitFault unit kind s).compute = s.compute := by simp only [countUnitFault]; split <;> simp
@[simp] theorem countUnitFault_sched (unit kind : Nat) : (countUnitFault unit kind s).sched = s.sched := by simp only [countUnitFault]; split <;> simp
@[simp] theorem countUnitFault_dbg (unit kind : Nat) : (countUnitFault unit kind s).dbg = s.dbg := by simp only [countUnitFault]; split <;> simp
@[simp] theorem countUnitFault_mem (unit kind : Nat) : (countUnitFault unit kind s).mem = s.mem := by simp only [countUnitFault]; split <;> simp

@[simp] theorem raiseVector_pending (v : Nat) : (raiseVector v s).pending = s.pending := by simp only [raiseVector]; split <;> (try split) <;> rfl
@[simp] theorem raiseVector_freeCtr (v : Nat) : (raiseVector v s).freeCtr = s.freeCtr := by simp only [raiseVector]; split <;> (try split) <;> rfl
@[simp] theorem raiseVector_frontTime (v : Nat) : (raiseVector v s).frontTime = s.frontTime := by simp only [raiseVector]; split <;> (try split) <;> rfl
@[simp] theorem raiseVector_timeRuns (v : Nat) : (raiseVector v s).timeRuns = s.timeRuns := by simp only [raiseVector]; split <;> (try split) <;> rfl
@[simp] theorem raiseVector_ticks (v : Nat) : (raiseVector v s).ticks = s.ticks := by simp only [raiseVector]; split <;> (try split) <;> rfl
@[simp] theorem raiseVector_role (v : Nat) : (raiseVector v s).role = s.role := by simp only [raiseVector]; split <;> (try split) <;> rfl
@[simp] theorem raiseVector_proto (v : Nat) : (raiseVector v s).proto = s.proto := by simp only [raiseVector]; split <;> (try split) <;> rfl
@[simp] theorem raiseVector_power (v : Nat) : (raiseVector v s).power = s.power := by simp only [raiseVector]; split <;> (try split) <;> rfl
@[simp] theorem raiseVector_sec (v : Nat) : (raiseVector v s).sec = s.sec := by simp only [raiseVector]; split <;> (try split) <;> rfl
@[simp] theorem raiseVector_fabric (v : Nat) : (raiseVector v s).fabric = s.fabric := by simp only [raiseVector]; split <;> (try split) <;> rfl
@[simp] theorem raiseVector_faults (v : Nat) : (raiseVector v s).faults = s.faults := by simp only [raiseVector]; split <;> (try split) <;> rfl
@[simp] theorem raiseVector_counters (v : Nat) : (raiseVector v s).counters = s.counters := by simp only [raiseVector]; split <;> (try split) <;> rfl
@[simp] theorem raiseVector_tiers (v : Nat) : (raiseVector v s).tiers = s.tiers := by simp only [raiseVector]; split <;> (try split) <;> rfl
@[simp] theorem raiseVector_tables (v : Nat) : (raiseVector v s).tables = s.tables := by simp only [raiseVector]; split <;> (try split) <;> rfl
@[simp] theorem raiseVector_indexes (v : Nat) : (raiseVector v s).indexes = s.indexes := by simp only [raiseVector]; split <;> (try split) <;> rfl
@[simp] theorem raiseVector_text (v : Nat) : (raiseVector v s).text = s.text := by simp only [raiseVector]; split <;> (try split) <;> rfl
@[simp] theorem raiseVector_serve (v : Nat) : (raiseVector v s).serve = s.serve := by simp only [raiseVector]; split <;> (try split) <;> rfl
@[simp] theorem raiseVector_compute (v : Nat) : (raiseVector v s).compute = s.compute := by simp only [raiseVector]; split <;> (try split) <;> rfl
@[simp] theorem raiseVector_sched (v : Nat) : (raiseVector v s).sched = s.sched := by simp only [raiseVector]; split <;> (try split) <;> rfl
@[simp] theorem raiseVector_dbg (v : Nat) : (raiseVector v s).dbg = s.dbg := by simp only [raiseVector]; split <;> (try split) <;> rfl
@[simp] theorem raiseVector_mem (v : Nat) : (raiseVector v s).mem = s.mem := by simp only [raiseVector]; split <;> (try split) <;> rfl

@[simp] theorem raiseEvent_pending : (raiseEvent s).pending = s.pending := by simp only [raiseEvent]; split <;> simp
@[simp] theorem raiseEvent_freeCtr : (raiseEvent s).freeCtr = s.freeCtr := by simp only [raiseEvent]; split <;> simp
@[simp] theorem raiseEvent_frontTime : (raiseEvent s).frontTime = s.frontTime := by simp only [raiseEvent]; split <;> simp
@[simp] theorem raiseEvent_timeRuns : (raiseEvent s).timeRuns = s.timeRuns := by simp only [raiseEvent]; split <;> simp
@[simp] theorem raiseEvent_ticks : (raiseEvent s).ticks = s.ticks := by simp only [raiseEvent]; split <;> simp
@[simp] theorem raiseEvent_role : (raiseEvent s).role = s.role := by simp only [raiseEvent]; split <;> simp
@[simp] theorem raiseEvent_proto : (raiseEvent s).proto = s.proto := by simp only [raiseEvent]; split <;> simp
@[simp] theorem raiseEvent_power : (raiseEvent s).power = s.power := by simp only [raiseEvent]; split <;> simp
@[simp] theorem raiseEvent_sec : (raiseEvent s).sec = s.sec := by simp only [raiseEvent]; split <;> simp
@[simp] theorem raiseEvent_fabric : (raiseEvent s).fabric = s.fabric := by simp only [raiseEvent]; split <;> simp
@[simp] theorem raiseEvent_faults : (raiseEvent s).faults = s.faults := by simp only [raiseEvent]; split <;> simp
@[simp] theorem raiseEvent_counters : (raiseEvent s).counters = s.counters := by simp only [raiseEvent]; split <;> simp
@[simp] theorem raiseEvent_tiers : (raiseEvent s).tiers = s.tiers := by simp only [raiseEvent]; split <;> simp
@[simp] theorem raiseEvent_tables : (raiseEvent s).tables = s.tables := by simp only [raiseEvent]; split <;> simp
@[simp] theorem raiseEvent_indexes : (raiseEvent s).indexes = s.indexes := by simp only [raiseEvent]; split <;> simp
@[simp] theorem raiseEvent_text : (raiseEvent s).text = s.text := by simp only [raiseEvent]; split <;> simp
@[simp] theorem raiseEvent_serve : (raiseEvent s).serve = s.serve := by simp only [raiseEvent]; split <;> simp
@[simp] theorem raiseEvent_compute : (raiseEvent s).compute = s.compute := by simp only [raiseEvent]; split <;> simp
@[simp] theorem raiseEvent_sched : (raiseEvent s).sched = s.sched := by simp only [raiseEvent]; split <;> simp
@[simp] theorem raiseEvent_dbg : (raiseEvent s).dbg = s.dbg := by simp only [raiseEvent]; split <;> simp
@[simp] theorem raiseEvent_mem : (raiseEvent s).mem = s.mem := by simp only [raiseEvent]; split <;> simp

@[simp] theorem latchEvents_pending (bs : List Nat) : (latchEvents bs s).pending = s.pending := by simp only [latchEvents]; split <;> (try split) <;> simp
@[simp] theorem latchEvents_freeCtr (bs : List Nat) : (latchEvents bs s).freeCtr = s.freeCtr := by simp only [latchEvents]; split <;> (try split) <;> simp
@[simp] theorem latchEvents_frontTime (bs : List Nat) : (latchEvents bs s).frontTime = s.frontTime := by simp only [latchEvents]; split <;> (try split) <;> simp
@[simp] theorem latchEvents_timeRuns (bs : List Nat) : (latchEvents bs s).timeRuns = s.timeRuns := by simp only [latchEvents]; split <;> (try split) <;> simp
@[simp] theorem latchEvents_ticks (bs : List Nat) : (latchEvents bs s).ticks = s.ticks := by simp only [latchEvents]; split <;> (try split) <;> simp
@[simp] theorem latchEvents_role (bs : List Nat) : (latchEvents bs s).role = s.role := by simp only [latchEvents]; split <;> (try split) <;> simp
@[simp] theorem latchEvents_proto (bs : List Nat) : (latchEvents bs s).proto = s.proto := by simp only [latchEvents]; split <;> (try split) <;> simp
@[simp] theorem latchEvents_power (bs : List Nat) : (latchEvents bs s).power = s.power := by simp only [latchEvents]; split <;> (try split) <;> simp
@[simp] theorem latchEvents_sec (bs : List Nat) : (latchEvents bs s).sec = s.sec := by simp only [latchEvents]; split <;> (try split) <;> simp
@[simp] theorem latchEvents_fabric (bs : List Nat) : (latchEvents bs s).fabric = s.fabric := by simp only [latchEvents]; split <;> (try split) <;> simp
@[simp] theorem latchEvents_faults (bs : List Nat) : (latchEvents bs s).faults = s.faults := by simp only [latchEvents]; split <;> (try split) <;> simp
@[simp] theorem latchEvents_counters (bs : List Nat) : (latchEvents bs s).counters = s.counters := by simp only [latchEvents]; split <;> (try split) <;> simp
@[simp] theorem latchEvents_tiers (bs : List Nat) : (latchEvents bs s).tiers = s.tiers := by simp only [latchEvents]; split <;> (try split) <;> simp
@[simp] theorem latchEvents_tables (bs : List Nat) : (latchEvents bs s).tables = s.tables := by simp only [latchEvents]; split <;> (try split) <;> simp
@[simp] theorem latchEvents_indexes (bs : List Nat) : (latchEvents bs s).indexes = s.indexes := by simp only [latchEvents]; split <;> (try split) <;> simp
@[simp] theorem latchEvents_text (bs : List Nat) : (latchEvents bs s).text = s.text := by simp only [latchEvents]; split <;> (try split) <;> simp
@[simp] theorem latchEvents_serve (bs : List Nat) : (latchEvents bs s).serve = s.serve := by simp only [latchEvents]; split <;> (try split) <;> simp
@[simp] theorem latchEvents_compute (bs : List Nat) : (latchEvents bs s).compute = s.compute := by simp only [latchEvents]; split <;> (try split) <;> simp
@[simp] theorem latchEvents_sched (bs : List Nat) : (latchEvents bs s).sched = s.sched := by simp only [latchEvents]; split <;> (try split) <;> simp
@[simp] theorem latchEvents_dbg (bs : List Nat) : (latchEvents bs s).dbg = s.dbg := by simp only [latchEvents]; split <;> (try split) <;> simp
@[simp] theorem latchEvents_mem (bs : List Nat) : (latchEvents bs s).mem = s.mem := by simp only [latchEvents]; split <;> (try split) <;> simp

@[simp] theorem settle_pending (old : State) : (settle old s).pending = s.pending := by simp [settle]
@[simp] theorem settle_freeCtr (old : State) : (settle old s).freeCtr = s.freeCtr := by simp [settle]
@[simp] theorem settle_frontTime (old : State) : (settle old s).frontTime = s.frontTime := by simp [settle]
@[simp] theorem settle_timeRuns (old : State) : (settle old s).timeRuns = s.timeRuns := by simp [settle]
@[simp] theorem settle_ticks (old : State) : (settle old s).ticks = s.ticks := by simp [settle]
@[simp] theorem settle_role (old : State) : (settle old s).role = s.role := by simp [settle]
@[simp] theorem settle_proto (old : State) : (settle old s).proto = s.proto := by simp [settle]
@[simp] theorem settle_power (old : State) : (settle old s).power = s.power := by simp [settle]
@[simp] theorem settle_sec (old : State) : (settle old s).sec = s.sec := by simp [settle]
@[simp] theorem settle_fabric (old : State) : (settle old s).fabric = s.fabric := by simp [settle]
@[simp] theorem settle_faults (old : State) : (settle old s).faults = s.faults := by simp [settle]
@[simp] theorem settle_counters (old : State) : (settle old s).counters = s.counters := by simp [settle]
@[simp] theorem settle_tiers (old : State) : (settle old s).tiers = s.tiers := by simp [settle]
@[simp] theorem settle_tables (old : State) : (settle old s).tables = s.tables := by simp [settle]
@[simp] theorem settle_indexes (old : State) : (settle old s).indexes = s.indexes := by simp [settle]
@[simp] theorem settle_text (old : State) : (settle old s).text = s.text := by simp [settle]
@[simp] theorem settle_serve (old : State) : (settle old s).serve = s.serve := by simp [settle]
@[simp] theorem settle_compute (old : State) : (settle old s).compute = s.compute := by simp [settle]
@[simp] theorem settle_sched (old : State) : (settle old s).sched = s.sched := by simp [settle]
@[simp] theorem settle_dbg (old : State) : (settle old s).dbg = s.dbg := by simp [settle]
@[simp] theorem settle_mem (old : State) : (settle old s).mem = s.mem := by simp [settle]

@[simp] theorem setSq_pending (n : Nat) (r : SubRing) : (setSq n r s).pending = s.pending := rfl
@[simp] theorem setSq_outputs (n : Nat) (r : SubRing) : (setSq n r s).outputs = s.outputs := rfl
@[simp] theorem setSq_freeCtr (n : Nat) (r : SubRing) : (setSq n r s).freeCtr = s.freeCtr := rfl
@[simp] theorem setSq_frontTime (n : Nat) (r : SubRing) : (setSq n r s).frontTime = s.frontTime := rfl
@[simp] theorem setSq_timeRuns (n : Nat) (r : SubRing) : (setSq n r s).timeRuns = s.timeRuns := rfl
@[simp] theorem setSq_ticks (n : Nat) (r : SubRing) : (setSq n r s).ticks = s.ticks := rfl
@[simp] theorem setSq_role (n : Nat) (r : SubRing) : (setSq n r s).role = s.role := rfl
@[simp] theorem setSq_proto (n : Nat) (r : SubRing) : (setSq n r s).proto = s.proto := rfl
@[simp] theorem setSq_power (n : Nat) (r : SubRing) : (setSq n r s).power = s.power := rfl
@[simp] theorem setSq_sec (n : Nat) (r : SubRing) : (setSq n r s).sec = s.sec := rfl
@[simp] theorem setSq_fabric (n : Nat) (r : SubRing) : (setSq n r s).fabric = s.fabric := rfl
@[simp] theorem setSq_faults (n : Nat) (r : SubRing) : (setSq n r s).faults = s.faults := rfl
@[simp] theorem setSq_counters (n : Nat) (r : SubRing) : (setSq n r s).counters = s.counters := rfl
@[simp] theorem setSq_tiers (n : Nat) (r : SubRing) : (setSq n r s).tiers = s.tiers := rfl
@[simp] theorem setSq_tables (n : Nat) (r : SubRing) : (setSq n r s).tables = s.tables := rfl
@[simp] theorem setSq_indexes (n : Nat) (r : SubRing) : (setSq n r s).indexes = s.indexes := rfl
@[simp] theorem setSq_text (n : Nat) (r : SubRing) : (setSq n r s).text = s.text := rfl
@[simp] theorem setSq_serve (n : Nat) (r : SubRing) : (setSq n r s).serve = s.serve := rfl
@[simp] theorem setSq_compute (n : Nat) (r : SubRing) : (setSq n r s).compute = s.compute := rfl
@[simp] theorem setSq_sched (n : Nat) (r : SubRing) : (setSq n r s).sched = s.sched := rfl
@[simp] theorem setSq_dbg (n : Nat) (r : SubRing) : (setSq n r s).dbg = s.dbg := rfl
@[simp] theorem setSq_mem (n : Nat) (r : SubRing) : (setSq n r s).mem = s.mem := rfl

@[simp] theorem setCq_pending (n : Nat) (r : CplRing) : (setCq n r s).pending = s.pending := rfl
@[simp] theorem setCq_outputs (n : Nat) (r : CplRing) : (setCq n r s).outputs = s.outputs := rfl
@[simp] theorem setCq_freeCtr (n : Nat) (r : CplRing) : (setCq n r s).freeCtr = s.freeCtr := rfl
@[simp] theorem setCq_frontTime (n : Nat) (r : CplRing) : (setCq n r s).frontTime = s.frontTime := rfl
@[simp] theorem setCq_timeRuns (n : Nat) (r : CplRing) : (setCq n r s).timeRuns = s.timeRuns := rfl
@[simp] theorem setCq_ticks (n : Nat) (r : CplRing) : (setCq n r s).ticks = s.ticks := rfl
@[simp] theorem setCq_role (n : Nat) (r : CplRing) : (setCq n r s).role = s.role := rfl
@[simp] theorem setCq_proto (n : Nat) (r : CplRing) : (setCq n r s).proto = s.proto := rfl
@[simp] theorem setCq_power (n : Nat) (r : CplRing) : (setCq n r s).power = s.power := rfl
@[simp] theorem setCq_sec (n : Nat) (r : CplRing) : (setCq n r s).sec = s.sec := rfl
@[simp] theorem setCq_fabric (n : Nat) (r : CplRing) : (setCq n r s).fabric = s.fabric := rfl
@[simp] theorem setCq_faults (n : Nat) (r : CplRing) : (setCq n r s).faults = s.faults := rfl
@[simp] theorem setCq_counters (n : Nat) (r : CplRing) : (setCq n r s).counters = s.counters := rfl
@[simp] theorem setCq_tiers (n : Nat) (r : CplRing) : (setCq n r s).tiers = s.tiers := rfl
@[simp] theorem setCq_tables (n : Nat) (r : CplRing) : (setCq n r s).tables = s.tables := rfl
@[simp] theorem setCq_indexes (n : Nat) (r : CplRing) : (setCq n r s).indexes = s.indexes := rfl
@[simp] theorem setCq_text (n : Nat) (r : CplRing) : (setCq n r s).text = s.text := rfl
@[simp] theorem setCq_serve (n : Nat) (r : CplRing) : (setCq n r s).serve = s.serve := rfl
@[simp] theorem setCq_compute (n : Nat) (r : CplRing) : (setCq n r s).compute = s.compute := rfl
@[simp] theorem setCq_sched (n : Nat) (r : CplRing) : (setCq n r s).sched = s.sched := rfl
@[simp] theorem setCq_dbg (n : Nat) (r : CplRing) : (setCq n r s).dbg = s.dbg := rfl
@[simp] theorem setCq_mem (n : Nat) (r : CplRing) : (setCq n r s).mem = s.mem := rfl

@[simp] theorem trackBody_pending (code unit tenant : Nat) (body : Bytes) : (trackBody code unit tenant body s).pending = s.pending := rfl
@[simp] theorem trackBody_outputs (code unit tenant : Nat) (body : Bytes) : (trackBody code unit tenant body s).outputs = s.outputs := rfl
@[simp] theorem trackBody_freeCtr (code unit tenant : Nat) (body : Bytes) : (trackBody code unit tenant body s).freeCtr = s.freeCtr := rfl
@[simp] theorem trackBody_frontTime (code unit tenant : Nat) (body : Bytes) : (trackBody code unit tenant body s).frontTime = s.frontTime := rfl
@[simp] theorem trackBody_timeRuns (code unit tenant : Nat) (body : Bytes) : (trackBody code unit tenant body s).timeRuns = s.timeRuns := rfl
@[simp] theorem trackBody_ticks (code unit tenant : Nat) (body : Bytes) : (trackBody code unit tenant body s).ticks = s.ticks := rfl
@[simp] theorem trackBody_role (code unit tenant : Nat) (body : Bytes) : (trackBody code unit tenant body s).role = s.role := rfl
@[simp] theorem trackBody_proto (code unit tenant : Nat) (body : Bytes) : (trackBody code unit tenant body s).proto = s.proto := rfl
@[simp] theorem trackBody_host (code unit tenant : Nat) (body : Bytes) : (trackBody code unit tenant body s).host = s.host := rfl
@[simp] theorem trackBody_power (code unit tenant : Nat) (body : Bytes) : (trackBody code unit tenant body s).power = s.power := rfl
@[simp] theorem trackBody_sec (code unit tenant : Nat) (body : Bytes) : (trackBody code unit tenant body s).sec = s.sec := rfl
@[simp] theorem trackBody_fabric (code unit tenant : Nat) (body : Bytes) : (trackBody code unit tenant body s).fabric = s.fabric := rfl
@[simp] theorem trackBody_faults (code unit tenant : Nat) (body : Bytes) : (trackBody code unit tenant body s).faults = s.faults := rfl
@[simp] theorem trackBody_counters (code unit tenant : Nat) (body : Bytes) : (trackBody code unit tenant body s).counters = s.counters := rfl
@[simp] theorem trackBody_tiers (code unit tenant : Nat) (body : Bytes) : (trackBody code unit tenant body s).tiers = s.tiers := rfl
@[simp] theorem trackBody_tables (code unit tenant : Nat) (body : Bytes) : (trackBody code unit tenant body s).tables = s.tables := rfl
@[simp] theorem trackBody_indexes (code unit tenant : Nat) (body : Bytes) : (trackBody code unit tenant body s).indexes = s.indexes := rfl
@[simp] theorem trackBody_text (code unit tenant : Nat) (body : Bytes) : (trackBody code unit tenant body s).text = s.text := rfl
@[simp] theorem trackBody_serve (code unit tenant : Nat) (body : Bytes) : (trackBody code unit tenant body s).serve = s.serve := rfl
@[simp] theorem trackBody_compute (code unit tenant : Nat) (body : Bytes) : (trackBody code unit tenant body s).compute = s.compute := rfl
@[simp] theorem trackBody_sched (code unit tenant : Nat) (body : Bytes) : (trackBody code unit tenant body s).sched = s.sched := rfl
@[simp] theorem trackBody_mem (code unit tenant : Nat) (body : Bytes) : (trackBody code unit tenant body s).mem = s.mem := rfl

@[simp] theorem track_pending (code unit tenant command a b : Nat) : (track code unit tenant command a b s).pending = s.pending := by simp [track]
@[simp] theorem track_outputs (code unit tenant command a b : Nat) : (track code unit tenant command a b s).outputs = s.outputs := by simp [track]
@[simp] theorem track_freeCtr (code unit tenant command a b : Nat) : (track code unit tenant command a b s).freeCtr = s.freeCtr := by simp [track]
@[simp] theorem track_frontTime (code unit tenant command a b : Nat) : (track code unit tenant command a b s).frontTime = s.frontTime := by simp [track]
@[simp] theorem track_timeRuns (code unit tenant command a b : Nat) : (track code unit tenant command a b s).timeRuns = s.timeRuns := by simp [track]
@[simp] theorem track_ticks (code unit tenant command a b : Nat) : (track code unit tenant command a b s).ticks = s.ticks := by simp [track]
@[simp] theorem track_role (code unit tenant command a b : Nat) : (track code unit tenant command a b s).role = s.role := by simp [track]
@[simp] theorem track_proto (code unit tenant command a b : Nat) : (track code unit tenant command a b s).proto = s.proto := by simp [track]
@[simp] theorem track_host (code unit tenant command a b : Nat) : (track code unit tenant command a b s).host = s.host := by simp [track]
@[simp] theorem track_power (code unit tenant command a b : Nat) : (track code unit tenant command a b s).power = s.power := by simp [track]
@[simp] theorem track_sec (code unit tenant command a b : Nat) : (track code unit tenant command a b s).sec = s.sec := by simp [track]
@[simp] theorem track_fabric (code unit tenant command a b : Nat) : (track code unit tenant command a b s).fabric = s.fabric := by simp [track]
@[simp] theorem track_faults (code unit tenant command a b : Nat) : (track code unit tenant command a b s).faults = s.faults := by simp [track]
@[simp] theorem track_counters (code unit tenant command a b : Nat) : (track code unit tenant command a b s).counters = s.counters := by simp [track]
@[simp] theorem track_tiers (code unit tenant command a b : Nat) : (track code unit tenant command a b s).tiers = s.tiers := by simp [track]
@[simp] theorem track_tables (code unit tenant command a b : Nat) : (track code unit tenant command a b s).tables = s.tables := by simp [track]
@[simp] theorem track_indexes (code unit tenant command a b : Nat) : (track code unit tenant command a b s).indexes = s.indexes := by simp [track]
@[simp] theorem track_text (code unit tenant command a b : Nat) : (track code unit tenant command a b s).text = s.text := by simp [track]
@[simp] theorem track_serve (code unit tenant command a b : Nat) : (track code unit tenant command a b s).serve = s.serve := by simp [track]
@[simp] theorem track_compute (code unit tenant command a b : Nat) : (track code unit tenant command a b s).compute = s.compute := by simp [track]
@[simp] theorem track_sched (code unit tenant command a b : Nat) : (track code unit tenant command a b s).sched = s.sched := by simp [track]
@[simp] theorem track_mem (code unit tenant command a b : Nat) : (track code unit tenant command a b s).mem = s.mem := by simp [track]

@[simp] theorem cqError_pending (n cause : Nat) : (cqError n cause s).pending = s.pending := by simp only [cqError]; split <;> simp
@[simp] theorem cqError_freeCtr (n cause : Nat) : (cqError n cause s).freeCtr = s.freeCtr := by simp only [cqError]; split <;> simp
@[simp] theorem cqError_frontTime (n cause : Nat) : (cqError n cause s).frontTime = s.frontTime := by simp only [cqError]; split <;> simp
@[simp] theorem cqError_timeRuns (n cause : Nat) : (cqError n cause s).timeRuns = s.timeRuns := by simp only [cqError]; split <;> simp
@[simp] theorem cqError_ticks (n cause : Nat) : (cqError n cause s).ticks = s.ticks := by simp only [cqError]; split <;> simp
@[simp] theorem cqError_role (n cause : Nat) : (cqError n cause s).role = s.role := by simp only [cqError]; split <;> simp
@[simp] theorem cqError_proto (n cause : Nat) : (cqError n cause s).proto = s.proto := by simp only [cqError]; split <;> simp
@[simp] theorem cqError_power (n cause : Nat) : (cqError n cause s).power = s.power := by simp only [cqError]; split <;> simp
@[simp] theorem cqError_sec (n cause : Nat) : (cqError n cause s).sec = s.sec := by simp only [cqError]; split <;> simp
@[simp] theorem cqError_fabric (n cause : Nat) : (cqError n cause s).fabric = s.fabric := by simp only [cqError]; split <;> simp
@[simp] theorem cqError_faults (n cause : Nat) : (cqError n cause s).faults = s.faults := by simp only [cqError]; split <;> simp
@[simp] theorem cqError_counters (n cause : Nat) : (cqError n cause s).counters = s.counters := by simp only [cqError]; split <;> simp
@[simp] theorem cqError_tiers (n cause : Nat) : (cqError n cause s).tiers = s.tiers := by simp only [cqError]; split <;> simp
@[simp] theorem cqError_tables (n cause : Nat) : (cqError n cause s).tables = s.tables := by simp only [cqError]; split <;> simp
@[simp] theorem cqError_indexes (n cause : Nat) : (cqError n cause s).indexes = s.indexes := by simp only [cqError]; split <;> simp
@[simp] theorem cqError_text (n cause : Nat) : (cqError n cause s).text = s.text := by simp only [cqError]; split <;> simp
@[simp] theorem cqError_serve (n cause : Nat) : (cqError n cause s).serve = s.serve := by simp only [cqError]; split <;> simp
@[simp] theorem cqError_compute (n cause : Nat) : (cqError n cause s).compute = s.compute := by simp only [cqError]; split <;> simp
@[simp] theorem cqError_sched (n cause : Nat) : (cqError n cause s).sched = s.sched := by simp only [cqError]; split <;> simp
@[simp] theorem cqError_mem (n cause : Nat) : (cqError n cause s).mem = s.mem := by simp only [cqError]; split <;> simp

@[simp] theorem cqAdvance_pending (n slots : Nat) : (cqAdvance n slots s).pending = s.pending := by simp only [cqAdvance]; split <;> simp
@[simp] theorem cqAdvance_freeCtr (n slots : Nat) : (cqAdvance n slots s).freeCtr = s.freeCtr := by simp only [cqAdvance]; split <;> simp
@[simp] theorem cqAdvance_frontTime (n slots : Nat) : (cqAdvance n slots s).frontTime = s.frontTime := by simp only [cqAdvance]; split <;> simp
@[simp] theorem cqAdvance_timeRuns (n slots : Nat) : (cqAdvance n slots s).timeRuns = s.timeRuns := by simp only [cqAdvance]; split <;> simp
@[simp] theorem cqAdvance_ticks (n slots : Nat) : (cqAdvance n slots s).ticks = s.ticks := by simp only [cqAdvance]; split <;> simp
@[simp] theorem cqAdvance_role (n slots : Nat) : (cqAdvance n slots s).role = s.role := by simp only [cqAdvance]; split <;> simp
@[simp] theorem cqAdvance_proto (n slots : Nat) : (cqAdvance n slots s).proto = s.proto := by simp only [cqAdvance]; split <;> simp
@[simp] theorem cqAdvance_power (n slots : Nat) : (cqAdvance n slots s).power = s.power := by simp only [cqAdvance]; split <;> simp
@[simp] theorem cqAdvance_sec (n slots : Nat) : (cqAdvance n slots s).sec = s.sec := by simp only [cqAdvance]; split <;> simp
@[simp] theorem cqAdvance_fabric (n slots : Nat) : (cqAdvance n slots s).fabric = s.fabric := by simp only [cqAdvance]; split <;> simp
@[simp] theorem cqAdvance_faults (n slots : Nat) : (cqAdvance n slots s).faults = s.faults := by simp only [cqAdvance]; split <;> simp
@[simp] theorem cqAdvance_counters (n slots : Nat) : (cqAdvance n slots s).counters = s.counters := by simp only [cqAdvance]; split <;> simp
@[simp] theorem cqAdvance_tiers (n slots : Nat) : (cqAdvance n slots s).tiers = s.tiers := by simp only [cqAdvance]; split <;> simp
@[simp] theorem cqAdvance_tables (n slots : Nat) : (cqAdvance n slots s).tables = s.tables := by simp only [cqAdvance]; split <;> simp
@[simp] theorem cqAdvance_indexes (n slots : Nat) : (cqAdvance n slots s).indexes = s.indexes := by simp only [cqAdvance]; split <;> simp
@[simp] theorem cqAdvance_text (n slots : Nat) : (cqAdvance n slots s).text = s.text := by simp only [cqAdvance]; split <;> simp
@[simp] theorem cqAdvance_serve (n slots : Nat) : (cqAdvance n slots s).serve = s.serve := by simp only [cqAdvance]; split <;> simp
@[simp] theorem cqAdvance_compute (n slots : Nat) : (cqAdvance n slots s).compute = s.compute := by simp only [cqAdvance]; split <;> simp
@[simp] theorem cqAdvance_sched (n slots : Nat) : (cqAdvance n slots s).sched = s.sched := by simp only [cqAdvance]; split <;> simp
@[simp] theorem cqAdvance_mem (n slots : Nat) : (cqAdvance n slots s).mem = s.mem := by simp only [cqAdvance]; split <;> simp

@[simp] theorem cqSignal_pending (n : Nat) : (cqSignal n s).pending = s.pending := by simp only [cqSignal]; split <;> simp
@[simp] theorem cqSignal_freeCtr (n : Nat) : (cqSignal n s).freeCtr = s.freeCtr := by simp only [cqSignal]; split <;> simp
@[simp] theorem cqSignal_frontTime (n : Nat) : (cqSignal n s).frontTime = s.frontTime := by simp only [cqSignal]; split <;> simp
@[simp] theorem cqSignal_timeRuns (n : Nat) : (cqSignal n s).timeRuns = s.timeRuns := by simp only [cqSignal]; split <;> simp
@[simp] theorem cqSignal_ticks (n : Nat) : (cqSignal n s).ticks = s.ticks := by simp only [cqSignal]; split <;> simp
@[simp] theorem cqSignal_role (n : Nat) : (cqSignal n s).role = s.role := by simp only [cqSignal]; split <;> simp
@[simp] theorem cqSignal_proto (n : Nat) : (cqSignal n s).proto = s.proto := by simp only [cqSignal]; split <;> simp
@[simp] theorem cqSignal_power (n : Nat) : (cqSignal n s).power = s.power := by simp only [cqSignal]; split <;> simp
@[simp] theorem cqSignal_sec (n : Nat) : (cqSignal n s).sec = s.sec := by simp only [cqSignal]; split <;> simp
@[simp] theorem cqSignal_fabric (n : Nat) : (cqSignal n s).fabric = s.fabric := by simp only [cqSignal]; split <;> simp
@[simp] theorem cqSignal_faults (n : Nat) : (cqSignal n s).faults = s.faults := by simp only [cqSignal]; split <;> simp
@[simp] theorem cqSignal_counters (n : Nat) : (cqSignal n s).counters = s.counters := by simp only [cqSignal]; split <;> simp
@[simp] theorem cqSignal_tiers (n : Nat) : (cqSignal n s).tiers = s.tiers := by simp only [cqSignal]; split <;> simp
@[simp] theorem cqSignal_tables (n : Nat) : (cqSignal n s).tables = s.tables := by simp only [cqSignal]; split <;> simp
@[simp] theorem cqSignal_indexes (n : Nat) : (cqSignal n s).indexes = s.indexes := by simp only [cqSignal]; split <;> simp
@[simp] theorem cqSignal_text (n : Nat) : (cqSignal n s).text = s.text := by simp only [cqSignal]; split <;> simp
@[simp] theorem cqSignal_serve (n : Nat) : (cqSignal n s).serve = s.serve := by simp only [cqSignal]; split <;> simp
@[simp] theorem cqSignal_compute (n : Nat) : (cqSignal n s).compute = s.compute := by simp only [cqSignal]; split <;> simp
@[simp] theorem cqSignal_sched (n : Nat) : (cqSignal n s).sched = s.sched := by simp only [cqSignal]; split <;> simp
@[simp] theorem cqSignal_dbg (n : Nat) : (cqSignal n s).dbg = s.dbg := by simp only [cqSignal]; split <;> simp
@[simp] theorem cqSignal_mem (n : Nat) : (cqSignal n s).mem = s.mem := by simp only [cqSignal]; split <;> simp

@[simp] theorem cqDrop_pending (n : Nat) : (cqDrop n s).pending = s.pending := by simp [cqDrop]
@[simp] theorem cqDrop_outputs (n : Nat) : (cqDrop n s).outputs = s.outputs := by simp [cqDrop]
@[simp] theorem cqDrop_freeCtr (n : Nat) : (cqDrop n s).freeCtr = s.freeCtr := by simp [cqDrop]
@[simp] theorem cqDrop_frontTime (n : Nat) : (cqDrop n s).frontTime = s.frontTime := by simp [cqDrop]
@[simp] theorem cqDrop_timeRuns (n : Nat) : (cqDrop n s).timeRuns = s.timeRuns := by simp [cqDrop]
@[simp] theorem cqDrop_ticks (n : Nat) : (cqDrop n s).ticks = s.ticks := by simp [cqDrop]
@[simp] theorem cqDrop_role (n : Nat) : (cqDrop n s).role = s.role := by simp [cqDrop]
@[simp] theorem cqDrop_proto (n : Nat) : (cqDrop n s).proto = s.proto := by simp [cqDrop]
@[simp] theorem cqDrop_power (n : Nat) : (cqDrop n s).power = s.power := by simp [cqDrop]
@[simp] theorem cqDrop_sec (n : Nat) : (cqDrop n s).sec = s.sec := by simp [cqDrop]
@[simp] theorem cqDrop_fabric (n : Nat) : (cqDrop n s).fabric = s.fabric := by simp [cqDrop]
@[simp] theorem cqDrop_faults (n : Nat) : (cqDrop n s).faults = s.faults := by simp [cqDrop]
@[simp] theorem cqDrop_counters (n : Nat) : (cqDrop n s).counters = s.counters := by simp [cqDrop]
@[simp] theorem cqDrop_tiers (n : Nat) : (cqDrop n s).tiers = s.tiers := by simp [cqDrop]
@[simp] theorem cqDrop_tables (n : Nat) : (cqDrop n s).tables = s.tables := by simp [cqDrop]
@[simp] theorem cqDrop_indexes (n : Nat) : (cqDrop n s).indexes = s.indexes := by simp [cqDrop]
@[simp] theorem cqDrop_text (n : Nat) : (cqDrop n s).text = s.text := by simp [cqDrop]
@[simp] theorem cqDrop_serve (n : Nat) : (cqDrop n s).serve = s.serve := by simp [cqDrop]
@[simp] theorem cqDrop_compute (n : Nat) : (cqDrop n s).compute = s.compute := by simp [cqDrop]
@[simp] theorem cqDrop_sched (n : Nat) : (cqDrop n s).sched = s.sched := by simp [cqDrop]
@[simp] theorem cqDrop_dbg (n : Nat) : (cqDrop n s).dbg = s.dbg := by simp [cqDrop]
@[simp] theorem cqDrop_mem (n : Nat) : (cqDrop n s).mem = s.mem := by simp [cqDrop]

@[simp] theorem cqRelease_pending (n k : Nat) : (cqRelease n k s).pending = s.pending := by simp [cqRelease]
@[simp] theorem cqRelease_outputs (n k : Nat) : (cqRelease n k s).outputs = s.outputs := by simp [cqRelease]
@[simp] theorem cqRelease_freeCtr (n k : Nat) : (cqRelease n k s).freeCtr = s.freeCtr := by simp [cqRelease]
@[simp] theorem cqRelease_frontTime (n k : Nat) : (cqRelease n k s).frontTime = s.frontTime := by simp [cqRelease]
@[simp] theorem cqRelease_timeRuns (n k : Nat) : (cqRelease n k s).timeRuns = s.timeRuns := by simp [cqRelease]
@[simp] theorem cqRelease_ticks (n k : Nat) : (cqRelease n k s).ticks = s.ticks := by simp [cqRelease]
@[simp] theorem cqRelease_role (n k : Nat) : (cqRelease n k s).role = s.role := by simp [cqRelease]
@[simp] theorem cqRelease_proto (n k : Nat) : (cqRelease n k s).proto = s.proto := by simp [cqRelease]
@[simp] theorem cqRelease_power (n k : Nat) : (cqRelease n k s).power = s.power := by simp [cqRelease]
@[simp] theorem cqRelease_sec (n k : Nat) : (cqRelease n k s).sec = s.sec := by simp [cqRelease]
@[simp] theorem cqRelease_fabric (n k : Nat) : (cqRelease n k s).fabric = s.fabric := by simp [cqRelease]
@[simp] theorem cqRelease_faults (n k : Nat) : (cqRelease n k s).faults = s.faults := by simp [cqRelease]
@[simp] theorem cqRelease_counters (n k : Nat) : (cqRelease n k s).counters = s.counters := by simp [cqRelease]
@[simp] theorem cqRelease_tiers (n k : Nat) : (cqRelease n k s).tiers = s.tiers := by simp [cqRelease]
@[simp] theorem cqRelease_tables (n k : Nat) : (cqRelease n k s).tables = s.tables := by simp [cqRelease]
@[simp] theorem cqRelease_indexes (n k : Nat) : (cqRelease n k s).indexes = s.indexes := by simp [cqRelease]
@[simp] theorem cqRelease_text (n k : Nat) : (cqRelease n k s).text = s.text := by simp [cqRelease]
@[simp] theorem cqRelease_serve (n k : Nat) : (cqRelease n k s).serve = s.serve := by simp [cqRelease]
@[simp] theorem cqRelease_compute (n k : Nat) : (cqRelease n k s).compute = s.compute := by simp [cqRelease]
@[simp] theorem cqRelease_sched (n k : Nat) : (cqRelease n k s).sched = s.sched := by simp [cqRelease]
@[simp] theorem cqRelease_dbg (n k : Nat) : (cqRelease n k s).dbg = s.dbg := by simp [cqRelease]
@[simp] theorem cqRelease_mem (n k : Nat) : (cqRelease n k s).mem = s.mem := by simp [cqRelease]

@[simp] theorem cqReserve_pending (n k : Nat) : (cqReserve n k s).pending = s.pending := by simp [cqReserve]
@[simp] theorem cqReserve_outputs (n k : Nat) : (cqReserve n k s).outputs = s.outputs := by simp [cqReserve]
@[simp] theorem cqReserve_freeCtr (n k : Nat) : (cqReserve n k s).freeCtr = s.freeCtr := by simp [cqReserve]
@[simp] theorem cqReserve_frontTime (n k : Nat) : (cqReserve n k s).frontTime = s.frontTime := by simp [cqReserve]
@[simp] theorem cqReserve_timeRuns (n k : Nat) : (cqReserve n k s).timeRuns = s.timeRuns := by simp [cqReserve]
@[simp] theorem cqReserve_ticks (n k : Nat) : (cqReserve n k s).ticks = s.ticks := by simp [cqReserve]
@[simp] theorem cqReserve_role (n k : Nat) : (cqReserve n k s).role = s.role := by simp [cqReserve]
@[simp] theorem cqReserve_proto (n k : Nat) : (cqReserve n k s).proto = s.proto := by simp [cqReserve]
@[simp] theorem cqReserve_power (n k : Nat) : (cqReserve n k s).power = s.power := by simp [cqReserve]
@[simp] theorem cqReserve_sec (n k : Nat) : (cqReserve n k s).sec = s.sec := by simp [cqReserve]
@[simp] theorem cqReserve_fabric (n k : Nat) : (cqReserve n k s).fabric = s.fabric := by simp [cqReserve]
@[simp] theorem cqReserve_faults (n k : Nat) : (cqReserve n k s).faults = s.faults := by simp [cqReserve]
@[simp] theorem cqReserve_counters (n k : Nat) : (cqReserve n k s).counters = s.counters := by simp [cqReserve]
@[simp] theorem cqReserve_tiers (n k : Nat) : (cqReserve n k s).tiers = s.tiers := by simp [cqReserve]
@[simp] theorem cqReserve_tables (n k : Nat) : (cqReserve n k s).tables = s.tables := by simp [cqReserve]
@[simp] theorem cqReserve_indexes (n k : Nat) : (cqReserve n k s).indexes = s.indexes := by simp [cqReserve]
@[simp] theorem cqReserve_text (n k : Nat) : (cqReserve n k s).text = s.text := by simp [cqReserve]
@[simp] theorem cqReserve_serve (n k : Nat) : (cqReserve n k s).serve = s.serve := by simp [cqReserve]
@[simp] theorem cqReserve_compute (n k : Nat) : (cqReserve n k s).compute = s.compute := by simp [cqReserve]
@[simp] theorem cqReserve_sched (n k : Nat) : (cqReserve n k s).sched = s.sched := by simp [cqReserve]
@[simp] theorem cqReserve_mem (n k : Nat) : (cqReserve n k s).mem = s.mem := by simp [cqReserve]

@[simp] theorem postRecord_pending (n session commandId : Nat) (event staged clear reserved : Bool) (time : Nat) (r : Reply) : (postRecord n session commandId event staged clear reserved time r s).pending = s.pending := by simp only [postRecord]; split <;> (split <;> simp)
@[simp] theorem postRecord_freeCtr (n session commandId : Nat) (event staged clear reserved : Bool) (time : Nat) (r : Reply) : (postRecord n session commandId event staged clear reserved time r s).freeCtr = s.freeCtr := by simp only [postRecord]; split <;> (split <;> simp)
@[simp] theorem postRecord_frontTime (n session commandId : Nat) (event staged clear reserved : Bool) (time : Nat) (r : Reply) : (postRecord n session commandId event staged clear reserved time r s).frontTime = s.frontTime := by simp only [postRecord]; split <;> (split <;> simp)
@[simp] theorem postRecord_timeRuns (n session commandId : Nat) (event staged clear reserved : Bool) (time : Nat) (r : Reply) : (postRecord n session commandId event staged clear reserved time r s).timeRuns = s.timeRuns := by simp only [postRecord]; split <;> (split <;> simp)
@[simp] theorem postRecord_ticks (n session commandId : Nat) (event staged clear reserved : Bool) (time : Nat) (r : Reply) : (postRecord n session commandId event staged clear reserved time r s).ticks = s.ticks := by simp only [postRecord]; split <;> (split <;> simp)
@[simp] theorem postRecord_role (n session commandId : Nat) (event staged clear reserved : Bool) (time : Nat) (r : Reply) : (postRecord n session commandId event staged clear reserved time r s).role = s.role := by simp only [postRecord]; split <;> (split <;> simp)
@[simp] theorem postRecord_proto (n session commandId : Nat) (event staged clear reserved : Bool) (time : Nat) (r : Reply) : (postRecord n session commandId event staged clear reserved time r s).proto = s.proto := by simp only [postRecord]; split <;> (split <;> simp)
@[simp] theorem postRecord_power (n session commandId : Nat) (event staged clear reserved : Bool) (time : Nat) (r : Reply) : (postRecord n session commandId event staged clear reserved time r s).power = s.power := by simp only [postRecord]; split <;> (split <;> simp)
@[simp] theorem postRecord_sec (n session commandId : Nat) (event staged clear reserved : Bool) (time : Nat) (r : Reply) : (postRecord n session commandId event staged clear reserved time r s).sec = s.sec := by simp only [postRecord]; split <;> (split <;> simp)
@[simp] theorem postRecord_fabric (n session commandId : Nat) (event staged clear reserved : Bool) (time : Nat) (r : Reply) : (postRecord n session commandId event staged clear reserved time r s).fabric = s.fabric := by simp only [postRecord]; split <;> (split <;> simp)
@[simp] theorem postRecord_faults (n session commandId : Nat) (event staged clear reserved : Bool) (time : Nat) (r : Reply) : (postRecord n session commandId event staged clear reserved time r s).faults = s.faults := by simp only [postRecord]; split <;> (split <;> simp)
@[simp] theorem postRecord_counters (n session commandId : Nat) (event staged clear reserved : Bool) (time : Nat) (r : Reply) : (postRecord n session commandId event staged clear reserved time r s).counters = s.counters := by simp only [postRecord]; split <;> (split <;> simp)
@[simp] theorem postRecord_tiers (n session commandId : Nat) (event staged clear reserved : Bool) (time : Nat) (r : Reply) : (postRecord n session commandId event staged clear reserved time r s).tiers = s.tiers := by simp only [postRecord]; split <;> (split <;> simp)
@[simp] theorem postRecord_tables (n session commandId : Nat) (event staged clear reserved : Bool) (time : Nat) (r : Reply) : (postRecord n session commandId event staged clear reserved time r s).tables = s.tables := by simp only [postRecord]; split <;> (split <;> simp)
@[simp] theorem postRecord_indexes (n session commandId : Nat) (event staged clear reserved : Bool) (time : Nat) (r : Reply) : (postRecord n session commandId event staged clear reserved time r s).indexes = s.indexes := by simp only [postRecord]; split <;> (split <;> simp)
@[simp] theorem postRecord_text (n session commandId : Nat) (event staged clear reserved : Bool) (time : Nat) (r : Reply) : (postRecord n session commandId event staged clear reserved time r s).text = s.text := by simp only [postRecord]; split <;> (split <;> simp)
@[simp] theorem postRecord_serve (n session commandId : Nat) (event staged clear reserved : Bool) (time : Nat) (r : Reply) : (postRecord n session commandId event staged clear reserved time r s).serve = s.serve := by simp only [postRecord]; split <;> (split <;> simp)
@[simp] theorem postRecord_compute (n session commandId : Nat) (event staged clear reserved : Bool) (time : Nat) (r : Reply) : (postRecord n session commandId event staged clear reserved time r s).compute = s.compute := by simp only [postRecord]; split <;> (split <;> simp)
@[simp] theorem postRecord_sched (n session commandId : Nat) (event staged clear reserved : Bool) (time : Nat) (r : Reply) : (postRecord n session commandId event staged clear reserved time r s).sched = s.sched := by simp only [postRecord]; split <;> (split <;> simp)
@[simp] theorem postRecord_mem (n session commandId : Nat) (event staged clear reserved : Bool) (time : Nat) (r : Reply) : (postRecord n session commandId event staged clear reserved time r s).mem = s.mem := by simp only [postRecord]; split <;> (split <;> simp)

@[simp] theorem memWrite_pending (a : Nat) (b : Bytes) : (memWrite a b s).pending = s.pending := rfl
@[simp] theorem memWrite_outputs (a : Nat) (b : Bytes) : (memWrite a b s).outputs = s.outputs := rfl
@[simp] theorem memWrite_freeCtr (a : Nat) (b : Bytes) : (memWrite a b s).freeCtr = s.freeCtr := rfl
@[simp] theorem memWrite_frontTime (a : Nat) (b : Bytes) : (memWrite a b s).frontTime = s.frontTime := rfl
@[simp] theorem memWrite_timeRuns (a : Nat) (b : Bytes) : (memWrite a b s).timeRuns = s.timeRuns := rfl
@[simp] theorem memWrite_ticks (a : Nat) (b : Bytes) : (memWrite a b s).ticks = s.ticks := rfl
@[simp] theorem memWrite_role (a : Nat) (b : Bytes) : (memWrite a b s).role = s.role := rfl
@[simp] theorem memWrite_proto (a : Nat) (b : Bytes) : (memWrite a b s).proto = s.proto := rfl
@[simp] theorem memWrite_host (a : Nat) (b : Bytes) : (memWrite a b s).host = s.host := rfl
@[simp] theorem memWrite_power (a : Nat) (b : Bytes) : (memWrite a b s).power = s.power := rfl
@[simp] theorem memWrite_sec (a : Nat) (b : Bytes) : (memWrite a b s).sec = s.sec := rfl
@[simp] theorem memWrite_fabric (a : Nat) (b : Bytes) : (memWrite a b s).fabric = s.fabric := rfl
@[simp] theorem memWrite_faults (a : Nat) (b : Bytes) : (memWrite a b s).faults = s.faults := rfl
@[simp] theorem memWrite_counters (a : Nat) (b : Bytes) : (memWrite a b s).counters = s.counters := rfl
@[simp] theorem memWrite_tiers (a : Nat) (b : Bytes) : (memWrite a b s).tiers = s.tiers := rfl
@[simp] theorem memWrite_tables (a : Nat) (b : Bytes) : (memWrite a b s).tables = s.tables := rfl
@[simp] theorem memWrite_indexes (a : Nat) (b : Bytes) : (memWrite a b s).indexes = s.indexes := rfl
@[simp] theorem memWrite_text (a : Nat) (b : Bytes) : (memWrite a b s).text = s.text := rfl
@[simp] theorem memWrite_serve (a : Nat) (b : Bytes) : (memWrite a b s).serve = s.serve := rfl
@[simp] theorem memWrite_compute (a : Nat) (b : Bytes) : (memWrite a b s).compute = s.compute := rfl
@[simp] theorem memWrite_sched (a : Nat) (b : Bytes) : (memWrite a b s).sched = s.sched := rfl
@[simp] theorem memWrite_dbg (a : Nat) (b : Bytes) : (memWrite a b s).dbg = s.dbg := rfl

@[simp] theorem memClear_pending (a n : Nat) : (memClear a n s).pending = s.pending := rfl
@[simp] theorem memClear_outputs (a n : Nat) : (memClear a n s).outputs = s.outputs := rfl
@[simp] theorem memClear_freeCtr (a n : Nat) : (memClear a n s).freeCtr = s.freeCtr := rfl
@[simp] theorem memClear_frontTime (a n : Nat) : (memClear a n s).frontTime = s.frontTime := rfl
@[simp] theorem memClear_timeRuns (a n : Nat) : (memClear a n s).timeRuns = s.timeRuns := rfl
@[simp] theorem memClear_ticks (a n : Nat) : (memClear a n s).ticks = s.ticks := rfl
@[simp] theorem memClear_role (a n : Nat) : (memClear a n s).role = s.role := rfl
@[simp] theorem memClear_proto (a n : Nat) : (memClear a n s).proto = s.proto := rfl
@[simp] theorem memClear_host (a n : Nat) : (memClear a n s).host = s.host := rfl
@[simp] theorem memClear_power (a n : Nat) : (memClear a n s).power = s.power := rfl
@[simp] theorem memClear_sec (a n : Nat) : (memClear a n s).sec = s.sec := rfl
@[simp] theorem memClear_fabric (a n : Nat) : (memClear a n s).fabric = s.fabric := rfl
@[simp] theorem memClear_faults (a n : Nat) : (memClear a n s).faults = s.faults := rfl
@[simp] theorem memClear_counters (a n : Nat) : (memClear a n s).counters = s.counters := rfl
@[simp] theorem memClear_tiers (a n : Nat) : (memClear a n s).tiers = s.tiers := rfl
@[simp] theorem memClear_tables (a n : Nat) : (memClear a n s).tables = s.tables := rfl
@[simp] theorem memClear_indexes (a n : Nat) : (memClear a n s).indexes = s.indexes := rfl
@[simp] theorem memClear_text (a n : Nat) : (memClear a n s).text = s.text := rfl
@[simp] theorem memClear_serve (a n : Nat) : (memClear a n s).serve = s.serve := rfl
@[simp] theorem memClear_compute (a n : Nat) : (memClear a n s).compute = s.compute := rfl
@[simp] theorem memClear_sched (a n : Nat) : (memClear a n s).sched = s.sched := rfl
@[simp] theorem memClear_dbg (a n : Nat) : (memClear a n s).dbg = s.dbg := rfl

@[simp] theorem commitObjects_pending (os : List Obj) : (commitObjects os s).pending = s.pending := rfl
@[simp] theorem commitObjects_outputs (os : List Obj) : (commitObjects os s).outputs = s.outputs := rfl
@[simp] theorem commitObjects_freeCtr (os : List Obj) : (commitObjects os s).freeCtr = s.freeCtr := rfl
@[simp] theorem commitObjects_frontTime (os : List Obj) : (commitObjects os s).frontTime = s.frontTime := rfl
@[simp] theorem commitObjects_timeRuns (os : List Obj) : (commitObjects os s).timeRuns = s.timeRuns := rfl
@[simp] theorem commitObjects_ticks (os : List Obj) : (commitObjects os s).ticks = s.ticks := rfl
@[simp] theorem commitObjects_role (os : List Obj) : (commitObjects os s).role = s.role := rfl
@[simp] theorem commitObjects_host (os : List Obj) : (commitObjects os s).host = s.host := rfl
@[simp] theorem commitObjects_power (os : List Obj) : (commitObjects os s).power = s.power := rfl
@[simp] theorem commitObjects_sec (os : List Obj) : (commitObjects os s).sec = s.sec := rfl
@[simp] theorem commitObjects_fabric (os : List Obj) : (commitObjects os s).fabric = s.fabric := rfl
@[simp] theorem commitObjects_faults (os : List Obj) : (commitObjects os s).faults = s.faults := rfl
@[simp] theorem commitObjects_counters (os : List Obj) : (commitObjects os s).counters = s.counters := rfl
@[simp] theorem commitObjects_tiers (os : List Obj) : (commitObjects os s).tiers = s.tiers := rfl
@[simp] theorem commitObjects_tables (os : List Obj) : (commitObjects os s).tables = s.tables := rfl
@[simp] theorem commitObjects_indexes (os : List Obj) : (commitObjects os s).indexes = s.indexes := rfl
@[simp] theorem commitObjects_text (os : List Obj) : (commitObjects os s).text = s.text := rfl
@[simp] theorem commitObjects_serve (os : List Obj) : (commitObjects os s).serve = s.serve := rfl
@[simp] theorem commitObjects_compute (os : List Obj) : (commitObjects os s).compute = s.compute := rfl
@[simp] theorem commitObjects_sched (os : List Obj) : (commitObjects os s).sched = s.sched := rfl
@[simp] theorem commitObjects_dbg (os : List Obj) : (commitObjects os s).dbg = s.dbg := rfl
@[simp] theorem commitObjects_mem (os : List Obj) : (commitObjects os s).mem = s.mem := rfl

@[simp] theorem setFlight_pending (f : Flight) : (setFlight f s).pending = s.pending := rfl
@[simp] theorem setFlight_outputs (f : Flight) : (setFlight f s).outputs = s.outputs := rfl
@[simp] theorem setFlight_freeCtr (f : Flight) : (setFlight f s).freeCtr = s.freeCtr := rfl
@[simp] theorem setFlight_frontTime (f : Flight) : (setFlight f s).frontTime = s.frontTime := rfl
@[simp] theorem setFlight_timeRuns (f : Flight) : (setFlight f s).timeRuns = s.timeRuns := rfl
@[simp] theorem setFlight_ticks (f : Flight) : (setFlight f s).ticks = s.ticks := rfl
@[simp] theorem setFlight_role (f : Flight) : (setFlight f s).role = s.role := rfl
@[simp] theorem setFlight_host (f : Flight) : (setFlight f s).host = s.host := rfl
@[simp] theorem setFlight_power (f : Flight) : (setFlight f s).power = s.power := rfl
@[simp] theorem setFlight_sec (f : Flight) : (setFlight f s).sec = s.sec := rfl
@[simp] theorem setFlight_fabric (f : Flight) : (setFlight f s).fabric = s.fabric := rfl
@[simp] theorem setFlight_faults (f : Flight) : (setFlight f s).faults = s.faults := rfl
@[simp] theorem setFlight_counters (f : Flight) : (setFlight f s).counters = s.counters := rfl
@[simp] theorem setFlight_tiers (f : Flight) : (setFlight f s).tiers = s.tiers := rfl
@[simp] theorem setFlight_tables (f : Flight) : (setFlight f s).tables = s.tables := rfl
@[simp] theorem setFlight_indexes (f : Flight) : (setFlight f s).indexes = s.indexes := rfl
@[simp] theorem setFlight_text (f : Flight) : (setFlight f s).text = s.text := rfl
@[simp] theorem setFlight_serve (f : Flight) : (setFlight f s).serve = s.serve := rfl
@[simp] theorem setFlight_compute (f : Flight) : (setFlight f s).compute = s.compute := rfl
@[simp] theorem setFlight_sched (f : Flight) : (setFlight f s).sched = s.sched := rfl
@[simp] theorem setFlight_dbg (f : Flight) : (setFlight f s).dbg = s.dbg := rfl
@[simp] theorem setFlight_mem (f : Flight) : (setFlight f s).mem = s.mem := rfl

@[simp] theorem dropFlight_pending (h : Nat) : (dropFlight h s).pending = s.pending := rfl
@[simp] theorem dropFlight_outputs (h : Nat) : (dropFlight h s).outputs = s.outputs := rfl
@[simp] theorem dropFlight_freeCtr (h : Nat) : (dropFlight h s).freeCtr = s.freeCtr := rfl
@[simp] theorem dropFlight_frontTime (h : Nat) : (dropFlight h s).frontTime = s.frontTime := rfl
@[simp] theorem dropFlight_timeRuns (h : Nat) : (dropFlight h s).timeRuns = s.timeRuns := rfl
@[simp] theorem dropFlight_ticks (h : Nat) : (dropFlight h s).ticks = s.ticks := rfl
@[simp] theorem dropFlight_role (h : Nat) : (dropFlight h s).role = s.role := rfl
@[simp] theorem dropFlight_host (h : Nat) : (dropFlight h s).host = s.host := rfl
@[simp] theorem dropFlight_power (h : Nat) : (dropFlight h s).power = s.power := rfl
@[simp] theorem dropFlight_sec (h : Nat) : (dropFlight h s).sec = s.sec := rfl
@[simp] theorem dropFlight_fabric (h : Nat) : (dropFlight h s).fabric = s.fabric := rfl
@[simp] theorem dropFlight_faults (h : Nat) : (dropFlight h s).faults = s.faults := rfl
@[simp] theorem dropFlight_counters (h : Nat) : (dropFlight h s).counters = s.counters := rfl
@[simp] theorem dropFlight_tiers (h : Nat) : (dropFlight h s).tiers = s.tiers := rfl
@[simp] theorem dropFlight_tables (h : Nat) : (dropFlight h s).tables = s.tables := rfl
@[simp] theorem dropFlight_indexes (h : Nat) : (dropFlight h s).indexes = s.indexes := rfl
@[simp] theorem dropFlight_text (h : Nat) : (dropFlight h s).text = s.text := rfl
@[simp] theorem dropFlight_serve (h : Nat) : (dropFlight h s).serve = s.serve := rfl
@[simp] theorem dropFlight_compute (h : Nat) : (dropFlight h s).compute = s.compute := rfl
@[simp] theorem dropFlight_sched (h : Nat) : (dropFlight h s).sched = s.sched := rfl
@[simp] theorem dropFlight_dbg (h : Nat) : (dropFlight h s).dbg = s.dbg := rfl
@[simp] theorem dropFlight_mem (h : Nat) : (dropFlight h s).mem = s.mem := rfl

@[simp] theorem setTxn_pending (t : Txn) : (setTxn t s).pending = s.pending := rfl
@[simp] theorem setTxn_outputs (t : Txn) : (setTxn t s).outputs = s.outputs := rfl
@[simp] theorem setTxn_freeCtr (t : Txn) : (setTxn t s).freeCtr = s.freeCtr := rfl
@[simp] theorem setTxn_frontTime (t : Txn) : (setTxn t s).frontTime = s.frontTime := rfl
@[simp] theorem setTxn_timeRuns (t : Txn) : (setTxn t s).timeRuns = s.timeRuns := rfl
@[simp] theorem setTxn_ticks (t : Txn) : (setTxn t s).ticks = s.ticks := rfl
@[simp] theorem setTxn_role (t : Txn) : (setTxn t s).role = s.role := rfl
@[simp] theorem setTxn_host (t : Txn) : (setTxn t s).host = s.host := rfl
@[simp] theorem setTxn_power (t : Txn) : (setTxn t s).power = s.power := rfl
@[simp] theorem setTxn_sec (t : Txn) : (setTxn t s).sec = s.sec := rfl
@[simp] theorem setTxn_fabric (t : Txn) : (setTxn t s).fabric = s.fabric := rfl
@[simp] theorem setTxn_faults (t : Txn) : (setTxn t s).faults = s.faults := rfl
@[simp] theorem setTxn_counters (t : Txn) : (setTxn t s).counters = s.counters := rfl
@[simp] theorem setTxn_tiers (t : Txn) : (setTxn t s).tiers = s.tiers := rfl
@[simp] theorem setTxn_tables (t : Txn) : (setTxn t s).tables = s.tables := rfl
@[simp] theorem setTxn_indexes (t : Txn) : (setTxn t s).indexes = s.indexes := rfl
@[simp] theorem setTxn_text (t : Txn) : (setTxn t s).text = s.text := rfl
@[simp] theorem setTxn_serve (t : Txn) : (setTxn t s).serve = s.serve := rfl
@[simp] theorem setTxn_compute (t : Txn) : (setTxn t s).compute = s.compute := rfl
@[simp] theorem setTxn_sched (t : Txn) : (setTxn t s).sched = s.sched := rfl
@[simp] theorem setTxn_dbg (t : Txn) : (setTxn t s).dbg = s.dbg := rfl
@[simp] theorem setTxn_mem (t : Txn) : (setTxn t s).mem = s.mem := rfl

@[simp] theorem setSession_pending (x : Session) : (setSession x s).pending = s.pending := rfl
@[simp] theorem setSession_outputs (x : Session) : (setSession x s).outputs = s.outputs := rfl
@[simp] theorem setSession_freeCtr (x : Session) : (setSession x s).freeCtr = s.freeCtr := rfl
@[simp] theorem setSession_frontTime (x : Session) : (setSession x s).frontTime = s.frontTime := rfl
@[simp] theorem setSession_timeRuns (x : Session) : (setSession x s).timeRuns = s.timeRuns := rfl
@[simp] theorem setSession_ticks (x : Session) : (setSession x s).ticks = s.ticks := rfl
@[simp] theorem setSession_role (x : Session) : (setSession x s).role = s.role := rfl
@[simp] theorem setSession_host (x : Session) : (setSession x s).host = s.host := rfl
@[simp] theorem setSession_power (x : Session) : (setSession x s).power = s.power := rfl
@[simp] theorem setSession_sec (x : Session) : (setSession x s).sec = s.sec := rfl
@[simp] theorem setSession_fabric (x : Session) : (setSession x s).fabric = s.fabric := rfl
@[simp] theorem setSession_faults (x : Session) : (setSession x s).faults = s.faults := rfl
@[simp] theorem setSession_counters (x : Session) : (setSession x s).counters = s.counters := rfl
@[simp] theorem setSession_tiers (x : Session) : (setSession x s).tiers = s.tiers := rfl
@[simp] theorem setSession_tables (x : Session) : (setSession x s).tables = s.tables := rfl
@[simp] theorem setSession_indexes (x : Session) : (setSession x s).indexes = s.indexes := rfl
@[simp] theorem setSession_text (x : Session) : (setSession x s).text = s.text := rfl
@[simp] theorem setSession_serve (x : Session) : (setSession x s).serve = s.serve := rfl
@[simp] theorem setSession_compute (x : Session) : (setSession x s).compute = s.compute := rfl
@[simp] theorem setSession_sched (x : Session) : (setSession x s).sched = s.sched := rfl
@[simp] theorem setSession_dbg (x : Session) : (setSession x s).dbg = s.dbg := rfl
@[simp] theorem setSession_mem (x : Session) : (setSession x s).mem = s.mem := rfl

@[simp] theorem setPort_pending (p : Nat) (x : Port) : (setPort p x s).pending = s.pending := rfl
@[simp] theorem setPort_outputs (p : Nat) (x : Port) : (setPort p x s).outputs = s.outputs := rfl
@[simp] theorem setPort_freeCtr (p : Nat) (x : Port) : (setPort p x s).freeCtr = s.freeCtr := rfl
@[simp] theorem setPort_frontTime (p : Nat) (x : Port) : (setPort p x s).frontTime = s.frontTime := rfl
@[simp] theorem setPort_timeRuns (p : Nat) (x : Port) : (setPort p x s).timeRuns = s.timeRuns := rfl
@[simp] theorem setPort_ticks (p : Nat) (x : Port) : (setPort p x s).ticks = s.ticks := rfl
@[simp] theorem setPort_role (p : Nat) (x : Port) : (setPort p x s).role = s.role := rfl
@[simp] theorem setPort_proto (p : Nat) (x : Port) : (setPort p x s).proto = s.proto := rfl
@[simp] theorem setPort_host (p : Nat) (x : Port) : (setPort p x s).host = s.host := rfl
@[simp] theorem setPort_power (p : Nat) (x : Port) : (setPort p x s).power = s.power := rfl
@[simp] theorem setPort_sec (p : Nat) (x : Port) : (setPort p x s).sec = s.sec := rfl
@[simp] theorem setPort_faults (p : Nat) (x : Port) : (setPort p x s).faults = s.faults := rfl
@[simp] theorem setPort_counters (p : Nat) (x : Port) : (setPort p x s).counters = s.counters := rfl
@[simp] theorem setPort_tiers (p : Nat) (x : Port) : (setPort p x s).tiers = s.tiers := rfl
@[simp] theorem setPort_tables (p : Nat) (x : Port) : (setPort p x s).tables = s.tables := rfl
@[simp] theorem setPort_indexes (p : Nat) (x : Port) : (setPort p x s).indexes = s.indexes := rfl
@[simp] theorem setPort_text (p : Nat) (x : Port) : (setPort p x s).text = s.text := rfl
@[simp] theorem setPort_serve (p : Nat) (x : Port) : (setPort p x s).serve = s.serve := rfl
@[simp] theorem setPort_compute (p : Nat) (x : Port) : (setPort p x s).compute = s.compute := rfl
@[simp] theorem setPort_sched (p : Nat) (x : Port) : (setPort p x s).sched = s.sched := rfl
@[simp] theorem setPort_dbg (p : Nat) (x : Port) : (setPort p x s).dbg = s.dbg := rfl
@[simp] theorem setPort_mem (p : Nat) (x : Port) : (setPort p x s).mem = s.mem := rfl

@[simp] theorem setChannel_pending (peer ch : Nat) (c : Channel) : (setChannel peer ch c s).pending = s.pending := rfl
@[simp] theorem setChannel_outputs (peer ch : Nat) (c : Channel) : (setChannel peer ch c s).outputs = s.outputs := rfl
@[simp] theorem setChannel_freeCtr (peer ch : Nat) (c : Channel) : (setChannel peer ch c s).freeCtr = s.freeCtr := rfl
@[simp] theorem setChannel_frontTime (peer ch : Nat) (c : Channel) : (setChannel peer ch c s).frontTime = s.frontTime := rfl
@[simp] theorem setChannel_timeRuns (peer ch : Nat) (c : Channel) : (setChannel peer ch c s).timeRuns = s.timeRuns := rfl
@[simp] theorem setChannel_ticks (peer ch : Nat) (c : Channel) : (setChannel peer ch c s).ticks = s.ticks := rfl
@[simp] theorem setChannel_role (peer ch : Nat) (c : Channel) : (setChannel peer ch c s).role = s.role := rfl
@[simp] theorem setChannel_proto (peer ch : Nat) (c : Channel) : (setChannel peer ch c s).proto = s.proto := rfl
@[simp] theorem setChannel_host (peer ch : Nat) (c : Channel) : (setChannel peer ch c s).host = s.host := rfl
@[simp] theorem setChannel_power (peer ch : Nat) (c : Channel) : (setChannel peer ch c s).power = s.power := rfl
@[simp] theorem setChannel_sec (peer ch : Nat) (c : Channel) : (setChannel peer ch c s).sec = s.sec := rfl
@[simp] theorem setChannel_faults (peer ch : Nat) (c : Channel) : (setChannel peer ch c s).faults = s.faults := rfl
@[simp] theorem setChannel_counters (peer ch : Nat) (c : Channel) : (setChannel peer ch c s).counters = s.counters := rfl
@[simp] theorem setChannel_tiers (peer ch : Nat) (c : Channel) : (setChannel peer ch c s).tiers = s.tiers := rfl
@[simp] theorem setChannel_tables (peer ch : Nat) (c : Channel) : (setChannel peer ch c s).tables = s.tables := rfl
@[simp] theorem setChannel_indexes (peer ch : Nat) (c : Channel) : (setChannel peer ch c s).indexes = s.indexes := rfl
@[simp] theorem setChannel_text (peer ch : Nat) (c : Channel) : (setChannel peer ch c s).text = s.text := rfl
@[simp] theorem setChannel_serve (peer ch : Nat) (c : Channel) : (setChannel peer ch c s).serve = s.serve := rfl
@[simp] theorem setChannel_compute (peer ch : Nat) (c : Channel) : (setChannel peer ch c s).compute = s.compute := rfl
@[simp] theorem setChannel_sched (peer ch : Nat) (c : Channel) : (setChannel peer ch c s).sched = s.sched := rfl
@[simp] theorem setChannel_dbg (peer ch : Nat) (c : Channel) : (setChannel peer ch c s).dbg = s.dbg := rfl
@[simp] theorem setChannel_mem (peer ch : Nat) (c : Channel) : (setChannel peer ch c s).mem = s.mem := rfl

@[simp] theorem setPeer_pending (m : Nat) (p : Peer) : (setPeer m p s).pending = s.pending := rfl
@[simp] theorem setPeer_outputs (m : Nat) (p : Peer) : (setPeer m p s).outputs = s.outputs := rfl
@[simp] theorem setPeer_freeCtr (m : Nat) (p : Peer) : (setPeer m p s).freeCtr = s.freeCtr := rfl
@[simp] theorem setPeer_frontTime (m : Nat) (p : Peer) : (setPeer m p s).frontTime = s.frontTime := rfl
@[simp] theorem setPeer_timeRuns (m : Nat) (p : Peer) : (setPeer m p s).timeRuns = s.timeRuns := rfl
@[simp] theorem setPeer_ticks (m : Nat) (p : Peer) : (setPeer m p s).ticks = s.ticks := rfl
@[simp] theorem setPeer_role (m : Nat) (p : Peer) : (setPeer m p s).role = s.role := rfl
@[simp] theorem setPeer_proto (m : Nat) (p : Peer) : (setPeer m p s).proto = s.proto := rfl
@[simp] theorem setPeer_host (m : Nat) (p : Peer) : (setPeer m p s).host = s.host := rfl
@[simp] theorem setPeer_power (m : Nat) (p : Peer) : (setPeer m p s).power = s.power := rfl
@[simp] theorem setPeer_sec (m : Nat) (p : Peer) : (setPeer m p s).sec = s.sec := rfl
@[simp] theorem setPeer_faults (m : Nat) (p : Peer) : (setPeer m p s).faults = s.faults := rfl
@[simp] theorem setPeer_counters (m : Nat) (p : Peer) : (setPeer m p s).counters = s.counters := rfl
@[simp] theorem setPeer_tiers (m : Nat) (p : Peer) : (setPeer m p s).tiers = s.tiers := rfl
@[simp] theorem setPeer_tables (m : Nat) (p : Peer) : (setPeer m p s).tables = s.tables := rfl
@[simp] theorem setPeer_indexes (m : Nat) (p : Peer) : (setPeer m p s).indexes = s.indexes := rfl
@[simp] theorem setPeer_text (m : Nat) (p : Peer) : (setPeer m p s).text = s.text := rfl
@[simp] theorem setPeer_serve (m : Nat) (p : Peer) : (setPeer m p s).serve = s.serve := rfl
@[simp] theorem setPeer_compute (m : Nat) (p : Peer) : (setPeer m p s).compute = s.compute := rfl
@[simp] theorem setPeer_sched (m : Nat) (p : Peer) : (setPeer m p s).sched = s.sched := rfl
@[simp] theorem setPeer_dbg (m : Nat) (p : Peer) : (setPeer m p s).dbg = s.dbg := rfl
@[simp] theorem setPeer_mem (m : Nat) (p : Peer) : (setPeer m p s).mem = s.mem := rfl

@[simp] theorem malformed_pending : (malformed s).pending = s.pending := rfl
@[simp] theorem malformed_outputs : (malformed s).outputs = s.outputs := rfl
@[simp] theorem malformed_freeCtr : (malformed s).freeCtr = s.freeCtr := rfl
@[simp] theorem malformed_frontTime : (malformed s).frontTime = s.frontTime := rfl
@[simp] theorem malformed_timeRuns : (malformed s).timeRuns = s.timeRuns := rfl
@[simp] theorem malformed_ticks : (malformed s).ticks = s.ticks := rfl
@[simp] theorem malformed_role : (malformed s).role = s.role := rfl
@[simp] theorem malformed_proto : (malformed s).proto = s.proto := rfl
@[simp] theorem malformed_host : (malformed s).host = s.host := rfl
@[simp] theorem malformed_power : (malformed s).power = s.power := rfl
@[simp] theorem malformed_sec : (malformed s).sec = s.sec := rfl
@[simp] theorem malformed_faults : (malformed s).faults = s.faults := rfl
@[simp] theorem malformed_counters : (malformed s).counters = s.counters := rfl
@[simp] theorem malformed_tiers : (malformed s).tiers = s.tiers := rfl
@[simp] theorem malformed_tables : (malformed s).tables = s.tables := rfl
@[simp] theorem malformed_indexes : (malformed s).indexes = s.indexes := rfl
@[simp] theorem malformed_text : (malformed s).text = s.text := rfl
@[simp] theorem malformed_serve : (malformed s).serve = s.serve := rfl
@[simp] theorem malformed_compute : (malformed s).compute = s.compute := rfl
@[simp] theorem malformed_sched : (malformed s).sched = s.sched := rfl
@[simp] theorem malformed_dbg : (malformed s).dbg = s.dbg := rfl
@[simp] theorem malformed_mem : (malformed s).mem = s.mem := rfl

@[simp] theorem becomeStale_pending : (becomeStale s).pending = s.pending := rfl
@[simp] theorem becomeStale_outputs : (becomeStale s).outputs = s.outputs := rfl
@[simp] theorem becomeStale_freeCtr : (becomeStale s).freeCtr = s.freeCtr := rfl
@[simp] theorem becomeStale_frontTime : (becomeStale s).frontTime = s.frontTime := rfl
@[simp] theorem becomeStale_timeRuns : (becomeStale s).timeRuns = s.timeRuns := rfl
@[simp] theorem becomeStale_ticks : (becomeStale s).ticks = s.ticks := rfl
@[simp] theorem becomeStale_role : (becomeStale s).role = s.role := rfl
@[simp] theorem becomeStale_proto : (becomeStale s).proto = s.proto := rfl
@[simp] theorem becomeStale_host : (becomeStale s).host = s.host := rfl
@[simp] theorem becomeStale_power : (becomeStale s).power = s.power := rfl
@[simp] theorem becomeStale_sec : (becomeStale s).sec = s.sec := rfl
@[simp] theorem becomeStale_faults : (becomeStale s).faults = s.faults := rfl
@[simp] theorem becomeStale_counters : (becomeStale s).counters = s.counters := rfl
@[simp] theorem becomeStale_tiers : (becomeStale s).tiers = s.tiers := rfl
@[simp] theorem becomeStale_tables : (becomeStale s).tables = s.tables := rfl
@[simp] theorem becomeStale_indexes : (becomeStale s).indexes = s.indexes := rfl
@[simp] theorem becomeStale_text : (becomeStale s).text = s.text := rfl
@[simp] theorem becomeStale_serve : (becomeStale s).serve = s.serve := rfl
@[simp] theorem becomeStale_compute : (becomeStale s).compute = s.compute := rfl
@[simp] theorem becomeStale_sched : (becomeStale s).sched = s.sched := rfl
@[simp] theorem becomeStale_dbg : (becomeStale s).dbg = s.dbg := rfl
@[simp] theorem becomeStale_mem : (becomeStale s).mem = s.mem := rfl

@[simp] theorem setRequest_pending (r : Request) : (setRequest r s).pending = s.pending := rfl
@[simp] theorem setRequest_outputs (r : Request) : (setRequest r s).outputs = s.outputs := rfl
@[simp] theorem setRequest_freeCtr (r : Request) : (setRequest r s).freeCtr = s.freeCtr := rfl
@[simp] theorem setRequest_frontTime (r : Request) : (setRequest r s).frontTime = s.frontTime := rfl
@[simp] theorem setRequest_timeRuns (r : Request) : (setRequest r s).timeRuns = s.timeRuns := rfl
@[simp] theorem setRequest_ticks (r : Request) : (setRequest r s).ticks = s.ticks := rfl
@[simp] theorem setRequest_role (r : Request) : (setRequest r s).role = s.role := rfl
@[simp] theorem setRequest_proto (r : Request) : (setRequest r s).proto = s.proto := rfl
@[simp] theorem setRequest_host (r : Request) : (setRequest r s).host = s.host := rfl
@[simp] theorem setRequest_power (r : Request) : (setRequest r s).power = s.power := rfl
@[simp] theorem setRequest_sec (r : Request) : (setRequest r s).sec = s.sec := rfl
@[simp] theorem setRequest_fabric (r : Request) : (setRequest r s).fabric = s.fabric := rfl
@[simp] theorem setRequest_faults (r : Request) : (setRequest r s).faults = s.faults := rfl
@[simp] theorem setRequest_counters (r : Request) : (setRequest r s).counters = s.counters := rfl
@[simp] theorem setRequest_tiers (r : Request) : (setRequest r s).tiers = s.tiers := rfl
@[simp] theorem setRequest_tables (r : Request) : (setRequest r s).tables = s.tables := rfl
@[simp] theorem setRequest_indexes (r : Request) : (setRequest r s).indexes = s.indexes := rfl
@[simp] theorem setRequest_text (r : Request) : (setRequest r s).text = s.text := rfl
@[simp] theorem setRequest_compute (r : Request) : (setRequest r s).compute = s.compute := rfl
@[simp] theorem setRequest_sched (r : Request) : (setRequest r s).sched = s.sched := rfl
@[simp] theorem setRequest_dbg (r : Request) : (setRequest r s).dbg = s.dbg := rfl
@[simp] theorem setRequest_mem (r : Request) : (setRequest r s).mem = s.mem := rfl

@[simp] theorem setTable_pending (id : Nat) (t : Table) : (setTable id t s).pending = s.pending := rfl
@[simp] theorem setTable_outputs (id : Nat) (t : Table) : (setTable id t s).outputs = s.outputs := rfl
@[simp] theorem setTable_freeCtr (id : Nat) (t : Table) : (setTable id t s).freeCtr = s.freeCtr := rfl
@[simp] theorem setTable_frontTime (id : Nat) (t : Table) : (setTable id t s).frontTime = s.frontTime := rfl
@[simp] theorem setTable_timeRuns (id : Nat) (t : Table) : (setTable id t s).timeRuns = s.timeRuns := rfl
@[simp] theorem setTable_ticks (id : Nat) (t : Table) : (setTable id t s).ticks = s.ticks := rfl
@[simp] theorem setTable_role (id : Nat) (t : Table) : (setTable id t s).role = s.role := rfl
@[simp] theorem setTable_proto (id : Nat) (t : Table) : (setTable id t s).proto = s.proto := rfl
@[simp] theorem setTable_host (id : Nat) (t : Table) : (setTable id t s).host = s.host := rfl
@[simp] theorem setTable_power (id : Nat) (t : Table) : (setTable id t s).power = s.power := rfl
@[simp] theorem setTable_sec (id : Nat) (t : Table) : (setTable id t s).sec = s.sec := rfl
@[simp] theorem setTable_fabric (id : Nat) (t : Table) : (setTable id t s).fabric = s.fabric := rfl
@[simp] theorem setTable_faults (id : Nat) (t : Table) : (setTable id t s).faults = s.faults := rfl
@[simp] theorem setTable_counters (id : Nat) (t : Table) : (setTable id t s).counters = s.counters := rfl
@[simp] theorem setTable_tiers (id : Nat) (t : Table) : (setTable id t s).tiers = s.tiers := rfl
@[simp] theorem setTable_indexes (id : Nat) (t : Table) : (setTable id t s).indexes = s.indexes := rfl
@[simp] theorem setTable_text (id : Nat) (t : Table) : (setTable id t s).text = s.text := rfl
@[simp] theorem setTable_serve (id : Nat) (t : Table) : (setTable id t s).serve = s.serve := rfl
@[simp] theorem setTable_compute (id : Nat) (t : Table) : (setTable id t s).compute = s.compute := rfl
@[simp] theorem setTable_sched (id : Nat) (t : Table) : (setTable id t s).sched = s.sched := rfl
@[simp] theorem setTable_dbg (id : Nat) (t : Table) : (setTable id t s).dbg = s.dbg := rfl
@[simp] theorem setTable_mem (id : Nat) (t : Table) : (setTable id t s).mem = s.mem := rfl

@[simp] theorem setIndex_pending (id : Nat) (x : VecIndex) : (setIndex id x s).pending = s.pending := rfl
@[simp] theorem setIndex_outputs (id : Nat) (x : VecIndex) : (setIndex id x s).outputs = s.outputs := rfl
@[simp] theorem setIndex_freeCtr (id : Nat) (x : VecIndex) : (setIndex id x s).freeCtr = s.freeCtr := rfl
@[simp] theorem setIndex_frontTime (id : Nat) (x : VecIndex) : (setIndex id x s).frontTime = s.frontTime := rfl
@[simp] theorem setIndex_timeRuns (id : Nat) (x : VecIndex) : (setIndex id x s).timeRuns = s.timeRuns := rfl
@[simp] theorem setIndex_ticks (id : Nat) (x : VecIndex) : (setIndex id x s).ticks = s.ticks := rfl
@[simp] theorem setIndex_role (id : Nat) (x : VecIndex) : (setIndex id x s).role = s.role := rfl
@[simp] theorem setIndex_proto (id : Nat) (x : VecIndex) : (setIndex id x s).proto = s.proto := rfl
@[simp] theorem setIndex_host (id : Nat) (x : VecIndex) : (setIndex id x s).host = s.host := rfl
@[simp] theorem setIndex_power (id : Nat) (x : VecIndex) : (setIndex id x s).power = s.power := rfl
@[simp] theorem setIndex_sec (id : Nat) (x : VecIndex) : (setIndex id x s).sec = s.sec := rfl
@[simp] theorem setIndex_fabric (id : Nat) (x : VecIndex) : (setIndex id x s).fabric = s.fabric := rfl
@[simp] theorem setIndex_faults (id : Nat) (x : VecIndex) : (setIndex id x s).faults = s.faults := rfl
@[simp] theorem setIndex_counters (id : Nat) (x : VecIndex) : (setIndex id x s).counters = s.counters := rfl
@[simp] theorem setIndex_tiers (id : Nat) (x : VecIndex) : (setIndex id x s).tiers = s.tiers := rfl
@[simp] theorem setIndex_tables (id : Nat) (x : VecIndex) : (setIndex id x s).tables = s.tables := rfl
@[simp] theorem setIndex_text (id : Nat) (x : VecIndex) : (setIndex id x s).text = s.text := rfl
@[simp] theorem setIndex_serve (id : Nat) (x : VecIndex) : (setIndex id x s).serve = s.serve := rfl
@[simp] theorem setIndex_compute (id : Nat) (x : VecIndex) : (setIndex id x s).compute = s.compute := rfl
@[simp] theorem setIndex_sched (id : Nat) (x : VecIndex) : (setIndex id x s).sched = s.sched := rfl
@[simp] theorem setIndex_dbg (id : Nat) (x : VecIndex) : (setIndex id x s).dbg = s.dbg := rfl
@[simp] theorem setIndex_mem (id : Nat) (x : VecIndex) : (setIndex id x s).mem = s.mem := rfl

@[simp] theorem setText_pending (t : TextSpace) : (setText t s).pending = s.pending := rfl
@[simp] theorem setText_outputs (t : TextSpace) : (setText t s).outputs = s.outputs := rfl
@[simp] theorem setText_freeCtr (t : TextSpace) : (setText t s).freeCtr = s.freeCtr := rfl
@[simp] theorem setText_frontTime (t : TextSpace) : (setText t s).frontTime = s.frontTime := rfl
@[simp] theorem setText_timeRuns (t : TextSpace) : (setText t s).timeRuns = s.timeRuns := rfl
@[simp] theorem setText_ticks (t : TextSpace) : (setText t s).ticks = s.ticks := rfl
@[simp] theorem setText_role (t : TextSpace) : (setText t s).role = s.role := rfl
@[simp] theorem setText_proto (t : TextSpace) : (setText t s).proto = s.proto := rfl
@[simp] theorem setText_host (t : TextSpace) : (setText t s).host = s.host := rfl
@[simp] theorem setText_power (t : TextSpace) : (setText t s).power = s.power := rfl
@[simp] theorem setText_sec (t : TextSpace) : (setText t s).sec = s.sec := rfl
@[simp] theorem setText_fabric (t : TextSpace) : (setText t s).fabric = s.fabric := rfl
@[simp] theorem setText_faults (t : TextSpace) : (setText t s).faults = s.faults := rfl
@[simp] theorem setText_counters (t : TextSpace) : (setText t s).counters = s.counters := rfl
@[simp] theorem setText_tiers (t : TextSpace) : (setText t s).tiers = s.tiers := rfl
@[simp] theorem setText_tables (t : TextSpace) : (setText t s).tables = s.tables := rfl
@[simp] theorem setText_indexes (t : TextSpace) : (setText t s).indexes = s.indexes := rfl
@[simp] theorem setText_serve (t : TextSpace) : (setText t s).serve = s.serve := rfl
@[simp] theorem setText_compute (t : TextSpace) : (setText t s).compute = s.compute := rfl
@[simp] theorem setText_sched (t : TextSpace) : (setText t s).sched = s.sched := rfl
@[simp] theorem setText_dbg (t : TextSpace) : (setText t s).dbg = s.dbg := rfl
@[simp] theorem setText_mem (t : TextSpace) : (setText t s).mem = s.mem := rfl

@[simp] theorem setJob_pending (j : LayerJob) : (setJob j s).pending = s.pending := rfl
@[simp] theorem setJob_outputs (j : LayerJob) : (setJob j s).outputs = s.outputs := rfl
@[simp] theorem setJob_freeCtr (j : LayerJob) : (setJob j s).freeCtr = s.freeCtr := rfl
@[simp] theorem setJob_frontTime (j : LayerJob) : (setJob j s).frontTime = s.frontTime := rfl
@[simp] theorem setJob_timeRuns (j : LayerJob) : (setJob j s).timeRuns = s.timeRuns := rfl
@[simp] theorem setJob_ticks (j : LayerJob) : (setJob j s).ticks = s.ticks := rfl
@[simp] theorem setJob_role (j : LayerJob) : (setJob j s).role = s.role := rfl
@[simp] theorem setJob_proto (j : LayerJob) : (setJob j s).proto = s.proto := rfl
@[simp] theorem setJob_host (j : LayerJob) : (setJob j s).host = s.host := rfl
@[simp] theorem setJob_power (j : LayerJob) : (setJob j s).power = s.power := rfl
@[simp] theorem setJob_sec (j : LayerJob) : (setJob j s).sec = s.sec := rfl
@[simp] theorem setJob_fabric (j : LayerJob) : (setJob j s).fabric = s.fabric := rfl
@[simp] theorem setJob_faults (j : LayerJob) : (setJob j s).faults = s.faults := rfl
@[simp] theorem setJob_counters (j : LayerJob) : (setJob j s).counters = s.counters := rfl
@[simp] theorem setJob_tiers (j : LayerJob) : (setJob j s).tiers = s.tiers := rfl
@[simp] theorem setJob_tables (j : LayerJob) : (setJob j s).tables = s.tables := rfl
@[simp] theorem setJob_indexes (j : LayerJob) : (setJob j s).indexes = s.indexes := rfl
@[simp] theorem setJob_text (j : LayerJob) : (setJob j s).text = s.text := rfl
@[simp] theorem setJob_serve (j : LayerJob) : (setJob j s).serve = s.serve := rfl
@[simp] theorem setJob_sched (j : LayerJob) : (setJob j s).sched = s.sched := rfl
@[simp] theorem setJob_dbg (j : LayerJob) : (setJob j s).dbg = s.dbg := rfl
@[simp] theorem setJob_mem (j : LayerJob) : (setJob j s).mem = s.mem := rfl

@[simp] theorem setCell_pending (c : Nat) (x : Cell) : (setCell c x s).pending = s.pending := rfl
@[simp] theorem setCell_outputs (c : Nat) (x : Cell) : (setCell c x s).outputs = s.outputs := rfl
@[simp] theorem setCell_freeCtr (c : Nat) (x : Cell) : (setCell c x s).freeCtr = s.freeCtr := rfl
@[simp] theorem setCell_frontTime (c : Nat) (x : Cell) : (setCell c x s).frontTime = s.frontTime := rfl
@[simp] theorem setCell_timeRuns (c : Nat) (x : Cell) : (setCell c x s).timeRuns = s.timeRuns := rfl
@[simp] theorem setCell_ticks (c : Nat) (x : Cell) : (setCell c x s).ticks = s.ticks := rfl
@[simp] theorem setCell_role (c : Nat) (x : Cell) : (setCell c x s).role = s.role := rfl
@[simp] theorem setCell_proto (c : Nat) (x : Cell) : (setCell c x s).proto = s.proto := rfl
@[simp] theorem setCell_host (c : Nat) (x : Cell) : (setCell c x s).host = s.host := rfl
@[simp] theorem setCell_power (c : Nat) (x : Cell) : (setCell c x s).power = s.power := rfl
@[simp] theorem setCell_sec (c : Nat) (x : Cell) : (setCell c x s).sec = s.sec := rfl
@[simp] theorem setCell_fabric (c : Nat) (x : Cell) : (setCell c x s).fabric = s.fabric := rfl
@[simp] theorem setCell_faults (c : Nat) (x : Cell) : (setCell c x s).faults = s.faults := rfl
@[simp] theorem setCell_counters (c : Nat) (x : Cell) : (setCell c x s).counters = s.counters := rfl
@[simp] theorem setCell_tiers (c : Nat) (x : Cell) : (setCell c x s).tiers = s.tiers := rfl
@[simp] theorem setCell_tables (c : Nat) (x : Cell) : (setCell c x s).tables = s.tables := rfl
@[simp] theorem setCell_indexes (c : Nat) (x : Cell) : (setCell c x s).indexes = s.indexes := rfl
@[simp] theorem setCell_text (c : Nat) (x : Cell) : (setCell c x s).text = s.text := rfl
@[simp] theorem setCell_serve (c : Nat) (x : Cell) : (setCell c x s).serve = s.serve := rfl
@[simp] theorem setCell_sched (c : Nat) (x : Cell) : (setCell c x s).sched = s.sched := rfl
@[simp] theorem setCell_dbg (c : Nat) (x : Cell) : (setCell c x s).dbg = s.dbg := rfl
@[simp] theorem setCell_mem (c : Nat) (x : Cell) : (setCell c x s).mem = s.mem := rfl

@[simp] theorem setCore_pending (hart : Nat) (x : Core) : (setCore hart x s).pending = s.pending := rfl
@[simp] theorem setCore_outputs (hart : Nat) (x : Core) : (setCore hart x s).outputs = s.outputs := rfl
@[simp] theorem setCore_freeCtr (hart : Nat) (x : Core) : (setCore hart x s).freeCtr = s.freeCtr := rfl
@[simp] theorem setCore_frontTime (hart : Nat) (x : Core) : (setCore hart x s).frontTime = s.frontTime := rfl
@[simp] theorem setCore_timeRuns (hart : Nat) (x : Core) : (setCore hart x s).timeRuns = s.timeRuns := rfl
@[simp] theorem setCore_ticks (hart : Nat) (x : Core) : (setCore hart x s).ticks = s.ticks := rfl
@[simp] theorem setCore_role (hart : Nat) (x : Core) : (setCore hart x s).role = s.role := rfl
@[simp] theorem setCore_proto (hart : Nat) (x : Core) : (setCore hart x s).proto = s.proto := rfl
@[simp] theorem setCore_host (hart : Nat) (x : Core) : (setCore hart x s).host = s.host := rfl
@[simp] theorem setCore_power (hart : Nat) (x : Core) : (setCore hart x s).power = s.power := rfl
@[simp] theorem setCore_sec (hart : Nat) (x : Core) : (setCore hart x s).sec = s.sec := rfl
@[simp] theorem setCore_fabric (hart : Nat) (x : Core) : (setCore hart x s).fabric = s.fabric := rfl
@[simp] theorem setCore_faults (hart : Nat) (x : Core) : (setCore hart x s).faults = s.faults := rfl
@[simp] theorem setCore_counters (hart : Nat) (x : Core) : (setCore hart x s).counters = s.counters := rfl
@[simp] theorem setCore_tiers (hart : Nat) (x : Core) : (setCore hart x s).tiers = s.tiers := rfl
@[simp] theorem setCore_tables (hart : Nat) (x : Core) : (setCore hart x s).tables = s.tables := rfl
@[simp] theorem setCore_indexes (hart : Nat) (x : Core) : (setCore hart x s).indexes = s.indexes := rfl
@[simp] theorem setCore_text (hart : Nat) (x : Core) : (setCore hart x s).text = s.text := rfl
@[simp] theorem setCore_serve (hart : Nat) (x : Core) : (setCore hart x s).serve = s.serve := rfl
@[simp] theorem setCore_sched (hart : Nat) (x : Core) : (setCore hart x s).sched = s.sched := rfl
@[simp] theorem setCore_dbg (hart : Nat) (x : Core) : (setCore hart x s).dbg = s.dbg := rfl
@[simp] theorem setCore_mem (hart : Nat) (x : Core) : (setCore hart x s).mem = s.mem := rfl

@[simp] theorem setRun_pending (x : Run) : (setRun x s).pending = s.pending := rfl
@[simp] theorem setRun_outputs (x : Run) : (setRun x s).outputs = s.outputs := rfl
@[simp] theorem setRun_freeCtr (x : Run) : (setRun x s).freeCtr = s.freeCtr := rfl
@[simp] theorem setRun_frontTime (x : Run) : (setRun x s).frontTime = s.frontTime := rfl
@[simp] theorem setRun_timeRuns (x : Run) : (setRun x s).timeRuns = s.timeRuns := rfl
@[simp] theorem setRun_ticks (x : Run) : (setRun x s).ticks = s.ticks := rfl
@[simp] theorem setRun_role (x : Run) : (setRun x s).role = s.role := rfl
@[simp] theorem setRun_proto (x : Run) : (setRun x s).proto = s.proto := rfl
@[simp] theorem setRun_host (x : Run) : (setRun x s).host = s.host := rfl
@[simp] theorem setRun_power (x : Run) : (setRun x s).power = s.power := rfl
@[simp] theorem setRun_sec (x : Run) : (setRun x s).sec = s.sec := rfl
@[simp] theorem setRun_fabric (x : Run) : (setRun x s).fabric = s.fabric := rfl
@[simp] theorem setRun_faults (x : Run) : (setRun x s).faults = s.faults := rfl
@[simp] theorem setRun_counters (x : Run) : (setRun x s).counters = s.counters := rfl
@[simp] theorem setRun_tiers (x : Run) : (setRun x s).tiers = s.tiers := rfl
@[simp] theorem setRun_tables (x : Run) : (setRun x s).tables = s.tables := rfl
@[simp] theorem setRun_indexes (x : Run) : (setRun x s).indexes = s.indexes := rfl
@[simp] theorem setRun_text (x : Run) : (setRun x s).text = s.text := rfl
@[simp] theorem setRun_serve (x : Run) : (setRun x s).serve = s.serve := rfl
@[simp] theorem setRun_sched (x : Run) : (setRun x s).sched = s.sched := rfl
@[simp] theorem setRun_dbg (x : Run) : (setRun x s).dbg = s.dbg := rfl
@[simp] theorem setRun_mem (x : Run) : (setRun x s).mem = s.mem := rfl

@[simp] theorem setBudget_pending (tenant : Nat) (b : Budget) : (setBudget tenant b s).pending = s.pending := rfl
@[simp] theorem setBudget_outputs (tenant : Nat) (b : Budget) : (setBudget tenant b s).outputs = s.outputs := rfl
@[simp] theorem setBudget_freeCtr (tenant : Nat) (b : Budget) : (setBudget tenant b s).freeCtr = s.freeCtr := rfl
@[simp] theorem setBudget_frontTime (tenant : Nat) (b : Budget) : (setBudget tenant b s).frontTime = s.frontTime := rfl
@[simp] theorem setBudget_timeRuns (tenant : Nat) (b : Budget) : (setBudget tenant b s).timeRuns = s.timeRuns := rfl
@[simp] theorem setBudget_ticks (tenant : Nat) (b : Budget) : (setBudget tenant b s).ticks = s.ticks := rfl
@[simp] theorem setBudget_role (tenant : Nat) (b : Budget) : (setBudget tenant b s).role = s.role := rfl
@[simp] theorem setBudget_proto (tenant : Nat) (b : Budget) : (setBudget tenant b s).proto = s.proto := rfl
@[simp] theorem setBudget_host (tenant : Nat) (b : Budget) : (setBudget tenant b s).host = s.host := rfl
@[simp] theorem setBudget_power (tenant : Nat) (b : Budget) : (setBudget tenant b s).power = s.power := rfl
@[simp] theorem setBudget_sec (tenant : Nat) (b : Budget) : (setBudget tenant b s).sec = s.sec := rfl
@[simp] theorem setBudget_fabric (tenant : Nat) (b : Budget) : (setBudget tenant b s).fabric = s.fabric := rfl
@[simp] theorem setBudget_faults (tenant : Nat) (b : Budget) : (setBudget tenant b s).faults = s.faults := rfl
@[simp] theorem setBudget_counters (tenant : Nat) (b : Budget) : (setBudget tenant b s).counters = s.counters := rfl
@[simp] theorem setBudget_tiers (tenant : Nat) (b : Budget) : (setBudget tenant b s).tiers = s.tiers := rfl
@[simp] theorem setBudget_tables (tenant : Nat) (b : Budget) : (setBudget tenant b s).tables = s.tables := rfl
@[simp] theorem setBudget_indexes (tenant : Nat) (b : Budget) : (setBudget tenant b s).indexes = s.indexes := rfl
@[simp] theorem setBudget_text (tenant : Nat) (b : Budget) : (setBudget tenant b s).text = s.text := rfl
@[simp] theorem setBudget_serve (tenant : Nat) (b : Budget) : (setBudget tenant b s).serve = s.serve := rfl
@[simp] theorem setBudget_compute (tenant : Nat) (b : Budget) : (setBudget tenant b s).compute = s.compute := rfl
@[simp] theorem setBudget_dbg (tenant : Nat) (b : Budget) : (setBudget tenant b s).dbg = s.dbg := rfl
@[simp] theorem setBudget_mem (tenant : Nat) (b : Budget) : (setBudget tenant b s).mem = s.mem := rfl

@[simp] theorem setContract_pending (tenant : Nat) (c : Contract) : (setContract tenant c s).pending = s.pending := rfl
@[simp] theorem setContract_outputs (tenant : Nat) (c : Contract) : (setContract tenant c s).outputs = s.outputs := rfl
@[simp] theorem setContract_freeCtr (tenant : Nat) (c : Contract) : (setContract tenant c s).freeCtr = s.freeCtr := rfl
@[simp] theorem setContract_frontTime (tenant : Nat) (c : Contract) : (setContract tenant c s).frontTime = s.frontTime := rfl
@[simp] theorem setContract_timeRuns (tenant : Nat) (c : Contract) : (setContract tenant c s).timeRuns = s.timeRuns := rfl
@[simp] theorem setContract_ticks (tenant : Nat) (c : Contract) : (setContract tenant c s).ticks = s.ticks := rfl
@[simp] theorem setContract_role (tenant : Nat) (c : Contract) : (setContract tenant c s).role = s.role := rfl
@[simp] theorem setContract_proto (tenant : Nat) (c : Contract) : (setContract tenant c s).proto = s.proto := rfl
@[simp] theorem setContract_host (tenant : Nat) (c : Contract) : (setContract tenant c s).host = s.host := rfl
@[simp] theorem setContract_power (tenant : Nat) (c : Contract) : (setContract tenant c s).power = s.power := rfl
@[simp] theorem setContract_sec (tenant : Nat) (c : Contract) : (setContract tenant c s).sec = s.sec := rfl
@[simp] theorem setContract_fabric (tenant : Nat) (c : Contract) : (setContract tenant c s).fabric = s.fabric := rfl
@[simp] theorem setContract_faults (tenant : Nat) (c : Contract) : (setContract tenant c s).faults = s.faults := rfl
@[simp] theorem setContract_counters (tenant : Nat) (c : Contract) : (setContract tenant c s).counters = s.counters := rfl
@[simp] theorem setContract_tiers (tenant : Nat) (c : Contract) : (setContract tenant c s).tiers = s.tiers := rfl
@[simp] theorem setContract_tables (tenant : Nat) (c : Contract) : (setContract tenant c s).tables = s.tables := rfl
@[simp] theorem setContract_indexes (tenant : Nat) (c : Contract) : (setContract tenant c s).indexes = s.indexes := rfl
@[simp] theorem setContract_text (tenant : Nat) (c : Contract) : (setContract tenant c s).text = s.text := rfl
@[simp] theorem setContract_serve (tenant : Nat) (c : Contract) : (setContract tenant c s).serve = s.serve := rfl
@[simp] theorem setContract_compute (tenant : Nat) (c : Contract) : (setContract tenant c s).compute = s.compute := rfl
@[simp] theorem setContract_dbg (tenant : Nat) (c : Contract) : (setContract tenant c s).dbg = s.dbg := rfl
@[simp] theorem setContract_mem (tenant : Nat) (c : Contract) : (setContract tenant c s).mem = s.mem := rfl

@[simp] theorem setHistogram_pending (tenant metric : Nat) (h : Histogram) : (setHistogram tenant metric h s).pending = s.pending := rfl
@[simp] theorem setHistogram_outputs (tenant metric : Nat) (h : Histogram) : (setHistogram tenant metric h s).outputs = s.outputs := rfl
@[simp] theorem setHistogram_freeCtr (tenant metric : Nat) (h : Histogram) : (setHistogram tenant metric h s).freeCtr = s.freeCtr := rfl
@[simp] theorem setHistogram_frontTime (tenant metric : Nat) (h : Histogram) : (setHistogram tenant metric h s).frontTime = s.frontTime := rfl
@[simp] theorem setHistogram_timeRuns (tenant metric : Nat) (h : Histogram) : (setHistogram tenant metric h s).timeRuns = s.timeRuns := rfl
@[simp] theorem setHistogram_ticks (tenant metric : Nat) (h : Histogram) : (setHistogram tenant metric h s).ticks = s.ticks := rfl
@[simp] theorem setHistogram_role (tenant metric : Nat) (h : Histogram) : (setHistogram tenant metric h s).role = s.role := rfl
@[simp] theorem setHistogram_proto (tenant metric : Nat) (h : Histogram) : (setHistogram tenant metric h s).proto = s.proto := rfl
@[simp] theorem setHistogram_host (tenant metric : Nat) (h : Histogram) : (setHistogram tenant metric h s).host = s.host := rfl
@[simp] theorem setHistogram_power (tenant metric : Nat) (h : Histogram) : (setHistogram tenant metric h s).power = s.power := rfl
@[simp] theorem setHistogram_sec (tenant metric : Nat) (h : Histogram) : (setHistogram tenant metric h s).sec = s.sec := rfl
@[simp] theorem setHistogram_fabric (tenant metric : Nat) (h : Histogram) : (setHistogram tenant metric h s).fabric = s.fabric := rfl
@[simp] theorem setHistogram_faults (tenant metric : Nat) (h : Histogram) : (setHistogram tenant metric h s).faults = s.faults := rfl
@[simp] theorem setHistogram_counters (tenant metric : Nat) (h : Histogram) : (setHistogram tenant metric h s).counters = s.counters := rfl
@[simp] theorem setHistogram_tiers (tenant metric : Nat) (h : Histogram) : (setHistogram tenant metric h s).tiers = s.tiers := rfl
@[simp] theorem setHistogram_tables (tenant metric : Nat) (h : Histogram) : (setHistogram tenant metric h s).tables = s.tables := rfl
@[simp] theorem setHistogram_indexes (tenant metric : Nat) (h : Histogram) : (setHistogram tenant metric h s).indexes = s.indexes := rfl
@[simp] theorem setHistogram_text (tenant metric : Nat) (h : Histogram) : (setHistogram tenant metric h s).text = s.text := rfl
@[simp] theorem setHistogram_serve (tenant metric : Nat) (h : Histogram) : (setHistogram tenant metric h s).serve = s.serve := rfl
@[simp] theorem setHistogram_compute (tenant metric : Nat) (h : Histogram) : (setHistogram tenant metric h s).compute = s.compute := rfl
@[simp] theorem setHistogram_dbg (tenant metric : Nat) (h : Histogram) : (setHistogram tenant metric h s).dbg = s.dbg := rfl
@[simp] theorem setHistogram_mem (tenant metric : Nat) (h : Histogram) : (setHistogram tenant metric h s).mem = s.mem := rfl

end Sys2Proof.Laws
end

