-- ==== Sys2Proof/Laws/Ops.lean ====
section
/-! SUPPORT. What the shared operations do: a place read after it is stored, another place after it, a record posted or dropped, what a commit advances. -/

namespace Sys2Proof.Laws

set_option Elab.async false

open Sys2Proof Sys2Proof.Machine

variable (s : State)

@[simp] theorem sqOf_setSq_self (n : Nat) (r : SubRing) : sqOf (setSq n r s).host n = r := by simp [sqOf, setSq]

@[simp] theorem sqOf_setSq_ne {n m : Nat} (r : SubRing) (h : m ≠ n) : sqOf (setSq n r s).host m = sqOf s.host m := by simp [sqOf, setSq, h]

@[simp] theorem cqOf_setCq_self (n : Nat) (r : CplRing) : cqOf (setCq n r s).host n = r := by simp [cqOf, setCq]

@[simp] theorem cqOf_setCq_ne {n m : Nat} (r : CplRing) (h : m ≠ n) : cqOf (setCq n r s).host m = cqOf s.host m := by simp [cqOf, setCq, h]

@[simp] theorem sqOf_setCq (n m : Nat) (r : CplRing) : sqOf (setCq n r s).host m = sqOf s.host m := rfl

@[simp] theorem cqOf_setSq (n m : Nat) (r : SubRing) : cqOf (setSq n r s).host m = cqOf s.host m := rfl

@[simp] theorem portOf_setPort_self (p : Nat) (x : Port) : portOf (setPort p x s) p = x := by simp [portOf, setPort]

@[simp] theorem portOf_setPort_ne {p q : Nat} (x : Port) (h : q ≠ p) : portOf (setPort p x s) q = portOf s q := by simp [portOf, setPort, h]

@[simp] theorem channelOf_setChannel_self (m ch : Nat) (c : Channel) : channelOf (setChannel m ch c s) m ch = c := by simp [channelOf, setChannel]

theorem channelOf_setChannel_ne {m ch m' ch' : Nat} (c : Channel) (h : m' * 4096 + ch' ≠ m * 4096 + ch) :
    channelOf (setChannel m ch c s) m' ch' = channelOf s m' ch' := by simp [channelOf, setChannel, h]

@[simp] theorem peerOf_setPeer_self (m : Nat) (p : Peer) : peerOf (setPeer m p s) m = p := by simp [peerOf, setPeer]

@[simp] theorem peerOf_setPeer_ne {m n : Nat} (p : Peer) (h : n ≠ m) : peerOf (setPeer m p s) n = peerOf s n := by simp [peerOf, setPeer, h]

@[simp] theorem cellOf_setCell_self (c : Nat) (x : Cell) : cellOf (setCell c x s) c = x := by simp [cellOf, setCell]

@[simp] theorem cellOf_setCell_ne {c d : Nat} (x : Cell) (h : d ≠ c) : cellOf (setCell c x s) d = cellOf s d := by simp [cellOf, setCell, h]

@[simp] theorem coreOf_setCore_self (c : Nat) (x : Core) : coreOf (setCore c x s) c = x := by simp [coreOf, setCore]

@[simp] theorem coreOf_setCore_ne {c d : Nat} (x : Core) (h : d ≠ c) : coreOf (setCore c x s) d = coreOf s d := by simp [coreOf, setCore, h]

@[simp] theorem cellOf_setCore (c d : Nat) (x : Core) : cellOf (setCore c x s) d = cellOf s d := rfl

@[simp] theorem coreOf_setCell (c d : Nat) (x : Cell) : coreOf (setCell c x s) d = coreOf s d := rfl

@[simp] theorem tableOf_setTable_self (i : Nat) (t : Table) : tableOf (setTable i t s) i = some t := by simp [tableOf, setTable]

@[simp] theorem tableOf_setTable_ne {i j : Nat} (t : Table) (h : j ≠ i) : tableOf (setTable i t s) j = tableOf s j := by simp [tableOf, setTable, h]

@[simp] theorem indexOf_setIndex_self (i : Nat) (x : VecIndex) : indexOf (setIndex i x s) i = some x := by simp [indexOf, setIndex]

@[simp] theorem indexOf_setIndex_ne {i j : Nat} (x : VecIndex) (h : j ≠ i) : indexOf (setIndex i x s) j = indexOf s j := by
  simp [indexOf, setIndex, h]

/-- A command that has ended is in flight no more. -/
@[simp] theorem flightOf_dropFlight_self (h : Nat) : flightOf (dropFlight h s) h = none := by
  simp [flightOf, dropFlight, List.find?_eq_none]

/-- The other commands in flight stay. -/
theorem flightOf_dropFlight_ne {h i : Nat} (e : i ≠ h) : flightOf (dropFlight h s) i = flightOf s i := by
  simp only [flightOf, dropFlight, List.find?_filter]
  congr 1
  funext f
  by_cases c : f.serial = i <;> simp [c, e]

/-- Bytes written are read back. -/
theorem memRead_memWrite_self (a : Nat) (b : Bytes) (w : s.mem.wf = true) : memRead (memWrite a b s) a b.length = b :=
  readN_writeN_self s.mem a b w

/-- A write leaves the canonical form. -/
theorem memWrite_wf (a : Nat) (b : Bytes) (w : s.mem.wf = true) : (memWrite a b s).mem.wf = true := wf_writeN s.mem a b w

/-- A write leaves every other byte. -/
theorem memWrite_read_out (a : Nat) (b : Bytes) (c : Nat) (h : c < a ∨ a + b.length ≤ c) : Memory.read (memWrite a b s).mem c = Memory.read s.mem c :=
  read_writeN_out s.mem a b c h

/-- A commit advances the step counter and the versions of its objects, and no command leaves the list by it, R56, R67. -/
theorem commitObjects_counts (os : List Obj) :
    (commitObjects os s).proto.stepCount = s.proto.stepCount + 1 ∧ (commitObjects os s).proto.versions = os.foldl bumpVersion s.proto.versions
      ∧ (commitObjects os s).proto.flights = s.proto.flights ∧ (commitObjects os s).proto.sessions = s.proto.sessions
      ∧ (commitObjects os s).proto.txns = s.proto.txns := ⟨rfl, rfl, rfl, rfl, rfl⟩

/-- A record due to a ring that is not enabled is dropped and counted, R492. -/
theorem postRecord_dropped {n : Nat} (session cmd : Nat) (event staged clear reserved : Bool) (time : Nat) (r : Reply) (h : (cqOf s.host n).state ≠ .enabled) :
    postRecord n session cmd event staged clear reserved time r s = cqDrop n s := by
  simp [postRecord, h]

/-- A posted record takes the ring's slots and is signalled; nothing else of the ring's positions is read, R48, R54. -/
theorem postRecord_posts {n : Nat} (session cmd : Nat) (event staged clear : Bool) (time : Nat) (r : Reply) (h : (cqOf s.host n).state = .enabled)
    (room : recordSlots r.result.length + cqUsed (cqOf s.host n) ≤ 2 ^ (cqOf s.host n).log2) :
    ∃ x, x.ring = n ∧ x.pos = (cqOf s.host n).tail ∧ x.commandId = cmd ∧ x.status = r.status ∧ x.detail = r.detail ∧ x.result = r.result
      ∧ postRecord n session cmd event staged clear true time r s = cqSignal n (cqAdvance n (recordSlots r.result.length) (emit (.record x) s)) := by
  refine ⟨_, ?_, ?_, ?_, ?_, ?_, ?_, by simp only [postRecord, h, room, if_true, decide_true, and_self]; rfl⟩ <;> rfl

end Sys2Proof.Laws
end

