-- ==== Sys2Proof/Tests/Slice0.lean ====
section
/-! SUPPORT. The model's own tests: ill-formed terms that the checks refuse, states that meet the hypotheses of the statements, worked examples of the spec. -/

namespace Sys2Proof.Tests

set_option Elab.async false

open Sys2Proof Sys2Proof.Machine Sys2Proof.Laws

/-- A module that runs: booted, its firmware ready, front time running at 1 s, ring pair 0 ENABLED with 64 and 128 slots, the host readable. -/
def live : State :=
  { State.reset with
    frontTime := 1000000000
    timeRuns := true
    ticks := 1000
    host := { HostPort.reset with
      busMaster := true
      cfgCycles := true
      sq := [(0, { SubRing.reset with state := .enabled, enable := true, log2 := 6, base := 0x10000, shadow := 0x20000 })]
      cq := [(0, { CplRing.reset with state := .enabled, enable := true, log2 := 7, base := 0x30000, vector := 1, onceEnabled := true })] }
    power := { Power.reset with
      inRange := true
      vin := 8000
      hvEn := true
      conversion := true
      pwrgd := true
      refclk := true
      xtal := true
      cfgReady := true
      fwReady := true
      secureBootOk := true
      stage := .running
      tj := 60
      tjKnown := true }
    sec := { Security.reset with running := some 0 } }

/-- A command header that names the whole top front and session 0. -/
def plainHeader : Header :=
  { version := 1, hdrLen := 48, opcode := 0, paramEnc := false, inTxn := false, fence := false, flagsRsv := 0, paramLen := 0, commandId := 77, seq := 0
    scope := List.replicate 8 0xFFF, sessionId := 0, txnId := 0, replyRing := 0, prio := 4, scopeDepth := 0 }

/-- A command of tenant 0 in flight as handle 0, with one slot reserved. -/
def command (op : Opcode) (params : Bytes) : Flight :=
  ⟨0, .host 0, op, { plainHeader with paramLen := params.length }, params, 0, 1000000000, false, false, 1, none, none, false⟩

/-- A state with one command in flight. -/
def withFlight (f : Flight) (s : State) : State := { s with proto := { s.proto with flights := [f], nextSerial := 1 } }

/-- What a witness of a command's readiness shows. -/
def shows (c : Command) (s : State) (f : Flight) : Prop := Ready c (withFlight f s) 0 f ∧ Here (withFlight f s) f

/-- The check of rings refuses an ill-formed term. -/
theorem smoke_rings :
    (∀ b c, wellFormed (.packetTaken 4096 b c) = false) ∧ (∀ b, wellFormed (.sqTailWrite 4096 b) = false)
      ∧ (∀ b, wellFormed (.cqHeadWrite 4096 b) = false) ∧ wellFormed (.sqEnable 4096) = false ∧ wellFormed (.sqDisable 4096) = false
      ∧ (∀ b, wellFormed (.cqEnable 4096 b) = false) ∧ (∀ b, wellFormed (.cqDisable 4096 b) = false) ∧ (∀ b, wellFormed (.cqCoalExpiry 4096 b) = false) := by simp [wellFormed]

/-- The check of errorwords refuses an ill-formed term. -/
theorem smoke_errorwords :
    (∀ b, wellFormed (.irqSqErrClear 128 b) = false) ∧ (∀ b, wellFormed (.irqCqErrClear 128 b) = false) := by simp [wellFormed]

/-- The check of bars refuses an ill-formed term. -/
theorem smoke_bars :
    (∀ b c d, wellFormed (.registerWrite 1 b c d) = false) ∧ (∀ b c, wellFormed (.configRegisterRead 1 b c) = false) := by simp [wellFormed]

/-- The check of units refuses an ill-formed term. -/
theorem smoke_units :
    wellFormed (.msixVectorUnmask 2048) = false ∧ (∀ b, wellFormed (.calmIslandStart 16 b) = false) ∧ wellFormed (.railFailure 8) = false
      ∧ (∀ a c, wellFormed (.thermalTrip a 6 c) = false) ∧ wellFormed (.oscillatorLoss 40) = false ∧ (∀ b, wellFormed (.watchdogExpiry 8 b) = false)
      ∧ (∀ b, wellFormed (.hubDomainGate 40 b) = false) ∧ (∀ b, wellFormed (.pluggableInsertion 8 b) = false) := by simp [wellFormed]

/-- The check of quadrants refuses an ill-formed term. -/
theorem smoke_quadrants :
    (∀ b, wellFormed (.thawComplete 16 b) = false) ∧ (∀ b, wellFormed (.frost 16 b) = false) ∧ (∀ b, wellFormed (.deepFrost 16 b) = false)
      ∧ wellFormed (.quadrantDomainFailure 16) = false := by simp [wellFormed]

/-- The check of cells refuses an ill-formed term. -/
theorem smoke_cells :
    (∀ b c, wellFormed (.mma 192 b c) = false) ∧ (∀ b, wellFormed (.mld 192 b) = false) ∧ (∀ b, wellFormed (.mdr 192 b) = false)
      ∧ (∀ b c, wellFormed (.mrs 192 b c) = false) ∧ wellFormed (.vadd 192) = false ∧ wellFormed (.vsub 192) = false ∧ wellFormed (.vmul 192) = false
      ∧ wellFormed (.vfma 192) = false ∧ wellFormed (.vmax 192) = false ∧ wellFormed (.vmin 192) = false ∧ wellFormed (.vdiv 192) = false
      ∧ wellFormed (.vsqrt 192) = false ∧ wellFormed (.vrsq 192) = false ∧ wellFormed (.vrcp 192) = false ∧ wellFormed (.vexp2 192) = false
      ∧ wellFormed (.vlog2 192) = false ∧ wellFormed (.vand 192) = false ∧ wellFormed (.vor 192) = false ∧ wellFormed (.vxor 192) = false
      ∧ wellFormed (.vcmplt 192) = false ∧ wellFormed (.vsel 192) = false ∧ wellFormed (.vscal 192) = false ∧ (∀ b, wellFormed (.vld 192 b) = false)
      ∧ wellFormed (.vst 192) = false ∧ wellFormed (.vredsum 192) = false ∧ wellFormed (.vredmax 192) = false ∧ wellFormed (.vextr 192) = false
      ∧ wellFormed (.vins 192) = false ∧ wellFormed (.vcvt 192) = false ∧ wellFormed (.vseed 192) = false := by simp [wellFormed]

/-- The check of cores refuses an ill-formed term. -/
theorem smoke_cores :
    wellFormed (.mfence 1536) = false ∧ wellFormed (.arrayIssue 1536) = false ∧ wellFormed (.vectorIssue 1536) = false ∧ wellFormed (.vfence 1536) = false
      ∧ wellFormed (.dsub 1536) = false ∧ wellFormed (.dwait 1536) = false ∧ wellFormed (.dpoll 1536) = false
      ∧ (∀ b c d, wellFormed (.dmaComplete 1536 b c d) = false) ∧ (∀ b, wellFormed (.remoteWriteArrival 1536 b) = false) ∧ wellFormed (.bar 1536) = false
      ∧ wellFormed (.wopen 1536) = false ∧ wellFormed (.wclose 1536) = false ∧ (∀ b, wellFormed (.scalarInstruction 1536 b) = false)
      ∧ wellFormed (.ecall 1536) = false ∧ wellFormed (.ebreak 1536) = false := by simp [wellFormed]

/-- The check of tags refuses an ill-formed term. -/
theorem smoke_tags :
    (∀ a c d, wellFormed (.dmaComplete a 8 c d) = false) ∧ (∀ a, wellFormed (.remoteWriteArrival a 8) = false) := by simp [wellFormed]

/-- The check of peers refuses an ill-formed term. -/
theorem smoke_peers :
    (∀ b, wellFormed (.peerUnreachable 69632 b) = false) ∧ (∀ b, wellFormed (.retransmitTimeout 69632 b) = false)
      ∧ (∀ b, wellFormed (.tile 69632 b) = false) ∧ (∀ b, wellFormed (.kvShipOpen 69632 b) = false) ∧ (∀ b, wellFormed (.kvShipAccept 69632 b) = false)
      ∧ (∀ b, wellFormed (.kvShipPage 69632 b) = false) ∧ (∀ b, wellFormed (.kvShipAbort 69632 b) = false)
      ∧ (∀ b, wellFormed (.kvShipRefuse 69632 b) = false) ∧ (∀ b, wellFormed (.rowUpd 69632 b) = false)
      ∧ (∀ b, wellFormed (.rowReplInstall 69632 b) = false) ∧ (∀ b, wellFormed (.rowReplDrop 69632 b) = false)
      ∧ (∀ b, wellFormed (.rowReplAck 69632 b) = false) ∧ (∀ b, wellFormed (.searchReq 69632 b) = false) ∧ (∀ b, wellFormed (.searchResp 69632 b) = false)
      ∧ (∀ b, wellFormed (.selectMergeMsg 69632 b) = false) ∧ (∀ b, wellFormed (.cmdFwdForward 69632 b) = false)
      ∧ (∀ b, wellFormed (.cmdFwdReply 69632 b) = false) ∧ (∀ b, wellFormed (.cmdFwdPrepare 69632 b) = false)
      ∧ (∀ b, wellFormed (.cmdFwdVote 69632 b) = false) ∧ (∀ b c, wellFormed (.cmdFwdCommit 69632 b c) = false)
      ∧ (∀ b, wellFormed (.cmdFwdAbort 69632 b) = false) ∧ (∀ b, wellFormed (.cmdFwdDecision 69632 b) = false)
      ∧ (∀ b, wellFormed (.cmdFwdDecisionAck 69632 b) = false) ∧ (∀ b c, wellFormed (.timeSyncSync 69632 b c) = false)
      ∧ (∀ b c, wellFormed (.timeSyncFollowUp 69632 b c) = false) ∧ (∀ b c, wellFormed (.timeSyncDelayReq 69632 b c) = false)
      ∧ (∀ b c, wellFormed (.timeSyncDelayResp 69632 b c) = false) ∧ (∀ b c, wellFormed (.heartbeat 69632 b c) = false)
      ∧ (∀ b, wellFormed (.frontViewPropose 69632 b) = false) ∧ (∀ b, wellFormed (.frontViewAccept 69632 b) = false)
      ∧ (∀ b c, wellFormed (.frontViewInstall 69632 b c) = false) ∧ (∀ b, wellFormed (.frontViewCatchUp 69632 b) = false)
      ∧ (∀ b, wellFormed (.frontViewAdj 69632 b) = false) := by simp [wellFormed]

/-- The check of ports refuses an ill-formed term. -/
theorem smoke_ports :
    (∀ b, wellFormed (.portTrainingComplete 16 b) = false) ∧ (∀ b, wellFormed (.laneLoss 16 b) = false) ∧ wellFormed (.portSignalLoss 16) = false
      ∧ wellFormed (.portSignalDetect 16) = false ∧ wellFormed (.retrainTimeout 16) = false ∧ (∀ b, wellFormed (.dadComplete 16 b) = false)
      ∧ (∀ b c, wellFormed (.neighborSolicitation 16 b c) = false) ∧ (∀ b c, wellFormed (.neighborAdvertisement 16 b c) = false)
      ∧ (∀ b, wellFormed (.icmpv6EchoRequest 16 b) = false) ∧ wellFormed (.packetTooBig 16) = false ∧ (∀ b, wellFormed (.flitNak 16 b) = false)
      ∧ (∀ b, wellFormed (.flitDamaged 16 b) = false) ∧ (∀ b c d e, wellFormed (.flitHello 16 b c d e) = false)
      ∧ (∀ b c d, wellFormed (.flitTime 16 b c d) = false) ∧ wellFormed (.helloSend 16) = false ∧ wellFormed (.ackStall 16) = false
      ∧ (∀ b c d, wellFormed (.segmentData 16 b c d) = false) ∧ (∀ b c d, wellFormed (.segmentAck 16 b c d) = false)
      ∧ (∀ b c, wellFormed (.ptpDelayReq 16 b c) = false) := by simp [wellFormed]

/-- The check of channels refuses an ill-formed term. -/
theorem smoke_channels :
    (∀ a, wellFormed (.retransmitTimeout a 4096) = false) := by simp [wellFormed]

/-- `live` with the host port changed. -/
def liveHost (h : HostPort → HostPort) : State := { live with host := h live.host }

/-- `live` with submission ring 0 changed. -/
def liveSq (g : SubRing → SubRing) : State := liveHost (fun h => { h with sq := [(0, g (sqOf live.host 0))] })

/-- `live` with completion ring 0 changed. -/
def liveCq (g : CplRing → CplRing) : State := liveHost (fun h => { h with cq := [(0, g (cqOf live.host 0))] })

theorem witness_EmptyQueue : live.pending = [] := rfl

theorem witness_DoorbellWritesAreJudged :
    (live.power.cfgReady = true ∧ (sqOf live.host 0).halted = false) ∧ (live.power.cfgReady = true ∧ (cqOf live.host 0).halted = false)
    ∧ (sqOf (liveSq (fun r => { r with halted := true })).host 0).halted = true ∧ (cqOf (liveCq (fun r => { r with halted := true })).host 0).halted = true
    ∧ State.reset.power.cfgReady = false := by decide +kernel

theorem witness_RingEnablesTakeEffect :
    (let s := liveSq (fun r => { r with state := .disabled });
      s.power.cfgReady = true ∧ (sqOf s.host 0).state ≠ .enabled ∧ sqPageInvalid (sqOf s.host 0) = false ∧ s.power.fwReady = true
        ∧ (sqOf s.host 0).halted = false)
    ∧ ((sqOf live.host 1).state ≠ .enabled ∧ sqPageInvalid (sqOf live.host 1) = true)
    ∧ (let s := liveCq (fun r => { r with state := .error, enable := false, gen := 0xFFFE });
      (cqOf s.host 0).state ≠ .enabled ∧ (cqOf s.host 0).enable = false ∧ cqPageInvalid (cqOf s.host 0) = false ∧ s.power.fwReady = true
        ∧ (cqOf s.host 0).halted = false ∧ (cqOf s.host 0).onceEnabled = true ∧ (cqOf s.host 0).gen < 0xFFFF) := by decide +kernel

theorem witness_InterruptRegistersTakeWrites : live.power.cfgReady = true := rfl

theorem witness_RegisterAccessesTakeEffect :
    (0x2C % 4 = 0 ∧ 0x2E % 4 ≠ 0 ∧ (8 ≠ 4 ∨ 0x2C % 4 ≠ 0)) ∧ live.power.cfgReady = true
    ∧ (liveHost (fun h => { h with snapPending := true })).host.snapPending = true
    ∧ (live.host.peekHalted = false ∧ live.sec.debug = false)
    ∧ (let s := { liveHost (fun h => { h with peekAddr := 0x2C }) with sec := { live.sec with debug := true } };
      s.power.cfgReady = true ∧ s.host.peekHalted = false ∧ s.sec.debug = true ∧ s.host.peekAddr = 0x2C ∧ s.host.autoInc = false)
    ∧ (let s := liveCq (fun r => { r with irqEn := true, coalUs := 10, unsignalled := 1, firstUnsignalled := 5000 });
      (cqOf s.host 0).irqEn = true ∧ (cqOf s.host 0).coalUs ≠ 0 ∧ (cqOf s.host 0).unsignalled ≠ 0
        ∧ (cqOf s.host 0).firstUnsignalled + (cqOf s.host 0).coalUs * 1000 ≤ 15000) := by decide +kernel

theorem witness_HostLinkEventsTakeEffect :
    (live.power.fwReady || !live.power.pwrgd) = true
    ∧ (let s := { live with power := { live.power with fwReady := false } }; (s.power.fwReady || !s.power.pwrgd) = false) := by decide +kernel

/-- `live` with its power state changed. -/
def livePower (g : Power → Power) : State := { live with power := g live.power }

theorem witness_PowerEventsTakeEffect :
    (let s := livePower (fun p => { p with calm := false }); s.power.inputUp = true ∧ s.power.calm = false) ∧ live.power.calm = true
    ∧ (let s := livePower (fun p => { p with conversion := false });
      s.power.calm = true ∧ 7000 ≤ 7000 ∧ 8800 ≤ 8800 ∧ s.power.hvEn = true ∧ s.power.thermtrip = false ∧ s.power.conversion = false)
    ∧ (90 < 91)
    ∧ (let s := livePower (fun p => { p with conversion := false, hvEn := false, thermtrip := true });
      90 ≤ 90 ∧ s.power.hvEn = false ∧ s.power.calm = true ∧ s.power.inRange = true ∧ s.power.conversion = false)
    ∧ live.power.conversion = true ∧ State.reset.power.conversion = false := by decide +kernel

theorem witness_FailuresResetTheModule :
    (live.power.conversion = true ∧ live.power.pwrgd = true ∧ (6399 < 6400 ∨ 9000 < 6399) ∧ 115 ≤ 115)
    ∧ (let s := livePower (fun p => { p with pendingReset := some ⟨true, 2000000000⟩ });
      s.power.pendingReset = some ⟨true, 2000000000⟩ ∧ 2000000000 ≤ (advance 2000000000 s).frontTime)
    ∧ (live.power.fwReady = true ∧ kgetD live.faults.isobarReport 3 0 + 100 ≤ live.ticks
      ∧ (live.faults.watchdogResets.filter (fun t => decide (live.ticks < t + 600000))).length < 3 ∧ live.faults.queue.length < 64)
    ∧ (let s := { live with faults := { live.faults with watchdogResets := [900, 500, 400] } };
      3 ≤ (s.faults.watchdogResets.filter (fun t => decide (s.ticks < t + 600000))).length)
    ∧ (let s := livePower (fun p => { p with fwReady := false });
      s.power.fwReady = false ∧ s.power.pwrgd = true ∧ s.power.bootRetries = 0 ∧ s.faults.queue.length < 64)
    ∧ (let s := livePower (fun p => { p with fwReady := false, bootRetries := 1 });
      s.power.fwReady = false ∧ s.power.pwrgd = true ∧ s.power.bootRetries ≠ 0) := by decide +kernel

theorem witness_BootTakesEffect :
    (let s := livePower (fun p => { p with stage := .rom, fwReady := false, cfgReady := false });
      s.power.pwrgd = true ∧ s.power.perst = false ∧ s.power.stage = .rom ∧ s.faults.watchdogStopped = false ∧ s.sec.lifecycle = 1 ∧ s.sec.trial = false)
    ∧ (let s := livePower (fun p => { p with fwReady := false });
      s.power.stage = .running ∧ s.power.fwReady = false ∧ s.power.secureBootOk = true)
    ∧ (let s := { livePower (fun p => { p with stage := .recovery }) with sec := { live.sec with lifecycle := 0 } };
      s.power.stage = .recovery ∧ (zeros 4096).length ≤ 4096 ∧ 0x1F7F000 + (zeros 4096).length ≤ 0x1F80000
        ∧ (s.sec.lifecycle = 1 → bundleValid s.sec.floors (Memory.writeN s.sec.slotA 0x1F7F000 (zeros 4096)) = false)) := by decide +kernel

theorem witness_ClampsAndPulsesTakeEffect :
    (livePower (fun p => { p with fastClamp := true })).power.fastClamp = true
    ∧ (let s := livePower (fun p => { p with policy := { p.policy with memSr := 1, deepAfterMs := 10 }, idleSince := 0 });
      powerState s.power = 2 ∧ s.power.policy.memSr = 1 ∧ s.power.policy.deepAfterMs ≠ 0
        ∧ s.power.idleSince + s.power.policy.deepAfterMs * 1000000 ≤ (advance 1000000000 s).frontTime)
    ∧ ({ live with fabric := { live.fabric with ppsEnable := 1 } }).fabric.ppsEnable = 1 ∧ live.fabric.ppsEnable ≠ 1
    ∧ (let s := livePower (fun p => { p with ppsLast := some 5 }); s.power.ppsLast = some 5 ∧ 5 + 3000000000 ≤ 3000000005)
    ∧ (15 < 16) ∧ (12000 < 12001) ∧ (12000 ≤ 12000) := by decide +kernel

theorem witness_ManagementTickTakesSample :
    ({ live with power := { live.power with calm := false } }).power.calm = false
    ∧ (let s := livePower (fun p => { p with fwReady := false }); s.power.calm = true ∧ s.power.fwReady = false ∧ s.faults.dropped = 0) := by decide +kernel

theorem witness_PmbusCommandsAnswer :
    live.power.calm = true ∧ ({ live with power := { live.power with calm := false } }).power.calm = false
    ∧ 0x20 ∉ [0x03, 0x78, 0x79, 0x7C, 0x7D, 0x88, 0x89, 0x8D, 0x97, 0x98, 0x99, 0x9A]
    ∧ alertN (livePower (fun p => { p with statusInput := 0x10 })).power = false ∧ alertN live.power = true := by decide +kernel

theorem witness_ManagementInterfacesAnswer :
    (live.power.calm = true ∧ live.power.pwrgd = true ∧ live.power.stage ≠ .rom ∧ live.sec.spdm = .start ∧ live.host.cfgCycles = true ∧ live.sec.debug = false)
    ∧ ({ live with sec := { live.sec with spdm := .negotiated } }).sec.spdm = .negotiated
    ∧ ({ live with sec := { live.sec with debug := true } }).sec.debug = true := by decide +kernel

/-- A run of cell 0 with all its cores. -/
def aRun : Run := ⟨0, 0, 0, 77, 5, [0], 0xFF, 0, [], [], NumCounts.zero, [], .none, none, none, []⟩

/-- A core at an instruction word, with registers. -/
def coreWith (w : Nat) (regs : KMap W64) : Core := { Core.idle with life := .running, regs := regs, im := Memory.writeN [] 0 (toLe 4 w) }

/-- `live` with quadrant 0 ACTIVE and a run of cell 0, its core 0 and its cell as given. -/
def cellLive (c : Core) (x : Cell) : State :=
  { live with
    power := { live.power with quadrants := [(0, ⟨.active, false, 0, 0, none⟩)] }
    compute := { Compute.reset with
      cores := [(0, c)]
      cells := [(0, x)]
      runs := [aRun] } }

/-- A cell with one instruction at the head of its array queue. -/
def arrayCell (w rs1 rs2 : Nat) (csrs : List W32) : Cell := { Cell.reset with arrayQ := [⟨BitVec.ofNat 32 w, rs1, rs2, csrs, 0, 0⟩] }

/-- A cell with one instruction at the head of its vector queue. -/
def vectorCell (w rs1 rs2 : Nat) : Cell := { Cell.reset with vectorQ := [⟨BitVec.ofNat 32 w, rs1, rs2, 1, 0, 0⟩] }

/-- The core that stands at `w`. -/
def fetched (w : Nat) (regs : KMap W64) : Prop := Fetches (cellLive (coreWith w regs) Cell.reset) 0 aRun (coreWith w regs) ⟨w, some w, 4⟩ w

theorem witness_ArrayInstructionsComplete :
    (fetched 0x0400100B [] ∧ 0x0400100B % 128 = 0x0B ∧ arrayOp 0x0400100B ≠ 4
      ∧ arrayIssueFault 0x0400100B (arrayCfg (arrayCsrs (coreWith 0x0400100B []))) false = none
      ∧ (cellOf (cellLive (coreWith 0x0400100B []) Cell.reset) 0).arrayQ.length < 16)
    ∧ (let e : ArrayEntry := ⟨0x0400100B, 0, 0, [], 0, 0⟩;
      ArrayTurn (cellLive Core.idle (arrayCell 0x0400100B 0 0 [])) 0 aRun e 1 ∧ bitOf e.insn.toNat 26 = true)
    ∧ (let e : ArrayEntry := ⟨0x0000100B, 0x1000, 64, [0, 0, 0x0101], 0, 0⟩;
      let s := cellLive Core.idle (arrayCell 0x0000100B 0x1000 64 [0, 0, 0x0101]);
      ArrayTurn s 0 aRun e 1 ∧ bitOf e.insn.toNat 26 = false ∧ scratchPoison s 0 e.rs1 (4 * (arrayCfg e.csrs).nv) = none ∧ (arrayCfg e.csrs).mv = 1
        ∧ (mldExec (scratchReader s 0) (cellOf s 0) e).fault = none)
    ∧ (let e : ArrayEntry := ⟨0x0200200B, 0x1000, 64, [0, 0, 0x0101], 0, 0⟩;
      let x := arrayCell 0x0200200B 0x1000 64 [0, 0, 0x0101];
      ArrayTurn (cellLive Core.idle x) 0 aRun e 2 ∧ (mdrExec x e).fault = none ∧ trapsNan aRun.numeric = false)
    ∧ (let e : ArrayEntry := ⟨0x0000300B, 0x1000, 0, [], 0, 0⟩;
      let s := cellLive Core.idle (arrayCell 0x0000300B 0x1000 0 []);
      ArrayTurn s 0 aRun e 3 ∧ scratchPoison s 0 e.rs1 512 = none ∧ (mrsExec (scratchReader s 0) (cellOf s 0) e).fault = none)
    ∧ (let g : List W32 := [0x577, 1, 0x0101, 0x2000, 0x3000, 0];
      let e : ArrayEntry := ⟨0x0000000B, 0, 0x1000, g, 0, 0⟩;
      let s := cellLive Core.idle (arrayCell 0x0000000B 0 0x1000 g);
      ArrayTurn s 0 aRun e 0 ∧ arrayIssueFault 0x0B (arrayCfg g) false = none ∧ poisonedRead s 0 (mmaReads s 0 e) = none
        ∧ (mmaExec (scratchReader s 0) (trapsNan aRun.numeric) (cellOf s 0) e).fault = none)
    ∧ (fetched 0x0000400B [] ∧ 0x0000400B % 128 = 0x0B ∧ arrayOp 0x0000400B = 4 ∧ arrayIssueFault 0x0000400B (arrayCfg []) false = none) := by
  unfold fetched ArrayTurn Fetches; refine ⟨?_, ?_, ?_, ?_, ?_, ?_, ?_⟩ <;> decide +kernel

/-- An R-type word of custom-1 (R157). -/
def vword (f7 rs2 rs1 f3 rd : Nat) : Nat := f7 * 2 ^ 25 + rs2 * 2 ^ 20 + rs1 * 2 ^ 15 + f3 * 2 ^ 12 + rd * 2 ^ 7 + 0x2B

/-- The vector instruction `w` stands at the head of the queue of cell 0. -/
def vturn (w rs1 rs2 group : Nat) : Prop := VectorTurn (cellLive Core.idle (vectorCell w rs1 rs2)) 0 aRun ⟨BitVec.ofNat 32 w, rs1, rs2, 1, 0, 0⟩ group

theorem witness_VectorLaneOperationsComplete :
    (∀ f7 ∈ [0x00, 0x01, 0x02, 0x03, 0x04, 0x05, 0x06, 0x08, 0x09, 0x0A, 0x0B, 0x0C, 0x10, 0x11, 0x12, 0x13, 0x14],
      vturn (vword f7 3 2 0 4) 0 0 0 ∧ bits (BitVec.ofNat 32 (vword f7 3 2 0 4)).toNat 31 25 = f7)
    ∧ vturn (vword 2 0 2 1 4) 0 0x3F800000 1 ∧ trapsNan aRun.numeric = false := by
  unfold vturn VectorTurn; decide +kernel

theorem witness_VectorRegisterReadsBack : ((List.range 128).map (fun l => l * 3)).length = 128 ∧ 2 ≠ 3 := by decide +kernel

theorem witness_VectorMovesComplete :
    (let w := vword 2 3 2 0 4;
      fetched w [] ∧ w % 128 = 0x2B ∧ coreCustom w = false ∧ vectorLegal w 1 = true ∧ (csrOf (coreWith w []) 0x8C0).toNat = 1
        ∧ (coreWith w []).stall ≠ .extract ∧ ¬(vecGroup w = 3 ∧ bits w 31 25 = 2))
    ∧ (let w := 0x0005212B; let s := cellLive Core.idle (vectorCell w 0x1000 0);
      vturn w 0x1000 0 2 ∧ bitOf w 25 = false ∧ 0x1000 % 64 = 0 ∧ inScratch 0x1000 (vmemBytes w) = true ∧ scratchPoison s 0 0x1000 (vmemBytes w) = none)
    ∧ (let w := 0x0E05A32B; vturn w 0x2000 0 2 ∧ bitOf w 25 = true ∧ inScratch 0x2000 (vmemBytes w) = true)
    ∧ (vturn 0x0E05A32B 0x2001 0 2 ∧ 0x2001 % 64 ≠ 0) ∧ (vturn 0x0005212B 0x1004 0 2 ∧ 0x1004 % 64 ≠ 0)
    ∧ (vturn (vword 0 0 2 3 4) 0 0 3 ∧ bits (vword 0 0 2 3 4) 31 25 = 0) ∧ (vturn (vword 1 0 2 3 4) 0 0 3 ∧ bits (vword 1 0 2 3 4) 31 25 = 1)
    ∧ (vturn (vword 2 1 2 3 5) 0 7 3 ∧ bits (vword 2 1 2 3 5) 31 25 = 2 ∧ bits (vword 2 1 2 3 5) 11 7 ≠ 0)
    ∧ (vturn (vword 3 1 2 3 5) 9 127 3 ∧ bits (vword 3 1 2 3 5) 31 25 = 3)
    ∧ vturn 0x8702632B 0 0 6 ∧ trapsNan aRun.numeric = false
    ∧ vturn (vword 3 0 2 5 0) 0x1234 0 5
    ∧ (fetched (vword 4 0 0 5 0) [] ∧ IsCustom (vword 4 0 0 5 0) 5 4) := by
  unfold fetched Fetches vturn VectorTurn IsCustom
  refine ⟨?_, ?_, ?_, ?_, ?_, ?_, ?_, ?_, ?_, ?_, ?_, ?_, ?_⟩ <;> decide +kernel

/-- The core that stands at `w`, its data memory as given. -/
def dmCore (w : Nat) (regs : KMap W64) (dm : Memory) : Core := { coreWith w regs with dm := dm }

/-- A breakpoint at EBREAK of the kernel of the run. -/
def ebreakPoint : Breakpoint := ⟨1, 1, 0xFF, 0xFF, 5, 0, 0, 0⟩

/-- A descriptor of R164: one row of 64 bytes from the scratchpad to window 0 of rank 0. -/
def aDescriptor : Bytes := toLe 8 0 ++ toLe 8 0 ++ toLe 2 1 ++ [9, 0] ++ toLe 4 64 ++ toLe 4 64 ++ toLe 4 64

theorem witness_CoreInstructionsComplete :
    (let w := 0x00500093; let c := coreWith w [];
      fetched w [] ∧ ¬(w % 128 = 0x73 ∧ bits w 31 20 = 0xC00) ∧ (waitCycles 0 w c live).1.pc = c.pc ∧ scalarReads c w = none
        ∧ (match scalarExec c (scratchReader (cellLive c Cell.reset) 0) 0 w 4 with
          | .retire k _ none => xget k 1 = 5 ∧ k.pc = 4
          | _ => False))
    ∧ fetched 0x73 [] ∧ fetched 0x100073 [] ∧ aRun.halt = .none
    ∧ (let c := coreWith 0x100073 []; let s := { cellLive c Cell.reset with dbg := { live.dbg with breaks := [ebreakPoint] } };
      Fetches s 0 aRun c ⟨0x100073, some 0x100073, 4⟩ 0x100073 ∧ s.dbg.breaks.find? (fun b => b.kind == 1 && b.handle == aRun.handle) = some ebreakPoint)
    ∧ (let w := vword 0 0 2 4 5; let c := dmCore w [(2, 0x10000)] (Memory.writeN [] 0x10000 aDescriptor); let s := cellLive c Cell.reset;
      Fetches s 0 aRun c ⟨w, some w, 4⟩ w ∧ IsCustom w 4 0 ∧ (xget c (bits w 19 15)).toNat % 8 = 0 ∧ coreSpace (xget c (bits w 19 15)).toNat 32 = some 0
        ∧ bits w 11 7 ≠ 0 ∧ dmaFault s aRun (Memory.readN c.dm 0x10000 32) (transferOf (Memory.readN c.dm 0x10000 32) 0 0 c.pc w) = none)
    ∧ (let w := vword 0 0 2 4 5; let c := coreWith w [(2, 0x10004)]; fetched w [(2, 0x10004)] ∧ IsCustom w 4 0 ∧ (xget c (bits w 19 15)).toNat % 8 ≠ 0)
    ∧ (fetched (vword 1 0 2 4 0) [] ∧ IsCustom (vword 1 0 2 4 0) 4 1) ∧ (fetched (vword 2 0 0 4 5) [] ∧ IsCustom (vword 2 0 0 4 5) 4 2)
    ∧ (let w := vword 0 0 2 5 0; let c := { coreWith w [] with stall := .released };
      Fetches (cellLive c Cell.reset) 0 aRun c ⟨w, some w, 4⟩ w ∧ IsCustom w 5 0)
    ∧ (let w := vword 0 0 2 5 0; let c := coreWith w [(2, 0x5FF)];
      fetched w [(2, 0x5FF)] ∧ c.stall = .none ∧ coreOf (cellLive c Cell.reset) 0 = c ∧ (xget c (bits w 19 15)).toNat < 2048
        ∧ bitOf (xget c (bits w 19 15)).toNat 10 = true)
    ∧ (let w := vword 0 0 2 5 0; let c := coreWith w [(2, 0x101)];
      fetched w [(2, 0x101)] ∧ c.stall = .none ∧ bitOf (xget c (bits w 19 15)).toNat 10 = false ∧ bitOf (bits (xget c (bits w 19 15)).toNat 7 0) (0 % 8) = true
        ∧ (∀ k ∈ maskCores (bits (xget c (bits w 19 15)).toNat 7 0), bitOf aRun.coreMask k = true)
        ∧ ∀ k, k < 8 → atBar (cellLive c Cell.reset) false (bits (xget c (bits w 19 15)).toNat 9 8) (0 / 8 * 8 + k) = false)
    ∧ (let w := vword 1 3 2 5 0; let g : KMap W64 := [(2, 0x1000), (3, 0x100000040)]; let c := coreWith w g;
      fetched w g ∧ IsCustom w 5 1 ∧ (xget c (bits w 19 15)).toNat % 64 = 0 ∧ bits (xget c (bits w 24 20)).toNat 31 0 % 64 = 0
        ∧ bits (xget c (bits w 24 20)).toNat 31 0 ≠ 0 ∧ (xget c (bits w 24 20)).toNat < 2 ^ 34
        ∧ inScratch (xget c (bits w 19 15)).toNat (bits (xget c (bits w 24 20)).toNat 31 0) = true)
    ∧ (fetched (vword 2 0 2 5 0) [] ∧ IsCustom (vword 2 0 2 5 0) 5 2) := by
  unfold fetched Fetches IsCustom
  refine ⟨⟨?_, ?_, ?_, ?_, ?_⟩, ?_, ?_, ?_, ?_, ?_, ?_, ?_, ?_, ?_, ?_, ?_, ?_, ?_⟩ <;> first | decide +kernel | skip
  show xget _ _ = _ ∧ _
  decide +kernel

/-- Words the spec writes out: MLD ZERO (R118), and the six instructions of "quantising one vector". -/
theorem test_written_out_words :
    arrayOp 0x0400100B = 1 ∧ bitOf 0x0400100B 26 = true
    ∧ vword 0 0 10 2 2 = 0x0005212B ∧ vword 0 0 5 2 3 = 0x0002A1AB ∧ vword 2 3 2 0 4 = 0x0431022B
    ∧ vmemBytes 0x0005212B = 512 ∧ vmemBytes 0x0E05A32B = 64 ∧ bitOf 0x0E05A32B 25 = true ∧ bits 0x0E05A32B 11 7 = 6
    ∧ vecGroup 0x8702632B = 6 ∧ bits 0x8702632B 11 7 = 6 ∧ bits 0x8702632B 19 15 = 4 ∧ vectorLegal 0x8702632B 1 = true := by decide +kernel

/-- `live` with tenant 2, and 1 MiB of Tier 1 of tenant 0. -/
def shared : State :=
  { live with
    sec := { live.sec with tenants := [(2, ⟨⟨[], []⟩, 0⟩)] }
    tiers := { live.tiers with allocs := [(tierBase 1, ⟨0x100000, 0, 1, true, false⟩)] } }

/-- Values as fields of the given lengths. -/
def fields (l : List (Nat × Nat)) : Bytes := l.flatMap (fun p => toLe p.1 p.2)

/-- Two commands in flight, the second as handle 1. -/
def withFlights (f g : Flight) (s : State) : State := { s with proto := { s.proto with flights := [f, g], nextSerial := 2 } }

/-- The parameters of a budget of tenant 2, and of its removal. -/
def budgetParams (flags w refill cap : Nat) : Bytes := fields [(2, 2), (1, flags), (1, 0), (4, w), (8, refill), (8, cap), (4, 0), (4, 0)]

/-- The parameters of a contract of tenant 2. -/
def contractParams : Bytes :=
  fields [(2, 2), (1, 1), (1, 0), (1, 1), (3, 0), (4, 900000), (4, 1000), (8, 1000000), (4, 1), (2, 0), (2, 0), (8, 1), (8, 0)]

/-- A contract of tenant 2. -/
def aContract : Contract := ⟨1, false, 1, 900000, 1000, 1000000, 1, 0, 1, 0, 0, 1, false, [⟨0, 1, 1, []⟩], 0⟩

theorem witness_SchedulingCommandsCommit :
    (let f := command .sharesSet (fields [(2, 1), (6, 0), (2, 2), (2, 4), (1, 1), (3, 0)]);
      shows sharesSetCommand shared f ∧ ∀ e ∈ shareEntries f, tenantExists shared e.1 = true)
    ∧ (let f := command .budgetSet (budgetParams 2 0 0 0);
      shows budgetCommand shared f ∧ budgetNone f = true ∧ tenantExists shared (par f 0 2) = true)
    ∧ (let f := command .budgetSet (budgetParams 1 1000 10 20);
      shows budgetCommand shared f ∧ budgetNone f = false ∧ tenantExists shared (par f 0 2) = true ∧ budgetOf (withFlight f shared) 2 = none)
    ∧ (let f := command .budgetSet (budgetParams 0 1000 10 20);
      let s := { shared with sched := { shared.sched with budgets := [(2, ⟨false, 1000, 10, 100, 0, 50, 1, 3⟩)] } };
      shows budgetCommand s f ∧ budgetNone f = false ∧ budgetOf (withFlight f s) 2 = some ⟨false, 1000, 10, 100, 0, 50, 1, 3⟩)
    ∧ (let f := command .contractSet (fields [(2, 2), (1, 0xFF), (45, 0)]);
      let s := { shared with sched := { shared.sched with contracts := [(2, aContract)] } };
      shows contractCommand s f ∧ contractDelete f = true ∧ (kget s.sched.contracts (par f 0 2)).isSome = true)
    ∧ (let f := command .contractSet contractParams;
      shows contractCommand shared f ∧ contractDelete f = false ∧ kget shared.sched.contracts 2 = none
        ∧ (demandWithout (withFlight f shared) 2 + par f 24 4 * par f 32 8) * 1000000 ≤ capacityPpm (withFlight f shared))
    ∧ (let f := command .contractSet contractParams;
      let s := { shared with sched := { shared.sched with contracts := [(2, aContract)] } };
      shows contractCommand s f ∧ contractDelete f = false ∧ (kget s.sched.contracts 2).isSome = true
        ∧ (demandWithout (withFlight f s) 2 + par f 24 4 * par f 32 8) * 1000000 ≤ capacityPpm (withFlight f s))
    ∧ shows accountReadCommand shared (command .accountRead (fields [(2, 2), (6, 0)]))
    ∧ shows powerCapCommand shared (command .powerCapSet (fields [(2, 800), (6, 0)]))
    ∧ shows statePolicyCommand shared (command .statePolicySet (fields [(4, 10), (4, 0), (2, 1), (1, 16), (1, 0), (1, 1), (3, 0)]))
    ∧ (let f := command .memberReset (fields [(1, 0), (3, 0), (4, 0)]); shows memberResetCommand shared f ∧ par f 0 1 = 0)
    ∧ (let f := command .memberReset (fields [(1, 1), (3, 0), (4, 60000)]); shows memberResetCommand shared f ∧ par f 0 1 = 1)
    ∧ shows roleSetCommand shared (command .roleSet (fields [(1, 3), (7, 0)])) ∧ shared.serve.requests = []
    ∧ shows configGetCommand shared (command .configGet (fields [(4, 1), (4, 0)])) := by
  unfold shows Ready Here
  refine ⟨?_, ?_, ?_, ?_, ?_, ?_, ?_, ?_, ?_, ?_, ?_, ?_, ?_, ?_, ?_⟩ <;> decide +kernel

/-- A run of kernel 5 by the command 88 of handle 1, in the state given. -/
def runLive (halt : HaltState) : State :=
  { shared with
    power := { shared.power with quadrants := [(0, ⟨.active, false, 0, 0, none⟩)] }
    compute := { Compute.reset with
      cores := [(0, { Core.idle with life := .running, stopped := true })]
      kernels := [(5, ⟨0, zeros 64, [], 0⟩)]
      runs := [⟨1, 0, 0, 88, 5, [0], 1, 0, [], [], NumCounts.zero, [], halt, none, none, []⟩] } }

/-- The KERNEL_RUN in flight as handle 1. -/
def running1 : Flight :=
  { command .kernelRun (fields [(4, 5), (2, 0), (1, 1), (1, 0), (8, 0), (4, 1), (4, 0), (8, 0), (8, 0)]) with
    serial := 1
    hdr := { plainHeader with commandId := 88 }
    running := true }

/-- The block of R571 for core 0 of cell rank 0 of command 88. -/
def targetParams (core mask : Nat) : Bytes := fields [(1, 0), (1, core), (1, mask), (1, 0), (4, 0), (8, 88)]

/-- The same as `shows`, with the KERNEL_RUN in flight. -/
def showsRun (c : Command) (s : State) (f : Flight) : Prop := Ready c (withFlights f running1 s) 0 f ∧ Here (withFlights f running1 s) f

/-- `live` with the debug facilities of the device unlocked. -/
def unlocked : State := { live with sec := { live.sec with debug := true } }

theorem witness_DebugCommandsComplete :
    shows breakSetCommand (runLive .none) (command .breakSet (fields [(1, 0), (1, 7), (1, 0xFF), (1, 0), (4, 5), (8, 62), (2, 4095), (6, 0)]))
    ∧ shows breakClearCommand live (command .breakClear (fields [(4, 0xFFFFFFFF), (4, 0)]))
    ∧ (let f := command .halt (targetParams 0 0); let s := withFlights f running1 (runLive .none);
      showsRun haltCommand (runLive .none) f ∧ par f 0 1 = 0 ∧ targetFlight s f = some running1 ∧ (runOf s 1).map (·.halt) = some .none)
    ∧ (let f := command .halt (targetParams 0 0); let s := withFlights f running1 shared;
      showsRun haltCommand shared f ∧ par f 0 1 = 0 ∧ targetFlight s f = some running1 ∧ runOf s 1 = none)
    ∧ (let f := command .halt (targetParams 0 0); let s := withFlights f running1 (runLive (.draining none));
      showsRun haltCommand (runLive (.draining none)) f ∧ par f 0 1 = 0 ∧ targetFlight s f = some running1 ∧ (runOf s 1).map (·.halt) = some (.draining none))
    ∧ (let f := command .halt (targetParams 0 0); let s := withFlights f running1 (runLive .halted);
      showsRun haltCommand (runLive .halted) f ∧ par f 0 1 = 0 ∧ targetFlight s f = some running1 ∧ (runOf s 1).map (·.halt) = some .halted)
    ∧ (let f := command .halt (fields [(1, 1), (1, 0), (1, 0xFE), (1, 0), (12, 0)]); shows haltCommand unlocked f ∧ par f 0 1 = 1)
    ∧ (let f := command .resume (targetParams 0 0); let s := withFlights f running1 (runLive .halted);
      showsRun resumeCommand (runLive .halted) f ∧ par f 0 1 = 0 ∧ (targetRun s f).map (·.halt) = some .halted)
    ∧ (let f := command .resume (targetParams 0 0); let s := withFlights f running1 (runLive .none);
      showsRun resumeCommand (runLive .none) f ∧ par f 0 1 = 0 ∧ (targetRun s f).map (·.halt) = some .none)
    ∧ (let f := command .resume (fields [(1, 1), (1, 0), (1, 0xFE), (1, 0), (12, 0)]); shows resumeCommand unlocked f ∧ par f 0 1 = 1)
    ∧ (let f := command .step (fields [(1, 1), (1, 7), (14, 0)]); shows stepCommand { unlocked with dbg := { unlocked.dbg with isobarHalted := [7] } } f ∧ par f 0 1 = 1)
    ∧ (let f := command .step (targetParams 0 0); let s := withFlights f running1 (runLive .halted);
      showsRun stepCommand (runLive .halted) f ∧ par f 0 1 = 0 ∧ (targetRun s f).isSome = true)
    ∧ (∀ k ∈ [(0, 0, 0), (1, 0, 0), (2, 127, 1), (3, 0, 64), (4, 65472, 64)],
      let f := command .stateRead (targetParams 0 0 ++ fields [(1, k.1), (3, 0), (4, k.2.1), (4, k.2.2), (4, 0)]);
      showsRun stateReadCommand (runLive .halted) f ∧ par f 0 1 = 0 ∧ par f 16 1 = k.1 ∧ (targetRun (withFlights f running1 (runLive .halted)) f).isSome = true)
    ∧ (let f := command .stateRead (fields [(1, 1), (1, 7), (14, 0), (1, 5), (15, 0)]);
      shows stateReadCommand { unlocked with dbg := { unlocked.dbg with isobarHalted := [7] } } f ∧ par f 0 1 = 1)
    ∧ shows trackReadCommand live (command .trackRead (fields [(2, 0xBF), (2, 256), (4, 0)]))
    ∧ (∀ k ∈ [0, 1, 2, 3], let f := command .gaugeSet (fields [(2, 0), (1, 63), (1, k), (4, 0)]); shows gaugeCommand live f ∧ par f 3 1 = k)
    ∧ Ready histogramReadCommand (withFlight (command .histogramRead (fields [(2, 0), (1, 12), (1, 2), (4, 1000000)])) live) 0
        (command .histogramRead (fields [(2, 0), (1, 12), (1, 2), (4, 1000000)]))
    ∧ shows faultLogReadCommand live (command .faultLogRead (fields [(4, 0), (2, 64), (2, 0)]))
    ∧ shows sensorsReadCommand live (command .sensorsRead (zeros 8))
    ∧ (∀ k ∈ [0, 5, 6], let f := command .countersRead (fields [(1, k), (1, 0), (2, 0), (4, 0)]); shows countersReadCommand live f ∧ par f 0 1 = k) := by
  unfold shows showsRun Ready Here
  refine ⟨?_, ?_, ?_, ?_, ?_, ?_, ?_, ?_, ?_, ?_, ?_, ?_, ?_, ?_, ?_, ?_, ?_, ?_, ?_, ?_⟩ <;> decide +kernel

/-- The cell item of a run of layers that works for handle 0 and holds cell 0. -/
def anItem : WorkItem := ⟨4, 0, 0, 1, 4, 0, 0, 77, 0, none, 1, 1, false, 0, [0], 0, 0, false, []⟩

/-- `live` with quadrant 0 as given. -/
def quadLive (q : Quadrant) : State := { live with power := { live.power with quadrants := [(0, q)] } }

theorem witness_SchedulingEventsTakeEffect :
    (live.power.fwReady = true ∧ live.sched.lastPoint + 100000 ≤ (advance 1000000000 live).frontTime)
    ∧ (15 < 16 ∧ (quadrantOf (quadLive ⟨.frost, true, 0, 0, none⟩).power 0).thawing = true)
    ∧ (let s := { quadLive ⟨.active, false, 0, 0, none⟩ with power := { (quadLive ⟨.active, false, 0, 0, none⟩).power with policy := ⟨10, 0, 1, 0, 0, 0⟩ } };
      (frostOrder (advance 1000000000 s)).head? = some 0 ∧ thawTarget (advance 1000000000 s) < (quadrantsIn s.power .active).length)
    ∧ (let s := { live with power := { live.power with policy := ⟨10, 1, 1, 0, 0, 0⟩ } };
      (quadrantOf s.power 0).state = .frost ∧ (quadrantOf s.power 0).thawing = false ∧ s.power.policy.deepAfterMs ≠ 0
        ∧ (quadrantOf s.power 0).since + s.power.policy.deepAfterMs * 1000000 ≤ (advance 1000000000 s).frontTime)
    ∧ (∀ d ∈ [26, 27, 32, 33], live.power.conversion = true ∧ live.power.gated.contains d = false
      ∧ kgetD live.power.hubLast d live.power.readyAt + 100000 ≤ (advance 1000000000 live).frontTime)
    ∧ (let s := { live with sched := { live.sched with budgets := [(2, ⟨false, 1000, 10, 100, 0, 50, 0, 3⟩)] } };
      budgetOf (advance 1000000000 s) 2 = some ⟨false, 1000, 10, 100, 0, 60, 1, 0⟩)
    ∧ (let s := { live with sched := { live.sched with contracts := [(2, aContract)] } };
      kget s.sched.contracts 2 = some aContract ∧ aContract.windows.find? (fun y => y.index == 0) = some ⟨0, 1, 1, []⟩
        ∧ 0 < windowIndex aContract.windowMs s.frontTime)
    ∧ (let s := runLive (.draining none); (runOf s 1).map (·.halt) = some (.draining none) ∧ (∀ r ∈ runOf s 1, runBusy s r = false) ∧ s.dbg.haltWaits = [])
    ∧ (let s := runLive (.stepping 0 9);
      (s.compute.runs.find? (fun r => match r.halt with | .stepping _ x => x == 9 | _ => false)).map (·.halt) = some (.stepping 0 9))
    ∧ (let s0 := runLive .none;
      let s := { s0 with compute := { s0.compute with cores := [(0, { Core.idle with life := .running, stall := .bar true 0 0 })] } };
      (∀ r ∈ runOf s 1, r.halt = .none ∧ r.transfers = [] ∧ runHarts r = [0]) ∧ (runOf s 1).isSome = true
        ∧ (coreOf s 0).stall = .bar true 0 0 ∧ (coreOf s 0).life = .running) := by
  refine ⟨?_, ?_, ?_, ?_, ?_, ?_, ?_, ?_, ?_, ?_⟩ <;> decide +kernel

/-- The state that a search for frames leaves where it finds them. -/
def roomLeft (r : Room) : Option State := match r with
  | .found s => some s
  | _ => none

/-- A kernel image of R174: four bytes of text, none of data, entry 0. -/
def anImage : Bytes := toLe 4 0x4B4E4156 ++ toLe 2 1 ++ zeros 2 ++ toLe 4 4 ++ toLe 4 0 ++ toLe 4 0 ++ zeros 12 ++ toLe 4 0x73

/-- `shared` with bytes at the start of Tier 1. -/
def withBytes (b : Bytes) : State := { shared with mem := Memory.writeN shared.mem (tierBase 1) b }

/-- A layer of R180 in BF16: 1 row, 16 columns, K 32, its operands in the first MiB of Tier 1. -/
def aLayer : Bytes :=
  fields [(4, 0xFFFFFFFF), (4, 1), (4, 16), (4, 32), (8, tierBase 1), (8, tierBase 1 + 0x1000), (8, tierBase 1 + 0x8000), (8, 0), (8, 0), (8, 0),
    (8, 0), (4, 128), (4, 128), (4, 64), (1, 1), (1, 1), (1, 0), (1, 0), (1, 1), (7, 0), (64, 0), (2, 0), (30, 2 ^ 240 - 1)]

/-- The parameters of a LAYER_RUN of that layer. -/
def layerParams : Bytes := fields [(2, 1), (2, 0), (2, 0), (2, 0), (8, 0), (8, 0), (8, 0)] ++ aLayer

/-- The command LAYER_RUN in flight and begun. -/
def layerFlight : Flight := { command .layerRun layerParams with running := true }

/-- Its run of layers: the layer reached. -/
def aJob (layer : Nat) : LayerJob := ⟨0, 0, layer, 0, [], [], [], [], none, []⟩

/-- A transfer from the tiers to the scratchpad, and one to window 0 of rank 0. -/
def anXfer (dst dstKind xpose : Nat) : Transfer := ⟨0, 3, 0, 0, if dstKind = 2 then 0 else tierBase 1, dst, if dstKind = 2 then 1 else 0, dstKind, 1, 64, 64, 64, xpose⟩

/-- A state with a transfer under way. -/
def xferLive (t : Transfer) (x : Cell) : State :=
  { cellLive Core.idle x with compute := { (cellLive Core.idle x).compute with runs := [{ aRun with transfers := [t] }] } }

theorem witness_KernelAndLayerCommandsComplete :
    shows kernelLoadCommand (withBytes anImage) (command .kernelLoad (fields [(8, tierBase 1), (4, 36), (4, 0)]))
    ∧ (let f := { running1 with serial := 0, running := false }; shows kernelRunCommand (runLive .none) f ∧ (kget (runLive .none).compute.kernels (par f 0 4)).isSome = true)
    ∧ (let f := command .layerRun layerParams; let s := withFlight f shared;
      shows layerRunCommand shared f ∧ (roomLeft (findFrames (some 0) 0 (layerShadow s f).length s)).isSome = true)
    ∧ shows chainDefineCommand live (command .chainDefine (zeros 16))
    ∧ (let f := { running1 with serial := 0 };
      let s0 := runLive .none;
      let s := withFlight f { s0 with compute := { s0.compute with
        cores := [(0, { Core.idle with life := .ended })]
        runs := s0.compute.runs.map (fun r => { r with serial := 0 }) } };
      flightOf s 0 = some f ∧ f.prep = none ∧ (runOf s 0).isSome = true ∧ (∀ r ∈ runOf s 0, runComplete s r = true ∧ r.voted = none
        ∧ overSatLimit r.numeric r.counts.sat = false ∧ (match kernelApply f r 5 s with | .done _ => true | _ => false) = true))
    ∧ (let s := withFlight layerFlight { shared with compute := { shared.compute with jobs := [aJob 1] } };
      flightOf s 0 = some layerFlight ∧ layerFlight.prep = none ∧ s.compute.jobs.find? (fun j => j.serial == 0) = some (aJob 1)
        ∧ par layerFlight 0 2 ≤ 1 ∧ s.sched.items = []
        ∧ (match jobResult s layerFlight (aJob 1) 1 with
          | .ok x => !overSatLimit (par layerFlight 8 8) x.counts.sat && (match layerApply layerFlight 0 x s with | .done _ => true | _ => false)
          | .error _ => false) = true)
    ∧ (transferAt (xferLive (anXfer 0x1000 1 0) Cell.reset) 0 3).map (·.2) = some (anXfer 0x1000 1 0)
    ∧ ((transferAt (xferLive (anXfer 0 2 0) Cell.reset) 0 3).map (·.2) = some (anXfer 0 2 0) ∧ kget Cell.reset.windows 0 = none)
    ∧ ((transferAt (xferLive (anXfer 0 2 4) { Cell.reset with windows := [(0, ⟨0x1000, 1024⟩)] }) 0 3).map (·.2) = some (anXfer 0 2 4)
      ∧ dstExtent 4 1 64 64 ≤ 1024
      ∧ scratchPoison (xferLive (anXfer 0 2 4) { Cell.reset with windows := [(0, ⟨0x1000, 1024⟩)] }) 0 0 (srcExtent 1 64 64) = none)
    ∧ (transferAt (xferLive (anXfer 0 2 0) { Cell.reset with windows := [(0, ⟨0x1000, 1024⟩)] }) 0 3).map (·.2) = some (anXfer 0 2 0)
    ∧ (let f := command .selectTopk (zeros 88); let s := withFlight f live;
      flightOf s 0 = some f ∧ f.op ≠ .kernelRun ∧ f.op ≠ .layerRun ∧ deadlineAt f = some 80 ∧ deadlineOf f 80 ≤ (advance 2000000000 s).frontTime)
    ∧ (let f := { running1 with serial := 0 }; let s := withFlight f live;
      flightOf s 0 = some f ∧ f.op = .kernelRun ∧ f.running = true ∧ runOf s 0 = none ∧ deadlineOf f 32 ≤ (advance 2000000000 s).frontTime)
    ∧ (let s := withFlight { layerFlight with params := fields [(16, 0), (8, 1)] ++ zeros 200 } live;
      (flightOf s 0).map (·.op) = some .layerRun ∧ ∀ f ∈ flightOf s 0, deadlineOf f 16 ≤ (advance 2000000000 s).frontTime)
    ∧ (let s := withFlight layerFlight { shared with
        sched := { shared.sched with items := [anItem] }
        compute := { shared.compute with jobs := [aJob 0] } };
      s.sched.items.find? (fun x => x.id == 4) = some anItem ∧ flightOf s 0 = some layerFlight ∧ s.compute.jobs.find? (fun j => j.serial == 0) = some (aJob 0)
        ∧ ((layersOf layerFlight).getD 0 (layerAt [] 0)).group.length ≤ 1 ∧ ((layersOf layerFlight).getD 0 (layerAt [] 0)).paired = false
        ∧ par layerFlight 0 2 ≤ 1 ∧ (layersOf layerFlight).length ≤ 1
        ∧ (match sendPartials layerFlight (aJob 0) 0 (advance 1000000000 s) with
          | .ok s1 => s1.compute.jobs.any (fun j => j.serial == 0)
          | .error _ => false) = true) := by
  unfold shows Ready Here
  refine ⟨?_, ?_, ?_, ?_, ?_, ?_, ?_, ?_, ?_, ?_, ?_, ?_, ?_, ?_⟩ <;> decide +kernel

/-- `shared` with 16 pages of Tier 2 allocated to tenant 0, their first page resident as given. -/
def paged (x : Option HomePage) : State :=
  { shared with tiers := { shared.tiers with
      pool := [16, 0, 0, 0]
      quotas := [(0, ⟨16, 0x200000, 1024, 1024⟩)]
      allocs := shared.tiers.allocs ++ [(tierBase 2, ⟨0x100000, 0, 2, true, false⟩)]
      pages := match x with
        | some p => [(tierBase 2 / 65536, p)]
        | none => [] } }

/-- A resident page. -/
def aPage (st : PageState) (mover : Option Nat) : HomePage :=
  { state := st, die := 0, tenant := 0, pinned := false, resident := true, toClean := false, access := 0, home := [], mover := mover, moved := false }

/-- The parameters of RESIDE, DEMOTE and FLUSH for one page of Tier 2. -/
def pageParams (die : Nat) : Bytes := fields [(8, tierBase 2), (4, 1), (1, 0), (1, die), (2, 0)]

/-- The outcome of a commit of writes is that they are made. -/
def written (c : CommitOutcome) : Bool := match c with
  | .done _ => true
  | _ => false

/-- The parameters of MEM_COPY: two rows of 64 bytes within Tier 1. -/
def copyParams (xpose : Nat) : Bytes :=
  fields [(8, tierBase 1), (8, tierBase 1 + 0x4000), (4, 2), (4, 64), (4, 64), (4, 128), (1, xpose), (7, 0)]

theorem witness_MemoryCommandsComplete :
    shows memAllocCommand (paged none) (command .memAlloc (fields [(1, 2), (1, 1), (1, 0xFF), (5, 0), (8, 0x10000)]))
    ∧ (let f := command .memFree (fields [(8, tierBase 1)]); let s := withFlight f shared;
      shows memFreeCommand shared f ∧ (kget s.tiers.allocs (par f 0 8)).isSome = true ∧ (∀ g ∈ s.proto.flights, ¬ g.serial < f.serial) ∧ s.compute.runs = [])
    ∧ (let f := command .memCopy (copyParams 3); let s := withFlight f shared;
      shows memCopyCommand shared f ∧ par f 32 1 ≠ 0
        ∧ (roomLeft (findFrames (some 0) 0 (unitsTouched 65536 (moveRuns (memRead s) (par f 0 8) (par f 8 8) 2 64 64 128 3)).length s)).any (fun s0 =>
          (readsFail s0 ((List.range (par f 16 4)).map (fun r => (par f 0 8 + r * par f 24 4, par f 20 4)))).isNone
          && written (commitWrites (some 0) 0 (moveRuns (memRead s) (par f 0 8) (par f 8 8) 2 64 64 128 3) 0 s0)) = true)
    ∧ (let f := command .memCopy (copyParams 0); let s := withFlight f shared;
      shows memCopyCommand shared f ∧ par f 32 1 = 0
        ∧ (roomLeft (findFrames (some 0) 0 (unitsTouched 65536 ((List.range 2).map (fun r => (par f 8 8 + r * 128, memRead s (par f 0 8 + r * 64) 64)))).length
            s)).any (fun s0 => s0.tiers.poisoned.isEmpty && s0.tiers.badTags.isEmpty
          && written (commitWrites (some 0) 0 ((List.range 2).map (fun r => (par f 8 8 + r * 128, memRead s (par f 0 8 + r * 64) 64))) 0 s0)) = true)
    ∧ (let f := command .memFill (fields [(8, tierBase 1), (8, 128), (8, 0x1122334455667788)]); let s := withFlight f shared;
      shows memFillCommand shared f ∧ written (commitWrites (some 0) 0 [(par f 0 8, (List.range 16).flatMap (fun _ => slice f.params 16 8))] 0 s) = true)
    ∧ (let f := command .reside (pageParams 0xFF); let s := withFlight f (paged (some (aPage .clean none)));
      shows resideCommand (paged (some (aPage .clean none))) f ∧ (∀ p ∈ namedPages f, pageMoving s p = false ∧ (kget s.tiers.pages p).isSome = true)
        ∧ (roomLeft (findFrames (some 0) 0 0 s)).isSome = true)
    ∧ (let f := command .reside (pageParams 0xFF); let s := withFlight f (paged none);
      shows resideCommand (paged none) f ∧ bitOf (par f 12 1) 1 = false ∧ (∀ p ∈ namedPages f, kget s.tiers.pages p = none) ∧ par f 13 1 = 0xFF
        ∧ (roomLeft (findFrames (some 0) 0 (namedPages f).length s)).any (fun s1 =>
          tierFull s1.tiers f.tenant ((tierAt s.tiers (par f 0 8)).getD 2) 64 == none) = true)
    ∧ (let x := aPage .clean none;
      (∀ f ∈ [command .demote (pageParams 0xFF), command .flush (pageParams 0xFF)], ∀ p ∈ namedPages f,
        pageMoving (withFlight f (paged (some x))) p = false ∧ kget (paged (some x)).tiers.pages p = some x ∧ x.state ≠ .dirty)
      ∧ shows demoteCommand (paged (some x)) (command .demote (pageParams 0xFF)) ∧ shows flushCommand (paged (some x)) (command .flush (pageParams 0xFF)))
    ∧ (let x := aPage .dirty none; let p := tierBase 2 / 65536;
      (∀ f ∈ [command .demote (pageParams 0xFF), command .flush (pageParams 0xFF)],
        pageMoving (withFlight f (paged (some x))) p = false ∧ kget (paged (some x)).tiers.pages p = some x ∧ namedPages f = [p] ∧ bitOf (par f 12 1) 0 = false)
      ∧ shows demoteCommand (paged (some x)) (command .demote (pageParams 0xFF)) ∧ shows flushCommand (paged (some x)) (command .flush (pageParams 0xFF)))
    ∧ shows tierStatsCommand shared (command .tierStats (fields [(2, 0), (6, 0)])) := by
  unfold shows Ready Here
  refine ⟨?_, ?_, ?_, ?_, ?_, ?_, ?_, ?_, ?_, ?_⟩ <;> decide +kernel

theorem witness_AllocationsDoNotOverlap :
    memAllocCommand.check (paged none) (command .memAlloc (fields [(1, 1), (1, 0), (1, 3), (5, 0), (8, 0x10000)])) = none := by decide +kernel

theorem witness_TierEventsTakeEffect :
    (let f := command .memCopy (copyParams 0); let s := withFlight f shared;
      flightOf s 0 = some f ∧ tierAt s.tiers (tierBase 1) = some 1 ∧ stallTooLong s.tiers 1 1000000 = false ∧ stallTooLong s.tiers 1 1000001 = true
        ∧ tierAt s.tiers (tierBase 2) = some 2 ∧ stallTooLong s.tiers 2 2000000 = false ∧ stallTooLong s.tiers 2 2000001 = true ∧ deadlineAt f = none
        ∧ specAccess s f (tierBase 1) = false)
    ∧ (let x := aPage .filling (some 0); let f := { command .reside (pageParams 0xFF) with running := true }; let s := withFlight f (paged (some x));
      kget s.tiers.pages (tierBase 2 / 65536) = some x ∧ x.mover = some 0 ∧ flightOf s 0 = some f ∧ readFails s (tierBase 2) 65536 = none)
    ∧ kget (paged (some (aPage .writing none))).tiers.pages (tierBase 2 / 65536) = some (aPage .writing none)
    ∧ kget (paged (some (aPage .writing (some 0)))).tiers.pages (tierBase 2 / 65536) = some (aPage .writing (some 0)) := by
  refine ⟨?_, ?_, ?_, ?_⟩ <;> decide +kernel

/-- The checks of a list all pass. -/
theorem firstFail_passes (l : List (Bool × Status × Nat)) (h : ∀ x ∈ l, x.1 = false) : firstFail l = none := by
  induction l with
  | nil => rfl
  | cons x l ih =>
    obtain ⟨b, st, d⟩ := x
    have hb : b = false := h (b, st, d) (by simp)
    subst hb
    exact ih (fun y hy => h y (by simp [hy]))

/-- A command at its entry passes the checks of its opcode. -/
theorem entryCommand_check (c : Command) (s : State) (f : Flight) (h1 : firstFail [scopeHasEntry s f] = none) (h2 : c.check s f = none) :
    (entryCommand c).check s f = none := by
  simp [entryCommand, h1, h2, lengthFault]

/-- A session of tenant 0. -/
def aSession : Session := ⟨7, 0, 0, [], 1, [], 0, 0, false⟩

/-- `shared` with that session open. -/
def opened : State := { shared with proto := { shared.proto with sessions := [(7, aSession)] } }

/-- The base point of P-384 as 97 bytes. -/
def basePoint : Bytes := [4] ++ toBe 48 p384Base.1 ++ toBe 48 p384Base.2

/-- SESSION_OPEN for tenant 2 with the base point and an ML-KEM key of zeros; its signatures are zeros. -/
def openFlight : Flight := command .sessionOpen (fields [(2, 2)] ++ (zeros 38 ++ (basePoint ++ zeros 6303)))

theorem openFlight_keys : p384Valid (slice openFlight.params 40 97) = true ∧ mlkemValid (slice openFlight.params 144 1568) = true := by
  decide +kernel

theorem flightOf_withFlight (f : Flight) (s : State) (h : f.serial = 0) : flightOf (withFlight f s) 0 = some f := by
  simp [flightOf, withFlight, h]

/-- `shared` with that command in flight. -/
def openState : State := withFlight openFlight shared

theorem openFlight_scope : ∀ x ∈ [scopeHasEntry openState openFlight], x.1 = false := by decide +kernel

theorem openFlight_fields :
    openKeys openState openFlight = some ⟨[], []⟩ ∧ opensOperator openState openFlight = false ∧ par openFlight 0 2 = 2
    ∧ (lengthIs openFlight 6440).1 = false ∧ (reservedZero openFlight 2 6).1 = false ∧ (reservedZero openFlight 137 7).1 = false
    ∧ (reservedZero openFlight 6435 5).1 = false ∧ openState.proto.sessions.length = 0 ∧ openState.sec.debug = false ∧ openState.sec.entropyFailed = false := by
  decide +kernel

theorem sessionOpenCommand_check : sessionOpenCommand.check = sessionOpenCheck := rfl

theorem openFlight_check
    (h3 : hybridVerify ⟨[], []⟩ (mOpen openState openFlight) (slice openFlight.params 1712 96) (slice openFlight.params 1808 4627) = true) :
    sessionOpenCommand.check openState openFlight = none := by
  obtain ⟨e1, e2, e3, e4, e5, e6, e7, e8, e9, e10⟩ := openFlight_fields
  obtain ⟨h1, h2⟩ := openFlight_keys
  rw [sessionOpenCommand_check, sessionOpenCheck]
  apply firstFail_passes
  simp only [e1, e2, h1, h2, h3, e8, e9, e10]
  simpa [badParamIf, failIf] using ⟨e4, e5, e6, e7⟩

theorem openFlight_ready
    (h3 : hybridVerify ⟨[], []⟩ (mOpen openState openFlight) (slice openFlight.params 1712 96) (slice openFlight.params 1808 4627) = true) :
    Ready (entryCommand sessionOpenCommand) openState 0 openFlight := by
  have a1 : flightOf openState 0 = some openFlight := flightOf_withFlight _ _ rfl
  have a2 : mayRun openState openFlight = true := by decide +kernel
  have a3 : (entryCommand sessionOpenCommand).check openState openFlight = none :=
    entryCommand_check _ _ _ (firstFail_passes _ openFlight_scope) (openFlight_check h3)
  have a4 : ((entryCommand sessionOpenCommand).changes && lockedAny openState ((entryCommand sessionOpenCommand).writes openState openFlight)) = false := by
    decide +kernel
  have a5 : openFlight.op = (entryCommand sessionOpenCommand).op := by decide +kernel
  have a6 : openFlight.hdr.inTxn = false := by decide +kernel
  exact ⟨a1, a5, a2, a6, rfl, a3, a4, rfl⟩

/-- What ML-DSA verifies, the device's UID and its certificates are opaque in this model (log entries 5, 11), so these witnesses take that the signatures verify and that there are certificates. -/
theorem witness_SessionsOpenAndClose :
    (hybridVerify ⟨[], []⟩ (mOpen openState openFlight) (slice openFlight.params 1712 96) (slice openFlight.params 1808 4627) = true →
      Ready (entryCommand sessionOpenCommand) openState 0 openFlight)
    ∧ (let f := { command .sessionClose (zeros 8) with hdr := { plainHeader with sessionId := 7, paramLen := 8 } }; let s := withFlight f opened;
      flightOf s 0 = some f ∧ f.op = .sessionClose ∧ mayRun s f = true ∧ firstFail [lengthIs f 8, reservedZero f 0 8, scopeHasEntry s f] = none
        ∧ (beginClose 7 s).proto.flights = [f])
    ∧ shows attestCommand live (command .attestReport (zeros 104))
    ∧ (let f := command .attestReport (fields [(4, 1)] ++ zeros 100); 0 < Config.certChains.length → shows attestCommand live f ∧ par f 0 1 = 1) := by
  refine ⟨openFlight_ready, by decide +kernel, by unfold shows Ready Here; decide +kernel, ?_⟩
  · intro f h
    refine ⟨⟨⟨rfl, rfl, by decide +kernel, rfl, rfl, ?_, rfl, rfl⟩, by unfold Here; decide +kernel⟩, by decide +kernel⟩
    apply firstFail_passes
    have hp : (rangeIf (par f 0 1 == 1 && decide (Config.certChains.length ≤ par f 4 4)) 4).1 = false := by
      have h0 : par f 4 4 = 0 := by decide +kernel
      simp only [rangeIf, h0]
      simpa using fun _ => List.length_pos_iff.mp h
    intro x hx
    simp only [List.mem_cons, List.not_mem_nil, or_false] at hx
    rcases hx with rfl | rfl | rfl | rfl | rfl | rfl <;> first | exact hp | decide +kernel

/-- TENANT_CREATE of tenant 3. -/
def createFlight : Flight := command .tenantCreate (fields [(2, 3)] ++ (zeros 6 ++ (basePoint ++ zeros 2599)))

theorem createFlight_fields :
    let s := withFlight createFlight shared
    (lengthIs createFlight 2704).1 = false ∧ (reservedZero createFlight 2 6).1 = false ∧ (reservedZero createFlight 105 7).1 = false
    ∧ (par createFlight 0 2 == 0 || khas s.sec.tenants (par createFlight 0 2)) = false ∧ s.sec.tenants.length = 1 ∧ s.sec.debug = false
    ∧ s.sec.entropyFailed = false ∧ mayRun s createFlight = true ∧ scopeModules s createFlight.hdr = [s.fabric.view.self]
    ∧ (tenantCreateCommand.changes && lockedAny s (tenantCreateCommand.writes s createFlight)) = false := by decide +kernel

theorem tenantCreateCommand_check (s : State) (f : Flight) :
    tenantCreateCommand.check s f = firstFail ([
      lengthIs f 2704, badParamIf (par f 0 2 == 0 || khas s.sec.tenants (par f 0 2)) 0 ] ++ blockChecks f 0 ++ [
      failIf (decide (4096 ≤ s.sec.tenants.length)) .tableFull 0, failIf s.sec.debug .locked 0, failIf s.sec.entropyFailed .internalFault 0]) := rfl

theorem createFlight_shows : shows tenantCreateCommand shared createFlight := by
  have h : p384Valid (slice createFlight.params 8 97) = true := by decide +kernel
  obtain ⟨e1, e2, e3, e4, e5, e6, e7, e8, e9, e10⟩ := createFlight_fields
  refine ⟨⟨flightOf_withFlight _ _ rfl, rfl, e8, rfl, rfl, ?_, e10, rfl⟩, Or.inr e9⟩
  rw [tenantCreateCommand_check]
  apply firstFail_passes
  simp only [e4, e5, e6, e7, blockChecks, Nat.zero_add, h]
  simpa [badParamIf, failIf] using ⟨e1, e2, e3⟩

/-- DEBUG_AUTHORIZE with a token of zeros. -/
def debugFlight : Flight := command .debugAuthorize (zeros 4792)

theorem debugFlight_fields :
    let s := withFlight debugFlight shared
    (lengthIs debugFlight 4792).1 = false ∧ (reservedZero debugFlight 4 4).1 = false ∧ (reservedZero debugFlight 24 40).1 = false
    ∧ (reservedZero debugFlight 4787 5).1 = false ∧ mayRun s debugFlight = true ∧ scopeModules s debugFlight.hdr = [s.fabric.view.self]
    ∧ (debugAuthorizeCommand.changes && lockedAny s (debugAuthorizeCommand.writes s debugFlight)) = false
    ∧ (kkeys s.sec.tenants).any (commitsFor s) = false := by decide +kernel

theorem debugAuthorizeCommand_check (s : State) (f : Flight) :
    debugAuthorizeCommand.check s f = firstFail [lengthIs f 4792, reservedZero f 4 4, reservedZero f 24 40, reservedZero f 4787 5,
      failIf (!tokenGood s f) .authFail 0] := rfl

/-- A token that is good: its fields and both signatures are what R473 asks, of which the device's UID and keys are opaque. -/
theorem debugFlight_shows (f : Flight) (hp : lengthIs f 4792 = lengthIs debugFlight 4792) (h : tokenGood (withFlight f shared) f = true)
    (hs : f.serial = 0) (hn : f.prep = none) (ho : f.op = .debugAuthorize) (ht : f.hdr = debugFlight.hdr) (hr : mayRun (withFlight f shared) f = true)
    (h1 : (reservedZero f 4 4).1 = false) (h2 : (reservedZero f 24 40).1 = false) (h3 : (reservedZero f 4787 5).1 = false) :
    shows debugAuthorizeCommand shared f := by
  obtain ⟨e1, e2, e3, e4, e5, e6, e7, e8⟩ := debugFlight_fields
  refine ⟨⟨flightOf_withFlight _ _ hs, ho, hr, by rw [ht]; rfl, hn, ?_, rfl, rfl⟩, Or.inr (by rw [ht]; exact e6)⟩
  rw [debugAuthorizeCommand_check]
  apply firstFail_passes
  simpa [failIf, h, hp] using ⟨e1, h1, h2, h3⟩

/-- A transfer key in slot 1 of tenant 0. -/
def keyed : State := { shared with sec := { shared.sec with keySlots := [(1, ⟨5, 9⟩)] } }

/-- KEY_INSTALL by the kind of its operation, of 64 KiB at the start of Tier 1. -/
def keyFlight (kind : Nat) : Flight :=
  command .keyInstall (fields [(1, kind), (1, 1), (6, 0)] ++ if kind = 0 then zeros 32 else fields [(8, 0x5000), (8, tierBase 1), (8, 65536)])

/-- The signatures and the UID that a debug token needs are opaque (log entries 5, 11): its witness takes that they are good. -/
theorem witness_TenantAndKeyCommandsComplete :
    shows tenantCreateCommand shared createFlight
    ∧ (let f := command .tenantDestroy (fields [(2, 2), (6, 0)]); shows tenantDestroyCommand shared f ∧ commitsFor (withFlight f shared) 2 = false)
    ∧ (shows keyInstallCommand keyed (keyFlight 0) ∧ par (keyFlight 0) 0 1 = 0)
    ∧ (let f := keyFlight 1; let s := withFlight f keyed; let g := { f with content := some (zeros 64) };
      flightOf s 0 = some f ∧ Ready keyInstallCommand (setFlight g s) 0 g ∧ Here (setFlight g s) g ∧ par f 0 1 = 1 ∧ s.host.busMaster = true
        ∧ kget s.sec.keySlots 1 = some ⟨5, 9⟩ ∧ par f 24 8 = 65536)
    ∧ importImage 5 65536 (zeros 64) = .error 0
    ∧ (let f := keyFlight 2; let s := withFlight f keyed;
      shows keyInstallCommand keyed f ∧ par f 0 1 = 2 ∧ kget s.sec.keySlots 1 = some ⟨5, 9⟩ ∧ readFails s (par f 16 8) (par f 24 8) = none)
    ∧ shows keyRetireCommand keyed (command .keyRetire (fields [(1, 1), (7, 0)]))
    ∧ (∀ f : Flight, lengthIs f 4792 = lengthIs debugFlight 4792 → tokenGood (withFlight f shared) f = true → f.serial = 0 → f.prep = none → f.op = .debugAuthorize →
      f.hdr = debugFlight.hdr → mayRun (withFlight f shared) f = true → (reservedZero f 4 4).1 = false → (reservedZero f 24 40).1 = false →
      (reservedZero f 4787 5).1 = false → shows debugAuthorizeCommand shared f) := by
  refine ⟨createFlight_shows, ?_, ?_, ?_, rfl, ?_, ?_, debugFlight_shows⟩ <;>
    first
      | (unfold shows Ready Here; decide +kernel)
      | (unfold Ready Here; decide +kernel)

theorem witness_TransferImageRoundTrip : (zeros 65536).length = 65536 * 1 ∧ 1 ≤ 2 ^ 24 ∧ 0xFFFFFFFF < 2 ^ 32 := by
  refine ⟨by rw [zeros, List.length_replicate], by decide, by decide⟩

/-- FW_ACTIVATE of the bundle in the other slot. -/
def activateFlight (kind : Nat) : Flight := command .fwActivate (fields [(1, kind), (7, 0)])

theorem activateFlight_shows (x : Memory) (h : bundleValid live.sec.floors x = true) :
    shows fwActivateCommand { live with sec := { live.sec with slotB := x } } (activateFlight 0) := by
  refine ⟨⟨rfl, rfl, rfl, rfl, rfl, ?_, rfl, rfl⟩, Or.inr rfl⟩
  refine firstFail_passes _ (fun y hy => ?_)
  simp only [List.mem_cons, List.not_mem_nil, or_false] at hy
  rcases hy with rfl | rfl | rfl | rfl | rfl
  · decide +kernel
  · decide +kernel
  · decide +kernel
  · rfl
  · simp only [failIf]
    exact Bool.and_eq_false_iff.mpr (Or.inr (congrArg not h))

theorem witness_FirmwareCommandsComplete :
    (let f := command .fwStage (fields [(8, tierBase 1), (4, 4096), (4, 4096)]);
      shows fwStageCommand shared f ∧ readFails (withFlight f shared) (par f 0 8) (par f 12 4) = none)
    ∧ (∀ x, bundleValid live.sec.floors x = true → shows fwActivateCommand { live with sec := { live.sec with slotB := x } } (activateFlight 0))
    ∧ shows fwActivateCommand live (activateFlight 1) := by
  refine ⟨?_, activateFlight_shows, ?_⟩ <;> unfold shows Ready Here <;> decide +kernel

/-- A packet of CONFIG_GET in session 0, to completion ring 0. -/
def aPacket : Bytes := headerBytes { plainHeader with opcode := 0x0105, paramLen := 8, prio := 0 } ++ fields [(4, 1), (4, 0)] ++ zeros 16

/-- `live` with three slots of submission ring 0 filled by the host. -/
def fed : State := liveSq (fun r => { r with tail := 3 })

theorem witness_AcceptedPacketIsInFlight :
    (let h := parseHeader aPacket; let s := fed; let params := clearParams (openSession s h.sessionId) h (slice aPacket 48 h.paramLen);
      (sqOf s.host 0).state = .enabled ∧ s.host.busMaster = true ∧ 48 ≤ aPacket.length ∧ 64 + h.paramLen ≤ aPacket.length
        ∧ packetSlots h.paramLen ≤ ((sqOf s.host 0).tail - (sqOf s.host 0).head).toNat ∧ stepOne h (sqOf s.host 0).log2 = none
        ∧ reservationsFree s (sqOf s.host 0).defCq (decide ((cqOf s.host (sqOf s.host 0).defCq).state = .enabled)) h (replyReservation s h params) = true
        ∧ h.sessionId = 0 ∧ stepThree none h (aPacket.take 48) (slice aPacket 48 h.paramLen) (slice aPacket (48 + h.paramLen) 16) = none
        ∧ h.flagsRsv = 0 ∧ h.prio ≤ 7)
    ∧ (let h := parseHeader aPacket; let s2 := advance 1000000000 fed;
      stepSix s2 h (clearParams none h (slice aPacket 48 h.paramLen)) = none ∧ lateChecks s2 none h = none ∧ (opcodeRow h.opcode).isSome = true) := by
  refine ⟨?_, ?_⟩ <;> decide +kernel

/-- A header of session 7 whose sequence has been taken, and the packet with the tag that the session's key gives it. -/
def replayHdr : Header := { plainHeader with opcode := 2, paramLen := 0, sessionId := 7, seq := 5, prio := 0 }
def replayPacket : Bytes := headerBytes replayHdr ++ toLe 16 (gcmTag 0 (commandNonce replayHdr) (headerBytes replayHdr) []).toNat
def replayed : State := { fed with proto := { fed.proto with sessions := [(7, { aSession with high := 5, accepted := [5] })] } }

theorem replayPacket_hdr : parseHeader replayPacket = replayHdr := by

  have hl : (headerBytes replayHdr).length = 48 := by decide
  have f : ∀ o n, o + n ≤ 48 → fld replayPacket o n = fld (headerBytes replayHdr) o n := fun o n ho => fld_append_left _ _ _ _ (hl.symm ▸ ho)
  have p : slice replayPacket 24 12 = slice (headerBytes replayHdr) 24 12 := slice_append_left _ _ _ _ (hl.symm ▸ by decide)
  simp only [parseHeader, f 0 1 (by decide), f 1 1 (by decide), f 2 2 (by decide), f 4 2 (by decide), f 6 2 (by decide), f 8 8 (by decide), f 16 8 (by decide),
    f 36 4 (by decide), f 40 4 (by decide), f 44 2 (by decide), f 46 1 (by decide), f 47 1 (by decide), p]
  decide +kernel

theorem witness_SequencesAreAcceptedOnce :
    (aSession.high = 0 ∧ aSession.accepted = []) ∧
    (let h := replayHdr; let x := { aSession with high := 5, accepted := [5] };
      parseHeader replayPacket = h ∧ replayPacket.length = 64 ∧ (sqOf replayed.host 0).state = .enabled ∧ replayed.host.busMaster = true
        ∧ packetSlots 0 ≤ ((sqOf replayed.host 0).tail - (sqOf replayed.host 0).head).toNat ∧ stepOne h (sqOf replayed.host 0).log2 = none
        ∧ reservationsFree replayed (sqOf replayed.host 0).defCq (decide ((cqOf replayed.host (sqOf replayed.host 0).defCq).state = .enabled)) h
            (replyReservation replayed h (clearParams (openSession replayed h.sessionId) h [])) = true
        ∧ h.sessionId ≠ 0 ∧ openSession replayed h.sessionId = some x ∧ seqAccepted x h.seq = false
        ∧ stepThree (some x) h (replayPacket.take 48) (slice replayPacket 48 0) (slice replayPacket 48 16) = none) := by
  refine ⟨by decide, replayPacket_hdr, ?_, by decide +kernel, by decide +kernel, by decide +kernel, by decide +kernel, by decide +kernel, by decide, by decide +kernel,
    by decide +kernel, ?_⟩
  · rw [replayPacket, List.length_append, length_toLe]; decide
  · have e1 : replayPacket.take 48 = headerBytes replayHdr := by
      rw [replayPacket, List.take_append_of_le_length (by decide), List.take_of_length_le (by decide)]
    have e2 : slice replayPacket 48 16 = toLe 16 (gcmTag 0 (commandNonce replayHdr) (headerBytes replayHdr) []).toNat := by
      rw [replayPacket]
      have := slice_append_right (headerBytes replayHdr) (toLe 16 (gcmTag 0 (commandNonce replayHdr) (headerBytes replayHdr) []).toNat) 0 16 48 (by decide)
      rw [Nat.add_zero] at this
      rw [this]
      have h2 := slice_zero_length (toLe 16 (gcmTag 0 (commandNonce replayHdr) (headerBytes replayHdr) []).toNat)
      rwa [length_toLe] at h2
    have e3 : slice replayPacket 48 0 = [] := by simp [slice]
    have e4 : headerBytes replayHdr ++ [] = headerBytes replayHdr := List.append_nil _
    simp only [stepThree, e1, e2, e3, e4, show replayHdr.paramEnc = false from rfl, Bool.false_eq_true, if_false]
    exact if_pos rfl

/-- A transaction of session 7. -/
def aTxn : Txn := ⟨3, 7, 0, List.replicate 8 0xFFF, 0, 10000, 0, .open, []⟩

/-- `opened` with that transaction. -/
def inTxn : State := { opened with proto := { opened.proto with txns := [aTxn] } }

/-- A command of session 7 and transaction 3. -/
def txnCommand (op : Opcode) (txn : Nat) (params : Bytes) : Flight :=
  { command op params with hdr := { plainHeader with sessionId := 7, txnId := txn, paramLen := params.length } }

theorem witness_TransactionCommandsComplete :
    (let f := txnCommand .txnBegin 0 (fields [(4, 600000), (4, 0)]); let s := withFlight f opened;
      Ready txnBeginCommand s 0 f ∧ kget s.proto.sessions 7 = some aSession ∧ (openTxns s 7).length < 4)
    ∧ (let f := txnCommand .txnSet 3 (fields [(2, 1), (2, 0), (4, 0x0B000003), (2, 4), (2, 0), (4, 1000), (4, 0)]); let s := withFlight f inTxn;
      Ready txnSetCommand s 0 f ∧ txnOf s 7 3 = some aTxn ∧ stagedItems aTxn + (setItems f).length ≤ 1024 ∧ stagedBytes aTxn + f.params.length ≤ 1048576
        ∧ setItems f = [⟨0x0B000003, toLe 4 1000⟩])
    ∧ (let f := txnCommand .txnRollback 3 []; let s := withFlight f inTxn;
      Ready txnRollbackCommand s 0 f ∧ txnOf s 7 3 = some aTxn ∧ stagingBefore s f = false)
    ∧ (let f := txnCommand .txnCommit 3 []; let s := withFlight f inTxn;
      flightOf s 0 = some f ∧ mayRun s f = true ∧ s.fabric.waits = [] ∧ txnOf s 7 3 = some aTxn ∧ stagingBefore s f = false ∧ formingPart aTxn.parts = none
        ∧ (∀ m ∈ txnHolders s aTxn, m = s.fabric.view.self) ∧ lockedAny s (writtenObjects s (markParts s false aTxn.parts)) = false
        ∧ versionConflict s aTxn.parts = false ∧ aTxn.parts.any (roleConflict s) = false)
    ∧ (let g := txnCommand .txnSet 3 []; let t := { aTxn with parts := [.items g [⟨0x0B000003, toLe 4 1000⟩] []] };
      let f := txnCommand .txnCommit 3 []; let s := withFlight f { opened with proto := { opened.proto with txns := [t] } };
      txnOf s 7 3 = some t ∧ formingPart t.parts = none ∧ (∀ m ∈ txnHolders s t, m = s.fabric.view.self)
        ∧ lockedAny s (writtenObjects s (markParts s false t.parts)) = false ∧ versionConflict s t.parts = false ∧ t.parts.any (roleConflict s) = false
        ∧ (match foldParts false (markParts s false t.parts) 0 s [] with
          | .done _ rs => decide (rs = [okReply []])
          | _ => false) = true)
    ∧ (let f := txnCommand .txnCommit 4 []; let s := withFlight f inTxn;
      flightOf s 0 = some f ∧ mayRun s f = true ∧ s.fabric.waits = [] ∧ txnOf s 7 4 = none ∧ kget s.proto.sessions 7 = some aSession ∧ aSession.ended = [])
    ∧ (txnOf inTxn 7 3 = some aTxn ∧ aTxn.state = .open ∧ aTxn.touched + aTxn.timeoutMs * 1000000 ≤ (advance 10000000000 inTxn).frontTime
      ∧ txnClosing inTxn 7 3 = false)
    ∧ kget inTxn.proto.sessions 7 = some aSession
    ∧ (let f := { command .configGet (zeros 8) with waiting := true }; let s := withFlight f live;
      flightOf s 0 = some f ∧ f.waiting = true ∧ ∀ g ∈ s.proto.flights, f.serial ≤ g.serial) := by
  unfold Ready
  refine ⟨?_, ?_, ?_, ?_, ?_, ?_, ?_, ?_, ?_⟩ <;> decide +kernel

theorem witness_StagingHasNoEffect :
    let f := txnCommand .powerCapSet 3 (fields [(2, 800), (6, 0)])
    txnOf inTxn f.hdr.sessionId f.hdr.txnId = some aTxn ∧ aTxn.state ≠ .committing
      ∧ scopeWithin f.hdr.scope aTxn.scope f.hdr.scopeDepth aTxn.scopeDepth = true ∧ stagingCheck powerCapCommand inTxn f = none
      ∧ stagedCommands aTxn < 256 ∧ stagedBytes aTxn + f.params.length ≤ 1048576 := by decide +kernel

/-- Header, byte table, token table, range and pool of a tokeniser image of R326: the 256 bytes as tokens, no merges, no special tokens, one range. -/
def tokHdr : Bytes := fields [(4, 0x4E4B4F54), (2, 1), (2, 0), (4, 256), (4, 0), (2, 0), (2, 1), (4, 256)] ++ zeros 40
def tokByteTable : Bytes := (List.range 256).flatMap (toLe 4)
def tokEntry (t : Nat) : Bytes := fields [(4, t), (2, 1), (2, 0)]
def tokTable : Bytes := (List.range 256).flatMap tokEntry
def tokRangeTable : Bytes := fields [(4, 0), (4, 0x10FFFF)]
def tokPool : Bytes := (List.range 256).flatMap (fun x => [BitVec.ofNat 8 x])
def aTokImage : Bytes := tokHdr ++ (tokByteTable ++ (tokTable ++ (tokRangeTable ++ tokPool)))

theorem length_tokEntry (t : Nat) : (tokEntry t).length = 8 := by simp [tokEntry, fields]
theorem length_tokByteTable : tokByteTable.length = 1024 := by
  rw [tokByteTable, length_flatMap_const _ _ 4 (fun _ _ => length_toLe 4 _), List.length_range]
theorem length_tokTable : tokTable.length = 2048 := by
  rw [tokTable, length_flatMap_const _ _ 8 (fun t _ => length_tokEntry t), List.length_range]
theorem length_tokPool : tokPool.length = 256 := by
  rw [tokPool, length_flatMap_const _ _ 1 (fun _ _ => rfl), List.length_range]
theorem length_aTokImage : aTokImage.length = 3400 := by
  simp only [aTokImage, List.length_append, length_tokByteTable, length_tokTable, length_tokPool]
  decide +kernel

theorem aTokImage_hdr (off len : Nat) (h : off + len ≤ 64) : fld aTokImage off len = fld tokHdr off len := fld_append_left _ _ _ _ h
theorem tokByteTable_fld (x : Nat) (h : x < 256) : fld aTokImage (64 + 4 * x) 4 = x := by
  rw [aTokImage, fld_append_right _ _ _ _ 64 rfl, fld_append_left _ _ _ _ (by rw [length_tokByteTable]; omega)]
  have := fld_flatMap (List.range 256) (toLe 4) 4 x 0 4 (fun _ _ => length_toLe 4 _) (by simpa using h) (by omega)
  rw [Nat.add_zero] at this
  rw [tokByteTable, this, List.getElem_range, fld_toLe]
  omega
theorem tokTable_fld (t o len : Nat) (h : t < 256) (ho : o + len ≤ 8) : fld aTokImage (1088 + 8 * t + o) len = fld (tokEntry t) o len := by
  have e : 1088 + 8 * t + o = 64 + (1024 + (8 * t + o)) := by omega
  rw [e, aTokImage, fld_append_right _ _ _ _ 64 rfl, fld_append_right _ _ _ _ 1024 length_tokByteTable,
    fld_append_left _ _ _ _ (by rw [length_tokTable]; omega), tokTable,
    fld_flatMap _ _ 8 t o len (fun x _ => length_tokEntry x) (by simpa using h) ho, List.getElem_range]
theorem tokRange_fld (o len : Nat) (ho : o + len ≤ 8) : fld aTokImage (3136 + o) len = fld tokRangeTable o len := by
  have e : 3136 + o = 64 + (1024 + (2048 + o)) := by omega
  rw [e, aTokImage, fld_append_right _ _ _ _ 64 rfl, fld_append_right _ _ _ _ 1024 length_tokByteTable,
    fld_append_right _ _ _ _ 2048 length_tokTable, fld_append_left _ _ _ _ ho]
theorem tokPool_slice (t : Nat) (h : t < 256) : slice aTokImage (3144 + t) 1 = [BitVec.ofNat 8 t] := by
  have e : 3144 + t = 64 + (1024 + (2048 + (8 + (1 * t + 0)))) := by omega
  rw [e, aTokImage, slice_append_right _ _ _ _ 64 rfl, slice_append_right _ _ _ _ 1024 length_tokByteTable,
    slice_append_right _ _ _ _ 2048 length_tokTable, slice_append_right _ _ _ _ 8 rfl, tokPool,
    slice_flatMap _ _ 1 t 0 1 (fun _ _ => rfl) (by simpa using h) (by omega), List.getElem_range]
  rfl

theorem aTok_vocab : tokVocab aTokImage = 256 := by rw [tokVocab, aTokImage_hdr _ _ (by omega)]; decide +kernel
theorem aTok_merges : tokMergeCount aTokImage = 0 := by rw [tokMergeCount, aTokImage_hdr _ _ (by omega)]; decide +kernel
theorem aTok_specials : tokSpecialCount aTokImage = 0 := by rw [tokSpecialCount, aTokImage_hdr _ _ (by omega)]; decide +kernel
theorem aTok_ranges : tokRangeCount aTokImage = 1 := by rw [tokRangeCount, aTokImage_hdr _ _ (by omega)]; decide +kernel
theorem aTok_pool : tokPoolLen aTokImage = 256 := by rw [tokPoolLen, aTokImage_hdr _ _ (by omega)]; decide +kernel
theorem aTok_rangesAt : tokRangesAt aTokImage = 3136 := by
  simp only [tokRangesAt, tokSpecialsAt, tokMergesAt, aTok_vocab, aTok_merges, aTok_specials, tokTokensAt]
theorem aTok_poolAt : tokPoolAt aTokImage = 3144 := by simp only [tokPoolAt, aTok_rangesAt, aTok_ranges]
theorem aTok_imageLen : tokImageLen aTokImage = 3400 := by simp only [tokImageLen, aTok_poolAt, aTok_pool]; decide
theorem aTok_byte (x : Nat) (h : x < 256) : tokByte aTokImage x = x := tokByteTable_fld x h
theorem tokEntry_fields (t : Nat) (h : t < 256) :
    fld (tokEntry t) 0 4 = t ∧ fld (tokEntry t) 4 2 = 1 ∧ fld (tokEntry t) 6 1 = 0 ∧ fld (tokEntry t) 7 1 = 0 := by
  have e : tokEntry t = toLe 4 t ++ [1, 0, 0, 0] := by simp [tokEntry, fields, toLe]
  rw [e]
  refine ⟨?_, ?_, ?_, ?_⟩
  · rw [fld_append_left _ _ _ _ (by simp), fld_toLe]; omega
  all_goals rfl
theorem aTok_offset (t : Nat) (h : t < 256) : tokOffset aTokImage t = t := by
  have := tokTable_fld t 0 4 h (by omega)
  rw [Nat.add_zero] at this
  rw [tokOffset, tokTokensAt, this, (tokEntry_fields t h).1]
theorem aTok_length (t : Nat) (h : t < 256) : tokLength aTokImage t = 1 := by
  rw [tokLength, tokTokensAt, tokTable_fld t 4 2 h (by omega), (tokEntry_fields t h).2.1]
theorem aTok_special (t : Nat) (h : t < 256) : tokSpecial aTokImage t = false := by
  rw [tokSpecial, tokTokensAt, tokTable_fld t 6 1 h (by omega), (tokEntry_fields t h).2.2.1]; rfl
theorem aTok_bytes (t : Nat) (h : t < 256) : tokBytes aTokImage t = [BitVec.ofNat 8 t] := by
  rw [tokBytes, aTok_poolAt, aTok_offset t h, aTok_length t h, tokPool_slice t h]
theorem aTok_tokenBad (t : Nat) (h : t < 256) : tokenBad aTokImage t = false := by
  simp only [tokenBad, aTok_pool, aTok_offset t h, aTok_length t h, aTok_special t h, tokTokensAt, tokTable_fld t 6 1 h (by omega),
    tokTable_fld t 7 1 h (by omega), (tokEntry_fields t h).2.2.1, (tokEntry_fields t h).2.2.2]
  simpa using by omega

theorem range_any {p : Nat → Bool} (n : Nat) (h : ∀ t, t < n → p t = false) : (List.range n).any p = false := by
  rw [List.any_eq_false]
  intro t ht
  rw [h t (List.mem_range.mp ht)]
  exact Bool.false_ne_true

theorem aTokImage_good : firstFail (tokenizerImageChecks aTokImage) = none := by
  apply firstFail_passes
  have h1 : rangesBad aTokImage = false := by
    have h0 := tokRange_fld 0 4 (by omega)
    rw [Nat.add_zero] at h0
    have hr : tokRange aTokImage 0 = (0, 0x10FFFF, 0, 0) := by
      simp only [tokRange, aTok_rangesAt, Nat.mul_zero, Nat.add_zero, h0, tokRange_fld 4 4 (by omega)]
      decide +kernel
    simp only [rangesBad, aTok_ranges, List.range_one, List.map_cons, List.map_nil, hr]
    decide +kernel
  have h2 : (tokSpecials aTokImage != (List.range 256).filter (tokSpecial aTokImage)) = false := by
    have : (List.range 256).filter (tokSpecial aTokImage) = [] := by
      rw [List.filter_eq_nil_iff]
      intro t ht
      rw [aTok_special t (List.mem_range.mp ht)]
      exact Bool.false_ne_true
    rw [this, tokSpecials, aTok_specials]
    rfl
  have h3 : (List.range 256).any (fun x => decide (256 ≤ tokByte aTokImage x) || tokSpecial aTokImage (tokByte aTokImage x)
      || tokBytes aTokImage (tokByte aTokImage x) != [BitVec.ofNat 8 x]) = false := by
    apply range_any
    intro x hx
    rw [aTok_byte x hx, aTok_special x hx, aTok_bytes x hx]
    simpa using hx
  have h4 : (List.range 256).any (fun t => tokLength aTokImage t == 0 || decide (256 < tokLength aTokImage t)) = false := by
    apply range_any
    intro x hx
    rw [aTok_length x hx]
    rfl
  have h5 : (List.range 256).any (tokenBad aTokImage) = false := range_any _ (fun t ht => aTok_tokenBad t ht)
  have h6 : zeroAt aTokImage 6 2 = true := by
    rw [zeroAt, show slice aTokImage 6 2 = slice tokHdr 6 2 from slice_append_left _ _ _ _ (by decide)]
    decide +kernel
  have h7 : fld aTokImage 0 4 = 0x4E4B4F54 ∧ fld aTokImage 4 2 = 1 := by
    rw [aTokImage_hdr _ _ (by omega), aTokImage_hdr _ _ (by omega)]
    decide +kernel
  simp only [tokenizerImageChecks, aTok_vocab, aTok_merges, aTok_specials, aTok_ranges, aTok_pool, aTok_poolAt, aTok_imageLen, length_aTokImage, h1, h2, h3, h4,
    h5, h6, h7.1, h7.2]
  decide +kernel

/-- `paged` with that image at the start of Tier 1, and TOKENIZER_LOAD of it in flight. -/
def tokFlight : Flight := command .tokenizerLoad (fields [(8, tierBase 1), (4, 3400), (4, 0)])
def tokState : State := withFlight tokFlight { paged none with mem := Memory.writeN [] (tierBase 1) aTokImage }

theorem tokState_mem : tokState.mem = Memory.writeN [] (tierBase 1) aTokImage := by simp only [tokState, withFlight]

theorem tokState_image : memRead tokState (tierBase 1) 3400 = aTokImage := by
  rw [memRead, tokState_mem, ← length_aTokImage]
  exact readN_writeN_self [] (tierBase 1) aTokImage rfl

theorem tokFlight_fields : par tokFlight 0 8 = tierBase 1 ∧ par tokFlight 8 4 = 3400 := by decide +kernel

theorem tokFlight_check : tokenizerLoadCheck tokState tokFlight = none := by
  have h1 : firstFail ([lengthIs tokFlight 16, reservedZero tokFlight 12 4, textScope tokState tokFlight] ++ extentChecks tokState tokFlight (tierBase 1) 3400 0) = none := by
    decide +kernel
  have h2 : readFails tokState (tierBase 1) 3400 = none := by decide +kernel
  have h3 : ∀ l m : List (Bool × Status × Nat), firstFail l = none → firstFail m = none → firstFail (l ++ m) = none := by
    intro l m hl hm
    induction l with
    | nil => exact hm
    | cons x l ih =>
      obtain ⟨b, st, d⟩ := x
      cases b with
      | true => exact absurd hl (by simp [firstFail])
      | false => exact ih hl
  rw [tokenizerLoadCheck, tokFlight_fields.1, tokFlight_fields.2, h1, h2, tokState_image]
  exact h3 _ _ aTokImage_good (by decide +kernel)

theorem tokenizerLoadCommand_check : tokenizerLoadCommand.check = tokenizerLoadCheck := rfl

theorem tokFlight_ready : Ready tokenizerLoadCommand tokState 0 tokFlight := by
  have a1 : flightOf tokState 0 = some tokFlight := flightOf_withFlight _ _ rfl
  have a2 : mayRun tokState tokFlight = true := by decide +kernel
  have a3 : tokenizerLoadCommand.check tokState tokFlight = none := by rw [tokenizerLoadCommand_check, tokFlight_check]
  have a4 : (tokenizerLoadCommand.changes && lockedAny tokState (tokenizerLoadCommand.writes tokState tokFlight)) = false := by decide +kernel
  have a5 : tokFlight.op = tokenizerLoadCommand.op := by decide +kernel
  have a6 : tokFlight.hdr.inTxn = false := by decide +kernel
  exact ⟨a1, a5, a2, a6, rfl, a3, a4, rfl⟩

/-- A tokeniser of tenant 0 with 256 tokens, of which only the header of its image is given; a stop set and an open stream of it. -/
def texted : State :=
  { paged none with text := { live.text with
      tokenisers := [(0x40000000, ⟨0, tokHdr, 5, 0, false⟩)]
      streams := [(0x70000000, ⟨0, 0x40000000, none, false, false, [], [], false, none⟩)] } }

/-- `texted` with bytes at the start of Tier 1. -/
def textedWith (b : Bytes) : State := { texted with mem := Memory.writeN [] (tierBase 1) b }

/-- A grammar image of R342 for that tokeniser: one state, one mask. -/
def aGrammar : Bytes := fields [(4, 0x524D5247), (2, 1), (2, 0), (4, 1), (4, 1), (4, 256), (4, 0), (4, 0), (4, 5)] ++ zeros 48

/-- The outcome is a success. -/
def ok? {ε α : Type} (x : Except ε α) : Bool := match x with
  | .ok _ => true
  | .error _ => false

theorem witness_TextCommandsComplete :
    (Ready tokenizerLoadCommand tokState 0 tokFlight ∧ ok? (takeTables 0 3400 tokState) = true)
    ∧ (let f := command .grammarLoad (fields [(8, tierBase 1), (4, 80), (4, 0x40000000)]); let s := textedWith aGrammar;
      Ready grammarLoadCommand (withFlight f s) 0 f ∧ ok? (takeTables 0 80 (withFlight f s)) = true)
    ∧ (let f := command .stopSet (fields [(4, 0x40000000), (2, 1), (2, 1), (8, 0), (4, 7), (4, 0), (2, 3), (3, 0x6F6F66), (3, 0)]); let s := withFlight f texted;
      Ready stopSetCommand s 0 f ∧ (stopStrings f.params 1 (stopStringsAt f)).isSome = true ∧ ok? (takeTables 0 f.params.length s) = true)
    ∧ (let f := command .tokenize (fields [(4, 0x40000000), (2, 1), (1, 2), (1, 0), (8, 0), (8, 0), (8, tierBase 1), (8, tierBase 1 + 0x1000), (8, tierBase 1 + 0x2000),
        (4, 8), (1, 1), (1, 0), (2, 0)]);
      let s := withFlight f (textedWith (fields [(8, tierBase 1 + 0x100), (8, 0)]));
      Ready tokenizeCommand s 0 f
        ∧ (∀ g ∈ textSegs f, (tokenizeText (tokImage s (par f 0 4)) false (segText s g)).1 = [] ∧ (truncTokens g []).isSome = true)
        ∧ written (commitWrites (some 0) 0 [(tierBase 1 + 0x1000, []), (tierBase 1 + 0x2000, [])] 0 (chargeHub 27 0 s)) = true)
    ∧ (let f := command .packPrompt (fields [(4, 0x40000000), (4, 10), (2, 1), (1, 0), (5, 0), (8, tierBase 1 + 0x1000), (8, 0),
        (8, tierBase 1), (4, 1), (1, 0), (1, 0), (2, 0), (4, 8), (4, 0), (8, 0)]);
      let s := withFlight f texted;
      Ready packPromptCommand s 0 f ∧ (tokeniserOf s (par f 0 4)).any (fun tok => match collectAll s tok false 0 (packDescs f) with
        | .ok got =>
          match packSegs (((packDescs f).zip got).map (fun p => packSegOf p.1 p.2.1)) 10 false with
          | .ok kept => written (commitWrites (some 0) 0 [(par f 16 8,
              (((((packDescs f).zip got).map (fun p => packSegOf p.1 p.2.1)).zip kept).flatMap (fun p => packCut p.1 p.2.1)).flatMap (toLe 4))] 0 (chargeHub 27 0 s))
          | .error _ => false
        | .error _ => false) = true)
    ∧ (∀ h ∈ [0xFFFFFFFF, 0x70000000],
      let f := command .detokStreamOpen (fields [(4, h), (4, if h = 0xFFFFFFFF then 0x40000000 else 0xFFFFFFFF), (4, 0xFFFFFFFF), (4, 0), (4, 0), (4, 0), (8, 0), (8, 0), (8, 0)]);
      let s := withFlight f texted;
      Ready detokCommand s 0 f ∧ (streamFor s f).any (fun x =>
        let y := feedStream s x (unpack 32 (par f 16 4) (memRead s (par f 24 8) (4 * par f 16 4))) (bitOf (par f 12 1) 2);
        y.out.length ≤ par f 20 4 && y.state == .open && written (commitWrites (some 0) 0 [(par f 32 8, y.out)] 0 (chargeHub 27 0 s))) = true) := by
  unfold Ready
  refine ⟨⟨tokFlight_ready, by decide +kernel⟩, ?_, ?_, ?_, ?_, ?_⟩ <;> decide +kernel

theorem witness_PackingKeepsTheBudget :
    (match packSegs [⟨[1, 2, 3], true, 1, 1, 8, 0⟩, ⟨[4, 5], false, 2, 0, 8, 1⟩] 3 true with
      | .ok kept => decide (kept.length = 2)
      | .error _ => false) = true := by decide +kernel

/-- A model image of R351: a scorer of one layer. -/
def aModelHeader (kind width : Nat) : Bytes :=
  fields [(4, 0x4C444F4D), (2, 1), (1, kind), (1, 0), (2, 0), (2, 0), (2, 0), (2, 0), (4, width), (4, 128), (4, 1), (4, 9), (4, 64), (4, 0), (8, 0), (8, 0), (8, 0)]

/-- A table of tenant 0. -/
def aTable : Table := ⟨0, 16, 32, 1, 1, 0xFF, List.replicate 8 0xFFF, 0, [0], tierBase 1, 0, 0, 0, 0, 0, 0, [], 0, [], [], []⟩

/-- `texted` with that table as table 9, a model image at the start of Tier 1, models and a pipeline of tenant 2. -/
def modelled : State :=
  { textedWith (aModelHeader 1 1 ++ zeros 192) with
    tables := { live.tables with tables := [(9, aTable)] }
    text := { texted.text with tokenisers := [(0x40000000, ⟨2, tokHdr, 5, 0, false⟩)] }
    compute := { live.compute with steers := [(0, ⟨0, 0, 1, 0, [], 0, false⟩)] }
    serve := { live.serve with
      models := [(0x10000001, ⟨0, 3, aModelHeader 1 1, zeros 192, false⟩), (0x10000002, ⟨2, 3, aModelHeader 2 256, zeros 192, false⟩)]
      pipelines := [(4095, ⟨2, zeros 96, []⟩)] } }

/-- The parameters of PIPELINE_DEFINE of kind 3, prefill alone, of tenant 2. -/
def pipeParams (flags : Nat) : Bytes :=
  fields [(2, 4095), (1, 3), (1, flags), (2, 2), (2, 0xFFFF), (2, 0), (2, 0), (4, 0x40000000), (4, 0xFFFFFFFF), (4, 0xFFFFFFFF), (4, 0xFFFFFFFF), (4, 0),
    (4, 0xFFFFFFFF), (4, 0), (4, 0), (4, 0), (4, 0x10000002), (4, 0xFFFFFFFF), (1, 0), (1, 0), (2, 0), (4, 0xFFFFFFFF), (4, 0xFFFFFFFF), (4, 1), (8, 0), (8, 1000), (8, 0)]

theorem witness_ModelCommandsComplete :
    shows modelLoadCommand modelled (command .modelLoad (fields [(8, tierBase 1), (4, 256), (4, 0)]))
    ∧ shows modelUnloadCommand modelled (command .modelUnload (fields [(4, 0x10000001), (4, 0)]))
    ∧ (∀ k ∈ [1, 2, 3, 4, 5, 6, 8], k * 2 ^ 28 / 2 ^ 28 = k)
    ∧ (let f := command .steerSetLoad (fields [(8, tierBase 1), (4, 144), (4, 0)]); let s := textedWith (fields [(4, 5), (2, 1), (2, 0), (8, 0)]);
      shows steerSetLoadCommand s f ∧ (addSteer 0 (memRead s (tierBase 1) 144) (withFlight f s)).isSome = true)
    ∧ shows steerSetDropCommand modelled (command .steerSetDrop (zeros 8))
    ∧ (shows pipelineCommand modelled (command .pipelineDefine (pipeParams 0)) ∧ bitOf (par (command .pipelineDefine (pipeParams 0)) 3 1) 1 = false)
    ∧ (shows pipelineCommand modelled (command .pipelineDefine (pipeParams 2)) ∧ bitOf (par (command .pipelineDefine (pipeParams 2)) 3 1) 1 = true) := by
  unfold shows Ready Here
  refine ⟨?_, ?_, ?_, ?_, ?_, ?_, ?_⟩ <;> decide +kernel

/-- A table of tenant 0: 16 rows of 32 BF16 elements on module 0. -/
def theTable : Table :=
  ⟨0, 16, 32, 1, 1, 0xFF, List.replicate 8 0xFFF, 0, [0], tierBase 1 + 0x20000, tierBase 1 + 0x30000, 0, 0, 0, 0, 0, [], 0, [], [], []⟩

/-- `paged` with that table as table 9, and bytes at the start of Tier 1. -/
def tabledWith (t : Table) (b : Bytes) : State :=
  { paged none with
    mem := Memory.writeN [] (tierBase 1) b
    tables := { live.tables with tables := [(9, t)] } }

/-- A state in which module 1 is a member of the view too. -/
def peered (s : State) : State :=
  { s with fabric := { s.fabric with view := { s.fabric.view with modules := [(0, ⟨0, 0, []⟩), (1, ⟨0, 7, []⟩)] } } }

/-- A message of a type in epoch 1. -/
def aMsg (type : Nat) (body : Bytes) : Bytes := commonHeader type 0 1 5 ++ body

/-- It arrives from module 1. -/
def arrives (type : Nat) (body : Bytes) (s : State) : Prop := Arrives type 1 (aMsg type body) (peered s) ⟨0, 1, 5, body⟩

/-- The parameters of ROWS_READ and ROWS_WRITE of one row. -/
def rowsParams : Bytes := fields [(4, 9), (4, 1), (8, tierBase 1), (8, tierBase 1 + 0x1000), (4, 64), (4, 0)]

/-- An update of row 3 of that table. -/
def anUpdate : RowUpdate := ⟨9, 3, 0, zeros 64, 0, 0, 0, 77, true⟩

theorem witness_TableCommandsComplete :
    (let f := command .tableCreate (fields [(8, 16), (2, 32), (1, 1), (1, 2), (1, 0xFF), (3, 0)]);
      let s := withFlight f { paged none with tiers := { (paged none).tiers with allocs := [] } };
      Ready tableCreateCommand s 0 f ∧ scopeModules s f.hdr = [s.fabric.view.self] ∧ fromPeer f = false ∧ f.content = none
        ∧ (match takeStorage 0 2 0xFF (pageBytes (16 * 2 * rowPitch 32 1)) (drawFree s).2 with
          | .ok (_, s1) => ok? (takeStorage 0 1 0xFF (pageBytes (16 * 8)) s1)
          | .error _ => false) = true)
    ∧ (let f := command .tableDrop (fields [(4, 9), (4, 0)]); let s := withFlight f (tabledWith theTable []);
      Ready tableDropCommand s 0 f ∧ fromPeer f = false ∧ tableOf s (par f 0 4) = some theTable ∧ theTable.shard = [s.fabric.view.self]
        ∧ namedBefore s f tableOps (par f 0 4) = false)
    ∧ (let f := command .rowsRead rowsParams; let s := withFlight f (tabledWith theTable (toLe 8 15));
      Ready (rowsReadCommand []) s 0 f ∧ tableOf s (par f 0 4) = some theTable
        ∧ (match fetchAll s f.serial (par f 0 4) theTable [] (rowIndices s (par f 8 8) (par f 4 4)) with
          | .ok got => written (commitWrites (some 0) 0 ((got.zipIdx).map (fun p => (par f 16 8 + p.2 * par f 24 4, p.1.2.2.2))) 0 (chargeHub 27 0 s))
          | .error _ => false) = true)
    ∧ (let f := command .bagLookup (fields [(4, 9), (4, 1), (4, 2), (1, 0), (1, 0), (1, 0), (1, 0), (8, tierBase 1), (8, tierBase 1 + 8), (8, 0),
        (8, tierBase 1 + 0x1000), (4, 128), (4, 0), (8, 0)]);
      let s := withFlight f (tabledWith theTable (fields [(4, 3), (4, 15), (4, 0), (4, 2)]));
      Ready (bagLookupCommand []) s 0 f ∧ tableOf s (par f 0 4) = some theTable ∧ par f 56 8 = 0
        ∧ (let b := bagsOf f theTable
           match fetchAll s f.serial (par f 0 4) theTable [] (bagWork s b).distinct with
          | .ok got => written (commitWrites (some 0) 0 (((poolAll b (bagWork s b) got).zipIdx).map (fun p =>
              (par f 40 8 + p.2 * par f 48 4, bagOutput (par f 14 1) p.1.1))) 0 (chargeHub 27 0 s))
          | .error _ => false) = true)
    ∧ (let f := command .hotPolicySet (fields [(4, 9), (1, 1), (3, 0), (4, 60000), (4, 1), (4, 8), (4, 0), (8, 0), (8, 0)]); let s := withFlight f (tabledWith theTable []);
      Ready hotPolicyCommand s 0 f ∧ theTable.shard = [s.fabric.view.self] ∧ tableOf s (par f 0 4) = some theTable ∧ theTable.area = 0
        ∧ theTable.shard.contains s.fabric.view.self = true
        ∧ ok? (takeStorage 0 1 0xFF (pageBytes ((theTable.shard.length - 1) * par f 16 4 * (2 * tablePitch theTable + 8))) s) = true)
    ∧ (let f := command .hotPolicySet (fields [(4, 9), (1, 0), (3, 0), (4, 0), (4, 0), (4, 0), (4, 0), (8, 0), (8, 0)]);
      let t := { theTable with shard := [1] }; let s := withFlight { f with origin := .peer 1 5 } (tabledWith t []);
      Ready hotPolicyCommand s 0 { f with origin := .peer 1 5 } ∧ tableOf s (par f 0 4) = some t ∧ t.area = 0
        ∧ t.shard.contains s.fabric.view.self = false)
    ∧ (let f := command .rowsWrite rowsParams; let s := withFlight f (tabledWith theTable (toLe 8 15));
      flightOf s 0 = some f ∧ f.op = .rowsWrite ∧ mayRun s f = true ∧ fromPeer f = false ∧ rowsWriteCheck s f = none ∧ tableOf s (par f 0 4) = some theTable
        ∧ s.fabric.view.rights = .full ∧ s.tables.updates = []
        ∧ lockedAny s (rowsWriteCommand.writes s f) = false
        ∧ (let t := { s with tables := { s.tables with updates := s.tables.updates ++ updatesOf s f theTable } };
          spaceFail f.tenant t (writeImages (updatesOf s f theTable) t) = none)) := by
  unfold Ready
  refine ⟨?_, ?_, ?_, ?_, ?_, ?_, ?_⟩ <;> decide +kernel

theorem witness_RowUpdateSwapsSlots :
    (tabledWith theTable []).mem.wf = true ∧ tableOf (tabledWith theTable []) anUpdate.table = some theTable
      ∧ theTable.shard = [(tabledWith theTable []).fabric.view.self] ∧ anUpdate.row < theTable.rows ∧ theTable.tier = 1
      ∧ anUpdate.image.length = tableB theTable ∧ theTable.slots + theTable.rows * 2 * tablePitch theTable ≤ theTable.headers := by
  refine ⟨?_, ?_, ?_, ?_, ?_, ?_, ?_⟩ <;> decide +kernel

theorem witness_RowEventsTakeEffect :
    (let s := { tabledWith theTable [] with tables := { (tabledWith theTable []).tables with updates := [anUpdate] } };
      anUpdate ∈ s.tables.updates ∧ anUpdate.queued = true ∧ (tableOf s anUpdate.table).isSome = true)
    ∧ (let t := { theTable with hmode := 1, windowMs := 1, threshold := 2, maxHot := 2, pins := [3] }; let s := tabledWith t [];
      tableOf s 9 = some t ∧ t.hmode = 1 ∧ t.policyAt + t.windowMs * 1000000 ≤ (advance 2000000 s).frontTime ∧ t.shard.contains s.fabric.view.self = true)
    ∧ (let t := { theTable with hmode := 1, windowMs := 1, threshold := 2, maxHot := 2, shard := [1] }; let s := tabledWith t [];
      tableOf s 9 = some t ∧ t.hmode = 1 ∧ t.policyAt + t.windowMs * 1000000 ≤ (advance 2000000 s).frontTime ∧ t.shard.contains s.fabric.view.self = false)
    ∧ (let body := fields [(4, 9), (4, 1), (16, 0)] ++ zeros 80; let s := tabledWith theTable [];
      arrives 3 body s ∧ tableOf (heardFrom 1 (peered s)) (fld body 0 4) = some theTable ∧ body.length = 24 + fld body 4 4 * (16 + tablePitch theTable)
        ∧ zeroAt body 10 2 = true ∧ ∀ i ∈ List.range (fld body 4 4), zeroAt body (36 + 16 * i) 4 = true)
    ∧ (∀ k ∈ [0, 1, 2], let body := fields [(4, 9), (4, 1), (1, k), (7, 0)] ++ zeros 80; let s := tabledWith theTable [];
      arrives 4 body s ∧ fld body 8 1 = k ∧ tableOf (heardFrom 1 (peered s)) (fld body 0 4) = some theTable ∧ zeroAt body 9 7 = true
        ∧ body.length = 16 + fld body 4 4 * (16 + tablePitch theTable) ∧ 16 + 16 * fld body 4 4 ≤ body.length) := by
  unfold arrives Arrives
  refine ⟨?_, ?_, ?_, ?_, ?_⟩ <;> decide +kernel

/-- A stored vector of 64 BF16 zeros. -/
def aVec (id seq : Nat) : StoredVec := ⟨id, seq, 0, zeros 128, []⟩

/-- An index of tenant 0: BF16, dimension 64, metric L2, one list, its vectors in Tier 2, on module 0. -/
def anIndex (main side : List StoredVec) (tombs : List (Nat × Nat)) (mseq : Nat) : VecIndex :=
  { tenant := 0, dim := 64, vfmt := 1, metric := 2, lists := 1, vecTier := 2, codeDie := 0xFF, payLen := 0
    scope := List.replicate 8 0xFFF, depth := 0, shard := [0], centroids := zeros 256, main := main, side := side, tombs := tombs, mseq := mseq
    t1 := [tierBase 1 + 0x100000], vt := [tierBase 2], counts := ⟨0, 0, 0, 0, 0, 0, 0, 0, 0⟩, merging := none, scan := [] }

/-- `paged` with that index as index 4, its storage, and bytes at the start of Tier 1. -/
def indexed (x : VecIndex) (b : Bytes) : State :=
  { paged none with
    mem := Memory.writeN [] (tierBase 1) b
    tiers := { (paged none).tiers with
      allocs := [(tierBase 1, ⟨0x100000, 0, 1, true, false⟩), (tierBase 1 + 0x100000, ⟨0x10000, 0, 1, false, true⟩), (tierBase 2, ⟨0x10000, 0, 2, false, true⟩)] }
    indexes := { live.indexes with indexes := [(4, x)] } }

/-- A verdict that completes a command. -/
def doneWith (v : Verdict) : Bool := match v with
  | .done _ _ => true
  | _ => false

theorem witness_MutationsChangeLiveness :
    let x := anIndex [aVec 1 0, aVec 2 0] [aVec 3 1, aVec 2 3] [(2, 2)] 3;
    (∀ v ∈ x.side, v.seq ≤ x.mseq) ∧ (∀ t ∈ x.tombs, t.2 ≤ x.mseq) ∧ liveNow x 2 = true ∧ liveNow x 4 = false := by decide +kernel

theorem witness_SelectionChoosesTheBest :
    let l : List SelEntry := [⟨0, 0x80000000, 0⟩, ⟨1, 0xC0000000, 1⟩, ⟨2, 0x80000000, 2⟩];
    (∀ e ∈ l, e.code < 2 ^ 32) ∧ (∀ a ∈ l, ∀ b ∈ l, a.code / 2 ^ (32 - 8 * 2) = b.code / 2 ^ (32 - 8 * 2) → a.code = b.code)
      ∧ selectEntries 2 2 l = ⟨[⟨1, 0xC0000000, 1⟩, ⟨0, 0x80000000, 0⟩], 1, 2⟩ := by decide +kernel

theorem witness_MappedKeysKeepTheOrder :
    (∀ kt ∈ [0, 3, 4], kt ∈ [0, 3, 4] ∧ 0x7FFFFFFF < 2 ^ 32 ∧ 0x80000000 < 2 ^ 32) ∧ (∀ kt ∈ [1, 2], kt ∈ [1, 2] ∧ 0x8000 < 2 ^ 16 ∧ 0 < 2 ^ 16)
      ∧ mappedKey 4 0x80000000 false < mappedKey 4 0x7FFFFFFF false ∧ mappedKey 3 0x7FFFFFFF false < mappedKey 3 0x80000000 false
      ∧ mappedKey 0 0x80000001 false = mappedKey 0 0 false ∧ mappedKey 1 0x8000 true = mappedKey 1 0 true := by decide +kernel

theorem witness_IndexCommandsComplete_create :
    (let f := command .indexCreate (fields [(2, 64), (1, 1), (1, 2), (4, 1), (1, 2), (1, 0xFF), (2, 0), (4, 0), (8, tierBase 1)]);
      let s := withFlight f { paged none with tiers := { (paged none).tiers with allocs := shared.tiers.allocs } };
      Ready indexCreateCommand s 0 f ∧ scopeModules s f.hdr = [s.fabric.view.self] ∧ fromPeer f = false ∧ f.content = none
        ∧ ok? (fitIndex (newIndex f [s.fabric.view.self] (centroidsOf s f)) (drawFree s).2) = true) := by
  unfold Ready
  decide +kernel

theorem witness_IndexCommandsComplete_drop :
    (let f := command .indexDrop (fields [(4, 4), (4, 0)]); let x := anIndex [] [] [] 0; let s := withFlight f (indexed x []);
      Ready indexDropCommand s 0 f ∧ fromPeer f = false ∧ indexOf s (par f 0 4) = some x ∧ x.shard = [s.fabric.view.self]
        ∧ namedBefore s f indexOps (par f 0 4) = false) := by
  unfold Ready
  decide +kernel

theorem witness_IndexCommandsComplete_load :
    (let f := command .indexLoad (fields [(4, 4), (4, 0), (8, 1), (8, tierBase 1), (8, tierBase 1 + 64), (8, tierBase 1 + 128), (4, 128), (4, 0), (8, 0), (8, 0)]);
      let x := anIndex [] [] [] 0; let s := withFlight f (indexed x (fields [(8, 0), (8, 1), (48, 0), (8, 7)]));
      Ready indexLoadCommand s 0 f ∧ indexOf s (par f 0 4) = some x ∧ x.shard = [s.fabric.view.self] ∧ par f 4 4 = 0
        ∧ x.main = [] ∧ x.side = [] ∧ x.tombs = []
        ∧ ok? (fitIndex (rebuildLists (((recordsOf x (dataOf f (fun _ => loadContent s f))).map (·.list)).eraseDups)
          { x with main := recordsOf x (dataOf f (fun _ => loadContent s f)) }) s) = true
        ∧ recordsOf x (dataOf f (fun _ => loadContent s f)) = [aVec 7 0]) := by
  unfold Ready
  decide +kernel

theorem witness_IndexCommandsComplete_insert :
    (let f := command .vecInsert (fields [(4, 4), (4, 2), (8, tierBase 1), (8, tierBase 1 + 64), (4, 128), (4, 0), (8, 0), (8, 0)]);
      let x := anIndex [aVec 7 0] [] [] 0; let s := withFlight f (indexed x (fields [(8, 7), (8, 9)]));
      let vs := recordsOf x (dataOf f (fun _ => insertContent s f s.fabric.view.self));
      Ready vecInsertCommand s 0 f ∧ indexOf s (par f 0 4) = some x ∧ x.shard = [s.fabric.view.self]
        ∧ overLimits ((lastOfIds vs).foldl applyInsert x) = false ∧ ok? (fitIndex ((lastOfIds vs).foldl applyInsert x)
          (bump .flushFp32 f.tenant (listSum (((lastOfIds vs).filter (fun v => v.list == 0xFFFFFFFF)).map (fun v => (assignList x v.vec).2))) s)) = true) := by
  unfold Ready
  decide +kernel

theorem witness_IndexCommandsComplete_delete :
    (let f := command .vecDelete (fields [(4, 4), (4, 2), (8, tierBase 1)]);
      let x := anIndex [aVec 7 0] [] [] 0; let s := withFlight f (indexed x (fields [(8, 7), (8, 9)]));
      Ready vecDeleteCommand s 0 f ∧ indexOf s (par f 0 4) = some x ∧ x.shard = [s.fabric.view.self] ∧ fromPeer f = false ∧ f.content = none
        ∧ (let y := (lastOnes [7, 9]).foldl applyDelete x
          (List.range ((deleteContent s f s.fabric.view.self).length / 8)).map (fun i => fld (deleteContent s f s.fabric.view.self) (8 * i) 8) = [7, 9]
            ∧ overLimits y = false ∧ ok? (fitIndex y s) = true)) := by
  unfold Ready
  decide +kernel

theorem witness_IndexCommandsComplete_merge :
    (let f := command .indexMerge (fields [(4, 4), (4, 0)]); let x := anIndex [aVec 7 0] [] [(7, 1)] 1; let s := withFlight f (indexed x []);
      Ready indexMergeCommand s 0 f ∧ indexOf s (par f 0 4) = some x ∧ x.shard = [s.fabric.view.self] ∧ x.merging = none
        ∧ namedBefore s f [.indexMerge] (par f 0 4) = false
        ∧ pageBytes (indexT1 x.vfmt x.dim 0 ((mergedIndex x x.mseq).main.filter (fun v => (changedLists x x.mseq).contains v.list)).length 0 0) = 0
        ∧ pageBytes (vecPitch x.vfmt x.dim x.payLen * (x.side.filter (sideLive x x.mseq)).length) = 0
        ∧ (∀ tier die, takeStorage x.tenant tier die 0 s = .ok (0, s)) ∧ ok? (fitIndex (rebuildLists (changedLists x x.mseq) (mergedIndex x x.mseq)) s) = true) := by
  unfold Ready
  refine ⟨?_, ?_, ?_, ?_, ?_, ?_, ?_, fun _ _ => rfl, ?_⟩ <;> decide +kernel

theorem witness_IndexCommandsComplete_search :
    (let f := command .search (fields [(4, 4), (4, 1), (4, 2), (1, 1), (1, 0), (1, 0xFF), (1, 0), (8, tierBase 1), (4, 128), (4, 0), (8, tierBase 1 + 0x1000), (8, 0), (8, 0), (8, 0)]);
      let x := anIndex [aVec 7 0] [aVec 9 1] [] 1; let s := withFlight f (indexed x []);
      flightOf s 0 = some f ∧ f.op = .search ∧ mayRun s f = true ∧ searchCheck s f = none ∧ indexOf s (par f 0 4) = some x ∧ x.shard = [s.fabric.view.self]
        ∧ (∀ j ∈ s.indexes.jobs, j.serial ≠ 0) ∧ par f 48 8 = 0
        ∧ readsFail s ((List.range (par f 4 4)).map (fun j => (par f 16 8 + j * par f 24 4, queryLen x (par f 12 1)))) = none
        ∧ neededMark s x (ownParts s x (par f 12 1) (par f 8 4) 0 (queriesOf s f x)).2.scanned.flatten = none
        ∧ doneWith (searchDone f x ⟨f.serial, f.hdr.commandId, par f 0 4, [], (ownParts s x (par f 12 1) (par f 8 4) 0 (queriesOf s f x)).1, [],
          (ownParts s x (par f 12 1) (par f 8 4) 0 (queriesOf s f x)).2, [], [], []⟩ [] (chargeHub 26 f.tenant s)) = true) := by
  decide +kernel

theorem witness_IndexCommandsComplete_stats :
    (let f := command .indexStats (fields [(4, 4), (4, 0)]); let x := anIndex [aVec 7 0] [] [] 0; let s := withFlight f (indexed x []);
      Ready indexStatsCommand s 0 f ∧ indexOf s (par f 0 4) = some x ∧ x.shard = [s.fabric.view.self]) := by
  unfold Ready
  decide +kernel

/-- A search that waits for one query's part from module 1. -/
def aSearch : SearchJob := ⟨0, 5, 4, [1], [], [], SearchWork.none, [], [], []⟩

theorem witness_SelectionCommandsComplete :
    (let f := command .selectTopk (fields [(4, 1), (4, 2), (8, 4), (8, tierBase 1), (8, 0), (8, tierBase 1 + 0x1000), (8, tierBase 1 + 0x2000), (8, 0), (8, 0),
        (4, 0), (2, 0), (1, 3), (1, 0), (8, 0), (8, 0)]);
      let s := withFlight f (withBytes (fields [(4, 5), (4, 9), (4, 5), (4, 1)]));
      Ready selectTopkCommand s 0 f ∧ par f 72 8 = 0 ∧ bitOf (par f 71 1) 2 = false
        ∧ readsFail s ((List.range (par f 0 4)).map (fun j => (par f 16 8 + j * par f 24 8, par f 8 8 * keyWidth (par f 70 1)))) = none
        ∧ (let out := (List.range (par f 0 4)).map (fun j => (j, topkRow s f j))
          written (commitWrites (some f.serial) f.tenant (out.map (fun r => (par f 32 8 + r.1 * par f 4 4 * 16,
              r.2.written.flatMap (fun e => selEntryBytes e.src (nth r.2.keys e.src) 0)
                ++ (List.replicate (par f 4 4 - r.2.written.length) (selSentinel (par f 70 1) (bitOf (par f 71 1) 0))).flatten))
            ++ (if par f 40 8 = 0 then [] else out.map (fun r => (par f 40 8 + 8 * r.1, toLe 4 r.2.valid ++ toLe 4 r.2.sel.ties)))) 0
            (chargeHub 26 f.tenant s)) = true))
    ∧ (let f := command .selectMerge (fields [(4, 1), (4, 2), (8, tierBase 1), (8, tierBase 1 + 0x1000), (8, 0), (2, 0), (1, 3), (1, 0), (4, 0), (8, 0), (8, 0), (8, 0)]);
      let s := withFlight f (withBytes (fields [(8, tierBase 1 + 64), (4, 1), (20, 0), (32, 0), (8, 3), (4, 17), (4, 0)]));
      let m := mergeLists (par f 34 1) (par f 4 4) (bitOf (par f 35 1) 0) (bitOf (par f 35 1) 1) (bitOf (par f 35 1) 3) (mergeInput s f);
      Ready selectMergeCommand s 0 f ∧ par f 40 8 = 0 ∧ bitOf (par f 35 1) 2 = false ∧ m.mismatches = [] ∧ m.valid = 1
        ∧ written (commitWrites (some f.serial) f.tenant [(par f 16 8, m.result.flatMap (fun e => selEntryBytes e.id e.key (e.info % 2 ^ 31))
          ++ (List.replicate (par f 4 4 - m.result.length) (selSentinel (par f 34 1) (bitOf (par f 35 1) 0))).flatten)] 0 (chargeHub 26 f.tenant s)) = true)
    ∧ (let body := fields [(4, 4), (4, 0), (4, 1), (4, 2), (1, 1), (1, 0xFF), (6, 0)] ++ zeros 128; let x := anIndex [aVec 7 0] [] [] 0; let s := indexed x [];
      arrives 5 body s ∧ zeroAt body 18 6 = true ∧ servedShard (heardFrom 1 (peered s)) 1 5 0 (fld body 0 4) = some x
        ∧ neededMark (heardFrom 1 (peered s)) x (ownParts (heardFrom 1 (peered s)) x (fld body 16 1) (fld body 12 4) (fld body 4 4)
          (pieces (queryLen x (fld body 16 1)) (fld body 8 4) (body.drop 24))).2.scanned.flatten = none ∧ body.length = 24 + fld body 8 4 * queryLen x (fld body 16 1))
    ∧ (let body := fields [(4, 4), (4, 0), (4, 1), (4, 0), (4, 1), (4, 0), (8, 9), (4, 0), (4, 0)]; let x := anIndex [aVec 7 0] [] [] 0; let f := command .requestSubmit [];
      let s0 := withFlight f (indexed x []);
      let s := { s0 with indexes := { s0.indexes with jobs := [aSearch] } };
      arrives 6 body s ∧ fld body 12 2 = 0
        ∧ (peered s).indexes.jobs.find? (fun j => j.commandId == 5 && j.index == fld body 0 4 && j.awaited.contains 1) = some aSearch
        ∧ flightOf (peered s) aSearch.serial = some f ∧ indexOf (peered s) aSearch.index = some x
        ∧ (partsIn 1 (fld body 8 4) (fld body 4 4) (body.drop 16)).isSome = true ∧ f.op ≠ .search)
    ∧ (let body := fields [(4, 1), (4, 2), (1, 3), (1, 0), (6, 0), (4, 1), (4, 0), (8, 3), (4, 17), (4, 0)];
      arrives 7 body live ∧ zeroAt body 10 6 = true ∧ 1 ≤ fld body 0 4 ∧ fld body 0 4 ≤ 4096 ∧ keyTypeValid (fld body 8 1) = true ∧ fld body 9 1 < 16
        ∧ body.length = 16 + 8 * fld body 0 4 + 16 * (messageLists body (fld body 0 4) 0 (16 + 8 * fld body 0 4)).flatten.length
        ∧ ∀ i ∈ List.range (fld body 0 4), zeroAt body (20 + 8 * i) 4 = true) := by
  unfold arrives Ready Arrives
  refine ⟨?_, ?_, ?_, ?_, ?_⟩ <;> decide +kernel

/-- A decoder of tenant 0: one key/value layer of one head of 32 BF16 elements. -/
def aDecoder : Model :=
  ⟨0, 3, fields [(4, 0x4C444F4D), (2, 1), (1, 2), (1, 1), (2, 1), (2, 1), (2, 32), (2, 0), (4, 256), (4, 128), (4, 1), (4, 9), (4, 64), (4, 0), (8, 0), (8, 0), (8, 0)],
    zeros 192, false⟩

/-- A pipeline of tenant 0 of a kind, whose stages all run here. -/
def aPipe (kind : Nat) : Pipeline :=
  ⟨0, fields [(2, 5), (1, kind), (1, 0), (2, 0), (2, 0xFFFF), (2, 0), (2, 0), (4, 0x40000000), (4, 0xFFFFFFFF), (4, 0xFFFFFFFF), (4, 4), (4, 2),
    (4, 0xFFFFFFFF), (4, 0), (4, 1), (4, 16), (4, 0x10000002), (4, 0xFFFFFFFF), (1, 0), (1, 0), (2, 0), (4, 0xFFFFFFFF), (4, 0xFFFFFFFF), (4, 8), (8, 0), (8, 5000), (8, 0)],
    []⟩

/-- The parameters of REQUEST_SUBMIT for pipeline 5: two tokens at the start of Tier 1. -/
def submitParams : Bytes :=
  fields [(2, 5), (1, 1), (1, 0), (4, 0xFFFFFFFF), (8, tierBase 1), (4, 2), (4, 0), (4, 0), (4, 0x3F800000), (4, 1), (4, 0), (4, 0xFFFFFFFF), (2, 1), (2, 0), (4, 10),
    (4, 0), (8, 0), (8, 0), (8, 0)]

/-- A module whose role is COMBINED, with that decoder, pipeline 5 of a kind, the tokeniser of `texted` and tokens at the start of Tier 1. -/
def serving (kind : Nat) : State :=
  { textedWith (fields [(4, 7), (4, 9)]) with
    role := some 3
    indexes := { live.indexes with indexes := [(4, anIndex [] [] [] 0)] }
    compute := { live.compute with steers := [] }
    serve := { live.serve with
      models := [(0x10000002, aDecoder)]
      pipelines := [(5, aPipe kind)] } }

/-- REQUEST_SUBMIT in flight, and the request it makes. -/
def submitFlight : Flight := { command .requestSubmit submitParams with running := true, taken := 999999000 }
def aRequest (kind : Nat) : Request := submittedRequest (serving kind) submitFlight (aPipe kind) 0x70000000

/-- `serving` with that command in flight and a request as given. -/
def served (kind : Nat) (r : Request) : State :=
  let s := withFlight submitFlight (serving kind);
  { s with serve := { s.serve with requests := [r] } }

/-- The same with another command in flight too. -/
def servedWith (kind : Nat) (r : Request) (f : Flight) : State :=
  let s := withFlights f { submitFlight with serial := 1 } (serving kind);
  { s with serve := { s.serve with requests := [{ r with serial := 1 }] } }

/-- The parameters of REQUEST_CANCEL and REQUEST_STATUS. -/
def namedParams : Bytes := fields [(8, 77), (2, 0), (6, 0)]

theorem witness_RequestCommandsComplete :
    (let f := command .requestSubmit submitParams; Ready requestSubmitCommand (withFlight f (serving 2)) 0 f ∧ submitPipe (withFlight f (serving 2)) f = some (aPipe 2))
    ∧ (∀ st ∈ [ReqState.queued, .ending],
      let f := command .requestCancel namedParams; let r := { aRequest 2 with state := st }; let s := servedWith 2 r f;
      Ready requestCancelCommand s 0 f
        ∧ s.serve.requests.find? (fun r => r.tenant == par f 8 2 && r.entry == s.fabric.view.self && r.id == par f 0 8) = some { r with serial := 1 })
    ∧ (let f := command .requestStatus namedParams; let s := servedWith 2 (aRequest 2) f;
      Ready requestStatusCommand s 0 f
        ∧ s.serve.requests.find? (fun r => r.tenant == par f 8 2 && r.entry == s.fabric.view.self && r.id == par f 0 8) = some { aRequest 2 with serial := 1 })
    ∧ (let f := command .kvExport (fields [(8, 77), (8, tierBase 1), (8, 64)]);
      let r := { aRequest 3 with state := .held, promptTokens := 1, kv := some ⟨[1, 0, 0, 0], []⟩ }; let s := servedWith 3 r f;
      Ready kvExportCommand s 0 f ∧ exported s f = some ({ r with serial := 1 }, aDecoder)
        ∧ written (commitWrites (some f.serial) f.tenant [(par f 8 8, kvImageBytes aDecoder { r with serial := 1 } ((({ r with serial := 1 } : Request).kv.map (·.cells)).getD []))] 0 s) = true)
    ∧ (let f := command .kvImport (fields [(8, tierBase 1), (4, 64), (4, 0)]);
      let s := withFlight f { serving 4 with
        mem := Memory.writeN [] (tierBase 1) (fields [(4, 0x4D49564B), (2, 1), (2, 1), (4, 3), (4, 0), (4, 7), (2, 1), (2, 32), (1, 1), (3, 0), (4, 0), (32, 0)]) };
      Ready kvImportCommand s 0 f
        ∧ (roomLeft (findFrames (some f.serial) f.tenant (fld (memRead s (par f 0 8) (par f 8 4)) 6 2 * fld (memRead s (par f 0 8) (par f 8 4)) 28 4) s)).any
          (fun s0 => (giveFrames f.tenant (fld (memRead s (par f 0 8) (par f 8 4)) 6 2 * fld (memRead s (par f 0 8) (par f 8 4)) 28 4) [0, 0, 0, 0] s0).isSome) = true) := by
  unfold Ready
  refine ⟨?_, ?_, ?_, ?_, ?_⟩ <;> decide +kernel

/-- A stage that commits; one that fails. -/
def stageOk (x : Except StageStop Unit × State) : Bool := match x.1 with
  | .ok _ => true
  | .error _ => false
def stageFails (x : Except StageStop Unit × State) : Bool := match x.1 with
  | .error (.fails _ _) => true
  | _ => false

/-- A state in which the next step of request 0 holds cell 3. -/
def granted (s : State) : State :=
  { s with sched := { s.sched with items := (dueItems s).map (fun i => { i with cells := [3] }) } }

/-- What the statements about stages that are due ask of a state. -/
def stageDue (s : State) (q : Request) : Prop :=
  (requestOf (advance 1000000000 s) 0).any (fun r => r.state ≠ .ending) = true ∧ requestOf (syncStages (advance 1000000000 s)) 0 = some q
    ∧ q.holder = (syncStages (advance 1000000000 s)).fabric.view.self

theorem witness_RequestEvents_prefill :
    let q := { aRequest 2 with state := .prefilling, prompt := [7] }; let s := granted (served 2 q);
    let s1 := syncStages (advance 1000000000 s);
    stageDue s q ∧ q.state = .prefilling ∧ holdsCells s1 0 = true ∧ stageOk ((prefillStage q []).run (removeItems (handoverSerial 0) s1)) = true := by
  unfold stageDue
  decide +kernel

theorem witness_RequestEvents_prefillFails :
    let q := { aRequest 2 with state := .prefilling, prompt := [7] }; let s0 := granted (served 2 q); let s := { s0 with serve := { s0.serve with models := [] } };
    let s1 := syncStages (advance 1000000000 s);
    stageDue s q ∧ q.state = .prefilling ∧ holdsCells s1 0 = true ∧ stageFails ((prefillStage q []).run (removeItems (handoverSerial 0) s1)) = true := by
  unfold stageDue
  decide +kernel

theorem witness_RequestEvents_decode :
    (let q := { aRequest 2 with state := .decoding, holder := 1 }; let s := served 2 q;
      (requestOf (advance 1000000000 s) 0).any (fun r => r.state ≠ .ending) = true ∧ requestOf (syncStages (advance 1000000000 s)) 0 = some q
        ∧ q.state = .decoding ∧ q.holder ≠ (syncStages (advance 1000000000 s)).fabric.view.self)
    ∧ (let q := { aRequest 2 with state := .decoding, tailEnd := some 4 }; let s := served 2 q;
      stageDue s q ∧ q.state = .decoding ∧ stepsNext (syncStages (advance 1000000000 s)) q = false)
    ∧ (let q := { aRequest 2 with state := .decoding, prompt := [7] }; let s := granted (served 2 q); let s1 := syncStages (advance 1000000000 s);
      stageDue s q ∧ q.state = .decoding ∧ stepsNext s1 q = true ∧ budgetOpen s1 q = true ∧ holdsCells s1 0 = true)
    ∧ (let q := { aRequest 2 with state := .decoding, prompt := [7] }; let s0 := served 2 q;
      let s := { s0 with sched := { s0.sched with budgets := [(0, ⟨true, 1000, 10, 100, 0, 0, 1, 3⟩)] } };
      stageDue s q ∧ q.state = .decoding ∧ stepsNext (syncStages (advance 1000000000 s)) q = true ∧ isEntry (syncStages (advance 1000000000 s)) q = true
        ∧ budgetOpen (syncStages (advance 1000000000 s)) q = false) := by
  unfold stageDue
  refine ⟨?_, ?_, ?_, ?_⟩ <;> decide +kernel

theorem witness_RequestEvents_retrievalEnds :
    let q := { aRequest 0 with state := .retrieving }; let j : SearchJob := ⟨0, 77, 4, [], [], [], SearchWork.none, [], [], []⟩;
    let s0 := served 0 q;
    let s := granted { s0 with
      indexes := { s0.indexes with jobs := [j] }
      serve := { s0.serve with models := [(0xFFFFFFFF, aDecoder)] } };
    let s1 := syncStages (advance 1000000000 s);
    stageDue s q ∧ q.state = .retrieving ∧ s1.indexes.jobs.find? (fun j => j.serial == 0) = some j ∧ j.awaited = [] ∧ holdsCells s1 0 = true
      ∧ stageOk ((retrievalEnd q j [] []).run (removeItems (handoverSerial 0) s1)) = true := by
  unfold stageDue
  decide +kernel

/-- The encoder of a retrieval: the first row of its input is the query's vector. -/
def anEncoder : Model :=
  ⟨0, 3, fields [(4, 0x4C444F4D), (2, 1), (1, 0), (1, 1), (2, 0), (2, 0), (2, 0), (2, 0), (4, 64), (4, 128), (4, 0), (4, 9), (4, 0), (4, 0), (1, 1), (7, 0), (8, 0), (8, 0)],
    [], false⟩

/-- A state in which the retrieval of a request is due, its index split between modules 1 and 0. -/
def retrieving : State :=
  let s0 := served 0 { aRequest 0 with state := .queued };
  peered { s0 with
    serve := { s0.serve with models := [(0xFFFFFFFF, anEncoder)] }
    tables := { s0.tables with tables := [(9, theTable)] }
    indexes := { s0.indexes with indexes := [(4, { anIndex [] [] [] 0 with
      shard := [1, 0]
      payLen := 8 })] } }

theorem witness_RequestEvents_retrievalBegins :
    let q := { aRequest 0 with state := .queued }; let s := granted retrieving; let s1 := syncStages (advance 1000000000 s);
    stageDue s q ∧ retrieves q.pipe = true ∧ q.prompt = [] ∧ q.rtp = none ∧ holdsCells s1 0 = true
      ∧ (let x := (retrievalBegin q []).run (removeItems (handoverSerial 0) s1);
        stageOk x = true ∧ (requestOf x.2 0).isSome = true ∧ (x.2.indexes.jobs.find? (fun j => j.serial == 0)).any (fun j => !j.awaited.isEmpty) = true) := by
  unfold stageDue
  decide +kernel

theorem witness_RequestEvents_waits :
    let q := { aRequest 2 with state := .prefilling, prompt := [7] }; let s := served 2 q; let s1 := syncStages (advance 1000000000 s);
    stageDue s q ∧ (stageModel s1 q).isSome = true ∧ holdsCells s1 0 = false := by
  unfold stageDue
  decide +kernel

theorem witness_RequestEventsTakeEffect :
    (let q := aRequest 2; let s := served 2 q;
      requestOf s 0 = some q ∧ q.state = .queued ∧ q.pipe.kind = 2 ∧ q.prompt = []
        ∧ readFails (advance 1000000000 s) (fld q.params 8 8) (if bitOf (fld q.params 2 1) 0 then 4 * fld q.params 16 4 else fld q.params 16 4) = none
        ∧ inputTokens (advance 1000000000 s) q.pipe (bitOf (fld q.params 2 1) 0) (fld q.params 8 8) (fld q.params 16 4) = [7, 9])
    ∧ (let q := { aRequest 2 with state := .decoding, chunkHeld := false }; let s := served 2 q;
      requestOf s 0 = some q ∧ q.state ≠ .ending ∧ q.chunkHeld = false ∧ isEntry s q = true
        ∧ q.slots ≤ cqFree (cqOf (advance 1000000000 s).host (requestRing (advance 1000000000 s) q)))
    ∧ (let q := { aRequest 2 with state := .decoding, chunkTokens := [7], chunkSince := 999990000 }; let s := served 2 q;
      requestOf s 0 = some q ∧ q.state ≠ .ending ∧ q.chunkUs ≠ 0 ∧ q.chunkTokens ≠ [] ∧ q.chunkSince + q.chunkUs * 1000 ≤ (advance 1000000000 s).frontTime)
    ∧ (let q := aRequest 2; let s := served 2 q;
      requestOf s 0 = some q ∧ q.state ≠ .ending ∧ isEntry s q = true ∧ q.arrival + q.deadline ≤ (advance 1000010000 s).frontTime)
    ∧ (let q := { aRequest 2 with state := .ending }; requestOf (served 2 q) 0 = some q ∧ q.state = .ending) := by
  refine ⟨?_, ?_, ?_, ?_, ?_⟩ <;> decide +kernel

/-- The body of a KV_SHIP message of request 5 of module 0, attempt 0: its operation, tag, prompt and last field. -/
def shipBody (op tag prompt page : Nat) : Bytes := fields [(1, op), (1, 0), (2, 0), (2, 0), (2, 5), (4, tag), (4, prompt), (2, 0), (2, 0), (4, page)]

/-- A handover that has arrived from module 1. -/
def anInbound : Inbound2 := ⟨1, 0, 0, 5, 0, 4, 5, 3, 1, true, ⟨[1, 0, 0, 0], []⟩, []⟩

/-- A request whose pages are to be shipped to module 1. -/
def aShipped (done : Bool) : Request := { aRequest 3 with id := 5, state := .shipping, shipTo := some 1, shipped := done, prompt := [7], promptTokens := 1 }

/-- `serving` with that handover arrived. -/
def inbounded : State := let s := serving 4; { s with serve := { s.serve with inbound := [anInbound] } }

/-- A KV_SHIP PAGE message: its first 48 bytes, then the page. -/
def shipPage : Bytes := commonHeader 2 0 1 5 ++ shipBody 2 0 0 0

theorem shipPage_arrives : Arrives 2 1 (shipPage ++ zeros 65536) (peered inbounded) ⟨0, 1, 5, shipBody 2 0 0 0 ++ zeros 65536⟩ := by
  have h : ∀ off len, off + len ≤ 48 → fld (shipPage ++ zeros 65536) off len = fld shipPage off len := fun off len h =>
    fld_append_left _ _ _ _ (Nat.le_trans h (by decide))
  have z : ∀ off len, off + len ≤ 48 → zeroAt (shipPage ++ zeros 65536) off len = zeroAt shipPage off len := fun off len h => by
    simp only [zeroAt, slice_append_left _ _ _ _ (Nat.le_trans h (by decide : 48 ≤ shipPage.length))]
  refine ⟨by rw [h _ _ (by decide)]; decide +kernel, by simp, by rw [z _ _ (by decide)]; decide +kernel, by rw [z _ _ (by decide)]; decide +kernel,
    by decide +kernel, .inr (by rw [h _ _ (by decide)]; decide +kernel), ?_⟩
  rw [h _ _ (by decide), h _ _ (by decide), h _ _ (by decide), List.drop_append_of_le_length (by decide)]
  have e : fld shipPage 2 2 = 0 ∧ fld shipPage 8 8 = 1 ∧ fld shipPage 16 8 = 5 ∧ shipPage.drop 24 = shipBody 2 0 0 0 := by decide +kernel
  rw [e.1, e.2.1, e.2.2.1, e.2.2.2]

theorem shipPage_body : let body := shipBody 2 0 0 0 ++ zeros 65536;
    fld body 0 1 = 2 ∧ zeroAt body 1 1 = true ∧ zeroAt body 18 2 = true ∧ body.length = 65560 ∧ fld body 4 2 = anInbound.attempt := by
  have h : ∀ off len, off + len ≤ 24 → fld (shipBody 2 0 0 0 ++ zeros 65536) off len = fld (shipBody 2 0 0 0) off len := fun off len h =>
    fld_append_left _ _ _ _ (Nat.le_trans h (by decide))
  have z : ∀ off len, off + len ≤ 24 → zeroAt (shipBody 2 0 0 0 ++ zeros 65536) off len = zeroAt (shipBody 2 0 0 0) off len := fun off len h => by
    simp only [zeroAt, slice_append_left _ _ _ _ (Nat.le_trans h (by decide : 24 ≤ (shipBody 2 0 0 0).length))]
  have l : (shipBody 2 0 0 0).length = 24 := by decide +kernel
  refine ⟨by rw [h _ _ (by decide)]; decide +kernel, by rw [z _ _ (by decide)]; decide +kernel, by rw [z _ _ (by decide)]; decide +kernel, ?_,
    by rw [h _ _ (by decide)]; decide +kernel⟩
  rw [List.length_append, l, length_zeros]

/-- `shared` with a LAYER_RUN of command 5 under way as handle 0, its layer split over modules 0 and 1. -/
def layered : State :=
  let p := layerParams.take 120 ++ [2] ++ (layerParams.drop 121).take 71 ++ [0, 0, 1, 0] ++ layerParams.drop 196;
  let s := withFlight { layerFlight with
    params := p
    hdr := { layerFlight.hdr with commandId := 5 } } shared;
  { s with compute := { s.compute with jobs := [aJob 0] } }

theorem witness_HandoverMessagesTakeEffect :
    (let body := shipBody 0 3 1 0; let s := serving 4;
      arrives 2 body s ∧ fld body 0 1 = 0 ∧ zeroAt body 1 1 = true ∧ zeroAt body 18 2 = true ∧ body.length = 24 ∧ kget s.serve.pipelines (fld body 6 2) = some (aPipe 4)
        ∧ (aPipe 4).tenant = 0 ∧ (aPipe 4).kind = 4 ∧ modelOf s (aPipe 4).decoder = some aDecoder ∧ s.fabric.leaving = [] ∧ admitsKv s.role = true
        ∧ aDecoder.tag = fld body 8 4 ∧ overFrames s 0 (pagesNeeded s (aPipe 4) (fld body 12 4) (aPipe 4).maxNew) = false)
    ∧ (let s := serving 4; let x := { anInbound with accepted := false };
      kget s.serve.pipelines x.nextPipe = some (aPipe 4) ∧ firstFree (heldChannels s x.peer) 4 4092 = some 4
        ∧ (takeFrames x.tenant ((pagesNeeded s (aPipe 4) x.prompt (aPipe 4).maxNew).1 + (pagesNeeded s (aPipe 4) x.prompt (aPipe 4).maxNew).2) s).1.isSome = true)
    ∧ (∀ done ∈ [false, true], let body := shipBody 1 3 1 0; let s := served 3 (aShipped done); let m : Msg := ⟨0, 1, 5, body⟩;
      arrives 2 body s ∧ fld body 0 1 = 1 ∧ zeroAt body 1 1 = true ∧ zeroAt body 18 2 = true ∧ body.length = 24
        ∧ shipping (peered s) 1 m = some (aShipped done) ∧ servedModel (peered s) (aShipped done).pipe.decoder = some aDecoder)
    ∧ (Arrives 2 1 (shipPage ++ zeros 65536) (peered inbounded) ⟨0, 1, 5, shipBody 2 0 0 0 ++ zeros 65536⟩
      ∧ inboundOf (peered inbounded) 1 0 5 = some anInbound ∧ anInbound.accepted = true ∧ anInbound.pages.cells.wf = true)
    ∧ (let body := shipBody 3 3 1 0; let s := inbounded;
      arrives 2 body s ∧ fld body 0 1 = 3 ∧ zeroAt body 1 1 = true ∧ zeroAt body 18 2 = true ∧ body.length = 24 ∧ inboundOf (peered s) 1 0 5 = some anInbound
        ∧ anInbound.attempt = fld body 4 2)
    ∧ (let body := shipBody 4 3 1 0; let s := served 3 (aShipped false); let m : Msg := ⟨0, 1, 5, body⟩;
      arrives 2 body s ∧ fld body 0 1 = 4 ∧ zeroAt body 1 1 = true ∧ zeroAt body 18 2 = true ∧ body.length = 24
        ∧ shipping (peered s) 1 m = some (aShipped false) ∧ fld body 20 4 = 0)
    ∧ (let body := fields [(2, 0), (2, 1), (4, 0), (4, 0), (1, 1), (1, 16), (2, 0), (4, 0x3F800000), (60, 0)]; let m : Msg := ⟨0, 1, 5, body⟩;
      arrives 1 body layered ∧ zeroAt body 14 2 = true ∧ 1 ≤ fld body 12 1 ∧ fld body 12 1 ≤ 128 ∧ 1 ≤ fld body 13 1 ∧ fld body 13 1 ≤ 128
        ∧ body.length = 16 + 4 * fld body 12 1 * fld body 13 1 ∧ (jobOfTile (peered layered) m).map (·.2) = some (aJob 0) ∧ (aJob 0).partials = []
        ∧ (jobOfTile (peered layered) m).all (fun x => tileFits (peered layered) x.1 x.2 1
          ⟨0, 0, 1, 1, 16, unpack 32 16 (body.drop 16), 0, false⟩) = true) := by
  unfold arrives Arrives
  refine ⟨?_, ?_, ?_, ⟨shipPage_arrives, by decide +kernel, rfl, rfl⟩, ?_, ?_, ?_⟩ <;> decide +kernel

theorem witness_RowsStageTheirCommand :
    let f := { command .memFree (fields [(8, tierBase 1)]) with hdr := { plainHeader with inTxn := true, sessionId := 7, txnId := 3 } };
    let s := withFlight f shared;
    flightOf s 0 = some f ∧ mayRun s f = true ∧ f.hdr.inTxn = true := by
  refine ⟨?_, ?_, ?_⟩ <;> decide +kernel

/-- `peered` where module 1 has been unreachable. -/
def cutOff (s : State) : State :=
  let t := peered s;
  { t with fabric := { t.fabric with peers := [(1, ⟨0, 0xFF, 1, 1, true⟩)] } }

theorem witness_FailedChecksHaveNoEffect :
    (let f := command .memFree (fields [(8, 64)]); let s := withFlight f shared;
      flightOf s 0 = some f ∧ mayRun s f = true ∧ f.hdr.inTxn = false ∧ (memFreeCommand.check s f).isSome = true ∧ Here s f)
    ∧ (let f := command .indexLoad (fields [(4, 4), (4, 0), (8, 1), (8, tierBase 1), (8, tierBase 1 + 64), (8, tierBase 1 + 128), (4, 128), (4, 0), (8, 0), (8, 0)]);
      let s := withFlight f (indexed (anIndex [aVec 7 0] [] [] 0) (fields [(8, 0), (8, 1), (48, 0), (8, 7)]));
      Ready indexLoadCommand s 0 f ∧ Here s f ∧ (match indexLoadCommand.run s f with
        | .reject st d => decide (st = .notPermitted) && d == 0
        | _ => false) = true)
    ∧ (let f := command .tierStats (fields [(2, 0), (6, 0)]);
      let s := withFlight f (cutOff live);
      flightOf s 0 = some f ∧ mayRun s f = true ∧ fromPeer f = false ∧ scopeModules s f.hdr = [0, 1] ∧ namesOne f = false ∧ lengthFault (tierStatsCommand.check s f) = false ∧ namesObject f.op = false
        ∧ s.fabric.view.rights = .full ∧ [0, 1].find? (fun m => !reaches s m) = some 1)
    ∧ (let f := command .tierStats (fields [(2, 0), (6, 0)]);
      let s0 := withFlight f (peered live);
      let s := { s0 with fabric := { s0.fabric with view := { s0.fabric.view with rights := .stale } } };
      flightOf s 0 = some f ∧ mayRun s f = true ∧ scopeModules s f.hdr = [0, 1] ∧ namesOne f = false ∧ lengthFault (tierStatsCommand.check s f) = false ∧ s.fabric.view.rights = .stale) := by
  unfold Here Ready
  refine ⟨?_, ?_, ?_, ?_⟩ <;> decide +kernel

/-- A command as another module has forwarded it. -/
def forwarded (op : Opcode) (params : Bytes) : Flight := { command op params with origin := .peer 1 77 }

/-- `peered` whose top front's anchor is as given. -/
def anchored (a : Nat) : State :=
  let t := peered live;
  { t with fabric := { t.fabric with view := { t.fabric.view with nodes := [(0, ⟨0, 0, .module a⟩)] } } }

/-- A view of one node with modules 0 and 1, module 0 this device, as it is carried with a part. -/
def viewHead : Bytes := fields [(4, 0), (8, 2), (2, 1), (2, 2), (10, 0), (2, 0), (2, 0)]
def viewTail : Bytes := fields [(16, 0), (2, 1), (2, 0), (8, 9), (16, 0)]
def carriedBytes : Bytes := viewHead ++ (toLe 8 Config.deviceUid.toNat ++ viewTail)

/-- Parameters of a FRONT_FORM of this module and of module 1, and of an ADMIT. -/
def formParams : Bytes := fields [(2, 2), (2, 0), (12, 0), (1, 0), (1, 0), (2, 0), (4, 0), (8, 5), (16, 0), (1, 0), (1, 0), (2, 1), (4, 0), (8, 9), (16, 0)]
def admitParams : Bytes := fields [(1, 1), (1, 0), (2, 1), (4, 0), (8, 9), (16, 0)]

theorem carriedBytes_fld (o n : Nat) (h : o + n ≤ 26) : fld (carriedBytes.drop 4) o n = fld (viewHead.drop 4) o n := by
  rw [carriedBytes, List.drop_append_of_le_length (by decide), fld_append_left _ _ _ _ (by simpa [viewHead, fields] using by omega)]

theorem carriedBytes_view (f : Flight) (h : f.content = some carriedBytes) : (formedView f).isSome = true := by
  have e1 : fld (carriedBytes.drop 4) 8 2 = 1 := by rw [carriedBytes_fld _ _ (by decide)]; decide
  have e2 : fld (carriedBytes.drop 4) 10 2 = 2 := by rw [carriedBytes_fld _ _ (by decide)]; decide
  have hl : (viewHead.drop 4).length = 26 := by decide
  have e3 : fld (carriedBytes.drop 4) 26 8 = Config.deviceUid.toNat := by
    rw [carriedBytes, List.drop_append_of_le_length (by decide), ← Nat.add_zero 26, fld_append_right _ _ _ _ 26 hl,
      fld_append_left _ _ _ _ (by rw [length_toLe]), fld_toLe]
    exact Nat.mod_eq_of_lt Config.deviceUid.isLt
  have e4 : (placeIn (decodeView (carriedBytes.drop 4))).isSome = true := by
    simp only [placeIn, decodeView, e1, e2, Option.isSome_map, List.find?_isSome, List.mem_map, List.mem_range]
    refine ⟨_, ⟨0, by decide, rfl⟩, ?_⟩
    have : 12 + 10 * 1 + 28 * 0 + 4 = 26 := rfl
    simp only [this, e3, beq_self_eq_true]
  simp only [formedView, h, Option.isSome_map]
  exact e4

theorem witness_FrontCommandsComplete :
    (let f := { forwarded .frontForm formParams with content := some carriedBytes };
      Ready frontFormCommand (withFlight f live) 0 f ∧ Here (withFlight f live) f)
    ∧ (let f := { forwarded .frontJoin admitParams with content := some carriedBytes };
      Ready frontJoinCommand (withFlight f live) 0 f ∧ Here (withFlight f live) f ∧ par f 0 1 = 1)
    ∧ (∀ op, let f := { forwarded op formParams with content := some carriedBytes }; (formedView f).isSome = true)
    ∧ (let f := forwarded .frontJoin (fields [(1, 0), (7, 0), (8, 5), (16, 0)]); let s := withFlight f live;
      Ready frontJoinCommand s 0 f ∧ Here s f ∧ par f 0 1 = 0 ∧ fromPeer f = true ∧ timeSource s.fabric.view 9 0 = s.fabric.view.self
        ∧ zeroAt f.params 1 3 = true ∧ zeroAt f.params 16 16 = true ∧ s.fabric.view.rights ≠ .readonly)
    ∧ (let f := forwarded .frontLeave (fields [(2, 0), (1, 0), (5, 0)]); let s := withFlight f (anchored 1);
      Ready frontLeaveCommand s 0 f ∧ Here s f ∧ leaveTarget s f = some (.module 0) ∧ (modulesOf s.fabric.view (.module 0)).contains s.fabric.view.self = true
        ∧ holdsStage s = false)
    ∧ (let f := forwarded .frontLeave (fields [(2, 1), (1, 0), (5, 0)]); let s := withFlight f (anchored 0);
      Ready frontLeaveCommand s 0 f ∧ Here s f ∧ leaveTarget s f = some (.module 1) ∧ (modulesOf s.fabric.view (.module 1)).contains s.fabric.view.self = false)
    ∧ (let f := forwarded .anchorSet (fields [(1, 0), (1, 0), (2, 1), (4, 0)]); let s := withFlight f (anchored 0);
      Ready anchorSetCommand s 0 f ∧ Here s f ∧ scopeNode s f = some 0 ∧ anchorTarget s f = some (.module 1))
    ∧ (let f := command .frontView (zeros 8); let s := withFlight f (anchored 0); Ready frontViewCommand s 0 f ∧ answerer s f = [s.fabric.view.self])
    ∧ (let f := command .linkConfig (fields [(1, 1), (7, 0), (1, 3), (1, 1), (46, 0)]); shows linkConfigCommand live f)
    ∧ shows linkStatusCommand live (command .linkStatus (zeros 8))
    ∧ (let s := { live with fabric := { live.fabric with candidacy := some (5, 0) } };
      s.fabric.candidacy = some (5, 0) ∧ 0 + 600000000000 ≤ (advance 600000000000 s).frontTime) := by
  unfold shows Ready Here
  refine ⟨⟨⟨flightOf_withFlight _ _ rfl, ?_, ?_, ?_, ?_, ?_⟩, .inl rfl⟩, ⟨⟨flightOf_withFlight _ _ rfl, ?_, ?_, ?_, ?_, ?_⟩, .inl rfl, ?_⟩,
    fun _ => carriedBytes_view _ rfl, ?_, ?_, ?_, ?_, ?_, ?_, ?_, ?_⟩ <;> decide +kernel

/-- A FRONT_VIEW message's type header. -/
def viewMsg (op leader n epoch : Nat) (rest : Bytes) : Bytes := frontViewHdr op leader n epoch ++ rest

/-- A view entry of R445 of a module, reached. -/
def anEntry (m : Nat) : Bytes := fields [(2, m), (1, 1), (1, 0), (12, 0), (8, 0), (1, 0), (7, 0)]

/-- `peered` where module 1's proposal for epoch 2 has been accepted. -/
def acceptedView : State :=
  let t := peered live;
  { t with fabric := { t.fabric with
    accepted := 2
    acceptedLeader := some 1 } }

/-- `peered` where this module, the leader, has proposed epoch 2. -/
def proposed : State :=
  let t := peered live;
  { t with fabric := { t.fabric with proposal := some ⟨2, [0, 1], [0], [], 0⟩ } }

theorem witness_ViewEventsTakeEffect :
    (let body := fields [(1, 0), (1, 3), (2, 0), (4, 2), (8, 1), (8, 1)]; arrives 0x0A body live ∧ zeroAt body 2 2 = true ∧ body.length = 24 ∧ fld body 0 1 ≤ 2)
    ∧ ((peerOf (peered live) 1).lastMessage + (peered live).fabric.lossMs * 1000000 ≤ (advance 10000000000 (peered live)).frontTime)
    ∧ (let s := { live with fabric := { live.fabric with offsetSince := some 5 } };
      s.fabric.offsetSince = some 5 ∧ 5 + 1000000000 ≤ (advance 2000000000 s).frontTime ∧ s.fabric.view.rights ≠ .stale ∧ s.faults.queue.length < 64)
    ∧ (let body := viewMsg 0 1 2 2 (anEntry 0 ++ anEntry 1);
      arrives 0x0B body live ∧ fld body 0 1 = 0 ∧ zeroAt body 1 1 = true ∧ body.length = 16 + 32 * fld body 4 4 ∧ 1 = (peered live).fabric.view.epoch
        ∧ (peered live).fabric.view.rights ≠ .stale)
    ∧ (let body := viewMsg 0 0 2 2 (anEntry 0 ++ anEntry 1); let s := peered live;
      mayAccept s = true ∧ s.fabric.accepted < fld body 8 8 ∧ fld body 2 2 = 0 ∧ (reachSet s).head? = some 0
        ∧ (entriesReached (fld body 4 4) (body.drop 16)).contains s.fabric.view.self = true)
    ∧ (let body := viewMsg 1 0 0 2 (toLe 4 0); let p : Proposal := ⟨2, [0, 1], [0], [], 0⟩;
      arrives 0x0B body proposed ∧ fld body 0 1 = 1 ∧ zeroAt body 1 1 = true ∧ body.length = 20 + 12 * fld body 16 4 ∧ (peered proposed).fabric.proposal = some p
        ∧ p.epoch = fld body 8 8 ∧ fld body 2 2 = (peered proposed).fabric.view.self ∧ p.set.contains 1 = true ∧ p.acceptors.contains 1 = false
        ∧ p.sent < proposed.ticks)
    ∧ (let body := viewMsg 2 1 2 2 (anEntry 0 ++ anEntry 1 ++ toLe 4 0); let s := acceptedView;
      arrives 0x0B body s ∧ fld body 0 1 = 2 ∧ zeroAt body 1 1 = true ∧ body.length = 20 + 32 * fld body 4 4 + 12 * fld body (16 + 32 * fld body 4 4) 4
        ∧ s.fabric.acceptedLeader = some 1 ∧ (entriesReached (fld body 4 4) (body.drop 16)).contains s.fabric.view.self = true ∧ fld body 8 8 = s.fabric.accepted)
    ∧ (let body := viewMsg 3 1 0 1 []; arrives 0x0B body live ∧ fld body 0 1 = 3 ∧ zeroAt body 1 1 = true ∧ 16 ≤ body.length ∧ fld body 4 4 = 0)
    ∧ (let body := viewMsg 4 1 1 1 (fields [(1, 3), (8, 9)]); arrives 0x0B body live ∧ fld body 0 1 = 4 ∧ zeroAt body 1 1 = true ∧ body.length = 16 + 9 * fld body 4 4) := by
  unfold arrives Arrives
  refine ⟨?_, ?_, ?_, ?_, ?_, ?_, ?_, ?_, ?_⟩ <;> decide +kernel

/-- A CMD_FWD message of an operation arrives from module 1. -/
def fwdArrives (op : Nat) (body : Bytes) (s : State) : Prop := ForwardArrives op 1 (aMsg 8 (cmdFwdBody op 0 1 0 body)) (peered s) ⟨0, 1, 5, cmdFwdBody op 0 1 0 body⟩

/-- The message as it is taken. -/
def fwdMsg (op : Nat) (body : Bytes) : Msg := ⟨0, 1, 5, cmdFwdBody op 0 1 0 body⟩

/-- A command 5 in flight as handle 0, and the record of its front-wide commit in a stage. -/
def aCoord (st : CoordStage) : Coord := ⟨⟨0, 0, aloneTxn 5⟩, 0, [], [0, 1], [], 0, st, [0], 0, []⟩
def coordinated (st : CoordStage) : State :=
  let s := withFlight { command .memFree (fields [(8, tierBase 1)]) with hdr := { plainHeader with commandId := 5 } } live;
  { s with fabric := { s.fabric with coords := [aCoord st] } }

/-- What module 1's command 5 has prepared here. -/
def aPrepared : Prepared := ⟨⟨1, 0, aloneTxn 5⟩, [], [], okReply [], 5, 0⟩
def preparedLive : State := { live with fabric := { live.fabric with prepared := [aPrepared] } }

theorem witness_CommitMessagesTakeEffect :
    (let body := headerBytes { plainHeader with opcode := 0x0202, paramLen := 8 } ++ toLe 8 64; let m := fwdMsg 0 body;
      fwdArrives 0 body live ∧ (opcodeRow (fld (m.body.drop 8) 2 2)).map (·.op) = some .memFree ∧ (opcodeRow (fld (m.body.drop 8) 2 2)).map (·.op) ≠ some .bagLookup ∧ (peered live).power.pendingReset = none)
    ∧ (let body := headerBytes { plainHeader with opcode := 0xFFFF }; let m := fwdMsg 2 body;
      fwdArrives 2 body live ∧ opcodeRow (fld (m.body.drop 8) 2 2) = none ∧ (1, fld m.body 4 4, m.corr) ∉ live.fabric.aborted ∧ live.fabric.prepared = [])
    ∧ (let body := replyBody 5 0 (okReply []); let m := fwdMsg 3 body; let s := coordinated .preparing;
      fwdArrives 3 body s ∧ coordNamed (peered s) 1 m = some (aCoord .preparing, 1) ∧ ((fld m.body 1 1 == 0) = goodStatus (statusOf (fld m.body 16 2))))
    ∧ (∀ op ∈ [4, 5], fwdArrives op [] preparedLive ∧ preparedNamed (peered preparedLive) 1 (fwdMsg op []) = some aPrepared)
    ∧ (fwdArrives 6 [] live ∧ (fwdMsg 6 []).epoch = (peered live).fabric.view.epoch)
    ∧ (fwdArrives 7 [] (coordinated .deciding) ∧ coordNamed (peered (coordinated .deciding)) 1 (fwdMsg 7 []) = some (aCoord .deciding, 1)
        ∧ (aCoord .deciding).acks.contains 1 = false)
    ∧ (let body := replyBody 5 0 (okReply []); let m := fwdMsg 1 body; let s := coordinated .committing;
      fwdArrives 1 body s ∧ s.fabric.gathers = [] ∧ coordNamed (peered s) 1 m = some (aCoord .committing, 1) ∧ (aCoord .committing).replies = [])
    ∧ (let s := coordinated .preparing;
      s.fabric.coords.find? (fun c => c.serial == 0) = some (aCoord .preparing) ∧ (aCoord .preparing).prepared + 100000000 ≤ (advance 100000000 s).frontTime) := by
  unfold fwdArrives ForwardArrives Arrives
  refine ⟨?_, ?_, ?_, ?_, ?_, ?_, ?_, ?_⟩ <;> decide +kernel

/-- An entry whose candidacy is awaited, the wait, and a state with it. -/
def awaitedEntry : FormEntry := ⟨0, 1, 9, zeros 16, none⟩
def aWait : CandidacyWait := ⟨0, 0, 1000000000, [awaitedEntry]⟩
def waiting : State :=
  let s := withFlight (txnCommand .txnCommit 3 []) inTxn;
  { s with
    sec := { s.sec with pairs := [(9, ⟨0⟩)] }
    fabric := { s.fabric with waits := [aWait] } }

/-- The view of a lone module, as its answer carries it; and one of two modules. -/
def loneBytes : Bytes := fields [(8, 1), (2, 1), (2, 1), (10, 0), (2, 0), (2, 0), (8, 9), (16, 0)]
def pairBytes : Bytes := fields [(8, 1), (2, 1), (2, 2), (10, 0), (2, 0), (2, 0), (8, 9), (16, 0), (2, 1), (2, 0), (8, 8), (16, 0)]

/-- A state in which this module has asked module 9 for a pair secret. -/
def asked : State := { live with
  sec := { live.sec with pairAsks := [(9, 0)] }
  fabric := { live.fabric with candidacy := some (9, 0) } }

/-- An answer to it, whose report may pass as far as its fields go. -/
def pairReport (digest : Bytes) : Bytes := fields [(4, 0x54505241), (4, 0), (8, 9), (1, 1), (1, 0), (1, 1), (1, 0), (132, 0)] ++ digest ++ zeros 5203
def pairAnswer (digest : Bytes) : Bytes := zeros 1680 ++ (pairReport digest ++ (zeros 5 ++ zeros 2689))

theorem length_fields (l : List (Nat × Nat)) : (fields l).length = (l.map (·.1)).sum := by
  induction l with
  | nil => rfl
  | cons x l ih => simp only [fields, List.flatMap_cons, List.length_append, length_toLe, List.map_cons, List.sum_cons] at ih ⊢; rw [ih]

theorem length_pairReport (d : Bytes) (h : d.length = 48) : (pairReport d).length = 5403 := by
  simp only [pairReport, List.length_append, length_fields, h, length_zeros]; rfl

theorem length_pairAnswer (d : Bytes) (h : d.length = 48) : (pairAnswer d).length = 9777 := by
  simp only [pairAnswer, List.length_append, length_pairReport d h, length_zeros]

theorem pairAnswer_report (d : Bytes) (h : d.length = 48) : slice (pairAnswer d) 1680 5403 = pairReport d := by
  have := slice_append_right (zeros 1680) (pairReport d ++ (zeros 5 ++ zeros 2689)) 0 5403 1680 (length_zeros _)
  rw [Nat.add_zero] at this
  rw [pairAnswer, this, slice_append_left _ _ _ _ (by rw [length_pairReport d h])]
  have := slice_zero_length (pairReport d)
  rwa [length_pairReport d h] at this

theorem pairReport_digest (d : Bytes) (h : d.length = 48) : slice (pairReport d) 152 48 = d := by
  have e := slice_append_right (fields [(4, 0x54505241), (4, 0), (8, 9), (1, 1), (1, 0), (1, 1), (1, 0), (132, 0)]) (d ++ zeros 5203) 0 48 152
    (by rw [length_fields]; rfl)
  rw [Nat.add_zero] at e
  rw [pairReport, List.append_assoc, e, slice_append_left _ _ _ _ (by rw [h])]
  have := slice_zero_length d
  rwa [h] at this

theorem slice_zeros (n off len : Nat) (h : off + len ≤ n) : slice (zeros n) off len = zeros len := by
  simp only [slice, zeros, List.drop_replicate, List.take_replicate]
  congr 1
  omega

theorem asked_known : pairKnown asked 9 = true := by
  have : asked.fabric.candidacy.any (fun c => c.1 == 9) = true := by decide +kernel
  simp only [pairKnown, this, Bool.or_true, Bool.true_or]

theorem witness_FormationEventsTakeEffect :
    (waiting.fabric.waits = [aWait] ∧ waitEntry aWait 9 = some awaitedEntry ∧ entryKindBad awaitedEntry (decodeView pairBytes) = true)
    ∧ (entryKindBad awaitedEntry (decodeView loneBytes) = false ∧ ∀ p ∈ (decodeView loneBytes).modules, khas waiting.sec.pairs p.2.uid = true)
    ∧ (waiting.fabric.waits.find? (fun w => w.serial == 0) = some aWait ∧ flightOf waiting 0 = some (txnCommand .txnCommit 3 [])
      ∧ txnOf waiting 7 3 = some aTxn ∧ aWait.since + aTxn.timeoutMs * 1000000 ≤ (advance 20000000000 waiting).frontTime)
    ∧ (∀ response : Bool, ([] : Bytes).length ≠ (if response then 9777 else 14532))
    ∧ ((zeros 9777).length = 9777 ∧ pairKnown asked 9 = true ∧ kget asked.sec.pairAsks 9 = some 0
      ∧ peerReportGood asked 9 (slice (zeros 9777) 7088 2689) (slice (zeros 9777) 1680 5403) = false)
    ∧ (∀ d : Bytes, d.length = 48 → (pairAnswer d).length = 9777 ∧ slice (slice (pairAnswer d) 1680 5403) 152 48 = d) := by
  refine ⟨?_, ?_, ?_, ?_, ⟨length_zeros _, asked_known, by decide +kernel, ?_⟩, fun d h => ⟨length_pairAnswer d h, ?_⟩⟩
  · decide +kernel
  · decide +kernel
  · decide +kernel
  · decide
  · have : (fld (slice (zeros 9777) 1680 5403) 0 4 == 0x54505241) = false := by
      rw [slice_zeros _ _ _ (by decide)]
      rfl
    simp only [peerReportGood, this, Bool.and_false, Bool.false_and]
  · rw [pairAnswer_report d h, pairReport_digest d h]

/-- A port of module 1 whose neighbour is module 0. -/
def aPort (m : PortMode) (st : PortState) : Port :=
  { Port.reset with mode := m, state := st, width := 4, signal := true, mtu := 1500, addr := zeros 15 ++ [1], neighbourUid := 7 }

/-- Module 1 of a front of two whose time source is module 0, its port 3 as given. -/
def slave (x : Port) : State :=
  { live with fabric := { live.fabric with
      ports := [(3, x)]
      routes := [(0, 0, 3, 1)]
      view := { live.fabric.view with
        modules := [(0, ⟨0, 7, zeros 15 ++ [2]⟩), (1, ⟨0, 0, []⟩)]
        self := 1 } } }

/-- A JET port that carries flits, with two of them kept. -/
def flitting (nak seq : Nat) : Port :=
  { aPort .jet .up with txSeq := 9, ackSeq := 7, kept := [(9, 3, [1]), (8, 3, [2])], nakRun := nak, nakSeq := seq }

theorem witness_PortEventsTakeEffect :
    (∀ st ∈ [PortState.training, .down], let s := slave (aPort .jet st);
      (portOf s 3).mode ≠ .off ∧ cageHeldDown s 3 = false ∧ ((portOf s 3).state = .training ∨ (portOf s 3).state = .down) ∧ trainable (portOf s 3) 2 = true)
    ∧ (∀ m ∈ [PortMode.jet, .eth], let s := slave (aPort m .up);
      1 < 4 ∧ portCarries (portOf s 3) = true ∧ 1 ∉ (portOf s 3).lostLanes ∧ (portOf s 3).mode = m ∧ (portOf s 3).mode ≠ .off)
    ∧ (let s := slave { aPort .jet .down with signal := false }; (portOf s 3).mode ≠ .off ∧ cageHeldDown s 3 = false ∧ (portOf s 3).signal = false)
    ∧ (let s := slave { aPort .jet .training with lossDue := true };
      (portOf s 3).lossDue = true ∧ portCarries (portOf s 3) = false ∧ s.faults.queue.length < 64)
    ∧ (let s := slave { aPort .eth .up with detecting := true }; (portOf s 3).detecting = true ∧ ipv6Up (portOf s 3) = true)
    ∧ (let s := slave (aPort .eth .up);
      ipv6Up (portOf s 3) = true ∧ (portOf s 3).detecting = false ∧ zeros 16 ≠ (portOf s 3).addr ∧ 48 + ([7] : Bytes).length ≤ (portOf s 3).mtu ∧ (portOf s 3).mode = .eth)
    ∧ (flitsRun (portOf (slave (flitting 7 7)) 3) = true ∧ (portOf (slave (flitting 7 7)) 3).nakRun = 7 ∧ (portOf (slave (flitting 7 7)) 3).nakSeq = 7)
    ∧ (flitsRun (portOf (slave (flitting 3 6)) 3) = true ∧ (portOf (slave (flitting 3 6)) 3).nakRun < 7 ∧ (portOf (slave (flitting 3 6)) 3).kept ≠ []
      ∧ (portOf (slave (flitting 3 6)) 3).ackSeq ≠ (portOf (slave (flitting 3 6)) 3).txSeq)
    ∧ (let s := flitSeen 3 0 8 (slave (flitting 0 0)); moduleOfUid s (portOf (slave (flitting 0 0)) 3).neighbourUid = some 0 ∧ fromParent s 0 = true) := by
  refine ⟨?_, ?_, ?_, ?_, ?_, ?_, ?_, ?_, ?_⟩ <;> decide +kernel

/-- A segment of channel 1 from module 0 to module 1. -/
def aSegment (kind seq off total credit : Nat) (data : Bytes) : Bytes := transportHeader kind 1 0 1 seq off total data.length credit ++ data

/-- `slave` with channel 1 to module 0 as given. -/
def channelled (c : Channel) : State :=
  let s := slave (flitting 0 0);
  { s with fabric := { s.fabric with channels := [(1, c)] } }

/-- A message sent and not acknowledged. -/
def anOutgoing (resends : Nat) : Outgoing := ⟨4, zeros 40, 40, 0, resends⟩

theorem witness_TransportAndClockEventsTakeEffect :
    (let s := channelled Channel.reset; let s1 := flitSeen 3 5 8 s;
      (portOf s 3).mode = .jet ∧ portCarries (portOf s 3) = true ∧ (channelOf s1 0 1).closed = false
        ∧ (let seg := aSegment 0 1 0 100 2 (zeros 64);
          segmentFormed seg = true ∧ fld seg 6 2 = dstOf s.fabric.view.self ∧ segmentPeer s1 (fld seg 4 2) = some 0 ∧ fld seg 2 2 = 1 ∧ fld seg 1 1 = 0
            ∧ fld seg 8 8 = (channelOf s1 0 1).rxSeq ∧ fld seg 16 4 = (channelOf s1 0 1).rxOffset ∧ (channelOf s1 0 1).rxBytes.length + fld seg 24 2 < fld seg 20 4)
        ∧ (let seg := aSegment 0 0 0 100 2 (zeros 64);
          segmentFormed seg = true ∧ fld seg 6 2 = dstOf s.fabric.view.self ∧ segmentPeer s1 (fld seg 4 2) = some 0 ∧ fld seg 2 2 = 1
            ∧ fld seg 8 8 < (channelOf s1 0 1).rxSeq)
        ∧ (let seg := aSegment 1 5 0 0 2 [];
          segmentFormed seg = true ∧ fld seg 6 2 = dstOf s.fabric.view.self ∧ segmentPeer s1 (fld seg 4 2) = some 0 ∧ fld seg 2 2 = 1 ∧ fld seg 1 1 = 1))
    ∧ (∀ l ∈ [[], [anOutgoing 0]], let s := channelled { Channel.reset with unacked := l }; let seg := aSegment 1 5 0 0 2 [];
      (channelOf s 0 (fld seg 2 2)).closed = false ∧ (∀ o ∈ (channelOf s 0 (fld seg 2 2)).unacked, o.seq < fld seg 8 8) ∧ s.compute.jobs = [])
    ∧ (∀ n ∈ [0, 16], let s := channelled { Channel.reset with unacked := [anOutgoing n] };
      (channelOf s 0 1).unacked.head? = some (anOutgoing n) ∧ (channelOf s 0 1).closed = false ∧ (anOutgoing n).acked < (anOutgoing n).sent)
    ∧ (∀ op ∈ [0, 1, 2, 3], let s1 := advance 1000000000 (slave (flitting 0 0)); let body := timeSyncHdr op 1 999; let plain := aMsg 9 body;
      (fld plain 0 1 = 9 ∧ 24 ≤ plain.length ∧ zeroAt plain 1 1 = true ∧ zeroAt plain 4 4 = true ∧ khas s1.fabric.view.modules 0 = true
        ∧ (9 ≤ 9 ∨ fld plain 8 8 = s1.fabric.view.epoch) ∧ (⟨0, 1, 5, body⟩ : Msg) = ⟨fld plain 2 2, fld plain 8 8, fld plain 16 8, plain.drop 24⟩)
        ∧ zeroAt body 1 1 = true ∧ zeroAt body 4 4 = true ∧ body.length = 16 ∧ fld body 0 1 = op ∧ fromParent (heardFrom 0 s1) 0 = true)
    ∧ (∀ op plain s m, Arrives op 0 plain s m = (fld plain 0 1 = op ∧ 24 ≤ plain.length ∧ zeroAt plain 1 1 = true ∧ zeroAt plain 4 4 = true
        ∧ khas s.fabric.view.modules 0 = true ∧ (9 ≤ op ∨ fld plain 8 8 = s.fabric.view.epoch) ∧ m = ⟨fld plain 2 2, fld plain 8 8, fld plain 16 8, plain.drop 24⟩))
    ∧ ptpSlave (slave (aPort .eth .up)) (slave (aPort .eth .up)).fabric.ptpDomain = true
    ∧ (let s := { live with fabric := { live.fabric with ports := [(3, aPort .eth .up)] } };
      timeSource s.fabric.view 9 0 = s.fabric.view.self ∧ ipv6Up (portOf s 3) = true) := by
  refine ⟨?_, ?_, ?_, ?_, fun _ _ _ _ => rfl, ?_, ?_⟩ <;> decide +kernel

theorem witness_StepKeepsMemoryCanonical :
    let s := { live with pending := [.clearFaults], mem := Memory.write [] 5 7 };
    s.mem.wf = true ∧ ∃ t, step s = .next t := by
  exact ⟨by decide +kernel, _, rfl⟩

theorem witness_StepRunsFrontCommand : State.reset.pending = [] := rfl

theorem witness_HeaderRoundTrip :
    (plainHeader.version < 2 ^ 8 ∧ plainHeader.hdrLen < 2 ^ 8 ∧ plainHeader.opcode < 2 ^ 16 ∧ plainHeader.flagsRsv < 2 ^ 13 ∧ plainHeader.paramLen < 2 ^ 16
      ∧ plainHeader.commandId < 2 ^ 64 ∧ plainHeader.seq < 2 ^ 64 ∧ plainHeader.scope.length = 8 ∧ (∀ e ∈ plainHeader.scope, e < 2 ^ 12)
      ∧ plainHeader.sessionId < 2 ^ 32 ∧ plainHeader.txnId < 2 ^ 32 ∧ plainHeader.replyRing < 2 ^ 16 ∧ plainHeader.prio < 2 ^ 8 ∧ plainHeader.scopeDepth < 2 ^ 8)
    ∧ (zeros 48).length = 48 := by
  decide +kernel

/-- A fault log with `n` records in its queue and `d` dropped ones, the highest of them of severity 3. -/
def faultyQueue (n d : Nat) : State :=
  { live with faults := { live.faults with
      queue := List.replicate n ⟨1, 0x0001, 2, 0, 0, 0, 0, 0, 0, 0, 0⟩
      dropped := d
      droppedSev := 3 } }

theorem witness_FaultsSetTheLatch :
    (faultyQueue 0 0).faults.queue.length < 64 ∧ 64 ≤ (faultyQueue 64 0).faults.queue.length ∧ (faultyQueue 0 0).faults.dropped = 0
      ∧ (faultyQueue 64 5).faults.dropped ≠ 0 ∧ 2 ≤ (faultyQueue 64 5).faults.droppedSev := by
  decide +kernel

/-- The worked scope path before R34: module 3 of sub-front 1. -/
theorem test_scope_path_bytes : pathBytes ([0x001, 0x003] ++ List.replicate 6 0xFFF) = [0x01, 0x30, 0x00] ++ List.replicate 9 0xFF := by decide +kernel

/-- The header of the ROLE_SET of R50's worked example. -/
def roleSetHeader : Header :=
  { version := 1, hdrLen := 0x30, opcode := 0x0106, paramEnc := true, inTxn := true, fence := false, flagsRsv := 0, paramLen := 8, commandId := 0x42
    seq := 0x107, scope := List.replicate 8 0xFFF, sessionId := 0x11, txnId := 5, replyRing := 3, prio := 0, scopeDepth := 0 }

theorem test_role_set_header :
    headerBytes roleSetHeader = [0x01, 0x30, 0x06, 0x01, 0x03, 0x00, 0x08, 0x00, 0x42, 0, 0, 0, 0, 0, 0, 0, 0x07, 0x01, 0, 0, 0, 0, 0, 0]
      ++ List.replicate 12 0xFF ++ [0x11, 0, 0, 0, 5, 0, 0, 0, 3, 0, 0, 0]
    ∧ parseHeader (headerBytes roleSetHeader) = roleSetHeader := by decide +kernel

/-- The nonces of R475 and of R50's example. -/
theorem test_nonces :
    replyNonce 3 2 0x10040 0x11 = [3, 0, 2, 0, 0x40, 0, 1, 0, 0x11, 0, 0, 0]
    ∧ commandNonce roleSetHeader = [0x11, 0, 0, 0, 7, 1, 0, 0, 0, 0, 0, 0] := by decide +kernel

/-- Reading power, chapter 19: 800 V, 2,448 W and 3.06 A. -/
theorem test_linear11 : linear11 8000 10 = 0x0320 ∧ linear11 2448 1 = 0x1264 ∧ linear11 3060 1000 = 0xC30F := by decide +kernel

/-- Masked enables, chapter 17. -/
theorem test_masked_enables :
    maskedWrite 0x1FF 0x01800000 0x1FF = 0x7F ∧ maskedWrite 0x7F 0 0x1FF = 0x7F ∧ maskedWrite 0x7F 0x01000100 0x1FF = 0x17F := by decide +kernel

/-- The edges of R398 and the percentiles of the example before R590. -/
theorem test_buckets :
    [1, 2, 3, 4].map bucketEdge = [10500, 11025, 11577, 12156] ∧ bucketOf 9999 = 0 ∧ bucketOf 11025 = 3
    ∧ reported [(1, 600), (2, 300), (3, 95), (4, 4), (255, 1)] 500000 = some 10500
    ∧ reported [(1, 600), (2, 300), (3, 95), (4, 4), (255, 1)] 999000 = some 12156
    ∧ reported [(1, 600), (2, 300), (3, 95), (4, 4), (255, 1)] 999500 = some (2 ^ 64 - 1) := by decide +kernel

/-- 2.6 rounded to FP4 E2M1, chapter 03: by RNE 3, by RTZ 2. -/
theorem test_round_e2m1 :
    encodeNum 7 (roundTo 7 .rne false false 0 (decodeNum 0 0x40266666)).1 = 5
    ∧ encodeNum 7 (roundTo 7 .rtz false false 0 (decodeNum 0 0x40266666)).1 = 4 := by decide +kernel

/-- One entry of the bag of chapter 08: row 3 begins with 2^24, row 7 with 1.5. -/
def bagRow (r : Nat) : List Nat × Option PoolNan := ([if r = 3 then 0x4B800000 else 0x3FC00000], none)

/-- A bag with repeats, chapter 08: WSUM and MEAN of element 0 of bag 0. -/
theorem test_bag_with_repeats :
    (poolBag 1 2 [(7, .fin false 1 (-1)), (3, .fin false 1 0), (7, .fin false 1 (-2)), (7, .fin false 1 (-2))] bagRow).1 = [0x4B800001]
    ∧ (poolBag 1 1 [(7, .fin false 1 0), (3, .fin false 1 0), (7, .fin false 1 0), (7, .fin false 1 0)] bagRow).1 = [0x4A800002] := by decide +kernel

/-- The source of the 4-bit transposition of chapter 07. -/
def nibbleRow (a : Nat) (n : Nat) : Bytes := slice [0x21, 0x43, 0x65, 0x87, 0xA9, 0xCB] a n

theorem test_nibble_transposition :
    moveRuns nibbleRow 0 0 3 2 2 2 1 = [(0, [0x51, 0x09]), (2, [0x62, 0x0A]), (4, [0x73, 0x0B]), (6, [0x84, 0x0C])] := by decide +kernel

/-- The valid entries of the selection of chapter 10: positions 0, 2 to 9. -/
def pickEntries : List SelEntry :=
  [(0, 0x3F800000), (2, 0x80000000), (3, 0x40200000), (4, 0x3F800000), (5, 0), (6, 0xC0400000), (7, 0x3F800000), (8, 0x40200000), (9, 0x3F000000)].map
    (fun p => ⟨p.1, mappedKey 0 p.2 false, p.1⟩)

/-- Ties and zeros, chapter 10: K 4, 6 and 12. -/
theorem test_selection :
    (let x := selectEntries 4 4 pickEntries; ((selOrder false x.chosen).map (·.pos), x.ties, x.passes) = ([3, 8, 0, 4], 1, 4))
    ∧ (let x := selectEntries 4 6 pickEntries; ((selOrder false x.chosen).map (·.pos), x.ties, x.passes) = ([3, 8, 0, 4, 7, 9], 0, 1))
    ∧ (let x := selectEntries 4 12 pickEntries; (selOrder false x.chosen).map (·.pos) = [3, 8, 0, 4, 7, 9, 2, 5, 6]) := by decide +kernel

/-- A merge with duplicates, chapter 10. -/
theorem test_merge :
    let m := mergeLists 0 3 false false false [[⟨0, 0, 17, 0x3F666666, 0⟩, ⟨0, 1, 4, 0x3F4CCCCD, 0⟩],
      [⟨1, 0, 9, 0x3F59999A, 0⟩, ⟨1, 1, 17, 0x3F333333, 0⟩, ⟨1, 2, 4, 0x3F4CCCCD, 0⟩]];
    m.result.map (·.id) = [17, 9, 4] ∧ m.duplicates = 2 ∧ m.mismatches.length = 1 ∧ m.sel.ties = 0 := by decide +kernel

/-- A segment of `n` tokens. -/
def aSeg (n : Nat) (req : Bool) (cut rank : Nat) : PackSeg := ⟨List.replicate n 0, req, cut, rank, 4096, 16⟩

/-- A budget of 100, chapter 11: without STRICT, and with STRICT and segment 2 WHOLE. -/
theorem test_packing :
    (packSegs [aSeg 20 true 0 0, aSeg 40 false 1 0, aSeg 35 false 1 1, aSeg 25 false 1 2, aSeg 10 false 1 3, aSeg 10 true 0 0] 100 false).toOption.map (·.map (·.1))
      = some [20, 40, 30, 0, 0, 10]
    ∧ (packSegs [aSeg 20 true 0 0, aSeg 40 false 1 0, aSeg 35 false 0 1, aSeg 25 false 1 2, aSeg 10 false 1 3, aSeg 10 true 0 0] 100 true).toOption.map (·.map (·.1))
      = some [20, 40, 0, 0, 0, 10] := by decide +kernel

/-- The stream of chapter 11: a stop string completed by the next token's first character. -/
theorem test_stop_string :
    heldSuffix [[10, 10, 0x51, 0x3A], [0x23, 0x23, 0x23]] [0xA9, 10] = 1
    ∧ (pushChars [[10, 10, 0x51, 0x3A], [0x23, 0x23, 0x23]] (utf8Repair [0x3A, 0x20, 0x6F, 0x6B] false).1 [10, 10, 0x51]).2 = some (0, 4) := by decide +kernel

/-- A window boundary, chapter 13. -/
theorem test_budget_windows :
    (refillTo ⟨false, 10, 1000, 1500, 3, 200, 0, 0⟩ 1).level = 1200 ∧ (refillTo ⟨false, 10, 1000, 1500, 3, -4, 1, 3⟩ 2).level = 996 := by decide +kernel

/-- The vector instructions of the example that ends chapter 05 are legal under the reset configuration. -/
theorem test_vector_words :
    [0x0005212B, 0x0002A1AB, 0x0431022B, 0x8702632B, 0x0E05A32B, 0x0E0323AB].map (fun w => vectorLegal w 1) = List.replicate 6 true
    ∧ vmemBytes 0x0005212B = 512 ∧ vmemBytes 0x0E05A32B = 64 := by decide +kernel

/-- Known answers of the standards: SHA-256 and SHA-384 of "abc" (FIPS 180-4), test case 14 of the GCM specification. -/
theorem test_known_answers :
    beNat (sha256 (ascii "abc")) = 0xBA7816BF8F01CFEA414140DE5DAE2223B00361A396177A9CB410FF61F20015AD
    ∧ beNat (sha384 (ascii "abc")) = 0xCB00753F45A35E8BB5A03D699AC65007272C32AB0EDED1631A8B605A43FF5BED8086072BA1E7CC2358BAECA134C825A7
    ∧ beNat (gcmXor 0 (zeros 12) 0 (zeros 16)) = 0xCEA7403D4D606B6E074EC5D3BAF39D18
    ∧ beNat (toLe 16 (gcmTag 0 (zeros 12) [] (gcmXor 0 (zeros 12) 0 (zeros 16))).toNat) = 0xD0D1C8A799996BF0265B98B5D48AB919 := by decide +kernel

end Sys2Proof.Tests
end

/-! The management interfaces: SPDM, DOE discovery and the TAP (chapters 15, 16, 18 and 19). -/

namespace Sys2Proof.Management

open Sys2Proof Sys2Proof.Machine Sys2Proof.Laws

section Spdm

variable {s : State} {need code : Nat} {after : SpdmStage} {content : Bytes}

theorem spdmUp_of_clocked (hp : s.power.pwrgd = true) (hs : s.power.stage ≠ .rom) : spdmUp s = true := by
  simp [spdmUp, hp, hs]

/-- The header of an SPDM response is two bytes: version 1.2 and the response code. -/
theorem spdmReply_eq (code : Nat) (content : Bytes) (s : State) :
    spdmReply code content s = emit (.doe ([0x12, BitVec.ofNat 8 code] ++ content)) s := rfl

/-- A request before its stage gets ERROR UnexpectedRequest, R468. -/
theorem spdmStep_early (hu : spdmUp s = true) (hr : spdmRank s.sec.spdm < need) :
    spdmStep need after code content s = .next (emit (.doe [0x12, 0x7F, 0x04, 0]) s) := by
  simp only [spdmStep, hu, hr, Bool.not_true, Bool.false_eq_true, if_true, if_false]
  rfl

/-- Before GET_VERSION every request that needs a stage is early. -/
theorem spdmStep_at_start (hu : spdmUp s = true) (hs : s.sec.spdm = .start) (hn : 0 < need) :
    spdmStep need after code content s = .next (emit (.doe [0x12, 0x7F, 0x04, 0]) s) :=
  spdmStep_early hu (by rw [hs]; exact hn)

/-- A request at its stage is answered and moves the negotiation on, R468. -/
theorem spdmStep_answers (hu : spdmUp s = true) (hr : need ≤ spdmRank s.sec.spdm) :
    spdmStep need after code content s
      = .next (emit (.doe ([0x12, BitVec.ofNat 8 code] ++ content)) { s with sec := { s.sec with spdm := after } }) := by
  simp only [spdmStep, hu, Nat.not_lt.mpr hr, Bool.not_true, Bool.false_eq_true, if_false, spdmReply_eq]

/-- An answer that leaves the stage as it is changes nothing but what was sent. -/
theorem spdmStep_stays (hu : spdmUp s = true) (hr : need ≤ spdmRank s.sec.spdm) (ha : after = s.sec.spdm) :
    spdmStep need after code content s = .next (emit (.doe ([0x12, BitVec.ofNat 8 code] ++ content)) s) := by
  rw [spdmStep_answers hu hr, ha]

/-- Once the algorithms are negotiated no request is early. -/
theorem le_spdmRank_of_negotiated (hs : s.sec.spdm = .negotiated) (hn : need ≤ 3) : need ≤ spdmRank s.sec.spdm := by
  rw [hs]; exact hn

theorem length_measurementBlock (index type : Nat) (v : Bytes) : (measurementBlock index type v).length = v.length + 7 := by
  simp only [measurementBlock, List.length_append, length_toLe, List.length_singleton]
  omega

/-- A GET_MEASUREMENTS that names index 1 is answered with the one block of MR0, R468. -/
theorem execGetMeasurements_index_one {b : Bytes} (hw : fld b 3 1 = 1) :
    execGetMeasurements b s = spdmStep 3 s.sec.spdm 0x60
      ([0, 0] ++ toLe 1 1 ++ toLe 3 55 ++ measurementBlock 1 0x80 (toLe 48 (s.sec.mr.getD 0 0).toNat)) s := by
  have hr : List.range 5 = [0, 1, 2, 3, 4] := rfl
  simp [execGetMeasurements, hw, hr, length_measurementBlock]

/-- What one block of a 48-byte measurement holds before the measurement itself. -/
theorem measurementBlock_of_digest (index type m : Nat) :
    measurementBlock index type (toLe 48 m) = toLe 1 index ++ [1] ++ toLe 2 51 ++ toLe 1 type ++ toLe 2 48 ++ toLe 48 m := by
  rw [measurementBlock, length_toLe]

end Spdm

section SpdmCommands

variable {s : State} (b : Bytes)

theorem exec_getVersion (hu : spdmUp s = true) :
    exec (.getVersion b) s
      = .next (emit (.doe [0x12, 0x04, 0, 0, 0, 2, 0x00, 0x12, 0x00, 0x13]) { s with sec := { s.sec with spdm := .version } }) :=
  spdmStep_answers hu (Nat.zero_le _)

theorem exec_spdmUnsupportedRequest (hu : spdmUp s = true) :
    exec (.spdmUnsupportedRequest b) s = .next (emit (.doe ([0x12, 0x7F, 0x07] ++ slice b 1 1)) s) :=
  if_pos hu

/-- Each request that needs a stage, sent before GET_VERSION, gets ERROR UnexpectedRequest, R468. -/
theorem exec_spdm_at_start (hu : spdmUp s = true) (hs : s.sec.spdm = .start) :
    ∀ i ∈ [Instr.getCapabilities b, .negotiateAlgorithms b, .getDigests b, .getCertificate b, .challenge b, .getMeasurements b],
      exec i s = .next (emit (.doe [0x12, 0x7F, 0x04, 0]) s) := by
  have early {need after code content} (hn : 0 < need) :
      spdmStep need after code content s = .next (emit (.doe [0x12, 0x7F, 0x04, 0]) s) := spdmStep_at_start hu hs hn
  simp only [List.forall_mem_cons, List.not_mem_nil, false_implies, implies_true, and_true]
  exact ⟨early Nat.one_pos, early Nat.two_pos, early three_pos, early three_pos, early three_pos, early three_pos⟩

theorem exec_getCapabilities (hu : spdmUp s = true) (hs : s.sec.spdm = .negotiated) :
    exec (.getCapabilities b) s
      = .next (emit (.doe ([0x12, 0x61] ++ Config.spdmAnswer 0x61 b)) { s with sec := { s.sec with spdm := .capabilities } }) :=
  spdmStep_answers hu (le_spdmRank_of_negotiated hs (by decide))

theorem exec_negotiateAlgorithms (hu : spdmUp s = true) (hs : s.sec.spdm = .negotiated) :
    exec (.negotiateAlgorithms b) s = .next (emit (.doe ([0x12, 0x63] ++ Config.spdmAnswer 0x63 b)) s) :=
  spdmStep_stays hu (le_spdmRank_of_negotiated hs (by decide)) hs.symm

theorem exec_getDigests (hu : spdmUp s = true) (hs : s.sec.spdm = .negotiated) :
    exec (.getDigests b) s = .next (emit (.doe ([0x12, 0x01, 0, 1] ++ sha384Bytes Config.certChains)) s) :=
  spdmStep_stays hu (le_spdmRank_of_negotiated hs le_rfl) rfl

/-- The answer to GET_CERTIFICATE: slot 0, the sizes of the part and of the rest, then the part, R468. -/
theorem exec_getCertificate (hu : spdmUp s = true) (hs : s.sec.spdm = .negotiated) {part : Bytes}
    (hp : part = slice Config.certChains (fld b 4 2) (fld b 6 2)) :
    exec (.getCertificate b) s = .next (emit (.doe ([0x12, 0x02]
      ++ ([0, 0] ++ toLe 2 part.length ++ toLe 2 (Config.certChains.length - fld b 4 2 - part.length)) ++ part)) s) := by
  subst hp
  rw [List.append_assoc]
  exact spdmStep_stays hu (le_spdmRank_of_negotiated hs le_rfl) rfl

theorem exec_challenge (hu : spdmUp s = true) (hs : s.sec.spdm = .negotiated) :
    exec (.challenge b) s = .next (emit (.doe ([0x12, 0x03]
      ++ (Config.spdmAnswer 0x03 b ++ Config.deviceSign 1 (b ++ Config.spdmAnswer 0x03 b)))) s) :=
  spdmStep_stays hu (le_spdmRank_of_negotiated hs le_rfl) rfl

theorem exec_getMeasurements_index_one (hu : spdmUp s = true) (hs : s.sec.spdm = .negotiated) (hw : fld b 3 1 = 1) :
    exec (.getMeasurements b) s = .next (emit (.doe ([0x12, 0x60]
      ++ [0, 0, 1, 55, 0, 0, 1, 1, 51, 0, 0x80, 48, 0] ++ toLe 48 (s.sec.mr.getD 0 0).toNat)) s) := by
  have h : exec (.getMeasurements b) s = execGetMeasurements b s := rfl
  rw [h, execGetMeasurements_index_one hw, measurementBlock_of_digest, spdmStep_stays hu (le_spdmRank_of_negotiated hs le_rfl) rfl]
  rfl

end SpdmCommands

section Interfaces

variable {s : State}

theorem exec_mctpControl (b : Bytes) (hc : s.power.calm = true) : exec (.mctpControl b) s = .next (emit (.mctp (Config.mctpAnswer b)) s) :=
  if_pos hc

/-- DOE discovery names the object at its index and the next index, R482. -/
theorem exec_doeDiscovery {idx v t : Nat} (hc : s.host.cfgCycles = true)
    (ho : [(0x0001, 0x00), (0x0001, 0x01), (0x2A5C, 0x01)][idx]? = some (v, t)) :
    exec (.doeDiscovery idx) s = .next (emit (.doe (toLe 2 v ++ toLe 1 t ++ toLe 1 (if idx + 1 < 3 then idx + 1 else 0))) s) := by
  have h : exec (.doeDiscovery idx) s = execDoeDiscovery idx s := rfl
  simp only [h, execDoeDiscovery, hc, ho, if_true]

/-- The TAP loads an instruction and shifts out what it captures while the calm island runs, R554. -/
theorem tapLoad_of_calm (i : TapInstr) (out : Nat) (hc : s.power.calm = true) :
    tapLoad i out s = .next { s with outputs := s.outputs ++ [.tdo out], power := { s.power with tap := i } } :=
  if_pos hc

theorem exec_tapReset (hc : s.power.calm = true) : exec .tapReset s = .next { s with power := { s.power with tap := .idcode } } :=
  if_pos hc

/-- JTAG_PRIVATE acts as BYPASS while debug is locked, R473. -/
theorem exec_jtagPrivate_locked (code : Nat) (hd : s.sec.debug = false) : exec (.jtagPrivate code) s = exec .bypass s := by
  have h : exec (.jtagPrivate code) s = execJtagPrivate code s := rfl
  simp only [h, execJtagPrivate, hd, Bool.false_eq_true, if_false]
  rfl

/-- Once debug is open JTAG_PRIVATE is loaded and shifts out a free value, the model's choice (log entry 92). -/
theorem exec_jtagPrivate_open (code : Nat) (hd : s.sec.debug = true) :
    exec (.jtagPrivate code) s = tapLoad .privateInstr (Config.freeNat s.freeCtr + code) { s with freeCtr := s.freeCtr + 1 } :=
  if_pos hd

end Interfaces

/-- Settles O14: SPDM by the two outcomes of a staged request, the TAP by what a load does. The layout of the ERROR responses (log
entry 91), what JTAG_PRIVATE shifts out (92) and IDCODE after a TAP reset (137) are the model's choices. -/
theorem managementInterfacesAnswer : Obligations.ManagementInterfacesAnswer := by
  unfold Obligations.ManagementInterfacesAnswer
  refine ⟨fun s b hc => exec_mctpControl b hc, ?_, ?_, ?_, ?_, ?_, ?_, ?_⟩
  · intro s b hp hs
    have hu := spdmUp_of_clocked hp hs
    exact ⟨exec_getVersion b hu, exec_spdmUnsupportedRequest b hu⟩
  · intro s b hp hs
    exact exec_spdm_at_start b (spdmUp_of_clocked hp hs)
  · intro s b hp hs hn
    have hu := spdmUp_of_clocked hp hs
    exact ⟨exec_getCapabilities b hu hn, exec_negotiateAlgorithms b hu hn, exec_getDigests b hu hn,
      ⟨_, exec_getCertificate b hu hn rfl, by simp⟩, ⟨_, exec_challenge b hu hn⟩, ⟨_, exec_getMeasurements_index_one b hu hn⟩⟩
  · intro s hc
    exact ⟨exec_doeDiscovery hc rfl, exec_doeDiscovery hc rfl, exec_doeDiscovery (v := 0x2A5C) hc rfl⟩
  · intro s pins hc
    exact ⟨tapLoad_of_calm _ _ hc, tapLoad_of_calm _ _ hc, exec_tapReset hc, tapLoad_of_calm _ _ hc, tapLoad_of_calm _ _ hc,
      tapLoad_of_calm _ _ hc, tapLoad_of_calm _ _ hc⟩
  · intro s code hc hd
    rw [exec_jtagPrivate_locked code hd]
    exact tapLoad_of_calm _ _ hc
  · intro s code hc hd
    rw [exec_jtagPrivate_open code hd]
    exact tapLoad_of_calm _ _ hc

end Sys2Proof.Management

/-! The state after reset, part by part. -/

namespace Sys2Proof.ResetState

open Sys2Proof Sys2Proof.Machine

/-- Every submission ring is at its reset value, R490. -/
theorem sqOf_reset (n : Nat) : sqOf State.reset.host n = SubRing.reset := rfl

/-- Every completion ring is at its reset value, R490. -/
theorem cqOf_reset (n : Nat) : cqOf State.reset.host n = CplRing.reset := rfl

/-- Every MSI-X vector is masked, the model's choice (log entry 59). -/
theorem msixEntry_reset (v : Nat) : msixEntry State.reset.host v = MsixEntry.reset := rfl

/-- No byte of memory is listed, and an unlisted byte reads 0 (R537; log entry 12). -/
theorem read_reset (a : Nat) : Memory.read State.reset.mem a = 0 := rfl

/-- The eight measurement registers hold zero, R459. -/
theorem mr_reset : State.reset.sec.mr = List.replicate 8 0 := rfl

/-- No clock limit binds at reset, R527. -/
theorem clockCeiling_reset : clockCeiling State.reset.power = 1800 := rfl

theorem submissionRing_reset (n : Nat) :
    (sqOf State.reset.host n).state = .disabled ∧ (sqOf State.reset.host n).head = 0 ∧ (sqOf State.reset.host n).tail = 0 := by
  rw [sqOf_reset]
  exact ⟨rfl, rfl, rfl⟩

theorem completionRing_reset (n : Nat) :
    (cqOf State.reset.host n).state = .disabled ∧ (cqOf State.reset.host n).head = 0 ∧ (cqOf State.reset.host n).tail = 0 := by
  rw [cqOf_reset]
  exact ⟨rfl, rfl, rfl⟩

theorem msixVector_reset (v : Nat) : (msixEntry State.reset.host v).masked = true ∧ v ∉ State.reset.host.pba := by
  rw [msixEntry_reset]
  exact ⟨rfl, List.not_mem_nil⟩

/-- No ring is in error and no event is latched, R513. -/
theorem irqEvent_reset : irqEvent State.reset.host = 0 := rfl

theorem measurements_reset : (∀ m ∈ State.reset.sec.mr, m = 0) ∧ State.reset.sec.mr.length = 8 := by
  rw [mr_reset]
  exact ⟨fun _ hm => List.eq_of_mem_replicate hm, List.length_replicate⟩

/-- Settles O58: what holds of every ring, vector, byte and measurement register by its lemma, the single fields as `State.reset` gives
them. The masked vectors (log entry 59), the zero of unlisted memory (12), the other zeros (3), and that the calm island runs and the
module stands in STANDBY (4), are the model's choices. -/
theorem resetLeavesTheStatedValues : Obligations.ResetLeavesTheStatedValues := by
  unfold Obligations.ResetLeavesTheStatedValues
  obtain ⟨hzero, hlength⟩ := measurements_reset
  refine ⟨rfl, rfl, read_reset, submissionRing_reset, completionRing_reset, msixVector_reset, irqEvent_reset, rfl, rfl, rfl, ?_⟩
  -- the role, the view of a lone module, and the tables of open objects
  refine ⟨rfl, rfl, rfl, rfl, rfl, rfl, rfl, rfl, rfl, rfl, rfl, ?_⟩
  -- the measurements and debug, the power and clock limits, the scheduler's items, the fault log
  exact ⟨hzero, hlength, rfl, rfl, clockCeiling_reset, rfl, rfl, rfl, rfl, rfl, rfl⟩

end Sys2Proof.ResetState

/-! Scheduling points, quadrants, windows and drains (chapters 01, 05, 13, 18 and 20): each event as an equation under the condition that
makes it occur. -/

namespace Sys2Proof.SchedulingEvents

open Sys2Proof Sys2Proof.Machine Sys2Proof.Laws

section Quadrants

variable {s : State} {q now : Nat}

/-- R384: 100 microseconds after the last scheduling point a new one occurs. -/
theorem schedulingTimer_due (hr : s.power.fwReady = true) (ht : s.sched.lastPoint + 100000 ≤ (advance now s).frontTime) :
    schedulingTimer now s = schedPoint (advance now s) :=
  if_pos (by simp only [advance_power, advance_sched]; exact ⟨hr, ht⟩)

/-- A completed thaw counted, its wait added and the quadrant's grant noted, before the quadrant moves to ACTIVE, R20, R532. -/
def noteThaw (q : Nat) (s : State) : State :=
  let x := quadrantOf s.power q
  setQuadrant q { x with lastGrant := s.frontTime }
    (bump (if x.state = .deepFrost then .thawsDeep else .thawsFrost) 0 1 (bump .thawWaitNs 0 (s.frontTime - x.since) (drawFree s).2))

@[simp] theorem quadrantOf_setQuadrant_self (x : Quadrant) : quadrantOf (setQuadrant q x s).power q = x := by
  simp [quadrantOf, setQuadrant]

theorem noteThaw_frame : (noteThaw q s).frontTime = s.frontTime ∧ (noteThaw q s).mem = s.mem ∧ (noteThaw q s).proto = s.proto :=
  ⟨rfl, rfl, rfl⟩

theorem noteThaw_lastGrant : (quadrantOf (noteThaw q s).power q).lastGrant = s.frontTime := by
  simp only [noteThaw, quadrantOf_setQuadrant_self]

/-- The time of a completed thaw is tenant 0's charge, and a scheduling point follows, R388, R532. -/
theorem thawComplete_demanded (hq : q < 16) (ht : (quadrantOf s.power q).thawing = true) :
    thawComplete q now s
      = schedPoint (chargeCells 0 (drawFree (advance now s)).1 (moveQuadrant q .active (noteThaw q (advance now s)))) := by
  have h : ¬ ((quadrantOf (advance now s).power q).thawing = false ∨ 16 ≤ q) := by
    simp only [advance_power, ht, Bool.true_eq_false, false_or, Nat.not_le]
    exact hq
  exact if_neg h

theorem frost_next (ho : (frostOrder (advance now s)).head? = some q)
    (ht : thawTarget (advance now s) < (quadrantsIn s.power .active).length) :
    frost q now s = bump .frostEntries 0 1 (moveQuadrant q .frost (advance now s)) :=
  if_pos ⟨ho, by rwa [advance_power]⟩

theorem deepFrost_due (hq : q < 16) (hf : (quadrantOf s.power q).state = .frost) (hn : (quadrantOf s.power q).thawing = false)
    (hp : s.power.policy.deepAfterMs ≠ 0)
    (ht : (quadrantOf s.power q).since + s.power.policy.deepAfterMs * 1000000 ≤ (advance now s).frontTime) :
    deepFrost q now s = bump .deepEntries 0 1 (moveQuadrant q .deepFrost (advance now s)) :=
  if_pos (by simp only [advance_power]; exact ⟨hq, hf, hn, hp, ht⟩)

theorem hubDomainGate_idle {d : Nat} (hd : d ∈ [26, 27, 32, 33]) (hc : s.power.conversion = true) (hg : s.power.gated.contains d = false)
    (ht : kgetD s.power.hubLast d s.power.readyAt + 100000 ≤ (advance now s).frontTime) :
    hubDomainGate d now s = { advance now s with power := { s.power with gated := d :: s.power.gated } } := by
  have hin : [26, 27, 32, 33].contains d = true := List.contains_iff_mem.mpr hd
  simp only [hubDomainGate, advance_power, hin, hc, hg, ht, Bool.not_false, Bool.and_self, and_self, if_true]

end Quadrants

section Windows

variable {s : State} {tenant now : Nat}

theorem budgetRefill_some {b : Budget} (hb : budgetOf (advance now s) tenant = some b) :
    budgetRefill tenant now s = setBudget tenant b (advance now s) := by
  simp only [budgetRefill, hb]

/-- R410: a past window whose covered requests have all ended is judged. -/
theorem contractWindowJudged_past {n : Nat} {c : Contract} {x : ContractWindow} (hc : kget s.sched.contracts tenant = some c)
    (hx : c.windows.find? (fun y => y.index == n) = some x) (hn : n < windowIndex c.windowMs s.frontTime) (he : x.admitted ≤ x.ended) :
    contractWindowJudged tenant n s = judgeWindow tenant x s := by
  simp only [contractWindowJudged, hc, hx, hn, he, and_self, if_true]

@[simp] theorem histWindowMs_advance : histWindowMs (advance now s) tenant = histWindowMs s tenant := by
  simp only [histWindowMs, advance_sched]

theorem histogramWindow_sched :
    (histogramWindow now s).sched = { s.sched with histograms := s.sched.histograms.map (fun p =>
      (p.1, rollHistogram p.2 (windowIndex (histWindowMs s (p.1 / 16)) (advance now s).frontTime))) } := by
  simp only [histogramWindow, histWindowMs_advance, advance_sched]

theorem histogramWindow_frame : (histogramWindow now s).mem = s.mem ∧ (histogramWindow now s).proto = s.proto :=
  ⟨advance_mem s now, advance_proto s now⟩

end Windows

section Drains

variable {s : State} {h : Nat} {r : Run}

/-- The HALTED records of a run's running cores, with the reasons that `s` holds, R568, R578. -/
def recordHalted (s : State) (r : Run) (t : State) : State :=
  ((runHarts r).filter (fun x => decide ((coreOf s x).life = .running))).foldl
    (fun t x => track 0xA (0x1000 + x) r.tenant r.commandId (coreOf s x).reason 0 t) t

theorem track_haltWaits (code unit tenant command a b : Nat) (t : State) :
    (track code unit tenant command a b t).dbg.haltWaits = t.dbg.haltWaits := rfl

theorem recordHalted_haltWaits (t : State) : (recordHalted s r t).dbg.haltWaits = t.dbg.haltWaits :=
  List.foldlRecOn _ _ (motive := fun u : State => u.dbg.haltWaits = t.dbg.haltWaits) rfl
    (fun _ hu _ _ => (track_haltWaits _ _ _ _ _ _ _).trans hu)

/-- A drained run that no breakpoint halted and no HALT waits for is HALTED and recorded, R568. -/
theorem haltDrainComplete_drained (hr : runOf s h = some r) (hh : r.halt = .draining none) (hb : runBusy s r = false)
    (hw : s.dbg.haltWaits = []) : haltDrainComplete h s = recordHalted s r (setRun { r with halt := .halted } s) := by
  have hnone : (recordHalted s r (setRun { r with halt := .halted } s)).dbg.haltWaits = [] := by
    rw [recordHalted_haltWaits, setRun_dbg, hw]
  simp only [recordHalted] at hnone ⊢
  simp only [haltDrainComplete, hr, hh, hb, Bool.false_eq_true, if_false, Option.bind_none, hnone, List.filter_nil, List.foldl_nil]
  rw [← hnone]

/-- The run waits for the step of the command `h`. -/
def steppedBy (h : Nat) (r : Run) : Bool :=
  match r.halt with
  | .stepping _ x => x == h
  | _ => false

/-- A step that has not retired in its time ends with OUTCOME 1, R574. -/
theorem stepStallTimeout_stepping {hart : Nat} (hf : s.compute.runs.find? (steppedBy h) = some r) (hh : r.halt = .stepping hart h) :
    stepStallTimeout h s = endStep r 1 (coreOf s hart).pc.toNat (setCore hart { coreOf s hart with stopped := true } s) := by
  unfold stepStallTimeout
  split
  case h_1 hnone => exact absurd (hnone.symm.trans hf) (Option.some_ne_none r).symm
  case h_2 found hfound =>
    obtain rfl : found = r := Option.some.inj (hfound.symm.trans hf)
    simp only [hh]

/-- A running core waits at a barrier. -/
def waitsAtBar (s : State) (x : Nat) : Bool :=
  match (coreOf s x).stall with
  | .bar _ _ _ => decide ((coreOf s x).life = .running)
  | _ => false

theorem waitsAtBar_iff {x : Nat} :
    waitsAtBar s x = true ↔ (coreOf s x).life = .running ∧ ∃ a b c, (coreOf s x).stall = .bar a b c := by
  unfold waitsAtBar
  split
  next a b c hbar => simp [hbar]
  next hbar => simpa using fun _ a b c e => hbar a b c e

/-- The cores of a run that wait at a barrier. -/
def stuckHarts (s : State) (r : Run) : List Nat := (runHarts r).filter (waitsAtBar s)

theorem mem_stuckHarts {x : Nat} :
    x ∈ stuckHarts s r ↔ x ∈ runHarts r ∧ (coreOf s x).life = .running ∧ ∃ a b c, (coreOf s x).stall = .bar a b c := by
  rw [stuckHarts, List.mem_filter, waitsAtBar_iff]

theorem nth_mod_length_mem {l : List Nat} (hl : l ≠ []) (d : Nat) : nth l (d % l.length) ∈ l := by
  have hd : d % l.length < l.length := Nat.mod_lt d (List.length_pos_iff.mpr hl)
  rw [nth, List.getD_eq_getElem l 0 hd]
  exact List.getElem_mem hd

/-- R172: a run whose cores have all ended or wait at a barrier faults with CAUSE 6 at a waiting core. -/
theorem barrierDeadlock_stuck (hr : runOf s h = some r) (hh : r.halt = .none) (ht : r.transfers = [])
    (hne : stuckHarts s r ≠ []) (hall : ∀ x ∈ runHarts r, (coreOf s x).life = .ended ∨ x ∈ stuckHarts s r) :
    ∃ hart ∈ stuckHarts s r, barrierDeadlock h s = faultRun r hart 6 .badParam 0 (coreOf s hart).pc.toNat 0 (insnAt (coreOf s hart))
      { s with freeCtr := s.freeCtr + 1 } := by
  have hdone : (runHarts r).all (fun x => decide ((coreOf s x).life = .ended) || (stuckHarts s r).contains x) = true := by
    simpa using hall
  refine ⟨_, nth_mod_length_mem hne (drawFree s).1, ?_⟩
  unfold barrierDeadlock
  rw [hr]
  exact if_pos ⟨hh, ht, hne, hdone⟩

end Drains

/-- Settles O22: the condition of each clause is the guard of its event. A drained run's wait list stays empty because the HALTED records
touch only the track rings; a deadlocked run has a stuck core to report because one waits at a barrier. -/
theorem schedulingEventsTakeEffect : Obligations.SchedulingEventsTakeEffect := by
  unfold Obligations.SchedulingEventsTakeEffect
  refine ⟨?_, ?_, ?_, ?_, ?_, ?_, ?_, ?_, ?_, ?_, ?_⟩
  · intro s now hr ht
    exact congrArg (nextOf s) (schedulingTimer_due hr ht)
  · intro s q now hq ht
    obtain ⟨hfront, hmem, hproto⟩ := noteThaw_frame (s := advance now s) (q := q)
    exact ⟨_, noteThaw q (advance now s), congrArg (nextOf s) (thawComplete_demanded hq ht), hfront, hmem.trans (advance_mem s now),
      hproto.trans (advance_proto s now), noteThaw_lastGrant⟩
  · intro s q now ho ht
    exact congrArg (nextOf s) (frost_next ho ht)
  · intro s q now hq hf hn hp ht
    exact congrArg (nextOf s) (deepFrost_due hq hf hn hp ht)
  · intro s d now hd hc hg ht
    exact congrArg (nextOf s) (hubDomainGate_idle hd hc hg ht)
  · intro s tenant now b hb
    exact congrArg (nextOf s) (budgetRefill_some hb)
  · intro s tenant n c x hc hx hn he
    exact congrArg (nextOf s) (contractWindowJudged_past hc hx hn he)
  · intro s now
    exact ⟨histogramWindow now s, rfl, histogramWindow_sched, histogramWindow_frame⟩
  · intro s h r hr hh hb hw
    exact congrArg (nextOf s) (haltDrainComplete_drained hr hh hb hw)
  · intro s h hart r hf hh
    exact congrArg (nextOf s) (stepStallTimeout_stepping hf hh)
  · intro s h r hr hh ht ⟨x, hx, a, b, c, hbar, hrun⟩ hall
    have hne : stuckHarts s r ≠ [] := List.ne_nil_of_mem (mem_stuckHarts.mpr ⟨hx, hrun, a, b, c, hbar⟩)
    obtain ⟨hart, hstuck, he⟩ := barrierDeadlock_stuck hr hh ht hne
      (fun y hy => (hall y hy).imp_right (fun hy' => mem_stuckHarts.mpr ⟨hy, hy'⟩))
    obtain ⟨hmem, hlife, -⟩ := mem_stuckHarts.mp hstuck
    exact ⟨hart, hmem, hlife, congrArg (nextOf s) he⟩

end Sys2Proof.SchedulingEvents

/-! Command headers (R33, R43, R44): fields written one after the other, and the scope path as a number of eight digits to the base 4,096. -/

namespace Sys2Proof.Headers

open Sys2Proof Sys2Proof.Machine Sys2Proof.Laws

section Fields

/-- The first of joined fields reads back. -/
theorem fld_toLe_append (n v : Nat) (b : Bytes) : fld (toLe n v ++ b) 0 n = v % 256 ^ n := by
  rw [fld_append_left _ _ _ _ (by simp), fld_toLe]

/-- A field behind the first of joined fields. -/
theorem fld_toLe_skip {n off : Nat} (v len : Nat) (b : Bytes) (h : n ≤ off) : fld (toLe n v ++ b) off len = fld b (off - n) len := by
  obtain ⟨k, rfl⟩ := Nat.exists_eq_add_of_le h
  rw [fld_append_right _ _ _ _ n (length_toLe n v), Nat.add_sub_cancel_left]

theorem slice_toLe_append (n v : Nat) (b : Bytes) : slice (toLe n v ++ b) 0 n = toLe n v := by
  have h := slice_zero_length (toLe n v)
  rw [length_toLe] at h
  rw [slice_append_left _ _ _ _ (by simp), h]

theorem slice_toLe_skip {n off : Nat} (v len : Nat) (b : Bytes) (h : n ≤ off) : slice (toLe n v ++ b) off len = slice b (off - n) len := by
  obtain ⟨k, rfl⟩ := Nat.exists_eq_add_of_le h
  rw [slice_append_right _ _ _ _ n (length_toLe n v), Nat.add_sub_cancel_left]

/-- A field written back is the bytes it was read from. -/
theorem toLe_fld {b : Bytes} {off len : Nat} (h : off + len ≤ b.length) : toLe len (fld b off len) = slice b off len := by
  have e : (slice b off len).length = len := by rw [length_slice]; omega
  have r := toLe_leNat (slice b off len)
  rwa [e] at r

/-- Two adjoining slices are one. -/
theorem slice_append_slice (b : Bytes) (off m n : Nat) : slice b off m ++ slice b (off + m) n = slice b off (m + n) := by
  simp only [slice, List.take_add, List.drop_drop]

end Fields

section Path

/-- The digits of a number to the base `k` spell the number again. -/
theorem ofDigits_range_digits (k n v : Nat) : Nat.ofDigits k ((List.range n).map (fun i => v / k ^ i % k)) = v % k ^ n := by
  induction n generalizing v with
  | zero => simp [Nat.mod_one]
  | succ n ih =>
    have shift : (List.range n).map ((fun i => v / k ^ i % k) ∘ Nat.succ) = (List.range n).map (fun i => v / k / k ^ i % k) := by
      simp [Function.comp_def, Nat.pow_succ', Nat.div_div_eq_div_mul]
    rw [List.range_succ_eq_map, List.map_cons, List.map_map, shift, Nat.ofDigits_cons, ih, Nat.pow_succ', Nat.mod_mul]
    simp

/-- Each digit of a number that is spelt with digits below the base reads back. -/
theorem ofDigits_digits {k : Nat} {l : List Nat} (hl : ∀ e ∈ l, e < k) : (List.range l.length).map (fun i => Nat.ofDigits k l / k ^ i % k) = l := by
  induction l with
  | nil => rfl
  | cons e l ih =>
    have he : e < k := hl e (by simp)
    have hdiv : (e + k * Nat.ofDigits k l) / k = Nat.ofDigits k l := by
      rw [Nat.add_mul_div_left _ _ (by omega), Nat.div_eq_of_lt he, Nat.zero_add]
    have shift : ∀ i, (e + k * Nat.ofDigits k l) / k ^ (i + 1) % k = Nat.ofDigits k l / k ^ i % k := fun i => by
      rw [Nat.pow_succ', ← Nat.div_div_eq_div_mul, hdiv]
    rw [List.length_cons, List.range_succ_eq_map, List.map_cons, List.map_map, Nat.ofDigits_cons]
    simp only [Function.comp_def, Nat.succ_eq_add_one, shift, ih (fun x hx => hl x (by simp [hx])), Nat.pow_zero, Nat.div_one,
      Nat.add_mul_mod_self_left, Nat.mod_eq_of_lt he]

/-- The sum that `pathBytes` takes over the entries is the number whose digits they are. -/
theorem foldl_path (l : List Nat) (k acc : Nat) :
    (l.zipIdx k).foldl (fun acc p => acc + p.1 * 2 ^ (12 * p.2)) acc = acc + 2 ^ (12 * k) * Nat.ofDigits 4096 l := by
  induction l generalizing k acc with
  | nil => simp
  | cons e l ih =>
    have hp : 2 ^ (12 * (k + 1)) = 2 ^ (12 * k) * 4096 := by rw [Nat.mul_succ, Nat.pow_add]
    rw [List.zipIdx_cons, List.foldl_cons, ih, Nat.ofDigits_cons, hp]
    ring

/-- The twelve bytes of a path of eight entries. -/
theorem pathBytes_eq {l : List Nat} (hl : l.length = 8) : pathBytes l = toLe 12 (Nat.ofDigits 4096 l) := by
  have ht : (l ++ List.replicate 8 0xFFF).take 8 = l := by rw [← hl, List.take_left]
  simp only [pathBytes, ht, foldl_path l 0 0, Nat.mul_zero, Nat.pow_zero, Nat.one_mul, Nat.zero_add]

theorem pathEntries_eq (b : Bytes) : pathEntries b = (List.range 8).map (fun i => leNat b / 4096 ^ i % 4096) := by
  have hp : ∀ i, 2 ^ (12 * i) = 4096 ^ i := fun i => by rw [Nat.pow_mul]
  have hw : ∀ i, 12 * i + 11 + 1 - 12 * i = 12 := fun i => by omega
  simp only [pathEntries, bits, hp, hw, Nat.reducePow]

/-- The entries of a scope path are read as they are written, R33. -/
theorem pathEntries_pathBytes {l : List Nat} (hl : l.length = 8) (he : ∀ e ∈ l, e < 4096) : pathEntries (pathBytes l) = l := by
  have hlt : Nat.ofDigits 4096 l < 256 ^ 12 := by
    have := Nat.ofDigits_lt_base_pow_length (b := 4096) (by omega) he
    rw [hl] at this
    exact this.trans_eq (by norm_num)
  have h := ofDigits_digits he
  rw [hl] at h
  rw [pathEntries_eq, pathBytes_eq hl, leNat_toLe, Nat.mod_eq_of_lt hlt, h]

/-- The twelve bytes of a scope path are written as they are read, R33. -/
theorem pathBytes_pathEntries {b : Bytes} (hb : b.length = 12) : pathBytes (pathEntries b) = b := by
  have hlt : leNat b < 4096 ^ 8 := by
    have := leNat_lt b
    rw [hb] at this
    exact this.trans_eq (by norm_num)
  have h := toLe_leNat b
  rw [hb] at h
  rw [pathBytes_eq (by simp [pathEntries_eq]), pathEntries_eq, ofDigits_range_digits, Nat.mod_eq_of_lt hlt, h]

theorem length_pathBytes (l : List Nat) : (pathBytes l).length = 12 := by simp [pathBytes]

end Path

section Flags

/-- FLAGS as `headerBytes` writes it, R44. -/
def flagsNat (enc txn fence : Bool) (rsv : Nat) : Nat := b2n enc + 2 * b2n txn + 4 * b2n fence + 8 * rsv

theorem b2n_bitOf (v i : Nat) : b2n (bitOf v i) = v / 2 ^ i % 2 := by
  unfold b2n bitOf
  split <;> simp_all

/-- The bits of FLAGS read back, R44. -/
theorem flagsNat_bits (enc txn fence : Bool) (rsv : Nat) :
    bitOf (flagsNat enc txn fence rsv) 0 = enc ∧ bitOf (flagsNat enc txn fence rsv) 1 = txn ∧ bitOf (flagsNat enc txn fence rsv) 2 = fence
      ∧ flagsNat enc txn fence rsv / 8 = rsv := by
  have key : ∀ b : Bool, ∀ n, n % 2 = b2n b → (n % 2 == 1) = b := by
    intro b n h
    rw [h]
    cases b <;> rfl
  have lt : ∀ b, b2n b < 2 := by decide
  have h1 := lt enc
  have h2 := lt txn
  have h3 := lt fence
  simp only [bitOf, flagsNat]
  exact ⟨key _ _ (by omega), key _ _ (by omega), key _ _ (by omega), by omega⟩

/-- FLAGS is its three bits and its reserved rest, R44. -/
theorem flagsNat_of_bits (v : Nat) : flagsNat (bitOf v 0) (bitOf v 1) (bitOf v 2) (v / 8) = v := by
  simp only [flagsNat, b2n_bitOf]
  omega

theorem flagsNat_lt (enc txn fence : Bool) {rsv : Nat} (h : rsv < 2 ^ 13) : flagsNat enc txn fence rsv < 2 ^ 16 := by
  have lt : ∀ b, b2n b < 2 := by decide
  have h1 := lt enc
  have h2 := lt txn
  have h3 := lt fence
  unfold flagsNat
  omega

end Flags

section Header

/-- The bytes of a header, field behind field, R43. -/
theorem headerBytes_eq (h : Header) : headerBytes h =
    toLe 1 h.version ++ (toLe 1 h.hdrLen ++ (toLe 2 h.opcode ++ (toLe 2 (flagsNat h.paramEnc h.inTxn h.fence h.flagsRsv) ++ (toLe 2 h.paramLen
      ++ (toLe 8 h.commandId ++ (toLe 8 h.seq ++ (pathBytes h.scope ++ (toLe 4 h.sessionId ++ (toLe 4 h.txnId
        ++ (toLe 2 h.replyRing ++ (toLe 1 h.prio ++ toLe 1 h.scopeDepth))))))))))) := by
  simp only [headerBytes, flagsNat, List.append_assoc]

theorem length_headerBytes (h : Header) : (headerBytes h).length = 48 := by
  simp [headerBytes_eq, length_pathBytes]

/-- The header that the bytes of a header spell, its fields cut to their widths. -/
theorem parseHeader_headerBytes {h : Header} (hs : h.scope.length = 8) :
    parseHeader (headerBytes h) =
      { version := h.version % 256 ^ 1, hdrLen := h.hdrLen % 256 ^ 1, opcode := h.opcode % 256 ^ 2
        paramEnc := bitOf (flagsNat h.paramEnc h.inTxn h.fence h.flagsRsv % 256 ^ 2) 0
        inTxn := bitOf (flagsNat h.paramEnc h.inTxn h.fence h.flagsRsv % 256 ^ 2) 1
        fence := bitOf (flagsNat h.paramEnc h.inTxn h.fence h.flagsRsv % 256 ^ 2) 2
        flagsRsv := flagsNat h.paramEnc h.inTxn h.fence h.flagsRsv % 256 ^ 2 / 8
        paramLen := h.paramLen % 256 ^ 2, commandId := h.commandId % 256 ^ 8, seq := h.seq % 256 ^ 8
        scope := pathEntries (pathBytes h.scope), sessionId := h.sessionId % 256 ^ 4, txnId := h.txnId % 256 ^ 4
        replyRing := h.replyRing % 256 ^ 2, prio := h.prio % 256 ^ 1, scopeDepth := h.scopeDepth % 256 ^ 1 } := by
  rw [headerBytes_eq, pathBytes_eq hs, parseHeader]
  simp only [fld_toLe_append, slice_toLe_append, fld_toLe_skip, slice_toLe_skip, fld_toLe, Nat.reduceLeDiff, Nat.reduceSub]

/-- A header whose fields fit their widths is read as it is written, R43, R44. -/
theorem parseHeader_headerBytes_of_fits {h : Header} (hversion : h.version < 2 ^ 8) (hhdrLen : h.hdrLen < 2 ^ 8) (hopcode : h.opcode < 2 ^ 16)
    (hrsv : h.flagsRsv < 2 ^ 13) (hparamLen : h.paramLen < 2 ^ 16) (hid : h.commandId < 2 ^ 64) (hseq : h.seq < 2 ^ 64)
    (hscope : h.scope.length = 8) (hentries : ∀ e ∈ h.scope, e < 2 ^ 12) (hsession : h.sessionId < 2 ^ 32) (htxn : h.txnId < 2 ^ 32)
    (hring : h.replyRing < 2 ^ 16) (hprio : h.prio < 2 ^ 8) (hdepth : h.scopeDepth < 2 ^ 8) : parseHeader (headerBytes h) = h := by
  obtain ⟨henc, hintxn, hfence, hrest⟩ := flagsNat_bits h.paramEnc h.inTxn h.fence h.flagsRsv
  rw [parseHeader_headerBytes hscope, pathEntries_pathBytes hscope hentries]
  have hflags := flagsNat_lt h.paramEnc h.inTxn h.fence hrsv
  simp only [Nat.reducePow] at *
  simp only [Nat.mod_eq_of_lt, *]

/-- 48 bytes are written back from the header they spell, R43. -/
theorem headerBytes_parseHeader {b : Bytes} (hb : b.length = 48) : headerBytes (parseHeader b) = b := by
  have hpath : pathBytes (pathEntries (slice b 24 12)) = slice b 24 12 := pathBytes_pathEntries (by simp [hb])
  have hall : slice b 0 48 = b := by rw [← hb, slice_zero_length]
  have field : ∀ off len, off + len ≤ 48 → toLe len (fld b off len) = slice b off len := fun off len h => toLe_fld (hb ▸ h)
  rw [headerBytes_eq]
  simp only [parseHeader, flagsNat_of_bits, hpath]
  rw [field 0 1, field 1 1, field 2 2, field 4 2, field 6 2, field 8 8, field 16 8, field 36 4, field 40 4, field 44 2, field 46 1, field 47 1]
  rw [slice_append_slice b 46 1 1, slice_append_slice b 44 2 2, slice_append_slice b 40 4 4, slice_append_slice b 36 4 8,
    slice_append_slice b 24 12 12, slice_append_slice b 16 8 24, slice_append_slice b 8 8 32, slice_append_slice b 6 2 40,
    slice_append_slice b 4 2 42, slice_append_slice b 2 2 44, slice_append_slice b 1 1 46, slice_append_slice b 0 1 47, hall]
  all_goals norm_num

end Header

/-- Settles O59: fields read back from their place, the scope path by the digits of its number to the base 4,096, the flags bit by bit;
written back, the fields are adjoining slices of the 48 bytes. -/
theorem headerRoundTrip : Obligations.HeaderRoundTrip := by
  unfold Obligations.HeaderRoundTrip
  refine ⟨?_, fun b hb => headerBytes_parseHeader hb⟩
  intro h hversion hhdrLen hopcode hrsv hparamLen hid hseq hscope hentries hsession htxn hring hprio hdepth
  exact ⟨length_headerBytes h, parseHeader_headerBytes_of_fits hversion hhdrLen hopcode hrsv hparamLen hid hseq hscope hentries hsession htxn
    hring hprio hdepth⟩

end Sys2Proof.Headers

/-! Command rows in a transaction (R60 to R67), checks that fail (R49, R55), and the step itself. -/

namespace Sys2Proof.CommandRows

open Sys2Proof Sys2Proof.Machine Sys2Proof.Laws

/-- Settles O1: `step` takes the front of the queue apart and nothing else. That the block idles on an empty queue is the model's choice
(log entry 1). -/
theorem stepRunsFrontCommand : Obligations.StepRunsFrontCommand := by
  unfold Obligations.StepRunsFrontCommand
  refine ⟨fun s c rest => rfl, fun s hs => ?_⟩
  rw [step, hs]

section Staged

variable {c : Command} {s : State} {h : Nat} {f : Flight}

/-- A row of a command with IN_TXN set stages it, R64. -/
theorem execCommand_staged (hf : flightOf s h = some f) (ho : f.op = c.op) (hm : mayRun s f = true) (ht : f.hdr.inTxn = true) :
    execCommand c h s = nextOf s (stage c f s) := by
  simp only [execCommand, runCommand, hf, ho, hm, ht, and_self, if_true, nextOf]

/-- As `execCommand_staged`, for a command on the holders of its object. -/
theorem execAt_staged {mods : State → Flight → List Nat} (hf : flightOf s h = some f) (ho : f.op = c.op) (hm : mayRun s f = true)
    (ht : f.hdr.inTxn = true) : execAt c mods h s = nextOf s (stage c f s) := by
  simp only [execAt, runAt, hf, ho, hm, ht, and_self, if_true, nextOf]

/-- As `execCommand_staged`, for a command of the entry member alone. -/
theorem execEntry_staged (hf : flightOf s h = some f) (ho : f.op = c.op) (hm : mayRun s f = true) (ht : f.hdr.inTxn = true) :
    execEntry c h s = nextOf s (stage c f s) := by
  simp only [execEntry, runEntry, hf, ho, hm, ht, and_self, if_true, nextOf]

/-- The row of a FRONT_JOIN of one SIDE stages it, R442. -/
theorem frontJoinRow_staged {side : Nat} (hf : flightOf s h = some f) (ho : f.op = .frontJoin) (hside : par f 0 1 = side) (hm : mayRun s f = true)
    (ht : f.hdr.inTxn = true) : nextOf s (frontJoinRow side h s) = nextOf s (stage frontJoinCommand f s) := by
  have hrow : frontJoinRow side h s = runCommand frontJoinCommand h s := by
    simp only [frontJoinRow, hf, ho, hside, true_or, and_self, if_true]
  rw [hrow]
  exact execCommand_staged (c := frontJoinCommand) hf ho hm ht

/-- A row of one form of a command stages a command of that form. -/
theorem ofForm_staged {form : Flight → Bool} (hf : flightOf s h = some f) (hform : form f = true) (ho : f.op = c.op) (hm : mayRun s f = true)
    (ht : f.hdr.inTxn = true) : ofForm form h s (execCommand c h) = nextOf s (stage c f s) :=
  (ofForm_of hf hform).trans (execCommand_staged hf ho hm ht)

end Staged

/-- Settles O49: each row is one of the shared ways to run a command, and each of those stages a command whose IN_TXN is set before it
looks at anything else of it. -/
theorem rowsStageTheirCommand : Obligations.RowsStageTheirCommand := by
  unfold Obligations.RowsStageTheirCommand
  intro s h f hf hm ht
  have row : ∀ c : Command, f.op = c.op → execCommand c h s = nextOf s (stage c f s) := fun c ho => execCommand_staged hf ho hm ht
  have at' : ∀ (c : Command) (mods), f.op = c.op → execAt c mods h s = nextOf s (stage c f s) := fun c mods ho => execAt_staged hf ho hm ht
  have form : ∀ (c : Command) (p : Flight → Bool), p f = true → f.op = c.op → ofForm p h s (execCommand c h) = nextOf s (stage c f s) :=
    fun c p hp ho => ofForm_staged hf hp ho hm ht
  -- keys, tenants, roles, memory
  refine ⟨row keyRetireCommand, fun ho hp => form keyInstallCommand _ (by simp [hp]) ho, fun ho hp => form keyInstallCommand _ (by simp [hp]) ho,
    row tenantCreateCommand, row tenantDestroyCommand, row roleSetCommand, row memAllocCommand, row memFreeCommand, ?_⟩
  -- models, chains, tables, indexes, stop sets, pipelines
  refine ⟨row modelUnloadCommand, row steerSetLoadCommand, row steerSetDropCommand, row chainDefineCommand, row tableCreateCommand,
    at' tableDropCommand _, at' hotPolicyCommand _, row indexCreateCommand, at' indexDropCommand _, fun ho => execEntry_staged hf ho hm ht,
    fun ho hp => form pipelineCommand _ (by simp [pipeDeletes, hp]) ho, fun ho hp => form pipelineCommand _ hp ho, ?_⟩
  -- shares, budgets, fronts, links, power
  exact ⟨row sharesSetCommand, fun ho hp => form budgetCommand _ (by simp [hp]) ho, fun ho hp => form budgetCommand _ hp ho, row frontFormCommand,
    fun ho hp => frontJoinRow_staged hf ho hp hm ht, fun ho hp => frontJoinRow_staged hf ho hp hm ht, row frontLeaveCommand,
    row linkConfigCommand, row anchorSetCommand, row powerCapCommand, row statePolicyCommand⟩

section Failing

variable {c : Command} {s : State} {h : Nat} {f : Flight} {st : Status} {d : Nat}

/-- A command on this module whose check fails ends with the check's status, R49. -/
theorem runLocal_fails (hc : c.check s f = some (st, d)) : runLocal c f s = finish f (plainReply st d) s := by
  simp only [runLocal, hc]

/-- A command outside a transaction that concerns this module alone runs here. -/
theorem runCommand_local (hf : flightOf s h = some f) (ho : f.op = c.op) (hm : mayRun s f = true) (ht : f.hdr.inTxn = false) (hh : Here s f) :
    runCommand c h s = runLocal c f s := by
  simp only [runCommand, hf, ho, hm, ht, and_self, if_true, Bool.false_eq_true, if_false]
  rcases hh with hp | hp
  · unfold fromPeer at hp
    split at hp
    · simp_all
    · simp at hp
  · split
    · rfl
    · rw [if_pos hp]

/-- A command of the host whose scope does not name this module alone runs front-wide. -/
theorem runCommand_front (hf : flightOf s h = some f) (ho : f.op = c.op) (hm : mayRun s f = true) (ht : f.hdr.inTxn = false)
    (hp : fromPeer f = false) (hs : scopeModules s f.hdr ≠ [s.fabric.view.self]) : runCommand c h s = runFront c f (scopeModules s f.hdr) s := by
  simp only [runCommand, hf, ho, hm, ht, and_self, if_true, Bool.false_eq_true, if_false]
  unfold fromPeer at hp
  split at hp
  · simp at hp
  · simp only [*, if_false]

/-- Naming the object of a command draws a free value and leaves the view. -/
theorem fabric_ite_drawFree (p : Prop) [Decidable p] : (if p then (drawFree s).2 else s).fabric = s.fabric := by
  split <;> rfl

/-- On a STALE module a command of good length whose scope names others ends with EPOCH_STALE, R449. -/
theorem runFront_stale {mods : List Nat} (hone : namesOne f = false) (hl : lengthFault (c.check s f) = false) (hr : s.fabric.view.rights = .stale) :
    runFront c f mods s = finish f (plainReply .epochStale) s := by
  simp only [runFront, hone, hl, fabric_ite_drawFree, hr, Bool.false_and, Bool.or_self, Bool.false_eq_true, if_false, if_true]

/-- On a module with full rights a command of good length whose scope names an unreachable module ends with MEMBER_UNREACHABLE and the first
such module's ID, R450. -/
theorem runFront_unreachable {mods : List Nat} {m : Nat} (hone : namesOne f = false) (hl : lengthFault (c.check s f) = false)
    (hn : namesObject f.op = false) (hr : s.fabric.view.rights = .full) (hm : mods.find? (fun m => !reaches s m) = some m) :
    runFront c f mods s = finish f (plainReply .memberUnreachable m) s := by
  simp [runFront, hone, hl, hn, hr, hm]

/-- A row of a command that is judged on this module ends with the status of the check that fails. -/
theorem execCommand_fails (hf : flightOf s h = some f) (ho : f.op = c.op) (hm : mayRun s f = true) (ht : f.hdr.inTxn = false) (hh : Here s f)
    (hc : c.check s f = some (st, d)) : execCommand c h s = rejects s f st d := by
  rw [execCommand, runCommand_local hf ho hm ht hh, runLocal_fails hc]
  rfl

theorem execEntry_fails (hf : flightOf s h = some f) (ho : f.op = c.op) (hm : mayRun s f = true) (ht : f.hdr.inTxn = false)
    (hc : c.check s f = some (st, d)) : execEntry c h s = rejects s f st d := by
  simp only [execEntry, runEntry, hf, ho, hm, ht, and_self, if_true, Bool.false_eq_true, if_false, runLocal_fails hc, rejects, nextOf]

theorem execAt_fails {mods : State → Flight → List Nat} (hf : flightOf s h = some f) (ho : f.op = c.op) (hm : mayRun s f = true)
    (ht : f.hdr.inTxn = false) (hc : c.check s f = some (st, d)) : execAt c mods h s = rejects s f st d := by
  simp only [execAt, runAt, hf, ho, hm, ht, and_self, if_true, Bool.false_eq_true, if_false, runLocal_fails hc, hc, ite_self, rejects, nextOf]

/-- A command that passes its checks, with nothing locked and nothing to wait for, ends as its run says where that fails. -/
theorem runLocal_run_fails (hc : c.check s f = none) (hl : (c.changes && lockedAny s (c.writes s f)) = false) (hw : c.waits s f = false)
    (he : c.run s f = .reject st d) : runLocal c f s = finish f (plainReply st d) s := by
  simp only [runLocal, hc, hl, hw, he, Bool.or_self, Bool.false_eq_true, if_false]

theorem scope_ne_self {s : State} {f : Flight} {a b : Nat} {l : List Nat} (hs : scopeModules s f.hdr = a :: b :: l) :
    scopeModules s f.hdr ≠ [s.fabric.view.self] := by
  simp [hs]

end Failing

/-- Settles O50: a failed check ends the command before it locks, waits or runs, wherever it is judged; a command of several modules is
judged against the rights of this module first, then against whom it reaches. -/
theorem failedChecksHaveNoEffect : Obligations.FailedChecksHaveNoEffect := by
  unfold Obligations.FailedChecksHaveNoEffect
  intro c s h f hf ho hm ht
  refine ⟨fun st d hc hh => execCommand_fails hf ho hm ht hh hc, fun st d hc => execEntry_fails hf ho hm ht hc,
    fun st d mods hc => execAt_fails hf ho hm ht hc, ?_, ?_, ?_⟩
  · intro st d hc hl hw he hh
    rw [execCommand, runCommand_local hf ho hm ht hh, runLocal_run_fails hc hl hw he]
    rfl
  · intro a b l hp hs hone hl hr
    rw [execCommand, runCommand_front hf ho hm ht hp (scope_ne_self hs), runFront_stale hone hl hr]
    rfl
  · intro a b l m hp hs hone hl hn hr hm'
    rw [execCommand, runCommand_front hf ho hm ht hp (scope_ne_self hs), runFront_unreachable hone hl hn hr (hs ▸ hm')]
    rfl

section Staging

variable {c : Command} {s : State} {f : Flight} {t : Txn}

/-- The versions of the objects of a command at its staging, R67. -/
def stagedVersions (c : Command) (f : Flight) (s : State) : List (Obj × Nat) := (c.objects s f).map (fun o => (o, versionOf s.proto.versions o))

theorem stagedVersions_objects : (stagedVersions c f s).map (·.1) = c.objects s f := by
  simp [stagedVersions, Function.comp_def]

/-- The transaction with a command staged as its last part, R64, R69. -/
def withCommand (c : Command) (f : Flight) (s : State) (t : Txn) : Txn :=
  { t with parts := t.parts ++ [.command { f with reserved := f.reserved - 1, taken := s.frontTime } (stagedVersions c f s)], touched := s.frontTime }

/-- A command that may be staged joins its transaction and leaves those in flight, with a staging record, R62 to R64. -/
theorem stage_eq (hx : txnOf s f.hdr.sessionId f.hdr.txnId = some t) (hopen : t.state ≠ .committing)
    (hscope : scopeWithin f.hdr.scope t.scope f.hdr.scopeDepth t.scopeDepth = true) (hcheck : stagingCheck c s f = none)
    (hcount : stagedCommands t < 256) (hbytes : stagedBytes t + f.params.length ≤ 1048576) :
    stage c f s = dropFlight f.serial (stagedRecord f (setTxn (withCommand c f s t) s)) := by
  have hlimit : ¬ (256 ≤ stagedCommands t ∨ 1048576 < stagedBytes t + f.params.length) := by omega
  simp only [stage, hx, hopen, hscope, hcheck, hlimit, if_false, Bool.not_true, Bool.false_eq_true, withCommand, stagedVersions]

/-- A staging record leaves the transactions. -/
@[simp] theorem stagedRecord_proto (f : Flight) (s : State) : (stagedRecord f s).proto = s.proto := by simp [stagedRecord]

/-- A transaction stored under the key it was found by is found by it. -/
theorem txnOf_setTxn {session id : Nat} {u : Txn} (hx : txnOf s session id = some t) (hs : u.session = t.session) (hi : u.id = t.id) :
    txnOf (setTxn u s) session id = some u := by
  have key : ∀ y : Txn, (y.session == session && y.id == id) = true ↔ y.session = session ∧ y.id = id := by simp
  obtain ⟨hts, hti⟩ := (key t).mp (List.find?_some (p := fun y : Txn => y.session == session && y.id == id) hx)
  have same : ((fun y : Txn => y.session == session && y.id == id) ∘ fun y => if y.session = u.session ∧ y.id = u.id then u else y)
      = fun y => y.session == session && y.id == id := by
    funext y
    by_cases hy : y.session = u.session ∧ y.id = u.id
    · simp [hy, hs, hi]
    · simp [hy]
  unfold txnOf setTxn at *
  rw [List.find?_map, same, hx]
  simp [hs, hi]

end Staging

/-- Settles O34: staging is `stage_eq`; the record it posts and the flight it drops are in the host port and the list of commands, so every
other part of the state is as it was. -/
theorem stagingHasNoEffect : Obligations.StagingHasNoEffect := by
  unfold Obligations.StagingHasNoEffect
  intro c s f t hx hopen hscope hcheck hcount hbytes
  rw [stage_eq hx hopen hscope hcheck hcount hbytes]
  refine ⟨{ f with reserved := f.reserved - 1, taken := s.frontTime }, stagedVersions c f s, ?_, rfl, rfl, rfl, stagedVersions_objects, ?_⟩
  · have hfind := txnOf_setTxn (u := withCommand c f s t) hx rfl rfl
    simp only [txnOf, dropFlight, stagedRecord_proto] at hfind ⊢
    rw [hfind]
    rfl
  · simp [stagedRecord, setTxn, dropFlight]

end Sys2Proof.CommandRows

/-! Doorbells (R51, R488, R504) and what the events of `MOD_STATUS` leave of the rings. -/

namespace Sys2Proof.Doorbells

open Sys2Proof Sys2Proof.Machine Sys2Proof.Laws

section Events

variable (s : State)

/-- The rings and the access counter of a host port: what no interrupt touches. -/
def portRings (h : HostPort) : KMap SubRing × KMap CplRing × W32 := (h.sq, h.cq, h.badAccess)

theorem raiseVector_portRings (v : Nat) : portRings (raiseVector v s).host = portRings s.host := by
  simp only [raiseVector]
  split
  · split <;> rfl
  · rfl

theorem raiseEvent_portRings : portRings (raiseEvent s).host = portRings s.host := by
  unfold raiseEvent
  split
  · rfl
  · exact raiseVector_portRings s 0

theorem latchEvents_portRings (bs : List Nat) : portRings (latchEvents bs s).host = portRings s.host := by
  simp only [latchEvents]
  split
  · rfl
  · split
    · rw [raiseEvent_portRings]
      rfl
    · rfl

/-- The events of `MOD_STATUS` leave the rings and the access counter, R513. -/
theorem settle_portRings (old : State) : portRings (settle old s).host = portRings s.host := latchEvents_portRings s _

theorem sqOf_settle (old : State) (n : Nat) : sqOf (settle old s).host n = sqOf s.host n :=
  congrArg (fun p : KMap SubRing × KMap CplRing × W32 => kgetD p.1 n SubRing.reset) (settle_portRings s old)

theorem cqOf_settle (old : State) (n : Nat) : cqOf (settle old s).host n = cqOf s.host n :=
  congrArg (fun p : KMap SubRing × KMap CplRing × W32 => kgetD p.2.1 n CplRing.reset) (settle_portRings s old)

theorem badAccess_settle (old : State) : (settle old s).host.badAccess = s.host.badAccess :=
  congrArg (fun p : KMap SubRing × KMap CplRing × W32 => p.2.2) (settle_portRings s old)

end Events

section Writes

variable {s : State} {n : Nat} {v : W32}

theorem exec_sqTailWrite (hc : s.power.cfgReady = true) : exec (.sqTailWrite n v) s = nextOf s (sqTailWrite n v s) := if_pos hc

theorem exec_cqHeadWrite (hc : s.power.cfgReady = true) : exec (.cqHeadWrite n v) s = nextOf s (cqHeadWrite n v s) := if_pos hc

/-- A tail write to a ring that is not halted, by the rule of R488. -/
theorem sqTailWrite_running (hh : (sqOf s.host n).halted = false) : sqTailWrite n v s =
    if (sqOf s.host n).state ≠ .enabled then badAccess s
    else if v = (sqOf s.host n).tail then s
    else if (v - (sqOf s.host n).head).toNat ≤ 2 ^ (sqOf s.host n).log2
        ∧ ((sqOf s.host n).tail - (sqOf s.host n).head).toNat ≤ (v - (sqOf s.host n).head).toNat
      then setSq n { sqOf s.host n with tail := v } (parityRewritten 2 (n * 0x1000) s)
    else sqError n 2 s := by
  simp only [sqTailWrite, hh, Bool.false_eq_true, if_false, ← not_and_or, ← not_le, ite_not]

/-- A head write to a ring that is not halted, by the rule of R488. -/
theorem cqHeadWrite_running (hh : (cqOf s.host n).halted = false) : cqHeadWrite n v s =
    if (cqOf s.host n).state ≠ .enabled then badAccess s
    else if v = (cqOf s.host n).head then s
    else if ((cqOf s.host n).tail - v).toNat ≤ 2 ^ (cqOf s.host n).log2
        ∧ ((cqOf s.host n).tail - v).toNat ≤ ((cqOf s.host n).tail - (cqOf s.host n).head).toNat
      then setCq n { cqOf s.host n with head := v } (parityRewritten 2 (0x1000000 + n * 0x1000) s)
    else cqError n 2 s := by
  simp only [cqHeadWrite, hh, Bool.false_eq_true, if_false, ← not_and_or, ← not_le, ite_not]

/-- A tail write to a halted ring is stored, noted as rewritten, and counted, R504, R597. -/
theorem sqTailWrite_halted (hh : (sqOf s.host n).halted = true) : sqTailWrite n v s =
    badAccess (setSq n { sqOf s.host n with tail := v, rewritten := noteWrite 0x1000 (sqOf s.host n).rewritten } (parityRewritten 2 (n * 0x1000) s)) := by
  simp only [sqTailWrite, hh, if_true]

/-- A head write to a halted ring is stored, noted as rewritten, and counted, R504, R597. -/
theorem cqHeadWrite_halted (hh : (cqOf s.host n).halted = true) : cqHeadWrite n v s =
    badAccess (setCq n { cqOf s.host n with head := v, rewritten := noteWrite 0x1000 (cqOf s.host n).rewritten }
      (parityRewritten 2 (0x1000000 + n * 0x1000) s)) := by
  simp only [cqHeadWrite, hh, if_true]

theorem sqOf_badAccess (s : State) (n : Nat) : sqOf (badAccess s).host n = sqOf s.host n := rfl

theorem cqOf_badAccess (s : State) (n : Nat) : cqOf (badAccess s).host n = cqOf s.host n := rfl

end Writes

/-- Settles O3: a ring that is not halted judges the write by the three guards of R488, a halted one stores and counts it whatever it is; the
events of `MOD_STATUS` leave the rings. -/
theorem doorbellWritesAreJudged : Obligations.DoorbellWritesAreJudged := by
  unfold Obligations.DoorbellWritesAreJudged
  refine ⟨?_, ?_, ?_, ?_, ?_⟩
  · intro s n v hc hh
    rw [exec_sqTailWrite hc, sqTailWrite_running hh]
    simp only [apply_ite (nextOf s), badAccess]
  · intro s n v hc hh
    rw [exec_cqHeadWrite hc, cqHeadWrite_running hh]
    simp only [apply_ite (nextOf s), badAccess]
  · intro s n v hc hh
    refine ⟨_, exec_sqTailWrite hc, ?_⟩
    simp only [sqTailWrite_halted hh, sqOf_settle, badAccess_settle, settle_mem, settle_proto, sqOf_badAccess, sqOf_setSq_self]
    exact ⟨trivial, rfl, hh, rfl, rfl⟩
  · intro s n v hc hh
    refine ⟨_, exec_cqHeadWrite hc, ?_⟩
    simp only [cqHeadWrite_halted hh, cqOf_settle, badAccess_settle, settle_mem, settle_proto, cqOf_badAccess, cqOf_setCq_self]
    exact ⟨trivial, rfl, hh, rfl, rfl⟩
  · intro s n v hc
    have closed : ¬ s.power.cfgReady = true := by simp [hc]
    exact ⟨if_neg closed, if_neg closed⟩

end Sys2Proof.Doorbells

/-! Taking a packet (R51 to R57): the reservations it makes, the checks in their order, and the window of accepted sequences (R47). -/

namespace Sys2Proof.Packets

open Sys2Proof Sys2Proof.Machine Sys2Proof.Laws

section Window

/-- What a session knows of the sequences it has accepted: the highest, and which of them lie within 4,096 of it, R47. -/
structure Tracks (taken : List Nat) (y : Session) : Prop where
  high : y.high = taken.foldl max 0
  accepted : ∀ n, n ∈ y.accepted ↔ n ∈ taken ∧ y.high < n + 4096

theorem tracks_acceptSeq {taken : List Nat} {y : Session} (ht : Tracks taken y) (m : Nat) : Tracks (taken ++ [m]) (acceptSeq y m) := by
  obtain ⟨hhigh, hacc⟩ := ht
  refine ⟨?_, fun n => ?_⟩
  · simp [acceptSeq, hhigh]
  · simp only [acceptSeq, List.mem_filter, List.mem_cons, List.mem_append, List.not_mem_nil, or_false, hacc, decide_eq_true_eq]
    constructor
    · rintro ⟨hn | ⟨hn, -⟩, hlt⟩
      · exact ⟨Or.inr hn, hlt⟩
      · exact ⟨Or.inl hn, hlt⟩
    · rintro ⟨hn | hn, hlt⟩
      · exact ⟨Or.inr ⟨hn, by omega⟩, hlt⟩
      · exact ⟨Or.inl hn, hlt⟩

/-- Whatever a session accepts from its opening on, it tracks it. -/
theorem tracks_foldl {x : Session} (hh : x.high = 0) (ha : x.accepted = []) (taken : List Nat) : Tracks taken (taken.foldl acceptSeq x) := by
  induction taken using List.reverseRecOn with
  | nil => exact ⟨hh, by simp [ha]⟩
  | append_singleton taken m ih =>
    rw [List.foldl_append]
    exact tracks_acceptSeq ih m

/-- The test of R47 in terms of what was accepted. -/
theorem seqAccepted_iff {taken : List Nat} {y : Session} (ht : Tracks taken y) (n : Nat) :
    seqAccepted y n = true ↔ n ≠ 0 ∧ (y.high < n ∨ (y.high < n + 4096 ∧ n ∉ taken)) := by
  have hmem : y.high < n + 4096 → (n ∉ y.accepted ↔ n ∉ taken) := fun hlt => by simp [ht.accepted, hlt]
  have hcontains : (!y.accepted.contains n) = true ↔ n ∉ y.accepted := by simp
  rw [seqAccepted, Bool.and_eq_true, Bool.or_eq_true, Bool.and_eq_true, hcontains]
  simp only [decide_eq_true_eq]
  exact and_congr_right fun _ => or_congr_right (and_congr_right hmem)

end Window

section Rings

variable (s : State)

/-- What decides whether a completion ring takes a record: its state, its size and its positions. -/
def place (r : CplRing) : RingState × Nat × W32 × W32 := (r.state, r.log2, r.tail, r.head)

theorem place_setCq {n : Nat} {r : CplRing} (h : place r = place (cqOf s.host n)) (m : Nat) : place (cqOf (setCq n r s).host m) = place (cqOf s.host m) := by
  by_cases e : m = n
  · rw [e, cqOf_setCq_self, h]
  · rw [cqOf_setCq_ne s r e]

/-- A reservation moves no ring, R53. -/
theorem place_cqReserve (n k m : Nat) : place (cqOf (cqReserve n k s).host m) = place (cqOf s.host m) := by
  simp only [cqReserve, noteHigh_host]
  exact place_setCq (r := { cqOf s.host n with reserved := (cqOf s.host n).reserved + k }) s rfl m

theorem place_cqRelease (n k m : Nat) : place (cqOf (cqRelease n k s).host m) = place (cqOf s.host m) :=
  place_setCq (r := { cqOf s.host n with reserved := (cqOf s.host n).reserved - k }) s rfl m

theorem sqOf_cqReserve (n k m : Nat) : sqOf (cqReserve n k s).host m = sqOf s.host m := by
  simp only [cqReserve, noteHigh_host, sqOf_setCq]

theorem sqOf_cqRelease (n k m : Nat) : sqOf (cqRelease n k s).host m = sqOf s.host m := rfl

theorem cqUsed_of_place {a b : CplRing} (h : place a = place b) : cqUsed a = cqUsed b := by
  simp only [place, Prod.mk.injEq] at h
  obtain ⟨-, -, htail, hhead⟩ := h
  rw [cqUsed, cqUsed, htail, hhead]

end Rings

section Outputs

variable (s : State)

theorem prefix_of_outputs_eq {s t : State} {l : List Output} (h : t.outputs = s.outputs) (p : t.outputs <+: l) : s.outputs <+: l := h ▸ p

/-- What has been sent stays sent: an interrupt only adds to the outputs. -/
theorem outputs_raiseVector (v : Nat) : s.outputs <+: (raiseVector v s).outputs := by
  simp only [raiseVector]
  split
  · split <;> exact List.prefix_refl _
  · exact List.prefix_append _ _

theorem outputs_raiseEvent : s.outputs <+: (raiseEvent s).outputs := by
  unfold raiseEvent
  split
  · exact List.prefix_refl _
  · exact outputs_raiseVector s 0

theorem outputs_cqError (n cause : Nat) : s.outputs <+: (cqError n cause s).outputs := by
  simp only [cqError]
  split
  · exact prefix_of_outputs_eq (by simp) (outputs_raiseEvent _)
  · exact prefix_of_outputs_eq (by simp) (List.prefix_refl _)

theorem outputs_cqAdvance (n slots : Nat) : s.outputs <+: (cqAdvance n slots s).outputs := by
  simp only [cqAdvance]
  split
  · exact prefix_of_outputs_eq (by simp) (outputs_cqError _ _ _)
  · exact prefix_of_outputs_eq (by simp) (List.prefix_refl _)

theorem outputs_cqSignal (n : Nat) : s.outputs <+: (cqSignal n s).outputs := by
  simp only [cqSignal]
  split
  · exact prefix_of_outputs_eq (by simp) (outputs_raiseVector _ _)
  · exact prefix_of_outputs_eq (by simp) (List.prefix_refl _)

/-- A record that the ring has room for is sent, R48, R54. -/
theorem postRecord_sends {n : Nat} (session cmd : Nat) (event staged clear : Bool) (time : Nat) (r : Reply) (h : (cqOf s.host n).state = .enabled)
    (room : recordSlots r.result.length + cqUsed (cqOf s.host n) ≤ 2 ^ (cqOf s.host n).log2) :
    ∃ x, s.outputs ++ [.record x] <+: (postRecord n session cmd event staged clear true time r s).outputs ∧ x.ring = n ∧ x.commandId = cmd
      ∧ x.status = r.status ∧ x.detail = r.detail ∧ x.result = r.result := by
  obtain ⟨x, hring, -, hcmd, hstatus, hdetail, hresult, he⟩ := postRecord_posts s session cmd event staged clear time r h room
  refine ⟨x, ?_, hring, hcmd, hstatus, hdetail, hresult⟩
  rw [he]
  exact (outputs_cqAdvance (emit (.record x) s) n _).trans (outputs_cqSignal _ n)

end Outputs

section Taking

/-- The slots of a packet held in its default ring, where that is ENABLED, and in its reply ring, R53. -/
def holdSlots (defCq reply k : Nat) (dr : Bool) (s : State) : State :=
  let s1 := if dr then cqReserve defCq 1 s else s
  if k = 0 then s1 else cqReserve reply k s1

/-- What a packet's reservations leave alone. -/
theorem holdSlots_frame (defCq reply k : Nat) (dr : Bool) (s : State) :
    (holdSlots defCq reply k dr s).proto = s.proto ∧ (holdSlots defCq reply k dr s).mem = s.mem ∧ (holdSlots defCq reply k dr s).sec = s.sec
      ∧ (holdSlots defCq reply k dr s).fabric = s.fabric ∧ (holdSlots defCq reply k dr s).power = s.power
      ∧ (holdSlots defCq reply k dr s).frontTime = s.frontTime ∧ (holdSlots defCq reply k dr s).outputs = s.outputs
      ∧ (∀ m, sqOf (holdSlots defCq reply k dr s).host m = sqOf s.host m)
      ∧ ∀ m, place (cqOf (holdSlots defCq reply k dr s).host m) = place (cqOf s.host m) := by
  cases dr <;> by_cases hk : k = 0 <;> simp [holdSlots, hk, sqOf_cqReserve, place_cqReserve]

/-- A packet that lies wholly below the tail of the ring whose turn it is, in good form, with its reservations free, R51 to R53. -/
structure Whole (s : State) (ring : Nat) (bytes : Bytes) (h : Header) (k : Nat) : Prop where
  header : h = parseHeader bytes
  turn : ringTurn s.host = some ring
  master : s.host.busMaster = true
  long : 48 ≤ bytes.length
  whole : 64 + h.paramLen ≤ bytes.length
  below : packetSlots h.paramLen ≤ ((sqOf s.host ring).tail - (sqOf s.host ring).head).toNat
  form : stepOne h (sqOf s.host ring).log2 = none
  reservation : k = replyReservation s h (clearParams (openSession s h.sessionId) h (slice bytes 48 h.paramLen))
  free : reservationsFree s (sqOf s.host ring).defCq (decide ((cqOf s.host (sqOf s.host ring).defCq).state = .enabled)) h k = true

/-- The state in which a packet's checks are made: time has come, its slots are held, the ring's head is past it. -/
def takenState (s : State) (ring now : Nat) (h : Header) (k : Nat) : State :=
  sqConsume ring (packetSlots h.paramLen) (holdSlots (sqOf s.host ring).defCq h.replyRing k
    (decide ((cqOf s.host (sqOf s.host ring).defCq).state = .enabled)) (advance now s))

variable {s : State} {ring now k : Nat} {bytes : Bytes} {h : Header}

/-- A whole packet is taken and goes to the checks of R55. -/
theorem packetTaken_whole (w : Whole s ring bytes h k) : packetTaken ring bytes now s =
    acceptPacket ring (sqOf s.host ring).defCq h (bytes.take 48) (slice bytes 48 h.paramLen) (slice bytes (48 + h.paramLen) 16)
      (decide ((cqOf s.host (sqOf s.host ring).defCq).state = .enabled)) k (takenState s ring now h k) := by
  obtain ⟨rfl, hturn, hmaster, hlong, hwhole, hbelow, hform, hk, hfree⟩ := w
  have hopen : openSession (advance now s) (parseHeader bytes).sessionId = openSession s (parseHeader bytes).sessionId := by simp [openSession]
  have hreply : ∀ params, replyReservation (advance now s) (parseHeader bytes) params = replyReservation s (parseHeader bytes) params := fun params => by
    simp [replyReservation]
  have hfree' : ∀ dr, reservationsFree (advance now s) (sqOf s.host ring).defCq dr (parseHeader bytes) k
      = reservationsFree s (sqOf s.host ring).defCq dr (parseHeader bytes) k := fun dr => by simp [reservationsFree]
  have hstays : ¬ (ringTurn s.host ≠ some ring ∨ s.host.busMaster = false ∨ bytes.length < 48) := by
    simp [hturn, hmaster, hlong]
  have hpasses : ¬ (((sqOf s.host ring).tail - (sqOf s.host ring).head).toNat < packetSlots (parseHeader bytes).paramLen
      ∨ bytes.length < 64 + (parseHeader bytes).paramLen
      ∨ reservationsFree s (sqOf s.host ring).defCq (decide ((cqOf s.host (sqOf s.host ring).defCq).state = .enabled)) (parseHeader bytes) k = false) := by
    simp only [not_or, not_lt, hfree]
    exact ⟨hbelow, hwhole, by simp⟩
  simp only [packetTaken, advance_host, hform, hopen, hreply, ← hk, hfree', if_neg hstays, if_neg hpasses]
  rfl

/-- What taking a packet leaves alone, and where the ring stands after it. -/
theorem takenState_frame (s : State) (ring now : Nat) (h : Header) (k : Nat) :
    (takenState s ring now h k).proto = s.proto ∧ (takenState s ring now h k).mem = s.mem ∧ (takenState s ring now h k).sec = s.sec
      ∧ (takenState s ring now h k).fabric = s.fabric ∧ (takenState s ring now h k).power = s.power
      ∧ (takenState s ring now h k).frontTime = (advance now s).frontTime
      ∧ s.outputs <+: (takenState s ring now h k).outputs
      ∧ sqOf (takenState s ring now h k).host ring
          = { sqOf s.host ring with head := (sqOf s.host ring).head + BitVec.ofNat 32 (packetSlots h.paramLen) }
      ∧ ∀ m, place (cqOf (takenState s ring now h k).host m) = place (cqOf s.host m) := by
  obtain ⟨hproto, hmem, hsec, hfabric, hpower, htime, houtputs, hsq, hcq⟩ := holdSlots_frame (sqOf s.host ring).defCq h.replyRing k
    (decide ((cqOf s.host (sqOf s.host ring).defCq).state = .enabled)) (advance now s)
  simp only [advance_proto, advance_mem, advance_sec, advance_fabric, advance_power, advance_outputs, advance_host] at hproto hmem hsec hfabric hpower houtputs hsq hcq
  refine ⟨hproto, hmem, hsec, hfabric, hpower, htime, ?_, ?_, hcq⟩
  · exact (houtputs ▸ List.prefix_append _ _)
  · simp only [takenState, sqConsume, emit_host, sqOf_setSq_self, hsq]

end Taking

section Checks

variable {s t : State} {x : Option Session} {h : Header}

/-- Step 6 of R55 reads the reply ring's state and size alone. -/
theorem stepSix_congr (hp : place (cqOf t.host h.replyRing) = place (cqOf s.host h.replyRing)) (params : Bytes) :
    stepSix t h params = stepSix s h params := by
  simp only [place, Prod.mk.injEq] at hp
  obtain ⟨hstate, hlog, -, -⟩ := hp
  simp only [stepSix, hstate, hlog]

/-- Steps 7 to 10 of R55 read the transactions, the view and the reset that is due, and no ring. -/
theorem lateChecks_congr (hproto : t.proto = s.proto) (hfabric : t.fabric = s.fabric) (hpower : t.power = s.power) :
    lateChecks t x h = lateChecks s x h := by
  have hreaches : reaches t = reaches s := by
    funext m
    simp only [reaches, hfabric]
  have hmember : memberReachable t = memberReachable s := by
    funext r
    cases r <;> simp only [memberReachable, reachSet, hreaches, hfabric]
  have htxn : txnOf t = txnOf s := by
    funext session id
    simp only [txnOf, hproto]
  have hclosing : txnClosing t = txnClosing s := by
    funext session id
    simp only [txnClosing, hproto]
  have hselects : selectsHere t = selectsHere s := by
    funext h r
    simp only [selectsHere, hfabric]
  have hunreached : scopeUnreached t = scopeUnreached s := by
    funext h
    simp only [scopeUnreached, hmember, hfabric]
  have hlowest : lowestUnreached t = lowestUnreached s := by
    funext r
    simp only [lowestUnreached, hreaches, hfabric]
  have hreference : txnReference t = txnReference s := by
    funext x h op
    rw [txnReference, htxn, hclosing, txnReference]
  have hnine : stepNine t x h = stepNine s x h := by rw [stepNine, hreference, stepNine]
  have hten : stepTen t h = stepTen s h := by rw [stepTen, hselects, hunreached, hlowest, hfabric, hpower, stepTen]
  rw [lateChecks, hnine, hten, lateChecks]

end Checks

section Accepting

variable {s : State} {ring defCq k : Nat} {h : Header} {hdr raw tag : Bytes} {dr : Bool} {x : Option Session} {row : OpcodeRow}

/-- The session of an accepted packet notes its sequence, R47. -/
def noteSeq (x : Option Session) (h : Header) (s : State) : State :=
  match x with
  | some y => setSession (acceptSeq y h.seq) s
  | none => s

/-- What noting a sequence leaves alone. -/
theorem noteSeq_frame (x : Option Session) (h : Header) (s : State) :
    (noteSeq x h s).proto.flights = s.proto.flights ∧ (noteSeq x h s).proto.nextSerial = s.proto.nextSerial ∧ (noteSeq x h s).host = s.host
      ∧ (noteSeq x h s).mem = s.mem ∧ (noteSeq x h s).sec = s.sec ∧ (noteSeq x h s).fabric = s.fabric ∧ (noteSeq x h s).power = s.power
      ∧ (noteSeq x h s).frontTime = s.frontTime := by
  cases x <;> exact ⟨rfl, rfl, rfl, rfl, rfl, rfl, rfl, rfl⟩

theorem noteSeq_proto {s t : State} (hp : t.proto = s.proto) (x : Option Session) (h : Header) : (noteSeq x h t).proto = (noteSeq x h s).proto := by
  cases x <;> simp only [noteSeq, setSession, hp]

/-- The slot of the default ring is given back, R53. -/
def releaseDefault (defCq : Nat) (dr : Bool) (s : State) : State := if dr then cqRelease defCq 1 s else s

/-- What giving back the slot of the default ring leaves alone. -/
theorem releaseDefault_frame (defCq : Nat) (dr : Bool) (s : State) :
    (releaseDefault defCq dr s).proto = s.proto ∧ (releaseDefault defCq dr s).mem = s.mem ∧ (releaseDefault defCq dr s).sec = s.sec
      ∧ (releaseDefault defCq dr s).fabric = s.fabric ∧ (releaseDefault defCq dr s).power = s.power
      ∧ (releaseDefault defCq dr s).frontTime = s.frontTime ∧ (releaseDefault defCq dr s).outputs = s.outputs
      ∧ (∀ m, sqOf (releaseDefault defCq dr s).host m = sqOf s.host m)
      ∧ ∀ m, place (cqOf (releaseDefault defCq dr s).host m) = place (cqOf s.host m) := by
  cases dr <;> simp [releaseDefault, sqOf_cqRelease, place_cqRelease]

/-- The session that a packet names, where step 2 of R55 finds it. -/
theorem session_found (hx : if h.sessionId = 0 then x = none else openSession s h.sessionId = x ∧ x.isSome = true) :
    (if h.sessionId = 0 then some none else (openSession s h.sessionId).map some) = some x := by
  split at hx
  · rw [if_pos ‹_›, hx]
  · obtain ⟨hopen, hsome⟩ := hx
    obtain ⟨y, rfl⟩ := Option.isSome_iff_exists.mp hsome
    rw [if_neg ‹_›, hopen]
    rfl

/-- A packet that passes the checks of R55 in their order is in flight. -/
theorem acceptPacket_accepts (hsession : (if h.sessionId = 0 then some none else (openSession s h.sessionId).map some) = some x)
    (hthree : stepThree x h hdr raw tag = none) (hseq : x.all (fun y => seqAccepted y h.seq) = true) (hrsv : h.flagsRsv = 0) (hprio : h.prio ≤ 7)
    (hsix : stepSix (noteSeq x h s) h (clearParams x h raw) = none) (hlate : lateChecks (releaseDefault defCq dr (noteSeq x h s)) x h = none)
    (hrow : opcodeRow h.opcode = some row) :
    acceptPacket ring defCq h hdr raw tag dr k s
      = enterFlight ring h row.op ((x.map (·.tenant)).getD 0) k (clearParams x h raw) (releaseDefault defCq dr (noteSeq x h s)) := by
  have hwindow : ¬ (x.map (fun y => seqAccepted y h.seq)) = some false := by
    cases x <;> simp_all
  have hflags : firstFail [(h.flagsRsv != 0, .badParam, 4), (decide (7 < h.prio), .badParam, 46)] = none := by
    simp [firstFail, hrsv, hprio]
  unfold acceptPacket
  simp only [hsession, hthree, hwindow, hflags, if_false]
  cases x with
  | none =>
    simp only [noteSeq, releaseDefault] at hsix hlate ⊢
    simp only [hsix, hlate, hrow]
  | some y =>
    simp only [noteSeq, releaseDefault] at hsix hlate ⊢
    simp only [hsix, hlate, hrow]

/-- A packet of an open session whose tag is good and whose sequence is not accepted posts REPLAY to the default ring, R47, R55. -/
theorem acceptPacket_replay {y : Session} (hsession : (if h.sessionId = 0 then some none else (openSession s h.sessionId).map some) = some (some y))
    (hthree : stepThree (some y) h hdr raw tag = none) (hseq : seqAccepted y h.seq = false) :
    acceptPacket ring defCq h hdr raw tag dr k s
      = refusePacket defCq h false dr .replay 0 (releaseDefault defCq dr (if k = 0 then s else cqRelease h.replyRing k s)) := by
  simp only [acceptPacket, hsession, hthree, Option.map_some, hseq, if_true, releaseDefault]

/-- The command that enters those in flight, R56, R57. -/
def entered (ring : Nat) (h : Header) (op : Opcode) (tenant k : Nat) (params : Bytes) (s : State) : Flight :=
  ⟨s.proto.nextSerial, .host ring, op, h, params, tenant, s.frontTime, h.fence && s.proto.flights.any (fun g => decide (g.origin = .host ring)), false, k,
    none, none, false⟩

/-- A command that enters those in flight stands last among them, and nothing else moves but marks and track. -/
theorem enterFlight_frame (ring : Nat) (h : Header) (op : Opcode) (tenant k : Nat) (params : Bytes) (s : State) :
    (enterFlight ring h op tenant k params s).proto.flights = s.proto.flights ++ [entered ring h op tenant k params s]
      ∧ (enterFlight ring h op tenant k params s).host = s.host ∧ (enterFlight ring h op tenant k params s).mem = s.mem
      ∧ (enterFlight ring h op tenant k params s).sec = s.sec ∧ (enterFlight ring h op tenant k params s).fabric = s.fabric := by
  simp only [enterFlight, noteHigh_proto, track_proto, noteHigh_host, track_host, noteHigh_mem, track_mem, noteHigh_sec, track_sec,
    noteHigh_fabric, track_fabric, entered, and_self]

end Accepting

/-- The command row of a packet is the packet taken. -/
theorem exec_packetTaken (s : State) (ring now : Nat) (bytes : Bytes) : exec (.packetTaken ring bytes now) s = nextOf s (packetTaken ring bytes now s) := rfl

/-- Settles O31: a whole packet goes to the checks with its slots held; none of the checks reads a reservation, so they pass there as they do
on the state before; what enters is the last of those in flight. That the reservation needs the parameters in clear is the model's choice (log
entry 85). -/
theorem acceptedPacketIsInFlight : Obligations.AcceptedPacketIsInFlight := by
  unfold Obligations.AcceptedPacketIsInFlight
  intro s ring now bytes h row x k params s1 s2 hs1 hh hturn _ hmaster hlong hwhole hbelow hform hparams hk hfree hx hthree hseq hrsv hprio hs2 hsix hlate
    hrow
  subst hs1 hparams
  have hs2 : s2 = noteSeq x h (advance now s) := by
    rw [hs2]
    cases x <;> rfl
  subst hs2
  have w : Whole s ring bytes h k := ⟨hh, hturn, hmaster, hlong, hwhole, hbelow, hform, hk, hfree⟩
  -- the state of the checks, and the state in which the command enters
  obtain ⟨tproto, tmem, tsec, tfabric, tpower, ttime, -, tsq, tcq⟩ := takenState_frame s ring now h k
  obtain ⟨nflights, nserial, nhost, nmem, nsec, nfabric, npower, ntime⟩ := noteSeq_frame x h (takenState s ring now h k)
  obtain ⟨-, -, ahost, -, -, afabric, apower, -⟩ := noteSeq_frame x h (advance now s)
  obtain ⟨rproto, rmem, rsec, rfabric, rpower, rtime, -, rsq, -⟩ := releaseDefault_frame (sqOf s.host ring).defCq
    (decide ((cqOf s.host (sqOf s.host ring).defCq).state = .enabled)) (noteSeq x h (takenState s ring now h k))
  have hsession : (if h.sessionId = 0 then some none else (openSession (takenState s ring now h k) h.sessionId).map some) = some x := by
    refine session_found ?_
    simpa only [openSession, tproto] using hx
  have hsix' : stepSix (noteSeq x h (takenState s ring now h k)) h (clearParams x h (slice bytes 48 h.paramLen)) = none := by
    rw [← hsix]
    exact stepSix_congr (by rw [nhost, ahost, tcq, advance_host]) _
  have hlate' : lateChecks (releaseDefault (sqOf s.host ring).defCq (decide ((cqOf s.host (sqOf s.host ring).defCq).state = .enabled))
      (noteSeq x h (takenState s ring now h k))) x h = none := by
    rw [← hlate]
    refine lateChecks_congr ?_ ?_ ?_
    · rw [rproto, noteSeq_proto (tproto.trans (advance_proto s now).symm)]
    · rw [rfabric, nfabric, tfabric, afabric, advance_fabric]
    · rw [rpower, npower, tpower, apower, advance_power]
  have haccept := acceptPacket_accepts (ring := ring) (k := k) hsession hthree hseq hrsv hprio hsix' hlate' hrow
  rw [exec_packetTaken, packetTaken_whole w, haccept]
  obtain ⟨eflights, ehost, emem, esec, efabric⟩ := enterFlight_frame ring h row.op ((x.map (·.tenant)).getD 0) k
    (clearParams x h (slice bytes 48 h.paramLen))
    (releaseDefault (sqOf s.host ring).defCq (decide ((cqOf s.host (sqOf s.host ring).defCq).state = .enabled)) (noteSeq x h (takenState s ring now h k)))
  rw [rproto, nflights, tproto] at eflights
  refine ⟨_, _, rfl, eflights, ?_, rfl, rfl, rfl, rfl, rfl, rfl, ?_, rfl, ?_, ?_, ?_, ?_, ?_, ?_⟩
  · rw [entered, rproto, nserial, tproto]
  · rw [entered, rtime, ntime, ttime]
  · rw [entered, rproto, nflights, tproto]
  · rw [ehost, rsq, nhost, tsq]
  · rw [ehost, rsq, nhost, tsq]
  · rw [emem, rmem, nmem, tmem]
  · rw [esec, rsec, nsec, tsec]
  · rw [efabric, rfabric, nfabric, tfabric]

/-- A record without result takes one slot, R48. -/
theorem recordSlots_zero : recordSlots 0 = 1 := rfl

/-- Settles O32: a session tracks what it accepts from its opening on; a packet that is refused moves no session, as the record that tells of
it goes to the default ring, which has room because a slot of it was free. -/
theorem sequencesAreAcceptedOnce : Obligations.SequencesAreAcceptedOnce := by
  unfold Obligations.SequencesAreAcceptedOnce
  refine ⟨?_, ?_⟩
  · intro x y taken n hh ha hy
    have ht := tracks_foldl hh ha taken
    subst hy
    exact ⟨ht.high, seqAccepted_iff ht n⟩
  · intro s s1 ring now k bytes h x _ hh hturn _ hmaster hlong hwhole hbelow hform hk hfree hne hopen hthree hseq
    have w : Whole s ring bytes h k := ⟨hh, hturn, hmaster, hlong, hwhole, hbelow, hform, hk, hfree⟩
    obtain ⟨tproto, tmem, tsec, -, -, -, toutputs, -, tcq⟩ := takenState_frame s ring now h k
    have hsession : (if h.sessionId = 0 then some none else (openSession (takenState s ring now h k) h.sessionId).map some) = some (some x) := by
      simp only [openSession, tproto] at hopen ⊢
      rw [if_neg hne, hopen]
      rfl
    rw [exec_packetTaken, packetTaken_whole w, acceptPacket_replay hsession hthree hseq]
    -- the state in which the record is posted
    generalize hu : (if k = 0 then takenState s ring now h k else cqRelease h.replyRing k (takenState s ring now h k)) = u
    have hu' : u.proto = s.proto ∧ u.mem = s.mem ∧ u.sec = s.sec ∧ s.outputs <+: u.outputs ∧ ∀ m, place (cqOf u.host m) = place (cqOf s.host m) := by
      subst hu
      split
      · exact ⟨tproto, tmem, tsec, toutputs, tcq⟩
      · exact ⟨tproto, tmem, tsec, toutputs, fun m => (place_cqRelease _ _ _ m).trans (tcq m)⟩
    obtain ⟨uproto, umem, usec, uoutputs, ucq⟩ := hu'
    obtain ⟨rproto, rmem, rsec, -, -, -, routputs, -, rcq⟩ := releaseDefault_frame (sqOf s.host ring).defCq
      (decide ((cqOf s.host (sqOf s.host ring).defCq).state = .enabled)) u
    refine ⟨_, rfl, ?_, ?_, ?_, ?_⟩
    · rw [refusePacket, postRecord_proto, rproto, uproto]
    · rw [refusePacket, postRecord_mem, rmem, umem]
    · rw [refusePacket, postRecord_sec, rsec, usec]
    · intro hdef
      have hplace := (rcq (sqOf s.host ring).defCq).trans (ucq (sqOf s.host ring).defCq)
      have hused := cqUsed_of_place hplace
      simp only [place, Prod.mk.injEq] at hplace
      obtain ⟨hstate, hlog, -, -⟩ := hplace
      have hroom : 1 ≤ cqFree (cqOf s.host (sqOf s.host ring).defCq) := by
        simp only [reservationsFree, hdef, decide_true, Bool.not_true, Bool.false_or, Bool.and_eq_true, decide_eq_true_eq] at hfree
        exact hfree.1
      simp only [hdef, decide_true] at hstate hlog hused routputs ⊢
      obtain ⟨r, hr, hring, hcmd, hstatus, hdetail, hresult⟩ := postRecord_sends (releaseDefault (sqOf s.host ring).defCq true u) h.sessionId h.commandId
        false false (false || clearRecord h.sessionId .replay) (releaseDefault (sqOf s.host ring).defCq true u).frontTime (plainReply .replay 0)
        hstate (by
          rw [hlog, hused]
          unfold cqFree at hroom
          have : recordSlots (plainReply .replay 0).result.length = 1 := recordSlots_zero
          omega)
      refine ⟨r, ?_, hring, hcmd, hstatus, hdetail, hresult⟩
      obtain ⟨a, ha⟩ := uoutputs
      obtain ⟨b, hb⟩ := hr
      rw [refusePacket, ← hb, routputs, ← ha]
      simp

end Sys2Proof.Packets

/-! Transactions on one module (R57, R62 to R71): begin, items, rollback, commit, timeout, what a session remembers, and the fence. -/

namespace Sys2Proof.Transactions

open Sys2Proof Sys2Proof.Machine Sys2Proof.Laws

variable {s : State} {h : Nat} {f : Flight} {t : Txn}

theorem checked_of_not_failing {p : Bool} {st : Status} {d : Nat} (hp : p = false) (k : Verdict) : checked [failIf p st d] k = k := by
  simp [checked, failIf, firstFail, hp]

section Begin

/-- What TXN_BEGIN leaves: a transaction under the session's next TXN_ID, R62. -/
def begun (s : State) (f : Flight) (x : Session) : State :=
  noteHigh 0x9100 2 (s.proto.txns.length + 1) { s with proto := { s.proto with
    sessions := kset s.proto.sessions x.id { x with nextTxn := x.nextTxn + 1 }
    txns := s.proto.txns ++ [⟨x.nextTxn, x.id, f.tenant, f.hdr.scope, f.hdr.scopeDepth, if par f 0 4 = 0 then 10000 else par f 0 4, s.frontTime, .open, []⟩] } }

theorem txnBeginRun_begins {x : Session} (hx : kget s.proto.sessions f.hdr.sessionId = some x) (hroom : (openTxns s x.id).length < 4) :
    txnBeginCommand.run s f = .done (begun s f x) (okReply (toLe 4 x.nextTxn ++ zeros 4)) := by
  change txnBeginRun s f = _
  simp only [txnBeginRun, hx]
  exact checked_of_not_failing (decide_eq_false (by omega)) _

end Begin

section Set

/-- The transaction with the items of a TXN_SET as its last part, R63, R65, R67. -/
def withItems (s : State) (f : Flight) (t : Txn) : Txn :=
  { t with
    parts := t.parts ++ [.items { f with
      hdr := { f.hdr with
        scope := t.scope
        scopeDepth := t.scopeDepth }
      taken := s.frontTime } (setItems f) (((setItems f).map (itemObject f.tenant)).map (fun o => (o, versionOf s.proto.versions o)))]
    touched := s.frontTime }

theorem txnSetRun_sets (hx : txnOf s f.hdr.sessionId f.hdr.txnId = some t) (hitems : stagedItems t + (setItems f).length ≤ 1024)
    (hbytes : stagedBytes t + f.params.length ≤ 1048576) : txnSetCommand.run s f = .done (setTxn (withItems s f t) s) (okReply []) := by
  change txnSetRun s f = _
  simp only [txnSetRun, hx]
  refine checked_of_not_failing ?_ _
  rw [Bool.or_eq_false_iff, decide_eq_false_iff_not, decide_eq_false_iff_not]
  omega

end Set

section Ends

/-- A TXN_ROLLBACK with nothing of its transaction still to be staged discards it, R69. -/
theorem txnRollbackRun_discards (hx : txnOf s f.hdr.sessionId f.hdr.txnId = some t) (hb : stagingBefore s f = false) :
    txnRollbackCommand.run s f = .done (abortTxn t.session t.id t.parts none s) (okReply []) := by
  simp only [txnRollbackCommand, hx, hb, Bool.false_eq_true, if_false]

/-- A transaction that nothing has touched for its TIMEOUT_MS is discarded, R69. -/
theorem txnTimeout_due {session txn now : Nat} (hx : txnOf s session txn = some t) (hopen : t.state = .open)
    (hdue : t.touched + t.timeoutMs * 1000000 ≤ (advance now s).frontTime) (hclosing : txnClosing s session txn = false) :
    txnTimeout session txn now s = abortTxn session txn t.parts none (advance now s) := by
  have hx' : txnOf (advance now s) session txn = some t := by simpa [txnOf] using hx
  have hclosing' : txnClosing (advance now s) session txn = false := by simpa [txnClosing] using hclosing
  simp only [txnTimeout, hx', hclosing', hopen, hdue, and_self, if_true]

/-- No transaction of the name is left, R70. -/
theorem forgetTxn_gone (session id : Nat) (committed : Bool) (s : State) :
    ∀ t ∈ (forgetTxn session id committed s).proto.txns, ¬ (t.session = session ∧ t.id = id) := by
  intro t ht
  simp only [forgetTxn, List.mem_filter] at ht
  simpa [imp_iff_not_or] using ht.2

/-- The session remembers the outcome first, and 16 at most, R70. -/
theorem forgetTxn_remembered {session : Nat} (id : Nat) (committed : Bool) {x : Session} (hx : kget s.proto.sessions session = some x) :
    ∃ y, kget (forgetTxn session id committed s).proto.sessions session = some y ∧ y.ended.head? = some (id, committed) ∧ y.ended.length ≤ 16 := by
  refine ⟨{ x with ended := ((id, committed) :: x.ended).take 16 }, ?_, rfl, ?_⟩
  · simp only [forgetTxn, hx, kget_kset_self]
  · exact List.length_take_le 16 _

end Ends

section Commit

variable (hf : flightOf s h = some f) (ho : f.op = .txnCommit) (hm : mayRun s f = true) (hp : f.params = [])
  (hw : ∀ w ∈ s.fabric.waits, w.serial ≠ h)

include hf ho hm hp hw

/-- A TXN_COMMIT that waits for no candidacy is judged by its transaction, R66, R70. -/
theorem txnCommit_unknown (hx : txnOf s f.hdr.sessionId f.hdr.txnId = none) : txnCommit h s = finish f (commitRemembered s f) s := by
  have hwait : s.fabric.waits.find? (fun w => w.serial == h) = none := by
    simpa [List.find?_eq_none] using hw
  simp [txnCommit, hf, ho, hm, hp, hwait, hx]

/-- A TXN_COMMIT whose parts all touch this module alone and bring no view commits here, R66. -/
theorem txnCommit_here (hx : txnOf s f.hdr.sessionId f.hdr.txnId = some t) (hb : stagingBefore s f = false) (hform : formingPart t.parts = none)
    (hself : ∀ m ∈ txnHolders s t, m = s.fabric.view.self) : txnCommit h s = commitHere f t s := by
  have hwait : s.fabric.waits.find? (fun w => w.serial == h) = none := by
    simpa [List.find?_eq_none] using hw
  have hall : (txnHolders s t).all (· == s.fabric.view.self) = true := by
    simpa [List.all_eq_true] using hself
  simp [txnCommit, hf, ho, hm, hp, hwait, hx, hb, hform, hall]

end Commit

/-- The parts of a transaction that nothing stands against take effect, their records are posted in staging order, then the commit's own, R66,
R68. -/
theorem commitHere_commits {s1 : State} {rs : List Reply} (hlock : lockedAny s (writtenObjects s (markParts s false t.parts)) = false)
    (hversion : versionConflict s t.parts = false) (hrole : t.parts.any (roleConflict s) = false)
    (hfold : foldParts false (markParts s false t.parts) 0 s [] = .done s1 rs) :
    commitHere f t s = finishPlain f (okReply []) (forgetTxn t.session t.id true
      ((t.parts.zip rs).foldl (fun u p => match p.1 with
        | .command g _ => finishPlain g p.2 (announceObject u.frontTime g p.2 [] u)
        | .items _ _ _ => u) (commitObjects (changedObjects s (markParts s false t.parts)) s1))) := by
  simp only [commitHere, hlock, hversion, hrole, hfold, Bool.or_self, Bool.false_eq_true, if_false] <;> rfl

/-- A transaction that its session does not remember is unknown, R70. -/
theorem commitRemembered_unknown (hx : ∀ x, kget s.proto.sessions f.hdr.sessionId = some x → ∀ e ∈ x.ended, e.1 ≠ f.hdr.txnId) :
    commitRemembered s f = plainReply .txnUnknown := by
  have hnone : (kget s.proto.sessions f.hdr.sessionId).bind (fun x => x.ended.find? (fun e => e.1 == f.hdr.txnId)) = none := by
    cases hk : kget s.proto.sessions f.hdr.sessionId with
    | none => rfl
    | some x => simpa [List.find?_eq_none] using hx x hk
  simp only [commitRemembered, hnone]

/-- A fenced command begins once no earlier command of its ring is in flight, R57. -/
theorem fencedCommandBegin_first (hf : flightOf s h = some f) (hw : f.waiting = true)
    (hfirst : ∀ g ∈ s.proto.flights, g.origin = f.origin → f.serial ≤ g.serial) :
    fencedCommandBegin h s = setFlight { f with waiting := false } s := by
  have hall : s.proto.flights.all (fun g => decide (g.origin ≠ f.origin) || decide (f.serial ≤ g.serial)) = true := by
    rw [List.all_eq_true]
    intro g hg
    by_cases he : g.origin = f.origin
    · simp [hfirst g hg he]
    · simp [he]
  simp only [fencedCommandBegin, hf, hw, hall, and_self, if_true]

/-- Settles O33: TXN_BEGIN, TXN_SET and TXN_ROLLBACK by what their runs answer; TXN_COMMIT by the way it takes to `commitHere`, and there by
the fold of its parts; the rest by the guard of each event. -/
theorem transactionCommandsComplete : Obligations.TransactionCommandsComplete := by
  unfold Obligations.TransactionCommandsComplete
  refine ⟨?_, ?_, ?_, ?_, ?_, ?_, ?_, ?_⟩
  · intro s h f x hr hx hroom
    refine ⟨begun s f x, execEntry_commits hr rfl (txnBeginRun_begins hx hroom), ?_⟩
    simp [begun]
  · intro s h f t hr hx hitems hbytes
    exact execEntry_commits hr rfl (txnSetRun_sets hx hitems hbytes)
  · intro s h f t hr hx hb
    exact execEntry_commits hr rfl (txnRollbackRun_discards hx hb)
  · intro s s1 h f t rs hf ho hm hp hw hx hb hform hself hlock hversion hrole hfold
    exact congrArg (nextOf s) ((txnCommit_here hf ho hm hp hw hx hb hform hself).trans (commitHere_commits hlock hversion hrole hfold))
  · intro s h f hf ho hm hp hw hx hunknown
    refine congrArg (nextOf s) ((txnCommit_unknown hf ho hm hp hw hx).trans ?_)
    rw [commitRemembered_unknown hunknown]
  · intro s session txn now t hx hopen hdue hclosing
    exact congrArg (nextOf s) (txnTimeout_due hx hopen hdue hclosing)
  · intro s session id committed
    exact ⟨forgetTxn_gone session id committed s, fun x hx => forgetTxn_remembered id committed hx⟩
  · intro s h f hf hw hfirst
    exact congrArg Host.Outcome.next (fencedCommandBegin_first hf hw hfirst)

end Sys2Proof.Transactions

/-! No command touches the queue of the commands that wait (R52, R56, R77, R537): each operation of the model leaves it, in the order of the
chapters, and so does each row.

Where a proof splits on an operation that answers a pair or an error, it first names the operation by a variable of its own
(`∃ take, take = takeStorage`): the kernel would otherwise run the operation to check the split. -/

namespace Sys2Proof.Queue

open Sys2Proof Sys2Proof.Machine Sys2Proof.Laws

@[simp] theorem ite_pending (p : Prop) [Decidable p] (s t : State) : (if p then s else t).pending = if p then s.pending else t.pending :=
  apply_ite State.pending p s t

@[simp] theorem ite_snd_pending {α : Type} (p : Prop) [Decidable p] (s t : α × State) :
    (if p then s else t).2.pending = if p then s.2.pending else t.2.pending := apply_ite (fun x : α × State => x.2.pending) p s t

/-- A fold of steps that each leave the queue leaves the queue. -/
@[simp] theorem foldl_pending {α : Type} (g : State → α → State) (l : List α) (s : State) (hg : ∀ t x, (g t x).pending = t.pending) :
    (l.foldl g s).pending = s.pending := by
  induction l generalizing s with
  | nil => rfl
  | cons x l ih => rw [List.foldl_cons, ih, hg]

@[simp] theorem foldl_snd_pending {α β : Type} (g : β × State → α → β × State) (l : List α) (p : β × State)
    (hg : ∀ t x, (g t x).2.pending = t.2.pending) : (l.foldl g p).2.pending = p.2.pending := by
  induction l generalizing p with
  | nil => rfl
  | cons x l ih => rw [List.foldl_cons, ih, hg]

/-- How a command's run ends, the queue as it was. -/
def Keeps (q : List Instr) : Verdict → Prop
  | .reject _ _ => True
  | .rejectIn t _ _ => t.pending = q
  | .done t _ => t.pending = q
  | .begun t => t.pending = q
  | .wait => True
  | .waitIn t => t.pending = q

@[simp] theorem keeps_reject (q : List Instr) (st : Status) (d : Nat) : Keeps q (.reject st d) := trivial
@[simp] theorem keeps_wait (q : List Instr) : Keeps q .wait := trivial
@[simp] theorem keeps_rejectIn (q : List Instr) (t : State) (st : Status) (d : Nat) : Keeps q (.rejectIn t st d) ↔ t.pending = q := Iff.rfl
@[simp] theorem keeps_done (q : List Instr) (t : State) (r : Reply) : Keeps q (.done t r) ↔ t.pending = q := Iff.rfl
@[simp] theorem keeps_begun (q : List Instr) (t : State) : Keeps q (.begun t) ↔ t.pending = q := Iff.rfl
@[simp] theorem keeps_waitIn (q : List Instr) (t : State) : Keeps q (.waitIn t) ↔ t.pending = q := Iff.rfl

@[simp] theorem keeps_ite (q : List Instr) (p : Prop) [Decidable p] (v w : Verdict) :
    Keeps q (if p then v else w) ↔ if p then Keeps q v else Keeps q w := iff_of_eq (apply_ite (Keeps q) p v w)

@[simp] theorem keeps_checked (q : List Instr) (l : List (Bool × Status × Nat)) (k : Verdict) (hk : Keeps q k) : Keeps q (checked l k) := by
  unfold checked
  split
  · trivial
  · exact hk

/-- A command whose run and whose vote leave the queue. -/
structure KeepsQueue (c : Command) : Prop where
  run : ∀ s f, Keeps s.pending (c.run s f)
  prepare : ∀ s f, (c.prepare s f).pending = s.pending

theorem KeepsQueue.verdict {c : Command} (hc : KeepsQueue c) {s : State} {f : Flight} {v : Verdict} (h : c.run s f = v) :
    Keeps s.pending v := h ▸ hc.run s f

/-- Where a change of the state is made, the queue is as it was. -/
def OkKeeps {ε : Type} (q : List Instr) : Except ε State → Prop
  | .ok t => t.pending = q
  | .error _ => True

@[simp] theorem okKeeps_ok {ε : Type} (q : List Instr) (t : State) : OkKeeps q (.ok t : Except ε State) ↔ t.pending = q := Iff.rfl
@[simp] theorem okKeeps_error {ε : Type} (q : List Instr) (e : ε) : OkKeeps q (.error e) := trivial
@[simp] theorem okKeeps_ite {ε : Type} (q : List Instr) (p : Prop) [Decidable p] (v w : Except ε State) :
    OkKeeps q (if p then v else w) ↔ if p then OkKeeps q v else OkKeeps q w := iff_of_eq (apply_ite (OkKeeps q) p v w)

/-- The rule for a command given by its fields: it opens the definition by rewriting, so that the kernel need not run the command. -/
theorem keepsQueue_mk {op : Opcode} {changes : Bool} {objects changed held : State → Flight → List Obj}
    {check staged entry : State → Flight → Option (Status × Nat)} {waits : State → Flight → Bool} {run : State → Flight → Verdict}
    {carried : State → Flight → Nat → Bytes} {carriedLen : Flight → Nat} {prepare : State → Flight → State}
    (hr : ∀ s f, Keeps s.pending (run s f)) (hp : ∀ s f, (prepare s f).pending = s.pending) :
    KeepsQueue ⟨op, changes, objects, changed, held, check, staged, waits, run, carried, carriedLen, entry, prepare⟩ := ⟨hr, hp⟩

/-! ### Flags -/

@[simp] theorem sqError_pending (n cause : Nat) (s : State) : (sqError n cause s).pending = s.pending := by simp [sqError]

/-! ### Ops -/

@[simp] theorem drawFree_pending (s : State) : (drawFree s).2.pending = s.pending := (rfl)

@[simp] theorem drawKey_pending (s : State) : (drawKey s).2.pending = s.pending := (rfl)

/-! ### Messages -/

@[simp] theorem sendFlits_pending (p : Nat) (first : Bool) (l : List Bytes) (s : State) : (sendFlits p first l s).pending = s.pending := by
  induction l generalizing first s with
  | nil => rfl
  | cons b bs ih => simp [sendFlits, ih]

@[simp] theorem sendSegment_pending (dst ch : Nat) (seg : Bytes) (s : State) : (sendSegment dst ch seg s).pending = s.pending := by
  unfold sendSegment; split <;> simp

@[simp] theorem pump_pending (dst ch fuel : Nat) (s : State) : (pump dst ch fuel s).pending = s.pending := by
  induction fuel generalizing s with
  | zero => rfl
  | succ fuel ih =>
    simp only [pump]
    split
    · rfl
    · split
      · rfl
      · simp [ih]

@[simp] theorem sendAck_pending (dst ch credit : Nat) (s : State) : (sendAck dst ch credit s).pending = s.pending := by simp [sendAck]

@[simp] theorem returnSlot_pending (peer tenant corr : Nat) (s : State) : (returnSlot peer tenant corr s).pending = s.pending := by
  unfold returnSlot; split <;> simp

@[simp] theorem sendMessage_pending (dst type sub tenant corr own : Nat) (body : Bytes) (s : State) :
    (sendMessage dst type sub tenant corr own body s).pending = s.pending := by
  simp only [sendMessage]; split <;> simp

@[simp] theorem sendAll_pending (type sub tenant corr : Nat) (body : Bytes) (l : List Nat) (s : State) :
    (sendAll type sub tenant corr body l s).pending = s.pending := by
  induction l generalizing s with
  | nil => rfl
  | cons d ds ih => simp [sendAll, ih]

/-! ### Flights -/

@[simp] theorem beginFlight_pending (f : Flight) (s : State) : (beginFlight f s).pending = s.pending := by
  unfold beginFlight; split <;> simp

@[simp] theorem finishAt_pending (time : Nat) (f : Flight) (r : Reply) (s : State) : (finishAt time f r s).pending = s.pending := by
  unfold finishAt; split <;> simp

@[simp] theorem finishPlain_pending (f : Flight) (r : Reply) (s : State) : (finishPlain f r s).pending = s.pending := by simp [finishPlain]

/-! ### Operands -/

theorem entryCommand_keeps {c : Command} (hc : KeepsQueue c) : KeepsQueue (entryCommand c) := ⟨hc.run, hc.prepare⟩

/-! ### TierOps -/

@[simp] theorem errorUnit_pending (addr : Nat) (s : State) : (errorUnit addr s).2.pending = s.pending := by unfold errorUnit; split <;> simp

@[simp] theorem noteTagFail_pending (tenant command : Nat) (st : Status) (d : Nat) (s : State) :
    (noteTagFail tenant command st d s).pending = s.pending := by
  simp [noteTagFail]

@[simp] theorem noteReadFail_pending (f : Flight) (st : Status) (d : Nat) (s : State) : (noteReadFail f st d s).pending = s.pending := by
  simp [noteReadFail]

@[simp] theorem sendSealed_pending (block sectors : Nat) (s : State) : (sendSealed block sectors s).pending = s.pending := by
  simp only [sendSealed]; (repeat' split) <;> simp

@[simp] theorem storeBlocks_pending (l : List Nat) (s : State) : (storeBlocks l s).pending = s.pending := by
  induction l generalizing s with
  | nil => rfl
  | cons b bs ih => simp [storeBlocks, drawFree, ih]

@[simp] theorem touchPages_pending (tenant : Nat) (es : List (Nat × Nat)) (s : State) : (touchPages tenant es s).pending = s.pending :=
  (rfl)

@[simp] theorem touchNamed_pending (f : Flight) (s : State) : (touchNamed f s).pending = s.pending := by simp [touchNamed]

@[simp] theorem toFrame_pending (p : Nat) (s : State) : (toFrame p s).pending = s.pending := by simp only [toFrame]; split <;> simp

@[simp] theorem storePage_pending (p : Nat) (s : State) : (storePage p s).pending = s.pending := by
  have hs := storeBlocks_pending (pageBlocks p) s
  unfold storePage
  generalize storeBlocks (pageBlocks p) s = s1 at hs ⊢
  dsimp only
  split <;> exact hs

@[simp] theorem dropPage_pending (p : Nat) (s : State) : (dropPage p s).pending = s.pending := by simp only [dropPage]; split <;> simp

@[simp] theorem countEviction_pending (tenant : Nat) (s : State) : (countEviction tenant s).pending = s.pending := (rfl)

@[simp] theorem evictOne_pending (who : Option Nat) (tenant p : Nat) (s : State) : (evictOne who tenant p s).pending = s.pending := by
  unfold evictOne; split <;> simp

/-- The state that the search for frames leaves. -/
def roomState : Room → State
  | .found s => s
  | .waits s => s
  | .full s => s

theorem makeRoom_pending (who : Option Nat) (tenant need fuel : Nat) (s : State) :
    (roomState (makeRoom who tenant need fuel s)).pending = s.pending := by
  induction fuel generalizing s with
  | zero => unfold makeRoom; dsimp only; (repeat' split) <;> rfl
  | succ fuel ih =>
    unfold makeRoom
    dsimp only
    split
    · rfl
    · split
      · rfl
      · split
        · rename_i heq _
          cases heq
          rw [ih, evictOne_pending]
        · rfl

theorem findFrames_pending {who : Option Nat} {tenant need : Nat} {s : State} {r : Room} (h : findFrames who tenant need s = r) :
    (roomState r).pending = s.pending := h ▸ makeRoom_pending _ _ _ _ _

/-- The state that a commit of writes leaves. -/
def outcomeState : CommitOutcome → State
  | .fails _ _ s => s
  | .waits s => s
  | .done s => s

@[simp] theorem pageWritten_pending (old : Memory) (tenant p : Nat) (s : State) : (pageWritten old tenant p s).pending = s.pending := by
  unfold pageWritten; split <;> simp

theorem commitWrites_pending {who : Option Nat} {tenant : Nat} {runs : List WriteRun} {held : Nat} {s : State} {o : CommitOutcome}
    (h : commitWrites who tenant runs held s = o) : (outcomeState o).pending = s.pending := by
  subst h
  unfold commitWrites
  dsimp only
  split
  · rfl
  · split
    · exact findFrames_pending ‹_›
    · exact findFrames_pending ‹_›
    · have hf := findFrames_pending ‹findFrames _ _ _ _ = _›
      split
      · exact hf
      · simpa [commitWrites.done', outcomeState, roomState] using hf

theorem withFrames_keeps {f : Flight} {runs : List WriteRun} {s : State} {k : State → Verdict} {q : List Instr} (hs : s.pending = q)
    (hk : ∀ t, t.pending = q → Keeps q (k t)) : Keeps q (withFrames f runs s k) := by
  unfold withFrames
  split <;> have hf := (findFrames_pending ‹_›).trans hs
  · exact hf
  · exact hf
  · exact hk _ hf

theorem commitVerdict_keeps {f : Flight} {runs : List WriteRun} {s : State} {k : State → Verdict} {q : List Instr} (hs : s.pending = q)
    (hk : ∀ t, t.pending = q → Keeps q (k t)) : Keeps q (commitVerdict f runs s k) := by
  unfold commitVerdict
  split <;> have hc := (commitWrites_pending ‹_›).trans hs
  · exact hc
  · exact hc
  · exact hk _ hc

@[simp] theorem freshHandle_pending (kind : Nat) (held : List Nat) (s : State) : (freshHandle kind held s).2.pending = s.pending := (rfl)

/-! ### SelectOps -/

@[simp] theorem countSelections_pending (tenant passes keys sentinels : Nat) (l : List Selected) (s : State) :
    (countSelections tenant passes keys sentinels l s).pending = s.pending := by
  simp only [countSelections, bump_pending]

/-! ### AllocOps -/

@[simp] theorem takeRange_pending (a : Alloc) (die : Nat) (s : State) : (takeRange a die s).2.pending = s.pending := (rfl)

theorem takeStorage_pending {tenant tier die len a : Nat} {s t : State} (h : takeStorage tenant tier die len s = .ok (a, t)) :
    t.pending = s.pending := by
  unfold takeStorage at h
  split at h
  · cases h; rfl
  · (repeat' split at h) <;> cases h
    exact takeRange_pending _ _ _

@[simp] theorem releaseAlloc_pending (base len : Nat) (s : State) : (releaseAlloc base len s).pending = s.pending := (rfl)

/-! ### TableOps -/

@[simp] theorem dropFetching_pending (serial : Nat) (s : State) : (dropFetching serial s).pending = s.pending := (rfl)

@[simp] theorem sendTable_pending (kind dst tenant corr id : Nat) (body : Bytes) (s : State) :
    (sendTable kind dst tenant corr id body s).pending = s.pending := by
  simp [sendTable]

@[simp] theorem askRows_pending (serial tenant corr id : Nat) (t : Table) (rows : List Nat) (s : State) :
    (askRows serial tenant corr id t rows s).pending = s.pending := by
  simp [askRows]

@[simp] theorem fetchVerdict_keeps (s : State) (f : Flight) (id : Nat) (t : Table) (rows : List Nat) (a : RowFetch) :
    Keeps s.pending (fetchVerdict s f id t rows a) := by
  unfold fetchVerdict; split <;> simp

@[simp] theorem serveRows_pending (a : RowServing) (s : State) : (serveRows a s).pending = s.pending := by
  unfold serveRows; (repeat' split) <;> simp

@[simp] theorem takeAsk_pending (peer tenant corr id : Nat) (b : Bytes) (s : State) :
    (takeAsk peer tenant corr id b s).pending = s.pending := by
  simp [takeAsk]

theorem takeServed_pending {peer tenant corr : Nat} {r : Reply} {s t : State} (h : takeServed peer tenant corr r s = some t) :
    t.pending = s.pending := by
  unfold takeServed at h
  dsimp only at h
  split at h <;> cases h
  rfl

@[simp] theorem takeReport_pending (id : Nat) (b : Bytes) (s : State) : (takeReport id b s).pending = s.pending := by
  unfold takeReport; split <;> simp

@[simp] theorem takeTableMessage_pending (peer tenant corr : Nat) (params content : Bytes) (s : State) :
    (takeTableMessage peer tenant corr params content s).pending = s.pending := by
  simp only [takeTableMessage]; (repeat' split) <;> simp

@[simp] theorem tellTable_pending (id : Nat) (dsts : List Nat) (s : State) : (tellTable id dsts s).pending = s.pending := by
  unfold tellTable; split <;> simp

@[simp] theorem tellTables_pending (m : Nat) (s : State) : (tellTables m s).pending = s.pending := by simp [tellTables]

@[simp] theorem takeId_pending (used : List Nat) (f : Flight) (s : State) : (takeId used f s).2.pending = s.pending := (rfl)

@[simp] theorem learnTable_pending (f : Flight) (r : Reply) (s : State) : (learnTable f r s).pending = s.pending := by simp [learnTable]

/-! ### SearchOps -/

@[simp] theorem countMerges_pending (metric tenant k sentinels : Nat) (queries : List (List SearchPart)) (s : State) :
    (countMerges metric tenant k sentinels queries s).pending = s.pending := by
  rw [countMerges, countSelections_pending]

@[simp] theorem trimRanges_pending (excess : Nat) (l : List Nat) (s : State) : (trimRanges excess l s).2.pending = s.pending := by
  fun_induction trimRanges excess l s with
  | case1 => rfl
  | case2 => rfl
  | case3 _ _ _ _ _ _ ih => exact ih
  | case4 _ _ _ _ _ _ _ _ ih => rw [ih, releaseAlloc_pending]
  | case5 => rfl

theorem resizeHold_pending {tenant tier die need : Nat} {l m : List Nat} {s t : State} (h : resizeHold tenant tier die need l s = .ok (m, t)) :
    t.pending = s.pending := by
  unfold resizeHold at h
  dsimp only at h
  split at h
  · rw [← trimRanges_pending (heldBytes s l - pageBytes need) l s, Except.ok.inj h]
  · split at h
    · cases h; exact takeStorage_pending ‹_›
    · cases h

@[simp] theorem putBlocks_pending (tier n a : Nat) (b : Bytes) (s : State) : (putBlocks tier n a b s).pending = s.pending := by
  induction n generalizing a b s with
  | zero => rfl
  | succ n ih => simp [putBlocks, ih]

@[simp] theorem placeVectors_pending (x : VecIndex) (s : State) : (placeVectors x s).pending = s.pending :=
  foldl_snd_pending _ _ _ fun p a => by simp

theorem fitIndex_pending {x y : VecIndex} {s t : State} (h : fitIndex x s = .ok (y, t)) : t.pending = s.pending := by
  have hresize := @resizeHold_pending
  rw [fitIndex] at h
  obtain ⟨resize, hr⟩ : ∃ resize, resize = resizeHold := exists_eq
  rw [← hr] at hresize h
  split at h
  · cases h
  · have h1 := hresize ‹_›
    split at h
    · cases h
    · have h2 := hresize ‹resize _ x.vecTier _ _ _ _ = _›
      dsimp only at h
      split at h <;> cases h
      rw [placeVectors_pending, h2, h1]

@[simp] theorem releaseIndex_pending (id : Nat) (s : State) : (releaseIndex id s).pending = s.pending := by
  unfold releaseIndex
  split
  · rfl
  · exact foldl_pending _ _ _ fun t a => releaseAlloc_pending _ _ _

@[simp] theorem tellIndex_pending (id : Nat) (dsts : List Nat) (s : State) : (tellIndex id dsts s).pending = s.pending := by
  unfold tellIndex; split <;> simp

@[simp] theorem tellIndexes_pending (m : Nat) (s : State) : (tellIndexes m s).pending = s.pending := by simp [tellIndexes]

@[simp] theorem learnIndex_pending (f : Flight) (r : Reply) (s : State) : (learnIndex f r s).pending = s.pending := by simp [learnIndex]

/-! ### RunOps -/

@[simp] theorem breakReservations_pending (cell off n except : Nat) (s : State) :
    (breakReservations cell off n except s).pending = s.pending :=
  (rfl)

@[simp] theorem scratchWrite_pending (cell off : Nat) (b : Bytes) (except : Nat) (s : State) :
    (scratchWrite cell off b except s).pending = s.pending :=
  (rfl)

@[simp] theorem correctedError_pending (unit addr tier : Nat) (s : State) : (correctedError unit addr tier s).pending = s.pending := by
  simp only [correctedError]; split <;> simp

@[simp] theorem uncorrectedError_pending (unit tenant command addr tier action : Nat) (s : State) :
    (uncorrectedError unit tenant command addr tier action s).pending = s.pending := by
  simp [uncorrectedError]

@[simp] theorem markUnit_pending (f : Option Flight) (ends atHome : Bool) (addr : Nat) (outcome : TierOutcome) (s0 : State) :
    (markUnit f ends atHome addr outcome s0).pending = s0.pending := by
  simp only [markUnit]; split <;> simp

@[simp] theorem chargeCells_pending (tenant cycles : Nat) (s : State) : (chargeCells tenant cycles s).pending = s.pending := (rfl)

@[simp] theorem wakeHub_pending (domain : Nat) (s : State) : (wakeHub domain s).pending = s.pending := by simp [wakeHub]

@[simp] theorem chargeHub_pending (domain tenant : Nat) (s0 : State) : (chargeHub domain tenant s0).pending = s0.pending := by
  simp [chargeHub]

@[simp] theorem freeCells_pending (cells : List Nat) (s : State) : (freeCells cells s).pending = s.pending := (rfl)

@[simp] theorem chargeEnded_pending (i : WorkItem) (s : State) : (chargeEnded i s).pending = s.pending := by simp [chargeEnded]

@[simp] theorem removeItems_pending (serial : Nat) (s : State) : (removeItems serial s).pending = s.pending := (rfl)

@[simp] theorem dropItems_pending (serial : Nat) (s : State) : (dropItems serial s).pending = s.pending := by simp [dropItems]

@[simp] theorem addCounts_pending (tenant : Nat) (n : NumCounts) (s : State) : (addCounts tenant n s).pending = s.pending := by
  simp [addCounts]

@[simp] theorem endWaiters_pending (r : Run) (stepOutcome newPc : Nat) (s : State) :
    (endWaiters r stepOutcome newPc s).pending = s.pending := by
  unfold endWaiters
  dsimp only
  (repeat' split) <;> (try rw [finishPlain_pending]) <;> exact foldl_pending _ _ _ fun t w => by split <;> simp

@[simp] theorem endSearch_pending (serial : Nat) (committed : Bool) (s : State) : (endSearch serial committed s).pending = s.pending := by
  unfold endSearch; (repeat' split) <;> simp

@[simp] theorem endWork_pending (serial stepOutcome newPc : Nat) (s : State) :
    (endWork serial stepOutcome newPc s).pending = s.pending := by
  unfold endWork; split <;> simp

/-! ### CoordOps -/

@[simp] theorem announceObject_pending (time : Nat) (f : Flight) (r : Reply) (known : List Nat) (s : State) :
    (announceObject time f r known s).pending = s.pending := by
  unfold announceObject; (repeat' split) <;> simp

@[simp] theorem learnObject_pending (time : Nat) (f : Flight) (r : Reply) (known : List Nat) (s : State) :
    (learnObject time f r known s).pending = s.pending := by
  simp [learnObject]

@[simp] theorem setCoord_pending (c : Coord) (s : State) : (setCoord c s).pending = s.pending := (rfl)

@[simp] theorem dropCoord_pending (key : TxnKey) (s : State) : (dropCoord key s).pending = s.pending := (rfl)

@[simp] theorem lockPages_pending (key : TxnKey) (pages : List Nat) (s : State) : (lockPages key pages s).pending = s.pending := (rfl)

@[simp] theorem unlockOwn_pending (key : TxnKey) (s : State) : (unlockOwn key s).pending = s.pending := (rfl)

@[simp] theorem releasePledge_pending (key : TxnKey) (s : State) : (releasePledge key s).pending = s.pending := (rfl)

@[simp] theorem addPledge_pending (key : TxnKey) (tenant : Nat) (after s : State) : (addPledge key tenant after s).pending = s.pending := by
  simp [addPledge]

@[simp] theorem addPrepared_pending (key : TxnKey) (parts : List Part) (locks : List Obj) (vote : Reply) (corr tenant : Nat) (after s : State) :
    (addPrepared key parts locks vote corr tenant after s).pending = s.pending := by
  simp [addPrepared]

@[simp] theorem dropPrepared_pending (key : TxnKey) (s : State) : (dropPrepared key s).pending = s.pending := by simp [dropPrepared]

@[simp] theorem abortRecords_pending (parts : List Part) (failing : Option (Nat × Status × Nat)) (s : State) :
    (abortRecords parts failing s).pending = s.pending :=
  foldl_pending _ _ _ fun t p => by split <;> simp

@[simp] theorem forgetTxn_pending (session id : Nat) (committed : Bool) (s : State) :
    (forgetTxn session id committed s).pending = s.pending :=
  (rfl)

@[simp] theorem abortTxn_pending (session id : Nat) (parts : List Part) (failing : Option (Nat × Status × Nat)) (s : State) :
    (abortTxn session id parts failing s).pending = s.pending := by
  simp [abortTxn]

@[simp] theorem handoverEnds_pending (c : Coord) (r : Reply) (s : State) : (handoverEnds c r s).pending = s.pending := by
  unfold handoverEnds; split <;> simp

@[simp] theorem coordFails_pending (c : Coord) (r : Reply) (s : State) : (coordFails c r s).pending = s.pending := by
  simp only [coordFails]; split <;> simp

@[simp] theorem dropDecision_pending (key : TxnKey) (s : State) : (dropDecision key s).pending = s.pending := (rfl)

@[simp] theorem forgetDecision_pending (key : TxnKey) (corr : Nat) (s : State) : (forgetDecision key corr s).pending = s.pending := by
  simp [forgetDecision]

@[simp] theorem coordEnds_pending (late : Bool) (key : TxnKey) (s : State) : (coordEnds late key s).pending = s.pending := by
  simp only [coordEnds]; (repeat' split) <;> simp

@[simp] theorem coordReplied_pending (key : TxnKey) (s : State) : (coordReplied key s).pending = s.pending := by simp [coordReplied]

@[simp] theorem coordAcked_pending (key : TxnKey) (s : State) : (coordAcked key s).pending = s.pending := by
  unfold coordAcked; split <;> simp

@[simp] theorem coordVoted_pending (key : TxnKey) (expired : Bool) (s : State) : (coordVoted key expired s).pending = s.pending := by
  unfold coordVoted; split <;> simp

@[simp] theorem recordVote_pending (key : TxnKey) (m : Nat) (r : Reply) (s : State) : (recordVote key m r s).pending = s.pending := by
  unfold recordVote; split <;> simp

@[simp] theorem castVote_pending (key : TxnKey) (tenant commandId : Nat) (r : Reply) (s0 : State) :
    (castVote key tenant commandId r s0).pending = s0.pending := by
  simp [castVote]

@[simp] theorem finish_pending (f : Flight) (r : Reply) (s0 : State) : (finish f r s0).pending = s0.pending := by
  simp only [finish]; split <;> simp

/-! ### Commands -/

@[simp] theorem stagedRecord_pending (f : Flight) (s : State) : (stagedRecord f s).pending = s.pending := by simp [stagedRecord]

@[simp] theorem stage_pending (c : Command) (f : Flight) (s : State) : (stage c f s).pending = s.pending := by
  unfold stage; (repeat' split) <;> simp

@[simp] theorem startGather_pending (f : Flight) (others : List Nat) (own : List (Nat × Reply)) (extra : Nat → Bytes) (s : State) :
    (startGather f others own extra s).pending = s.pending := by
  simp [startGather]

@[simp] theorem startCoord_pending (key : TxnKey) (f : Flight) (parts : List Part) (locks : List Obj) (participants : List Nat) (own : Option (Reply × State)) (prepare : Nat → Bytes) (s : State) :
    (startCoord key f parts locks participants own prepare s).pending = s.pending := by
  simp only [startCoord]; split <;> simp

theorem runLocal_pending {c : Command} (hc : KeepsQueue c) (f : Flight) (s : State) : (runLocal c f s).pending = s.pending := by
  unfold runLocal
  split
  · simp
  · split
    · simp
    · split <;> (have hv := hc.verdict ‹_›; simp_all)

@[simp] theorem workerOf_pending (key : TxnKey) (f : Flight) (s : State) : (workerOf key f s).2.pending = s.pending := (rfl)

theorem startWorker_pending {c : Command} (hc : KeepsQueue c) (key : TxnKey) (f : Flight) (s : State) :
    (startWorker c key f s).pending = s.pending := by
  have hw := workerOf_pending key f s
  unfold startWorker
  generalize workerOf key f s = p at hw ⊢
  obtain ⟨w, s1⟩ := p
  dsimp only at hw ⊢
  rw [← hw]
  split
  · simp
  · split <;> (have hv := hc.verdict ‹_›; simp_all)

theorem ownWaits_pending {c : Command} (hc : KeepsQueue c) {f : Flight} {s t : State} (h : ownWaits c f s = some t) :
    t.pending = s.pending := by
  unfold ownWaits at h
  split at h
  · cases h; rfl
  · split at h
    · cases h
    · split at h <;> cases h
      · rfl
      · exact hc.verdict ‹_›

theorem runFront_pending {c : Command} (hc : KeepsQueue c) (f : Flight) (mods : List Nat) (s : State) :
    (runFront c f mods s).pending = s.pending := by
  unfold runFront
  extract_lets g s1 self key objs g1 part prepare s2 own
  have h1 : s1.pending = s.pending := by simp [s1]
  have h2 : s2.pending = s.pending := (startCoord_pending _ _ _ _ _ _ _ _).trans h1
  clear_value g s1
  split
  · simp
  · split
    · simp
    · split
      · simp
      · split
        · simp
        · simp
        · split
          · simp [h1]
          · split
            · split
              · rename_i heq
                split at heq
                · rw [beginFlight_pending, ownWaits_pending hc heq, h1]
                · cases heq
              · split
                · simp [startWorker_pending hc, h2]
                · simp [hc.prepare, h1]
            · split <;> simp [h1]

theorem runCommand_pending {c : Command} (hc : KeepsQueue c) (h : Nat) (s : State) : (runCommand c h s).pending = s.pending := by
  unfold runCommand
  split
  · rfl
  · split
    · split
      · simp
      · dsimp only
        split
        · exact runLocal_pending hc _ _
        · split
          · exact runLocal_pending hc _ _
          · exact runFront_pending hc _ _ _
    · rfl

theorem runAt_pending {c : Command} (hc : KeepsQueue c) (mods : State → Flight → List Nat) (h : Nat) (s : State) :
    (runAt c mods h s).pending = s.pending := by
  unfold runAt
  dsimp only
  (repeat' split) <;> simp [runLocal_pending hc, runFront_pending hc]

theorem runEntry_pending {c : Command} (hc : KeepsQueue c) (h : Nat) (s : State) : (runEntry c h s).pending = s.pending := by
  unfold runEntry
  (repeat' split) <;> simp [runLocal_pending hc]

/-! ### RunEnds -/

@[simp] theorem abortFlight_pending (f : Flight) (st : Status) (d : Nat) (result : Bytes) (s : State) :
    (abortFlight f st d result s).pending = s.pending := by
  simp [abortFlight]

@[simp] theorem faultRun_pending (r : Run) (hart cause : Nat) (st : Status) (d pc addr insn : Nat) (s : State) :
    (faultRun r hart cause st d pc addr insn s).pending = s.pending := by
  simp only [faultRun]; split <;> simp

@[simp] theorem nanTrap_pending (serial unit tenant : Nat) (rec' : Bytes) (s : State) :
    (nanTrap serial unit tenant rec' s).pending = s.pending := by
  simp only [nanTrap]; split <;> simp

theorem eccOutcome_pending {r : Run} {hart pc insn : Nat} {e : EccEvent} {s t : State} (h : eccOutcome r hart pc insn e s = some t) :
    t.pending = s.pending := by
  unfold eccOutcome at h
  split at h <;> cases h
  simp

@[simp] theorem eccNote_pending (cell : Nat) (e : EccEvent) (s : State) : (eccNote cell e s).pending = s.pending := by
  unfold eccNote; split <;> simp

/-! ### CoreOps -/

@[simp] theorem settleStep_pending (serial : Nat) (s : State) : (settleStep serial s).pending = s.pending := by
  simp only [settleStep]; (repeat' split) <;> simp

@[simp] theorem startHalt_pending (r : Run) (brk : Option Nat) (hart reason : Nat) (s : State) :
    (startHalt r brk hart reason s).pending = s.pending :=
  (rfl)

@[simp] theorem hitBreak_pending (r : Run) (b : Breakpoint) (hart pc reason : Nat) (s : State) :
    (hitBreak r b hart pc reason s).pending = s.pending :=
  (rfl)

theorem coreRow_pending {hart : Nat} {want : Nat → Bool} {k : Run → Core → Fetched → Nat → State → State}
    (hk : ∀ r c f w t, (k r c f w t).pending = t.pending) (s : State) : (coreRow hart want k s).pending = s.pending := by
  unfold coreRow
  (repeat' split) <;> simp [hk]

@[simp] theorem retireCustom_pending (r : Run) (hart : Nat) (c : Core) (s : State) : (retireCustom r hart c s).pending = s.pending := (rfl)

@[simp] theorem stallCore_pending (hart : Nat) (c : Core) (st : Stall) (s : State) : (stallCore hart c st s).pending = s.pending := (rfl)

@[simp] theorem faultCore_pending (r : Run) (hart : Nat) (c : Core) (f : Fetched) (cause : Nat) (st : Status) (d addr : Nat) (s : State) :
    (faultCore r hart c f cause st d addr s).pending = s.pending := by
  simp [faultCore]

@[simp] theorem coreStore_pending (hart : Nat) (st : Option (Nat × Bytes)) (c : Core) (s : State) :
    (coreStore hart st c s).pending = s.pending := by
  unfold coreStore; split <;> simp

@[simp] theorem popArray_pending (cell : Nat) (s : State) : (popArray cell s).pending = s.pending := (rfl)

@[simp] theorem popVector_pending (cell : Nat) (s : State) : (popVector cell s).pending = s.pending := (rfl)

@[simp] theorem countRun_pending (serial : Nat) (n : NumCounts) (s : State) : (countRun serial n s).pending = s.pending := by
  unfold countRun; split <;> simp

/-! ### ArrayRows -/

@[simp] theorem arrayIssue_pending (hart : Nat) (s : State) : (arrayIssue hart s).pending = s.pending :=
  coreRow_pending (fun r c f w t => by dsimp only; (repeat' split) <;> simp) s

@[simp] theorem parityEnds_pending (f : Flight) (cell row : Nat) (s : State) : (parityEnds f cell row s).pending = s.pending := by
  simp [parityEnds]

@[simp] theorem accumulatorParity_pending (r : Run) (cell row : Nat) (s : State) :
    (accumulatorParity r cell row s).pending = s.pending := by
  unfold accumulatorParity; split <;> simp

@[simp] theorem applyArray_pending (r : Run) (e : ArrayEntry) (cell : Nat) (o : ArrayOut) (s : State) :
    (applyArray r e cell o s).pending = s.pending := by
  unfold applyArray
  split
  · simp
  · split <;> simp [drawFree]

theorem arrayRow_pending {cell op : Nat} {parity : Option Nat} {ecc : EccEvent} {reads : ArrayEntry → List (Nat × Nat)}
    {run : Run → Cell → ArrayEntry → State → ArrayOut} {count : Cell → ArrayEntry → State → State}
    (hc : ∀ c e t, (count c e t).pending = t.pending) (s : State) : (arrayRow cell op parity ecc reads run count s).pending = s.pending := by
  unfold arrayRow
  split
  · rfl
  · split
    · simp
    · split
      · exact eccOutcome_pending ‹_›
      · split <;> simp [hc]

@[simp] theorem countTail_pending (cell : Nat) (c : Cell) (s : State) : (countTail cell c s).pending = s.pending := (rfl)

@[simp] theorem mma_pending (cell : Nat) (parity : Option Nat) (ecc : EccEvent) (s : State) : (mma cell parity ecc s).pending = s.pending :=
  arrayRow_pending (fun c e t => by simp) s

@[simp] theorem mld_pending (cell : Nat) (ecc : EccEvent) (s : State) : (mld cell ecc s).pending = s.pending :=
  arrayRow_pending (fun c e t => by simp) s

@[simp] theorem mdr_pending (cell : Nat) (parity : Option Nat) (s : State) : (mdr cell parity s).pending = s.pending :=
  arrayRow_pending (fun c e t => by simp) s

@[simp] theorem mrs_pending (cell : Nat) (parity : Option Nat) (ecc : EccEvent) (s : State) : (mrs cell parity ecc s).pending = s.pending :=
  arrayRow_pending (fun c e t => by simp) s

@[simp] theorem mfence_pending (hart : Nat) (s : State) : (mfence hart s).pending = s.pending :=
  coreRow_pending (fun r c f w t => by split <;> simp) s

/-! ### HostRows -/

@[simp] theorem badAccess_pending (s : State) : (badAccess s).pending = s.pending := (rfl)

@[simp] theorem parityRewritten_pending (bar off : Nat) (s : State) : (parityRewritten bar off s).pending = s.pending := (rfl)

@[simp] theorem sqTailWrite_pending (ring : Nat) (value : W32) (s : State) : (sqTailWrite ring value s).pending = s.pending := by
  simp [sqTailWrite]

@[simp] theorem cqHeadWrite_pending (ring : Nat) (value : W32) (s : State) : (cqHeadWrite ring value s).pending = s.pending := by
  simp [cqHeadWrite]

@[simp] theorem sqEnable_pending (ring : Nat) (s : State) : (sqEnable ring s).pending = s.pending := by simp [sqEnable]

@[simp] theorem sqDisable_pending (ring : Nat) (s : State) : (sqDisable ring s).pending = s.pending := (rfl)

@[simp] theorem voidReservations_pending (ring : Nat) (s : State) : (voidReservations ring s).pending = s.pending := (rfl)

@[simp] theorem cqEnable_pending (ring : Nat) (irqEn : Bool) (s : State) : (cqEnable ring irqEn s).pending = s.pending := by simp [cqEnable]

@[simp] theorem cqDisable_pending (ring : Nat) (irqEn : Bool) (s : State) : (cqDisable ring irqEn s).pending = s.pending := (rfl)

@[simp] theorem irqEventEnWrite_pending (value : W32) (s : State) : (irqEventEnWrite value s).pending = s.pending := by
  simp [irqEventEnWrite]

@[simp] theorem unmaskVector_pending (v : Nat) (s : State) : (unmaskVector v s).pending = s.pending := by simp [unmaskVector]

@[simp] theorem cqCoalExpiry_pending (ring now : Nat) (s0 : State) : (cqCoalExpiry ring now s0).pending = s0.pending := by
  simp [cqCoalExpiry]

@[simp] theorem hostReadFails_pending (what : HostRead) (s : State) : (hostReadFails what s).pending = s.pending := by
  unfold hostReadFails; (repeat' split) <;> simp

@[simp] theorem voidAll_pending (s : State) : (voidAll s).pending = s.pending := (rfl)

@[simp] theorem functionReset_pending (config : Bool) (s : State) : (functionReset config s).pending = s.pending := by simp [functionReset]

@[simp] theorem flrOrHold_pending (config : Bool) (s : State) : (flrOrHold config s).pending = s.pending := by simp [flrOrHold]

@[simp] theorem linkDown_pending (s : State) : (linkDown s).pending = s.pending := (rfl)

@[simp] theorem sqConfigWrite_pending (ring reg v : Nat) (s : State) : (sqConfigWrite ring reg v s).pending = s.pending := by
  unfold sqConfigWrite; (repeat' split) <;> simp

@[simp] theorem cqConfigWrite_pending (ring reg v : Nat) (s : State) : (cqConfigWrite ring reg v s).pending = s.pending := by
  unfold cqConfigWrite; (repeat' split) <;> simp

@[simp] theorem msixWrite_pending (off v : Nat) (s : State) : (msixWrite off v s).pending = s.pending := by simp [msixWrite]

@[simp] theorem peekRegWrite_pending (off v : Nat) (s : State) : (peekRegWrite off v s).pending = s.pending := (rfl)

@[simp] theorem registerWrite_pending (bar off v : Nat) (s : State) : (registerWrite bar off v s).pending = s.pending := by
  simp [registerWrite]

/-! ### PowerRows -/

@[simp] theorem restartAkent_pending (keepConfig clearLatch : Bool) (s : State) :
    (restartAkent keepConfig clearLatch s).pending = s.pending :=
  (rfl)

@[simp] theorem internalReset_pending (s : State) : (internalReset s).pending = s.pending := (rfl)

@[simp] theorem shutdown_pending (s : State) : (shutdown s).pending = s.pending := by simp [shutdown]

@[simp] theorem startConversion_pending (s : State) : (startConversion s).pending = s.pending := by simp [startConversion]

@[simp] theorem resetDelayExpiry_pending (now : Nat) (s0 : State) : (resetDelayExpiry now s0).pending = s0.pending := by
  simp only [resetDelayExpiry]; split <;> simp

@[simp] theorem powerOff_pending (s : State) : (powerOff s).pending = s.pending := (rfl)

@[simp] theorem retestUnits_pending (passed : List Nat) (s : State) : (retestUnits passed s).pending = s.pending := by simp [retestUnits]

@[simp] theorem boot_pending (passed : List Nat) (countersValid : Bool) (s : State) :
    (boot passed countersValid s).pending = s.pending := by
  simp only [boot]; (repeat' split) <;> simp

@[simp] theorem fwReady_pending (now : Nat) (s0 : State) : (fwReady now s0).pending = s0.pending := by simp [fwReady]

/-! ### BoardRows -/

@[simp] theorem spdmReply_pending (code : Nat) (content : Bytes) (s : State) : (spdmReply code content s).pending = s.pending := (rfl)

@[simp] theorem spdmError_pending (err : Nat) (s : State) : (spdmError err s).pending = s.pending := (rfl)

@[simp] theorem holdDown_pending (n : Nat) (s : State) : (holdDown n s).pending = s.pending := (rfl)

/-! ### Inbound -/

@[simp] theorem askPair_pending (dst uid : Nat) (s : State) : (askPair dst uid s).pending = s.pending := (rfl)

@[simp] theorem dropReplicasOf_pending (from' : Table → Bool) (s : State) : (dropReplicasOf from' s).pending = s.pending := (rfl)

@[simp] theorem heardFrom_pending (m : Nat) (s : State) : (heardFrom m s).pending = s.pending := by simp [heardFrom]

@[simp] theorem staleBy_pending (peer epoch : Nat) (s : State) : (staleBy peer epoch s).pending = s.pending := (rfl)

/-- The state that a message's first checks leave. -/
def inboundState (s : State) : Inbound → State
  | .ignored => s
  | .dropped t => t
  | .accepted _ t => t

theorem inbound_pending {type peer : Nat} {plain : Bytes} {s : State} {i : Inbound} (h : inbound type peer plain s = i) :
    (inboundState s i).pending = s.pending := by
  subst h
  unfold inbound
  dsimp only
  (repeat' split) <;> simp [inboundState]

theorem onMessage_pending {type peer : Nat} {plain : Bytes} {k : Msg → State → State} (hk : ∀ m t, (k m t).pending = t.pending) (s : State) :
    (onMessage type peer plain s k).pending = s.pending := by
  unfold onMessage
  split <;> have hi := inbound_pending ‹_›
  · rfl
  · exact hi
  · rw [hk]
    exact hi

/-! ### SchedOps -/

@[simp] theorem setItem_pending (i : WorkItem) (s : State) : (setItem i s).pending = s.pending := (rfl)

@[simp] theorem passCell_pending (tenant : Nat) (s : State) (c : Nat) : (passCell tenant s c).pending = s.pending := by simp [passCell]

@[simp] theorem startKernel_pending (i : WorkItem) (cells : List Nat) (s : State) : (startKernel i cells s).pending = s.pending := by
  unfold startKernel
  split
  · rfl
  · dsimp only
    split
    · rfl
    · simp
    · rw [foldl_pending _ _ _ fun t c => by simp, foldl_pending _ _ _ fun t x => by simp]

@[simp] theorem grantCells_pending (i : WorkItem) (places : List (Nat × Bool)) (s : State) :
    (grantCells i places s).pending = s.pending := by
  simp [grantCells]

@[simp] theorem serveItem_pending (i : WorkItem) (s : State) : (serveItem i s).pending = s.pending := by simp [serveItem]

@[simp] theorem serveAll_pending (l : List WorkItem) (s : State) : (serveAll l s).pending = s.pending := by
  induction l generalizing s with
  | nil => rfl
  | cons i is ih => simp [serveAll, ih]

@[simp] theorem preempt_pending (v : WorkItem) (s : State) : (preempt v s).pending = s.pending := by simp only [preempt]; split <;> simp

@[simp] theorem serveByForce_pending (fuel : Nat) (i : WorkItem) (s : State) : (serveByForce fuel i s).pending = s.pending := by
  induction fuel generalizing s with
  | zero => simp [serveByForce]
  | succ fuel ih =>
    unfold serveByForce
    dsimp only
    (repeat' split) <;> simp [ih]

@[simp] theorem demandThaw_pending (s : State) (q : Nat) : (demandThaw s q).pending = s.pending := by simp [demandThaw]

@[simp] theorem thawFor_pending (coming : Nat) (l : List WorkItem) (s : State) : (thawFor coming l s).pending = s.pending := by
  induction l generalizing coming s with
  | nil => rfl
  | cons i is ih => simp [thawFor, ih]

@[simp] theorem preThaw_pending (s : State) : (preThaw s).pending = s.pending := by simp [preThaw]

@[simp] theorem schedPoint_pending (s : State) : (schedPoint s).pending = s.pending := by
  unfold schedPoint
  split
  · rfl
  · dsimp only
    rw [preThaw_pending, thawFor_pending]
    refine (foldl_pending _ _ _ fun t i => ?_).trans (serveAll_pending _ _)
    split <;> simp

@[simp] theorem wakeTenant_pending (tenant : Nat) (s : State) : (wakeTenant tenant s).pending = s.pending := by
  unfold wakeTenant; (repeat' split) <;> simp

@[simp] theorem enterItem_pending (i : WorkItem) (s : State) : (enterItem i s).pending = s.pending := by simp [enterItem]

@[simp] theorem submitItem_pending (f : Flight) (placement tiles tiles0 : Nat) (whole : Bool) (layer : Nat) (prefer : Option Nat) (s : State) :
    (submitItem f placement tiles tiles0 whole layer prefer s).pending = s.pending := by
  simp [submitItem]

/-! ### VectorRows -/

@[simp] theorem vectorIssue_pending (hart : Nat) (s : State) : (vectorIssue hart s).pending = s.pending :=
  coreRow_pending (fun r c f w t => by dsimp only; (repeat' split) <;> simp) s

@[simp] theorem applyVector_pending (r : Run) (e : VectorEntry) (cell : Nat) (o : VecOut) (s : State) :
    (applyVector r e cell o s).pending = s.pending := by
  simp [applyVector]

theorem vectorRow_pending {cell : Nat} {want : Nat → Bool} {k : Run → VectorEntry → Cell → State → State}
    (hk : ∀ r e c t, (k r e c t).pending = t.pending) (s : State) : (vectorRow cell want k s).pending = s.pending := by
  unfold vectorRow
  split
  · rfl
  · exact hk _ _ _ _

@[simp] theorem varith_pending (cell f7 : Nat) (s : State) : (varith cell f7 s).pending = s.pending :=
  vectorRow_pending (fun r e c t => by simp) s

@[simp] theorem vscal_pending (cell : Nat) (s : State) : (vscal cell s).pending = s.pending :=
  vectorRow_pending (fun r e c t => by simp) s

@[simp] theorem vld_pending (cell : Nat) (ecc : EccEvent) (s : State) : (vld cell ecc s).pending = s.pending :=
  vectorRow_pending (fun r e c t => by
    dsimp only
    split
    · simp
    · split
      · exact eccOutcome_pending ‹_›
      · simp
      · simp) s

@[simp] theorem vst_pending (cell : Nat) (s : State) : (vst cell s).pending = s.pending :=
  vectorRow_pending (fun r e c t => by dsimp only; split <;> simp) s

@[simp] theorem vreduce_pending (cell f7 : Nat) (op : Nat → Nat → Nat × NumCounts) (s : State) :
    (vreduce cell f7 op s).pending = s.pending :=
  vectorRow_pending (fun r e c t => by simp) s

@[simp] theorem vextr_pending (cell : Nat) (s : State) : (vextr cell s).pending = s.pending :=
  vectorRow_pending (fun r e c t => by simp) s

@[simp] theorem vins_pending (cell : Nat) (s : State) : (vins cell s).pending = s.pending :=
  vectorRow_pending (fun r e c t => by simp) s

@[simp] theorem vcvt_pending (cell : Nat) (s : State) : (vcvt cell s).pending = s.pending :=
  vectorRow_pending (fun r e c t => by simp) s

@[simp] theorem vseed_pending (cell : Nat) (s : State) : (vseed cell s).pending = s.pending :=
  vectorRow_pending (fun r e c t => by simp) s

@[simp] theorem vfence_pending (hart : Nat) (s : State) : (vfence hart s).pending = s.pending :=
  coreRow_pending (fun r c f w t => by split <;> simp) s

/-! ### CoreRows -/

@[simp] theorem waitCycles_pending (hart w : Nat) (c : Core) (s : State) : (waitCycles hart w c s).2.pending = s.pending := by
  simp [waitCycles]

@[simp] theorem scalarRun_pending (r : Run) (hart : Nat) (c0 : Core) (f : Fetched) (w : Nat) (s0 : State) :
    (scalarRun r hart c0 f w s0).pending = s0.pending := by
  simp only [scalarRun]; (repeat' split) <;> simp

@[simp] theorem scalarInstruction_pending (hart : Nat) (ecc : EccEvent) (s : State) :
    (scalarInstruction hart ecc s).pending = s.pending := by
  unfold scalarInstruction
  split
  · rfl
  · split
    · simp
    · split
      · simp
      · split
        · simp
        · split
          · exact eccOutcome_pending ‹_›
          · simp

@[simp] theorem endStep_pending (r : Run) (outcome pc : Nat) (s : State) : (endStep r outcome pc s).pending = s.pending := by
  simp only [endStep]; (repeat' split) <;> simp

@[simp] theorem ecall_pending (hart : Nat) (s : State) : (ecall hart s).pending = s.pending :=
  coreRow_pending (fun r c f w t => by dsimp only; split <;> simp) s

@[simp] theorem ebreak_pending (hart : Nat) (s : State) : (ebreak hart s).pending = s.pending :=
  coreRow_pending (fun r c f w t => by (repeat' split) <;> simp) s

@[simp] theorem dsub_pending (hart : Nat) (s : State) : (dsub hart s).pending = s.pending :=
  coreRow_pending (fun r c f w t => by
    dsimp only
    split
    · simp
    · split
      · simp
      · split
        · simp
        · split <;> simp [drawFree]) s

@[simp] theorem dwait_pending (hart : Nat) (s : State) : (dwait hart s).pending = s.pending :=
  coreRow_pending (fun r c f w t => by dsimp only; split <;> simp) s

@[simp] theorem dpoll_pending (hart : Nat) (s : State) : (dpoll hart s).pending = s.pending :=
  coreRow_pending (fun r c f w t => by simp) s

@[simp] theorem releaseBar_pending (r : Run) (harts : List Nat) (s : State) : (releaseBar r harts s).pending = s.pending := by
  simp [releaseBar]

@[simp] theorem tryBarriers_pending (serial : Nat) (s : State) : (tryBarriers serial s).pending = s.pending := by
  unfold tryBarriers
  split
  · rfl
  · rw [foldl_pending _ _ _ fun t cell => foldl_pending _ _ _ fun u id => ?_, foldl_pending _ _ _ fun t id => ?_]
    · split <;> simp
    · dsimp only
      (repeat' split) <;> simp

@[simp] theorem bar_pending (hart : Nat) (s : State) : (bar hart s).pending = s.pending :=
  coreRow_pending (fun r c f w t => by dsimp only; (repeat' split) <;> simp) s

@[simp] theorem barrierDeadlock_pending (h : Nat) (s : State) : (barrierDeadlock h s).pending = s.pending := by
  unfold barrierDeadlock; split <;> simp

@[simp] theorem wopen_pending (hart : Nat) (s : State) : (wopen hart s).pending = s.pending :=
  coreRow_pending (fun r c f w t => by dsimp only; (repeat' split) <;> simp) s

@[simp] theorem wclose_pending (hart : Nat) (s : State) : (wclose hart s).pending = s.pending :=
  coreRow_pending (fun r c f w t => by simp) s

@[simp] theorem endTransfer_pending (r : Run) (t : Transfer) (s : State) : (endTransfer r t s).pending = s.pending := by
  unfold endTransfer; split <;> simp

@[simp] theorem dmaIn_pending (r : Run) (t : Transfer) (s : State) : (dmaIn r t s).pending = s.pending := by
  have hn : ∀ u, (dmaIn.noteReads r t u).pending = u.pending := fun u => by unfold dmaIn.noteReads; split <;> simp
  simp [dmaIn, hn]

@[simp] theorem dmaIn.noteReads_pending (r : Run) (t : Transfer) (s : State) : (dmaIn.noteReads r t s).pending = s.pending := by
  unfold dmaIn.noteReads; split <;> simp

theorem dmaOut_pending {r : Run} {t : Transfer} {s : State} {o : Room} (h : dmaOut r t s = o) : (roomState o).pending = s.pending := by
  subst h
  unfold dmaOut
  dsimp only
  split <;> have hf := findFrames_pending ‹_›
  · exact hf
  · exact hf
  · split
    · exact hf
    · simpa [roomState] using hf

@[simp] theorem dmaTierFault_pending (r : Run) (t : Transfer) (st : Status) (addr : Nat) (s : State) :
    (dmaTierFault r t st addr s).pending = s.pending := by
  simp [dmaTierFault]

@[simp] theorem dmaComplete_pending (hart tag : Nat) (outcome : TierOutcome) (addr : Nat) (s : State) :
    (dmaComplete hart tag outcome addr s).pending = s.pending := by
  unfold dmaComplete
  split
  · rfl
  · extract_lets reads extent met s1
    have h1 : s1.pending = s.pending := markUnit_pending _ _ _ _ _ _
    clear_value s1 reads met
    split
    · rfl
    · split
      · simpa using h1
      · split
        · split
          · split <;> simpa using h1
          · simpa using h1
        · split
          · simpa using h1
          · split <;> (have hd := dmaOut_pending ‹dmaOut _ _ _ = _›; simpa [roomState, h1] using hd)

@[simp] theorem remoteWriteArrival_pending (hart tag : Nat) (s : State) : (remoteWriteArrival hart tag s).pending = s.pending := by
  unfold remoteWriteArrival
  dsimp only
  (repeat' split) <;> simp

/-! ### KernelRows -/

theorem kernelLoadCommand_keeps : KeepsQueue kernelLoadCommand := ⟨fun s f => by simp [kernelLoadCommand], fun _ _ => rfl⟩

theorem kernelRunCommand_keeps : KeepsQueue kernelRunCommand := ⟨fun s f => by simp only [kernelRunCommand]; split <;> simp, fun _ _ => rfl⟩

@[simp] theorem trackRelease_pending (i : WorkItem) (cycles : Nat) (s : State) : (trackRelease i cycles s).pending = s.pending := by
  simp [trackRelease]

theorem kernelApply_pending {f : Flight} {r : Run} {cycles : Nat} {s : State} {o : CommitOutcome} (h : kernelApply f r cycles s = o) :
    (outcomeState o).pending = s.pending := by
  subst h
  unfold kernelApply
  dsimp only
  split <;> have hc := commitWrites_pending ‹_›
  · exact hc
  · exact hc
  · simpa [outcomeState] using hc

@[simp] theorem kernelRunCommit_pending (h cycles : Nat) (s : State) : (kernelRunCommit h cycles s).pending = s.pending := by
  unfold kernelRunCommit
  split
  · split
    · rfl
    · split
      · simp
      · split <;> have hk := kernelApply_pending ‹_›
        · exact hk
        · simpa [outcomeState] using hk
        · split
          · simpa [outcomeState] using hk
          · simp
  · rfl

@[simp] theorem commandDeadline_pending (h now : Nat) (s0 : State) : (commandDeadline h now s0).pending = s0.pending := by
  simp only [commandDeadline]; (repeat' split) <;> simp

/-! ### ChainRows -/

theorem chainDefineCommand_keeps : KeepsQueue chainDefineCommand := ⟨fun s f => by simp [chainDefineCommand], fun _ _ => rfl⟩

@[simp] theorem layerItem_pending (chains : KMap Chain) (f : Flight) (i : Nat) (s : State) :
    (layerItem chains f i s).pending = s.pending := by
  simp [layerItem]

@[simp] theorem enterPartials_pending (serial : Nat) (s : State) : (enterPartials serial s).pending = s.pending := by
  unfold enterPartials
  split
  · exact foldl_pending _ _ _ fun t p => by split <;> simp
  · rfl

@[simp] theorem takeEarly_pending (f : Flight) (s : State) : (takeEarly f s).pending = s.pending := by unfold takeEarly; split <;> simp

@[simp] theorem startLayers_pending (f : Flight) (s : State) : (startLayers f s).pending = s.pending := by simp [startLayers]

theorem layerRunCommand_keeps : KeepsQueue layerRunCommand where
  run s f := by
    simp only [layerRunCommand]
    split <;> simpa [roomState] using findFrames_pending ‹_›
  prepare _ _ := rfl

@[simp] theorem layerNanRecord_pending (f : Flight) (n : ChainNan) (s : State) : (layerNanRecord f n s).2.2.pending = s.pending := (rfl)

@[simp] theorem layerStops_pending (f : Flight) (e : ChainStop) (s : State) : (layerStops f e s).pending = s.pending := by
  unfold layerStops; split <;> simp

@[simp] theorem gaugeAll_pending (tenant : Nat) (l : List (Nat × Nat × Nat × Nat)) (s : State) :
    (gaugeAll tenant l s).pending = s.pending :=
  foldl_pending _ _ _ fun t x => by
    split
    · rfl
    · split
      · rfl
      · split <;> rfl

@[simp] theorem trackExceeds_pending (f : Flight) (l : List (Nat × Nat)) (s : State) : (trackExceeds f l s).pending = s.pending := by
  induction l generalizing s with
  | nil => rfl
  | cons x l ih => simp [trackExceeds, ih, drawFree]

theorem layerApply_pending {f : Flight} {held : Nat} {r : LayerResult} {s : State} {o : CommitOutcome} (h : layerApply f held r s = o) :
    (outcomeState o).pending = s.pending := by
  subst h
  unfold layerApply
  split <;> have hc := commitWrites_pending ‹_›
  · exact hc
  · exact hc
  · simpa [outcomeState] using hc

@[simp] theorem dropJob_pending (serial : Nat) (s : State) : (dropJob serial s).pending = s.pending := (rfl)

@[simp] theorem layerRunCommit_pending (h : Nat) (s : State) : (layerRunCommit h s).pending = s.pending := by
  unfold layerRunCommit
  split
  · split
    · rfl
    · split
      · simp
      · split
        · simp
        · split <;> have hk := layerApply_pending ‹_›
          · exact hk
          · simpa [outcomeState] using hk
          · split
            · simpa [outcomeState] using hk
            · simp
  · rfl

@[simp] theorem tileChannel_pending (serial dst : Nat) (s : State) : (tileChannel serial dst s).2.pending = s.pending := by
  unfold tileChannel; (repeat' split) <;> simp

@[simp] theorem pumpTiles_pending (serial fuel : Nat) (s : State) : (pumpTiles serial fuel s).pending = s.pending := by
  induction fuel generalizing s with
  | zero => rfl
  | succ fuel ih =>
    unfold pumpTiles
    split
    · split
      · rfl
      · rename_i dst p _
        have ht := tileChannel_pending serial dst s
        generalize tileChannel serial dst s = x at ht ⊢
        obtain ⟨ch, s1⟩ := x
        dsimp only at ht ⊢
        split
        · exact ht
        · rw [ih]
          dsimp only
          split <;> simpa using ht
    · rfl

theorem sendPartials_pending {f : Flight} {job : LayerJob} {i : Nat} {s t : State} (h : sendPartials f job i s = .ok t) :
    t.pending = s.pending := by
  unfold sendPartials at h
  dsimp only at h
  split at h
  · cases h; rfl
  · split at h
    · cases h
    · split at h <;> cases h
      simp

@[simp] theorem tileMessage_pending (peer : Nat) (plain : Bytes) (s : State) : (tileMessage peer plain s).pending = s.pending :=
  onMessage_pending (fun m t => by
    extract_lets b rows cols p
    clear_value rows cols
    split
    · simp
    · split
      · rfl
      · split <;> simp) s

/-! ### AccountOps -/

@[simp] theorem histSample_pending (tenant metric bucket stamp : Nat) (s : State) :
    (histSample tenant metric bucket stamp s).pending = s.pending :=
  (rfl)

@[simp] theorem recordSample_pending (tenant metric bucket stamp : Nat) (covered : Bool) (s : State) :
    (recordSample tenant metric bucket stamp covered s).pending = s.pending := by
  simp only [recordSample]; (repeat' split) <;> simp

@[simp] theorem debit_pending (tenant tokens : Nat) (s : State) : (debit tenant tokens s).pending = s.pending := by
  simp only [debit]; split <;> simp

@[simp] theorem postBreach_pending (ring session tenant commandId detail : Nat) (b : Bytes) (unpostedHere : Bool) (s : State) :
    (postBreach ring session tenant commandId detail b unpostedHere s).pending = s.pending := by
  simp [postBreach]

@[simp] theorem reportBreach_pending (tenant : Nat) (c : Contract) (kind commandId observed start covered : Nat) (s : State) :
    (reportBreach tenant c kind commandId observed start covered s).pending = s.pending := by
  simp [reportBreach]

@[simp] theorem judgeWindow_pending (tenant : Nat) (x : ContractWindow) (s : State) : (judgeWindow tenant x s).pending = s.pending := by
  unfold judgeWindow; (repeat' split) <;> simp

@[simp] theorem contractTick_pending (s : State) : (contractTick s).pending = s.pending := by
  unfold contractTick
  refine foldl_pending _ _ _ fun t p => ?_
  simp

@[simp] theorem admitCovered_pending (tenant stamp : Nat) (s : State) : (admitCovered tenant stamp s).pending = s.pending := by
  unfold admitCovered; split <;> simp

@[simp] theorem endCovered_pending (tenant stamp : Nat) (s : State) : (endCovered tenant stamp s).pending = s.pending := by
  unfold endCovered; split <;> simp

/-! ### DebugOps -/

@[simp] theorem resumeRun_pending (serial : Nat) (s : State) : (resumeRun serial s).pending = s.pending := by
  unfold resumeRun; split <;> simp

@[simp] theorem clearBreaks_pending (p : Breakpoint → Bool) (s : State) : (clearBreaks p s).pending = s.pending := (rfl)

@[simp] theorem closeBreaks_pending (session : Nat) (s : State) : (closeBreaks session s).pending = s.pending := by simp [closeBreaks]

@[simp] theorem withdrawConsent_pending (tenant : Nat) (s : State) : (withdrawConsent tenant s).pending = s.pending := by
  simp [withdrawConsent]

@[simp] theorem redactTenant_pending (tenant : Nat) (s : State) : (redactTenant tenant s).pending = s.pending := (rfl)

/-! ### ItemOps -/

@[simp] theorem acknowledge_pending (seq : Nat) (s : State) : (acknowledge seq s).pending = s.pending := by simp [acknowledge]

@[simp] theorem setTiers_keeps (s : State) (t : Tiers) : OkKeeps s.pending (setTiers s t) := by simp [setTiers]

@[simp] theorem applyItem_keeps (tenant : Nat) (i : Item) (s : State) : OkKeeps s.pending (applyItem tenant i s) := by
  simp [applyItem]

@[simp] theorem applyItems_keeps (tenant : Nat) (l : List Item) (s : State) : OkKeeps s.pending (applyItems tenant l s) := by
  induction l generalizing s with
  | nil => rfl
  | cons i l ih =>
    have hi := applyItem_keeps tenant i s
    unfold applyItems
    split
    · rename_i heq
      rw [heq, okKeeps_ok] at hi
      rw [← hi]
      exact ih _
    · trivial

/-! ### SchedRows -/

@[simp] theorem schedulingTimer_pending (now : Nat) (s0 : State) : (schedulingTimer now s0).pending = s0.pending := by
  simp [schedulingTimer]

@[simp] theorem countTiles_pending (i : WorkItem) (out : Nat → Nat) (k : Nat) (l : List TileWork) (s : State) :
    (countTiles i out k l s).pending = s.pending := by
  induction l generalizing k s with
  | nil => rfl
  | cons w ws ih => simp [countTiles, ih, drawFree]

@[simp] theorem itemRelease_pending (item : Nat) (work : ItemEnd) (now : Nat) (s : State) :
    (itemRelease item work now s).pending = s.pending := by
  unfold itemRelease
  dsimp only
  split
  · rfl
  · split
    · rfl
    · split
      · split
        · split <;> simp
        · split
          · rfl
          · simp
          · have hp := sendPartials_pending ‹_›
            split
            · simpa using hp
            · split <;> simpa using hp
      · rfl

@[simp] theorem setQuadrant_pending (q : Nat) (x : Quadrant) (s : State) : (setQuadrant q x s).pending = s.pending := (rfl)

@[simp] theorem moveQuadrant_pending (q : Nat) (st : QState) (s : State) : (moveQuadrant q st s).pending = s.pending := (rfl)

@[simp] theorem thawComplete_pending (q now : Nat) (s0 : State) : (thawComplete q now s0).pending = s0.pending := by simp [thawComplete]

@[simp] theorem frost_pending (q now : Nat) (s0 : State) : (frost q now s0).pending = s0.pending := by simp [frost]

@[simp] theorem deepFrost_pending (q now : Nat) (s0 : State) : (deepFrost q now s0).pending = s0.pending := by simp [deepFrost]

@[simp] theorem hubDomainGate_pending (domain now : Nat) (s0 : State) : (hubDomainGate domain now s0).pending = s0.pending := by
  simp [hubDomainGate]

theorem sharesSetCommand_keeps : KeepsQueue sharesSetCommand := ⟨fun s f => by simp [sharesSetCommand], fun _ _ => rfl⟩

@[simp] theorem budgetRun_keeps (s : State) (f : Flight) : Keeps s.pending (budgetRun s f) := by simp [budgetRun]

theorem budgetCommand_keeps : KeepsQueue budgetCommand := ⟨fun s f => by simp [budgetCommand], fun _ _ => rfl⟩

@[simp] theorem emptyWindows_pending (tenant : Nat) (s : State) : (emptyWindows tenant s).pending = s.pending := (rfl)

@[simp] theorem contractRun_keeps (s : State) (f : Flight) : Keeps s.pending (contractRun s f) := by simp [contractRun]

theorem contractCommand_keeps : KeepsQueue contractCommand := ⟨fun s f => by simp [contractCommand], fun _ _ => rfl⟩

theorem accountReadCommand_keeps : KeepsQueue accountReadCommand := ⟨fun s f => by simp [accountReadCommand], fun _ _ => rfl⟩

@[simp] theorem budgetRefill_pending (tenant now : Nat) (s0 : State) : (budgetRefill tenant now s0).pending = s0.pending := by
  simp only [budgetRefill]; split <;> simp

@[simp] theorem contractWindowJudged_pending (tenant n : Nat) (s : State) : (contractWindowJudged tenant n s).pending = s.pending := by
  unfold contractWindowJudged; (repeat' split) <;> simp

@[simp] theorem histogramWindow_pending (now : Nat) (s0 : State) : (histogramWindow now s0).pending = s0.pending := by
  simp [histogramWindow]

/-! ### MemberRows -/

theorem powerCapCommand_keeps : KeepsQueue powerCapCommand := ⟨fun s f => by simp [powerCapCommand], fun _ _ => rfl⟩

theorem statePolicyCommand_keeps : KeepsQueue statePolicyCommand := ⟨fun s f => by simp [statePolicyCommand], fun _ _ => rfl⟩

theorem memberResetCommand_keeps : KeepsQueue memberResetCommand := ⟨fun s f => by simp [memberResetCommand], fun _ _ => rfl⟩

/-! ### Packets -/

@[simp] theorem sqConsume_pending (ring k : Nat) (s : State) : (sqConsume ring k s).pending = s.pending := (rfl)

@[simp] theorem refusePacket_pending (ring : Nat) (h : Header) (clear reserved : Bool) (st : Status) (d : Nat) (s : State) :
    (refusePacket ring h clear reserved st d s).pending = s.pending := by
  simp [refusePacket]

@[simp] theorem enterFlight_pending (ring : Nat) (h : Header) (op : Opcode) (tenant reserved : Nat) (params : Bytes) (s : State) :
    (enterFlight ring h op tenant reserved params s).pending = s.pending := by
  simp [enterFlight]

@[simp] theorem acceptPacket_pending (ring defCq : Nat) (h : Header) (hdrBytes raw tag : Bytes) (dr : Bool) (k : Nat) (s : State) :
    (acceptPacket ring defCq h hdrBytes raw tag dr k s).pending = s.pending := by
  simp only [acceptPacket]; (repeat' split) <;> simp

@[simp] theorem turnPasses_pending (ring : Nat) (s : State) : (turnPasses ring s).pending = s.pending := (rfl)

@[simp] theorem packetTaken_pending (ring : Nat) (bytes : Bytes) (now : Nat) (s0 : State) :
    (packetTaken ring bytes now s0).pending = s0.pending := by
  simp only [packetTaken]; (repeat' split) <;> simp

@[simp] theorem fencedCommandBegin_pending (h : Nat) (s : State) : (fencedCommandBegin h s).pending = s.pending := by
  unfold fencedCommandBegin; split <;> simp

/-! ### IndexRows -/

theorem indexCreateCommand_keeps : KeepsQueue indexCreateCommand := by
  rw [indexCreateCommand]
  refine keepsQueue_mk (fun s f => ?_) fun _ _ => rfl
  have ht := takeId_pending (kkeys s.indexes.indexes) f s
  generalize takeId (kkeys s.indexes.indexes) f s = p at ht ⊢
  obtain ⟨id, s0⟩ := p
  dsimp only at ht ⊢
  split
  · trivial
  · split
    · simpa using ht
    · split
      · trivial
      · simp [fitIndex_pending ‹_›, ht]

theorem indexDropCommand_keeps : KeepsQueue indexDropCommand := ⟨fun s f => by simp [indexDropCommand], fun _ _ => rfl⟩

theorem indexLoadCommand_keeps : KeepsQueue indexLoadCommand where
  run s f := by
    simp only [indexLoadCommand]
    split
    · trivial
    · split
      · split
        · trivial
        · simp [fitIndex_pending ‹_›]
      · trivial
  prepare _ _ := rfl

@[simp] theorem mutate_keeps {f : Flight} {x : VecIndex} {counts : Bytes} {s : State} {q : List Instr} (hs : s.pending = q) :
    Keeps q (mutate f x counts s) := by
  unfold mutate
  split
  · trivial
  · split
    · trivial
    · simp [fitIndex_pending ‹_›, hs]

theorem vecInsertCommand_keeps : KeepsQueue vecInsertCommand where
  run s f := by
    simp only [vecInsertCommand]
    split
    · trivial
    · exact mutate_keeps (by simp)
  prepare _ _ := rfl

theorem vecDeleteCommand_keeps : KeepsQueue vecDeleteCommand where
  run s f := by
    simp only [vecDeleteCommand]
    split
    · trivial
    · exact mutate_keeps rfl
  prepare _ _ := rfl

@[simp] theorem indexMergeRun_keeps (s : State) (f : Flight) : Keeps s.pending (indexMergeRun s f) := by
  have hfit := @fitIndex_pending
  rw [indexMergeRun]
  obtain ⟨take, ht⟩ : ∃ take, take = takeStorage := exists_eq
  obtain ⟨resize, hr⟩ : ∃ resize, resize = resizeHold := exists_eq
  obtain ⟨fit, hf⟩ : ∃ fit, fit = fitIndex := exists_eq
  rw [← ht, ← hr, ← hf]
  rw [← hf] at hfit
  split
  · trivial
  · dsimp only
    split
    · trivial
    · split
      · trivial
      · split
        · trivial
        · simp [hfit ‹_›]

theorem indexMergeCommand_keeps : KeepsQueue indexMergeCommand where
  run := indexMergeRun_keeps
  prepare s f := by
    simp only [indexMergeCommand]
    split <;> simp

@[simp] theorem specLists_pending (ra lists scanned : Nat) (s : State) : (specLists ra lists scanned s).2.2.pending = s.pending := by
  unfold specLists; split <;> simp

@[simp] theorem countSearch_pending (id tenant queries nonfinite ra : Nat) (work : SearchWork) (s : State) :
    (countSearch id tenant queries nonfinite ra work s).pending = s.pending := by
  have hw : ∀ (lists : Nat) (l : List (List Nat)) (p : Nat × Nat × State), (l.foldl (fun (p : Nat × Nat × State) l =>
      let r := specLists (runAhead ra) lists l.length p.2.2
      (p.1 + r.1, p.2.1 + r.2.1, r.2.2)) p).2.2.pending = p.2.2.pending := fun lists l p => by
    induction l generalizing p with
    | nil => rfl
    | cons x l ih => simp [ih]
  unfold countSearch
  dsimp only
  split <;> simp [hw]

@[simp] theorem askPayloads_pending (tenant : Nat) (x : VecIndex) (job : SearchJob) (owed : List Nat) (s : State) :
    (askPayloads tenant x job owed s).pending = s.pending := by
  simp [askPayloads]

@[simp] theorem servePayloads_pending (peer tenant corr id : Nat) (b : Bytes) (s : State) :
    (servePayloads peer tenant corr id b s).pending = s.pending := by
  unfold servePayloads; split <;> simp

@[simp] theorem takeSearchEnd_pending (peer tenant corr id : Nat) (b : Bytes) (s : State) :
    (takeSearchEnd peer tenant corr id b s).pending = s.pending := by
  simp only [takeSearchEnd]; split <;> simp

theorem searchDone_keeps {f : Flight} {x : VecIndex} {job : SearchJob} {payloads : List (Nat × Bytes)} {s : State} {q : List Instr}
    (hs : s.pending = q) : Keeps q (searchDone f x job payloads s) := by
  unfold searchDone
  dsimp only
  split
  · trivial
  · split
    · trivial
    · refine iteInduction (motive := Keeps q) (fun _ => ?_) fun _ => ?_
      · simpa using hs
      · exact commitVerdict_keeps hs fun t ht => by simp [ht]

theorem settleVerdict_pending {f : Flight} {v : Verdict} {s : State} {q : List Instr} (hs : s.pending = q) (hv : Keeps q v) :
    (settleVerdict f v s).pending = q := by
  unfold settleVerdict
  split <;> simp_all

@[simp] theorem sendQueries_pending (f : Flight) (dst per fuel first : Nat) (qs : List Bytes) (s : State) :
    (sendQueries f dst per fuel first qs s).pending = s.pending := by
  induction fuel generalizing first qs s with
  | zero => rfl
  | succ fuel ih => cases qs <;> simp [sendQueries, ih]

@[simp] theorem searchNan_pending (f : Flight) (query e bits' : Nat) (s : State) : (searchNan f query e bits' s).pending = s.pending := by
  simp [searchNan]

@[simp] theorem searchBegin_pending (f : Flight) (x : VecIndex) (payloads : List (Nat × Bytes)) (s : State) :
    (searchBegin f x payloads s).pending = s.pending := by
  unfold searchBegin
  extract_lets qs qfmt self others own job s1 i s2
  have h1 : s1.pending = s.pending := chargeHub_pending _ _ _
  have h2 : s2.pending = s.pending := (setFlight_pending _ _).trans h1
  clear_value s2 i s1
  split
  · simp
  · split
    · simp
    · split
      · simp
      · split
        · simp
        · split
          · simp
          · split
            · exact settleVerdict_pending rfl (searchDone_keeps h1)
            · exact (foldl_pending _ _ _ fun t m => sendQueries_pending _ _ _ _ _ _ _).trans h2

@[simp] theorem searchRow_pending (h : Nat) (payloads : List (Nat × Bytes)) (s : State) : (searchRow h payloads s).pending = s.pending := by
  unfold searchRow
  split
  · rfl
  · split
    · rfl
    · split
      · split
        · exact settleVerdict_pending rfl (searchDone_keeps rfl)
        · rfl
      · rfl
      · (repeat' split) <;> simp
      · (repeat' split) <;> simp

@[simp] theorem sendParts_pending (dst tenant corr id per fuel first : Nat) (ps : List SearchPart) (s : State) :
    (sendParts dst tenant corr id per fuel first ps s).pending = s.pending := by
  induction fuel generalizing first ps s with
  | zero => rfl
  | succ fuel ih => cases ps <;> simp [sendParts, ih]

@[simp] theorem keepServed_pending (v : ServedSearch) (s : State) : (keepServed v s).pending = s.pending := (rfl)

@[simp] theorem searchReq_pending (peer : Nat) (plain : Bytes) (s : State) : (searchReq peer plain s).pending = s.pending :=
  onMessage_pending (fun m t => by
    dsimp only
    split
    · simp
    · split
      · simp
      · split
        · simp
        · split <;> simp) s

@[simp] theorem searchResp_pending (peer : Nat) (plain : Bytes) (s : State) : (searchResp peer plain s).pending = s.pending :=
  onMessage_pending (fun m t => by
    extract_lets b n st
    split
    · rfl
    · split
      · exact iteInduction (motive := fun u : State => u.pending = t.pending) (fun _ => settleVerdict_pending rfl (searchDone_keeps rfl))
          fun _ => rfl
      · simp) s

theorem takePayloads_pending {peer tenant corr : Nat} {r : Reply} {s t : State} (h : takePayloads peer tenant corr r s = some t) :
    t.pending = s.pending := by
  unfold takePayloads at h
  dsimp only at h
  split at h
  · cases h
  · obtain ⟨x, -, rfl⟩ := Option.map_eq_some_iff.mp h
    split
    · split
      · exact settleVerdict_pending rfl (searchDone_keeps rfl)
      · rfl
    · rfl

theorem indexStatsCommand_keeps : KeepsQueue indexStatsCommand :=
  ⟨fun s f => by simp only [indexStatsCommand]; split <;> simp, fun _ _ => rfl⟩

/-! ### TableRows -/

@[simp] theorem tableCreateRun_keeps (s : State) (f : Flight) : Keeps s.pending (tableCreateRun s f) := by
  have htake := @takeStorage_pending
  rw [tableCreateRun]
  obtain ⟨take, ht⟩ : ∃ take, take = takeStorage := exists_eq
  rw [← ht] at htake ⊢
  dsimp only
  split
  · trivial
  · split
    · simp
    · split
      · trivial
      · have h1 := htake ‹_›
        split
        · trivial
        · have h2 := htake ‹take _ 1 _ _ _ = _›
          simp [h1, h2]

theorem tableCreateCommand_keeps : KeepsQueue tableCreateCommand := ⟨fun s f => by simp [tableCreateCommand], fun _ _ => rfl⟩

@[simp] theorem releaseTable_pending (id : Nat) (s : State) : (releaseTable id s).pending = s.pending := by
  unfold releaseTable
  split
  · rfl
  · exact foldl_pending _ _ _ fun t a => releaseAlloc_pending _ _ _

theorem tableDropCommand_keeps : KeepsQueue tableDropCommand := ⟨fun s f => by simp [tableDropCommand], fun _ _ => rfl⟩

@[simp] theorem writeImages_pending (us : List RowUpdate) (s : State) : (writeImages us s).pending = s.pending :=
  foldl_pending _ _ _ fun t u => by split <;> simp

@[simp] theorem rowsWriteRun_keeps (s : State) (f : Flight) : Keeps s.pending (rowsWriteRun s f) := by
  simp only [rowsWriteRun]; (repeat' split) <;> simp

theorem rowsWriteCommand_keeps : KeepsQueue rowsWriteCommand := ⟨fun s f => by simp [rowsWriteCommand], fun _ _ => rfl⟩

@[simp] theorem sendUpdates_pending (f : Flight) (t : Table) (us : List RowUpdate) (s : State) (owner : Nat) :
    (sendUpdates f t us s owner).pending = s.pending := by
  simp [sendUpdates]

@[simp] theorem rowsWrite_pending (h : Nat) (s : State) : (rowsWrite h s).pending = s.pending := by
  unfold rowsWrite
  split
  · rfl
  · split
    · rfl
    · split
      · simp
      · rfl
      · extract_lets us owners self s1
        have h1 : s1.pending = s.pending := foldl_pending _ _ _ fun t u => sendUpdates_pending _ _ _ _ _
        clear_value s1
        split
        · simp
        · split
          · simp
          · split
            · simp
            · split
              · simp
              · split
                · split
                  · have hv := rowsWriteRun_keeps s1 ‹_›
                    simp_all
                  · simp
                  · rfl
                · simpa using h1

@[simp] theorem rowUpd_pending (peer : Nat) (plain : Bytes) (s : State) : (rowUpd peer plain s).pending = s.pending :=
  onMessage_pending (fun m t => by
    dsimp only
    split
    · rfl
    · split <;> simp) s

@[simp] theorem pushRows_pending (id op : Nat) (t : Table) (rows : List Nat) (s : State) :
    (pushRows id op t rows s).pending = s.pending := by
  simp [pushRows]

@[simp] theorem reportRows_pending (w : ReplWait) (s : State) : (reportRows w s).pending = s.pending := by
  simp only [reportRows]; (repeat' split) <;> simp

@[simp] theorem settleRepl_pending (s : State) : (settleRepl s).pending = s.pending := by simp [settleRepl]

@[simp] theorem applyRow_pending (u : RowUpdate) (s : State) : (applyRow u s).pending = s.pending := by unfold applyRow; split <;> simp

@[simp] theorem rowWait_pending (id : Nat) (s : State) : (rowWait id s).pending = s.pending := (rfl)

@[simp] theorem rowUpdateApply_pending (s : State) : (rowUpdateApply s).pending = s.pending := by
  unfold rowUpdateApply
  dsimp only
  split
  · rfl
  · rw [settleRepl_pending]
    refine (foldl_pending _ _ _ fun t id => by split <;> simp).trans ?_
    refine (foldl_pending _ _ _ fun t u => by simp).trans ?_
    exact foldl_pending _ _ _ fun t u => applyRow_pending _ _

theorem onRepl_pending {op peer : Nat} {plain : Bytes} {k : Nat → Table → Bytes → State → State}
    (hk : ∀ id x b t, (k id x b t).pending = t.pending) (s : State) : (onRepl op peer plain s k).pending = s.pending := by
  unfold onRepl
  split
  · rfl
  · exact onMessage_pending (fun m t => by
      dsimp only
      split
      · simp
      · split
        · rfl
        · exact hk _ _ _ _) s

@[simp] theorem rowReplInstall_pending (peer : Nat) (plain : Bytes) (s : State) : (rowReplInstall peer plain s).pending = s.pending :=
  onRepl_pending (fun id x b t => by
    dsimp only
    split <;> simp) s

@[simp] theorem rowReplDrop_pending (peer : Nat) (plain : Bytes) (s : State) : (rowReplDrop peer plain s).pending = s.pending :=
  onRepl_pending (fun id x b t => by simp) s

@[simp] theorem rowReplAck_pending (peer : Nat) (plain : Bytes) (s : State) : (rowReplAck peer plain s).pending = s.pending :=
  onRepl_pending (fun id x b t => by simp) s

theorem rowsReadCommand_keeps (fetched : List (Nat × Nat × Bytes)) : KeepsQueue (rowsReadCommand fetched) where
  run s f := by
    simp only [rowsReadCommand]
    split
    · trivial
    · split
      · simp
      · exact commitVerdict_keeps (by simp) fun t ht => by simp [ht]
  prepare _ _ := rfl

@[simp] theorem noteOccurrences_pending (id stamp : Nat) (rows : List Nat) (s : State) :
    (noteOccurrences id stamp rows s).pending = s.pending := by
  unfold noteOccurrences; split <;> simp

@[simp] theorem bagNan_pending (f : Flight) (bag : Nat) (n : PoolNan) (s : State) : (bagNan f bag n s).pending = s.pending := by
  simp [bagNan]

@[simp] theorem bagCommit_keeps (f : Flight) (b : Bags) (w : BagWork) (got : List (Nat × Nat × Nat × Bytes)) (s : State) :
    Keeps s.pending (bagCommit f b w got s) :=
  commitVerdict_keeps (by simp) fun t ht => by simp [ht]

theorem bagLookupCommand_keeps (fetched : List (Nat × Nat × Bytes)) : KeepsQueue (bagLookupCommand fetched) :=
  ⟨fun s f => by simp only [bagLookupCommand]; (repeat' split) <;> simp, fun _ _ => rfl⟩

@[simp] theorem setHot_pending (id : Nat) (t : Table) (hot : List Nat) (s : State) : (setHot id t hot s).pending = s.pending := by
  simp [setHot]

@[simp] theorem hotPolicyRun_keeps (s : State) (f : Flight) : Keeps s.pending (hotPolicyRun s f) := by
  unfold hotPolicyRun
  dsimp only
  split
  · trivial
  · split
    · trivial
    · rename_i t _ _ area s1 heq
      have h0 : (if t.area = 0 then s else releaseAlloc t.area (((kget s.tiers.allocs t.area).map (·.len)).getD 0) s).pending = s.pending := by simp
      have h1 : s1.pending = s.pending := by
        split at heq
        · rw [takeStorage_pending heq, h0]
        · cases heq; exact h0
      simp [h1]

theorem hotPolicyCommand_keeps : KeepsQueue hotPolicyCommand := ⟨fun s f => by simp [hotPolicyCommand], fun _ _ => rfl⟩

@[simp] theorem reportCounts_pending (id : Nat) (t : Table) (w : Nat) (s : State) : (reportCounts id t w s).pending = s.pending := by
  simp [reportCounts]

@[simp] theorem hotWindowEnd_pending (table : Nat) (reported' : List (Nat × Nat)) (now : Nat) (s0 : State) :
    (hotWindowEnd table reported' now s0).pending = s0.pending := by
  simp only [hotWindowEnd]; split <;> simp

/-! ### ModelOps -/

theorem applyStep_pending {c : StepCtx} {r : LayerResult} {s : State} {o : CommitOutcome} (h : applyStep c r s = o) :
    (outcomeState o).pending = s.pending := by
  rw [applyStep] at h
  simpa [drawFree] using layerApply_pending h

@[simp] theorem stepNan_pending (c : StepCtx) (n : ChainNan) (s : State) : (stepNan c n s).pending = s.pending := (rfl)

/-! ### TextOps -/

theorem takeTables_pending {tenant len a : Nat} {s t : State} (h : takeTables tenant len s = .ok (a, t)) : t.pending = s.pending := by
  rw [takeTables] at h
  split at h
  · cases h
  · cases h
    exact takeStorage_pending ‹_›

/-! ### TextRows -/

theorem tokenizerLoadCommand_keeps : KeepsQueue tokenizerLoadCommand := by
  have htake := @takeTables_pending
  rw [tokenizerLoadCommand]
  obtain ⟨take, ht⟩ : ∃ take, take = takeTables := exists_eq
  rw [← ht] at htake ⊢
  refine keepsQueue_mk (fun s f => ?_) fun _ _ => rfl
  dsimp only
  split
  · trivial
  · simp [htake ‹_›]

@[simp] theorem tokenizeRun_keeps (s : State) (f : Flight) : Keeps s.pending (tokenizeRun s f) := by
  unfold tokenizeRun
  dsimp only
  split
  · trivial
  · exact commitVerdict_keeps (by simp) fun t ht => by simp [ht]

theorem tokenizeCommand_keeps : KeepsQueue tokenizeCommand := ⟨fun s f => by simp [tokenizeCommand], fun _ _ => rfl⟩

@[simp] theorem countPack_pending (tenant : Nat) (got : List (List Nat × Nat × Nat)) (texts : Nat) (kept : List (PackSeg × Nat × PackState)) (s : State) :
    (countPack tenant got texts kept s).pending = s.pending := by
  simp [countPack]

@[simp] theorem packRun_keeps (s : State) (f : Flight) : Keeps s.pending (packRun s f) := by
  unfold packRun
  dsimp only
  split
  · trivial
  · split
    · trivial
    · split
      · trivial
      · trivial
      · exact commitVerdict_keeps (by simp) fun t ht => by simp [ht]

theorem packPromptCommand_keeps : KeepsQueue packPromptCommand := ⟨fun s f => by simp [packPromptCommand], fun _ _ => rfl⟩

theorem stopSetCommand_keeps : KeepsQueue stopSetCommand := by
  have htake := @takeTables_pending
  rw [stopSetCommand]
  obtain ⟨take, ht⟩ : ∃ take, take = takeTables := exists_eq
  rw [← ht] at htake ⊢
  refine keepsQueue_mk (fun s f => ?_) fun _ _ => rfl
  dsimp only
  split
  · trivial
  · trivial
  · simp [htake ‹_›]

@[simp] theorem reapText_pending (live : List Nat) (s : State) : (reapText live s).pending = s.pending := by
  unfold reapText
  dsimp only
  rw [setText_pending]
  exact foldl_pending _ _ _ fun t a => releaseAlloc_pending _ _ _

@[simp] theorem countFeed_pending (tenant : Nat) (y : Fed) (s : State) : (countFeed tenant y s).pending = s.pending := by
  simp only [countFeed, bump_pending]

@[simp] theorem streamAfter_pending (h : Nat) (x : Stream) (y : Fed) (s : State) : (streamAfter h x y s).pending = s.pending := by
  unfold streamAfter; split <;> simp

@[simp] theorem detokRun_keeps (live : State → List Nat) (s : State) (f : Flight) : Keeps s.pending (detokRun live s f) := by
  unfold detokRun
  split
  · trivial
  · dsimp only
    split
    · trivial
    · refine commitVerdict_keeps (by simp) fun t ht => ?_
      split <;> simp [ht]

theorem detokCommand_keeps : KeepsQueue detokCommand := ⟨fun s f => by simp [detokCommand], fun _ _ => rfl⟩

theorem grammarLoadCommand_keeps : KeepsQueue grammarLoadCommand := by
  have htake := @takeTables_pending
  rw [grammarLoadCommand]
  obtain ⟨take, ht⟩ : ∃ take, take = takeTables := exists_eq
  rw [← ht] at htake ⊢
  refine keepsQueue_mk (fun s f => ?_) fun _ _ => rfl
  dsimp only
  split
  · trivial
  · simp [htake ‹_›]

/-! ### ServeOps -/

/-- A stage of a request leaves the queue, whether it commits, waits or fails. -/
def StageKeeps (q : List Instr) {α : Type} (m : StageM α) : Prop := ∀ s : State, s.pending = q → ((m.run).run s).2.pending = q

theorem stageKeeps_pure {q : List Instr} {α : Type} (a : α) : StageKeeps q (pure a) := fun _ hs => hs
theorem stageKeeps_throw {q : List Instr} {α : Type} (e : StageStop) : StageKeeps q (throw e : StageM α) := fun _ hs => hs
theorem stageKeeps_set {q : List Instr} {t : State} (ht : t.pending = q) : StageKeeps q (set t : StageM PUnit) := fun _ _ => ht
theorem stageKeeps_modify {q : List Instr} {g : State → State} (hg : ∀ t, (g t).pending = t.pending) :
    StageKeeps q (modify g : StageM PUnit) := fun s hs => (hg s).trans hs

theorem stageKeeps_bind {q : List Instr} {α β : Type} {m : StageM α} {k : α → StageM β} (hm : StageKeeps q m)
    (hk : ∀ a, StageKeeps q (k a)) : StageKeeps q (m >>= k) := by
  intro s hs
  have h := hm s hs
  rw [ExceptT.run_bind, StateT.run_bind]
  revert h
  generalize StateT.run m.run s = x
  obtain ⟨r, t⟩ := x
  intro h
  cases r with
  | ok a => exact hk a t h
  | error e => exact h

theorem stageKeeps_getBind {q : List Instr} {β : Type} {k : State → StageM β} (hk : ∀ s, s.pending = q → StageKeeps q (k s)) :
    StageKeeps q ((get : StageM State) >>= k) := fun s hs => hk s hs s hs

theorem stageKeeps_mapM {q : List Instr} {α β : Type} {k : α → StageM β} (hk : ∀ a, StageKeeps q (k a)) (l : List α) :
    StageKeeps q (l.mapM k) := by
  induction l with
  | nil => exact stageKeeps_pure _
  | cons a l ih =>
    rw [List.mapM_cons]
    exact stageKeeps_bind (hk a) fun _ => stageKeeps_bind ih fun _ => stageKeeps_pure _

@[simp] theorem dropRequest_pending (serial : Nat) (s : State) : (dropRequest serial s).pending = s.pending := (rfl)

@[simp] theorem addRequest_pending (r : Request) (s : State) : (addRequest r s).pending = s.pending := by simp [addRequest]

@[simp] theorem setModels_pending (m : KMap Model) (s : State) : (setModels m s).pending = s.pending := (rfl)

theorem giveFrames_pending {tenant n : Nat} {l m : List Nat} {s t : State} (h : giveFrames tenant n l s = some (m, t)) :
    t.pending = s.pending := by
  induction n generalizing l s with
  | zero => cases h; rfl
  | succ n ih =>
    unfold giveFrames at h
    dsimp only at h
    split at h
    · cases h
    · have ht := ih h
      exact ht

@[simp] theorem takeFrames_pending (tenant n : Nat) (s : State) : (takeFrames tenant n s).2.pending = s.pending := by
  unfold takeFrames
  split <;> have hf := findFrames_pending ‹_›
  · split
    · exact (giveFrames_pending ‹_›).trans hf
    · exact hf
  · exact hf
  · exact hf

@[simp] theorem releaseFrames_pending (tenant : Nat) (l : List Nat) (s : State) : (releaseFrames tenant l s).pending = s.pending := by
  simp [releaseFrames]

@[simp] theorem reservePages_pending (tenant : Nat) (n : Nat × Nat) (s : State) : (reservePages tenant n s).2.pending = s.pending := by
  unfold reservePages
  have h1 := takeFrames_pending tenant n.1 s
  split <;> rename_i heq <;> rw [heq] at h1
  · exact h1
  · rename_i s1
    have h2 := takeFrames_pending tenant n.2 s1
    split <;> rename_i heq2 <;> rw [heq2] at h2
    · simpa using h2.trans h1
    · exact h2.trans h1

@[simp] theorem sampleNs_pending (r : Request) (metric ns : Nat) (s : State) : (sampleNs r metric ns s).pending = s.pending := by
  simp [sampleNs]

@[simp] theorem startStage_pending (r : Request) (s : State) : (startStage r s).2.pending = s.pending := by
  unfold startStage; split <;> simp

@[simp] theorem requestSlots_pending (r : Request) (take : Bool) (s : State) : (requestSlots r take s).pending = s.pending := by
  unfold requestSlots; split <;> simp

@[simp] theorem postChunk_pending (r : Request) (last : Bool) (s : State) : (postChunk r last s).2.pending = s.pending := by
  unfold postChunk; split <;> simp

@[simp] theorem holdChunk_pending (r : Request) (s : State) : (holdChunk r s).2.pending = s.pending := by simp [holdChunk]

@[simp] theorem rollChunk_pending (r : Request) (s : State) : (rollChunk r s).2.pending = s.pending := by simp [rollChunk]

@[simp] theorem consumeOne_pending (t : Nat) (r : Request) (s : State) : (consumeOne t r s).2.2.pending = s.pending := by
  simp only [consumeOne]; (repeat' split) <;> simp

@[simp] theorem consumeStep_pending (l : List Nat) (r : Request) (s : State) : (consumeStep l r s).2.2.2.pending = s.pending := by
  induction l generalizing r s with
  | nil => rfl
  | cons t l ih =>
    have h := consumeOne_pending t r s
    unfold consumeStep
    split
    · rfl
    · split <;> rename_i heq <;> rw [heq] at h
      · rw [ih]; exact h
      · exact h
      · exact h

@[simp] theorem sampleStep_pending (r : Request) (s : State) : (sampleStep r s).2.pending = s.pending := by
  unfold sampleStep; (repeat' split) <;> simp

@[simp] theorem reapServed_pending (s : State) : (reapServed s).pending = s.pending := by
  unfold reapServed
  dsimp only
  rw [reapText_pending]
  exact foldl_pending _ _ _ fun t a => releaseAlloc_pending _ _ _

@[simp] theorem owedSamples_pending (r : Request) (s : State) : (owedSamples r s).pending = s.pending := by simp [owedSamples]

@[simp] theorem requestReply_pending (dst kind : Nat) (r : Request) (st : Status) (result : Bytes) (s : State) :
    (requestReply dst kind r st result s).pending = s.pending := by
  simp [requestReply]

@[simp] theorem tellShip_pending (r : Request) (s : State) : (tellShip r s).pending = s.pending := by unfold tellShip; split <;> simp

@[simp] theorem tellEnd_pending (r : Request) (s : State) : (tellEnd r s).pending = s.pending := by simp [tellEnd]

@[simp] theorem discardBacklog_pending (r : Request) (s : State) : (discardBacklog r s).2.pending = s.pending := (rfl)

@[simp] theorem flushStream_pending (r : Request) (e : ReqEnd) (s : State) : (flushStream r e s).2.pending = s.pending := by
  unfold flushStream; split <;> simp

@[simp] theorem endRequest_pending (r0 : Request) (e : ReqEnd) (s0 : State) : (endRequest r0 e s0).pending = s0.pending := by
  simp only [endRequest]; (repeat' split) <;> simp

@[simp] theorem failRequest_pending (r : Request) (st : Status) (d : Nat) (s : State) : (failRequest r st d s).pending = s.pending := by
  simp [failRequest]

@[simp] theorem freeRequest_pending (r : Request) (s : State) : (freeRequest r s).pending = s.pending := by simp [freeRequest]

theorem runStage_pending {r : Request} {m : StageM Unit} {s : State} (hm : StageKeeps s.pending m) :
    (runStage r m s).pending = s.pending := by
  have h : (m.run (removeItems (handoverSerial r.serial) s)).2.pending = s.pending := hm _ (removeItems_pending _ _)
  unfold runStage
  split <;> rename_i heq
  · rw [heq] at h
    simpa using h
  · rfl
  · split <;> simp
  · split
    · exact findFrames_pending ‹_›
    · rfl
  · rw [heq] at h
    simpa using h

theorem stageFailIf_keeps {q : List Instr} (c : Bool) (st : Status) (d : Nat) : StageKeeps q (stageFailIf c st d) := by
  unfold stageFailIf
  split
  · exact stageKeeps_throw _
  · exact stageKeeps_pure _

theorem runModel_keeps {q : List Instr} (c : StepCtx) : StageKeeps q (runModel c) :=
  stageKeeps_getBind fun s hs => by
    split
    · exact stageKeeps_throw _
    · exact stageKeeps_bind (stageKeeps_set ((stepNan_pending _ _ _).trans hs)) fun _ => stageKeeps_throw _
    · exact stageKeeps_throw _
    · split <;> have ha := (applyStep_pending ‹_›).trans hs
      · exact stageKeeps_throw _
      · exact stageKeeps_bind (stageKeeps_set ha) fun _ => stageKeeps_throw _
      · exact stageKeeps_bind (stageKeeps_set ha) fun _ => stageKeeps_pure _

theorem tableRowsFor_keeps {q : List Instr} (r : Request) (id : Nat) (fetched : List (Nat × Nat × Nat × Bytes)) (rows : List Nat) :
    StageKeeps q (tableRowsFor r id fetched rows) :=
  stageKeeps_getBind fun _ _ => by
    split
    · exact stageKeeps_throw _
    · split
      · exact stageKeeps_pure _
      · exact stageKeeps_throw _
      · exact stageKeeps_throw _
      · exact stageKeeps_throw _

theorem rowsFor_keeps {q : List Instr} (r : Request) (m : Model) (fetched : List (Nat × Nat × Nat × Bytes)) (toks : List Nat) :
    StageKeeps q (rowsFor r m fetched toks) :=
  stageKeeps_bind (tableRowsFor_keeps _ _ _ _) fun _ => stageKeeps_pure _

theorem stageNan_keeps {q : List Instr} {α : Type} (r : Request) (unit site operand fmt layer tile row col bits : Nat) :
    StageKeeps q (stageNan r unit site operand fmt layer tile row col bits : StageM α) :=
  stageKeeps_bind (stageKeeps_modify fun t => by simp) fun _ => stageKeeps_throw _

/-- A NaN that some unit of a group met ends the stage, whatever would follow. -/
theorem stageKeeps_unitNan {q : List Instr} {α : Type} {r : Request} {base n site operand fmt layer tile row col bits : Nat} {k : Unit → StageM α}
    (hk : ∀ u, StageKeeps q (k u)) :
    StageKeeps q (do
      let unit ← stageUnit base n
      let u ← stageNan r unit site operand fmt layer tile row col bits
      k u) :=
  stageKeeps_bind (stageKeeps_getBind fun _ hs => stageKeeps_bind (stageKeeps_set hs) fun _ => stageKeeps_pure _) fun _ =>
    stageKeeps_bind (stageNan_keeps _ _ _ _ _ _ _ _ _ _) hk

theorem needModel_keeps {q : List Instr} (h : Nat) : StageKeeps q (needModel h) :=
  stageKeeps_getBind fun _ _ => by
    split
    · exact stageKeeps_throw _
    · exact stageKeeps_pure _

/-! ### ModelRows -/

theorem modelLoadCommand_keeps : KeepsQueue modelLoadCommand := ⟨fun s f => by simp [modelLoadCommand], fun _ _ => rfl⟩

@[simp] theorem unloadHandle_pending (h : Nat) (s : State) : (unloadHandle h s).pending = s.pending := by
  unfold unloadHandle; (repeat' split) <;> simp

theorem modelUnloadCommand_keeps : KeepsQueue modelUnloadCommand := ⟨fun s f => by simp [modelUnloadCommand], fun _ _ => rfl⟩

theorem addSteer_pending {tenant i : Nat} {img : Bytes} {s t : State} (h : addSteer tenant img s = some (i, t)) :
    t.pending = s.pending := by
  rw [addSteer] at h
  split at h
  · have ht := takeTables_pending ‹takeTables _ _ _ = _›
    cases h
    exact ht
  · cases h

theorem steerSetLoadCommand_keeps : KeepsQueue steerSetLoadCommand := by
  have hadd := @addSteer_pending
  rw [steerSetLoadCommand]
  obtain ⟨add, ha⟩ : ∃ add, add = addSteer := exists_eq
  rw [← ha] at hadd ⊢
  refine keepsQueue_mk (fun s f => ?_) fun _ _ => rfl
  split
  · trivial
  · exact hadd ‹_›

theorem steerSetDropCommand_keeps : KeepsQueue steerSetDropCommand := ⟨fun s f => by simp [steerSetDropCommand], fun _ _ => rfl⟩

theorem pipelineCommand_keeps : KeepsQueue pipelineCommand := ⟨fun s f => by simp [pipelineCommand], fun _ _ => rfl⟩

/-! ### RequestRows -/

@[simp] theorem submitStream_pending (s : State) (f : Flight) (p : Pipeline) : (submitStream s f p).2.pending = s.pending := by
  simp [submitStream]

@[simp] theorem submitRun_keeps (s : State) (f : Flight) : Keeps s.pending (submitRun s f) := by
  simp only [submitRun]; (repeat' split) <;> simp

theorem requestSubmitCommand_keeps : KeepsQueue requestSubmitCommand := ⟨fun s f => by simp [requestSubmitCommand], fun _ _ => rfl⟩

theorem requestCancelCommand_keeps : KeepsQueue requestCancelCommand :=
  ⟨fun s f => by simp only [requestCancelCommand]; split <;> simp, fun _ _ => rfl⟩

theorem requestStatusCommand_keeps : KeepsQueue requestStatusCommand :=
  ⟨fun s f => by simp only [requestStatusCommand]; split <;> simp, fun _ _ => rfl⟩

theorem kvExportCommand_keeps : KeepsQueue kvExportCommand where
  run s f := by
    simp only [kvExportCommand]
    split
    · trivial
    · exact commitVerdict_keeps rfl fun t ht => by simp [ht]
  prepare _ _ := rfl

theorem kvImportCommand_keeps : KeepsQueue kvImportCommand where
  run s f := by
    simp only [kvImportCommand]
    split <;> have hf := findFrames_pending ‹_›
    · exact hf
    · exact hf
    · split
      · exact hf
      · simpa [roomState] using (giveFrames_pending ‹_›).trans hf
  prepare _ _ := rfl

/-! ### SelectRows -/

@[simp] theorem selectNan_pending (f : Flight) (fmt tile layer key : Nat) (s : State) :
    (selectNan f fmt tile layer key s).pending = s.pending := by
  simp [selectNan]

@[simp] theorem topkRun_keeps (s : State) (f : Flight) : Keeps s.pending (topkRun s f) := by
  unfold topkRun
  dsimp only
  split
  · simp
  · split
    · simp
    · split
      · simp
      · exact commitVerdict_keeps (by simp) fun t ht => by simp [ht]

theorem selectTopkCommand_keeps : KeepsQueue selectTopkCommand := ⟨fun s f => by simp [selectTopkCommand], fun _ _ => rfl⟩

@[simp] theorem mismatchEvent_pending (f : Flight) (m : Merged) (s : State) : (mismatchEvent f m s).pending = s.pending := by
  unfold mismatchEvent; split <;> simp

@[simp] theorem countMerge_pending (tenant kt entries sentinels : Nat) (m : Merged) (s : State) :
    (countMerge tenant kt entries sentinels m s).pending = s.pending := by
  simp [countMerge]

@[simp] theorem mergeRun_keeps (s : State) (f : Flight) : Keeps s.pending (mergeRun s f) := by
  unfold mergeRun
  dsimp only
  split
  · simp
  · split
    · simp
    · exact commitVerdict_keeps (by simp) fun t ht => by simp [ht]

theorem selectMergeCommand_keeps : KeepsQueue selectMergeCommand := ⟨fun s f => by simp [selectMergeCommand], fun _ _ => rfl⟩

@[simp] theorem selectMergeMsg_pending (peer : Nat) (plain : Bytes) (s : State) : (selectMergeMsg peer plain s).pending = s.pending :=
  onMessage_pending (fun m t => by
    dsimp only
    split <;> simp) s

/-! ### RetrievalOps -/

@[simp] theorem waitPages_pending (r : Request) (s : State) : (waitPages r s).pending = s.pending := by simp [waitPages]

@[simp] theorem tryPages_pending (r : Request) (s : State) : (tryPages r s).pending = s.pending := by
  unfold tryPages
  split
  · simp
  · dsimp only
    split
    · simp
    · split
      · simp
      · split
        · simp
        · rename_i m _ _ _ _
          have hr := reservePages_pending r.tenant
            ((pagesNeeded s r.pipe r.promptTokens r.maxNew).1 - framesOf r.kv, (pagesNeeded s r.pipe r.promptTokens r.maxNew).2) s
          split <;> rename_i heq <;> rw [heq] at hr <;> simpa using hr

@[simp] theorem handPrompt_pending (r : Request) (s : State) : (handPrompt r s).pending = s.pending := by unfold handPrompt; split <;> simp

theorem copySteer_pending {tenant i : Nat} {b : Bytes} {s t : State} (h : copySteer tenant b s = some (i, t)) : t.pending = s.pending := by
  unfold copySteer at h
  dsimp only at h
  split at h
  · cases h; rfl
  · exact addSteer_pending h

@[simp] theorem promptArrives_pending (peer tenant corr : Nat) (hdr : Header) (params content : Bytes) (s : State) :
    (promptArrives peer tenant corr hdr params content s).pending = s.pending := by
  unfold promptArrives
  dsimp only
  split
  · simp
  · split
    · simp
    · split
      · simp
      · split
        · simp
        · split
          · simp
          · simpa using copySteer_pending ‹_›

theorem sparseRow_keeps {q : List Instr} (r : Request) (enc : Model) (fetched : List (Nat × Nat × Nat × Bytes)) (l : List Nat) :
    StageKeeps q (sparseRow r enc fetched l) :=
  stageKeeps_getBind fun s hs => by
    extract_lets id
    split
    · exact stageKeeps_pure _
    · split
      · refine stageKeeps_bind (stageFailIf_keeps _ _ _) fun _ => stageKeeps_bind (tableRowsFor_keeps _ _ _ _) fun got => ?_
        extract_lets rowOf bag path jp
        have hj : ∀ u, StageKeeps q (jp u) := fun u => stageKeeps_bind (stageKeeps_modify fun t => by simp) fun _ =>
          stageKeeps_getBind fun t ht => stageKeeps_bind (stageKeeps_set ht) fun _ => stageKeeps_pure _
        clear_value jp bag
        split
        · exact stageKeeps_unitNan hj
        · exact hj _
      · exact stageKeeps_throw _

theorem pooledVector_keeps {q : List Instr} (r : Request) (m : Model) (c : StepCtx) (res : LayerResult) (n : Nat) :
    StageKeeps q (pooledVector r m c res n) := by
  unfold pooledVector
  split
  · exact stageKeeps_pure _
  · split
    · exact stageKeeps_pure _
    · exact stageKeeps_bind (stageKeeps_modify fun t => by simp) fun _ => stageKeeps_pure _

theorem retrievalBegin_keeps {q : List Instr} (r : Request) (fetched : List (Nat × Nat × Nat × Bytes)) :
    StageKeeps q (retrievalBegin r fetched) :=
  stageKeeps_getBind fun s hs => by
    extract_lets tokens addr len l read jp
    have hj : ∀ u, StageKeeps q (jp u) := fun u => by
      refine stageKeeps_bind (needModel_keeps _) fun enc => stageKeeps_bind (stageFailIf_keeps _ _ _) fun _ => ?_
      refine stageKeeps_bind (rowsFor_keeps _ _ _ _) fun rows => stageKeeps_bind (sparseRow_keeps _ _ _ _) fun extra => ?_
      refine stageKeeps_bind (runModel_keeps _) fun c => stageKeeps_bind (pooledVector_keeps _ _ _ _ _) fun v => ?_
      refine stageKeeps_getBind fun s1 hs1 => ?_
      split
      · exact stageKeeps_throw _
      · rename_i x _
        refine stageKeeps_bind (stageFailIf_keeps _ _ _) fun _ => stageKeeps_bind (stageFailIf_keeps _ _ _) fun _ => ?_
        extract_lets self others own job begun s2 i s3 send
        have hsend : ∀ u, StageKeeps q (send u) := fun u => by
          simp only [send]
          split
          · exact stageKeeps_throw _
          · refine stageKeeps_bind (stageFailIf_keeps _ _ _) fun _ => stageKeeps_set ?_
            refine (foldl_pending _ _ _ fun t m => sendQueries_pending _ _ _ _ _ _ _).trans ?_
            simp [s3, s2, begun, hs1]
        clear_value send
        split
        · exact stageKeeps_unitNan hsend
        · exact hsend _
    clear_value jp read l
    split
    · exact stageKeeps_bind (stageKeeps_throw _) hj
    · exact hj _

theorem scorePair_keeps {q : List Instr} (r : Request) (m : Model) (fetched : List (Nat × Nat × Nat × Bytes)) (a b : List Nat) :
    StageKeeps q (scorePair r m fetched a b) :=
  stageKeeps_bind (rowsFor_keeps _ _ _ _) fun _ => stageKeeps_bind (runModel_keeps _) fun _ => stageKeeps_pure _

theorem rerank_keeps {q : List Instr} (r : Request) (m : Model) (scores : List Nat) : StageKeeps q (rerank r m scores) := by
  unfold rerank
  extract_lets valid x jp
  have hj : ∀ u, StageKeeps q (jp u) := fun u => stageKeeps_bind (stageKeeps_modify fun t => by simp) fun _ =>
    stageKeeps_bind (stageKeeps_modify fun t => by simp) fun _ => stageKeeps_pure _
  clear_value jp
  split
  · exact stageKeeps_unitNan hj
  · exact hj _

theorem packPromptFor_keeps {q : List Instr} (r : Request) (tok : Tokeniser) (a : List Nat) (spans : List (List Nat)) :
    StageKeeps q (packPromptFor r tok a spans) :=
  stageKeeps_getBind fun s hs => by
    split
    · exact stageKeeps_throw _
    · split
      · exact stageKeeps_throw _
      · exact stageKeeps_bind (stageKeeps_set (by simp [hs])) fun _ => stageKeeps_pure _

@[simp] theorem searchCommits_pending (r : Request) (s : State) : (searchCommits r s).pending = s.pending := by
  have hb : ∀ (l : List (Ctr × Nat × Nat)) (t : State), (l.foldl (fun t c => bump c.1 c.2.1 c.2.2 t) t).pending = t.pending :=
    fun l t => foldl_pending _ _ _ fun t c => bump_pending _ _ _ _
  unfold searchCommits
  split
  · rfl
  · simp [hb]

theorem packingCommit_keeps {q : List Instr} (r : Request) (prompt : List Nat) (chosen : List (SearchHit × Nat)) :
    StageKeeps q (packingCommit r prompt chosen) :=
  stageKeeps_getBind fun s hs => by
    extract_lets rtp r1 s1 s2 runs r2
    have h2 : s2.pending = q := by simp [s2, s1, hs]
    clear_value s2
    split
    · split <;> have hc := (commitWrites_pending ‹_›).trans h2
      · exact stageKeeps_throw _
      · exact stageKeeps_bind (stageKeeps_set hc) fun _ => stageKeeps_throw _
      · exact stageKeeps_set ((endRequest_pending _ _ _).trans hc)
    · exact stageKeeps_set (by simp [h2])

theorem retrievalEnd_keeps {q : List Instr} (r : Request) (job : SearchJob) (fetched : List (Nat × Nat × Nat × Bytes))
    (payloads : List (Nat × Bytes)) : StageKeeps q (retrievalEnd r job fetched payloads) :=
  stageKeeps_getBind fun s hs => by
    split
    · extract_lets hits top got owed jp
      have hj : ∀ u, StageKeeps q (jp u) := fun u => by
        simp only [jp]
        split
        · exact stageKeeps_set (by simp [hs])
        · split
          · exact stageKeeps_throw _
          · refine stageKeeps_bind (stageKeeps_modify fun t => by simp) fun _ => stageKeeps_bind (needModel_keeps _) fun m => ?_
            refine stageKeeps_bind (stageKeeps_mapM (scorePair_keeps _ _ _ _) _) fun scores => stageKeeps_bind (rerank_keeps _ _ _) fun order => ?_
            exact stageKeeps_bind (packPromptFor_keeps _ _ _ _) fun prompt => packingCommit_keeps _ _ _
      clear_value jp
      split
      · exact stageKeeps_bind (stageKeeps_throw _) hj
      · exact hj _
    · exact stageKeeps_throw _

/-! ### DecodeOps -/

@[simp] theorem openShip_pending (r : Request) (s : State) : (openShip r s).pending = s.pending := by
  simp only [openShip]; (repeat' split) <;> simp

@[simp] theorem shipPages_pending (r : Request) (m : Model) (dst : Nat) (s : State) : (shipPages r m dst s).pending = s.pending := by
  simp [shipPages]

@[simp] theorem coordinateShip_pending (r : Request) (dst : Nat) (s : State) : (coordinateShip r dst s).pending = s.pending := by
  simp [coordinateShip]

@[simp] theorem shipSettled_pending (dst : Nat) (s : State) : (shipSettled dst s).pending = s.pending := by simp [shipSettled]

@[simp] theorem afterPrefill_pending (r : Request) (s : State) : (afterPrefill r s).pending = s.pending := by simp [afterPrefill]

theorem prefillStage_keeps {q : List Instr} (r : Request) (fetched : List (Nat × Nat × Nat × Bytes)) :
    StageKeeps q (prefillStage r fetched) := by
  unfold prefillStage
  refine stageKeeps_bind (needModel_keeps _) fun m => ?_
  extract_lets toks step
  have hstep : ∀ m steer kv, StageKeeps q (step m steer kv) := fun m steer kv => by
    simp only [step]
    split
    · exact stageKeeps_pure _
    · exact stageKeeps_bind (rowsFor_keeps _ _ _ _) fun _ => stageKeeps_bind (runModel_keeps _) fun _ => stageKeeps_pure _
  clear_value step
  refine stageKeeps_bind (hstep _ _ _) fun kv => stageKeeps_getBind fun s _ => ?_
  extract_lets jp
  have hj : ∀ u, StageKeeps q (jp u) := fun u => stageKeeps_modify fun t => by simp
  clear_value jp
  split
  · split
    · exact stageKeeps_bind (hstep _ _ _) hj
    · exact stageKeeps_bind (stageKeeps_pure _) hj
  · exact stageKeeps_bind (stageKeeps_pure _) hj

theorem chooseFrom_keeps {q : List Instr} (r : Request) (m : Model) (greedy : Bool) (gram : Option Bytes) (a pos : Nat) (logits : List Nat) :
    StageKeeps q (chooseFrom r m greedy gram a pos logits) := by
  unfold chooseFrom
  extract_lets z nans jp
  have hj : ∀ u, StageKeeps q (jp u) := fun u => by
    refine stageKeeps_bind (stageKeeps_modify fun t => by simp) fun _ => ?_
    split
    · exact stageKeeps_pure _
    · exact stageKeeps_getBind fun t ht => stageKeeps_bind (stageKeeps_set ht) fun _ => stageKeeps_pure _
  clear_value jp z
  split
  · exact stageKeeps_unitNan hj
  · exact hj _

theorem draftTokens_keeps {q : List Instr} (r : Request) (m : Model) (fetched : List (Nat × Nat × Nat × Bytes)) (left pos tok : Nat) (cells : Memory) :
    StageKeeps q (draftTokens r m fetched left pos tok cells) := by
  induction left generalizing pos tok cells with
  | zero =>
    exact stageKeeps_bind (rowsFor_keeps _ _ _ _) fun _ => stageKeeps_bind (runModel_keeps _) fun _ => stageKeeps_pure _
  | succ n ih =>
    exact stageKeeps_bind (rowsFor_keeps _ _ _ _) fun _ => stageKeeps_bind (runModel_keeps _) fun _ =>
      stageKeeps_bind (chooseFrom_keeps _ _ _ _ _ _ _) fun _ => stageKeeps_bind (ih _ _ _) fun _ => stageKeeps_pure _

theorem proposeDrafts_keeps {q : List Instr} (r : Request) (dec : Model) (n : Nat) (fetched : List (Nat × Nat × Nat × Bytes)) :
    StageKeeps q (proposeDrafts r dec n fetched) := by
  unfold proposeDrafts
  split
  · exact stageKeeps_pure _
  · refine stageKeeps_bind (needModel_keeps _) fun dm => ?_
    split
    · split
      · exact stageKeeps_pure _
      · exact stageKeeps_bind (draftTokens_keeps _ _ _ _ _ _ _) fun _ => stageKeeps_pure _
    · exact stageKeeps_getBind fun s hs => stageKeeps_bind (stageKeeps_set hs) fun _ => stageKeeps_pure _

theorem acceptTokens_keeps {q : List Instr} (r : Request) (m : Model) (gram : Option Bytes) (logits : Nat → List Nat) (drafts : List Nat) (i a : Nat) :
    StageKeeps q (acceptTokens r m gram logits drafts i a) := by
  induction drafts generalizing i a with
  | nil => exact stageKeeps_bind (chooseFrom_keeps _ _ _ _ _ _ _) fun _ => stageKeeps_pure _
  | cons d l ih =>
    unfold acceptTokens
    refine stageKeeps_bind (chooseFrom_keeps _ _ _ _ _ _ _) fun t => ?_
    dsimp only
    refine iteInduction (motive := StageKeeps q) (fun _ => ?_) fun _ => stageKeeps_pure _
    exact stageKeeps_bind (ih _ _) fun _ => stageKeeps_pure _

theorem decodeStep_keeps {q : List Instr} (r : Request) (fetched : List (Nat × Nat × Nat × Bytes)) :
    StageKeeps q (decodeStep r fetched) := by
  unfold decodeStep
  refine stageKeeps_bind (needModel_keeps _) fun m => stageKeeps_getBind fun s hs => ?_
  refine stageKeeps_bind (proposeDrafts_keeps _ _ _ _) fun d => stageKeeps_bind (rowsFor_keeps _ _ _ _) fun rows => ?_
  refine stageKeeps_bind (runModel_keeps _) fun c => stageKeeps_bind (acceptTokens_keeps _ _ _ _ _ _ _) fun a => ?_
  exact stageKeeps_getBind fun t ht => stageKeeps_bind (stageKeeps_modify fun u => by simp) fun _ => stageKeeps_pure _

theorem budgetGate_pending {r : Request} {s t : State} (h : budgetGate r s = .stop t) : t.pending = s.pending := by
  unfold budgetGate at h
  split at h
  · cases h
  · split at h
    · cases h
    · split at h <;> cases h <;> simp

@[simp] theorem tailEnds_pending (r : Request) (s : State) : (tailEnds r s).pending = s.pending := by unfold tailEnds; split <;> simp

@[simp] theorem consumeLoop_pending (fuel : Nat) (r : Request) (s : State) : (consumeLoop fuel r s).pending = s.pending := by
  induction fuel generalizing r s with
  | zero => simp [consumeLoop]
  | succ fuel ih =>
    unfold consumeLoop
    split
    · simp
    · rename_i step rest _
      have h := consumeStep_pending step r s
      split <;> rename_i heq <;> rw [heq] at h
      · simpa using h
      · split <;> simpa [ih] using h
      · simpa [ih] using h

@[simp] theorem returnCredit_pending (r : Request) (s : State) : (returnCredit r s).pending = s.pending := by
  unfold returnCredit
  split
  · rfl
  · split
    · exact budgetGate_pending ‹_›
    · simp

@[simp] theorem consumeAll_pending (r : Request) (s : State) : (consumeAll r s).pending = s.pending := by
  simp only [consumeAll]; split <;> simp

@[simp] theorem reportTokens_pending (r : Request) (s : State) : (reportTokens r s).pending = s.pending := by simp [reportTokens]

@[simp] theorem decodeRow_pending (r : Request) (fetched : List (Nat × Nat × Nat × Bytes)) (s : State) :
    (decodeRow r fetched s).pending = s.pending := by
  unfold decodeRow
  extract_lets here terminal step
  have hstep : ∀ t, (step t).pending = t.pending := fun t =>
    runStage_pending (stageKeeps_bind (decodeStep_keeps _ _) fun _ => stageKeeps_modify fun u => by simp)
  clear_value step here terminal
  split
  · simp
  · split
    · rfl
    · split
      · split <;> simp
      · split
        · split
          · exact budgetGate_pending ‹_›
          · exact hstep _
        · exact hstep _

/-! ### StageOps -/

theorem onRequest_pending {serial now : Nat} {k : Request → State → State} (hk : ∀ r t, (k r t).pending = t.pending) (s : State) :
    (onRequest serial now s k).pending = s.pending := by
  unfold onRequest
  dsimp only
  split
  · simp
  · split <;> simp [hk]

@[simp] theorem syncStages_pending (s : State) : (syncStages s).pending = s.pending := by simp [syncStages]

@[simp] theorem stageOver_pending (serial : Nat) (s : State) : (stageOver serial s).pending = s.pending := by simp [stageOver]

theorem onStage_pending {serial now : Nat} {k : Request → State → State} (hk : ∀ r t, (k r t).pending = t.pending) (s : State) :
    (onStage serial now s k).pending = s.pending :=
  onRequest_pending (fun _ t => by
    dsimp only
    split
    · simp
    · split
      · simp [hk]
      · split <;> simp [hk]) s

/-! ### StageRows -/

@[simp] theorem retrievalStage_pending (serial : Nat) (fetched : List (Nat × Nat × Nat × Bytes)) (payloads : List (Nat × Bytes)) (now : Nat) (s : State) :
    (retrievalStage serial fetched payloads now s).pending = s.pending :=
  onStage_pending (fun r t => by
    extract_lets job finishIt
    have hf : ∀ r, StageKeeps t.pending (finishIt r) := fun r => stageKeeps_getBind fun u _ => by
      split
      · split
        · exact retrievalEnd_keeps _ _ _ _
        · exact stageKeeps_pure _
      · exact stageKeeps_pure _
    clear_value finishIt
    split
    · refine runStage_pending (stageKeeps_bind (retrievalBegin_keeps _ _) fun _ => stageKeeps_getBind fun u _ => ?_)
      split
      · exact hf _
      · exact stageKeeps_pure _
    · split
      · exact runStage_pending (hf _)
      · rfl) s

@[simp] theorem takePrompt_pending (r : Request) (s : State) : (takePrompt r s).pending = s.pending := by
  unfold takePrompt
  dsimp only
  split
  · simp
  · rw [tryPages_pending, setRequest_pending]
    exact foldl_pending _ _ _ fun t c => bump_pending _ _ _ _

@[simp] theorem tryAccept_pending (x : Inbound2) (s : State) : (tryAccept x s).pending = s.pending := by
  unfold tryAccept
  dsimp only
  split
  · rfl
  · rename_i p _
    have h := takeFrames_pending x.tenant ((pagesNeeded s p x.prompt p.maxNew).1 + (pagesNeeded s p x.prompt p.maxNew).2) s
    split <;> rename_i heq
    · rw [heq] at h; simpa using h
    · rw [heq] at h; exact h
    · rfl

@[simp] theorem pageReservation_pending (serial now : Nat) (s : State) : (pageReservation serial now s).pending = s.pending := by
  unfold pageReservation
  split
  · dsimp only
    split
    · simp
    · split <;> simp
  · exact onRequest_pending (fun r t => by (repeat' split) <;> simp) s

theorem onShip_pending {op peer : Nat} {plain : Bytes} {k : Msg → State → State} (hk : ∀ m t, (k m t).pending = t.pending) (s : State) :
    (onShip op peer plain s k).pending = s.pending := by
  unfold onShip
  split
  · rfl
  · exact onMessage_pending (fun m t => by split <;> simp [hk]) s

@[simp] theorem setInbound_pending (x : Inbound2) (s : State) : (setInbound x s).pending = s.pending := (rfl)

@[simp] theorem dropInbound_pending (x : Inbound2) (s : State) : (dropInbound x s).pending = s.pending := by simp [dropInbound]

@[simp] theorem shipOpen_pending (peer : Nat) (m : Msg) (s : State) : (shipOpen peer m s).pending = s.pending := by
  simp only [shipOpen]; split <;> simp

@[simp] theorem handoverVote_pending (peer tenant id : Nat) (content : Bytes) (s : State) :
    (handoverVote peer tenant id content s).2.pending = s.pending := by
  unfold handoverVote
  split
  · rfl
  · rename_i x _
    split
    · rfl
    · rename_i p _
      have h := takeFrames_pending tenant
        ((pagesNeeded s p x.prompt (fld content 12 4)).1 + (pagesNeeded s p x.prompt (fld content 12 4)).2 - listSum x.pages.frames) s
      dsimp only
      split
      · rfl
      · split
        · rfl
        · split
          · rfl
          · split <;> rename_i heq <;> rw [heq] at h
            · exact h
            · simpa using h

@[simp] theorem handoverCommit_pending (peer tenant id : Nat) (hdr : Header) (params content : Bytes) (s : State) :
    (handoverCommit peer tenant id hdr params content s).pending = s.pending := by
  unfold handoverCommit
  split
  · rfl
  · split
    · simpa using copySteer_pending ‹_›
    · rfl

@[simp] theorem settleHandover_pending (r : Request) (s : State) : (settleHandover r s).pending = s.pending := by
  unfold settleHandover; split <;> simp

@[simp] theorem settleHandovers_pending (s : State) : (settleHandovers s).pending = s.pending := by simp [settleHandovers]

theorem requestNotice_pending {peer : Nat} {m : Msg} {st : Status} {detail : Nat} {b : Bytes} {s t : State}
    (h : requestNotice peer m st detail b s = some t) : t.pending = s.pending := by
  unfold requestNotice at h
  dsimp only at h
  (repeat' split at h) <;> cases h <;> simp

@[simp] theorem requestAborted_pending (peer : Nat) (m : Msg) (s : State) : (requestAborted peer m s).pending = s.pending := by
  simp only [requestAborted]; (repeat' split) <;> simp

@[simp] theorem requestsLose_pending (peer : Nat) (s : State) : (requestsLose peer s).pending = s.pending := by simp [requestsLose]

/-! ### FabricOps -/

@[simp] theorem portTo_pending (p : Nat) (st : PortState) (width : Nat) (x : Port) (s : State) :
    (portTo p st width x s).pending = s.pending := by
  simp [portTo]

@[simp] theorem recomputeRoutes_pending (s : State) : (recomputeRoutes s).pending = s.pending := (rfl)

@[simp] theorem reportAdjacencies_pending (s : State) : (reportAdjacencies s).pending = s.pending := by simp [reportAdjacencies]

@[simp] theorem linksChanged_pending (s : State) : (linksChanged s).pending = s.pending := by simp [linksChanged]

@[simp] theorem portDown_pending (p : Nat) (x : Port) (s : State) : (portDown p x s).pending = s.pending := by simp [portDown]

@[simp] theorem portRetrain_pending (p : Nat) (full : Bool) (x : Port) (s : State) : (portRetrain p full x s).pending = s.pending := by
  simp [portRetrain]

@[simp] theorem renameSelf_pending (old new : Nat) (s : State) : (renameSelf old new s).pending = s.pending := by simp [renameSelf]

@[simp] theorem dropShared_pending (s : State) : (dropShared s).pending = s.pending := (rfl)

@[simp] theorem stepClock_pending (now : Nat) (s : State) : (stepClock now s).pending = s.pending := by simp [stepClock]

@[simp] theorem installView_pending (v : View) (now : Nat) (s : State) : (installView v now s).pending = s.pending := by
  unfold installView
  dsimp only
  rw [linksChanged_pending]
  refine (foldl_pending _ _ _ fun t m => by simp).trans ?_
  refine (foldl_pending _ _ _ fun t p => askPair_pending _ _ _).trans ?_
  exact renameSelf_pending _ _ _

@[simp] theorem becomeLone_pending (s : State) : (becomeLone s).pending = s.pending := by
  unfold becomeLone
  dsimp only
  refine (foldl_pending _ _ _ fun u c => by split <;> simp).trans ?_
  simp

@[simp] theorem settleSearches_pending (s : State) : (settleSearches s).pending = s.pending :=
  foldl_pending _ _ _ fun t j => by
    split
    · split
      · exact settleVerdict_pending rfl (searchDone_keeps rfl)
      · rfl
    · rfl

@[simp] theorem searchesLose_pending (peer : Nat) (s0 : State) : (searchesLose peer s0).pending = s0.pending := by simp [searchesLose]

@[simp] theorem gatherReply_pending (serial m : Nat) (r : Reply) (s : State) : (gatherReply serial m r s).pending = s.pending := by
  unfold gatherReply; split <;> simp

@[simp] theorem gathersLose_pending (peer : Nat) (s : State) : (gathersLose peer s).pending = s.pending := by simp [gathersLose]

@[simp] theorem losePeer_pending (peer : Nat) (s : State) : (losePeer peer s).pending = s.pending := by simp [losePeer]

@[simp] theorem closeLinks_pending (peer : Nat) (s : State) : (closeLinks peer s).pending = s.pending := by simp [closeLinks]

/-! ### LinkRows -/

@[simp] theorem configurePort_pending (f : Flight) (i : Nat) (s : State) : (configurePort f i s).pending = s.pending := by
  simp [configurePort]

theorem linkConfigCommand_keeps : KeepsQueue linkConfigCommand := ⟨fun s f => by simp [linkConfigCommand], fun _ _ => rfl⟩

theorem linkStatusCommand_keeps : KeepsQueue linkStatusCommand := ⟨fun s f => by simp [linkStatusCommand], fun _ _ => rfl⟩

@[simp] theorem portTrainingComplete_pending (p width : Nat) (s : State) : (portTrainingComplete p width s).pending = s.pending := by
  simp [portTrainingComplete]

@[simp] theorem laneLoss_pending (p lane : Nat) (s : State) : (laneLoss p lane s).pending = s.pending := by simp [laneLoss]

@[simp] theorem retrainTimeout_pending (p : Nat) (s : State) : (retrainTimeout p s).pending = s.pending := by simp [retrainTimeout]

@[simp] theorem replayFlits_pending (p : Nat) (l : List (Nat × Nat × Bytes)) (s : State) : (replayFlits p l s).pending = s.pending := by
  induction l generalizing s with
  | nil => rfl
  | cons k ks ih => simp [replayFlits, ih]

@[simp] theorem flitNak_pending (p ack : Nat) (s : State) : (flitNak p ack s).pending = s.pending := by simp [flitNak]

@[simp] theorem flitSeen_pending (p seq ack : Nat) (s : State) : (flitSeen p seq ack s).pending = s.pending := (rfl)

@[simp] theorem resend_pending (dst ch : Nat) (s : State) : (resend dst ch s).pending = s.pending := by
  simp only [resend]; (repeat' split) <;> simp

@[simp] theorem dropDatagram_pending (p : Nat) (s : State) : (dropDatagram p s).pending = s.pending := (rfl)

@[simp] theorem messageComplete_pending (p peer ch : Nat) (bytes : Bytes) (c : Channel) (s : State) :
    (messageComplete p peer ch bytes c s).pending = s.pending := by
  simp [messageComplete]

@[simp] theorem segmentIn_pending (p peer : Nat) (seg : Bytes) (s : State) : (segmentIn p peer seg s).pending = s.pending := by
  simp [segmentIn]

@[simp] theorem segmentArrives_pending (p : Nat) (bytes : Bytes) (s : State) : (segmentArrives p bytes s).2.pending = s.pending := by
  simp [segmentArrives]

@[simp] theorem forwardSegment_pending (p dst : Nat) (seg : Bytes) (s : State) : (forwardSegment p dst seg s).pending = s.pending := by
  unfold forwardSegment; split <;> simp

theorem onSegment_pending {p kind : Nat} {bytes : Bytes} {k : Nat → Bytes → State → State} (hk : ∀ m b t, (k m b t).pending = t.pending) (s : State) :
    (onSegment p kind bytes s k).pending = s.pending := by
  have h := segmentArrives_pending p bytes s
  unfold onSegment
  split <;> rename_i heq <;> rw [heq] at h
  · exact h
  · split
    · exact h
    · split
      · simpa using h
      · split
        · simpa using h
        · simpa [hk] using h

@[simp] theorem segmentAck_pending (peer : Nat) (seg : Bytes) (s : State) : (segmentAck peer seg s).pending = s.pending := by
  simp [segmentAck]

@[simp] theorem timeSyncSend_pending (now : Nat) (s0 : State) : (timeSyncSend now s0).pending = s0.pending := by
  simp only [timeSyncSend]; (repeat' split) <;> simp

@[simp] theorem takeOffset_pending (t4 : Nat) (s : State) : (takeOffset t4 s).pending = s.pending := (rfl)

theorem onTimeSync_pending {op peer now : Nat} {plain : Bytes} {k : Msg → State → State} (hk : ∀ m t, (k m t).pending = t.pending) (s : State) :
    (onTimeSync op peer plain now s k).pending = s.pending := by
  unfold onTimeSync
  split
  · rfl
  · rw [onMessage_pending fun m t => by split <;> simp [hk], advance_pending]

/-! ### FrontRows -/

@[simp] theorem installFormed_keeps (f : Flight) (s : State) : Keeps s.pending (installFormed f s) := by
  unfold installFormed; split <;> simp

theorem frontFormCommand_keeps : KeepsQueue frontFormCommand := ⟨fun s f => by simp [frontFormCommand], fun _ _ => rfl⟩

@[simp] theorem candidateRun_keeps (s : State) (f : Flight) : Keeps s.pending (candidateRun s f) := by simp [candidateRun]

theorem frontJoinCommand_keeps : KeepsQueue frontJoinCommand := ⟨fun s f => by simp [frontJoinCommand], fun _ _ => rfl⟩

@[simp] theorem frontJoinRow_pending (side h : Nat) (s : State) : (frontJoinRow side h s).pending = s.pending := by
  unfold frontJoinRow
  split
  · rfl
  · split
    · exact runCommand_pending frontJoinCommand_keeps _ _
    · rfl

@[simp] theorem frontLeaveRun_keeps (s : State) (f : Flight) : Keeps s.pending (frontLeaveRun s f) := by
  unfold frontLeaveRun; split <;> simp

theorem frontLeaveCommand_keeps : KeepsQueue frontLeaveCommand := ⟨fun s f => by simp [frontLeaveCommand], fun _ _ => rfl⟩

theorem anchorSetCommand_keeps : KeepsQueue anchorSetCommand := ⟨fun s f => by simp only [anchorSetCommand]; split <;> simp, fun _ _ => rfl⟩

theorem frontViewCommand_keeps : KeepsQueue frontViewCommand := ⟨fun s f => by simp [frontViewCommand], fun _ _ => rfl⟩

@[simp] theorem sendHeartbeats_pending (s : State) : (sendHeartbeats s).pending = s.pending := by simp [sendHeartbeats]

@[simp] theorem hearEpoch_pending (peer epoch : Nat) (s : State) : (hearEpoch peer epoch s).pending = s.pending := by simp [hearEpoch]

@[simp] theorem heartbeat_pending (peer : Nat) (plain : Bytes) (now : Nat) (s : State) :
    (heartbeat peer plain now s).pending = s.pending := by
  unfold heartbeat
  rw [onMessage_pending fun m t => by dsimp only; split <;> simp, advance_pending]

@[simp] theorem frontViewAdj_pending (peer : Nat) (plain : Bytes) (s : State) : (frontViewAdj peer plain s).pending = s.pending := by
  unfold frontViewAdj
  split
  · rfl
  · exact onMessage_pending (fun m t => by
      dsimp only
      split <;> simp) s

/-! ### SecurityRows -/

@[simp] theorem sessionOpenRun_keeps (s : State) (f : Flight) : Keeps s.pending (sessionOpenRun s f) := by
  unfold sessionOpenRun; split <;> simp

theorem sessionOpenCommand_keeps : KeepsQueue sessionOpenCommand := ⟨fun s f => by simp [sessionOpenCommand], fun _ _ => rfl⟩

@[simp] theorem cancelRequests_pending (p : Request → Bool) (s : State) : (cancelRequests p s).pending = s.pending := by
  simp [cancelRequests]

@[simp] theorem rollBackAll_pending (p : Txn → Bool) (s : State) : (rollBackAll p s).pending = s.pending := by simp [rollBackAll]

@[simp] theorem dropSession_pending (id : Nat) (s : State) : (dropSession id s).pending = s.pending := by simp [dropSession]

@[simp] theorem beginClose_pending (id : Nat) (s : State) : (beginClose id s).pending = s.pending := by unfold beginClose; split <;> simp

@[simp] theorem sessionClose_pending (h : Nat) (s : State) : (sessionClose h s).pending = s.pending := by
  unfold sessionClose; (repeat' split) <;> simp

theorem attestCommand_keeps : KeepsQueue attestCommand := ⟨fun s f => by simp [attestCommand], fun _ _ => rfl⟩

theorem tenantCreateCommand_keeps : KeepsQueue tenantCreateCommand := ⟨fun s f => by simp [tenantCreateCommand], fun _ _ => rfl⟩

@[simp] theorem releaseTenant_pending (t : Nat) (s : State) : (releaseTenant t s).pending = s.pending := by
  unfold releaseTenant
  dsimp only
  refine (clearBreaks_pending _ _).trans ?_
  refine (foldl_pending _ _ _ fun u a => releaseAlloc_pending _ _ _).trans ?_
  refine (foldl_pending _ _ _ fun u x => dropInbound_pending _ _).trans ?_
  exact foldl_pending _ _ _ fun u r => freeRequest_pending _ _

@[simp] theorem endTenant_pending (t serial : Nat) (s : State) : (endTenant t serial s).pending = s.pending := by simp [endTenant]

theorem tenantDestroyCommand_keeps : KeepsQueue tenantDestroyCommand := ⟨fun s f => by simp [tenantDestroyCommand], fun _ _ => rfl⟩

@[simp] theorem debugAuthorizeRun_keeps (s : State) (f : Flight) : Keeps s.pending (debugAuthorizeRun s f) := by simp [debugAuthorizeRun]

theorem debugAuthorizeCommand_keeps : KeepsQueue debugAuthorizeCommand := ⟨fun s f => by simp [debugAuthorizeCommand], fun _ _ => rfl⟩

@[simp] theorem keyInstallRun_keeps (s : State) (f : Flight) : Keeps s.pending (keyInstallRun s f) := by
  unfold keyInstallRun
  dsimp only
  split
  · simp
  · split
    · trivial
    · split
      · trivial
      · split
        · split
          · trivial
          · exact commitVerdict_keeps rfl fun t ht => by simp [ht]
        · split
          · trivial
          · split
            · trivial
            · simp

theorem keyInstallCommand_keeps : KeepsQueue keyInstallCommand := ⟨fun s f => by simp [keyInstallCommand], fun _ _ => rfl⟩

theorem keyRetireCommand_keeps : KeepsQueue keyRetireCommand := ⟨fun s f => by simp [keyRetireCommand], fun _ _ => rfl⟩

theorem fwStageCommand_keeps : KeepsQueue fwStageCommand := ⟨fun s f => by simp only [fwStageCommand]; split <;> simp, fun _ _ => rfl⟩

theorem fwActivateCommand_keeps : KeepsQueue fwActivateCommand := ⟨fun s f => by simp [fwActivateCommand], fun _ _ => rfl⟩

@[simp] theorem setPair_pending (uid : Nat) (prk : BitVec 384) (s : State) : (setPair uid prk s).pending = s.pending := by
  simp only [setPair]; split <;> simp

@[simp] theorem pairFails_pending (uid : Nat) (s : State) : (pairFails uid s).pending = s.pending := by unfold pairFails; split <;> simp

@[simp] theorem answerPair_pending (uid : Nat) (body : Bytes) (s : State) : (answerPair uid body s).2.pending = s.pending := by
  simp [answerPair]

@[simp] theorem takePair_pending (uid : Nat) (body : Bytes) (s : State) : (takePair uid body s).2.pending = s.pending := by
  unfold takePair; split <;> simp

/-! ### TierRows -/

theorem memAllocCommand_keeps : KeepsQueue memAllocCommand := ⟨fun s f => by simp [memAllocCommand], fun _ _ => rfl⟩

theorem memFreeCommand_keeps : KeepsQueue memFreeCommand := ⟨fun s f => by simp [memFreeCommand], fun _ _ => rfl⟩

@[simp] theorem addMarks_pending (poison tags : List (Nat × Nat)) (s : State) : (addMarks poison tags s).pending = s.pending := (rfl)

theorem memCopyCommand_keeps : KeepsQueue memCopyCommand where
  run s f := by
    simp only [memCopyCommand]
    refine withFrames_keeps rfl fun t ht => ?_
    split
    · simpa using ht
    · exact commitVerdict_keeps ht fun u hu => by simp [hu]
  prepare _ _ := rfl

theorem memFillCommand_keeps : KeepsQueue memFillCommand where
  run _ _ := commitVerdict_keeps rfl fun _ ht => ht
  prepare _ _ := rfl

@[simp] theorem mapPages_pending (ps : List Nat) (g : HomePage → HomePage) (s : State) : (mapPages ps g s).pending = s.pending := (rfl)

@[simp] theorem bindPages_pending (f : Flight) (noFill pin : Bool) (l : List Nat) (s : State) :
    (bindPages f noFill pin l s).pending = s.pending := by
  induction l generalizing s with
  | nil => rfl
  | cons p ps ih =>
    unfold bindPages
    rw [ih]
    dsimp only
    split <;> simp

@[simp] theorem resideRun_keeps (s : State) (f : Flight) : Keeps s.pending (resideRun s f) := by
  have hd : ∀ t pages fresh pin noFill, Keeps t.pending (resideRun.done' t f pages fresh pin noFill) := fun t pages fresh pin noFill => by
    unfold resideRun.done'
    dsimp only
    split <;> simp
  unfold resideRun
  dsimp only
  split
  · trivial
  · split <;> have hf := findFrames_pending ‹_›
    · exact hf
    · exact hf
    · rw [← hf]
      split
      · rfl
      · split
        · split
          · exact hd _ _ _ _ _
          · rfl
        · exact hd _ _ _ _ _

@[simp] theorem resideRun.done'_keeps (s : State) (f : Flight) (pages fresh : List Nat) (pin noFill : Bool) :
    Keeps s.pending (resideRun.done' s f pages fresh pin noFill) := by
  simp [resideRun.done']

theorem resideCommand_keeps : KeepsQueue resideCommand := ⟨fun s f => by simp [resideCommand], fun _ _ => rfl⟩

@[simp] theorem discardPage_pending (p : Nat) (s : State) : (discardPage p s).pending = s.pending := by unfold discardPage; split <;> simp

@[simp] theorem demoteCommit_pending (f : Flight) (written : List Nat) (s : State) : (demoteCommit f written s).pending = s.pending := by
  simp [demoteCommit]

@[simp] theorem flushCommit_pending (written : List Nat) (s : State) : (flushCommit written s).pending = s.pending := by simp [flushCommit]

@[simp] theorem startWriteBack_pending (f : Flight) (flush : Bool) (dirty : List Nat) (s : State) :
    (startWriteBack f flush dirty s).pending = s.pending :=
  (rfl)

@[simp] theorem writeBackRun_keeps (flush discard : Bool) (s : State) (f : Flight) : Keeps s.pending (writeBackRun flush discard s f) := by
  simp [writeBackRun]

theorem demoteCommand_keeps : KeepsQueue demoteCommand := ⟨fun s f => by simp [demoteCommand], fun _ _ => rfl⟩

theorem flushCommand_keeps : KeepsQueue flushCommand := ⟨fun s f => by simp [flushCommand], fun _ _ => rfl⟩

@[simp] theorem recordStall_pending (tenant tier cause ns : Nat) (s : State) :
    (recordStall tenant tier cause ns s).pending = s.pending := by
  simp [recordStall]

@[simp] theorem endPageWait_pending (page : Nat) (s : State) : (endPageWait page s).pending = s.pending := by simp [endPageWait]

@[simp] theorem resideCommit_pending (f : Flight) (s : State) : (resideCommit f s).pending = s.pending := by simp [resideCommit]

@[simp] theorem failAccess_pending (f : Flight) (st : Status) (addr : Nat) (s : State) : (failAccess f st addr s).pending = s.pending := by
  simp [failAccess]

@[simp] theorem pageFillComplete_pending (page : Nat) (outcome : TierOutcome) (s0 : State) :
    (pageFillComplete page outcome s0).pending = s0.pending := by
  simp only [pageFillComplete]; (repeat' split) <;> simp

@[simp] theorem writeBackCommit_pending (f : Flight) (s : State) : (writeBackCommit f s).pending = s.pending := by simp [writeBackCommit]

@[simp] theorem evictionDone_pending (page : Nat) (x : HomePage) (good : Bool) (s0 : State) :
    (evictionDone page x good s0).pending = s0.pending := by
  simp only [evictionDone]; (repeat' split) <;> simp

@[simp] theorem writeBackComplete_pending (page : Nat) (good : Bool) (s : State) : (writeBackComplete page good s).pending = s.pending := by
  unfold writeBackComplete; (repeat' split) <;> simp

@[simp] theorem tierLate_pending (f : Flight) (addr cause : Nat) (s : State) : (tierLate f addr cause s).pending = s.pending := by
  simp [tierLate]

@[simp] theorem stallEnds_pending (f : Flight) (addr cause tier ns : Nat) (s : State) :
    (stallEnds f addr cause tier ns s).pending = s.pending := by
  simp [stallEnds]

@[simp] theorem noteSpec_pending (f : Flight) (tier : Nat) (outcome : TierOutcome) (addr : Nat) (s : State) :
    (noteSpec f tier outcome addr s).pending = s.pending := by
  unfold noteSpec; split <;> simp

@[simp] theorem tierAccessComplete_pending (h addr cause stallNs : Nat) (outcome : TierOutcome) (s0 : State) :
    (tierAccessComplete h addr cause stallNs outcome s0).pending = s0.pending := by
  unfold tierAccessComplete; (repeat' split) <;> simp

@[simp] theorem stallLimitExpiry_pending (h addr cause stallNs now : Nat) (s0 : State) :
    (stallLimitExpiry h addr cause stallNs now s0).pending = s0.pending := by
  simp only [stallLimitExpiry]; split <;> simp

theorem tierStatsCommand_keeps : KeepsQueue tierStatsCommand := ⟨fun s f => by simp [tierStatsCommand], fun _ _ => rfl⟩

/-! ### TxnRows -/

@[simp] theorem txnBeginRun_keeps (s : State) (f : Flight) : Keeps s.pending (txnBeginRun s f) := by unfold txnBeginRun; split <;> simp

theorem txnBeginCommand_keeps : KeepsQueue txnBeginCommand := ⟨fun s f => by simp [txnBeginCommand], fun _ _ => rfl⟩

@[simp] theorem txnSetRun_keeps (s : State) (f : Flight) : Keeps s.pending (txnSetRun s f) := by unfold txnSetRun; split <;> simp

theorem txnSetCommand_keeps : KeepsQueue txnSetCommand := ⟨fun s f => by simp [txnSetCommand], fun _ _ => rfl⟩

theorem txnRollbackCommand_keeps : KeepsQueue txnRollbackCommand :=
  ⟨fun s f => by simp only [txnRollbackCommand]; split <;> simp, fun _ _ => rfl⟩

@[simp] theorem txnTimeout_pending (session txn now : Nat) (s0 : State) : (txnTimeout session txn now s0).pending = s0.pending := by
  simp only [txnTimeout]; split <;> simp

theorem configGetCommand_keeps : KeepsQueue configGetCommand := ⟨fun s f => by simp [configGetCommand], fun _ _ => rfl⟩

theorem roleSetCommand_keeps : KeepsQueue roleSetCommand := ⟨fun s f => by simp [roleSetCommand], fun _ _ => rfl⟩

/-! ### CmdOps -/

theorem stageable_keeps {op : Opcode} {c : Command} {mods : State → Flight → List Nat} (h : stageable op = some (c, mods)) :
    KeepsQueue c := by
  unfold stageable at h
  split at h <;> cases h
  · exact keyInstallCommand_keeps
  · exact keyRetireCommand_keeps
  · exact tenantCreateCommand_keeps
  · exact tenantDestroyCommand_keeps
  · exact roleSetCommand_keeps
  · exact memAllocCommand_keeps
  · exact memFreeCommand_keeps
  · exact modelUnloadCommand_keeps
  · exact steerSetLoadCommand_keeps
  · exact steerSetDropCommand_keeps
  · exact chainDefineCommand_keeps
  · exact tableCreateCommand_keeps
  · exact tableDropCommand_keeps
  · exact hotPolicyCommand_keeps
  · exact indexCreateCommand_keeps
  · exact indexDropCommand_keeps
  · exact stopSetCommand_keeps
  · exact pipelineCommand_keeps
  · exact sharesSetCommand_keeps
  · exact budgetCommand_keeps
  · exact contractCommand_keeps
  · exact frontFormCommand_keeps
  · exact frontJoinCommand_keeps
  · exact frontLeaveCommand_keeps
  · exact linkConfigCommand_keeps
  · exact anchorSetCommand_keeps
  · exact powerCapCommand_keeps
  · exact statePolicyCommand_keeps

theorem runsAlone_keeps {op : Opcode} {c : Command} (h : runsAlone op = some c) : KeepsQueue c := by
  unfold runsAlone at h
  split at h <;> cases h
  · exact kernelLoadCommand_keeps
  · exact kernelRunCommand_keeps
  · exact layerRunCommand_keeps
  · exact memCopyCommand_keeps
  · exact memFillCommand_keeps
  · exact resideCommand_keeps
  · exact demoteCommand_keeps
  · exact flushCommand_keeps
  · exact modelLoadCommand_keeps
  · exact indexLoadCommand_keeps
  · exact vecInsertCommand_keeps
  · exact vecDeleteCommand_keeps
  · exact indexMergeCommand_keeps
  · exact rowsWriteCommand_keeps
  · exact debugAuthorizeCommand_keeps
  · exact fwStageCommand_keeps
  · exact fwActivateCommand_keeps

theorem commandOf_keeps {op : Opcode} {c : Command} (h : commandOf op = some c) : KeepsQueue c := by
  unfold commandOf at h
  split at h
  · cases h
    exact stageable_keeps ‹_›
  · exact runsAlone_keeps h

/-- What the parts of a commit do leaves the queue. -/
def FoldKeeps (q : List Instr) : Folded → Prop
  | .done t _ => t.pending = q
  | .fails _ _ _ => True
  | .waits o => ∀ t, o = some t → t.pending = q

theorem foldParts_keeps {judged : Bool} {l : List (Part × Bool)} {i : Nat} {s : State} {rs : List Reply} {q : List Instr} (hs : s.pending = q) :
    FoldKeeps q (foldParts judged l i s rs) := by
  induction l generalizing i s rs with
  | nil => exact hs
  | cons x l ih =>
    unfold foldParts
    obtain ⟨p, mine⟩ := x
    cases mine with
    | false => exact ih hs
    | true =>
      cases p with
      | items f items vs =>
        have ha := applyItems_keeps f.tenant items s
        dsimp only
        split <;> rename_i heq
        · rw [heq] at ha
          exact ih (ha.trans hs)
        · trivial
      | command f vs =>
        dsimp only
        split
        · trivial
        · have hc := commandOf_keeps ‹_›
          split
          · trivial
          · split
            · intro t ht
              cases ht
            · split <;> have hv := hc.verdict ‹_›
              · trivial
              · trivial
              · exact ih ((touchNamed_pending _ _).trans (hv.trans hs))
              · exact ih (hv.trans hs)
              · intro t ht
                cases ht
              · intro t ht
                split at ht <;> cases ht
                exact hv.trans hs

theorem foldParts_done {judged : Bool} {l : List (Part × Bool)} {i : Nat} {s t : State} {rs rs' : List Reply}
    (h : foldParts judged l i s rs = .done t rs') : t.pending = s.pending := by
  have hk := foldParts_keeps (judged := judged) (l := l) (i := i) (rs := rs) (rfl : s.pending = s.pending)
  rw [h] at hk
  exact hk

theorem foldParts_waits {judged : Bool} {l : List (Part × Bool)} {i : Nat} {s : State} {rs : List Reply} {o : Option State}
    (h : foldParts judged l i s rs = .waits o) : (o.getD s).pending = s.pending := by
  have hk := foldParts_keeps (judged := judged) (l := l) (i := i) (rs := rs) (rfl : s.pending = s.pending)
  rw [h] at hk
  cases o with
  | none => rfl
  | some t => exact hk t rfl

theorem voteOn_error {alone : Bool} {l : List (Part × Bool)} {s t : State} (h : voteOn alone l s = .error t) : t.pending = s.pending := by
  unfold voteOn at h
  split at h
  · cases h
  · split at h <;> cases h
    exact foldParts_waits ‹_›

theorem onFwd_pending {op peer : Nat} {plain : Bytes} {dropped k : Msg → State → State} (hd : ∀ m t, (dropped m t).pending = t.pending)
    (hk : ∀ m t, (k m t).pending = t.pending) (s : State) : (onFwd op peer plain s dropped k).pending = s.pending := by
  unfold onFwd
  split
  · rfl
  · dsimp only
    split
    · split
      · exact hk _ _
      · rfl
    · split
      · split
        · exact hk _ _
        · simp
      · split <;> have hi := inbound_pending ‹_›
        · rfl
        · split
          · exact (hd _ _).trans hi
          · exact hi
        · exact (hk _ _).trans hi

/-! ### FormOps -/

@[simp] theorem noteLeaving_pending (key : TxnKey) (l : List (Part × Bool)) (s : State) : (noteLeaving key l s).pending = s.pending := by
  simp [noteLeaving]

@[simp] theorem commitFails_pending (f : Flight) (t : Txn) (failing : Option (Nat × Status × Nat)) (r : Reply) (s : State) :
    (commitFails f t failing r s).pending = s.pending := by
  simp [commitFails]

@[simp] theorem partFails_pending (f : Flight) (t : Txn) (i : Nat) (st : Status) (d : Nat) (s : State) :
    (partFails f t i st d s).pending = s.pending := by
  simp [partFails]

@[simp] theorem startTxn_pending (f : Flight) (t : Txn) (parts : List Part) (mods : List Nat) (s : State) :
    (startTxn f t parts mods s).pending = s.pending := by
  unfold startTxn
  dsimp only
  split
  · simp
  · split
    · simp
    · split
      · simp
      · split
        · simp
        · split
          · simp
          · split <;> rename_i heq
            · rw [noteLeaving_pending, beginFlight_pending]
              split at heq
              · exact voteOn_error heq
              · cases heq
            · simp

@[simp] theorem commitHere_pending (f : Flight) (t : Txn) (s : State) : (commitHere f t s).pending = s.pending := by
  unfold commitHere
  dsimp only
  split
  · simp
  · split
    · simp
    · split
      · simpa using foldParts_waits ‹_›
      · simp
      · rw [finishPlain_pending, forgetTxn_pending]
        refine (foldl_pending _ _ _ fun u p => by split <;> simp).trans ?_
        simpa using foldParts_done ‹_›

@[simp] theorem beginWait_pending (f : Flight) (t : Txn) (i : Nat) (g : Flight) (s : State) :
    (beginWait f t i g s).pending = s.pending := by
  unfold beginWait
  dsimp only
  refine (foldl_pending _ _ _ fun u e => emit_pending _ _).trans ?_
  simp

@[simp] theorem dropWait_pending (serial : Nat) (s : State) : (dropWait serial s).pending = s.pending := (rfl)

@[simp] theorem waitFails_pending (w : CandidacyWait) (st : Status) (d : Nat) (s : State) : (waitFails w st d s).pending = s.pending := by
  simp only [waitFails]; (repeat' split) <;> simp

@[simp] theorem settleWait_pending (w : CandidacyWait) (s : State) : (settleWait w s).pending = s.pending := by
  unfold settleWait; (repeat' split) <;> simp

@[simp] theorem settleWaits_pending (s : State) : (settleWaits s).pending = s.pending := by simp [settleWaits]

/-! ### CmdRows -/

@[simp] theorem txnCommit_pending (h : Nat) (s : State) : (txnCommit h s).pending = s.pending := by
  unfold txnCommit; (repeat' split) <;> simp

@[simp] theorem noteForming_pending (key : TxnKey) (parts : List Part) (s : State) : (noteForming key parts s).pending = s.pending := by
  unfold noteForming; split <;> simp

@[simp] theorem prepareAlone_pending (key : TxnKey) (peer : Nat) (m : Msg) (op : Opcode) (s : State) :
    (prepareAlone key peer m op s).pending = s.pending := by
  unfold prepareAlone
  dsimp only
  split
  · simp
  · split
    · simp
    · have hc := commandOf_keeps ‹_›
      split
      · rfl
      · split
        · rw [startWorker_pending hc, addPrepared_pending]
        · split
          · exact voteOn_error ‹_›
          · simp [hc.prepare]

@[simp] theorem prepareParts_pending (key : TxnKey) (peer : Nat) (m : Msg) (s : State) :
    (prepareParts key peer m s).pending = s.pending := by
  simp only [prepareParts]; (repeat' split) <;> simp

@[simp] theorem fwdPrepare_pending (peer : Nat) (m : Msg) (s0 : State) : (fwdPrepare peer m s0).pending = s0.pending := by
  simp only [fwdPrepare]; (repeat' split) <;> simp

@[simp] theorem answerStale_pending (peer : Nat) (m : Msg) (s : State) : (answerStale peer m s).pending = s.pending := by simp [answerStale]

@[simp] theorem takeObjectMessage_pending (peer tenant corr : Nat) (params content : Bytes) (s : State) :
    (takeObjectMessage peer tenant corr params content s).pending = s.pending := by
  simp [takeObjectMessage]

@[simp] theorem fwdForward_pending (peer : Nat) (m : Msg) (s : State) : (fwdForward peer m s).pending = s.pending := by
  simp only [fwdForward]; split <;> simp

@[simp] theorem fwdVote_pending (peer : Nat) (m : Msg) (s : State) : (fwdVote peer m s).pending = s.pending := by
  unfold fwdVote; split <;> simp

theorem breachOf_pending {m : Msg} {r : Reply} {id : Nat} {s t : State} (h : breachOf m r id s = some t) : t.pending = s.pending := by
  unfold breachOf at h
  split at h
  · obtain ⟨c, -, rfl⟩ := Option.map_eq_some_iff.mp h
    simp
  · cases h

/-- The first taker of a message, or the state as it is. -/
theorem getD_pending {o : Option State} {s : State} (h : ∀ t, o = some t → t.pending = s.pending) : (o.getD s).pending = s.pending := by
  cases o with
  | none => rfl
  | some t => exact h t rfl

@[simp] theorem fwdReply_pending (peer : Nat) (m : Msg) (s : State) : (fwdReply peer m s).pending = s.pending := by
  unfold fwdReply
  dsimp only
  split
  · simp
  · split
    · split
      · split <;> simp
      · split <;> simp
    · refine getD_pending fun t ht => ?_
      simp only [Option.orElse_eq_or, Option.or_eq_some_iff] at ht
      obtain (ht | ⟨-, ht⟩) | ⟨-, ht | ⟨-, ht⟩⟩ := ht
      · exact takePayloads_pending ht
      · exact takeServed_pending ht
      · exact breachOf_pending ht
      · exact requestNotice_pending ht

theorem commitWork_pending {p : Prepared} {f : Flight} {s t : State} {r : Reply} (h : commitWork p f s = some (t, r)) :
    t.pending = s.pending := by
  unfold commitWork at h
  split at h
  · cases h; rfl
  · split at h
    · split at h
      · cases h; rfl
      · dsimp only at h
        split at h <;> cases h
        · simpa [outcomeState] using kernelApply_pending ‹_›
        · simpa [outcomeState] using kernelApply_pending ‹_›
    · split at h
      · cases h; rfl
      · split at h
        · cases h
        · split at h <;> cases h
          · simpa [outcomeState] using layerApply_pending ‹_›
          · simpa [outcomeState] using layerApply_pending ‹_›

theorem applyPrepared_many_pending {p : Prepared} {s t : State} {l : List Part} {rs : List Reply} (h : applyPrepared.many p s l = some (t, rs)) :
    t.pending = s.pending := by
  unfold applyPrepared.many at h
  dsimp only at h
  split at h
  · cases h
  · cases h; rfl
  · have ht := foldParts_done ‹foldParts _ _ _ _ _ = _›
    cases h
    simpa using ht

theorem applyPrepared_pending {p : Prepared} {s t : State} {rs : List Reply} (h : applyPrepared p s = some (t, rs)) :
    t.pending = s.pending := by
  unfold applyPrepared at h
  split at h
  · split at h
    · cases h
      simp
    · split at h
      · obtain ⟨⟨u, r⟩, hu, heq⟩ := Option.map_eq_some_iff.mp h
        cases heq
        simpa using commitWork_pending hu
      · exact applyPrepared_many_pending h
  · exact applyPrepared_many_pending h

@[simp] theorem enterTime_pending (old : State) (parts : List Part) (now : Nat) (s : State) :
    (enterTime old parts now s).pending = s.pending := by
  simp [enterTime]

@[simp] theorem sendReplies_pending (p : Prepared) (dst : Nat) (rs : List Reply) (s : State) :
    (sendReplies p dst rs s).pending = s.pending := by
  simp [sendReplies]

@[simp] theorem commitPrepared_pending (p : Prepared) (now : Nat) (s : State) : (commitPrepared p now s).pending = s.pending := by
  unfold commitPrepared
  dsimp only
  split
  · rfl
  · have h1 := applyPrepared_pending ‹_›
    split
    · simpa using h1
    · split
      · simpa using h1
      · split
        · simp
        · simpa using applyPrepared_pending ‹applyPrepared p (sendReplies _ _ _ _) = _›

@[simp] theorem fwdCommit_pending (peer now : Nat) (m : Msg) (s : State) : (fwdCommit peer now m s).pending = s.pending := by
  unfold fwdCommit; split <;> simp

@[simp] theorem dropEarly_pending (m : Msg) (s : State) : (dropEarly m s).pending = s.pending := by simp [dropEarly]

@[simp] theorem fwdAbort_pending (peer : Nat) (m : Msg) (s : State) : (fwdAbort peer m s).pending = s.pending := by
  unfold fwdAbort; split <;> simp

@[simp] theorem fwdDecision_pending (peer : Nat) (m : Msg) (s : State) : (fwdDecision peer m s).pending = s.pending := by simp [fwdDecision]

@[simp] theorem fwdDecisionAck_pending (peer : Nat) (m : Msg) (s : State) : (fwdDecisionAck peer m s).pending = s.pending := by
  unfold fwdDecisionAck; split <;> simp

@[simp] theorem candidacyCheck_pending (uid : Nat) (matching prepared : Bool) (b : Bytes) (s : State) :
    (candidacyCheck uid matching prepared b s).pending = s.pending := by
  unfold candidacyCheck
  refine foldl_pending _ _ _ fun t w => ?_
  split
  · rfl
  · split
    · simp
    · split
      · rfl
      · dsimp only
        rw [settleWait_pending]
        exact foldl_pending _ _ _ fun u p => askPair_pending _ _ _

@[simp] theorem candidacyTimeout_pending (h now : Nat) (s0 : State) : (candidacyTimeout h now s0).pending = s0.pending := by
  simp only [candidacyTimeout]; split <;> simp

@[simp] theorem waitsRefuse_pending (uid : Nat) (s : State) : (waitsRefuse uid s).pending = s.pending := by simp [waitsRefuse]

@[simp] theorem pairMessage_pending (uid : Nat) (response : Bool) (body : Bytes) (s : State) :
    (pairMessage uid response body s).pending = s.pending := by
  simp only [pairMessage]; (repeat' split) <;> simp

/-! ### DebugRows -/

theorem breakSetCommand_keeps : KeepsQueue breakSetCommand := ⟨fun s f => by simp [breakSetCommand], fun _ _ => rfl⟩

theorem breakClearCommand_keeps : KeepsQueue breakClearCommand := ⟨fun s f => by simp [breakClearCommand], fun _ _ => rfl⟩

@[simp] theorem haltRun_keeps (s : State) (f : Flight) : Keeps s.pending (haltRun s f) := by unfold haltRun; (repeat' split) <;> simp

theorem haltCommand_keeps : KeepsQueue haltCommand := ⟨fun s f => by simp [haltCommand], fun _ _ => rfl⟩

@[simp] theorem haltedEvent_pending (r : Run) (b : Breakpoint) (s : State) : (haltedEvent r b s).pending = s.pending := by
  simp [haltedEvent]

@[simp] theorem haltDrainComplete_pending (h : Nat) (s : State) : (haltDrainComplete h s).pending = s.pending := by
  unfold haltDrainComplete
  split
  · rfl
  · split
    · split
      · rfl
      · refine (foldl_pending _ _ _ fun t w => by split <;> simp).trans ?_
        dsimp only
        split <;> simp
    · rfl

theorem resumeCommand_keeps : KeepsQueue resumeCommand :=
  ⟨fun s f => by simp only [resumeCommand]; (repeat' split) <;> simp, fun _ _ => rfl⟩

theorem stepCommand_keeps : KeepsQueue stepCommand := ⟨fun s f => by simp only [stepCommand]; (repeat' split) <;> simp, fun _ _ => rfl⟩

@[simp] theorem stepStallTimeout_pending (h : Nat) (s : State) : (stepStallTimeout h s).pending = s.pending := by
  unfold stepStallTimeout; (repeat' split) <;> simp

@[simp] theorem freeBytes_pending (n : Nat) (s : State) : (freeBytes n s).2.pending = s.pending := by
  induction n generalizing s with
  | zero => rfl
  | succ n ih => simp [freeBytes, ih]

theorem stateReadCommand_keeps : KeepsQueue stateReadCommand :=
  ⟨fun s f => by simp only [stateReadCommand]; (repeat' split) <;> simp, fun _ _ => rfl⟩

theorem trackReadCommand_keeps : KeepsQueue trackReadCommand := ⟨fun s f => by simp [trackReadCommand], fun _ _ => rfl⟩

@[simp] theorem gaugeRun_keeps (s : State) (f : Flight) : Keeps s.pending (gaugeRun s f) := by simp [gaugeRun]

theorem gaugeCommand_keeps : KeepsQueue gaugeCommand := ⟨fun s f => by simp [gaugeCommand], fun _ _ => rfl⟩

theorem histogramReadCommand_keeps : KeepsQueue histogramReadCommand := ⟨fun _ _ => rfl, fun _ _ => rfl⟩

theorem faultLogReadCommand_keeps : KeepsQueue faultLogReadCommand := ⟨fun s f => by simp [faultLogReadCommand], fun _ _ => rfl⟩

theorem sensorsReadCommand_keeps : KeepsQueue sensorsReadCommand := ⟨fun s f => by simp [sensorsReadCommand], fun _ _ => rfl⟩

/-! ### CounterRows -/

@[simp] theorem timedMarks_pending (cap : Nat) (s : State) : (timedMarks cap s).2.pending = s.pending := by simp [timedMarks]

@[simp] theorem timedAll_pending (l : List Nat) (s : State) : (timedAll l s).2.pending = s.pending := by
  induction l generalizing s with
  | nil => rfl
  | cons q qs ih => simp [timedAll, ih]

@[simp] theorem clearHigh_pending (unit q : Nat) (l : List Nat) (s : State) : (clearHigh unit q l s).pending = s.pending := by
  induction l generalizing q s with
  | nil => rfl
  | cons n ns ih => simp [clearHigh, ih]

@[simp] theorem queueSet_pending (unit : Nat) (clear : Bool) (s : State) : (queueSet unit clear s).2.pending = s.pending := by
  unfold queueSet; split <;> simp

@[simp] theorem idleArrays_pending (cell : Nat) (s : State) : (idleArrays cell s).pending = s.pending := (rfl)

theorem countersReadCommand_keeps : KeepsQueue countersReadCommand := ⟨fun s f => by simp [countersReadCommand], fun _ _ => rfl⟩

/-! ### RegisterRows -/

@[simp] theorem haltBlock_pending (bar off : Nat) (s : State) : (haltBlock bar off s).pending = s.pending := by simp [haltBlock]

@[simp] theorem parityMismatch_pending (bar0 off0 : Nat) (s : State) : (parityMismatch bar0 off0 s).pending = s.pending := by
  simp [parityMismatch]

@[simp] theorem flipStored_pending (bar off m : Nat) (s : State) : (flipStored bar off m s).pending = s.pending := by
  unfold flipStored; (repeat' split) <;> simp

@[simp] theorem upsetRegister_pending (bar off m : Nat) (s : State) : (upsetRegister bar off m s).pending = s.pending := by
  simp [upsetRegister]

@[simp] theorem configRegisterRead_pending (bar off flipped : Nat) (s : State) :
    (configRegisterRead bar off flipped s).pending = s.pending := by
  simp [configRegisterRead]

@[simp] theorem peekThaw_pending (s : State) : (peekThaw s).pending = s.pending := by unfold peekThaw; split <;> simp

@[simp] theorem peekDone_pending (result : Nat) (s : State) : (peekDone result s).pending = s.pending := (rfl)

@[simp] theorem peekWord_pending (s : State) : (peekWord s).2.pending = s.pending := by unfold peekWord; split <;> simp

@[simp] theorem dbgPeekRead_pending (s : State) : (dbgPeekRead s).pending = s.pending := by simp [dbgPeekRead]

@[simp] theorem anyRegisterWrite_pending (off : Nat) (v : W32) (s : State) : (anyRegisterWrite off v s).pending = s.pending := by
  simp [anyRegisterWrite]

@[simp] theorem dbgPeekWrite_pending (v : W32) (s : State) : (dbgPeekWrite v s).pending = s.pending := by
  unfold dbgPeekWrite; (repeat' split) <;> simp

@[simp] theorem telSnapshotTaken_pending (now : Nat) (s0 : State) : (telSnapshotTaken now s0).pending = s0.pending := by
  simp [telSnapshotTaken]

/-! ### ViewRows -/

@[simp] theorem resolvePrepared_pending (union : List TxnKey) (now : Nat) (s : State) :
    (resolvePrepared union now s).pending = s.pending := by
  simp [resolvePrepared]

@[simp] theorem resolveCoord_pending (union : List TxnKey) (reach : List Nat) (t : State) (c : Coord) :
    (resolveCoord union reach t c).pending = t.pending := by
  simp [resolveCoord]

@[simp] theorem resolveCommits_pending (union : List TxnKey) (reach : List Nat) (now : Nat) (s : State) :
    (resolveCommits union reach now s).pending = s.pending := by
  simp [resolveCommits]

@[simp] theorem rejoinTime_pending (now : Nat) (s : State) : (rejoinTime now s).pending = s.pending := by simp [rejoinTime]

@[simp] theorem dropReplicas_pending (s : State) : (dropReplicas s).pending = s.pending := (rfl)

@[simp] theorem takeInstall_pending (epoch : Nat) (reach : List Nat) (union : List TxnKey) (now : Nat) (s : State) :
    (takeInstall epoch reach union now s).pending = s.pending := by
  simp [takeInstall]

@[simp] theorem propose_pending (s : State) : (propose s).pending = s.pending := by simp [propose]

@[simp] theorem proposeTick_pending (s : State) : (proposeTick s).pending = s.pending := by simp [proposeTick]

theorem onView_pending {op peer : Nat} {plain : Bytes} {k : Msg → State → State} (hk : ∀ m t, (k m t).pending = t.pending) (s : State) :
    (onView op peer plain s k).pending = s.pending := by
  unfold onView
  split
  · rfl
  · exact onMessage_pending (fun m t => by split <;> simp [hk]) s

@[simp] theorem catchUpTick_pending (s : State) : (catchUpTick s).pending = s.pending := by unfold catchUpTick; (repeat' split) <;> simp

@[simp] theorem acceptProposal_pending (peer epoch : Nat) (b : Bytes) (s : State) :
    (acceptProposal peer epoch b s).pending = s.pending := by
  simp [acceptProposal]

@[simp] theorem viewPropose_pending (peer : Nat) (m : Msg) (s : State) : (viewPropose peer m s).pending = s.pending := by simp [viewPropose]

@[simp] theorem judgeHeld_pending (s : State) : (judgeHeld s).pending = s.pending := by unfold judgeHeld; split <;> simp

@[simp] theorem viewAccept_pending (peer : Nat) (m : Msg) (s : State) : (viewAccept peer m s).pending = s.pending := by
  unfold viewAccept; split <;> simp

@[simp] theorem viewDecision_pending (now : Nat) (s0 : State) : (viewDecision now s0).pending = s0.pending := by
  simp only [viewDecision]; split <;> simp

@[simp] theorem viewInstall_pending (peer now : Nat) (m : Msg) (s : State) : (viewInstall peer now m s).pending = s.pending := by
  simp [viewInstall]

@[simp] theorem endLate_pending (s : State) : (endLate s).pending = s.pending := by simp [endLate]

@[simp] theorem takeView_pending (v : View) (union : List TxnKey) (now : Nat) (s : State) :
    (takeView v union now s).pending = s.pending := by
  unfold takeView; split <;> simp

@[simp] theorem viewCatchUp_pending (peer : Nat) (m : Msg) (s : State) : (viewCatchUp peer m s).pending = s.pending := by simp [viewCatchUp]

/-! ### TickRows -/

@[simp] theorem tickReports_pending (x : TickSample) (s : State) : (tickReports x s).pending = s.pending := (rfl)

@[simp] theorem tickReady_pending (s : State) : (tickReady s).pending = s.pending := by simp [tickReady]

@[simp] theorem managementTick_pending (x : TickSample) (s0 : State) : (managementTick x s0).pending = s0.pending := by
  simp [managementTick]

/-! ### Step -/

@[simp] theorem State.withFetchWord_pending (s : State) (nbits w : Nat) : (State.withFetchWord s nbits w).pending = s.pending := (rfl)

/-! ### What a command answers -/

/-- The answer is a next state, the queue as it was in `s`. -/
def Answers (s : State) (r : Result) : Prop := ∃ t, r = .next t ∧ t.pending = s.pending

@[simp] theorem answers_next (s t : State) : Answers s (.next t) ↔ t.pending = s.pending :=
  ⟨fun ⟨_, h, ht⟩ => by cases h; exact ht, fun h => ⟨t, rfl, h⟩⟩

@[simp] theorem answers_nextOf (s old t : State) : Answers s (nextOf old t) ↔ t.pending = s.pending := by
  rw [nextOf, answers_next, settle_pending]

@[simp] theorem answers_ite (s : State) (p : Prop) [Decidable p] (r r' : Result) :
    Answers s (if p then r else r') ↔ if p then Answers s r else Answers s r' := iff_of_eq (apply_ite (Answers s) p r r')

theorem nextOf_answers {s old t : State} (h : t.pending = s.pending) : Answers s (nextOf old t) := (answers_nextOf s old t).2 h

theorem execCommand_answers {c : Command} (hc : KeepsQueue c) (h : Nat) (s : State) : Answers s (execCommand c h s) :=
  nextOf_answers (runCommand_pending hc h s)

theorem execEntry_answers {c : Command} (hc : KeepsQueue c) (h : Nat) (s : State) : Answers s (execEntry c h s) :=
  nextOf_answers (runEntry_pending hc h s)

theorem execAt_answers {c : Command} (hc : KeepsQueue c) (mods : State → Flight → List Nat) (h : Nat) (s : State) :
    Answers s (execAt c mods h s) :=
  nextOf_answers (runAt_pending hc mods h s)

theorem ofForm_answers {k : State → Result} {s : State} (form : Flight → Bool) (h : Nat) (hk : Answers s (k s)) :
    Answers s (ofForm form h s k) := by
  unfold ofForm
  split
  · simp
  · split
    · exact hk
    · simp

@[simp] theorem smbusAnswer_answers (b : Bytes) (s : State) : Answers s (smbusAnswer b s) := by simp [smbusAnswer]

@[simp] theorem spdmStep_answers (need : Nat) (after : SpdmStage) (code : Nat) (content : Bytes) (s : State) :
    Answers s (spdmStep need after code content s) := by
  unfold spdmStep
  (repeat' split) <;> simp

@[simp] theorem tapLoad_answers (i : TapInstr) (out : Nat) (s : State) : Answers s (tapLoad i out s) := by simp [tapLoad]

theorem execAttestReport_answers (h : Nat) (s : State) : Answers s (execAttestReport h s) :=
  ofForm_answers _ h (execCommand_answers attestCommand_keeps h s)

theorem execAttestCertificates_answers (h : Nat) (s : State) : Answers s (execAttestCertificates h s) :=
  ofForm_answers _ h (execCommand_answers attestCommand_keeps h s)

theorem execKeyInstallSet_answers (h : Nat) (s : State) : Answers s (execKeyInstallSet h s) :=
  ofForm_answers _ h (execCommand_answers keyInstallCommand_keeps h s)

theorem execKeyInstallImport_answers (h : Nat) (image : Bytes) (s : State) : Answers s (execKeyInstallImport h image s) :=
  ofForm_answers _ h (by
    split
    · simp
    · simp [runCommand_pending keyInstallCommand_keeps])

theorem execKeyInstallExport_answers (h : Nat) (s : State) : Answers s (execKeyInstallExport h s) :=
  ofForm_answers _ h (execCommand_answers keyInstallCommand_keeps h s)

theorem execDetokStreamOpen_answers (h : Nat) (s : State) : Answers s (execDetokStreamOpen h s) :=
  ofForm_answers _ h (execEntry_answers detokCommand_keeps h s)

theorem execDetokStreamFeed_answers (h : Nat) (s : State) : Answers s (execDetokStreamFeed h s) :=
  ofForm_answers _ h (execEntry_answers detokCommand_keeps h s)

theorem execPipelineDefine_answers (h : Nat) (s : State) : Answers s (execPipelineDefine h s) :=
  ofForm_answers _ h (execCommand_answers pipelineCommand_keeps h s)

theorem execPipelineDelete_answers (h : Nat) (s : State) : Answers s (execPipelineDelete h s) :=
  ofForm_answers _ h (execCommand_answers pipelineCommand_keeps h s)

theorem execBudgetSet_answers (h : Nat) (s : State) : Answers s (execBudgetSet h s) :=
  ofForm_answers _ h (execCommand_answers budgetCommand_keeps h s)

theorem execBudgetRemove_answers (h : Nat) (s : State) : Answers s (execBudgetRemove h s) :=
  ofForm_answers _ h (execCommand_answers budgetCommand_keeps h s)

theorem execContractSet_answers (h : Nat) (s : State) : Answers s (execContractSet h s) :=
  ofForm_answers _ h (execCommand_answers contractCommand_keeps h s)

theorem execContractDelete_answers (h : Nat) (s : State) : Answers s (execContractDelete h s) :=
  ofForm_answers _ h (execCommand_answers contractCommand_keeps h s)

theorem execGaugeArm_answers (h : Nat) (s : State) : Answers s (execGaugeArm h s) :=
  ofForm_answers _ h (execCommand_answers gaugeCommand_keeps h s)

theorem execGaugeRead_answers (h : Nat) (s : State) : Answers s (execGaugeRead h s) :=
  ofForm_answers _ h (execCommand_answers gaugeCommand_keeps h s)

theorem execGaugeReadClear_answers (h : Nat) (s : State) : Answers s (execGaugeReadClear h s) :=
  ofForm_answers _ h (execCommand_answers gaugeCommand_keeps h s)

theorem execGaugeDisarm_answers (h : Nat) (s : State) : Answers s (execGaugeDisarm h s) :=
  ofForm_answers _ h (execCommand_answers gaugeCommand_keeps h s)

theorem execFwActivate_answers (h : Nat) (s : State) : Answers s (execFwActivate h s) :=
  ofForm_answers _ h (execCommand_answers fwActivateCommand_keeps h s)

theorem execFwCommitSvn_answers (h : Nat) (s : State) : Answers s (execFwCommitSvn h s) :=
  ofForm_answers _ h (execCommand_answers fwActivateCommand_keeps h s)

theorem execMemberResetModule_answers (h : Nat) (s : State) : Answers s (execMemberResetModule h s) :=
  ofForm_answers _ h (execCommand_answers memberResetCommand_keeps h s)

theorem execMemberResetPowerCycle_answers (h : Nat) (s : State) : Answers s (execMemberResetPowerCycle h s) :=
  ofForm_answers _ h (execCommand_answers memberResetCommand_keeps h s)

theorem execFencedCommandBegin_answers (h : Nat) (s : State) : Answers s (execFencedCommandBegin h s) := by
  simp [execFencedCommandBegin]

theorem execSqTailWrite_answers (ring : Nat) (value : W32) (s : State) : Answers s (execSqTailWrite ring value s) := by
  simp [execSqTailWrite]

theorem execCqHeadWrite_answers (ring : Nat) (value : W32) (s : State) : Answers s (execCqHeadWrite ring value s) := by
  simp [execCqHeadWrite]

theorem execSqEnable_answers (ring : Nat) (s : State) : Answers s (execSqEnable ring s) := by
  simp [execSqEnable]

theorem execSqDisable_answers (ring : Nat) (s : State) : Answers s (execSqDisable ring s) := by
  simp [execSqDisable]

theorem execCqEnable_answers (ring : Nat) (irqEn : Bool) (s : State) : Answers s (execCqEnable ring irqEn s) := by
  simp [execCqEnable]

theorem execCqDisable_answers (ring : Nat) (irqEn : Bool) (s : State) : Answers s (execCqDisable ring irqEn s) := by
  simp [execCqDisable]

theorem execModParityClear_answers (s : State) : Answers s (execModParityClear s) := by
  simp [execModParityClear]

theorem execIrqEventClear_answers (value : W32) (s : State) : Answers s (execIrqEventClear value s) := by
  simp [execIrqEventClear]

theorem execIrqSqErrClear_answers (word : Nat) (value : W32) (s : State) : Answers s (execIrqSqErrClear word value s) := by
  simp [execIrqSqErrClear]

theorem execIrqCqErrClear_answers (word : Nat) (value : W32) (s : State) : Answers s (execIrqCqErrClear word value s) := by
  simp [execIrqCqErrClear]

theorem execIrqEventEnWrite_answers (value : W32) (s : State) : Answers s (execIrqEventEnWrite value s) := by
  simp [execIrqEventEnWrite]

theorem execClkTimeLoRead_answers (s : State) : Answers s (execClkTimeLoRead s) := by
  simp [execClkTimeLoRead]

theorem execTelSnap_answers (s : State) : Answers s (execTelSnap s) := by
  simp [execTelSnap]

theorem execRegisterWrite_answers (bar offset size : Nat) (value : W32) (s : State) :
    Answers s (execRegisterWrite bar offset size value s) := by
  simp [execRegisterWrite]

theorem execMsixVectorUnmask_answers (vector : Nat) (s : State) : Answers s (execMsixVectorUnmask vector s) := by
  simp [execMsixVectorUnmask]

theorem execPmeStatusClear_answers (status enable : Bool) (s : State) : Answers s (execPmeStatusClear status enable s) := by
  simp [execPmeStatusClear]

theorem execCqCoalExpiry_answers (ring now : Nat) (s : State) : Answers s (execCqCoalExpiry ring now s) := by
  simp [execCqCoalExpiry]

theorem execHostReadCompletion_answers (what : HostRead) (good : Bool) (s : State) : Answers s (execHostReadCompletion what good s) := by
  simp [execHostReadCompletion]

theorem execHostCompletionTimeout_answers (what : HostRead) (s : State) : Answers s (execHostCompletionTimeout what s) := by
  simp [execHostCompletionTimeout]

theorem execD3hotEntry_answers (s : State) : Answers s (execD3hotEntry s) := by
  simp [execD3hotEntry]

theorem execD0Return_answers (s : State) : Answers s (execD0Return s) := by
  simp [execD0Return]

theorem execHostLinkDown_answers (s : State) : Answers s (execHostLinkDown s) := by
  simp [execHostLinkDown]

theorem execHostLinkRetrain_answers (s : State) : Answers s (execHostLinkRetrain s) := by
  simp [execHostLinkRetrain]

theorem execHostLinkTrained_answers (rate width : Nat) (flit : Bool) (s : State) : Answers s (execHostLinkTrained rate width flit s) := by
  simp [execHostLinkTrained]

theorem execRefclkLoss_answers (s : State) : Answers s (execRefclkLoss s) := by
  simp [execRefclkLoss]

theorem execPerstAssert_answers (s : State) : Answers s (execPerstAssert s) := by
  simp [execPerstAssert]

theorem execPerstRelease_answers (s : State) : Answers s (execPerstRelease s) := by
  simp [execPerstRelease]

theorem execColdReset_answers (vin : Nat) (s : State) : Answers s (execColdReset vin s) := by
  simp [execColdReset]

theorem execCalmIslandStart_answers (slotId : Nat) (mfgMode : Bool) (s : State) : Answers s (execCalmIslandStart slotId mfgMode s) := by
  simp [execCalmIslandStart]

theorem execPowerOff_answers (s : State) : Answers s (execPowerOff s) := by
  simp [execPowerOff]

theorem execInputInRange_answers (vin : Nat) (s : State) : Answers s (execInputInRange vin s) := by
  simp [execInputInRange]

theorem execHvEnAssert_answers (tj : Nat) (s : State) : Answers s (execHvEnAssert tj s) := by
  simp [execHvEnAssert]

theorem execHvEnDeassert_answers (s : State) : Answers s (execHvEnDeassert s) := by
  simp [execHvEnDeassert]

theorem execRailsInRegulation_answers (s : State) : Answers s (execRailsInRegulation s) := by
  simp [execRailsInRegulation]

theorem execRailFailure_answers (rail : Nat) (s : State) : Answers s (execRailFailure rail s) := by
  simp [execRailFailure]

theorem execBrownOut_answers (vin now : Nat) (s : State) : Answers s (execBrownOut vin now s) := by
  simp [execBrownOut]

theorem execThermalTrip_answers (tj _die now : Nat) (s : State) : Answers s (execThermalTrip tj _die now s) := by
  simp [execThermalTrip]

theorem execOscillatorLoss_answers (domain : Nat) (s : State) : Answers s (execOscillatorLoss domain s) := by
  simp [execOscillatorLoss]

theorem execEntropyFail_answers (s : State) : Answers s (execEntropyFail s) := by
  simp [execEntropyFail]

theorem execBootTimeout_answers (s : State) : Answers s (execBootTimeout s) := by
  simp [execBootTimeout]

theorem execRecoveryBundleChunk_answers (offset : Nat) (bytes : Bytes) (s : State) :
    Answers s (execRecoveryBundleChunk offset bytes s) := by
  simp [execRecoveryBundleChunk]

theorem execWatchdogExpiry_answers (core now : Nat) (s0 : State) : Answers s0 (execWatchdogExpiry core now s0) := by
  simp [execWatchdogExpiry]

theorem execFastClamp_answers (now : Nat) (s : State) : Answers s (execFastClamp now s) := by
  simp [execFastClamp]

theorem execFastClampEnd_answers (now : Nat) (s : State) : Answers s (execFastClampEnd now s) := by
  simp [execFastClampEnd]

theorem execMemSelfRefresh_answers (now : Nat) (s0 : State) : Answers s0 (execMemSelfRefresh now s0) := by
  simp [execMemSelfRefresh]

theorem execPatrolScrub_answers (addr : Nat) (outcome : TierOutcome) (s : State) : Answers s (execPatrolScrub addr outcome s) := by
  unfold execPatrolScrub
  split <;> simp

theorem execPpsEdge_answers (now : Nat) (s : State) : Answers s (execPpsEdge now s) := by
  simp [execPpsEdge]

theorem execPpsLoss_answers (now : Nat) (s : State) : Answers s (execPpsLoss now s) := by
  unfold execPpsLoss
  split <;> simp

theorem execPrefillStage_answers (r : Nat) (fetched : List (Nat × Nat × Nat × Bytes)) (now : Nat) (s : State) :
    Answers s (execPrefillStage r fetched now s) :=
  nextOf_answers (onStage_pending (fun q t => by simp [runStage_pending (prefillStage_keeps q fetched)]) s)

theorem execDecodeStep_answers (r : Nat) (fetched : List (Nat × Nat × Nat × Bytes)) (now : Nat) (s : State) :
    Answers s (execDecodeStep r fetched now s) :=
  nextOf_answers (onStage_pending (fun q t => by simp) s)

theorem execRequestFree_answers (r : Nat) (s : State) : Answers s (execRequestFree r s) := by
  rw [execRequestFree, answers_nextOf]
  split <;> simp

theorem execChunkReservation_answers (r now : Nat) (s : State) : Answers s (execChunkReservation r now s) :=
  nextOf_answers (onRequest_pending (fun q t => by simp) s)

theorem execChunkTimer_answers (r now : Nat) (s : State) : Answers s (execChunkTimer r now s) :=
  nextOf_answers (onRequest_pending (fun q t => by simp) s)

theorem execRequestDeadline_answers (r now : Nat) (s : State) : Answers s (execRequestDeadline r now s) :=
  nextOf_answers (onRequest_pending (fun q t => by simp) s)

theorem execCandidacyExpiry_answers (now : Nat) (s0 : State) : Answers s0 (execCandidacyExpiry now s0) := by
  unfold execCandidacyExpiry
  dsimp only
  split <;> simp

theorem execVoteTimeout_answers (h now : Nat) (s0 : State) : Answers s0 (execVoteTimeout h now s0) := by
  unfold execVoteTimeout
  dsimp only
  split <;> simp

theorem execPeerUnreachable_answers (peer now : Nat) (s0 : State) : Answers s0 (execPeerUnreachable peer now s0) := by
  simp [execPeerUnreachable]

theorem execOffsetStale_answers (now : Nat) (s0 : State) : Answers s0 (execOffsetStale now s0) := by
  unfold execOffsetStale
  dsimp only
  split <;> simp

theorem execPortSignalLoss_answers (p : Nat) (s : State) : Answers s (execPortSignalLoss p s) := by
  simp [execPortSignalLoss]

theorem execPortSignalDetect_answers (p : Nat) (s : State) : Answers s (execPortSignalDetect p s) := by
  simp [execPortSignalDetect]

theorem execDadComplete_answers (p : Nat) (inUse : Bool) (s : State) : Answers s (execDadComplete p inUse s) := by
  simp [execDadComplete]

theorem execNeighborSolicitation_answers (p : Nat) (target : Bytes) (probe : Bool) (s : State) :
    Answers s (execNeighborSolicitation p target probe s) := by
  simp [execNeighborSolicitation]

theorem execNeighborAdvertisement_answers (p : Nat) (target link : Bytes) (s : State) :
    Answers s (execNeighborAdvertisement p target link s) := by
  simp [execNeighborAdvertisement]

theorem execIcmpv6EchoRequest_answers (p : Nat) (data : Bytes) (s : State) : Answers s (execIcmpv6EchoRequest p data s) := by
  simp [execIcmpv6EchoRequest]

theorem execPacketTooBig_answers (p : Nat) (s : State) : Answers s (execPacketTooBig p s) := by
  simp [execPacketTooBig]

theorem execFlitNak_answers (p ack : Nat) (s : State) : Answers s (execFlitNak p ack s) := by
  simp [execFlitNak]

theorem execFlitDamaged_answers (p : Nat) (fec : Bool) (s : State) : Answers s (execFlitDamaged p fec s) := by
  simp [execFlitDamaged]

theorem execFlitHello_answers (p uid port seq ack : Nat) (s : State) : Answers s (execFlitHello p uid port seq ack s) := by
  simp [execFlitHello]

theorem execFlitTime_answers (p sent arrived ack : Nat) (s : State) : Answers s (execFlitTime p sent arrived ack s) := by
  simp only [execFlitTime, answers_nextOf]
  (repeat' split) <;> simp

theorem execHelloSend_answers (p : Nat) (s : State) : Answers s (execHelloSend p s) := by
  simp [execHelloSend]

theorem execAckStall_answers (p : Nat) (s : State) : Answers s (execAckStall p s) := by
  simp [execAckStall]

theorem execSegmentData_answers (p seq ack : Nat) (bytes : Bytes) (s : State) : Answers s (execSegmentData p seq ack bytes s) := by
  rw [execSegmentData, answers_nextOf, onSegment_pending (segmentIn_pending _)]
  simp

theorem execSegmentAck_answers (p seq ack : Nat) (bytes : Bytes) (s : State) : Answers s (execSegmentAck p seq ack bytes s) := by
  rw [execSegmentAck, answers_nextOf, onSegment_pending (segmentAck_pending)]
  simp

theorem execRetransmitTimeout_answers (peer ch : Nat) (s : State) : Answers s (execRetransmitTimeout peer ch s) := by
  simp only [execRetransmitTimeout, answers_nextOf]
  split <;> simp

theorem execKvShipOpen_answers (peer : Nat) (plain : Bytes) (s : State) : Answers s (execKvShipOpen peer plain s) :=
  nextOf_answers (onShip_pending (shipOpen_pending _) s)

theorem execKvShipAccept_answers (peer : Nat) (plain : Bytes) (s : State) : Answers s (execKvShipAccept peer plain s) :=
  nextOf_answers (onShip_pending (fun m t => by (repeat' split) <;> simp) s)

theorem execKvShipPage_answers (peer : Nat) (plain : Bytes) (s : State) : Answers s (execKvShipPage peer plain s) :=
  nextOf_answers (onShip_pending (fun m t => by (repeat' split) <;> simp) s)

theorem execKvShipAbort_answers (peer : Nat) (plain : Bytes) (s : State) : Answers s (execKvShipAbort peer plain s) :=
  nextOf_answers (onShip_pending (fun m t => by (repeat' split) <;> simp) s)

theorem execKvShipRefuse_answers (peer : Nat) (plain : Bytes) (s : State) : Answers s (execKvShipRefuse peer plain s) :=
  nextOf_answers (onShip_pending (fun m t => by (repeat' split) <;> simp) s)

theorem execCmdFwdForward_answers (peer : Nat) (plain : Bytes) (s : State) : Answers s (execCmdFwdForward peer plain s) :=
  nextOf_answers (onFwd_pending (answerStale_pending _) (fwdForward_pending _) s)

theorem execCmdFwdReply_answers (peer : Nat) (plain : Bytes) (s : State) : Answers s (execCmdFwdReply peer plain s) :=
  nextOf_answers (onFwd_pending (fun _ _ => rfl) (fwdReply_pending _) s)

theorem execCmdFwdPrepare_answers (peer : Nat) (plain : Bytes) (s : State) : Answers s (execCmdFwdPrepare peer plain s) :=
  nextOf_answers (onFwd_pending (answerStale_pending _) (fwdPrepare_pending _) s)

theorem execCmdFwdVote_answers (peer : Nat) (plain : Bytes) (s : State) : Answers s (execCmdFwdVote peer plain s) :=
  nextOf_answers (onFwd_pending (fun _ _ => rfl) (fwdVote_pending _) s)

theorem execCmdFwdCommit_answers (peer : Nat) (plain : Bytes) (now : Nat) (s : State) : Answers s (execCmdFwdCommit peer plain now s) :=
  nextOf_answers (onFwd_pending (fun _ _ => rfl) (fwdCommit_pending _ _) s)

theorem execCmdFwdAbort_answers (peer : Nat) (plain : Bytes) (s : State) : Answers s (execCmdFwdAbort peer plain s) :=
  nextOf_answers (onFwd_pending (fun _ _ => rfl) (fwdAbort_pending _) s)

theorem execCmdFwdDecision_answers (peer : Nat) (plain : Bytes) (s : State) : Answers s (execCmdFwdDecision peer plain s) :=
  nextOf_answers (onFwd_pending (fun _ _ => rfl) (fwdDecision_pending _) s)

theorem execCmdFwdDecisionAck_answers (peer : Nat) (plain : Bytes) (s : State) : Answers s (execCmdFwdDecisionAck peer plain s) :=
  nextOf_answers (onFwd_pending (fun _ _ => rfl) (fwdDecisionAck_pending _) s)

theorem execTimeSyncSync_answers (peer : Nat) (plain : Bytes) (now : Nat) (s : State) : Answers s (execTimeSyncSync peer plain now s) :=
  nextOf_answers (onTimeSync_pending (fun m t => by simp) s)

theorem execTimeSyncFollowUp_answers (peer : Nat) (plain : Bytes) (now : Nat) (s : State) :
    Answers s (execTimeSyncFollowUp peer plain now s) :=
  nextOf_answers (onTimeSync_pending (fun m t => by simp) s)

theorem execTimeSyncDelayReq_answers (peer : Nat) (plain : Bytes) (now : Nat) (s : State) :
    Answers s (execTimeSyncDelayReq peer plain now s) :=
  nextOf_answers (onTimeSync_pending (fun m t => by simp) s)

theorem execTimeSyncDelayResp_answers (peer : Nat) (plain : Bytes) (now : Nat) (s : State) :
    Answers s (execTimeSyncDelayResp peer plain now s) :=
  nextOf_answers (onTimeSync_pending (fun m t => by simp) s)

theorem execPtpSync_answers (domain now : Nat) (s : State) : Answers s (execPtpSync domain now s) := by
  simp [execPtpSync]

theorem execPtpFollowUp_answers (domain sent : Nat) (s : State) : Answers s (execPtpFollowUp domain sent s) := by
  simp [execPtpFollowUp]

theorem execPtpDelayReq_answers (p domain now : Nat) (s : State) : Answers s (execPtpDelayReq p domain now s) := by
  simp [execPtpDelayReq]

theorem execPtpDelayResp_answers (domain stamp now : Nat) (s : State) : Answers s (execPtpDelayResp domain stamp now s) := by
  simp [execPtpDelayResp]

theorem execFrontViewPropose_answers (peer : Nat) (plain : Bytes) (s : State) : Answers s (execFrontViewPropose peer plain s) :=
  nextOf_answers (onView_pending (viewPropose_pending _) s)

theorem execFrontViewAccept_answers (peer : Nat) (plain : Bytes) (s : State) : Answers s (execFrontViewAccept peer plain s) :=
  nextOf_answers (onView_pending (viewAccept_pending _) s)

theorem execFrontViewInstall_answers (peer : Nat) (plain : Bytes) (now : Nat) (s : State) :
    Answers s (execFrontViewInstall peer plain now s) :=
  nextOf_answers (onView_pending (viewInstall_pending _ _) s)

theorem execFrontViewCatchUp_answers (peer : Nat) (plain : Bytes) (s : State) : Answers s (execFrontViewCatchUp peer plain s) :=
  nextOf_answers (onView_pending (viewCatchUp_pending _) s)

theorem execClearFaults_answers (s : State) : Answers s (execClearFaults s) := by
  simp [execClearFaults]

theorem execStatusByte_answers (s : State) : Answers s (execStatusByte s) := smbusAnswer_answers _ _

theorem execStatusWord_answers (s : State) : Answers s (execStatusWord s) := smbusAnswer_answers _ _

theorem execStatusInput_answers (s : State) : Answers s (execStatusInput s) := smbusAnswer_answers _ _

theorem execStatusTemperature_answers (s : State) : Answers s (execStatusTemperature s) := smbusAnswer_answers _ _

theorem execReadVin_answers (s : State) : Answers s (execReadVin s) := smbusAnswer_answers _ _

theorem execReadIin_answers (s : State) : Answers s (execReadIin s) := smbusAnswer_answers _ _

theorem execReadTemperature1_answers (s : State) : Answers s (execReadTemperature1 s) := smbusAnswer_answers _ _

theorem execReadPin_answers (s : State) : Answers s (execReadPin s) := smbusAnswer_answers _ _

theorem execPmbusRevision_answers (s : State) : Answers s (execPmbusRevision s) := smbusAnswer_answers _ _

theorem execMfrId_answers (s : State) : Answers s (execMfrId s) := smbusAnswer_answers _ _

theorem execMfrModel_answers (s : State) : Answers s (execMfrModel s) := smbusAnswer_answers _ _

theorem execPmbusUnsupported_answers (code : Nat) (s : State) : Answers s (execPmbusUnsupported code s) := by
  simp [execPmbusUnsupported]

theorem execAlertResponse_answers (s : State) : Answers s (execAlertResponse s) := by
  simp [execAlertResponse]

theorem execSmbusClockTimeout_answers (s : State) : Answers s (execSmbusClockTimeout s) := by
  simp [execSmbusClockTimeout]

theorem execMctpControl_answers (request : Bytes) (s : State) : Answers s (execMctpControl request s) := by
  simp [execMctpControl]

theorem execGetVersion_answers (_request : Bytes) (s : State) : Answers s (execGetVersion _request s) := spdmStep_answers _ _ _ _ _

theorem execGetCapabilities_answers (request : Bytes) (s : State) : Answers s (execGetCapabilities request s) := spdmStep_answers _ _ _ _ _

theorem execNegotiateAlgorithms_answers (request : Bytes) (s : State) : Answers s (execNegotiateAlgorithms request s) :=
  spdmStep_answers _ _ _ _ _

theorem execGetDigests_answers (_request : Bytes) (s : State) : Answers s (execGetDigests _request s) := spdmStep_answers _ _ _ _ _

theorem execGetCertificate_answers (request : Bytes) (s : State) : Answers s (execGetCertificate request s) := by
  simp [execGetCertificate]

theorem execChallenge_answers (request : Bytes) (s : State) : Answers s (execChallenge request s) := spdmStep_answers _ _ _ _ _

theorem execGetMeasurements_answers (request : Bytes) (s : State) : Answers s (execGetMeasurements request s) := by
  simp [execGetMeasurements]

theorem execSpdmUnsupportedRequest_answers (request : Bytes) (s : State) : Answers s (execSpdmUnsupportedRequest request s) := by
  simp [execSpdmUnsupportedRequest]

theorem execDoeDiscovery_answers (idx : Nat) (s : State) : Answers s (execDoeDiscovery idx s) := by
  unfold execDoeDiscovery
  split
  · dsimp only
    split <;> rw [answers_next, emit_pending]
  · simp

theorem execTapReset_answers (s : State) : Answers s (execTapReset s) := by
  simp [execTapReset]

theorem execBypass_answers (s : State) : Answers s (execBypass s) := tapLoad_answers _ _ _

theorem execIdcode_answers (s : State) : Answers s (execIdcode s) := tapLoad_answers _ _ _

theorem execSamplePreload_answers (pins : Nat) (s : State) : Answers s (execSamplePreload pins s) := tapLoad_answers _ _ _

theorem execExtest_answers (pins : Nat) (s : State) : Answers s (execExtest pins s) := tapLoad_answers _ _ _

theorem execExtestPulse_answers (pins : Nat) (s : State) : Answers s (execExtestPulse pins s) := tapLoad_answers _ _ _

theorem execExtestTrain_answers (pins : Nat) (s : State) : Answers s (execExtestTrain pins s) := tapLoad_answers _ _ _

theorem execJtagPrivate_answers (code : Nat) (s : State) : Answers s (execJtagPrivate code s) := by
  unfold execJtagPrivate
  split
  · simp [tapLoad]
  · exact tapLoad_answers _ _ _

theorem execPluggableInsertion_answers (cage milliwatts : Nat) (s : State) : Answers s (execPluggableInsertion cage milliwatts s) := by
  simp [execPluggableInsertion]

theorem execQuadrantDomainFailure_answers (quadrant : Nat) (s : State) : Answers s (execQuadrantDomainFailure quadrant s) := by
  simp [execQuadrantDomainFailure]

theorem execBusMasterEnableWrite_answers (enable : Bool) (s : State) : Answers s (execBusMasterEnableWrite enable s) := by
  simp [execBusMasterEnableWrite]

/-- Each row answers a next state and leaves the queue; the cases are those of the dispatch. -/
theorem exec_answers (c : Instr) (s : State) : Answers s (exec c s) := by
  cases c with
  | sessionOpen h => exact execEntry_answers (entryCommand_keeps sessionOpenCommand_keeps) h s
  | sessionClose h => exact nextOf_answers (sessionClose_pending _ s)
  | attestReport h => exact execAttestReport_answers h s
  | attestCertificates h => exact execAttestCertificates_answers h s
  | keyInstallSet h => exact execKeyInstallSet_answers h s
  | keyInstallImport h image => exact execKeyInstallImport_answers h image s
  | keyInstallExport h => exact execKeyInstallExport_answers h s
  | keyRetire h => exact execCommand_answers keyRetireCommand_keeps h s
  | tenantCreate h => exact execCommand_answers tenantCreateCommand_keeps h s
  | tenantDestroy h => exact execCommand_answers tenantDestroyCommand_keeps h s
  | debugAuthorize h => exact execCommand_answers debugAuthorizeCommand_keeps h s
  | txnBegin h => exact execEntry_answers txnBeginCommand_keeps h s
  | txnSet h => exact execEntry_answers txnSetCommand_keeps h s
  | txnCommit h => exact nextOf_answers (txnCommit_pending _ s)
  | txnRollback h => exact execEntry_answers txnRollbackCommand_keeps h s
  | configGet h => exact execCommand_answers configGetCommand_keeps h s
  | roleSet h => exact execCommand_answers roleSetCommand_keeps h s
  | memAlloc h => exact execCommand_answers memAllocCommand_keeps h s
  | memFree h => exact execCommand_answers memFreeCommand_keeps h s
  | memCopy h => exact execCommand_answers memCopyCommand_keeps h s
  | reside h => exact execCommand_answers resideCommand_keeps h s
  | demote h => exact execCommand_answers demoteCommand_keeps h s
  | flush h => exact execCommand_answers flushCommand_keeps h s
  | memFill h => exact execCommand_answers memFillCommand_keeps h s
  | tierStats h => exact execCommand_answers tierStatsCommand_keeps h s
  | modelLoad h => exact execCommand_answers modelLoadCommand_keeps h s
  | modelUnload h => exact execCommand_answers modelUnloadCommand_keeps h s
  | steerSetLoad h => exact execCommand_answers steerSetLoadCommand_keeps h s
  | steerSetDrop h => exact execCommand_answers steerSetDropCommand_keeps h s
  | kernelLoad h => exact execCommand_answers kernelLoadCommand_keeps h s
  | layerRun h => exact execCommand_answers layerRunCommand_keeps h s
  | kernelRun h => exact execCommand_answers kernelRunCommand_keeps h s
  | chainDefine h => exact execCommand_answers chainDefineCommand_keeps h s
  | tableCreate h => exact execCommand_answers tableCreateCommand_keeps h s
  | tableDrop h => exact execAt_answers tableDropCommand_keeps _ h s
  | rowsWrite h => exact nextOf_answers (rowsWrite_pending _ s)
  | bagLookup h fetched => exact execEntry_answers (bagLookupCommand_keeps fetched) h s
  | hotPolicySet h => exact execAt_answers hotPolicyCommand_keeps _ h s
  | rowsRead h fetched => exact execEntry_answers (rowsReadCommand_keeps fetched) h s
  | indexCreate h => exact execCommand_answers indexCreateCommand_keeps h s
  | indexDrop h => exact execAt_answers indexDropCommand_keeps _ h s
  | indexLoad h => exact execAt_answers indexLoadCommand_keeps _ h s
  | vecInsert h => exact execAt_answers vecInsertCommand_keeps _ h s
  | vecDelete h => exact execAt_answers vecDeleteCommand_keeps _ h s
  | search h payloads => exact nextOf_answers (searchRow_pending _ _ s)
  | indexMerge h => exact execAt_answers indexMergeCommand_keeps _ h s
  | indexStats h => exact execAt_answers indexStatsCommand_keeps _ h s
  | selectTopk h => exact execEntry_answers selectTopkCommand_keeps h s
  | selectMerge h => exact execEntry_answers selectMergeCommand_keeps h s
  | tokenizerLoad h => exact execEntry_answers tokenizerLoadCommand_keeps h s
  | tokenize h => exact execEntry_answers tokenizeCommand_keeps h s
  | detokStreamOpen h => exact execDetokStreamOpen_answers h s
  | detokStreamFeed h => exact execDetokStreamFeed_answers h s
  | packPrompt h => exact execEntry_answers packPromptCommand_keeps h s
  | grammarLoad h => exact execEntry_answers grammarLoadCommand_keeps h s
  | stopSet h => exact execEntry_answers stopSetCommand_keeps h s
  | requestSubmit h => exact execEntry_answers requestSubmitCommand_keeps h s
  | requestCancel h => exact execEntry_answers requestCancelCommand_keeps h s
  | requestStatus h => exact execEntry_answers requestStatusCommand_keeps h s
  | kvExport h => exact execEntry_answers kvExportCommand_keeps h s
  | kvImport h => exact execEntry_answers kvImportCommand_keeps h s
  | pipelineDefine h => exact execPipelineDefine_answers h s
  | pipelineDelete h => exact execPipelineDelete_answers h s
  | sharesSet h => exact execCommand_answers sharesSetCommand_keeps h s
  | budgetSet h => exact execBudgetSet_answers h s
  | budgetRemove h => exact execBudgetRemove_answers h s
  | contractSet h => exact execContractSet_answers h s
  | contractDelete h => exact execContractDelete_answers h s
  | accountRead h => exact execCommand_answers accountReadCommand_keeps h s
  | frontForm h => exact execCommand_answers frontFormCommand_keeps h s
  | frontJoinCandidate h => exact nextOf_answers (frontJoinRow_pending _ _ s)
  | frontJoinAdmit h => exact nextOf_answers (frontJoinRow_pending _ _ s)
  | frontLeave h => exact execCommand_answers frontLeaveCommand_keeps h s
  | frontView h => exact execAt_answers frontViewCommand_keeps _ h s
  | linkConfig h => exact execCommand_answers linkConfigCommand_keeps h s
  | linkStatus h => exact execCommand_answers linkStatusCommand_keeps h s
  | anchorSet h => exact execCommand_answers anchorSetCommand_keeps h s
  | breakSet h => exact execCommand_answers breakSetCommand_keeps h s
  | breakClear h => exact execCommand_answers breakClearCommand_keeps h s
  | halt h => exact execCommand_answers haltCommand_keeps h s
  | resume h => exact execCommand_answers resumeCommand_keeps h s
  | step h => exact execCommand_answers stepCommand_keeps h s
  | stateRead h => exact execCommand_answers stateReadCommand_keeps h s
  | trackRead h => exact execCommand_answers trackReadCommand_keeps h s
  | gaugeArm h => exact execGaugeArm_answers h s
  | gaugeRead h => exact execGaugeRead_answers h s
  | gaugeReadClear h => exact execGaugeReadClear_answers h s
  | gaugeDisarm h => exact execGaugeDisarm_answers h s
  | countersRead h => exact execCommand_answers countersReadCommand_keeps h s
  | histogramRead h => exact execEntry_answers histogramReadCommand_keeps h s
  | faultLogRead h => exact execCommand_answers faultLogReadCommand_keeps h s
  | sensorsRead h => exact execCommand_answers sensorsReadCommand_keeps h s
  | powerCapSet h => exact execCommand_answers powerCapCommand_keeps h s
  | statePolicySet h => exact execCommand_answers statePolicyCommand_keeps h s
  | fwStage h => exact execCommand_answers fwStageCommand_keeps h s
  | fwActivate h => exact execFwActivate_answers h s
  | fwCommitSvn h => exact execFwCommitSvn_answers h s
  | memberResetModule h => exact execMemberResetModule_answers h s
  | memberResetPowerCycle h => exact execMemberResetPowerCycle_answers h s
  | resetDelayExpiry now => exact nextOf_answers (resetDelayExpiry_pending _ s)
  | packetTaken ring bytes now => exact nextOf_answers (packetTaken_pending _ _ _ s)
  | fencedCommandBegin h => exact execFencedCommandBegin_answers h s
  | txnTimeout session txn now => exact nextOf_answers (txnTimeout_pending _ _ _ s)
  | sqTailWrite ring value => exact execSqTailWrite_answers ring value s
  | cqHeadWrite ring value => exact execCqHeadWrite_answers ring value s
  | sqEnable ring => exact execSqEnable_answers ring s
  | sqDisable ring => exact execSqDisable_answers ring s
  | cqEnable ring irqEn => exact execCqEnable_answers ring irqEn s
  | cqDisable ring irqEn => exact execCqDisable_answers ring irqEn s
  | modParityClear => exact execModParityClear_answers s
  | irqEventClear value => exact execIrqEventClear_answers value s
  | irqSqErrClear word value => exact execIrqSqErrClear_answers word value s
  | irqCqErrClear word value => exact execIrqCqErrClear_answers word value s
  | irqEventEnWrite value => exact execIrqEventEnWrite_answers value s
  | dbgPeekRead => exact nextOf_answers (dbgPeekRead_pending s)
  | dbgPeekWrite value => exact nextOf_answers (dbgPeekWrite_pending _ s)
  | clkTimeLoRead => exact execClkTimeLoRead_answers s
  | telSnap => exact execTelSnap_answers s
  | telSnapshotTaken now => exact nextOf_answers (telSnapshotTaken_pending _ s)
  | registerWrite bar offset size value => exact execRegisterWrite_answers bar offset size value s
  | msixVectorUnmask vector => exact execMsixVectorUnmask_answers vector s
  | pmeStatusClear status enable => exact execPmeStatusClear_answers status enable s
  | cqCoalExpiry ring now => exact execCqCoalExpiry_answers ring now s
  | hostReadCompletion what good => exact execHostReadCompletion_answers what good s
  | hostCompletionTimeout what => exact execHostCompletionTimeout_answers what s
  | functionLevelReset => exact nextOf_answers (flrOrHold_pending _ s)
  | hotReset => exact nextOf_answers (flrOrHold_pending _ s)
  | d3hotEntry => exact execD3hotEntry_answers s
  | d0Return => exact execD0Return_answers s
  | hostLinkDown => exact execHostLinkDown_answers s
  | hostLinkRetrain => exact execHostLinkRetrain_answers s
  | hostLinkTrained rate width flit => exact execHostLinkTrained_answers rate width flit s
  | refclkLoss => exact execRefclkLoss_answers s
  | perstAssert => exact execPerstAssert_answers s
  | perstRelease => exact execPerstRelease_answers s
  | coldReset vin => exact execColdReset_answers vin s
  | calmIslandStart slotId mfgMode => exact execCalmIslandStart_answers slotId mfgMode s
  | powerOff => exact execPowerOff_answers s
  | inputInRange vin => exact execInputInRange_answers vin s
  | hvEnAssert tj => exact execHvEnAssert_answers tj s
  | hvEnDeassert => exact execHvEnDeassert_answers s
  | railsInRegulation => exact execRailsInRegulation_answers s
  | railFailure rail => exact execRailFailure_answers rail s
  | brownOut vin now => exact execBrownOut_answers vin now s
  | thermalTrip tj die now => exact execThermalTrip_answers tj die now s
  | oscillatorLoss domain => exact execOscillatorLoss_answers domain s
  | entropyFail => exact execEntropyFail_answers s
  | boot passed countersValid => exact nextOf_answers (boot_pending _ _ s)
  | fwReady now => exact nextOf_answers (fwReady_pending _ s)
  | bootTimeout => exact execBootTimeout_answers s
  | recoveryBundleChunk offset bytes => exact execRecoveryBundleChunk_answers offset bytes s
  | watchdogExpiry core now => exact execWatchdogExpiry_answers core now s
  | managementTick sample => exact nextOf_answers (managementTick_pending _ s)
  | fastClamp now => exact execFastClamp_answers now s
  | fastClampEnd now => exact execFastClampEnd_answers now s
  | schedulingTimer now => exact nextOf_answers (schedulingTimer_pending _ s)
  | itemRelease item work now => exact nextOf_answers (itemRelease_pending _ _ _ s)
  | thawComplete quadrant now => exact nextOf_answers (thawComplete_pending _ _ s)
  | frost quadrant now => exact nextOf_answers (frost_pending _ _ s)
  | deepFrost quadrant now => exact nextOf_answers (deepFrost_pending _ _ s)
  | memSelfRefresh now => exact execMemSelfRefresh_answers now s
  | hubDomainGate domain now => exact nextOf_answers (hubDomainGate_pending _ _ s)
  | patrolScrub addr outcome => exact execPatrolScrub_answers addr outcome s
  | ppsEdge now => exact execPpsEdge_answers now s
  | ppsLoss now => exact execPpsLoss_answers now s
  | mma cell parity ecc => exact nextOf_answers (mma_pending _ _ _ s)
  | mld cell ecc => exact nextOf_answers (mld_pending _ _ s)
  | mdr cell parity => exact nextOf_answers (mdr_pending _ _ s)
  | mrs cell parity ecc => exact nextOf_answers (mrs_pending _ _ _ s)
  | mfence hart => exact nextOf_answers (mfence_pending _ s)
  | arrayIssue hart => exact nextOf_answers (arrayIssue_pending _ s)
  | vectorIssue hart => exact nextOf_answers (vectorIssue_pending _ s)
  | vadd cell => exact nextOf_answers (varith_pending _ _ s)
  | vsub cell => exact nextOf_answers (varith_pending _ _ s)
  | vmul cell => exact nextOf_answers (varith_pending _ _ s)
  | vfma cell => exact nextOf_answers (varith_pending _ _ s)
  | vmax cell => exact nextOf_answers (varith_pending _ _ s)
  | vmin cell => exact nextOf_answers (varith_pending _ _ s)
  | vdiv cell => exact nextOf_answers (varith_pending _ _ s)
  | vsqrt cell => exact nextOf_answers (varith_pending _ _ s)
  | vrsq cell => exact nextOf_answers (varith_pending _ _ s)
  | vrcp cell => exact nextOf_answers (varith_pending _ _ s)
  | vexp2 cell => exact nextOf_answers (varith_pending _ _ s)
  | vlog2 cell => exact nextOf_answers (varith_pending _ _ s)
  | vand cell => exact nextOf_answers (varith_pending _ _ s)
  | vor cell => exact nextOf_answers (varith_pending _ _ s)
  | vxor cell => exact nextOf_answers (varith_pending _ _ s)
  | vcmplt cell => exact nextOf_answers (varith_pending _ _ s)
  | vsel cell => exact nextOf_answers (varith_pending _ _ s)
  | vscal cell => exact nextOf_answers (vscal_pending _ s)
  | vld cell ecc => exact nextOf_answers (vld_pending _ _ s)
  | vst cell => exact nextOf_answers (vst_pending _ s)
  | vredsum cell => exact nextOf_answers (vreduce_pending _ _ _ s)
  | vredmax cell => exact nextOf_answers (vreduce_pending _ _ _ s)
  | vextr cell => exact nextOf_answers (vextr_pending _ s)
  | vins cell => exact nextOf_answers (vins_pending _ s)
  | vcvt cell => exact nextOf_answers (vcvt_pending _ s)
  | vseed cell => exact nextOf_answers (vseed_pending _ s)
  | vfence hart => exact nextOf_answers (vfence_pending _ s)
  | dsub hart => exact nextOf_answers (dsub_pending _ s)
  | dwait hart => exact nextOf_answers (dwait_pending _ s)
  | dpoll hart => exact nextOf_answers (dpoll_pending _ s)
  | dmaComplete hart tag outcome addr => exact nextOf_answers (dmaComplete_pending _ _ _ _ s)
  | remoteWriteArrival hart tag => exact nextOf_answers (remoteWriteArrival_pending _ _ s)
  | bar hart => exact nextOf_answers (bar_pending _ s)
  | barrierDeadlock h => exact nextOf_answers (barrierDeadlock_pending _ s)
  | wopen hart => exact nextOf_answers (wopen_pending _ s)
  | wclose hart => exact nextOf_answers (wclose_pending _ s)
  | scalarInstruction hart ecc => exact nextOf_answers (scalarInstruction_pending _ _ s)
  | ecall hart => exact nextOf_answers (ecall_pending _ s)
  | ebreak hart => exact nextOf_answers (ebreak_pending _ s)
  | kernelRunCommit h cycles => exact nextOf_answers (kernelRunCommit_pending _ _ s)
  | layerRunCommit h => exact nextOf_answers (layerRunCommit_pending _ s)
  | commandDeadline h now => exact nextOf_answers (commandDeadline_pending _ _ s)
  | haltDrainComplete h => exact nextOf_answers (haltDrainComplete_pending _ s)
  | stepStallTimeout h => exact nextOf_answers (stepStallTimeout_pending _ s)
  | tierAccessComplete h addr cause stallNs outcome => exact nextOf_answers (tierAccessComplete_pending _ _ _ _ _ s)
  | stallLimitExpiry h addr cause stallNs now => exact nextOf_answers (stallLimitExpiry_pending _ _ _ _ _ s)
  | pageFillComplete page outcome => exact nextOf_answers (pageFillComplete_pending _ _ s)
  | writeBackComplete page good => exact nextOf_answers (writeBackComplete_pending _ _ s)
  | rowUpdateApply => exact nextOf_answers (rowUpdateApply_pending s)
  | hotWindowEnd table counts now => exact nextOf_answers (hotWindowEnd_pending _ _ _ s)
  | retrievalStage r fetched payloads now => exact nextOf_answers (retrievalStage_pending _ _ _ _ s)
  | prefillStage r fetched now => exact execPrefillStage_answers r fetched now s
  | decodeStep r fetched now => exact execDecodeStep_answers r fetched now s
  | requestFree r => exact execRequestFree_answers r s
  | pageReservation r now => exact nextOf_answers (pageReservation_pending _ _ s)
  | chunkReservation r now => exact execChunkReservation_answers r now s
  | chunkTimer r now => exact execChunkTimer_answers r now s
  | requestDeadline r now => exact execRequestDeadline_answers r now s
  | budgetRefill tenant now => exact nextOf_answers (budgetRefill_pending _ _ s)
  | contractWindowJudged tenant n => exact nextOf_answers (contractWindowJudged_pending _ _ s)
  | histogramWindow now => exact nextOf_answers (histogramWindow_pending _ s)
  | candidacyExpiry now => exact execCandidacyExpiry_answers now s
  | candidacyWaitTimeout h now => exact nextOf_answers (candidacyTimeout_pending _ _ s)
  | voteTimeout h now => exact execVoteTimeout_answers h now s
  | viewInstallDecision now => exact nextOf_answers (viewDecision_pending _ s)
  | peerUnreachable peer now => exact execPeerUnreachable_answers peer now s
  | offsetStale now => exact execOffsetStale_answers now s
  | portTrainingComplete port width => exact nextOf_answers (portTrainingComplete_pending _ _ s)
  | laneLoss port lane => exact nextOf_answers (laneLoss_pending _ _ s)
  | portSignalLoss port => exact execPortSignalLoss_answers port s
  | portSignalDetect port => exact execPortSignalDetect_answers port s
  | retrainTimeout port => exact nextOf_answers (retrainTimeout_pending _ s)
  | dadComplete port inUse => exact execDadComplete_answers port inUse s
  | neighborSolicitation port target probe => exact execNeighborSolicitation_answers port target probe s
  | neighborAdvertisement port target link => exact execNeighborAdvertisement_answers port target link s
  | icmpv6EchoRequest port data => exact execIcmpv6EchoRequest_answers port data s
  | packetTooBig port => exact execPacketTooBig_answers port s
  | flitNak port ack => exact execFlitNak_answers port ack s
  | flitDamaged port fec => exact execFlitDamaged_answers port fec s
  | flitHello port uid nport seq ack => exact execFlitHello_answers port uid nport seq ack s
  | flitTime port sent arrived ack => exact execFlitTime_answers port sent arrived ack s
  | helloSend port => exact execHelloSend_answers port s
  | ackStall port => exact execAckStall_answers port s
  | segmentData port seq ack bytes => exact execSegmentData_answers port seq ack bytes s
  | segmentAck port seq ack bytes => exact execSegmentAck_answers port seq ack bytes s
  | retransmitTimeout peer channel => exact execRetransmitTimeout_answers peer channel s
  | tile peer plain => exact nextOf_answers (tileMessage_pending _ _ s)
  | kvShipOpen peer plain => exact execKvShipOpen_answers peer plain s
  | kvShipAccept peer plain => exact execKvShipAccept_answers peer plain s
  | kvShipPage peer plain => exact execKvShipPage_answers peer plain s
  | kvShipAbort peer plain => exact execKvShipAbort_answers peer plain s
  | kvShipRefuse peer plain => exact execKvShipRefuse_answers peer plain s
  | rowUpd peer plain => exact nextOf_answers (rowUpd_pending _ _ s)
  | rowReplInstall peer plain => exact nextOf_answers (rowReplInstall_pending _ _ s)
  | rowReplDrop peer plain => exact nextOf_answers (rowReplDrop_pending _ _ s)
  | rowReplAck peer plain => exact nextOf_answers (rowReplAck_pending _ _ s)
  | searchReq peer plain => exact nextOf_answers (searchReq_pending _ _ s)
  | searchResp peer plain => exact nextOf_answers (searchResp_pending _ _ s)
  | selectMergeMsg peer plain => exact nextOf_answers (selectMergeMsg_pending _ _ s)
  | cmdFwdForward peer plain => exact execCmdFwdForward_answers peer plain s
  | cmdFwdReply peer plain => exact execCmdFwdReply_answers peer plain s
  | cmdFwdPrepare peer plain => exact execCmdFwdPrepare_answers peer plain s
  | cmdFwdVote peer plain => exact execCmdFwdVote_answers peer plain s
  | cmdFwdCommit peer plain now => exact execCmdFwdCommit_answers peer plain now s
  | cmdFwdAbort peer plain => exact execCmdFwdAbort_answers peer plain s
  | cmdFwdDecision peer plain => exact execCmdFwdDecision_answers peer plain s
  | cmdFwdDecisionAck peer plain => exact execCmdFwdDecisionAck_answers peer plain s
  | timeSyncSend now => exact nextOf_answers (timeSyncSend_pending _ s)
  | timeSyncSync peer plain now => exact execTimeSyncSync_answers peer plain now s
  | timeSyncFollowUp peer plain now => exact execTimeSyncFollowUp_answers peer plain now s
  | timeSyncDelayReq peer plain now => exact execTimeSyncDelayReq_answers peer plain now s
  | timeSyncDelayResp peer plain now => exact execTimeSyncDelayResp_answers peer plain now s
  | ptpSync ptpDomain now => exact execPtpSync_answers ptpDomain now s
  | ptpFollowUp ptpDomain sent => exact execPtpFollowUp_answers ptpDomain sent s
  | ptpDelayReq port ptpDomain now => exact execPtpDelayReq_answers port ptpDomain now s
  | ptpDelayResp ptpDomain stamp now => exact execPtpDelayResp_answers ptpDomain stamp now s
  | heartbeat peer plain now => exact nextOf_answers (heartbeat_pending _ _ _ s)
  | frontViewPropose peer plain => exact execFrontViewPropose_answers peer plain s
  | frontViewAccept peer plain => exact execFrontViewAccept_answers peer plain s
  | frontViewInstall peer plain now => exact execFrontViewInstall_answers peer plain now s
  | frontViewCatchUp peer plain => exact execFrontViewCatchUp_answers peer plain s
  | frontViewAdj peer plain => exact nextOf_answers (frontViewAdj_pending _ _ s)
  | clearFaults => exact execClearFaults_answers s
  | statusByte => exact execStatusByte_answers s
  | statusWord => exact execStatusWord_answers s
  | statusInput => exact execStatusInput_answers s
  | statusTemperature => exact execStatusTemperature_answers s
  | readVin => exact execReadVin_answers s
  | readIin => exact execReadIin_answers s
  | readTemperature1 => exact execReadTemperature1_answers s
  | readPin => exact execReadPin_answers s
  | pmbusRevision => exact execPmbusRevision_answers s
  | mfrId => exact execMfrId_answers s
  | mfrModel => exact execMfrModel_answers s
  | pmbusUnsupported code => exact execPmbusUnsupported_answers code s
  | alertResponse => exact execAlertResponse_answers s
  | smbusClockTimeout => exact execSmbusClockTimeout_answers s
  | mctpControl request => exact execMctpControl_answers request s
  | getVersion request => exact execGetVersion_answers request s
  | getCapabilities request => exact execGetCapabilities_answers request s
  | negotiateAlgorithms request => exact execNegotiateAlgorithms_answers request s
  | getDigests request => exact execGetDigests_answers request s
  | getCertificate request => exact execGetCertificate_answers request s
  | challenge request => exact execChallenge_answers request s
  | getMeasurements request => exact execGetMeasurements_answers request s
  | spdmUnsupportedRequest request => exact execSpdmUnsupportedRequest_answers request s
  | doeDiscovery idx => exact execDoeDiscovery_answers idx s
  | tapReset => exact execTapReset_answers s
  | bypass => exact execBypass_answers s
  | idcode => exact execIdcode_answers s
  | samplePreload pins => exact execSamplePreload_answers pins s
  | extest pins => exact execExtest_answers pins s
  | extestPulse pins => exact execExtestPulse_answers pins s
  | extestTrain pins => exact execExtestTrain_answers pins s
  | jtagPrivate code => exact execJtagPrivate_answers code s
  | pluggableInsertion cage milliwatts => exact execPluggableInsertion_answers cage milliwatts s
  | quadrantDomainFailure quadrant => exact execQuadrantDomainFailure_answers quadrant s
  | busMasterEnableWrite enable => exact execBusMasterEnableWrite_answers enable s
  | configRegisterRead bar offset flipped => exact nextOf_answers (configRegisterRead_pending _ _ _ s)
  | pairSecretMessage uid response body => exact nextOf_answers (pairMessage_pending _ _ _ s)
  | candidacyCheckMessage uid matching prepared view => exact nextOf_answers (candidacyCheck_pending _ _ _ _ s)

/-- Settles O2: row by row, each operation of the model leaving the queue of the commands that wait. -/
theorem everyCommandAnswers : Obligations.EveryCommandAnswers := exec_answers

end Sys2Proof.Queue

/-! The vector rows that move data (R90, R96, R98, R157 to R162, R179): issue, loads and stores, reductions, lane moves, conversion, seeding,
fence. The frames of the core and vector rows come first: what a row does at the instruction it waits for. -/

namespace Sys2Proof.VectorMoves

open Sys2Proof Sys2Proof.Machine Sys2Proof.Laws

variable {s : State} {cell : Nat} {r : Run} {e : VectorEntry}

section Frames

variable {hart w g : Nat} {c : Core} {f : Fetched} {want : Nat → Bool}

/-- A row of a core runs at the instruction it wants, where no breakpoint is hit. -/
theorem coreRow_of_fetches {k : Run → Core → Fetched → Nat → State → State} (hf : Fetches s hart r c f w) (hw : want w = true) :
    coreRow hart want k s = settleStep r.serial (k r c f w s) := by
  obtain ⟨hmay, hfetch, hinsn, hbreak⟩ := hf
  have hpass : (if c.passBreak = true then none else breakAt s r hart c.pc.toNat) = none := by
    rcases hbreak with hb | hb <;> simp [hb]
  simp only [coreRow, hmay, hfetch, hinsn, hw, hpass, if_true]

/-- The entry whose turn it is stands at the head of the queue for the row that wants it. -/
theorem vectorHead_of_turn (ht : VectorTurn s cell r e g) (hw : want e.insn.toNat = true) : vectorHead s cell want = some (r, e) := by
  obtain ⟨hrun, hhead, hquad, -⟩ := ht
  obtain ⟨es, hq⟩ := List.head?_eq_some_iff.mp hhead
  simp only [vectorHead, hrun, hq, hw, hquad, decide_true, Bool.and_self, if_true]

/-- A vector row runs at the instruction it wants. -/
theorem vectorRow_of_turn {k : Run → VectorEntry → Cell → State → State} (ht : VectorTurn s cell r e g) (hw : want e.insn.toNat = true) :
    vectorRow cell want k s = k r e (cellOf s cell) s := by
  simp only [vectorRow, vectorHead_of_turn ht hw]

theorem group_of_turn (ht : VectorTurn s cell r e g) : (vecGroup e.insn.toNat == g) = true := by
  obtain ⟨-, -, -, hgroup⟩ := ht
  exact beq_iff_eq.mpr hgroup

/-- A row wants the words of its group that meet its further condition. -/
theorem wants_of_turn {p : Bool} (ht : VectorTurn s cell r e g) (hp : p = true) : (vecGroup e.insn.toNat == g && p) = true := by
  rw [group_of_turn ht, hp, Bool.and_self]

/-- Results with no NaN to trap take effect, R162. -/
theorem applyVector_of_no_trap {o : VecOut} (ho : trapsNan r.numeric = false ∨ o.nans = []) :
    applyVector r e cell o s = settleStep r.serial (popVector cell (countRun r.serial o.counts (setCell cell o.cell s))) := by
  have hno : (trapsNan r.numeric && !o.nans.isEmpty) = false := by
    rcases ho with h | h <;> simp [h]
  simp only [applyVector, hno, Bool.false_eq_true, if_false]

end Frames

section Registers

variable (c : Core) {rd n : Nat} (v : W64)

/-- A register written reads back, x0 apart. -/
theorem xget_xset_self (h : rd ≠ 0) : xget (xset c rd v) rd = v := by
  unfold xget xset
  by_cases hv : v = 0#64 <;> simp [h, hv, kgetD]

/-- A register written leaves the others. -/
theorem xget_xset_ne (h : n ≠ rd) : xget (xset c rd v) n = xget c n := by
  unfold xget xset
  by_cases hrd : rd = 0
  · simp only [hrd, if_true]
  · by_cases hv : v = 0#64 <;> simp [hrd, hv, h, kgetD]

end Registers

section Issue

variable {hart w : Nat} {c : Core} {f : Fetched}

/-- The entry that a core's vector instruction becomes: the word with the values of its source registers and of `vcvtcfg`, R156. -/
def issued (hart w : Nat) (c : Core) : VectorEntry :=
  ⟨BitVec.ofNat 32 w, (xget c (bits w 19 15)).toNat, (xget c (bits w 24 20)).toNat, csrOf c 0x8C0, hart, c.pc⟩

/-- The state with the instruction at the end of its cell's queue, and the queue's mark moved, R582. -/
def enqueued (s : State) (hart w : Nat) (c : Core) : State :=
  noteHigh (hart / 8) 1 ((cellOf s (hart / 8)).vectorQ.length + 1)
    (setCell (hart / 8) { cellOf s (hart / 8) with vectorQ := (cellOf s (hart / 8)).vectorQ ++ [issued hart w c] } s)

/-- A legal vector instruction with room in the queue enters it; only VEXTR keeps its core, R158, R159. -/
theorem vectorIssue_enters (hf : Fetches s hart r c f w) (hopc : w % 128 = 0x2B) (hcustom : coreCustom w = false)
    (hlegal : vectorLegal w (csrOf c 0x8C0).toNat = true) (hstall : c.stall ≠ .extract) (hroom : (cellOf s (hart / 8)).vectorQ.length < 16) :
    vectorIssue hart s = settleStep r.serial (if vecGroup w = 3 ∧ bits w 31 25 = 2
      then stallCore hart c .extract (enqueued s hart w c) else retireCustom r hart c (enqueued s hart w c)) := by
  have hwant : (w % 128 == 0x2B && !coreCustom w) = true := by simp [hopc, hcustom]
  refine (coreRow_of_fetches hf hwant).trans (congrArg (settleStep r.serial) ?_)
  simp only [hlegal, hstall, Nat.not_le.mpr hroom, Bool.not_true, Bool.false_eq_true, if_false, enqueued, issued]

/-- VFENCE waits for the earlier vector instructions of its own core, R161. -/
theorem vfence_waits (hf : Fetches s hart r c f w) (hw : IsCustom w 5 4) :
    vfence hart s = settleStep r.serial (if (cellOf s (hart / 8)).vectorQ.any (fun e => e.hart == hart)
      then stallCore hart c .fence s else retireCustom r hart c s) := by
  obtain ⟨hopc, hcustom, hgroup, hfunct⟩ := hw
  have hwant : (w % 128 == 0x2B && coreCustom w && vecGroup w == 5 && bits w 31 25 == 4) = true := by simp [hopc, hcustom, hgroup, hfunct]
  exact coreRow_of_fetches hf hwant

end Issue

section Memory

variable (ht : VectorTurn s cell r e 2)

include ht

/-- VLD loads the low SIZE bytes and zeroes the rest, R159. -/
theorem vld_loads (hload : bitOf e.insn.toNat 25 = false) (hfault : vmemFault e.rs1 (vmemBytes e.insn.toNat) = false)
    (hclean : scratchPoison s cell e.rs1 (vmemBytes e.insn.toNat) = none) :
    vld cell .none s = settleStep r.serial (popVector cell (setCell cell
      (vsetLanes (cellOf s cell) (bits e.insn.toNat 11 7) (lanesOf (scratchRead s cell e.rs1 (vmemBytes e.insn.toNat)))) s)) := by
  refine (vectorRow_of_turn ht (wants_of_turn ht (by rw [hload, Bool.not_false]))).trans ?_
  simp only [hfault, hclean, eccOutcome, eccNote, Bool.false_eq_true, if_false]

/-- VST stores the low SIZE bytes, R159. -/
theorem vst_stores (hstore : bitOf e.insn.toNat 25 = true) (hfault : vmemFault e.rs1 (vmemBytes e.insn.toNat) = false) :
    vst cell s = settleStep r.serial (popVector cell
      (scratchWrite cell e.rs1 ((vbytes (cellOf s cell) (bits e.insn.toNat 11 7)).take (vmemBytes e.insn.toNat)) 0xFFFF s)) := by
  refine (vectorRow_of_turn ht (wants_of_turn ht hstore)).trans ?_
  simp only [hfault, Bool.false_eq_true, if_false]

/-- A VLD of a bad address faults with CAUSE 2, R162, R179. -/
theorem vld_faults (hload : bitOf e.insn.toNat 25 = false) (hfault : vmemFault e.rs1 (vmemBytes e.insn.toNat) = true) :
    vld cell .none s = faultRun r e.hart 2 .outOfRange 0 e.pc.toNat e.rs1 e.insn.toNat s := by
  refine (vectorRow_of_turn ht (wants_of_turn ht (by rw [hload, Bool.not_false]))).trans ?_
  simp only [hfault, if_true]

/-- A VST of a bad address faults with CAUSE 2, R162, R179. -/
theorem vst_faults (hstore : bitOf e.insn.toNat 25 = true) (hfault : vmemFault e.rs1 (vmemBytes e.insn.toNat) = true) :
    vst cell s = faultRun r e.hart 2 .outOfRange 0 e.pc.toNat e.rs1 e.insn.toNat s := by
  refine (vectorRow_of_turn ht (wants_of_turn ht hstore)).trans ?_
  simp only [hfault, if_true]

omit ht

theorem vmemFault_of_good {off n : Nat} (hal : off % 64 = 0) (hin : inScratch off n = true) : vmemFault off n = false := by
  simp [vmemFault, hal, hin]

theorem vmemFault_of_misaligned {off n : Nat} (hal : off % 64 ≠ 0) : vmemFault off n = true := by
  simp [vmemFault, hal]

end Memory

section Lanes

/-- The hits of the lanes that are NaN, R162. -/
def nanLanes (ls : List Nat) : List NanHit :=
  ls.zipIdx.filterMap (fun p => if f32IsNan p.1 then some ⟨0, 0, p.2, p.1, 0⟩ else none)

/-- The NaN hits of a reduction: the lanes that are NaN, or the result where no lane is, R162. -/
def reductionNans (ls : List Nat) (v : Nat) : List NanHit :=
  if (nanLanes ls).isEmpty && f32IsNan v then [⟨5, 0, 0, v, 0⟩] else nanLanes ls

theorem reductionNans_of_no_nan {ls : List Nat} {v : Nat} (hls : ∀ x ∈ ls, f32IsNan x = false) (hv : f32IsNan v = false) :
    reductionNans ls v = [] := by
  have hins : nanLanes ls = [] := by
    refine List.filterMap_eq_nil_iff.mpr fun p hp => ?_
    simp [hls p.1 (List.fst_mem_of_mem_zipIdx hp)]
  simp only [reductionNans, hins, hv, Bool.and_false, Bool.false_eq_true, if_false]

/-- A reduction with no NaN to trap writes its tree into every lane, R159. -/
theorem vreduce_writes_tree {f7 : Nat} {op : Nat → Nat → Nat × NumCounts} {ls : List Nat} (ht : VectorTurn s cell r e 3)
    (hop : bits e.insn.toNat 31 25 = f7) (hls : vlanes (cellOf s cell) (bits e.insn.toNat 19 15) = ls)
    (hnan : trapsNan r.numeric = false ∨ ((∀ x ∈ ls, f32IsNan x = false) ∧ f32IsNan (reduceLanes op ls).1 = false)) :
    vreduce cell f7 op s = settleStep r.serial (popVector cell (countRun r.serial (reduceLanes op ls).2
      (setCell cell (vsetLanes (cellOf s cell) (bits e.insn.toNat 11 7) (List.replicate 128 (reduceLanes op ls).1)) s))) := by
  subst hls
  refine (vectorRow_of_turn ht (wants_of_turn ht (beq_iff_eq.mpr hop))).trans (applyVector_of_no_trap ?_)
  exact hnan.imp_right fun h => reductionNans_of_no_nan h.1 h.2

/-- The core that issued a VEXTR once its register is written: it goes on past the instruction, R159. -/
def extracted (r : Run) (hart rd : Nat) (v : W64) (k : Core) : Core :=
  { xset k rd v with
    pc := k.pc + 4
    cycle := k.cycle + 1
    instret := k.instret + 1
    stall := .none
    passBreak := false
    stopped := k.stopped || steps r hart
    reason := if steps r hart then 3 else k.reason }

theorem xget_extracted (r : Run) (hart rd : Nat) (v : W64) (k : Core) (n : Nat) :
    xget (extracted r hart rd v k) n = xget (xset k rd v) n := rfl

/-- VEXTR writes one register of its core and lets the core go on. -/
theorem vextr_extracts (ht : VectorTurn s cell r e 3) (hop : bits e.insn.toNat 31 25 = 2) :
    vextr cell s = settleStep r.serial (setCore e.hart (extracted r e.hart (bits e.insn.toNat 11 7)
      (BitVec.ofNat 64 (vget (cellOf s cell) (bits e.insn.toNat 19 15) (e.rs2 % 128))) (coreOf s e.hart)) (popVector cell s)) :=
  vectorRow_of_turn ht (wants_of_turn ht (beq_iff_eq.mpr hop))

/-- VINS replaces one lane, R159. -/
theorem vins_replaces_lane (ht : VectorTurn s cell r e 3) (hop : bits e.insn.toNat 31 25 = 3) :
    vins cell s = settleStep r.serial (popVector cell (setCell cell (vsetLanes (cellOf s cell) (bits e.insn.toNat 11 7)
      ((vlanes (cellOf s cell) (bits e.insn.toNat 11 7)).set (e.rs2 % 128) (e.rs1 % 2 ^ 32))) s)) :=
  vectorRow_of_turn ht (wants_of_turn ht (beq_iff_eq.mpr hop))

/-- VCVT leaves what the conversion gives, R96. -/
theorem vcvt_converts {o : VecOut} (ht : VectorTurn s cell r e 6) (ho : vcvtExec (cellOf s cell) e.insn.toNat e.vcvtcfg.toNat = o)
    (hnan : trapsNan r.numeric = false ∨ o.nans = []) :
    vcvt cell s = settleStep r.serial (popVector cell (countRun r.serial o.counts (setCell cell o.cell s))) := by
  subst ho
  have hrow : vcvt cell s = applyVector r e cell (vcvtExec (cellOf s cell) e.insn.toNat e.vcvtcfg.toNat) s :=
    vectorRow_of_turn ht (group_of_turn ht)
  exact hrow.trans (applyVector_of_no_trap hnan)

/-- VSEED seeds the generator of every lane, R90, R161. -/
theorem vseed_seeds (ht : VectorTurn s cell r e 5) :
    vseed cell s = settleStep r.serial (popVector cell (setCell cell
      { cellOf s cell with lanes := (List.range 128).map (fun l => (l, laneSeed (e.rs1 % 2 ^ 32) l)) } s)) :=
  vectorRow_of_turn ht (group_of_turn ht)

end Lanes

/-- Settles O18: each row by what its frame runs at the instruction whose turn it is. -/
theorem vectorMovesComplete : Obligations.VectorMovesComplete := by
  unfold Obligations.VectorMovesComplete
  refine ⟨?_, ?_, ?_, ?_, ?_, ?_, ?_, ?_, ?_, ?_⟩
  · rintro s hart r c f w hf hopc hcustom hlegal hstall hroom u rfl
    exact congrArg (nextOf s) (vectorIssue_enters hf hopc hcustom hlegal hstall hroom)
  · intro s cell r e ht hload hal hin hclean
    exact congrArg (nextOf s) (vld_loads ht hload (vmemFault_of_good hal hin) hclean)
  · intro s cell r e ht hstore hal hin
    exact congrArg (nextOf s) (vst_stores ht hstore (vmemFault_of_good hal hin))
  · intro s cell r e ht hal i hi
    have hfault : vmemFault e.rs1 (vmemBytes e.insn.toNat) = true := vmemFault_of_misaligned hal
    cases hop : bitOf e.insn.toNat 25 with
    | true =>
      obtain rfl : i = .vst cell := by simpa [hop] using hi
      exact congrArg (nextOf s) (vst_faults ht hop hfault)
    | false =>
      obtain rfl : i = .vld cell .none := by simpa [hop] using hi
      exact congrArg (nextOf s) (vld_faults ht hop hfault)
  · intro p hp s cell r e ht hop hnan
    rcases List.mem_pair.mp hp with rfl | rfl <;> exact congrArg (nextOf s) (vreduce_writes_tree ht hop rfl hnan)
  · intro s cell r e ht hop hrd
    refine ⟨_, congrArg (nextOf s) (vextr_extracts ht hop), ?_, rfl, rfl, rfl, fun n hn _ => ?_⟩
    · rw [xget_extracted, xget_xset_self _ _ hrd]
    · rw [xget_extracted, xget_xset_ne _ _ hn]
  · intro s cell r e ht hop
    exact congrArg (nextOf s) (vins_replaces_lane ht hop)
  · intro s cell r e ht hnan
    exact congrArg (nextOf s) (vcvt_converts ht rfl hnan)
  · intro s cell r e ht
    exact congrArg (nextOf s) (vseed_seeds ht)
  · intro s hart r c f w hf hw
    exact congrArg (nextOf s) (vfence_waits hf hw)

end Sys2Proof.VectorMoves

/-! The array rows (R118, R119, R125 to R128, R130, R131): issue, the tile operations at the head of the queue, fence. The frame of the
tile operations comes first: what a row does at the instruction whose turn it is, and what an instruction that drains nothing leaves. -/

namespace Sys2Proof.ArrayRows

open Sys2Proof Sys2Proof.Machine Sys2Proof.Laws

variable {s : State} {cell op : Nat} {r : Run} {e : ArrayEntry}

section Issue

variable {hart w : Nat} {c : Core} {f : Fetched}

/-- The entry that a core's array instruction becomes: the word with the values of its source registers and of the array CSRs, R119, R122. -/
def issued (hart w : Nat) (c : Core) : ArrayEntry :=
  ⟨BitVec.ofNat 32 w, (xget c (bits w 19 15)).toNat, (xget c (bits w 24 20)).toNat, arrayCsrs c, hart, c.pc⟩

/-- The state with the instruction at the end of its cell's queue, and the queue's mark moved, R582. -/
def enqueued (s : State) (hart w : Nat) (c : Core) : State :=
  noteHigh (hart / 8) 0 ((cellOf s (hart / 8)).arrayQ.length + 1)
    (setCell (hart / 8) { cellOf s (hart / 8) with arrayQ := (cellOf s (hart / 8)).arrayQ ++ [issued hart w c] } s)

/-- A legal array instruction with room in the queue enters it and retires, R118, R119. -/
theorem arrayIssue_enters (hf : Fetches s hart r c f w) (hopc : w % 128 = 0x0B) (hop : arrayOp w ≠ 4)
    (hlegal : arrayIssueFault w (arrayCfg (arrayCsrs c)) (issueSkinny (cellOf s (hart / 8))) = none)
    (hroom : (cellOf s (hart / 8)).arrayQ.length < 16) :
    arrayIssue hart s = settleStep r.serial (retireCustom r hart c (enqueued s hart w c)) := by
  have hwant : (w % 128 == 0x0B && !(arrayOp w == 4 && (arrayIssueFault w (arrayCfg []) false).isNone)) = true := by simp [hopc, hop]
  refine (VectorMoves.coreRow_of_fetches hf hwant).trans (congrArg (settleStep r.serial) ?_)
  simp only [hlegal, Nat.not_le.mpr hroom, if_false, enqueued, issued]

/-- MFENCE waits for the earlier array instructions of its own core, R131. -/
theorem mfence_waits (hf : Fetches s hart r c f w) (hopc : w % 128 = 0x0B) (hop : arrayOp w = 4)
    (hlegal : arrayIssueFault w (arrayCfg []) false = none) :
    mfence hart s = settleStep r.serial (if (cellOf s (hart / 8)).arrayQ.any (fun e => e.hart == hart)
      then stallCore hart c .fence s else retireCustom r hart c s) := by
  have hwant : (w % 128 == 0x0B && arrayOp w == 4 && (arrayIssueFault w (arrayCfg []) false).isNone) = true := by simp [hopc, hop, hlegal]
  exact VectorMoves.coreRow_of_fetches hf hwant

end Issue

section Frames

/-- The state with the results of an array instruction: its cell, its counts and its stores. -/
def withResults (r : Run) (cell : Nat) (o : ArrayOut) (s : State) : State :=
  o.stores.foldl (fun t x => scratchWrite cell x.1 x.2 0xFFFF t) (countRun r.serial o.counts (setCell cell o.cell s))

/-- Nothing stops the instruction: no fault, and no NaN that its run traps, R125, R102. -/
def Undisturbed (r : Run) (o : ArrayOut) : Prop := o.fault = none ∧ (trapsNan r.numeric = false ∨ o.nans = [])

@[simp] theorem countRun_cells (serial : Nat) (n : NumCounts) (s : State) :
    (countRun serial n s).compute.cells = s.compute.cells := by
  unfold countRun; split <;> rfl

@[simp] theorem cellOf_countRun (serial : Nat) (n : NumCounts) (s : State) (c : Nat) : cellOf (countRun serial n s) c = cellOf s c := by
  simp only [cellOf, countRun_cells]

@[simp] theorem countRun_mem (serial : Nat) (n : NumCounts) (s : State) : (countRun serial n s).mem = s.mem := by
  unfold countRun; split <;> rfl

@[simp] theorem countRun_tiers (serial : Nat) (n : NumCounts) (s : State) : (countRun serial n s).tiers = s.tiers := by
  unfold countRun; split <;> rfl

/-- What an instruction that drains nothing leaves: its cell, and the memory as it was. -/
theorem withResults_of_no_stores {o : ArrayOut} (ho : o.stores = []) (s : State) :
    cellOf (withResults r cell o s) cell = o.cell ∧ (withResults r cell o s).mem = s.mem ∧ (withResults r cell o s).tiers = s.tiers := by
  simp [withResults, ho]

/-- An instruction that nothing stops takes effect and leaves the queue. -/
theorem applyArray_of_undisturbed {o : ArrayOut} (ho : Undisturbed r o) :
    applyArray r e cell o s = settleStep r.serial (popArray cell (withResults r cell o s)) := by
  obtain ⟨hfault, hnan⟩ := ho
  have hno : (trapsNan r.numeric && !o.nans.isEmpty) = false := by
    rcases hnan with h | h <;> simp [h]
  simp only [applyArray, hfault, hno, Bool.false_eq_true, if_false, withResults]

/-- The entry whose turn it is stands at the head of the queue for the row of its operation. -/
theorem arrayHead_of_turn (ht : ArrayTurn s cell r e op) : arrayHead s cell op = some (r, e) := by
  obtain ⟨hrun, hhead, hquad, hop⟩ := ht
  obtain ⟨es, hq⟩ := List.head?_eq_some_iff.mp hhead
  simp only [arrayHead, hrun, hq, hop, hquad, and_self, if_true]

variable {reads : ArrayEntry → List (Nat × Nat)} {run : Run → Cell → ArrayEntry → State → ArrayOut} {count : Cell → ArrayEntry → State → State}

/-- A mismatch of the accumulators' parity ends the command before anything is read, R141, R596. -/
theorem arrayRow_of_parity (ht : ArrayTurn s cell r e op) (row : Nat) (ecc : EccEvent) :
    arrayRow cell op (some row) ecc reads run count s = accumulatorParity r cell row s := by
  simp only [arrayRow, arrayHead_of_turn ht]

/-- An undisturbed instruction whose operands hold no poisoned word counts its cycles, takes effect and leaves the queue. -/
theorem arrayRow_of_turn (ht : ArrayTurn s cell r e op) (hclean : poisonedRead s cell (reads e) = none)
    (ho : Undisturbed r (run r (cellOf s cell) e s)) :
    arrayRow cell op none .none reads run count s = settleStep r.serial (popArray cell
      (withResults r cell (run r (cellOf s cell) e s) (count (cellOf s cell) e s))) := by
  have hcount : ((run r (cellOf s cell) e s).fault.isNone && ((run r (cellOf s cell) e s).nans.isEmpty || !trapsNan r.numeric)) = true := by
    obtain ⟨hfault, hnan⟩ := ho
    rcases hnan with h | h <;> simp [hfault, h]
  simp only [arrayRow, arrayHead_of_turn ht, eccOutcome, eccNote, hclean, hcount, if_true]
  exact applyArray_of_undisturbed ho

/-- The reading of a single extent is clean where the extent is. -/
theorem poisonedRead_single {a n : Nat} (h : scratchPoison s cell a n = none) : poisonedRead s cell [(a, n)] = none := by
  simp only [poisonedRead, h]

end Frames

section Outcomes

variable (read : Nat → Nat → Bytes) (c : Cell) (e : ArrayEntry)

/-- MLD ZERO only starts a tile of zero accumulators, R126. -/
theorem mldExec_zero (hz : bitOf e.insn.toNat 26 = true) :
    mldExec read c e = ArrayOut.idle { c with acc := [], skinny := bitOf e.insn.toNat 25, group := 0, tail := false } := by
  simp only [mldExec, hz, if_true]

/-- MLD drains nothing. -/
theorem mldExec_stores : (mldExec read c e).stores = [] := by
  unfold mldExec; dsimp only; (repeat' split) <;> rfl

/-- MRS drains nothing. -/
theorem mrsExec_stores : (mrsExec read c e).stores = [] := by
  unfold mrsExec; split <;> rfl

/-- Streaming drains nothing. -/
theorem streamGroups_stores (g : ArrayCfg) (o : Outliers) (trap : Bool) (aBase bBase fuel i : Nat) (out : ArrayOut) :
    (streamGroups read g o trap aBase bBase fuel i out).stores = out.stores := by
  induction fuel generalizing i out with
  | zero => rfl
  | succ fuel ih =>
    unfold streamGroups
    dsimp only
    split
    · rfl
    · exact ih _ _

/-- An MMA that does not fault has advanced the group index, left its tail due and drained nothing, R116, R127. -/
theorem mmaExec_of_no_fault (trap : Bool) (h : (mmaExec read trap c e).fault = none) :
    (mmaExec read trap c e).cell.group = c.group + (arrayCfg e.csrs).groups ∧ (mmaExec read trap c e).cell.tail = true
      ∧ (mmaExec read trap c e).stores = [] := by
  revert h
  unfold mmaExec
  dsimp only
  split
  · intro h; cases h
  split
  · intro h; cases h
  split
  · intro h; cases h
  split
  · intro h; cases h
  · exact fun _ => ⟨rfl, rfl, streamGroups_stores _ _ _ _ _ _ _ _ _⟩

end Outcomes

section Rows

/-- MLD ZERO at the head of the queue, R126. -/
theorem mld_zeroes (ht : ArrayTurn s cell r e 1) (hz : bitOf e.insn.toNat 26 = true) :
    mld cell .none s = settleStep r.serial (popArray cell (countRun r.serial NumCounts.zero (setCell cell
      { cellOf s cell with acc := [], skinny := bitOf e.insn.toNat 25, group := 0, tail := false }
      (bump .arrLoad cell 1 (bump .arrSkinny cell (b2n (bitOf e.insn.toNat 25)) (bump .arrTail cell (if (cellOf s cell).tail then 6 else 0) s)))))) := by
  have hidle := mldExec_zero (scratchReader s cell) (cellOf s cell) e hz
  refine (arrayRow_of_turn ht ?_ ?_).trans ?_
  · simp only [hz, if_true, poisonedRead]
  · exact ⟨by rw [hidle]; rfl, .inr (by rw [hidle]; rfl)⟩
  · simp only [hidle, hz, if_true, withResults, ArrayOut.idle, List.foldl_nil, countTail]

/-- MLD of a tile in the scratchpad, R126. -/
theorem mld_loads (ht : ArrayTurn s cell r e 1) (hz : bitOf e.insn.toNat 26 = false)
    (hclean : scratchPoison s cell e.rs1 (((if bitOf e.insn.toNat 25 then min 16 (arrayCfg e.csrs).mv else (arrayCfg e.csrs).mv) - 1) * e.rs2
      + 4 * (arrayCfg e.csrs).nv) = none)
    (ho : Undisturbed r (mldExec (scratchReader s cell) (cellOf s cell) e)) :
    ∃ t, mld cell .none s = settleStep r.serial (popArray cell t)
      ∧ cellOf t cell = (mldExec (scratchReader s cell) (cellOf s cell) e).cell ∧ t.mem = s.mem ∧ t.tiers = s.tiers := by
  refine ⟨_, arrayRow_of_turn ht ?_ ho, withResults_of_no_stores (mldExec_stores _ _ _) _⟩
  simpa only [hz, Bool.false_eq_true, if_false] using poisonedRead_single hclean

/-- MDR at the head of the queue, R128. -/
theorem mdr_drains (ht : ArrayTurn s cell r e 2) (ho : Undisturbed r (mdrExec (cellOf s cell) e)) :
    mdr cell none s = settleStep r.serial (popArray cell (withResults r cell (mdrExec (cellOf s cell) e)
      (bump .arrDrain cell (if (cellOf s cell).skinny then 20 else 128) (bump .arrTail cell (if (cellOf s cell).tail then 6 else 0) s)))) :=
  arrayRow_of_turn ht rfl ho

/-- MRS at the head of the queue, R130. -/
theorem mrs_rescales (ht : ArrayTurn s cell r e 3) (hclean : scratchPoison s cell e.rs1 512 = none)
    (ho : Undisturbed r (mrsExec (scratchReader s cell) (cellOf s cell) e)) :
    ∃ t, mrs cell none .none s = settleStep r.serial (popArray cell t)
      ∧ cellOf t cell = (mrsExec (scratchReader s cell) (cellOf s cell) e).cell ∧ t.mem = s.mem ∧ t.tiers = s.tiers :=
  ⟨_, arrayRow_of_turn ht (poisonedRead_single hclean) ho, withResults_of_no_stores (mrsExec_stores _ _ _) _⟩

/-- MMA at the head of the queue, R127. -/
theorem mma_accumulates (ht : ArrayTurn s cell r e 0) (hclean : poisonedRead s cell (mmaReads s cell e) = none)
    (ho : Undisturbed r (mmaExec (scratchReader s cell) (trapsNan r.numeric) (cellOf s cell) e)) :
    ∃ t, mma cell none .none s = settleStep r.serial (popArray cell t)
      ∧ cellOf t cell = (mmaExec (scratchReader s cell) (trapsNan r.numeric) (cellOf s cell) e).cell ∧ t.mem = s.mem ∧ t.tiers = s.tiers := by
  obtain ⟨-, -, hstores⟩ := mmaExec_of_no_fault _ _ _ _ ho.1
  exact ⟨_, arrayRow_of_turn ht hclean ho, withResults_of_no_stores hstores _⟩

end Rows

/-- Settles O15: each row by what its frame runs at the instruction whose turn it is. -/
theorem arrayInstructionsComplete : Obligations.ArrayInstructionsComplete := by
  unfold Obligations.ArrayInstructionsComplete
  refine ⟨?_, ?_, ?_, ?_, ?_, ?_, ?_, ?_⟩
  · intro s hart r c f w hf hopc hop hlegal hroom
    exact congrArg (nextOf s) (arrayIssue_enters hf hopc hop hlegal hroom)
  · intro s cell r e ht hz
    exact congrArg (nextOf s) (mld_zeroes ht hz)
  · intro s cell r e ht hz hclean hfault hnan
    obtain ⟨t, hmld, hleft⟩ := mld_loads ht hz hclean ⟨hfault, hnan⟩
    exact ⟨t, congrArg (nextOf s) hmld, hleft⟩
  · intro s cell r e ht hfault hnan
    exact congrArg (nextOf s) (mdr_drains ht ⟨hfault, hnan⟩)
  · intro s cell r e ht hclean hfault hnan
    obtain ⟨t, hmrs, hcell, hkept⟩ := mrs_rescales ht hclean ⟨hfault, hnan⟩
    exact ⟨t, congrArg (nextOf s) hmrs, fun m n => by rw [hcell], hkept⟩
  · intro s cell r e ht hclean hfault hnan
    obtain ⟨hgroup, htail, -⟩ := mmaExec_of_no_fault _ _ _ _ hfault
    obtain ⟨t, hmma, hcell, hkept⟩ := mma_accumulates ht hclean ⟨hfault, hnan⟩
    exact ⟨t, congrArg (nextOf s) hmma, by rw [hcell, hgroup], by rw [hcell, htail], fun m n => by rw [hcell], hkept⟩
  · intro s cell row r e ht
    exact congrArg (nextOf s) (arrayRow_of_parity ht row .none)
  · intro s hart r c f w hf hopc hop hlegal
    exact congrArg (nextOf s) (mfence_waits hf hopc hop hlegal)

end Sys2Proof.ArrayRows

/-! The vector registers and the lane operations of the vector unit (R156 to R158, R161). A register is the 128 keys from `128 v` on of the
cell's map, of which the map lists those that are not zero. -/

namespace Sys2Proof.VectorLanes

open Sys2Proof Sys2Proof.Machine Sys2Proof.Laws

section Maps

variable {α : Type} (m n : KMap α) (i : Nat)

/-- The first of two joined maps that lists a key gives its value. -/
theorem kget_append : kget (m ++ n) i = (kget m i).or (kget n i) := by
  induction m with
  | nil => rfl
  | cons p m ih =>
    obtain ⟨k, v⟩ := p
    by_cases h : k = i
    · simp only [List.cons_append, kget, if_pos h, Option.some_or]
    · simpa only [List.cons_append, kget, if_neg h] using ih

/-- A map cut to some keys holds at those what it held. -/
theorem kget_filter_of_keep {keep : Nat → Bool} (h : keep i = true) : kget (m.filter fun p => keep p.1) i = kget m i := by
  induction m with
  | nil => rfl
  | cons p m ih =>
    obtain ⟨k, v⟩ := p
    by_cases hk : keep k = true
    · simp only [List.filter_cons, hk, if_true, kget, ih]
    · have hne : k ≠ i := fun e => hk (e ▸ h)
      simp only [List.filter_cons, hk, Bool.false_eq_true, if_false, kget, if_neg hne, ih]

/-- A map cut to some keys lists no other. -/
theorem kget_filter_of_drop {keep : Nat → Bool} (h : keep i = false) : kget (m.filter fun p => keep p.1) i = none := by
  refine kget_none_of_not_mem _ _ fun hi => ?_
  obtain ⟨p, hp, rfl⟩ := List.mem_map.mp hi
  exact absurd (List.mem_filter.mp hp).2 (by simp [h])

end Maps

section Registers

/-- The entries of the lanes `x` from the key `b` on: those that are not zero. -/
def laneEntries (b : Nat) (x : List Nat) (j : Nat) : KMap Nat :=
  ((x.zipIdx j).map fun p => (b + p.2, p.1)).filter fun p => p.2 != 0

/-- The entries of a register lie among its own keys. -/
theorem laneEntries_outside {b k j : Nat} {x : List Nat} (h : k < b + j ∨ b + j + x.length ≤ k) : kget (laneEntries b x j) k = none := by
  refine kget_none_of_not_mem _ _ fun hk => ?_
  obtain ⟨p, hp, rfl⟩ := List.mem_map.mp hk
  obtain ⟨⟨y, l⟩, hq, rfl⟩ := List.mem_map.mp (List.mem_filter.mp hp).1
  have hlo := List.le_snd_of_mem_zipIdx hq
  have hhi := List.snd_lt_add_of_mem_zipIdx hq
  simp only at h hlo hhi
  omega

/-- The entries of a register read as its lanes, the zeros left out among them. -/
theorem laneEntries_lane (b : Nat) (x : List Nat) (j l : Nat) : (kget (laneEntries b x j) (b + (j + l))).getD 0 = x.getD l 0 := by
  induction x generalizing j l with
  | nil => rfl
  | cons y x ih =>
    have hcons : laneEntries b (y :: x) j = if y != 0 then (b + j, y) :: laneEntries b x (j + 1) else laneEntries b x (j + 1) := by
      simp only [laneEntries, List.zipIdx_cons, List.map_cons, List.filter_cons]
    cases l with
    | zero =>
      by_cases hy : y = 0
      · have hnone : kget (laneEntries b x (j + 1)) (b + (j + 0)) = none := laneEntries_outside (.inl (by omega))
        rw [hcons]
        simp only [hy, bne_self_eq_false, Bool.false_eq_true, if_false, hnone, Option.getD_none, List.getD_cons_zero]
      · rw [hcons]
        simp [hy, kget]
    | succ l =>
      have hne : ¬ b + j = b + (j + (l + 1)) := by omega
      have hrest : (kget (laneEntries b x (j + 1)) (b + (j + (l + 1)))).getD 0 = x.getD l 0 := by
        rw [← ih (j + 1) l]; congr 3; omega
      rw [hcons, List.getD_cons_succ]
      by_cases hy : y = 0
      · simpa only [hy, bne_self_eq_false, Bool.false_eq_true, if_false] using hrest
      · simpa only [bne_iff_ne, ne_eq, hy, not_false_eq_true, if_true, kget, if_neg hne] using hrest

/-- The keys of a register written: those below it, its own entries, those above it. -/
theorem kget_vsetLanes {x : List Nat} (c : Cell) (v k : Nat) (hx : x.length = 128) :
    kget (vsetLanes c v x).vregs k = ((kget (c.vregs.filter fun p => decide (p.1 < v * 128)) k).or (kget (laneEntries (v * 128) x 0) k)).or
      (kget (c.vregs.filter fun p => decide (v * 128 + 128 ≤ p.1)) k) := by
  have hall : x.take 128 = x := List.take_of_length_le hx.le
  rw [← kget_append, ← kget_append]
  simp only [vsetLanes, hall, laneEntries]

/-- A lane of the register written reads what was written to it. -/
theorem vget_vsetLanes_self {x : List Nat} {l : Nat} (c : Cell) (v : Nat) (hx : x.length = 128) (hl : l < 128) :
    vget (vsetLanes c v x) v l = x.getD l 0 := by
  have hbelow : kget (c.vregs.filter fun p => decide (p.1 < v * 128)) (v * 128 + l) = none :=
    kget_filter_of_drop (keep := fun k => decide (k < v * 128)) _ _ (by simp)
  have habove : kget (c.vregs.filter fun p => decide (v * 128 + 128 ≤ p.1)) (v * 128 + l) = none :=
    kget_filter_of_drop (keep := fun k => decide (v * 128 + 128 ≤ k)) _ _ (by simpa using hl)
  have hlane := laneEntries_lane (v * 128) x 0 l
  rw [Nat.zero_add] at hlane
  simp only [vget, kgetD, kget_vsetLanes c v _ hx, hbelow, habove, Option.none_or, Option.or_none, hlane]

/-- A lane of another register reads as before. -/
theorem vget_vsetLanes_ne {x : List Nat} {u v l : Nat} (c : Cell) (hx : x.length = 128) (hne : u ≠ v) (hl : l < 128) :
    vget (vsetLanes c v x) u l = vget c u l := by
  have hmid : kget (laneEntries (v * 128) x 0) (u * 128 + l) = none := laneEntries_outside (by omega)
  simp only [vget, kgetD, kget_vsetLanes c v _ hx, hmid, Option.or_none]
  rcases Nat.lt_or_gt_of_ne hne with h | h
  · rw [kget_filter_of_keep (keep := fun k => decide (k < v * 128)) _ _ (by simp; omega),
      kget_filter_of_drop (keep := fun k => decide (v * 128 + 128 ≤ k)) _ _ (by simp; omega), Option.or_none]
  · rw [kget_filter_of_drop (keep := fun k => decide (k < v * 128)) _ _ (by simp; omega),
      kget_filter_of_keep (keep := fun k => decide (v * 128 + 128 ≤ k)) _ _ (by simp; omega), Option.none_or]

end Registers

/-- Settles O17: the keys of the registers do not meet, and within a register the lane is the key. -/
theorem vectorRegisterReadsBack : Obligations.VectorRegisterReadsBack := by
  unfold Obligations.VectorRegisterReadsBack
  exact fun c v x hx => ⟨fun l hl => vget_vsetLanes_self c v hx hl, fun u l hu hl => vget_vsetLanes_ne c hx hu hl⟩

section Lanes

variable {s : State} {cell : Nat} {r : Run} {e : VectorEntry}

/-- The register that an operation of the lanes leaves, R158. -/
theorem arithExec_cell (c : Cell) (f7 vd vs1 : Nat) (b : Nat → Nat) :
    (arithExec c f7 vd vs1 b).cell
      = vsetLanes c vd ((List.range 128).map fun l => (laneOp f7 (vget c vs1 l) (b l) (vget c vd l)).1) := by
  simp only [arithExec, List.map_map, Function.comp_def]

/-- An operation of VARITH with no NaN to trap writes its lanes and leaves the queue, R158. -/
theorem varith_writes_lanes {f7 : Nat} (ht : VectorTurn s cell r e 0) (hop : bits e.insn.toNat 31 25 = f7)
    (hnan : trapsNan r.numeric = false ∨ (arithExec (cellOf s cell) f7 (bits e.insn.toNat 11 7) (bits e.insn.toNat 19 15)
      (vget (cellOf s cell) (bits e.insn.toNat 24 20))).nans = []) :
    ∃ n, varith cell f7 s = settleStep r.serial (popVector cell (countRun r.serial n (setCell cell
      (vsetLanes (cellOf s cell) (bits e.insn.toNat 11 7) ((List.range 128).map fun l =>
        (laneOp f7 (vget (cellOf s cell) (bits e.insn.toNat 19 15) l) (vget (cellOf s cell) (bits e.insn.toNat 24 20) l)
          (vget (cellOf s cell) (bits e.insn.toNat 11 7) l)).1)) s))) := by
  rw [← arithExec_cell]
  exact ⟨_, (VectorMoves.vectorRow_of_turn ht (VectorMoves.wants_of_turn ht (beq_iff_eq.mpr hop))).trans (VectorMoves.applyVector_of_no_trap hnan)⟩

/-- VSCAL with no NaN to trap writes its lanes and leaves the queue, R157, R158. -/
theorem vscal_writes_lanes (ht : VectorTurn s cell r e 1)
    (hnan : trapsNan r.numeric = false ∨ (arithExec (cellOf s cell) (bits e.insn.toNat 31 25) (bits e.insn.toNat 11 7)
      (bits e.insn.toNat 19 15) (fun _ => e.rs2 % 2 ^ 32)).nans = []) :
    ∃ n, vscal cell s = settleStep r.serial (popVector cell (countRun r.serial n (setCell cell
      (vsetLanes (cellOf s cell) (bits e.insn.toNat 11 7) ((List.range 128).map fun l =>
        (laneOp (bits e.insn.toNat 31 25) (vget (cellOf s cell) (bits e.insn.toNat 19 15) l) (e.rs2 % 2 ^ 32)
          (vget (cellOf s cell) (bits e.insn.toNat 11 7) l)).1)) s))) := by
  have hrow : vscal cell s = applyVector r e cell (arithExec (cellOf s cell) (bits e.insn.toNat 31 25) (bits e.insn.toNat 11 7)
      (bits e.insn.toNat 19 15) (fun _ => e.rs2 % 2 ^ 32)) s := VectorMoves.vectorRow_of_turn ht (VectorMoves.group_of_turn ht)
  rw [← arithExec_cell _ _ _ _ (fun _ => e.rs2 % 2 ^ 32)]
  exact ⟨_, hrow.trans (VectorMoves.applyVector_of_no_trap hnan)⟩

/-- The rows of VARITH with their FUNCT7 and what they do to a lane: the lanes of vs1 and vs2 and the old lane of vd, R158. -/
def laneRows : List ((Nat → Instr) × Nat × (Nat → Nat → Nat → Nat)) :=
  [(Instr.vadd, 0x00, fun a b _ => (f32Add a b).1), (Instr.vsub, 0x01, fun a b _ => (f32Sub a b).1),
    (Instr.vmul, 0x02, fun a b _ => (f32Mul a b).1), (Instr.vfma, 0x03, fun a b d => (f32Fma a b d).1),
    (Instr.vmax, 0x04, fun a b _ => f32Max a b), (Instr.vmin, 0x05, fun a b _ => f32Min a b),
    (Instr.vdiv, 0x06, fun a b _ => (f32Div a b).1), (Instr.vsqrt, 0x08, fun a _ _ => (f32Sqrt a).1),
    (Instr.vrsq, 0x09, fun a _ _ => (f32Rsq a).1), (Instr.vrcp, 0x0A, fun a _ _ => (f32Div f32One a).1),
    (Instr.vexp2, 0x0B, fun a _ _ => (f32Exp2 a).1), (Instr.vlog2, 0x0C, fun a _ _ => (f32Log2 a).1),
    (Instr.vand, 0x10, fun a b _ => a &&& b), (Instr.vor, 0x11, fun a b _ => a ||| b), (Instr.vxor, 0x12, fun a b _ => a ^^^ b),
    (Instr.vcmplt, 0x13, fun a b _ => if f32Lt a b then 0xFFFFFFFF else 0), (Instr.vsel, 0x14, fun a b d => if d ≠ 0 then a else b)]

/-- Each row of VARITH runs the shared row at its FUNCT7, whose lane operation is its own. -/
theorem laneRows_run : ∀ p ∈ laneRows, (∀ cell s, exec (p.1 cell) s = nextOf s (varith cell p.2.1 s))
    ∧ ∀ a b d, p.2.2 a b d = (laneOp p.2.1 a b d).1 := by
  simp only [laneRows, List.forall_mem_cons]
  refine ⟨?_, ?_, ?_, ?_, ?_, ?_, ?_, ?_, ?_, ?_, ?_, ?_, ?_, ?_, ?_, ?_, ?_, List.forall_mem_nil _⟩ <;>
    exact ⟨fun _ _ => rfl, fun _ _ _ => rfl⟩

end Lanes

/-- Settles O16: each row of VARITH runs the shared row at its FUNCT7; VSCAL gives the second operand to every lane. -/
theorem vectorLaneOperationsComplete : Obligations.VectorLaneOperationsComplete := by
  unfold Obligations.VectorLaneOperationsComplete
  refine ⟨fun p hp s cell r e ht hop hnan => ?_, fun s cell r e ht hnan => ?_⟩
  · obtain ⟨hrow, hlane⟩ := laneRows_run p hp
    obtain ⟨n, hn⟩ := varith_writes_lanes ht hop hnan
    exact ⟨n, by simp only [hrow, hlane, hn]⟩
  · obtain ⟨n, hn⟩ := vscal_writes_lanes ht hnan
    exact ⟨n, congrArg (nextOf s) hn⟩

end Sys2Proof.VectorLanes

/-! The rows of a vane core (R143 to R148, R154, R164 to R171, R178, R179, R566): scalar instructions, ECALL and EBREAK, DMA, barriers, windows. -/

namespace Sys2Proof.CoreRows

open Sys2Proof Sys2Proof.Machine Sys2Proof.Laws

variable {s : State} {hart w : Nat} {r : Run} {c : Core} {f : Fetched}

section Frames

/-- A row of the custom instructions runs at the group and FUNCT7 it wants. -/
theorem coreRow_of_custom {g f7 : Nat} {k : Run → Core → Fetched → Nat → State → State} (hf : Fetches s hart r c f w) (hw : IsCustom w g f7) :
    coreRow hart (fun w => w % 128 == 0x2B && coreCustom w && vecGroup w == g && bits w 31 25 == f7) k s = settleStep r.serial (k r c f w s) := by
  obtain ⟨hopc, hcustom, hgroup, hfunct⟩ := hw
  exact VectorMoves.coreRow_of_fetches hf (by simp [hopc, hcustom, hgroup, hfunct])

/-- A core of a run that is not halted is not stepped. -/
theorem steps_of_no_halt (h : r.halt = .none) : steps r hart = false := by simp only [steps, h]

end Frames

section Scalar

/-- A scalar instruction runs at what the core fetches, R143, R145. -/
theorem scalarInstruction_of_fetches (hf : Fetches s hart r c f w) :
    scalarInstruction hart .none s = settleStep r.serial (scalarRun r hart c f w s) := by
  obtain ⟨hmay, hfetch, hinsn, hbreak⟩ := hf
  have hpass : (if c.passBreak then none else breakAt s r hart c.pc.toNat) = none := by
    rcases hbreak with hb | hb <;> simp [hb]
  simp only [scalarInstruction, hmay, hpass, hfetch, hinsn, eccOutcome, eccNote]

/-- A scalar instruction that retires and reads no poisoned word stores and leaves its core, R145, R154. -/
theorem scalarRun_of_retire {c0 c1 : Core} {n : Nat} {st : Option (Nat × Bytes)} {u : State} (hwait : waitCycles hart w c s = (c0, u))
    (hret : scalarExec c0 (scratchReader u (hart / 8)) u.frontTime w f.len = .retire c1 n st)
    (hclean : (scalarReads c0 w).bind (fun x => scratchPoison u (hart / 8) x.1 x.2) = none) :
    scalarRun r hart c f w s = coreStore hart st (afterRetire r hart c1) u := by
  simp only [scalarRun, hwait, hret, hclean]

/-- Only a read of `cycle` adds the cycles that the core has waited. -/
theorem waitCycles_of_other (h : ¬(w % 128 = 0x73 ∧ bits w 31 20 = 0xC00)) : waitCycles hart w c s = (c, s) := if_neg h

/-- A read of `cycle` moves the core's cycle count and the free values, and nothing else (log entry 7). -/
theorem waitCycles_of_cycle (h : w % 128 = 0x73 ∧ bits w 31 20 = 0xC00) :
    ∃ k, k = { c with cycle := k.cycle } ∧ waitCycles hart w c s = (k, setCore hart k { s with freeCtr := s.freeCtr + 1 }) :=
  ⟨_, rfl, if_pos h⟩

end Scalar

section Ends

/-- ECALL ends the core's part of the run, R178. -/
theorem ecall_ends (hf : Fetches s hart r c f 0x73) (hh : r.halt = .none) :
    ecall hart s = settleStep r.serial (setCore hart
      { c with life := .ended, stall := .none, passBreak := false, instret := c.instret + 1, cycle := c.cycle + 1 } s) := by
  refine (VectorMoves.coreRow_of_fetches hf rfl).trans (congrArg (settleStep r.serial) ?_)
  simp only [steps_of_no_halt hh, Bool.false_eq_true, if_false]

/-- EBREAK of a kernel without a breakpoint faults with CAUSE 8, R179. -/
theorem ebreak_faults (hf : Fetches s hart r c f 0x100073) (hb : s.dbg.breaks.find? (fun b => b.kind == 1 && b.handle == r.handle) = none) :
    ebreak hart s = settleStep r.serial (faultRun r hart 8 .badParam 0 c.pc.toNat 0 f.raw s) := by
  refine (VectorMoves.coreRow_of_fetches hf rfl).trans (congrArg (settleStep r.serial) ?_)
  simp only [hb, faultCore]

/-- EBREAK of a kernel with a breakpoint halts its run, R566. -/
theorem ebreak_hits {b : Breakpoint} (hf : Fetches s hart r c f 0x100073) (hh : r.halt = .none)
    (hb : s.dbg.breaks.find? (fun b => b.kind == 1 && b.handle == r.handle) = some b) :
    ebreak hart s = settleStep r.serial (hitBreak r b hart c.pc.toNat 2 s) := by
  refine (VectorMoves.coreRow_of_fetches hf rfl).trans (congrArg (settleStep r.serial) ?_)
  simp only [hb, steps_of_no_halt hh, Bool.false_eq_true, if_false]

end Ends

section Dma

/-- The tags that a core does not use, R165. -/
def freeTags (c : Core) : List Nat := (List.range 8).filter (fun t => !c.tags.contains t)

theorem mem_freeTags {t : Nat} : t ∈ freeTags c ↔ t < 8 ∧ t ∉ c.tags := by simp [freeTags]

/-- A core that uses fewer than eight tags has a free one. -/
theorem freeTags_ne_nil (h : c.tags.length < 8) : freeTags c ≠ [] := by
  intro hnil
  have hsub : List.range 8 ⊆ c.tags := fun t ht => by
    by_contra hmem
    have : t ∈ freeTags c := mem_freeTags.mpr ⟨List.mem_range.mp ht, hmem⟩
    simp [hnil] at this
  have hle := (List.nodup_range.subperm hsub).length_le
  rw [List.length_range] at hle
  omega

/-- A member chosen modulo the length is a member. -/
theorem nth_mod_mem {l : List Nat} (h : l ≠ []) (d : Nat) : nth l (d % l.length) ∈ l := by
  have hlt : d % l.length < l.length := Nat.mod_lt _ (List.length_pos_iff.mpr h)
  rw [nth, List.getD_eq_getElem _ _ hlt]
  exact List.getElem_mem hlt

/-- The core whose DSUB took a tag, R165. -/
def tagged (c : Core) (rd tag : Nat) : Core := { xset c rd (BitVec.ofNat 64 tag) with tags := tag :: c.tags }

theorem xget_tagged (rd tag n : Nat) : xget (tagged c rd tag) n = xget (xset c rd (BitVec.ofNat 64 tag)) n := rfl

/-- A DSUB of a good descriptor takes a free tag and adds its transfer, R164, R165. -/
theorem dsub_submits {b : Bytes} (hf : Fetches s hart r c f w) (hw : IsCustom w 4 0) (hroom : c.tags.length < 8)
    (hal : (xget c (bits w 19 15)).toNat % 8 = 0) (hspace : coreSpace (xget c (bits w 19 15)).toNat 32 = some 0)
    (hb : Memory.readN c.dm (xget c (bits w 19 15)).toNat 32 = b) (hgood : dmaFault s r b (transferOf b hart 0 c.pc w) = none) :
    ∃ tag ∈ freeTags c, dsub hart s = settleStep r.serial (retireCustom r hart (tagged c (bits w 11 7) tag)
      (noteHigh (hart / 8) 2 ((r.transfers.filter (fun t => t.hart / 8 == hart / 8)).length + 1)
        (setRun { r with transfers := r.transfers ++ [transferOf b hart tag c.pc w] } { s with freeCtr := s.freeCtr + 1 }))) := by
  refine ⟨_, nth_mod_mem (freeTags_ne_nil hroom) (Config.freeNat s.freeCtr), (coreRow_of_custom hf hw).trans (congrArg (settleStep r.serial) ?_)⟩
  simp only [Nat.not_le.mpr hroom, hal, hspace, hb, hgood, ne_eq, not_true_eq_false, if_false, drawFree, freeTags, tagged]

/-- A DSUB of a misaligned descriptor address faults with CAUSE 1 (log entry 26). -/
theorem dsub_misaligned (hf : Fetches s hart r c f w) (hw : IsCustom w 4 0) (hroom : c.tags.length < 8)
    (hal : (xget c (bits w 19 15)).toNat % 8 ≠ 0) :
    dsub hart s = settleStep r.serial (faultRun r hart 1 .badParam 0 c.pc.toNat (xget c (bits w 19 15)).toNat f.raw s) := by
  refine (coreRow_of_custom hf hw).trans (congrArg (settleStep r.serial) ?_)
  simp only [Nat.not_le.mpr hroom, hal, ne_eq, not_false_eq_true, if_false, if_true, faultCore]

end Dma

section Barriers

/-- A core that waits for nothing is at no barrier. -/
theorem atBar_of_no_stall {scope : Bool} {id : Nat} (h : (coreOf s hart).stall = .none) : atBar s scope id hart = false := by
  simp only [atBar, h]

/-- A BAR whose participants were all released retires, R171. -/
theorem bar_released (hf : Fetches s hart r c f w) (hw : IsCustom w 5 0) (hst : c.stall = .released) :
    bar hart s = settleStep r.serial (retireCustom r hart c s) := by
  refine (coreRow_of_custom hf hw).trans (congrArg (settleStep r.serial) ?_)
  simp only [hst, if_true]

/-- The operand of a BAR names a barrier: of the run, or of cores of the cell that the run uses, this one among them, at which no core of the
cell waits yet, R171. -/
def BarNames (s : State) (r : Run) (hart v : Nat) : Prop :=
  bitOf v 10 = true ∨ (bitOf (bits v 7 0) (hart % 8) = true ∧ (∀ k ∈ maskCores (bits v 7 0), bitOf r.coreMask k = true)
    ∧ ∀ k, k < 8 → atBar s false (bits v 9 8) (hart / 8 * 8 + k) = false)

/-- A BAR that names a barrier waits there, and the barriers that are complete let their participants go on, R171. -/
theorem bar_waits {v : Nat} (hf : Fetches s hart r c f w) (hw : IsCustom w 5 0) (hst : c.stall = .none) (hc : coreOf s hart = c)
    (hv : (xget c (bits w 19 15)).toNat = v) (hlt : v < 2048) (hn : BarNames s r hart v) :
    bar hart s = settleStep r.serial (tryBarriers r.serial (stallCore hart c (.bar (bitOf v 10) (bits v 9 8) (bits v 7 0)) s)) := by
  refine (coreRow_of_custom hf hw).trans (congrArg (settleStep r.serial) ?_)
  have hnot : ∀ scope id, atBar s scope id hart = false := fun _ _ => atBar_of_no_stall (hc.symm ▸ hst)
  simp only [hv, hst, hnot, Nat.not_le.mpr hlt, reduceCtorEq, Bool.false_eq_true, if_false, false_or]
  refine if_neg ?_
  rintro ⟨hscope, hbad⟩
  rcases hn with hrun | ⟨hself, hmask, hfree⟩
  · simp [hrun] at hscope
  · have hwaiting : ((List.range 8).map (fun k => hart / 8 * 8 + k)).filter (atBar s false (bits v 9 8)) = [] := by
      refine List.filter_eq_nil_iff.mpr fun x hx => ?_
      obtain ⟨k, hk, rfl⟩ := List.mem_map.mp hx
      simp [hfree k (List.mem_range.mp hk)]
    have hused : (maskCores (bits v 7 0)).any (fun k => !bitOf r.coreMask k) = false := by
      simpa [List.any_eq_false] using hmask
    simp [hself, hused, hwaiting] at hbad

end Barriers

section Windows

/-- The range of a WOPEN is aligned, of the scratchpad, and meets no open window, R168. -/
def Opens (x : Cell) (base v : Nat) : Prop :=
  base % 64 = 0 ∧ bits v 31 0 % 64 = 0 ∧ bits v 31 0 ≠ 0 ∧ bits v 31 0 ≤ 0xC00000 ∧ v < 2 ^ 34 ∧ inScratch base (bits v 31 0) = true
    ∧ khas x.windows (bits v 33 32) = false ∧ ∀ p ∈ x.windows, base + bits v 31 0 ≤ p.2.base ∨ p.2.base + p.2.len ≤ base

/-- WOPEN opens a window on such a range, R168. -/
theorem wopen_opens {base v : Nat} (hf : Fetches s hart r c f w) (hw : IsCustom w 5 1) (hbase : (xget c (bits w 19 15)).toNat = base)
    (hv : (xget c (bits w 24 20)).toNat = v) (ho : Opens (cellOf s (hart / 8)) base v) :
    wopen hart s = settleStep r.serial (retireCustom r hart c (noteHigh (hart / 8) 3 ((cellOf s (hart / 8)).windows.length + 1)
      (setCell (hart / 8) { cellOf s (hart / 8) with
        windows := kset (cellOf s (hart / 8)).windows (bits v 33 32) ⟨base, bits v 31 0⟩ } s))) := by
  obtain ⟨hal, hlen, hpos, hmax, hrsv, hin, hfree, hmeet⟩ := ho
  have hany : (cellOf s (hart / 8)).windows.any (fun p => decide (p.2.base < base + bits v 31 0) && decide (base < p.2.base + p.2.len)) = false := by
    refine List.any_eq_false.mpr fun p hp => ?_
    have := hmeet p hp
    simp only [Bool.and_eq_true, decide_eq_true_eq]
    omega
  refine (coreRow_of_custom hf hw).trans (congrArg (settleStep r.serial) ?_)
  simp only [hbase, hv, hal, hlen, hpos, hin, hfree, hany, Nat.not_lt.mpr hmax, Nat.not_le.mpr hrsv, ne_eq, not_true_eq_false,
    Bool.false_eq_true, reduceCtorEq, or_self, if_false]

end Windows

/-- Settles O19: each row by what its frame runs at the instruction the core stands at. The cycles that a read of `cycle` adds are a free value
(log entry 7); that DSUB judges the alignment of the descriptor address behind the free tag and before the rest is the model's choice (log entry 26). -/
theorem coreInstructionsComplete : Obligations.CoreInstructionsComplete := by
  unfold Obligations.CoreInstructionsComplete
  refine ⟨?_, ?_, ?_, ?_, ?_, ?_, ?_, ?_, ?_, ?_, ?_, ?_, ?_, ?_⟩
  · intro s hart r c c0 c1 f w n st u hf hwait hret hclean
    exact congrArg (nextOf s) ((scalarInstruction_of_fetches hf).trans (congrArg _ (scalarRun_of_retire hwait hret hclean)))
  · exact fun s hart w c h => waitCycles_of_other h
  · intro s hart w c hopc hcsr
    obtain ⟨k, hk, hwait⟩ := waitCycles_of_cycle (s := s) (hart := hart) (c := c) ⟨hopc, hcsr⟩
    rw [hwait, hk]
    exact ⟨rfl, fun n => rfl, rfl, rfl⟩
  · exact fun s hart r c f hf hh => congrArg (nextOf s) (ecall_ends hf hh)
  · exact fun s hart r c f hf hb => congrArg (nextOf s) (ebreak_faults hf hb)
  · exact fun s hart r c f b hf hh hb => congrArg (nextOf s) (ebreak_hits hf hh hb)
  · intro s hart r c f w hf hw hroom hal hspace hrd _ _ hgood
    obtain ⟨tag, htag, hdsub⟩ := dsub_submits hf hw hroom hal hspace rfl hgood
    obtain ⟨hlt, hfree⟩ := mem_freeTags.mp htag
    exact ⟨tag, _, hlt, hfree, rfl, (xget_tagged _ _ _).trans (VectorMoves.xget_xset_self c _ hrd), congrArg (nextOf s) hdsub⟩
  · exact fun s hart r c f w hf hw hroom hal => congrArg (nextOf s) (dsub_misaligned hf hw hroom hal)
  · exact fun s hart r c f w hf hw => congrArg (nextOf s) (coreRow_of_custom hf hw)
  · exact fun s hart r c f w hf hw => congrArg (nextOf s) (coreRow_of_custom hf hw)
  · exact fun s hart r c f w hf hw hst => congrArg (nextOf s) (bar_released hf hw hst)
  · exact fun s hart r c f w hf hw hst hc hlt hn => congrArg (nextOf s) (bar_waits hf hw hst hc rfl hlt hn)
  · exact fun s hart r c f w hf hw hal hlen hpos hmax hrsv hin hfree hmeet =>
      congrArg (nextOf s) (wopen_opens hf hw rfl rfl ⟨hal, hlen, hpos, hmax, hrsv, hin, hfree, hmeet⟩)
  · exact fun s hart r c f w hf hw => congrArg (nextOf s) (coreRow_of_custom hf hw)

end Sys2Proof.CoreRows

/-! Kernels, layers and chains (chapters 05, 06 and 13): the commands that load and begin them, their commits, the transfers of a run, deadlines,
and the release of a layer. The release comes last, with what its bookkeeping leaves alone. -/

namespace Sys2Proof.KernelRows

open Sys2Proof Sys2Proof.Machine Sys2Proof.Laws

variable {s s1 : State} {h : Nat} {f : Flight}

section Commands

/-- The kernel of the image that a KERNEL_LOAD names, R174. -/
def loadedKernel (s : State) (f : Flight) : Kernel :=
  let img := memRead s (par f 0 8) (par f 8 4)
  ⟨f.tenant, slice img 32 (fld img 8 4), slice img (32 + fld img 8 4) (fld img 12 4), fld img 16 4⟩

/-- KERNEL_LOAD adds its kernel under a fresh handle, R174. -/
theorem kernelLoad_run (s : State) (f : Flight) :
    ∃ t hd, kernelLoadCommand.run s f = .done t (okReply (toLe 4 hd ++ zeros 4)) ∧ kget t.compute.kernels hd = some (loadedKernel s f)
      ∧ t.mem = s.mem ∧ t.tiers = s.tiers ∧ t.compute.chains = s.compute.chains :=
  ⟨_, _, rfl, kget_kset_self _ _ _, rfl, rfl, rfl⟩

/-- KERNEL_RUN of a kernel that is loaded begins with an item of its cells, R177. -/
theorem kernelRun_run {k : Kernel} (hk : kget s.compute.kernels (par f 0 4) = some k) :
    kernelRunCommand.run s f = .begun
      (submitItem f (par f 4 2) (par f 16 4) (par f 16 4) true 0 (dieOrder (dieShares [(par f 24 8, par f 20 4)])).head?
        { s with compute := { s.compute with images := kset s.compute.images f.serial k } }) := by
  simp only [kernelRunCommand, hk]

/-- LAYER_RUN begins once it has found the frames of its outputs, R183, R219. -/
theorem layerRun_run (hfound : findFrames (some f.serial) f.tenant (layerShadow s f).length s = .found s1) :
    layerRunCommand.run s f = .begun (startLayers f s1) := by
  simp only [layerRunCommand, hfound]

/-- CHAIN_DEFINE adds its chain under a fresh handle, R188. -/
theorem chainDefine_run (s : State) (f : Flight) :
    ∃ t hd, chainDefineCommand.run s f = .done t (okReply (toLe 4 hd ++ zeros 4))
      ∧ kget t.compute.chains hd = some (chainFrom f.tenant f.params) ∧ t.mem = s.mem ∧ t.compute.kernels = s.compute.kernels :=
  ⟨_, _, rfl, kget_kset_self _ _ _, rfl, rfl⟩

end Commands

section Commits

/-- A complete run whose saturations stay in their limit commits, R178. -/
theorem kernelRunCommit_commits {cycles : Nat} {r : Run} (hr : runOf s h = some r) (hf : flightOf s h = some f) (hdone : runComplete s r = true)
    (hvote : r.voted = none) (hsat : overSatLimit r.numeric r.counts.sat = false) (happly : kernelApply f r cycles s = .done s1)
    (hprep : f.prep = none) :
    kernelRunCommit h cycles s = schedPoint (finish f (kernelResult cycles) s1) := by
  simp only [kernelRunCommit, hr, hf, hdone, hvote, hsat, happly, hprep, Bool.not_true, Option.isSome_none, Bool.or_self, Bool.false_eq_true,
    if_false]

/-- A LAYER_RUN whose layers have all run commits, R185. -/
theorem layerRunCommit_commits {job : LayerJob} {x : LayerResult} (hf : flightOf s h = some f)
    (hjob : s.compute.jobs.find? (fun j => j.serial == h) = some job) (hdone : par f 0 2 ≤ job.layer) (hidle : ∀ i ∈ s.sched.items, i.serial ≠ h)
    (hheld : job.held = none) (hresult : jobResult s f job (par f 0 2) = .ok x) (hsat : overSatLimit (par f 8 8) x.counts.sat = false)
    (happly : layerApply f job.shadowPages.length x s = .done s1) (hprep : f.prep = none) :
    layerRunCommit h s = finish f (layerReply job) (dropJob h s1) := by
  have hitems : s.sched.items.any (fun i => i.serial == h) = false := by simpa [List.any_eq_false] using hidle
  simp only [layerRunCommit, hf, hjob, Nat.not_lt.mpr hdone, hitems, hheld, hresult, hsat, happly, hprep, decide_false, Option.isSome_none,
    Bool.or_self, Bool.false_eq_true, if_false]

end Commits

section Transfers

variable {hart tag addr : Nat} {r : Run} {t : Transfer}

/-- A good access marks nothing, R234. -/
theorem markUnit_good (g : Option Flight) (ends atHome : Bool) (addr : Nat) (s : State) : markUnit g ends atHome addr .good s = s := rfl

/-- A transfer from the tiers that ends well lands in the scratchpad, R165. -/
theorem dmaComplete_lands (ht : transferAt s hart tag = some (r, t)) (hdst : t.dstKind = 1) (hsrc : t.srcKind = 0) (hx : t.xpose = 0) :
    dmaComplete hart tag .good addr s = endTransfer r t (dmaIn r t s) := by
  simp only [dmaComplete, ht, hdst, hsrc, hx, OfNat.one_ne_ofNat, beq_self_eq_true, ite_self, if_true, if_false, markUnit_good, reduceCtorEq]

/-- A remote write that meets no open window faults its writer with CAUSE 5, R169. -/
theorem remoteWriteArrival_faults (ht : transferAt s hart tag = some (r, t)) (hdst : t.dstKind = 2)
    (hw : kget (cellOf s (nth r.cells (bits t.dst 39 32))).windows (bits t.dst 25 24) = none) :
    remoteWriteArrival hart tag s = faultRun r hart 5 .outOfRange 0 t.pc.toNat (bits t.dst 23 0) t.insn s := by
  simp only [remoteWriteArrival, ht, hdst, hw, ne_eq, not_true_eq_false, if_false]

/-- The units that a remote write carries marks into: a transposition carries none, R592. -/
def carriedUnits (s : State) (hart target base : Nat) (t : Transfer) : List Nat :=
  ((if t.xpose = 0 then
      carriedMarks (poisonUnit s.tiers) s.tiers.poisoned (scratchAddr (hart / 8) t.src) (scratchAddr target base) t.rows t.rowBytes t.srcStride
        t.dstStride
    else []).map (fun m => unitsOf s.tiers m.1 m.2)).flatten

theorem carriedUnits_of_transposed {target base : Nat} (hx : t.xpose ≠ 0) : carriedUnits s hart target base t = [] := by
  simp only [carriedUnits, if_neg hx, List.map_nil, List.flatten_nil]

/-- The state in which a remote write has landed at `base` of the target's scratchpad, R169. -/
def landed (s : State) (hart target base : Nat) (t : Transfer) (units : List Nat) : State :=
  let u := (moveRuns (scratchReader s (hart / 8)) t.src base t.rows t.rowBytes t.srcStride t.dstStride t.xpose).foldl
    (fun u x => scratchWrite target x.1 x.2 0xFFFF u) s
  { u with tiers := { u.tiers with poisoned := (u.tiers.poisoned ++ units).eraseDups } }

/-- A remote write that its window holds lands there, R169. -/
theorem remoteWriteArrival_lands {w : Window} {target : Nat} (ht : transferAt s hart tag = some (r, t)) (hdst : t.dstKind = 2)
    (htarget : nth r.cells (bits t.dst 39 32) = target) (hw : kget (cellOf s target).windows (bits t.dst 25 24) = some w)
    (hfits : bits t.dst 23 0 + dstExtent t.xpose t.rows t.rowBytes t.dstStride ≤ w.len)
    (hclean : t.xpose = 0 ∨ scratchPoison s (hart / 8) t.src (srcExtent t.rows t.rowBytes t.srcStride) = none) :
    remoteWriteArrival hart tag s = endTransfer r t (landed s hart target (w.base + bits t.dst 23 0) t
      (carriedUnits s hart target (w.base + bits t.dst 23 0) t)) := by
  have hread : (if t.xpose = 0 then none else scratchPoison s (hart / 8) t.src (srcExtent t.rows t.rowBytes t.srcStride)) = none := by
    rcases hclean with hx | hp
    · exact if_pos hx
    · rw [hp, ite_self]
  simp only [remoteWriteArrival, ht, hdst, htarget, hw, Nat.not_lt.mpr hfits, hread, ne_eq, not_true_eq_false, if_false, landed, carriedUnits]

end Transfers

section Deadlines

variable {now : Nat}

/-- The commands in flight do not move with the time. -/
theorem flightOf_advance : flightOf (advance now s) h = flightOf s h := by simp only [flightOf, advance_proto]

/-- The runs do not move with the time. -/
theorem runOf_advance : runOf (advance now s) h = runOf s h := by simp only [runOf, advance_compute]

/-- A command whose deadline has passed ends with DEADLINE_MISSED, R278. -/
theorem commandDeadline_ends {off : Nat} (hf : flightOf s h = some f) (hk : f.op ≠ .kernelRun) (hl : f.op ≠ .layerRun) (hoff : deadlineAt f = some off)
    (hpast : deadlineOf f off ≤ (advance now s).frontTime) :
    commandDeadline h now s = abortFlight f .deadlineMissed 0 [] (advance now s) := by
  simp only [commandDeadline, flightOf_advance, hf, hk, hl, hoff, Nat.not_lt.mpr hpast, if_false]

/-- A KERNEL_RUN that waits for its cells past its deadline has a record of zeros but for CAUSE 7 (log entry 23), R179. -/
theorem commandDeadline_ends_waiting_run (hf : flightOf s h = some f) (hop : f.op = .kernelRun) (hrun : f.running = true) (hwait : runOf s h = none)
    (hpast : deadlineOf f 32 ≤ (advance now s).frontTime) :
    commandDeadline h now s = schedPoint (abortFlight f .deadlineMissed 0 (zeros 24 ++ [7] ++ zeros 7) (advance now s)) := by
  simp only [commandDeadline, flightOf_advance, runOf_advance, hf, hop, hrun, hwait, Nat.not_lt.mpr hpast, if_true, if_false, reduceCtorEq, or_self]

/-- A LAYER_RUN past its deadline ends without effect, R185. -/
theorem commandDeadline_ends_layers (hf : flightOf s h = some f) (hop : f.op = .layerRun) (hrun : f.running = true)
    (hpast : deadlineOf f 16 ≤ (advance now s).frontTime) :
    commandDeadline h now s = schedPoint (abortFlight f .deadlineMissed 0 [] (advance now s)) := by
  simp only [commandDeadline, flightOf_advance, hf, hop, hrun, Nat.not_lt.mpr hpast, if_true, if_false, reduceCtorEq, or_self]

end Deadlines

section Bookkeeping

/-- What counting, charging, tracking and sending leave alone: the memory, the tiers, the runs of layers and the items of the scheduler. -/
structure SameWork (s t : State) : Prop where
  mem : t.mem = s.mem
  tiers : t.tiers = s.tiers
  jobs : t.compute.jobs = s.compute.jobs
  items : t.sched.items = s.sched.items

theorem SameWork.refl (s : State) : SameWork s s := ⟨rfl, rfl, rfl, rfl⟩

theorem SameWork.trans {s t u : State} (h1 : SameWork s t) (h2 : SameWork t u) : SameWork s u :=
  ⟨h2.mem.trans h1.mem, h2.tiers.trans h1.tiers, h2.jobs.trans h1.jobs, h2.items.trans h1.items⟩

theorem SameWork.foldl {α : Type} {g : State → α → State} (hg : ∀ t x, SameWork t (g t x)) (l : List α) (s : State) : SameWork s (l.foldl g s) := by
  induction l generalizing s with
  | nil => exact .refl s
  | cons x l ih => exact (hg s x).trans (ih (g s x))

theorem sameWork_countTiles (i : WorkItem) (out : Nat → Nat) (k : Nat) (l : List TileWork) (s : State) : SameWork s (countTiles i out k l s) := by
  induction l generalizing k s with
  | nil => exact .refl s
  | cons w ws ih =>
    unfold countTiles
    refine .trans ?_ (ih (k + 1) _)
    exact ⟨rfl, rfl, rfl, rfl⟩

theorem sameWork_chargeCells (tenant cycles : Nat) (s : State) : SameWork s (chargeCells tenant cycles s) := ⟨rfl, rfl, rfl, rfl⟩

theorem sameWork_track (code unit tenant command a b : Nat) (s : State) : SameWork s (track code unit tenant command a b s) := by
  constructor <;> simp

theorem sameWork_trackRelease (i : WorkItem) (cycles : Nat) (s : State) : SameWork s (trackRelease i cycles s) :=
  SameWork.foldl (fun t _ => sameWork_track _ _ _ _ _ _ t) _ _

theorem sameWork_emit (o : Output) (s : State) : SameWork s (emit o s) := ⟨rfl, rfl, rfl, rfl⟩

theorem sameWork_sendFlits (p : Nat) (first : Bool) (bs : List Bytes) (s : State) : SameWork s (sendFlits p first bs s) := by
  induction bs generalizing first s with
  | nil => exact .refl s
  | cons b bs ih =>
    refine .trans ?_ (ih false _)
    constructor <;> simp

theorem sameWork_sendSegment (dst ch : Nat) (seg : Bytes) (s : State) : SameWork s (sendSegment dst ch seg s) := by
  unfold sendSegment
  dsimp only
  have hemit := sameWork_emit (.segment dst ch seg) s
  split
  · exact hemit
  · split
    · exact hemit.trans (sameWork_emit _ _)
    · exact hemit.trans (sameWork_sendFlits _ _ _ _)

theorem sameWork_sendAck (dst ch credit : Nat) (s : State) : SameWork s (sendAck dst ch credit s) := sameWork_sendSegment _ _ _ s

theorem sameWork_returnSlot (peer tenant corr : Nat) (s : State) : SameWork s (returnSlot peer tenant corr s) := by
  unfold returnSlot
  split
  · exact .refl s
  · refine .trans ?_ (sameWork_sendAck _ _ _ _)
    exact ⟨rfl, rfl, rfl, rfl⟩

/-- An update of the runs of layers that reaches no field but the partials. -/
def OnlyPartials (upd : LayerJob → LayerJob) : Prop := ∀ j, upd j = { j with partials := (upd j).partials }

/-- Partials that enter their reduction are noted as such, and their slots are returned, R208. -/
theorem enterPartials_notes (serial : Nat) (s : State) : ∃ upd, OnlyPartials upd
    ∧ SameWork { s with compute := { s.compute with jobs := s.compute.jobs.map upd } } (enterPartials serial s) := by
  unfold enterPartials
  split
  · refine ⟨_, ?_, SameWork.foldl (fun t p => ?_) _ _⟩
    · intro j
      dsimp only
      split <;> rfl
    · split
      · exact sameWork_returnSlot _ _ _ t
      · exact .refl t
  · exact ⟨id, fun _ => rfl, rfl, rfl, (List.map_id _).symm, rfl⟩

/-- A run of layers is found as well after an update of its partials. -/
theorem find?_onlyPartials {upd : LayerJob → LayerJob} (hu : OnlyPartials upd) (serial : Nat) (l : List LayerJob) :
    (l.map upd).find? (fun j => j.serial == serial) = (l.find? (fun j => j.serial == serial)).map upd := by
  have hserial : (fun j : LayerJob => (upd j).serial == serial) = fun j => j.serial == serial := by
    funext j
    rw [hu j]
  rw [List.find?_map, Function.comp_def, hserial]

/-- A run of layers stored in place is found again. -/
theorem find?_setJob {serial : Nat} {j : LayerJob} (hj : j.serial = serial) (hfound : (s.compute.jobs.find? (fun x => x.serial == serial)).isSome = true) :
    (setJob j s).compute.jobs.find? (fun x => x.serial == serial) = some j := by
  obtain ⟨x, hx⟩ := Option.isSome_iff_exists.mp hfound
  have hserial : x.serial = serial := by simpa using List.find?_some hx
  have hsame : (fun y : LayerJob => (if y.serial = serial then j else y).serial == serial) = fun y => y.serial == serial := by
    funext y
    split
    next hy => rw [hy, hj]
    next => rfl
  simp only [setJob, List.find?_map, Function.comp_def, hj, hsame, hx, Option.map_some, hserial, if_true]

end Bookkeeping

section Release

variable {item cycles now : Nat} {i : WorkItem} {job job1 : LayerJob}

/-- The layer that runs here next after an item's, R206, R383. -/
def nextLayer (s : State) (f : Flight) (i : WorkItem) : Nat :=
  nextHere s.fabric.view.self (layersOf f) ((layersOf f).length + 1)
    (if ((layersOf f).getD i.layer (layerAt [] 0)).paired then i.layer + 2 else i.layer + 1)

theorem nextLayer_advance : nextLayer (advance now s) f i = nextLayer s f i := by simp only [nextLayer, advance_fabric]

/-- The state in which a layer's item has been counted, charged and released, R388. -/
def released (i : WorkItem) (f : Flight) (job : LayerJob) (cycles : Nat) (s s1 : State) : State :=
  removeItems i.serial (trackRelease i cycles (chargeCells i.tenant cycles
    (countTiles i (outTile s f job i.layer) 0 (itemWork s f job i.layer) s1)))

/-- The run of a layer that has been released: it stands at the next layer, with its cells' cycles charged, R385, R388. -/
def moved (j : LayerJob) (next cycles : Nat) : LayerJob := { j with layer := next, charged := j.charged + cycles }

/-- The release takes the items of its command from the scheduler, and nothing from the memory, the tiers or the runs of layers. -/
theorem released_keeps (i : WorkItem) (f : Flight) (job : LayerJob) (cycles : Nat) (s s1 : State) :
    (released i f job cycles s s1).mem = s1.mem ∧ (released i f job cycles s s1).tiers = s1.tiers
      ∧ (released i f job cycles s s1).compute.jobs = s1.compute.jobs ∧ ∀ x ∈ (released i f job cycles s s1).sched.items, x.serial ≠ i.serial := by
  have hsame := (sameWork_countTiles i (outTile s f job i.layer) 0 (itemWork s f job i.layer) s1).trans
    ((sameWork_chargeCells i.tenant cycles _).trans (sameWork_trackRelease i cycles _))
  refine ⟨hsame.mem, hsame.tiers, hsame.jobs, fun x hx => ?_⟩
  simpa using (List.mem_filter.mp hx).2

/-- The state behind a release: the run stands at the next layer, and the partials that can have entered their reduction. -/
def movedOn (i : WorkItem) (f : Flight) (job job1 : LayerJob) (cycles : Nat) (s s1 : State) : State :=
  enterPartials i.serial (setJob (moved job1 (nextLayer s f i) cycles) (released i f job cycles s s1))

/-- What stands behind a release: no item of the command, the memory and the tiers as they were, the run at the next layer. -/
theorem movedOn_holds (f : Flight) (job : LayerJob) (cycles : Nat) (s : State)
    (hjob1 : s1.compute.jobs.find? (fun j => j.serial == i.serial) = some job1) :
    (∀ x ∈ (movedOn i f job job1 cycles s s1).sched.items, x.serial ≠ i.serial)
      ∧ (movedOn i f job job1 cycles s s1).mem = s1.mem ∧ (movedOn i f job job1 cycles s s1).tiers = s1.tiers
      ∧ ∃ j, (movedOn i f job job1 cycles s s1).compute.jobs.find? (fun j => j.serial == i.serial) = some j
        ∧ j.charged = job1.charged + cycles ∧ j.layer = nextLayer s f i ∧ j.chains = job1.chains := by
  obtain ⟨hmem, htiers, hjobs, hitems⟩ := released_keeps i f job cycles s s1
  obtain ⟨upd, honly, hsame⟩ := enterPartials_notes i.serial (setJob (moved job1 (nextLayer s f i) cycles) (released i f job cycles s s1))
  have hserial : (moved job1 (nextLayer s f i) cycles).serial = i.serial := by simpa [moved] using List.find?_some hjob1
  have hfind := find?_setJob (s := released i f job cycles s s1) hserial (by rw [hjobs, hjob1]; rfl)
  refine ⟨?_, hsame.mem.trans hmem, hsame.tiers.trans htiers, upd (moved job1 (nextLayer s f i) cycles), ?_, ?_⟩
  · intro x hx
    rw [movedOn, hsame.items] at hx
    exact hitems x hx
  · rw [movedOn, hsame.jobs, find?_onlyPartials honly, hfind, Option.map_some]
  · rw [honly]
    exact ⟨rfl, rfl, rfl⟩

/-- The release of a layer that was worked: the next layer that runs here waits for cells, and where there is none a scheduling
point occurs, R383 to R390. -/
theorem itemRelease_moves_on (hitem : s.sched.items.find? (fun x => x.id == item) = some i) (hwhole : i.whole = false) (hcells : i.cells ≠ [])
    (hf : flightOf s i.serial = some f) (hjob : s.compute.jobs.find? (fun j => j.serial == i.serial) = some job)
    (hsend : sendPartials f job i.layer (advance now s) = .ok s1) (hjob1 : s1.compute.jobs.find? (fun j => j.serial == i.serial) = some job1) :
    itemRelease item (.worked cycles) now s = if nextLayer s f i < par f 0 2
      then layerItem job1.chains f (nextLayer s f i) (movedOn i f job job1 cycles (advance now s) s1)
      else schedPoint (movedOn i f job job1 cycles (advance now s) s1) := by
  have hkept : (released i f job cycles (advance now s) s1).compute.jobs.find? (fun j => j.serial == i.serial) = some job1 := by
    obtain ⟨-, -, hjobs, -⟩ := released_keeps i f job cycles (advance now s) s1
    rw [hjobs, hjob1]
  have hempty : i.cells.isEmpty = false := by simpa using hcells
  rw [released] at hkept
  simp only [itemRelease, advance_sched, advance_compute, advance_fabric, flightOf_advance, hitem, hwhole, hempty, hf, hjob, hsend, hkept,
    Bool.or_self, Bool.false_eq_true, if_false, movedOn, nextLayer, moved, released]

/-- A layer of no reduction group owes no partial, R207. -/
theorem sendPartials_of_alone (s : State) (hgroup : ((layersOf f).getD i.layer (layerAt [] 0)).group.length ≤ 1) :
    sendPartials f job i.layer s = .ok s := if_pos hgroup

/-- A LAYER_RUN has the layers that it names, R181. -/
theorem length_layersOf (f : Flight) : (layersOf f).length = par f 0 2 := by simp [layersOf]

/-- Behind the last layer there is none. -/
theorem nextLayer_of_last (s : State) (hpaired : ((layersOf f).getD i.layer (layerAt [] 0)).paired = false)
    (hlast : (layersOf f).length ≤ i.layer + 1) : nextLayer s f i = (layersOf f).length := by
  simp only [nextLayer, hpaired, Bool.false_eq_true, if_false, nextHere, hlast, if_true]

end Release

/-- Settles O23: the commands by what their runs answer, the events by their guards, a release by its bookkeeping. The record of a run that
waited in its queue is the model's choice (log entry 23). -/
theorem kernelAndLayerCommandsComplete : Obligations.KernelAndLayerCommandsComplete := by
  unfold Obligations.KernelAndLayerCommandsComplete
  refine ⟨?_, ?_, ?_, ?_, ?_, ?_, ?_, ?_, ?_, ?_, ?_, ?_, ?_, ?_⟩
  · intro s h f hr hh
    obtain ⟨t, hd, hrun, hk, hkept⟩ := kernelLoad_run s f
    exact ⟨t, hd, execCommand_commits hr hh rfl hrun, ⟨_, hk, rfl, rfl, rfl⟩, hkept⟩
  · exact fun s h f k hr hh hk => execCommand_begins hr hh (kernelRun_run hk)
  · exact fun s s1 h f hr hh hfound => execCommand_begins hr hh (layerRun_run hfound)
  · intro s h f hr hh
    obtain ⟨t, hd, hrun, hkept⟩ := chainDefine_run s f
    exact ⟨t, hd, execCommand_commits hr hh rfl hrun, hkept⟩
  · exact fun s s1 h cycles f r hr hf hdone hvote hsat happly hprep =>
      congrArg (nextOf s) (kernelRunCommit_commits hr hf hdone hvote hsat happly hprep)
  · exact fun s s1 h f job x hf hjob hdone hidle hheld hresult hsat happly hprep =>
      congrArg (nextOf s) (layerRunCommit_commits hf hjob hdone hidle hheld hresult hsat happly hprep)
  · exact fun s hart tag addr r t ht hdst hsrc hx => congrArg (nextOf s) (dmaComplete_lands ht hdst hsrc hx)
  · exact fun s hart tag r t ht hdst hw => congrArg (nextOf s) (remoteWriteArrival_faults ht hdst hw)
  · exact fun s hart tag r t w ht hdst hw hfits hclean =>
      ⟨_, congrArg (nextOf s) (remoteWriteArrival_lands ht hdst rfl hw hfits hclean), carriedUnits_of_transposed⟩
  · exact fun s h now off f hf hk hl hoff hpast => congrArg (nextOf s) (commandDeadline_ends hf hk hl hoff hpast)
  · exact fun s h now f hf hop hrun hwait hpast => congrArg (nextOf s) (commandDeadline_ends_waiting_run hf hop hrun hwait hpast)
  · exact fun s h now f hf hop hrun hpast => congrArg (nextOf s) (commandDeadline_ends_layers hf hop hrun hpast)
  · intro s item cycles now i f job hitem hwhole hcells hf hjob hgroup hpaired _ hlast
    have hjob' : (advance now s).compute.jobs.find? (fun j => j.serial == i.serial) = some job := by rw [advance_compute, hjob]
    obtain ⟨hitems, hmem, htiers, j, hfind, hcharged, hlayer, -⟩ := movedOn_holds f job cycles (advance now s) hjob'
    have hend : ¬ nextLayer s f i < par f 0 2 := by rw [nextLayer_of_last s hpaired hlast, length_layersOf]; exact lt_irrefl _
    have hrelease := itemRelease_moves_on (cycles := cycles) hitem hwhole hcells hf hjob (sendPartials_of_alone (advance now s) hgroup) hjob'
    rw [if_neg hend] at hrelease
    refine ⟨_, congrArg (nextOf s) hrelease, hitems, hmem.trans (advance_mem _ _), htiers.trans (advance_tiers _ _), ?_⟩
    rw [hfind, Option.map_some, hcharged, hlayer, nextLayer_of_last _ hpaired hlast]
  · intro s s1 item cycles now i f job job1 hitem hwhole hcells hf hjob hsend hjob1
    obtain ⟨hitems, hmem, -, j, hfind, hcharged, hlayer, hchains⟩ := movedOn_holds f job cycles (advance now s) hjob1
    have hrelease := itemRelease_moves_on (cycles := cycles) hitem hwhole hcells hf hjob hsend hjob1
    rw [nextLayer_advance] at hlayer
    rw [← hlayer, ← hchains] at hrelease
    exact ⟨_, j, congrArg (nextOf s) hrelease, hitems, hmem, hfind, hcharged, hlayer⟩

end Sys2Proof.KernelRows

/-! Every step keeps the memory in its canonical form (R211, R213, R214). Only stores, clears and the return of a page's home content change
the memory, and each keeps it canonical (`wf_write`, `wf_clear`); an operation that makes none of them leaves the memory as it is, so that the
lemma about it is an equation, and an operation that can make one keeps a canonical memory canonical. The lemmas stand in the order of the
chapters, as those about the queue. -/

namespace Sys2Proof.Canonical

open Sys2Proof Sys2Proof.Machine Sys2Proof.Laws
open Sys2Proof.Queue (roomState outcomeState inboundState)

/-! ### Memories -/

@[simp] theorem wf_applyRuns (m : Memory) (runs : List WriteRun) (hm : m.wf = true) : (applyRuns m runs).wf = true := by
  induction runs generalizing m with
  | nil => exact hm
  | cons r rs ih => exact ih _ (wf_writeN m r.1 r.2 hm)

@[simp] theorem wf_memoryRestore (m part : Memory) (a n : Nat) (hm : m.wf = true) : (memoryRestore m part a n).wf = true := by
  have hc := wf_clear m a n hm
  unfold memoryRestore
  generalize m.clear a n = m1 at hc ⊢
  induction part generalizing m1 with
  | nil => exact hc
  | cons c cs ih => exact ih _ (wf_write m1 c.1 c.2 hc)

@[simp] theorem wf_ite (p : Prop) [Decidable p] (m n : Memory) : (if p then m else n).wf = if p then m.wf else n.wf := apply_ite Memory.wf p m n

@[simp] theorem memWrite_wf (a : Nat) (b : Bytes) (s : State) (hm : s.mem.wf = true) : (memWrite a b s).mem.wf = true := Laws.memWrite_wf s a b hm

@[simp] theorem memClear_wf (a n : Nat) (s : State) (hm : s.mem.wf = true) : (memClear a n s).mem.wf = true := wf_clear s.mem a n hm

theorem wf_of_eq {s t : State} (h : t.mem = s.mem) (hm : s.mem.wf = true) : t.mem.wf = true := by rwa [h]

@[simp] theorem ite_mem (p : Prop) [Decidable p] (s t : State) : (if p then s else t).mem = if p then s.mem else t.mem := apply_ite State.mem p s t

@[simp] theorem ite_snd_mem {α : Type} (p : Prop) [Decidable p] (s t : α × State) :
    (if p then s else t).2.mem = if p then s.2.mem else t.2.mem := apply_ite (fun x : α × State => x.2.mem) p s t

/-- A fold of steps that each leave the memory leaves the memory. -/
@[simp] theorem foldl_mem {α : Type} (g : State → α → State) (l : List α) (s : State) (hg : ∀ t x, (g t x).mem = t.mem) :
    (l.foldl g s).mem = s.mem := by
  induction l generalizing s with
  | nil => rfl
  | cons x l ih => rw [List.foldl_cons, ih, hg]

@[simp] theorem foldl_snd_mem {α β : Type} (g : β × State → α → β × State) (l : List α) (p : β × State)
    (hg : ∀ t x, (g t x).2.mem = t.2.mem) : (l.foldl g p).2.mem = p.2.mem := by
  induction l generalizing p with
  | nil => rfl
  | cons x l ih => rw [List.foldl_cons, ih, hg]

/-- A fold of steps that each keep a canonical memory keeps it. -/
@[simp] theorem foldl_wf {α : Type} (g : State → α → State) (l : List α) (s : State) (hg : ∀ t x, t.mem.wf = true → (g t x).mem.wf = true)
    (hm : s.mem.wf = true) : (l.foldl g s).mem.wf = true := by
  induction l generalizing s with
  | nil => exact hm
  | cons x l ih => exact ih _ (hg s x hm)

@[simp] theorem foldl_snd_wf {α β : Type} (g : β × State → α → β × State) (l : List α) (p : β × State)
    (hg : ∀ t x, t.2.mem.wf = true → (g t x).2.mem.wf = true) (hm : p.2.mem.wf = true) : (l.foldl g p).2.mem.wf = true := by
  induction l generalizing p with
  | nil => exact hm
  | cons x l ih => exact ih _ (hg p x hm)

/-! ### Verdicts -/

/-- How a command's run ends, in a state of canonical memory. -/
def Sound : Verdict → Prop
  | .reject _ _ => True
  | .rejectIn t _ _ => t.mem.wf = true
  | .done t _ => t.mem.wf = true
  | .begun t => t.mem.wf = true
  | .wait => True
  | .waitIn t => t.mem.wf = true

@[simp] theorem sound_reject (st : Status) (d : Nat) : Sound (.reject st d) := trivial
@[simp] theorem sound_wait : Sound .wait := trivial
@[simp] theorem sound_rejectIn (t : State) (st : Status) (d : Nat) : Sound (.rejectIn t st d) ↔ t.mem.wf = true := Iff.rfl
@[simp] theorem sound_done (t : State) (r : Reply) : Sound (.done t r) ↔ t.mem.wf = true := Iff.rfl
@[simp] theorem sound_begun (t : State) : Sound (.begun t) ↔ t.mem.wf = true := Iff.rfl
@[simp] theorem sound_waitIn (t : State) : Sound (.waitIn t) ↔ t.mem.wf = true := Iff.rfl

@[simp] theorem sound_ite (p : Prop) [Decidable p] (v w : Verdict) : Sound (if p then v else w) ↔ if p then Sound v else Sound w :=
  iff_of_eq (apply_ite Sound p v w)

@[simp] theorem sound_checked (l : List (Bool × Status × Nat)) (k : Verdict) (hk : Sound k) : Sound (checked l k) := by
  unfold checked
  split
  · trivial
  · exact hk

/-- A command whose run and whose vote keep a canonical memory. -/
structure KeepsMemory (c : Command) : Prop where
  run : ∀ s f, s.mem.wf = true → Sound (c.run s f)
  prepare : ∀ s f, s.mem.wf = true → (c.prepare s f).mem.wf = true

theorem KeepsMemory.verdict {c : Command} (hc : KeepsMemory c) {s : State} {f : Flight} {v : Verdict} (h : c.run s f = v)
    (hm : s.mem.wf = true) : Sound v := h ▸ hc.run s f hm

/-- Where a change of the state is made, the memory stays canonical. -/
def OkSound {ε : Type} : Except ε State → Prop
  | .ok t => t.mem.wf = true
  | .error _ => True

@[simp] theorem okSound_ok {ε : Type} (t : State) : OkSound (.ok t : Except ε State) ↔ t.mem.wf = true := Iff.rfl
@[simp] theorem okSound_error {ε : Type} (e : ε) : OkSound (.error e : Except ε State) := trivial
@[simp] theorem okSound_ite {ε : Type} (p : Prop) [Decidable p] (v w : Except ε State) :
    OkSound (if p then v else w) ↔ if p then OkSound v else OkSound w := iff_of_eq (apply_ite OkSound p v w)

/-- The rule for a command given by its fields: it opens the definition by rewriting, so that the kernel need not run the command. -/
theorem keepsMemory_mk {op : Opcode} {changes : Bool} {objects changed held : State → Flight → List Obj}
    {check staged entry : State → Flight → Option (Status × Nat)} {waits : State → Flight → Bool} {run : State → Flight → Verdict}
    {carried : State → Flight → Nat → Bytes} {carriedLen : Flight → Nat} {prepare : State → Flight → State}
    (hr : ∀ s f, s.mem.wf = true → Sound (run s f)) (hp : ∀ s f, s.mem.wf = true → (prepare s f).mem.wf = true) :
    KeepsMemory ⟨op, changes, objects, changed, held, check, staged, waits, run, carried, carriedLen, entry, prepare⟩ := ⟨hr, hp⟩

/-! ### Flags -/

@[simp] theorem sqError_mem (n cause : Nat) (s : State) : (sqError n cause s).mem = s.mem := by simp [sqError]

/-! ### Ops -/

@[simp] theorem drawFree_mem (s : State) : (drawFree s).2.mem = s.mem := (rfl)

@[simp] theorem drawKey_mem (s : State) : (drawKey s).2.mem = s.mem := (rfl)

/-! ### Messages -/

@[simp] theorem sendFlits_mem (p : Nat) (first : Bool) (l : List Bytes) (s : State) : (sendFlits p first l s).mem = s.mem := by
  induction l generalizing first s with
  | nil => rfl
  | cons b bs ih => simp [sendFlits, ih]

@[simp] theorem sendSegment_mem (dst ch : Nat) (seg : Bytes) (s : State) : (sendSegment dst ch seg s).mem = s.mem := by
  unfold sendSegment; split <;> simp

@[simp] theorem pump_mem (dst ch fuel : Nat) (s : State) : (pump dst ch fuel s).mem = s.mem := by
  induction fuel generalizing s with
  | zero => rfl
  | succ fuel ih =>
    simp only [pump]
    split
    · rfl
    · split
      · rfl
      · simp [ih]

@[simp] theorem sendAck_mem (dst ch credit : Nat) (s : State) : (sendAck dst ch credit s).mem = s.mem := by simp [sendAck]

@[simp] theorem returnSlot_mem (peer tenant corr : Nat) (s : State) : (returnSlot peer tenant corr s).mem = s.mem := by
  unfold returnSlot; split <;> simp

@[simp] theorem sendMessage_mem (dst type sub tenant corr own : Nat) (body : Bytes) (s : State) :
    (sendMessage dst type sub tenant corr own body s).mem = s.mem := by
  simp only [sendMessage]; split <;> simp

@[simp] theorem sendAll_mem (type sub tenant corr : Nat) (body : Bytes) (l : List Nat) (s : State) :
    (sendAll type sub tenant corr body l s).mem = s.mem := by
  induction l generalizing s with
  | nil => rfl
  | cons d ds ih => simp [sendAll, ih]

/-! ### Flights -/

@[simp] theorem beginFlight_mem (f : Flight) (s : State) : (beginFlight f s).mem = s.mem := by unfold beginFlight; split <;> simp

@[simp] theorem finishAt_mem (time : Nat) (f : Flight) (r : Reply) (s : State) : (finishAt time f r s).mem = s.mem := by
  unfold finishAt; split <;> simp

@[simp] theorem finishPlain_mem (f : Flight) (r : Reply) (s : State) : (finishPlain f r s).mem = s.mem := by simp [finishPlain]

/-! ### Operands -/

theorem entryCommand_sound {c : Command} (hc : KeepsMemory c) : KeepsMemory (entryCommand c) := ⟨hc.run, hc.prepare⟩

/-! ### TierOps -/

@[simp] theorem errorUnit_mem (addr : Nat) (s : State) : (errorUnit addr s).2.mem = s.mem := by unfold errorUnit; split <;> simp

@[simp] theorem noteTagFail_mem (tenant command : Nat) (st : Status) (d : Nat) (s : State) : (noteTagFail tenant command st d s).mem = s.mem := by
  simp [noteTagFail]

@[simp] theorem noteReadFail_mem (f : Flight) (st : Status) (d : Nat) (s : State) : (noteReadFail f st d s).mem = s.mem := by simp [noteReadFail]

@[simp] theorem sendSealed_mem (block sectors : Nat) (s : State) : (sendSealed block sectors s).mem = s.mem := by
  simp only [sendSealed]; (repeat' split) <;> simp

@[simp] theorem storeBlocks_mem (l : List Nat) (s : State) : (storeBlocks l s).mem = s.mem := by
  induction l generalizing s with
  | nil => rfl
  | cons b bs ih => simp [storeBlocks, drawFree, ih]

@[simp] theorem touchPages_mem (tenant : Nat) (es : List (Nat × Nat)) (s : State) : (touchPages tenant es s).mem = s.mem := (rfl)

@[simp] theorem touchNamed_mem (f : Flight) (s : State) : (touchNamed f s).mem = s.mem := by simp [touchNamed]

@[simp] theorem toFrame_mem (p : Nat) (s : State) : (toFrame p s).mem = s.mem := by simp only [toFrame]; split <;> simp

@[simp] theorem storePage_mem (p : Nat) (s : State) : (storePage p s).mem = s.mem := by
  have hs := storeBlocks_mem (pageBlocks p) s
  unfold storePage
  generalize storeBlocks (pageBlocks p) s = s1 at hs ⊢
  dsimp only
  split <;> exact hs

@[simp] theorem dropPage_mem (p : Nat) (s : State) : (dropPage p s).mem = s.mem := by simp only [dropPage]; split <;> simp

@[simp] theorem countEviction_mem (tenant : Nat) (s : State) : (countEviction tenant s).mem = s.mem := (rfl)

@[simp] theorem evictOne_mem (who : Option Nat) (tenant p : Nat) (s : State) : (evictOne who tenant p s).mem = s.mem := by
  unfold evictOne; split <;> simp

/-- The state that the search for frames leaves. -/
def roomState : Room → State
  | .found s => s
  | .waits s => s
  | .full s => s

theorem makeRoom_mem (who : Option Nat) (tenant need fuel : Nat) (s : State) : (roomState (makeRoom who tenant need fuel s)).mem = s.mem := by
  induction fuel generalizing s with
  | zero => unfold makeRoom; dsimp only; (repeat' split) <;> rfl
  | succ fuel ih =>
    unfold makeRoom
    dsimp only
    split
    · rfl
    · split
      · rfl
      · split
        · rename_i heq _
          cases heq
          rw [ih, evictOne_mem]
        · rfl

theorem findFrames_mem {who : Option Nat} {tenant need : Nat} {s : State} {r : Room} (h : findFrames who tenant need s = r) :
    (roomState r).mem = s.mem := h ▸ makeRoom_mem _ _ _ _ _

theorem findFrames_wf {who : Option Nat} {tenant need : Nat} {s : State} {r : Room} (h : findFrames who tenant need s = r)
    (hm : s.mem.wf = true) : (roomState r).mem.wf = true := by rwa [findFrames_mem h]

/-- The state that a commit of writes leaves. -/
def outcomeState : CommitOutcome → State
  | .fails _ _ s => s
  | .waits s => s
  | .done s => s

@[simp] theorem pageWritten_mem (old : Memory) (tenant p : Nat) (s : State) : (pageWritten old tenant p s).mem = s.mem := by
  unfold pageWritten; split <;> simp

theorem commitWrites_wf {who : Option Nat} {tenant : Nat} {runs : List WriteRun} {held : Nat} {s : State} {o : CommitOutcome}
    (h : commitWrites who tenant runs held s = o) (hm : s.mem.wf = true) : (outcomeState o).mem.wf = true := by
  subst h
  unfold commitWrites
  dsimp only
  split
  · exact hm
  · split <;> have hf := findFrames_wf ‹findFrames _ _ _ _ = _› hm
    · exact hf
    · exact hf
    · split
      · exact hf
      · simpa [commitWrites.done', outcomeState, roomState] using wf_applyRuns _ runs hf

theorem withFrames_sound {f : Flight} {runs : List WriteRun} {s : State} {k : State → Verdict} (hs : s.mem.wf = true)
    (hk : ∀ t, t.mem.wf = true → Sound (k t)) : Sound (withFrames f runs s k) := by
  unfold withFrames
  split <;> have hf := findFrames_wf ‹_› hs
  · exact hf
  · exact hf
  · exact hk _ hf

theorem commitVerdict_sound {f : Flight} {runs : List WriteRun} {s : State} {k : State → Verdict} (hs : s.mem.wf = true)
    (hk : ∀ t, t.mem.wf = true → Sound (k t)) : Sound (commitVerdict f runs s k) := by
  unfold commitVerdict
  split <;> have hc := commitWrites_wf ‹_› hs
  · exact hc
  · exact hc
  · exact hk _ hc

@[simp] theorem freshHandle_mem (kind : Nat) (held : List Nat) (s : State) : (freshHandle kind held s).2.mem = s.mem := (rfl)

/-! ### SelectOps -/

@[simp] theorem countSelections_mem (tenant passes keys sentinels : Nat) (l : List Selected) (s : State) :
    (countSelections tenant passes keys sentinels l s).mem = s.mem := by
  simp only [countSelections, bump_mem]

/-! ### AllocOps -/

@[simp] theorem takeRange_wf (a : Alloc) (die : Nat) (s : State) (hm : s.mem.wf = true) : (takeRange a die s).2.mem.wf = true := wf_clear s.mem _ _ hm

theorem takeStorage_wf {tenant tier die len a : Nat} {s t : State} (h : takeStorage tenant tier die len s = .ok (a, t))
    (hm : s.mem.wf = true) : t.mem.wf = true := by
  unfold takeStorage at h
  split at h
  · cases h; exact hm
  · (repeat' split at h) <;> cases h
    exact takeRange_wf _ _ _ hm

@[simp] theorem releaseAlloc_wf (base len : Nat) (s : State) (hm : s.mem.wf = true) : (releaseAlloc base len s).mem.wf = true := wf_clear s.mem _ _ hm

/-! ### TableOps -/

@[simp] theorem dropFetching_mem (serial : Nat) (s : State) : (dropFetching serial s).mem = s.mem := (rfl)

@[simp] theorem sendTable_mem (kind dst tenant corr id : Nat) (body : Bytes) (s : State) :
    (sendTable kind dst tenant corr id body s).mem = s.mem := by
  simp [sendTable]

@[simp] theorem askRows_mem (serial tenant corr id : Nat) (t : Table) (rows : List Nat) (s : State) :
    (askRows serial tenant corr id t rows s).mem = s.mem := by
  simp [askRows]

@[simp] theorem fetchVerdict_sound (s : State) (f : Flight) (id : Nat) (t : Table) (rows : List Nat) (a : RowFetch)
    (hm : s.mem.wf = true) : Sound (fetchVerdict s f id t rows a) := by
  unfold fetchVerdict; split <;> simp [hm]

@[simp] theorem serveRows_mem (a : RowServing) (s : State) : (serveRows a s).mem = s.mem := by unfold serveRows; (repeat' split) <;> simp

@[simp] theorem takeAsk_mem (peer tenant corr id : Nat) (b : Bytes) (s : State) : (takeAsk peer tenant corr id b s).mem = s.mem := by simp [takeAsk]

theorem takeServed_mem {peer tenant corr : Nat} {r : Reply} {s t : State} (h : takeServed peer tenant corr r s = some t) : t.mem = s.mem := by
  unfold takeServed at h
  dsimp only at h
  split at h <;> cases h
  rfl

@[simp] theorem takeReport_mem (id : Nat) (b : Bytes) (s : State) : (takeReport id b s).mem = s.mem := by unfold takeReport; split <;> simp

@[simp] theorem takeTableMessage_mem (peer tenant corr : Nat) (params content : Bytes) (s : State) :
    (takeTableMessage peer tenant corr params content s).mem = s.mem := by
  simp only [takeTableMessage]; (repeat' split) <;> simp

@[simp] theorem tellTable_mem (id : Nat) (dsts : List Nat) (s : State) : (tellTable id dsts s).mem = s.mem := by unfold tellTable; split <;> simp

@[simp] theorem tellTables_mem (m : Nat) (s : State) : (tellTables m s).mem = s.mem := by simp [tellTables]

@[simp] theorem takeId_mem (used : List Nat) (f : Flight) (s : State) : (takeId used f s).2.mem = s.mem := (rfl)

@[simp] theorem learnTable_mem (f : Flight) (r : Reply) (s : State) : (learnTable f r s).mem = s.mem := by simp [learnTable]

/-! ### SearchOps -/

@[simp] theorem countMerges_mem (metric tenant k sentinels : Nat) (queries : List (List SearchPart)) (s : State) :
    (countMerges metric tenant k sentinels queries s).mem = s.mem := by
  rw [countMerges, countSelections_mem]

@[simp] theorem trimRanges_wf (excess : Nat) (l : List Nat) (s : State) (hm : s.mem.wf = true) : (trimRanges excess l s).2.mem.wf = true := by
  fun_induction trimRanges excess l s with
  | case1 => exact hm
  | case2 => exact hm
  | case3 _ _ _ _ _ _ ih => exact ih hm
  | case4 _ _ _ _ _ _ _ _ ih => exact ih (releaseAlloc_wf _ _ _ hm)
  | case5 => exact hm

theorem resizeHold_wf {tenant tier die need : Nat} {l m : List Nat} {s t : State} (h : resizeHold tenant tier die need l s = .ok (m, t))
    (hm : s.mem.wf = true) : t.mem.wf = true := by
  unfold resizeHold at h
  dsimp only at h
  split at h
  · have ht := trimRanges_wf (heldBytes s l - pageBytes need) l s hm
    rwa [Except.ok.inj h] at ht
  · split at h
    · cases h; exact takeStorage_wf ‹_› hm
    · cases h

@[simp] theorem putBlocks_wf (tier n a : Nat) (b : Bytes) (s : State) (hm : s.mem.wf = true) : (putBlocks tier n a b s).mem.wf = true := by
  induction n generalizing a b s with
  | zero => exact hm
  | succ n ih => exact ih _ _ _ (by dsimp only; split <;> simp [hm])

@[simp] theorem placeVectors_wf (x : VecIndex) (s : State) (hm : s.mem.wf = true) : (placeVectors x s).mem.wf = true :=
  foldl_snd_wf _ _ _ (fun _ _ ht => putBlocks_wf _ _ _ _ _ ht) hm

theorem fitIndex_wf {x y : VecIndex} {s t : State} (h : fitIndex x s = .ok (y, t)) (hm : s.mem.wf = true) : t.mem.wf = true := by
  have hresize := @resizeHold_wf
  rw [fitIndex] at h
  obtain ⟨resize, hr⟩ : ∃ resize, resize = resizeHold := exists_eq
  rw [← hr] at hresize h
  split at h
  · cases h
  · have h1 := hresize ‹_› hm
    split at h
    · cases h
    · have h2 := hresize ‹resize _ x.vecTier _ _ _ _ = _› h1
      dsimp only at h
      split at h <;> cases h
      exact placeVectors_wf _ _ h2

@[simp] theorem releaseIndex_wf (id : Nat) (s : State) (hm : s.mem.wf = true) : (releaseIndex id s).mem.wf = true := by
  unfold releaseIndex
  split
  · exact hm
  · exact foldl_wf _ _ _ (fun _ _ ht => releaseAlloc_wf _ _ _ ht) hm

@[simp] theorem tellIndex_mem (id : Nat) (dsts : List Nat) (s : State) : (tellIndex id dsts s).mem = s.mem := by unfold tellIndex; split <;> simp

@[simp] theorem tellIndexes_mem (m : Nat) (s : State) : (tellIndexes m s).mem = s.mem := by simp [tellIndexes]

@[simp] theorem learnIndex_mem (f : Flight) (r : Reply) (s : State) : (learnIndex f r s).mem = s.mem := by simp [learnIndex]

/-! ### RunOps -/

@[simp] theorem breakReservations_mem (cell off n except : Nat) (s : State) : (breakReservations cell off n except s).mem = s.mem := (rfl)

@[simp] theorem scratchWrite_wf (cell off : Nat) (b : Bytes) (except : Nat) (s : State) (hm : s.mem.wf = true) :
    (scratchWrite cell off b except s).mem.wf = true := memWrite_wf _ b s hm

@[simp] theorem correctedError_mem (unit addr tier : Nat) (s : State) : (correctedError unit addr tier s).mem = s.mem := by
  simp only [correctedError]; split <;> simp

@[simp] theorem uncorrectedError_mem (unit tenant command addr tier action : Nat) (s : State) :
    (uncorrectedError unit tenant command addr tier action s).mem = s.mem := by
  simp [uncorrectedError]

@[simp] theorem markUnit_mem (f : Option Flight) (ends atHome : Bool) (addr : Nat) (outcome : TierOutcome) (s0 : State) :
    (markUnit f ends atHome addr outcome s0).mem = s0.mem := by
  simp only [markUnit]; split <;> simp

@[simp] theorem chargeCells_mem (tenant cycles : Nat) (s : State) : (chargeCells tenant cycles s).mem = s.mem := (rfl)

@[simp] theorem wakeHub_mem (domain : Nat) (s : State) : (wakeHub domain s).mem = s.mem := by simp [wakeHub]

@[simp] theorem chargeHub_mem (domain tenant : Nat) (s0 : State) : (chargeHub domain tenant s0).mem = s0.mem := by simp [chargeHub]

@[simp] theorem freeCells_mem (cells : List Nat) (s : State) : (freeCells cells s).mem = s.mem := (rfl)

@[simp] theorem chargeEnded_mem (i : WorkItem) (s : State) : (chargeEnded i s).mem = s.mem := by simp [chargeEnded]

@[simp] theorem removeItems_mem (serial : Nat) (s : State) : (removeItems serial s).mem = s.mem := (rfl)

@[simp] theorem dropItems_mem (serial : Nat) (s : State) : (dropItems serial s).mem = s.mem := by simp [dropItems]

@[simp] theorem addCounts_mem (tenant : Nat) (n : NumCounts) (s : State) : (addCounts tenant n s).mem = s.mem := by simp [addCounts]

@[simp] theorem endWaiters_mem (r : Run) (stepOutcome newPc : Nat) (s : State) : (endWaiters r stepOutcome newPc s).mem = s.mem := by
  unfold endWaiters
  dsimp only
  (repeat' split) <;> (try rw [finishPlain_mem]) <;> exact foldl_mem _ _ _ fun t w => by split <;> simp

@[simp] theorem endSearch_mem (serial : Nat) (committed : Bool) (s : State) : (endSearch serial committed s).mem = s.mem := by
  unfold endSearch; (repeat' split) <;> simp

@[simp] theorem endWork_mem (serial stepOutcome newPc : Nat) (s : State) : (endWork serial stepOutcome newPc s).mem = s.mem := by
  unfold endWork; split <;> simp

/-! ### CoordOps -/

@[simp] theorem announceObject_mem (time : Nat) (f : Flight) (r : Reply) (known : List Nat) (s : State) :
    (announceObject time f r known s).mem = s.mem := by
  unfold announceObject; (repeat' split) <;> simp

@[simp] theorem learnObject_mem (time : Nat) (f : Flight) (r : Reply) (known : List Nat) (s : State) :
    (learnObject time f r known s).mem = s.mem := by
  simp [learnObject]

@[simp] theorem setCoord_mem (c : Coord) (s : State) : (setCoord c s).mem = s.mem := (rfl)

@[simp] theorem dropCoord_mem (key : TxnKey) (s : State) : (dropCoord key s).mem = s.mem := (rfl)

@[simp] theorem lockPages_mem (key : TxnKey) (pages : List Nat) (s : State) : (lockPages key pages s).mem = s.mem := (rfl)

@[simp] theorem unlockOwn_mem (key : TxnKey) (s : State) : (unlockOwn key s).mem = s.mem := (rfl)

@[simp] theorem releasePledge_mem (key : TxnKey) (s : State) : (releasePledge key s).mem = s.mem := (rfl)

@[simp] theorem addPledge_mem (key : TxnKey) (tenant : Nat) (after s : State) : (addPledge key tenant after s).mem = s.mem := by simp [addPledge]

@[simp] theorem addPrepared_mem (key : TxnKey) (parts : List Part) (locks : List Obj) (vote : Reply) (corr tenant : Nat) (after s : State) :
    (addPrepared key parts locks vote corr tenant after s).mem = s.mem := by
  simp [addPrepared]

@[simp] theorem dropPrepared_mem (key : TxnKey) (s : State) : (dropPrepared key s).mem = s.mem := by simp [dropPrepared]

@[simp] theorem abortRecords_mem (parts : List Part) (failing : Option (Nat × Status × Nat)) (s : State) :
    (abortRecords parts failing s).mem = s.mem :=
  foldl_mem _ _ _ fun t p => by split <;> simp

@[simp] theorem forgetTxn_mem (session id : Nat) (committed : Bool) (s : State) : (forgetTxn session id committed s).mem = s.mem := (rfl)

@[simp] theorem abortTxn_mem (session id : Nat) (parts : List Part) (failing : Option (Nat × Status × Nat)) (s : State) :
    (abortTxn session id parts failing s).mem = s.mem := by
  simp [abortTxn]

@[simp] theorem handoverEnds_mem (c : Coord) (r : Reply) (s : State) : (handoverEnds c r s).mem = s.mem := by unfold handoverEnds; split <;> simp

@[simp] theorem coordFails_mem (c : Coord) (r : Reply) (s : State) : (coordFails c r s).mem = s.mem := by simp only [coordFails]; split <;> simp

@[simp] theorem dropDecision_mem (key : TxnKey) (s : State) : (dropDecision key s).mem = s.mem := (rfl)

@[simp] theorem forgetDecision_mem (key : TxnKey) (corr : Nat) (s : State) : (forgetDecision key corr s).mem = s.mem := by simp [forgetDecision]

@[simp] theorem coordEnds_mem (late : Bool) (key : TxnKey) (s : State) : (coordEnds late key s).mem = s.mem := by
  simp only [coordEnds]; (repeat' split) <;> simp

@[simp] theorem coordReplied_mem (key : TxnKey) (s : State) : (coordReplied key s).mem = s.mem := by simp [coordReplied]

@[simp] theorem coordAcked_mem (key : TxnKey) (s : State) : (coordAcked key s).mem = s.mem := by unfold coordAcked; split <;> simp

@[simp] theorem coordVoted_mem (key : TxnKey) (expired : Bool) (s : State) : (coordVoted key expired s).mem = s.mem := by
  unfold coordVoted; split <;> simp

@[simp] theorem recordVote_mem (key : TxnKey) (m : Nat) (r : Reply) (s : State) : (recordVote key m r s).mem = s.mem := by
  unfold recordVote; split <;> simp

@[simp] theorem castVote_mem (key : TxnKey) (tenant commandId : Nat) (r : Reply) (s0 : State) :
    (castVote key tenant commandId r s0).mem = s0.mem := by
  simp [castVote]

@[simp] theorem finish_mem (f : Flight) (r : Reply) (s0 : State) : (finish f r s0).mem = s0.mem := by simp only [finish]; split <;> simp

/-! ### Commands -/

@[simp] theorem stagedRecord_mem (f : Flight) (s : State) : (stagedRecord f s).mem = s.mem := by simp [stagedRecord]

@[simp] theorem stage_mem (c : Command) (f : Flight) (s : State) : (stage c f s).mem = s.mem := by unfold stage; (repeat' split) <;> simp

@[simp] theorem startGather_mem (f : Flight) (others : List Nat) (own : List (Nat × Reply)) (extra : Nat → Bytes) (s : State) :
    (startGather f others own extra s).mem = s.mem := by
  simp [startGather]

@[simp] theorem startCoord_mem (key : TxnKey) (f : Flight) (parts : List Part) (locks : List Obj) (participants : List Nat)
    (own : Option (Reply × State)) (prepare : Nat → Bytes) (s : State) :
    (startCoord key f parts locks participants own prepare s).mem = s.mem := by
  simp only [startCoord]; split <;> simp

theorem runLocal_wf {c : Command} (hc : KeepsMemory c) (f : Flight) (s : State) (hm : s.mem.wf = true) : (runLocal c f s).mem.wf = true := by
  unfold runLocal
  split
  · simp [hm]
  · split
    · simp [hm]
    · split <;> (have hv := hc.verdict ‹_› hm; simp_all)

@[simp] theorem workerOf_mem (key : TxnKey) (f : Flight) (s : State) : (workerOf key f s).2.mem = s.mem := (rfl)

theorem startWorker_wf {c : Command} (hc : KeepsMemory c) (key : TxnKey) (f : Flight) (s : State) (hm : s.mem.wf = true) :
    (startWorker c key f s).mem.wf = true := by
  have hw : (workerOf key f s).2.mem.wf = true := hm
  unfold startWorker
  generalize workerOf key f s = p at hw ⊢
  obtain ⟨g, s1⟩ := p
  dsimp only at hw ⊢
  split
  · simp [hw]
  · split <;> (have hv := hc.verdict ‹_› hw; simp_all)

theorem ownWaits_wf {c : Command} (hc : KeepsMemory c) {f : Flight} {s t : State} (h : ownWaits c f s = some t) (hm : s.mem.wf = true) :
    t.mem.wf = true := by
  unfold ownWaits at h
  split at h
  · cases h; exact hm
  · split at h
    · cases h
    · split at h <;> cases h
      · exact hm
      · exact hc.verdict ‹_› hm

theorem runFront_wf {c : Command} (hc : KeepsMemory c) (f : Flight) (mods : List Nat) (s : State) (hm : s.mem.wf = true) :
    (runFront c f mods s).mem.wf = true := by
  unfold runFront
  extract_lets g s1 self key objs g1 part prepare s2 own
  have h1 : s1.mem.wf = true := by simp [s1, hm]
  have h2 : s2.mem.wf = true := by rwa [startCoord_mem]
  clear_value g s1
  split
  · simp [hm]
  · split
    · simp [hm]
    · split
      · simp [hm]
      · split
        · simp [hm]
        · simp [hm]
        · split
          · simp [h1]
          · split
            · split
              · rename_i heq
                split at heq
                · rw [beginFlight_mem]; exact ownWaits_wf hc heq h1
                · cases heq
              · split
                · split
                  · exact startWorker_wf hc _ _ _ h2
                  · exact h2
                · rw [startCoord_mem]; split
                  · exact hc.prepare _ _ h1
                  · exact h1
            · split <;> simp [h1]

theorem runCommand_wf {c : Command} (hc : KeepsMemory c) (h : Nat) (s : State) (hm : s.mem.wf = true) : (runCommand c h s).mem.wf = true := by
  unfold runCommand
  split
  · exact hm
  · split
    · split
      · simp [hm]
      · dsimp only
        split
        · exact runLocal_wf hc _ _ hm
        · split
          · exact runLocal_wf hc _ _ hm
          · exact runFront_wf hc _ _ _ hm
    · exact hm

theorem runAt_wf {c : Command} (hc : KeepsMemory c) (mods : State → Flight → List Nat) (h : Nat) (s : State) (hm : s.mem.wf = true) :
    (runAt c mods h s).mem.wf = true := by
  unfold runAt
  dsimp only
  (repeat' split) <;> simp [runLocal_wf hc, runFront_wf hc, hm]

theorem runEntry_wf {c : Command} (hc : KeepsMemory c) (h : Nat) (s : State) (hm : s.mem.wf = true) : (runEntry c h s).mem.wf = true := by
  unfold runEntry
  (repeat' split) <;> simp [runLocal_wf hc, hm]

/-! ### RunEnds -/

@[simp] theorem abortFlight_mem (f : Flight) (st : Status) (d : Nat) (result : Bytes) (s : State) : (abortFlight f st d result s).mem = s.mem := by
  simp [abortFlight]

@[simp] theorem faultRun_mem (r : Run) (hart cause : Nat) (st : Status) (d pc addr insn : Nat) (s : State) :
    (faultRun r hart cause st d pc addr insn s).mem = s.mem := by
  simp only [faultRun]; split <;> simp

@[simp] theorem nanTrap_mem (serial unit tenant : Nat) (rec' : Bytes) (s : State) : (nanTrap serial unit tenant rec' s).mem = s.mem := by
  simp only [nanTrap]; split <;> simp

theorem eccOutcome_mem {r : Run} {hart pc insn : Nat} {e : EccEvent} {s t : State} (h : eccOutcome r hart pc insn e s = some t) : t.mem = s.mem := by
  unfold eccOutcome at h
  split at h <;> cases h
  simp

@[simp] theorem eccNote_mem (cell : Nat) (e : EccEvent) (s : State) : (eccNote cell e s).mem = s.mem := by unfold eccNote; split <;> simp

/-! ### CoreOps -/

@[simp] theorem settleStep_mem (serial : Nat) (s : State) : (settleStep serial s).mem = s.mem := by simp only [settleStep]; (repeat' split) <;> simp

@[simp] theorem startHalt_mem (r : Run) (brk : Option Nat) (hart reason : Nat) (s : State) : (startHalt r brk hart reason s).mem = s.mem := (rfl)

@[simp] theorem hitBreak_mem (r : Run) (b : Breakpoint) (hart pc reason : Nat) (s : State) : (hitBreak r b hart pc reason s).mem = s.mem := (rfl)

theorem coreRow_wf {hart : Nat} {want : Nat → Bool} {k : Run → Core → Fetched → Nat → State → State}
    (hk : ∀ r c f w t, t.mem.wf = true → (k r c f w t).mem.wf = true) (s : State) (hm : s.mem.wf = true) :
    (coreRow hart want k s).mem.wf = true := by
  unfold coreRow
  (repeat' split) <;> simp [hk, hm]

@[simp] theorem retireCustom_mem (r : Run) (hart : Nat) (c : Core) (s : State) : (retireCustom r hart c s).mem = s.mem := (rfl)

@[simp] theorem stallCore_mem (hart : Nat) (c : Core) (st : Stall) (s : State) : (stallCore hart c st s).mem = s.mem := (rfl)

@[simp] theorem faultCore_mem (r : Run) (hart : Nat) (c : Core) (f : Fetched) (cause : Nat) (st : Status) (d addr : Nat) (s : State) :
    (faultCore r hart c f cause st d addr s).mem = s.mem := by
  simp [faultCore]

@[simp] theorem coreStore_wf (hart : Nat) (st : Option (Nat × Bytes)) (c : Core) (s : State) (hm : s.mem.wf = true) :
    (coreStore hart st c s).mem.wf = true := by
  unfold coreStore; split <;> simp [hm]

@[simp] theorem popArray_mem (cell : Nat) (s : State) : (popArray cell s).mem = s.mem := (rfl)

@[simp] theorem popVector_mem (cell : Nat) (s : State) : (popVector cell s).mem = s.mem := (rfl)

@[simp] theorem countRun_mem (serial : Nat) (n : NumCounts) (s : State) : (countRun serial n s).mem = s.mem := by unfold countRun; split <;> simp

/-! ### ArrayRows -/

@[simp] theorem arrayIssue_wf (hart : Nat) (s : State) (hm : s.mem.wf = true) : (arrayIssue hart s).mem.wf = true :=
  coreRow_wf (fun r c f w t hm => by dsimp only; (repeat' split) <;> simp [hm]) s hm

@[simp] theorem parityEnds_mem (f : Flight) (cell row : Nat) (s : State) : (parityEnds f cell row s).mem = s.mem := by simp [parityEnds]

@[simp] theorem accumulatorParity_mem (r : Run) (cell row : Nat) (s : State) : (accumulatorParity r cell row s).mem = s.mem := by
  unfold accumulatorParity; split <;> simp

@[simp] theorem applyArray_wf (r : Run) (e : ArrayEntry) (cell : Nat) (o : ArrayOut) (s : State) (hm : s.mem.wf = true) :
    (applyArray r e cell o s).mem.wf = true := by
  unfold applyArray
  split
  · simp [hm]
  · split <;> simp +contextual [drawFree, hm]

theorem arrayRow_wf {cell op : Nat} {parity : Option Nat} {ecc : EccEvent} {reads : ArrayEntry → List (Nat × Nat)}
    {run : Run → Cell → ArrayEntry → State → ArrayOut} {count : Cell → ArrayEntry → State → State}
    (hc : ∀ c e t, t.mem.wf = true → (count c e t).mem.wf = true) (s : State) (hm : s.mem.wf = true) :
    (arrayRow cell op parity ecc reads run count s).mem.wf = true := by
  unfold arrayRow
  split
  · exact hm
  · split
    · simp [hm]
    · split
      · exact wf_of_eq (eccOutcome_mem ‹_›) hm
      · split <;> simp [hc, hm]

@[simp] theorem countTail_mem (cell : Nat) (c : Cell) (s : State) : (countTail cell c s).mem = s.mem := (rfl)

@[simp] theorem mma_wf (cell : Nat) (parity : Option Nat) (ecc : EccEvent) (s : State) (hm : s.mem.wf = true) :
    (mma cell parity ecc s).mem.wf = true :=
  arrayRow_wf (fun c e t hm => by simp [hm]) s hm

@[simp] theorem mld_wf (cell : Nat) (ecc : EccEvent) (s : State) (hm : s.mem.wf = true) : (mld cell ecc s).mem.wf = true :=
  arrayRow_wf (fun c e t hm => by simp [hm]) s hm

@[simp] theorem mdr_wf (cell : Nat) (parity : Option Nat) (s : State) (hm : s.mem.wf = true) : (mdr cell parity s).mem.wf = true :=
  arrayRow_wf (fun c e t hm => by simp [hm]) s hm

@[simp] theorem mrs_wf (cell : Nat) (parity : Option Nat) (ecc : EccEvent) (s : State) (hm : s.mem.wf = true) :
    (mrs cell parity ecc s).mem.wf = true :=
  arrayRow_wf (fun c e t hm => by simp [hm]) s hm

@[simp] theorem mfence_wf (hart : Nat) (s : State) (hm : s.mem.wf = true) : (mfence hart s).mem.wf = true :=
  coreRow_wf (fun r c f w t hm => by split <;> simp [hm]) s hm

/-! ### HostRows -/

@[simp] theorem badAccess_mem (s : State) : (badAccess s).mem = s.mem := (rfl)

@[simp] theorem parityRewritten_mem (bar off : Nat) (s : State) : (parityRewritten bar off s).mem = s.mem := (rfl)

@[simp] theorem sqTailWrite_mem (ring : Nat) (value : W32) (s : State) : (sqTailWrite ring value s).mem = s.mem := by simp [sqTailWrite]

@[simp] theorem cqHeadWrite_mem (ring : Nat) (value : W32) (s : State) : (cqHeadWrite ring value s).mem = s.mem := by simp [cqHeadWrite]

@[simp] theorem sqEnable_mem (ring : Nat) (s : State) : (sqEnable ring s).mem = s.mem := by simp [sqEnable]

@[simp] theorem sqDisable_mem (ring : Nat) (s : State) : (sqDisable ring s).mem = s.mem := (rfl)

@[simp] theorem voidReservations_mem (ring : Nat) (s : State) : (voidReservations ring s).mem = s.mem := (rfl)

@[simp] theorem cqEnable_mem (ring : Nat) (irqEn : Bool) (s : State) : (cqEnable ring irqEn s).mem = s.mem := by simp [cqEnable]

@[simp] theorem cqDisable_mem (ring : Nat) (irqEn : Bool) (s : State) : (cqDisable ring irqEn s).mem = s.mem := (rfl)

@[simp] theorem irqEventEnWrite_mem (value : W32) (s : State) : (irqEventEnWrite value s).mem = s.mem := by simp [irqEventEnWrite]

@[simp] theorem unmaskVector_mem (v : Nat) (s : State) : (unmaskVector v s).mem = s.mem := by simp [unmaskVector]

@[simp] theorem cqCoalExpiry_mem (ring now : Nat) (s0 : State) : (cqCoalExpiry ring now s0).mem = s0.mem := by simp [cqCoalExpiry]

@[simp] theorem hostReadFails_mem (what : HostRead) (s : State) : (hostReadFails what s).mem = s.mem := by
  unfold hostReadFails; (repeat' split) <;> simp

@[simp] theorem voidAll_mem (s : State) : (voidAll s).mem = s.mem := (rfl)

@[simp] theorem functionReset_mem (config : Bool) (s : State) : (functionReset config s).mem = s.mem := by simp [functionReset]

@[simp] theorem flrOrHold_mem (config : Bool) (s : State) : (flrOrHold config s).mem = s.mem := by simp [flrOrHold]

@[simp] theorem linkDown_mem (s : State) : (linkDown s).mem = s.mem := (rfl)

@[simp] theorem sqConfigWrite_mem (ring reg v : Nat) (s : State) : (sqConfigWrite ring reg v s).mem = s.mem := by
  unfold sqConfigWrite; (repeat' split) <;> simp

@[simp] theorem cqConfigWrite_mem (ring reg v : Nat) (s : State) : (cqConfigWrite ring reg v s).mem = s.mem := by
  unfold cqConfigWrite; (repeat' split) <;> simp

@[simp] theorem msixWrite_mem (off v : Nat) (s : State) : (msixWrite off v s).mem = s.mem := by simp [msixWrite]

@[simp] theorem peekRegWrite_mem (off v : Nat) (s : State) : (peekRegWrite off v s).mem = s.mem := (rfl)

@[simp] theorem registerWrite_mem (bar off v : Nat) (s : State) : (registerWrite bar off v s).mem = s.mem := by simp [registerWrite]

/-! ### PowerRows -/

/-- A restart clears the memory, R537. -/
@[simp] theorem restartAkent_wf (keepConfig clearLatch : Bool) (s : State) : (restartAkent keepConfig clearLatch s).mem.wf = true := rfl

@[simp] theorem internalReset_wf (s : State) : (internalReset s).mem.wf = true := rfl

@[simp] theorem shutdown_wf (s : State) : (shutdown s).mem.wf = true := by simp [shutdown]

@[simp] theorem startConversion_wf (s : State) (hm : s.mem.wf = true) : (startConversion s).mem.wf = true := by simp [startConversion, hm]

@[simp] theorem resetDelayExpiry_wf (now : Nat) (s0 : State) (hm : s0.mem.wf = true) : (resetDelayExpiry now s0).mem.wf = true := by
  simp only [resetDelayExpiry]; split <;> simp [hm]

@[simp] theorem powerOff_wf (s : State) : (powerOff s).mem.wf = true := rfl

@[simp] theorem retestUnits_mem (passed : List Nat) (s : State) : (retestUnits passed s).mem = s.mem := by simp [retestUnits]

@[simp] theorem boot_mem (passed : List Nat) (countersValid : Bool) (s : State) : (boot passed countersValid s).mem = s.mem := by
  simp only [boot]; (repeat' split) <;> simp

@[simp] theorem fwReady_mem (now : Nat) (s0 : State) : (fwReady now s0).mem = s0.mem := by simp [fwReady]

/-! ### BoardRows -/

@[simp] theorem spdmReply_mem (code : Nat) (content : Bytes) (s : State) : (spdmReply code content s).mem = s.mem := (rfl)

@[simp] theorem spdmError_mem (err : Nat) (s : State) : (spdmError err s).mem = s.mem := (rfl)

@[simp] theorem holdDown_mem (n : Nat) (s : State) : (holdDown n s).mem = s.mem := (rfl)

/-! ### Inbound -/

@[simp] theorem askPair_mem (dst uid : Nat) (s : State) : (askPair dst uid s).mem = s.mem := (rfl)

@[simp] theorem dropReplicasOf_mem (from' : Table → Bool) (s : State) : (dropReplicasOf from' s).mem = s.mem := (rfl)

@[simp] theorem heardFrom_mem (m : Nat) (s : State) : (heardFrom m s).mem = s.mem := by simp [heardFrom]

@[simp] theorem staleBy_mem (peer epoch : Nat) (s : State) : (staleBy peer epoch s).mem = s.mem := (rfl)

/-- The state that a message's first checks leave. -/
def inboundState (s : State) : Inbound → State
  | .ignored => s
  | .dropped t => t
  | .accepted _ t => t

theorem inbound_mem {type peer : Nat} {plain : Bytes} {s : State} {i : Inbound} (h : inbound type peer plain s = i) :
    (inboundState s i).mem = s.mem := by
  subst h
  unfold inbound
  dsimp only
  (repeat' split) <;> simp [inboundState]

theorem onMessage_wf {type peer : Nat} {plain : Bytes} {k : Msg → State → State} (hk : ∀ m t, t.mem.wf = true → (k m t).mem.wf = true)
    (s : State) (hm : s.mem.wf = true) : (onMessage type peer plain s k).mem.wf = true := by
  unfold onMessage
  split <;> have hi := wf_of_eq (inbound_mem ‹_›) hm
  · exact hm
  · exact hi
  · exact hk _ _ hi

/-! ### SchedOps -/

@[simp] theorem setItem_mem (i : WorkItem) (s : State) : (setItem i s).mem = s.mem := (rfl)

@[simp] theorem passCell_wf (tenant : Nat) (s : State) (c : Nat) (hm : s.mem.wf = true) :
    (passCell tenant s c).mem.wf = true := by simp [passCell, hm]

@[simp] theorem startKernel_mem (i : WorkItem) (cells : List Nat) (s : State) : (startKernel i cells s).mem = s.mem := by
  unfold startKernel
  split
  · rfl
  · dsimp only
    split
    · rfl
    · simp
    · rw [foldl_mem _ _ _ fun t c => by simp, foldl_mem _ _ _ fun t x => by simp]

@[simp] theorem grantCells_wf (i : WorkItem) (places : List (Nat × Bool)) (s : State) (hm : s.mem.wf = true) :
    (grantCells i places s).mem.wf = true := by
  have hp := foldl_wf (passCell i.tenant) (places.map (·.1)) s (fun t c ht => passCell_wf _ t c ht) hm
  simp [grantCells, hp]

@[simp] theorem serveItem_wf (i : WorkItem) (s : State) (hm : s.mem.wf = true) : (serveItem i s).mem.wf = true := by simp [serveItem, hm]

@[simp] theorem serveAll_wf (l : List WorkItem) (s : State) (hm : s.mem.wf = true) : (serveAll l s).mem.wf = true := by
  induction l generalizing s with
  | nil => exact hm
  | cons i is ih => simp [serveAll, ih, hm]

@[simp] theorem preempt_mem (v : WorkItem) (s : State) : (preempt v s).mem = s.mem := by simp only [preempt]; split <;> simp

@[simp] theorem serveByForce_wf (fuel : Nat) (i : WorkItem) (s : State) (hm : s.mem.wf = true) : (serveByForce fuel i s).mem.wf = true := by
  induction fuel generalizing s with
  | zero => simp [serveByForce, hm]
  | succ fuel ih =>
    unfold serveByForce
    dsimp only
    (repeat' split) <;> simp [ih, hm]

@[simp] theorem demandThaw_mem (s : State) (q : Nat) : (demandThaw s q).mem = s.mem := by simp [demandThaw]

@[simp] theorem thawFor_mem (coming : Nat) (l : List WorkItem) (s : State) : (thawFor coming l s).mem = s.mem := by
  induction l generalizing coming s with
  | nil => rfl
  | cons i is ih => simp [thawFor, ih]

@[simp] theorem preThaw_mem (s : State) : (preThaw s).mem = s.mem := by simp [preThaw]

@[simp] theorem schedPoint_wf (s : State) (hm : s.mem.wf = true) : (schedPoint s).mem.wf = true := by
  unfold schedPoint
  split
  · exact hm
  · dsimp only
    rw [preThaw_mem, thawFor_mem]
    refine foldl_wf _ _ _ (fun t i ht => ?_) (serveAll_wf _ _ hm)
    split <;> simp [ht]

@[simp] theorem wakeTenant_mem (tenant : Nat) (s : State) : (wakeTenant tenant s).mem = s.mem := by unfold wakeTenant; (repeat' split) <;> simp

@[simp] theorem enterItem_mem (i : WorkItem) (s : State) : (enterItem i s).mem = s.mem := by simp [enterItem]

@[simp] theorem submitItem_wf (f : Flight) (placement tiles tiles0 : Nat) (whole : Bool) (layer : Nat) (prefer : Option Nat)
    (s : State) (hm : s.mem.wf = true) :
    (submitItem f placement tiles tiles0 whole layer prefer s).mem.wf = true := by
  simp [submitItem, hm]

/-! ### VectorRows -/

@[simp] theorem vectorIssue_wf (hart : Nat) (s : State) (hm : s.mem.wf = true) : (vectorIssue hart s).mem.wf = true :=
  coreRow_wf (fun r c f w t hm => by dsimp only; (repeat' split) <;> simp [hm]) s hm

@[simp] theorem applyVector_mem (r : Run) (e : VectorEntry) (cell : Nat) (o : VecOut) (s : State) : (applyVector r e cell o s).mem = s.mem := by
  simp [applyVector]

theorem vectorRow_wf {cell : Nat} {want : Nat → Bool} {k : Run → VectorEntry → Cell → State → State}
    (hk : ∀ r e c t, t.mem.wf = true → (k r e c t).mem.wf = true) (s : State) (hm : s.mem.wf = true) :
    (vectorRow cell want k s).mem.wf = true := by
  unfold vectorRow
  split
  · exact hm
  · exact hk _ _ _ _ hm

@[simp] theorem varith_wf (cell f7 : Nat) (s : State) (hm : s.mem.wf = true) : (varith cell f7 s).mem.wf = true :=
  vectorRow_wf (fun r e c t hm => by simp [hm]) s hm

@[simp] theorem vscal_wf (cell : Nat) (s : State) (hm : s.mem.wf = true) : (vscal cell s).mem.wf = true :=
  vectorRow_wf (fun r e c t hm => by simp [hm]) s hm

@[simp] theorem vld_wf (cell : Nat) (ecc : EccEvent) (s : State) (hm : s.mem.wf = true) : (vld cell ecc s).mem.wf = true :=
  vectorRow_wf (fun r e c t hm => by
    dsimp only
    split
    · simp [hm]
    · split
      · exact wf_of_eq (eccOutcome_mem ‹_›) hm
      · simp [hm]
      · simp [hm]) s hm

@[simp] theorem vst_wf (cell : Nat) (s : State) (hm : s.mem.wf = true) : (vst cell s).mem.wf = true :=
  vectorRow_wf (fun r e c t hm => by dsimp only; split <;> simp [hm]) s hm

@[simp] theorem vreduce_wf (cell f7 : Nat) (op : Nat → Nat → Nat × NumCounts) (s : State) (hm : s.mem.wf = true) :
    (vreduce cell f7 op s).mem.wf = true :=
  vectorRow_wf (fun r e c t hm => by simp [hm]) s hm

@[simp] theorem vextr_wf (cell : Nat) (s : State) (hm : s.mem.wf = true) : (vextr cell s).mem.wf = true :=
  vectorRow_wf (fun r e c t hm => by simp [hm]) s hm

@[simp] theorem vins_wf (cell : Nat) (s : State) (hm : s.mem.wf = true) : (vins cell s).mem.wf = true :=
  vectorRow_wf (fun r e c t hm => by simp [hm]) s hm

@[simp] theorem vcvt_wf (cell : Nat) (s : State) (hm : s.mem.wf = true) : (vcvt cell s).mem.wf = true :=
  vectorRow_wf (fun r e c t hm => by simp [hm]) s hm

@[simp] theorem vseed_wf (cell : Nat) (s : State) (hm : s.mem.wf = true) : (vseed cell s).mem.wf = true :=
  vectorRow_wf (fun r e c t hm => by simp [hm]) s hm

@[simp] theorem vfence_wf (hart : Nat) (s : State) (hm : s.mem.wf = true) : (vfence hart s).mem.wf = true :=
  coreRow_wf (fun r c f w t hm => by split <;> simp [hm]) s hm

/-! ### CoreRows -/

@[simp] theorem waitCycles_mem (hart w : Nat) (c : Core) (s : State) : (waitCycles hart w c s).2.mem = s.mem := by simp [waitCycles]

@[simp] theorem scalarRun_wf (r : Run) (hart : Nat) (c0 : Core) (f : Fetched) (w : Nat) (s0 : State) (hm : s0.mem.wf = true) :
    (scalarRun r hart c0 f w s0).mem.wf = true := by
  simp only [scalarRun]; (repeat' split) <;> simp [hm]

@[simp] theorem scalarInstruction_wf (hart : Nat) (ecc : EccEvent) (s : State) (hm : s.mem.wf = true) :
    (scalarInstruction hart ecc s).mem.wf = true := by
  unfold scalarInstruction
  split
  · exact hm
  · split
    · simp [hm]
    · split
      · simp [hm]
      · split
        · simp [hm]
        · split
          · exact wf_of_eq (eccOutcome_mem ‹_›) hm
          · simp [hm]

@[simp] theorem endStep_mem (r : Run) (outcome pc : Nat) (s : State) : (endStep r outcome pc s).mem = s.mem := by
  simp only [endStep]; (repeat' split) <;> simp

@[simp] theorem ecall_wf (hart : Nat) (s : State) (hm : s.mem.wf = true) : (ecall hart s).mem.wf = true :=
  coreRow_wf (fun r c f w t hm => by dsimp only; split <;> simp [hm]) s hm

@[simp] theorem ebreak_wf (hart : Nat) (s : State) (hm : s.mem.wf = true) : (ebreak hart s).mem.wf = true :=
  coreRow_wf (fun r c f w t hm => by (repeat' split) <;> simp [hm]) s hm

@[simp] theorem dsub_wf (hart : Nat) (s : State) (hm : s.mem.wf = true) : (dsub hart s).mem.wf = true :=
  coreRow_wf (fun r c f w t hm => by
    dsimp only
    split
    · simp [hm]
    · split
      · simp [hm]
      · split
        · simp [hm]
        · split <;> simp [drawFree, hm]) s hm

@[simp] theorem dwait_wf (hart : Nat) (s : State) (hm : s.mem.wf = true) : (dwait hart s).mem.wf = true :=
  coreRow_wf (fun r c f w t hm => by dsimp only; split <;> simp [hm]) s hm

@[simp] theorem dpoll_wf (hart : Nat) (s : State) (hm : s.mem.wf = true) : (dpoll hart s).mem.wf = true :=
  coreRow_wf (fun r c f w t hm => by simp [hm]) s hm

@[simp] theorem releaseBar_mem (r : Run) (harts : List Nat) (s : State) : (releaseBar r harts s).mem = s.mem := by simp [releaseBar]

@[simp] theorem tryBarriers_mem (serial : Nat) (s : State) : (tryBarriers serial s).mem = s.mem := by
  unfold tryBarriers
  split
  · rfl
  · rw [foldl_mem _ _ _ fun t cell => foldl_mem _ _ _ fun u id => ?_, foldl_mem _ _ _ fun t id => ?_]
    · split <;> simp
    · dsimp only
      (repeat' split) <;> simp

@[simp] theorem bar_wf (hart : Nat) (s : State) (hm : s.mem.wf = true) : (bar hart s).mem.wf = true :=
  coreRow_wf (fun r c f w t hm => by dsimp only; (repeat' split) <;> simp [hm]) s hm

@[simp] theorem barrierDeadlock_mem (h : Nat) (s : State) : (barrierDeadlock h s).mem = s.mem := by unfold barrierDeadlock; split <;> simp

@[simp] theorem wopen_wf (hart : Nat) (s : State) (hm : s.mem.wf = true) : (wopen hart s).mem.wf = true :=
  coreRow_wf (fun r c f w t hm => by dsimp only; (repeat' split) <;> simp [hm]) s hm

@[simp] theorem wclose_wf (hart : Nat) (s : State) (hm : s.mem.wf = true) : (wclose hart s).mem.wf = true :=
  coreRow_wf (fun r c f w t hm => by simp [hm]) s hm

@[simp] theorem endTransfer_mem (r : Run) (t : Transfer) (s : State) : (endTransfer r t s).mem = s.mem := by unfold endTransfer; split <;> simp

@[simp] theorem dmaIn_wf (r : Run) (t : Transfer) (s : State) (hm : s.mem.wf = true) : (dmaIn r t s).mem.wf = true := by
  have hn : ∀ u, (dmaIn.noteReads r t u).mem = u.mem := fun u => by unfold dmaIn.noteReads; split <;> simp
  simp +contextual [dmaIn, hn, hm]

@[simp] theorem dmaIn.noteReads_mem (r : Run) (t : Transfer) (s : State) : (dmaIn.noteReads r t s).mem = s.mem := by
  unfold dmaIn.noteReads; split <;> simp

theorem dmaOut_mem {r : Run} {t : Transfer} {s : State} {o : Room} (h : dmaOut r t s = o) : (roomState o).mem = s.mem := by
  subst h
  unfold dmaOut
  dsimp only
  split <;> have hf := findFrames_mem ‹_›
  · exact hf
  · exact hf
  · split
    · exact hf
    · simpa [roomState] using hf

@[simp] theorem dmaTierFault_mem (r : Run) (t : Transfer) (st : Status) (addr : Nat) (s : State) : (dmaTierFault r t st addr s).mem = s.mem := by
  simp [dmaTierFault]

@[simp] theorem dmaComplete_wf (hart tag : Nat) (outcome : TierOutcome) (addr : Nat) (s : State) (hm : s.mem.wf = true) :
    (dmaComplete hart tag outcome addr s).mem.wf = true := by
  unfold dmaComplete
  split
  · exact hm
  · extract_lets reads extent met s1
    have h1 : s1.mem.wf = true := wf_of_eq (markUnit_mem _ _ _ _ _ _) hm
    clear_value s1 reads met
    split
    · exact hm
    · split
      · simpa using h1
      · split
        · split
          · split <;> simpa using h1
          · simp [h1]
        · split
          · simpa using h1
          · split <;> (have hd := wf_of_eq (dmaOut_mem ‹dmaOut _ _ _ = _›) h1; simpa [roomState] using hd)

@[simp] theorem remoteWriteArrival_wf (hart tag : Nat) (s : State) (hm : s.mem.wf = true) : (remoteWriteArrival hart tag s).mem.wf = true := by
  unfold remoteWriteArrival
  dsimp only
  (repeat' split) <;> simp +contextual [hm]

/-! ### KernelRows -/

theorem kernelLoadCommand_sound : KeepsMemory kernelLoadCommand := ⟨fun s f hm => by simp [kernelLoadCommand, hm], fun _ _ hm => hm⟩

theorem kernelRunCommand_sound : KeepsMemory kernelRunCommand :=
    ⟨fun s f hm => by simp only [kernelRunCommand]; split <;> simp [hm], fun _ _ hm => hm⟩

@[simp] theorem trackRelease_mem (i : WorkItem) (cycles : Nat) (s : State) : (trackRelease i cycles s).mem = s.mem := by simp [trackRelease]

theorem kernelApply_wf {f : Flight} {r : Run} {cycles : Nat} {s : State} {o : CommitOutcome} (h : kernelApply f r cycles s = o)
    (hm : s.mem.wf = true) :
    (outcomeState o).mem.wf = true := by
  subst h
  unfold kernelApply
  dsimp only
  split <;> have hc := commitWrites_wf ‹_› hm
  · exact hc
  · exact hc
  · (simp only [outcomeState] at hc ⊢; simp [hc])

@[simp] theorem kernelRunCommit_wf (h cycles : Nat) (s : State) (hm : s.mem.wf = true) : (kernelRunCommit h cycles s).mem.wf = true := by
  unfold kernelRunCommit
  split
  · split
    · exact hm
    · split
      · simp [hm]
      · split <;> have hk := kernelApply_wf ‹_› hm
        · exact hk
        · (simp only [outcomeState] at hk; simp [hk])
        · split
          · (simp only [outcomeState] at hk; simp [hk])
          · simp [hm]
  · exact hm

@[simp] theorem commandDeadline_wf (h now : Nat) (s0 : State) (hm : s0.mem.wf = true) : (commandDeadline h now s0).mem.wf = true := by
  simp only [commandDeadline]; (repeat' split) <;> simp [hm]

/-! ### ChainRows -/

theorem chainDefineCommand_sound : KeepsMemory chainDefineCommand := ⟨fun s f hm => by simp [chainDefineCommand, hm], fun _ _ hm => hm⟩

@[simp] theorem layerItem_wf (chains : KMap Chain) (f : Flight) (i : Nat) (s : State) (hm : s.mem.wf = true) :
    (layerItem chains f i s).mem.wf = true := by
  simp [layerItem, hm]

@[simp] theorem enterPartials_mem (serial : Nat) (s : State) : (enterPartials serial s).mem = s.mem := by
  unfold enterPartials
  split
  · exact foldl_mem _ _ _ fun t p => by split <;> simp
  · rfl

@[simp] theorem takeEarly_mem (f : Flight) (s : State) : (takeEarly f s).mem = s.mem := by unfold takeEarly; split <;> simp

@[simp] theorem startLayers_wf (f : Flight) (s : State) (hm : s.mem.wf = true) : (startLayers f s).mem.wf = true := by simp [startLayers, hm]

theorem layerRunCommand_sound : KeepsMemory layerRunCommand where
  run s f hm := by
    simp only [layerRunCommand]
    split <;> (have hf := findFrames_wf ‹_› hm; simp only [roomState] at hf; simp [hf])
  prepare _ _ hm := hm

@[simp] theorem layerNanRecord_mem (f : Flight) (n : ChainNan) (s : State) : (layerNanRecord f n s).2.2.mem = s.mem := (rfl)

@[simp] theorem layerStops_wf (f : Flight) (e : ChainStop) (s : State) (hm : s.mem.wf = true) : (layerStops f e s).mem.wf = true := by
  unfold layerStops; split <;> simp [hm]

@[simp] theorem gaugeAll_mem (tenant : Nat) (l : List (Nat × Nat × Nat × Nat)) (s : State) : (gaugeAll tenant l s).mem = s.mem :=
  foldl_mem _ _ _ fun t x => by
    split
    · rfl
    · split
      · rfl
      · split <;> rfl

@[simp] theorem trackExceeds_mem (f : Flight) (l : List (Nat × Nat)) (s : State) : (trackExceeds f l s).mem = s.mem := by
  induction l generalizing s with
  | nil => rfl
  | cons x l ih => simp [trackExceeds, ih, drawFree]

theorem layerApply_wf {f : Flight} {held : Nat} {r : LayerResult} {s : State} {o : CommitOutcome} (h : layerApply f held r s = o)
    (hm : s.mem.wf = true) :
    (outcomeState o).mem.wf = true := by
  subst h
  unfold layerApply
  split <;> have hc := commitWrites_wf ‹_› hm
  · exact hc
  · exact hc
  · (simp only [outcomeState] at hc ⊢; simp [hc])

@[simp] theorem dropJob_mem (serial : Nat) (s : State) : (dropJob serial s).mem = s.mem := (rfl)

@[simp] theorem layerRunCommit_wf (h : Nat) (s : State) (hm : s.mem.wf = true) : (layerRunCommit h s).mem.wf = true := by
  unfold layerRunCommit
  split
  · split
    · exact hm
    · split
      · simp [hm]
      · split
        · simp [hm]
        · split <;> have hk := layerApply_wf ‹_› hm
          · exact hk
          · (simp only [outcomeState] at hk; simp [hk])
          · split
            · (simp only [outcomeState] at hk; simp [hk])
            · simp [hm]
  · exact hm

@[simp] theorem tileChannel_mem (serial dst : Nat) (s : State) : (tileChannel serial dst s).2.mem = s.mem := by
  unfold tileChannel; (repeat' split) <;> simp

@[simp] theorem pumpTiles_mem (serial fuel : Nat) (s : State) : (pumpTiles serial fuel s).mem = s.mem := by
  induction fuel generalizing s with
  | zero => rfl
  | succ fuel ih =>
    unfold pumpTiles
    split
    · split
      · rfl
      · rename_i dst p _
        have ht := tileChannel_mem serial dst s
        generalize tileChannel serial dst s = x at ht ⊢
        obtain ⟨ch, s1⟩ := x
        dsimp only at ht ⊢
        split
        · exact ht
        · rw [ih]
          dsimp only
          split <;> simpa using ht
    · rfl

theorem sendPartials_mem {f : Flight} {job : LayerJob} {i : Nat} {s t : State} (h : sendPartials f job i s = .ok t) : t.mem = s.mem := by
  unfold sendPartials at h
  dsimp only at h
  split at h
  · cases h; rfl
  · split at h
    · cases h
    · split at h <;> cases h
      simp

@[simp] theorem tileMessage_wf (peer : Nat) (plain : Bytes) (s : State) (hm : s.mem.wf = true) : (tileMessage peer plain s).mem.wf = true :=
  onMessage_wf (fun m t hm => by
    extract_lets b rows cols p
    clear_value rows cols
    split
    · simp [hm]
    · split
      · exact hm
      · split <;> simp [hm]) s hm

/-! ### AccountOps -/

@[simp] theorem histSample_mem (tenant metric bucket stamp : Nat) (s : State) : (histSample tenant metric bucket stamp s).mem = s.mem := (rfl)

@[simp] theorem recordSample_mem (tenant metric bucket stamp : Nat) (covered : Bool) (s : State) :
    (recordSample tenant metric bucket stamp covered s).mem = s.mem := by
  simp only [recordSample]; (repeat' split) <;> simp

@[simp] theorem debit_mem (tenant tokens : Nat) (s : State) : (debit tenant tokens s).mem = s.mem := by simp only [debit]; split <;> simp

@[simp] theorem postBreach_mem (ring session tenant commandId detail : Nat) (b : Bytes) (unpostedHere : Bool) (s : State) :
    (postBreach ring session tenant commandId detail b unpostedHere s).mem = s.mem := by
  simp [postBreach]

@[simp] theorem reportBreach_mem (tenant : Nat) (c : Contract) (kind commandId observed start covered : Nat) (s : State) :
    (reportBreach tenant c kind commandId observed start covered s).mem = s.mem := by
  simp [reportBreach]

@[simp] theorem judgeWindow_mem (tenant : Nat) (x : ContractWindow) (s : State) : (judgeWindow tenant x s).mem = s.mem := by
  unfold judgeWindow; (repeat' split) <;> simp

@[simp] theorem contractTick_mem (s : State) : (contractTick s).mem = s.mem := by
  unfold contractTick
  refine foldl_mem _ _ _ fun t p => ?_
  simp

@[simp] theorem admitCovered_mem (tenant stamp : Nat) (s : State) : (admitCovered tenant stamp s).mem = s.mem := by
  unfold admitCovered; split <;> simp

@[simp] theorem endCovered_mem (tenant stamp : Nat) (s : State) : (endCovered tenant stamp s).mem = s.mem := by unfold endCovered; split <;> simp

/-! ### DebugOps -/

@[simp] theorem resumeRun_mem (serial : Nat) (s : State) : (resumeRun serial s).mem = s.mem := by unfold resumeRun; split <;> simp

@[simp] theorem clearBreaks_mem (p : Breakpoint → Bool) (s : State) : (clearBreaks p s).mem = s.mem := (rfl)

@[simp] theorem closeBreaks_mem (session : Nat) (s : State) : (closeBreaks session s).mem = s.mem := by simp [closeBreaks]

@[simp] theorem withdrawConsent_mem (tenant : Nat) (s : State) : (withdrawConsent tenant s).mem = s.mem := by simp [withdrawConsent]

@[simp] theorem redactTenant_mem (tenant : Nat) (s : State) : (redactTenant tenant s).mem = s.mem := (rfl)

/-! ### ItemOps -/

@[simp] theorem acknowledge_mem (seq : Nat) (s : State) : (acknowledge seq s).mem = s.mem := by simp [acknowledge]

@[simp] theorem setTiers_sound (s : State) (t : Tiers) (hm : s.mem.wf = true) : OkSound (setTiers s t) := by simp [setTiers, hm]

@[simp] theorem applyItem_sound (tenant : Nat) (i : Item) (s : State) (hm : s.mem.wf = true) : OkSound (applyItem tenant i s) := by
  simp [applyItem, hm]

@[simp] theorem applyItems_sound (tenant : Nat) (l : List Item) (s : State) (hm : s.mem.wf = true) : OkSound (applyItems tenant l s) := by
  induction l generalizing s with
  | nil => exact hm
  | cons i l ih =>
    have hi := applyItem_sound tenant i s hm
    unfold applyItems
    split
    · rename_i heq
      rw [heq, okSound_ok] at hi
      exact ih _ hi
    · trivial

/-! ### SchedRows -/

@[simp] theorem schedulingTimer_wf (now : Nat) (s0 : State) (hm : s0.mem.wf = true) : (schedulingTimer now s0).mem.wf = true := by
  simp [schedulingTimer, hm]

@[simp] theorem countTiles_mem (i : WorkItem) (out : Nat → Nat) (k : Nat) (l : List TileWork) (s : State) : (countTiles i out k l s).mem = s.mem := by
  induction l generalizing k s with
  | nil => rfl
  | cons w ws ih => simp [countTiles, ih, drawFree]

@[simp] theorem itemRelease_wf (item : Nat) (work : ItemEnd) (now : Nat) (s : State) (hm : s.mem.wf = true) :
    (itemRelease item work now s).mem.wf = true := by
  unfold itemRelease
  dsimp only
  split
  · exact hm
  · split
    · exact hm
    · split
      · split
        · split <;> simp [hm]
        · split
          · exact hm
          · simp [hm]
          · have hp := wf_of_eq (sendPartials_mem ‹_›) (wf_of_eq (advance_mem _ _) hm)
            split
            · simp [hp]
            · split <;> simp [hp]
      · exact hm

@[simp] theorem setQuadrant_mem (q : Nat) (x : Quadrant) (s : State) : (setQuadrant q x s).mem = s.mem := (rfl)

@[simp] theorem moveQuadrant_mem (q : Nat) (st : QState) (s : State) : (moveQuadrant q st s).mem = s.mem := (rfl)

@[simp] theorem thawComplete_wf (q now : Nat) (s0 : State) (hm : s0.mem.wf = true) :
    (thawComplete q now s0).mem.wf = true := by simp [thawComplete, hm]

@[simp] theorem frost_mem (q now : Nat) (s0 : State) : (frost q now s0).mem = s0.mem := by simp [frost]

@[simp] theorem deepFrost_mem (q now : Nat) (s0 : State) : (deepFrost q now s0).mem = s0.mem := by simp [deepFrost]

@[simp] theorem hubDomainGate_mem (domain now : Nat) (s0 : State) : (hubDomainGate domain now s0).mem = s0.mem := by simp [hubDomainGate]

theorem sharesSetCommand_sound : KeepsMemory sharesSetCommand := ⟨fun s f hm => by simp [sharesSetCommand, hm], fun _ _ hm => hm⟩

@[simp] theorem budgetRun_sound (s : State) (f : Flight) (hm : s.mem.wf = true) : Sound (budgetRun s f) := by simp [budgetRun, hm]

theorem budgetCommand_sound : KeepsMemory budgetCommand := ⟨fun s f hm => by simp [budgetCommand, hm], fun _ _ hm => hm⟩

@[simp] theorem emptyWindows_mem (tenant : Nat) (s : State) : (emptyWindows tenant s).mem = s.mem := (rfl)

@[simp] theorem contractRun_sound (s : State) (f : Flight) (hm : s.mem.wf = true) : Sound (contractRun s f) := by simp [contractRun, hm]

theorem contractCommand_sound : KeepsMemory contractCommand := ⟨fun s f hm => by simp [contractCommand, hm], fun _ _ hm => hm⟩

theorem accountReadCommand_sound : KeepsMemory accountReadCommand := ⟨fun s f hm => by simp [accountReadCommand, hm], fun _ _ hm => hm⟩

@[simp] theorem budgetRefill_mem (tenant now : Nat) (s0 : State) : (budgetRefill tenant now s0).mem = s0.mem := by
  simp only [budgetRefill]; split <;> simp

@[simp] theorem contractWindowJudged_mem (tenant n : Nat) (s : State) : (contractWindowJudged tenant n s).mem = s.mem := by
  unfold contractWindowJudged; (repeat' split) <;> simp

@[simp] theorem histogramWindow_mem (now : Nat) (s0 : State) : (histogramWindow now s0).mem = s0.mem := by simp [histogramWindow]

/-! ### MemberRows -/

theorem powerCapCommand_sound : KeepsMemory powerCapCommand := ⟨fun s f hm => by simp [powerCapCommand, hm], fun _ _ hm => hm⟩

theorem statePolicyCommand_sound : KeepsMemory statePolicyCommand := ⟨fun s f hm => by simp [statePolicyCommand, hm], fun _ _ hm => hm⟩

theorem memberResetCommand_sound : KeepsMemory memberResetCommand := ⟨fun s f hm => by simp [memberResetCommand, hm], fun _ _ hm => hm⟩

/-! ### Packets -/

@[simp] theorem sqConsume_mem (ring k : Nat) (s : State) : (sqConsume ring k s).mem = s.mem := (rfl)

@[simp] theorem refusePacket_mem (ring : Nat) (h : Header) (clear reserved : Bool) (st : Status) (d : Nat) (s : State) :
    (refusePacket ring h clear reserved st d s).mem = s.mem := by
  simp [refusePacket]

@[simp] theorem enterFlight_mem (ring : Nat) (h : Header) (op : Opcode) (tenant reserved : Nat) (params : Bytes) (s : State) :
    (enterFlight ring h op tenant reserved params s).mem = s.mem := by
  simp [enterFlight]

@[simp] theorem acceptPacket_mem (ring defCq : Nat) (h : Header) (hdrBytes raw tag : Bytes) (dr : Bool) (k : Nat) (s : State) :
    (acceptPacket ring defCq h hdrBytes raw tag dr k s).mem = s.mem := by
  simp only [acceptPacket]; (repeat' split) <;> simp

@[simp] theorem turnPasses_mem (ring : Nat) (s : State) : (turnPasses ring s).mem = s.mem := (rfl)

@[simp] theorem packetTaken_mem (ring : Nat) (bytes : Bytes) (now : Nat) (s0 : State) : (packetTaken ring bytes now s0).mem = s0.mem := by
  simp only [packetTaken]; (repeat' split) <;> simp

@[simp] theorem fencedCommandBegin_mem (h : Nat) (s : State) : (fencedCommandBegin h s).mem = s.mem := by unfold fencedCommandBegin; split <;> simp

/-! ### IndexRows -/

theorem indexCreateCommand_sound : KeepsMemory indexCreateCommand := by
  rw [indexCreateCommand]
  refine keepsMemory_mk (fun s f hm => ?_) fun _ _ hm => hm
  have ht := takeId_mem (kkeys s.indexes.indexes) f s
  generalize takeId (kkeys s.indexes.indexes) f s = p at ht ⊢
  obtain ⟨id, s0⟩ := p
  dsimp only at ht ⊢
  split
  · trivial
  · split
    · simp [ht, hm]
    · split
      · trivial
      · simp [fitIndex_wf ‹_› (wf_of_eq ht hm)]

theorem indexDropCommand_sound : KeepsMemory indexDropCommand := ⟨fun s f hm => by simp [indexDropCommand, hm], fun _ _ hm => hm⟩

theorem indexLoadCommand_sound : KeepsMemory indexLoadCommand where
  run s f hm := by
    simp only [indexLoadCommand]
    split
    · trivial
    · split
      · split
        · trivial
        · simp [fitIndex_wf ‹_›, hm]
      · trivial
  prepare _ _ hm := hm

@[simp] theorem mutate_sound {f : Flight} {x : VecIndex} {counts : Bytes} {s : State} (hs : s.mem.wf = true) : Sound (mutate f x counts s) := by
  unfold mutate
  split
  · trivial
  · split
    · trivial
    · simp [fitIndex_wf ‹_›, hs]

theorem vecInsertCommand_sound : KeepsMemory vecInsertCommand where
  run s f hm := by
    simp only [vecInsertCommand]
    split
    · trivial
    · exact mutate_sound (by simp [hm])
  prepare _ _ hm := hm

theorem vecDeleteCommand_sound : KeepsMemory vecDeleteCommand where
  run s f hm := by
    simp only [vecDeleteCommand]
    split
    · trivial
    · exact mutate_sound hm
  prepare _ _ hm := hm

@[simp] theorem indexMergeRun_sound (s : State) (f : Flight) (hm : s.mem.wf = true) : Sound (indexMergeRun s f) := by
  have hfit := @fitIndex_wf
  rw [indexMergeRun]
  obtain ⟨take, ht⟩ : ∃ take, take = takeStorage := exists_eq
  obtain ⟨resize, hr⟩ : ∃ resize, resize = resizeHold := exists_eq
  obtain ⟨fit, hf⟩ : ∃ fit, fit = fitIndex := exists_eq
  rw [← ht, ← hr, ← hf]
  rw [← hf] at hfit
  split
  · trivial
  · dsimp only
    split
    · trivial
    · split
      · trivial
      · split
        · trivial
        · simp [hfit ‹_›, hm]

theorem indexMergeCommand_sound : KeepsMemory indexMergeCommand where
  run := indexMergeRun_sound
  prepare s f hm := by
    simp only [indexMergeCommand]
    split <;> simp [hm]

@[simp] theorem specLists_mem (ra lists scanned : Nat) (s : State) : (specLists ra lists scanned s).2.2.mem = s.mem := by
  unfold specLists; split <;> simp

@[simp] theorem countSearch_mem (id tenant queries nonfinite ra : Nat) (work : SearchWork) (s : State) :
    (countSearch id tenant queries nonfinite ra work s).mem = s.mem := by
  have hw : ∀ (lists : Nat) (l : List (List Nat)) (p : Nat × Nat × State), (l.foldl (fun (p : Nat × Nat × State) l =>
      let r := specLists (runAhead ra) lists l.length p.2.2
      (p.1 + r.1, p.2.1 + r.2.1, r.2.2)) p).2.2.mem = p.2.2.mem := fun lists l p => by
    induction l generalizing p with
    | nil => rfl
    | cons x l ih => simp [ih]
  unfold countSearch
  dsimp only
  split <;> simp [hw]

@[simp] theorem askPayloads_mem (tenant : Nat) (x : VecIndex) (job : SearchJob) (owed : List Nat) (s : State) :
    (askPayloads tenant x job owed s).mem = s.mem := by
  simp [askPayloads]

@[simp] theorem servePayloads_mem (peer tenant corr id : Nat) (b : Bytes) (s : State) : (servePayloads peer tenant corr id b s).mem = s.mem := by
  unfold servePayloads; split <;> simp

@[simp] theorem takeSearchEnd_mem (peer tenant corr id : Nat) (b : Bytes) (s : State) : (takeSearchEnd peer tenant corr id b s).mem = s.mem := by
  simp only [takeSearchEnd]; split <;> simp

theorem searchDone_sound {f : Flight} {x : VecIndex} {job : SearchJob} {payloads : List (Nat × Bytes)} {s : State}
    (hs : s.mem.wf = true) : Sound (searchDone f x job payloads s) := by
  unfold searchDone
  dsimp only
  split
  · trivial
  · split
    · trivial
    · refine iteInduction (motive := Sound) (fun _ => ?_) fun _ => ?_
      · simpa using hs
      · exact commitVerdict_sound hs fun t ht => by simp [ht]

theorem settleVerdict_wf {f : Flight} {v : Verdict} {s : State} (hm : s.mem.wf = true) (hv : Sound v) : (settleVerdict f v s).mem.wf = true := by
  unfold settleVerdict
  split <;> simp_all

@[simp] theorem sendQueries_mem (f : Flight) (dst per fuel first : Nat) (qs : List Bytes) (s : State) :
    (sendQueries f dst per fuel first qs s).mem = s.mem := by
  induction fuel generalizing first qs s with
  | zero => rfl
  | succ fuel ih => cases qs <;> simp [sendQueries, ih]

@[simp] theorem searchNan_mem (f : Flight) (query e bits' : Nat) (s : State) : (searchNan f query e bits' s).mem = s.mem := by simp [searchNan]

@[simp] theorem searchBegin_wf (f : Flight) (x : VecIndex) (payloads : List (Nat × Bytes)) (s : State) (hm : s.mem.wf = true) :
    (searchBegin f x payloads s).mem.wf = true := by
  unfold searchBegin
  extract_lets qs qfmt self others own job s1 i s2
  have h1 : s1.mem.wf = true := wf_of_eq (chargeHub_mem _ _ _) hm
  have h2 : s2.mem.wf = true := wf_of_eq (setFlight_mem _ _) h1
  clear_value s2 i s1
  split
  · simp [hm]
  · split
    · simp [hm]
    · split
      · simp [hm]
      · split
        · simp [hm]
        · split
          · simp [hm]
          · split
            · exact settleVerdict_wf hm (searchDone_sound h1)
            · exact wf_of_eq (foldl_mem _ _ _ fun t m => sendQueries_mem _ _ _ _ _ _ _) h2

@[simp] theorem searchRow_wf (h : Nat) (payloads : List (Nat × Bytes)) (s : State) (hm : s.mem.wf = true) :
    (searchRow h payloads s).mem.wf = true := by
  unfold searchRow
  split
  · exact hm
  · split
    · exact hm
    · split
      · split
        · exact settleVerdict_wf hm (searchDone_sound hm)
        · exact hm
      · exact hm
      · (repeat' split) <;> simp [hm]
      · (repeat' split) <;> simp [hm]

@[simp] theorem sendParts_mem (dst tenant corr id per fuel first : Nat) (ps : List SearchPart) (s : State) :
    (sendParts dst tenant corr id per fuel first ps s).mem = s.mem := by
  induction fuel generalizing first ps s with
  | zero => rfl
  | succ fuel ih => cases ps <;> simp [sendParts, ih]

@[simp] theorem keepServed_mem (v : ServedSearch) (s : State) : (keepServed v s).mem = s.mem := (rfl)

@[simp] theorem searchReq_wf (peer : Nat) (plain : Bytes) (s : State) (hm : s.mem.wf = true) : (searchReq peer plain s).mem.wf = true :=
  onMessage_wf (fun m t hm => by
    dsimp only
    split
    · simp [hm]
    · split
      · simp [hm]
      · split
        · simp [hm]
        · split <;> simp [hm]) s hm

@[simp] theorem searchResp_wf (peer : Nat) (plain : Bytes) (s : State) (hm : s.mem.wf = true) : (searchResp peer plain s).mem.wf = true :=
  onMessage_wf (fun m t hm => by
    extract_lets b n st
    split
    · exact hm
    · split
      · exact iteInduction (motive := fun u : State => u.mem.wf = true) (fun _ => settleVerdict_wf hm (searchDone_sound hm))
          fun _ => hm
      · simp [hm]) s hm

theorem takePayloads_wf {peer tenant corr : Nat} {r : Reply} {s t : State} (h : takePayloads peer tenant corr r s = some t) (hm : s.mem.wf = true) :
    t.mem.wf = true := by
  unfold takePayloads at h
  dsimp only at h
  split at h
  · cases h
  · obtain ⟨x, -, rfl⟩ := Option.map_eq_some_iff.mp h
    split
    · split
      · exact settleVerdict_wf hm (searchDone_sound hm)
      · exact hm
    · exact hm

theorem indexStatsCommand_sound : KeepsMemory indexStatsCommand :=
  ⟨fun s f hm => by simp only [indexStatsCommand]; split <;> simp [hm], fun _ _ hm => hm⟩

/-! ### TableRows -/

@[simp] theorem tableCreateRun_sound (s : State) (f : Flight) (hm : s.mem.wf = true) : Sound (tableCreateRun s f) := by
  have htake := @takeStorage_wf
  rw [tableCreateRun]
  obtain ⟨take, ht⟩ : ∃ take, take = takeStorage := exists_eq
  rw [← ht] at htake ⊢
  dsimp only
  split
  · trivial
  · split
    · simp [hm]
    · split
      · trivial
      · have h1 := htake ‹_› (wf_of_eq (takeId_mem _ f s) hm)
        split
        · trivial
        · have h2 := htake ‹take _ 1 _ _ _ = _› h1
          simp [h2]

theorem tableCreateCommand_sound : KeepsMemory tableCreateCommand := ⟨fun s f hm => by simp [tableCreateCommand, hm], fun _ _ hm => hm⟩

@[simp] theorem releaseTable_wf (id : Nat) (s : State) (hm : s.mem.wf = true) : (releaseTable id s).mem.wf = true := by
  unfold releaseTable
  split
  · exact hm
  · exact foldl_wf _ _ _ (fun _ _ ht => releaseAlloc_wf _ _ _ ht) hm

theorem tableDropCommand_sound : KeepsMemory tableDropCommand := ⟨fun s f hm => by simp [tableDropCommand, hm], fun _ _ hm => hm⟩

@[simp] theorem writeImages_wf (us : List RowUpdate) (s : State) (hm : s.mem.wf = true) : (writeImages us s).mem.wf = true :=
  foldl_wf _ _ _ (fun t u ht => by dsimp only; split <;> simp [ht]) hm

@[simp] theorem rowsWriteRun_sound (s : State) (f : Flight) (hm : s.mem.wf = true) : Sound (rowsWriteRun s f) := by
  simp only [rowsWriteRun]; (repeat' split) <;> simp [hm]

theorem rowsWriteCommand_sound : KeepsMemory rowsWriteCommand := ⟨fun s f hm => by simp [rowsWriteCommand, hm], fun _ _ hm => hm⟩

@[simp] theorem sendUpdates_mem (f : Flight) (t : Table) (us : List RowUpdate) (s : State) (owner : Nat) :
    (sendUpdates f t us s owner).mem = s.mem := by
  simp [sendUpdates]

@[simp] theorem rowsWrite_wf (h : Nat) (s : State) (hm : s.mem.wf = true) : (rowsWrite h s).mem.wf = true := by
  unfold rowsWrite
  split
  · exact hm
  · split
    · exact hm
    · split
      · simp [hm]
      · exact hm
      · extract_lets us owners self s1
        have h1 : s1.mem.wf = true := wf_of_eq (foldl_mem _ _ _ fun t u => sendUpdates_mem _ _ _ _ _) hm
        clear_value s1
        split
        · simp [hm]
        · split
          · simp [hm]
          · split
            · simp [hm]
            · split
              · simp [hm]
              · split
                · split
                  · have hv := rowsWriteRun_sound s1 ‹_› h1
                    simp_all
                  · simp [hm]
                  · exact hm
                · simp [h1]

@[simp] theorem rowUpd_wf (peer : Nat) (plain : Bytes) (s : State) (hm : s.mem.wf = true) : (rowUpd peer plain s).mem.wf = true :=
  onMessage_wf (fun m t hm => by
    dsimp only
    split
    · exact hm
    · split <;> simp [hm]) s hm

@[simp] theorem pushRows_mem (id op : Nat) (t : Table) (rows : List Nat) (s : State) : (pushRows id op t rows s).mem = s.mem := by simp [pushRows]

@[simp] theorem reportRows_mem (w : ReplWait) (s : State) : (reportRows w s).mem = s.mem := by simp only [reportRows]; (repeat' split) <;> simp

@[simp] theorem settleRepl_mem (s : State) : (settleRepl s).mem = s.mem := by simp [settleRepl]

@[simp] theorem applyRow_wf (u : RowUpdate) (s : State) (hm : s.mem.wf = true) :
    (applyRow u s).mem.wf = true := by unfold applyRow; split <;> simp [hm]

@[simp] theorem rowWait_mem (id : Nat) (s : State) : (rowWait id s).mem = s.mem := (rfl)

@[simp] theorem rowUpdateApply_wf (s : State) (hm : s.mem.wf = true) : (rowUpdateApply s).mem.wf = true := by
  unfold rowUpdateApply
  dsimp only
  split
  · exact hm
  · rw [settleRepl_mem]
    refine wf_of_eq (foldl_mem _ _ _ fun t id => by split <;> simp) ?_
    refine wf_of_eq (foldl_mem _ _ _ fun t u => by simp) ?_
    exact foldl_wf _ _ _ (fun t u ht => applyRow_wf _ _ ht) hm

theorem onRepl_wf {op peer : Nat} {plain : Bytes} {k : Nat → Table → Bytes → State → State}
    (hk : ∀ id x b t, t.mem.wf = true → (k id x b t).mem.wf = true) (s : State) (hm : s.mem.wf = true) :
    (onRepl op peer plain s k).mem.wf = true := by
  unfold onRepl
  split
  · exact hm
  · exact onMessage_wf (fun m t hm => by
      dsimp only
      split
      · simp [hm]
      · split
        · exact hm
        · exact hk _ _ _ _ hm) s hm

@[simp] theorem rowReplInstall_wf (peer : Nat) (plain : Bytes) (s : State) (hm : s.mem.wf = true) : (rowReplInstall peer plain s).mem.wf = true :=
  onRepl_wf (fun id x b t hm => by
    dsimp only
    split <;> simp [hm]) s hm

@[simp] theorem rowReplDrop_wf (peer : Nat) (plain : Bytes) (s : State) (hm : s.mem.wf = true) : (rowReplDrop peer plain s).mem.wf = true :=
  onRepl_wf (fun id x b t hm => by simp [hm]) s hm

@[simp] theorem rowReplAck_wf (peer : Nat) (plain : Bytes) (s : State) (hm : s.mem.wf = true) : (rowReplAck peer plain s).mem.wf = true :=
  onRepl_wf (fun id x b t hm => by simp [hm]) s hm

theorem rowsReadCommand_sound (fetched : List (Nat × Nat × Bytes)) : KeepsMemory (rowsReadCommand fetched) where
  run s f hm := by
    simp only [rowsReadCommand]
    split
    · trivial
    · split
      · simp [hm]
      · exact commitVerdict_sound (by simp [hm]) fun t ht => by simp [ht]
  prepare _ _ hm := hm

@[simp] theorem noteOccurrences_mem (id stamp : Nat) (rows : List Nat) (s : State) : (noteOccurrences id stamp rows s).mem = s.mem := by
  unfold noteOccurrences; split <;> simp

@[simp] theorem bagNan_mem (f : Flight) (bag : Nat) (n : PoolNan) (s : State) : (bagNan f bag n s).mem = s.mem := by simp [bagNan]

@[simp] theorem bagCommit_sound (f : Flight) (b : Bags) (w : BagWork) (got : List (Nat × Nat × Nat × Bytes)) (s : State)
    (hm : s.mem.wf = true) :
    Sound (bagCommit f b w got s) :=
  commitVerdict_sound (by simpa using hm) fun t ht => by simp [ht]

theorem bagLookupCommand_sound (fetched : List (Nat × Nat × Bytes)) : KeepsMemory (bagLookupCommand fetched) :=
  ⟨fun s f hm => by simp only [bagLookupCommand]; (repeat' split) <;> simp [hm], fun _ _ hm => hm⟩

@[simp] theorem setHot_mem (id : Nat) (t : Table) (hot : List Nat) (s : State) : (setHot id t hot s).mem = s.mem := by simp [setHot]

@[simp] theorem hotPolicyRun_sound (s : State) (f : Flight) (hm : s.mem.wf = true) : Sound (hotPolicyRun s f) := by
  unfold hotPolicyRun
  dsimp only
  split
  · trivial
  · split
    · trivial
    · rename_i t _ _ area s1 heq
      have h0 : ((if t.area = 0 then s else releaseAlloc t.area (((kget s.tiers.allocs t.area).map (·.len)).getD 0) s).mem).wf = true := by
        split <;> simp [hm]
      have h1 : s1.mem.wf = true := by
        split at heq
        · exact takeStorage_wf heq h0
        · cases heq; exact h0
      simp [h1]

theorem hotPolicyCommand_sound : KeepsMemory hotPolicyCommand := ⟨fun s f hm => by simp [hotPolicyCommand, hm], fun _ _ hm => hm⟩

@[simp] theorem reportCounts_mem (id : Nat) (t : Table) (w : Nat) (s : State) : (reportCounts id t w s).mem = s.mem := by simp [reportCounts]

@[simp] theorem hotWindowEnd_mem (table : Nat) (reported' : List (Nat × Nat)) (now : Nat) (s0 : State) :
    (hotWindowEnd table reported' now s0).mem = s0.mem := by
  simp only [hotWindowEnd]; split <;> simp

/-! ### ModelOps -/

theorem applyStep_wf {c : StepCtx} {r : LayerResult} {s : State} {o : CommitOutcome} (h : applyStep c r s = o) (hm : s.mem.wf = true) :
    (outcomeState o).mem.wf = true := by
  rw [applyStep] at h
  simpa [drawFree, hm] using layerApply_wf h

@[simp] theorem stepNan_mem (c : StepCtx) (n : ChainNan) (s : State) : (stepNan c n s).mem = s.mem := (rfl)

/-! ### TextOps -/

theorem takeTables_wf {tenant len a : Nat} {s t : State} (h : takeTables tenant len s = .ok (a, t)) (hm : s.mem.wf = true) : t.mem.wf = true := by
  rw [takeTables] at h
  split at h
  · cases h
  · cases h
    exact takeStorage_wf ‹_› hm

/-! ### TextRows -/

theorem tokenizerLoadCommand_sound : KeepsMemory tokenizerLoadCommand := by
  have htake := @takeTables_wf
  rw [tokenizerLoadCommand]
  obtain ⟨take, ht⟩ : ∃ take, take = takeTables := exists_eq
  rw [← ht] at htake ⊢
  refine keepsMemory_mk (fun s f hm => ?_) fun _ _ hm => hm
  dsimp only
  split
  · trivial
  · simp [htake ‹_› hm]

@[simp] theorem tokenizeRun_sound (s : State) (f : Flight) (hm : s.mem.wf = true) : Sound (tokenizeRun s f) := by
  unfold tokenizeRun
  dsimp only
  split
  · trivial
  · exact commitVerdict_sound (by simp [hm]) fun t ht => by simp [ht]

theorem tokenizeCommand_sound : KeepsMemory tokenizeCommand := ⟨fun s f hm => by simp [tokenizeCommand, hm], fun _ _ hm => hm⟩

@[simp] theorem countPack_mem (tenant : Nat) (got : List (List Nat × Nat × Nat)) (texts : Nat) (kept : List (PackSeg × Nat × PackState)) (s : State) :
    (countPack tenant got texts kept s).mem = s.mem := by
  simp [countPack]

@[simp] theorem packRun_sound (s : State) (f : Flight) (hm : s.mem.wf = true) : Sound (packRun s f) := by
  unfold packRun
  dsimp only
  split
  · trivial
  · split
    · trivial
    · split
      · trivial
      · trivial
      · exact commitVerdict_sound (by simp [hm]) fun t ht => by simp [ht]

theorem packPromptCommand_sound : KeepsMemory packPromptCommand := ⟨fun s f hm => by simp [packPromptCommand, hm], fun _ _ hm => hm⟩

theorem stopSetCommand_sound : KeepsMemory stopSetCommand := by
  have htake := @takeTables_wf
  rw [stopSetCommand]
  obtain ⟨take, ht⟩ : ∃ take, take = takeTables := exists_eq
  rw [← ht] at htake ⊢
  refine keepsMemory_mk (fun s f hm => ?_) fun _ _ hm => hm
  dsimp only
  split
  · trivial
  · trivial
  · simp [htake ‹_› hm]

@[simp] theorem reapText_wf (live : List Nat) (s : State) (hm : s.mem.wf = true) : (reapText live s).mem.wf = true := by
  unfold reapText
  dsimp only
  rw [setText_mem]
  exact foldl_wf _ _ _ (fun _ _ ht => releaseAlloc_wf _ _ _ ht) hm

@[simp] theorem countFeed_mem (tenant : Nat) (y : Fed) (s : State) : (countFeed tenant y s).mem = s.mem := by simp only [countFeed, bump_mem]

@[simp] theorem streamAfter_mem (h : Nat) (x : Stream) (y : Fed) (s : State) : (streamAfter h x y s).mem = s.mem := by
  unfold streamAfter; split <;> simp

@[simp] theorem detokRun_sound (live : State → List Nat) (s : State) (f : Flight) (hm : s.mem.wf = true) : Sound (detokRun live s f) := by
  unfold detokRun
  split
  · trivial
  · dsimp only
    split
    · trivial
    · refine commitVerdict_sound (by simp [hm]) fun t ht => ?_
      split <;> simp [ht]

theorem detokCommand_sound : KeepsMemory detokCommand := ⟨fun s f hm => by simp [detokCommand, hm], fun _ _ hm => hm⟩

theorem grammarLoadCommand_sound : KeepsMemory grammarLoadCommand := by
  have htake := @takeTables_wf
  rw [grammarLoadCommand]
  obtain ⟨take, ht⟩ : ∃ take, take = takeTables := exists_eq
  rw [← ht] at htake ⊢
  refine keepsMemory_mk (fun s f hm => ?_) fun _ _ hm => hm
  dsimp only
  split
  · trivial
  · simp [htake ‹_› hm]

/-! ### ServeOps -/

/-- A stage of a request keeps a canonical memory, whether it commits, waits or fails. -/
def StageSound {α : Type} (m : StageM α) : Prop := ∀ s : State, s.mem.wf = true → ((m.run).run s).2.mem.wf = true

theorem stageSound_pure {α : Type} (a : α) : StageSound (pure a) := fun _ hs => hs
theorem stageSound_throw {α : Type} (e : StageStop) : StageSound (throw e : StageM α) := fun _ hs => hs
theorem stageSound_set {t : State} (ht : t.mem.wf = true) : StageSound (set t : StageM PUnit) := fun _ _ => ht
theorem stageSound_modify {g : State → State} (hg : ∀ t, (g t).mem = t.mem) : StageSound (modify g : StageM PUnit) := fun s hs => wf_of_eq (hg s) hs

theorem stageSound_bind {α β : Type} {m : StageM α} {k : α → StageM β} (hm : StageSound m)
    (hk : ∀ a, StageSound (k a)) : StageSound (m >>= k) := by
  intro s hs
  have h := hm s hs
  rw [ExceptT.run_bind, StateT.run_bind]
  revert h
  generalize StateT.run m.run s = x
  obtain ⟨r, t⟩ := x
  intro h
  cases r with
  | ok a => exact hk a t h
  | error e => exact h

theorem stageSound_getBind {β : Type} {k : State → StageM β} (hk : ∀ s, s.mem.wf = true → StageSound (k s)) :
    StageSound ((get : StageM State) >>= k) := fun s hs => hk s hs s hs

theorem stageSound_mapM {α β : Type} {k : α → StageM β} (hk : ∀ a, StageSound (k a)) (l : List α) : StageSound (l.mapM k) := by
  induction l with
  | nil => exact stageSound_pure _
  | cons a l ih =>
    rw [List.mapM_cons]
    exact stageSound_bind (hk a) fun _ => stageSound_bind ih fun _ => stageSound_pure _

@[simp] theorem dropRequest_mem (serial : Nat) (s : State) : (dropRequest serial s).mem = s.mem := (rfl)

@[simp] theorem addRequest_mem (r : Request) (s : State) : (addRequest r s).mem = s.mem := by simp [addRequest]

@[simp] theorem setModels_mem (m : KMap Model) (s : State) : (setModels m s).mem = s.mem := (rfl)

theorem giveFrames_mem {tenant n : Nat} {l m : List Nat} {s t : State} (h : giveFrames tenant n l s = some (m, t)) : t.mem = s.mem := by
  induction n generalizing l s with
  | zero => cases h; rfl
  | succ n ih =>
    unfold giveFrames at h
    dsimp only at h
    split at h
    · cases h
    · have ht := ih h
      exact ht

@[simp] theorem takeFrames_mem (tenant n : Nat) (s : State) : (takeFrames tenant n s).2.mem = s.mem := by
  unfold takeFrames
  split <;> have hf := findFrames_mem ‹_›
  · split
    · exact (giveFrames_mem ‹_›).trans hf
    · exact hf
  · exact hf
  · exact hf

@[simp] theorem releaseFrames_mem (tenant : Nat) (l : List Nat) (s : State) : (releaseFrames tenant l s).mem = s.mem := by simp [releaseFrames]

@[simp] theorem reservePages_mem (tenant : Nat) (n : Nat × Nat) (s : State) : (reservePages tenant n s).2.mem = s.mem := by
  unfold reservePages
  have h1 := takeFrames_mem tenant n.1 s
  split <;> rename_i heq <;> rw [heq] at h1
  · exact h1
  · rename_i s1
    have h2 := takeFrames_mem tenant n.2 s1
    split <;> rename_i heq2 <;> rw [heq2] at h2
    · simpa using h2.trans h1
    · exact h2.trans h1

@[simp] theorem sampleNs_mem (r : Request) (metric ns : Nat) (s : State) : (sampleNs r metric ns s).mem = s.mem := by simp [sampleNs]

@[simp] theorem startStage_mem (r : Request) (s : State) : (startStage r s).2.mem = s.mem := by unfold startStage; split <;> simp

@[simp] theorem requestSlots_mem (r : Request) (take : Bool) (s : State) : (requestSlots r take s).mem = s.mem := by
  unfold requestSlots; split <;> simp

@[simp] theorem postChunk_mem (r : Request) (last : Bool) (s : State) : (postChunk r last s).2.mem = s.mem := by unfold postChunk; split <;> simp

@[simp] theorem holdChunk_mem (r : Request) (s : State) : (holdChunk r s).2.mem = s.mem := by simp [holdChunk]

@[simp] theorem rollChunk_mem (r : Request) (s : State) : (rollChunk r s).2.mem = s.mem := by simp [rollChunk]

@[simp] theorem consumeOne_mem (t : Nat) (r : Request) (s : State) : (consumeOne t r s).2.2.mem = s.mem := by
  simp only [consumeOne]; (repeat' split) <;> simp

@[simp] theorem consumeStep_mem (l : List Nat) (r : Request) (s : State) : (consumeStep l r s).2.2.2.mem = s.mem := by
  induction l generalizing r s with
  | nil => rfl
  | cons t l ih =>
    have h := consumeOne_mem t r s
    unfold consumeStep
    split
    · rfl
    · split <;> rename_i heq <;> rw [heq] at h
      · rw [ih]; exact h
      · exact h
      · exact h

@[simp] theorem sampleStep_mem (r : Request) (s : State) : (sampleStep r s).2.mem = s.mem := by unfold sampleStep; (repeat' split) <;> simp

@[simp] theorem reapServed_wf (s : State) (hm : s.mem.wf = true) : (reapServed s).mem.wf = true := by
  unfold reapServed
  dsimp only
  exact reapText_wf _ _ (foldl_wf _ _ _ (fun _ _ ht => releaseAlloc_wf _ _ _ ht) hm)

@[simp] theorem owedSamples_mem (r : Request) (s : State) : (owedSamples r s).mem = s.mem := by simp [owedSamples]

@[simp] theorem requestReply_mem (dst kind : Nat) (r : Request) (st : Status) (result : Bytes) (s : State) :
    (requestReply dst kind r st result s).mem = s.mem := by
  simp [requestReply]

@[simp] theorem tellShip_mem (r : Request) (s : State) : (tellShip r s).mem = s.mem := by unfold tellShip; split <;> simp

@[simp] theorem tellEnd_mem (r : Request) (s : State) : (tellEnd r s).mem = s.mem := by simp [tellEnd]

@[simp] theorem discardBacklog_mem (r : Request) (s : State) : (discardBacklog r s).2.mem = s.mem := (rfl)

@[simp] theorem flushStream_mem (r : Request) (e : ReqEnd) (s : State) : (flushStream r e s).2.mem = s.mem := by unfold flushStream; split <;> simp

@[simp] theorem endRequest_mem (r0 : Request) (e : ReqEnd) (s0 : State) : (endRequest r0 e s0).mem = s0.mem := by
  simp only [endRequest]; (repeat' split) <;> simp

@[simp] theorem failRequest_mem (r : Request) (st : Status) (d : Nat) (s : State) : (failRequest r st d s).mem = s.mem := by simp [failRequest]

@[simp] theorem freeRequest_wf (r : Request) (s : State) (hm : s.mem.wf = true) : (freeRequest r s).mem.wf = true := by simp [freeRequest, hm]

theorem runStage_wf {r : Request} {m : StageM Unit} {s : State} (hk : StageSound m) (hm : s.mem.wf = true) : (runStage r m s).mem.wf = true := by
  have h : (m.run (removeItems (handoverSerial r.serial) s)).2.mem.wf = true := hk _ (wf_of_eq (removeItems_mem _ _) hm)
  unfold runStage
  split <;> rename_i heq
  · rw [heq] at h
    simpa using h
  · exact hm
  · split <;> simp [hm]
  · rw [heq] at h
    split
    · exact findFrames_wf ‹_› hm
    · exact hm
  · rw [heq] at h
    simpa using h

theorem stageFailIf_sound (c : Bool) (st : Status) (d : Nat) : StageSound (stageFailIf c st d) := by
  unfold stageFailIf
  split
  · exact stageSound_throw _
  · exact stageSound_pure _

theorem runModel_sound (c : StepCtx) : StageSound (runModel c) :=
  stageSound_getBind fun s hs => by
    split
    · exact stageSound_throw _
    · exact stageSound_bind (stageSound_set (wf_of_eq (stepNan_mem _ _ _) hs)) fun _ => stageSound_throw _
    · exact stageSound_throw _
    · split <;> have ha := applyStep_wf ‹_› hs
      · exact stageSound_throw _
      · exact stageSound_bind (stageSound_set ha) fun _ => stageSound_throw _
      · exact stageSound_bind (stageSound_set ha) fun _ => stageSound_pure _

theorem tableRowsFor_sound (r : Request) (id : Nat) (fetched : List (Nat × Nat × Nat × Bytes)) (rows : List Nat) :
    StageSound (tableRowsFor r id fetched rows) :=
  stageSound_getBind fun _ _ => by
    split
    · exact stageSound_throw _
    · split
      · exact stageSound_pure _
      · exact stageSound_throw _
      · exact stageSound_throw _
      · exact stageSound_throw _

theorem rowsFor_sound (r : Request) (m : Model) (fetched : List (Nat × Nat × Nat × Bytes)) (toks : List Nat) :
    StageSound (rowsFor r m fetched toks) :=
  stageSound_bind (tableRowsFor_sound _ _ _ _) fun _ => stageSound_pure _

theorem stageNan_sound {α : Type} (r : Request) (unit site operand fmt layer tile row col bits : Nat) :
    StageSound (stageNan r unit site operand fmt layer tile row col bits : StageM α) :=
  stageSound_bind (stageSound_modify fun t => by simp) fun _ => stageSound_throw _

/-- A NaN that some unit of a group met ends the stage, whatever would follow. -/
theorem stageSound_unitNan {α : Type} {r : Request} {base n site operand fmt layer tile row col bits : Nat} {k : Unit → StageM α}
    (hk : ∀ u, StageSound (k u)) :
    StageSound (do
      let unit ← stageUnit base n
      let u ← stageNan r unit site operand fmt layer tile row col bits
      k u) :=
  stageSound_bind (stageSound_getBind fun _ hs => stageSound_bind (stageSound_set hs) fun _ => stageSound_pure _) fun _ =>
    stageSound_bind (stageNan_sound _ _ _ _ _ _ _ _ _ _) hk

theorem needModel_sound (h : Nat) : StageSound (needModel h) :=
  stageSound_getBind fun _ _ => by
    split
    · exact stageSound_throw _
    · exact stageSound_pure _

/-! ### ModelRows -/

theorem modelLoadCommand_sound : KeepsMemory modelLoadCommand := ⟨fun s f hm => by simp [modelLoadCommand, hm], fun _ _ hm => hm⟩

@[simp] theorem unloadHandle_mem (h : Nat) (s : State) : (unloadHandle h s).mem = s.mem := by unfold unloadHandle; (repeat' split) <;> simp

theorem modelUnloadCommand_sound : KeepsMemory modelUnloadCommand := ⟨fun s f hm => by simp [modelUnloadCommand, hm], fun _ _ hm => hm⟩

theorem addSteer_wf {tenant i : Nat} {img : Bytes} {s t : State} (h : addSteer tenant img s = some (i, t)) (hm : s.mem.wf = true) :
    t.mem.wf = true := by
  rw [addSteer] at h
  split at h
  · have ht := takeTables_wf ‹takeTables _ _ _ = _› hm
    cases h
    exact ht
  · cases h

theorem steerSetLoadCommand_sound : KeepsMemory steerSetLoadCommand := by
  have hadd := @addSteer_wf
  rw [steerSetLoadCommand]
  obtain ⟨add, ha⟩ : ∃ add, add = addSteer := exists_eq
  rw [← ha] at hadd ⊢
  refine keepsMemory_mk (fun s f hm => ?_) fun _ _ hm => hm
  split
  · trivial
  · exact hadd ‹_› hm

theorem steerSetDropCommand_sound : KeepsMemory steerSetDropCommand := ⟨fun s f hm => by simp [steerSetDropCommand, hm], fun _ _ hm => hm⟩

theorem pipelineCommand_sound : KeepsMemory pipelineCommand := ⟨fun s f hm => by simp [pipelineCommand, hm], fun _ _ hm => hm⟩

/-! ### RequestRows -/

@[simp] theorem submitStream_mem (s : State) (f : Flight) (p : Pipeline) : (submitStream s f p).2.mem = s.mem := by simp [submitStream]

@[simp] theorem submitRun_sound (s : State) (f : Flight) (hm : s.mem.wf = true) : Sound (submitRun s f) := by
  simp only [submitRun]; (repeat' split) <;> simp [hm]

theorem requestSubmitCommand_sound : KeepsMemory requestSubmitCommand := ⟨fun s f hm => by simp [requestSubmitCommand, hm], fun _ _ hm => hm⟩

theorem requestCancelCommand_sound : KeepsMemory requestCancelCommand :=
  ⟨fun s f hm => by simp only [requestCancelCommand]; split <;> simp [hm], fun _ _ hm => hm⟩

theorem requestStatusCommand_sound : KeepsMemory requestStatusCommand :=
  ⟨fun s f hm => by simp only [requestStatusCommand]; split <;> simp [hm], fun _ _ hm => hm⟩

theorem kvExportCommand_sound : KeepsMemory kvExportCommand where
  run s f hm := by
    simp only [kvExportCommand]
    split
    · trivial
    · exact commitVerdict_sound hm fun t ht => by simp [ht]
  prepare _ _ hm := hm

theorem kvImportCommand_sound : KeepsMemory kvImportCommand where
  run s f hm := by
    simp only [kvImportCommand]
    split <;> have hf := wf_of_eq (findFrames_mem ‹_›) hm
    · exact hf
    · exact hf
    · split
      · exact hf
      · simp only [roomState] at hf; simp [giveFrames_mem ‹_›, hf]
  prepare _ _ hm := hm

/-! ### SelectRows -/

@[simp] theorem selectNan_mem (f : Flight) (fmt tile layer key : Nat) (s : State) : (selectNan f fmt tile layer key s).mem = s.mem := by
  simp [selectNan]

@[simp] theorem topkRun_sound (s : State) (f : Flight) (hm : s.mem.wf = true) : Sound (topkRun s f) := by
  unfold topkRun
  dsimp only
  split
  · simp [hm]
  · split
    · simp [hm]
    · split
      · simp [hm]
      · exact commitVerdict_sound (by simp [hm]) fun t ht => by simp [ht]

theorem selectTopkCommand_sound : KeepsMemory selectTopkCommand := ⟨fun s f hm => by simp [selectTopkCommand, hm], fun _ _ hm => hm⟩

@[simp] theorem mismatchEvent_mem (f : Flight) (m : Merged) (s : State) : (mismatchEvent f m s).mem = s.mem := by unfold mismatchEvent; split <;> simp

@[simp] theorem countMerge_mem (tenant kt entries sentinels : Nat) (m : Merged) (s : State) :
    (countMerge tenant kt entries sentinels m s).mem = s.mem := by
  simp [countMerge]

@[simp] theorem mergeRun_sound (s : State) (f : Flight) (hm : s.mem.wf = true) : Sound (mergeRun s f) := by
  unfold mergeRun
  dsimp only
  split
  · simp [hm]
  · split
    · simp [hm]
    · exact commitVerdict_sound (by simp [hm]) fun t ht => by simp [ht]

theorem selectMergeCommand_sound : KeepsMemory selectMergeCommand := ⟨fun s f hm => by simp [selectMergeCommand, hm], fun _ _ hm => hm⟩

@[simp] theorem selectMergeMsg_wf (peer : Nat) (plain : Bytes) (s : State) (hm : s.mem.wf = true) : (selectMergeMsg peer plain s).mem.wf = true :=
  onMessage_wf (fun m t hm => by
    dsimp only
    split <;> simp [hm]) s hm

/-! ### RetrievalOps -/

@[simp] theorem waitPages_mem (r : Request) (s : State) : (waitPages r s).mem = s.mem := by simp [waitPages]

@[simp] theorem tryPages_mem (r : Request) (s : State) : (tryPages r s).mem = s.mem := by
  unfold tryPages
  split
  · simp
  · dsimp only
    split
    · simp
    · split
      · simp
      · split
        · simp
        · rename_i m _ _ _ _
          have hr := reservePages_mem r.tenant
            ((pagesNeeded s r.pipe r.promptTokens r.maxNew).1 - framesOf r.kv, (pagesNeeded s r.pipe r.promptTokens r.maxNew).2) s
          split <;> rename_i heq <;> rw [heq] at hr <;> simpa using hr

@[simp] theorem handPrompt_mem (r : Request) (s : State) : (handPrompt r s).mem = s.mem := by unfold handPrompt; split <;> simp

theorem copySteer_wf {tenant i : Nat} {b : Bytes} {s t : State} (h : copySteer tenant b s = some (i, t)) (hm : s.mem.wf = true) :
    t.mem.wf = true := by
  unfold copySteer at h
  dsimp only at h
  split at h
  · cases h; exact hm
  · exact addSteer_wf h hm

@[simp] theorem promptArrives_wf (peer tenant corr : Nat) (hdr : Header) (params content : Bytes) (s : State) (hm : s.mem.wf = true) :
    (promptArrives peer tenant corr hdr params content s).mem.wf = true := by
  unfold promptArrives
  dsimp only
  split
  · simp [hm]
  · split
    · simp [hm]
    · split
      · simp [hm]
      · split
        · simp [hm]
        · split
          · simp [hm]
          · simp [copySteer_wf ‹_› hm]

theorem sparseRow_sound (r : Request) (enc : Model) (fetched : List (Nat × Nat × Nat × Bytes)) (l : List Nat) :
    StageSound (sparseRow r enc fetched l) :=
  stageSound_getBind fun s hs => by
    extract_lets id
    split
    · exact stageSound_pure _
    · split
      · refine stageSound_bind (stageFailIf_sound _ _ _) fun _ => stageSound_bind (tableRowsFor_sound _ _ _ _) fun got => ?_
        extract_lets rowOf bag path jp
        have hj : ∀ u, StageSound (jp u) := fun u => stageSound_bind (stageSound_modify fun t => by simp) fun _ =>
          stageSound_getBind fun t ht => stageSound_bind (stageSound_set ht) fun _ => stageSound_pure _
        clear_value jp bag
        split
        · exact stageSound_unitNan hj
        · exact hj _
      · exact stageSound_throw _

theorem pooledVector_sound (r : Request) (m : Model) (c : StepCtx) (res : LayerResult) (n : Nat) : StageSound (pooledVector r m c res n) := by
  unfold pooledVector
  split
  · exact stageSound_pure _
  · split
    · exact stageSound_pure _
    · exact stageSound_bind (stageSound_modify fun t => by simp) fun _ => stageSound_pure _

theorem retrievalBegin_sound (r : Request) (fetched : List (Nat × Nat × Nat × Bytes)) : StageSound (retrievalBegin r fetched) :=
  stageSound_getBind fun s hs => by
    extract_lets tokens addr len l read jp
    have hj : ∀ u, StageSound (jp u) := fun u => by
      refine stageSound_bind (needModel_sound _) fun enc => stageSound_bind (stageFailIf_sound _ _ _) fun _ => ?_
      refine stageSound_bind (rowsFor_sound _ _ _ _) fun rows => stageSound_bind (sparseRow_sound _ _ _ _) fun extra => ?_
      refine stageSound_bind (runModel_sound _) fun c => stageSound_bind (pooledVector_sound _ _ _ _ _) fun v => ?_
      refine stageSound_getBind fun s1 hs1 => ?_
      split
      · exact stageSound_throw _
      · rename_i x _
        refine stageSound_bind (stageFailIf_sound _ _ _) fun _ => stageSound_bind (stageFailIf_sound _ _ _) fun _ => ?_
        extract_lets self others own job begun s2 i s3 send
        have hsend : ∀ u, StageSound (send u) := fun u => by
          simp only [send]
          split
          · exact stageSound_throw _
          · refine stageSound_bind (stageFailIf_sound _ _ _) fun _ => stageSound_set ?_
            refine wf_of_eq (foldl_mem _ _ _ fun t m => sendQueries_mem _ _ _ _ _ _ _) ?_
            simp [s3, s2, begun, hs1]
        clear_value send
        split
        · exact stageSound_unitNan hsend
        · exact hsend _
    clear_value jp read l
    split
    · exact stageSound_bind (stageSound_throw _) hj
    · exact hj _

theorem scorePair_sound (r : Request) (m : Model) (fetched : List (Nat × Nat × Nat × Bytes)) (a b : List Nat) :
    StageSound (scorePair r m fetched a b) :=
  stageSound_bind (rowsFor_sound _ _ _ _) fun _ => stageSound_bind (runModel_sound _) fun _ => stageSound_pure _

theorem rerank_sound (r : Request) (m : Model) (scores : List Nat) : StageSound (rerank r m scores) := by
  unfold rerank
  extract_lets valid x jp
  have hj : ∀ u, StageSound (jp u) := fun u => stageSound_bind (stageSound_modify fun t => by simp) fun _ =>
    stageSound_bind (stageSound_modify fun t => by simp) fun _ => stageSound_pure _
  clear_value jp
  split
  · exact stageSound_unitNan hj
  · exact hj _

theorem packPromptFor_sound (r : Request) (tok : Tokeniser) (a : List Nat) (spans : List (List Nat)) : StageSound (packPromptFor r tok a spans) :=
  stageSound_getBind fun s hs => by
    split
    · exact stageSound_throw _
    · split
      · exact stageSound_throw _
      · exact stageSound_bind (stageSound_set (by simp [hs])) fun _ => stageSound_pure _

@[simp] theorem searchCommits_mem (r : Request) (s : State) : (searchCommits r s).mem = s.mem := by
  have hb : ∀ (l : List (Ctr × Nat × Nat)) (t : State), (l.foldl (fun t c => bump c.1 c.2.1 c.2.2 t) t).mem = t.mem :=
    fun l t => foldl_mem _ _ _ fun t c => bump_mem _ _ _ _
  unfold searchCommits
  split
  · rfl
  · simp [hb]

theorem packingCommit_sound (r : Request) (prompt : List Nat) (chosen : List (SearchHit × Nat)) : StageSound (packingCommit r prompt chosen) :=
  stageSound_getBind fun s hs => by
    extract_lets rtp r1 s1 s2 runs r2
    have h2 : s2.mem.wf = true := by simp [s2, s1, hs]
    clear_value s2
    split
    · split <;> have hc := commitWrites_wf ‹_› h2
      · exact stageSound_throw _
      · exact stageSound_bind (stageSound_set hc) fun _ => stageSound_throw _
      · exact stageSound_set (wf_of_eq (endRequest_mem _ _ _) hc)
    · exact stageSound_set (by simp [h2])

theorem retrievalEnd_sound (r : Request) (job : SearchJob) (fetched : List (Nat × Nat × Nat × Bytes))
    (payloads : List (Nat × Bytes)) : StageSound (retrievalEnd r job fetched payloads) :=
  stageSound_getBind fun s hs => by
    split
    · extract_lets hits top got owed jp
      have hj : ∀ u, StageSound (jp u) := fun u => by
        simp only [jp]
        split
        · exact stageSound_set (by simp [hs])
        · split
          · exact stageSound_throw _
          · refine stageSound_bind (stageSound_modify fun t => by simp) fun _ => stageSound_bind (needModel_sound _) fun m => ?_
            refine stageSound_bind (stageSound_mapM (scorePair_sound _ _ _ _) _) fun scores => stageSound_bind (rerank_sound _ _ _) fun order => ?_
            exact stageSound_bind (packPromptFor_sound _ _ _ _) fun prompt => packingCommit_sound _ _ _
      clear_value jp
      split
      · exact stageSound_bind (stageSound_throw _) hj
      · exact hj _
    · exact stageSound_throw _

/-! ### DecodeOps -/

@[simp] theorem openShip_mem (r : Request) (s : State) : (openShip r s).mem = s.mem := by simp only [openShip]; (repeat' split) <;> simp

@[simp] theorem shipPages_mem (r : Request) (m : Model) (dst : Nat) (s : State) : (shipPages r m dst s).mem = s.mem := by simp [shipPages]

@[simp] theorem coordinateShip_mem (r : Request) (dst : Nat) (s : State) : (coordinateShip r dst s).mem = s.mem := by simp [coordinateShip]

@[simp] theorem shipSettled_mem (dst : Nat) (s : State) : (shipSettled dst s).mem = s.mem := by simp [shipSettled]

@[simp] theorem afterPrefill_mem (r : Request) (s : State) : (afterPrefill r s).mem = s.mem := by simp [afterPrefill]

theorem prefillStage_sound (r : Request) (fetched : List (Nat × Nat × Nat × Bytes)) : StageSound (prefillStage r fetched) := by
  unfold prefillStage
  refine stageSound_bind (needModel_sound _) fun m => ?_
  extract_lets toks step
  have hstep : ∀ m steer kv, StageSound (step m steer kv) := fun m steer kv => by
    simp only [step]
    split
    · exact stageSound_pure _
    · exact stageSound_bind (rowsFor_sound _ _ _ _) fun _ => stageSound_bind (runModel_sound _) fun _ => stageSound_pure _
  clear_value step
  refine stageSound_bind (hstep _ _ _) fun kv => stageSound_getBind fun s _ => ?_
  extract_lets jp
  have hj : ∀ u, StageSound (jp u) := fun u => stageSound_modify fun t => by simp
  clear_value jp
  split
  · split
    · exact stageSound_bind (hstep _ _ _) hj
    · exact stageSound_bind (stageSound_pure _) hj
  · exact stageSound_bind (stageSound_pure _) hj

theorem chooseFrom_sound (r : Request) (m : Model) (greedy : Bool) (gram : Option Bytes) (a pos : Nat) (logits : List Nat) :
    StageSound (chooseFrom r m greedy gram a pos logits) := by
  unfold chooseFrom
  extract_lets z nans jp
  have hj : ∀ u, StageSound (jp u) := fun u => by
    refine stageSound_bind (stageSound_modify fun t => by simp) fun _ => ?_
    split
    · exact stageSound_pure _
    · exact stageSound_getBind fun t ht => stageSound_bind (stageSound_set ht) fun _ => stageSound_pure _
  clear_value jp z
  split
  · exact stageSound_unitNan hj
  · exact hj _

theorem draftTokens_sound (r : Request) (m : Model) (fetched : List (Nat × Nat × Nat × Bytes)) (left pos tok : Nat) (cells : Memory) :
    StageSound (draftTokens r m fetched left pos tok cells) := by
  induction left generalizing pos tok cells with
  | zero =>
    exact stageSound_bind (rowsFor_sound _ _ _ _) fun _ => stageSound_bind (runModel_sound _) fun _ => stageSound_pure _
  | succ n ih =>
    exact stageSound_bind (rowsFor_sound _ _ _ _) fun _ => stageSound_bind (runModel_sound _) fun _ =>
      stageSound_bind (chooseFrom_sound _ _ _ _ _ _ _) fun _ => stageSound_bind (ih _ _ _) fun _ => stageSound_pure _

theorem proposeDrafts_sound (r : Request) (dec : Model) (n : Nat) (fetched : List (Nat × Nat × Nat × Bytes)) :
    StageSound (proposeDrafts r dec n fetched) := by
  unfold proposeDrafts
  split
  · exact stageSound_pure _
  · refine stageSound_bind (needModel_sound _) fun dm => ?_
    split
    · split
      · exact stageSound_pure _
      · exact stageSound_bind (draftTokens_sound _ _ _ _ _ _ _) fun _ => stageSound_pure _
    · exact stageSound_getBind fun s hs => stageSound_bind (stageSound_set hs) fun _ => stageSound_pure _

theorem acceptTokens_sound (r : Request) (m : Model) (gram : Option Bytes) (logits : Nat → List Nat) (drafts : List Nat) (i a : Nat) :
    StageSound (acceptTokens r m gram logits drafts i a) := by
  induction drafts generalizing i a with
  | nil => exact stageSound_bind (chooseFrom_sound _ _ _ _ _ _ _) fun _ => stageSound_pure _
  | cons d l ih =>
    unfold acceptTokens
    refine stageSound_bind (chooseFrom_sound _ _ _ _ _ _ _) fun t => ?_
    dsimp only
    refine iteInduction (motive := StageSound) (fun _ => ?_) fun _ => stageSound_pure _
    exact stageSound_bind (ih _ _) fun _ => stageSound_pure _

theorem decodeStep_sound (r : Request) (fetched : List (Nat × Nat × Nat × Bytes)) : StageSound (decodeStep r fetched) := by
  unfold decodeStep
  refine stageSound_bind (needModel_sound _) fun m => stageSound_getBind fun s hs => ?_
  refine stageSound_bind (proposeDrafts_sound _ _ _ _) fun d => stageSound_bind (rowsFor_sound _ _ _ _) fun rows => ?_
  refine stageSound_bind (runModel_sound _) fun c => stageSound_bind (acceptTokens_sound _ _ _ _ _ _ _) fun a => ?_
  exact stageSound_getBind fun t ht => stageSound_bind (stageSound_modify fun u => by simp) fun _ => stageSound_pure _

theorem budgetGate_mem {r : Request} {s t : State} (h : budgetGate r s = .stop t) : t.mem = s.mem := by
  unfold budgetGate at h
  split at h
  · cases h
  · split at h
    · cases h
    · split at h <;> cases h <;> simp

@[simp] theorem tailEnds_mem (r : Request) (s : State) : (tailEnds r s).mem = s.mem := by unfold tailEnds; split <;> simp

@[simp] theorem consumeLoop_mem (fuel : Nat) (r : Request) (s : State) : (consumeLoop fuel r s).mem = s.mem := by
  induction fuel generalizing r s with
  | zero => simp [consumeLoop]
  | succ fuel ih =>
    unfold consumeLoop
    split
    · simp
    · rename_i step rest _
      have h := consumeStep_mem step r s
      split <;> rename_i heq <;> rw [heq] at h
      · simpa using h
      · split <;> simpa [ih] using h
      · simpa [ih] using h

@[simp] theorem returnCredit_mem (r : Request) (s : State) : (returnCredit r s).mem = s.mem := by
  unfold returnCredit
  split
  · rfl
  · split
    · exact budgetGate_mem ‹_›
    · simp

@[simp] theorem consumeAll_mem (r : Request) (s : State) : (consumeAll r s).mem = s.mem := by simp only [consumeAll]; split <;> simp

@[simp] theorem reportTokens_mem (r : Request) (s : State) : (reportTokens r s).mem = s.mem := by simp [reportTokens]

@[simp] theorem decodeRow_wf (r : Request) (fetched : List (Nat × Nat × Nat × Bytes)) (s : State) (hm : s.mem.wf = true) :
    (decodeRow r fetched s).mem.wf = true := by
  unfold decodeRow
  extract_lets here terminal step
  have hstep : ∀ t, t.mem.wf = true → (step t).mem.wf = true := fun t =>
    runStage_wf (stageSound_bind (decodeStep_sound _ _) fun _ => stageSound_modify fun u => by simp)
  clear_value step here terminal
  split
  · simp [hm]
  · split
    · exact hm
    · split
      · split <;> simp [hm]
      · split
        · split
          · exact wf_of_eq (budgetGate_mem ‹_›) hm
          · exact hstep _ hm
        · exact hstep _ hm

/-! ### StageOps -/

theorem onRequest_wf {serial now : Nat} {k : Request → State → State} (hk : ∀ r t, t.mem.wf = true → (k r t).mem.wf = true)
    (s : State) (hm : s.mem.wf = true) :
    (onRequest serial now s k).mem.wf = true := by
  unfold onRequest
  dsimp only
  split
  · simp [hm]
  · split <;> simp [hk, hm]

@[simp] theorem syncStages_wf (s : State) (hm : s.mem.wf = true) : (syncStages s).mem.wf = true := by simp [syncStages, hm]

@[simp] theorem stageOver_wf (serial : Nat) (s : State) (hm : s.mem.wf = true) : (stageOver serial s).mem.wf = true := by simp [stageOver, hm]

theorem onStage_wf {serial now : Nat} {k : Request → State → State} (hk : ∀ r t, t.mem.wf = true → (k r t).mem.wf = true) (s : State)
    (hm : s.mem.wf = true) :
    (onStage serial now s k).mem.wf = true :=
  onRequest_wf (fun _ t hm => by
    dsimp only
    split
    · simp [hm]
    · split
      · simp [hk, hm]
      · split
        · exact stageOver_wf _ _ (hk _ _ (syncStages_wf _ hm))
        · simp [hm]) s hm

/-! ### StageRows -/

@[simp] theorem retrievalStage_wf (serial : Nat) (fetched : List (Nat × Nat × Nat × Bytes))
    (payloads : List (Nat × Bytes)) (now : Nat) (s : State) (hm : s.mem.wf = true) :
    (retrievalStage serial fetched payloads now s).mem.wf = true :=
  onStage_wf (fun r t hm => by
    extract_lets job finishIt
    have hf : ∀ r, StageSound (finishIt r) := fun r => stageSound_getBind fun u _ => by
      split
      · split
        · exact retrievalEnd_sound _ _ _ _
        · exact stageSound_pure _
      · exact stageSound_pure _
    clear_value finishIt
    split
    · refine runStage_wf (stageSound_bind (retrievalBegin_sound _ _) fun _ => stageSound_getBind fun u _ => ?_) hm
      split
      · exact hf _
      · exact stageSound_pure _
    · split
      · exact runStage_wf (hf _) hm
      · exact hm) s hm

@[simp] theorem takePrompt_mem (r : Request) (s : State) : (takePrompt r s).mem = s.mem := by
  unfold takePrompt
  dsimp only
  split
  · simp
  · rw [tryPages_mem, setRequest_mem]
    exact foldl_mem _ _ _ fun t c => bump_mem _ _ _ _

@[simp] theorem tryAccept_mem (x : Inbound2) (s : State) : (tryAccept x s).mem = s.mem := by
  unfold tryAccept
  dsimp only
  split
  · rfl
  · rename_i p _
    have h := takeFrames_mem x.tenant ((pagesNeeded s p x.prompt p.maxNew).1 + (pagesNeeded s p x.prompt p.maxNew).2) s
    split <;> rename_i heq
    · rw [heq] at h; simpa using h
    · rw [heq] at h; exact h
    · rfl

@[simp] theorem pageReservation_wf (serial now : Nat) (s : State) (hm : s.mem.wf = true) : (pageReservation serial now s).mem.wf = true := by
  unfold pageReservation
  split
  · dsimp only
    split
    · simp [hm]
    · split <;> simp [hm]
  · exact onRequest_wf (fun r t hm => by (repeat' split) <;> simp [hm]) s hm

theorem onShip_wf {op peer : Nat} {plain : Bytes} {k : Msg → State → State} (hk : ∀ m t, t.mem.wf = true → (k m t).mem.wf = true)
    (s : State) (hm : s.mem.wf = true) :
    (onShip op peer plain s k).mem.wf = true := by
  unfold onShip
  split
  · exact hm
  · exact onMessage_wf (fun m t hm => by split <;> simp [hk, hm]) s hm

@[simp] theorem setInbound_mem (x : Inbound2) (s : State) : (setInbound x s).mem = s.mem := (rfl)

@[simp] theorem dropInbound_mem (x : Inbound2) (s : State) : (dropInbound x s).mem = s.mem := by simp [dropInbound]

@[simp] theorem shipOpen_mem (peer : Nat) (m : Msg) (s : State) : (shipOpen peer m s).mem = s.mem := by simp only [shipOpen]; split <;> simp

@[simp] theorem handoverVote_wf (peer tenant id : Nat) (content : Bytes) (s : State) (hm : s.mem.wf = true) :
    (handoverVote peer tenant id content s).2.mem.wf = true := by
  unfold handoverVote
  split
  · exact hm
  · rename_i x _
    split
    · exact hm
    · rename_i p _
      have h := wf_of_eq (takeFrames_mem tenant
        ((pagesNeeded s p x.prompt (fld content 12 4)).1 + (pagesNeeded s p x.prompt (fld content 12 4)).2 - listSum x.pages.frames) s) hm
      dsimp only
      split
      · exact hm
      · split
        · exact hm
        · split
          · exact hm
          · split <;> rename_i heq <;> rw [heq] at h
            · exact h
            · simp only at h; simp [h]

@[simp] theorem handoverCommit_wf (peer tenant id : Nat) (hdr : Header) (params content : Bytes) (s : State) (hm : s.mem.wf = true) :
    (handoverCommit peer tenant id hdr params content s).mem.wf = true := by
  unfold handoverCommit
  split
  · exact hm
  · split
    · simp [copySteer_wf ‹_› hm]
    · exact hm

@[simp] theorem settleHandover_mem (r : Request) (s : State) : (settleHandover r s).mem = s.mem := by unfold settleHandover; split <;> simp

@[simp] theorem settleHandovers_mem (s : State) : (settleHandovers s).mem = s.mem := by simp [settleHandovers]

theorem requestNotice_mem {peer : Nat} {m : Msg} {st : Status} {detail : Nat} {b : Bytes} {s t : State}
    (h : requestNotice peer m st detail b s = some t) : t.mem = s.mem := by
  unfold requestNotice at h
  dsimp only at h
  (repeat' split at h) <;> cases h <;> simp

@[simp] theorem requestAborted_mem (peer : Nat) (m : Msg) (s : State) : (requestAborted peer m s).mem = s.mem := by
  simp only [requestAborted]; (repeat' split) <;> simp

@[simp] theorem requestsLose_mem (peer : Nat) (s : State) : (requestsLose peer s).mem = s.mem := by simp [requestsLose]

/-! ### FabricOps -/

@[simp] theorem portTo_mem (p : Nat) (st : PortState) (width : Nat) (x : Port) (s : State) : (portTo p st width x s).mem = s.mem := by simp [portTo]

@[simp] theorem recomputeRoutes_mem (s : State) : (recomputeRoutes s).mem = s.mem := (rfl)

@[simp] theorem reportAdjacencies_mem (s : State) : (reportAdjacencies s).mem = s.mem := by simp [reportAdjacencies]

@[simp] theorem linksChanged_mem (s : State) : (linksChanged s).mem = s.mem := by simp [linksChanged]

@[simp] theorem portDown_mem (p : Nat) (x : Port) (s : State) : (portDown p x s).mem = s.mem := by simp [portDown]

@[simp] theorem portRetrain_mem (p : Nat) (full : Bool) (x : Port) (s : State) : (portRetrain p full x s).mem = s.mem := by simp [portRetrain]

@[simp] theorem renameSelf_mem (old new : Nat) (s : State) : (renameSelf old new s).mem = s.mem := by simp [renameSelf]

@[simp] theorem dropShared_mem (s : State) : (dropShared s).mem = s.mem := (rfl)

@[simp] theorem stepClock_mem (now : Nat) (s : State) : (stepClock now s).mem = s.mem := by simp [stepClock]

@[simp] theorem installView_mem (v : View) (now : Nat) (s : State) : (installView v now s).mem = s.mem := by
  unfold installView
  dsimp only
  rw [linksChanged_mem]
  refine (foldl_mem _ _ _ fun t m => by simp).trans ?_
  refine (foldl_mem _ _ _ fun t p => askPair_mem _ _ _).trans ?_
  exact renameSelf_mem _ _ _

@[simp] theorem becomeLone_mem (s : State) : (becomeLone s).mem = s.mem := by
  unfold becomeLone
  dsimp only
  refine (foldl_mem _ _ _ fun u c => by split <;> simp).trans ?_
  simp

@[simp] theorem settleSearches_wf (s : State) (hm : s.mem.wf = true) : (settleSearches s).mem.wf = true :=
  foldl_wf _ _ _ (fun t j hm => by
    split
    · split
      · exact settleVerdict_wf hm (searchDone_sound hm)
      · exact hm
    · exact hm) hm

@[simp] theorem searchesLose_wf (peer : Nat) (s0 : State) (hm : s0.mem.wf = true) : (searchesLose peer s0).mem.wf = true := by simp [searchesLose, hm]

@[simp] theorem gatherReply_mem (serial m : Nat) (r : Reply) (s : State) : (gatherReply serial m r s).mem = s.mem := by
  unfold gatherReply; split <;> simp

@[simp] theorem gathersLose_mem (peer : Nat) (s : State) : (gathersLose peer s).mem = s.mem := by simp [gathersLose]

@[simp] theorem losePeer_wf (peer : Nat) (s : State) (hm : s.mem.wf = true) : (losePeer peer s).mem.wf = true := by simp [losePeer, hm]

@[simp] theorem closeLinks_wf (peer : Nat) (s : State) (hm : s.mem.wf = true) : (closeLinks peer s).mem.wf = true := by simp [closeLinks, hm]

/-! ### LinkRows -/

@[simp] theorem configurePort_mem (f : Flight) (i : Nat) (s : State) : (configurePort f i s).mem = s.mem := by simp [configurePort]

theorem linkConfigCommand_sound : KeepsMemory linkConfigCommand := ⟨fun s f hm => by simp [linkConfigCommand, hm], fun _ _ hm => hm⟩

theorem linkStatusCommand_sound : KeepsMemory linkStatusCommand := ⟨fun s f hm => by simp [linkStatusCommand, hm], fun _ _ hm => hm⟩

@[simp] theorem portTrainingComplete_mem (p width : Nat) (s : State) : (portTrainingComplete p width s).mem = s.mem := by simp [portTrainingComplete]

@[simp] theorem laneLoss_mem (p lane : Nat) (s : State) : (laneLoss p lane s).mem = s.mem := by simp [laneLoss]

@[simp] theorem retrainTimeout_mem (p : Nat) (s : State) : (retrainTimeout p s).mem = s.mem := by simp [retrainTimeout]

@[simp] theorem replayFlits_mem (p : Nat) (l : List (Nat × Nat × Bytes)) (s : State) : (replayFlits p l s).mem = s.mem := by
  induction l generalizing s with
  | nil => rfl
  | cons k ks ih => simp [replayFlits, ih]

@[simp] theorem flitNak_mem (p ack : Nat) (s : State) : (flitNak p ack s).mem = s.mem := by simp [flitNak]

@[simp] theorem flitSeen_mem (p seq ack : Nat) (s : State) : (flitSeen p seq ack s).mem = s.mem := (rfl)

@[simp] theorem resend_mem (dst ch : Nat) (s : State) : (resend dst ch s).mem = s.mem := by simp only [resend]; (repeat' split) <;> simp

@[simp] theorem dropDatagram_mem (p : Nat) (s : State) : (dropDatagram p s).mem = s.mem := (rfl)

@[simp] theorem messageComplete_wf (p peer ch : Nat) (bytes : Bytes) (c : Channel) (s : State) (hm : s.mem.wf = true) :
    (messageComplete p peer ch bytes c s).mem.wf = true := by
  simp [messageComplete, hm]

@[simp] theorem segmentIn_wf (p peer : Nat) (seg : Bytes) (s : State) (hm : s.mem.wf = true) : (segmentIn p peer seg s).mem.wf = true := by
  simp [segmentIn, hm]

@[simp] theorem segmentArrives_mem (p : Nat) (bytes : Bytes) (s : State) : (segmentArrives p bytes s).2.mem = s.mem := by simp [segmentArrives]

@[simp] theorem forwardSegment_mem (p dst : Nat) (seg : Bytes) (s : State) : (forwardSegment p dst seg s).mem = s.mem := by
  unfold forwardSegment; split <;> simp

theorem onSegment_wf {p kind : Nat} {bytes : Bytes} {k : Nat → Bytes → State → State} (hk : ∀ m b t, t.mem.wf = true → (k m b t).mem.wf = true)
    (s : State) (hm : s.mem.wf = true) :
    (onSegment p kind bytes s k).mem.wf = true := by
  have h := wf_of_eq (segmentArrives_mem p bytes s) hm
  unfold onSegment
  split <;> rename_i heq <;> rw [heq] at h
  · exact h
  · split
    · exact h
    · split
      · simp only at h; simp [h]
      · split
        · simp only at h; simp [h]
        · simp only at h; simp [hk, h]

@[simp] theorem segmentAck_mem (peer : Nat) (seg : Bytes) (s : State) : (segmentAck peer seg s).mem = s.mem := by simp [segmentAck]

@[simp] theorem timeSyncSend_mem (now : Nat) (s0 : State) : (timeSyncSend now s0).mem = s0.mem := by
  simp only [timeSyncSend]; (repeat' split) <;> simp

@[simp] theorem takeOffset_mem (t4 : Nat) (s : State) : (takeOffset t4 s).mem = s.mem := (rfl)

theorem onTimeSync_wf {op peer now : Nat} {plain : Bytes} {k : Msg → State → State} (hk : ∀ m t, t.mem.wf = true → (k m t).mem.wf = true)
    (s : State) (hm : s.mem.wf = true) :
    (onTimeSync op peer plain now s k).mem.wf = true := by
  unfold onTimeSync
  split
  · exact hm
  · exact onMessage_wf (fun m t ht => by split <;> simp [hk, ht]) _ (wf_of_eq (advance_mem _ _) hm)

/-! ### FrontRows -/

@[simp] theorem installFormed_sound (f : Flight) (s : State) (hm : s.mem.wf = true) : Sound (installFormed f s) := by
  unfold installFormed; split <;> simp [hm]

theorem frontFormCommand_sound : KeepsMemory frontFormCommand := ⟨fun s f hm => by simp [frontFormCommand, hm], fun _ _ hm => hm⟩

@[simp] theorem candidateRun_sound (s : State) (f : Flight) (hm : s.mem.wf = true) : Sound (candidateRun s f) := by simp [candidateRun, hm]

theorem frontJoinCommand_sound : KeepsMemory frontJoinCommand := ⟨fun s f hm => by simp [frontJoinCommand, hm], fun _ _ hm => hm⟩

@[simp] theorem frontJoinRow_wf (side h : Nat) (s : State) (hm : s.mem.wf = true) : (frontJoinRow side h s).mem.wf = true := by
  unfold frontJoinRow
  split
  · exact hm
  · split
    · exact runCommand_wf frontJoinCommand_sound _ _ hm
    · exact hm

@[simp] theorem frontLeaveRun_sound (s : State) (f : Flight) (hm : s.mem.wf = true) : Sound (frontLeaveRun s f) := by
  unfold frontLeaveRun; split <;> simp [hm]

theorem frontLeaveCommand_sound : KeepsMemory frontLeaveCommand := ⟨fun s f hm => by simp [frontLeaveCommand, hm], fun _ _ hm => hm⟩

theorem anchorSetCommand_sound : KeepsMemory anchorSetCommand :=
    ⟨fun s f hm => by simp only [anchorSetCommand]; split <;> simp [hm], fun _ _ hm => hm⟩

theorem frontViewCommand_sound : KeepsMemory frontViewCommand := ⟨fun s f hm => by simp [frontViewCommand, hm], fun _ _ hm => hm⟩

@[simp] theorem sendHeartbeats_mem (s : State) : (sendHeartbeats s).mem = s.mem := by simp [sendHeartbeats]

@[simp] theorem hearEpoch_mem (peer epoch : Nat) (s : State) : (hearEpoch peer epoch s).mem = s.mem := by simp [hearEpoch]

@[simp] theorem heartbeat_wf (peer : Nat) (plain : Bytes) (now : Nat) (s : State) (hm : s.mem.wf = true) :
    (heartbeat peer plain now s).mem.wf = true := by
  unfold heartbeat
  exact onMessage_wf (fun m t ht => by dsimp only; split <;> simp [ht]) _ (wf_of_eq (advance_mem _ _) hm)

@[simp] theorem frontViewAdj_wf (peer : Nat) (plain : Bytes) (s : State) (hm : s.mem.wf = true) : (frontViewAdj peer plain s).mem.wf = true := by
  unfold frontViewAdj
  split
  · exact hm
  · exact onMessage_wf (fun m t hm => by
      dsimp only
      split <;> simp [hm]) s hm

/-! ### SecurityRows -/

@[simp] theorem sessionOpenRun_sound (s : State) (f : Flight) (hm : s.mem.wf = true) : Sound (sessionOpenRun s f) := by
  unfold sessionOpenRun; split <;> simp [hm]

theorem sessionOpenCommand_sound : KeepsMemory sessionOpenCommand := ⟨fun s f hm => by simp [sessionOpenCommand, hm], fun _ _ hm => hm⟩

@[simp] theorem cancelRequests_mem (p : Request → Bool) (s : State) : (cancelRequests p s).mem = s.mem := by simp [cancelRequests]

@[simp] theorem rollBackAll_mem (p : Txn → Bool) (s : State) : (rollBackAll p s).mem = s.mem := by simp [rollBackAll]

@[simp] theorem dropSession_mem (id : Nat) (s : State) : (dropSession id s).mem = s.mem := by simp [dropSession]

@[simp] theorem beginClose_mem (id : Nat) (s : State) : (beginClose id s).mem = s.mem := by unfold beginClose; split <;> simp

@[simp] theorem sessionClose_mem (h : Nat) (s : State) : (sessionClose h s).mem = s.mem := by unfold sessionClose; (repeat' split) <;> simp

theorem attestCommand_sound : KeepsMemory attestCommand := ⟨fun s f hm => by simp [attestCommand, hm], fun _ _ hm => hm⟩

theorem tenantCreateCommand_sound : KeepsMemory tenantCreateCommand := ⟨fun s f hm => by simp [tenantCreateCommand, hm], fun _ _ hm => hm⟩

@[simp] theorem releaseTenant_wf (t : Nat) (s : State) (hm : s.mem.wf = true) : (releaseTenant t s).mem.wf = true := by
  unfold releaseTenant
  dsimp only
  refine wf_of_eq (clearBreaks_mem _ _) (foldl_wf _ _ _ (fun u a hu => releaseAlloc_wf _ _ _ hu) ?_)
  refine wf_of_eq (foldl_mem _ _ _ fun u x => dropInbound_mem _ _) ?_
  exact foldl_wf _ _ _ (fun u r hu => freeRequest_wf _ _ hu) hm

@[simp] theorem endTenant_wf (t serial : Nat) (s : State) (hm : s.mem.wf = true) : (endTenant t serial s).mem.wf = true := by simp [endTenant, hm]

theorem tenantDestroyCommand_sound : KeepsMemory tenantDestroyCommand := ⟨fun s f hm => by simp [tenantDestroyCommand, hm], fun _ _ hm => hm⟩

@[simp] theorem debugAuthorizeRun_sound (s : State) (f : Flight) (hm : s.mem.wf = true) : Sound (debugAuthorizeRun s f) := by
  have he := foldl_wf (fun u t => endTenant t f.serial u) (kkeys s.sec.tenants) s (fun _ _ hu => endTenant_wf _ _ _ hu) hm
  unfold debugAuthorizeRun
  dsimp only
  split
  · trivial
  · exact foldl_wf _ _ _ (fun _ _ hu => closeLinks_wf _ _ hu) he

theorem debugAuthorizeCommand_sound : KeepsMemory debugAuthorizeCommand := ⟨fun s f hm => by simp [debugAuthorizeCommand, hm], fun _ _ hm => hm⟩

@[simp] theorem keyInstallRun_sound (s : State) (f : Flight) (hm : s.mem.wf = true) : Sound (keyInstallRun s f) := by
  unfold keyInstallRun
  dsimp only
  split
  · simp [hm]
  · split
    · trivial
    · split
      · trivial
      · split
        · split
          · trivial
          · exact commitVerdict_sound hm fun t ht => by simp [ht]
        · split
          · trivial
          · split
            · trivial
            · simp [hm]

theorem keyInstallCommand_sound : KeepsMemory keyInstallCommand := ⟨fun s f hm => by simp [keyInstallCommand, hm], fun _ _ hm => hm⟩

theorem keyRetireCommand_sound : KeepsMemory keyRetireCommand := ⟨fun s f hm => by simp [keyRetireCommand, hm], fun _ _ hm => hm⟩

theorem fwStageCommand_sound : KeepsMemory fwStageCommand := ⟨fun s f hm => by simp only [fwStageCommand]; split <;> simp [hm], fun _ _ hm => hm⟩

theorem fwActivateCommand_sound : KeepsMemory fwActivateCommand := ⟨fun s f hm => by simp [fwActivateCommand, hm], fun _ _ hm => hm⟩

@[simp] theorem setPair_mem (uid : Nat) (prk : BitVec 384) (s : State) : (setPair uid prk s).mem = s.mem := by simp only [setPair]; split <;> simp

@[simp] theorem pairFails_wf (uid : Nat) (s : State) (hm : s.mem.wf = true) :
    (pairFails uid s).mem.wf = true := by unfold pairFails; split <;> simp [hm]

@[simp] theorem answerPair_wf (uid : Nat) (body : Bytes) (s : State) (hm : s.mem.wf = true) : (answerPair uid body s).2.mem.wf = true := by
  simp [answerPair, hm]

@[simp] theorem takePair_wf (uid : Nat) (body : Bytes) (s : State) (hm : s.mem.wf = true) : (takePair uid body s).2.mem.wf = true := by
  unfold takePair; split <;> simp [hm]

/-! ### TierRows -/

theorem memAllocCommand_sound : KeepsMemory memAllocCommand := ⟨fun s f hm => by simp [memAllocCommand, hm], fun _ _ hm => hm⟩

theorem memFreeCommand_sound : KeepsMemory memFreeCommand := ⟨fun s f hm => by simp [memFreeCommand, hm], fun _ _ hm => hm⟩

@[simp] theorem addMarks_mem (poison tags : List (Nat × Nat)) (s : State) : (addMarks poison tags s).mem = s.mem := (rfl)

theorem memCopyCommand_sound : KeepsMemory memCopyCommand where
  run s f hm := by
    simp only [memCopyCommand]
    refine withFrames_sound hm fun t ht => ?_
    split
    · simp [ht]
    · exact commitVerdict_sound ht fun u hu => by simp [hu]
  prepare _ _ hm := hm

theorem memFillCommand_sound : KeepsMemory memFillCommand where
  run _ _ hm := commitVerdict_sound hm fun _ ht => ht
  prepare _ _ hm := hm

@[simp] theorem mapPages_mem (ps : List Nat) (g : HomePage → HomePage) (s : State) : (mapPages ps g s).mem = s.mem := (rfl)

@[simp] theorem bindPages_wf (f : Flight) (noFill pin : Bool) (l : List Nat) (s : State) (hm : s.mem.wf = true) :
    (bindPages f noFill pin l s).mem.wf = true := by
  induction l generalizing s with
  | nil => exact hm
  | cons p ps ih =>
    unfold bindPages
    rw [ih]
    dsimp only
    split <;> simp [hm]

@[simp] theorem resideRun_sound (s : State) (f : Flight) (hm : s.mem.wf = true) : Sound (resideRun s f) := by
  have hd (t : State) (pages fresh : List Nat) (pin noFill : Bool) (ht : t.mem.wf = true) :
      Sound (resideRun.done' t f pages fresh pin noFill) := by simp [resideRun.done', ht]
  unfold resideRun
  dsimp only
  split
  · trivial
  · split <;> have hf := findFrames_wf ‹_› hm
    · exact hf
    · exact hf
    · split
      · exact hf
      · split
        · split
          · exact hd _ _ _ _ _ hf
          · exact hf
        · exact hd _ _ _ _ _ hf

theorem resideCommand_sound : KeepsMemory resideCommand := ⟨fun s f hm => by simp [resideCommand, hm], fun _ _ hm => hm⟩

@[simp] theorem discardPage_wf (p : Nat) (s : State) (hm : s.mem.wf = true) :
    (discardPage p s).mem.wf = true := by unfold discardPage; split <;> simp [hm]

@[simp] theorem demoteCommit_wf (f : Flight) (written : List Nat) (s : State) (hm : s.mem.wf = true) : (demoteCommit f written s).mem.wf = true := by
  have h1 : (written.foldl (fun t p => dropPage p (storePage p t)) s).mem = s.mem := foldl_mem _ _ _ fun t p => by simp
  exact foldl_wf _ _ _ (fun _ _ ht => discardPage_wf _ _ ht) (wf_of_eq h1 hm)

@[simp] theorem flushCommit_mem (written : List Nat) (s : State) : (flushCommit written s).mem = s.mem := by simp [flushCommit]

@[simp] theorem startWriteBack_mem (f : Flight) (flush : Bool) (dirty : List Nat) (s : State) : (startWriteBack f flush dirty s).mem = s.mem := (rfl)

@[simp] theorem writeBackRun_sound (flush discard : Bool) (s : State) (f : Flight)
    (hm : s.mem.wf = true) : Sound (writeBackRun flush discard s f) := by
  simp [writeBackRun, hm]

theorem demoteCommand_sound : KeepsMemory demoteCommand := ⟨fun s f hm => by simp [demoteCommand, hm], fun _ _ hm => hm⟩

theorem flushCommand_sound : KeepsMemory flushCommand := ⟨fun s f hm => by simp [flushCommand, hm], fun _ _ hm => hm⟩

@[simp] theorem recordStall_mem (tenant tier cause ns : Nat) (s : State) : (recordStall tenant tier cause ns s).mem = s.mem := by simp [recordStall]

@[simp] theorem endPageWait_mem (page : Nat) (s : State) : (endPageWait page s).mem = s.mem := by simp [endPageWait]

@[simp] theorem resideCommit_mem (f : Flight) (s : State) : (resideCommit f s).mem = s.mem := by simp [resideCommit]

@[simp] theorem failAccess_mem (f : Flight) (st : Status) (addr : Nat) (s : State) : (failAccess f st addr s).mem = s.mem := by simp [failAccess]

@[simp] theorem pageFillComplete_mem (page : Nat) (outcome : TierOutcome) (s0 : State) : (pageFillComplete page outcome s0).mem = s0.mem := by
  simp only [pageFillComplete]; (repeat' split) <;> simp

@[simp] theorem writeBackCommit_wf (f : Flight) (s : State) (hm : s.mem.wf = true) :
    (writeBackCommit f s).mem.wf = true := by simp [writeBackCommit, hm]

@[simp] theorem evictionDone_mem (page : Nat) (x : HomePage) (good : Bool) (s0 : State) : (evictionDone page x good s0).mem = s0.mem := by
  simp only [evictionDone]; (repeat' split) <;> simp

@[simp] theorem writeBackComplete_wf (page : Nat) (good : Bool) (s : State) (hm : s.mem.wf = true) :
    (writeBackComplete page good s).mem.wf = true := by
  unfold writeBackComplete; (repeat' split) <;> simp [hm]

@[simp] theorem tierLate_mem (f : Flight) (addr cause : Nat) (s : State) : (tierLate f addr cause s).mem = s.mem := by simp [tierLate]

@[simp] theorem stallEnds_wf (f : Flight) (addr cause tier ns : Nat) (s : State) (hm : s.mem.wf = true) :
    (stallEnds f addr cause tier ns s).mem.wf = true := by
  simp [stallEnds, hm]

@[simp] theorem noteSpec_mem (f : Flight) (tier : Nat) (outcome : TierOutcome) (addr : Nat) (s : State) :
    (noteSpec f tier outcome addr s).mem = s.mem := by
  unfold noteSpec; split <;> simp

@[simp] theorem tierAccessComplete_wf (h addr cause stallNs : Nat) (outcome : TierOutcome) (s0 : State) (hm : s0.mem.wf = true) :
    (tierAccessComplete h addr cause stallNs outcome s0).mem.wf = true := by
  unfold tierAccessComplete; (repeat' split) <;> simp [hm]

@[simp] theorem stallLimitExpiry_wf (h addr cause stallNs now : Nat) (s0 : State) (hm : s0.mem.wf = true) :
    (stallLimitExpiry h addr cause stallNs now s0).mem.wf = true := by
  simp only [stallLimitExpiry]; split <;> simp [hm]

theorem tierStatsCommand_sound : KeepsMemory tierStatsCommand := ⟨fun s f hm => by simp [tierStatsCommand, hm], fun _ _ hm => hm⟩

/-! ### TxnRows -/

@[simp] theorem txnBeginRun_sound (s : State) (f : Flight) (hm : s.mem.wf = true) : Sound (txnBeginRun s f) := by
  unfold txnBeginRun; split <;> simp [hm]

theorem txnBeginCommand_sound : KeepsMemory txnBeginCommand := ⟨fun s f hm => by simp [txnBeginCommand, hm], fun _ _ hm => hm⟩

@[simp] theorem txnSetRun_sound (s : State) (f : Flight) (hm : s.mem.wf = true) : Sound (txnSetRun s f) := by unfold txnSetRun; split <;> simp [hm]

theorem txnSetCommand_sound : KeepsMemory txnSetCommand := ⟨fun s f hm => by simp [txnSetCommand, hm], fun _ _ hm => hm⟩

theorem txnRollbackCommand_sound : KeepsMemory txnRollbackCommand :=
  ⟨fun s f hm => by simp only [txnRollbackCommand]; split <;> simp [hm], fun _ _ hm => hm⟩

@[simp] theorem txnTimeout_mem (session txn now : Nat) (s0 : State) : (txnTimeout session txn now s0).mem = s0.mem := by
  simp only [txnTimeout]; split <;> simp

theorem configGetCommand_sound : KeepsMemory configGetCommand := ⟨fun s f hm => by simp [configGetCommand, hm], fun _ _ hm => hm⟩

theorem roleSetCommand_sound : KeepsMemory roleSetCommand := ⟨fun s f hm => by simp [roleSetCommand, hm], fun _ _ hm => hm⟩

/-! ### CmdOps -/

theorem stageable_sound {op : Opcode} {c : Command} {mods : State → Flight → List Nat} (h : stageable op = some (c, mods)) : KeepsMemory c := by
  unfold stageable at h
  split at h <;> cases h
  · exact keyInstallCommand_sound
  · exact keyRetireCommand_sound
  · exact tenantCreateCommand_sound
  · exact tenantDestroyCommand_sound
  · exact roleSetCommand_sound
  · exact memAllocCommand_sound
  · exact memFreeCommand_sound
  · exact modelUnloadCommand_sound
  · exact steerSetLoadCommand_sound
  · exact steerSetDropCommand_sound
  · exact chainDefineCommand_sound
  · exact tableCreateCommand_sound
  · exact tableDropCommand_sound
  · exact hotPolicyCommand_sound
  · exact indexCreateCommand_sound
  · exact indexDropCommand_sound
  · exact stopSetCommand_sound
  · exact pipelineCommand_sound
  · exact sharesSetCommand_sound
  · exact budgetCommand_sound
  · exact contractCommand_sound
  · exact frontFormCommand_sound
  · exact frontJoinCommand_sound
  · exact frontLeaveCommand_sound
  · exact linkConfigCommand_sound
  · exact anchorSetCommand_sound
  · exact powerCapCommand_sound
  · exact statePolicyCommand_sound

theorem runsAlone_sound {op : Opcode} {c : Command} (h : runsAlone op = some c) : KeepsMemory c := by
  unfold runsAlone at h
  split at h <;> cases h
  · exact kernelLoadCommand_sound
  · exact kernelRunCommand_sound
  · exact layerRunCommand_sound
  · exact memCopyCommand_sound
  · exact memFillCommand_sound
  · exact resideCommand_sound
  · exact demoteCommand_sound
  · exact flushCommand_sound
  · exact modelLoadCommand_sound
  · exact indexLoadCommand_sound
  · exact vecInsertCommand_sound
  · exact vecDeleteCommand_sound
  · exact indexMergeCommand_sound
  · exact rowsWriteCommand_sound
  · exact debugAuthorizeCommand_sound
  · exact fwStageCommand_sound
  · exact fwActivateCommand_sound

theorem commandOf_sound {op : Opcode} {c : Command} (h : commandOf op = some c) : KeepsMemory c := by
  unfold commandOf at h
  split at h
  · cases h
    exact stageable_sound ‹_›
  · exact runsAlone_sound h

/-- What the parts of a commit do keeps a canonical memory. -/
def FoldSound : Folded → Prop
  | .done t _ => t.mem.wf = true
  | .fails _ _ _ => True
  | .waits o => ∀ t, o = some t → t.mem.wf = true

theorem foldParts_sound {judged : Bool} {l : List (Part × Bool)} {i : Nat} {s : State} {rs : List Reply} (hs : s.mem.wf = true) :
    FoldSound (foldParts judged l i s rs) := by
  induction l generalizing i s rs with
  | nil => exact hs
  | cons x l ih =>
    unfold foldParts
    obtain ⟨p, mine⟩ := x
    cases mine with
    | false => exact ih hs
    | true =>
      cases p with
      | items f items vs =>
        have ha := applyItems_sound f.tenant items s hs
        dsimp only
        split <;> rename_i heq
        · rw [heq] at ha
          exact ih ha
        · trivial
      | command f vs =>
        dsimp only
        split
        · trivial
        · have hc := commandOf_sound ‹_›
          split
          · trivial
          · split
            · intro t ht
              cases ht
            · split <;> have hv := hc.verdict ‹_› hs
              · trivial
              · trivial
              · exact ih (wf_of_eq (touchNamed_mem _ _) hv)
              · exact ih hv
              · intro t ht
                cases ht
              · intro t ht
                split at ht <;> cases ht
                exact hv

theorem foldParts_done {judged : Bool} {l : List (Part × Bool)} {i : Nat} {s t : State} {rs rs' : List Reply}
    (h : foldParts judged l i s rs = .done t rs') (hm : s.mem.wf = true) : t.mem.wf = true := by
  have hk := foldParts_sound (judged := judged) (l := l) (i := i) (rs := rs) hm
  rw [h] at hk
  exact hk

theorem foldParts_waits {judged : Bool} {l : List (Part × Bool)} {i : Nat} {s : State} {rs : List Reply} {o : Option State}
    (h : foldParts judged l i s rs = .waits o) (hm : s.mem.wf = true) : (o.getD s).mem.wf = true := by
  have hk := foldParts_sound (judged := judged) (l := l) (i := i) (rs := rs) hm
  rw [h] at hk
  cases o with
  | none => exact hm
  | some t => exact hk t rfl

theorem voteOn_error {alone : Bool} {l : List (Part × Bool)} {s t : State} (h : voteOn alone l s = .error t) (hm : s.mem.wf = true) :
    t.mem.wf = true := by
  unfold voteOn at h
  split at h
  · cases h
  · split at h <;> cases h
    exact foldParts_waits ‹_› hm

theorem onFwd_wf {op peer : Nat} {plain : Bytes} {dropped k : Msg → State → State} (hd : ∀ m t, t.mem.wf = true → (dropped m t).mem.wf = true)
    (hk : ∀ m t, t.mem.wf = true → (k m t).mem.wf = true) (s : State) (hm : s.mem.wf = true) :
    (onFwd op peer plain s dropped k).mem.wf = true := by
  unfold onFwd
  split
  · exact hm
  · dsimp only
    split
    · split
      · exact hk _ _ hm
      · exact hm
    · split
      · split
        · exact hk _ _ hm
        · simp [hm]
      · split <;> have hi := wf_of_eq (inbound_mem ‹_›) hm
        · exact hm
        · split
          · exact hd _ _ hi
          · exact hi
        · exact hk _ _ hi

/-! ### FormOps -/

@[simp] theorem noteLeaving_mem (key : TxnKey) (l : List (Part × Bool)) (s : State) : (noteLeaving key l s).mem = s.mem := by simp [noteLeaving]

@[simp] theorem commitFails_mem (f : Flight) (t : Txn) (failing : Option (Nat × Status × Nat)) (r : Reply) (s : State) :
    (commitFails f t failing r s).mem = s.mem := by
  simp [commitFails]

@[simp] theorem partFails_mem (f : Flight) (t : Txn) (i : Nat) (st : Status) (d : Nat) (s : State) : (partFails f t i st d s).mem = s.mem := by
  simp [partFails]

@[simp] theorem startTxn_wf (f : Flight) (t : Txn) (parts : List Part) (mods : List Nat) (s : State) (hm : s.mem.wf = true) :
    (startTxn f t parts mods s).mem.wf = true := by
  unfold startTxn
  dsimp only
  split
  · simp [hm]
  · split
    · simp [hm]
    · split
      · simp [hm]
      · split
        · simp [hm]
        · split
          · simp [hm]
          · split <;> rename_i heq
            · rw [noteLeaving_mem, beginFlight_mem]
              split at heq
              · exact voteOn_error heq hm
              · cases heq
            · simp [hm]

@[simp] theorem commitHere_wf (f : Flight) (t : Txn) (s : State) (hm : s.mem.wf = true) : (commitHere f t s).mem.wf = true := by
  unfold commitHere
  dsimp only
  split
  · simp [hm]
  · split
    · simp [hm]
    · split
      · simp [foldParts_waits ‹_› hm]
      · simp [hm]
      · rw [finishPlain_mem, forgetTxn_mem]
        refine wf_of_eq (foldl_mem _ _ _ fun u p => by split <;> simp) ?_
        simp [foldParts_done ‹_› hm]

@[simp] theorem beginWait_mem (f : Flight) (t : Txn) (i : Nat) (g : Flight) (s : State) : (beginWait f t i g s).mem = s.mem := by
  unfold beginWait
  dsimp only
  refine (foldl_mem _ _ _ fun u e => emit_mem _ _).trans ?_
  simp

@[simp] theorem dropWait_mem (serial : Nat) (s : State) : (dropWait serial s).mem = s.mem := (rfl)

@[simp] theorem waitFails_mem (w : CandidacyWait) (st : Status) (d : Nat) (s : State) : (waitFails w st d s).mem = s.mem := by
  simp only [waitFails]; (repeat' split) <;> simp

@[simp] theorem settleWait_wf (w : CandidacyWait) (s : State) (hm : s.mem.wf = true) : (settleWait w s).mem.wf = true := by
  unfold settleWait; (repeat' split) <;> simp [hm]

@[simp] theorem settleWaits_wf (s : State) (hm : s.mem.wf = true) : (settleWaits s).mem.wf = true := 
  foldl_wf _ _ _ (fun _ _ ht => settleWait_wf _ _ ht) hm

/-! ### CmdRows -/

@[simp] theorem txnCommit_wf (h : Nat) (s : State) (hm : s.mem.wf = true) : (txnCommit h s).mem.wf = true := by
  unfold txnCommit; (repeat' split) <;> simp [hm]

@[simp] theorem noteForming_mem (key : TxnKey) (parts : List Part) (s : State) : (noteForming key parts s).mem = s.mem := by
  unfold noteForming; split <;> simp

@[simp] theorem prepareAlone_wf (key : TxnKey) (peer : Nat) (m : Msg) (op : Opcode) (s : State) (hm : s.mem.wf = true) :
    (prepareAlone key peer m op s).mem.wf = true := by
  unfold prepareAlone
  dsimp only
  split
  · simp [hm]
  · split
    · simp [hm]
    · have hc := commandOf_sound ‹_›
      split
      · exact hm
      · split
        · exact startWorker_wf hc _ _ _ (wf_of_eq (addPrepared_mem _ _ _ _ _ _ _ _) hm)
        · split
          · exact voteOn_error ‹_› hm
          · simp [hc.prepare, hm]

@[simp] theorem prepareParts_wf (key : TxnKey) (peer : Nat) (m : Msg) (s : State) (hm : s.mem.wf = true) :
    (prepareParts key peer m s).mem.wf = true := by
  simp only [prepareParts]; (repeat' split) <;> simp [hm]

@[simp] theorem fwdPrepare_wf (peer : Nat) (m : Msg) (s0 : State) (hm : s0.mem.wf = true) : (fwdPrepare peer m s0).mem.wf = true := by
  simp only [fwdPrepare]; (repeat' split) <;> simp [hm]

@[simp] theorem answerStale_mem (peer : Nat) (m : Msg) (s : State) : (answerStale peer m s).mem = s.mem := by simp [answerStale]

@[simp] theorem takeObjectMessage_mem (peer tenant corr : Nat) (params content : Bytes) (s : State) :
    (takeObjectMessage peer tenant corr params content s).mem = s.mem := by
  simp [takeObjectMessage]

@[simp] theorem fwdForward_wf (peer : Nat) (m : Msg) (s : State) (hm : s.mem.wf = true) : (fwdForward peer m s).mem.wf = true := by
  simp only [fwdForward]; split <;> simp [hm]

@[simp] theorem fwdVote_mem (peer : Nat) (m : Msg) (s : State) : (fwdVote peer m s).mem = s.mem := by unfold fwdVote; split <;> simp

theorem breachOf_mem {m : Msg} {r : Reply} {id : Nat} {s t : State} (h : breachOf m r id s = some t) : t.mem = s.mem := by
  unfold breachOf at h
  split at h
  · obtain ⟨c, -, rfl⟩ := Option.map_eq_some_iff.mp h
    simp
  · cases h

/-- The first taker of a message, or the state as it is. -/
theorem getD_wf {o : Option State} {s : State} (h : ∀ t, o = some t → t.mem.wf = true) (hm : s.mem.wf = true) : (o.getD s).mem.wf = true := by
  cases o with
  | none => exact hm
  | some t => exact h t rfl

@[simp] theorem fwdReply_wf (peer : Nat) (m : Msg) (s : State) (hm : s.mem.wf = true) : (fwdReply peer m s).mem.wf = true := by
  unfold fwdReply
  dsimp only
  split
  · simp [hm]
  · split
    · split
      · split <;> simp [hm]
      · split <;> simp [hm]
    · refine getD_wf (fun t ht => ?_) hm
      simp only [Option.orElse_eq_or, Option.or_eq_some_iff] at ht
      obtain (ht | ⟨-, ht⟩) | ⟨-, ht | ⟨-, ht⟩⟩ := ht
      · exact takePayloads_wf ht hm
      · exact wf_of_eq (takeServed_mem ht) hm
      · exact wf_of_eq (breachOf_mem ht) hm
      · exact wf_of_eq (requestNotice_mem ht) hm

theorem commitWork_wf {p : Prepared} {f : Flight} {s t : State} {r : Reply} (h : commitWork p f s = some (t, r)) (hm : s.mem.wf = true) :
    t.mem.wf = true := by
  unfold commitWork at h
  split at h
  · cases h; exact hm
  · split at h
    · split at h
      · cases h; exact hm
      · dsimp only at h
        split at h <;> cases h
        · have hk := kernelApply_wf ‹_› hm; simp only [outcomeState] at hk; simp [hk]
        · have hk := kernelApply_wf ‹_› hm; simp only [outcomeState] at hk; simp [hk]
    · split at h
      · cases h; exact hm
      · split at h
        · cases h
        · split at h <;> cases h
          · have hk := layerApply_wf ‹_› hm; simp only [outcomeState] at hk; simp [hk]
          · have hk := layerApply_wf ‹_› hm; simp only [outcomeState] at hk; simp [hk]

theorem applyPrepared_many_wf {p : Prepared} {s t : State} {l : List Part} {rs : List Reply} (h : applyPrepared.many p s l = some (t, rs))
    (hm : s.mem.wf = true) : t.mem.wf = true := by
  unfold applyPrepared.many at h
  dsimp only at h
  split at h
  · cases h
  · cases h; exact hm
  · have ht := foldParts_done ‹foldParts _ _ _ _ _ = _›
    cases h
    simp [ht hm]

theorem applyPrepared_wf {p : Prepared} {s t : State} {rs : List Reply} (h : applyPrepared p s = some (t, rs)) (hm : s.mem.wf = true) :
    t.mem.wf = true := by
  unfold applyPrepared at h
  split at h
  · split at h
    · cases h
      simp [hm]
    · split at h
      · obtain ⟨⟨u, r⟩, hu, heq⟩ := Option.map_eq_some_iff.mp h
        cases heq
        simp [commitWork_wf hu hm]
      · exact applyPrepared_many_wf h hm
  · exact applyPrepared_many_wf h hm

@[simp] theorem enterTime_mem (old : State) (parts : List Part) (now : Nat) (s : State) : (enterTime old parts now s).mem = s.mem := by
  simp [enterTime]

@[simp] theorem sendReplies_mem (p : Prepared) (dst : Nat) (rs : List Reply) (s : State) : (sendReplies p dst rs s).mem = s.mem := by
  simp [sendReplies]

@[simp] theorem commitPrepared_wf (p : Prepared) (now : Nat) (s : State) (hm : s.mem.wf = true) : (commitPrepared p now s).mem.wf = true := by
  unfold commitPrepared
  dsimp only
  split
  · exact hm
  · have h1 := applyPrepared_wf ‹_› hm
    split
    · simp [h1]
    · split
      · simp [h1]
      · split
        · simp [hm]
        · simp [applyPrepared_wf ‹applyPrepared p (sendReplies _ _ _ _) = _› (by simpa using hm)]

@[simp] theorem fwdCommit_wf (peer now : Nat) (m : Msg) (s : State) (hm : s.mem.wf = true) : (fwdCommit peer now m s).mem.wf = true := by
  unfold fwdCommit; split <;> simp [hm]

@[simp] theorem dropEarly_mem (m : Msg) (s : State) : (dropEarly m s).mem = s.mem := by simp [dropEarly]

@[simp] theorem fwdAbort_mem (peer : Nat) (m : Msg) (s : State) : (fwdAbort peer m s).mem = s.mem := by unfold fwdAbort; split <;> simp

@[simp] theorem fwdDecision_mem (peer : Nat) (m : Msg) (s : State) : (fwdDecision peer m s).mem = s.mem := by simp [fwdDecision]

@[simp] theorem fwdDecisionAck_mem (peer : Nat) (m : Msg) (s : State) : (fwdDecisionAck peer m s).mem = s.mem := by
  unfold fwdDecisionAck; split <;> simp

@[simp] theorem candidacyCheck_wf (uid : Nat) (matching prepared : Bool) (b : Bytes) (s : State) (hm : s.mem.wf = true) :
    (candidacyCheck uid matching prepared b s).mem.wf = true := by
  unfold candidacyCheck
  refine foldl_wf _ _ _ (fun t w hm => ?_) hm
  split
  · exact hm
  · split
    · simp [hm]
    · split
      · exact hm
      · dsimp only
        exact settleWait_wf _ _ (wf_of_eq (foldl_mem _ _ _ fun u p => askPair_mem _ _ _) hm)

@[simp] theorem candidacyTimeout_mem (h now : Nat) (s0 : State) : (candidacyTimeout h now s0).mem = s0.mem := by
  simp only [candidacyTimeout]; split <;> simp

@[simp] theorem waitsRefuse_mem (uid : Nat) (s : State) : (waitsRefuse uid s).mem = s.mem := by simp [waitsRefuse]

@[simp] theorem pairMessage_wf (uid : Nat) (response : Bool) (body : Bytes) (s : State) (hm : s.mem.wf = true) :
    (pairMessage uid response body s).mem.wf = true := by
  simp only [pairMessage]; (repeat' split) <;> simp [hm]

/-! ### DebugRows -/

theorem breakSetCommand_sound : KeepsMemory breakSetCommand := ⟨fun s f hm => by simp [breakSetCommand, hm], fun _ _ hm => hm⟩

theorem breakClearCommand_sound : KeepsMemory breakClearCommand := ⟨fun s f hm => by simp [breakClearCommand, hm], fun _ _ hm => hm⟩

@[simp] theorem haltRun_sound (s : State) (f : Flight) (hm : s.mem.wf = true) : Sound (haltRun s f) := by
  unfold haltRun; (repeat' split) <;> simp [hm]

theorem haltCommand_sound : KeepsMemory haltCommand := ⟨fun s f hm => by simp [haltCommand, hm], fun _ _ hm => hm⟩

@[simp] theorem haltedEvent_mem (r : Run) (b : Breakpoint) (s : State) : (haltedEvent r b s).mem = s.mem := by simp [haltedEvent]

@[simp] theorem haltDrainComplete_mem (h : Nat) (s : State) : (haltDrainComplete h s).mem = s.mem := by
  unfold haltDrainComplete
  split
  · rfl
  · split
    · split
      · rfl
      · refine (foldl_mem _ _ _ fun t w => by split <;> simp).trans ?_
        dsimp only
        split <;> simp
    · rfl

theorem resumeCommand_sound : KeepsMemory resumeCommand :=
  ⟨fun s f hm => by simp only [resumeCommand]; (repeat' split) <;> simp [hm], fun _ _ hm => hm⟩

theorem stepCommand_sound : KeepsMemory stepCommand := ⟨fun s f hm => by simp only [stepCommand]; (repeat' split) <;> simp [hm], fun _ _ hm => hm⟩

@[simp] theorem stepStallTimeout_mem (h : Nat) (s : State) : (stepStallTimeout h s).mem = s.mem := by
  unfold stepStallTimeout; (repeat' split) <;> simp

@[simp] theorem freeBytes_mem (n : Nat) (s : State) : (freeBytes n s).2.mem = s.mem := by
  induction n generalizing s with
  | zero => rfl
  | succ n ih => simp [freeBytes, ih]

theorem stateReadCommand_sound : KeepsMemory stateReadCommand :=
  ⟨fun s f hm => by simp only [stateReadCommand]; (repeat' split) <;> simp [hm], fun _ _ hm => hm⟩

theorem trackReadCommand_sound : KeepsMemory trackReadCommand := ⟨fun s f hm => by simp [trackReadCommand, hm], fun _ _ hm => hm⟩

@[simp] theorem gaugeRun_sound (s : State) (f : Flight) (hm : s.mem.wf = true) : Sound (gaugeRun s f) := by simp [gaugeRun, hm]

theorem gaugeCommand_sound : KeepsMemory gaugeCommand := ⟨fun s f hm => by simp [gaugeCommand, hm], fun _ _ hm => hm⟩

theorem histogramReadCommand_sound : KeepsMemory histogramReadCommand := ⟨fun _ _ hm => hm, fun _ _ hm => hm⟩

theorem faultLogReadCommand_sound : KeepsMemory faultLogReadCommand := ⟨fun s f hm => by simp [faultLogReadCommand, hm], fun _ _ hm => hm⟩

theorem sensorsReadCommand_sound : KeepsMemory sensorsReadCommand := ⟨fun s f hm => by simp [sensorsReadCommand, hm], fun _ _ hm => hm⟩

/-! ### CounterRows -/

@[simp] theorem timedMarks_mem (cap : Nat) (s : State) : (timedMarks cap s).2.mem = s.mem := by simp [timedMarks]

@[simp] theorem timedAll_mem (l : List Nat) (s : State) : (timedAll l s).2.mem = s.mem := by
  induction l generalizing s with
  | nil => rfl
  | cons q qs ih => simp [timedAll, ih]

@[simp] theorem clearHigh_mem (unit q : Nat) (l : List Nat) (s : State) : (clearHigh unit q l s).mem = s.mem := by
  induction l generalizing q s with
  | nil => rfl
  | cons n ns ih => simp [clearHigh, ih]

@[simp] theorem queueSet_mem (unit : Nat) (clear : Bool) (s : State) : (queueSet unit clear s).2.mem = s.mem := by unfold queueSet; split <;> simp

@[simp] theorem idleArrays_mem (cell : Nat) (s : State) : (idleArrays cell s).mem = s.mem := (rfl)

theorem countersReadCommand_sound : KeepsMemory countersReadCommand := ⟨fun s f hm => by simp [countersReadCommand, hm], fun _ _ hm => hm⟩

/-! ### RegisterRows -/

@[simp] theorem haltBlock_mem (bar off : Nat) (s : State) : (haltBlock bar off s).mem = s.mem := by simp [haltBlock]

@[simp] theorem parityMismatch_mem (bar0 off0 : Nat) (s : State) : (parityMismatch bar0 off0 s).mem = s.mem := by simp [parityMismatch]

@[simp] theorem flipStored_mem (bar off m : Nat) (s : State) : (flipStored bar off m s).mem = s.mem := by unfold flipStored; (repeat' split) <;> simp

@[simp] theorem upsetRegister_mem (bar off m : Nat) (s : State) : (upsetRegister bar off m s).mem = s.mem := by simp [upsetRegister]

@[simp] theorem configRegisterRead_mem (bar off flipped : Nat) (s : State) : (configRegisterRead bar off flipped s).mem = s.mem := by
  simp [configRegisterRead]

@[simp] theorem peekThaw_mem (s : State) : (peekThaw s).mem = s.mem := by unfold peekThaw; split <;> simp

@[simp] theorem peekDone_mem (result : Nat) (s : State) : (peekDone result s).mem = s.mem := (rfl)

@[simp] theorem peekWord_mem (s : State) : (peekWord s).2.mem = s.mem := by unfold peekWord; split <;> simp

@[simp] theorem dbgPeekRead_mem (s : State) : (dbgPeekRead s).mem = s.mem := by simp [dbgPeekRead]

@[simp] theorem anyRegisterWrite_mem (off : Nat) (v : W32) (s : State) : (anyRegisterWrite off v s).mem = s.mem := by simp [anyRegisterWrite]

@[simp] theorem dbgPeekWrite_wf (v : W32) (s : State) (hm : s.mem.wf = true) : (dbgPeekWrite v s).mem.wf = true := by
  unfold dbgPeekWrite; (repeat' split) <;> simp [hm]

@[simp] theorem telSnapshotTaken_mem (now : Nat) (s0 : State) : (telSnapshotTaken now s0).mem = s0.mem := by simp [telSnapshotTaken]

/-! ### ViewRows -/

@[simp] theorem resolvePrepared_wf (union : List TxnKey) (now : Nat) (s : State) (hm : s.mem.wf = true) :
    (resolvePrepared union now s).mem.wf = true := by
  simp +contextual [resolvePrepared, hm]

@[simp] theorem resolveCoord_mem (union : List TxnKey) (reach : List Nat) (t : State) (c : Coord) : (resolveCoord union reach t c).mem = t.mem := by
  simp [resolveCoord]

@[simp] theorem resolveCommits_wf (union : List TxnKey) (reach : List Nat) (now : Nat) (s : State) (hm : s.mem.wf = true) :
    (resolveCommits union reach now s).mem.wf = true := by
  simp [resolveCommits, hm]

@[simp] theorem rejoinTime_mem (now : Nat) (s : State) : (rejoinTime now s).mem = s.mem := by simp [rejoinTime]

@[simp] theorem dropReplicas_mem (s : State) : (dropReplicas s).mem = s.mem := (rfl)

@[simp] theorem takeInstall_wf (epoch : Nat) (reach : List Nat) (union : List TxnKey) (now : Nat) (s : State) (hm : s.mem.wf = true) :
    (takeInstall epoch reach union now s).mem.wf = true := by
  simp [takeInstall, hm]

@[simp] theorem propose_mem (s : State) : (propose s).mem = s.mem := by simp [propose]

@[simp] theorem proposeTick_mem (s : State) : (proposeTick s).mem = s.mem := by simp [proposeTick]

theorem onView_wf {op peer : Nat} {plain : Bytes} {k : Msg → State → State} (hk : ∀ m t, t.mem.wf = true → (k m t).mem.wf = true)
    (s : State) (hm : s.mem.wf = true) :
    (onView op peer plain s k).mem.wf = true := by
  unfold onView
  split
  · exact hm
  · exact onMessage_wf (fun m t hm => by split <;> simp [hk, hm]) s hm

@[simp] theorem catchUpTick_mem (s : State) : (catchUpTick s).mem = s.mem := by unfold catchUpTick; (repeat' split) <;> simp

@[simp] theorem acceptProposal_mem (peer epoch : Nat) (b : Bytes) (s : State) : (acceptProposal peer epoch b s).mem = s.mem := by
  simp [acceptProposal]

@[simp] theorem viewPropose_mem (peer : Nat) (m : Msg) (s : State) : (viewPropose peer m s).mem = s.mem := by simp [viewPropose]

@[simp] theorem judgeHeld_mem (s : State) : (judgeHeld s).mem = s.mem := by unfold judgeHeld; split <;> simp

@[simp] theorem viewAccept_mem (peer : Nat) (m : Msg) (s : State) : (viewAccept peer m s).mem = s.mem := by unfold viewAccept; split <;> simp

@[simp] theorem viewDecision_wf (now : Nat) (s0 : State) (hm : s0.mem.wf = true) : (viewDecision now s0).mem.wf = true := by
  simp only [viewDecision]; split <;> simp [hm]

@[simp] theorem viewInstall_wf (peer now : Nat) (m : Msg) (s : State) (hm : s.mem.wf = true) : (viewInstall peer now m s).mem.wf = true := by
  simp [viewInstall, hm]

@[simp] theorem endLate_mem (s : State) : (endLate s).mem = s.mem := by simp [endLate]

@[simp] theorem takeView_wf (v : View) (union : List TxnKey) (now : Nat) (s : State) (hm : s.mem.wf = true) :
    (takeView v union now s).mem.wf = true := by
  unfold takeView; split <;> simp [hm]

@[simp] theorem viewCatchUp_wf (peer : Nat) (m : Msg) (s : State) (hm : s.mem.wf = true) :
    (viewCatchUp peer m s).mem.wf = true := by simp [viewCatchUp, hm]

/-! ### TickRows -/

@[simp] theorem tickReports_mem (x : TickSample) (s : State) : (tickReports x s).mem = s.mem := (rfl)

@[simp] theorem tickReady_mem (s : State) : (tickReady s).mem = s.mem := by simp [tickReady]

@[simp] theorem managementTick_mem (x : TickSample) (s0 : State) : (managementTick x s0).mem = s0.mem := by simp [managementTick]

/-! ### Step -/

@[simp] theorem State.withFetchWord_mem (s : State) (nbits w : Nat) : (State.withFetchWord s nbits w).mem = s.mem := (rfl)

/-! ### What a command answers -/

/-- The state that is answered has a canonical memory. -/
def ResultSound (r : Result) : Prop := ∀ t, r = .next t → t.mem.wf = true

@[simp] theorem resultSound_next (t : State) : ResultSound (.next t) ↔ t.mem.wf = true := ⟨fun h => h t rfl, fun h _ ht => by cases ht; exact h⟩

@[simp] theorem resultSound_nextOf (old t : State) : ResultSound (nextOf old t) ↔ t.mem.wf = true := by
  rw [nextOf, resultSound_next, settle_mem]

@[simp] theorem resultSound_ite (p : Prop) [Decidable p] (r r' : Result) :
    ResultSound (if p then r else r') ↔ if p then ResultSound r else ResultSound r' := iff_of_eq (apply_ite ResultSound p r r')

theorem nextOf_sound {old t : State} (h : t.mem.wf = true) : ResultSound (nextOf old t) := (resultSound_nextOf old t).2 h

theorem execCommand_sound {c : Command} (hc : KeepsMemory c) (h : Nat) (s : State) (hm : s.mem.wf = true) : ResultSound (execCommand c h s) :=
  nextOf_sound (runCommand_wf hc h s hm)

theorem execEntry_sound {c : Command} (hc : KeepsMemory c) (h : Nat) (s : State) (hm : s.mem.wf = true) : ResultSound (execEntry c h s) :=
  nextOf_sound (runEntry_wf hc h s hm)

theorem execAt_sound {c : Command} (hc : KeepsMemory c) (mods : State → Flight → List Nat) (h : Nat) (s : State) (hm : s.mem.wf = true) :
    ResultSound (execAt c mods h s) :=
  nextOf_sound (runAt_wf hc mods h s hm)

theorem ofForm_sound {k : State → Result} {s : State} (form : Flight → Bool) (h : Nat) (hm : s.mem.wf = true) (hk : ResultSound (k s)) :
    ResultSound (ofForm form h s k) := by
  unfold ofForm
  split
  · simp [hm]
  · split
    · exact hk
    · simp [hm]

@[simp] theorem smbusAnswer_sound (b : Bytes) (s : State) (hm : s.mem.wf = true) : ResultSound (smbusAnswer b s) := by simp [smbusAnswer, hm]

@[simp] theorem spdmStep_sound (need : Nat) (after : SpdmStage) (code : Nat) (content : Bytes) (s : State) (hm : s.mem.wf = true) :
    ResultSound (spdmStep need after code content s) := by
  unfold spdmStep
  (repeat' split) <;> simp [hm]

@[simp] theorem tapLoad_sound (i : TapInstr) (out : Nat) (s : State) (hm : s.mem.wf = true) : ResultSound (tapLoad i out s) := by simp [tapLoad, hm]

section Rows

variable {s : State} (hm : s.mem.wf = true)

include hm

theorem execAttestReport_sound (h : Nat) : ResultSound (execAttestReport h s) := ofForm_sound _ h hm (execCommand_sound attestCommand_sound h s hm)

theorem execAttestCertificates_sound (h : Nat) : ResultSound (execAttestCertificates h s) :=
  ofForm_sound _ h hm (execCommand_sound attestCommand_sound h s hm)

theorem execKeyInstallSet_sound (h : Nat) : ResultSound (execKeyInstallSet h s) :=
  ofForm_sound _ h hm (execCommand_sound keyInstallCommand_sound h s hm)

theorem execKeyInstallImport_sound (h : Nat) (image : Bytes) : ResultSound (execKeyInstallImport h image s) :=
  ofForm_sound _ h hm (by
    split
    · simp [hm]
    · simp [runCommand_wf keyInstallCommand_sound, hm])

theorem execKeyInstallExport_sound (h : Nat) : ResultSound (execKeyInstallExport h s) :=
  ofForm_sound _ h hm (execCommand_sound keyInstallCommand_sound h s hm)

theorem execDetokStreamOpen_sound (h : Nat) : ResultSound (execDetokStreamOpen h s) := ofForm_sound _ h hm (execEntry_sound detokCommand_sound h s hm)

theorem execDetokStreamFeed_sound (h : Nat) : ResultSound (execDetokStreamFeed h s) := ofForm_sound _ h hm (execEntry_sound detokCommand_sound h s hm)

theorem execPipelineDefine_sound (h : Nat) : ResultSound (execPipelineDefine h s) :=
  ofForm_sound _ h hm (execCommand_sound pipelineCommand_sound h s hm)

theorem execPipelineDelete_sound (h : Nat) : ResultSound (execPipelineDelete h s) :=
  ofForm_sound _ h hm (execCommand_sound pipelineCommand_sound h s hm)

theorem execBudgetSet_sound (h : Nat) : ResultSound (execBudgetSet h s) := ofForm_sound _ h hm (execCommand_sound budgetCommand_sound h s hm)

theorem execBudgetRemove_sound (h : Nat) : ResultSound (execBudgetRemove h s) := ofForm_sound _ h hm (execCommand_sound budgetCommand_sound h s hm)

theorem execContractSet_sound (h : Nat) : ResultSound (execContractSet h s) := ofForm_sound _ h hm (execCommand_sound contractCommand_sound h s hm)

theorem execContractDelete_sound (h : Nat) : ResultSound (execContractDelete h s) :=
  ofForm_sound _ h hm (execCommand_sound contractCommand_sound h s hm)

theorem execGaugeArm_sound (h : Nat) : ResultSound (execGaugeArm h s) := ofForm_sound _ h hm (execCommand_sound gaugeCommand_sound h s hm)

theorem execGaugeRead_sound (h : Nat) : ResultSound (execGaugeRead h s) := ofForm_sound _ h hm (execCommand_sound gaugeCommand_sound h s hm)

theorem execGaugeReadClear_sound (h : Nat) : ResultSound (execGaugeReadClear h s) := ofForm_sound _ h hm (execCommand_sound gaugeCommand_sound h s hm)

theorem execGaugeDisarm_sound (h : Nat) : ResultSound (execGaugeDisarm h s) := ofForm_sound _ h hm (execCommand_sound gaugeCommand_sound h s hm)

theorem execFwActivate_sound (h : Nat) : ResultSound (execFwActivate h s) := ofForm_sound _ h hm (execCommand_sound fwActivateCommand_sound h s hm)

theorem execFwCommitSvn_sound (h : Nat) : ResultSound (execFwCommitSvn h s) := ofForm_sound _ h hm (execCommand_sound fwActivateCommand_sound h s hm)

theorem execMemberResetModule_sound (h : Nat) : ResultSound (execMemberResetModule h s) :=
  ofForm_sound _ h hm (execCommand_sound memberResetCommand_sound h s hm)

theorem execMemberResetPowerCycle_sound (h : Nat) : ResultSound (execMemberResetPowerCycle h s) :=
  ofForm_sound _ h hm (execCommand_sound memberResetCommand_sound h s hm)

theorem execFencedCommandBegin_sound (h : Nat) : ResultSound (execFencedCommandBegin h s) := by simp [execFencedCommandBegin, hm]

theorem execSqTailWrite_sound (ring : Nat) (value : W32) : ResultSound (execSqTailWrite ring value s) := by simp [execSqTailWrite, hm]

theorem execCqHeadWrite_sound (ring : Nat) (value : W32) : ResultSound (execCqHeadWrite ring value s) := by simp [execCqHeadWrite, hm]

theorem execSqEnable_sound (ring : Nat) : ResultSound (execSqEnable ring s) := by simp [execSqEnable, hm]

theorem execSqDisable_sound (ring : Nat) : ResultSound (execSqDisable ring s) := by simp [execSqDisable, hm]

theorem execCqEnable_sound (ring : Nat) (irqEn : Bool) : ResultSound (execCqEnable ring irqEn s) := by simp [execCqEnable, hm]

theorem execCqDisable_sound (ring : Nat) (irqEn : Bool) : ResultSound (execCqDisable ring irqEn s) := by simp [execCqDisable, hm]

theorem execModParityClear_sound : ResultSound (execModParityClear s) := by simp [execModParityClear, hm]

theorem execIrqEventClear_sound (value : W32) : ResultSound (execIrqEventClear value s) := by simp [execIrqEventClear, hm]

theorem execIrqSqErrClear_sound (word : Nat) (value : W32) : ResultSound (execIrqSqErrClear word value s) := by simp [execIrqSqErrClear, hm]

theorem execIrqCqErrClear_sound (word : Nat) (value : W32) : ResultSound (execIrqCqErrClear word value s) := by simp [execIrqCqErrClear, hm]

theorem execIrqEventEnWrite_sound (value : W32) : ResultSound (execIrqEventEnWrite value s) := by simp [execIrqEventEnWrite, hm]

theorem execClkTimeLoRead_sound : ResultSound (execClkTimeLoRead s) := by simp [execClkTimeLoRead, hm]

theorem execTelSnap_sound : ResultSound (execTelSnap s) := by simp [execTelSnap, hm]

theorem execRegisterWrite_sound (bar offset size : Nat) (value : W32) : ResultSound (execRegisterWrite bar offset size value s) := by
  simp [execRegisterWrite, hm]

theorem execMsixVectorUnmask_sound (vector : Nat) : ResultSound (execMsixVectorUnmask vector s) := by simp [execMsixVectorUnmask, hm]

theorem execPmeStatusClear_sound (status enable : Bool) : ResultSound (execPmeStatusClear status enable s) := by simp [execPmeStatusClear, hm]

theorem execCqCoalExpiry_sound (ring now : Nat) : ResultSound (execCqCoalExpiry ring now s) := by simp [execCqCoalExpiry, hm]

theorem execHostReadCompletion_sound (what : HostRead) (good : Bool) : ResultSound (execHostReadCompletion what good s) := by
  simp [execHostReadCompletion, hm]

theorem execHostCompletionTimeout_sound (what : HostRead) : ResultSound (execHostCompletionTimeout what s) := by simp [execHostCompletionTimeout, hm]

theorem execD3hotEntry_sound : ResultSound (execD3hotEntry s) := by simp [execD3hotEntry, hm]

theorem execD0Return_sound : ResultSound (execD0Return s) := by simp [execD0Return, hm]

theorem execHostLinkDown_sound : ResultSound (execHostLinkDown s) := by simp [execHostLinkDown, hm]

theorem execHostLinkRetrain_sound : ResultSound (execHostLinkRetrain s) := by simp [execHostLinkRetrain, hm]

theorem execHostLinkTrained_sound (rate width : Nat) (flit : Bool) : ResultSound (execHostLinkTrained rate width flit s) := by
  simp [execHostLinkTrained, hm]

theorem execRefclkLoss_sound : ResultSound (execRefclkLoss s) := by simp [execRefclkLoss, hm]

omit hm in
theorem execPerstAssert_sound : ResultSound (execPerstAssert s) := by simp [execPerstAssert]

theorem execPerstRelease_sound : ResultSound (execPerstRelease s) := by simp [execPerstRelease, hm]

omit hm in
theorem execColdReset_sound (vin : Nat) : ResultSound (execColdReset vin s) := by simp [execColdReset]

theorem execCalmIslandStart_sound (slotId : Nat) (mfgMode : Bool) : ResultSound (execCalmIslandStart slotId mfgMode s) := by
  simp [execCalmIslandStart, hm]

omit hm in
theorem execPowerOff_sound : ResultSound (execPowerOff s) := by simp [execPowerOff]

theorem execInputInRange_sound (vin : Nat) : ResultSound (execInputInRange vin s) := by simp [execInputInRange, hm]

theorem execHvEnAssert_sound (tj : Nat) : ResultSound (execHvEnAssert tj s) := by simp [execHvEnAssert, hm]

theorem execHvEnDeassert_sound : ResultSound (execHvEnDeassert s) := by simp [execHvEnDeassert, hm]

theorem execRailsInRegulation_sound : ResultSound (execRailsInRegulation s) := by simp [execRailsInRegulation, hm]

theorem execRailFailure_sound (rail : Nat) : ResultSound (execRailFailure rail s) := by simp [execRailFailure, hm]

theorem execBrownOut_sound (vin now : Nat) : ResultSound (execBrownOut vin now s) := by simp [execBrownOut, hm]

theorem execThermalTrip_sound (tj _die now : Nat) : ResultSound (execThermalTrip tj _die now s) := by simp [execThermalTrip, hm]

theorem execOscillatorLoss_sound (domain : Nat) : ResultSound (execOscillatorLoss domain s) := by simp [execOscillatorLoss, hm]

theorem execEntropyFail_sound : ResultSound (execEntropyFail s) := by simp [execEntropyFail, hm]

theorem execBootTimeout_sound : ResultSound (execBootTimeout s) := by simp [execBootTimeout, hm]

theorem execRecoveryBundleChunk_sound (offset : Nat) (bytes : Bytes) : ResultSound (execRecoveryBundleChunk offset bytes s) := by
  simp [execRecoveryBundleChunk, hm]

theorem execWatchdogExpiry_sound (core now : Nat) : ResultSound (execWatchdogExpiry core now s) := by
  simp [execWatchdogExpiry, hm]

theorem execFastClamp_sound (now : Nat) : ResultSound (execFastClamp now s) := by simp [execFastClamp, hm]

theorem execFastClampEnd_sound (now : Nat) : ResultSound (execFastClampEnd now s) := by simp [execFastClampEnd, hm]

theorem execMemSelfRefresh_sound (now : Nat) : ResultSound (execMemSelfRefresh now s) := by
  simp [execMemSelfRefresh, hm]

theorem execPatrolScrub_sound (addr : Nat) (outcome : TierOutcome) : ResultSound (execPatrolScrub addr outcome s) := by
  unfold execPatrolScrub
  split <;> simp [hm]

theorem execPpsEdge_sound (now : Nat) : ResultSound (execPpsEdge now s) := by simp [execPpsEdge, hm]

theorem execPpsLoss_sound (now : Nat) : ResultSound (execPpsLoss now s) := by
  unfold execPpsLoss
  split <;> simp [hm]

theorem execPrefillStage_sound (r : Nat) (fetched : List (Nat × Nat × Nat × Bytes)) (now : Nat) : ResultSound (execPrefillStage r fetched now s) :=
  nextOf_sound (onStage_wf (fun q t hm => by simp [runStage_wf (prefillStage_sound q fetched), hm]) s hm)

theorem execDecodeStep_sound (r : Nat) (fetched : List (Nat × Nat × Nat × Bytes)) (now : Nat) : ResultSound (execDecodeStep r fetched now s) :=
  nextOf_sound (onStage_wf (fun q t hm => by simp [hm]) s hm)

theorem execRequestFree_sound (r : Nat) : ResultSound (execRequestFree r s) := by
  rw [execRequestFree, resultSound_nextOf]
  split <;> simp [hm]

theorem execChunkReservation_sound (r now : Nat) : ResultSound (execChunkReservation r now s) :=
  nextOf_sound (onRequest_wf (fun q t hm => by simp [hm]) s hm)

theorem execChunkTimer_sound (r now : Nat) : ResultSound (execChunkTimer r now s) := nextOf_sound (onRequest_wf (fun q t hm => by simp [hm]) s hm)

theorem execRequestDeadline_sound (r now : Nat) : ResultSound (execRequestDeadline r now s) :=
  nextOf_sound (onRequest_wf (fun q t hm => by simp [hm]) s hm)

theorem execCandidacyExpiry_sound (now : Nat) : ResultSound (execCandidacyExpiry now s) := by
  unfold execCandidacyExpiry
  dsimp only
  split <;> simp [hm]

theorem execVoteTimeout_sound (h now : Nat) : ResultSound (execVoteTimeout h now s) := by
  unfold execVoteTimeout
  dsimp only
  split <;> simp [hm]

theorem execPeerUnreachable_sound (peer now : Nat) : ResultSound (execPeerUnreachable peer now s) := by
  simp [execPeerUnreachable, hm]

theorem execOffsetStale_sound (now : Nat) : ResultSound (execOffsetStale now s) := by
  unfold execOffsetStale
  dsimp only
  split <;> simp [hm]

theorem execPortSignalLoss_sound (p : Nat) : ResultSound (execPortSignalLoss p s) := by simp [execPortSignalLoss, hm]

theorem execPortSignalDetect_sound (p : Nat) : ResultSound (execPortSignalDetect p s) := by simp [execPortSignalDetect, hm]

theorem execDadComplete_sound (p : Nat) (inUse : Bool) : ResultSound (execDadComplete p inUse s) := by simp [execDadComplete, hm]

theorem execNeighborSolicitation_sound (p : Nat) (target : Bytes) (probe : Bool) : ResultSound (execNeighborSolicitation p target probe s) := by
  simp [execNeighborSolicitation, hm]

theorem execNeighborAdvertisement_sound (p : Nat) (target link : Bytes) : ResultSound (execNeighborAdvertisement p target link s) := by
  simp [execNeighborAdvertisement, hm]

theorem execIcmpv6EchoRequest_sound (p : Nat) (data : Bytes) : ResultSound (execIcmpv6EchoRequest p data s) := by simp [execIcmpv6EchoRequest, hm]

theorem execPacketTooBig_sound (p : Nat) : ResultSound (execPacketTooBig p s) := by simp [execPacketTooBig, hm]

theorem execFlitNak_sound (p ack : Nat) : ResultSound (execFlitNak p ack s) := by simp [execFlitNak, hm]

theorem execFlitDamaged_sound (p : Nat) (fec : Bool) : ResultSound (execFlitDamaged p fec s) := by simp [execFlitDamaged, hm]

theorem execFlitHello_sound (p uid port seq ack : Nat) : ResultSound (execFlitHello p uid port seq ack s) := by simp [execFlitHello, hm]

theorem execFlitTime_sound (p sent arrived ack : Nat) : ResultSound (execFlitTime p sent arrived ack s) := by
  simp only [execFlitTime, resultSound_nextOf]
  (repeat' split) <;> simp [hm]

theorem execHelloSend_sound (p : Nat) : ResultSound (execHelloSend p s) := by simp [execHelloSend, hm]

theorem execAckStall_sound (p : Nat) : ResultSound (execAckStall p s) := by simp [execAckStall, hm]

theorem execSegmentData_sound (p seq ack : Nat) (bytes : Bytes) : ResultSound (execSegmentData p seq ack bytes s) := by
  rw [execSegmentData, resultSound_nextOf, onSegment_wf (segmentIn_wf _)]
  simp [hm]

theorem execSegmentAck_sound (p seq ack : Nat) (bytes : Bytes) : ResultSound (execSegmentAck p seq ack bytes s) := by
  rw [execSegmentAck, resultSound_nextOf]
  exact onSegment_wf (fun _ _ _ ht => wf_of_eq (segmentAck_mem _ _ _) ht) _ (by split <;> simp [hm])

theorem execRetransmitTimeout_sound (peer ch : Nat) : ResultSound (execRetransmitTimeout peer ch s) := by
  simp only [execRetransmitTimeout, resultSound_nextOf]
  split <;> simp [hm]

theorem execKvShipOpen_sound (peer : Nat) (plain : Bytes) : ResultSound (execKvShipOpen peer plain s) :=
  nextOf_sound (onShip_wf (fun _ _ ht => wf_of_eq (shipOpen_mem _ _ _) ht) s hm)

theorem execKvShipAccept_sound (peer : Nat) (plain : Bytes) : ResultSound (execKvShipAccept peer plain s) :=
  nextOf_sound (onShip_wf (fun m t hm => by (repeat' split) <;> simp [hm]) s hm)

theorem execKvShipPage_sound (peer : Nat) (plain : Bytes) : ResultSound (execKvShipPage peer plain s) :=
  nextOf_sound (onShip_wf (fun m t hm => by (repeat' split) <;> simp [hm]) s hm)

theorem execKvShipAbort_sound (peer : Nat) (plain : Bytes) : ResultSound (execKvShipAbort peer plain s) :=
  nextOf_sound (onShip_wf (fun m t hm => by (repeat' split) <;> simp [hm]) s hm)

theorem execKvShipRefuse_sound (peer : Nat) (plain : Bytes) : ResultSound (execKvShipRefuse peer plain s) :=
  nextOf_sound (onShip_wf (fun m t hm => by (repeat' split) <;> simp [hm]) s hm)

theorem execCmdFwdForward_sound (peer : Nat) (plain : Bytes) : ResultSound (execCmdFwdForward peer plain s) :=
  nextOf_sound (onFwd_wf (fun _ _ ht => wf_of_eq (answerStale_mem _ _ _) ht) (fwdForward_wf _) s hm)

theorem execCmdFwdReply_sound (peer : Nat) (plain : Bytes) : ResultSound (execCmdFwdReply peer plain s) :=
  nextOf_sound (onFwd_wf (fun _ _ ht => ht) (fwdReply_wf _) s hm)

theorem execCmdFwdPrepare_sound (peer : Nat) (plain : Bytes) : ResultSound (execCmdFwdPrepare peer plain s) :=
  nextOf_sound (onFwd_wf (fun _ _ ht => wf_of_eq (answerStale_mem _ _ _) ht) (fwdPrepare_wf _) s hm)

theorem execCmdFwdVote_sound (peer : Nat) (plain : Bytes) : ResultSound (execCmdFwdVote peer plain s) :=
  nextOf_sound (onFwd_wf (fun _ _ ht => ht) (fun _ _ ht => wf_of_eq (fwdVote_mem _ _ _) ht) s hm)

theorem execCmdFwdCommit_sound (peer : Nat) (plain : Bytes) (now : Nat) : ResultSound (execCmdFwdCommit peer plain now s) :=
  nextOf_sound (onFwd_wf (fun _ _ ht => ht) (fwdCommit_wf _ _) s hm)

theorem execCmdFwdAbort_sound (peer : Nat) (plain : Bytes) : ResultSound (execCmdFwdAbort peer plain s) :=
  nextOf_sound (onFwd_wf (fun _ _ ht => ht) (fun _ _ ht => wf_of_eq (fwdAbort_mem _ _ _) ht) s hm)

theorem execCmdFwdDecision_sound (peer : Nat) (plain : Bytes) : ResultSound (execCmdFwdDecision peer plain s) :=
  nextOf_sound (onFwd_wf (fun _ _ ht => ht) (fun _ _ ht => wf_of_eq (fwdDecision_mem _ _ _) ht) s hm)

theorem execCmdFwdDecisionAck_sound (peer : Nat) (plain : Bytes) : ResultSound (execCmdFwdDecisionAck peer plain s) :=
  nextOf_sound (onFwd_wf (fun _ _ ht => ht) (fun _ _ ht => wf_of_eq (fwdDecisionAck_mem _ _ _) ht) s hm)

theorem execTimeSyncSync_sound (peer : Nat) (plain : Bytes) (now : Nat) : ResultSound (execTimeSyncSync peer plain now s) :=
  nextOf_sound (onTimeSync_wf (fun m t hm => by simp [hm]) s hm)

theorem execTimeSyncFollowUp_sound (peer : Nat) (plain : Bytes) (now : Nat) : ResultSound (execTimeSyncFollowUp peer plain now s) :=
  nextOf_sound (onTimeSync_wf (fun m t hm => by simp [hm]) s hm)

theorem execTimeSyncDelayReq_sound (peer : Nat) (plain : Bytes) (now : Nat) : ResultSound (execTimeSyncDelayReq peer plain now s) :=
  nextOf_sound (onTimeSync_wf (fun m t hm => by simp [hm]) s hm)

theorem execTimeSyncDelayResp_sound (peer : Nat) (plain : Bytes) (now : Nat) : ResultSound (execTimeSyncDelayResp peer plain now s) :=
  nextOf_sound (onTimeSync_wf (fun m t hm => by simp [hm]) s hm)

theorem execPtpSync_sound (domain now : Nat) : ResultSound (execPtpSync domain now s) := by simp [execPtpSync, hm]

theorem execPtpFollowUp_sound (domain sent : Nat) : ResultSound (execPtpFollowUp domain sent s) := by simp [execPtpFollowUp, hm]

theorem execPtpDelayReq_sound (p domain now : Nat) : ResultSound (execPtpDelayReq p domain now s) := by simp [execPtpDelayReq, hm]

theorem execPtpDelayResp_sound (domain stamp now : Nat) : ResultSound (execPtpDelayResp domain stamp now s) := by simp [execPtpDelayResp, hm]

theorem execFrontViewPropose_sound (peer : Nat) (plain : Bytes) : ResultSound (execFrontViewPropose peer plain s) :=
  nextOf_sound (onView_wf (fun _ _ ht => wf_of_eq (viewPropose_mem _ _ _) ht) s hm)

theorem execFrontViewAccept_sound (peer : Nat) (plain : Bytes) : ResultSound (execFrontViewAccept peer plain s) :=
  nextOf_sound (onView_wf (fun _ _ ht => wf_of_eq (viewAccept_mem _ _ _) ht) s hm)

theorem execFrontViewInstall_sound (peer : Nat) (plain : Bytes) (now : Nat) : ResultSound (execFrontViewInstall peer plain now s) :=
  nextOf_sound (onView_wf (viewInstall_wf _ _) s hm)

theorem execFrontViewCatchUp_sound (peer : Nat) (plain : Bytes) : ResultSound (execFrontViewCatchUp peer plain s) :=
  nextOf_sound (onView_wf (viewCatchUp_wf _) s hm)

theorem execClearFaults_sound : ResultSound (execClearFaults s) := by simp [execClearFaults, hm]

theorem execStatusByte_sound : ResultSound (execStatusByte s) := smbusAnswer_sound _ _ hm

theorem execStatusWord_sound : ResultSound (execStatusWord s) := smbusAnswer_sound _ _ hm

theorem execStatusInput_sound : ResultSound (execStatusInput s) := smbusAnswer_sound _ _ hm

theorem execStatusTemperature_sound : ResultSound (execStatusTemperature s) := smbusAnswer_sound _ _ hm

theorem execReadVin_sound : ResultSound (execReadVin s) := smbusAnswer_sound _ _ hm

theorem execReadIin_sound : ResultSound (execReadIin s) := smbusAnswer_sound _ _ hm

theorem execReadTemperature1_sound : ResultSound (execReadTemperature1 s) := smbusAnswer_sound _ _ hm

theorem execReadPin_sound : ResultSound (execReadPin s) := smbusAnswer_sound _ _ hm

theorem execPmbusRevision_sound : ResultSound (execPmbusRevision s) := smbusAnswer_sound _ _ hm

theorem execMfrId_sound : ResultSound (execMfrId s) := smbusAnswer_sound _ _ hm

theorem execMfrModel_sound : ResultSound (execMfrModel s) := smbusAnswer_sound _ _ hm

theorem execPmbusUnsupported_sound (code : Nat) : ResultSound (execPmbusUnsupported code s) := by simp [execPmbusUnsupported, hm]

theorem execAlertResponse_sound : ResultSound (execAlertResponse s) := by simp [execAlertResponse, hm]

theorem execSmbusClockTimeout_sound : ResultSound (execSmbusClockTimeout s) := by simp [execSmbusClockTimeout, hm]

theorem execMctpControl_sound (request : Bytes) : ResultSound (execMctpControl request s) := by simp [execMctpControl, hm]

theorem execGetVersion_sound (_request : Bytes) : ResultSound (execGetVersion _request s) := spdmStep_sound _ _ _ _ _ hm

theorem execGetCapabilities_sound (request : Bytes) : ResultSound (execGetCapabilities request s) := spdmStep_sound _ _ _ _ _ hm

theorem execNegotiateAlgorithms_sound (request : Bytes) : ResultSound (execNegotiateAlgorithms request s) := spdmStep_sound _ _ _ _ _ hm

theorem execGetDigests_sound (_request : Bytes) : ResultSound (execGetDigests _request s) := spdmStep_sound _ _ _ _ _ hm

theorem execGetCertificate_sound (request : Bytes) : ResultSound (execGetCertificate request s) := by simp [execGetCertificate, hm]

theorem execChallenge_sound (request : Bytes) : ResultSound (execChallenge request s) := spdmStep_sound _ _ _ _ _ hm

theorem execGetMeasurements_sound (request : Bytes) : ResultSound (execGetMeasurements request s) := by simp [execGetMeasurements, hm]

theorem execSpdmUnsupportedRequest_sound (request : Bytes) : ResultSound (execSpdmUnsupportedRequest request s) := by
  simp [execSpdmUnsupportedRequest, hm]

theorem execDoeDiscovery_sound (idx : Nat) : ResultSound (execDoeDiscovery idx s) := by
  unfold execDoeDiscovery
  split
  · dsimp only
    split <;> simpa using hm
  · simp [hm]

theorem execTapReset_sound : ResultSound (execTapReset s) := by simp [execTapReset, hm]

theorem execBypass_sound : ResultSound (execBypass s) := tapLoad_sound _ _ _ hm

theorem execIdcode_sound : ResultSound (execIdcode s) := tapLoad_sound _ _ _ hm

theorem execSamplePreload_sound (pins : Nat) : ResultSound (execSamplePreload pins s) := tapLoad_sound _ _ _ hm

theorem execExtest_sound (pins : Nat) : ResultSound (execExtest pins s) := tapLoad_sound _ _ _ hm

theorem execExtestPulse_sound (pins : Nat) : ResultSound (execExtestPulse pins s) := tapLoad_sound _ _ _ hm

theorem execExtestTrain_sound (pins : Nat) : ResultSound (execExtestTrain pins s) := tapLoad_sound _ _ _ hm

theorem execJtagPrivate_sound (code : Nat) : ResultSound (execJtagPrivate code s) := by
  unfold execJtagPrivate
  split
  · simp [tapLoad, hm]
  · exact tapLoad_sound _ _ _ hm

theorem execPluggableInsertion_sound (cage milliwatts : Nat) : ResultSound (execPluggableInsertion cage milliwatts s) := by
  simp [execPluggableInsertion, hm]

theorem execQuadrantDomainFailure_sound (quadrant : Nat) : ResultSound (execQuadrantDomainFailure quadrant s) := by
  simp [execQuadrantDomainFailure, hm]

theorem execBusMasterEnableWrite_sound (enable : Bool) : ResultSound (execBusMasterEnableWrite enable s) := by
  simp [execBusMasterEnableWrite, hm]

end Rows

/-- Each row keeps a canonical memory; the cases are those of the dispatch. -/
theorem exec_sound (c : Instr) (s : State) (hm : s.mem.wf = true) : ResultSound (exec c s) := by
  cases c with
  | sessionOpen h => exact execEntry_sound (entryCommand_sound sessionOpenCommand_sound) h s hm
  | sessionClose h => exact nextOf_sound (wf_of_eq (sessionClose_mem _ s) hm)
  | attestReport h => exact execAttestReport_sound hm h
  | attestCertificates h => exact execAttestCertificates_sound hm h
  | keyInstallSet h => exact execKeyInstallSet_sound hm h
  | keyInstallImport h image => exact execKeyInstallImport_sound hm h image
  | keyInstallExport h => exact execKeyInstallExport_sound hm h
  | keyRetire h => exact execCommand_sound keyRetireCommand_sound h s hm
  | tenantCreate h => exact execCommand_sound tenantCreateCommand_sound h s hm
  | tenantDestroy h => exact execCommand_sound tenantDestroyCommand_sound h s hm
  | debugAuthorize h => exact execCommand_sound debugAuthorizeCommand_sound h s hm
  | txnBegin h => exact execEntry_sound txnBeginCommand_sound h s hm
  | txnSet h => exact execEntry_sound txnSetCommand_sound h s hm
  | txnCommit h => exact nextOf_sound (txnCommit_wf _ s hm)
  | txnRollback h => exact execEntry_sound txnRollbackCommand_sound h s hm
  | configGet h => exact execCommand_sound configGetCommand_sound h s hm
  | roleSet h => exact execCommand_sound roleSetCommand_sound h s hm
  | memAlloc h => exact execCommand_sound memAllocCommand_sound h s hm
  | memFree h => exact execCommand_sound memFreeCommand_sound h s hm
  | memCopy h => exact execCommand_sound memCopyCommand_sound h s hm
  | reside h => exact execCommand_sound resideCommand_sound h s hm
  | demote h => exact execCommand_sound demoteCommand_sound h s hm
  | flush h => exact execCommand_sound flushCommand_sound h s hm
  | memFill h => exact execCommand_sound memFillCommand_sound h s hm
  | tierStats h => exact execCommand_sound tierStatsCommand_sound h s hm
  | modelLoad h => exact execCommand_sound modelLoadCommand_sound h s hm
  | modelUnload h => exact execCommand_sound modelUnloadCommand_sound h s hm
  | steerSetLoad h => exact execCommand_sound steerSetLoadCommand_sound h s hm
  | steerSetDrop h => exact execCommand_sound steerSetDropCommand_sound h s hm
  | kernelLoad h => exact execCommand_sound kernelLoadCommand_sound h s hm
  | layerRun h => exact execCommand_sound layerRunCommand_sound h s hm
  | kernelRun h => exact execCommand_sound kernelRunCommand_sound h s hm
  | chainDefine h => exact execCommand_sound chainDefineCommand_sound h s hm
  | tableCreate h => exact execCommand_sound tableCreateCommand_sound h s hm
  | tableDrop h => exact execAt_sound tableDropCommand_sound _ h s hm
  | rowsWrite h => exact nextOf_sound (rowsWrite_wf _ s hm)
  | bagLookup h fetched => exact execEntry_sound (bagLookupCommand_sound fetched) h s hm
  | hotPolicySet h => exact execAt_sound hotPolicyCommand_sound _ h s hm
  | rowsRead h fetched => exact execEntry_sound (rowsReadCommand_sound fetched) h s hm
  | indexCreate h => exact execCommand_sound indexCreateCommand_sound h s hm
  | indexDrop h => exact execAt_sound indexDropCommand_sound _ h s hm
  | indexLoad h => exact execAt_sound indexLoadCommand_sound _ h s hm
  | vecInsert h => exact execAt_sound vecInsertCommand_sound _ h s hm
  | vecDelete h => exact execAt_sound vecDeleteCommand_sound _ h s hm
  | search h payloads => exact nextOf_sound (searchRow_wf _ _ s hm)
  | indexMerge h => exact execAt_sound indexMergeCommand_sound _ h s hm
  | indexStats h => exact execAt_sound indexStatsCommand_sound _ h s hm
  | selectTopk h => exact execEntry_sound selectTopkCommand_sound h s hm
  | selectMerge h => exact execEntry_sound selectMergeCommand_sound h s hm
  | tokenizerLoad h => exact execEntry_sound tokenizerLoadCommand_sound h s hm
  | tokenize h => exact execEntry_sound tokenizeCommand_sound h s hm
  | detokStreamOpen h => exact execDetokStreamOpen_sound hm h
  | detokStreamFeed h => exact execDetokStreamFeed_sound hm h
  | packPrompt h => exact execEntry_sound packPromptCommand_sound h s hm
  | grammarLoad h => exact execEntry_sound grammarLoadCommand_sound h s hm
  | stopSet h => exact execEntry_sound stopSetCommand_sound h s hm
  | requestSubmit h => exact execEntry_sound requestSubmitCommand_sound h s hm
  | requestCancel h => exact execEntry_sound requestCancelCommand_sound h s hm
  | requestStatus h => exact execEntry_sound requestStatusCommand_sound h s hm
  | kvExport h => exact execEntry_sound kvExportCommand_sound h s hm
  | kvImport h => exact execEntry_sound kvImportCommand_sound h s hm
  | pipelineDefine h => exact execPipelineDefine_sound hm h
  | pipelineDelete h => exact execPipelineDelete_sound hm h
  | sharesSet h => exact execCommand_sound sharesSetCommand_sound h s hm
  | budgetSet h => exact execBudgetSet_sound hm h
  | budgetRemove h => exact execBudgetRemove_sound hm h
  | contractSet h => exact execContractSet_sound hm h
  | contractDelete h => exact execContractDelete_sound hm h
  | accountRead h => exact execCommand_sound accountReadCommand_sound h s hm
  | frontForm h => exact execCommand_sound frontFormCommand_sound h s hm
  | frontJoinCandidate h => exact nextOf_sound (frontJoinRow_wf _ _ s hm)
  | frontJoinAdmit h => exact nextOf_sound (frontJoinRow_wf _ _ s hm)
  | frontLeave h => exact execCommand_sound frontLeaveCommand_sound h s hm
  | frontView h => exact execAt_sound frontViewCommand_sound _ h s hm
  | linkConfig h => exact execCommand_sound linkConfigCommand_sound h s hm
  | linkStatus h => exact execCommand_sound linkStatusCommand_sound h s hm
  | anchorSet h => exact execCommand_sound anchorSetCommand_sound h s hm
  | breakSet h => exact execCommand_sound breakSetCommand_sound h s hm
  | breakClear h => exact execCommand_sound breakClearCommand_sound h s hm
  | halt h => exact execCommand_sound haltCommand_sound h s hm
  | resume h => exact execCommand_sound resumeCommand_sound h s hm
  | step h => exact execCommand_sound stepCommand_sound h s hm
  | stateRead h => exact execCommand_sound stateReadCommand_sound h s hm
  | trackRead h => exact execCommand_sound trackReadCommand_sound h s hm
  | gaugeArm h => exact execGaugeArm_sound hm h
  | gaugeRead h => exact execGaugeRead_sound hm h
  | gaugeReadClear h => exact execGaugeReadClear_sound hm h
  | gaugeDisarm h => exact execGaugeDisarm_sound hm h
  | countersRead h => exact execCommand_sound countersReadCommand_sound h s hm
  | histogramRead h => exact execEntry_sound histogramReadCommand_sound h s hm
  | faultLogRead h => exact execCommand_sound faultLogReadCommand_sound h s hm
  | sensorsRead h => exact execCommand_sound sensorsReadCommand_sound h s hm
  | powerCapSet h => exact execCommand_sound powerCapCommand_sound h s hm
  | statePolicySet h => exact execCommand_sound statePolicyCommand_sound h s hm
  | fwStage h => exact execCommand_sound fwStageCommand_sound h s hm
  | fwActivate h => exact execFwActivate_sound hm h
  | fwCommitSvn h => exact execFwCommitSvn_sound hm h
  | memberResetModule h => exact execMemberResetModule_sound hm h
  | memberResetPowerCycle h => exact execMemberResetPowerCycle_sound hm h
  | resetDelayExpiry now => exact nextOf_sound (resetDelayExpiry_wf _ s hm)
  | packetTaken ring bytes now => exact nextOf_sound (wf_of_eq (packetTaken_mem _ _ _ s) hm)
  | fencedCommandBegin h => exact execFencedCommandBegin_sound hm h
  | txnTimeout session txn now => exact nextOf_sound (wf_of_eq (txnTimeout_mem _ _ _ s) hm)
  | sqTailWrite ring value => exact execSqTailWrite_sound hm ring value
  | cqHeadWrite ring value => exact execCqHeadWrite_sound hm ring value
  | sqEnable ring => exact execSqEnable_sound hm ring
  | sqDisable ring => exact execSqDisable_sound hm ring
  | cqEnable ring irqEn => exact execCqEnable_sound hm ring irqEn
  | cqDisable ring irqEn => exact execCqDisable_sound hm ring irqEn
  | modParityClear => exact execModParityClear_sound hm
  | irqEventClear value => exact execIrqEventClear_sound hm value
  | irqSqErrClear word value => exact execIrqSqErrClear_sound hm word value
  | irqCqErrClear word value => exact execIrqCqErrClear_sound hm word value
  | irqEventEnWrite value => exact execIrqEventEnWrite_sound hm value
  | dbgPeekRead => exact nextOf_sound (wf_of_eq (dbgPeekRead_mem s) hm)
  | dbgPeekWrite value => exact nextOf_sound (dbgPeekWrite_wf _ s hm)
  | clkTimeLoRead => exact execClkTimeLoRead_sound hm
  | telSnap => exact execTelSnap_sound hm
  | telSnapshotTaken now => exact nextOf_sound (wf_of_eq (telSnapshotTaken_mem _ s) hm)
  | registerWrite bar offset size value => exact execRegisterWrite_sound hm bar offset size value
  | msixVectorUnmask vector => exact execMsixVectorUnmask_sound hm vector
  | pmeStatusClear status enable => exact execPmeStatusClear_sound hm status enable
  | cqCoalExpiry ring now => exact execCqCoalExpiry_sound hm ring now
  | hostReadCompletion what good => exact execHostReadCompletion_sound hm what good
  | hostCompletionTimeout what => exact execHostCompletionTimeout_sound hm what
  | functionLevelReset => exact nextOf_sound (wf_of_eq (flrOrHold_mem _ s) hm)
  | hotReset => exact nextOf_sound (wf_of_eq (flrOrHold_mem _ s) hm)
  | d3hotEntry => exact execD3hotEntry_sound hm
  | d0Return => exact execD0Return_sound hm
  | hostLinkDown => exact execHostLinkDown_sound hm
  | hostLinkRetrain => exact execHostLinkRetrain_sound hm
  | hostLinkTrained rate width flit => exact execHostLinkTrained_sound hm rate width flit
  | refclkLoss => exact execRefclkLoss_sound hm
  | perstAssert => exact execPerstAssert_sound
  | perstRelease => exact execPerstRelease_sound hm
  | coldReset vin => exact execColdReset_sound vin
  | calmIslandStart slotId mfgMode => exact execCalmIslandStart_sound hm slotId mfgMode
  | powerOff => exact execPowerOff_sound
  | inputInRange vin => exact execInputInRange_sound hm vin
  | hvEnAssert tj => exact execHvEnAssert_sound hm tj
  | hvEnDeassert => exact execHvEnDeassert_sound hm
  | railsInRegulation => exact execRailsInRegulation_sound hm
  | railFailure rail => exact execRailFailure_sound hm rail
  | brownOut vin now => exact execBrownOut_sound hm vin now
  | thermalTrip tj die now => exact execThermalTrip_sound hm tj die now
  | oscillatorLoss domain => exact execOscillatorLoss_sound hm domain
  | entropyFail => exact execEntropyFail_sound hm
  | boot passed countersValid => exact nextOf_sound (wf_of_eq (boot_mem _ _ s) hm)
  | fwReady now => exact nextOf_sound (wf_of_eq (fwReady_mem _ s) hm)
  | bootTimeout => exact execBootTimeout_sound hm
  | recoveryBundleChunk offset bytes => exact execRecoveryBundleChunk_sound hm offset bytes
  | watchdogExpiry core now => exact execWatchdogExpiry_sound hm core now
  | managementTick sample => exact nextOf_sound (wf_of_eq (managementTick_mem _ s) hm)
  | fastClamp now => exact execFastClamp_sound hm now
  | fastClampEnd now => exact execFastClampEnd_sound hm now
  | schedulingTimer now => exact nextOf_sound (schedulingTimer_wf _ s hm)
  | itemRelease item work now => exact nextOf_sound (itemRelease_wf _ _ _ s hm)
  | thawComplete quadrant now => exact nextOf_sound (thawComplete_wf _ _ s hm)
  | frost quadrant now => exact nextOf_sound (wf_of_eq (frost_mem _ _ s) hm)
  | deepFrost quadrant now => exact nextOf_sound (wf_of_eq (deepFrost_mem _ _ s) hm)
  | memSelfRefresh now => exact execMemSelfRefresh_sound hm now
  | hubDomainGate domain now => exact nextOf_sound (wf_of_eq (hubDomainGate_mem _ _ s) hm)
  | patrolScrub addr outcome => exact execPatrolScrub_sound hm addr outcome
  | ppsEdge now => exact execPpsEdge_sound hm now
  | ppsLoss now => exact execPpsLoss_sound hm now
  | mma cell parity ecc => exact nextOf_sound (mma_wf _ _ _ s hm)
  | mld cell ecc => exact nextOf_sound (mld_wf _ _ s hm)
  | mdr cell parity => exact nextOf_sound (mdr_wf _ _ s hm)
  | mrs cell parity ecc => exact nextOf_sound (mrs_wf _ _ _ s hm)
  | mfence hart => exact nextOf_sound (mfence_wf _ s hm)
  | arrayIssue hart => exact nextOf_sound (arrayIssue_wf _ s hm)
  | vectorIssue hart => exact nextOf_sound (vectorIssue_wf _ s hm)
  | vadd cell => exact nextOf_sound (varith_wf _ _ s hm)
  | vsub cell => exact nextOf_sound (varith_wf _ _ s hm)
  | vmul cell => exact nextOf_sound (varith_wf _ _ s hm)
  | vfma cell => exact nextOf_sound (varith_wf _ _ s hm)
  | vmax cell => exact nextOf_sound (varith_wf _ _ s hm)
  | vmin cell => exact nextOf_sound (varith_wf _ _ s hm)
  | vdiv cell => exact nextOf_sound (varith_wf _ _ s hm)
  | vsqrt cell => exact nextOf_sound (varith_wf _ _ s hm)
  | vrsq cell => exact nextOf_sound (varith_wf _ _ s hm)
  | vrcp cell => exact nextOf_sound (varith_wf _ _ s hm)
  | vexp2 cell => exact nextOf_sound (varith_wf _ _ s hm)
  | vlog2 cell => exact nextOf_sound (varith_wf _ _ s hm)
  | vand cell => exact nextOf_sound (varith_wf _ _ s hm)
  | vor cell => exact nextOf_sound (varith_wf _ _ s hm)
  | vxor cell => exact nextOf_sound (varith_wf _ _ s hm)
  | vcmplt cell => exact nextOf_sound (varith_wf _ _ s hm)
  | vsel cell => exact nextOf_sound (varith_wf _ _ s hm)
  | vscal cell => exact nextOf_sound (vscal_wf _ s hm)
  | vld cell ecc => exact nextOf_sound (vld_wf _ _ s hm)
  | vst cell => exact nextOf_sound (vst_wf _ s hm)
  | vredsum cell => exact nextOf_sound (vreduce_wf _ _ _ s hm)
  | vredmax cell => exact nextOf_sound (vreduce_wf _ _ _ s hm)
  | vextr cell => exact nextOf_sound (vextr_wf _ s hm)
  | vins cell => exact nextOf_sound (vins_wf _ s hm)
  | vcvt cell => exact nextOf_sound (vcvt_wf _ s hm)
  | vseed cell => exact nextOf_sound (vseed_wf _ s hm)
  | vfence hart => exact nextOf_sound (vfence_wf _ s hm)
  | dsub hart => exact nextOf_sound (dsub_wf _ s hm)
  | dwait hart => exact nextOf_sound (dwait_wf _ s hm)
  | dpoll hart => exact nextOf_sound (dpoll_wf _ s hm)
  | dmaComplete hart tag outcome addr => exact nextOf_sound (dmaComplete_wf _ _ _ _ s hm)
  | remoteWriteArrival hart tag => exact nextOf_sound (remoteWriteArrival_wf _ _ s hm)
  | bar hart => exact nextOf_sound (bar_wf _ s hm)
  | barrierDeadlock h => exact nextOf_sound (wf_of_eq (barrierDeadlock_mem _ s) hm)
  | wopen hart => exact nextOf_sound (wopen_wf _ s hm)
  | wclose hart => exact nextOf_sound (wclose_wf _ s hm)
  | scalarInstruction hart ecc => exact nextOf_sound (scalarInstruction_wf _ _ s hm)
  | ecall hart => exact nextOf_sound (ecall_wf _ s hm)
  | ebreak hart => exact nextOf_sound (ebreak_wf _ s hm)
  | kernelRunCommit h cycles => exact nextOf_sound (kernelRunCommit_wf _ _ s hm)
  | layerRunCommit h => exact nextOf_sound (layerRunCommit_wf _ s hm)
  | commandDeadline h now => exact nextOf_sound (commandDeadline_wf _ _ s hm)
  | haltDrainComplete h => exact nextOf_sound (wf_of_eq (haltDrainComplete_mem _ s) hm)
  | stepStallTimeout h => exact nextOf_sound (wf_of_eq (stepStallTimeout_mem _ s) hm)
  | tierAccessComplete h addr cause stallNs outcome => exact nextOf_sound (tierAccessComplete_wf _ _ _ _ _ s hm)
  | stallLimitExpiry h addr cause stallNs now => exact nextOf_sound (stallLimitExpiry_wf _ _ _ _ _ s hm)
  | pageFillComplete page outcome => exact nextOf_sound (wf_of_eq (pageFillComplete_mem _ _ s) hm)
  | writeBackComplete page good => exact nextOf_sound (writeBackComplete_wf _ _ s hm)
  | rowUpdateApply => exact nextOf_sound (rowUpdateApply_wf s hm)
  | hotWindowEnd table counts now => exact nextOf_sound (wf_of_eq (hotWindowEnd_mem _ _ _ s) hm)
  | retrievalStage r fetched payloads now => exact nextOf_sound (retrievalStage_wf _ _ _ _ s hm)
  | prefillStage r fetched now => exact execPrefillStage_sound hm r fetched now
  | decodeStep r fetched now => exact execDecodeStep_sound hm r fetched now
  | requestFree r => exact execRequestFree_sound hm r
  | pageReservation r now => exact nextOf_sound (pageReservation_wf _ _ s hm)
  | chunkReservation r now => exact execChunkReservation_sound hm r now
  | chunkTimer r now => exact execChunkTimer_sound hm r now
  | requestDeadline r now => exact execRequestDeadline_sound hm r now
  | budgetRefill tenant now => exact nextOf_sound (wf_of_eq (budgetRefill_mem _ _ s) hm)
  | contractWindowJudged tenant n => exact nextOf_sound (wf_of_eq (contractWindowJudged_mem _ _ s) hm)
  | histogramWindow now => exact nextOf_sound (wf_of_eq (histogramWindow_mem _ s) hm)
  | candidacyExpiry now => exact execCandidacyExpiry_sound hm now
  | candidacyWaitTimeout h now => exact nextOf_sound (wf_of_eq (candidacyTimeout_mem _ _ s) hm)
  | voteTimeout h now => exact execVoteTimeout_sound hm h now
  | viewInstallDecision now => exact nextOf_sound (viewDecision_wf _ s hm)
  | peerUnreachable peer now => exact execPeerUnreachable_sound hm peer now
  | offsetStale now => exact execOffsetStale_sound hm now
  | portTrainingComplete port width => exact nextOf_sound (wf_of_eq (portTrainingComplete_mem _ _ s) hm)
  | laneLoss port lane => exact nextOf_sound (wf_of_eq (laneLoss_mem _ _ s) hm)
  | portSignalLoss port => exact execPortSignalLoss_sound hm port
  | portSignalDetect port => exact execPortSignalDetect_sound hm port
  | retrainTimeout port => exact nextOf_sound (wf_of_eq (retrainTimeout_mem _ s) hm)
  | dadComplete port inUse => exact execDadComplete_sound hm port inUse
  | neighborSolicitation port target probe => exact execNeighborSolicitation_sound hm port target probe
  | neighborAdvertisement port target link => exact execNeighborAdvertisement_sound hm port target link
  | icmpv6EchoRequest port data => exact execIcmpv6EchoRequest_sound hm port data
  | packetTooBig port => exact execPacketTooBig_sound hm port
  | flitNak port ack => exact execFlitNak_sound hm port ack
  | flitDamaged port fec => exact execFlitDamaged_sound hm port fec
  | flitHello port uid nport seq ack => exact execFlitHello_sound hm port uid nport seq ack
  | flitTime port sent arrived ack => exact execFlitTime_sound hm port sent arrived ack
  | helloSend port => exact execHelloSend_sound hm port
  | ackStall port => exact execAckStall_sound hm port
  | segmentData port seq ack bytes => exact execSegmentData_sound hm port seq ack bytes
  | segmentAck port seq ack bytes => exact execSegmentAck_sound hm port seq ack bytes
  | retransmitTimeout peer channel => exact execRetransmitTimeout_sound hm peer channel
  | tile peer plain => exact nextOf_sound (tileMessage_wf _ _ s hm)
  | kvShipOpen peer plain => exact execKvShipOpen_sound hm peer plain
  | kvShipAccept peer plain => exact execKvShipAccept_sound hm peer plain
  | kvShipPage peer plain => exact execKvShipPage_sound hm peer plain
  | kvShipAbort peer plain => exact execKvShipAbort_sound hm peer plain
  | kvShipRefuse peer plain => exact execKvShipRefuse_sound hm peer plain
  | rowUpd peer plain => exact nextOf_sound (rowUpd_wf _ _ s hm)
  | rowReplInstall peer plain => exact nextOf_sound (rowReplInstall_wf _ _ s hm)
  | rowReplDrop peer plain => exact nextOf_sound (rowReplDrop_wf _ _ s hm)
  | rowReplAck peer plain => exact nextOf_sound (rowReplAck_wf _ _ s hm)
  | searchReq peer plain => exact nextOf_sound (searchReq_wf _ _ s hm)
  | searchResp peer plain => exact nextOf_sound (searchResp_wf _ _ s hm)
  | selectMergeMsg peer plain => exact nextOf_sound (selectMergeMsg_wf _ _ s hm)
  | cmdFwdForward peer plain => exact execCmdFwdForward_sound hm peer plain
  | cmdFwdReply peer plain => exact execCmdFwdReply_sound hm peer plain
  | cmdFwdPrepare peer plain => exact execCmdFwdPrepare_sound hm peer plain
  | cmdFwdVote peer plain => exact execCmdFwdVote_sound hm peer plain
  | cmdFwdCommit peer plain now => exact execCmdFwdCommit_sound hm peer plain now
  | cmdFwdAbort peer plain => exact execCmdFwdAbort_sound hm peer plain
  | cmdFwdDecision peer plain => exact execCmdFwdDecision_sound hm peer plain
  | cmdFwdDecisionAck peer plain => exact execCmdFwdDecisionAck_sound hm peer plain
  | timeSyncSend now => exact nextOf_sound (wf_of_eq (timeSyncSend_mem _ s) hm)
  | timeSyncSync peer plain now => exact execTimeSyncSync_sound hm peer plain now
  | timeSyncFollowUp peer plain now => exact execTimeSyncFollowUp_sound hm peer plain now
  | timeSyncDelayReq peer plain now => exact execTimeSyncDelayReq_sound hm peer plain now
  | timeSyncDelayResp peer plain now => exact execTimeSyncDelayResp_sound hm peer plain now
  | ptpSync ptpDomain now => exact execPtpSync_sound hm ptpDomain now
  | ptpFollowUp ptpDomain sent => exact execPtpFollowUp_sound hm ptpDomain sent
  | ptpDelayReq port ptpDomain now => exact execPtpDelayReq_sound hm port ptpDomain now
  | ptpDelayResp ptpDomain stamp now => exact execPtpDelayResp_sound hm ptpDomain stamp now
  | heartbeat peer plain now => exact nextOf_sound (heartbeat_wf _ _ _ s hm)
  | frontViewPropose peer plain => exact execFrontViewPropose_sound hm peer plain
  | frontViewAccept peer plain => exact execFrontViewAccept_sound hm peer plain
  | frontViewInstall peer plain now => exact execFrontViewInstall_sound hm peer plain now
  | frontViewCatchUp peer plain => exact execFrontViewCatchUp_sound hm peer plain
  | frontViewAdj peer plain => exact nextOf_sound (frontViewAdj_wf _ _ s hm)
  | clearFaults => exact execClearFaults_sound hm
  | statusByte => exact execStatusByte_sound hm
  | statusWord => exact execStatusWord_sound hm
  | statusInput => exact execStatusInput_sound hm
  | statusTemperature => exact execStatusTemperature_sound hm
  | readVin => exact execReadVin_sound hm
  | readIin => exact execReadIin_sound hm
  | readTemperature1 => exact execReadTemperature1_sound hm
  | readPin => exact execReadPin_sound hm
  | pmbusRevision => exact execPmbusRevision_sound hm
  | mfrId => exact execMfrId_sound hm
  | mfrModel => exact execMfrModel_sound hm
  | pmbusUnsupported code => exact execPmbusUnsupported_sound hm code
  | alertResponse => exact execAlertResponse_sound hm
  | smbusClockTimeout => exact execSmbusClockTimeout_sound hm
  | mctpControl request => exact execMctpControl_sound hm request
  | getVersion request => exact execGetVersion_sound hm request
  | getCapabilities request => exact execGetCapabilities_sound hm request
  | negotiateAlgorithms request => exact execNegotiateAlgorithms_sound hm request
  | getDigests request => exact execGetDigests_sound hm request
  | getCertificate request => exact execGetCertificate_sound hm request
  | challenge request => exact execChallenge_sound hm request
  | getMeasurements request => exact execGetMeasurements_sound hm request
  | spdmUnsupportedRequest request => exact execSpdmUnsupportedRequest_sound hm request
  | doeDiscovery idx => exact execDoeDiscovery_sound hm idx
  | tapReset => exact execTapReset_sound hm
  | bypass => exact execBypass_sound hm
  | idcode => exact execIdcode_sound hm
  | samplePreload pins => exact execSamplePreload_sound hm pins
  | extest pins => exact execExtest_sound hm pins
  | extestPulse pins => exact execExtestPulse_sound hm pins
  | extestTrain pins => exact execExtestTrain_sound hm pins
  | jtagPrivate code => exact execJtagPrivate_sound hm code
  | pluggableInsertion cage milliwatts => exact execPluggableInsertion_sound hm cage milliwatts
  | quadrantDomainFailure quadrant => exact execQuadrantDomainFailure_sound hm quadrant
  | busMasterEnableWrite enable => exact execBusMasterEnableWrite_sound hm enable
  | configRegisterRead bar offset flipped => exact nextOf_sound (wf_of_eq (configRegisterRead_mem _ _ _ s) hm)
  | pairSecretMessage uid response body => exact nextOf_sound (pairMessage_wf _ _ _ s hm)
  | candidacyCheckMessage uid matching prepared view => exact nextOf_sound (candidacyCheck_wf _ _ _ _ s hm)

/-- Settles O57: a step runs the front command with the queue's rest, which leaves the memory, and each row keeps a canonical memory. -/
theorem stepKeepsMemoryCanonical : Obligations.StepKeepsMemoryCanonical := by
  unfold Obligations.StepKeepsMemoryCanonical
  intro s t hm hs
  unfold step at hs
  split at hs
  · cases hs; exact hm
  · refine exec_sound _ _ ?_ t hs
    exact hm

end Sys2Proof.Canonical

/-! Taking and releasing ranges of the tiers (R214 to R216): where the gaps lie, and what a range that is taken holds. -/

namespace Sys2Proof.Allocations

open Sys2Proof Sys2Proof.Machine Sys2Proof.Laws

/-! ### Checks and sorted lists -/

/-- Checks that pass hold nothing that fails. -/
theorem not_fails_of_firstFail {l : List (Bool × Status × Nat)} (h : firstFail l = none) : ∀ x ∈ l, x.1 = false := by
  induction l with
  | nil => simp
  | cons x l ih =>
    obtain ⟨b, st, d⟩ := x
    cases b with
    | true => cases h
    | false => exact List.forall_mem_cons.mpr ⟨rfl, ih h⟩

theorem insertBy_eq_orderedInsert {α : Type} (le : α → α → Bool) (x : α) (l : List α) :
    insertBy le x l = l.orderedInsert (fun a b => le a b = true) x := by
  induction l with
  | nil => rfl
  | cons y ys ih => simp only [insertBy, List.orderedInsert_cons, ih]

theorem sortBy_eq_insertionSort {α : Type} (le : α → α → Bool) (l : List α) :
    sortBy le l = l.insertionSort (fun a b => le a b = true) := by
  induction l with
  | nil => rfl
  | cons x l ih => rw [List.insertionSort_cons, ← ih, ← insertBy_eq_orderedInsert]; rfl

/-! ### Gaps between blocked stretches -/

/-- A gap lies between the bounds and meets none of the stretches, which are in order of address. -/
theorem gapsFrom_free {lo hi : Nat} {l : List (Nat × Nat)} (hl : l.Pairwise (fun a b => a.1 ≤ b.1)) {g : Nat × Nat}
    (hg : g ∈ gapsFrom lo hi l) : lo ≤ g.1 ∧ g.1 + g.2 ≤ hi ∧ ∀ r ∈ l, r.1 + r.2 ≤ g.1 ∨ g.1 + g.2 ≤ r.1 := by
  induction l generalizing lo with
  | nil =>
    unfold gapsFrom at hg
    split at hg
    · obtain rfl := List.mem_singleton.mp hg
      simp only [List.not_mem_nil, false_implies, implies_true, and_true]
      omega
    · cases hg
  | cons r l ih =>
    obtain ⟨a, n⟩ := r
    obtain ⟨hfirst, hrest⟩ := List.pairwise_cons.mp hl
    simp only [gapsFrom, List.mem_append] at hg
    rcases hg with hg | hg
    · split at hg
      · obtain rfl := List.mem_singleton.mp hg
        refine ⟨le_rfl, by omega, List.forall_mem_cons.mpr ⟨by right; omega, fun r hr => ?_⟩⟩
        have := hfirst r hr
        right
        omega
      · cases hg
    · obtain ⟨h1, h2, h3⟩ := ih hrest hg
      exact ⟨by omega, h2, List.forall_mem_cons.mpr ⟨by left; omega, h3⟩⟩

theorem blockedRanges_sorted (t : Tiers) (tier : Nat) : (blockedRanges t tier).Pairwise (fun a b => a.1 ≤ b.1) := by
  have total : Std.Total (fun a b : Nat × Nat => Nat.ble a.1 b.1 = true) := ⟨fun a b => by simpa using Nat.le_total a.1 b.1⟩
  have trans : IsTrans (Nat × Nat) (fun a b => Nat.ble a.1 b.1 = true) := ⟨fun a b c => by simpa using Nat.le_trans⟩
  unfold blockedRanges
  rw [sortBy_eq_insertionSort]
  exact (List.pairwise_insertionSort _ _).imp fun h => by simpa using h

/-- An allocation of a tier that holds bytes is a blocked stretch of it. -/
theorem mem_blockedRanges {t : Tiers} {tier b : Nat} {al : Alloc} (h : (b, al) ∈ t.allocs) (ht : al.tier = tier) (hl : al.len ≠ 0) :
    (b, al.len) ∈ blockedRanges t tier := by
  unfold blockedRanges
  rw [sortBy_eq_insertionSort, List.mem_insertionSort, List.mem_filter]
  refine ⟨List.mem_append_left _ (List.mem_map.mpr ⟨(b, al), List.mem_filter.mpr ⟨?_, by simpa using ht⟩, rfl⟩), by simpa using hl⟩
  exact List.mem_append_left _ h

/-- The bounds of the gaps that a request names lie in its tier, R214: a die of Tier 1 is a quarter of it. -/
theorem freeGaps_free {t : Tiers} {tier die len : Nat} (hd : die < 4 → tier = 1) {g : Nat × Nat} (hg : g ∈ freeGaps t tier die len) :
    len ≤ g.2 ∧ tierBase tier ≤ g.1 ∧ g.1 + g.2 ≤ tierBase tier + tierLogical t tier
      ∧ ∀ b al, (b, al) ∈ t.allocs → al.tier = tier → al.len ≠ 0 → b + al.len ≤ g.1 ∨ g.1 + g.2 ≤ b := by
  unfold freeGaps at hg
  obtain ⟨hgap, hlen⟩ := List.mem_filter.mp hg
  obtain ⟨hlo, hhi, hfree⟩ := gapsFrom_free (blockedRanges_sorted t tier) hgap
  refine ⟨by simpa using hlen, ?_, ?_, fun b al h ht hl => hfree _ (mem_blockedRanges h ht hl)⟩ <;> clear hgap hlen hfree
  · split at hlo
    · rw [hd ‹_›]; omega
    · exact hlo
  · split at hhi
    · rw [hd ‹_›]; simp only [tierLogical]; omega
    · exact hhi

/-! ### Taking a range -/

/-- The range that is taken lies in a gap, R214. -/
theorem takeRange_in_gap {a : Alloc} {die : Nat} {s : State} (h : freeGaps s.tiers a.tier die a.len ≠ []) :
    ∃ g ∈ freeGaps s.tiers a.tier die a.len, a.len ≤ g.2 →
      g.1 ≤ (takeRange a die s).1 ∧ (takeRange a die s).1 + a.len ≤ g.1 + g.2 := by
  have hpos := List.length_pos_of_ne_nil h
  have hin := Nat.mod_lt (drawFree s).1 hpos
  refine ⟨_, List.getElem_mem hin, fun hlen => ?_⟩
  have hbase : (takeRange a die s).1 = (freeGaps s.tiers a.tier die a.len)[(drawFree s).1 % (freeGaps s.tiers a.tier die a.len).length].1
      + (drawFree (drawFree s).2).1 % (((freeGaps s.tiers a.tier die a.len)[(drawFree s).1 % (freeGaps s.tiers a.tier die a.len).length].2
        - a.len) / 65536 + 1) * 65536 := by
    rw [← List.getD_eq_getElem _ (0, 0) hin]
    rfl
  rw [hbase]
  generalize (freeGaps s.tiers a.tier die a.len)[(drawFree s).1 % (freeGaps s.tiers a.tier die a.len).length] = g at hlen ⊢
  have hm := Nat.mod_lt (drawFree (drawFree s).2).1 (Nat.succ_pos ((g.2 - a.len) / 65536))
  have hd := Nat.div_mul_le_self (g.2 - a.len) 65536
  have hm' := Nat.mul_le_mul_right 65536 (Nat.lt_succ_iff.mp hm)
  simp only [Nat.succ_eq_add_one] at hm'
  omega

/-- What the checks of MEM_ALLOC say of its place: the die, where one is named, is one of Tier 1, and a gap is free. -/
theorem memAllocCheck_place {s : State} {f : Flight} (h : memAllocCheck s f = none) :
    (par f 2 1 < 4 → par f 0 1 = 1) ∧ freeGaps s.tiers (par f 0 1) (par f 2 1) (par f 8 8) ≠ [] := by
  have hc := not_fails_of_firstFail h
  simp only [memAllocShape, List.cons_append, List.nil_append, List.forall_mem_cons, badParamIf, failIf] at hc
  obtain ⟨-, -, -, hdie, -, -, -, -, hroom, -⟩ := hc
  constructor
  · simp at hdie; omega
  · simp at hroom; exact hroom.1

/-- The allocation that a MEM_ALLOC asks for. -/
def allocOf (f : Flight) : Alloc := ⟨par f 8 8, f.tenant, par f 0 1, par f 1 1 == 1, false⟩

theorem memAllocCommand_run (s : State) (f : Flight) : memAllocCommand.run s f
    = .done (takeRange (allocOf f) (par f 2 1) s).2 (okReply (toLe 8 (takeRange (allocOf f) (par f 2 1) s).1)) := rfl

/-- Settles O25: the range lies in a gap of the tier, and a gap meets no allocation of it. -/
theorem allocationsDoNotOverlap : Obligations.AllocationsDoNotOverlap := by
  unfold Obligations.AllocationsDoNotOverlap
  intro s f h
  obtain ⟨hdie, hroom⟩ := memAllocCheck_place h
  refine ⟨_, _, memAllocCommand_run s f, ?_⟩
  obtain ⟨g, hg, hin⟩ := takeRange_in_gap (a := allocOf f) (s := s) hroom
  obtain ⟨hlen, hlo, hhi, hfree⟩ := freeGaps_free hdie hg
  obtain ⟨h1, h2⟩ := hin hlen
  generalize (takeRange (allocOf f) (par f 2 1) s).1 = base at h1 h2 ⊢
  simp only [allocOf] at h2
  refine ⟨by omega, by omega, fun b al hal ht hl => ?_⟩
  have := hfree b al hal ht hl
  omega

end Sys2Proof.Allocations

/-! Tenants, transfer keys and debug authorisation (R217, R391, R469, R473, R479 to R481): what their commands come to. -/

namespace Sys2Proof.TenantKeys

open Sys2Proof Sys2Proof.Machine Sys2Proof.Laws

variable {s s1 : State} {h : Nat} {f : Flight} {x : KeySlot}

/-! ### Tenants -/

theorem tenantCreateCommand_run (s : State) (f : Flight) : tenantCreateCommand.run s f
    = .done { s with sec := { s.sec with
        draws := s.sec.draws + 1
        tenants := kset s.sec.tenants (par f 0 2) ⟨blockKeys f.params 0, Config.drbg s.sec.draws⟩ } } (okReply []) := rfl

theorem tenantDestroyCommand_run (hc : commitsFor s (par f 0 2) = false) :
    tenantDestroyCommand.run s f = .done (endTenant (par f 0 2) f.serial s) (okReply []) := by
  simp [tenantDestroyCommand, hc]

/-! ### Debug authorisation -/

/-- The state once every tenant has ended and the secrets are gone: what DEBUG_AUTHORIZE has done before it closes the links, R473. -/
def debugOpened (s : State) (f : Flight) : State :=
  let s1 := (kkeys s.sec.tenants).foldl (fun v t => endTenant t f.serial v) s
  { s1 with sec := { s1.sec with
      keySlots := []
      pairs := []
      pairAsks := []
      mr := extendMr s1.sec.mr 4 (sha384Bytes f.params)
      debug := true } }

theorem debugAuthorizeCommand_run (hc : (kkeys s.sec.tenants).any (commitsFor s) = false) : debugAuthorizeCommand.run s f
    = .done ((reachedPeers (debugOpened s f)).foldl (fun v m => closeLinks m v) (debugOpened s f)) (okReply []) := by
  change debugAuthorizeRun s f = _
  rw [debugAuthorizeRun, hc]
  rfl

/-! ### Transfer keys -/

theorem keyInstallCommand_set (ho : par f 0 1 = 0) : keyInstallCommand.run s f
    = .done { s with sec := { s.sec with keySlots := kset s.sec.keySlots (f.tenant * 16 + par f 1 1) ⟨BitVec.ofNat 256 (par f 8 32), 0⟩ } }
      (okReply []) := by
  change keyInstallRun s f = _
  rw [keyInstallRun, if_pos ho]
  rfl

/-- IMPORT of an image whose tags verify writes its plaintext, R479. -/
theorem keyInstallCommand_import {image b : Bytes} (hc : f.content = some image) (ho : par f 0 1 = 1) (hb : s.host.busMaster = true)
    (hx : kget s.sec.keySlots (f.tenant * 16 + par f 1 1) = some x) (hi : importImage x.key (par f 24 8) image = .ok b)
    (hw : commitWrites (some f.serial) f.tenant [(par f 16 8, b)] 0 s = .done s1) : keyInstallCommand.run s f = .done s1 (okReply []) := by
  change keyInstallRun s f = _
  simp only [keyInstallRun, slotKey, ho, hx, hb, hc, Option.getD_some, hi, commitVerdict, hw, Nat.one_ne_zero, Bool.true_eq_false, if_false, if_true]

/-- IMPORT of an image with a fault is refused, R479. -/
theorem keyInstallCommand_import_fails {image : Bytes} {d : Nat} (hc : f.content = some image) (ho : par f 0 1 = 1) (hb : s.host.busMaster = true)
    (hx : kget s.sec.keySlots (f.tenant * 16 + par f 1 1) = some x) (hi : importImage x.key (par f 24 8) image = .error d) :
    keyInstallCommand.run s f = .reject .integrityFail d := by
  change keyInstallRun s f = _
  simp only [keyInstallRun, slotKey, ho, hx, hb, hc, Option.getD_some, hi, Nat.one_ne_zero, Bool.true_eq_false, if_false, if_true]

/-- EXPORT of bytes that can be read, with a counter that is not at its end, R479. -/
theorem keyInstallCommand_export (ho : par f 0 1 = 2) (hb : s.host.busMaster = true) (hx : kget s.sec.keySlots (f.tenant * 16 + par f 1 1) = some x)
    (hn : x.counter < 0xFFFFFFFF) (hr : readFails s (par f 16 8) (par f 24 8) = none) : keyInstallCommand.run s f
      = .done { s with
          outputs := s.outputs ++ [.hostWrite (par f 8 8) (exportImage x.key x.counter (memRead s (par f 16 8) (par f 24 8)))]
          sec := { s.sec with keySlots := kset s.sec.keySlots (f.tenant * 16 + par f 1 1) { x with counter := x.counter + 1 } } } (okReply []) := by
  have hn' : ¬ 0xFFFFFFFF ≤ x.counter := Nat.not_le.mpr hn
  change keyInstallRun s f = _
  simp only [keyInstallRun, slotKey, ho, hx, hb, hr, if_neg hn', OfNat.ofNat_ne_zero, OfNat.ofNat_ne_one, Bool.true_eq_false, if_false]
  rfl

theorem keyRetireCommand_run (s : State) (f : Flight) : keyRetireCommand.run s f
    = .done { s with sec := { s.sec with keySlots := kdel s.sec.keySlots (f.tenant * 16 + par f 0 1) } } (okReply []) := rfl

/-! ### The rows -/

/-- The row of IMPORT runs the command with the image that it brings. -/
theorem execKeyInstallImport_ready {image : Bytes} (hf : flightOf s h = some f) (ho : par f 0 1 = 1)
    (hr : Ready keyInstallCommand (setFlight { f with content := some image } s) h { f with content := some image })
    (hh : Here (setFlight { f with content := some image } s) { f with content := some image }) :
    execKeyInstallImport h image s
      = nextOf s (runLocal keyInstallCommand { f with content := some image } (setFlight { f with content := some image } s)) := by
  rw [execKeyInstallImport, ofForm_of hf (by simp [ho])]
  simp only [hf, runCommand_here hr hh]
  rfl

/-- Settles O28: each command by what its run comes to; KEY_INSTALL is that of R479, DEBUG_AUTHORIZE that of R473. That TENANT_DESTROY waits for front-wide
commits alone and takes all at one step (log entry 93), and that EXPORT reads its bytes at the step in which it ends (log entry 107), are the model's choice. -/
theorem tenantAndKeyCommandsComplete : Obligations.TenantAndKeyCommandsComplete := by
  unfold Obligations.TenantAndKeyCommandsComplete
  refine ⟨?_, ?_, ?_, ?_, ?_, ?_, ?_⟩
  · intro s h f hr hh
    exact execCommand_commits hr hh rfl (tenantCreateCommand_run s f)
  · intro s h f hr hh hc
    exact execCommand_commits hr hh rfl (tenantDestroyCommand_run hc)
  · intro s h f hr hh ho
    change execKeyInstallSet h s = _
    rw [execKeyInstallSet, ofForm_of hr.1 (by simp [ho])]
    exact execCommand_commits hr hh rfl (keyInstallCommand_set ho)
  · rintro s s1 h image b f _ x hf rfl hr hh ho hb hx
    refine ⟨fun hi hw => (execKeyInstallImport_ready hf ho hr hh).trans (congrArg (nextOf s) ?_),
      fun d hi => (execKeyInstallImport_ready hf ho hr hh).trans (congrArg (nextOf s) ?_)⟩
    · exact runLocal_done hr rfl (keyInstallCommand_import rfl ho hb hx hi hw)
    · exact runLocal_reject hr (keyInstallCommand_import_fails rfl ho hb hx hi)
  · intro s h f x hr hh ho hb hx hn hm
    change execKeyInstallExport h s = _
    rw [execKeyInstallExport, ofForm_of hr.1 (by simp [ho])]
    exact execCommand_commits hr hh rfl (keyInstallCommand_export ho hb hx hn hm)
  · intro s h f hr hh
    exact execCommand_commits hr hh rfl (keyRetireCommand_run s f)
  · intro s h f hr hh hc
    exact ⟨debugOpened s f, rfl, rfl, rfl, rfl, rfl, execCommand_commits hr hh rfl (debugAuthorizeCommand_run hc)⟩

end Sys2Proof.TenantKeys

/-! The commands on memory (R214, R215, R220 to R224, R230 to R232, R238): what their runs come to where nothing stands in their way. -/

namespace Sys2Proof.MemoryCommands

open Sys2Proof Sys2Proof.Machine Sys2Proof.Laws Sys2Proof.Allocations

variable {s s0 s1 : State} {h : Nat} {f : Flight} {runs : List WriteRun}

/-! ### Taking and releasing a range -/

theorem takeRange_allocs (a : Alloc) (die : Nat) (s : State) :
    (takeRange a die s).2.tiers.allocs = kset s.tiers.allocs (takeRange a die s).1 a := rfl

theorem takeRange_memory (a : Alloc) (die : Nat) (s : State) : (takeRange a die s).2.mem = s.mem.clear (takeRange a die s).1 a.len := rfl

/-- An allocation that MEM_FREE's checks pass is one that a command may name: a hidden one is refused, R215. -/
theorem freedAlloc_of_check {al : Alloc} (hc : memFreeCommand.check s f = none) (ha : kget s.tiers.allocs (par f 0 8) = some al) :
    freedAlloc s f = some al := by
  have hsome := not_fails_of_firstFail hc (unnamedIf f (freedAlloc s f).isNone 0) (by simp)
  simp only [unnamedIf, freedAlloc, ha, Option.filter_some] at hsome ⊢
  split at hsome
  · next hh => rw [if_pos hh]
  · simp at hsome

theorem memFreeCommand_run {al : Alloc} (hc : memFreeCommand.check s f = none) (ha : kget s.tiers.allocs (par f 0 8) = some al) :
    memFreeCommand.run s f = .done (releaseAlloc (par f 0 8) al.len s) (okReply []) := by
  change Verdict.done (releaseAlloc _ (((freedAlloc s f).map (·.len)).getD 0) s) _ = _
  rw [freedAlloc_of_check hc ha]
  rfl

/-! ### Copying and filling -/

theorem withFrames_found {k : State → Verdict} (hf : findFrames (some f.serial) f.tenant (unitsTouched 65536 runs).length s = .found s0) :
    withFrames f runs s k = k s0 := by
  rw [withFrames, hf]

theorem commitVerdict_done {k : State → Verdict} (hw : commitWrites (some f.serial) f.tenant runs 0 s = .done s1) :
    commitVerdict f runs s k = k s1 := by
  rw [commitVerdict, hw]

/-- No marks, none carried. -/
theorem carriedMarks_nil (unit : Nat → Nat) (src dst rows rowBytes srcStride dstStride : Nat) :
    carriedMarks unit [] src dst rows rowBytes srcStride dstStride = [] := by
  simp [carriedMarks]

/-- A transposing MEM_COPY whose source can be read makes its writes, and carries no mark, R232, R592. -/
theorem memCopyCommand_transposes (hx : par f 32 1 ≠ 0)
    (hr : runs = moveRuns (memRead s) (par f 0 8) (par f 8 8) (par f 16 4) (par f 20 4) (par f 24 4) (par f 28 4) (par f 32 1))
    (hf : findFrames (some f.serial) f.tenant (unitsTouched 65536 runs).length s = .found s0)
    (hm : readsFail s0 ((List.range (par f 16 4)).map (fun r => (par f 0 8 + r * par f 24 4, par f 20 4))) = none)
    (hw : commitWrites (some f.serial) f.tenant runs 0 s0 = .done s1) : memCopyCommand.run s f = .done (addMarks [] [] s1) (okReply []) := by
  simp only [memCopyCommand, ← hr, withFrames_found hf, if_neg hx, hm, commitVerdict_done hw]

/-- A MEM_COPY in rows makes its writes, and carries no mark where there is none, R230, R592. -/
theorem memCopyCommand_copies (hx : par f 32 1 = 0)
    (hr : runs = (List.range (par f 16 4)).map (fun r => (par f 8 8 + r * par f 28 4, memRead s (par f 0 8 + r * par f 24 4) (par f 20 4))))
    (hf : findFrames (some f.serial) f.tenant (unitsTouched 65536 runs).length s = .found s0) (hp : s0.tiers.poisoned = []) (hb : s0.tiers.badTags = [])
    (hw : commitWrites (some f.serial) f.tenant runs 0 s0 = .done s1) : memCopyCommand.run s f = .done (addMarks [] [] s1) (okReply []) := by
  have hr' : runs = moveRuns (memRead s) (par f 0 8) (par f 8 8) (par f 16 4) (par f 20 4) (par f 24 4) (par f 28 4) 0 := by rw [hr, moveRuns, if_pos rfl]
  simp only [memCopyCommand, hx, ← hr', withFrames_found hf, if_true, commitVerdict_done hw, hp, hb, carriedMarks_nil]

/-! ### Residency -/

theorem pagesMoving_none (hm : ∀ p ∈ namedPages f, pageMoving s p = false) : (namedPages f).any (pageMoving s) = false :=
  List.any_eq_false.mpr fun p hp => by simp [hm p hp]

theorem length_namedPages (f : Flight) : (namedPages f).length = par f 8 4 := by simp [namedPages]

/-- The checks of RESIDE pass only where it names a page, R221. -/
theorem namedPages_ne_nil (hc : resideCommand.check s f = none) : namedPages f ≠ [] := by
  have hn := not_fails_of_firstFail hc (badParamIf (par f 8 4 == 0) 8) (by simp)
  intro h0
  rw [badParamIf, ← length_namedPages, h0] at hn
  simp at hn

/-- RESIDE of pages that are all resident notes their use, and pins them where it says so, R222. -/
theorem resideCommand_resident (hp : ∀ p ∈ namedPages f, pageMoving s p = false ∧ (kget s.tiers.pages p).isSome = true)
    (hf : findFrames (some f.serial) f.tenant 0 s = .found s1) : resideCommand.run s f
      = .done (mapPages (namedPages f) (fun x => { x with pinned := x.pinned || bitOf (par f 12 1) 0, access := s1.proto.stepCount.toNat }) s1)
        (okReply (toLe 4 0 ++ toLe 4 (namedPages f).length)) := by
  have hfresh : (namedPages f).filter (fun p => (kget s.tiers.pages p).isNone) = [] :=
    List.filter_eq_nil_iff.mpr fun p hm => by simp [Option.isSome_iff_ne_none.mp (hp p hm).2]
  have hdone : ∀ pin noFill, resideRun.done' s1 f (namedPages f) [] pin noFill
      = .done (mapPages (namedPages f) (fun x => { x with pinned := x.pinned || pin, access := s1.proto.stepCount.toNat }) s1)
        (okReply (toLe 4 0 ++ toLe 4 (namedPages f).length)) := fun pin noFill => by
    simp [resideRun.done', bindPages, pageReply]
  change resideRun s f = _
  simp only [resideRun, pagesMoving_none fun p hm => (hp p hm).1, hfresh, List.length_nil, hf, Nat.not_lt_zero, and_false, if_false, hdone,
    List.isEmpty_nil, if_true, Bool.false_eq_true]
  split <;> rfl

/-- RESIDE of pages of which none is resident binds them to frames and begins to fill these, R222. -/
theorem resideCommand_fills (hc : resideCommand.check s f = none) (hn : bitOf (par f 12 1) 1 = false)
    (hp : ∀ p ∈ namedPages f, kget s.tiers.pages p = none) (hf : findFrames (some f.serial) f.tenant (namedPages f).length s = .found s1)
    (hd : par f 13 1 = 0xFF) (ht : tierFull s1.tiers f.tenant ((tierAt s.tiers (par f 0 8)).getD 2) (64 * (namedPages f).length : Nat) = none) :
    resideCommand.run s f = .begun (bindPages f false (bitOf (par f 12 1) 0) (namedPages f) s1) := by
  have hfresh : (namedPages f).filter (fun p => (kget s.tiers.pages p).isNone) = namedPages f :=
    List.filter_eq_self.mpr fun p hm => by simp [hp p hm]
  have hstill : (namedPages f).any (pageMoving s) = false := pagesMoving_none fun p hm => by simp [pageMoving, hp p hm]
  have hany : (namedPages f).isEmpty = false := by simp [namedPages_ne_nil hc]
  have hdie : ¬ par f 13 1 < 4 := by omega
  change resideRun s f = _
  simp only [resideRun, hstill, hfresh, hf, hdie, false_and, if_false, Bool.false_eq_true, ht, resideRun.done', hn, hany, Bool.or_self]

/-! ### Writing home -/

theorem pagesIn_nil {st : PageState} (hn : ∀ p x, p ∈ namedPages f → kget s.tiers.pages p = some x → x.state ≠ st) : pagesIn s f st = [] := by
  refine List.filter_eq_nil_iff.mpr fun p hp => ?_
  cases hx : kget s.tiers.pages p with
  | none => simp
  | some x => simp [hn p x hp hx]

/-- Without a dirty page there is nothing to write home: the command commits at once, R223. -/
theorem writeBackRun_clean (flush discard : Bool) (hm : ∀ p ∈ namedPages f, pageMoving s p = false) (hd : pagesIn s f .dirty = []) :
    writeBackRun flush discard s f = .done (if flush then s else demoteCommit f [] s) (okReply (toLe 4 0 ++ toLe 4 (namedPages f).length)) := by
  simp only [writeBackRun, pagesMoving_none hm, hd, List.isEmpty_nil, Bool.or_true, if_true, Bool.false_eq_true, if_false, pageReply]

/-- Dirty pages begin to be written home, R220, R223. -/
theorem writeBackRun_dirty (flush : Bool) {ps : List Nat} (hm : ∀ p ∈ namedPages f, pageMoving s p = false) (hd : pagesIn s f .dirty = ps)
    (hne : ps ≠ []) : writeBackRun flush false s f = .begun (startWriteBack f flush ps s) := by
  have hany : ps.isEmpty = false := by simp [hne]
  simp only [writeBackRun, pagesMoving_none hm, hd, hany, Bool.or_self, Bool.false_eq_true, if_false]

/-! ### The rows -/

/-- MEM_ALLOC: the range is new, reads as zero, and nothing else changes, R214. -/
theorem memAllocCommand_effect (s : State) (f : Flight) : ∃ base t, memAllocCommand.run s f = .done t (okReply (toLe 8 base))
    ∧ kget t.tiers.allocs base = some (allocOf f)
    ∧ (∀ b, b ≠ base → kget t.tiers.allocs b = kget s.tiers.allocs b)
    ∧ (∀ a, base ≤ a → a < base + par f 8 8 → Memory.read t.mem a = 0)
    ∧ (∀ a, a < base ∨ base + par f 8 8 ≤ a → Memory.read t.mem a = Memory.read s.mem a)
    ∧ t.tiers.pages = s.tiers.pages ∧ t.proto = s.proto ∧ t.host = s.host := by
  refine ⟨_, _, memAllocCommand_run s f, ?_, ?_, ?_, ?_, rfl, rfl, rfl⟩
  · rw [takeRange_allocs, kget_kset_self]
  · intro b hb
    rw [takeRange_allocs, kget_kset_ne _ _ hb]
  · intro a hlo hhi
    rw [takeRange_memory]
    exact read_clear_in _ _ _ _ hlo hhi
  · intro a ha
    rw [takeRange_memory]
    exact read_clear_out _ _ _ _ ha

theorem demoteCommand_run (s : State) (f : Flight) : demoteCommand.run s f = writeBackRun false (bitOf (par f 12 1) 0) s f := rfl

theorem flushCommand_run (s : State) (f : Flight) : flushCommand.run s f = writeBackRun true false s f := rfl

/-- Settles O24: each command by what its run comes to. -/
theorem memoryCommandsComplete : Obligations.MemoryCommandsComplete := by
  unfold Obligations.MemoryCommandsComplete
  refine ⟨?_, ?_, ?_, ?_, ?_, ?_, ?_, ?_, ?_, ?_⟩
  · intro s h f hr hh
    obtain ⟨base, t, hrun, heff⟩ := memAllocCommand_effect s f
    exact ⟨base, t, execCommand_commits hr hh rfl hrun, heff⟩
  · intro s h f al hr hh ha _ _
    obtain ⟨_, _, _, _, _, hc, _, _⟩ := id hr
    exact execCommand_commits hr hh rfl (memFreeCommand_run hc ha)
  · intro s s0 s1 h f runs hr hh hx hruns hf hm hw
    exact execCommand_commits hr hh rfl (memCopyCommand_transposes hx hruns hf hm hw)
  · intro s s0 s1 h f runs hr hh hx hruns hf hp hb hw
    exact execCommand_commits hr hh rfl (memCopyCommand_copies hx hruns hf hp hb hw)
  · intro s s1 h f hr hh hw
    exact execCommand_commits hr hh rfl (commitVerdict_done hw)
  · intro s s1 h f hr hh hp hf
    exact execCommand_commits hr hh rfl (resideCommand_resident hp hf)
  · intro s s1 h f hr hh hn hp hf hd ht
    obtain ⟨_, _, _, _, _, hc, _, _⟩ := id hr
    exact execCommand_begins hr hh (resideCommand_fills hc hn hp hf hd ht)
  · intro s h f hm hn
    have hd := pagesIn_nil hn
    exact ⟨fun hr hh => execCommand_commits hr hh rfl ((demoteCommand_run s f).trans (writeBackRun_clean false _ hm hd)),
      fun hr hh => execCommand_commits hr hh rfl ((flushCommand_run s f).trans (writeBackRun_clean true false hm hd))⟩
  · intro s h p f x hm hp hx hst
    have hd : pagesIn s f .dirty = [p] := by simp [pagesIn, hp, hx, hst]
    refine ⟨fun hr hh hb => execCommand_begins hr hh ?_, fun hr hh => execCommand_begins hr hh ?_⟩
    · rw [demoteCommand_run, hb]
      exact writeBackRun_dirty false hm hd (List.cons_ne_nil _ _)
    · exact (flushCommand_run s f).trans (writeBackRun_dirty true hm hd (List.cons_ne_nil _ _))
  · intro s h f hr hh
    exact execCommand_commits hr hh rfl rfl

end Sys2Proof.MemoryCommands

/-! Events of the tiers (R220, R222, R223, R233 to R236, R287, R288, R592, R595): what an access, a stall, a page's movement and a patrol read come to. -/

namespace Sys2Proof.TierEvents

open Sys2Proof Sys2Proof.Machine Sys2Proof.Laws

variable {s : State} {h addr cause ns now tier page : Nat} {f : Flight} {x : HomePage}

/-! ### What the operations leave as it is -/

/-- Recording a stall counts it and does nothing else, R238. -/
theorem recordStall_state (tenant tier cause ns : Nat) (s : State) : ∃ c, recordStall tenant tier cause ns s = { s with counters := c } := by
  simp only [recordStall]
  split
  all_goals exact ⟨_, rfl⟩

@[simp] theorem recordStall_tiers (tenant tier cause ns : Nat) (s : State) : (recordStall tenant tier cause ns s).tiers = s.tiers := by
  obtain ⟨c, e⟩ := recordStall_state tenant tier cause ns s
  rw [e]

@[simp] theorem recordStall_proto (tenant tier cause ns : Nat) (s : State) : (recordStall tenant tier cause ns s).proto = s.proto := by
  obtain ⟨c, e⟩ := recordStall_state tenant tier cause ns s
  rw [e]

@[simp] theorem recordStall_faults (tenant tier cause ns : Nat) (s : State) : (recordStall tenant tier cause ns s).faults = s.faults := by
  obtain ⟨c, e⟩ := recordStall_state tenant tier cause ns s
  rw [e]

@[simp] theorem recordStall_frontTime (tenant tier cause ns : Nat) (s : State) : (recordStall tenant tier cause ns s).frontTime = s.frontTime := by
  obtain ⟨c, e⟩ := recordStall_state tenant tier cause ns s
  rw [e]

/-- Recording a stall leaves open which of its limit and the deadline decides. -/
@[simp] theorem stallDecides_recordStall (tenant tier cause ns : Nat) (s : State) (f : Flight) (k n : Nat) :
    stallDecides (recordStall tenant tier cause ns s) f k n = stallDecides s f k n := by simp [stallDecides]

/-- Finding the unit to blame draws free values and does nothing else. -/
theorem errorUnit_state (addr : Nat) (s : State) : ∃ n, (errorUnit addr s).2 = { s with freeCtr := n } := by
  unfold errorUnit
  split
  all_goals exact ⟨_, rfl⟩

@[simp] theorem errorUnit_tiers (addr : Nat) (s : State) : (errorUnit addr s).2.tiers = s.tiers := by obtain ⟨n, e⟩ := errorUnit_state addr s; rw [e]

@[simp] theorem errorUnit_proto (addr : Nat) (s : State) : (errorUnit addr s).2.proto = s.proto := by obtain ⟨n, e⟩ := errorUnit_state addr s; rw [e]

@[simp] theorem errorUnit_faults (addr : Nat) (s : State) : (errorUnit addr s).2.faults = s.faults := by obtain ⟨n, e⟩ := errorUnit_state addr s; rw [e]

/-! ### Errors -/

theorem logFault_corrected (code sev action unit tenant command a b : Nat) (s : State) :
    (logFault code sev action unit tenant command a b s).faults.corrected = s.faults.corrected := by
  simp only [logFault]
  split <;> rfl

theorem logFault_uncorrected (code sev action unit tenant command a b : Nat) (s : State) :
    (logFault code sev action unit tenant command a b s).faults.uncorrected = s.faults.uncorrected := by
  simp only [logFault]
  split <;> rfl

theorem uncorrectedError_counts (unit tenant command a tier action : Nat) (s : State) :
    (uncorrectedError unit tenant command a tier action s).faults.uncorrected = s.faults.uncorrected + 1 := by
  simp [uncorrectedError, logFault_uncorrected]

@[simp] theorem uncorrectedError_tiers (unit tenant command a tier action : Nat) (s : State) :
    (uncorrectedError unit tenant command a tier action s).tiers = s.tiers := by simp [uncorrectedError]

@[simp] theorem uncorrectedError_proto (unit tenant command a tier action : Nat) (s : State) :
    (uncorrectedError unit tenant command a tier action s).proto = s.proto := by simp [uncorrectedError]

/-- A corrected error is counted, whether it is logged or only added to the unit's later record, R591. -/
theorem correctedError_effect (unit a tier : Nat) (s : State) :
    (correctedError unit a tier s).faults.corrected = s.faults.corrected + 1 ∧ (correctedError unit a tier s).mem = s.mem
      ∧ (correctedError unit a tier s).tiers = s.tiers ∧ (correctedError unit a tier s).proto = s.proto := by
  simp only [correctedError]
  split
  · split
    · exact ⟨rfl, rfl, rfl, rfl⟩
    · simp [logFault_corrected]
  · simp [logFault_corrected]

/-- The unit of poison that an address lies in, by its first address, R592. -/
def unitAt (s : State) (addr : Nat) : Nat := addr / poisonUnit s.tiers addr * poisonUnit s.tiers addr

/-- The state once an access of a command has met poison, R233, R591, R592: the error is counted and logged, and the unit marked. -/
def poisonMet (g : Flight) (ends : Bool) (addr tier : Nat) (s : State) : State :=
  { uncorrectedError (errorUnit addr s).1 g.tenant g.hdr.commandId (unitAt s addr) tier (b2n ends) (errorUnit addr s).2 with
    tiers := { s.tiers with
      poisoned := (unitAt s addr :: s.tiers.poisoned).eraseDups
      retire := if tier = 2 ∧ poisonUnit s.tiers addr = 4096 then (addr / 4096 :: s.tiers.retire).eraseDups else s.tiers.retire } }

/-- Poison that an access of Tier 1 or Tier 2 meets. -/
theorem markUnit_poisoned (g : Flight) (ends : Bool) (ht : tierAt s.tiers addr = some tier) (h3 : tier ≠ 3) :
    markUnit (some g) ends false addr .poisoned s = poisonMet g ends addr tier s := by
  simp [markUnit, poisonMet, unitAt, ht, tierOutcome, h3]

section PoisonMet

variable (g : Flight) (ends : Bool) (addr tier : Nat) (s : State)

theorem unitAt_mem_poisonMet : unitAt s addr ∈ (poisonMet g ends addr tier s).tiers.poisoned := by simp [poisonMet]

theorem poisonMet_mem : (poisonMet g ends addr tier s).mem = s.mem := by simp [poisonMet]

theorem poisonMet_proto : (poisonMet g ends addr tier s).proto = s.proto := by simp [poisonMet]

theorem poisonMet_uncorrected : (poisonMet g ends addr tier s).faults.uncorrected = s.faults.uncorrected + 1 := by
  simp [poisonMet, uncorrectedError_counts]

theorem poisonMet_tierAt (a : Nat) : tierAt (poisonMet g ends addr tier s).tiers a = tierAt s.tiers a := rfl

theorem poisonMet_stallTooLong (k n : Nat) : stallTooLong (poisonMet g ends addr tier s).tiers k n = stallTooLong s.tiers k n := rfl

end PoisonMet

theorem noteReadFail_poisoned (f : Flight) (d : Nat) (s : State) : noteReadFail f .dataPoisoned d s = s := rfl

/-! ### Accesses and stalls -/

/-- An access that returns well: a stall that lasted is recorded, and one beyond the limit ends the command, R235, R236; a speculative one does neither, R287. -/
theorem tierAccessComplete_good (hf : flightOf s h = some f) (ht : tierAt s.tiers addr = some tier) :
    tierAccessComplete h addr cause ns .good s = if specAccess s f addr then s
      else if stallTooLong s.tiers tier ns then stallEnds f addr cause tier ns (recordStall f.tenant tier cause ns s)
      else recordStall f.tenant tier cause ns s := by
  simp only [tierAccessComplete, hf, ht, KernelRows.markUnit_good, recordStall_tiers, noteSpec, tierOutcome, outcomeStatus]

/-- An access that meets poison in time marks the unit and ends its command, R233, R234. -/
theorem tierAccessComplete_poisoned (hf : flightOf s h = some f) (ht : tierAt s.tiers addr = some tier) (h3 : tier ≠ 3)
    (hs : specAccess s f addr = false) (hl : stallTooLong s.tiers tier ns = false) : tierAccessComplete h addr cause ns .poisoned s
      = abortFlight f .dataPoisoned (tierDetail tier addr) [] (poisonMet f true addr tier (recordStall f.tenant tier cause ns s)) := by
  have ht' : tierAt (recordStall f.tenant tier cause ns s).tiers addr = some tier := by rw [recordStall_tiers, ht]
  simp only [tierAccessComplete, hf, ht, hs, markUnit_poisoned f true ht' h3, poisonMet_stallTooLong, recordStall_tiers, hl, Bool.false_eq_true, if_false,
    tierOutcome, if_neg h3, outcomeStatus, failAccess, poisonMet_tierAt, Option.getD_some, noteReadFail_poisoned]

/-- A stall that passes its limit ends the command, by TIER_LATE where no deadline has passed before it, R236. -/
theorem stallEnds_late (hd : stallDecides s f tier ns = true) : stallEnds f addr cause tier ns s = tierLate f addr cause s := by
  rw [stallEnds, if_pos hd]

/-- A stall past its limit before the access returns ends the command, R236; one of a speculative read ends nothing, R287. -/
theorem stallLimitExpiry_late (hf : flightOf s h = some f) (ht : tierAt s.tiers addr = some tier) (hl : stallTooLong s.tiers tier ns = true)
    (hd : stallDecides (advance now s) f tier ns = true) : stallLimitExpiry h addr cause ns now s
      = if specAccess (advance now s) f addr then s else tierLate f addr cause (recordStall f.tenant tier cause ns (advance now s)) := by
  have hf' : flightOf (advance now s) h = some f := by simpa [flightOf] using hf
  have ht' : tierAt (advance now s).tiers addr = some tier := by simpa using ht
  have hl' : stallTooLong (advance now s).tiers tier ns = true := by simpa using hl
  have hd' : stallDecides (recordStall f.tenant tier cause ns (advance now s)) f tier ns = true := by simpa using hd
  simp only [stallLimitExpiry, hf', ht', hl', Bool.not_true, Bool.false_or, stallEnds_late hd']

/-! ### Patrol reads -/

/-- A corrected error is counted under the unit that found it, at home behind a resident frame or not, R234, R595. -/
theorem markUnit_corrected (g : Option Flight) (ends atHome : Bool) (ht : tierAt s.tiers addr = some tier) (h3 : tier ≠ 3) :
    ∃ unit a n, markUnit g ends atHome addr .corrected s = correctedError unit a tier { s with freeCtr := n } := by
  obtain ⟨n, e⟩ := errorUnit_state addr s
  simp only [markUnit, ht, Option.getD_some, tierOutcome, if_neg h3]
  cases atHome && (residentAt s.tiers addr).isSome with
  | true => exact ⟨_, _, _, rfl⟩
  | false => exact ⟨_, _, n, congrArg _ e⟩

/-- A patrol read of Tier 1 or Tier 2 that finds nothing changes nothing, and no other tier is read, R234. -/
theorem execPatrolScrub_good (addr : Nat) (s : State) : execPatrolScrub addr .good s = .next s ∨ execPatrolScrub addr .good s = nextOf s s := by
  unfold execPatrolScrub
  split
  · exact Or.inr rfl
  · exact Or.inr rfl
  · exact Or.inl rfl

/-! ### Pages -/

/-- A page that is filled by a command of this module, with nothing marked in it, counts as moved, R222. -/
theorem pageFillComplete_good (hx : kget s.tiers.pages page = some x) (hm : x.mover = some h) (hs : x.state = .filling) (hf : flightOf s h = some f)
    (hr : readFails s (page * 65536) 65536 = none) :
    pageFillComplete page .good s = resideCommit f (mapPages [page] (fun y => { y with moved := true }) s) := by
  simp only [pageFillComplete, hx, hm, hs, hf, KernelRows.markUnit_good, tierOutcome, outcomeStatus, hr, ne_eq, not_true_eq_false, if_false]

/-- A page that a commit wrote home leaves its frame, R220. -/
theorem writeBackComplete_free (hx : kget s.tiers.pages page = some x) (hs : x.state = .writing) (hm : x.mover = none) (he : x.evictor = none) :
    writeBackComplete page true s = dropPage page (endPageWait page s) := by
  simp only [writeBackComplete, hx, hs, he, hm, ne_eq, not_true_eq_false, Option.isSome_none, Bool.false_eq_true, if_false, if_true]

/-- A page that a command wrote home counts as moved, R223. -/
theorem writeBackComplete_mover (hx : kget s.tiers.pages page = some x) (hs : x.state = .writing) (he : x.evictor = none) (hm : x.mover = some h)
    (hf : flightOf s h = some f) :
    writeBackComplete page true s = writeBackCommit f (mapPages [page] (fun y => { y with moved := true }) s) := by
  simp only [writeBackComplete, hx, hs, he, hm, hf, ne_eq, not_true_eq_false, Option.isSome_none, Bool.false_eq_true, if_false, if_true]

/-! ### The events -/

/-- Settles O26: each event by what its function comes to. That the named address gives the DETAIL (log entry 21), and that the structures of an index which a
speculative read meets lie where an opaque function says (log entry 82), are the model's choice. -/
theorem tierEventsTakeEffect : Obligations.TierEventsTakeEffect := by
  unfold Obligations.TierEventsTakeEffect
  refine ⟨?_, ?_, ?_, ?_, ?_, ?_, ?_, ?_, ?_⟩
  · intro s h addr cause ns tier f hf ht hl
    refine congrArg (nextOf s) ?_
    rw [tierAccessComplete_good hf ht, hl]
    rfl
  · intro s h addr cause ns tier f hf ht hl hd
    refine congrArg (nextOf s) ?_
    rw [tierAccessComplete_good hf ht, hl, if_pos rfl, stallEnds_late (by simpa using hd)]
  · intro s h addr cause ns tier f hf ht h3 hs hl
    refine ⟨_, congrArg (nextOf s) (tierAccessComplete_poisoned hf ht h3 hs hl), ?_, ?_, ?_, ?_⟩
    · simpa [unitAt] using unitAt_mem_poisonMet f true addr tier (recordStall f.tenant tier cause ns s)
    · rw [poisonMet_mem, Canonical.recordStall_mem]
    · rw [poisonMet_proto, recordStall_proto]
    · rw [poisonMet_uncorrected, recordStall_faults]
  · intro s h addr cause ns now tier f hf ht hl hd
    exact congrArg (nextOf s) (stallLimitExpiry_late hf ht hl hd)
  · intro s page h x f hx hm hs hf hr
    exact congrArg (nextOf s) (pageFillComplete_good hx hm hs hf hr)
  · intro s page x hx hs hm he
    exact congrArg (nextOf s) (writeBackComplete_free hx hs hm he)
  · intro s page h x f hx hs he hm hf
    exact congrArg (nextOf s) (writeBackComplete_mover hx hs he hm hf)
  · intro s addr
    exact execPatrolScrub_good addr s
  · intro s addr ht
    obtain ⟨unit, a, n, hm⟩ := markUnit_corrected none false true ht (by decide)
    obtain ⟨hcount, hmem, htiers, hproto⟩ := correctedError_effect unit a 1 { s with freeCtr := n }
    refine ⟨_, ?_, hcount, hmem, htiers, hproto⟩
    change execPatrolScrub addr .corrected s = _
    simp only [execPatrolScrub, ht, reduceCtorEq, if_false, hm]

end Sys2Proof.TierEvents

/-! A row and its two slots (R242, R247): where its header and its slots stand in a memory in canonical form, and what an update that takes effect leaves there. -/

namespace Sys2Proof.RowSlots

open Sys2Proof Sys2Proof.Machine Sys2Proof.Laws

/-! ### Stretches of memory -/

theorem length_readN (m : Memory) (a n : Nat) : (m.readN a n).length = n := by
  induction n generalizing a with
  | zero => rfl
  | succ n ih => rw [Memory.readN, List.length_cons, ih]

theorem readN_add (m : Memory) (a n k : Nat) : m.readN a (n + k) = m.readN a n ++ m.readN (a + n) k := by
  induction n generalizing a with
  | zero => simp [Memory.readN]
  | succ n ih => rw [Nat.add_right_comm, Memory.readN, Memory.readN, ih, List.cons_append, Nat.add_right_comm a 1 n, Nat.add_assoc a n 1]

theorem readN_writeN_out (m : Memory) (c : Nat) (b : Bytes) (a n : Nat) (h : a + n ≤ c ∨ c + b.length ≤ a) : (m.writeN c b).readN a n = m.readN a n := by
  induction n generalizing a with
  | zero => rfl
  | succ n ih => rw [Memory.readN, Memory.readN, ih (a + 1) (by omega), read_writeN_out _ _ _ _ (by omega)]

/-- A write leaves every stretch that it does not meet. -/
theorem memRead_memWrite_out (s : State) (c : Nat) (b : Bytes) (a n : Nat) (h : a + n ≤ c ∨ c + b.length ≤ a) :
    memRead (memWrite c b s) a n = memRead s a n := readN_writeN_out s.mem c b a n h

/-- Of bytes written the first ones are read back alone. -/
theorem memRead_memWrite_append (s : State) (a : Nat) (b c : Bytes) (w : s.mem.wf = true) : memRead (memWrite a (b ++ c) s) a b.length = b := by
  have h := memRead_memWrite_self s a (b ++ c) w
  rw [memRead, List.length_append, readN_add] at h
  exact (List.append_inj h (length_readN _ _ _)).1

/-! ### A table of one shard -/

/-- A module that alone holds a table owns all its rows, R244. -/
theorem ownedRows_alone (rows m : Nat) : ownedRows rows [m] m = (0, rows) := by simp [ownedRows, shardPlace, shardStart]

theorem ownerOf_alone {t : Table} {m row : Nat} (hs : t.shard = [m]) (hr : row < t.rows) : ownerOf t row = m := by
  simp [ownerOf, hs, ownedRows_alone, hr]

variable {s : State} {t : Table} {u : RowUpdate}

theorem rowHeader_alone (hs : t.shard = [s.fabric.view.self]) (row : Nat) : rowHeader s t row = leNat (memRead s (t.headers + row * 8) 8) := by
  rw [rowHeader, hs, ownedRows_alone, Nat.sub_zero]

theorem slotAt_alone (hs : t.shard = [s.fabric.view.self]) (row cur : Nat) : slotAt s t row cur = t.slots + (row * 2 + cur) * tablePitch t := by
  rw [slotAt, hs, ownedRows_alone, Nat.sub_zero]

/-- A slot holds the bytes of its row, R242. -/
theorem tableB_le_tablePitch (t : Table) : tableB t ≤ tablePitch t := by
  simp only [tableB, tablePitch, rowPitch, ceilDiv, OfNat.ofNat_ne_zero, if_false]
  omega

/-- The slots of the rows follow each other within the table's storage, R243. -/
theorem slot_le_slots {row rows cur : Nat} (hr : row < rows) (hc : cur ≤ 1) (p : Nat) : (row * 2 + cur) * p + p ≤ rows * 2 * p := by
  rw [← Nat.succ_mul]
  exact Nat.mul_le_mul_right p (by omega)

/-- The two slots of a row do not meet. -/
theorem slot_other (row : Nat) {cur : Nat} (hc : cur ≤ 1) (p : Nat) :
    (row * 2 + cur) * p + p ≤ (row * 2 + (1 - cur)) * p ∨ (row * 2 + (1 - cur)) * p + p ≤ (row * 2 + cur) * p := by
  rw [← Nat.succ_mul, ← Nat.succ_mul]
  rcases Nat.le_one_iff_eq_zero_or_eq_one.mp hc with rfl | rfl
  · exact .inl (Nat.mul_le_mul_right p (by omega))
  · exact .inr (Nat.mul_le_mul_right p (by omega))

/-! ### The header -/

theorem headerCur_le_one (h : Nat) : headerCur h ≤ 1 := by
  unfold headerCur
  omega

/-- The header of a row once an update has taken effect, R247. -/
def nextHeader (h : Nat) : Nat := (headerVersion h + 1) % 2 ^ 48 + (1 - headerCur h) * 2 ^ 48

theorem headerCur_nextHeader (h : Nat) : headerCur (nextHeader h) = 1 - headerCur h := by
  unfold nextHeader headerCur
  omega

theorem headerVersion_nextHeader (h : Nat) : headerVersion (nextHeader h) = (headerVersion h + 1) % 2 ^ 48 := by
  unfold nextHeader headerVersion
  omega

theorem leNat_nextHeader (h : Nat) : leNat (toLe 8 (nextHeader h)) = nextHeader h := by
  rw [leNat_toLe]
  unfold nextHeader
  omega

/-! ### An update takes effect -/

/-- The image that an update writes into a slot. -/
def slotImage (t : Table) (u : RowUpdate) : Bytes := u.image ++ zeros (tablePitch t - u.image.length)

theorem length_slotImage (hb : u.image.length = tableB t) : (slotImage t u).length = tablePitch t := by
  have := tableB_le_tablePitch t
  simp only [slotImage, List.length_append, length_zeros]
  omega

/-- The state with an update's image in the slot that is not current. -/
def imageWritten (s : State) (t : Table) (u : RowUpdate) : State := memWrite (slotAt s t u.row (1 - headerCur (rowHeader s t u.row))) (slotImage t u) s

/-- An update of a row of a table of Tier 1 that this module alone holds, its image as long as a row, its headers and slots apart, R242, R243. -/
structure Placed (s : State) (t : Table) (u : RowUpdate) : Prop where
  known : tableOf s u.table = some t
  alone : t.shard = [s.fabric.view.self]
  row_lt : u.row < t.rows
  tier : t.tier = 1
  image : u.image.length = tableB t
  apart : t.headers + t.rows * 8 ≤ t.slots ∨ t.slots + t.rows * 2 * tablePitch t ≤ t.headers

namespace Placed

variable (hp : Placed s t u)
include hp

/-- No slot of the row meets a row header. -/
theorem slot_apart_header {r cur : Nat} (hr : r < t.rows) (hc : cur ≤ 1) :
    t.headers + r * 8 + 8 ≤ t.slots + (u.row * 2 + cur) * tablePitch t
      ∨ t.slots + (u.row * 2 + cur) * tablePitch t + tablePitch t ≤ t.headers + r * 8 := by
  have hslot := slot_le_slots hp.row_lt hc (tablePitch t)
  have hapart := hp.apart
  omega

/-- The update writes its image, then the header, R247. -/
theorem applyRow_eq : applyRow u s = memWrite (t.headers + u.row * 8) (toLe 8 (nextHeader (rowHeader s t u.row))) (imageWritten s t u) := by
  simp [applyRow, writeImages, hp.known, hp.tier, hp.alone, ownedRows_alone, imageWritten, slotImage, nextHeader]

/-- The module still holds the table alone. -/
theorem alone_applyRow : t.shard = [(applyRow u s).fabric.view.self] := by
  rw [hp.applyRow_eq]
  exact hp.alone

/-- The header of the row is the next one. -/
theorem rowHeader_self (hw : s.mem.wf = true) : rowHeader (applyRow u s) t u.row = nextHeader (rowHeader s t u.row) := by
  have h := memRead_memWrite_self (imageWritten s t u) (t.headers + u.row * 8) (toLe 8 (nextHeader (rowHeader s t u.row))) (memWrite_wf s _ _ hw)
  rw [length_toLe] at h
  rw [rowHeader_alone hp.alone_applyRow, hp.applyRow_eq, h, leNat_nextHeader]

/-- The headers of the other rows stay. -/
theorem rowHeader_ne {r : Nat} (hr : r < t.rows) (hne : r ≠ u.row) : rowHeader (applyRow u s) t r = rowHeader s t r := by
  have hapart := hp.slot_apart_header hr (Nat.sub_le 1 (headerCur (rowHeader s t u.row)))
  rw [rowHeader_alone hp.alone_applyRow, rowHeader_alone hp.alone, hp.applyRow_eq, imageWritten, slotAt_alone hp.alone,
    memRead_memWrite_out _ _ _ _ _ (by rw [length_toLe]; omega), memRead_memWrite_out _ _ _ _ _ (by rw [length_slotImage hp.image]; omega)]

/-- The header is no part of the row's slots, so these hold what they held once the image was written. -/
theorem memRead_slot {cur : Nat} (hc : cur ≤ 1) :
    memRead (applyRow u s) (slotAt s t u.row cur) (tableB t) = memRead (imageWritten s t u) (slotAt s t u.row cur) (tableB t) := by
  have hapart := hp.slot_apart_header hp.row_lt hc
  have hB := tableB_le_tablePitch t
  rw [hp.applyRow_eq, slotAt_alone hp.alone]
  refine memRead_memWrite_out _ _ _ _ _ ?_
  rw [length_toLe]
  omega

/-- The other slot holds the new image. -/
theorem memRead_other (hw : s.mem.wf = true) :
    memRead (applyRow u s) (slotAt s t u.row (1 - headerCur (rowHeader s t u.row))) (tableB t) = u.image := by
  rw [hp.memRead_slot (Nat.sub_le 1 _), ← hp.image]
  exact memRead_memWrite_append s _ _ _ hw

/-- The slot that was current keeps its bytes. -/
theorem memRead_current : memRead (applyRow u s) (slotAt s t u.row (headerCur (rowHeader s t u.row))) (tableB t)
    = memRead s (slotAt s t u.row (headerCur (rowHeader s t u.row))) (tableB t) := by
  have hc := headerCur_le_one (rowHeader s t u.row)
  have hslots := slot_other u.row hc (tablePitch t)
  have hB := tableB_le_tablePitch t
  rw [hp.memRead_slot hc, imageWritten, slotAt_alone hp.alone, slotAt_alone hp.alone]
  refine memRead_memWrite_out _ _ _ _ _ ?_
  rw [length_slotImage hp.image]
  omega

end Placed

/-- Settles O39: the header's bits by `nextHeader`, the bytes by where the header and the two slots lie. -/
theorem rowUpdateSwapsSlots : Obligations.RowUpdateSwapsSlots := by
  unfold Obligations.RowUpdateSwapsSlots
  intro s u t hw ht hs hr htier hb hd
  have hp : Placed s t u := ⟨ht, hs, hr, htier, hb, hd⟩
  have hheader := hp.rowHeader_self hw
  refine ⟨?_, ?_, hp.memRead_other hw, hp.memRead_current, fun r hlt hne => hp.rowHeader_ne hlt hne⟩
  · rw [hheader, headerCur_nextHeader]
  · rw [hheader, headerVersion_nextHeader]

end Sys2Proof.RowSlots

/-! The events of tables (R248, R250, R252, R261, R430): what a step boundary leaves of the updates queued for it, what a window's end chooses, and what the messages
about rows bring. -/

namespace Sys2Proof.RowEvents

open Sys2Proof Sys2Proof.Machine Sys2Proof.Laws

/-! ### What sending, counting and writing leave as it is -/

/-- What the writes and the messages of a step boundary leave alone: the command lists, the tables, the indexes, the requests, the runs. -/
structure SameObjects (s t : State) : Prop where
  proto : t.proto = s.proto
  tables : t.tables = s.tables
  indexes : t.indexes = s.indexes
  serve : t.serve = s.serve
  compute : t.compute = s.compute

namespace SameObjects

theorem refl (s : State) : SameObjects s s := ⟨rfl, rfl, rfl, rfl, rfl⟩

theorem trans {s t u : State} (h1 : SameObjects s t) (h2 : SameObjects t u) : SameObjects s u :=
  ⟨h2.proto.trans h1.proto, h2.tables.trans h1.tables, h2.indexes.trans h1.indexes, h2.serve.trans h1.serve, h2.compute.trans h1.compute⟩

theorem foldl {α : Type} {g : State → α → State} (hg : ∀ t x, SameObjects t (g t x)) (l : List α) (s : State) : SameObjects s (l.foldl g s) := by
  induction l generalizing s with
  | nil => exact refl s
  | cons x l ih => exact (hg s x).trans (ih (g s x))

end SameObjects

theorem sameObjects_emit (o : Output) (s : State) : SameObjects s (emit o s) := ⟨rfl, rfl, rfl, rfl, rfl⟩

theorem sameObjects_bump (c : Ctr) (k n : Nat) (s : State) : SameObjects s (bump c k n s) := ⟨rfl, rfl, rfl, rfl, rfl⟩

theorem sameObjects_sendFlits (p : Nat) (first : Bool) (bs : List Bytes) (s : State) : SameObjects s (sendFlits p first bs s) := by
  induction bs generalizing first s with
  | nil => exact .refl s
  | cons b bs ih =>
    refine .trans ?_ (ih false _)
    constructor <;> simp

theorem sameObjects_sendSegment (dst ch : Nat) (seg : Bytes) (s : State) : SameObjects s (sendSegment dst ch seg s) := by
  have hemit := sameObjects_emit (.segment dst ch seg) s
  unfold sendSegment
  dsimp only
  split
  · exact hemit
  · split
    · exact hemit.trans (sameObjects_emit _ _)
    · exact hemit.trans (sameObjects_sendFlits _ _ _ _)

theorem sameObjects_pump (dst ch fuel : Nat) (s : State) : SameObjects s (pump dst ch fuel s) := by
  induction fuel generalizing s with
  | zero => exact .refl s
  | succ fuel ih =>
    simp only [pump]
    split
    · exact .refl s
    · split
      · exact .refl s
      · refine .trans (.trans ?_ (sameObjects_sendSegment _ _ _ _)) (ih _)
        exact ⟨rfl, rfl, rfl, rfl, rfl⟩

theorem sameObjects_sendMessage (dst type sub tenant corr own : Nat) (body : Bytes) (s : State) :
    SameObjects s (sendMessage dst type sub tenant corr own body s) := by
  simp only [sendMessage]
  refine .trans ?_ (sameObjects_pump _ _ _ _)
  split <;> constructor <;> simp

theorem sameObjects_sendAll (type sub tenant corr : Nat) (body : Bytes) (l : List Nat) (s : State) :
    SameObjects s (sendAll type sub tenant corr body l s) := by
  induction l generalizing s with
  | nil => exact .refl s
  | cons d ds ih => exact (sameObjects_sendMessage d type sub tenant corr 0 body s).trans (ih _)

theorem sameObjects_sendSealed (block sectors : Nat) (s : State) : SameObjects s (sendSealed block sectors s) := by
  simp only [sendSealed]
  (repeat' split) <;> exact ⟨rfl, rfl, rfl, rfl, rfl⟩

theorem sameObjects_storeBlocks (l : List Nat) (s : State) : SameObjects s (storeBlocks l s) := by
  induction l generalizing s with
  | nil => exact .refl s
  | cons b bs ih =>
    simp only [storeBlocks]
    refine .trans (.trans ?_ (sameObjects_sendSealed _ _ _)) (ih _)
    exact ⟨rfl, rfl, rfl, rfl, rfl⟩

theorem sameObjects_memWrite (a : Nat) (b : Bytes) (s : State) : SameObjects s (memWrite a b s) := ⟨rfl, rfl, rfl, rfl, rfl⟩

theorem sameObjects_writeImages (us : List RowUpdate) (s : State) : SameObjects s (writeImages us s) :=
  SameObjects.foldl (fun t u => by
    split
    · exact .refl t
    · have hwrite := fun a b => sameObjects_memWrite a b t
      dsimp only
      split
      · exact (hwrite _ _).trans (sameObjects_storeBlocks _ _)
      · exact hwrite _ _) us s

theorem sameObjects_applyRow (u : RowUpdate) (s : State) : SameObjects s (applyRow u s) := by
  unfold applyRow
  split
  · exact .refl s
  · exact (sameObjects_writeImages _ s).trans (sameObjects_memWrite _ _ _)

theorem sameObjects_rowWait (id : Nat) (s : State) : SameObjects s (rowWait id s) := ⟨rfl, rfl, rfl, rfl, rfl⟩

theorem sameObjects_pushRows (id op : Nat) (t : Table) (rows : List Nat) (s : State) : SameObjects s (pushRows id op t rows s) :=
  SameObjects.foldl (fun u _ => (sameObjects_sendAll _ _ _ _ _ _ u).trans (sameObjects_bump _ _ _ _)) _ s

/-! ### Sorted lists -/

theorem mem_sortBy {α : Type} {le : α → α → Bool} {l : List α} {x : α} : x ∈ sortBy le l ↔ x ∈ l := by
  rw [Allocations.sortBy_eq_insertionSort, List.mem_insertionSort]

theorem length_sortBy {α : Type} (le : α → α → Bool) (l : List α) : (sortBy le l).length = l.length := by
  rw [Allocations.sortBy_eq_insertionSort, List.length_insertionSort]

/-! ### A step boundary -/

/-- The step boundary itself: the step counter advances and the queued updates leave their list, R56, R248. -/
def boundary (s : State) : State :=
  { s with
    proto := { s.proto with stepCount := s.proto.stepCount + 1 }
    tables := { s.tables with updates := s.tables.updates.filter (fun u => !u.queued) } }

/-- Updates that take effect write their rows, are counted, reach the holders, and their commands wait for those, R247, R248, R252. -/
theorem rowUpdateApply_boundary {s : State} {u : RowUpdate} (hu : u ∈ s.tables.updates) (hq : u.queued = true) (ht : (tableOf s u.table).isSome = true) :
    ∃ t waits, rowUpdateApply s = settleRepl { t with tables := { t.tables with waits := t.tables.waits ++ waits } } ∧ SameObjects (boundary s) t := by
  have hsome : (sortBy updateLe (s.tables.updates.filter (fun u => u.queued && (tableOf s u.table).isSome))).isEmpty = false := by
    rw [List.isEmpty_eq_false_iff_exists_mem]
    exact ⟨u, mem_sortBy.mpr (List.mem_filter.mpr ⟨hu, by rw [hq, ht]; rfl⟩)⟩
  unfold rowUpdateApply
  extract_lets us wins last proto tables s1 s2 s3 hot s4 cmds waits left
  refine ⟨s4, waits, if_neg (by simp [us, hsome]), ?_⟩
  have happlied : SameObjects s1 s2 := .foldl (fun t v => sameObjects_applyRow v t) _ _
  have hcounted : SameObjects s2 s3 := .foldl (fun t v => by
    refine .trans (.trans ?_ (sameObjects_bump _ _ _ _)) (sameObjects_rowWait _ _)
    split
    · exact .refl t
    · exact sameObjects_bump _ _ _ t) _ _
  have hpushed : SameObjects s3 s4 := .foldl (fun t id => by
    split
    · exact .refl t
    · exact sameObjects_pushRows _ _ _ _ t) _ _
  exact (happlied.trans hcounted).trans hpushed

/-! ### A window's end -/

/-- The rows with enough occurrences in a window that are not pinned, by their count, R261. -/
def crossedRows (s : State) (t : Table) (w : Nat) (counts : List (Nat × Nat)) : List Nat :=
  (sortBy (fun a b => decide (b.2 < a.2) || (a.2 == b.2 && decide (a.1 ≤ b.1)))
    ((hotCounts s t w counts).filter (fun p => decide (t.threshold ≤ p.2) && !(ownPins s t).contains p.1))).map (·.1)

/-- The hot set that an owner chooses at a window's end, R261. -/
def chosenRows (s : State) (t : Table) (w : Nat) (counts : List (Nat × Nat)) : List Nat :=
  sortBy Nat.ble ((ownPins s t ++ crossedRows s t w counts).take t.maxHot)

theorem length_chosenRows (s : State) (t : Table) (w : Nat) (counts : List (Nat × Nat)) : (chosenRows s t w counts).length ≤ t.maxHot := by
  rw [chosenRows, length_sortBy]
  exact List.length_take_le _ _

/-- A row is chosen because it is pinned, or because it was counted at the threshold or above. -/
theorem mem_chosenRows {s : State} {t : Table} {w r : Nat} {counts : List (Nat × Nat)} (h : r ∈ chosenRows s t w counts) :
    r ∈ t.pins ∨ ∃ n, (r, n) ∈ hotCounts s t w counts ∧ t.threshold ≤ n := by
  rcases List.mem_append.mp (List.mem_of_mem_take (mem_sortBy.mp h)) with hpin | hcross
  · exact .inl (List.mem_filter.mp hpin).1
  · obtain ⟨⟨r', n⟩, hp, rfl⟩ := List.mem_map.mp hcross
    obtain ⟨hmem, hthr⟩ := List.mem_filter.mp (mem_sortBy.mp hp)
    exact .inr ⟨n, hmem, of_decide_eq_true (Bool.and_eq_true_iff.mp hthr).1⟩

section Window

variable {s : State} {table now : Nat} {t : Table} {counts : List (Nat × Nat)}

/-- The window of a table's policy that has ended last. -/
def endedWindow (s : State) (t : Table) : Nat := (s.frontTime - t.policyAt) / (t.windowMs * 1000000) - 1

variable (ht : tableOf s table = some t) (hm : t.hmode = 1) (hend : t.policyAt + t.windowMs * 1000000 ≤ (advance now s).frontTime)
include ht hm hend

/-- An owner reports what it counted of other owners' rows and chooses its hot set, R261. -/
theorem hotWindowEnd_member (hs : t.shard.contains s.fabric.view.self = true) :
    hotWindowEnd table counts now s
      = setHot table { t with occurrences := t.occurrences.filter (fun x => decide (endedWindow (advance now s) t < windowOf t x.1)) }
        (chosenRows (advance now s) t (endedWindow (advance now s) t) counts) (reportCounts table t (endedWindow (advance now s) t) (advance now s)) := by
  have ht' : tableOf (advance now s) table = some t := by simpa [tableOf] using ht
  have hguard : ¬ (t.hmode ≠ 1 ∨ (advance now s).frontTime < t.policyAt + t.windowMs * 1000000) := by omega
  have hs' : ¬ t.shard.contains (advance now s).fabric.view.self = false := by rw [advance_fabric, hs]; simp
  simp only [hotWindowEnd, ht', if_neg hguard, if_neg hs']
  rfl

/-- Any other member only reports, R261. -/
theorem hotWindowEnd_outside (hs : t.shard.contains s.fabric.view.self = false) :
    hotWindowEnd table counts now s = reportCounts table t (endedWindow (advance now s) t) (advance now s) := by
  have ht' : tableOf (advance now s) table = some t := by simpa [tableOf] using ht
  have hguard : ¬ (t.hmode ≠ 1 ∨ (advance now s).frontTime < t.policyAt + t.windowMs * 1000000) := by omega
  have hs' : t.shard.contains (advance now s).fabric.view.self = false := by rw [advance_fabric, hs]
  simp only [hotWindowEnd, ht', if_neg hguard, if_pos hs']
  rfl

end Window

/-! ### Messages about rows -/

section Messages

variable {type peer op : Nat} {plain : Bytes} {s : State} {m : Msg} {t : Table}

/-- A message of this module's epoch from a module of the view is accepted, R429, R431. -/
theorem inbound_arrives (ha : Arrives type peer plain s m) : inbound type peer plain s = .accepted m (heardFrom peer s) := by
  obtain ⟨htype, hlen, h1, h4, hmod, hepoch, rfl⟩ := ha
  have hof : ¬ (fld plain 0 1 ≠ type ∨ plain.length < 24) := by omega
  have hjudge : (decide (9 ≤ type) || fld plain 8 8 == s.fabric.view.epoch) = true := by simpa using hepoch
  simp only [inbound, if_neg hof, h1, h4, hmod, hjudge, Bool.not_true, Bool.or_self, Bool.false_eq_true, if_false, if_true]

theorem onMessage_arrives {k : Msg → State → State} (ha : Arrives type peer plain s m) : onMessage type peer plain s k = k m (heardFrom peer s) := by
  rw [onMessage, inbound_arrives ha]

/-- Hearing from a peer drops replicas at most, so the updates stay. -/
theorem heardFrom_updates (peer : Nat) (s : State) : (heardFrom peer s).tables.updates = s.tables.updates := by
  simp only [heardFrom]
  split <;> rfl

theorem heardFrom_view (peer : Nat) (s : State) : (heardFrom peer s).fabric.view = s.fabric.view := by
  simp only [heardFrom]
  split <;> rfl

/-- The updates that a ROW_UPD message carries, R430. -/
def carriedUpdates (m : Msg) (t : Table) : List RowUpdate :=
  (List.range (fld m.body 4 4)).map (fun i => ⟨fld m.body 0 4, fld m.body (24 + 16 * i) 8, fld m.body (32 + 16 * i) 4,
    slice m.body (24 + 16 * fld m.body 4 4 + tablePitch t * i) (tableB t), fld m.body 8 2, fld m.body 12 4, fld m.body 16 8, m.corr, false⟩)

/-- Of these the ones of rows owned here. -/
def ownUpdates (s : State) (m : Msg) (t : Table) : List RowUpdate := (carriedUpdates m t).filter (fun u => ownerOf t u.row == s.fabric.view.self)

theorem length_ownUpdates (s : State) (m : Msg) (t : Table) : (ownUpdates s m t).length ≤ fld m.body 4 4 := by
  refine (List.length_filter_le _ _).trans (Nat.le_of_eq ?_)
  rw [carriedUpdates, List.length_map, List.length_range]

theorem mem_ownUpdates {v : RowUpdate} (hv : v ∈ ownUpdates s m t) :
    v.table = fld m.body 0 4 ∧ ownerOf t v.row = s.fabric.view.self ∧ v.queued = false ∧ v.image.length ≤ tableB t := by
  obtain ⟨hc, hown⟩ := List.mem_filter.mp hv
  obtain ⟨i, -, rfl⟩ := List.mem_map.mp hc
  exact ⟨rfl, eq_of_beq hown, rfl, by rw [length_slice]; exact Nat.min_le_left _ _⟩

/-- ROW_UPD adds the updates of rows owned here, R250. -/
theorem rowUpd_arrives (ha : Arrives 0x03 peer plain s m) (ht : tableOf (heardFrom peer s) (fld m.body 0 4) = some t)
    (hl : m.body.length = 24 + fld m.body 4 4 * (16 + tablePitch t)) (hz : zeroAt m.body 10 2 = true)
    (hr : ∀ i, i < fld m.body 4 4 → zeroAt m.body (36 + 16 * i) 4 = true) :
    rowUpd peer plain s = { heardFrom peer s with
      tables := { (heardFrom peer s).tables with updates := (heardFrom peer s).tables.updates ++ ownUpdates (heardFrom peer s) m t } } := by
  have hrows : (List.range (fld m.body 4 4)).any (fun i => !zeroAt m.body (36 + 16 * i) 4) = false :=
    List.any_eq_false.mpr fun i hi => by simp [hr i (List.mem_range.mp hi)]
  have hgood : ¬ (m.body.length ≠ 24 + fld m.body 4 4 * (16 + tablePitch t) ∨ zeroAt m.body 10 2 = false
      ∨ (List.range (fld m.body 4 4)).any (fun i => !zeroAt m.body (36 + 16 * i) 4) = true) := by simp [hl, hz, hrows]
  rw [rowUpd, onMessage_arrives ha]
  simp only [ht, if_neg hgood]
  rfl

/-- A field of what follows the common header. -/
theorem fld_body (ha : Arrives type peer plain s m) (off len : Nat) : fld m.body off len = fld plain (24 + off) len := by
  obtain ⟨-, -, -, -, -, -, rfl⟩ := ha
  simp [fld, slice]

/-- A ROW_REPL message of its OP about a table that is known here is taken, R430. -/
theorem onRepl_arrives {k : Nat → Table → Bytes → State → State} (ha : Arrives 0x04 peer plain s m) (hop : fld m.body 8 1 = op)
    (ht : tableOf (heardFrom peer s) (fld m.body 0 4) = some t) (hz : zeroAt m.body 9 7 = true) (hl : 16 + 16 * fld m.body 4 4 ≤ m.body.length) :
    onRepl op peer plain s k = k (fld m.body 0 4) t m.body (heardFrom peer s) := by
  have hsame : ¬ fld plain 32 1 ≠ op := by rw [← fld_body ha 8 1, hop]; simp
  have hgood : ¬ (zeroAt m.body 9 7 = false ∨ m.body.length < 16 + 16 * fld m.body 4 4) := by simp [hz, hl]
  rw [onRepl, if_neg hsame, onMessage_arrives ha]
  simp only [if_neg hgood, ht]

end Messages

/-! ### Replicas -/

theorem khas_kset {α : Type} (m : KMap α) (i r : Nat) (x : α) : khas (kset m i x) r = (decide (r = i) || khas m r) := by
  simp only [khas, kget_kset]
  split <;> simp [*]

/-- A map into which entries are stored one after the other holds theirs and what it held. -/
theorem khas_foldl_kset {α β : Type} (key : β → Nat) (val : β → α) (l : List β) (m : KMap α) (r : Nat) :
    khas (l.foldl (fun m p => kset m (key p) (val p)) m) r = true ↔ r ∈ l.map key ∨ khas m r = true := by
  induction l generalizing m with
  | nil => simp
  | cons p l ih => rw [List.foldl_cons, ih, khas_kset, List.map_cons, List.mem_cons, Bool.or_eq_true, decide_eq_true_eq]; tauto

theorem khas_kdel {α : Type} (m : KMap α) (i r : Nat) : khas (kdel m i) r = (decide (r ≠ i) && khas m r) := by
  by_cases h : r = i
  · simp [khas, h]
  · simp [khas, h, kget_kdel_ne m h]

/-- A map from which entries are removed one after the other holds what it held but theirs. -/
theorem khas_foldl_kdel {α β : Type} (key : β → Nat) (l : List β) (m : KMap α) (r : Nat) :
    khas (l.foldl (fun m p => kdel m (key p)) m) r = true ↔ r ∉ l.map key ∧ khas m r = true := by
  induction l generalizing m with
  | nil => simp
  | cons p l ih => rw [List.foldl_cons, ih, khas_kdel, List.map_cons, List.mem_cons, Bool.and_eq_true, decide_eq_true_eq]; tauto

section Replicas

variable {peer : Nat} {plain : Bytes} {s : State} {m : Msg} {t : Table}

/-- The replicas of a table once those that a ROW_REPL INSTALL carries are installed, R252. -/
def installed (b : Bytes) (t : Table) : KMap (Nat × Bytes) :=
  ((replPairs b).zipIdx).foldl (fun m p =>
    kset m p.1.1 (p.1.2 % 2 ^ 48, slice b (16 + 16 * fld b 4 4 + tablePitch t * p.2) (tableB t))) t.replicas

theorem khas_installed (b : Bytes) (t : Table) (r : Nat) :
    khas (installed b t) r = true ↔ r ∈ (replPairs b).map (·.1) ∨ khas t.replicas r = true := by
  have hkeys : (replPairs b).zipIdx.map (fun p => p.1.1) = (replPairs b).map (·.1) := by
    rw [← List.zipIdx_map_fst 0 (replPairs b), List.map_map, List.zipIdx_map_fst]; rfl
  refine (khas_foldl_kset (fun p : (Nat × Nat) × Nat => p.1.1)
    (fun p => (p.1.2 % 2 ^ 48, slice b (16 + 16 * fld b 4 4 + tablePitch t * p.2) (tableB t))) (replPairs b).zipIdx t.replicas r).trans ?_
  rw [hkeys]

theorem rowReplInstall_arrives (ha : Arrives 0x04 peer plain s m) (hop : fld m.body 8 1 = 0) (ht : tableOf (heardFrom peer s) (fld m.body 0 4) = some t)
    (hz : zeroAt m.body 9 7 = true) (hl : m.body.length = 16 + fld m.body 4 4 * (16 + tablePitch t)) :
    rowReplInstall peer plain s = sendMessage peer 0x04 2 t.tenant 0 0 (rowReplBody (fld m.body 0 4) 2 (replPairs m.body) [])
      (setTable (fld m.body 0 4) { t with replicas := installed m.body t } (heardFrom peer s)) := by
  have hlen : 16 + 16 * fld m.body 4 4 ≤ m.body.length := by rw [hl, Nat.mul_add]; omega
  rw [rowReplInstall, onRepl_arrives ha hop ht hz hlen]
  exact if_neg (not_not.mpr hl)

theorem rowReplDrop_arrives (ha : Arrives 0x04 peer plain s m) (hop : fld m.body 8 1 = 1) (ht : tableOf (heardFrom peer s) (fld m.body 0 4) = some t)
    (hz : zeroAt m.body 9 7 = true) (hl : 16 + 16 * fld m.body 4 4 ≤ m.body.length) :
    rowReplDrop peer plain s
      = setTable (fld m.body 0 4) { t with replicas := (replPairs m.body).foldl (fun m p => kdel m p.1) t.replicas } (heardFrom peer s) := by
  rw [rowReplDrop, onRepl_arrives ha hop ht hz hl]

/-- A wait without the installs that a holder acknowledges, R252. -/
def acknowledged (peer id : Nat) (pairs : List (Nat × Nat)) (w : ReplWait) : ReplWait :=
  { w with awaited := w.awaited.filter (fun a => !(a.1 == peer && a.2.1 == id && pairs.any (fun p => p.1 == a.2.2.1 && p.2 == a.2.2.2))) }

theorem not_mem_acknowledged {id : Nat} {pairs : List (Nat × Nat)} {w : ReplWait} {a : Nat × Nat × Nat × Nat} (ha : a ∈ (acknowledged peer id pairs w).awaited)
    (hp : a.1 = peer) (hid : a.2.1 = id) : (a.2.2.1, a.2.2.2) ∉ pairs := by
  intro hmem
  have hkept := (List.mem_filter.mp ha).2
  have hany : pairs.any (fun p => p.1 == a.2.2.1 && p.2 == a.2.2.2) = true := List.any_eq_true.mpr ⟨_, hmem, by simp⟩
  simp [hp, hid, hany] at hkept

theorem rowReplAck_arrives (ha : Arrives 0x04 peer plain s m) (hop : fld m.body 8 1 = 2) (ht : tableOf (heardFrom peer s) (fld m.body 0 4) = some t)
    (hz : zeroAt m.body 9 7 = true) (hl : 16 + 16 * fld m.body 4 4 ≤ m.body.length) :
    rowReplAck peer plain s = settleRepl { heardFrom peer s with
      tables := { (heardFrom peer s).tables with
        waits := (heardFrom peer s).tables.waits.map (acknowledged peer (fld m.body 0 4) (replPairs m.body)) } } := by
  rw [rowReplAck, onRepl_arrives ha hop ht hz hl]
  rfl

end Replicas

/-! ### The events -/

/-- Settles O40: a step boundary by what it leaves of the updates, a window's end by the rows it chooses, each message by what it brings. How a member's report is laid out
is the model's choice (log entry 77). -/
theorem rowEventsTakeEffect : Obligations.RowEventsTakeEffect := by
  unfold Obligations.RowEventsTakeEffect
  refine ⟨?_, ?_, ?_, ?_, ?_, ?_, ?_⟩
  · intro s u hu hq ht
    obtain ⟨t, waits, hrun, hsame⟩ := rowUpdateApply_boundary hu hq ht
    refine ⟨_, congrArg (nextOf s) hrun, ?_, ?_, ?_, hsame.indexes, hsame.serve, hsame.compute⟩
    · exact congrArg Proto.stepCount hsame.proto
    · intro v hv
      replace hv : v ∈ t.tables.updates := hv
      rw [hsame.tables] at hv
      simpa using (List.mem_filter.mp hv).2
    · intro v hv hnot
      change v ∈ t.tables.updates
      rw [hsame.tables]
      exact List.mem_filter.mpr ⟨hv, by simp [hnot]⟩
  · rintro s _ table now t counts rfl ht hm hend hs
    exact ⟨_, _, congrArg (nextOf s) (hotWindowEnd_member ht hm hend hs), length_chosenRows _ _ _ _, rfl, fun r hr => mem_chosenRows hr⟩
  · rintro s _ table now t counts rfl ht hm hend hs
    exact congrArg (nextOf s) (hotWindowEnd_outside ht hm hend hs)
  · intro s peer plain m t ha ht hl hz hr
    refine ⟨_, _, congrArg (nextOf s) (rowUpd_arrives ha ht hl hz hr), ?_, length_ownUpdates (heardFrom peer s) m t, ?_, Canonical.heardFrom_mem peer s⟩
    · exact congrArg (· ++ _) (heardFrom_updates peer s)
    · intro v hv
      rw [← heardFrom_view peer s]
      exact mem_ownUpdates hv
  · intro s peer plain m t ha hop ht hz hl
    exact ⟨_, congrArg (nextOf s) (rowReplInstall_arrives ha hop ht hz hl), rfl, fun r hr => (khas_installed _ _ r).mpr (.inl hr),
      fun r hr => (khas_installed _ _ r).mpr (.inr hr)⟩
  · intro s peer plain m t ha hop ht hz hl
    refine ⟨_, congrArg (nextOf s) (rowReplDrop_arrives ha hop ht hz hl), rfl, fun r hr => ?_⟩
    rw [Bool.eq_false_iff]
    exact fun hhas => ((khas_foldl_kdel _ _ _ r).mp hhas).1 hr
  · intro s peer plain m t ha hop ht hz hl
    refine ⟨_, congrArg (nextOf s) (rowReplAck_arrives ha hop ht hz hl), rfl, Canonical.heardFrom_mem peer s, ?_⟩
    intro w hw a hawait hp hid
    obtain ⟨w', -, rfl⟩ := List.mem_map.mp hw
    exact not_mem_acknowledged hawait hp hid

end Sys2Proof.RowEvents

/-! The commands on tables (R240, R246, R249 to R251, R254 to R261): what their runs come to on a module that alone holds the table. -/

namespace Sys2Proof.TableCommands

open Sys2Proof Sys2Proof.Machine Sys2Proof.Laws

variable {s s0 s1 s2 : State} {h : Nat} {f : Flight} {t : Table}

/-! ### Free IDs -/

theorem firstFree_some {used : List Nat} {start fuel id : Nat} (h : firstFree used start fuel = some id) : id ∉ used ∧ id < start + fuel := by
  induction fuel generalizing start with
  | zero => cases h
  | succ fuel ih =>
    unfold firstFree at h
    split at h
    · obtain ⟨hfree, hlt⟩ := ih h
      exact ⟨hfree, by omega⟩
    · next hc =>
      cases h
      exact ⟨fun hm => hc (List.contains_iff_mem.mpr hm), by omega⟩

theorem mem_of_firstFree_none {used : List Nat} {start fuel : Nat} (h : firstFree used start fuel = none) {i : Nat} (hi : i < fuel) : start + i ∈ used := by
  induction fuel generalizing start i with
  | zero => omega
  | succ fuel ih =>
    unfold firstFree at h
    split at h
    · next hc =>
      cases i with
      | zero => exact List.contains_iff_mem.mp hc
      | succ i => rw [Nat.add_comm i 1, ← Nat.add_assoc]; exact ih h (by omega)
    · cases h

/-- Of 4,096 IDs one is free where fewer are used. -/
theorem firstFree_zero {used : List Nat} (hl : used.length < 4096) : ∃ id, firstFree used 0 4096 = some id := by
  rw [← Option.ne_none_iff_exists']
  intro hnone
  have hsub : List.range 4096 ⊆ used := fun i hi => by
    have := mem_of_firstFree_none hnone (List.mem_range.mp hi)
    rwa [Nat.zero_add] at this
  have hlen := (List.subperm_of_subset List.nodup_range hsub).length_le
  rw [List.length_range] at hlen
  omega

/-- The ID taken is a free one, R239. -/
theorem freeId_free {used : List Nat} (hl : used.length < 4096) (d : Nat) : freeId used d < 4096 ∧ freeId used d ∉ used := by
  obtain ⟨id, hid⟩ := firstFree_zero hl
  obtain ⟨hfree, hlt⟩ := firstFree_some hid
  rw [Nat.zero_add] at hlt
  unfold freeId
  rw [hid]
  split
  · next id' hid' =>
    split
    · next hlt' => exact ⟨hlt', (firstFree_some hid').1⟩
    · exact ⟨hlt, hfree⟩
  · exact ⟨hlt, hfree⟩

/-! ### Creating and dropping -/

/-- A creation that carries no ID takes a free one. -/
theorem takeId_free (hc : f.content = none) (used : List Nat) : takeId used f s = (freeId used (drawFree s).1, (drawFree s).2) := by
  simp only [takeId, hc]

/-- TABLE_CREATE takes the storage of all rows and records the table under a free ID, R240, R243. -/
theorem tableCreateRun_alone {id slots headers : Nat} (hs : scopeModules s f.hdr = [s.fabric.view.self]) (hc : f.content = none)
    (hid : freeId (kkeys s.tables.tables) (drawFree s).1 = id) (hfree : khas s.tables.tables id = false)
    (h1 : takeStorage f.tenant (par f 11 1) (par f 12 1) (pageBytes (par f 0 8 * 2 * rowPitch (par f 8 2) (par f 10 1))) (drawFree s).2 = .ok (slots, s1))
    (h2 : takeStorage f.tenant 1 0xFF (pageBytes (par f 0 8 * 8)) s1 = .ok (headers, s2)) :
    tableCreateRun s f = .done (setTable id (newTable f [s.fabric.view.self] slots headers) s2) (okReply (toLe 4 id ++ zeros 4)) := by
  have hshard : sortBy Nat.ble (scopeModules s f.hdr) = [s.fabric.view.self] := by rw [hs]; rfl
  have hrows : (ownedRows (par f 0 8) [s.fabric.view.self] s.fabric.view.self).2 = par f 0 8 := by rw [RowSlots.ownedRows_alone]
  unfold tableCreateRun
  rw [takeId_free hc, hid, hshard]
  dsimp only
  rw [if_neg (by simp [hfree]), if_neg (by simp), hrows]
  -- Neither taking is unfolded from here on: to compute its length is what the kernel would spend its time on.
  generalize takeStorage f.tenant 1 0xFF (pageBytes (par f 0 8 * 8)) = take at h2 ⊢
  as_aux_lemma =>
    rw [h1]
    dsimp only
    rw [h2]

/-- The checks of TABLE_CREATE pass only where an ID is free, R241. -/
theorem length_tables_of_check (hc : tableCreateCommand.check s f = none) : (kkeys s.tables.tables).length < 4096 := by
  have hroom := Allocations.not_fails_of_firstFail hc (failIf (decide (4096 ≤ s.tables.tables.length)) .tableFull 0) (by simp)
  rw [failIf, decide_eq_false_iff_not, not_le] at hroom
  rwa [kkeys, List.length_map]

/-- Releasing ranges of memory changes no table. -/
theorem foldl_releaseAlloc_tables (len : State → Nat → Nat) (l : List Nat) (s : State) :
    (l.foldl (fun u a => releaseAlloc a (len u a) u) s).tables = s.tables := by
  induction l generalizing s with
  | nil => rfl
  | cons a l ih => exact ih _

/-- TABLE_DROP takes away the table and its updates and no other table, R246. -/
theorem releaseTable_effect {id : Nat} (ht : tableOf s id = some t) : tableOf (releaseTable id s) id = none
    ∧ (∀ v ∈ (releaseTable id s).tables.updates, v.table ≠ id) ∧ ∀ j, j ≠ id → tableOf (releaseTable id s) j = tableOf s j := by
  have hkeep := foldl_releaseAlloc_tables (fun u a => ((kget u.tiers.allocs a).map (·.len)).getD 0) ([t.slots, t.headers, t.area].filter (· != 0)) s
  simp only [releaseTable, ht]
  refine ⟨kget_kdel_self _ _, fun v hv => ?_, fun j hj => ?_⟩
  · simpa using (List.mem_filter.mp hv).2
  · simp only [tableOf, hkeep, kget_kdel_ne _ hj]

/-! ### Reading and pooling -/

theorem rowsReadCommand_run {fetched : List (Nat × Nat × Bytes)} {got : List (Nat × Nat × Nat × Bytes)} (ht : tableOf s (par f 0 4) = some t)
    (hg : fetchAll s f.serial (par f 0 4) t fetched (rowIndices s (par f 8 8) (par f 4 4)) = .ok got)
    (hw : commitWrites (some f.serial) f.tenant ((got.zipIdx).map (fun p => (par f 16 8 + p.2 * par f 24 4, p.1.2.2.2))) 0 (chargeHub 27 f.tenant s) = .done s1) :
    (rowsReadCommand fetched).run s f = .done (dropFetching f.serial s1) (okReply (got.flatMap (fun g => toLe 8 g.2.2.1))) := by
  simp only [rowsReadCommand, ht, hg, MemoryCommands.commitVerdict_done hw]

@[simp] theorem noteOccurrences_tiers (id stamp : Nat) (rows : List Nat) (s : State) : (noteOccurrences id stamp rows s).tiers = s.tiers := by
  unfold noteOccurrences
  split <;> rfl

@[simp] theorem noteOccurrences_proto (id stamp : Nat) (rows : List Nat) (s : State) : (noteOccurrences id stamp rows s).proto = s.proto := by
  unfold noteOccurrences
  split <;> rfl

@[simp] theorem noteOccurrences_indexes (id stamp : Nat) (rows : List Nat) (s : State) : (noteOccurrences id stamp rows s).indexes = s.indexes := by
  unfold noteOccurrences
  split <;> rfl

/-- A lookup that commits writes its output rows, counts, and returns its counts, R257, R259, R263. -/
theorem bagCommit_done {b : Bags} {w : BagWork} {got : List (Nat × Nat × Nat × Bytes)}
    (hw : commitWrites (some f.serial) f.tenant (((poolAll b w got).zipIdx).map (fun p => (b.out + p.2 * b.stride, bagOutput b.fmt p.1.1))) 0
      (chargeHub 27 f.tenant s) = .done s1) :
    ∃ u r, bagCommit f b w got s = .done u r ∧ r.status = .ok ∧ r.result.take 8 = toLe 4 w.valid.length ++ toLe 4 w.distinct.length
      ∧ u.mem = s1.mem ∧ u.tiers = s1.tiers ∧ u.proto = s1.proto ∧ u.indexes = s1.indexes := by
  rw [bagCommit, MemoryCommands.commitVerdict_done hw]
  refine ⟨_, _, rfl, rfl, ?_, ?_, ?_, ?_, ?_⟩
  · simp [okReply, List.take_append, List.take_of_length_le]
  all_goals simp [dropFetching, addCounts]

/-- A lookup whose rows can be read, without a NaN that it traps, commits, R258, R259. -/
theorem bagLookupCommand_run {fetched : List (Nat × Nat × Bytes)} {got : List (Nat × Nat × Nat × Bytes)} (ht : tableOf s (par f 0 4) = some t)
    (hg : fetchAll s f.serial (par f 0 4) t fetched (bagWork s (bagsOf f t)).distinct = .ok got)
    (hn : bitOf (par f 56 8) 0 = true → ∀ p ∈ poolAll (bagsOf f t) (bagWork s (bagsOf f t)) got, p.2.2 = none) :
    (bagLookupCommand fetched).run s f = bagCommit f (bagsOf f t) (bagWork s (bagsOf f t)) got s := by
  have hid : (bagsOf f t).id = par f 0 4 := rfl
  have hquiet : (if (bagsOf f t).trap = true then
      ((poolAll (bagsOf f t) (bagWork s (bagsOf f t)) got).zipIdx).find? (fun p => p.1.2.2.isSome) else none) = none := by
    split
    · next htrap =>
      refine List.find?_eq_none.mpr fun p hp => ?_
      rw [hn htrap p.1 (List.fst_mem_of_mem_zipIdx hp)]
      simp
    · rfl
  simp only [bagLookupCommand, ht, hid, hg, hquiet]

/-! ### Hot policies -/

/-- The table under the policy that a HOT_POLICY_SET gives it, R260. -/
def policyTable (s : State) (f : Flight) (t : Table) (area : Nat) : Table :=
  { t with
    area := area
    hmode := par f 4 1
    windowMs := par f 8 4
    threshold := par f 12 4
    maxHot := par f 16 4
    pins := pinsOf s f
    policyAt := s.frontTime
    occurrences := []
    replicas := if par f 4 1 = 0 then [] else t.replicas }

/-- The rows that are hot at once under it, R261; under AUTO the hot set that stood stays until a window ends (log entry 38). -/
def policyRows (s : State) (f : Flight) (t : Table) (area : Nat) : List Nat :=
  (if par f 4 1 = 2 then ownPins s (policyTable s f t area) else if par f 4 1 = 1 then t.hot else []).take (par f 16 4)

theorem policyRows_off {area : Nat} (hm : par f 4 1 = 0) : policyRows s f t area = [] := by simp [policyRows, hm]

theorem hotPolicyCommand_run {area : Nat} (ht : tableOf s (par f 0 4) = some t) (h0 : t.area = 0 → s0 = s)
    (h1 : t.area ≠ 0 → s0 = releaseAlloc t.area (((kget s.tiers.allocs t.area).map (·.len)).getD 0) s)
    (hin : t.shard.contains s.fabric.view.self = true →
      takeStorage t.tenant 1 0xFF (pageBytes ((t.shard.length - 1) * par f 16 4 * (2 * tablePitch t + 8))) s0 = .ok (area, s1))
    (hout : t.shard.contains s.fabric.view.self = false → area = 0 ∧ s1 = s0) :
    hotPolicyCommand.run s f = .done (setHot (par f 0 4) (policyTable s f t area) (policyRows s f t area)
      (setTable (par f 0 4) (policyTable s f t area) s1)) (okReply []) := by
  have hs0 : (if t.area = 0 then s else releaseAlloc t.area (((kget s.tiers.allocs t.area).map (·.len)).getD 0) s) = s0 := by
    split
    · next ha => exact (h0 ha).symm
    · next ha => exact (h1 ha).symm
  have harea : (if t.shard.contains s.fabric.view.self then
      takeStorage t.tenant 1 0xFF (pageBytes ((t.shard.length - 1) * par f 16 4 * (2 * tablePitch t + 8))) s0 else .ok (0, s0)) = .ok (area, s1) := by
    split
    · next hm => exact hin hm
    · next hm =>
      obtain ⟨rfl, rfl⟩ := hout (Bool.eq_false_iff.mpr hm)
      rfl
  change hotPolicyRun s f = _
  simp only [hotPolicyRun, ht, hs0, harea]
  rfl

/-! ### Writing rows -/

/-- What the checks of ROWS_WRITE let through names at least one row, and only rows of the table, R250. -/
theorem rows_of_rowsWriteCheck (hc : rowsWriteCheck s f = none) (ht : tableOf s (par f 0 4) = some t) :
    par f 4 4 ≠ 0 ∧ ∀ r ∈ rowIndices s (par f 8 8) (par f 4 4), r < t.rows := by
  simp only [rowsWriteCheck, ht] at hc
  split at hc
  · cases hc
  · next hnone => cases hnone
  · next hshape hsome =>
    cases hsome
    have hcount := Allocations.not_fails_of_firstFail hshape (badParamIf (par f 4 4 == 0) 4) (by simp)
    split at hc
    · cases hc
    · split at hc
      · cases hc
      · have hrange := Allocations.not_fails_of_firstFail hc
          (rangeIf ((rowIndices s (par f 8 8) (par f 4 4)).any (fun r => decide (t.rows ≤ r))) 8) (by simp)
        refine ⟨by simpa [badParamIf] using hcount, fun r hr => ?_⟩
        simpa using List.any_eq_false.mp hrange r hr

theorem updatesOf_ne_nil (hn : par f 4 4 ≠ 0) : updatesOf s f t ≠ [] := by
  simpa [updatesOf, rowIndices] using hn

/-- Each update of a ROWS_WRITE is of that command, not yet committed, and of a row that it names. -/
theorem mem_updatesOf {u : RowUpdate} (hu : u ∈ updatesOf s f t) : u.row ∈ rowIndices s (par f 8 8) (par f 4 4)
    ∧ updateOf u s.fabric.view.self f.hdr.sessionId f.hdr.seq = true ∧ u.queued = false := by
  obtain ⟨p, hp, rfl⟩ := List.mem_map.mp hu
  exact ⟨List.fst_mem_of_mem_zipIdx hp, by simp [updateOf], rfl⟩

theorem eraseDups_of_const {l : List Nat} {a : Nat} (hne : l ≠ []) (ha : ∀ x ∈ l, x = a) : l.eraseDups = [a] := by
  cases l with
  | nil => exact absurd rfl hne
  | cons x l =>
    obtain ⟨rfl, hl⟩ := List.forall_mem_cons.mp ha
    have hrest : l.filter (fun b => !b == x) = [] := List.filter_eq_nil_iff.mpr fun b hb => by simp [hl b hb]
    rw [List.eraseDups_cons, hrest, List.eraseDups_nil]

theorem origin_of_not_fromPeer (hp : fromPeer f = false) : ∃ ring, f.origin = .host ring := by
  cases ho : f.origin with
  | host ring => exact ⟨ring, rfl⟩
  | peer m key => simp [fromPeer, ho] at hp

/-- The state with a command's updates kept at their owner, not yet committed, R250. -/
def withUpdates (us : List RowUpdate) (s : State) : State := { s with tables := { s.tables with updates := s.tables.updates ++ us } }

/-- Updates once their command has committed. -/
def queueAll (us : List RowUpdate) : List RowUpdate := us.map (fun u => { u with queued := true })

section RowsWrite

variable {us : List RowUpdate} (hold : ∀ v ∈ s.tables.updates, updateOf v s.fabric.view.self f.hdr.sessionId f.hdr.seq = false)
  (hus : ∀ u ∈ us, updateOf u s.fabric.view.self f.hdr.sessionId f.hdr.seq = true ∧ u.queued = false)
include hold hus

theorem filter_withUpdates :
    (s.tables.updates ++ us).filter (fun u => updateOf u s.fabric.view.self f.hdr.sessionId f.hdr.seq && !u.queued) = us := by
  have hnone : s.tables.updates.filter (fun u => updateOf u s.fabric.view.self f.hdr.sessionId f.hdr.seq && !u.queued) = [] :=
    List.filter_eq_nil_iff.mpr fun v hv => by simp [hold v hv]
  have hall : us.filter (fun u => updateOf u s.fabric.view.self f.hdr.sessionId f.hdr.seq && !u.queued) = us :=
    List.filter_eq_self.mpr fun u hu => by simp [hus u hu]
  rw [List.filter_append, hnone, hall, List.nil_append]

theorem map_withUpdates :
    (s.tables.updates ++ us).map (fun u => if updateOf u s.fabric.view.self f.hdr.sessionId f.hdr.seq then { u with queued := true } else u)
      = s.tables.updates ++ queueAll us := by
  rw [List.map_append]
  congr 1
  · exact (List.map_congr_left fun v hv => if_neg (by simp [hold v hv])).trans (List.map_id' _)
  · exact List.map_congr_left fun u hu => if_pos (hus u hu).1

/-- An owner writes the images of the command's updates and queues these, R247. -/
theorem rowsWriteRun_begins (hp : fromPeer f = false) (hne : us ≠ [])
    (hspace : spaceFail f.tenant (withUpdates us s) (writeImages us (withUpdates us s)) = none) :
    rowsWriteRun (withUpdates us s) f = .begun { writeImages us (withUpdates us s) with
      tables := { (writeImages us (withUpdates us s)).tables with updates := s.tables.updates ++ queueAll us } } := by
  obtain ⟨ring, ho⟩ := origin_of_not_fromPeer hp
  have htables : (writeImages us (withUpdates us s)).tables.updates = s.tables.updates ++ us :=
    congrArg TableSpace.updates (RowEvents.sameObjects_writeImages us (withUpdates us s)).tables
  have hmine : (withUpdates us s).tables.updates.filter
      (fun u => updateOf u (withUpdates us s).fabric.view.self f.hdr.sessionId f.hdr.seq && !u.queued) = us := filter_withUpdates hold hus
  have hany : us.isEmpty = false := by simp [hne]
  simp only [rowsWriteRun, ho, hmine, hany, Bool.false_eq_true, if_false, hspace, htables]
  rw [← map_withUpdates hold hus]
  rfl

end RowsWrite

theorem reaches_self (s : State) : reaches s s.fabric.view.self = true := by simp [reaches]

/-- A ROWS_WRITE at the module that alone holds the table begins there, R250. -/
theorem rowsWrite_begins (hf : flightOf s h = some f) (ho : f.op = .rowsWrite) (hm : mayRun s f = true) (hp : fromPeer f = false)
    (hc : rowsWriteCheck s f = none) (ht : tableOf s (par f 0 4) = some t) (hs : t.shard = [s.fabric.view.self]) (hr : s.fabric.view.rights = .full)
    (hold : ∀ v ∈ s.tables.updates, updateOf v s.fabric.view.self f.hdr.sessionId f.hdr.seq = false) (hl : lockedAny s (rowsWriteCommand.writes s f) = false)
    (hspace : spaceFail f.tenant (withUpdates (updatesOf s f t) s) (writeImages (updatesOf s f t) (withUpdates (updatesOf s f t) s)) = none) :
    rowsWrite h s = setFlight { f with running := true } { writeImages (updatesOf s f t) (withUpdates (updatesOf s f t) s) with
      tables := { (writeImages (updatesOf s f t) (withUpdates (updatesOf s f t) s)).tables with
        updates := s.tables.updates ++ queueAll (updatesOf s f t) } } := by
  obtain ⟨hcount, hrows⟩ := rows_of_rowsWriteCheck hc ht
  have hne : updatesOf s f t ≠ [] := updatesOf_ne_nil hcount
  have hown : ∀ u ∈ updatesOf s f t, ownerOf t u.row = s.fabric.view.self := fun u hu =>
    RowSlots.ownerOf_alone hs (hrows _ (mem_updatesOf hu).1)
  have howners : sortBy Nat.ble (((updatesOf s f t).map (fun u => ownerOf t u.row)).eraseDups) = [s.fabric.view.self] := by
    rw [eraseDups_of_const (by simpa using hne) (by simpa using hown)]
    rfl
  have hkept : sendUpdates f t (updatesOf s f t) s s.fabric.view.self = withUpdates (updatesOf s f t) s := by
    have hmine : (updatesOf s f t).filter (fun u => ownerOf t u.row == s.fabric.view.self) = updatesOf s f t :=
      List.filter_eq_self.mpr fun u hu => by simp [hown u hu]
    rw [sendUpdates, hmine, if_pos rfl, withUpdates]
  have hrun := rowsWriteRun_begins hold (fun u hu => (mem_updatesOf hu).2) hp hne hspace
  simp only [rowsWrite, hf, ho, hm, hc, ht, howners, hr, hl, hkept, hrun, reaches_self, List.find?_cons, List.find?_nil, List.foldl_cons, List.foldl_nil,
    ne_eq, not_true_eq_false, Bool.true_eq_false, or_self, if_false, reduceCtorEq, false_and, Bool.not_true, Bool.and_false, Bool.false_eq_true, if_true]

/-! ### The rows -/

/-- Settles O38: each command by what its run comes to. That other modules are told of a table created, dropped or given a policy (log entry 64), and that under AUTO
the hot set that stood stays until the first window ends (log entry 38), are the model's choice. -/
theorem tableCommandsComplete : Obligations.TableCommandsComplete := by
  unfold Obligations.TableCommandsComplete
  refine ⟨?_, ?_, ?_, ?_, ?_, ?_⟩
  · intro s s1 s2 h slots headers f hr hs _ hcontent h1 h2
    obtain ⟨_, _, _, _, _, hc, _, _⟩ := id hr
    obtain ⟨hlt, hfree⟩ := freeId_free (length_tables_of_check hc) (drawFree s).1
    have hunused : khas s.tables.tables (freeId (kkeys s.tables.tables) (drawFree s).1) = false := by
      rw [khas, kget_none_of_not_mem _ _ hfree]
      rfl
    exact ⟨_, _, hlt, hunused, tableOf_setTable_self _ _ _, fun j hj => tableOf_setTable_ne _ _ hj, rfl, rfl, rfl,
      execCommand_announces hr (.inr hs) (tableCreateRun_alone hs hcontent rfl hunused h1 h2)⟩
  · intro s h f t hr ht hh
    exact ⟨_, execAt_announces hr hh rfl, releaseTable_effect ht⟩
  · intro s s1 h f t fetched got hr ht hg hw
    exact execEntry_commits hr rfl (rowsReadCommand_run ht hg hw)
  · intro s s1 h f t fetched got hr ht hg hn hw
    obtain ⟨u, r, hrun, heffect⟩ := bagCommit_done (b := bagsOf f t) hw
    exact ⟨u, r, execEntry_commits hr rfl ((bagLookupCommand_run ht hg hn).trans hrun), heffect⟩
  · intro s s0 s1 h area f t hr hh ht h0 h1 hin hout
    have hholders : fromPeer f = true ∨ tableShard s f = [s.fabric.view.self] := hh.imp_right fun hs => by rw [tableShard, ht]; exact hs
    refine ⟨policyTable s f t area, policyRows s f t area, _, execAt_announces hr hholders (hotPolicyCommand_run ht h0 h1 hin hout), rfl,
      rfl, rfl, rfl, rfl, rfl, rfl, rfl, rfl, rfl, rfl, rfl, List.length_take_le _ _, fun hoff => ⟨policyRows_off hoff, if_pos hoff⟩⟩
  · rintro s _ h f t hf ho hm hp hc ht hs hr hold hl rfl hspace
    exact congrArg (nextOf s) (rowsWrite_begins hf ho hm hp hc ht hs hr hold hl hspace)

end Sys2Proof.TableCommands

namespace Sys2Proof.IndexMutations

open Sys2Proof Sys2Proof.Machine

variable {x : VecIndex} {v : StoredVec} {d i : Nat}

/-! ### What is live now -/

/-- No sequence number of a shard lies above its MSEQ, R289. -/
structure SeqsWithin (x : VecIndex) : Prop where
  side : ∀ v ∈ x.side, v.seq ≤ x.mseq
  tombs : ∀ t ∈ x.tombs, t.2 ≤ x.mseq

/-- A main-list vector lives where its ID has no tombstone, R290. -/
theorem mainLive_iff (hx : SeqsWithin x) : mainLive x x.mseq v = true ↔ ∀ t ∈ x.tombs, t.1 ≠ v.id := by
  rw [mainLive, Bool.not_eq_true', List.any_eq_false]
  exact forall₂_congr fun t ht => by simp [hx.tombs t ht]

/-- A side entry lives where its ID has no later tombstone, R290. -/
theorem sideLive_iff (hx : SeqsWithin x) (hv : v ∈ x.side) : sideLive x x.mseq v = true ↔ ∀ t ∈ x.tombs, t.1 = v.id → t.2 ≤ v.seq := by
  rw [sideLive, decide_eq_true (hx.side v hv), Bool.true_and, Bool.not_eq_true', List.any_eq_false]
  exact forall₂_congr fun t ht => by simp [hx.tombs t ht]

/-- An ID is live where one of its vectors is. -/
theorem liveNow_iff (hx : SeqsWithin x) : liveNow x i = true ↔
    (∃ v ∈ x.main, v.id = i ∧ ∀ t ∈ x.tombs, t.1 ≠ i) ∨ ∃ v ∈ x.side, v.id = i ∧ ∀ t ∈ x.tombs, t.1 = i → t.2 ≤ v.seq := by
  simp only [liveNow, Bool.or_eq_true, List.any_eq_true, Bool.and_eq_true, beq_iff_eq, mainLive_iff hx]
  refine or_congr (exists_congr fun v => and_congr_right fun _ => and_congr_right fun hid => by rw [hid]) ?_
  exact exists_congr fun v => and_congr_right fun hv => and_congr_right fun hid => by rw [sideLive_iff hx hv, hid]

/-! ### Deletes -/

theorem applyDelete_of_dead (h : liveNow x d = false) : applyDelete x d = x := by simp [applyDelete, h]

theorem applyDelete_of_live (h : liveNow x d = true) :
    applyDelete x d = { x with tombs := x.tombs ++ [(d, x.mseq + 1)], mseq := x.mseq + 1 } := by simp [applyDelete, h]

theorem seqsWithin_applyDelete (hx : SeqsWithin x) (d : Nat) : SeqsWithin (applyDelete x d) := by
  cases h : liveNow x d with
  | false => rwa [applyDelete_of_dead h]
  | true =>
    rw [applyDelete_of_live h]
    refine ⟨fun v hv => (hx.side v hv).trans (Nat.le_succ _), fun t ht => ?_⟩
    rcases List.mem_append.mp ht with hold | hnew
    · exact (hx.tombs t hold).trans (Nat.le_succ _)
    · rw [List.mem_singleton.mp hnew]

/-- A delete's tombstone stands after every vector of its ID, R289. -/
theorem liveNow_applyDelete_self (hx : SeqsWithin x) : liveNow (applyDelete x d) d = false := by
  cases h : liveNow x d with
  | false => rwa [applyDelete_of_dead h]
  | true =>
    rw [← Bool.not_eq_true, liveNow_iff (seqsWithin_applyDelete hx d), applyDelete_of_live h]
    have hmem : (d, x.mseq + 1) ∈ x.tombs ++ [(d, x.mseq + 1)] := by simp
    rintro (⟨v, _, _, hnone⟩ | ⟨v, hv, _, hlast⟩)
    · exact hnone _ hmem rfl
    · exact absurd (hlast _ hmem rfl) (Nat.not_le.mpr (Nat.lt_succ_of_le (hx.side v hv)))

theorem liveNow_applyDelete_ne (hx : SeqsWithin x) (hi : i ≠ d) : liveNow (applyDelete x d) i = liveNow x i := by
  cases h : liveNow x d with
  | false => rw [applyDelete_of_dead h]
  | true =>
    rw [Bool.eq_iff_iff, liveNow_iff (seqsWithin_applyDelete hx d), liveNow_iff hx, applyDelete_of_live h]
    simp [or_imp, forall_and, hi.symm]

/-! ### Inserts -/

/-- A shard with one more side entry, at the next sequence number, R289. -/
def withEntry (x : VecIndex) (v : StoredVec) : VecIndex :=
  { x with side := x.side ++ [{ v with seq := x.mseq + 1 }], mseq := x.mseq + 1 }

/-- An insert deletes what it replaces and adds its entry, R289. -/
theorem applyInsert_eq (x : VecIndex) (v : StoredVec) : applyInsert x v
    = withEntry (applyDelete x v.id) { v with list := if v.list = 0xFFFFFFFF then (assignList x v.vec).1 else v.list } := by
  cases h : liveNow x v.id with
  | false => simp [applyInsert, applyDelete_of_dead h, h, withEntry]
  | true => simp [applyInsert, applyDelete_of_live h, h, withEntry]

theorem seqsWithin_withEntry (hx : SeqsWithin x) (v : StoredVec) : SeqsWithin (withEntry x v) := by
  refine ⟨fun w hw => ?_, fun t ht => (hx.tombs t ht).trans (Nat.le_succ _)⟩
  rcases List.mem_append.mp hw with hold | hnew
  · exact (hx.side w hold).trans (Nat.le_succ _)
  · rw [List.mem_singleton.mp hnew]
    exact le_rfl

theorem liveNow_withEntry_self (hx : SeqsWithin x) : liveNow (withEntry x v) v.id = true :=
  (liveNow_iff (seqsWithin_withEntry hx v)).mpr
    (.inr ⟨_, List.mem_append_right _ (List.mem_singleton_self _), rfl, fun t ht _ => (hx.tombs t ht).trans (Nat.le_succ _)⟩)

theorem liveNow_withEntry_ne (hx : SeqsWithin x) (hi : i ≠ v.id) : liveNow (withEntry x v) i = liveNow x i := by
  rw [Bool.eq_iff_iff, liveNow_iff (seqsWithin_withEntry hx v), liveNow_iff hx]
  simp [withEntry, or_and_right, exists_or, hi.symm]

theorem seqsWithin_applyInsert (hx : SeqsWithin x) (v : StoredVec) : SeqsWithin (applyInsert x v) := by
  rw [applyInsert_eq]
  exact seqsWithin_withEntry (seqsWithin_applyDelete hx v.id) _

theorem liveNow_applyInsert_self (hx : SeqsWithin x) : liveNow (applyInsert x v) v.id = true := by
  rw [applyInsert_eq]
  exact liveNow_withEntry_self (seqsWithin_applyDelete hx v.id)

theorem liveNow_applyInsert_ne (hx : SeqsWithin x) (hi : i ≠ v.id) : liveNow (applyInsert x v) i = liveNow x i := by
  rw [applyInsert_eq, ← liveNow_applyDelete_ne hx hi]
  exact liveNow_withEntry_ne (seqsWithin_applyDelete hx v.id) hi

/-! ### Merges -/

theorem mergedIndex_side (hx : SeqsWithin x) : (mergedIndex x x.mseq).side = [] :=
  List.filter_eq_nil_iff.mpr fun v hv => by simpa using hx.side v hv

theorem mergedIndex_tombs (hx : SeqsWithin x) : (mergedIndex x x.mseq).tombs = [] :=
  List.filter_eq_nil_iff.mpr fun t ht => by simpa using hx.tombs t ht

theorem seqsWithin_mergedIndex (hx : SeqsWithin x) : SeqsWithin (mergedIndex x x.mseq) :=
  ⟨by simp [mergedIndex_side hx], by simp [mergedIndex_tombs hx]⟩

/-- A merge at MSEQ keeps as main-list vectors the vectors that live, R295. -/
theorem liveNow_mergedIndex (hx : SeqsWithin x) : liveNow (mergedIndex x x.mseq) i = liveNow x i := by
  have hmain : (mergedIndex x x.mseq).main = x.main.filter (mainLive x x.mseq) ++ (x.side.filter (sideLive x x.mseq)).map (fun v => { v with seq := 0 }) := rfl
  have hlive : ∀ v, mainLive (mergedIndex x x.mseq) (mergedIndex x x.mseq).mseq v = true := fun v => by simp [mainLive, mergedIndex_tombs hx]
  simp [liveNow, hmain, mergedIndex_side hx, hlive, List.any_filter, Function.comp_def, Bool.and_comm]

/-- Settles O41: each mutation by what it leaves of a shard whose sequence numbers lie within MSEQ; an insert is a delete and one more entry. -/
theorem mutationsChangeLiveness : Obligations.MutationsChangeLiveness := by
  unfold Obligations.MutationsChangeLiveness
  intro x hside htombs
  have hx : SeqsWithin x := ⟨hside, htombs⟩
  refine ⟨fun v => ?_, fun d => ?_, fun i => liveNow_mergedIndex hx, mergedIndex_tombs hx, mergedIndex_side hx⟩
  · obtain ⟨hs, ht⟩ := seqsWithin_applyInsert hx v
    exact ⟨liveNow_applyInsert_self hx, fun i hi => liveNow_applyInsert_ne hx hi, hs, ht⟩
  · obtain ⟨hs, ht⟩ := seqsWithin_applyDelete hx d
    exact ⟨liveNow_applyDelete_self hx, fun i hi => liveNow_applyDelete_ne hx hi, hs, ht⟩

end Sys2Proof.IndexMutations

namespace Sys2Proof.IndexCommands

open Sys2Proof Sys2Proof.Machine Sys2Proof.Laws

variable {s s1 s2 s3 : State} {h : Nat} {f : Flight} {x x1 y y1 : VecIndex}

/-! ### Owners -/

/-- A module that alone holds an index owns all its vectors, R267. -/
theorem vecOwner_alone (m v : Nat) : vecOwner [m] v = m := by simp [vecOwner, nth, Nat.mod_one]

theorem ownersOf_alone {ids : List Nat} (m : Nat) (hne : ids ≠ []) : ownersOf [m] ids = [m] := by
  have howners : (ids.map (vecOwner [m])).eraseDups = [m] :=
    TableCommands.eraseDups_of_const (by simpa using hne) (by simp [vecOwner_alone])
  rw [ownersOf, howners]
  rfl

theorem indexShard_of (hx : indexOf s (par f 0 4) = some x) : indexShard s f = x.shard := by rw [indexShard, hx]; rfl

/-! ### Creating and dropping -/

/-- The checks of INDEX_CREATE pass only where an ID is free, R266. -/
theorem length_indexes_of_check (hc : indexCreateCheck s f = none) : (kkeys s.indexes.indexes).length < 4096 := by
  unfold indexCreateCheck at hc
  dsimp only at hc
  split at hc
  · cases hc
  · next hshape =>
    have hroom := Allocations.not_fails_of_firstFail hshape (failIf (decide (4096 ≤ s.indexes.indexes.length)
      || ((scopeModules s f.hdr).contains s.fabric.view.self
        && decide (64 ≤ (s.indexes.indexes.filter (fun p => p.2.shard.contains s.fabric.view.self)).length))) .tableFull 0) (by simp)
    rw [failIf, Bool.or_eq_false_iff, decide_eq_false_iff_not, not_le] at hroom
    rw [kkeys, List.length_map]
    exact hroom.1

/-- INDEX_CREATE on this module alone takes the storage of an empty index and records it under a free ID, R267, R268. -/
theorem indexCreate_run {id : Nat} (hs : scopeModules s f.hdr = [s.fabric.view.self]) (hc : f.content = none)
    (hid : freeId (kkeys s.indexes.indexes) (drawFree s).1 = id) (hfree : khas s.indexes.indexes id = false)
    (hfit : fitIndex (newIndex f [s.fabric.view.self] (centroidsOf s f)) (drawFree s).2 = .ok (x, s1)) :
    indexCreateCommand.run s f = .done (setIndex id x s1) (okReply (toLe 4 id ++ zeros 4)) := by
  have hshard : sortBy Nat.ble (scopeModules s f.hdr) = [s.fabric.view.self] := by rw [hs]; rfl
  have hmember : ¬ (newIndex f [s.fabric.view.self] (centroidsOf s f)).shard.contains s.fabric.view.self = false := by simp [newIndex]
  unfold indexCreateCommand
  -- As a variable the fitting stays folded: the kernel would spend its time on the lengths that it takes.
  generalize fitIndex = fit at hfit ⊢
  as_aux_lemma =>
    simp only [TableCommands.takeId_free hc, hid, hshard, hfree, hfit, if_neg hmember, Bool.false_eq_true, if_false]

/-- Releasing ranges of memory changes no index. -/
theorem foldl_releaseAlloc_indexes (len : State → Nat → Nat) (l : List Nat) (s : State) :
    (l.foldl (fun u a => releaseAlloc a (len u a) u) s).indexes = s.indexes := by
  induction l generalizing s with
  | nil => rfl
  | cons a l ih => exact ih _

/-- INDEX_DROP takes away the index and no other index or table, R271. -/
theorem releaseIndex_effect {id : Nat} (hx : indexOf s id = some x) : indexOf (releaseIndex id s) id = none
    ∧ (∀ j, j ≠ id → indexOf (releaseIndex id s) j = indexOf s j) ∧ (releaseIndex id s).tables = s.tables := by
  have hkeep := foldl_releaseAlloc_indexes (fun u a => ((kget u.tiers.allocs a).map (·.len)).getD 0) (x.t1 ++ x.vt) s
  simp only [releaseIndex, hx]
  refine ⟨kget_kdel_self _ _, fun j hj => ?_, TableCommands.foldl_releaseAlloc_tables _ _ s⟩
  simp only [indexOf, hkeep, kget_kdel_ne _ hj]

/-! ### Filling, changing and merging -/

theorem indexLoad_run (hx : indexOf s (par f 0 4) = some x) (hmain : x.main = []) (hside : x.side = []) (htombs : x.tombs = [])
    (hfit : fitIndex (rebuildLists (((recordsOf x (dataOf f (fun _ => loadContent s f))).map (·.list)).eraseDups)
      { x with main := recordsOf x (dataOf f (fun _ => loadContent s f)) }) s = .ok (x1, s1)) :
    indexLoadCommand.run s f = .done (setIndex (par f 0 4) x1 s1)
      (okReply (toLe 8 (recordsOf x (dataOf f (fun _ => loadContent s f))).length)) := by
  have hempty : (x.main.isEmpty && x.side.isEmpty && x.tombs.isEmpty) = true := by simp [hmain, hside, htombs]
  simp only [indexLoadCommand, hx, hempty, hfit, if_true]

/-- A mutation within the limits and the storage is kept, R299. -/
theorem mutate_fits {counts : Bytes} (hlim : overLimits y = false) (hfit : fitIndex y s = .ok (y1, s1)) :
    mutate f y counts s = .done (setIndex (par f 0 4) y1 s1) (okReply counts) := by
  simp only [mutate, hlim, hfit, Bool.false_eq_true, if_false]

/-- The 16 bytes that VEC_INSERT, VEC_DELETE and INDEX_MERGE return: three counts, R292, R293, R295. -/
def threeCounts (a b c : Nat) : Bytes := toLe 4 a ++ toLe 4 b ++ toLe 4 c ++ zeros 4

@[simp] theorem length_threeCounts (a b c : Nat) : (threeCounts a b c).length = 16 := by simp [threeCounts]

theorem fld_threeCounts_first (a b c : Nat) : fld (threeCounts a b c) 0 4 = a % 2 ^ 32 := by
  simp only [threeCounts, List.append_assoc]
  rw [fld_append_left _ _ _ _ (by simp), fld_toLe]
  norm_num

theorem fld_threeCounts_third (a b c : Nat) : fld (threeCounts a b c) 8 4 = c % 2 ^ 32 := by
  rw [threeCounts, fld_append_left _ _ _ _ (by simp), fld_append_right _ (toLe 4 c) 0 4 8 (by simp), fld_toLe]
  norm_num

theorem vecInsert_run {vs : List StoredVec} (hx : indexOf s (par f 0 4) = some x)
    (hvs : vs = recordsOf x (dataOf f (fun _ => insertContent s f s.fabric.view.self))) (hlim : overLimits ((lastOfIds vs).foldl applyInsert x) = false)
    (hfit : fitIndex ((lastOfIds vs).foldl applyInsert x)
      (bump .flushFp32 f.tenant (listSum (((lastOfIds vs).filter (fun v => v.list == 0xFFFFFFFF)).map (fun v => (assignList x v.vec).2))) s) = .ok (y1, s1)) :
    vecInsertCommand.run s f = .done (setIndex (par f 0 4) y1 s1)
      (okReply (threeCounts ((lastOfIds vs).length - ((lastOfIds vs).filter (fun v => liveNow x v.id)).length)
        ((lastOfIds vs).filter (fun v => liveNow x v.id)).length (vs.length - (lastOfIds vs).length))) := by
  simp only [vecInsertCommand, hx, ← hvs]
  exact mutate_fits hlim hfit

theorem vecDelete_run {ids : List Nat} (hx : indexOf s (par f 0 4) = some x) (hc : f.content = none)
    (hids : ids = (List.range ((deleteContent s f s.fabric.view.self).length / 8)).map (fun i => fld (deleteContent s f s.fabric.view.self) (8 * i) 8))
    (hlim : overLimits ((lastOnes ids).foldl applyDelete x) = false) (hfit : fitIndex ((lastOnes ids).foldl applyDelete x) s = .ok (y1, s1)) :
    vecDeleteCommand.run s f = .done (setIndex (par f 0 4) y1 s1)
      (okReply (threeCounts ((lastOnes ids).filter (liveNow x)).length
        ((lastOnes ids).length - ((lastOnes ids).filter (liveNow x)).length) (ids.length - (lastOnes ids).length))) := by
  simp only [vecDeleteCommand, hx, dataOf, hc, ← hids]
  exact mutate_fits hlim hfit

/-- A merge takes its new structures, then fits the merged shard, R295. -/
theorem indexMerge_run {a : Nat} {b : List Nat} (hx : indexOf s (par f 0 4) = some x) (hm : x.merging = none)
    (h1 : takeStorage x.tenant 1 x.codeDie (pageBytes (indexT1 x.vfmt x.dim 0
      ((mergedIndex x x.mseq).main.filter (fun v => (changedLists x x.mseq).contains v.list)).length 0 0)) s = .ok (a, s1))
    (h2 : resizeHold x.tenant x.vecTier 0xFF (pageBytes (vecPitch x.vfmt x.dim x.payLen * (x.side.filter (sideLive x x.mseq)).length)) [] s1 = .ok (b, s2))
    (h3 : fitIndex (rebuildLists (changedLists x x.mseq) (mergedIndex x x.mseq)) s = .ok (y1, s3)) :
    ∃ removed left, indexMergeRun s f = .done (setIndex (par f 0 4) y1 s3)
      (okReply (threeCounts (x.side.filter (sideLive x x.mseq)).length removed left)) := by
  unfold indexMergeRun
  -- As variables the operations on storage stay folded: the kernel would spend its time on the lengths that they take.
  generalize takeStorage = take at h1 ⊢
  generalize resizeHold = hold at h2 ⊢
  generalize fitIndex = fit at h3 ⊢
  as_aux_lemma =>
    simp only [hx, hm, Option.getD_none, h1, h2, h3]
    exact ⟨_, _, rfl⟩

/-! ### Counts that the checks ask for -/

/-- VEC_INSERT names at least one vector, R292. -/
theorem count_of_vecInsertCheck (hc : vecInsertCheck s f = none) : par f 4 4 ≠ 0 := by
  unfold vecInsertCheck at hc
  dsimp only at hc
  split at hc
  · cases hc
  · cases hc
  all_goals
    next hshape _ _ =>
    simpa [badParamIf] using Allocations.not_fails_of_firstFail hshape (badParamIf (par f 4 4 == 0) 4) (by simp)

/-- VEC_DELETE names at least one ID, R293. -/
theorem count_of_vecDeleteCheck (hc : vecDeleteCheck s f = none) : par f 4 4 ≠ 0 := by
  unfold vecDeleteCheck at hc
  dsimp only at hc
  split at hc
  · cases hc
  · next hshape =>
    simpa [badParamIf] using Allocations.not_fails_of_firstFail hshape (badParamIf (par f 4 4 == 0) 4) (by simp)

/-- INDEX_STATS names a shard of the index or all of them, R300. -/
theorem shard_of_indexStatsCheck (hc : indexStatsCommand.check s f = none) (hx : indexOf s (par f 0 4) = some x) (hp : fromPeer f = false) :
    par f 4 4 < x.shard.length ∨ par f 4 4 = 0xFFFFFFFF := by
  have hrange := Allocations.not_fails_of_firstFail hc
    (rangeIf (!fromPeer f && decide ((indexShard s f).length ≤ par f 4 4) && par f 4 4 != 0xFFFFFFFF) 4) (by simp)
  rw [rangeIf, indexShard_of hx, hp] at hrange
  simp at hrange
  omega

/-! ### Searching -/

/-- A SEARCH that has not begun and passes its checks begins, R280. -/
theorem searchRow_begins {payloads : List (Nat × Bytes)} (hf : flightOf s h = some f) (ho : f.op = .search) (hm : mayRun s f = true)
    (hc : searchCheck s f = none) (hx : indexOf s (par f 0 4) = some x) (hj : ∀ j ∈ s.indexes.jobs, j.serial ≠ h) :
    searchRow h payloads s = searchBegin f x payloads s := by
  have hnone : s.indexes.jobs.find? (fun j => j.serial == h) = none := List.find?_eq_none.mpr (by simpa using hj)
  simp only [searchRow, hf, ho, hnone, hx, hm, hc, ne_eq, not_true_eq_false, if_false, Bool.true_eq_false]

/-- A SEARCH on the module that alone holds its index ends with this shard's parts, R286, R297. -/
theorem searchBegin_alone {payloads : List (Nat × Bytes)} {own : List SearchPart × SearchWork} (hs : x.shard = [s.fabric.view.self])
    (hr : readsFail s ((List.range (par f 4 4)).map (fun j => (par f 16 8 + j * par f 24 4, queryLen x (par f 12 1)))) = none)
    (hown : own = ownParts s x (par f 12 1) (par f 8 4) 0 (queriesOf s f x)) (hmark : neededMark s x own.2.scanned.flatten = none)
    (hfin : bitOf (par f 48 8) 0 = true → ∀ q ∈ queriesOf s f x, nonFinite (par f 12 1) x.dim q = none) :
    searchBegin f x payloads s = settleVerdict f
      (searchDone f x ⟨f.serial, f.hdr.commandId, par f 0 4, [], own.1, [], own.2, [], [], []⟩ payloads (chargeHub 26 f.tenant s)) s := by
  have hmember : x.shard.contains s.fabric.view.self = true := by simp [hs]
  have hothers : x.shard.filter (· != s.fabric.view.self) = [] := by simp [hs]
  have hquiet : (if bitOf (par f 48 8) 0 = true then
      ((queriesOf s f x).zipIdx).findSome? (fun p => (nonFinite (par f 12 1) x.dim p.1).map (fun e => (p.2, e.1, e.2))) else none) = none := by
    refine ite_eq_right_iff.mpr fun htrap => List.findSome?_eq_none_iff.mpr fun p hp => ?_
    rw [hfin htrap p.1 (List.fst_mem_of_mem_zipIdx hp), Option.map_none]
  simp only [searchBegin, hr, hmember, if_true, ← hown, hmark, hquiet, hothers, List.find?_nil, ne_eq, not_true_eq_false, and_false, if_false,
    List.isEmpty_nil]

/-! ### The rows -/

/-- Settles O44: each command by what its run comes to. That other modules are told of an index created or dropped (log entry 64), that a merge alone takes its snapshot
and commits at one step (log entry 36) and where the storage of a shard stands (log entries 35, 81) are the model's choice. -/
theorem indexCommandsComplete : Obligations.IndexCommandsComplete := by
  unfold Obligations.IndexCommandsComplete
  refine ⟨?_, ?_, ?_, ?_, ?_, ?_, ?_, ?_⟩
  · intro s s1 h f x hr hs _ hcontent hfit
    obtain ⟨_, _, _, _, _, hc, _, _⟩ := id hr
    obtain ⟨hlt, hfree⟩ := TableCommands.freeId_free (length_indexes_of_check hc) (drawFree s).1
    have hunused : khas s.indexes.indexes (freeId (kkeys s.indexes.indexes) (drawFree s).1) = false := by
      rw [khas, kget_none_of_not_mem _ _ hfree]
      rfl
    exact ⟨_, hlt, hunused, execCommand_announces hr (.inr hs) (indexCreate_run hs hcontent rfl hunused hfit)⟩
  · intro s h f x hr hx hh
    exact ⟨_, execAt_announces hr hh rfl, releaseIndex_effect hx⟩
  · intro s s1 h f x x1 hr hx hs hshard hmain hside htombs hfit
    have howner : [nth (indexShard s f) (par f 4 4)] = [s.fabric.view.self] := by rw [indexShard_of hx, hs, hshard]; rfl
    exact execAt_commits hr (.inr howner) rfl (indexLoad_run hx hmain hside htombs hfit)
  · rintro s s1 h f x _ y1 vs hr hx hs hvs rfl hlim hfit
    obtain ⟨_, _, _, _, _, hc, _, _⟩ := id hr
    have hrun := vecInsert_run hx hvs hlim hfit
    have howners : ownersOf (indexShard s f) ((List.range (par f 4 4)).map (fun i => leNat (memRead s (par f 8 8 + 8 * i) 8)))
        = [s.fabric.view.self] := by
      rw [indexShard_of hx, hs, ownersOf_alone _ (by simpa using count_of_vecInsertCheck hc)]
    exact ⟨_, execAt_commits hr (.inr howners) rfl hrun, rfl, length_threeCounts _ _ _, fld_threeCounts_third _ _ _⟩
  · rintro s s1 h f x _ y1 ids hr hx hs _ hcontent hids rfl hlim hfit
    obtain ⟨_, _, _, _, _, hc, _, _⟩ := id hr
    have hrun := vecDelete_run hx hcontent hids hlim hfit
    have howners : ownersOf (indexShard s f) (deleteIds s f) = [s.fabric.view.self] := by
      rw [indexShard_of hx, hs, ownersOf_alone _ (by simpa [deleteIds] using count_of_vecDeleteCheck hc)]
    exact ⟨_, execAt_commits hr (.inr howners) rfl hrun, rfl, length_threeCounts _ _ _⟩
  · intro s s1 s2 s3 h a b f x y1 hr hx hs hm h1 h2 h3
    obtain ⟨removed, left, hrun⟩ := indexMerge_run hx hm h1 h2 h3
    exact ⟨_, execAt_commits hr (.inr ((indexShard_of hx).trans hs)) rfl hrun, rfl, fld_threeCounts_first _ _ _⟩
  · intro s u h f x own r payloads hf ho hm hc hx hs hj hreads hown hmark hfin hdone
    have hrow : searchRow h payloads s = finish f r (endWork f.serial 3 0 u) := by
      rw [searchRow_begins hf ho hm hc hx hj, searchBegin_alone hs hreads hown hmark hfin, hdone]
      rfl
    exact congrArg (nextOf s) hrow
  · intro s h f x hr hx hs
    obtain ⟨_, _, _, _, _, hc, _, _⟩ := id hr
    have hholder : fromPeer f = true
        ∨ (if par f 4 4 = 0xFFFFFFFF then indexShard s f else [nth (indexShard s f) (par f 4 4)]) = [s.fabric.view.self] := by
      refine (Bool.eq_false_or_eq_true (fromPeer f)).imp_right fun hp => ?_
      rw [indexShard_of hx, hs]
      split
      · rfl
      · next hone =>
        have hlt := (shard_of_indexStatsCheck hc hx hp).resolve_right hone
        rw [hs, List.length_singleton, Nat.lt_one_iff] at hlt
        rw [hlt]
        rfl
    exact execAt_commits hr hholder rfl (by simp only [indexStatsCommand, hx])

end Sys2Proof.IndexCommands

namespace Sys2Proof.SelectionCommands

open Sys2Proof Sys2Proof.Machine Sys2Proof.Laws

variable {s s1 u : State} {h peer : Nat} {f : Flight} {plain : Bytes} {m : Msg} {x : VecIndex}

/-! ### How many entries a selection chooses -/

theorem selByte_lt (p code : Nat) : selByte p code < 256 := Nat.mod_lt _ (by decide)

/-- No bucket above the threshold has `r` candidates in it and above, R307. -/
theorem count_above_threshold {p r b : Nat} {cand : List SelEntry} (hb : selThreshold p r cand < b) (hlt : b < 256) :
    (cand.filter (fun e => decide (b ≤ selByte p e.code))).length < r := by
  unfold selThreshold at hb
  cases hfind : (List.range 256).reverse.find? (fun b => decide (r ≤ (cand.filter (fun e => decide (b ≤ selByte p e.code))).length)) with
  | none => simpa using List.find?_eq_none.mp hfind b (by simpa using hlt)
  | some t =>
    rw [hfind, Option.getD_some] at hb
    obtain ⟨-, above, below, hsplit, hfails⟩ := List.find?_eq_some_iff_append.mp hfind
    have hfalling : (above ++ t :: below).Pairwise (· > ·) := hsplit ▸ List.pairwise_reverse.mpr List.pairwise_lt_range
    have hmem : b ∈ above ++ t :: below := hsplit ▸ List.mem_reverse.mpr (List.mem_range.mpr hlt)
    rcases List.mem_append.mp hmem with hab | hrest
    · simpa using hfails b hab
    · have hle : b ≤ t := by
        rcases List.mem_cons.mp hrest with rfl | hbelow
        · exact le_rfl
        · exact (List.rel_of_pairwise_cons (List.pairwise_append.mp hfalling).2.1 hbelow).le
      omega

/-- At most `r` candidates lie above the threshold, R307. -/
theorem length_above_threshold (p r : Nat) (cand : List SelEntry) :
    (cand.filter (fun e => decide (selThreshold p r cand < selByte p e.code))).length ≤ r := by
  rcases Nat.lt_or_ge (selThreshold p r cand + 1) 256 with hlt | hge
  · exact (count_above_threshold (Nat.lt_succ_self _) hlt).le
  · have hnone : cand.filter (fun e => decide (selThreshold p r cand < selByte p e.code)) = [] :=
      List.filter_eq_nil_iff.mpr fun e _ => by have := selByte_lt p e.code; simp; omega
    simp [hnone]

theorem length_selPasses (p r left : Nat) (acc cand : List SelEntry) : (selPasses p r acc cand left).chosen.length ≤ acc.length + r := by
  induction left generalizing p r acc cand with
  | zero =>
    rw [selPasses, List.length_append]
    exact Nat.add_le_add_left (List.length_take_le _ _) _
  | succ left ih =>
    have habove := length_above_threshold p r cand
    unfold selPasses
    dsimp only
    split
    · next hfull =>
      simp only [List.length_append]
      omega
    · refine (ih _ _ _ _).trans ?_
      rw [List.length_append]
      omega

/-- A selection chooses at most K entries, R307. -/
theorem length_selectEntries (passes k : Nat) (valid : List SelEntry) : (selectEntries passes k valid).chosen.length ≤ k := by
  unfold selectEntries
  dsimp only
  split
  · next hfew => exact hfew
  · simpa using length_selPasses 0 k passes [] (sortBy (fun a b => Nat.ble a.pos b.pos) valid)

@[simp] theorem length_selOrder (byPos : Bool) (l : List SelEntry) : (selOrder byPos l).length = l.length := by
  unfold selOrder
  split <;> exact RowEvents.length_sortBy _ _

/-- A merge writes at most K entries, R316. -/
theorem length_mergeLists (kt k : Nat) (least byPos tieId : Bool) (lists : List (List MergeEntry)) :
    (mergeLists kt k least byPos tieId lists).result.length ≤ k := by
  unfold mergeLists
  refine (List.length_filterMap_le _ _).trans ?_
  rw [length_selOrder]
  exact length_selectEntries _ _ _

/-! ### What counting, charging and hearing leave as it is -/

@[simp] theorem countSelections_tiers (tenant passes keys sentinels : Nat) (l : List Selected) (s : State) :
    (countSelections tenant passes keys sentinels l s).tiers = s.tiers := by
  simp only [countSelections, bump_tiers]

@[simp] theorem countSelections_proto (tenant passes keys sentinels : Nat) (l : List Selected) (s : State) :
    (countSelections tenant passes keys sentinels l s).proto = s.proto := by
  simp only [countSelections, bump_proto]

@[simp] theorem countMerge_tiers (tenant kt entries sentinels : Nat) (m : Merged) (s : State) : (countMerge tenant kt entries sentinels m s).tiers = s.tiers := by
  simp only [countMerge, countSelections, bump_tiers]

@[simp] theorem countMerge_host (tenant kt entries sentinels : Nat) (m : Merged) (s : State) : (countMerge tenant kt entries sentinels m s).host = s.host := by
  simp only [countMerge, countSelections, bump_host]

@[simp] theorem countMerge_indexes (tenant kt entries sentinels : Nat) (m : Merged) (s : State) :
    (countMerge tenant kt entries sentinels m s).indexes = s.indexes := by
  simp only [countMerge, countSelections, bump_indexes]

@[simp] theorem mismatchEvent_tiers (f : Flight) (m : Merged) (s : State) : (mismatchEvent f m s).tiers = s.tiers := by
  unfold mismatchEvent
  split <;> simp

/-- Without a mismatch there is no event, R317. -/
theorem mismatchEvent_none {m : Merged} (hm : m.mismatches = []) (f : Flight) (s : State) : mismatchEvent f m s = s := by
  simp [mismatchEvent, mismatchReply, hm]

theorem sameObjects_chargeHub (domain tenant : Nat) (s : State) : RowEvents.SameObjects s (chargeHub domain tenant s) := by
  have hwake : RowEvents.SameObjects s (wakeHub domain s) := by
    unfold wakeHub
    dsimp only
    split <;> exact ⟨rfl, rfl, rfl, rfl, rfl⟩
  exact hwake.trans ⟨rfl, rfl, rfl, rfl, rfl⟩

@[simp] theorem heardFrom_proto (peer : Nat) (s : State) : (heardFrom peer s).proto = s.proto := by
  simp only [heardFrom]
  split <;> rfl

@[simp] theorem heardFrom_indexes (peer : Nat) (s : State) : (heardFrom peer s).indexes = s.indexes := by
  simp only [heardFrom]
  split <;> rfl

@[simp] theorem flightOf_heardFrom (peer : Nat) (s : State) (h : Nat) : flightOf (heardFrom peer s) h = flightOf s h := by
  rw [flightOf, heardFrom_proto, flightOf]

@[simp] theorem indexOf_heardFrom (peer : Nat) (s : State) (id : Nat) : indexOf (heardFrom peer s) id = indexOf s id := by
  rw [indexOf, heardFrom_indexes, indexOf]

@[simp] theorem keepServed_proto (v : ServedSearch) (s : State) : (keepServed v s).proto = s.proto := rfl

@[simp] theorem keepServed_tables (v : ServedSearch) (s : State) : (keepServed v s).tables = s.tables := rfl

@[simp] theorem keepServed_indexes (v : ServedSearch) (s : State) : (keepServed v s).indexes.indexes = s.indexes.indexes := rfl

/-! ### Selecting -/

/-- The rows that a SELECT_TOPK selects. -/
def topkRows (s : State) (f : Flight) : List (Nat × TopkRow) := (List.range (par f 0 4)).map (fun j => (j, topkRow s f j))

/-- The payload reads of a SELECT_TOPK, R312. -/
def topkPayloads (f : Flight) (out : List (Nat × TopkRow)) : List (Nat × Nat) :=
  out.flatMap (fun r => r.2.written.map (fun e => (par f 48 8 + (r.1 * par f 8 8 + e.src) * par f 64 4, par f 68 2)))

/-- The writes of a SELECT_TOPK, R309, R311, R312. -/
def topkWrites (s : State) (f : Flight) (out : List (Nat × TopkRow)) : List WriteRun :=
  out.map (fun r => (par f 32 8 + r.1 * par f 4 4 * 16,
      r.2.written.flatMap (fun e => selEntryBytes e.src (nth r.2.keys e.src) 0)
        ++ (List.replicate (par f 4 4 - r.2.written.length) (selSentinel (par f 70 1) (bitOf (par f 71 1) 0))).flatten))
    ++ (if par f 40 8 = 0 then [] else out.map (fun r => (par f 40 8 + 8 * r.1, toLe 4 r.2.valid ++ toLe 4 r.2.sel.ties)))
    ++ (if bitOf (par f 71 1) 2 then out.map (fun r => (par f 56 8 + r.1 * par f 4 4 * par f 68 2,
        r.2.written.flatMap (fun e => memRead s (par f 48 8 + (r.1 * par f 8 8 + e.src) * par f 64 4) (par f 68 2))
          ++ zeros ((par f 4 4 - r.2.written.length) * par f 68 2))) else [])

/-- The valid entries that a SELECT_TOPK writes. -/
def topkWritten (out : List (Nat × TopkRow)) : Nat := listSum (out.map (fun r => r.2.written.length))

/-- The rows of a SELECT_TOPK with fewer than K valid entries. -/
def topkShort (f : Flight) (out : List (Nat × TopkRow)) : Nat := (out.filter (fun r => decide (r.2.valid < par f 4 4))).length

/-- The NaN keys that a SELECT_TOPK leaves out, R313. -/
def topkNans (f : Flight) (out : List (Nat × TopkRow)) : Nat := par f 0 4 * par f 8 8 - listSum (out.map (fun r => r.2.valid))

/-- A SELECT_TOPK is counted, R322. -/
def countTopk (f : Flight) (out : List (Nat × TopkRow)) (s : State) : State :=
  bump .nanExcluded f.tenant (topkNans f out) (countSelections f.tenant (keyPasses (par f 70 1)) (par f 0 4 * par f 8 8)
    (par f 0 4 * par f 4 4 - topkWritten out) (out.map (fun r => r.2.sel)) s)

@[simp] theorem countTopk_mem (f : Flight) (out : List (Nat × TopkRow)) (s : State) : (countTopk f out s).mem = s.mem := by
  simp only [countTopk, bump_mem, Canonical.countSelections_mem]

@[simp] theorem countTopk_tiers (f : Flight) (out : List (Nat × TopkRow)) (s : State) : (countTopk f out s).tiers = s.tiers := by
  simp only [countTopk, bump_tiers, countSelections_tiers]

@[simp] theorem countTopk_proto (f : Flight) (out : List (Nat × TopkRow)) (s : State) : (countTopk f out s).proto = s.proto := by
  simp only [countTopk, bump_proto, countSelections_proto]

/-- What a SELECT_TOPK answers, R311. -/
def topkReply (f : Flight) (out : List (Nat × TopkRow)) : Reply :=
  selectReply (topkWritten out) (topkShort f out) (toLe 8 (topkWritten out) ++ toLe 8 (topkNans f out) ++ toLe 4 (topkShort f out)
    ++ toLe 4 (out.filter (fun r => decide (0 < r.2.sel.ties))).length)

theorem topkReply_written (f : Flight) (out : List (Nat × TopkRow)) : fld (topkReply f out).result 0 8 = topkWritten out % 2 ^ 64 := by
  simp only [topkReply, selectReply, List.append_assoc]
  rw [fld_append_left _ _ _ _ (by simp), fld_toLe]
  norm_num

theorem topkReply_status (f : Flight) (out : List (Nat × TopkRow)) :
    (topkReply f out).status = if out.all (fun r => decide (par f 4 4 ≤ r.2.valid)) then .ok else .okPartial := by
  have hfull : topkShort f out = 0 ↔ out.all (fun r => decide (par f 4 4 ≤ r.2.valid)) = true := by
    simp [topkShort, List.filter_eq_nil_iff]
  simp only [topkReply, selectReply, hfull]

/-- A SELECT_TOPK whose inputs can be read, without a NaN that it traps, writes what it selects and commits, R311, R313. -/
theorem topkRun_done
    (hr : readsFail s ((List.range (par f 0 4)).map (fun j => (par f 16 8 + j * par f 24 8, par f 8 8 * keyWidth (par f 70 1)))) = none)
    (hn : bitOf (par f 72 8) 0 = true → ∀ r ∈ topkRows s f, ∀ c ∈ r.2.keys, keyNan (par f 70 1) c = false)
    (hp : bitOf (par f 71 1) 2 = true → readsFail s (topkPayloads f (topkRows s f)) = none)
    (hw : commitWrites (some f.serial) f.tenant (topkWrites s f (topkRows s f)) 0 (chargeHub 26 f.tenant s) = .done s1) :
    topkRun s f = .done (countTopk f (topkRows s f) s1) (topkReply f (topkRows s f)) := by
  have hquiet : (if bitOf (par f 72 8) 0 = true then (topkRows s f).findSome? (fun r =>
      ((r.2.keys.zipIdx).find? (fun p => keyNan (par f 70 1) p.1)).map (fun p => (r.1, p.2, p.1))) else none) = none := by
    refine ite_eq_right_iff.mpr fun htrap => List.findSome?_eq_none_iff.mpr fun r hmem => ?_
    rw [List.find?_eq_none.mpr fun p hp => by simp [hn htrap r hmem p.1 (List.fst_mem_of_mem_zipIdx hp)], Option.map_none]
  have hpays : readsFail s (if bitOf (par f 71 1) 2 = true then topkPayloads f (topkRows s f) else []) = none := by
    split
    · next hpay => exact hp hpay
    · rfl
  simp only [topkRows, topkPayloads] at hquiet hpays
  simp only [topkRun, hr, hquiet, hpays]
  exact MemoryCommands.commitVerdict_done hw

/-! ### Merging -/

/-- What a SELECT_MERGE comes to, R315, R316. -/
def mergedOf (s : State) (f : Flight) : Merged :=
  mergeLists (par f 34 1) (par f 4 4) (bitOf (par f 35 1) 0) (bitOf (par f 35 1) 1) (bitOf (par f 35 1) 3) (mergeInput s f)

/-- The address of an entry's payload, R314. -/
def mergePayload (s : State) (f : Flight) (e : MergeEntry) : Nat :=
  (((mergeDescs s f)[e.list]?).map (·.2.2.1)).getD 0 + e.place * par f 32 2

/-- The writes of a SELECT_MERGE, R309, R316. -/
def mergeWrites (s : State) (f : Flight) (m : Merged) : List WriteRun :=
  [(par f 16 8, m.result.flatMap (fun e => selEntryBytes e.id e.key (e.info % 2 ^ 31))
      ++ (List.replicate (par f 4 4 - m.result.length) (selSentinel (par f 34 1) (bitOf (par f 35 1) 0))).flatten)]
    ++ (if bitOf (par f 35 1) 2 then [(par f 24 8, m.result.flatMap (fun e => memRead s (mergePayload s f e) (par f 32 2))
        ++ zeros ((par f 4 4 - m.result.length) * par f 32 2))] else [])

theorem selectReply_status (w : Nat) (short : Prop) [Decidable short] (b : Bytes) :
    (selectReply w (b2n (decide short)) b).status = if short then .okPartial else .ok := by
  by_cases h : short <;> simp [selectReply, b2n, h]

/-- A SELECT_MERGE without a NaN that it traps, whose payloads can be read, writes the merged entries and commits, R316, R319. -/
theorem mergeRun_done
    (hn : bitOf (par f 40 8) 0 = true → ∀ e ∈ (mergeInput s f).flatten, isSentinel e = false → keyNan (par f 34 1) e.key = false)
    (hp : bitOf (par f 35 1) 2 = true → readsFail s ((mergedOf s f).result.map (fun e => (mergePayload s f e, par f 32 2))) = none)
    (hw : commitWrites (some f.serial) f.tenant (mergeWrites s f (mergedOf s f)) 0 (chargeHub 26 f.tenant s) = .done s1) :
    mergeRun s f = .done (mismatchEvent f (mergedOf s f) (countMerge f.tenant (par f 34 1) (mergeInput s f).flatten.length
        (par f 4 4 - (mergedOf s f).result.length) (mergedOf s f) s1))
      (selectReply (mergedOf s f).result.length (b2n (decide ((mergedOf s f).valid < par f 4 4))) (mergeCounts (mergedOf s f))) := by
  have hquiet : (if bitOf (par f 40 8) 0 = true then (mergeInput s f).flatten.find? (fun e => !isSentinel e && keyNan (par f 34 1) e.key) else none)
      = none := by
    refine ite_eq_right_iff.mpr fun htrap => List.find?_eq_none.mpr fun e he => ?_
    cases hsent : isSentinel e with
    | true => simp
    | false => simp [hn htrap e he hsent]
  have hpays : (if bitOf (par f 35 1) 2 = true then readsFail s ((mergedOf s f).result.map (fun e => (mergePayload s f e, par f 32 2))) else none)
      = none := ite_eq_right_iff.mpr hp
  simp only [mergedOf, mergePayload] at hpays
  simp only [mergeRun, hquiet, hpays]
  exact MemoryCommands.commitVerdict_done hw

/-! ### Search messages -/

/-- A SEARCH_REQ of an index held here is answered with this shard's parts, R291, R296. -/
theorem searchReq_arrives (ha : Arrives 0x05 peer plain s m) (hz : zeroAt m.body 18 6 = true)
    (hx : servedShard (heardFrom peer s) peer m.corr m.tenant (fld m.body 0 4) = some x)
    (hl : m.body.length = 24 + fld m.body 8 4 * queryLen x (fld m.body 16 1))
    (hmark : neededMark (heardFrom peer s) x (ownParts (heardFrom peer s) x (fld m.body 16 1) (fld m.body 12 4) (fld m.body 4 4)
      (pieces (queryLen x (fld m.body 16 1)) (fld m.body 8 4) (m.body.drop 24))).2.scanned.flatten = none) :
    ∃ v, searchReq peer plain s = sendParts peer m.tenant m.corr (fld m.body 0 4) (max 1 (2097000 / (8 + 16 * fld m.body 12 4)))
      (fld m.body 8 4) (fld m.body 4 4) (ownParts (heardFrom peer s) x (fld m.body 16 1) (fld m.body 12 4) (fld m.body 4 4)
        (pieces (queryLen x (fld m.body 16 1)) (fld m.body 8 4) (m.body.drop 24))).1
      (keepServed v (chargeHub 26 m.tenant (heardFrom peer s))) := by
  have hgood : ¬ (zeroAt m.body 18 6 = false ∨ m.body.length < 24) := by
    rw [hz, hl]
    simp
  rw [searchReq, RowEvents.onMessage_arrives ha]
  simp only [if_neg hgood, hx, if_neg (not_not.mpr hl), hmark]
  exact ⟨_, rfl⟩

/-- A search with what a SEARCH_RESP brings, R296: `need` parts of a member are all of them. -/
def answeredJob (job : SearchJob) (peer status need : Nat) (ps : List SearchPart) : SearchJob :=
  { job with
    parts := job.parts ++ ps
    failures := if status = 0 then job.failures else job.failures ++ [(peer, status)]
    awaited := if status ≠ 0 ∨ need ≤ ((job.parts ++ ps).filter (fun p => p.module == peer)).length
      then job.awaited.filter (· != peer) else job.awaited }

/-- The state with a search under way replaced. -/
def withJob (j : SearchJob) (s : State) : State :=
  { s with indexes := { s.indexes with jobs := s.indexes.jobs.map (fun k => if k.serial = j.serial then j else k) } }

/-- A SEARCH_RESP adds its parts or its failure to its search; a SEARCH with the last of them ends, R296, R297. -/
theorem searchResp_arrives {job : SearchJob} {ps : List SearchPart} (ha : Arrives 0x06 peer plain s m)
    (hj : s.indexes.jobs.find? (fun j => j.commandId == m.corr && j.index == fld m.body 0 4 && j.awaited.contains peer) = some job)
    (hf : flightOf s job.serial = some f) (hx : indexOf s job.index = some x)
    (hok : fld m.body 12 2 = 0 → partsIn peer (fld m.body 8 4) (fld m.body 4 4) (m.body.drop 16) = some ps) (hbad : fld m.body 12 2 ≠ 0 → ps = [])
    {j : SearchJob} (hjob : j = answeredJob job peer (fld m.body 12 2) (if f.op = .search then par f 4 4 else 1) ps)
    (hu : u = withJob j (heardFrom peer s)) :
    searchResp peer plain s = if j.awaited = [] ∧ f.op = .search then settleVerdict f (searchDone f x j [] u) u else u := by
  have hps : (if fld m.body 12 2 = 0 then partsIn peer (fld m.body 8 4) (fld m.body 4 4) (m.body.drop 16) else some []) = some ps := by
    split
    · next hst => exact hok hst
    · next hst => rw [hbad hst]
  rw [← heardFrom_indexes peer s] at hj
  rw [← flightOf_heardFrom peer] at hf
  rw [← indexOf_heardFrom peer] at hx
  subst hjob hu
  rw [searchResp, RowEvents.onMessage_arrives ha]
  simp only [hj, hf, hx, hps, List.isEmpty_iff]
  rfl

/-- The state with one more merge of lists kept for a peer. -/
def keepMerged (e : MergedLists) (s : State) : State := { s with indexes := { s.indexes with merged := s.indexes.merged ++ [e] } }

@[simp] theorem keepMerged_merged (e : MergedLists) (s : State) : (keepMerged e s).indexes.merged = s.indexes.merged ++ [e] := rfl

@[simp] theorem keepMerged_indexes (e : MergedLists) (s : State) : (keepMerged e s).indexes.indexes = s.indexes.indexes := rfl

@[simp] theorem keepMerged_mem (e : MergedLists) (s : State) : (keepMerged e s).mem = s.mem := rfl

/-- The lists of a well-formed SELECT_MERGE message are merged and kept with their counts, R430 (log entry 31). -/
theorem selectMergeMsg_arrives {lists : List (List MergeEntry)} {y : Merged} (ha : Arrives 0x07 peer plain s m) (hz : zeroAt m.body 10 6 = true)
    (h1 : 1 ≤ fld m.body 0 4) (h2 : fld m.body 0 4 ≤ 4096) (hk : keyTypeValid (fld m.body 8 1) = true) (hfl : fld m.body 9 1 < 16)
    (hlists : lists = messageLists m.body (fld m.body 0 4) 0 (16 + 8 * fld m.body 0 4))
    (hl : m.body.length = 16 + 8 * fld m.body 0 4 + 16 * lists.flatten.length) (hr : ∀ i, i < fld m.body 0 4 → zeroAt m.body (20 + 8 * i) 4 = true)
    (hy : y = mergeLists (fld m.body 8 1) (fld m.body 4 4) (bitOf (fld m.body 9 1) 0) (bitOf (fld m.body 9 1) 1) (bitOf (fld m.body 9 1) 3) lists) :
    ∃ n k, selectMergeMsg peer plain s
      = keepMerged ⟨peer, m.corr, m.tenant, y.result.map (fun e => (e.id, e.key, e.info % 2 ^ 31)), mergeCounts y, mismatchReply y⟩
          (countMerge m.tenant (fld m.body 8 1) n k y (chargeHub 26 m.tenant (heardFrom peer s))) := by
  have hrows : (List.range (fld m.body 0 4)).any (fun i => !zeroAt m.body (20 + 8 * i) 4) = false :=
    List.any_eq_false.mpr fun i hi => by simp [hr i (List.mem_range.mp hi)]
  have hgood : ¬ (zeroAt m.body 10 6 = false ∨ fld m.body 0 4 = 0 ∨ 4096 < fld m.body 0 4 ∨ keyTypeValid (fld m.body 8 1) = false
      ∨ 16 ≤ fld m.body 9 1 ∨ m.body.length ≠ 16 + 8 * fld m.body 0 4 + 16 * lists.flatten.length
      ∨ (List.range (fld m.body 0 4)).any (fun i => !zeroAt m.body (20 + 8 * i) 4) = true) := by
    rw [hz, hk, hrows, ← hl]
    simp
    omega
  rw [selectMergeMsg, RowEvents.onMessage_arrives ha]
  simp only [← hlists, if_neg hgood, ← hy]
  exact ⟨_, _, rfl⟩

/-! ### The rows -/

/-- Settles O45: each command by what its run comes to, each message by what it brings. That the receiver of a SELECT_MERGE message keeps the merged entries is the model's
choice (log entry 31). -/
theorem selectionCommandsComplete : Obligations.SelectionCommandsComplete := by
  unfold Obligations.SelectionCommandsComplete
  refine ⟨?_, ?_, ?_, ?_, ?_⟩
  · rintro s s1 h f _ _ hr hreads rfl hn rfl hp hw
    exact ⟨_, _, execEntry_commits hr rfl (topkRun_done hreads hn hp hw), countTopk_mem _ _ _, countTopk_tiers _ _ _, countTopk_proto _ _ _,
      topkReply_written _ _, topkReply_status _ _⟩
  · rintro s s1 h f _ _ hr hn rfl rfl hp hw
    refine ⟨_, _, execEntry_commits hr rfl (mergeRun_done hn hp hw), ?_, ?_, fun hm => ?_, rfl, selectReply_status _ _ _⟩
    · rw [Canonical.mismatchEvent_mem, Canonical.countMerge_mem]
    · rw [mismatchEvent_tiers, countMerge_tiers]
    · rw [mismatchEvent_none (m := mergedOf s f) hm, countMerge_host]
  · intro s peer plain m x ha hz hx hl hmark
    obtain ⟨v, hrun⟩ := searchReq_arrives ha hz hx hl hmark
    have hcharged := sameObjects_chargeHub 26 m.tenant (heardFrom peer s)
    refine ⟨_, congrArg (nextOf s) hrun, ?_, ?_, ?_, ?_⟩
    · rw [Canonical.keepServed_mem, Canonical.chargeHub_mem, Canonical.heardFrom_mem]
    · rw [keepServed_proto, hcharged.proto, heardFrom_proto]
    · rw [keepServed_tables, hcharged.tables]
    · rw [keepServed_indexes, hcharged.indexes, heardFrom_indexes]
  · intro s u peer plain m job j f x ps ha hj hf hx hok hbad hjob hu
    exact congrArg (nextOf s) (searchResp_arrives ha hj hf hx hok hbad hjob (by subst hjob; rw [hu, withJob, heardFrom_indexes]))
  · intro s peer plain m lists ha hz h1 h2 hk hfl hlists hl hr
    obtain ⟨n, k, hrun⟩ := selectMergeMsg_arrives ha hz h1 h2 hk hfl hlists hl hr rfl
    have hindexes : ∀ y, (countMerge m.tenant (fld m.body 8 1) n k y (chargeHub 26 m.tenant (heardFrom peer s))).indexes = s.indexes := fun y => by
      rw [countMerge_indexes, (sameObjects_chargeHub 26 m.tenant (heardFrom peer s)).indexes, heardFrom_indexes]
    refine ⟨_, _, congrArg (nextOf s) hrun, (keepMerged_merged _ _).trans (congrArg (fun i : IndexSpace => i.merged ++ _) (hindexes _)),
      rfl, rfl, ?_, ?_, ?_, ?_⟩
    · rintro _ rfl
      exact ⟨rfl, rfl⟩
    · rw [List.length_map]
      exact length_mergeLists _ _ _ _ _ _
    · rw [keepMerged_mem, Canonical.countMerge_mem, Canonical.chargeHub_mem, Canonical.heardFrom_mem]
    · rw [keepMerged_indexes, hindexes]

end Sys2Proof.SelectionCommands

/-! The choice that the passes of a selection make (R304, R307): with the R best still to find among candidates whose leading bytes agree, a pass takes all above the
threshold bucket and hands on those in it. -/

namespace Sys2Proof.SelectionPasses

open Sys2Proof Sys2Proof.Machine Sys2Proof.SelectionCommands

/-- The candidates above bucket `t` of pass `p`, R307. -/
abbrev above (p t : Nat) (cand : List SelEntry) : List SelEntry := cand.filter (fun e => decide (t < selByte p e.code))

/-- The candidates in bucket `t` of pass `p`, R307. -/
abbrev bucket (p t : Nat) (cand : List SelEntry) : List SelEntry := cand.filter (fun e => selByte p e.code == t)

/-- The valid entries as a selection reads them, R307. -/
abbrev byPosition (valid : List SelEntry) : List SelEntry := sortBy (fun a b => Nat.ble a.pos b.pos) valid

/-! ### Bytes of mapped keys -/

/-- The codes of a list have the same `p` leading bytes, as those of the candidates of pass `p` do (R307). -/
def SameLeading (p : Nat) (l : List SelEntry) : Prop := ∀ a ∈ l, ∀ b ∈ l, a.code / 2 ^ (32 - 8 * p) = b.code / 2 ^ (32 - 8 * p)

/-- The leading bytes through byte `p` are those before it and byte `p`, R307. -/
theorem leading_succ {p : Nat} (hp : p < 4) (c : Nat) : c / 2 ^ (32 - 8 * (p + 1)) = 256 * (c / 2 ^ (32 - 8 * p)) + selByte p c := by
  have hwidth : 32 - 8 * p = 24 - 8 * p + 8 := by omega
  have hnext : 32 - 8 * (p + 1) = 24 - 8 * p := by omega
  rw [hwidth, hnext, pow_add, ← Nat.div_div_eq_div_mul]
  exact (Nat.div_add_mod _ _).symm

/-- Candidates of one bucket agree in one byte more, R307. -/
theorem SameLeading.bucket {p t : Nat} {cand : List SelEntry} (hp : p < 4) (h : SameLeading p cand) : SameLeading (p + 1) (bucket p t cand) := by
  intro a ha b hb
  obtain ⟨ha, hat⟩ := List.mem_filter.mp ha
  obtain ⟨hb, hbt⟩ := List.mem_filter.mp hb
  rw [leading_succ hp, leading_succ hp, h a ha b hb, eq_of_beq hat, eq_of_beq hbt]

/-- Where the leading bytes agree, the greater next byte makes the greater code, R307. -/
theorem SameLeading.code_lt {p : Nat} {cand : List SelEntry} {a b : SelEntry} (hp : p < 4) (h : SameLeading p cand) (ha : a ∈ cand) (hb : b ∈ cand)
    (hlt : selByte p a.code < selByte p b.code) : a.code < b.code := by
  refine Nat.lt_of_div_lt_div (c := 2 ^ (32 - 8 * (p + 1))) ?_
  rw [leading_succ hp, leading_succ hp, h a ha b hb]
  exact Nat.add_lt_add_left hlt _

/-! ### What a pass counts -/

/-- Of `r` candidates or more, at least `r` lie in the threshold bucket and above, R307. -/
theorem le_count_threshold {p r : Nat} {cand : List SelEntry} (hr : r ≤ cand.length) :
    r ≤ (cand.filter (fun e => decide (selThreshold p r cand ≤ selByte p e.code))).length := by
  unfold selThreshold
  cases hfind : (List.range 256).reverse.find? (fun b => decide (r ≤ (cand.filter (fun e => decide (b ≤ selByte p e.code))).length)) with
  | none => simpa using hr
  | some t => simpa using List.find?_some hfind

theorem length_from_bucket (p t : Nat) (cand : List SelEntry) :
    (cand.filter (fun e => decide (t ≤ selByte p e.code))).length = (above p t cand).length + (bucket p t cand).length := by
  induction cand with
  | nil => rfl
  | cons e l ih =>
    rcases Nat.lt_trichotomy (selByte p e.code) t with h | h | h
    · simp [ih, h.not_ge, h.le, h.ne]
    · simp [ih, h, Nat.add_assoc]
    · simp [ih, h, h.le, h.ne', Nat.add_right_comm]

/-! ### The best of a list -/

/-- The entries `w` are the `r` best of `l`, R304: no entry left out comes before one of them. -/
structure BestOf (r : Nat) (l w : List SelEntry) : Prop where
  length : w.length = r
  subset : w ⊆ l
  best : ∀ a ∈ l, a ∉ w → ∀ b ∈ w, selLe b a = true

theorem selLe_iff (b a : SelEntry) : selLe b a = true ↔ a.code < b.code ∨ a.code = b.code ∧ b.pos ≤ a.pos := by
  rw [selLe, Bool.or_eq_true, Bool.and_eq_true, decide_eq_true_iff, decide_eq_true_iff, beq_iff_eq, eq_comm (a := b.code)]

theorem BestOf.all {r : Nat} {l : List SelEntry} (hr : r = l.length) : BestOf r l l :=
  ⟨hr.symm, List.Subset.refl l, fun _ ha hn => absurd ha hn⟩

/-- Of equal keys in ascending position the first are the best, R304. -/
theorem BestOf.take {r : Nat} {l : List SelEntry} (hr : r ≤ l.length) (hpos : l.Pairwise (fun a b => a.pos ≤ b.pos))
    (hcode : ∀ a ∈ l, ∀ b ∈ l, a.code = b.code) : BestOf r l (l.take r) where
  length := List.length_take_of_le hr
  subset := List.take_subset r l
  best a ha hn b hb := by
    have hlater : a ∈ l.drop r := (List.mem_append.mp ((List.take_append_drop r l).symm ▸ ha)).resolve_left hn
    have hsplit : (l.take r ++ l.drop r).Pairwise (fun a b => a.pos ≤ b.pos) := (List.take_append_drop r l).symm ▸ hpos
    exact (selLe_iff b a).mpr (.inr ⟨hcode a ha b (List.take_subset r l hb), (List.pairwise_append.mp hsplit).2.2 b hb a hlater⟩)

/-- What lies above a bucket, with the best of the bucket, is the best of all, R307. -/
theorem BestOf.pass {p t r : Nat} {cand w : List SelEntry} (hp : p < 4) (hsame : SameLeading p cand)
    (habove : (above p t cand).length ≤ r) (hw : BestOf (r - (above p t cand).length) (bucket p t cand) w) :
    BestOf r cand (above p t cand ++ w) where
  length := by rw [List.length_append, hw.length, Nat.add_sub_cancel' habove]
  subset := List.append_subset.mpr ⟨List.filter_subset_self _, List.Subset.trans hw.subset (List.filter_subset_self _)⟩
  best a ha hn b hb := by
    simp only [List.mem_append, List.mem_filter, decide_eq_true_eq, not_or, not_and, not_lt] at hn hb
    have hlower : ∀ b ∈ cand, selByte p a.code < selByte p b.code → selLe b a = true :=
      fun b hb hlt => (selLe_iff b a).mpr (.inl (hsame.code_lt hp ha hb hlt))
    rcases hb with ⟨hb, hbt⟩ | hbw
    · exact hlower b hb ((hn.1 ha).trans_lt hbt)
    · obtain ⟨hb, hbt⟩ := List.mem_filter.mp (hw.subset hbw)
      rcases (hn.1 ha).lt_or_eq with hlt | heq
      · exact hlower b hb (hlt.trans_eq (eq_of_beq hbt).symm)
      · exact hw.best a (List.mem_filter.mpr ⟨ha, beq_of_eq heq⟩) hn.2 b hbw

/-! ### The passes -/

/-- The passes add the `r` best candidates to those chosen before, R307: by induction on the passes left. -/
theorem selPasses_best {left p r : Nat} {acc cand : List SelEntry} (hp : p + left ≤ 4) (hr : r ≤ cand.length) (hsame : SameLeading p cand)
    (hpos : cand.Pairwise (fun a b => a.pos ≤ b.pos))
    (hcodes : ∀ a ∈ cand, ∀ b ∈ cand, a.code / 2 ^ (32 - 8 * (p + left)) = b.code / 2 ^ (32 - 8 * (p + left)) → a.code = b.code) :
    ∃ w, (selPasses p r acc cand left).chosen = acc ++ w ∧ BestOf r cand w := by
  induction left generalizing p r acc cand with
  | zero => exact ⟨_, rfl, .take hr hpos fun a ha b hb => hcodes a ha b hb (hsame a ha b hb)⟩
  | succ left ih =>
    have hlt : p < 4 := by omega
    have habove := length_above_threshold p r cand
    unfold selPasses
    dsimp only
    split
    · next hfull => exact ⟨_, List.append_assoc _ _ _, .pass hlt hsame habove (.all hfull)⟩
    · have hfrom := le_count_threshold (p := p) hr
      rw [length_from_bucket] at hfrom
      have hsub : bucket p (selThreshold p r cand) cand ⊆ cand := List.filter_subset_self _
      obtain ⟨w, hw, hbest⟩ := ih (p := p + 1) (acc := acc ++ above p (selThreshold p r cand) cand)
        (by omega) (Nat.sub_le_iff_le_add'.mpr hfrom) (hsame.bucket hlt) (hpos.filter _)
        (fun a ha b hb => by simpa only [Nat.add_assoc, Nat.add_comm 1] using hcodes a (hsub ha) b (hsub hb))
      exact ⟨_, hw.trans (List.append_assoc _ _ _), .pass hlt hsame habove hbest⟩

/-! ### The selection -/

theorem mem_byPosition {e : SelEntry} {l : List SelEntry} : e ∈ byPosition l ↔ e ∈ l := RowEvents.mem_sortBy

theorem byPosition_ascends (l : List SelEntry) : (byPosition l).Pairwise (fun a b => a.pos ≤ b.pos) := by
  have htotal : Std.Total (fun a b : SelEntry => Nat.ble a.pos b.pos = true) := ⟨fun a b => by simpa using Nat.le_total a.pos b.pos⟩
  have htrans : IsTrans SelEntry (fun a b => Nat.ble a.pos b.pos = true) := ⟨fun a b c => by simpa using Nat.le_trans⟩
  rw [byPosition, Allocations.sortBy_eq_insertionSort]
  exact (List.pairwise_insertionSort _ l).imp Nat.le_of_ble_eq_true

/-- A selection chooses the best, as many as asked for or as there are, R304. -/
theorem selectEntries_best {passes k : Nat} {valid : List SelEntry} (hpasses : passes ≤ 4) (hbound : ∀ e ∈ valid, e.code < 2 ^ 32)
    (hcodes : ∀ a ∈ valid, ∀ b ∈ valid, a.code / 2 ^ (32 - 8 * passes) = b.code / 2 ^ (32 - 8 * passes) → a.code = b.code) :
    BestOf (min k valid.length) (byPosition valid) (selectEntries passes k valid).chosen := by
  have hlength : (byPosition valid).length = valid.length := RowEvents.length_sortBy _ _
  unfold selectEntries
  dsimp only
  split
  · next hfew => exact .all (hlength ▸ Nat.min_eq_right (hlength ▸ hfew))
  · next hmany =>
    have hnone : SameLeading 0 (byPosition valid) := fun a ha b hb => by
      rw [Nat.div_eq_of_lt (hbound a (mem_byPosition.mp ha)), Nat.div_eq_of_lt (hbound b (mem_byPosition.mp hb))]
    obtain ⟨w, hw, hbest⟩ := selPasses_best (acc := []) (by omega : 0 + passes ≤ 4) (Nat.le_of_not_le hmany) hnone (byPosition_ascends valid)
      fun a ha b hb => by simpa only [Nat.zero_add] using hcodes a (mem_byPosition.mp ha) b (mem_byPosition.mp hb)
    rw [hw, List.nil_append, ← hlength, Nat.min_eq_left (Nat.le_of_not_le hmany)]
    exact hbest

/-- Settles O42: no pass loses one of the best, because candidates agree in the bytes already read. -/
theorem selectionChoosesTheBest : Obligations.SelectionChoosesTheBest := by
  unfold Obligations.SelectionChoosesTheBest
  intro passes k valid hpasses hbound hcodes
  have hbest := selectEntries_best (k := k) hpasses hbound hcodes
  exact ⟨hbest.length, fun e he => mem_byPosition.mp (hbest.subset he),
    fun a ha hn b hb => (selLe_iff b a).mp (hbest.best a (mem_byPosition.mpr ha) hn b hb)⟩

end Sys2Proof.SelectionPasses

/-! Mapped keys and the values of keys (R301, R302): a signed value is mapped about the middle of its range, and DIR MIN complements the code. -/

namespace Sys2Proof.MappedKeys

open Sys2Proof Sys2Proof.Machine

/-! ### Values -/

/-- The value of a 32-bit key as R302 orders it: U32, I32, or FP32 by sign and magnitude with subnormals as zero. -/
def wideValue (kt c : Nat) : Int :=
  if kt = 3 then (c : Int) else if kt = 4 then signedOf 32 c
  else if c % 2 ^ 31 < 0x00800000 then 0 else if c < 2 ^ 31 then (c : Int) else -((c % 2 ^ 31 : Nat) : Int)

/-- The value of a 16-bit floating-point key by sign and magnitude. -/
def halfValue (c : Nat) : Int := if c < 2 ^ 15 then (c : Int) else -((c % 2 ^ 15 : Nat) : Int)

/-- The code of sign and magnitude: zero and above from `mid` up, below zero from `mid - 1` down. -/
def centred (mid x : Int) : Int := if x < 0 then mid - 1 + x else mid + x

theorem centred_lt_iff (mid x y : Int) : centred mid x < centred mid y ↔ x < y := by
  unfold centred
  split <;> split <;> omega

/-! ### The code of each type -/

theorem mappedUp_fp32 {c : Nat} (hc : c < 2 ^ 32) : (mappedUp 0 c : Int) = centred (2 ^ 31) (wideValue 0 c) := by
  simp only [mappedUp, wideValue, centred, reduceIte, OfNat.zero_ne_ofNat]
  split_ifs <;> omega

theorem mappedUp_u32 (c : Nat) : (mappedUp 3 c : Int) = wideValue 3 c := by
  simp only [mappedUp, wideValue, reduceIte, Nat.reduceEqDiff, OfNat.ofNat_ne_zero, false_or]

theorem mappedUp_i32 (c : Nat) : (mappedUp 4 c : Int) = 2 ^ 31 + wideValue 4 c := by
  simp only [mappedUp, wideValue, signedOf, reduceIte, Nat.reduceEqDiff, OfNat.ofNat_ne_zero, false_or]
  split_ifs <;> omega

/-- The code of a BF16 or FP16 key stands in bits [31:16], R302. -/
theorem mappedUp_half {kt c : Nat} (hkt : kt ∈ [1, 2]) (hc : c < 2 ^ 16) :
    ∃ half, half < 2 ^ 16 ∧ mappedUp kt c = half * 2 ^ 16 ∧ (half : Int) = centred (2 ^ 15) (halfValue c) := by
  have htypes : kt = 1 ∨ kt = 2 := by simpa using hkt
  have hnonzero : kt ≠ 0 := by omega
  simp only [mappedUp, if_neg hnonzero, if_pos htypes, halfValue, centred]
  refine ⟨_, ?_, rfl, ?_⟩ <;> split_ifs <;> omega

theorem mappedUp_wide_lt {kt c : Nat} (hkt : kt ∈ [0, 3, 4]) (hc : c < 2 ^ 32) : mappedUp kt c < 2 ^ 32 := by
  simp only [List.mem_cons, List.not_mem_nil, or_false] at hkt
  rcases hkt with rfl | rfl | rfl
  · simp only [mappedUp, reduceIte]
    split_ifs <;> omega
  · have hvalue := mappedUp_u32 c
    rw [wideValue, if_pos rfl] at hvalue
    omega
  · have hvalue := mappedUp_i32 c
    simp only [wideValue, signedOf] at hvalue
    omega

theorem mappedUp_half_lt {kt c : Nat} (hkt : kt ∈ [1, 2]) (hc : c < 2 ^ 16) : mappedUp kt c < 2 ^ 32 := by
  obtain ⟨half, hlt, hcode, -⟩ := mappedUp_half hkt hc
  omega

/-! ### The order -/

theorem mappedUp_wide_lt_iff {kt a b : Nat} (hkt : kt ∈ [0, 3, 4]) (ha : a < 2 ^ 32) (hb : b < 2 ^ 32) :
    mappedUp kt a < mappedUp kt b ↔ wideValue kt a < wideValue kt b := by
  rw [← Int.ofNat_lt]
  simp only [List.mem_cons, List.not_mem_nil, or_false] at hkt
  rcases hkt with rfl | rfl | rfl
  · rw [mappedUp_fp32 ha, mappedUp_fp32 hb, centred_lt_iff]
  · rw [mappedUp_u32, mappedUp_u32]
  · rw [mappedUp_i32, mappedUp_i32, add_lt_add_iff_left]

theorem mappedUp_half_lt_iff {kt a b : Nat} (hkt : kt ∈ [1, 2]) (ha : a < 2 ^ 16) (hb : b < 2 ^ 16) :
    mappedUp kt a < mappedUp kt b ↔ halfValue a < halfValue b := by
  obtain ⟨x, -, hx, hxv⟩ := mappedUp_half hkt ha
  obtain ⟨y, -, hy, hyv⟩ := mappedUp_half hkt hb
  rw [hx, hy, Nat.mul_lt_mul_right (by decide), ← Int.ofNat_lt, hxv, hyv, centred_lt_iff]

theorem mappedKey_most (kt c : Nat) : mappedKey kt c false = mappedUp kt c := if_neg Bool.false_ne_true

theorem mappedKey_least (kt c : Nat) : mappedKey kt c true = 2 ^ 32 - 1 - mappedUp kt c := if_pos rfl

theorem mappedKey_most_lt_iff {kt a b : Nat} : mappedKey kt a false < mappedKey kt b false ↔ mappedUp kt a < mappedUp kt b := by
  rw [mappedKey_most, mappedKey_most]

/-- DIR MIN turns the order round, R302. -/
theorem mappedKey_least_lt_iff {kt a b : Nat} (ha : mappedUp kt a < 2 ^ 32) (hb : mappedUp kt b < 2 ^ 32) :
    mappedKey kt a true < mappedKey kt b true ↔ mappedUp kt b < mappedUp kt a := by
  rw [mappedKey_least, mappedKey_least]
  omega

/-- The low half of a mapped BF16 or FP16 key is that of its direction, R302. -/
theorem mappedKey_half_low {kt c : Nat} (hkt : kt ∈ [1, 2]) (hc : c < 2 ^ 16) :
    mappedKey kt c false % 2 ^ 16 = 0 ∧ mappedKey kt c true % 2 ^ 16 = 2 ^ 16 - 1 := by
  obtain ⟨half, hlt, hcode, -⟩ := mappedUp_half hkt hc
  rw [mappedKey_most, mappedKey_least, hcode]
  omega

/-- Settles O43: the code of every type is its value about the middle of the range. -/
theorem mappedKeysKeepTheOrder : Obligations.MappedKeysKeepTheOrder := by
  unfold Obligations.MappedKeysKeepTheOrder
  refine ⟨?_, ?_⟩
  · intro kt a b hkt ha hb v hv
    obtain rfl : v = wideValue kt := hv
    exact ⟨mappedKey_most_lt_iff.trans (mappedUp_wide_lt_iff hkt ha hb),
      (mappedKey_least_lt_iff (mappedUp_wide_lt hkt ha) (mappedUp_wide_lt hkt hb)).trans (mappedUp_wide_lt_iff hkt hb ha)⟩
  · intro kt a b hkt ha hb v hv
    obtain rfl : v = halfValue := hv
    obtain ⟨hmostA, hleastA⟩ := mappedKey_half_low hkt ha
    obtain ⟨hmostB, hleastB⟩ := mappedKey_half_low hkt hb
    exact ⟨mappedKey_most_lt_iff.trans (mappedUp_half_lt_iff hkt ha hb),
      (mappedKey_least_lt_iff (mappedUp_half_lt hkt ha) (mappedUp_half_lt hkt hb)).trans (mappedUp_half_lt_iff hkt hb ha),
      hmostA.trans hmostB.symm, hleastA.trans hleastB.symm⟩

end Sys2Proof.MappedKeys

/-! Packing a prompt (R335): the counts kept are bounded by their segments and together by the budget. -/

namespace Sys2Proof.Packing

open Sys2Proof Sys2Proof.Machine

variable {segs : List PackSeg} {g : PackSeg} {kept : Kept} {r : Nat × PackState} {i n room budget : Nat} {strict stopped : Bool}

/-! ### Counts within their segments -/

/-- A segment keeps at most its full tokens and at most MAX_TOK of them, R335. -/
def WithinSegment (g : PackSeg) (r : Nat × PackState) : Prop := r.1 ≤ g.full.length ∧ r.1 ≤ g.maxTok

/-- The tokens kept of all segments. -/
def keptTokens (kept : Kept) : Nat := listSum (kept.map (·.1))

theorem listSum_eq_sum (l : List Nat) : listSum l = l.sum := List.sum_eq_foldl.symm

theorem packFit_fst (g : PackSeg) (n : Nat) : (packFit g n).1 = min g.full.length n := by
  unfold packFit
  split
  · next h => exact (Nat.min_eq_left h).symm
  · next h => exact (Nat.min_eq_right (Nat.le_of_not_le h)).symm

theorem withinSegment_packFit (hn : n ≤ g.maxTok) : WithinSegment g (packFit g n) := by
  rw [WithinSegment, packFit_fst]
  omega

theorem keptTokens_setAt_le (kept : Kept) (i : Nat) (r : Nat × PackState) : keptTokens (setAt kept i r) ≤ keptTokens kept + r.1 := by
  simp only [keptTokens, listSum_eq_sum, setAt]
  induction kept generalizing i with
  | nil => simp
  | cons k kept ih =>
    cases i with
    | zero => simp only [List.set_cons_zero, List.map_cons, List.sum_cons]; omega
    | succ i =>
      have := ih i
      simp only [List.set_cons_succ, List.map_cons, List.sum_cons]
      omega

theorem forall₂_setAt (hk : List.Forall₂ WithinSegment segs kept) (hg : segs[i]? = some g) (hr : WithinSegment g r) :
    List.Forall₂ WithinSegment segs (setAt kept i r) := by
  induction hk generalizing i with
  | nil => exact .nil
  | cons hfirst hrest ih =>
    cases i with
    | zero =>
      cases hg
      exact .cons hr hrest
    | succ i => exact .cons hfirst (ih hg)

/-! ### Optional segments -/

/-- An optional segment takes what it wants where there is room, and what room there is where it may be cut: never more than either, R335. -/
theorem packOptional_within {l : List (Nat × PackSeg)} (hl : ∀ p ∈ l, segs[p.1]? = some p.2)
    (hk : List.Forall₂ WithinSegment segs kept) (hroom : keptTokens kept + room ≤ budget) :
    List.Forall₂ WithinSegment segs (packOptional strict l room stopped kept) ∧ keptTokens (packOptional strict l room stopped kept) ≤ budget := by
  induction l generalizing room stopped kept with
  | nil => exact ⟨hk, Nat.le_of_add_right_le hroom⟩
  | cons p l ih =>
    obtain ⟨i, g⟩ := p
    obtain ⟨hg, hrest⟩ := List.forall_mem_cons.mp hl
    simp only [packOptional]
    split
    · exact ih hrest hk hroom
    · next n htake =>
      have hn : n ≤ room ∧ n ≤ min g.full.length g.maxTok := by
        split_ifs at htake with hstop hwant hcut
        · cases htake
          exact ⟨hwant, le_rfl⟩
        · cases htake
          exact ⟨le_rfl, Nat.le_of_not_le hwant⟩
      refine ih hrest (forall₂_setAt hk hg (withinSegment_packFit (g := g) (by omega))) ?_
      have hset := keptTokens_setAt_le kept i (packFit g n)
      have hfit := packFit_fst g n
      omega

/-! ### Required segments, and the whole -/

/-- What packing begins with: each required segment at its most, each optional one at nothing, R335. -/
theorem forall₂_required (segs : List PackSeg) :
    List.Forall₂ WithinSegment segs
      (segs.map (fun g => if g.required then packFit g (min g.full.length g.maxTok) else (0, PackState.dropped))) := by
  rw [List.forall₂_map_right_iff, List.forall₂_same]
  intro g _
  split
  · exact withinSegment_packFit (Nat.min_le_right _ _)
  · exact ⟨Nat.zero_le _, Nat.zero_le _⟩

/-- Packing that succeeds has put the optional segments, each at its place, into the room that the required ones leave, R335. -/
theorem packSegs_ok (h : packSegs segs budget strict = .ok kept) :
    ∃ required l, List.Forall₂ WithinSegment segs required ∧ keptTokens required ≤ budget ∧ (∀ p ∈ l, segs[p.1]? = some p.2)
      ∧ kept = packOptional strict l (budget - keptTokens required) false required := by
  unfold packSegs at h
  dsimp only at h
  split at h
  · cases h
  · split at h
    · cases h
    · next hfits =>
      cases h
      refine ⟨_, _, forall₂_required segs, Nat.le_of_not_lt hfits, fun p hp => ?_, rfl⟩
      rw [Allocations.sortBy_eq_insertionSort, List.mem_insertionSort, List.mem_filter, List.mem_map] at hp
      obtain ⟨⟨q, hq, rfl⟩, -⟩ := hp
      exact List.mem_zipIdx_iff_getElem?.mp hq

/-- Settles O37: the required segments fit the budget, and each optional one takes from the room that is left. -/
theorem packingKeepsTheBudget : Obligations.PackingKeepsTheBudget := by
  unfold Obligations.PackingKeepsTheBudget
  intro segs budget drop kept h
  obtain ⟨required, l, hrequired, hfits, hl, rfl⟩ := packSegs_ok h
  obtain ⟨hwithin, htotal⟩ := packOptional_within (strict := drop) (stopped := false) hl hrequired (Nat.add_sub_cancel' hfits).le
  exact ⟨hwithin.length_eq.symm, htotal, fun p hp => List.forall₂_zip hwithin hp⟩

end Sys2Proof.Packing

/-! The commands of the text units (chapter 11): what the run of each comes to where its checks pass. -/

namespace Sys2Proof.TextCommands

open Sys2Proof Sys2Proof.Machine Sys2Proof.Laws

variable {s s1 u : State} {h k base : Nat} {f : Flight}

/-! ### Fresh handles -/

/-- Of more numbers than are used, one is free. -/
theorem exists_firstFree (used : List Nat) (start : Nat) : ∃ k, firstFree used start (used.length + 1) = some k := by
  rw [← Option.ne_none_iff_exists']
  intro hnone
  have hsub : List.range' start (used.length + 1) ⊆ used := fun k hk => by
    obtain ⟨hlo, hhi⟩ := List.mem_range'_1.mp hk
    have := TableCommands.mem_of_firstFree_none hnone (i := k - start) (by omega)
    rwa [Nat.add_sub_cancel' hlo] at this
  have hlen := (List.subperm_of_subset List.nodup_range' hsub).length_le
  rw [List.length_range'] at hlen
  omega

/-- A fresh handle is held by no object and named by no admitted command and no request, R346. -/
theorem freshHandle_unused (kind : Nat) (held : List Nat) (s : State) : (freshHandle kind held s).1
    ∉ held ++ (s.proto.flights ++ stagedFlights s).flatMap namedHandles ++ s.serve.requests.flatMap requestHandles := by
  obtain ⟨k, hk⟩ := exists_firstFree (held ++ (s.proto.flights ++ stagedFlights s).flatMap namedHandles ++ s.serve.requests.flatMap requestHandles)
    (kind * 2 ^ 28 + (drawFree s).1 % 2 ^ 27)
  have hdef : (freshHandle kind held s).1 = k := by
    simp only [freshHandle]
    exact congrArg (Option.getD · _) hk
  rw [hdef]
  exact (TableCommands.firstFree_some hk).1

theorem freshHandle_not_held (kind : Nat) (held : List Nat) (s : State) : (freshHandle kind held s).1 ∉ held := fun hm =>
  freshHandle_unused kind held s (List.mem_append_left _ (List.mem_append_left _ hm))

/-- A handle is taken that no object holds, and neither the memory nor the tiers change. -/
theorem exists_freshHandle (kind : Nat) (held : List Nat) (s : State) :
    ∃ k u, freshHandle kind held s = (k, u) ∧ k ∉ held ∧ u.mem = s.mem ∧ u.tiers = s.tiers :=
  ⟨_, _, rfl, freshHandle_not_held kind held s, Canonical.freshHandle_mem kind held s, rfl⟩

/-! ### Tokenisers, grammars, stop sets -/

/-- The tokeniser that a TOKENIZER_LOAD records: its image, tagged with the first bytes of the digest, R324. -/
def loadedTokeniser (s : State) (f : Flight) (base : Nat) : Tokeniser :=
  ⟨f.tenant, memRead s (par f 0 8) (par f 8 4), fld (sha256 (memRead s (par f 0 8) (par f 8 4))) 0 4, base, false⟩

/-- The state with a tokeniser under a handle. -/
def withTokeniser (k : Nat) (x : Tokeniser) (s : State) : State := setText { s.text with tokenisers := kset s.text.tokenisers k x } s

/-- The state with a grammar under a handle. -/
def withGrammar (k : Nat) (x : Grammar) (s : State) : State := setText { s.text with grammars := kset s.text.grammars k x } s

/-- The state with a stop set under a handle. -/
def withStops (k : Nat) (x : StopSet) (s : State) : State := setText { s.text with stops := kset s.text.stops k x } s

theorem kget_withTokeniser (k : Nat) (x : Tokeniser) (s : State) : kget (withTokeniser k x s).text.tokenisers k = some x := kget_kset_self _ _ _

theorem kget_withGrammar (k : Nat) (x : Grammar) (s : State) : kget (withGrammar k x s).text.grammars k = some x := kget_kset_self _ _ _

theorem kget_withStops (k : Nat) (x : StopSet) (s : State) : kget (withStops k x s).text.stops k = some x := kget_kset_self _ _ _

/-- The run of a command. Cited by `rw`, it spares the kernel to evaluate what the run matches on, and so to compute with the storage that is taken. -/
theorem run_mk (op : Opcode) (changes : Bool) (objects changed held : State → Flight → List Obj) (check staged : State → Flight → Option (Status × Nat))
    (waits : State → Flight → Bool) (run : State → Flight → Verdict) (carried : State → Flight → Nat → Bytes) (carriedLen : Flight → Nat)
    (entry : State → Flight → Option (Status × Nat)) (prepare : State → Flight → State) (s : State) (f : Flight) :
    Command.run ⟨op, changes, objects, changed, held, check, staged, waits, run, carried, carriedLen, entry, prepare⟩ s f = run s f := rfl

/-- TOKENIZER_LOAD records the image under a fresh handle and replies with its digest, R324. -/
theorem tokenizerLoadCommand_run (ht : takeTables f.tenant (memRead s (par f 0 8) (par f 8 4)).length s = .ok (base, s1))
    (hk : freshHandle 4 (kkeys s1.text.tokenisers) s1 = (k, u)) :
    tokenizerLoadCommand.run s f = .done (withTokeniser k (loadedTokeniser s f base) u)
      (okReply (toLe 4 k ++ zeros 4 ++ sha256 (memRead s (par f 0 8) (par f 8 4)))) := by
  rw [tokenizerLoadCommand, run_mk]
  simp only [ht, hk]
  rfl

/-- GRAMMAR_LOAD records the image under a fresh handle, R342. -/
theorem grammarLoadCommand_run (ht : takeTables f.tenant (memRead s (par f 0 8) (par f 8 4)).length s = .ok (base, s1))
    (hk : freshHandle 6 (kkeys s1.text.grammars) s1 = (k, u)) :
    grammarLoadCommand.run s f = .done (withGrammar k ⟨f.tenant, memRead s (par f 0 8) (par f 8 4), par f 12 4, base, false⟩ u)
      (okReply (toLe 4 k ++ zeros 4)) := by
  rw [grammarLoadCommand, run_mk]
  simp only [ht, hk]
  rfl

/-- STOP_SET records its strings and tokens under a fresh handle, R337. -/
theorem stopSetCommand_run {l : List Bytes} {z : Bool} {e : Nat} (hl : stopStrings f.params (par f 4 2) (stopStringsAt f) = some (l, z, e))
    (ht : takeTables f.tenant f.params.length s = .ok (base, s1)) (hk : freshHandle 5 (kkeys s1.text.stops) s1 = (k, u)) :
    stopSetCommand.run s f = .done (withStops k ⟨f.tenant, par f 0 4, l, stopTokens f, base, false⟩ u) (okReply (toLe 4 k ++ zeros 4)) := by
  rw [stopSetCommand, run_mk]
  simp only [hl, ht, hk]
  rfl

/-! ### Tokenising -/

/-- The tokens and the replacements of each segment, R329. -/
def segTokens (s : State) (f : Flight) : List (TextSeg × List Tok × Nat) :=
  (textSegs f).map (fun g => (g, tokenizeText (tokImage s (par f 0 4)) (bitOf (par f 6 1) 0) (segText s g)))

/-- The tokens of each segment that are written, R331. -/
def writtenTokens (outs : List (TextSeg × List Tok × Nat)) : List (TextSeg × List Tok) :=
  outs.map (fun p => (p.1, (truncTokens p.1 p.2.1).getD []))

/-- The writes of a TOKENIZE: tokens, and offsets where it wants them, R330. -/
def tokenWrites (f : Flight) (kept : List (TextSeg × List Tok)) : List WriteRun :=
  kept.flatMap (fun p => [(p.1.out, p.2.flatMap (fun t => toLe 4 t.1))]
    ++ (if wantsOffsets f then [(p.1.off, p.2.flatMap (fun t => toLe 4 t.2))] else []))

/-- What counting a command's work leaves alone: the memory, the tiers, the text objects, the commands. -/
structure SameText (s t : State) : Prop where
  mem : t.mem = s.mem
  tiers : t.tiers = s.tiers
  text : t.text = s.text
  proto : t.proto = s.proto

theorem SameText.refl (s : State) : SameText s s := ⟨rfl, rfl, rfl, rfl⟩

theorem SameText.bump {s t : State} (hs : SameText s t) (c : Ctr) (k n : Nat) : SameText s (bump c k n t) := ⟨hs.mem, hs.tiers, hs.text, hs.proto⟩

/-- A TOKENIZE whose segments fit writes their tokens, counts, and replies with the number of segments first, R330 to R332. -/
theorem tokenizeRun_done (hfit : ∀ p ∈ segTokens s f, (truncTokens p.1 p.2.1).isSome = true)
    (hw : commitWrites (some f.serial) f.tenant (tokenWrites f (writtenTokens (segTokens s f))) 0 (chargeHub 27 f.tenant s) = .done s1) :
    ∃ t r, tokenizeRun s f = .done t r ∧ r.status = .ok ∧ r.result.take 4 = toLe 4 (segTokens s f).length ∧ SameText s1 t := by
  have hfind : (segTokens s f).find? (fun p => (truncTokens p.1 p.2.1).isNone) = none :=
    List.find?_eq_none.mpr fun p hp => by simp [Option.isSome_iff_ne_none.mp (hfit p hp)]
  simp only [tokenWrites, writtenTokens, segTokens] at hw hfind
  simp only [tokenizeRun, hfind, MemoryCommands.commitVerdict_done hw]
  refine ⟨_, _, rfl, rfl, ?_, ((((SameText.refl s1).bump _ _ _).bump _ _ _).bump _ _ _).bump _ _ _⟩
  simp [okReply, segTokens]

/-! ### Packing -/

/-- The segments of a PACK_PROMPT with their full tokens, R334. -/
def packSegments (f : Flight) (got : List (List Nat × Nat × Nat)) : List PackSeg := ((packDescs f).zip got).map (fun p => packSegOf p.1 p.2.1)

/-- The writes of a PACK_PROMPT: the packed prompt, and the segment records where it wants them, R336. -/
def packWrites (f : Flight) (all : List (PackSeg × Nat × PackState)) : List WriteRun :=
  [(par f 16 8, (all.flatMap (fun p => packCut p.1 p.2.1)).flatMap (toLe 4))]
    ++ (if par f 24 8 = 0 then [] else [(par f 24 8, packRecords 0 all)])

theorem sameText_countPack (tenant : Nat) (got : List (List Nat × Nat × Nat)) (texts : Nat) (kept : List (PackSeg × Nat × PackState)) (s : State) :
    SameText s (countPack tenant got texts kept s) :=
  (((((SameText.refl s).bump _ _ _).bump _ _ _).bump _ _ _).bump _ _ _).bump _ _ _

/-- A PACK_PROMPT whose segments are collected and fit the budget writes the prompt and its records, counts, and replies with four counts, R335, R336. -/
theorem packRun_done {tok : Tokeniser} {got : List (List Nat × Nat × Nat)} {kept : Kept} (ht : tokeniserOf s (par f 0 4) = some tok)
    (hg : collectAll s tok (bitOf (par f 10 1) 1) 0 (packDescs f) = .ok got)
    (hk : packSegs (packSegments f got) (par f 4 4) (bitOf (par f 10 1) 0) = .ok kept)
    (hw : commitWrites (some f.serial) f.tenant (packWrites f ((packSegments f got).zip kept)) 0 (chargeHub 27 f.tenant s) = .done s1) :
    ∃ t r, packRun s f = .done t r ∧ r.status = .ok ∧ r.result.length = 16 ∧ SameText s1 t := by
  simp only [packWrites, packSegments] at hk hw
  simp only [packRun, ht, hg, hk, MemoryCommands.commitVerdict_done hw]
  exact ⟨_, _, rfl, rfl, by simp [okReply], sameText_countPack _ _ _ _ _⟩

/-! ### Streams -/

/-- What a DETOK_STREAM_OPEN feeds its stream with, R338, R340. -/
def fedOf (s : State) (f : Flight) (x : Stream) : Fed :=
  feedStream s x (unpack 32 (par f 16 4) (memRead s (par f 24 8) (4 * par f 16 4))) (bitOf (par f 12 1) 2)

/-- A stream that stays open after a feed. -/
def fedStream (x : Stream) (y : Fed) : Stream := { x with pending := y.pending, held := y.held, fed := x.fed || decide (0 < y.consumed) }

theorem sameText_countFeed (tenant : Nat) (y : Fed) (s : State) : SameText s (countFeed tenant y s) :=
  ((((SameText.refl s).bump _ _ _).bump _ _ _).bump _ _ _).bump _ _ _

/-- A stream that a feed leaves open holds what is pending and held, R339. -/
theorem kget_streamAfter {y : Fed} (hy : y.state = .open) (k : Nat) (x : Stream) (s : State) :
    kget (streamAfter k x y s).text.streams k = some (fedStream x y) := by
  simp only [streamAfter, hy]
  exact kget_kset_self _ _ _

/-- The handle that a feed answers with, and the state that has taken it: a fresh one where it opens a stream, R338. -/
def streamHandle (f : Flight) (s : State) : Nat × State := if opensStream f then freshHandle 7 (kkeys s.text.streams) s else (par f 0 4, s)

theorem streamHandle_mem (f : Flight) (s : State) : (streamHandle f s).2.mem = s.mem := by
  unfold streamHandle
  split
  · exact Canonical.freshHandle_mem _ _ _
  · rfl

/-- A feed that leaves its stream open and whose text fits writes the text, keeps the stream under its handle, and replies with the handle first, R339 to R341. -/
theorem detokRun_done {live : State → List Nat} {x : Stream} (hx : streamFor s f = some x) (hfit : (fedOf s f x).out.length ≤ par f 20 4)
    (hw : commitWrites (some f.serial) f.tenant [(par f 32 8, (fedOf s f x).out)] 0 (chargeHub 27 f.tenant s) = .done s1)
    (hopen : (fedOf s f x).state = .open) :
    ∃ t r, detokRun live s f = .done t r ∧ r.status = .ok ∧ fld r.result 0 4 = (streamHandle f s1).1 % 2 ^ 32
      ∧ kget t.text.streams (streamHandle f s1).1 = some (fedStream x (fedOf s f x)) ∧ t.mem = s1.mem := by
  have hroom : ¬ par f 20 4 < (fedOf s f x).out.length := Nat.not_lt.mpr hfit
  simp only [fedOf] at hroom hw hopen
  simp only [detokRun, hx, if_neg hroom, MemoryCommands.commitVerdict_done hw, hopen, if_true]
  have hcount := sameText_countFeed f.tenant (fedOf s f x) (streamAfter (streamHandle f s1).1 x (fedOf s f x) (streamHandle f s1).2)
  refine ⟨_, _, rfl, rfl, ?_, ?_, ?_⟩
  · simp only [okReply, List.append_assoc]
    exact Headers.fld_toLe_append 4 _ _
  · exact (congrArg (fun t => kget t.streams _) hcount.text).trans (kget_streamAfter hopen _ _ _)
  · exact hcount.mem.trans ((Canonical.streamAfter_mem _ _ _ _).trans (streamHandle_mem f s1))

/-! ### The rows -/

/-- Settles O36: each command by what its run comes to. The index of a new handle is a free value (log entry 6). -/
theorem textCommandsComplete : Obligations.TextCommandsComplete := by
  unfold Obligations.TextCommandsComplete
  refine ⟨?_, ?_, ?_, ?_, ?_, ?_⟩
  · intro s s1 h base f hr ht
    obtain ⟨k, u, hk, hfree, hmem, htiers⟩ := exists_freshHandle 4 (kkeys s1.text.tokenisers) s1
    exact ⟨k, _, _, execEntry_commits hr rfl (tokenizerLoadCommand_run ht hk), hfree, kget_withTokeniser _ _ _, rfl, rfl, rfl, hmem, htiers⟩
  · intro s s1 h base f hr ht
    obtain ⟨k, u, hk, hfree, hmem, htiers⟩ := exists_freshHandle 6 (kkeys s1.text.grammars) s1
    exact ⟨k, _, _, execEntry_commits hr rfl (grammarLoadCommand_run ht hk), hfree, kget_withGrammar _ _ _, rfl, hmem, htiers⟩
  · intro s s1 h base e f l z hr hl ht
    obtain ⟨k, u, hk, hfree, hmem, -⟩ := exists_freshHandle 5 (kkeys s1.text.stops) s1
    exact ⟨k, _, _, execEntry_commits hr rfl (stopSetCommand_run hl ht hk), hfree, kget_withStops _ _ _, rfl, rfl, rfl, hmem⟩
  · rintro s s1 h f _ _ hr rfl hfit rfl hw
    obtain ⟨t, r, hrun, hok, hcount, hsame⟩ := tokenizeRun_done hfit hw
    exact ⟨t, r, execEntry_commits hr rfl hrun, hok, hcount, hsame.mem, hsame.tiers, hsame.text, hsame.proto⟩
  · intro s s1 h f tok got kept hr ht hg hk hw
    obtain ⟨t, r, hrun, hok, hlen, hsame⟩ := packRun_done ht hg hk hw
    exact ⟨t, r, execEntry_commits hr rfl hrun, hok, hlen, hsame.mem, hsame.tiers, hsame.text⟩
  · rintro s s1 h f x _ hr hx rfl hfit hw hopen
    obtain ⟨t, r, hrun, hok, hfld, hget, hmem⟩ := detokRun_done (live := servedHandles) hx hfit hw hopen
    have hcommits := execEntry_commits (c := detokCommand) hr rfl hrun
    refine ⟨fun hp => ?_, fun hp => ?_⟩
    · have hopens : opensStream f = true := beq_iff_eq.mpr hp
      rw [streamHandle, if_pos hopens] at hfld hget
      exact ⟨_, t, r, _, (ofForm_of hr.1 hopens).trans hcommits, hok, hfld, freshHandle_not_held _ _ _, hget, rfl, rfl, hmem⟩
    · have hfeeds : opensStream f = false := beq_eq_false_iff_ne.mpr hp
      rw [streamHandle, hfeeds] at hget
      exact ⟨t, r, _, (ofForm_of hr.1 (by simp [hfeeds])).trans hcommits, hok, hget, rfl, rfl, hmem⟩

end Sys2Proof.TextCommands

/-! The fault log (R593, R594): what a fault and the write of the queue to flash leave. -/

namespace Sys2Proof.FaultLog

open Sys2Proof Sys2Proof.Machine

variable {code sev action unit tenant command a b : Nat} {s : State}

/-- A fault whose record finds room: the record joins the queue under the next SEQ, R594. -/
theorem logFault_room (h : s.faults.queue.length < 64) : logFault code sev action unit tenant command a b s
    = { s with faults := { s.faults with
        queue := s.faults.queue ++ [⟨s.faults.nextSeq, code, sev, action, if s.timeRuns then s.frontTime else 0, s.sec.bootCount, unit, tenant, command, a, b⟩]
        nextSeq := if s.faults.nextSeq = 0xFFFFFFFF then 1 else s.faults.nextSeq + 1
        latch := s.faults.latch || decide (2 ≤ sev)
        latchSeq := if 2 ≤ sev then s.faults.nextSeq else s.faults.latchSeq } } := if_pos h

/-- A fault that finds the queue full: its record is dropped and counted, R594. -/
theorem logFault_full (h : 64 ≤ s.faults.queue.length) : logFault code sev action unit tenant command a b s
    = { s with faults := { s.faults with
        dropped := s.faults.dropped + 1
        droppedSev := max s.faults.droppedSev sev
        latch := s.faults.latch || decide (2 ≤ sev) } } := if_neg (Nat.not_lt.mpr h)

/-- The latch is set by severity 2 and above, whether or not the record finds room, R593. -/
theorem logFault_latch : (logFault code sev action unit tenant command a b s).faults.latch = (s.faults.latch || decide (2 ≤ sev)) := by
  rcases Nat.lt_or_ge s.faults.queue.length 64 with h | h
  · rw [logFault_room h]
  · rw [logFault_full h]

/-- The state with the queue written to flash, R594. -/
def queueWritten (s : State) : State := { s with faults := { s.faults with
  flash := flushFlash s.faults.flash s.faults.queue
  queue := [] } }

theorem flushFaults_none_dropped (h : s.faults.dropped = 0) : flushFaults s = queueWritten s := if_pos h

/-- Where records were dropped, one LOG_LOST record with their count and highest severity stands for them, R594. -/
theorem flushFaults_dropped (h : s.faults.dropped ≠ 0) : flushFaults s = logFault 0x0012 s.faults.droppedSev 0 0xD000 0 0 s.faults.dropped s.faults.droppedSev
    { queueWritten s with faults := { (queueWritten s).faults with
        dropped := 0
        droppedSev := 0 } } := if_neg h

/-- Settles O60: the latch by `logFault_latch`, the record by whether the queue has room (R593, R594). -/
theorem faultsSetTheLatch : Obligations.FaultsSetTheLatch := by
  unfold Obligations.FaultsSetTheLatch
  refine ⟨fun s code sev action unit tenant command a b => ⟨fun h => ?_, fun h => ?_, fun h => ?_, fun h => ?_, ?_, ?_⟩, fun s => ⟨fun h => ?_, fun h => ?_⟩⟩
  · simp [logFault_latch, h]
  · simp [logFault_latch, Nat.not_le.mpr h]
  · rw [logFault_room h]
    exact ⟨_, rfl, rfl, rfl, rfl, rfl, rfl, rfl, rfl, rfl, rfl, rfl, rfl⟩
  · rw [logFault_full h]
    exact ⟨rfl, rfl, rfl⟩
  · exact Laws.logFault_mem s _ _ _ _ _ _ _ _
  · exact Laws.logFault_proto s _ _ _ _ _ _ _ _
  · rw [flushFaults_none_dropped h]
    exact ⟨rfl, rfl⟩
  · rw [flushFaults_dropped h, logFault_room (by simp [queueWritten])]
    exact ⟨_, rfl, rfl, rfl, rfl, rfl, rfl, fun hs => ⟨by simp [hs], if_pos hs⟩⟩

end Sys2Proof.FaultLog

/-! The host port: ring enables (R490), registers that software clears or unmasks (R501, R502, R513, R514), link events and resets (R494, R499). -/

namespace Sys2Proof.HostEvents

open Sys2Proof Sys2Proof.Machine Sys2Proof.Laws

variable {s : State} {n : Nat} {irq : Bool}

/-- The events of `MOD_STATUS` leave the submission rings, R513. -/
@[simp] theorem settle_sq (old s : State) : (settle old s).host.sq = s.host.sq :=
  congrArg (fun p : KMap SubRing × KMap CplRing × W32 => p.1) (Doorbells.settle_portRings s old)

/-! ### Ring enables -/

theorem sqEnable_valid (hs : (sqOf s.host n).state ≠ .enabled) (hp : sqPageInvalid (sqOf s.host n) = false) (hw : s.power.fwReady = true)
    (hh : (sqOf s.host n).halted = true → sqRewritten (sqOf s.host n) = true) :
    sqEnable n s = setSq n { sqOf s.host n with state := .enabled, enable := true, head := 0, tail := 0, err := 0, halted := false, rewritten := [] }
      (parityRewritten 2 (0x2000000 + n * 0x1000 + 0x18) s) := by
  have hr : ((sqOf s.host n).halted && !sqRewritten (sqOf s.host n)) = false := by
    cases h : (sqOf s.host n).halted <;> simp_all
  simp only [sqEnable, if_neg hs, hp, hw, hr, Bool.false_eq_true, if_false, Bool.not_true]

theorem sqEnable_invalid (hs : (sqOf s.host n).state ≠ .enabled) (hp : sqPageInvalid (sqOf s.host n) = true) :
    sqEnable n s = setSq n { sqOf s.host n with enable := false, err := 1 } s := by
  simp only [sqEnable, if_neg hs, hp, if_true]

/-- A completion ring as an enable leaves it, R475, R490. -/
def cqEnabled (irq : Bool) (r : CplRing) : CplRing :=
  { r with
    state := .enabled
    enable := true
    irqEn := irq
    head := 0
    tail := 0
    err := 0
    dropped := 0
    gen := if r.onceEnabled then r.gen + 1 else r.gen
    onceEnabled := true
    reserved := 0
    unsignalled := 0
    firstUnsignalled := 0
    halted := false
    rewritten := [] }

theorem cqEnable_valid (hs : (cqOf s.host n).state ≠ .enabled) (he : (cqOf s.host n).enable = false) (hp : cqPageInvalid (cqOf s.host n) = false)
    (hw : s.power.fwReady = true) (hh : (cqOf s.host n).halted = true → cqRewritten (cqOf s.host n) = true)
    (hg : (cqOf s.host n).onceEnabled = true → (cqOf s.host n).gen < 0xFFFF) :
    cqEnable n irq s = setCq n (cqEnabled irq (cqOf s.host n)) (voidReservations n (parityRewritten 2 (0x3000000 + n * 0x1000 + 0x18) s)) := by
  have hr : ((cqOf s.host n).halted && !cqRewritten (cqOf s.host n)) = false := by
    cases h : (cqOf s.host n).halted <;> simp_all
  have hx : ((cqOf s.host n).onceEnabled && decide (0xFFFF ≤ (cqOf s.host n).gen)) = false := by
    cases h : (cqOf s.host n).onceEnabled <;> simp_all
  simp only [cqPageInvalid] at hp
  simp only [cqRewritten] at hr
  simp only [cqEnable, cqPageInvalid, cqRewritten, if_neg hs, he, hp, hw, hr, hx, Bool.false_eq_true, if_false, Bool.not_true]
  rfl

theorem voidReservations_void (s : State) (n : Nat) : ∀ f ∈ (voidReservations n s).proto.flights, f.hdr.replyRing = n → f.reserved = 0 := by
  intro f hf hn
  obtain ⟨g, -, rfl⟩ := List.mem_map.mp hf
  by_cases hg : g.hdr.replyRing = n
  · simp [hg]
  · simp [hg] at hn

/-- Settles O4: an enable is granted where the page is valid, the firmware ready and a halted ring rewritten (R490); the events of `MOD_STATUS`
leave the rings. -/
theorem ringEnablesTakeEffect : Obligations.RingEnablesTakeEffect := by
  unfold Obligations.RingEnablesTakeEffect
  refine ⟨?_, ?_, ?_, ?_, ?_⟩
  · intro s n hc hs hp hw hh
    rw [← sqEnable_valid hs hp hw hh]
    exact if_pos hc
  · intro s n hc hs hp
    rw [← sqEnable_invalid hs hp]
    exact if_pos hc
  · intro s n hc
    exact if_pos hc
  · intro s n irq hc hs he hp hw hh hg
    refine ⟨_, if_pos hc, ?_⟩
    simp only [Doorbells.cqOf_settle, settle_proto, settle_sq, settle_mem, settle_power, settle_fabric, cqEnable_valid hs he hp hw hh hg, cqOf_setCq_self]
    exact ⟨rfl, rfl, rfl, rfl, rfl, rfl, rfl, voidReservations_void _ n, fun m hm => cqOf_setCq_ne _ _ hm, rfl, rfl, rfl, rfl⟩
  · intro s n irq hc
    refine ⟨_, if_pos hc, ?_⟩
    simp only [Doorbells.cqOf_settle, settle_proto, settle_sq, settle_mem, settle_power, settle_fabric, cqDisable, cqOf_setCq_self]
    exact ⟨trivial, trivial, trivial, voidReservations_void _ n, fun m hm => cqOf_setCq_ne _ _ hm, rfl, rfl, rfl, rfl⟩

/-! ### Registers that software clears, masks or unmasks -/

theorem bitOf_eq_testBit (v i : Nat) : bitOf v i = v.testBit i := by
  rw [Nat.testBit_eq_decide_div_mod_eq]
  rfl

/-- A masked write changes exactly the bits that its mask selects, R502. -/
theorem bitOf_maskedWrite {b : Nat} (old w : Nat) (hb : b < 16) : bitOf (maskedWrite old w 0x1FF) b =
    (if bitOf w (16 + b) && decide (b < 9) then bitOf w b else bitOf old b) := by
  have hhigh : (bits w 31 16).testBit b = w.testBit (16 + b) := by
    change ((w / 2 ^ 16) % 2 ^ 16).testBit b = _
    rw [Nat.testBit_mod_two_pow, Nat.testBit_div_two_pow, Nat.add_comm]
    simp [hb]
  have hlow : (bits w 15 0).testBit b = w.testBit b := by
    change ((w / 2 ^ 0) % 2 ^ 16).testBit b = _
    rw [Nat.testBit_mod_two_pow, Nat.testBit_div_two_pow]
    simp [hb]
  have hdef : maskedWrite old w 0x1FF = (old &&& ((2 ^ 16 - 1) ^^^ (bits w 31 16 &&& (2 ^ 9 - 1)))) ||| (bits w 15 0 &&& (bits w 31 16 &&& (2 ^ 9 - 1))) := rfl
  simp only [bitOf_eq_testBit]
  rw [hdef, Nat.testBit_or, Nat.testBit_and, Nat.testBit_and, Nat.testBit_xor, Nat.testBit_and, hhigh, hlow, Nat.testBit_two_pow_sub_one,
    Nat.testBit_two_pow_sub_one, decide_eq_true hb]
  cases w.testBit (16 + b) && decide (b < 9) <;> simp

theorem raiseVector_host (v : Nat) (s : State) : (raiseVector v s).host = { s.host with pba := (raiseVector v s).host.pba } := by
  simp only [raiseVector]
  split
  · split <;> rfl
  · rfl

/-- Raising vector 0 changes at most the pending bits of the host port, R514. -/
theorem raiseEvent_host (s : State) : (raiseEvent s).host = { s.host with pba := (raiseEvent s).host.pba } := by
  unfold raiseEvent
  split
  · rfl
  · exact raiseVector_host 0 s

/-- A write of IRQ_EVENT_EN stores the enables, and leaves the latched events, memory and power. -/
theorem irqEventEnWrite_effect (v : W32) (s : State) : (irqEventEnWrite v s).mem = s.mem ∧ (irqEventEnWrite v s).power = s.power
    ∧ (irqEventEnWrite v s).host.events = s.host.events ∧ (irqEventEnWrite v s).host.eventEn = maskedWrite s.host.eventEn v.toNat 0x1FF := by
  simp only [irqEventEnWrite]
  split
  · exact ⟨raiseEvent_mem _, raiseEvent_power _, by rw [raiseEvent_host]; rfl, by rw [raiseEvent_host]; rfl⟩
  · exact ⟨rfl, rfl, rfl, rfl⟩

/-- Unmasking a vector sends it where its pending bit is set, and the bit is clear then, R496. -/
theorem unmaskVector_effect (n : Nat) (s : State) : (msixEntry (unmaskVector n s).host n).masked = false
    ∧ (unmaskVector n s).host.pba.contains n = false
    ∧ (unmaskVector n s).outputs = (if s.host.pba.contains n then s.outputs ++ [.msix n (msixEntry s.host n).addr (msixEntry s.host n).data] else s.outputs)
    ∧ (unmaskVector n s).mem = s.mem ∧ (unmaskVector n s).host.sq = s.host.sq ∧ (unmaskVector n s).host.cq = s.host.cq := by
  simp only [unmaskVector]
  by_cases hp : s.host.pba.contains n = true
  · rw [if_pos hp, if_pos hp]
    exact ⟨by simp [msixEntry, emit], by simp [emit], rfl, rfl, rfl, rfl⟩
  · rw [if_neg hp, if_neg hp]
    exact ⟨by simp [msixEntry], by simpa using hp, rfl, rfl, rfl, rfl⟩

/-- Settles O5: the masked write by its bits, the unmasking by whether the pending bit is set; the other writes store what they say. -/
theorem interruptRegistersTakeWrites : Obligations.InterruptRegistersTakeWrites := by
  unfold Obligations.InterruptRegistersTakeWrites
  refine ⟨fun s => rfl, fun s v hc => if_pos hc, fun s w v hc => if_pos hc, fun s w v hc => if_pos hc, fun s v hc => ?_, fun s n hc => ?_,
    fun s a b => rfl, fun s b => rfl⟩
  · obtain ⟨hmem, hpower, hevents, hen⟩ := irqEventEnWrite_effect v s
    refine ⟨_, if_pos hc, hmem, hpower, hevents, fun b hb => ?_⟩
    rw [hen]
    exact bitOf_maskedWrite _ _ hb
  · exact ⟨_, if_pos hc, unmaskVector_effect n s⟩

/-! ### Link events and resets -/

theorem kget_map {α β : Type} (g : α → β) (m : KMap α) (i : Nat) : kget (m.map (fun p => (p.1, g p.2))) i = (kget m i).map g := by
  induction m with
  | nil => rfl
  | cons p m ih => by_cases hp : p.1 = i <;> simp [kget, hp, ih]

/-- A completion ring as a function-level reset leaves it: at reset but for its generation, R499. -/
def resetRing (r : CplRing) : CplRing := { CplRing.reset with gen := r.gen, onceEnabled := r.onceEnabled }

theorem cqOf_resetRings (s : State) (n : Nat) : (cqOf (resetRings s.host) n).state = .disabled ∧ (cqOf (resetRings s.host) n).gen = (cqOf s.host n).gen := by
  have hring : kget (resetRings s.host).cq n = (kget s.host.cq n).map resetRing := kget_map resetRing _ _
  simp only [cqOf, kgetD, hring]
  cases kget s.host.cq n <;> exact ⟨rfl, rfl⟩

/-- A reset of the function leaves what `MOD_STATUS` reads, so that no event follows it, R499, R513. -/
theorem nextOf_functionReset (config : Bool) (s : State) : nextOf s (functionReset config s) = .next (functionReset config s) :=
  nextOf_of_same s (by cases config <;> rfl)

theorem functionReset_leaves (s : State) : FunctionReset s (functionReset true s) :=
  ⟨rfl, rfl, rfl, rfl, rfl, rfl, cqOf_resetRings s, rfl, rfl, rfl, by simp [functionReset, voidAll], rfl, rfl, rfl, rfl, rfl, rfl, rfl, rfl⟩

theorem flrOrHold_resets (config : Bool) (h : (s.power.fwReady || !s.power.pwrgd) = true) : flrOrHold config s = functionReset config s := if_pos h

theorem flrOrHold_holds (config : Bool) (h : (s.power.fwReady || !s.power.pwrgd) = false) :
    flrOrHold config s = { s with host := { s.host with flrHeld := true } } := if_neg (by simp [h])

/-- Settles O7: a reset takes effect at once or is held (R539), and changes nothing that `MOD_STATUS` reads. That D3hot keeps bus mastering is log
entry 90. -/
theorem hostLinkEventsTakeEffect : Obligations.HostLinkEventsTakeEffect := by
  unfold Obligations.HostLinkEventsTakeEffect
  refine ⟨fun s h => ?_, fun s h => ?_, fun s h => ?_, fun s => rfl, fun s => rfl, fun s rate width flit => rfl, fun s h => ?_, fun s what => rfl,
    fun s n => rfl, fun s n => rfl⟩
  · have hreset : nextOf s (flrOrHold true s) = .next (functionReset true s) := by rw [flrOrHold_resets true h, nextOf_functionReset]
    have hdown : exec .hostLinkDown s = .next (linkDown (functionReset true s)) := by
      rw [← flrOrHold_resets true h]
      exact nextOf_of_same s (by rw [flrOrHold_resets true h]; rfl)
    exact ⟨⟨_, hreset, functionReset_leaves s⟩, ⟨_, hreset, functionReset_leaves s⟩, ⟨_, hdown, functionReset_leaves s, rfl, rfl⟩⟩
  · have hheld := congrArg (nextOf s) (flrOrHold_holds true h)
    have hdown : exec .hostLinkDown s = .next (linkDown { s with host := { s.host with flrHeld := true } }) := by
      rw [← flrOrHold_holds true h]
      exact nextOf_of_same s (by rw [flrOrHold_holds true h]; rfl)
    exact ⟨hheld, hheld, _, hdown, rfl, rfl, rfl, rfl, rfl⟩
  · have hd3 : exec .d3hotEntry s = .next { functionReset false s with host := { (functionReset false s).host with d3hot := true } } := by
      rw [← flrOrHold_resets false h]
      exact nextOf_of_same s (by rw [flrOrHold_resets false h]; rfl)
    exact ⟨_, hd3, rfl, rfl, rfl, rfl, rfl, rfl, rfl, rfl, rfl⟩
  · have hloss : exec .refclkLoss s = .next { linkDown (functionReset true s) with power := { s.power with refclk := false } } := by
      have hsame : exec .refclkLoss s = nextOf s { linkDown (flrOrHold true s) with power := { (linkDown (flrOrHold true s)).power with refclk := false } } := rfl
      rw [hsame, flrOrHold_resets true h]
      exact nextOf_of_same s rfl
    exact ⟨_, hloss, rfl, rfl, rfl, rfl, rfl⟩

end Sys2Proof.HostEvents

/-! Power and the board: input power, HV_EN, PERST_N and regulation (R521, R536, R540, R541), the management tick (R527, R528, R594, R599), PMBus (R551, R552). -/

namespace Sys2Proof.PowerEvents

open Sys2Proof Sys2Proof.Machine Sys2Proof.Laws

variable {s : State}

/-! ### What the events of `MOD_STATUS` leave of the host port -/

/-- The events of `MOD_STATUS` write the latched events, the pending bits and PME_Status alone, R513, R514, R553. -/
theorem latchEvents_host (bs : List Nat) (s : State) : (latchEvents bs s).host
    = { s.host with
        pba := (latchEvents bs s).host.pba
        events := (latchEvents bs s).host.events
        pmeStatus := (latchEvents bs s).host.pmeStatus } := by
  simp only [latchEvents]
  split
  · rfl
  · split
    · rw [HostEvents.raiseEvent_host]
    · rfl

theorem settle_host (old s : State) : (settle old s).host
    = { s.host with
        pba := (settle old s).host.pba
        events := (settle old s).host.events
        pmeStatus := (settle old s).host.pmeStatus } := latchEvents_host _ s

@[simp] theorem settle_linkRate (old s : State) : (settle old s).host.linkRate = s.host.linkRate := by rw [settle_host]

@[simp] theorem settle_bar0 (old s : State) : (settle old s).host.bar0 = s.host.bar0 := by rw [settle_host]

/-! ### Input power, HV_EN, PERST_N, regulation -/

/-- Main conversion starts as a power-cycle reset where its conditions hold, R521, R540. -/
theorem startConversion_starts (hc : s.power.calm = true) (hr : s.power.inRange = true) (he : s.power.hvEn = true) (ht : s.power.thermtrip = false)
    (hv : s.power.conversion = false) : startConversion s
      = { restartAkent false true s with
          power := { (restartAkent false true s).power with conversion := true, bootRetries := 0 }
          faults := { (restartAkent false true s).faults with watchdogResets := [], watchdogStopped := false } } := if_pos (by simp [hc, hr, he, ht, hv])

/-- Settles O8: each event by its effect; the events of `MOD_STATUS` leave power, the security processor and the fault log. -/
theorem powerEventsTakeEffect : Obligations.PowerEventsTakeEffect := by
  unfold Obligations.PowerEventsTakeEffect
  refine ⟨fun s vin => ?_, fun s => ?_, fun s slot mfg hu hc => ?_, fun s slot mfg hc => ?_, fun s vin hc hlo hhi he ht hv => ?_, fun s tj h => ?_,
    fun s tj htj he hc hr hv => ?_, fun s hv => ?_, fun s hv => ?_, fun s => ?_, fun s => rfl, fun s hv => if_pos hv⟩
  · exact ⟨_, rfl, rfl, rfl, rfl, rfl, rfl, rfl, rfl, rfl, rfl, rfl, rfl, rfl, rfl, by simp [powerOff, restartAkent, keepFaults], rfl, rfl, rfl, rfl, rfl,
      rfl, rfl, rfl⟩
  · exact ⟨_, rfl, rfl, rfl, rfl, rfl, rfl, rfl, rfl⟩
  · exact if_pos ⟨hu, hc⟩
  · exact if_neg (by simp [hc])
  · refine ⟨_, if_pos ⟨hc, hlo, hhi⟩, ?_⟩
    simp only [settle_power, settle_mem, settle_proto, settle_faults, settle_sec,
      startConversion_starts (s := { s with power := { s.power with inRange := true, vin := vin } }) hc rfl he ht hv]
    exact ⟨trivial, rfl, rfl, rfl, rfl, rfl, by simp [restartAkent, keepFaults], trivial, rfl, rfl⟩
  · exact if_pos (Or.inr h)
  · refine ⟨_, if_neg (by simp [he, htj]), ?_⟩
    simp only [settle_power, settle_mem,
      startConversion_starts (s := { s with power := { s.power with hvEn := true, thermtrip := false } }) hc hr rfl rfl hv]
    exact ⟨rfl, rfl, trivial, rfl⟩
  · refine ⟨_, rfl, ?_⟩
    simp only [settle_power, settle_mem, settle_proto, if_pos hv]
    exact ⟨by simp [shutdown, restartAkent, keepPower], rfl, rfl, trivial, rfl, rfl, by simp [shutdown, restartAkent, keepPower]⟩
  · exact congrArg (nextOf s) (if_neg (by simp [hv]))
  · refine ⟨_, rfl, ?_⟩
    simp only [settle_power, settle_mem, settle_proto, settle_faults, settle_linkRate, settle_bar0, settle_frontTime]
    exact ⟨trivial, trivial, rfl, rfl, rfl, rfl, rfl, rfl, by simp [restartAkent, keepFaults], rfl, rfl⟩

/-! ### The management tick -/

/-- A flash ring with room takes the queue behind its records, R594. -/
theorem flushFlash_room (flash queue : List FaultRec) (h : queue.length + flash.length ≤ 126976) : flushFlash flash queue = flash ++ queue := by
  induction queue generalizing flash with
  | nil => simp [flushFlash]
  | cons r rs ih =>
    rw [List.length_cons] at h
    have hroom : flash.length < 126976 := by omega
    rw [flushFlash, if_pos hroom, ih _ (by rw [List.length_append, List.length_singleton]; omega), List.append_assoc, List.singleton_append]

/-- Of keys that are all set to one value, each reads as that value. -/
theorem kgetD_foldl_kset {v d c : Nat} (cs : List Nat) (l : KMap Nat) (h : kgetD l c d = v ∨ c ∈ cs) : kgetD (cs.foldl (fun l c => kset l c v) l) c d = v := by
  induction cs generalizing l with
  | nil => simpa using h
  | cons b cs ih =>
    apply ih
    by_cases hb : c = b
    · subst hb
      exact .inl (kgetD_kset_self _ _ _ _)
    · rw [kgetD_kset_ne _ _ _ hb]
      simpa [hb] using h

/-- The state of a tick once its sample is taken, R527, R528, R587. -/
def sampled (x : TickSample) (s : State) : State :=
  { advance x.now s with
    ticks := s.ticks + 1
    power := tickPower x s.power }

/-- A tick with no register upset: the sample, the reports, what a ready module does at a tick, the fault log. -/
theorem managementTick_runs {x : TickSample} (hc : s.power.calm = true) (hx : x.upset = []) :
    managementTick x s = flushFaults (tickReady (tickReports x (sampled x s))) := by
  have hcalm : ¬ s.power.calm = false := by simp [hc]
  simp only [managementTick, if_neg hcalm, hx, List.foldl_nil, advance_ticks, advance_power]
  rfl

/-- A core that reports at the tick is noted as having reported, R599. -/
theorem tickReports_notes {x : TickSample} {c : Nat} (s : State) (hc : c ∈ x.reporting) (h8 : c < 8) :
    kgetD (tickReports x s).faults.isobarReport c 0 = s.ticks :=
  kgetD_foldl_kset _ _ (.inr (List.mem_filter.mpr ⟨List.mem_range.mpr h8, by simp [hc]⟩))

theorem tickReady_unready (h : s.power.fwReady = false) : tickReady s = s := if_neg (by simp [h])

/-- Settles O12: the tick by its parts; the queue is written to flash last (R594). -/
theorem managementTickTakesSample : Obligations.ManagementTickTakesSample := by
  unfold Obligations.ManagementTickTakesSample
  refine ⟨fun s x hc => ?_, fun s x hc hw hx hd => ?_, fun s x hc hx => ?_⟩
  · exact congrArg (nextOf s) (if_pos hc)
  · have hunready : tickReady (tickReports x (sampled x s)) = tickReports x (sampled x s) := tickReady_unready hw
    have hflush := FaultLog.flushFaults_none_dropped (s := tickReports x (sampled x s)) (by rw [← hd]; simp [tickReports, sampled])
    refine ⟨_, rfl, ?_⟩
    rw [managementTick_runs hc hx, hunready, hflush]
    simp only [settle_ticks, settle_power, settle_faults, settle_mem, settle_proto, settle_fabric, settle_tiers]
    refine ⟨rfl, rfl, rfl, rfl, rfl, rfl, rfl, rfl, fun hroom => ?_, ?_⟩
    · simp only [FaultLog.queueWritten, tickReports, sampled, advance_faults]
      exact flushFlash_room _ _ hroom
    · simp [FaultLog.queueWritten, tickReports, sampled]
  · refine ⟨tickReports x (sampled x s), congrArg (nextOf s) (managementTick_runs hc hx), rfl, rfl, rfl, ?_, ?_, ?_, ?_,
      fun c hc h8 => tickReports_notes _ hc h8⟩ <;> simp [tickReports, sampled]

/-! ### PMBus -/

/-- Settles O13: the calm island answers each read by its bytes, and nothing is answered without it (R530, R552). -/
theorem pmbusCommandsAnswer : Obligations.PmbusCommandsAnswer := by
  unfold Obligations.PmbusCommandsAnswer
  refine ⟨fun s hc => ?_, fun s hc i hi => ?_, fun s code hc hcode => ?_, fun s ha => ?_, fun s ha => if_pos ha, fun s => rfl⟩
  · have answers : ∀ b, smbusAnswer b s = .next (emit (.smbus b) s) := fun b => if_pos hc
    exact ⟨answers _, answers _, answers _, answers _, answers _, answers _, answers _, answers _, answers _, answers _, answers _, if_pos hc⟩
  · have silent : ∀ b, smbusAnswer b s = .next s := fun b => if_neg (by simp [hc])
    simp only [List.mem_cons, List.not_mem_nil, or_false] at hi
    rcases hi with rfl | rfl | rfl | rfl | rfl | rfl | rfl | rfl | rfl | rfl | rfl | rfl
    case inr.inr.inr.inr.inr.inr.inr.inr.inr.inr.inr => exact if_neg (by simp [hc])
    all_goals exact silent _
  · exact if_pos ⟨hc, by simpa [pmbusCodes] using hcode⟩
  · exact if_neg (by simp [ha])

end Sys2Proof.PowerEvents

/-! Debug and telemetry commands (chapter 20): what the run of each comes to where its checks pass. -/

namespace Sys2Proof.DebugCommands

open Sys2Proof Sys2Proof.Machine Sys2Proof.Laws

variable {s : State} {h : Nat} {f g : Flight} {r : Run}

/-! ### Breakpoints -/

/-- A breakpoint is kept under an ID that no other has, R566; which one is a free value (log entry 6). -/
theorem breakSetCommand_run (s : State) (f : Flight) : ∃ id, (∀ b ∈ s.dbg.breaks, b.id ≠ id) ∧ breakSetCommand.run s f = .done { s with
    freeCtr := s.freeCtr + 1
    dbg := { s.dbg with breaks := s.dbg.breaks ++ [⟨id, par f 0 1, par f 1 1, par f 2 1, par f 4 4, par f 8 8, par f 16 2, f.hdr.sessionId⟩] } }
      (okReply (toLe 4 id ++ zeros 4)) := by
  obtain ⟨k, hk⟩ := TextCommands.exists_firstFree (s.dbg.breaks.map (·.id)) ((drawFree s).1 % 2 ^ 31)
  refine ⟨((firstFree (s.dbg.breaks.map (·.id)) ((drawFree s).1 % 2 ^ 31) ((s.dbg.breaks.map (·.id)).length + 1)).getD 0), fun b hb he => ?_, rfl⟩
  rw [hk] at he
  exact (TableCommands.firstFree_some hk).1 (List.mem_map.mpr ⟨b, hb, he⟩)

/-! ### Halting and resuming -/

/-- The state with one more HALT that waits for a run, R568. -/
def haltWaiting (serial target : Nat) (s : State) : State := { s with dbg := { s.dbg with haltWaits := s.dbg.haltWaits ++ [(serial, target)] } }

/-- HALT of a run: it begins the halt or waits for it, and of a halted run says so, R567, R568. -/
theorem haltRun_run (hk : par f 0 1 = 0) (hg : targetFlight s f = some g) (hr : runOf s g.serial = some r) : haltRun s f =
    match r.halt with
    | .none => .begun (haltWaiting f.serial g.serial (startHalt r none 0 0 s))
    | .draining _ => .begun (haltWaiting f.serial g.serial s)
    | .halted => .done s (outcomeReply 1)
    | .stepping _ _ => .done s (outcomeReply 1) := by
  simp only [haltRun, hk, Nat.zero_ne_one, if_false, hg, hr]
  rfl

theorem haltRun_no_run (hk : par f 0 1 = 0) (hg : targetFlight s f = some g) (hr : runOf s g.serial = none) :
    haltRun s f = .begun (haltWaiting f.serial g.serial s) := by
  simp only [haltRun, hk, Nat.zero_ne_one, if_false, hg, hr]
  rfl

theorem mem_isobarCores {c : Nat} (h8 : c < 8) : c ∈ isobarCores f ↔ bitOf (par f 2 1) c = true := by
  simp [isobarCores, maskCores, h8]

/-- The OUTCOME of a command on isobar cores is 1 where none that its mask names has the property, R571, R572. -/
theorem outcome_isobar (p : Nat → Bool) :
    (if ((isobarCores f).filter p).isEmpty then 1 else 0) = 1 ↔ ∀ c, c < 8 → bitOf (par f 2 1) c = true → p c = false := by
  have hnone : ((isobarCores f).filter p).isEmpty = true ↔ ∀ c, c < 8 → bitOf (par f 2 1) c = true → p c = false := by
    rw [List.isEmpty_iff, List.filter_eq_nil_iff]
    refine ⟨fun hall c h8 hc => by simpa using hall c ((mem_isobarCores h8).mpr hc), fun hall c hc => ?_⟩
    obtain ⟨h8, hbit⟩ := List.mem_filter.mp hc
    simp [hall c (List.mem_range.mp h8) hbit]
  rw [← hnone]
  split <;> simp_all

theorem foldl_track_dbg (code : Nat) (cs : List Nat) (s : State) : (cs.foldl (fun t c => track code (0x9000 + c) 0 0 0 0 t) s).dbg.isobarHalted
      = s.dbg.isobarHalted ∧ (cs.foldl (fun t c => track code (0x9000 + c) 0 0 0 0 t) s).mem = s.mem
    ∧ (cs.foldl (fun t c => track code (0x9000 + c) 0 0 0 0 t) s).compute = s.compute := by
  induction cs generalizing s with
  | nil => exact ⟨rfl, rfl, rfl⟩
  | cons c cs ih => exact ih _

/-- HALT of isobar cores halts those that the mask names; its OUTCOME is 1 where all of them are halted already, R571. -/
theorem haltCommand_isobar (hk : par f 0 1 = 1) : ∃ t o, haltCommand.run s f = .done t (okReply (toLe 1 o ++ zeros 7))
    ∧ (∀ c, c < 8 → bitOf (par f 2 1) c = true → t.dbg.isobarHalted.contains c = true)
    ∧ (o = 1 ↔ ∀ c, c < 8 → bitOf (par f 2 1) c = true → s.dbg.isobarHalted.contains c = true) ∧ t.mem = s.mem ∧ t.compute = s.compute := by
  obtain ⟨hhalted, hmem, hcompute⟩ := foldl_track_dbg 0xA ((isobarCores f).filter (fun c => !s.dbg.isobarHalted.contains c)) s
  refine ⟨_, _, if_pos hk, fun c h8 hc => ?_, ?_, hmem, hcompute⟩
  · rw [List.contains_iff_mem]
    refine RowEvents.mem_sortBy.mpr ?_
    rw [hhalted]
    by_cases hin : c ∈ s.dbg.isobarHalted
    · exact List.mem_append_left _ hin
    · exact List.mem_append_right _ (List.mem_filter.mpr ⟨(mem_isobarCores h8).mpr hc, by simpa using hin⟩)
  · simpa using outcome_isobar (f := f) (fun c => !s.dbg.isobarHalted.contains c)

/-- RESUME of isobar cores lets those go on that the mask names; its OUTCOME is 1 where none of them is halted, R572. -/
theorem resumeCommand_isobar (hk : par f 0 1 = 1) : ∃ t o, resumeCommand.run s f = .done t (okReply (toLe 1 o ++ zeros 7))
    ∧ (∀ c, c < 8 → t.dbg.isobarHalted.contains c = (s.dbg.isobarHalted.contains c && !bitOf (par f 2 1) c))
    ∧ (o = 1 ↔ ∀ c, c < 8 → bitOf (par f 2 1) c = true → s.dbg.isobarHalted.contains c = false) ∧ t.mem = s.mem ∧ t.compute = s.compute := by
  obtain ⟨hhalted, hmem, hcompute⟩ := foldl_track_dbg 0xB ((isobarCores f).filter s.dbg.isobarHalted.contains) s
  refine ⟨_, _, if_pos hk, fun c h8 => ?_, outcome_isobar _, hmem, hcompute⟩
  have hnamed := mem_isobarCores (f := f) h8
  by_cases hin : c ∈ s.dbg.isobarHalted <;> simp [hhalted, hnamed, hin]

/-- RESUME of a halted run lets it go on, and of another says that it is not halted, R572. -/
theorem resumeCommand_run (hk : par f 0 1 = 0) : resumeCommand.run s f = match targetRun s f with
    | none => .done s (outcomeReply 1)
    | some r => if r.halt = .halted then .done (resumeRun r.serial s) (outcomeReply 0) else .done s (outcomeReply 1) := by
  simp only [resumeCommand, hk, Nat.zero_ne_one, if_false] <;> rfl

theorem resumeCommand_unhalted (hk : par f 0 1 = 0) (hn : ∀ r, targetRun s f = some r → r.halt ≠ .halted) :
    resumeCommand.run s f = .done s (okReply (toLe 1 1 ++ zeros 7)) := by
  rw [resumeCommand_run hk]
  cases hr : targetRun s f with
  | none => rfl
  | some r => exact if_neg (hn r hr)

/-! ### Reading state -/

/-- The bytes of STATE_READ of a run, by their kind, R575. -/
def stateBytes (s : State) (r : Run) (f : Flight) : Bytes :=
  if par f 16 1 = 0 then coreBytes (coreOf s (targetHart r f))
  else if par f 16 1 = 1 then (List.range 32).flatMap (vbytes (cellOf s (targetHart r f / 8)))
  else if par f 16 1 = 2 then accBytes (cellOf s (targetHart r f / 8)) (par f 20 4) (par f 24 4)
  else if par f 16 1 = 3 then scratchRead s (targetHart r f / 8) (par f 20 4) (par f 24 4)
  else Memory.readN (coreOf s (targetHart r f)).dm (0x10000 + par f 20 4) (par f 24 4)

/-- Kind 5 is of an isobar core and no other kind is, R575. -/
theorem stateKind_of_check (hc : stateReadCommand.check s f = none) : par f 16 1 = 5 ↔ par f 0 1 = 1 := by
  have hkind := Allocations.not_fails_of_firstFail hc (badParamIf (decide (5 < par f 16 1) || (par f 16 1 == 5) != (par f 0 1 == 1)) 16) (by simp)
  simp only [badParamIf, Bool.or_eq_false_iff, bne_eq_false_iff_eq] at hkind
  simpa using Bool.eq_iff_iff.mp hkind.2

theorem stateReadCommand_run (hc : stateReadCommand.check s f = none) (hk : par f 0 1 = 0) (hr : targetRun s f = some r) :
    stateReadCommand.run s f = .done s (okReply (stateBytes s r f)) := by
  have hkind : ¬ par f 16 1 = 5 := fun h5 => by simp [(stateKind_of_check hc).mp h5] at hk
  simp only [stateReadCommand, if_neg hkind, hr]
  rfl

theorem freeBytes_effect (n : Nat) (s : State) : (freeBytes n s).1.length = n ∧ (freeBytes n s).2 = { s with freeCtr := s.freeCtr + n } := by
  induction n generalizing s with
  | zero => exact ⟨rfl, rfl⟩
  | succ n ih =>
    obtain ⟨hlen, hstate⟩ := ih (drawFree s).2
    refine ⟨congrArg (· + 1) hlen, hstate.trans ?_⟩
    simp only [drawFree, Nat.add_assoc, Nat.add_comm 1]

theorem stateReadCommand_isobar (hc : stateReadCommand.check s f = none) (hk : par f 0 1 = 1) :
    stateReadCommand.run s f = .done { s with freeCtr := s.freeCtr + 256 } (okReply (zeros 8 ++ (freeBytes 256 s).1)) := by
  rw [← (freeBytes_effect 256 s).2]
  simp only [stateReadCommand, if_pos ((stateKind_of_check hc).mpr hk)]

/-! ### Gauges -/

/-- The gauge of the slot that GAUGE_SET names, R586. -/
def namedGauge (s : State) (f : Flight) : Gauge := kgetD s.dbg.gauges (gaugeKey f) Gauge.cleared

/-- The state with a gauge stored in that slot. -/
def withGauge (f : Flight) (x : Gauge) (s : State) : State := { s with dbg := { s.dbg with gauges := kset s.dbg.gauges (gaugeKey f) x } }

/-- GAUGE_SET by its operation: arm, read, read and clear, disarm, R586. -/
theorem gaugeCommand_run (s : State) (f : Flight) : gaugeCommand.run s f =
    if par f 3 1 = 0 then .done (withGauge f { Gauge.cleared with armed := true } s) (okReply [])
    else if par f 3 1 = 1 then .done s (okReply (gaugeBytes (namedGauge s f)))
    else if par f 3 1 = 2 then .done (withGauge f { Gauge.cleared with armed := (namedGauge s f).armed } s) (okReply (gaugeBytes (namedGauge s f)))
    else .done (withGauge f { namedGauge s f with armed := false } s) (okReply []) := rfl

/-! ### Counters -/

theorem ctrGet_ctrSet_ne {c d : Ctr} {k i : Nat} (l : Counters) (v : W64) (hne : ¬ (d = c ∧ i = k)) : ctrGet (ctrSet l c k v) d i = ctrGet l d i := by
  have hother : ¬ (c = d ∧ k = i) := fun ⟨hd, hi⟩ => hne ⟨hd.symm, hi.symm⟩
  induction l with
  | nil => simp [ctrSet, ctrGet, hother]
  | cons p l ih =>
    obtain ⟨c', k', v'⟩ := p
    by_cases hp : c' = c ∧ k' = k
    · obtain ⟨rfl, rfl⟩ := hp
      simp [ctrSet, ctrGet, hother]
    · simp [ctrSet, ctrGet, hp, ih]

theorem ctrGet_ctrAdd_ne {c d : Ctr} {k i : Nat} (l : Counters) (n : Nat) (hne : ¬ (d = c ∧ i = k)) : ctrGet (ctrAdd l c k n) d i = ctrGet l d i := by
  unfold ctrAdd
  split
  · rfl
  · exact ctrGet_ctrSet_ne l _ hne

/-- The reply of COUNTERS_READ: the set, the count of values, front time, the values, R589. -/
def countersReply (s : State) (f : Flight) (vs : List Nat) : Reply :=
  okReply (toLe 1 (par f 0 1) ++ [0] ++ toLe 2 vs.length ++ zeros 4 ++ toLe 8 s.frontTime ++ vs.flatMap (toLe 8))

theorem countersReadCommand_counters (h5 : par f 0 1 ≠ 5) (h6 : par f 0 1 ≠ 6) :
    countersReadCommand.run s f = .done s (countersReply s f (counterSet s (par f 0 1) (par f 4 4))) := by
  simp only [countersReadCommand, if_neg h5, if_neg h6]
  rfl

theorem countersReadCommand_arrays (h5 : par f 0 1 = 5) :
    countersReadCommand.run s f = .done (idleArrays (par f 4 4) s) (countersReply s f (counterSet (idleArrays (par f 4 4) s) 5 (par f 4 4))) := by
  simp only [countersReadCommand, countersReply, h5]
  rfl

theorem countersReadCommand_queues (h6 : par f 0 1 = 6) : countersReadCommand.run s f
    = .done (queueSet (par f 4 4) (bitOf (par f 1 1) 0) s).2 (countersReply s f (queueSet (par f 4 4) (bitOf (par f 1 1) 0) s).1) := by
  simp only [countersReadCommand, if_pos h6]
  rfl

/-! ### The rows -/

/-- Settles O21: each command by what its run comes to. Log entries 7, 34, 40 and 87 are the model's own. -/
theorem debugCommandsComplete : Obligations.DebugCommandsComplete := by
  unfold Obligations.DebugCommandsComplete
  refine ⟨?_, ?_, ?_, ?_, ?_, ?_, ?_, ?_, ?_, ?_, ?_, ?_, ?_, ?_, ?_, ?_, ?_, ?_⟩
  · intro s h f hr hh
    obtain ⟨id, hnew, hrun⟩ := breakSetCommand_run s f
    exact ⟨id, _, execCommand_commits hr hh rfl hrun, hnew, rfl⟩
  · intro s h f hr hh
    exact execCommand_commits hr hh rfl rfl
  · intro s h f g r hr hh hk hg hrun hnone
    refine execCommand_begins hr hh ((haltRun_run hk hg hrun).trans ?_)
    rw [hnone]
    rfl
  · intro s h f g hr hh hk hg
    refine ⟨fun hwait => execCommand_begins hr hh ?_, fun ⟨r, hrun, hhalted⟩ => execCommand_commits hr hh rfl ((haltRun_run hk hg hrun).trans ?_)⟩
    · rcases hwait with hnone | ⟨r, b, hrun, hdrain⟩
      · exact haltRun_no_run hk hg hnone
      · refine (haltRun_run hk hg hrun).trans ?_
        rw [hdrain]
        rfl
    · rcases hhalted with hhalted | ⟨a, b, hstep⟩
      · rw [hhalted]
        rfl
      · rw [hstep]
        rfl
  · intro s h f hr hh hk
    obtain ⟨t, o, hrun, heffect⟩ := haltCommand_isobar (s := s) hk
    exact ⟨t, o, execCommand_commits hr hh rfl hrun, heffect⟩
  · intro s h f r hr hh hk hrun hhalted
    refine execCommand_commits hr hh rfl ((resumeCommand_run hk).trans ?_)
    rw [hrun]
    exact if_pos hhalted
  · intro s h f hr hh hk hn
    exact execCommand_commits hr hh rfl (resumeCommand_unhalted hk hn)
  · intro s h f hr hh hk
    obtain ⟨t, o, hrun, heffect⟩ := resumeCommand_isobar (s := s) hk
    exact ⟨t, o, execCommand_commits hr hh rfl hrun, heffect⟩
  · intro s h f hr hh hk
    exact execCommand_commits hr hh rfl (if_pos hk)
  · intro s h f r hr hh hk hrun
    refine execCommand_begins hr hh ?_
    simp only [stepCommand, hk, Nat.zero_ne_one, if_false, hrun]
  · intro s h f r hr hh hk hrun
    have hcheck := hr
    obtain ⟨_, _, _, _, _, hc, _, _⟩ := hcheck
    exact execCommand_commits hr hh rfl (stateReadCommand_run hc hk hrun)
  · intro s h f hr hh hk
    have hcheck := hr
    obtain ⟨_, _, _, _, _, hc, _, _⟩ := hcheck
    exact ⟨_, (freeBytes_effect 256 s).1, execCommand_commits hr hh rfl (stateReadCommand_isobar hc hk)⟩
  · intro s h f hr hh
    exact execCommand_commits hr hh rfl rfl
  · rintro s h f _ hr hh rfl
    have row : ∀ (p : Flight → Bool) {t : State} {r : Reply}, p f = true → gaugeCommand.run s f = .done t r →
        ofForm p h s (execCommand gaugeCommand h) = commits gaugeCommand s f t r :=
      fun p _ _ hp hrun => (ofForm_of hr.1 hp).trans (execCommand_commits hr hh rfl hrun)
    refine ⟨fun hk => row _ (by simp [hk]) ?_, fun hk => row _ (by simp [hk]) ?_, fun hk => row _ (by simp [hk]) ?_, fun hk => row _ (by simp [hk]) ?_⟩ <;>
      rw [gaugeCommand_run, hk] <;> rfl
  · intro s h f hr
    exact execEntry_commits hr rfl rfl
  · intro s h f hr hh
    exact execCommand_commits hr hh rfl rfl
  · intro s h f hr hh
    exact execCommand_commits hr hh rfl rfl
  · intro s h f hr hh
    by_cases h5 : par f 0 1 = 5
    · refine ⟨_, _, execCommand_commits hr hh rfl (countersReadCommand_arrays h5), fun hn => absurd h5 hn, fun _ => ⟨rfl, rfl, fun c k hne => ?_⟩, fun h6 => ?_⟩
      · exact ctrGet_ctrAdd_ne _ _ hne
      · omega
    · by_cases h6 : par f 0 1 = 6
      · exact ⟨_, _, execCommand_commits hr hh rfl (countersReadCommand_queues h6), fun _ hn => absurd h6 hn, fun hn => absurd hn h5, fun _ => rfl⟩
      · exact ⟨_, _, execCommand_commits hr hh rfl (countersReadCommand_counters h5 h6), fun _ _ => ⟨rfl, rfl⟩, fun hn => absurd hn h5, fun hn => absurd hn h6⟩

end Sys2Proof.DebugCommands

/-! Transfer images (R479): a sealed image of whole chunks opens to the plaintext it was made of. -/

namespace Sys2Proof.TransferImages

open Sys2Proof Sys2Proof.Machine Sys2Proof.Laws

variable {key : BitVec 256} {count n w : Nat}

/-! ### Sealing a chunk -/

theorem length_gcmXor (key : BitVec 256) (nonce : Bytes) (i : Nat) (b : Bytes) : (gcmXor key nonce i b).length = b.length := by
  induction b generalizing i with
  | nil => rfl
  | cons x b ih => simp [gcmXor, ih]

/-- The key stream applied twice leaves the bytes, R45. -/
theorem gcmXor_gcmXor (key : BitVec 256) (nonce : Bytes) (i : Nat) (b : Bytes) : gcmXor key nonce i (gcmXor key nonce i b) = b := by
  induction b generalizing i with
  | nil => rfl
  | cons x b ih => simp only [gcmXor, ih, BitVec.xor_assoc, BitVec.xor_self, BitVec.xor_zero]

/-! ### Cutting into pieces -/

/-- Pieces of one width that were joined are cut apart again. -/
theorem pieces_flatten (l : List Bytes) (hw : ∀ b ∈ l, b.length = w) : pieces w l.length l.flatten = l := by
  induction l with
  | nil => rfl
  | cons b l ih =>
    have hb : b.length = w := hw b List.mem_cons_self
    simp only [pieces, List.length_cons, List.flatten_cons, List.take_left' hb, List.drop_left' hb,
      ih (fun x hx => hw x (List.mem_cons_of_mem _ hx))]

/-- Bytes of `n` whole pieces are cut into `n` pieces of the width, which joined are the bytes. -/
theorem pieces_whole {b : Bytes} (hb : b.length = w * n) :
    (pieces w n b).length = n ∧ (∀ x ∈ pieces w n b, x.length = w) ∧ (pieces w n b).flatten = b := by
  induction n generalizing b with
  | zero => exact ⟨rfl, by simp [pieces], by simpa [pieces] using (List.length_eq_zero_iff.mp (by simpa using hb)).symm⟩
  | succ n ih =>
    rw [Nat.mul_succ] at hb
    obtain ⟨hlen, hwidth, hjoin⟩ := ih (b := b.drop w) (by simp; omega)
    refine ⟨by simp [pieces, hlen], ?_, by simp [pieces, hjoin]⟩
    simp only [pieces, List.forall_mem_cons]
    exact ⟨by simp; omega, hwidth⟩

/-- Numbering a list that was mapped with its numbers gives the same numbers. -/
theorem zipIdx_map_zipIdx {α β : Type} (g : α × Nat → β) (l : List α) (k : Nat) :
    ((l.zipIdx k).map g).zipIdx k = (l.zipIdx k).map (fun p => (g p, p.2)) := by
  induction l generalizing k with
  | nil => rfl
  | cons x l ih => simp [ih]

/-! ### The image -/

/-- The header of a transfer image: magic, length, counter, R479. -/
def imageHeader (count len : Nat) : Bytes := toLe 4 0x46525854 ++ zeros 4 ++ toLe 8 len ++ toLe 4 count ++ zeros 44

theorem length_imageHeader (count len : Nat) : (imageHeader count len).length = 64 := by simp [imageHeader]

/-- What an import reads of the header. -/
theorem imageHeader_fields {len : Nat} (hlen : len < 2 ^ 64) : fld (imageHeader count len) 0 4 = 0x46525854 ∧ zeroAt (imageHeader count len) 4 4 = true
    ∧ zeroAt (imageHeader count len) 20 44 = true ∧ fld (imageHeader count len) 8 8 = len ∧ slice (imageHeader count len) 16 4 = toLe 4 count := by
  have hlen' : leNat (toLe 8 len) = len := by rw [leNat_toLe, Nat.mod_eq_of_lt (by omega)]
  refine ⟨?_, ?_, ?_, ?_, ?_⟩
  all_goals simp [imageHeader, zeros, fld, zeroAt, slice, List.drop_append, List.take_append, List.drop_of_length_le, hlen']

/-- A chunk sealed: its bytes under the key stream and their tag. -/
def sealChunk (key : BitVec 256) (count : Nat) (hdr : Bytes) (p : Bytes × Nat) : Bytes :=
  gcmXor key (chunkNonce (toLe 4 count) p.2) 0 p.1
    ++ toLe 16 (gcmTag key (chunkNonce (toLe 4 count) p.2) hdr (gcmXor key (chunkNonce (toLe 4 count) p.2) 0 p.1)).toNat

theorem exportImage_eq (plain : Bytes) : exportImage key count plain = imageHeader count plain.length
    ++ ((pieces 65536 (plain.length / 65536) plain).zipIdx.map (sealChunk key count (imageHeader count plain.length))).flatten := by
  simp only [exportImage, ← List.flatMap_def]
  rfl

section Chunks

variable {l : List Bytes} (hl : ∀ b ∈ l, b.length = 65536) (hdr : Bytes)

include hl

theorem length_sealChunk {p : Bytes × Nat} (hp : p ∈ l.zipIdx) : (sealChunk key count hdr p).length = 65552 := by
  simp [sealChunk, length_gcmXor, hl p.1 (List.fst_mem_of_mem_zipIdx hp)]

/-- A sealed chunk is cut into its bytes and its tag. -/
theorem sealChunk_split {p : Bytes × Nat} (hp : p ∈ l.zipIdx) : (sealChunk key count hdr p).take 65536 = gcmXor key (chunkNonce (toLe 4 count) p.2) 0 p.1
    ∧ (sealChunk key count hdr p).drop 65536
      = toLe 16 (gcmTag key (chunkNonce (toLe 4 count) p.2) hdr (gcmXor key (chunkNonce (toLe 4 count) p.2) 0 p.1)).toNat := by
  have hlen : (gcmXor key (chunkNonce (toLe 4 count) p.2) 0 p.1).length = 65536 := by
    rw [length_gcmXor, hl p.1 (List.fst_mem_of_mem_zipIdx hp)]
  exact ⟨List.take_left' hlen, List.drop_left' hlen⟩

/-- Every tag of sealed chunks verifies. -/
theorem tags_verify : ((l.zipIdx.map (sealChunk key count hdr)).zipIdx.find? (fun p =>
    toLe 16 (gcmTag key (chunkNonce (toLe 4 count) p.2) hdr (p.1.take 65536)).toNat != p.1.drop 65536)) = none := by
  rw [zipIdx_map_zipIdx, List.find?_eq_none]
  intro q hq
  obtain ⟨p, hp, rfl⟩ := List.mem_map.mp hq
  obtain ⟨htake, hdrop⟩ := sealChunk_split (key := key) (count := count) hl hdr hp
  simp [htake, hdrop]

/-- Opened, sealed chunks are what they were. -/
theorem chunks_open : (l.zipIdx.map (sealChunk key count hdr)).zipIdx.flatMap (fun p =>
    gcmXor key (chunkNonce (toLe 4 count) p.2) 0 (p.1.take 65536)) = l.flatten := by
  have hopen : ∀ p ∈ l.zipIdx, gcmXor key (chunkNonce (toLe 4 count) p.2) 0 ((sealChunk key count hdr p).take 65536) = p.1 := fun p hp => by
    rw [(sealChunk_split hl hdr hp).1, gcmXor_gcmXor]
  rw [zipIdx_map_zipIdx, List.flatMap_map, List.flatMap_def]
  exact congrArg List.flatten ((List.map_congr_left hopen).trans (List.zipIdx_map_fst 0 l))

end Chunks

/-- Settles O29: the image is cut where it was joined, each tag is the one that was computed, and the key stream applied twice leaves the bytes. -/
theorem transferImageRoundTrip : Obligations.TransferImageRoundTrip := by
  unfold Obligations.TransferImageRoundTrip
  intro key count n plain hplain hn _
  have hcount : plain.length / 65536 = n := by omega
  obtain ⟨hlen, hwidth, hjoin⟩ := pieces_whole hplain
  obtain ⟨hmagic, hzero, hrest, hlength, hnonce⟩ := imageHeader_fields (count := count) (len := plain.length) (by omega)
  have htake : (exportImage key count plain).take 64 = imageHeader count plain.length := by
    rw [exportImage_eq]
    exact List.take_left' (length_imageHeader _ _)
  have hcut : pieces 65552 (plain.length / 65536) ((exportImage key count plain).drop 64)
      = (pieces 65536 n plain).zipIdx.map (sealChunk key count (imageHeader count plain.length)) := by
    rw [exportImage_eq, List.drop_left' (length_imageHeader _ _), hcount]
    have := pieces_flatten (w := 65552) ((pieces 65536 n plain).zipIdx.map (sealChunk key count (imageHeader count plain.length)))
      (List.forall_mem_map.mpr fun _ hp => length_sealChunk hwidth _ hp)
    rwa [List.length_map, List.length_zipIdx, hlen] at this
  simp only [importImage, htake, hcut, hmagic, hzero, hrest, hlength, hnonce, ne_eq, not_true_eq_false, Bool.true_eq_false, or_self, if_false,
    tags_verify hwidth, chunks_open hwidth, hjoin]

end Sys2Proof.TransferImages

/-! Firmware, sessions and attestation (chapter 15): what their commands come to. -/

namespace Sys2Proof.SessionCommands

open Sys2Proof Sys2Proof.Machine Sys2Proof.Laws

variable {s : State} {h : Nat} {f : Flight}

/-! ### Firmware -/

/-- An update of the slot directory writes one of its copies and nothing else, R456. -/
theorem writeDir_leaves (active : Nat) (pend : Bool) (x : Security) :
    writeDir active pend x = { x with dir0 := (writeDir active pend x).dir0, dir1 := (writeDir active pend x).dir1 } := by
  unfold writeDir
  split
  · split <;> rfl
  all_goals rfl

/-- The security state with bytes staged in the slot that is not running, R461. -/
def staged (s : State) (f : Flight) : Security :=
  if otherSlot s = 0 then { s.sec with slotA := Memory.writeN (Memory.clear s.sec.slotA (par f 8 4) (par f 12 4)) (par f 8 4) (memRead s (par f 0 8) (par f 12 4)) }
  else { s.sec with slotB := Memory.writeN (Memory.clear s.sec.slotB (par f 8 4) (par f 12 4)) (par f 8 4) (memRead s (par f 0 8) (par f 12 4)) }

/-- The same with a pending activation withdrawn. -/
def stagedDir (s : State) (f : Flight) : Security :=
  if (dirOf (staged s f)).pending then writeDir (dirOf (staged s f)).active false (staged s f) else staged s f

theorem fwStageCommand_run (hg : readFails s (par f 0 8) (par f 12 4) = none) : fwStageCommand.run s f = .done { s with sec := stagedDir s f } (okReply []) := by
  simp only [fwStageCommand, hg]
  rfl

/-- Withdrawing an activation touches the directory alone. -/
theorem stagedDir_leaves (s : State) (f : Flight) :
    stagedDir s f = { staged s f with dir0 := (stagedDir s f).dir0, dir1 := (stagedDir s f).dir1 } := by
  unfold stagedDir
  split
  · exact writeDir_leaves _ _ _
  · rfl

theorem staged_slot (s : State) (f : Flight) : slotOf (staged s f) (otherSlot s)
    = Memory.writeN (Memory.clear (slotOf s.sec (otherSlot s)) (par f 8 4) (par f 12 4)) (par f 8 4) (memRead s (par f 0 8) (par f 12 4)) := by
  by_cases h0 : otherSlot s = 0 <;> simp [staged, slotOf, h0]

/-- Staging leaves the floors, the running slot and the directory. -/
theorem staged_leaves (s : State) (f : Flight) : (staged s f).floors = s.sec.floors ∧ (staged s f).running = s.sec.running
    ∧ (staged s f).dir0 = s.sec.dir0 ∧ (staged s f).dir1 = s.sec.dir1 := by
  unfold staged
  split <;> exact ⟨rfl, rfl, rfl, rfl⟩

/-- Settles O30: staging by the slot it writes and the directory it may withdraw; the other two by their form. -/
theorem firmwareCommandsComplete : Obligations.FirmwareCommandsComplete := by
  unfold Obligations.FirmwareCommandsComplete
  refine ⟨fun s h f hr hh hg => ?_, fun s h f hr hh hk => ?_, fun s h f hr hh hk => ?_⟩
  · obtain ⟨hfloors, hrunning, hdir0, hdir1⟩ := staged_leaves s f
    refine ⟨_, execCommand_commits hr hh rfl (fwStageCommand_run hg), rfl, ?_, ?_, ?_, fun h0 => ?_, fun h0 => ?_, fun hp => ?_⟩
    · change (stagedDir s f).floors = _
      rw [stagedDir_leaves, hfloors]
    · change (stagedDir s f).running = _
      rw [stagedDir_leaves, hrunning]
    · rw [← staged_slot]
      change slotOf (stagedDir s f) _ = _
      rw [stagedDir_leaves]
      rfl
    · change (stagedDir s f).slotB = _
      rw [stagedDir_leaves]
      simp [staged, h0]
    · change (stagedDir s f).slotA = _
      rw [stagedDir_leaves]
      simp [staged, h0]
    · have hsame : stagedDir s f = staged s f := if_neg (by simp [dirOf, hdir0, hdir1]; simpa [dirOf] using hp)
      exact ⟨(congrArg Security.dir0 hsame).trans hdir0, (congrArg Security.dir1 hsame).trans hdir1⟩
  · exact (ofForm_of hr.1 (by simp [hk])).trans (execCommand_commits hr hh rfl (if_pos hk))
  · refine ⟨_, (ofForm_of hr.1 (by simp [hk])).trans (execCommand_commits hr hh rfl (if_neg (by simp [hk]))), fun i hi => ?_, rfl, rfl, rfl, rfl, rfl⟩
    simp [nth, hi]

/-! ### Sessions -/

/-- The first free number is the lowest that is not used. -/
theorem firstFree_lowest {used : List Nat} {start fuel id : Nat} (h : firstFree used start fuel = some id) :
    start ≤ id ∧ ∀ j, start ≤ j → j < id → j ∈ used := by
  induction fuel generalizing start with
  | zero => cases h
  | succ fuel ih =>
    unfold firstFree at h
    split at h
    · next hc =>
      obtain ⟨hle, hall⟩ := ih h
      refine ⟨by omega, fun j hj hlt => ?_⟩
      rcases Nat.eq_or_lt_of_le hj with rfl | hj
      · exact List.contains_iff_mem.mp hc
      · exact hall j hj hlt
    · cases h
      exact ⟨le_refl _, fun j hj hlt => by omega⟩

/-- Of fewer than 4,096 IDs in use, one from 1 to 4,096 is free, and the lowest of them is taken, R470. -/
theorem firstFree_session {used : List Nat} (hroom : used.length < 4096) : ∃ id, firstFree used 1 4097 = some id ∧ 1 ≤ id ∧ id ≤ 4096 ∧ id ∉ used
    ∧ ∀ j, 1 ≤ j → j < id → j ∈ used := by
  have hcount : ∀ n, (∀ j, 1 ≤ j → j < 1 + n → j ∈ used) → n ≤ used.length := fun n hall => by
    have hsub : List.range' 1 n ⊆ used := fun j hj => by
      obtain ⟨hlo, hhi⟩ := List.mem_range'_1.mp hj
      exact hall j hlo hhi
    simpa using (List.subperm_of_subset List.nodup_range' hsub).length_le
  cases hfree : firstFree used 1 4097 with
  | none =>
    have := hcount 4097 fun j hlo hhi => by
      have := TableCommands.mem_of_firstFree_none hfree (i := j - 1) (by omega)
      rwa [Nat.add_sub_cancel' hlo] at this
    omega
  | some id =>
    obtain ⟨hlo, hall⟩ := firstFree_lowest hfree
    have := hcount (id - 1) fun j hj hlt => hall j hj (by omega)
    exact ⟨id, rfl, hlo, by omega, (TableCommands.firstFree_some hfree).1, hall⟩

theorem khas_iff_mem {α : Type} (m : KMap α) (i : Nat) : khas m i = true ↔ i ∈ kkeys m := (mem_kkeys m i).symm

/-- A command of the entry member whose checks pass passes its own checks. -/
theorem check_of_entry {c : Command} (hc : (entryCommand c).check s f = none) : c.check s f = none := by
  simp only [entryCommand] at hc
  split at hc
  · exact hc
  · cases hs : firstFail [scopeHasEntry s f] with
    | none => simpa [hs] using hc
    | some x => simp [hs] at hc

/-- The session that SESSION_OPEN makes, R470, R475: `r` is what its report and its keys are drawn from. -/
theorem sessionOpenRun_opens (hroom : s.proto.sessions.length < 4096) : ∃ id t r x, sessionOpenRun s f = .done t r
    ∧ (1 ≤ id ∧ id ≤ 4096 ∧ khas s.proto.sessions id = false ∧ ∀ j, 1 ≤ j → j < id → khas s.proto.sessions j = true)
    ∧ t.proto.sessions = kset s.proto.sessions id x ∧ (x.id = id ∧ x.tenant = par f 0 2 ∧ x.high = 0 ∧ x.accepted = [] ∧ x.nextTxn = 1 ∧ x.closing = false)
    ∧ r.status = .ok ∧ fld r.result 0 4 = id ∧ t.sec.sessionCount = s.sec.sessionCount + 1 ∧ t.mem = s.mem ∧ t.sec.tenants = s.sec.tenants := by
  obtain ⟨id, hid, hlo, hhi, hnew, hlowest⟩ := firstFree_session (used := kkeys s.proto.sessions) (by simpa [kkeys] using hroom)
  simp only [sessionOpenRun, hid]
  refine ⟨id, _, _, _, rfl, ⟨hlo, hhi, ?_, fun j hj hlt => (khas_iff_mem _ _).mpr (hlowest j hj hlt)⟩, rfl, ⟨rfl, rfl, rfl, rfl, rfl, rfl⟩, rfl, ?_, rfl, rfl, rfl⟩
  · exact Bool.eq_false_iff.mpr (fun h => hnew ((khas_iff_mem _ _).mp h))
  · simp only [okReply, List.append_assoc]
    rw [Headers.fld_toLe_append, Nat.mod_eq_of_lt (by omega)]

/-- SESSION_CLOSE of which no other command is left commits, and the session is dropped, R472. -/
theorem sessionClose_drops (hf : flightOf s h = some f) (ho : f.op = .sessionClose) (hm : mayRun s f = true)
    (hc : firstFail [lengthIs f 8, reservedZero f 0 8, scopeHasEntry s f] = none)
    (hlast : ∀ g ∈ (beginClose f.hdr.sessionId s).proto.flights, fromPeer g = false → g.hdr.sessionId = f.hdr.sessionId → g.serial = h) :
    sessionClose h s = dropSession f.hdr.sessionId (finish f (okReply []) (commitObjects [] (beginClose f.hdr.sessionId s))) := by
  have hnone : (beginClose f.hdr.sessionId s).proto.flights.any (fun g => !fromPeer g && g.hdr.sessionId == f.hdr.sessionId && g.serial != h) = false := by
    rw [List.any_eq_false]
    intro g hg hleft
    simp only [Bool.and_eq_true, Bool.not_eq_true', beq_iff_eq, bne_iff_ne] at hleft
    obtain ⟨⟨hpeer, hsession⟩, hother⟩ := hleft
    exact hother (hlast g hg hpeer hsession)
  simp only [sessionClose, hf, ho, hm, hc, hnone, ne_eq, not_true_eq_false, Bool.true_eq_false, or_self, if_false, Bool.false_eq_true]

theorem dropSession_gone (id : Nat) (s : State) : khas (dropSession id s).proto.sessions id = false ∧ ∀ x ∈ (dropSession id s).proto.txns, x.session ≠ id := by
  refine ⟨?_, fun x hx => by simpa using (List.mem_filter.mp hx).2⟩
  simp [dropSession, khas]

/-- Settles O27: the lowest free ID by the count of sessions, the close by the commands left in flight; attestation by its form. -/
theorem sessionsOpenAndClose : Obligations.SessionsOpenAndClose := by
  unfold Obligations.SessionsOpenAndClose
  refine ⟨fun s h f hr => ?_, fun s h f hf ho hm hc hlast => ?_, fun s h f hr hh hk => ?_, fun s h f hr hh hk => ?_⟩
  · have hcheck := hr
    obtain ⟨_, _, _, _, _, hc, _, _⟩ := hcheck
    have hroom : s.proto.sessions.length < 4096 := by
      have hfull := Allocations.not_fails_of_firstFail (check_of_entry hc) (failIf (decide (4096 ≤ s.proto.sessions.length)) .tableFull 0) (by simp)
      simpa [failIf] using hfull
    obtain ⟨id, t, r, x, hrun, ⟨hlo, hhi, hnew, hlowest⟩, hsessions, ⟨hid, htenant, hhigh, haccepted, htxn, hclosing⟩, hrest⟩ := sessionOpenRun_opens (f := f) hroom
    refine ⟨id, t, r, x, execEntry_commits hr rfl hrun, hlo, hhi, hnew, hlowest, ?_, hid, htenant, hhigh, haccepted, htxn, hclosing, fun j hj => ?_, hrest⟩
    · rw [hsessions, kget_kset_self]
    · rw [hsessions, kget_kset_ne _ _ hj]
  · obtain ⟨hgone, htxns⟩ := dropSession_gone f.hdr.sessionId (finish f (okReply []) (commitObjects [] (beginClose f.hdr.sessionId s)))
    exact ⟨_, congrArg (nextOf s) (sessionClose_drops hf ho hm hc hlast), hgone, htxns, rfl⟩
  · exact (ofForm_of hr.1 (by simp [hk])).trans (execCommand_commits hr hh rfl (if_pos hk))
  · exact (ofForm_of hr.1 (by simp [hk])).trans (execCommand_commits hr hh rfl (if_neg (by simp [hk])))

end Sys2Proof.SessionCommands

/-! What sending a message changes (R420, R424 to R426): outputs, channels, queue marks, and of a port the flits it keeps for replay and their count. -/

namespace Sys2Proof.Sending

open Sys2Proof Sys2Proof.Machine Sys2Proof.Laws

/-- `t` is `s` after something was sent: of a port only the last SEQ and the flits kept for replay differ. -/
structure Sends (s t : State) : Prop where
  rest : t = { s with
    outputs := t.outputs
    dbg := { s.dbg with marks := t.dbg.marks }
    fabric := { s.fabric with
      ports := t.fabric.ports
      channels := t.fabric.channels } }
  port : ∀ p, portOf t p = { portOf s p with
    txSeq := (portOf t p).txSeq
    kept := (portOf t p).kept }

namespace Sends

variable {s t u : State}

theorem refl (s : State) : Sends s s := ⟨rfl, fun _ => rfl⟩

theorem trans (h1 : Sends s t) (h2 : Sends t u) : Sends s u := by
  refine ⟨?_, fun p => ?_⟩
  · rw [h2.rest, h1.rest]
  · rw [h2.port, h1.port]

theorem foldl {α : Type} {g : State → α → State} (hg : ∀ t x, Sends t (g t x)) (l : List α) (s : State) : Sends s (l.foldl g s) := by
  induction l generalizing s with
  | nil => exact refl s
  | cons x l ih => exact (hg s x).trans (ih (g s x))

theorem faults (h : Sends s t) : t.faults = s.faults := by rw [h.rest]
theorem mem (h : Sends s t) : t.mem = s.mem := by rw [h.rest]
theorem view (h : Sends s t) : t.fabric.view = s.fabric.view := by rw [h.rest]
theorem serve (h : Sends s t) : t.serve = s.serve := by rw [h.rest]
theorem sec (h : Sends s t) : t.sec = s.sec := by rw [h.rest]
theorem proto (h : Sends s t) : t.proto = s.proto := by rw [h.rest]
theorem power (h : Sends s t) : t.power = s.power := by rw [h.rest]

end Sends

theorem sends_emit (o : Output) (s : State) : Sends s (emit o s) := ⟨rfl, fun _ => rfl⟩

theorem sends_noteHigh (unit q now : Nat) (s : State) : Sends s (noteHigh unit q now s) := by
  simp only [noteHigh]
  split
  · exact ⟨rfl, fun _ => rfl⟩
  · exact .refl s

theorem sends_setChannel (peer ch : Nat) (c : Channel) (s : State) : Sends s (setChannel peer ch c s) := ⟨rfl, fun _ => rfl⟩

/-- A port that stores the count of flits sent and the flits kept. -/
theorem sends_setPort {p : Nat} {x : Port} {s : State} (hx : x = { portOf s p with txSeq := x.txSeq, kept := x.kept }) : Sends s (setPort p x s) := by
  refine ⟨rfl, fun q => ?_⟩
  by_cases hq : q = p
  · subst hq
    rw [portOf_setPort_self]
    exact hx
  · rw [portOf_setPort_ne _ _ hq]

theorem sends_sendFlits (p : Nat) (first : Bool) (bs : List Bytes) (s : State) : Sends s (sendFlits p first bs s) := by
  induction bs generalizing first s with
  | nil => exact .refl s
  | cons b bs ih => exact (((sends_setPort (by rfl)).trans (sends_noteHigh _ _ _ _)).trans (sends_emit _ _)).trans (ih false _)

theorem sends_sendSegment (dst ch : Nat) (seg : Bytes) (s : State) : Sends s (sendSegment dst ch seg s) := by
  have hemit := sends_emit (.segment dst ch seg) s
  simp only [sendSegment]
  split
  · exact hemit
  · split
    · exact hemit.trans (sends_emit _ _)
    · exact hemit.trans (sends_sendFlits _ _ _ _)

theorem sends_sendAck (dst ch credit : Nat) (s : State) : Sends s (sendAck dst ch credit s) := sends_sendSegment _ _ _ s

theorem sends_pump (dst ch fuel : Nat) (s : State) : Sends s (pump dst ch fuel s) := by
  induction fuel generalizing s with
  | zero => exact .refl s
  | succ fuel ih =>
    simp only [pump]
    split
    · exact .refl s
    · split
      · exact .refl s
      · exact ((sends_setChannel _ _ _ _).trans (sends_sendSegment _ _ _ _)).trans (ih _)

theorem sends_sendMessage (dst type sub tenant corr own : Nat) (body : Bytes) (s : State) : Sends s (sendMessage dst type sub tenant corr own body s) := by
  simp only [sendMessage]
  refine .trans (.trans ?_ (sends_emit _ _)) (sends_pump _ _ _ _)
  split
  · exact sends_setChannel _ _ _ _
  · exact (sends_setChannel _ _ _ _).trans (sends_noteHigh _ _ _ _)

theorem sends_sendAll (type sub tenant corr : Nat) (body : Bytes) (l : List Nat) (s : State) : Sends s (sendAll type sub tenant corr body l s) := by
  induction l generalizing s with
  | nil => exact .refl s
  | cons d ds ih => exact (sends_sendMessage d type sub tenant corr 0 body s).trans (ih _)

/-- Adjacencies are reported by messages alone. -/
theorem sends_reportAdjacencies (s : State) : Sends s (reportAdjacencies s) := sends_sendAll _ _ _ _ _ _ s

end Sys2Proof.Sending

/-! Ports (R419 to R422, R433): training, loss of lanes and signal, neighbours, flits. -/

namespace Sys2Proof.PortEvents

open Sys2Proof Sys2Proof.Machine Sys2Proof.Laws Sys2Proof.Sending

variable {s : State} {p : Nat} {x : Port}

/-! ### Ports that change their state -/

@[simp] theorem portOf_track (code unit tenant command a b : Nat) (s : State) (q : Nat) : portOf (track code unit tenant command a b s) q = portOf s q := rfl

@[simp] theorem portOf_emit (o : Output) (s : State) (q : Nat) : portOf (emit o s) q = portOf s q := rfl

@[simp] theorem portOf_portTo_self (p : Nat) (st : PortState) (width : Nat) (x : Port) (s : State) :
    portOf (portTo p st width x s) p = { x with state := st, width := width } := by
  simp only [portTo]
  split <;> simp

theorem portOf_portTo_ne {p q : Nat} (st : PortState) (width : Nat) (x : Port) (s : State) (h : q ≠ p) : portOf (portTo p st width x s) q = portOf s q := by
  simp only [portTo]
  split <;> simp [h]

@[simp] theorem portTo_mem (p : Nat) (st : PortState) (width : Nat) (x : Port) (s : State) : (portTo p st width x s).mem = s.mem := by
  simp only [portTo]
  split <;> simp

@[simp] theorem portTo_faults (p : Nat) (st : PortState) (width : Nat) (x : Port) (s : State) : (portTo p st width x s).faults = s.faults := by
  simp only [portTo]
  split <;> simp

/-- Routes and reports change of a port only the flits that it sends. -/
theorem portOf_linksChanged (s : State) (q : Nat) : portOf (linksChanged s) q = { portOf s q with
    txSeq := (portOf (linksChanged s) q).txSeq
    kept := (portOf (linksChanged s) q).kept } := (sends_reportAdjacencies (recomputeRoutes s)).port q

theorem linksChanged_mem (s : State) : (linksChanged s).mem = s.mem := (sends_reportAdjacencies (recomputeRoutes s)).mem

theorem linksChanged_faults (s : State) : (linksChanged s).faults = s.faults := (sends_reportAdjacencies (recomputeRoutes s)).faults

/-- What a port that went DOWN keeps, R419. -/
theorem portDown_port (p : Nat) (x : Port) (s : State) : (portOf (portDown p x s) p).state = .down ∧ (portOf (portDown p x s) p).width = 0
    ∧ (portOf (portDown p x s) p).signal = x.signal ∧ (portOf (portDown p x s) p).lossDue = x.lossDue := by
  unfold portDown
  rw [portOf_linksChanged, portOf_portTo_self]
  exact ⟨rfl, rfl, rfl, rfl⟩

theorem portDown_leaves (p : Nat) (x : Port) (s : State) : (portDown p x s).mem = s.mem ∧ (portDown p x s).faults = s.faults := by
  unfold portDown
  rw [linksChanged_mem, linksChanged_faults]
  simp

/-- A port that retrains, R419, R422. -/
theorem portRetrain_port (p : Nat) (full : Bool) (x : Port) (s : State) : portOf (portRetrain p full x s) p = { x with
    state := .training
    width := 0
    fullTraining := full
    retrains := (x.retrains + 1) % 2 ^ 32
    kept := []
    ackSeq := x.txSeq
    nakRun := 0
    detecting := false } := portOf_portTo_self _ _ _ _ _

theorem portRetrain_others {q : Nat} (full : Bool) (x : Port) (s : State) (h : q ≠ p) : portOf (portRetrain p full x s) q = portOf s q :=
  portOf_portTo_ne _ _ _ _ h

/-! ### Training and loss -/

/-- Training complete brings the port up, R419. -/
theorem portTrainingComplete_up {width : Nat} (hm : (portOf s p).mode ≠ .off) (hcage : cageHeldDown s p = false)
    (hst : (portOf s p).state = .training ∨ (portOf s p).state = .down) (ht : trainable (portOf s p) width = true) :
    portOf (portTrainingComplete p width s) p = { portOf s p with
        signal := true
        lostLanes := lanesAt (portOf s p).lostLanes width
        lossDue := false
        fullTraining := false
        detecting := decide ((portOf s p).mode = .eth)
        state := if width = 4 then .up else .degraded
        width := width
        txSeq := (portOf (portTrainingComplete p width s) p).txSeq
        kept := (portOf (portTrainingComplete p width s) p).kept }
      ∧ (portTrainingComplete p width s).mem = s.mem := by
  have hadmitted : ¬ ((portOf s p).mode = .off ∨ cageHeldDown s p = true ∨ ((portOf s p).state ≠ .training ∧ (portOf s p).state ≠ .down)
      ∨ trainable (portOf s p) width = false) := by
    rintro (h | h | ⟨h1, h2⟩ | h)
    · exact hm h
    · simp [hcage] at h
    · exact hst.elim h1 h2
    · simp [ht] at h
  simp only [portTrainingComplete, if_neg hadmitted]
  refine ⟨?_, ?_⟩
  · rw [portOf_linksChanged]
    split <;> simp
  · rw [linksChanged_mem]
    split <;> simp

theorem laneLoss_counts {lane : Nat} (hl : lane < 4) (hc : portCarries (portOf s p) = true) (hn : lane ∉ (portOf s p).lostLanes) : laneLoss p lane s =
    if (portOf s p).mode = .eth then portDown p { portOf s p with lossDue := true } s
    else portRetrain p false { portOf s p with lostLanes := sortBy Nat.ble (lane :: (portOf s p).lostLanes), lossDue := true } s := by
  have hcounts : ¬ (4 ≤ lane ∨ portCarries (portOf s p) = false ∨ (portOf s p).lostLanes.contains lane = true) := by
    simp [hl, hc, hn]
  simp only [laneLoss, if_neg hcounts]

theorem retrainTimeout_due (hd : (portOf s p).lossDue = true) (hc : portCarries (portOf s p) = false) :
    retrainTimeout p s = logFault 0x0008 1 0 (0xA000 + p) 0 0 p 0 (portDown p { portOf s p with lossDue := false } s) := by
  simp [retrainTimeout, hd, hc]

/-! ### Flits -/

theorem flitsRun_mode (h : flitsRun x = true) : x.mode = .jet := by
  simp only [flitsRun, Bool.and_eq_true, decide_eq_true_eq] at h
  exact h.1

@[simp] theorem portOf_replayFlits (p : Nat) (ks : List (Nat × Nat × Bytes)) (s : State) (q : Nat) : portOf (replayFlits p ks s) q = portOf s q := by
  induction ks generalizing s with
  | nil => rfl
  | cons k ks ih => exact ih _

theorem replayFlits_outputs (p : Nat) (ks : List (Nat × Nat × Bytes)) (s : State) :
    (replayFlits p ks s).outputs = s.outputs ++ ks.map (fun k => .flit p 1 (flitBytes 1 k.2.1 k.1 (portOf s p).rxSeq k.2.2)) := by
  induction ks generalizing s with
  | nil => simp [replayFlits]
  | cons k ks ih =>
    rw [replayFlits, ih]
    simp only [portOf_emit, List.map_cons]
    simp [emit]

/-- How often in succession a SEQ has been named, R422. -/
def nakCount (x : Port) (ack : Nat) : Nat := if x.nakRun ≠ 0 ∧ x.nakSeq = ack then x.nakRun + 1 else 1

/-- The kept flits that a NAK asks for, oldest first, R422. -/
def replayed (x : Port) (ack : Nat) : List (Nat × Nat × Bytes) :=
  (x.kept.filter (fun k => decide (0 < (k.1 + 65536 - ack) % 65536) && decide ((k.1 + 65536 - ack) % 65536 ≤ 1024))).reverse

theorem flitNak_retrains {ack : Nat} (hf : flitsRun (portOf s p) = true) (h8 : 8 ≤ nakCount (portOf s p) ack) : flitNak p ack s
    = portRetrain p false { portOf s p with nakSeq := ack, nakRun := nakCount (portOf s p) ack, ackSeq := ack, lossDue := true } s := by
  simp only [flitNak, hf, Bool.true_eq_false, if_false]
  exact if_pos h8

theorem flitNak_replays {ack : Nat} (hf : flitsRun (portOf s p) = true) (h8 : nakCount (portOf s p) ack < 8) : flitNak p ack s
    = replayFlits p (replayed (portOf s p) ack) (setPort p { portOf s p with
        nakSeq := ack
        nakRun := nakCount (portOf s p) ack
        ackSeq := ack
        replays := (portOf s p).replays + BitVec.ofNat 64 (replayed (portOf s p) ack).length } s) := by
  simp only [flitNak, hf, Bool.true_eq_false, if_false]
  exact if_neg (Nat.not_le.mpr h8)

/-! ### Events that `MOD_STATUS` does not see -/

theorem nextOf_emit (o : Output) (s : State) : nextOf s (emit o s) = .next (emit o s) := nextOf_of_same s rfl

theorem nextOf_setPort (p : Nat) (x : Port) (s : State) : nextOf s (setPort p x s) = .next (setPort p x s) := nextOf_of_same s rfl

theorem nextOf_emit_setPort (o : Output) (p : Nat) (x : Port) (s : State) : nextOf s (emit o (setPort p x s)) = .next (emit o (setPort p x s)) :=
  nextOf_of_same s rfl

/-- An address seen in use during the detection is a conflict, R433. -/
theorem addrConflict_port (s : State) (p : Nat) : (portOf (linksChanged (portTo p .addrConflict (portOf s p).width { portOf s p with detecting := false } s)) p).state
    = .addrConflict := by
  rw [portOf_linksChanged, portOf_portTo_self]

/-- A flit that is seen and a HELLO that names the neighbour, R420. -/
theorem flitSeen_port (p seq ack : Nat) (s : State) : portOf (flitSeen p seq ack s) p = { portOf s p with
    rxSeq := seq % 65536
    ackSeq := ack % 65536
    nakRun := if ack % 65536 = (portOf s p).ackSeq then (portOf s p).nakRun else 0 } := portOf_setPort_self _ _ _

/-- A TIME flit from the parent's port stores the stamps of a SYNC, R420, R435. -/
theorem flitTime_stamps {sent arrived ack m : Nat} (hf : flitsRun (portOf s p) = true)
    (hm : moduleOfUid (flitSeen p (portOf s p).rxSeq ack s) (portOf s p).neighbourUid = some m)
    (hparent : fromParent (flitSeen p (portOf s p).rxSeq ack s) m = true) : exec (.flitTime p sent arrived ack) s
      = nextOf s { flitSeen p (portOf s p).rxSeq ack s with fabric := { (flitSeen p (portOf s p).rxSeq ack s).fabric with t1 := sent, t2 := arrived } } := by
  simp only [exec, execFlitTime, hf, hm, hparent, Bool.true_eq_false, if_false, if_true]

/-- Settles O55: what a port keeps is read behind the reports that follow a change of links. That RETRAINS goes up on a lane's loss is log entry 44. -/
theorem portEventsTakeEffect : Obligations.PortEventsTakeEffect := by
  unfold Obligations.PortEventsTakeEffect
  refine ⟨?_, ?_, ?_, ?_, ?_, ?_, ?_, ?_, ?_, ?_, ?_, ?_, ?_, ?_, ?_, ?_⟩
  · intro s p width hm hcage hst ht
    obtain ⟨hport, hmem⟩ := portTrainingComplete_up hm hcage hst ht
    refine ⟨_, rfl, ?_⟩
    rw [hport]
    exact ⟨rfl, rfl, rfl, rfl, rfl, hmem⟩
  · intro s p lane hl hc hn
    refine ⟨fun hjet => ⟨_, rfl, ?_⟩, fun heth => ⟨_, rfl, ?_⟩⟩
    · have hmode : ¬ (portOf s p).mode = .eth := by simp [hjet]
      rw [laneLoss_counts hl hc hn, if_neg hmode, portRetrain_port]
      exact ⟨rfl, RowEvents.mem_sortBy.mpr List.mem_cons_self, rfl, rfl, rfl, fun q hq => portRetrain_others _ _ _ hq⟩
    · rw [laneLoss_counts hl hc hn, if_pos heth]
      obtain ⟨hstate, -, -, hloss⟩ := portDown_port p { portOf s p with lossDue := true } s
      exact ⟨hstate, hloss⟩
  · intro s p hm
    obtain ⟨hstate, hwidth, hsignal, -⟩ := portDown_port p { portOf s p with signal := false, lossDue := portCarries (portOf s p) || (portOf s p).lossDue } s
    exact ⟨_, congrArg (nextOf s) (if_neg hm), hstate, hsignal, hwidth, (portDown_leaves _ _ _).1⟩
  · intro s p hm hcage hsig
    have hdetect : ¬ ((portOf s p).mode = .off ∨ cageHeldDown s p = true ∨ (portOf s p).signal = true) := by simp [hm, hcage, hsig]
    refine ⟨_, congrArg (nextOf s) (if_neg hdetect), ?_⟩
    rw [portOf_portTo_self]
    exact ⟨rfl, rfl, rfl, fun q hq => portOf_portTo_ne _ _ _ _ hq⟩
  · intro s p hd hc
    obtain ⟨hstate, -, -, hloss⟩ := portDown_port p { portOf s p with lossDue := false } s
    obtain ⟨-, hfaults⟩ := portDown_leaves p { portOf s p with lossDue := false } s
    refine ⟨_, congrArg (nextOf s) (retrainTimeout_due hd hc), ?_, ?_, fun hroom => ?_⟩
    · simpa [portOf] using hstate
    · simpa [portOf] using hloss
    · rw [FaultLog.logFault_room (by rw [hfaults]; exact hroom)]
      exact ⟨_, List.mem_append_right _ (List.mem_singleton_self _), rfl, rfl, rfl, rfl⟩
  · intro s p inUse hd
    refine ⟨_, congrArg (nextOf s) (if_neg (by simp [hd])), ?_⟩
    cases inUse with
    | true => rw [if_pos rfl, portOf_linksChanged, portOf_portTo_self]; exact ⟨rfl, rfl⟩
    | false => rw [if_neg Bool.false_ne_true, portOf_linksChanged, portOf_setPort_self]; exact ⟨rfl, rfl⟩
  · rintro s p _ probe hup rfl
    refine ⟨fun hd => ?_, fun hd hprobe => ⟨_, ?_, addrConflict_port s p⟩⟩
    · rw [← nextOf_emit]
      simp only [exec, execNeighborSolicitation, hup, hd, Bool.true_eq_false, ne_eq, not_true_eq_false, or_self, if_false, Bool.false_eq_true]
    · simp only [exec, execNeighborSolicitation, hup, hd, hprobe, Bool.true_eq_false, ne_eq, not_true_eq_false, or_self, if_false, if_true]
  · intro s p target link hup
    have hup' : ¬ ipv6Up (portOf s p) = false := by simp [hup]
    refine ⟨fun hother => ?_, fun hown hd => ⟨_, ?_, addrConflict_port s p⟩⟩
    · refine ⟨_, (congrArg (nextOf s) ((if_neg hup').trans (if_neg hother))).trans (nextOf_setPort _ _ _), ?_⟩
      rw [portOf_setPort_self]
      refine ⟨List.mem_cons_self, fun n hn ht => ?_, fun q hq => portOf_setPort_ne _ _ hq, rfl⟩
      rcases List.mem_cons.mp hn with rfl | hn
      · rfl
      · simp [ht] at hn
    · exact congrArg (nextOf s) ((if_neg hup').trans ((if_pos hown).trans (if_pos hd)))
  · intro s p data hup hd hfits
    rw [← nextOf_emit]
    exact congrArg (nextOf s) (if_neg (by simp [hup, hd, hfits]))
  · intro s p hm
    refine ⟨_, (congrArg (nextOf s) (if_pos hm)).trans (nextOf_setPort _ _ _), ?_⟩
    rw [portOf_setPort_self]
    exact ⟨rfl, fun q hq => portOf_setPort_ne _ _ hq⟩
  · intro s p hf
    have hruns : ¬ flitsRun (portOf s p) = false := by simp [hf]
    refine ⟨⟨_, (congrArg (nextOf s) (if_neg hruns)).trans (nextOf_emit_setPort _ _ _ _), ?_, rfl⟩,
      ⟨_, (congrArg (nextOf s) (if_neg hruns)).trans (nextOf_emit_setPort _ _ _ _), ?_, rfl⟩⟩
    · rw [portOf_emit, portOf_setPort_self]
      rfl
    · rw [portOf_emit, portOf_setPort_self]
      rfl
  · intro s p ack hf hack
    have hmod : exec (.flitNak p ack) s = nextOf s (flitNak p ack s) := by
      change nextOf s (flitNak p (ack % 65536) s) = _
      rw [Nat.mod_eq_of_lt hack]
    refine ⟨fun h7 hseq => ?_, fun h7 => ?_⟩
    · have h8 : 8 ≤ nakCount (portOf s p) ack := by simp [nakCount, h7, hseq]
      refine ⟨_, hmod, ?_⟩
      rw [flitNak_retrains hf h8, portRetrain_port]
      exact ⟨rfl, rfl, rfl⟩
    · have h8 : nakCount (portOf s p) ack < 8 := by
        unfold nakCount
        split <;> omega
      refine ⟨_, hmod, ?_⟩
      rw [flitNak_replays hf h8, portOf_replayFlits, portOf_setPort_self, replayFlits_outputs, portOf_setPort_self]
      exact ⟨rfl, rfl, rfl, rfl⟩
  · intro s p uid port seq ack hf
    have hruns : ¬ flitsRun (portOf s p) = false := by simp [hf]
    refine ⟨_, congrArg (nextOf s) (if_neg hruns), ?_⟩
    split
    · rw [portOf_setPort_self, flitSeen_port]
      exact ⟨rfl, rfl, rfl, rfl⟩
    · rw [portOf_linksChanged, portOf_setPort_self, flitSeen_port]
      exact ⟨rfl, rfl, rfl, rfl⟩
  · intro s p hf
    have hruns : ¬ flitsRun (portOf s p) = false := by simp [hf]
    refine ⟨_, (congrArg (nextOf s) (if_neg hruns)).trans (nextOf_emit_setPort _ _ _ _), ?_, rfl⟩
    rw [portOf_emit, portOf_setPort_self]
  · intro s p hf hkept hack
    refine ⟨_, congrArg (nextOf s) (if_neg (by simp [hf, hkept, hack])), ?_⟩
    rw [portRetrain_port]
    exact ⟨rfl, rfl, fun q hq => portRetrain_others _ _ _ hq⟩
  · intro s p sent arrived ack m hf hm hparent
    exact ⟨_, flitTime_stamps hf hm hparent, rfl, rfl, rfl, rfl⟩

end Sys2Proof.PortEvents

/-! Segments (R424, R426, R427) and the clocks of a front (R435, R436). -/

namespace Sys2Proof.TransportEvents

open Sys2Proof Sys2Proof.Machine Sys2Proof.Laws Sys2Proof.Sending

variable {s s1 : State} {p seq ack peer ch now : Nat} {seg plain : Bytes} {m : Msg} {o : Outgoing}

/-! ### Segments that arrive -/

theorem flitsRun_flitSeen (hf : flitsRun (portOf s p) = true) : flitsRun (portOf (flitSeen p seq ack s) p) = true := by
  rw [PortEvents.flitSeen_port]
  exact hf

/-- A well-formed segment on a JET port that carries flits goes on as it is, R424. -/
theorem segmentArrives_jet (hf : flitsRun (portOf s p) = true) (hformed : segmentFormed seg = true) : segmentArrives p seg s = (some seg, s) := by
  have hmode : ¬ (portOf s p).mode = .eth := by simp [PortEvents.flitsRun_mode hf]
  simp only [segmentArrives, if_neg hmode, hf, hformed, Bool.true_eq_false, if_false, if_true]

/-- A segment for this module of a sender that is known goes to what takes it, R424, R426. -/
theorem onSegment_taken {k : Nat → Bytes → State → State} (hmode : (portOf s p).mode = .jet) (hcarries : portCarries (portOf s p) = true)
    (hformed : segmentFormed seg = true) (hdst : fld seg 6 2 = dstOf s.fabric.view.self) (hpeer : segmentPeer (flitSeen p seq ack s) (fld seg 4 2) = some peer) :
    onSegment p (fld seg 1 1) seg (if flitsRun (portOf s p) then flitSeen p seq ack s else s) k = k peer seg (flitSeen p seq ack s) := by
  have hf : flitsRun (portOf s p) = true := by simp [flitsRun, hmode, hcarries]
  have hhere : ¬ (fld seg 6 2 ≠ dstOf (flitSeen p seq ack s).fabric.view.self ∧ fld seg 6 2 ≠ 0xFFFF) := fun h => h.1 hdst
  simp only [onSegment, if_pos hf, segmentArrives_jet (flitsRun_flitSeen hf) hformed, ne_eq, not_true_eq_false, if_false, if_neg hhere, hpeer]

/-- The channel of a segment with the credit that the segment returns, R426. -/
def credited (s : State) (peer : Nat) (seg : Bytes) : Channel :=
  { channelOf s peer (fld seg 2 2) with credit := (channelOf s peer (fld seg 2 2)).credit + fld seg 26 2 }

/-- The segment expected next, of a message that it does not complete, joins the message, R427. -/
theorem segmentIn_expected (hc : (channelOf s peer (fld seg 2 2)).closed = false) (hseq : fld seg 8 8 = (channelOf s peer (fld seg 2 2)).rxSeq)
    (hoff : fld seg 16 4 = (channelOf s peer (fld seg 2 2)).rxOffset)
    (hmore : (channelOf s peer (fld seg 2 2)).rxBytes.length + fld seg 24 2 < fld seg 20 4) :
    segmentIn p peer seg s = sendAck peer (fld seg 2 2) 1 (setChannel peer (fld seg 2 2) { credited s peer seg with
      rxOffset := fld seg 16 4 + fld seg 24 2
      rxBytes := (channelOf s peer (fld seg 2 2)).rxBytes ++ slice seg 32 (fld seg 24 2) } s) := by
  have hopen : ((channelOf s peer (fld seg 2 2)).rxBytes ++ slice seg 32 (fld seg 24 2)).length < fld seg 20 4 := by
    rw [List.length_append, length_slice]
    omega
  have hlive : ¬ (channelOf s peer (fld seg 2 2)).closed = true := by simp [hc]
  have hlate : ¬ (fld seg 8 8 < (channelOf s peer (fld seg 2 2)).rxSeq
      ∨ (fld seg 8 8 = (channelOf s peer (fld seg 2 2)).rxSeq ∧ fld seg 16 4 < (channelOf s peer (fld seg 2 2)).rxOffset)) := by omega
  have hnext : ¬ (fld seg 8 8 ≠ (channelOf s peer (fld seg 2 2)).rxSeq ∨ fld seg 16 4 ≠ (channelOf s peer (fld seg 2 2)).rxOffset) := by omega
  simp only [segmentIn, if_neg hlive, if_neg hlate, if_neg hnext, if_pos hopen]
  rfl

/-- An earlier segment is acknowledged and counted as a duplicate, R427. -/
theorem segmentIn_duplicate (hc : (channelOf s peer (fld seg 2 2)).closed = false) (hseq : fld seg 8 8 < (channelOf s peer (fld seg 2 2)).rxSeq) :
    segmentIn p peer seg s = sendAck peer (fld seg 2 2) 0 (setChannel peer (fld seg 2 2) { credited s peer seg with
      duplicates := (channelOf s peer (fld seg 2 2)).duplicates + 1 } s) := by
  have hlive : ¬ (channelOf s peer (fld seg 2 2)).closed = true := by simp [hc]
  simp only [segmentIn, if_neg hlive, hseq, true_or, if_true]
  rfl

/-! ### Acknowledgements and resends -/

/-- A channel with nothing to send stays as it is. -/
theorem pump_idle {fuel : Nat} (h : (channelOf s peer ch).unacked = []) : pump peer ch fuel s = s := by
  cases fuel with
  | zero => rfl
  | succ fuel => simp only [pump, h, List.find?_nil]

/-- An ACK past every message of its channel takes them all away and returns credit; where it brought news, hand-overs to the peer may go on, R426, R427. -/
theorem segmentAck_all (hc : (channelOf s peer (fld seg 2 2)).closed = false) (hall : ∀ o ∈ (channelOf s peer (fld seg 2 2)).unacked, o.seq < fld seg 8 8)
    (hjobs : ∀ j ∈ s.compute.jobs, (peer, fld seg 2 2) ∉ j.channels) {c : Channel} (hdef : c = { credited s peer seg with
      unacked := []
      slotCredit := (channelOf s peer (fld seg 2 2)).slotCredit || (decide (4 ≤ fld seg 2 2) && fld seg 26 2 != 0) }) :
    segmentAck peer seg s = if (channelOf s peer (fld seg 2 2)).unacked = [] ∧ (fld seg 2 2 < 4 ∨ fld seg 26 2 = 0) then setChannel peer (fld seg 2 2) c s
      else shipSettled peer (setChannel peer (fld seg 2 2) c s) := by
  have hheard : (channelOf s peer (fld seg 2 2)).unacked.filter (fun o => decide (o.seq < fld seg 8 8)) = (channelOf s peer (fld seg 2 2)).unacked :=
    List.filter_eq_self.mpr fun o ho => by simpa using hall o ho
  have hleft : (channelOf s peer (fld seg 2 2)).unacked.filter (fun o => decide (fld seg 8 8 ≤ o.seq)) = [] :=
    List.filter_eq_nil_iff.mpr fun o ho => by simpa using hall o ho
  have hnojobs : s.compute.jobs.filter (fun j => j.channels.contains (peer, fld seg 2 2)) = [] :=
    List.filter_eq_nil_iff.mpr fun j hj => by simpa using hjobs j hj
  have hlive : ¬ (channelOf s peer (fld seg 2 2)).closed = true := by simp [hc]
  have hquiet : ((channelOf s peer (fld seg 2 2)).unacked.isEmpty && !(decide (4 ≤ fld seg 2 2) && fld seg 26 2 != 0)) = true
      ↔ (channelOf s peer (fld seg 2 2)).unacked = [] ∧ (fld seg 2 2 < 4 ∨ fld seg 26 2 = 0) := by
    rw [Bool.and_eq_true, List.isEmpty_iff, Bool.not_eq_true', Bool.and_eq_false_iff, decide_eq_false_iff_not, Nat.not_le, bne_eq_false_iff_eq]
  subst hdef
  simp only [segmentAck, if_neg hlive, hheard, hleft, List.map_nil, List.isEmpty_nil, List.head?_nil, Option.any_none, Bool.and_false,
    Bool.and_true, Bool.false_eq_true, if_false, pump_idle, channelOf_setChannel_self, setChannel_compute, hnojobs, List.foldl_nil, hquiet]
  rfl

theorem retransmitTimeout_closes (ho : (channelOf s peer ch).unacked.head? = some o) (hc : (channelOf s peer ch).closed = false) (hs : o.acked < o.sent)
    (h16 : 16 ≤ o.resends) : exec (.retransmitTimeout peer ch) s = nextOf s (setChannel peer ch { channelOf s peer ch with closed := true } s) := by
  simp only [exec, execRetransmitTimeout, ho, hc, Bool.false_eq_true, false_or, if_neg (Nat.not_le.mpr hs), if_pos h16]

theorem retransmitTimeout_resends (ho : (channelOf s peer ch).unacked.head? = some o) (hc : (channelOf s peer ch).closed = false) (hs : o.acked < o.sent)
    (h16 : o.resends < 16) : exec (.retransmitTimeout peer ch) s = nextOf s (resend peer ch (setChannel peer ch { channelOf s peer ch with
      unacked := (channelOf s peer ch).unacked.map (fun x => if x.seq = o.seq then { x with resends := x.resends + 1 } else x) } s)) := by
  simp only [exec, execRetransmitTimeout, ho, hc, Bool.false_eq_true, false_or, if_neg (Nat.not_le.mpr hs), if_neg (Nat.not_le.mpr h16)]

/-! ### Clocks -/

/-- A TIME_SYNC message of its OP goes to what takes it, R430, R435. -/
theorem onTimeSync_arrives {op : Nat} {k : Msg → State → State} (ha : Arrives 0x09 peer plain (advance now s) m) (h1 : zeroAt m.body 1 1 = true)
    (h4 : zeroAt m.body 4 4 = true) (hlen : m.body.length = 16) (hop : fld m.body 0 1 = op) :
    onTimeSync op peer plain now s k = k m (heardFrom peer (advance now s)) := by
  have hbody : fld plain 24 1 = fld m.body 0 1 := by
    obtain ⟨-, -, -, -, -, -, rfl⟩ := ha
    simp [fld, slice]
  have hof : ¬ fld plain 24 1 ≠ op := by simp [hbody, hop]
  simp only [onTimeSync, if_neg hof, RowEvents.onMessage_arrives ha, h1, h4, hlen, Bool.not_true, bne_self_eq_false, Bool.or_self, Bool.false_eq_true, if_false]

/-- Settles O56: a segment by where it stands in its message, an acknowledgement by what it leaves open, a clock message by its OP. The acknowledgement
with one unit of credit is log entry 98. -/
theorem transportAndClockEventsTakeEffect : Obligations.TransportAndClockEventsTakeEffect := by
  unfold Obligations.TransportAndClockEventsTakeEffect
  refine ⟨?_, ?_, ?_, fun s now => rfl, ?_, ?_, ?_, ?_⟩
  · rintro s _ p seq ack peer seg hmode hcarries hformed rfl hdst hpeer hc
    refine ⟨fun hkind hseq hoff hmore => ?_, fun hkind hseq => ?_, fun hkind => ?_⟩
    · have htaken := onSegment_taken (k := segmentIn p) hmode hcarries hformed hdst hpeer
      rw [hkind, segmentIn_expected hc hseq hoff hmore] at htaken
      exact ⟨_, congrArg (nextOf s) htaken, channelOf_setChannel_self _ _ _ _, rfl, rfl⟩
    · have htaken := onSegment_taken (k := segmentIn p) hmode hcarries hformed hdst hpeer
      rw [hkind, segmentIn_duplicate hc hseq] at htaken
      exact ⟨_, congrArg (nextOf s) htaken, channelOf_setChannel_self _ _ _ _⟩
    · have htaken := onSegment_taken (k := segmentAck) hmode hcarries hformed hdst hpeer
      rw [hkind] at htaken
      exact congrArg (nextOf s) htaken
  · intro s peer seg hc hall hjobs c hdef
    exact segmentAck_all hc hall hjobs hdef
  · intro s peer ch o ho hc hs
    exact ⟨fun h16 => (retransmitTimeout_closes ho hc hs h16).trans (nextOf_of_same s rfl), fun h16 => retransmitTimeout_resends ho hc hs h16⟩
  · rintro s _ peer now plain m rfl ha h1 h4 hlen
    refine ⟨fun hop hparent => ?_, fun hop hparent => ?_, fun hop => ?_, fun hop hparent => ?_⟩
    · exact congrArg (nextOf s) ((onTimeSync_arrives ha h1 h4 hlen hop).trans (if_pos hparent))
    · exact congrArg (nextOf s) ((onTimeSync_arrives ha h1 h4 hlen hop).trans (if_pos hparent))
    · exact congrArg (nextOf s) (onTimeSync_arrives ha h1 h4 hlen hop)
    · exact congrArg (nextOf s) ((onTimeSync_arrives ha h1 h4 hlen hop).trans (if_pos hparent))
  · intro s domain now hslave
    refine ⟨⟨_, congrArg (nextOf s) (if_pos hslave), rfl, by simp, by simp⟩, ⟨_, congrArg (nextOf s) (if_pos hslave), rfl, rfl, rfl⟩,
      fun stamp => congrArg (nextOf s) (if_pos hslave)⟩
  · intro s p domain now hdomain hsource hup
    exact congrArg (nextOf s) (if_pos ⟨hdomain, hsource, hup⟩)
  · intro s t4
    refine ⟨rfl, ?_, rfl⟩
    simp only [takeOffset]
    split <;> simp_all

end Sys2Proof.TransportEvents

/-! Waits for candidacies (R441, R604) and pair secrets (R476, R477). -/

namespace Sys2Proof.FormationEvents

open Sys2Proof Sys2Proof.Machine Sys2Proof.Laws Sys2Proof.Sending

variable {s : State} {uid n h now : Nat} {w : CandidacyWait} {e : FormEntry} {b : Bytes} {matching prepared : Bool}

/-! ### Candidacies -/

theorem candidacyCheck_forbidden (hw : s.fabric.waits = [w]) (he : waitEntry w uid = some e) (hbad : entryKindBad e (decodeView b) = true) :
    candidacyCheck uid matching prepared b s = waitFails w .badParam (uidOffset s w uid) s := by
  simp only [candidacyCheck, hw, List.foldl_cons, List.foldl_nil, he, hbad, if_true]

/-- A wait with the answer of an entry recorded, R604. -/
def answeredWait (uid : Nat) (prepared : Bool) (b : Bytes) (w : CandidacyWait) : CandidacyWait :=
  { w with entries := w.entries.map (fun x => if x.uid = uid then { x with answer := some (decodeView b, prepared) } else x) }

/-- The state with that wait in place of the one it was. -/
def withWait (w w1 : CandidacyWait) (s : State) : State :=
  { s with fabric := { s.fabric with waits := s.fabric.waits.map (fun x => if x.serial = w.serial then w1 else x) } }

/-- A matching answer of modules whose pair secrets are all known is recorded, and no secret is asked for, R604. -/
theorem candidacyCheck_matching (hw : s.fabric.waits = [w]) (he : waitEntry w uid = some e) (hgood : entryKindBad e (decodeView b) = false)
    (hpairs : ∀ p ∈ (decodeView b).modules, khas s.sec.pairs p.2.uid = true) :
    candidacyCheck uid true prepared b s = settleWait (answeredWait uid prepared b w) (withWait w (answeredWait uid prepared b w) s) := by
  have hnone : (decodeView b).modules.filter (fun p => !khas (withWait w (answeredWait uid prepared b w) s).sec.pairs p.2.uid
      && !khas (withWait w (answeredWait uid prepared b w) s).sec.pairAsks p.2.uid) = [] :=
    List.filter_eq_nil_iff.mpr fun p hp => by
      have hknown : khas (withWait w (answeredWait uid prepared b w) s).sec.pairs p.2.uid = true := hpairs p hp
      simp [hknown]
  simp only [candidacyCheck, hw, List.foldl_cons, List.foldl_nil, he, hgood, Bool.not_true, Bool.false_eq_true, if_false]
  rw [withWait, answeredWait] at hnone
  simp only at hnone
  rw [hnone]
  simp only [answeredWait, withWait, hw, List.map_nil, List.foldl_nil]

theorem candidacyTimeout_due {f : Flight} {t : Txn} (hw : s.fabric.waits.find? (fun w => w.serial == h) = some w) (hf : flightOf s h = some f)
    (ht : txnOf s f.hdr.sessionId f.hdr.txnId = some t) (hdue : w.since + t.timeoutMs * 1000000 ≤ (advance now s).frontTime) :
    ∃ id, candidacyTimeout h now s = waitFails w .memberUnreachable id (advance now s) := by
  have hf' : flightOf (advance now s) h = some f := by simpa [flightOf] using hf
  have ht' : txnOf (advance now s) f.hdr.sessionId f.hdr.txnId = some t := by simpa [txnOf] using ht
  have hover : ¬ (advance now s).frontTime < w.since + t.timeoutMs * 1000000 := Nat.not_lt.mpr hdue
  refine ⟨((listMin? ((w.entries.filter (fun e => e.answer.isNone)).map (·.id))).getD 0), ?_⟩
  simp only [candidacyTimeout, advance_fabric, hw, hf', ht', Option.bind_some, Option.map_some, Option.getD_some, if_neg hover]

/-! ### Pair secrets -/

/-- What an answer's signed transcript must be, R476, R477. -/
def pairTranscript (uid n : Nat) (b : Bytes) : Bytes := sha384Bytes (pairSigned uid (pairPrefix n) ++ slice b 8 97 ++ slice b 112 1568 ++ zeros 4)

theorem pairMessage_length {response : Bool} (hlen : b.length ≠ (if response then 9777 else 14532)) : pairMessage uid response b s = malformed s :=
  if_pos (Or.inl hlen)

/-- The state once a newcomer of the view has been told of tables and indexes (log entry 64). -/
def told (uid : Nat) (s : State) : State :=
  match moduleOfUid s uid with
  | some m => tellIndexes m (tellTables m s)
  | none => s

/-- An answer of the right length from a module that is known is taken. -/
theorem pairMessage_answer (hlen : b.length = 9777) (hk : pairKnown s uid = true) : pairMessage uid true b s =
    if (takePair uid b s).1 then settleWaits (told uid (takePair uid b s).2) else waitsRefuse uid (takePair uid b s).2 := by
  have hgood : ¬ (b.length ≠ 9777 ∨ pairKnown s uid = false) := by simp [hlen, hk]
  simp only [pairMessage, if_true, if_neg hgood]
  rfl

theorem takePair_fails (ha : kget s.sec.pairAsks uid = some n) (hr : peerReportGood s uid (slice b 7088 2689) (slice b 1680 5403) = false) :
    takePair uid b s = (false, pairFails uid s) := by
  simp only [takePair, ha, hr, Bool.not_false, Bool.true_or, if_true]

theorem setPair_sec (uid : Nat) (prk : BitVec 384) (s : State) : (setPair uid prk s).sec = { s.sec with pairs := kset s.sec.pairs uid ⟨prk⟩ }
    ∧ (setPair uid prk s).mem = s.mem := by
  simp only [setPair]
  split <;> exact ⟨rfl, rfl⟩

/-- An answer whose report and transcript are good ends the request, and gives the secret where this module asked as the lower DEVICE_UID, R476. -/
theorem takePair_takes (ha : kget s.sec.pairAsks uid = some n) (hr : peerReportGood s uid (slice b 7088 2689) (slice b 1680 5403) = true)
    (ht : slice (slice b 1680 5403) 152 48 = pairTranscript uid n b) : (takePair uid b s).1 = true
      ∧ kget (takePair uid b s).2.sec.pairAsks uid = none ∧ (takePair uid b s).2.mem = s.mem
      ∧ (Config.deviceUid.toNat < uid → khas (takePair uid b s).2.sec.pairs uid = true) := by
  have hsame : (slice (slice b 1680 5403) 152 48 != pairTranscript uid n b) = false := by simp [ht]
  rw [pairTranscript] at hsame
  simp only [takePair, ha, hr, hsame, Bool.not_true, Bool.or_self, Bool.false_eq_true, if_false]
  by_cases hlow : Config.deviceUid.toNat < uid
  · simp [hlow, setPair_sec, khas]
  · simp [hlow]

/-! ### Telling of tables and indexes -/

theorem sends_sendTable (sub m tenant corr id : Nat) (b : Bytes) (s : State) : Sends s (sendTable sub m tenant corr id b s) := sends_sendMessage _ _ _ _ _ _ _ s

theorem sends_tellTables (m : Nat) (s : State) : Sends s (tellTables m s) :=
  Sends.foldl (fun t p => by
    unfold tellTable
    split
    · exact .refl t
    · exact Sends.foldl (fun u m => sends_sendTable _ _ _ _ _ _ u) _ t) _ s

theorem sends_tellIndexes (m : Nat) (s : State) : Sends s (tellIndexes m s) :=
  Sends.foldl (fun t p => by
    unfold tellIndex
    split
    · exact .refl t
    · exact Sends.foldl (fun u m => sends_sendTable _ _ _ _ _ _ u) _ t) _ s

/-- A newcomer is told by messages alone. -/
theorem sends_told (uid : Nat) (s : State) : Sends s (told uid s) := by
  unfold told
  split
  · exact (sends_tellTables _ _).trans (sends_tellIndexes _ _)
  · exact .refl s

/-- Settles O54: a candidacy's answer by its entry's kind, an answer for a pair secret by its report. The lengths are log entry 63, the row of the
answer log entry 62. -/
theorem formationEventsTakeEffect : Obligations.FormationEventsTakeEffect := by
  unfold Obligations.FormationEventsTakeEffect
  refine ⟨?_, ?_, ?_, ?_, ?_, ?_⟩
  · intro s uid matching prepared b w e hw he hbad
    exact congrArg (nextOf s) (candidacyCheck_forbidden hw he hbad)
  · intro s uid prepared b w e hw he hgood hpairs
    refine ⟨_, _, congrArg (nextOf s) (candidacyCheck_matching hw he hgood hpairs), by simp [withWait, hw], rfl, fun x hx hu => ?_, rfl, rfl⟩
    obtain ⟨y, -, rfl⟩ := List.mem_map.mp hx
    by_cases hy : y.uid = uid <;> simp_all
  · rintro s _ h now w f t rfl hw hf ht hdue
    obtain ⟨id, hid⟩ := candidacyTimeout_due hw hf ht hdue
    exact ⟨id, congrArg (nextOf s) hid⟩
  · intro s uid response b hlen
    exact congrArg (nextOf s) (pairMessage_length hlen)
  · intro s uid n b hlen hk ha hr
    have hmsg := pairMessage_answer (b := b) hlen hk
    rw [takePair_fails ha hr] at hmsg
    exact congrArg (nextOf s) hmsg
  · intro s uid n b hlen hk ha hr ht
    obtain ⟨hgood, hasks, hmem, hpairs⟩ := takePair_takes ha hr ht
    have hmsg := pairMessage_answer (b := b) hlen hk
    rw [if_pos hgood] at hmsg
    have htold := sends_told uid (takePair uid b s).2
    refine ⟨_, congrArg (nextOf s) hmsg, ?_, htold.mem.trans hmem, fun hlow => ?_⟩
    · rw [htold.sec]
      exact hasks
    · rw [htold.sec]
      exact hpairs hlow

end Sys2Proof.FormationEvents

/-! Heartbeats, lost peers and stale clocks (R436, R446), and the messages by which a view is agreed on (R448, R450). The layouts of the view, of PROPOSE
and of CATCH_UP are log entries 61 and 104. -/

namespace Sys2Proof.ViewEvents

open Sys2Proof Sys2Proof.Machine Sys2Proof.Laws Sys2Proof.Sending

variable {s : State} {peer now op type : Nat} {plain : Bytes} {m : Msg}

/-! ### A message that arrives -/

/-- Hearing from a peer changes, of the fabric, the peers alone. -/
theorem heardFrom_fabric (peer : Nat) (s : State) : (heardFrom peer s).fabric = { s.fabric with peers := (heardFrom peer s).fabric.peers } := by
  simp only [heardFrom]
  split <;> rfl

theorem heardFrom_frontTime (peer : Nat) (s : State) : (heardFrom peer s).frontTime = s.frontTime := by
  simp only [heardFrom]
  split <;> rfl

theorem heardFrom_peer_self (peer : Nat) (s : State) : peerOf (heardFrom peer s) peer = { peerOf s peer with lastMessage := s.frontTime, cut := false } := by
  simp only [heardFrom]
  split <;> exact peerOf_setPeer_self ..

theorem heardFrom_peer_ne {q : Nat} (s : State) (h : q ≠ peer) : peerOf (heardFrom peer s) q = peerOf s q := by
  simp only [heardFrom]
  split <;> exact peerOf_setPeer_ne _ _ h

/-- A message of this module's epoch, or of an earlier one, makes nobody STALE. -/
theorem hearEpoch_known {e : Nat} (h : e ≤ s.fabric.view.epoch) : hearEpoch peer e s = s := if_neg (Nat.not_lt.mpr h)

/-- Arrival looks at the view alone. -/
theorem arrives_advance (now : Nat) (ha : Arrives type peer plain s m) : Arrives type peer plain (advance now s) m := by
  rw [Arrives, advance_fabric]
  exact ha

theorem body_op (ha : Arrives type peer plain s m) : fld plain 24 1 = fld m.body 0 1 := by
  obtain ⟨-, -, -, -, -, -, rfl⟩ := ha
  simp [fld, slice]

/-- A FRONT_VIEW message of the operation asked for, whose epoch is known, is taken, R430. -/
theorem onView_arrives {k : Msg → State → State} (ha : Arrives 0x0B peer plain s m) (hop : fld m.body 0 1 = op) (h1 : zeroAt m.body 1 1 = true)
    (hlen : 16 ≤ m.body.length) (he : m.epoch ≤ s.fabric.view.epoch) : onView op peer plain s k = k m (heardFrom peer s) := by
  have hof : ¬ fld plain 24 1 ≠ op := by simp [body_op ha, hop]
  have hbad : ¬ (zeroAt m.body 1 1 = false ∨ m.body.length < 16) := by simp [h1, hlen]
  have hknown : m.epoch ≤ (heardFrom peer s).fabric.view.epoch := by rwa [RowEvents.heardFrom_view]
  simp only [onView, if_neg hof, RowEvents.onMessage_arrives ha, if_neg hbad, hearEpoch_known hknown]

/-! ### Heartbeats, losses, clocks -/

/-- A HEARTBEAT counts as heard and records its sender's role and accepted epoch, R430, R446. -/
theorem heartbeat_arrives (ha : Arrives 0x0A peer plain s m) (h2 : zeroAt m.body 2 2 = true) (hlen : m.body.length = 24) (hr : fld m.body 0 1 ≤ 2)
    (he : m.epoch ≤ s.fabric.view.epoch) :
    heartbeat peer plain now s = setPeer peer ⟨(advance now s).frontTime, fld m.body 1 1, m.epoch, fld m.body 16 8, false⟩ (heardFrom peer (advance now s)) := by
  have hgood : ¬ (!zeroAt m.body 2 2 || m.body.length != 24 || decide (2 < fld m.body 0 1)) = true := by simp [h2, hlen, hr]
  have hknown (p : Peer) : m.epoch ≤ (setPeer peer p (heardFrom peer (advance now s))).fabric.view.epoch := by
    rw [setPeer, RowEvents.heardFrom_view, advance_fabric]
    exact he
  simp only [heartbeat, RowEvents.onMessage_arrives (arrives_advance now ha), if_neg hgood, hearEpoch_known (hknown _), heardFrom_peer_self]

/-- A peer without a message for LOSS_MS is lost, R446. -/
theorem peerUnreachable_due (h : (peerOf s peer).lastMessage + s.fabric.lossMs * 1000000 ≤ (advance now s).frontTime) :
    execPeerUnreachable peer now s = nextOf s (losePeer peer (advance now s)) := by
  have hdue : (peerOf (advance now s) peer).lastMessage + (advance now s).fabric.lossMs * 1000000 ≤ (advance now s).frontTime := by
    rw [peerOf, advance_fabric]
    exact h
  simp only [execPeerUnreachable, if_pos hdue]

/-- A clock that was off for a second makes the module STALE, with its record, R436. -/
theorem offsetStale_due {since : Nat} (ho : s.fabric.offsetSince = some since) (hd : since + 1000000000 ≤ (advance now s).frontTime)
    (hr : s.fabric.view.rights ≠ .stale) :
    execOffsetStale now s = nextOf s (logFault 0x000A 0 0 0xD000 0 0 0 s.fabric.offsetNs.natAbs (becomeStale (advance now s))) := by
  simp only [execOffsetStale, advance_fabric, ho, if_pos (And.intro hd hr)]

/-! ### Proposals -/

/-- The state in which a proposal is held as accepted. -/
def accepting (e peer : Nat) (s : State) : State :=
  { s with fabric := { s.fabric with
    accepted := e
    acceptedLeader := some peer
    proposal := none } }

/-- The first proposal of an epoch from the leader of the modules reached is accepted, R448. -/
theorem acceptProposal_first {e : Nat} {b : Bytes} (hmay : mayAccept s = true) (hfirst : s.fabric.accepted < fld b 8 8) (hleader : fld b 2 2 = peer)
    (hhead : (reachSet s).head? = some peer) (hself : (entriesReached (fld b 4 4) (b.drop 16)).contains s.fabric.view.self = true)
    (he : e = s.fabric.view.epoch) :
    acceptProposal peer e b s = sendMessage peer 0x0B 1 0 0 0 (frontViewHdr 1 peer 0 (fld b 8 8) ++ keyNames (ownRecords s)) (accepting (fld b 8 8) peer s) := by
  simp only [acceptProposal, hmay, he, hself, hleader, hhead, hfirst, beq_self_eq_true, decide_true, Bool.true_or, Bool.and_self, if_true]
  rfl

/-- A well-formed PROPOSE at a member that may accept is judged at once, R448. -/
theorem viewPropose_judged (hlen : m.body.length = 16 + 32 * fld m.body 4 4) (hr : s.fabric.view.rights ≠ .stale) :
    viewPropose peer m s = acceptProposal peer m.epoch m.body s := by
  have hmay : mayAccept s = true := by simp [mayAccept, hr]
  simp only [viewPropose, ne_eq, hlen, not_true_eq_false, if_false, hmay, if_true]

/-- An acceptor of the proposal under way is noted with its commit records, R75, R448. -/
theorem viewAccept_noted {p : Proposal} (hlen : m.body.length = 20 + 12 * fld m.body 16 4) (hp : s.fabric.proposal = some p) (he : p.epoch = fld m.body 8 8)
    (hself : fld m.body 2 2 = s.fabric.view.self) (hset : p.set.contains peer = true) (hnew : p.acceptors.contains peer = false) :
    viewAccept peer m s = { s with fabric := { s.fabric with
      proposal := some { p with acceptors := p.acceptors ++ [peer], records := p.records ++ keysAt m.body 16 } } } := by
  simp only [viewAccept, ne_eq, hlen, not_true_eq_false, if_false, hp]
  exact if_pos ⟨he, hself, hset, hnew⟩

/-- A tick after it proposed, the leader installs what the acceptors make possible, R448. -/
theorem viewDecision_installs {p : Proposal} (hp : s.fabric.proposal = some p) (hsent : p.sent < s.ticks) :
    ∃ u, Sends (advance now s) u ∧ viewDecision now s
      = takeInstall (if holdsTop s.fabric.view p.acceptors then p.epoch else s.fabric.view.epoch) p.acceptors p.records.eraseDups now u := by
  simp only [viewDecision, advance_fabric, advance_ticks, hp, if_neg (Nat.not_le.mpr hsent)]
  exact ⟨_, sends_sendAll .., rfl⟩

/-- An INSTALL of the leader accepted takes effect, R448. -/
theorem viewInstall_taken (hlen : m.body.length = 20 + 32 * fld m.body 4 4 + 12 * fld m.body (16 + 32 * fld m.body 4 4) 4)
    (hleader : s.fabric.acceptedLeader = some peer) (hself : (entriesReached (fld m.body 4 4) (m.body.drop 16)).contains s.fabric.view.self = true)
    (he : fld m.body 8 8 = s.fabric.accepted) :
    viewInstall peer now m s = takeInstall (fld m.body 8 8) (entriesReached (fld m.body 4 4) (m.body.drop 16))
      (keysAt m.body (16 + 32 * fld m.body 4 4)) now s := by
  simp only [viewInstall, ne_eq, hlen, not_true_eq_false, if_false]
  exact if_pos ⟨hleader, hself, .inl he⟩

/-- ADJ of a sender takes the place of what it said before, and routes follow, R423. -/
theorem frontViewAdj_arrives (ha : Arrives 0x0B peer plain s m) (hop : fld m.body 0 1 = 4) (h1 : zeroAt m.body 1 1 = true)
    (hlen : m.body.length = 16 + 9 * fld m.body 4 4) (he : m.epoch ≤ s.fabric.view.epoch) :
    frontViewAdj peer plain s = recomputeRoutes { heardFrom peer s with fabric := { (heardFrom peer s).fabric with
      adjacencies := (heardFrom peer s).fabric.adjacencies.filter (fun a => a.1 != peer)
        ++ (List.range (fld m.body 4 4)).map (fun i => (peer, fld m.body (16 + 9 * i) 1, fld m.body (17 + 9 * i) 8)) } } := by
  have hof : ¬ fld plain 24 1 ≠ 4 := by simp [body_op ha, hop]
  have hgood : ¬ (m.body.length ≠ 16 + 9 * fld m.body 4 4 ∨ zeroAt m.body 1 1 = false) := by simp [hlen, h1]
  have hknown : m.epoch ≤ (heardFrom peer s).fabric.view.epoch := by rwa [RowEvents.heardFrom_view]
  simp only [frontViewAdj, if_neg hof, RowEvents.onMessage_arrives ha, if_neg hgood]
  exact hearEpoch_known hknown

/-- Settles O52: each message of FRONT_VIEW by its operation, the timers by the time they have run. -/
theorem viewEventsTakeEffect : Obligations.ViewEventsTakeEffect := by
  unfold Obligations.ViewEventsTakeEffect
  refine ⟨?_, fun s peer now h => peerUnreachable_due h, ?_, ?_, ?_, ?_, ?_, ?_, ?_, ?_⟩
  · intro s peer now plain m ha h2 hlen hr he
    refine ⟨_, congrArg (nextOf s) (heartbeat_arrives ha h2 hlen hr he), peerOf_setPeer_self .., ?_, ?_, fun q hq => ?_⟩
    · exact (Canonical.heardFrom_mem ..).trans (advance_mem ..)
    · exact (RowEvents.heardFrom_view ..).trans (by rw [advance_fabric])
    · rw [peerOf_setPeer_ne _ _ hq, heardFrom_peer_ne _ hq, peerOf, advance_fabric, peerOf]
  · intro s now since ho hd hr
    refine ⟨_, offsetStale_due ho hd hr, by simp [becomeStale], by simp [becomeStale], fun hroom => ?_⟩
    have hroom' : (becomeStale (advance now s)).faults.queue.length < 64 := by rwa [becomeStale, advance_faults]
    rw [FaultLog.logFault_room hroom', becomeStale, advance_faults]
    exact ⟨_, rfl, rfl, rfl⟩
  · intro s peer plain m ha hop h1 hlen he hr
    have hr' : (heardFrom peer s).fabric.view.rights ≠ .stale := by rwa [RowEvents.heardFrom_view]
    exact congrArg (nextOf s) ((onView_arrives ha hop h1 (by omega) he.le).trans (viewPropose_judged hlen hr'))
  · intro s peer e b hmay hfirst hleader hhead hself he
    exact ⟨_, acceptProposal_first hmay hfirst hleader hhead hself he, rfl, rfl, rfl, rfl⟩
  · intro s peer plain m p ha hop h1 hlen he hp hepoch hself hset hnew
    have hfabric := heardFrom_fabric peer s
    exact ⟨_, congrArg (nextOf s) ((onView_arrives ha hop h1 (by omega) he).trans
      (viewAccept_noted hlen (by rw [hfabric, hp]) hepoch (by rw [hfabric, hself]) hset hnew)), rfl, Canonical.heardFrom_mem ..⟩
  · intro s now p hp hsent
    obtain ⟨u, hu, hinstall⟩ := viewDecision_installs (now := now) hp hsent
    exact ⟨u, congrArg (nextOf s) hinstall, by rw [hu.view, advance_fabric], by rw [hu.mem, advance_mem]⟩
  · intro s peer now plain m ha hop h1 hlen he hleader hself hepoch
    have hfabric := heardFrom_fabric peer s
    exact congrArg (nextOf s) ((onView_arrives ha hop h1 (by omega) he).trans
      (viewInstall_taken hlen (by rw [hfabric, hleader]) (by rwa [hfabric]) (by rw [hfabric, hepoch])))
  · intro s peer plain m ha hop h1 hlen he hn
    have hfabric := heardFrom_fabric peer s
    refine congrArg (nextOf s) ((onView_arrives ha hop h1 hlen he).trans ?_)
    rw [viewCatchUp, if_pos hn, ownRecords, RowEvents.heardFrom_view, ownRecords, hfabric]
  · intro s peer plain m ha hop h1 hlen he
    have hfabric := heardFrom_fabric peer s
    refine ⟨_, _, congrArg (nextOf s) (frontViewAdj_arrives ha hop h1 hlen he), by rw [hfabric]; rfl, by simp, fun a hmem => ?_,
      RowEvents.heardFrom_view .., Canonical.heardFrom_mem ..⟩
    obtain ⟨i, -, rfl⟩ := List.mem_map.mp hmem
    rfl

end Sys2Proof.ViewEvents

/-! The hand-over of a request's pages (KV_SHIP, R368) and the partials of a layer run (TILE, R207). -/

namespace Sys2Proof.HandoverMessages

open Sys2Proof Sys2Proof.Machine Sys2Proof.Laws Sys2Proof.Sending

variable {s s1 : State} {peer op : Nat} {plain : Bytes} {m : Msg}

/-! ### Hearing from the sender -/

/-- Hearing from a peer changes outputs, fabric, keys and tables alone. -/
theorem heardFrom_rest (peer : Nat) (s : State) : heardFrom peer s = { s with
    outputs := (heardFrom peer s).outputs
    fabric := (heardFrom peer s).fabric
    sec := (heardFrom peer s).sec
    tables := (heardFrom peer s).tables } := by
  simp only [heardFrom]
  split <;> rfl

theorem heardFrom_serve (peer : Nat) (s : State) : (heardFrom peer s).serve = s.serve := by rw [heardFrom_rest]
theorem heardFrom_role (peer : Nat) (s : State) : (heardFrom peer s).role = s.role := by rw [heardFrom_rest]
theorem heardFrom_tiers (peer : Nat) (s : State) : (heardFrom peer s).tiers = s.tiers := by rw [heardFrom_rest]
theorem heardFrom_compute (peer : Nat) (s : State) : (heardFrom peer s).compute = s.compute := by rw [heardFrom_rest]
theorem heardFrom_proto (peer : Nat) (s : State) : (heardFrom peer s).proto = s.proto := by rw [heardFrom_rest]

theorem inboundOf_heardFrom (p tenant id : Nat) : inboundOf (heardFrom peer s) p tenant id = inboundOf s p tenant id := by
  rw [inboundOf, heardFrom_serve, inboundOf]

theorem shipping_heardFrom (p : Nat) (m : Msg) : shipping (heardFrom peer s) p m = shipping s p m := by
  rw [shipping, requestKeyed, heardFrom_serve, shipping, requestKeyed]

theorem servedModel_heardFrom (h : Nat) : servedModel (heardFrom peer s) h = servedModel s h := by rw [servedModel, heardFrom_serve, servedModel]

theorem pagesNeeded_heardFrom (p : Pipeline) (prompt n : Nat) : pagesNeeded (heardFrom peer s) p prompt n = pagesNeeded s p prompt n := by
  simp only [pagesNeeded, servedModel_heardFrom]

theorem overFrames_heardFrom (tenant : Nat) (n : Nat × Nat) : overFrames (heardFrom peer s) tenant n = overFrames s tenant n := by
  rw [overFrames, heardFrom_tiers, overFrames]

/-! ### KV_SHIP -/

/-- A KV_SHIP message of the operation and the length asked for is taken, R430. -/
theorem onShip_arrives {k : Msg → State → State} (ha : Arrives 0x02 peer plain s m) (hop : fld m.body 0 1 = op) (h1 : zeroAt m.body 1 1 = true)
    (h18 : zeroAt m.body 18 2 = true) (hlen : m.body.length = 24 + (if op = 2 then 65536 else 0)) :
    onShip op peer plain s k = k m (heardFrom peer s) := by
  have hof : ¬ fld plain 24 1 ≠ op := by simp [ViewEvents.body_op ha, hop]
  simp only [onShip, if_neg hof, RowEvents.onMessage_arrives ha, h1, h18, hlen, Bool.not_true, bne_self_eq_false, Bool.or_self, Bool.false_eq_true, if_false]

/-- OPEN for a decode pipeline that this module may serve waits for pages and a channel, R349, R368. -/
theorem shipOpen_admitted {p : Pipeline} {d : Model} (hp : kget s.serve.pipelines (fld m.body 6 2) = some p) (htenant : p.tenant = m.tenant) (hkind : p.kind = 4)
    (hd : modelOf s p.decoder = some d) (hstays : s.fabric.leaving = []) (hrole : admitsKv s.role = true) (htag : d.tag = fld m.body 8 4)
    (hquota : overFrames s m.tenant (pagesNeeded s p (fld m.body 12 4) p.maxNew) = false) :
    shipOpen peer m s = tryAccept ⟨peer, m.tenant, fld m.body 2 2, m.corr, fld m.body 4 2, 0, fld m.body 6 2, fld m.body 8 4,
      fld m.body 12 4, false, ⟨[], []⟩, []⟩ s := by
  simp only [shipOpen, hp, Option.filter_some, htenant, hkind, beq_self_eq_true, Bool.and_self, if_true, Option.bind_some, hd, hstays, List.isEmpty_nil, hrole,
    htag, hquota, Bool.not_true, Bool.false_eq_true, if_false, ne_eq, not_true_eq_false]

/-- A hand-over that finds a channel and frames is held as accepted, R366, R368. -/
theorem tryAccept_holds {x : Inbound2} {p : Pipeline} {ch : Nat} {frames : List Nat} (hp : kget s.serve.pipelines x.nextPipe = some p)
    (hch : firstFree (heldChannels s x.peer) 4 4092 = some ch)
    (hframes : takeFrames x.tenant ((pagesNeeded s p x.prompt p.maxNew).1 + (pagesNeeded s p x.prompt p.maxNew).2) s = (some frames, s1)) :
    { x with accepted := true, channel := ch, pages := ⟨frames, []⟩ } ∈ (tryAccept x s).serve.inbound := by
  simp only [tryAccept, hp, hch, hframes]
  rw [(sends_sendMessage ..).serve]
  exact List.mem_append_right _ (List.mem_singleton_self _)

/-- A hand-over changed in place is what its key finds. -/
theorem inboundOf_setInbound {x y : Inbound2} {tenant id : Nat} (hx : inboundOf s peer tenant id = some x) (hp : y.peer = x.peer) (ht : y.tenant = x.tenant)
    (hi : y.id = x.id) : inboundOf (setInbound y s) peer tenant id = some y := by
  have hkey := List.find?_some hx
  have hsame (z : Inbound2) : ((if z.peer = y.peer ∧ z.tenant = y.tenant ∧ z.id = y.id then y else z).peer == peer
      && (if z.peer = y.peer ∧ z.tenant = y.tenant ∧ z.id = y.id then y else z).tenant == tenant
      && (if z.peer = y.peer ∧ z.tenant = y.tenant ∧ z.id = y.id then y else z).id == id) = (z.peer == peer && z.tenant == tenant && z.id == id) := by
    split
    · next h => rw [h.1, h.2.1, h.2.2]
    · rfl
  have hfound : s.serve.inbound.find? (fun z => z.peer == peer && z.tenant == tenant && z.id == id) = some x := hx
  simp only [inboundOf, setInbound, List.find?_map, Function.comp_def, hsame, hfound, Option.map_some]
  rw [if_pos ⟨hp.symm, ht.symm, hi.symm⟩]

/-- A page of the attempt that is awaited is held unseen, R368. -/
theorem kvShipPage_held {x : Inbound2} (ha : Arrives 0x02 peer plain s m) (hop : fld m.body 0 1 = 2) (h1 : zeroAt m.body 1 1 = true)
    (h18 : zeroAt m.body 18 2 = true) (hlen : m.body.length = 65560) (hx : inboundOf s peer m.tenant m.corr = some x) (hacc : x.accepted = true)
    (hatt : x.attempt = fld m.body 4 2) :
    execKvShipPage peer plain s = nextOf s (setInbound { x with
      pages := { x.pages with cells := Memory.writeN x.pages.cells (fld m.body 16 2 * 2 ^ 40 + fld m.body 20 4 * 2 ^ 16) (m.body.drop 24) }
      got := (fld m.body 16 2, fld m.body 20 4) :: x.got } (heardFrom peer s)) := by
  have hpresent : ¬ (x.accepted = false ∨ x.attempt ≠ fld m.body 4 2) := by simp [hacc, hatt]
  simp only [execKvShipPage, onShip_arrives ha hop h1 h18 hlen, inboundOf_heardFrom, hx, if_neg hpresent]

/-- An attempt that its source has given up loses its pages, and the next one is awaited, R368. -/
theorem kvShipAbort_dropped {x : Inbound2} (ha : Arrives 0x02 peer plain s m) (hop : fld m.body 0 1 = 3) (h1 : zeroAt m.body 1 1 = true)
    (h18 : zeroAt m.body 18 2 = true) (hlen : m.body.length = 24) (hx : inboundOf s peer m.tenant m.corr = some x) (hatt : x.attempt = fld m.body 4 2) :
    execKvShipAbort peer plain s = nextOf s (setInbound { x with
      attempt := x.attempt + 1
      pages := { x.pages with cells := [] }
      got := [] } (heardFrom peer s)) := by
  have hpresent : ¬ x.attempt ≠ fld m.body 4 2 := by simp [hatt]
  simp only [execKvShipAbort, onShip_arrives ha hop h1 h18 hlen, inboundOf_heardFrom, hx, if_neg hpresent]

/-! ### TILE -/

/-- The first partial of its slot is kept as it is, R207. -/
theorem keepPartial_new {f : Flight} {job : LayerJob} {p : Partial} (hhalf : p.half = 0)
    (hnew : ∀ q ∈ job.partials, ¬ (q.layer = p.layer ∧ q.tile = p.tile ∧ q.slice = p.slice)) :
    keepPartial f job p = { job with partials := job.partials ++ [p] } := by
  have hnone : job.partials.filter (fun q => q.layer == p.layer && q.tile == p.tile && q.slice == p.slice) = [] :=
    List.filter_eq_nil_iff.mpr fun q hq => by simpa [and_assoc] using hnew q hq
  have hroom (c : Prop) [Decidable c] : 0 < if c then 2 else 1 := by split <;> omega
  have hsame : { p with half := 0 } = p := by rw [← hhalf]
  simp only [keepPartial, hnone, List.length_nil, hsame]
  exact if_pos (hroom _)

/-- A partial for a layer run under way enters its slot, R207. -/
theorem tile_arrives {f : Flight} {job : LayerJob} {p : Partial} (ha : Arrives 0x01 peer plain s m) (h14 : zeroAt m.body 14 2 = true)
    (hr1 : 1 ≤ fld m.body 12 1) (hr2 : fld m.body 12 1 ≤ 128) (hc1 : 1 ≤ fld m.body 13 1) (hc2 : fld m.body 13 1 ≤ 128)
    (hlen : m.body.length = 16 + 4 * fld m.body 12 1 * fld m.body 13 1) (hjob : jobOfTile s m = some (f, job))
    (hp : p = ⟨fld m.body 4 4, fld m.body 8 4, fld m.body 2 2, fld m.body 12 1, fld m.body 13 1,
      unpack 32 (fld m.body 12 1 * fld m.body 13 1) (m.body.drop 16), 0, false⟩) (hfits : tileFits s f job peer p = true) :
    tileMessage peer plain s = enterPartials f.serial (setJob (keepPartial f job p) (heardFrom peer s)) := by
  have hrows : ¬ fld m.body 12 1 = 0 := by omega
  have hcols : ¬ fld m.body 13 1 = 0 := by omega
  have hjob' : jobOfTile (heardFrom peer s) m = some (f, job) := by rw [jobOfTile, heardFrom_proto, heardFrom_compute]; exact hjob
  have hfits' : tileFits (heardFrom peer s) f job peer p = true := by rw [tileFits, RowEvents.heardFrom_view]; exact hfits
  simp only [tileMessage, RowEvents.onMessage_arrives ha, if_neg hrows, if_neg hcols, h14, hlen, Nat.not_lt.mpr hr2, Nat.not_lt.mpr hc2, hjob', ← hp, hfits',
    Bool.not_true, bne_self_eq_false, decide_false, Bool.or_self, Bool.false_eq_true, if_false, if_true]

/-- Settles O48: each KV_SHIP message by its operation, a TILE by the run it names. The status of REFUSE stands in PAGE, 0 for BAD_FORMAT: log entry 60. -/
theorem handoverMessagesTakeEffect : Obligations.HandoverMessagesTakeEffect := by
  unfold Obligations.HandoverMessagesTakeEffect
  refine ⟨?_, ?_, ?_, ?_, ?_, ?_, ?_⟩
  · intro s peer plain m p d ha hop h1 h18 hlen hp htenant hkind hd hstays hrole htag hquota
    refine congrArg (nextOf s) ((onShip_arrives ha hop h1 h18 hlen).trans (shipOpen_admitted ?_ htenant hkind (d := d) ?_ ?_ ?_ htag ?_))
    · rwa [heardFrom_serve]
    · rwa [modelOf, heardFrom_serve]
    · rwa [ViewEvents.heardFrom_fabric]
    · rwa [heardFrom_role]
    · rwa [overFrames_heardFrom, pagesNeeded_heardFrom]
  · intro s s1 x p ch frames hp hch hframes
    exact ⟨tryAccept_holds hp hch hframes, (SessionCommands.firstFree_lowest hch).1, (TableCommands.firstFree_some hch).1⟩
  · intro s peer plain m r d ha hop h1 h18 hlen hr hd
    have harrives := fun k => onShip_arrives (k := k) ha hop h1 h18 hlen
    refine ⟨fun hnot => congrArg (nextOf s) ((harrives _).trans ?_), fun hshipped => congrArg (nextOf s) ((harrives _).trans ?_)⟩
    · simp only [shipping_heardFrom, hr, servedModel_heardFrom, hd, hnot, Bool.false_eq_true, if_false]
    · simp only [shipping_heardFrom, hr, servedModel_heardFrom, hd, hshipped, if_true]
  · intro s peer plain m x ha hop h1 h18 hlen hx hacc hatt
    have hx' : inboundOf (heardFrom peer s) peer m.tenant m.corr = some x := by rwa [inboundOf_heardFrom]
    have hbytes : (m.body.drop 24).length = 65536 := by rw [List.length_drop, hlen]
    refine ⟨_, _, kvShipPage_held ha hop h1 h18 hlen hx hacc hatt, inboundOf_setInbound hx' rfl rfl rfl, rfl, rfl, fun hwf => ?_,
      Canonical.heardFrom_mem .., (congrArg ServeSpace.requests (heardFrom_serve peer s) :)⟩
    rw [← hbytes]
    exact readN_writeN_self _ _ _ hwf
  · intro s peer plain m x ha hop h1 h18 hlen hx hatt
    have hx' : inboundOf (heardFrom peer s) peer m.tenant m.corr = some x := by rwa [inboundOf_heardFrom]
    exact ⟨_, _, kvShipAbort_dropped ha hop h1 h18 hlen hx hatt, inboundOf_setInbound hx' rfl rfl rfl, rfl, rfl, rfl⟩
  · intro s peer plain m r ha hop h1 h18 hlen hr hcode
    refine congrArg (nextOf s) ((onShip_arrives ha hop h1 h18 hlen).trans ?_)
    simp only [shipping_heardFrom, hr, hcode, if_true]
  · intro s peer plain m f job ha h14 hr1 hr2 hc1 hc2 hlen hjob p hp hfits hnew
    rw [← keepPartial_new (f := f) (by rw [hp]) hnew]
    exact congrArg (nextOf s) (tile_arrives ha h14 hr1 hr2 hc1 hc2 hlen hjob hp hfits)

end Sys2Proof.HandoverMessages

/-! The stages, timers and deadlines of requests: R362 to R368, R373, R379, R380, and the cells that a stage waits for (R3, R385, R387). -/

namespace Sys2Proof.RequestEvents

open Sys2Proof Sys2Proof.Machine Sys2Proof.Laws

variable {s s1 u : State} {serial now : Nat} {q r : Request} {fetched : List (Nat × Nat × Nat × Bytes)} {payloads : List (Nat × Bytes)} {j : SearchJob}

/-! ### A request that an event names -/

theorem requestOf_advance (now serial : Nat) (s : State) : requestOf (advance now s) serial = requestOf s serial := by
  rw [requestOf, advance_serve, requestOf]

theorem serial_of_requestOf (h : requestOf s serial = some q) : q.serial = serial := by simpa using List.find?_some h

/-- An event of a request that is not ending goes on with it, R363. -/
theorem onRequest_live {k : Request → State → State} (h : requestOf s serial = some r) (hr : r.state ≠ .ending) :
    onRequest serial now s k = k r (advance now s) := by
  simp only [onRequest, requestOf_advance, h, if_neg hr]

/-- A stage of a request that is not ending goes on after the steps that wait have been brought up to date, R384. -/
theorem onStage_live {k : Request → State → State} (hs : s1 = syncStages (advance now s))
    (hlive : (requestOf (advance now s) serial).any (fun r => r.state ≠ .ending) = true) (hq : requestOf s1 serial = some q) :
    onStage serial now s k = if (stageModel s1 q).isNone then k q s1 else if holdsCells s1 serial then stageOver serial (k q s1) else s1 := by
  obtain ⟨r, hr, hstate⟩ := Option.any_eq_true .. |>.mp hlive
  rw [onStage, onRequest_live (by rwa [requestOf_advance] at hr) (of_decide_eq_true hstate), ← hs]
  simp only [hq]

section
variable {k : Request → State → State} (hs : s1 = syncStages (advance now s))
  (hlive : (requestOf (advance now s) serial).any (fun r => r.state ≠ .ending) = true) (hq : requestOf s1 serial = some q)
include hs hlive hq

/-- A stage that needs no cells runs. -/
theorem onStage_free (hnone : stageModel s1 q = none) : onStage serial now s k = k q s1 := by
  rw [onStage_live hs hlive hq, hnone]
  rfl

/-- A step of a model that has been granted cells runs, R387. -/
theorem onStage_granted (hsome : (stageModel s1 q).isSome = true) (hcells : holdsCells s1 serial = true) :
    onStage serial now s k = stageOver serial (k q s1) := by
  rw [onStage_live hs hlive hq, Option.isNone_eq_false_iff.mpr hsome, hcells]
  rfl

/-- A step of a model without cells waits for them, R387. -/
theorem onStage_waits (hsome : (stageModel s1 q).isSome = true) (hcells : holdsCells s1 serial = false) : onStage serial now s k = s1 := by
  rw [onStage_live hs hlive hq, Option.isNone_eq_false_iff.mpr hsome, hcells]
  rfl

end

/-! ### The model that a step needs -/

/-- What a decoding request runs next: a step here that its budget allows, R373. -/
theorem stageModel_decoding (h : q.state = .decoding) : (stageModel s q).isSome
    = (decide (q.holder = s.fabric.view.self) && stepsNext s q && (!isEntry s q || budgetOpen s q)) := by
  simp only [stageModel, h, reduceCtorEq, decide_false, Bool.and_false, Bool.false_and, Bool.false_eq_true, false_and, if_false, true_and]
  rw [Bool.eq_iff_iff, Option.isSome_ite]

theorem stageModel_prefilling (h : q.state = .prefilling) (hhere : q.holder = s.fabric.view.self) : (stageModel s q).isSome = true := by
  simp [stageModel, h, hhere]

/-- A search that every shard has answered goes on to the scorer, R364. -/
theorem stageModel_answered (h : q.state = .retrieving) (hserial : q.serial = serial) (hj : s.indexes.jobs.find? (fun j => j.serial == serial) = some j)
    (hall : j.awaited = []) : (stageModel s q).isSome = true := by
  have hany : s.indexes.jobs.any (fun j => j.serial == q.serial && j.awaited.isEmpty) = true :=
    List.any_eq_true.mpr ⟨j, List.mem_of_find?_eq_some hj, by simpa [hserial, hall] using List.find?_some hj⟩
  simp only [stageModel, h, reduceCtorEq, decide_false, Bool.and_false, Bool.false_and, Bool.false_eq_true, if_false, if_true, hany, Option.isSome_some]

/-- A request that retrieves and has not begun needs its encoder, R364. -/
theorem stageModel_begins (hpipe : retrieves q.pipe = true) (h : q.state = .queued) (hprompt : q.prompt = []) (hrtp : q.rtp = none) :
    (stageModel s q).isSome = true := by
  simp [stageModel, hpipe, h, hprompt, hrtp]

/-! ### Running a stage -/

theorem run_get_bind {α : Type} (f : State → StageM α) (s : State) : (do f (← get) : StageM α).run s = (f s).run s := rfl

theorem run_bind_ok {α β : Type} {m : StageM α} {a : α} (f : α → StageM β) (h : m.run s = (.ok a, u)) : (do f (← m) : StageM β).run s = (f a).run u := by
  have hrun : StateT.run m.run s = (.ok a, u) := h
  rw [ExceptT.run_bind]
  refine (StateT.run_bind ..).trans ?_
  rw [hrun]
  rfl

/-- A stage that comes to its end leaves what it made and waits for no rows, R249. -/
theorem runStage_done {m : StageM Unit} (h : m.run (removeItems (handoverSerial r.serial) s) = (.ok (), u)) :
    runStage r m s = dropFetching (handoverSerial r.serial) u := by
  simp only [runStage, h]

/-- A stage that fails ends its request with the status of the failure. -/
theorem runStage_fails {m : StageM Unit} {st : Status} {d : Nat} (h : m.run (removeItems (handoverSerial r.serial) s) = (.error (.fails st d), u)) :
    ∃ v, runStage r m s = failRequest ((requestOf v r.serial).getD r) st d v
      ∧ v = dropFetching (handoverSerial r.serial) { u with counters := v.counters } := by
  simp only [runStage, h]
  exact ⟨_, rfl, rfl⟩

/-! ### Retrieval -/

theorem removeItems_indexes (n : Nat) (s : State) : (removeItems n s).indexes = s.indexes := rfl

/-- A search whose shards have all answered goes on to its end, R364. -/
theorem retrievalStage_ends (hs : s1 = syncStages (advance now s)) (hlive : (requestOf (advance now s) serial).any (fun r => r.state ≠ .ending) = true)
    (hq : requestOf s1 serial = some q) (hstate : q.state = .retrieving) (hj : s1.indexes.jobs.find? (fun j => j.serial == serial) = some j)
    (hall : j.awaited = []) (hcells : holdsCells s1 serial = true)
    (hrun : (retrievalEnd q j fetched payloads).run (removeItems (handoverSerial serial) s1) = (.ok (), u)) :
    retrievalStage serial fetched payloads now s = stageOver serial (dropFetching (handoverSerial serial) u) := by
  have hserial := serial_of_requestOf hq
  have hbegun : ¬ (retrieves q.pipe && decide (q.state = .queued) && q.prompt.isEmpty && q.rtp.isNone) = true := by simp [hstate]
  rw [retrievalStage, onStage_granted hs hlive hq (stageModel_answered hstate hserial hj hall) hcells]
  simp only [if_neg hbegun, if_pos hstate]
  refine (congrArg (stageOver serial) (runStage_done (u := u) ?_)).trans (by rw [hserial])
  rw [run_get_bind]
  simp only [removeItems_indexes, hj, hall, List.isEmpty_nil, if_true, hserial]
  exact hrun

/-- A request that begins to retrieve waits for the shards that its job awaits, R364. -/
theorem retrievalStage_begins (hs : s1 = syncStages (advance now s)) (hlive : (requestOf (advance now s) serial).any (fun r => r.state ≠ .ending) = true)
    (hq : requestOf s1 serial = some q) (hpipe : retrieves q.pipe = true) (hstate : q.state = .queued) (hprompt : q.prompt = []) (hrtp : q.rtp = none)
    (hcells : holdsCells s1 serial = true) (hrun : (retrievalBegin q fetched).run (removeItems (handoverSerial serial) s1) = (.ok (), u))
    (hr : requestOf u serial = some r) (hj : u.indexes.jobs.find? (fun j => j.serial == serial) = some j) (hawaited : j.awaited ≠ []) :
    retrievalStage serial fetched payloads now s = stageOver serial (dropFetching (handoverSerial serial) u) := by
  have hserial := serial_of_requestOf hq
  have hbegins : (retrieves q.pipe && decide (q.state = .queued) && q.prompt.isEmpty && q.rtp.isNone) = true := by simp [hpipe, hstate, hprompt, hrtp]
  have hwaits : ¬ j.awaited.isEmpty = true := by simpa using hawaited
  rw [retrievalStage, onStage_granted hs hlive hq (stageModel_begins hpipe hstate hprompt hrtp) hcells]
  simp only [if_pos hbegins]
  refine (congrArg (stageOver serial) (runStage_done (u := u) ?_)).trans (by rw [hserial])
  rw [hserial, run_bind_ok _ hrun, run_get_bind]
  simp only [hr]
  rw [run_get_bind]
  simp only [hj, if_neg hwaits]
  rfl

/-! ### Prefill and decoding -/

/-- What PREFILL_STAGE does with its request. -/
def prefillRow (fetched : List (Nat × Nat × Nat × Bytes)) (q : Request) (s : State) : State :=
  if q.state = .prefilling ∧ q.holder = s.fabric.view.self then runStage q (prefillStage q fetched) s
  else if q.state = .shipping ∧ q.shipTo = none then openShip q s
  else s

theorem execPrefillStage_eq (serial now : Nat) (s : State) :
    execPrefillStage serial fetched now s = nextOf s (onStage serial now s (prefillRow fetched)) := rfl

theorem prefillRow_here (h : q.state = .prefilling) (hhere : q.holder = s.fabric.view.self) :
    prefillRow fetched q s = runStage q (prefillStage q fetched) s := if_pos ⟨h, hhere⟩

/-- What DECODE_STEP does with its request. -/
def decodeRequest (fetched : List (Nat × Nat × Nat × Bytes)) (q : Request) (s : State) : State :=
  if q.state ≠ .decoding then s
  else if q.holder = s.fabric.view.self then decodeRow q fetched s
  else consumeAll q s

theorem execDecodeStep_eq (serial now : Nat) (s : State) : execDecodeStep serial fetched now s = nextOf s (onStage serial now s (decodeRequest fetched)) := rfl

theorem decodeRequest_decoding (h : q.state = .decoding) :
    decodeRequest fetched q s = if q.holder = s.fabric.view.self then decodeRow q fetched s else consumeAll q s := if_neg (not_not.mpr h)

/-- A budget that is spent stops a step, R371. -/
theorem budgetGate_stops (h : budgetOpen s q = false) : ∃ u, budgetGate q s = .stop u := by
  unfold budgetOpen at h
  unfold budgetGate
  split at h
  · cases h
  · simp only [if_neg (of_decide_eq_false h)]
    split <;> exact ⟨_, rfl⟩

/-- A step of an entry member whose budget is spent does what the budget says. -/
theorem decodeRow_stopped (hnext : stepsNext s q = true) (hentry : isEntry s q = true) (hgate : budgetGate q s = .stop u) : decodeRow q fetched s = u := by
  simp only [stepsNext, Bool.and_eq_true, Bool.not_eq_true'] at hnext
  obtain ⟨⟨⟨hconsume, htail⟩, -⟩, hterminal⟩ := hnext
  have hends : ¬ (q.tailEnd.isSome = true ∨ (!true && decide (2 ≤ q.ahead)) = true) := by simpa using htail
  simp only [decodeRow, hconsume, hentry, hterminal, if_neg hends, Bool.false_eq_true, if_false, if_true, hgate]

/-! ### Pages and chunks -/

/-- A queued request takes its prompt from memory and reserves its pages for it, R329, R345, R366. -/
theorem takePrompt_reads (hread : readFails s (fld q.params 8 8) (if bitOf (fld q.params 2 1) 0 then 4 * fld q.params 16 4 else fld q.params 16 4) = none) :
    ∃ r, r = { q with prompt := r.prompt, promptTokens := r.prompt.length }
      ∧ r.prompt = inputTokens s q.pipe (bitOf (fld q.params 2 1) 0) (fld q.params 8 8) (fld q.params 16 4)
      ∧ ∃ cs, takePrompt q s = tryPages r (setRequest r (cs.foldl (fun (t : State) (c : Ctr × Nat × Nat) => bump c.1 c.2.1 c.2.2 t) s))
        ∧ (bitOf (fld q.params 2 1) 0 = true → cs = []) := by
  simp only [takePrompt, hread]
  exact ⟨_, rfl, rfl, _, rfl, fun h => if_pos h⟩

/-- Room in the ring lets the next chunk be held, R380. -/
theorem holdChunk_room (hopen : q.chunkHeld = false) (hroom : q.slots ≤ cqFree (cqOf s.host (requestRing s q))) :
    holdChunk q s = ({ q with chunkHeld := true, ringWait := false }, requestSlots q true s) := by
  simp only [holdChunk, hopen, Bool.false_eq_true, if_false, if_pos hroom]

/-! ### The end -/

/-- Releasing ranges of memory changes no request. -/
theorem foldl_releaseAlloc_serve {α : Type} (base : α → Nat) (len : State → α → Nat) (l : List α) (s : State) :
    (l.foldl (fun u a => releaseAlloc (base a) (len u a) u) s).serve = s.serve := by
  induction l generalizing s with
  | nil => rfl
  | cons a l ih => exact ih _

theorem reapText_serve (live : List Nat) (s : State) : (reapText live s).serve = s.serve := foldl_releaseAlloc_serve id _ _ s

theorem reapServed_requests (s : State) : (reapServed s).serve.requests = s.serve.requests := by
  simp only [reapServed, reapText_serve]
  exact congrArg ServeSpace.requests (foldl_releaseAlloc_serve (fun p : Nat × SteerSet => p.2.base) _ _ s)

theorem requestOf_dropRequest (serial : Nat) (s : State) : requestOf (dropRequest serial s) serial = none :=
  List.find?_eq_none.mpr fun r hr => by simpa using (List.mem_filter.mp hr).2

/-- A request that has been freed can be named no more, R363. -/
theorem requestOf_freeRequest (q : Request) (s : State) : requestOf (freeRequest q s) q.serial = none := by
  rw [freeRequest, requestOf, reapServed_requests]
  exact requestOf_dropRequest _ _

/-- Settles O47: a stage by whether its item holds cells, the other events by the request's state and the time. -/
theorem requestEventsTakeEffect : Obligations.RequestEventsTakeEffect := by
  unfold Obligations.RequestEventsTakeEffect
  refine ⟨?_, ?_, ?_, ?_, ?_, ?_, ?_, ?_, ?_, ?_, fun s q => requestOf_freeRequest q s⟩
  · intro s s1 serial now q fetched hs hlive hq hstate hhere hcells
    have hserial := serial_of_requestOf hq
    have hgranted := onStage_granted (k := prefillRow fetched) hs hlive hq (stageModel_prefilling hstate hhere) hcells
    rw [prefillRow_here hstate hhere] at hgranted
    refine ⟨fun u hrun => ?_, fun st d u hrun => ?_⟩
    · rw [runStage_done (u := u) (by rwa [hserial]), hserial] at hgranted
      exact (execPrefillStage_eq serial now s).trans (congrArg (nextOf s) hgranted)
    · obtain ⟨v, hfails, hv⟩ := runStage_fails (r := q) (s := s1) (by rwa [hserial])
      rw [hfails, hserial] at hgranted
      exact ⟨v, (execPrefillStage_eq serial now s).trans (congrArg (nextOf s) hgranted), by rwa [hserial] at hv⟩
  · intro s s1 serial now q fetched hs hlive hq hstate
    have hmodel := stageModel_decoding (s := s1) hstate
    have hexec := execDecodeStep_eq (fetched := fetched) serial now s
    have hstep := decodeRequest_decoding (s := s1) (fetched := fetched) hstate
    refine ⟨fun haway => ?_, fun hhere hnot => ?_, fun hhere hnext hbudget hcells => ?_, fun hhere hnext hentry hspent => ?_⟩
    · have hnone : stageModel s1 q = none := Option.not_isSome_iff_eq_none.mp (by simp [hmodel, haway])
      exact hexec.trans (congrArg (nextOf s) <| (onStage_free (k := decodeRequest fetched) hs hlive hq hnone).trans (hstep.trans (if_neg haway)))
    · have hnone : stageModel s1 q = none := Option.not_isSome_iff_eq_none.mp (by simp [hmodel, hnot])
      exact hexec.trans (congrArg (nextOf s) <| (onStage_free (k := decodeRequest fetched) hs hlive hq hnone).trans (hstep.trans (if_pos hhere)))
    · have hsome : (stageModel s1 q).isSome = true := by rcases hbudget with h | h <;> simp [hmodel, hhere, hnext, h]
      have hgranted := onStage_granted (k := decodeRequest fetched) hs hlive hq hsome hcells
      rw [hstep, if_pos hhere] at hgranted
      exact hexec.trans (congrArg (nextOf s) hgranted)
    · have hnone : stageModel s1 q = none := Option.not_isSome_iff_eq_none.mp (by simp [hmodel, hentry, hspent])
      obtain ⟨u, hgate⟩ := budgetGate_stops hspent
      exact ⟨u, hgate, hexec.trans (congrArg (nextOf s) <| (onStage_free (k := decodeRequest fetched) hs hlive hq hnone).trans
        (hstep.trans ((if_pos hhere).trans (decodeRow_stopped hnext hentry hgate))))⟩
  · intro s s1 u serial now q j fetched payloads hs hlive hq hstate hj hall hcells hrun
    exact congrArg (nextOf s) (retrievalStage_ends hs hlive hq hstate hj hall hcells hrun)
  · rintro s s1 u serial now q fetched payloads hs hlive hq hpipe hstate hprompt hrtp hcells hrun ⟨r, hr, j, -, -, hawaited, hj⟩
    exact congrArg (nextOf s) (retrievalStage_begins hs hlive hq hpipe hstate hprompt hrtp hcells hrun hr hj hawaited)
  · intro s serial now fetched q hq hlive hsome hcells
    have hwaits := fun k => onStage_waits (k := k) rfl hlive hq hsome hcells
    exact ⟨congrArg (nextOf s) (hwaits _), congrArg (nextOf s) (hwaits _), fun payloads => congrArg (nextOf s) (hwaits _)⟩
  · intro s s1 serial now q hs hlow hq hstate hkind hprompt hread
    obtain ⟨r, hr, htokens, cs, htake, hcs⟩ := takePrompt_reads hread
    refine ⟨r, hr, htokens, cs, congrArg (nextOf s) ?_, hcs⟩
    have hreads : ¬ (q.pipe.kind = 4 ∨ q.prompt.isEmpty = false) := by simp [hkind, hprompt]
    rw [← htake, hs, pageReservation, if_neg (Nat.not_le.mpr hlow), onRequest_live hq (by simp [hstate])]
    exact (if_neg (not_not.mpr hstate)).trans ((if_neg hreads).trans (if_pos (.inl hkind)))
  · intro s s1 serial now q hs hq hstate hopen hentry hroom
    subst hs
    have hentry' : isEntry (advance now s) q = true := by rwa [isEntry, advance_fabric]
    refine congrArg (nextOf s) ((onRequest_live hq hstate).trans ?_)
    simp only [hopen, hentry', Bool.not_true, Bool.or_self, Bool.false_eq_true, if_false, holdChunk_room hopen hroom, if_true]
  · intro s s1 serial now q hs hq hstate hus htokens hdue
    subst hs
    have hpost : ¬ (q.chunkUs = 0 ∨ q.chunkTokens.isEmpty = true ∨ (advance now s).frontTime < q.chunkSince + q.chunkUs * 1000) := by
      simpa [hus, htokens] using hdue
    exact congrArg (nextOf s) ((onRequest_live hq hstate).trans (if_neg hpost))
  · intro s s1 serial now q hs hq hstate hentry hdue
    subst hs
    have hentry' : isEntry (advance now s) q = true := by rwa [isEntry, advance_fabric]
    have hpast : ¬ (!isEntry (advance now s) q || decide ((advance now s).frontTime < q.arrival + q.deadline)) = true := by simpa [hentry'] using hdue
    exact congrArg (nextOf s) ((onRequest_live hq hstate).trans (if_neg hpast))
  · intro s serial q hq hstate
    exact congrArg (nextOf s) (by simp only [hq, if_pos hstate])

end Sys2Proof.RequestEvents

/-! The commands about requests (R358, R359, R381, R382) and the images of their keys and values (R369, R370). -/

namespace Sys2Proof.RequestCommands

open Sys2Proof Sys2Proof.Machine Sys2Proof.Laws

variable {s s0 s1 u : State} {h k n : Nat} {f : Flight} {p : Pipeline} {q r : Request}

/-! ### Fresh handles and streams -/

/-- A fresh handle is drawn from the free values and nothing else changes. -/
theorem freshHandle_rest (kind : Nat) (held : List Nat) (s : State) : (freshHandle kind held s).2 = { s with freeCtr := (freshHandle kind held s).2.freeCtr } := rfl

/-- The stream of a request, named or opened, is bound to it, R358. -/
theorem submitStream_binds (s : State) (f : Flight) (p : Pipeline) : ∃ k u x, submitStream s f p = (k, u) ∧ kget u.text.streams k = some x
    ∧ x.request = some f.serial ∧ u = { s with freeCtr := u.freeCtr, text := u.text } := by
  unfold submitStream
  by_cases hopen : par f 40 4 = 0xFFFFFFFF
  · simp only [if_pos hopen]
    exact ⟨_, _, _, rfl, kget_kset_self .., rfl, rfl⟩
  · simp only [if_neg hopen]
    exact ⟨_, _, _, rfl, kget_kset_self .., rfl, rfl⟩

/-! ### Admission -/

/-- What an admission counts: against the tenant's budget and contract, R403, R407. -/
def countAdmission (f : Flight) (r : Request) (s : State) : State :=
  let t := match budgetOf s f.tenant with
    | none => s
    | some b => setBudget f.tenant { b with admitted := b.admitted + 1 } s
  bump .reqAdmitted f.tenant 1 (if r.covered then admitCovered f.tenant f.taken t else t)

theorem admitCovered_rest (tenant stamp : Nat) (s : State) : admitCovered tenant stamp s
    = { s with counters := (admitCovered tenant stamp s).counters, sched := (admitCovered tenant stamp s).sched } := by
  unfold admitCovered
  split <;> rfl

theorem countAdmission_rest (f : Flight) (r : Request) (s : State) : countAdmission f r s
    = { s with counters := (countAdmission f r s).counters, sched := (countAdmission f r s).sched } := by
  unfold countAdmission
  cases r.covered <;> cases budgetOf s f.tenant <;> simp only [if_true, Bool.false_eq_true, if_false]
  · rfl
  · rfl
  · rw [admitCovered_rest]; rfl
  · rw [admitCovered_rest]; rfl

/-- The state in which a request stands admitted, before it is counted. -/
def admitting (f : Flight) (r : Request) (s : State) : State :=
  addRequest r { s with serve := { s.serve with images := if submitKv f then kdel s.serve.images (par f 8 4) else s.serve.images } }

/-- A REQUEST_SUBMIT that passes its checks adds its request, R359. -/
theorem submitRun_admits (hp : submitPipe s f = some p) (hstream : submitStream s f p = (k, u)) :
    submitRun s f = .begun (countAdmission f (submittedRequest s f p k) (admitting f (submittedRequest s f p k) u)) := by
  simp only [submitRun, hp, hstream]
  rfl

/-- An admission changes, beside what it counts, requests and images. -/
theorem admitting_rest (f : Flight) (r : Request) (s : State) : admitting f r s
    = { s with dbg := (admitting f r s).dbg, serve := { (admitting f r s).serve with requests := s.serve.requests ++ [r] } } := by
  unfold admitting addRequest noteHigh
  simp only
  split <;> rfl

/-! ### A request that is named -/

theorem fld_zeros_skip {off : Nat} (n len : Nat) (b : Bytes) (h : n ≤ off) : fld (zeros n ++ b) off len = fld b (off - n) len := by
  rw [← fld_append_right (zeros n) b (off - n) len n (by simp [zeros]), Nat.add_sub_cancel' h]

/-- The bytes of REQUEST_STATUS, R382. -/
theorem requestStatus_run (hr : namedRequest s f = some r) :
    ∃ b, requestStatusCommand.run s f = .done s (okReply b) ∧ b.length = 32 ∧ fld b 0 1 = r.state.code ∧ fld b 8 4 = r.promptTokens % 2 ^ 32
      ∧ fld b 12 4 = r.consumed % 2 ^ 32 ∧ fld b 24 8 = r.arrival % 2 ^ 64 := by
  have hcode : r.state.code < 256 := by cases r.state <;> decide
  simp only [requestStatusCommand, hr]
  refine ⟨_, rfl, by simp [zeros], ?_, ?_, ?_, ?_⟩
  · simp [List.append_assoc, Headers.fld_toLe_append, Nat.mod_eq_of_lt hcode]
  · simp [List.append_assoc, Headers.fld_toLe_append, Headers.fld_toLe_skip, fld_zeros_skip]
  · simp [List.append_assoc, Headers.fld_toLe_append, Headers.fld_toLe_skip, fld_zeros_skip]
  · simp [List.append_assoc, Headers.fld_toLe_skip, fld_zeros_skip]

/-! ### Images of keys and values -/

/-- A KV_EXPORT whose image can be written ends its request, R369. -/
theorem kvExport_run {m : Model} (hx : exported s f = some (r, m))
    (hw : commitWrites (some f.serial) f.tenant [(par f 8 8, kvImageBytes m r ((r.kv.map (·.cells)).getD []))] 0 s = .done s1) :
    kvExportCommand.run s f = .done (endRequest r ⟨6, .ok, 0, 0xFFFF⟩ s1) (okReply []) := by
  simp only [kvExportCommand, hx]
  exact MemoryCommands.commitVerdict_done hw

/-- A KV_IMPORT that finds frames records its image under a fresh handle, R370. -/
theorem kvImport_run {frames : List Nat} (hn : n = fld (memRead s (par f 0 8) (par f 8 4)) 6 2 * fld (memRead s (par f 0 8) (par f 8 4)) 28 4)
    (hfind : findFrames (some f.serial) f.tenant n s = .found s0) (hgive : giveFrames f.tenant n [0, 0, 0, 0] s0 = some (frames, s1)) :
    ∃ k c x, k ∉ kkeys s1.serve.images ∧ x.tenant = f.tenant ∧ x.positions = fld (memRead s (par f 0 8) (par f 8 4)) 12 4 ∧ x.pages.frames = frames
      ∧ kvImportCommand.run s f = .done { s1 with freeCtr := c, serve := { s1.serve with images := kset s1.serve.images k x } } (okReply (toLe 4 k ++ zeros 4)) := by
  subst hn
  simp only [kvImportCommand, hfind, hgive]
  exact ⟨_, _, _, TextCommands.freshHandle_not_held 8 _ s1, rfl, rfl, rfl, rfl⟩

/-- Settles O46: each command by what its checks leave of it. -/
theorem requestCommandsComplete : Obligations.RequestCommandsComplete := by
  unfold Obligations.RequestCommandsComplete
  refine ⟨?_, ?_, ?_, ?_, ?_⟩
  · intro s h f p hr hp
    obtain ⟨k, u, x, hstream, hx, hbound, hu⟩ := submitStream_binds s f p
    have hrun := submitRun_admits hp hstream
    have hserve : u.serve = s.serve := by rw [hu]
    have hcount := countAdmission_rest f (submittedRequest s f p k) (admitting f (submittedRequest s f p k) u)
    have hadmit := admitting_rest f (submittedRequest s f p k) u
    refine ⟨submittedRequest s f p k, _, x, execEntry_begins hr hrun, ?_, rfl, rfl, rfl, rfl, rfl, rfl, rfl, rfl, rfl, rfl, ?_, hbound, ?_, ?_, ?_⟩
    · rw [hcount, hadmit, hserve]
    · rw [hcount, hadmit]
      exact hx
    · rw [hcount, hadmit, hu]
    · rw [hcount, hadmit, hu]
    · rw [hcount, hadmit, hu]
  · intro s h f r hr hfind
    have hnamed : namedRequest s f = some r := hfind
    refine ⟨fun hlive => execEntry_commits hr rfl ?_, fun hending => execEntry_commits hr rfl ?_⟩
    · simp only [requestCancelCommand, hnamed, if_neg hlive]
    · simp only [requestCancelCommand, hnamed, if_pos hending]
  · intro s h f r hr hfind
    obtain ⟨b, hrun, hb⟩ := requestStatus_run hfind
    exact ⟨b, execEntry_commits hr rfl hrun, hb⟩
  · intro s s1 h f r m hr hx hw
    exact execEntry_commits hr rfl (kvExport_run hx hw)
  · intro s s0 s1 h n f frames hr hn hfind hgive
    obtain ⟨k, c, x, hk, htenant, hpositions, hframes, hrun⟩ := kvImport_run hn hfind hgive
    exact ⟨k, _, x, execEntry_commits hr rfl hrun, hk, kget_kset_self .., htenant, hpositions, hframes, fun j hj => kget_kset_ne _ _ hj, rfl, rfl, rfl⟩

end Sys2Proof.RequestCommands

/-! Models, steering sets and pipelines: R347, R350, R354, R377, and the handles they are named by, R346. -/

namespace Sys2Proof.ModelCommands

open Sys2Proof Sys2Proof.Machine Sys2Proof.Laws

variable {s s1 : State} {f : Flight} {h i k tenant : Nat}

/-! ### Handles -/

/-- A fresh handle has its kind in the top bits while few handles are held or named, R346. -/
theorem freshHandle_kind {kind : Nat} {held : List Nat}
    (hfew : (held ++ (s.proto.flights ++ stagedFlights s).flatMap namedHandles ++ s.serve.requests.flatMap requestHandles).length < 2 ^ 27) :
    (freshHandle kind held s).1 / 2 ^ 28 = kind := by
  obtain ⟨k, hk⟩ := TextCommands.exists_firstFree (held ++ (s.proto.flights ++ stagedFlights s).flatMap namedHandles ++ s.serve.requests.flatMap requestHandles)
    (kind * 2 ^ 28 + (drawFree s).1 % 2 ^ 27)
  have hdef : (freshHandle kind held s).1 = k := by
    simp only [freshHandle]
    exact congrArg (Option.getD · _) hk
  have hlow := (SessionCommands.firstFree_lowest hk).1
  have hhigh := (TableCommands.firstFree_some hk).2
  have hdrawn : (drawFree s).1 % 2 ^ 27 < 2 ^ 27 := Nat.mod_lt _ (by norm_num)
  rw [hdef]
  omega

/-- An entry changed in place, found under its key. -/
theorem kget_map_at {α : Type} (g : α → α) (m : KMap α) (k : Nat) :
    kget (m.map (fun p => if p.1 = k then (p.1, g p.2) else p)) k = (kget m k).map g := by
  induction m with
  | nil => rfl
  | cons p m ih =>
    obtain ⟨j, v⟩ := p
    by_cases hj : j = k
    · simp [kget, hj]
    · simp [kget, hj, ih]

/-- The other entries stay. -/
theorem kget_map_ne {α : Type} (g : α → α) (m : KMap α) {j k : Nat} (h : j ≠ k) :
    kget (m.map (fun p => if p.1 = k then (p.1, g p.2) else p)) j = kget m j := by
  induction m with
  | nil => rfl
  | cons p m ih =>
    obtain ⟨i, v⟩ := p
    by_cases hi : i = k
    · simp [kget, hi, Ne.symm h, ih]
    · simp [kget, hi, ih]

/-- A map whose entry under a key is marked as dropped shows nothing under it. -/
theorem live_of_dropped {α : Type} (dropped : α → Bool) {mark : α → α} (hmark : ∀ x, dropped (mark x) = true) (m : KMap α) (k : Nat) :
    (kget (m.map (fun p => if p.1 = k then (p.1, mark p.2) else p)) k).filter (fun x => !dropped x) = none := by
  rw [kget_map_at]
  cases kget m k with
  | none => rfl
  | some x => simp [hmark]

theorem releaseFrames_serve (tenant : Nat) (l : List Nat) (s : State) : (releaseFrames tenant l s).serve = s.serve := by
  unfold releaseFrames
  generalize l.zipIdx = ps
  induction ps generalizing s with
  | nil => rfl
  | cons p ps ih => exact ih _

/-- An unloaded handle can be named no more, R347. -/
theorem handleOwner_unloadHandle (hk : k / 2 ^ 28 ∈ [1, 2, 3, 4, 5, 6, 8]) : handleOwner (unloadHandle k s) k = none := by
  simp only [List.mem_cons, List.not_mem_nil, or_false] at hk
  rcases hk with hk | hk | hk | hk | hk | hk | hk <;> simp only [handleOwner, unloadHandle, hk, Option.map_eq_none_iff]
  · exact live_of_dropped Model.dropped (mark := fun x => { x with dropped := true }) (fun _ => rfl) _ _
  · exact kget_kdel_self _ _
  · exact kget_kdel_self _ _
  · exact live_of_dropped Tokeniser.dropped (mark := fun x => { x with dropped := true }) (fun _ => rfl) _ _
  · exact live_of_dropped StopSet.dropped (mark := fun x => { x with dropped := true }) (fun _ => rfl) _ _
  · exact live_of_dropped Grammar.dropped (mark := fun x => { x with dropped := true }) (fun _ => rfl) _ _
  · cases himage : kget s.serve.images k with
    | none => exact himage
    | some x =>
      simp only [releaseFrames_serve]
      exact kget_kdel_self _ _

/-! ### Models -/

/-- MODEL_LOAD records the model of its image under a fresh handle, R350. -/
theorem modelLoad_run (s : State) (f : Flight) : ∃ k c, k ∉ kkeys s.serve.models ∧ modelLoadCommand.run s f
    = .done (setModels (kset s.serve.models k (modelFrom f.tenant (memRead s (par f 0 8) (par f 8 4)))) { s with freeCtr := c })
      (okReply (toLe 4 k ++ zeros 4 ++ sha256 (memRead s (par f 0 8) (par f 8 4)))) :=
  ⟨_, _, TextCommands.freshHandle_not_held 1 _ s, rfl⟩

/-! ### Steering sets -/

/-- Storage is taken from the tiers alone. -/
theorem takeStorage_compute {tier die len a : Nat} (h : takeStorage tenant tier die len s = .ok (a, s1)) : s1.compute = s.compute := by
  unfold takeStorage at h
  split_ifs at h
  · cases h
    rfl
  · cases h
    rfl

theorem takeTables_compute {len a : Nat} (h : takeTables tenant len s = .ok (a, s1)) : s1.compute = s.compute := by
  unfold takeTables at h
  split at h
  · cases h
  · cases h
    exact takeStorage_compute ‹_›

/-- A steering set is recorded under the lowest free index, R377. -/
theorem addSteer_records {img : Bytes} (h : addSteer tenant img s = some (i, s1)) : firstFree (kkeys s.compute.steers) 0 65536 = some i
    ∧ ∃ x, x.tenant = tenant ∧ x.dropped = false ∧ s1.compute.steers = kset s.compute.steers i x := by
  unfold addSteer at h
  split at h
  · next base u j htake hfree =>
    have hcompute := takeTables_compute htake
    cases h
    exact ⟨hfree, _, rfl, rfl, by rw [hcompute]⟩
  · cases h

theorem steerSetLoad_run (h : addSteer f.tenant (memRead s (par f 0 8) (par f 8 4)) s = some (i, s1)) :
    steerSetLoadCommand.run s f = .done s1 (okReply (toLe 4 i ++ zeros 4)) := by
  simp only [steerSetLoadCommand, h]

/-- The state in which a steering set is marked as dropped. -/
def dropSteer (i : Nat) (s : State) : State :=
  { s with compute := { s.compute with steers := s.compute.steers.map (fun p => if p.1 = i then (p.1, { p.2 with dropped := true }) else p) } }

/-- A steering set that was dropped can be named no more. -/
theorem steerOf_dropSteer (i : Nat) (s : State) : steerOf (dropSteer i s) i = none :=
  live_of_dropped SteerSet.dropped (mark := fun x => { x with dropped := true }) (fun _ => rfl) s.compute.steers i

theorem kget_dropSteer_ne {j : Nat} (s : State) (h : j ≠ i) : kget (dropSteer i s).compute.steers j = kget s.compute.steers j :=
  kget_map_ne (fun x : SteerSet => { x with dropped := true }) s.compute.steers h

theorem steerSetDrop_run (s : State) (f : Flight) : steerSetDropCommand.run s f = .done (reapServed (dropSteer (par f 0 4) s)) (okReply []) := rfl

/-! ### Pipelines -/

/-- PIPELINE_DEFINE without DELETE stores its descriptor, with the template where the pipeline retrieves, R354. -/
theorem pipeline_defines (hd : pipeDeletes f = false) : pipelineCommand.run s f = .done { s with serve := { s.serve with
    pipelines := kset s.serve.pipelines (par f 0 2) (pipelineOf f (if hasRetrieval (pipelineOf f []) then templateOf s f else [])) } } (okReply []) := by
  simp only [pipelineCommand, hd, Bool.false_eq_true, if_false]

/-- PIPELINE_DEFINE with DELETE takes the pipeline away, R354. -/
theorem pipeline_deletes (hd : pipeDeletes f = true) :
    pipelineCommand.run s f = .done { s with serve := { s.serve with pipelines := kdel s.serve.pipelines (par f 0 2) } } (okReply []) := by
  simp only [pipelineCommand, hd, if_true]

/-- The template of a stored pipeline is what memory held where it retrieves. -/
theorem pipelineOf_template (s : State) (f : Flight) (b : Bytes) : (if hasRetrieval (pipelineOf f []) then templateOf s f else [])
    = if (pipelineOf f b).kind ≤ 1 then memRead s (par f 72 8) (32 * par f 58 2) else [] := by
  simp only [hasRetrieval, decide_eq_true_eq]
  rfl

/-- Settles O35: each command by what its run does to the map it changes. -/
theorem modelCommandsComplete : Obligations.ModelCommandsComplete := by
  unfold Obligations.ModelCommandsComplete
  refine ⟨?_, fun s h f hr hh => execCommand_commits hr hh rfl rfl, fun s k hk => handleOwner_unloadHandle hk, ?_, ?_, ?_, ?_, ?_⟩
  · intro s h f hr hh
    obtain ⟨k, c, hk, hrun⟩ := modelLoad_run s f
    exact ⟨k, _, execCommand_commits hr hh rfl hrun, hk, kget_kset_self .., fun j hj => kget_kset_ne _ _ hj, rfl, rfl, rfl, rfl, rfl, rfl, rfl⟩
  · intro s s1 h i f hr hh hadd
    obtain ⟨hfree, x, htenant, hlive, hsteers⟩ := addSteer_records hadd
    refine ⟨execCommand_commits hr hh rfl (steerSetLoad_run hadd), ?_, fun j hj => ?_, ⟨x, ?_, htenant⟩, fun j hj => ?_⟩
    · rw [← Bool.not_eq_true, SessionCommands.khas_iff_mem]
      exact (TableCommands.firstFree_some hfree).1
    · rw [SessionCommands.khas_iff_mem]
      exact (SessionCommands.firstFree_lowest hfree).2 j (Nat.zero_le j) hj
    · rw [steerOf, hsteers, kget_kset_self]
      simp [hlive]
    · rw [hsteers, kget_kset_ne _ _ hj]
  · intro s h f hr hh
    exact ⟨dropSteer (par f 0 4) s, execCommand_commits hr hh rfl (steerSetDrop_run s f), steerOf_dropSteer _ s, fun j hj => kget_dropSteer_ne s hj, rfl, rfl⟩
  · intro s h f hr hh hd
    have hflight : flightOf s h = some f := hr.1
    exact ⟨_, _, (ofForm_of hflight (by simpa [pipeDeletes] using hd)).trans (execCommand_commits hr hh rfl (pipeline_defines hd)), kget_kset_self .., rfl, rfl,
      pipelineOf_template .., fun j hj => kget_kset_ne _ _ hj, rfl, rfl⟩
  · intro s h f hr hh hd
    have hflight : flightOf s h = some f := hr.1
    exact (ofForm_of hflight hd).trans (execCommand_commits hr hh rfl (pipeline_deletes hd))
  · intro kind held s
    have hunused := TextCommands.freshHandle_unused kind held s
    simp only [List.mem_append, List.mem_flatMap, not_or, not_exists, not_and] at hunused
    obtain ⟨⟨hheld, hflights⟩, hrequests⟩ := hunused
    exact ⟨hheld, fun f hf => hflights f (List.mem_append.mp hf), hrequests, freshHandle_kind⟩

end Sys2Proof.ModelCommands
